-- ==== Sys2Proof/Word.lean ====
section
/-! DEFINITION. The words of the DQ7104: 32-bit register and memory words and octets (R400). -/

namespace Sys2Proof

/-- A 32-bit word of the internal address space (R400). -/
abbrev Word := BitVec 32

/-- An octet. -/
abbrev Byte := BitVec 8

/-- A sparse table: entries by rising key; an unlisted key holds a default that the reader names. -/
abbrev Tbl (α : Type) := List (Nat × α)

end Sys2Proof
end

