-- ==== Sys2Proof/Syntax.lean ====
section
/-! DEFINITION. The commands of the DQ7104: one constructor for each row of the opcode table, with the facts the
command carries (an address, a value, a stamp, what was received). Bus commands name the master they come from. -/

namespace Sys2Proof

/-- The bus masters of R400, and the two hardware agents and the service port, which act for themselves. -/
inductive Master where
  | nav
  | ldsp (d : Fin 16)
  | cust
  | loader
  | ptp
  | itg
  | svc
  deriving DecidableEq, Repr

/-- One clock cycle of a sample link (R36): the codes on `D3`–`D0` at the rising and at the falling edge. Beside them:
the stream gave no sample and the link put a zero in its place (R42), the engine's input queue lost it (R69), it is the
first sample of a device epoch (R71). -/
structure LinkSample where
  i     : BitVec 4
  q     : BitVec 4
  sub   : Bool := false
  gap   : Bool := false
  epoch : Bool := false
  deriving DecidableEq, Repr

/-- The memories of a loop DSP (R145). -/
inductive DspSpace where
  | x | y | p
  deriving DecidableEq, Repr

/-- The access sizes of R401. -/
inductive AccSize where
  | b1 | b2 | b4
  deriving DecidableEq, Repr

/-- An error that a memory access finds in a protected unit (R21). -/
inductive Upset where
  | single | double
  deriving DecidableEq, Repr

/-- What a sample link shows over one device epoch: clocks counted, and the measured codes of `SLK_MEAS`
(R42, R45, R46). -/
structure LinkObs where
  clocks : Nat
  upfr   : BitVec 8
  fsfr   : BitVec 8
  dci    : BitVec 8
  dcq    : BitVec 8
  deriving DecidableEq, Repr

/-- What is measured over one device epoch: the links, the two supplies in 10 mV and 1 mV (ch. 14), and the crystal edges
since the last command that counted them (R299). -/
structure EpochObs where
  links : List LinkObs
  io33  : Nat
  core  : Nat
  edges : Nat
  deriving DecidableEq, Repr

/-- What a cold start finds outside the part's registers (R354). -/
structure ColdIn where
  /-- the ROM digest holds -/
  romOk  : Bool
  /-- reference edges counted for the classification (R240) -/
  rfi    : Nat
  /-- `PLL_A` locks at the first attempt -/
  pllA   : Bool
  /-- the flash answers with this many MiB -/
  mib    : Nat
  /-- crystal edges since the last command that counted them -/
  edges  : Nat
  /-- the erases of the journal's recovery leave their sectors blank (R386); the sector of an activation copy whose
  second read-back fails (R396) -/
  blankOk : Bool
  copyFail : Option Nat
  /-- the sectors whose first read-back alone fails in a copy (R396) -/
  copyAgain : List Nat
  /-- `TEST_EN` was high at the release of reset (R428, R433) -/
  testEn : Bool
  deriving DecidableEq, Repr

/-- What the judgement of an evidence record finds outside the part's registers (R201; log entry 28). -/
structure EvidIn where
  /-- the drift of navigation firmware's holdover model, 0.001 ppb -/
  model  : Int
  deriving DecidableEq, Repr

/-- What a soft start finds outside the part's registers (R357). -/
structure SoftIn where
  romOk : Bool
  /-- the density that the SFDP tables give, MiB; 0 for no tables (R346) -/
  mib : Nat
  edges : Nat
  blankOk : Bool
  copyFail : Option Nat
  /-- the sectors whose first read-back alone fails in a copy (R396) -/
  copyAgain : List Nat
  deriving DecidableEq, Repr

/-- The instructions of the test access port (R428). -/
inductive TapInstr where
  | bypass | idcode | sample | extest | clamp | highz
  deriving DecidableEq, Repr

/-- The set-up of a channel (R115, R120, R123, R128–R134). -/
structure ChanCfg where
  /-- satellite, signal code (R170), GLONASS channel; a BeiDou GEO satellite (R116); the loops of L2C run on CL -/
  sv     : Nat := 1
  sig    : Nat := 1
  k      : Int := 0
  geo    : Bool := false
  cl     : Bool := false
  /-- loop period T and coupled period in ms (R115, R130) -/
  period : Nat := 1
  tc     : Nat := 20
  /-- bandwidths in mHz: PLL, FLL assist, FLL alone in PULL-IN and in FREQ, DLL (R120) -/
  bnPll  : Nat := 10000
  bnAid  : Nat := 5000
  bnPull : Nat := 10000
  bnFreq : Nat := 2000
  bnDll  : Nat := 500
  coupled : Bool := false
  follow : Bool := false
  group  : Nat := 255
  antmask : Nat := 0
  /-- the shape ladder is enabled (R127–R129) -/
  shape  : Bool := false
  /-- the chips of the secondary code or overlay, those of −1 set: the published interface specification's -/
  sec    : List Bool := []
  /-- the search cell: code phase at the boundary of the first record, in engine chips and 2^-32 chip, and Doppler in
  2^-8 Hz; the phases and rates of the engine stand where there is none (R123) -/
  cell   : Option (Nat × Nat × Int) := none
  deriving DecidableEq, Repr

/-- What one loop update answers: a set-up of the channel, and the 42 words of the record (R77). -/
structure LoopIn where
  setup : Option ChanCfg
  rec_  : List Word
  deriving DecidableEq, Repr

/-- An ephemeris and clock set that a message completes (R176, R177): its octets, reference time and fit interval in s (0: none
stated), the group-delay terms of signals in ps, health and accuracy index. -/
structure EphIn where
  set    : List Byte
  t      : Nat
  fit    : Nat
  terms  : List (Nat × Int)
  healthy : Bool
  ura    : Nat
  deriving DecidableEq, Repr

/-- The messages of R176. -/
inductive MsgKind where
  | lnav | cnav | cnav2 | inav | fnav | d1d2 | bcnav | glonass | navic | sbas
  deriving DecidableEq, Repr

/-- A navigation message as decoded by its interface specification: the items of R176 (log entry 62). -/
structure NavMsg where
  kind  : MsgKind
  sys   : Fin 7
  sv    : Fin 256
  /-- the message's own check holds; it is protected by a CRC -/
  ok    : Bool
  crc   : Bool
  eph   : Option EphIn := none
  /-- an almanac of a satellite of the system: its number, octets and reference time -/
  alm   : Option (Nat × List Byte × Nat) := none
  /-- a leap-second announcement: kind (1 insertion, 2 deletion) and the TAI second -/
  leap  : Option (Nat × Nat) := none
  /-- UTC − TAI it broadcasts -/
  utcofs : Option Int := none
  /-- the fraction of UTC against the system's time: A0 in ps, A1 in 2^-50, reference time in device s (R185) -/
  utc   : Option (Int × Int × Nat) := none
  /-- the system's time against GPS time, ps (R184) -/
  offs  : Option Int := none
  iono  : Option (List Byte) := none
  /-- a week number in the numbering of its system and its width in bits, 0 for a full number (R180) -/
  week  : Option (Nat × Nat) := none
  /-- GLONASS N4 and NT -/
  day   : Option (Nat × Nat) := none
  /-- time of week: the satellite's time in ms since its system's origin at the start of the code period in which the last
  report instant lies, for a signal code -/
  tow   : Option (Nat × Nat) := none
  /-- preamble: the signal code on which it was found, and whether its polarity is inverted -/
  inv   : Option (Nat × Bool) := none
  /-- satellites that SBAS flags as not to be used, or no longer: system, number, flag -/
  flags : List (Nat × Nat × Bool) := []
  deriving DecidableEq, Repr

/-- What OSNMA has received (R179): a public key with its proof, a root key with its signature, a TESLA key with its time,
and a tag of a satellite over navigation data. -/
structure TagIn where
  sv    : Fin 256
  adkd  : Nat
  /-- the data that the tag covers, and the tag -/
  data  : List Byte
  tag   : List Byte
  /-- a public key and its path to the Merkle tree root -/
  pub   : Option (List Byte × List Byte) := none
  /-- a root key, its time and its signature -/
  root  : Option (List Byte × Nat × List Byte) := none
  /-- the key disclosed for the tag, and its time; none while it is not yet released -/
  key   : Option (List Byte × Nat) := none
  deriving DecidableEq, Repr

/-- A PTP message as the engine reads it (IEEE 1588-2019 common header and body; R260). `mtype` is the
standard's messageType: 0x0 Sync, 0x1 Delay_Req, 0x2 Pdelay_Req, 0x3 Pdelay_Resp, 0x8 Follow_Up,
0x9 Delay_Resp, 0xA Pdelay_Resp_Follow_Up, 0xB Announce, 0xC Signaling, 0xD Management. -/
structure PtpMsg where
  mtype   : BitVec 4
  domain  : BitVec 8
  twoStep : Bool
  seq     : BitVec 16
  /-- correctionField, 2^-16 ns -/
  corr    : Int
  srcId   : BitVec 64
  srcPort : BitVec 16
  /-- origin, receive or request-receipt timestamp in 2^-16 ns -/
  ts      : Nat
  /-- requestingPortIdentity of a response -/
  reqId   : BitVec 64
  reqPort : BitVec 16
  logInt  : Int
  /-- Announce dataset -/
  prio1   : BitVec 8
  gmClass : BitVec 8
  gmAcc   : BitVec 8
  gmVar   : BitVec 16
  prio2   : BitVec 8
  gmId    : BitVec 64
  steps   : BitVec 16
  /-- timeSource, currentUtcOffset, and the flags leap61 [0], leap59 [1], currentUtcOffsetValid [2], ptpTimescale [3],
  timeTraceable [4], frequencyTraceable [5], alternateMasterFlag [6] -/
  tsrc    : BitVec 8
  utcOfs  : Int
  aflags  : BitVec 8
  /-- the transports it leaves by, as `EPT_CFG.TRANS` codes them (R260) -/
  trans   : BitVec 3 := 0
  deriving DecidableEq, Repr

/-- What a received frame carries, as R272 tells frames apart. -/
inductive FrameBody where
  | ptp (m : PtpMsg)
  | arp (target : Word)
  | ns (target : BitVec 128)
  | udp (v6 : Bool) (dport : BitVec 16) (srcAddr : BitVec 128) (sport : BitVec 16) (payload : List Byte)
  | toPort
  | other
  deriving DecidableEq, Repr

/-- A received frame: its FCS, its length in octets, its VLAN identifier if tagged, its receive
stamp and the instant at which the port's own answer leaves, if it makes one (2^-16 ns after the epoch boundary), its destination
being the port's own, its body; and a PTP message's transport: 0 Layer 2, 1 UDP/IPv4, 2 UDP/IPv6 (R260). -/
structure FrameIn where
  fcsOk  : Bool
  octets : Nat
  vid    : Option Nat
  sub    : Nat
  txSub  : Nat
  toMe   : Bool
  body   : FrameBody
  trans  : Fin 3 := 0
  deriving DecidableEq, Repr

/-- An edge on `TPI` (R237): which one, and the length of its pulse in ns. -/
structure TpiIn where
  falling : Bool
  width   : Nat
  deriving DecidableEq, Repr

/-- The commands (spec/opcode_table.json). -/
inductive Instr where
  -- ch. 2: sample links and front-end control
  | slkEnable (m : Master) (n : Fin 8) (w : Word) (eyes : List (Option (Fin 64)))
  | markerReceived (n : Fin 8) (sub gap : Nat) (eyes : List (Option (Fin 64)))
  | controlWord (n : Fin 8) (w : BitVec 24)
  | clkFault (n : Fin 8)
  | markFault (n : Fin 8)
  | stuckFault (n : Fin 8) (lane : Fin 4)
  | slipFault (n : Fin 8) (slipped : Nat)
  | faultEpisodeEnd (n : Fin 8)
  | agcUpdate (n : Fin 8)
  | gbaseWrite (m : Master) (n : Fin 8) (w : Word)
  | gbaseValidTimer (n : Fin 8)
  | fecSlot (b : Fin 4)
  | fecSeqGo (m : Master) (b : Fin 4) (w : Word)
  | fecCalDue (b : Fin 4)
  | fecWrite (b : Fin 4) (us : Nat) (rx : BitVec 24)
  | fecCheck (b : Fin 4) (us : Nat) (rx : BitVec 24)
  | fecWait (b : Fin 4) (us : Nat)
  | fecWaitExpiry (b : Fin 4)
  | fecEnd (b : Fin 4) (us : Nat)
  | linkClockReturn (n : Fin 8) (eyes : List (Option (Fin 64)))
  | stuckLaneToggle (n : Fin 8) (lane : Fin 4)
  -- ch. 3: channel engines and dwell programs
  | dwellQueue (m : Master) (e : Fin 1024) (w : Word)
  | dwellStart (e : Fin 1024)
  | dwellNop (e : Fin 1024)
  | dwellAbase (e : Fin 1024)
  | dwellAofs (e : Fin 1024)
  | dwellAsrc (e : Fin 1024)
  | dwellAcc (e : Fin 1024) (samples : List LinkSample)
  | dwellSkip (e : Fin 1024) (samples : List LinkSample)
  | dwellDump (e : Fin 1024) (sidx : Nat)
  | dwellNcacc (e : Fin 1024)
  | dwellNcdump (e : Fin 1024) (sidx : Nat)
  | dwellSetc (e : Fin 1024)
  | dwellLoop (e : Fin 1024)
  | dwellJmp (e : Fin 1024)
  | dwellIrq (e : Fin 1024)
  | dwellEnd (e : Fin 1024)
  | recordToRing (e : Fin 1024)
  | engCommit (m : Master) (e : Fin 1024) (w : Word)
  | engCancel (m : Master) (e : Fin 1024) (w : Word)
  | engApply (m : Master) (e : Fin 1024) (w : Word)
  | engSetrole (m : Master) (e : Fin 1024) (w : Word)
  | ringRelease (m : Master) (c : Fin 16) (w : Word)
  | ringReconfigure (m : Master) (c : Fin 16) (w : Word)
  | ctinvWrite (m : Master) (c : Fin 16) (w : Word)
  | cluCkenWrite (m : Master) (c : Fin 16) (w : Word)
  | cluBist (m : Master) (c : Fin 16) (w : Word)
  | bistdone (c : Fin 16) (failed : List (Fin 64))
  | cluGangWrite (m : Master) (c : Fin 16) (w : Word)
  | gangDwellQueue (m : Master) (c : Fin 16) (w : Word)
  | migArm (m : Master) (e : Fin 1024) (w : Word)
  | migTimeout (e : Fin 1024)
  -- ch. 4: snapshots and acquisition
  | snpArm (m : Master) (h : Fin 8) (w : Word)
  | snpFree (m : Master) (h : Fin 8) (w : Word)
  | captureTrigger (h : Fin 8) (sub : Nat) (pre : List LinkSample)
  | capdone (h : Fin 8) (raw : List LinkSample)
  | replayGo (m : Master) (w : Word)
  | replayStop (m : Master) (w : Word)
  | replayPassStart
  | replayPassEnd
  | broadcastWrite (m : Master) (c : Fin 16) (ofs : Nat) (w : Word)
  -- ch. 5: tracking
  | loopUpdate (e : Fin 1024) (r : LoopIn)
  | steerEntryWrite (e : Fin 1024) (chid : BitVec 12) (epoch : Word) (chip : BitVec 20) (frac dop cdiv : Word)
  | trackingReport (d : Fin 16)
  | migrationHandoff (src tgt : Fin 1024) (block : List Word) (w : Word)
  -- ch. 6: the loop DSP
  | dspNop (d : Fin 16)
  | dspMov (d : Fin 16)
  | dspAdd (d : Fin 16)
  | dspAdds (d : Fin 16)
  | dspSub (d : Fin 16)
  | dspSubs (d : Fin 16)
  | dspAnd (d : Fin 16)
  | dspOr (d : Fin 16)
  | dspXor (d : Fin 16)
  | dspNeg (d : Fin 16)
  | dspAbs (d : Fin 16)
  | dspMin (d : Fin 16)
  | dspMax (d : Fin 16)
  | dspCmp (d : Fin 16)
  | dspShl (d : Fin 16)
  | dspShr (d : Fin 16)
  | dspAsr (d : Fin 16)
  | dspShlv (d : Fin 16)
  | dspAsrv (d : Fin 16)
  | dspMpy (d : Fin 16)
  | dspMac (d : Fin 16)
  | dspMsu (d : Fin 16)
  | dspMpyu (d : Fin 16)
  | dspFtap (d : Fin 16)
  | dspFtaps (d : Fin 16)
  | dspLd (d : Fin 16)
  | dspSt (d : Fin 16)
  | dspLdil (d : Fin 16)
  | dspLdih (d : Fin 16)
  | dspAddi (d : Fin 16)
  | dspCmpi (d : Fin 16)
  | dspClra (d : Fin 16)
  | dspAdda (d : Fin 16)
  | dspSuba (d : Fin 16)
  | dspNega (d : Fin 16)
  | dspAbsa (d : Fin 16)
  | dspSha (d : Fin 16)
  | dspShar (d : Fin 16)
  | dspXfr (d : Fin 16)
  | dspXfw (d : Fin 16)
  | dspBra (d : Fin 16)
  | dspBcc (d : Fin 16)
  | dspCall (d : Fin 16)
  | dspRet (d : Fin 16)
  | dspRti (d : Fin 16)
  | dspLps (d : Fin 16)
  | dspLpr (d : Fin 16)
  | dspLpx (d : Fin 16)
  | dspWait (d : Fin 16)
  | dspTrap (d : Fin 16)
  | dspSync (d : Fin 16)
  | dspEld (d : Fin 16)
  | dspEst (d : Fin 16)
  | dspBlkx (d : Fin 16)
  | dspBlky (d : Fin 16)
  | dspAng (d : Fin 16)
  | dspMag (d : Fin 16)
  | dspDivf (d : Fin 16)
  | dspBlockCopyDone (d : Fin 16)
  | dspPostedBusError (d : Fin 16)
  | dspInterruptEntry (d : Fin 16)
  | dspTimerMatch (d : Fin 16)
  | dspWatchdogExpiry (d : Fin 16)
  | dspWdogKick (m : Master) (d : Fin 16) (w : Word)
  | dspRun (m : Master) (d : Fin 16) (w : Word)
  | dspHalt (m : Master) (d : Fin 16) (w : Word)
  | dspReset (m : Master) (d : Fin 16) (w : Word)
  | dspSingleStep (m : Master) (d : Fin 16) (w : Word)
  | dspShadowSelect (m : Master) (d : Fin 16) (w : Word)
  | dspGroupClock (m : Master) (g : Fin 4) (w : Word)
  | dspGroupReset (m : Master) (g : Fin 4) (w : Word)
  | dspDoorbell (m : Master) (d : Fin 16) (w : Word)
  | dspOutbox (m : Master) (d : Fin 16) (w : Word)
  | dspMemoryAccess (m : Master) (d : Fin 16) (sp : DspSpace) (ofs : Nat) (size : AccSize) (wr : Option Word)
  -- ch. 7: measurements, navigation data and the solution
  | solutionEpoch (x : Unit)
  | navMessage (x : NavMsg)
  | osnmaTag (x : TagIn)
  | mordantWrite (items : List (Fin 11 × List Byte))
  | mordantWriteDone
  | mordantPeriod
  -- ch. 8: integrity
  | evidenceRecord (x : EvidIn)
  | terrBoundCross
  | holdoverAgeLimit
  | holdinTimeout
  | woadLatchExpiry
  | itgLatchWrite (m : Master) (w : Word)
  | burstStart
  | burstEnd
  | bmax
  | burstArrayRelease
  -- ch. 9: device time and the pulses
  | deviceEpoch (obs : EpochObs)
  | deviceSecond (ncal edges : Nat) (phases : List Int)
  | fixRelease (m : Master) (w : Word)
  | stepRequest (m : Master) (w : Word)
  | loadRequest (m : Master) (w : Word)
  | tpSettingWrite (m : Master) (n : Fin 2) (r : Fin 4) (w : Word)
  | tpCompose (n : Fin 2) (gaps : List Nat)
  | tpLeadingEdge (n : Fin 2)
  | tpTrailingEdge (n : Fin 2)
  | tpiEdge (sub : Nat) (e : TpiIn)
  | tpiloss
  -- ch. 10: synthesisers and clock outputs
  | rfiClassifyRetry (count : Nat)
  | pllALockRetry (ok : Bool)
  | pllCommit (m : Master) (x : Fin 6) (w : Word)
  | pllRelock (m : Master) (x : Fin 6) (w : Word)
  | pllEnable (m : Master) (x : Fin 6) (w : Word)
  | pllFollow (m : Master) (x : Fin 6) (w : Word)
  | pllTrimWrite (m : Master) (x : Fin 6) (w : Word)
  | pllRampDone (x : Fin 6)
  | pllCalDone (x : Fin 6)
  | lock (x : Fin 6)
  | aligned (x : Fin 6)
  | lol (x : Fin 6) (runt : List (Fin 4))
  | lor (runt : List (Fin 12))
  | rfiReturn
  | ckoCfgWrite (m : Master) (k : Fin 12) (w : Word)
  | complSet (k : Fin 12) (mv10 : Nat)
  | complClear (k : Fin 12) (mv10 : Nat)
  | complEpisodeEnd (k : Fin 12)
  -- ch. 11: Ethernet and network time
  | frameReceived (p : Fin 8) (f : FrameIn)
  | forwardCopySent (p : Fin 8) (sub : Nat)
  | syncRx (p : Fin 8) (sub : Nat) (m : PtpMsg)
  | followUpRx (p : Fin 8) (m : PtpMsg)
  | announceRx (p : Fin 8) (m : PtpMsg)
  | delayReqRx (p : Fin 8) (sub : Nat) (m : PtpMsg)
  | delayRespRx (p : Fin 8) (m : PtpMsg)
  | pdelayReqRx (p : Fin 8) (sub : Nat) (txSub : Nat) (m : PtpMsg)
  | pdelayRespRx (p : Fin 8) (sub : Nat) (m : PtpMsg)
  | syncTx (p : Fin 8) (slot : Fin 2) (sub : Nat)
  | announceTx (p : Fin 8) (slot : Fin 2)
  | delayReqTx (p : Fin 8) (slot : Fin 2) (sub : Nat)
  | announceTimeout (p : Fin 8) (slot : Fin 2)
  | ptpSourceSwitch
  | arpRequest (p : Fin 8) (target : Word)
  | neighbourSolicitation (p : Fin 8) (target : BitVec 128)
  | statusGet (p : Fin 8) (src : BitVec 128) (sport : BitVec 16) (payload : List Byte)
  | timeDatagram (p : Fin 8)
  | tpNextDatagram (p : Fin 8) (n : Fin 2)
  | measDatagram (p : Fin 8) (period entries : Unit)
  | integDatagram (p : Fin 8)
  | identDatagram (p : Fin 8)
  | umberSumDatagram (p : Fin 8)
  | eptLinkChange (p : Fin 8) (up : Bool) (speed : Fin 8)
  | eptCredWrite (m : Master) (p : Fin 8) (w : Word)
  | slotSamplesAged (slot : Fin 2)
  -- ch. 12: timed event lines
  | telCfgWrite (m : Master) (n : Fin 96) (w : Word)
  | telPtrWrite (m : Master) (n : Fin 96) (w : Word)
  | telInval (m : Master) (w : Word)
  | telFetch (n : Fin 96) (sub : Nat)
  | telNop (n : Fin 96) (sub : Nat)
  | telSet (n : Fin 96) (sub : Nat)
  | telClear (n : Fin 96) (sub : Nat)
  | telPulse (n : Fin 96) (sub : Nat)
  | telOpen (n : Fin 96) (sub : Nat)
  | telClose (n : Fin 96) (sub : Nat)
  | telArm (n : Fin 96) (sub : Nat)
  | telDisarm (n : Fin 96) (sub : Nat)
  | pulseEnd (n : Fin 96)
  | windowLimit (n : Fin 96)
  | holdend (n : Fin 96)
  | telPermitWrite (m : Master) (j : Fin 6) (w : Word)
  | captureEdge (n : Fin 96) (sub : Nat) (falling : Bool) (width : Nat)
  | captureOverflowEpisodeEnd (n : Fin 96)
  | telCapRead (m : Master) (n : Fin 96)
  | bankSupplyMeasure (b : Fin 4) (mv10 : Nat)
  | bankDriverReturn (b : Fin 4)
  -- ch. 13: always-on domain
  | rtcSecStage (m : Master) (w : Word)
  | rtcSecCommit (m : Master) (w : Word)
  | rtcSecApply (edges : Nat)
  | rtcTrimWrite (m : Master) (w : Word)
  | rtcWakeWrite (m : Master) (w : Word) (edges : Nat)
  | periodicWake (edges : Nat)
  | hostResume (edges : Nat)
  | fswclr (m : Master) (w : Word)
  | switchToVbat (edges : Nat)
  | returnFromVbat (edges : Nat)
  | aonLockRelease
  | aonReset
  | aonResetRelease (onVbat : Bool)
  | vbatMeasure (mv10 : Nat)
  | xofail (edges : Nat)
  | crystalEdgesReturn
  | rtcTickRead (m : Master) (edges : Nat)
  | rtcSecRead (m : Master) (edges : Nat)
  | rtcStampRead (m : Master) (which : Fin 4)
  -- ch. 14: supply and brace
  | powerUp
  | rstNAssert
  | rstNRelease
  | pfwN
  | supplyWarning (core : Bool) (level : Nat)
  | supplyReset (core : Bool)
  | railAbsent (rail : Fin 6)
  | brace
  | warningEnd
  | braceEndShort
  | braceEndLong
  | tempMeasure (degq : Int)
  | hotEpisodeEnd
  -- ch. 15: the umber record
  | umbCmdGo (m : Master) (w : Word)
  | umberCommitDone
  | ready (ms : Nat)
  | navRequestPoll
  | summary
  | msnap (entries : Unit)
  | umbCfgw (m : Master) (w : Word)
  -- ch. 16: starts, walk, custody
  | coldStart (x : ColdIn)
  | softStart (x : SoftIn)
  | protectedMemoryAccess (m : Master) (addr : Nat) (size : AccSize) (wr : Option Word) (upset : Option Upset)
  | walkWr32
  | walkFill
  | walkLoad
  | walkWait
  | walkWaitExpiry
  | walkCheck
  | walkEnd
  | walkTimeout
  | mirrorRewriteDone
  | navWatchdogExpiry
  | navWdogKick (m : Master) (w : Word)
  | sessionIdleTimeout
  | challengeExpiry
  | backoffExpiry
  -- ch. 17: service port, update, repair
  | svcFrameRx (octets : List Byte)
  | svcAckFrame (octets : List Byte)
  | svcAckDelay
  | svcRetransmit
  | svcRateTimeout
  | svcUnknownCommand
  | hello
  | close
  | authChallenge
  | authResponse
  | readReg
  | writeReg
  | readUmber
  | putObject (flashOk : Bool)
  | journalPendingRun
  | queryObject
  | abandonObject
  | commitStaging (flashOk : Bool)
  | activate
  | activationAckWait
  | sealPart
  | unsealPart
  | clearFsw
  | repairCluster
  | repairGroup
  | repairProc
  | repairVacated
  | repairVacateTimeout
  | commandExecutionEnd
  -- ch. 18: register access
  | registerWrite (m : Master) (addr : Nat) (size : AccSize) (w : Word)
  | slkFmtRead (m : Master) (n : Fin 8)
  | snpHtimeRead (m : Master) (h : Fin 8)
  | timNowRead (m : Master) (sub : Nat)
  | timEpochRead (m : Master)
  | tpNextEdgeRead (m : Master) (n : Fin 2)
  | tpiStampRead (m : Master)
  | engPhaseRead (m : Master) (e : Fin 1024)
  | umbSequenceRead (m : Master) (old : Bool)
  | cusLatchedRead (m : Master) (which : Fin 4)
  | svcUpdidRead (m : Master)
  -- ch. 19
  | jtagTapInstruction (x : TapInstr)
  deriving DecidableEq, Repr

end Sys2Proof
end

