-- ==== Sys2Proof/Machine/Bits.lean ====
section
/-! DEFINITION. Bit fields, two's complement, saturation, little- and big-endian octets, and sparse tables. -/

namespace Sys2Proof.Machine

/-- Bits `hi` to `lo` of a number. -/
def bits (w hi lo : Nat) : Nat := w / 2 ^ lo % 2 ^ (hi + 1 - lo)

/-- One bit of a number. -/
def bit (w i : Nat) : Bool := w / 2 ^ i % 2 == 1

/-- 1 for true. -/
def b2n (b : Bool) : Nat := if b then 1 else 0

/-- The two's complement value of the low `n` bits. -/
def sgn (n w : Nat) : Int :=
  let v := w % 2 ^ n
  if v < 2 ^ (n - 1) then (v : Int) else (v : Int) - (2 ^ n : Nat)

/-- The low `n` bits of an integer in two's complement. -/
def uns (n : Nat) (i : Int) : Nat := (i % (2 ^ n : Nat)).toNat

/-- An integer held within bounds. -/
def clampI (lo hi x : Int) : Int := if x < lo then lo else if hi < x then hi else x

/-- A number held at the largest value of `n` bits. -/
def satN (n x : Nat) : Nat := if x < 2 ^ n then x else 2 ^ n - 1

/-- An integer held in `n` bits, signed. -/
def satI (n : Nat) (x : Int) : Int := clampI (-(2 ^ (n - 1) : Nat)) ((2 ^ (n - 1) : Nat) - 1) x

/-- Quotient rounded to nearest, halves away from zero. -/
def roundDiv (a : Int) (b : Nat) : Int :=
  if b = 0 then 0 else if 0 ≤ a then (2 * a + b) / (2 * b) else -((2 * (-a) + b) / (2 * b))

/-- Quotient rounded up. -/
def ceilDiv (a b : Nat) : Nat := if b = 0 then 0 else (a + b - 1) / b

/-- The integer square root, by Newton steps from above; `fuel` bounds them. -/
def isqrtGo (n : Nat) : Nat → Nat → Nat
  | 0, x => x
  | fuel + 1, x => let y := (x + n / x) / 2; if y < x then isqrtGo n fuel y else x

/-- The integer square root. -/
def isqrt (n : Nat) : Nat := if n = 0 then 0 else isqrtGo n (n.log2 + 8) (2 ^ (n.log2 / 2 + 1))

/-- `n` octets of a number, least significant first. -/
def leBytes : Nat → Nat → List Byte
  | 0, _ => []
  | n + 1, v => BitVec.ofNat 8 v :: leBytes n (v / 256)

/-- `n` octets of a number, most significant first. -/
def beBytes (n v : Nat) : List Byte := (leBytes n v).reverse

/-- The number that octets give, least significant first. -/
def leNat : List Byte → Nat
  | [] => 0
  | b :: bs => b.toNat + 256 * leNat bs

/-- The number that octets give, most significant first. -/
def beNat (bs : List Byte) : Nat := leNat bs.reverse

/-- Octets of a list from an offset, zero beyond its end. -/
def sliceN (bs : List Byte) (ofs n : Nat) : List Byte := (List.range n).map fun i => bs.getD (ofs + i) 0

/-! ### Sparse tables: entries by rising key -/

/-- The entry at a key. -/
def tblFind {α : Type} : Tbl α → Nat → Option α
  | [], _ => none
  | (k, v) :: t, i => if k = i then some v else tblFind t i

/-- The entry at a key, or the default. -/
def tblGet {α : Type} (t : Tbl α) (d : α) (i : Nat) : α := (tblFind t i).getD d

/-- The table with an entry put in its place. -/
def tblSet {α : Type} : Tbl α → Nat → α → Tbl α
  | [], i, v => [(i, v)]
  | (k, x) :: t, i, v =>
    if i < k then (i, v) :: (k, x) :: t
    else if i = k then (i, v) :: t
    else (k, x) :: tblSet t i v

/-- The table without an entry. -/
def tblErase {α : Type} : Tbl α → Nat → Tbl α
  | [], _ => []
  | (k, x) :: t, i =>
    if i < k then (k, x) :: t
    else if i = k then t
    else (k, x) :: tblErase t i

/-- The table with an entry put in place, or taken out where it equals what an unlisted key reads as. -/
def tblPut {α : Type} [DecidableEq α] (t : Tbl α) (d : α) (i : Nat) (v : α) : Tbl α :=
  if v = d then tblErase t i else tblSet t i v

/-- Keys strictly rising, all above a bound. -/
def tblSorted {α : Type} : Option Nat → Tbl α → Bool
  | _, [] => true
  | b, (k, _) :: t => (match b with | none => true | some m => decide (m < k)) && tblSorted (some k) t

/-- The canonical form: keys strictly rising, no entry equal to what an unlisted key reads as. -/
def tblCanon {α : Type} [DecidableEq α] (d : Nat → α) (t : Tbl α) : Bool :=
  tblSorted none t && t.all fun e => decide (e.2 ≠ d e.1)

end Sys2Proof.Machine
end

