-- ==== Sys2Proof/Machine/Angle.lean ====
section
/-! DEFINITION. The angle of a vector, computed by rotations (R135, R155): more exact than any use of it needs. -/

namespace Sys2Proof.Machine

/-- The angle whose tangent is 2^-i, for i from 0, in 2^-48 cycle. -/
def atanTable : List Int :=
  [35184372088832, 20770547670515, 10974586953444, 5570871696862, 2796246208089, 1399486241028,
   699913886760, 349978300884, 174991820497, 87496244017, 43748163730, 21874087080,
   10937044192, 5468522177, 2734261099, 1367130551, 683565276, 341782638,
   170891319, 85445659, 42722830, 21361415, 10680707, 5340354,
   2670177, 1335088, 667544, 333772, 166886, 83443,
   41722, 20861, 10430, 5215, 2608, 1304]

/-- Rotations that bring `y` to 0: the angle turned through, in 2^-48 cycle. -/
def angleGo : List Int → Nat → Int → Int → Int → Int
  | [], _, _, _, a => a
  | t :: ts, i, x, y, a =>
    let dx := y / 2 ^ i
    let dy := x / 2 ^ i
    if 0 ≤ y then angleGo ts (i + 1) (x + dx) (y - dy) (a + t) else angleGo ts (i + 1) (x - dx) (y + dy) (a - t)

/-- atan2(y, x) in 2^-48 cycle, from −2^47 up to, not including, 2^47; 0 for the zero vector. -/
def angle48 (y x : Int) : Int :=
  if x = 0 ∧ y = 0 then 0
  else
    let a := if 0 ≤ x then angleGo atanTable 0 (x * 2 ^ 48) (y * 2 ^ 48) 0
      else angleGo atanTable 0 (-x * 2 ^ 48) (-y * 2 ^ 48) 0 + 2 ^ 47
    sgn 48 (uns 48 a)

/-- Rotations that bring an angle in 2^-48 cycle to 0: the vector turned through it. -/
def turnGo : List Int → Nat → Int → Int → Int → Int × Int
  | [], _, _, x, y => (x, y)
  | t :: ts, i, a, x, y =>
    let dx := y / 2 ^ i
    let dy := x / 2 ^ i
    if 0 ≤ a then turnGo ts (i + 1) (a - t) (x - dx) (y + dy) else turnGo ts (i + 1) (a + t) (x + dx) (y - dy)

/-- Cosine and sine in 2^-30 of an angle in 2^-32 cycle; the rotations' gain is taken out beforehand. -/
def cosSin (a : Int) : Int × Int :=
  let a := sgn 48 (uns 48 (a * 2 ^ 16))
  let far := decide (2 ^ 46 < a.natAbs)
  let p := turnGo atanTable 0 (if far then sgn 48 (uns 48 (a + 2 ^ 47)) else a) 700114967507363238 0
  let q := (roundDiv p.1 (2 ^ 30), roundDiv p.2 (2 ^ 30))
  if far then (-q.1, -q.2) else q

end Sys2Proof.Machine
end

