-- ==== Sys2Proof/Machine/Codes.lean ====
section
/-! DEFINITION. Checks and codings: CRC-8 (R40, R293), CRC-16 (R328), CRC-32 (R348), COBS (R370), SHA-256 and
HMAC-SHA-256 (R347, R364; the standards' own, log entry 43). -/

namespace Sys2Proof.Machine

/-- One octet into a CRC of width `w`, most significant bit first; `k` bits are left. -/
def crcBits (w poly : Nat) : Nat → Nat → Nat
  | 0, c => c
  | k + 1, c => crcBits w poly k (if bit c (w - 1) then (c * 2) % 2 ^ w ^^^ poly else c * 2)

/-- CRC-8 with polynomial 0x07 and initial value 0 (R40). -/
def crc8 (bs : List Byte) : Nat := bs.foldl (fun c b => crcBits 8 0x07 8 (c ^^^ b.toNat)) 0

/-- CRC-16 with polynomial 0x1021, initial value 0xFFFF, no reflection, no inversion (R328). -/
def crc16 (bs : List Byte) : Nat := bs.foldl (fun c b => crcBits 16 0x1021 8 (c ^^^ b.toNat * 256)) 0xFFFF

/-- One octet into the reflected CRC-32; `k` bits are left. -/
def crc32Bits : Nat → Nat → Nat
  | 0, c => c
  | k + 1, c => crc32Bits k (if c % 2 = 1 then c / 2 ^^^ 0xEDB88320 else c / 2)

/-- CRC-32 with polynomial 0x04C1_1DB7, reflected, initial value all ones, inverted at the end (R348). -/
def crc32 (bs : List Byte) : Nat :=
  bs.foldl (fun c b => crc32Bits 8 (c ^^^ b.toNat)) 0xFFFFFFFF ^^^ 0xFFFFFFFF

/-- COBS decoding: each code octet gives the number of octets to the next zero; `left` octets of the block are to
come and `full` says that no zero follows it. -/
def cobsDecode : List Byte → Nat → Bool → Option (List Byte)
  | [], left, _ => if left = 0 then some [] else none
  | b :: bs, 0, full =>
    if b = 0 then none
    else
      match cobsDecode bs (b.toNat - 1) (b == 0xFF) with
      | none => none
      | some r => some (if full then r else 0 :: r)
  | b :: bs, left + 1, full =>
    if b = 0 then none
    else
      match cobsDecode bs left full with
      | none => none
      | some r => some (b :: r)

/-- COBS decoding of a frame without its delimiter (R370). -/
def cobsUnstuff (bs : List Byte) : Option (List Byte) := if bs = [] then none else cobsDecode bs 0 true

/-- COBS encoding: `run` is the block under way, newest octet first. -/
def cobsEncode : List Byte → List Byte → List Byte
  | [], run => BitVec.ofNat 8 (run.length + 1) :: run.reverse
  | b :: bs, run =>
    if b = 0 then BitVec.ofNat 8 (run.length + 1) :: run.reverse ++ cobsEncode bs []
    else if run.length = 253 then
      match bs with
      | [] => 0xFF :: (b :: run).reverse
      | _ => 0xFF :: (b :: run).reverse ++ cobsEncode bs []
    else cobsEncode bs (b :: run)

/-- COBS encoding of a frame, without its delimiter (R370). -/
def cobsStuff (bs : List Byte) : List Byte := cobsEncode bs []

/-- The whole part of the `k`-th root of `n`: its bits below `2 ^ i` are still to be found, `r` holds the others. -/
def rootFrom (k n : Nat) : Nat → Nat → Nat
  | 0, r => r
  | i + 1, r => rootFrom k n i (if (r + 2 ^ i) ^ k ≤ n then r + 2 ^ i else r)

/-- The first 32 bits behind the point of the `k`-th root of a number below 512. -/
def rootFrac (k p : Nat) : Nat := rootFrom k (p * 2 ^ (32 * k)) 37 0 % 2 ^ 32

/-- The primes below `n`. -/
def primesBelow (n : Nat) : List Nat :=
  (List.range n).filter fun p => 2 ≤ p && (List.range 20).all fun d => d < 2 || p ≤ d || p % d != 0

/-- The constants of the 64 rounds: the cube roots of the first 64 primes. -/
def shaConst : List Nat := (primesBelow 312).map (rootFrac 3)

/-- The initial hash value: the square roots of the first 8 primes. -/
def shaInit : List Nat := (primesBelow 20).map (rootFrac 2)

/-- Rotation of a 32-bit word to the right. -/
def ror (x n : Nat) : Nat := x / 2 ^ n ||| x * 2 ^ (32 - n) % 2 ^ 32

/-- The exclusive or of a word's rotations, and of its shift `sh` where that is not 0. -/
def shaMix (x : Nat) (rots : List Nat) (sh : Nat) : Nat :=
  rots.foldl (fun y n => y ^^^ ror x n) (if sh = 0 then 0 else x / 2 ^ sh)

/-- A window of 16 schedule words, oldest first, moved on by one word. -/
def shaSlide (w : List Nat) : List Nat :=
  w.tail ++ [(w.getD 0 0 + shaMix (w.getD 1 0) [7, 18] 3 + w.getD 9 0 + shaMix (w.getD 14 0) [17, 19] 10) % 2 ^ 32]

/-- One round. The working variables stand as the last four values of the two chains, the newest first: `(a, e)`,
`(b, f)`, `(c, g)`, `(d, h)`; `kw` is the round's constant plus its schedule word. -/
def shaRound (q : List (Nat × Nat)) (kw : Nat) : List (Nat × Nat) :=
  match q with
  | [p0, p1, p2, p3] =>
    let pick := p0.2 &&& p1.2 ||| (2 ^ 32 - 1 - p0.2) &&& p2.2
    let most := p0.1 &&& p1.1 ||| p2.1 &&& (p0.1 ||| p1.1)
    let t := p3.2 + shaMix p0.2 [6, 11, 25] 0 + pick + kw
    [((t + shaMix p0.1 [2, 13, 22] 0 + most) % 2 ^ 32, (p3.1 + t) % 2 ^ 32), p0, p1, p2]
  | _ => q

/-- The rounds of the constants left, on the window of the schedule. -/
def shaRounds : List Nat → List Nat → List (Nat × Nat) → List (Nat × Nat)
  | [], _, q => q
  | k :: ks, w, q => shaRounds ks (shaSlide w) (shaRound q (k + w.getD 0 0))

/-- One block of 16 words into the hash value. -/
def shaBlock (hs ws : List Nat) : List Nat :=
  let q := shaRounds shaConst ws (List.zip (hs.take 4) (hs.drop 4))
  List.zipWith (fun x y => (x + y) % 2 ^ 32) hs (q.map (·.1) ++ q.map (·.2))

/-- The padded message of SHA-256. -/
def shaPad (bs : List Byte) : List Byte :=
  bs ++ 0x80 :: List.replicate ((119 - bs.length % 64) % 64) 0 ++ beBytes 8 (bs.length * 8)

/-- `n` blocks of a padded message into the hash value. -/
def shaBlocks : Nat → List Nat → List Byte → List Nat
  | 0, hs, _ => hs
  | n + 1, hs, bs =>
    shaBlocks n (shaBlock hs ((List.range 16).map fun i => beNat (sliceN bs (4 * i) 4))) (bs.drop 64)

/-- SHA-256 (R347). -/
def sha256 (bs : List Byte) : List Byte :=
  let p := shaPad bs
  (shaBlocks (p.length / 64) shaInit p).flatMap (beBytes 4 ·)

/-- HMAC-SHA-256 with a key of at most 64 octets (R364). -/
def hmacSha256 (key msg : List Byte) : List Byte :=
  let k := sliceN key 0 64
  sha256 (k.map (· ^^^ 0x5C) ++ sha256 (k.map (· ^^^ 0x36) ++ msg))

end Sys2Proof.Machine
end

