-- ==== Sys2Proof/Config.lean ====
section
/-! DEFINITION. What the spec leaves open: constants without a body, of which nothing can be proved, so that a
statement about them holds whatever they are. -/

namespace Sys2Proof

/-- A fresh free value for each number: the counter `State.free` selects it (log entry 4). -/
opaque Config.freeValue : Nat → Nat

/-- Whether an inexact quotient of two numbers is rounded away from its floor, where the spec states no rounding
(R224; log entry 4). -/
opaque Config.quotientUp : Nat → Nat → Bool

/-- The filter of a capture at a rate code (R90): its middle coefficient and those to one side, in 2^-16; the spec gives
the response and not the coefficients (log entry 40). -/
opaque Config.captureTaps : Nat → List Int

/-- How the 16-bit cosine and sine of the capture mixer are formed (R90; log entry 40): the amplitude lies by a number
below full scale, and each word at a phase of 2^-32 cycle is off by less than two steps. -/
opaque Config.mixBelow : Nat

/-- The roundings of the two words of the capture mixer at a phase (R90; log entry 40): 0, 1 or 2 for −1, 0 and +1. -/
opaque Config.mixRound : Nat → Nat × Nat

/-- The gains of a loop filter, proportional and integral in 2^-32, for the loop (0 PLL, 1 FLL alone, 2 FLL assist, 3 DLL),
its damping in 10^-3 (0 for a first-order loop), its bandwidth in mHz and its period in ms (R120; log entry 59). -/
opaque Config.loopGain (loop damping bn ms : Nat) : Int × Int

/-- The weights of the two components of a composite pilot or data component, in 2^-16, by signal code: those of the
published interface specifications (R128; log entry 59). -/
opaque Config.compWeight (sig : Nat) : Int × Int

/-- The published normalised correlation of a composite signal at an offset in 1/64 chip, in 2^-16 (R129; log entry 59). -/
opaque Config.bocShape (sig : Nat) (ofs : Int) : Int

/-- The code noise expected for a component at a C/N0 in 0.01 dB-Hz and a coherent span in ms, in 2^-16 chip (R132, R183;
log entry 59). -/
opaque Config.codeNoise (sig cn0 tcoh : Nat) : Nat

/-- The drift that goes with a correction of a PTP slot, 0.001 ppb, from its offsets at whole seconds (elapsed ns and ps): R270
lets the correction act on frequency, and R268 forms none (log entry 33). -/
opaque Config.ptpDrift (hist : List (Nat × Int)) : Int

/-- Where firmware places the steer table of a cluster: its first word in the cluster's local memory (R130; log entry
60). -/
opaque Config.steerTable (cluster : Nat) : Nat

/-- Where in navigation core SRAM firmware places a cluster's report ring: the word at which its report of a count begins
(R137; log entry 60). -/
opaque Config.reportPlace (cluster count : Nat) : Nat

/-- Where in navigation core SRAM firmware places the handover area of a migration, as a word (R138; log entry 60). -/
opaque Config.handoverPlace (src tgt : Nat) : Nat

/-- What a satellite's ephemeris and clock set predicts at an instant: position in mm and velocity in 10^-6 m/s, Earth-fixed at
that instant, its clock with relativity in ps and the clock's rate in 10^-12 (R177, R183). -/
structure SatEph where
  pos : Int × Int × Int
  vel : Int × Int × Int
  clk : Int
  clkRate : Int
  deriving DecidableEq, Repr, Inhabited

/-- What an ephemeris and clock set predicts for an instant of its system's time in ps: the interface specifications'
(R177, R183; log entry 62). -/
opaque Config.satAt (set : List Byte) (t : Int) : SatEph

/-- The position in mm that an almanac predicts for an instant of its system's time in ps (R177; log entry 62). -/
opaque Config.almanacOrbit (set : List Byte) (t : Int) : Int × Int × Int

/-- The error in m of a range predicted from a set so many seconds from its reference time, at a position with an error in mm
(R172; log entry 62). -/
opaque Config.rangeError (age posErr : Nat) : Nat

/-- The zenith delay of the troposphere at a position in mm and a day of the year, in mm: that of RTCA DO-229 (R183; log entry
61). -/
opaque Config.tropoZenith (pos : Int × Int × Int) (day : Nat) : Nat

/-- Heading in 0.01 degree, pitch and roll in 0.01 degree that three baselines in mm define at a position (R209, R214; log entry
61). -/
opaque Config.attitude (b1 b2 b3 pos : Int × Int × Int) : Nat × Int × Int

/-- The Merkle tree root that the custody policy tables of an image hold, by the image's digest (R179; log entry 62). -/
opaque Config.merkleRoot (image : Nat) : List Byte

/-- An OSNMA public key leads by its path to a Merkle tree root (R179; log entry 62). -/
opaque Config.osnmaPub (root key path : List Byte) : Bool

/-- A TESLA key of a time, with the public key it came by, is still valid at a device second (R193; log entry 62). -/
opaque Config.keyValid (pub key : List Byte) (time now : Nat) : Bool

/-- An OSNMA root key with its time holds by its ECDSA signature under a public key (R179; log entry 62). -/
opaque Config.osnmaRoot (pub key : List Byte) (time : Nat) (sig : List Byte) : Bool

/-- A TESLA key of a time leads by the chain to an earlier one (R179; log entry 62). -/
opaque Config.teslaChain (key : List Byte) (time : Nat) (old : List Byte) (oldTime : Nat) : Bool

/-- A tag is that of navigation data of a satellite under a TESLA key, for an ADKD (R179; log entry 62). -/
opaque Config.osnmaMac (key : List Byte) (adkd sv : Nat) (data tag : List Byte) : Bool

/-- What an octet of a volatile memory holds after the reset that left its contents undefined, numbered, and before it
is written again (R97, R297; log entries 4, 9). -/
opaque Config.lostByte : Nat → Nat → Byte

/-- Whether an ECDSA P-256 signature (64 octets) of a message digest (32 octets) holds under the release key of the
ROM (R362; log entry 41). -/
opaque Config.sigValid : List Byte → List Byte → Bool

/-- The memory code of an `ECC` entry for the schedule table of the timed event lines: R340 lists none (log entry 45). -/
opaque Config.schedMemCode : BitVec 8

end Sys2Proof
end

