-- ==== Sys2Proof/Machine/Regs.lean ====
section
/-! DEFINITION. The registers of the DQ7104, field by field: address, bits and reset value, and the access codes,
from the register tables of each chapter and the index of R409. -/

namespace Sys2Proof.Machine

/-- One field of a register: the register's address, the field's bits, its reset value. -/
structure Field where
  addr : Nat
  hi   : Nat
  lo   : Nat
  rst  : Nat := 0
  deriving DecidableEq, Repr

/-- The access codes of the register tables (ch. 0). -/
inductive Acc where
  | ro | rw | rwb | w1c | wo | rwl | w1cl
  deriving DecidableEq, Repr

/-! ### SYS -/

/-- `SYS_ID0.ID` -/
def SYS_ID0_ID : Field := ⟨0x40000000 + 0x0, 31, 0, 0⟩
/-- `SYS_ID1.ID` -/
def SYS_ID1_ID : Field := ⟨0x40000000 + 0x4, 31, 0, 0⟩
/-- `SYS_ID2.ID` -/
def SYS_ID2_ID : Field := ⟨0x40000000 + 0x8, 31, 0, 0⟩
/-- `SYS_ID3.ID` -/
def SYS_ID3_ID : Field := ⟨0x40000000 + 0xC, 31, 0, 0⟩
/-- `SYS_REV.REV` -/
def SYS_REV_REV : Field := ⟨0x40000000 + 0x10, 15, 8, 177⟩
/-- `SYS_REV.GRADE` -/
def SYS_REV_GRADE : Field := ⟨0x40000000 + 0x10, 0, 0, 0⟩
/-- `SYS_START.TYPE` -/
def SYS_START_TYPE : Field := ⟨0x40000000 + 0x14, 31, 31, 0⟩
/-- `SYS_START.CAUSE` -/
def SYS_START_CAUSE : Field := ⟨0x40000000 + 0x14, 23, 16, 0⟩
/-- `SYS_START.SOFTCNT` -/
def SYS_START_SOFTCNT : Field := ⟨0x40000000 + 0x14, 15, 0, 0⟩
/-- `SYS_ECC_CNT.COUNT` -/
def SYS_ECC_CNT_COUNT : Field := ⟨0x40000000 + 0x18, 31, 0, 0⟩
/-- `SYS_NAVBOOT.ADDR` -/
def SYS_NAVBOOT_ADDR : Field := ⟨0x40000000 + 0x1C, 31, 2, 536871936⟩
/-- `SYS_NWDOG.EN` -/
def SYS_NWDOG_EN : Field := ⟨0x40000000 + 0x20, 31, 31, 0⟩
/-- `SYS_NWDOG.KICK` -/
def SYS_NWDOG_KICK : Field := ⟨0x40000000 + 0x20, 30, 30, 0⟩
/-- `SYS_NWDOG.LIMIT` -/
def SYS_NWDOG_LIMIT : Field := ⟨0x40000000 + 0x20, 15, 0, 2000⟩
/-- `SYS_NWCNT.COUNT` -/
def SYS_NWCNT_COUNT : Field := ⟨0x40000000 + 0x24, 15, 0, 0⟩
/-- `SYS_NIRQ.SVC` -/
def SYS_NIRQ_SVC : Field := ⟨0x40000000 + 0x28, 6, 6, 0⟩
/-- `SYS_NIRQ.SUP` -/
def SYS_NIRQ_SUP : Field := ⟨0x40000000 + 0x28, 5, 5, 0⟩
/-- `SYS_NIRQ.TEL` -/
def SYS_NIRQ_TEL : Field := ⟨0x40000000 + 0x28, 4, 4, 0⟩
/-- `SYS_NIRQ.EPT` -/
def SYS_NIRQ_EPT : Field := ⟨0x40000000 + 0x28, 3, 3, 0⟩
/-- `SYS_NIRQ.TIM` -/
def SYS_NIRQ_TIM : Field := ⟨0x40000000 + 0x28, 2, 2, 0⟩
/-- `SYS_NIRQ.ITG` -/
def SYS_NIRQ_ITG : Field := ⟨0x40000000 + 0x28, 1, 1, 0⟩
/-- `SYS_NIRQ.SNP` -/
def SYS_NIRQ_SNP : Field := ⟨0x40000000 + 0x28, 0, 0, 0⟩

/-- The registers of SYS by offset, fields with their access codes. -/
def sysRegs (ofs : Nat) : List (Field × Acc) :=
  match ofs with
  | 0x0 => [(SYS_ID0_ID, .ro)]
  | 0x4 => [(SYS_ID1_ID, .ro)]
  | 0x8 => [(SYS_ID2_ID, .ro)]
  | 0xC => [(SYS_ID3_ID, .ro)]
  | 0x10 => [(SYS_REV_REV, .ro),
      (SYS_REV_GRADE, .ro)]
  | 0x14 => [(SYS_START_TYPE, .ro),
      (SYS_START_CAUSE, .ro),
      (SYS_START_SOFTCNT, .ro)]
  | 0x18 => [(SYS_ECC_CNT_COUNT, .ro)]
  | 0x1C => [(SYS_NAVBOOT_ADDR, .rw)]
  | 0x20 => [(SYS_NWDOG_EN, .rw),
      (SYS_NWDOG_KICK, .wo),
      (SYS_NWDOG_LIMIT, .rw)]
  | 0x24 => [(SYS_NWCNT_COUNT, .ro)]
  | 0x28 => [(SYS_NIRQ_SVC, .ro),
      (SYS_NIRQ_SUP, .ro),
      (SYS_NIRQ_TEL, .ro),
      (SYS_NIRQ_EPT, .ro),
      (SYS_NIRQ_TIM, .ro),
      (SYS_NIRQ_ITG, .ro),
      (SYS_NIRQ_SNP, .ro)]
  | _ => []

/-! ### SUP -/

/-- `SUP_STAT.BRACE` -/
def SUP_STAT_BRACE : Field := ⟨0x40010000 + 0x0, 31, 31, 0⟩
/-- `SUP_STAT.SETTLED` -/
def SUP_STAT_SETTLED : Field := ⟨0x40010000 + 0x0, 30, 30, 0⟩
/-- `SUP_STAT.WARN` -/
def SUP_STAT_WARN : Field := ⟨0x40010000 + 0x0, 29, 29, 0⟩
/-- `SUP_STAT.PFW` -/
def SUP_STAT_PFW : Field := ⟨0x40010000 + 0x0, 28, 28, 0⟩
/-- `SUP_STAT.LONG` -/
def SUP_STAT_LONG : Field := ⟨0x40010000 + 0x0, 27, 27, 0⟩
/-- `SUP_STAT.HOT` -/
def SUP_STAT_HOT : Field := ⟨0x40010000 + 0x0, 26, 26, 0⟩
/-- `SUP_STAT.LONGSAG` -/
def SUP_STAT_LONGSAG : Field := ⟨0x40010000 + 0x0, 3, 3, 0⟩
/-- `SUP_STAT.SAGREC` -/
def SUP_STAT_SAGREC : Field := ⟨0x40010000 + 0x0, 2, 2, 0⟩
/-- `SUP_STAT.PFWSEEN` -/
def SUP_STAT_PFWSEEN : Field := ⟨0x40010000 + 0x0, 1, 1, 0⟩
/-- `SUP_STAT.HOTEP` -/
def SUP_STAT_HOTEP : Field := ⟨0x40010000 + 0x0, 0, 0, 0⟩
/-- `SUP_CAUSE.PFW` -/
def SUP_CAUSE_PFW : Field := ⟨0x40010000 + 0x4, 2, 2, 0⟩
/-- `SUP_CAUSE.IO33` -/
def SUP_CAUSE_IO33 : Field := ⟨0x40010000 + 0x4, 1, 1, 0⟩
/-- `SUP_CAUSE.CORE` -/
def SUP_CAUSE_CORE : Field := ⟨0x40010000 + 0x4, 0, 0, 0⟩
/-- `SUP_MEAS.IO33` -/
def SUP_MEAS_IO33 : Field := ⟨0x40010000 + 0x8, 25, 16, 0⟩
/-- `SUP_MEAS.CORE` -/
def SUP_MEAS_CORE : Field := ⟨0x40010000 + 0x8, 9, 0, 0⟩
/-- `SUP_MIN.IO33` -/
def SUP_MIN_IO33 : Field := ⟨0x40010000 + 0xC, 25, 16, 1023⟩
/-- `SUP_MIN.CORE` -/
def SUP_MIN_CORE : Field := ⟨0x40010000 + 0xC, 9, 0, 1023⟩
/-- `SUP_DUR.MS` -/
def SUP_DUR_MS : Field := ⟨0x40010000 + 0x10, 31, 0, 0⟩
/-- `SUP_BRCNT.SHORT` -/
def SUP_BRCNT_SHORT : Field := ⟨0x40010000 + 0x14, 31, 16, 0⟩
/-- `SUP_BRCNT.LONG` -/
def SUP_BRCNT_LONG : Field := ⟨0x40010000 + 0x14, 15, 0, 0⟩
/-- `SUP_LASTW.SEC` -/
def SUP_LASTW_SEC : Field := ⟨0x40010000 + 0x18, 31, 0, 0⟩
/-- `SUP_RAIL.PRES` -/
def SUP_RAIL_PRES : Field := ⟨0x40010000 + 0x1C, 5, 0, 0⟩
/-- `SUP_TEMP.VALID` -/
def SUP_TEMP_VALID : Field := ⟨0x40010000 + 0x20, 31, 31, 0⟩
/-- `SUP_TEMP.DEGQ` -/
def SUP_TEMP_DEGQ : Field := ⟨0x40010000 + 0x20, 11, 0, 0⟩
/-- `SUP_IRQ.IRQ` -/
def SUP_IRQ_IRQ : Field := ⟨0x40010000 + 0x24, 2, 0, 0⟩
/-- `SUP_IRQEN.IRQ` -/
def SUP_IRQEN_IRQ : Field := ⟨0x40010000 + 0x28, 2, 0, 0⟩

/-- The registers of SUP by offset, fields with their access codes. -/
def supRegs (ofs : Nat) : List (Field × Acc) :=
  match ofs with
  | 0x0 => [(SUP_STAT_BRACE, .ro),
      (SUP_STAT_SETTLED, .ro),
      (SUP_STAT_WARN, .ro),
      (SUP_STAT_PFW, .ro),
      (SUP_STAT_LONG, .ro),
      (SUP_STAT_HOT, .ro),
      (SUP_STAT_LONGSAG, .w1c),
      (SUP_STAT_SAGREC, .w1c),
      (SUP_STAT_PFWSEEN, .w1c),
      (SUP_STAT_HOTEP, .w1c)]
  | 0x4 => [(SUP_CAUSE_PFW, .ro),
      (SUP_CAUSE_IO33, .ro),
      (SUP_CAUSE_CORE, .ro)]
  | 0x8 => [(SUP_MEAS_IO33, .ro),
      (SUP_MEAS_CORE, .ro)]
  | 0xC => [(SUP_MIN_IO33, .ro),
      (SUP_MIN_CORE, .ro)]
  | 0x10 => [(SUP_DUR_MS, .ro)]
  | 0x14 => [(SUP_BRCNT_SHORT, .ro),
      (SUP_BRCNT_LONG, .ro)]
  | 0x18 => [(SUP_LASTW_SEC, .ro)]
  | 0x1C => [(SUP_RAIL_PRES, .ro)]
  | 0x20 => [(SUP_TEMP_VALID, .ro),
      (SUP_TEMP_DEGQ, .ro)]
  | 0x24 => [(SUP_IRQ_IRQ, .w1c)]
  | 0x28 => [(SUP_IRQEN_IRQ, .rw)]
  | _ => []

/-! ### RTC -/

/-- `RTC_TICK_L.TICK` -/
def RTC_TICK_L_TICK : Field := ⟨0x40020000 + 0x0, 31, 0, 0⟩
/-- `RTC_TICK_H.TICK` -/
def RTC_TICK_H_TICK : Field := ⟨0x40020000 + 0x4, 15, 0, 0⟩
/-- `RTC_SEC_L.SEC` -/
def RTC_SEC_L_SEC : Field := ⟨0x40020000 + 0x8, 31, 0, 0⟩
/-- `RTC_SEC_H.SEC` -/
def RTC_SEC_H_SEC : Field := ⟨0x40020000 + 0xC, 0, 0, 0⟩
/-- `RTC_PRE.PRE` -/
def RTC_PRE_PRE : Field := ⟨0x40020000 + 0x10, 14, 0, 0⟩
/-- `RTC_TRIM.TRIM` -/
def RTC_TRIM_TRIM : Field := ⟨0x40020000 + 0x14, 9, 0, 0⟩
/-- `RTC_WAKE.WAKE` -/
def RTC_WAKE_WAKE : Field := ⟨0x40020000 + 0x18, 23, 0, 0⟩
/-- `RTC_CTL.SYNCSET` -/
def RTC_CTL_SYNCSET : Field := ⟨0x40020000 + 0x1C, 31, 31, 1⟩
/-- `RTC_CTL.FSWCLR` -/
def RTC_CTL_FSWCLR : Field := ⟨0x40020000 + 0x1C, 30, 30, 0⟩
/-- `RTC_CTL.BOUND` -/
def RTC_CTL_BOUND : Field := ⟨0x40020000 + 0x1C, 15, 0, 100⟩
/-- `RTC_STAT.ONBAT` -/
def RTC_STAT_ONBAT : Field := ⟨0x40020000 + 0x20, 31, 31, 0⟩
/-- `RTC_STAT.SETPEND` -/
def RTC_STAT_SETPEND : Field := ⟨0x40020000 + 0x20, 30, 30, 0⟩
/-- `RTC_STAT.DISC` -/
def RTC_STAT_DISC : Field := ⟨0x40020000 + 0x20, 29, 29, 1⟩
/-- `RTC_STAT.VBATLOW` -/
def RTC_STAT_VBATLOW : Field := ⟨0x40020000 + 0x20, 28, 28, 0⟩
/-- `RTC_STAT.XOFAIL` -/
def RTC_STAT_XOFAIL : Field := ⟨0x40020000 + 0x20, 3, 3, 0⟩
/-- `RTC_STAT.WOVR` -/
def RTC_STAT_WOVR : Field := ⟨0x40020000 + 0x20, 2, 2, 0⟩
/-- `RTC_STAT.PRELOST` -/
def RTC_STAT_PRELOST : Field := ⟨0x40020000 + 0x20, 1, 1, 0⟩
/-- `RTC_WREASON.BACKUP` -/
def RTC_WREASON_BACKUP : Field := ⟨0x40020000 + 0x24, 5, 5, 0⟩
/-- `RTC_WREASON.POWER` -/
def RTC_WREASON_POWER : Field := ⟨0x40020000 + 0x24, 4, 4, 1⟩
/-- `RTC_WREASON.RESET` -/
def RTC_WREASON_RESET : Field := ⟨0x40020000 + 0x24, 3, 3, 0⟩
/-- `RTC_WREASON.SUPPLY` -/
def RTC_WREASON_SUPPLY : Field := ⟨0x40020000 + 0x24, 2, 2, 0⟩
/-- `RTC_WREASON.HOST` -/
def RTC_WREASON_HOST : Field := ⟨0x40020000 + 0x24, 1, 1, 0⟩
/-- `RTC_WREASON.PERIODIC` -/
def RTC_WREASON_PERIODIC : Field := ⟨0x40020000 + 0x24, 0, 0, 0⟩
/-- `RTC_WTICK_L.TICK` -/
def RTC_WTICK_L_TICK : Field := ⟨0x40020000 + 0x28, 31, 0, 0⟩
/-- `RTC_WTICK_H.TICK` -/
def RTC_WTICK_H_TICK : Field := ⟨0x40020000 + 0x2C, 15, 0, 0⟩
/-- `RTC_FSW_L.TICK` -/
def RTC_FSW_L_TICK : Field := ⟨0x40020000 + 0x30, 31, 0, 0⟩
/-- `RTC_FSW_H.VALID` -/
def RTC_FSW_H_VALID : Field := ⟨0x40020000 + 0x34, 31, 31, 0⟩
/-- `RTC_FSW_H.TICK` -/
def RTC_FSW_H_TICK : Field := ⟨0x40020000 + 0x34, 15, 0, 0⟩
/-- `RTC_LSW_L.TICK` -/
def RTC_LSW_L_TICK : Field := ⟨0x40020000 + 0x38, 31, 0, 0⟩
/-- `RTC_LSW_H.TICK` -/
def RTC_LSW_H_TICK : Field := ⟨0x40020000 + 0x3C, 15, 0, 0⟩
/-- `RTC_LRET_L.TICK` -/
def RTC_LRET_L_TICK : Field := ⟨0x40020000 + 0x40, 31, 0, 0⟩
/-- `RTC_LRET_H.TICK` -/
def RTC_LRET_H_TICK : Field := ⟨0x40020000 + 0x44, 15, 0, 0⟩
/-- `RTC_SWCNT.WMISS` -/
def RTC_SWCNT_WMISS : Field := ⟨0x40020000 + 0x48, 31, 16, 0⟩
/-- `RTC_SWCNT.SWCNT` -/
def RTC_SWCNT_SWCNT : Field := ⟨0x40020000 + 0x48, 15, 0, 0⟩
/-- `RTC_VBAT.MV10` -/
def RTC_VBAT_MV10 : Field := ⟨0x40020000 + 0x4C, 9, 0, 0⟩

/-- The registers of RTC by offset, fields with their access codes. -/
def rtcRegs (ofs : Nat) : List (Field × Acc) :=
  match ofs with
  | 0x0 => [(RTC_TICK_L_TICK, .ro)]
  | 0x4 => [(RTC_TICK_H_TICK, .ro)]
  | 0x8 => [(RTC_SEC_L_SEC, .rwl)]
  | 0xC => [(RTC_SEC_H_SEC, .rwl)]
  | 0x10 => [(RTC_PRE_PRE, .ro)]
  | 0x14 => [(RTC_TRIM_TRIM, .rwl)]
  | 0x18 => [(RTC_WAKE_WAKE, .rw)]
  | 0x1C => [(RTC_CTL_SYNCSET, .rwl),
      (RTC_CTL_FSWCLR, .wo),
      (RTC_CTL_BOUND, .rwl)]
  | 0x20 => [(RTC_STAT_ONBAT, .ro),
      (RTC_STAT_SETPEND, .ro),
      (RTC_STAT_DISC, .ro),
      (RTC_STAT_VBATLOW, .ro),
      (RTC_STAT_XOFAIL, .w1c),
      (RTC_STAT_WOVR, .w1c),
      (RTC_STAT_PRELOST, .w1c)]
  | 0x24 => [(RTC_WREASON_BACKUP, .w1c),
      (RTC_WREASON_POWER, .w1c),
      (RTC_WREASON_RESET, .w1c),
      (RTC_WREASON_SUPPLY, .w1c),
      (RTC_WREASON_HOST, .w1c),
      (RTC_WREASON_PERIODIC, .w1c)]
  | 0x28 => [(RTC_WTICK_L_TICK, .ro)]
  | 0x2C => [(RTC_WTICK_H_TICK, .ro)]
  | 0x30 => [(RTC_FSW_L_TICK, .ro)]
  | 0x34 => [(RTC_FSW_H_VALID, .ro),
      (RTC_FSW_H_TICK, .ro)]
  | 0x38 => [(RTC_LSW_L_TICK, .ro)]
  | 0x3C => [(RTC_LSW_H_TICK, .ro)]
  | 0x40 => [(RTC_LRET_L_TICK, .ro)]
  | 0x44 => [(RTC_LRET_H_TICK, .ro)]
  | 0x48 => [(RTC_SWCNT_WMISS, .ro),
      (RTC_SWCNT_SWCNT, .ro)]
  | 0x4C => [(RTC_VBAT_MV10, .ro)]
  | _ => []

/-! ### PLL0 -/

/-- `PLL_CTL.EN` -/
def PLL_CTL_EN (x : Nat) : Field := ⟨0x40030000 + x * 0x100 + 0x0, 31, 31, if x < 3 then 1 else 0⟩
/-- `PLL_CTL.GO` -/
def PLL_CTL_GO (x : Nat) : Field := ⟨0x40030000 + x * 0x100 + 0x0, 30, 30, 0⟩
/-- `PLL_CTL.RELOCK` -/
def PLL_CTL_RELOCK (x : Nat) : Field := ⟨0x40030000 + x * 0x100 + 0x0, 29, 29, 0⟩
/-- `PLL_CTL.FOLLOW` -/
def PLL_CTL_FOLLOW (x : Nat) : Field := ⟨0x40030000 + x * 0x100 + 0x0, 28, 28, 0⟩
/-- `PLL_DIV.RDIV` -/
def PLL_DIV_RDIV (x : Nat) : Field := ⟨0x40030000 + x * 0x100 + 0x4, 27, 24, 1⟩
/-- `PLL_DIV.N` -/
def PLL_DIV_N (x : Nat) : Field := ⟨0x40030000 + x * 0x100 + 0x4, 13, 0, 0⟩
/-- `PLL_NUM.NUM` -/
def PLL_NUM_NUM (x : Nat) : Field := ⟨0x40030000 + x * 0x100 + 0x8, 23, 0, 0⟩
/-- `PLL_DEN.DEN` -/
def PLL_DEN_DEN (x : Nat) : Field := ⟨0x40030000 + x * 0x100 + 0xC, 23, 0, 0⟩
/-- `PLL_ODIV.ODIV2` -/
def PLL_ODIV_ODIV2 (x : Nat) : Field := ⟨0x40030000 + x * 0x100 + 0x10, 23, 16, if x = 1 then 6 else 0⟩
/-- `PLL_ODIV.ODIV1` -/
def PLL_ODIV_ODIV1 (x : Nat) : Field := ⟨0x40030000 + x * 0x100 + 0x10, 15, 8, if x = 1 then 8 else if x = 2 then 50 else 0⟩
/-- `PLL_ODIV.ODIV0` -/
def PLL_ODIV_ODIV0 (x : Nat) : Field := ⟨0x40030000 + x * 0x100 + 0x10, 7, 0, if x = 0 then 8 else if x = 1 then 4 else if x = 2 then 40 else 0⟩
/-- `PLL_TRIM.TRIM` -/
def PLL_TRIM_TRIM (x : Nat) : Field := ⟨0x40030000 + x * 0x100 + 0x14, 31, 0, 0⟩
/-- `PLL_PHOFS.PS` -/
def PLL_PHOFS_PS (x : Nat) : Field := ⟨0x40030000 + x * 0x100 + 0x18, 31, 0, 0⟩
/-- `PLL_STAT.STATE` -/
def PLL_STAT_STATE (x : Nat) : Field := ⟨0x40030000 + x * 0x100 + 0x1C, 31, 29, 0⟩
/-- `PLL_STAT.LOCK` -/
def PLL_STAT_LOCK (x : Nat) : Field := ⟨0x40030000 + x * 0x100 + 0x1C, 28, 28, 0⟩
/-- `PLL_STAT.ALIGNED` -/
def PLL_STAT_ALIGNED (x : Nat) : Field := ⟨0x40030000 + x * 0x100 + 0x1C, 27, 27, 0⟩
/-- `PLL_STAT.IRCSEL` -/
def PLL_STAT_IRCSEL (x : Nat) : Field := ⟨0x40030000 + x * 0x100 + 0x1C, 26, 26, 0⟩
/-- `PLL_STAT.PEND` -/
def PLL_STAT_PEND (x : Nat) : Field := ⟨0x40030000 + x * 0x100 + 0x1C, 25, 25, 0⟩
/-- `PLL_STAT.RAMP` -/
def PLL_STAT_RAMP (x : Nat) : Field := ⟨0x40030000 + x * 0x100 + 0x1C, 24, 24, 0⟩
/-- `PLL_STAT.BAND` -/
def PLL_STAT_BAND (x : Nat) : Field := ⟨0x40030000 + x * 0x100 + 0x1C, 21, 16, 0⟩
/-- `PLL_STAT.REFUSED` -/
def PLL_STAT_REFUSED (x : Nat) : Field := ⟨0x40030000 + x * 0x100 + 0x1C, 4, 4, 0⟩
/-- `PLL_STAT.TRIMERR` -/
def PLL_STAT_TRIMERR (x : Nat) : Field := ⟨0x40030000 + x * 0x100 + 0x1C, 3, 3, 0⟩
/-- `PLL_STAT.NOBAND` -/
def PLL_STAT_NOBAND (x : Nat) : Field := ⟨0x40030000 + x * 0x100 + 0x1C, 2, 2, 0⟩
/-- `PLL_STAT.LOR` -/
def PLL_STAT_LOR (x : Nat) : Field := ⟨0x40030000 + x * 0x100 + 0x1C, 1, 1, 0⟩
/-- `PLL_STAT.LOL` -/
def PLL_STAT_LOL (x : Nat) : Field := ⟨0x40030000 + x * 0x100 + 0x1C, 0, 0, 0⟩
/-- `PLL_LOLCNT.COUNT` -/
def PLL_LOLCNT_COUNT (x : Nat) : Field := ⟨0x40030000 + x * 0x100 + 0x20, 15, 0, 0⟩
/-- `PLL_VCO.KHZ` -/
def PLL_VCO_KHZ (x : Nat) : Field := ⟨0x40030000 + x * 0x100 + 0x24, 31, 0, 0⟩

/-- The registers of PLL0 by offset, fields with their access codes. -/
def pllRegs (x ofs : Nat) : List (Field × Acc) :=
  match ofs with
  | 0x0 => [(PLL_CTL_EN x, .rw),
      (PLL_CTL_GO x, .wo),
      (PLL_CTL_RELOCK x, .wo),
      (PLL_CTL_FOLLOW x, .rw)]
  | 0x4 => [(PLL_DIV_RDIV x, if x < 3 then .ro else .rw),
      (PLL_DIV_N x, if x < 3 then .ro else .rw)]
  | 0x8 => [(PLL_NUM_NUM x, if x < 3 then .ro else .rw)]
  | 0xC => [(PLL_DEN_DEN x, if x < 3 then .ro else .rw)]
  | 0x10 => [(PLL_ODIV_ODIV2 x, .ro),
      (PLL_ODIV_ODIV1 x, .ro),
      (PLL_ODIV_ODIV0 x, .ro)]
  | 0x14 => [(PLL_TRIM_TRIM x, if x < 3 then .ro else .rw)]
  | 0x18 => [(PLL_PHOFS_PS x, .rw)]
  | 0x1C => [(PLL_STAT_STATE x, .ro),
      (PLL_STAT_LOCK x, .ro),
      (PLL_STAT_ALIGNED x, .ro),
      (PLL_STAT_IRCSEL x, .ro),
      (PLL_STAT_PEND x, .ro),
      (PLL_STAT_RAMP x, .ro),
      (PLL_STAT_BAND x, .ro),
      (PLL_STAT_REFUSED x, .w1c),
      (PLL_STAT_TRIMERR x, .w1c),
      (PLL_STAT_NOBAND x, .w1c),
      (PLL_STAT_LOR x, .w1c),
      (PLL_STAT_LOL x, .w1c)]
  | 0x20 => [(PLL_LOLCNT_COUNT x, .ro)]
  | 0x24 => [(PLL_VCO_KHZ x, .ro)]
  | _ => []

/-! ### PLLX -/

/-- `PLL_RFI.FREQ` -/
def PLL_RFI_FREQ : Field := ⟨0x40030000 + 0x600, 31, 30, 0⟩
/-- `PLL_RFI.VALID` -/
def PLL_RFI_VALID : Field := ⟨0x40030000 + 0x600, 29, 29, 0⟩
/-- `PLL_RFI.LOR` -/
def PLL_RFI_LOR : Field := ⟨0x40030000 + 0x600, 16, 16, 0⟩
/-- `PLL_RFI.LORCNT` -/
def PLL_RFI_LORCNT : Field := ⟨0x40030000 + 0x600, 15, 0, 0⟩

/-- The registers of PLLX by offset, fields with their access codes. -/
def rfiRegs (ofs : Nat) : List (Field × Acc) :=
  match ofs with
  | 0x600 => [(PLL_RFI_FREQ, .ro),
      (PLL_RFI_VALID, .ro),
      (PLL_RFI_LOR, .w1c),
      (PLL_RFI_LORCNT, .ro)]
  | _ => []

/-! ### CKOB -/

/-- `CKO_BANK.PRESENT` -/
def CKO_BANK_PRESENT (b : Nat) : Field := ⟨0x40030000 + b * 4 + 0xF80, 31, 31, 0⟩
/-- `CKO_BANK.MV10` -/
def CKO_BANK_MV10 (b : Nat) : Field := ⟨0x40030000 + b * 4 + 0xF80, 9, 0, 0⟩

/-- The registers of CKOB by offset, fields with their access codes. -/
def ckoBankRegs (b ofs : Nat) : List (Field × Acc) :=
  match ofs with
  | 0xF80 => [(CKO_BANK_PRESENT b, .ro),
      (CKO_BANK_MV10 b, .ro)]
  | _ => []

/-! ### CKO -/

/-- `CKO_CFG.EN` -/
def CKO_CFG_EN (k : Nat) : Field := ⟨0x40030000 + k * 0x20 + 0xE00, 31, 31, 0⟩
/-- `CKO_CFG.FMT` -/
def CKO_CFG_FMT (k : Nat) : Field := ⟨0x40030000 + k * 0x20 + 0xE00, 30, 28, 1⟩
/-- `CKO_CFG.LVL` -/
def CKO_CFG_LVL (k : Nat) : Field := ⟨0x40030000 + k * 0x20 + 0xE00, 27, 26, 0⟩
/-- `CKO_CFG.COMPL_ACT` -/
def CKO_CFG_COMPLACT (k : Nat) : Field := ⟨0x40030000 + k * 0x20 + 0xE00, 25, 25, 0⟩
/-- `CKO_CFG.ODIV` -/
def CKO_CFG_ODIV (k : Nat) : Field := ⟨0x40030000 + k * 0x20 + 0xE00, 12, 0, 500⟩
/-- `CKO_STAT.ACTIVE` -/
def CKO_STAT_ACTIVE (k : Nat) : Field := ⟨0x40030000 + k * 0x20 + 0xE04, 31, 31, 0⟩
/-- `CKO_STAT.PEND` -/
def CKO_STAT_PEND (k : Nat) : Field := ⟨0x40030000 + k * 0x20 + 0xE04, 30, 30, 0⟩
/-- `CKO_STAT.LOCKWAIT` -/
def CKO_STAT_LOCKWAIT (k : Nat) : Field := ⟨0x40030000 + k * 0x20 + 0xE04, 29, 29, 0⟩
/-- `CKO_STAT.COMPL` -/
def CKO_STAT_COMPL (k : Nat) : Field := ⟨0x40030000 + k * 0x20 + 0xE04, 28, 28, 0⟩
/-- `CKO_STAT.COMPLEP` -/
def CKO_STAT_COMPLEP (k : Nat) : Field := ⟨0x40030000 + k * 0x20 + 0xE04, 4, 4, 0⟩
/-- `CKO_STAT.RUNT` -/
def CKO_STAT_RUNT (k : Nat) : Field := ⟨0x40030000 + k * 0x20 + 0xE04, 3, 3, 0⟩
/-- `CKO_STAT.CFGERR` -/
def CKO_STAT_CFGERR (k : Nat) : Field := ⟨0x40030000 + k * 0x20 + 0xE04, 1, 1, 0⟩
/-- `CKO_STAT.FRQERR` -/
def CKO_STAT_FRQERR (k : Nat) : Field := ⟨0x40030000 + k * 0x20 + 0xE04, 0, 0, 0⟩
/-- `CKO_FREQ.HZ` -/
def CKO_FREQ_HZ (k : Nat) : Field := ⟨0x40030000 + k * 0x20 + 0xE08, 31, 0, 0⟩
/-- `CKO_PHASE.PS` -/
def CKO_PHASE_PS (k : Nat) : Field := ⟨0x40030000 + k * 0x20 + 0xE0C, 31, 0, 2147483648⟩
/-- `CKO_CNT.EPIS` -/
def CKO_CNT_EPIS (k : Nat) : Field := ⟨0x40030000 + k * 0x20 + 0xE10, 15, 0, 0⟩

/-- The registers of CKO by offset, fields with their access codes. -/
def ckoRegs (k ofs : Nat) : List (Field × Acc) :=
  match ofs with
  | 0xE00 => [(CKO_CFG_EN k, .rwb),
      (CKO_CFG_FMT k, .rwb),
      (CKO_CFG_LVL k, .rwb),
      (CKO_CFG_COMPLACT k, .rwb),
      (CKO_CFG_ODIV k, .rwb)]
  | 0xE04 => [(CKO_STAT_ACTIVE k, .ro),
      (CKO_STAT_PEND k, .ro),
      (CKO_STAT_LOCKWAIT k, .ro),
      (CKO_STAT_COMPL k, .ro),
      (CKO_STAT_COMPLEP k, .w1c),
      (CKO_STAT_RUNT k, .w1c),
      (CKO_STAT_CFGERR k, .w1c),
      (CKO_STAT_FRQERR k, .w1c)]
  | 0xE08 => [(CKO_FREQ_HZ k, .ro)]
  | 0xE0C => [(CKO_PHASE_PS k, .ro)]
  | 0xE10 => [(CKO_CNT_EPIS k, .ro)]
  | _ => []

/-! ### TIM -/

/-- `TIM_NOW_SH.FRAC` -/
def TIM_NOW_SH_FRAC : Field := ⟨0x40040000 + 0x0, 31, 16, 0⟩
/-- `TIM_NOW_SH.SECH` -/
def TIM_NOW_SH_SECH : Field := ⟨0x40040000 + 0x0, 15, 0, 0⟩
/-- `TIM_NOW_SL.SECL` -/
def TIM_NOW_SL_SECL : Field := ⟨0x40040000 + 0x4, 31, 0, 0⟩
/-- `TIM_NOW_NS.NS` -/
def TIM_NOW_NS_NS : Field := ⟨0x40040000 + 0x8, 31, 0, 0⟩
/-- `TIM_EPOCH_L.COUNT` -/
def TIM_EPOCH_L_COUNT : Field := ⟨0x40040000 + 0xC, 31, 0, 0⟩
/-- `TIM_EPOCH_H.COUNT` -/
def TIM_EPOCH_H_COUNT : Field := ⟨0x40040000 + 0x10, 31, 0, 0⟩
/-- `TIM_STAT.STATE` -/
def TIM_STAT_STATE : Field := ⟨0x40040000 + 0x14, 31, 30, 0⟩
/-- `TIM_STAT.SLEWING` -/
def TIM_STAT_SLEWING : Field := ⟨0x40040000 + 0x14, 29, 29, 0⟩
/-- `TIM_STAT.RCLAMP` -/
def TIM_STAT_RCLAMP : Field := ⟨0x40040000 + 0x14, 28, 28, 0⟩
/-- `TIM_STAT.FDFAIL` -/
def TIM_STAT_FDFAIL : Field := ⟨0x40040000 + 0x14, 27, 27, 0⟩
/-- `TIM_STAT.SRC` -/
def TIM_STAT_SRC : Field := ⟨0x40040000 + 0x14, 26, 24, 5⟩
/-- `TIM_STAT.FIXSTALE` -/
def TIM_STAT_FIXSTALE : Field := ⟨0x40040000 + 0x14, 3, 3, 0⟩
/-- `TIM_STAT.REFUSED` -/
def TIM_STAT_REFUSED : Field := ⟨0x40040000 + 0x14, 2, 2, 0⟩
/-- `TIM_STAT.LATE` -/
def TIM_STAT_LATE : Field := ⟨0x40040000 + 0x14, 1, 1, 0⟩
/-- `TIM_OCOMP_L.OCOMP` -/
def TIM_OCOMP_L_OCOMP : Field := ⟨0x40040000 + 0x18, 31, 0, 0⟩
/-- `TIM_OCOMP_H.OCOMP` -/
def TIM_OCOMP_H_OCOMP : Field := ⟨0x40040000 + 0x1C, 15, 0, 0⟩
/-- `TIM_RATE_L.RATE` -/
def TIM_RATE_L_RATE : Field := ⟨0x40040000 + 0x20, 31, 0, 0⟩
/-- `TIM_RATE_H.RATE` -/
def TIM_RATE_H_RATE : Field := ⟨0x40040000 + 0x24, 15, 0, 0⟩
/-- `TIM_SLEW.SLEW` -/
def TIM_SLEW_SLEW : Field := ⟨0x40040000 + 0x28, 31, 0, 0⟩
/-- `TIM_SLREM.Q` -/
def TIM_SLREM_Q : Field := ⟨0x40040000 + 0x2C, 31, 0, 0⟩
/-- `TIM_AGING.AGING` -/
def TIM_AGING_AGING : Field := ⟨0x40040000 + 0x30, 31, 0, 0⟩
/-- `TIM_FIX_D.DELTA` -/
def TIM_FIX_D_DELTA : Field := ⟨0x40040000 + 0x34, 31, 0, 0⟩
/-- `TIM_FIX_S.SIGMA` -/
def TIM_FIX_S_SIGMA : Field := ⟨0x40040000 + 0x38, 31, 0, 0⟩
/-- `TIM_FIX_DR.DRIFT` -/
def TIM_FIX_DR_DRIFT : Field := ⟨0x40040000 + 0x3C, 31, 0, 0⟩
/-- `TIM_FIX_T.EPOCH` -/
def TIM_FIX_T_EPOCH : Field := ⟨0x40040000 + 0x40, 31, 0, 0⟩
/-- `TIM_FIX_CTL.GO` -/
def TIM_FIX_CTL_GO : Field := ⟨0x40040000 + 0x44, 31, 31, 0⟩
/-- `TIM_FIX_CTL.FONLY` -/
def TIM_FIX_CTL_FONLY : Field := ⟨0x40040000 + 0x44, 30, 30, 0⟩
/-- `TIM_STEP_L.DELTA` -/
def TIM_STEP_L_DELTA : Field := ⟨0x40040000 + 0x48, 31, 0, 0⟩
/-- `TIM_STEP_H.DELTA` -/
def TIM_STEP_H_DELTA : Field := ⟨0x40040000 + 0x4C, 31, 0, 0⟩
/-- `TIM_STEP_CTL.GO` -/
def TIM_STEP_CTL_GO : Field := ⟨0x40040000 + 0x50, 31, 31, 0⟩
/-- `TIM_LOAD_SH.SECH` -/
def TIM_LOAD_SH_SECH : Field := ⟨0x40040000 + 0x54, 15, 0, 0⟩
/-- `TIM_LOAD_SL.SECL` -/
def TIM_LOAD_SL_SECL : Field := ⟨0x40040000 + 0x58, 31, 0, 0⟩
/-- `TIM_LOAD_NS.NS` -/
def TIM_LOAD_NS_NS : Field := ⟨0x40040000 + 0x5C, 31, 0, 0⟩
/-- `TIM_LOAD_EP.EPOCH` -/
def TIM_LOAD_EP_EPOCH : Field := ⟨0x40040000 + 0x60, 31, 0, 0⟩
/-- `TIM_LOAD_ERR.NS` -/
def TIM_LOAD_ERR_NS : Field := ⟨0x40040000 + 0x64, 31, 0, 4294967295⟩
/-- `TIM_LOAD_CTL.GO` -/
def TIM_LOAD_CTL_GO : Field := ⟨0x40040000 + 0x68, 31, 31, 0⟩
/-- `TIM_LOAD_CTL.SRC` -/
def TIM_LOAD_CTL_SRC : Field := ⟨0x40040000 + 0x68, 26, 24, 0⟩
/-- `TIM_SERVO.TSLEW` -/
def TIM_SERVO_TSLEW : Field := ⟨0x40040000 + 0x6C, 31, 16, 10⟩
/-- `TIM_SERVO.SLEWMAX` -/
def TIM_SERVO_SLEWMAX : Field := ⟨0x40040000 + 0x6C, 15, 8, 200⟩
/-- `TIM_SERVO.GF` -/
def TIM_SERVO_GF : Field := ⟨0x40040000 + 0x6C, 7, 0, 128⟩
/-- `TIM_HM_EF.EF` -/
def TIM_HM_EF_EF : Field := ⟨0x40040000 + 0x70, 31, 0, 5000⟩
/-- `TIM_HM_UY.UY` -/
def TIM_HM_UY_UY : Field := ⟨0x40040000 + 0x74, 31, 0, 10⟩
/-- `TIM_HM_AG.AG` -/
def TIM_HM_AG_AG : Field := ⟨0x40040000 + 0x78, 31, 0, 50⟩
/-- `TIM_HM_WN.WN` -/
def TIM_HM_WN_WN : Field := ⟨0x40040000 + 0x7C, 31, 0, 100⟩
/-- `TIM_TERR.NS` -/
def TIM_TERR_NS : Field := ⟨0x40040000 + 0x80, 31, 0, 4294967295⟩
/-- `TIM_DPRED.PS` -/
def TIM_DPRED_PS : Field := ⟨0x40040000 + 0x84, 31, 0, 0⟩
/-- `TIM_HAGE.S` -/
def TIM_HAGE_S : Field := ⟨0x40040000 + 0x88, 31, 0, 0⟩
/-- `TIM_IMODEL.S` -/
def TIM_IMODEL_S : Field := ⟨0x40040000 + 0x8C, 15, 0, 0⟩
/-- `TIM_UTC.UTCOFS` -/
def TIM_UTC_UTCOFS : Field := ⟨0x40040000 + 0x90, 31, 24, 0⟩
/-- `TIM_UTC.LEAP` -/
def TIM_UTC_LEAP : Field := ⟨0x40040000 + 0x90, 23, 22, 0⟩
/-- `TIM_LEAPT_L.SEC` -/
def TIM_LEAPT_L_SEC : Field := ⟨0x40040000 + 0x94, 31, 0, 0⟩
/-- `TIM_LEAPT_H.SEC` -/
def TIM_LEAPT_H_SEC : Field := ⟨0x40040000 + 0x98, 15, 0, 0⟩
/-- `TIM_SYSB2.B` -/
def TIM_SYSB2_B : Field := ⟨0x40040000 + 0xA0, 31, 0, 0⟩
/-- `TIM_SYSB3.B` -/
def TIM_SYSB3_B : Field := ⟨0x40040000 + 0xA4, 31, 0, 0⟩
/-- `TIM_SYSB4.B` -/
def TIM_SYSB4_B : Field := ⟨0x40040000 + 0xA8, 31, 0, 0⟩
/-- `TIM_SYSB5.B` -/
def TIM_SYSB5_B : Field := ⟨0x40040000 + 0xAC, 31, 0, 0⟩
/-- `TIM_SYSB6.B` -/
def TIM_SYSB6_B : Field := ⟨0x40040000 + 0xB0, 31, 0, 0⟩
/-- `TIM_SYSB7.B` -/
def TIM_SYSB7_B : Field := ⟨0x40040000 + 0xB4, 31, 0, 0⟩
/-- `TIM_FDCAL.NCAL` -/
def TIM_FDCAL_NCAL : Field := ⟨0x40040000 + 0xB8, 15, 0, 32768⟩
/-- `TIM_RTCL_L.TICK` -/
def TIM_RTCL_L_TICK : Field := ⟨0x40040000 + 0xBC, 31, 0, 0⟩
/-- `TIM_RTCL_H.TICK` -/
def TIM_RTCL_H_TICK : Field := ⟨0x40040000 + 0xC0, 15, 0, 0⟩
/-- `TIM_RTCL_S.SEC` -/
def TIM_RTCL_S_SEC : Field := ⟨0x40040000 + 0xC4, 31, 0, 0⟩
/-- `TIM_IRQ.IRQ` -/
def TIM_IRQ_IRQ : Field := ⟨0x40040000 + 0xC8, 5, 0, 0⟩
/-- `TIM_IRQEN.IRQ` -/
def TIM_IRQEN_IRQ : Field := ⟨0x40040000 + 0xCC, 5, 0, 0⟩
/-- `TIM_TPI_CFG.EN` -/
def TIM_TPI_CFG_EN : Field := ⟨0x40040000 + 0x200, 31, 31, 0⟩
/-- `TIM_TPI_CFG.EDGE` -/
def TIM_TPI_CFG_EDGE : Field := ⟨0x40040000 + 0x200, 30, 30, 0⟩
/-- `TIM_TPI_CFG.MODE` -/
def TIM_TPI_CFG_MODE : Field := ⟨0x40040000 + 0x200, 29, 28, 0⟩
/-- `TIM_TPI_CFG.WIN` -/
def TIM_TPI_CFG_WIN : Field := ⟨0x40040000 + 0x200, 15, 0, 1000⟩
/-- `TIM_TPI_DLY.PS` -/
def TIM_TPI_DLY_PS : Field := ⟨0x40040000 + 0x204, 31, 0, 0⟩
/-- `TIM_TPI_SH.FRAC` -/
def TIM_TPI_SH_FRAC : Field := ⟨0x40040000 + 0x208, 31, 16, 0⟩
/-- `TIM_TPI_SH.SECH` -/
def TIM_TPI_SH_SECH : Field := ⟨0x40040000 + 0x208, 15, 0, 0⟩
/-- `TIM_TPI_SL.SECL` -/
def TIM_TPI_SL_SECL : Field := ⟨0x40040000 + 0x20C, 31, 0, 0⟩
/-- `TIM_TPI_NS.NS` -/
def TIM_TPI_NS_NS : Field := ⟨0x40040000 + 0x210, 31, 0, 0⟩
/-- `TIM_TPI_OFFS.X` -/
def TIM_TPI_OFFS_X : Field := ⟨0x40040000 + 0x214, 31, 0, 0⟩
/-- `TIM_TPI_STAT.NEW` -/
def TIM_TPI_STAT_NEW : Field := ⟨0x40040000 + 0x218, 31, 31, 0⟩
/-- `TIM_TPI_STAT.TPILOSS` -/
def TIM_TPI_STAT_TPILOSS : Field := ⟨0x40040000 + 0x218, 30, 30, 0⟩
/-- `TIM_TPI_STAT.OVR` -/
def TIM_TPI_STAT_OVR : Field := ⟨0x40040000 + 0x218, 2, 2, 0⟩
/-- `TIM_TPI_STAT.STRAY` -/
def TIM_TPI_STAT_STRAY : Field := ⟨0x40040000 + 0x218, 1, 1, 0⟩
/-- `TIM_TPI_STAT.GLITCH` -/
def TIM_TPI_STAT_GLITCH : Field := ⟨0x40040000 + 0x218, 0, 0, 0⟩
/-- `TIM_TPI_CNT.COUNT` -/
def TIM_TPI_CNT_COUNT : Field := ⟨0x40040000 + 0x21C, 31, 0, 0⟩

/-- The registers of TIM by offset, fields with their access codes. -/
def timRegs (ofs : Nat) : List (Field × Acc) :=
  match ofs with
  | 0x0 => [(TIM_NOW_SH_FRAC, .ro),
      (TIM_NOW_SH_SECH, .ro)]
  | 0x4 => [(TIM_NOW_SL_SECL, .ro)]
  | 0x8 => [(TIM_NOW_NS_NS, .ro)]
  | 0xC => [(TIM_EPOCH_L_COUNT, .ro)]
  | 0x10 => [(TIM_EPOCH_H_COUNT, .ro)]
  | 0x14 => [(TIM_STAT_STATE, .ro),
      (TIM_STAT_SLEWING, .ro),
      (TIM_STAT_RCLAMP, .ro),
      (TIM_STAT_FDFAIL, .ro),
      (TIM_STAT_SRC, .ro),
      (TIM_STAT_FIXSTALE, .w1c),
      (TIM_STAT_REFUSED, .w1c),
      (TIM_STAT_LATE, .w1c)]
  | 0x18 => [(TIM_OCOMP_L_OCOMP, .rw)]
  | 0x1C => [(TIM_OCOMP_H_OCOMP, .rw)]
  | 0x20 => [(TIM_RATE_L_RATE, .ro)]
  | 0x24 => [(TIM_RATE_H_RATE, .ro)]
  | 0x28 => [(TIM_SLEW_SLEW, .ro)]
  | 0x2C => [(TIM_SLREM_Q, .ro)]
  | 0x30 => [(TIM_AGING_AGING, .rw)]
  | 0x34 => [(TIM_FIX_D_DELTA, .rw)]
  | 0x38 => [(TIM_FIX_S_SIGMA, .rw)]
  | 0x3C => [(TIM_FIX_DR_DRIFT, .rw)]
  | 0x40 => [(TIM_FIX_T_EPOCH, .rw)]
  | 0x44 => [(TIM_FIX_CTL_GO, .wo),
      (TIM_FIX_CTL_FONLY, .wo)]
  | 0x48 => [(TIM_STEP_L_DELTA, .rw)]
  | 0x4C => [(TIM_STEP_H_DELTA, .rw)]
  | 0x50 => [(TIM_STEP_CTL_GO, .wo)]
  | 0x54 => [(TIM_LOAD_SH_SECH, .rw)]
  | 0x58 => [(TIM_LOAD_SL_SECL, .rw)]
  | 0x5C => [(TIM_LOAD_NS_NS, .rw)]
  | 0x60 => [(TIM_LOAD_EP_EPOCH, .rw)]
  | 0x64 => [(TIM_LOAD_ERR_NS, .rw)]
  | 0x68 => [(TIM_LOAD_CTL_GO, .wo),
      (TIM_LOAD_CTL_SRC, .wo)]
  | 0x6C => [(TIM_SERVO_TSLEW, .rw),
      (TIM_SERVO_SLEWMAX, .rw),
      (TIM_SERVO_GF, .rw)]
  | 0x70 => [(TIM_HM_EF_EF, .rw)]
  | 0x74 => [(TIM_HM_UY_UY, .rw)]
  | 0x78 => [(TIM_HM_AG_AG, .rw)]
  | 0x7C => [(TIM_HM_WN_WN, .rw)]
  | 0x80 => [(TIM_TERR_NS, .ro)]
  | 0x84 => [(TIM_DPRED_PS, .ro)]
  | 0x88 => [(TIM_HAGE_S, .ro)]
  | 0x8C => [(TIM_IMODEL_S, .ro)]
  | 0x90 => [(TIM_UTC_UTCOFS, .rw),
      (TIM_UTC_LEAP, .rw)]
  | 0x94 => [(TIM_LEAPT_L_SEC, .rw)]
  | 0x98 => [(TIM_LEAPT_H_SEC, .rw)]
  | 0xA0 => [(TIM_SYSB2_B, .rw)]
  | 0xA4 => [(TIM_SYSB3_B, .rw)]
  | 0xA8 => [(TIM_SYSB4_B, .rw)]
  | 0xAC => [(TIM_SYSB5_B, .rw)]
  | 0xB0 => [(TIM_SYSB6_B, .rw)]
  | 0xB4 => [(TIM_SYSB7_B, .rw)]
  | 0xB8 => [(TIM_FDCAL_NCAL, .ro)]
  | 0xBC => [(TIM_RTCL_L_TICK, .ro)]
  | 0xC0 => [(TIM_RTCL_H_TICK, .ro)]
  | 0xC4 => [(TIM_RTCL_S_SEC, .ro)]
  | 0xC8 => [(TIM_IRQ_IRQ, .w1c)]
  | 0xCC => [(TIM_IRQEN_IRQ, .rw)]
  | 0x200 => [(TIM_TPI_CFG_EN, .rw),
      (TIM_TPI_CFG_EDGE, .rw),
      (TIM_TPI_CFG_MODE, .rw),
      (TIM_TPI_CFG_WIN, .rw)]
  | 0x204 => [(TIM_TPI_DLY_PS, .rw)]
  | 0x208 => [(TIM_TPI_SH_FRAC, .ro),
      (TIM_TPI_SH_SECH, .ro)]
  | 0x20C => [(TIM_TPI_SL_SECL, .ro)]
  | 0x210 => [(TIM_TPI_NS_NS, .ro)]
  | 0x214 => [(TIM_TPI_OFFS_X, .ro)]
  | 0x218 => [(TIM_TPI_STAT_NEW, .ro),
      (TIM_TPI_STAT_TPILOSS, .ro),
      (TIM_TPI_STAT_OVR, .w1c),
      (TIM_TPI_STAT_STRAY, .w1c),
      (TIM_TPI_STAT_GLITCH, .w1c)]
  | 0x21C => [(TIM_TPI_CNT_COUNT, .ro)]
  | _ => []

/-! ### TP -/

/-- `TIM_TP_CFG.EN` -/
def TIM_TP_CFG_EN (n : Nat) : Field := ⟨0x40040000 + n * 0x40 + 0x100, 31, 31, 0⟩
/-- `TIM_TP_CFG.POL` -/
def TIM_TP_CFG_POL (n : Nat) : Field := ⟨0x40040000 + n * 0x40 + 0x100, 30, 30, 0⟩
/-- `TIM_TP_CFG.SCALE` -/
def TIM_TP_CFG_SCALE (n : Nat) : Field := ⟨0x40040000 + n * 0x40 + 0x100, 29, 27, 0⟩
/-- `TIM_TP_CFG.QUAL` -/
def TIM_TP_CFG_QUAL (n : Nat) : Field := ⟨0x40040000 + n * 0x40 + 0x100, 26, 24, 0⟩
/-- `TIM_TP_PER.PER` -/
def TIM_TP_PER_PER (n : Nat) : Field := ⟨0x40040000 + n * 0x40 + 0x104, 15, 0, 1000⟩
/-- `TIM_TP_WID.WID` -/
def TIM_TP_WID_WID (n : Nat) : Field := ⟨0x40040000 + n * 0x40 + 0x108, 18, 0, 100000⟩
/-- `TIM_TP_OFS.OFS` -/
def TIM_TP_OFS_OFS (n : Nat) : Field := ⟨0x40040000 + n * 0x40 + 0x10C, 31, 0, 0⟩
/-- `TIM_TP_NXT_SH.FRAC` -/
def TIM_TP_NXT_SH_FRAC (n : Nat) : Field := ⟨0x40040000 + n * 0x40 + 0x110, 31, 16, 0⟩
/-- `TIM_TP_NXT_SH.SECH` -/
def TIM_TP_NXT_SH_SECH (n : Nat) : Field := ⟨0x40040000 + n * 0x40 + 0x110, 15, 0, 0⟩
/-- `TIM_TP_NXT_SL.SECL` -/
def TIM_TP_NXT_SL_SECL (n : Nat) : Field := ⟨0x40040000 + n * 0x40 + 0x114, 31, 0, 0⟩
/-- `TIM_TP_NXT_NS.NS` -/
def TIM_TP_NXT_NS_NS (n : Nat) : Field := ⟨0x40040000 + n * 0x40 + 0x118, 31, 0, 0⟩
/-- `TIM_TP_RES.RES` -/
def TIM_TP_RES_RES (n : Nat) : Field := ⟨0x40040000 + n * 0x40 + 0x11C, 15, 0, 0⟩
/-- `TIM_TP_STAT.ACTIVE` -/
def TIM_TP_STAT_ACTIVE (n : Nat) : Field := ⟨0x40040000 + n * 0x40 + 0x120, 31, 31, 0⟩
/-- `TIM_TP_STAT.PEND` -/
def TIM_TP_STAT_PEND (n : Nat) : Field := ⟨0x40040000 + n * 0x40 + 0x120, 30, 30, 0⟩
/-- `TIM_TP_STAT.COARSE` -/
def TIM_TP_STAT_COARSE (n : Nat) : Field := ⟨0x40040000 + n * 0x40 + 0x120, 29, 29, 0⟩
/-- `TIM_TP_STAT.WITHHELD` -/
def TIM_TP_STAT_WITHHELD (n : Nat) : Field := ⟨0x40040000 + n * 0x40 + 0x120, 1, 1, 0⟩
/-- `TIM_TP_STAT.CFGERR` -/
def TIM_TP_STAT_CFGERR (n : Nat) : Field := ⟨0x40040000 + n * 0x40 + 0x120, 0, 0, 0⟩
/-- `TIM_TP_CNT.COUNT` -/
def TIM_TP_CNT_COUNT (n : Nat) : Field := ⟨0x40040000 + n * 0x40 + 0x124, 31, 0, 0⟩

/-- The registers of TP by offset, fields with their access codes. -/
def tpRegs (n ofs : Nat) : List (Field × Acc) :=
  match ofs with
  | 0x100 => [(TIM_TP_CFG_EN n, .rw),
      (TIM_TP_CFG_POL n, .rw),
      (TIM_TP_CFG_SCALE n, .rw),
      (TIM_TP_CFG_QUAL n, .rw)]
  | 0x104 => [(TIM_TP_PER_PER n, .rw)]
  | 0x108 => [(TIM_TP_WID_WID n, .rw)]
  | 0x10C => [(TIM_TP_OFS_OFS n, .rw)]
  | 0x110 => [(TIM_TP_NXT_SH_FRAC n, .ro),
      (TIM_TP_NXT_SH_SECH n, .ro)]
  | 0x114 => [(TIM_TP_NXT_SL_SECL n, .ro)]
  | 0x118 => [(TIM_TP_NXT_NS_NS n, .ro)]
  | 0x11C => [(TIM_TP_RES_RES n, .ro)]
  | 0x120 => [(TIM_TP_STAT_ACTIVE n, .ro),
      (TIM_TP_STAT_PEND n, .ro),
      (TIM_TP_STAT_COARSE n, .ro),
      (TIM_TP_STAT_WITHHELD n, .w1c),
      (TIM_TP_STAT_CFGERR n, .w1c)]
  | 0x124 => [(TIM_TP_CNT_COUNT n, .ro)]
  | _ => []

/-! ### SLK -/

/-- `SLK_CFG.EN` -/
def SLK_CFG_EN (n : Nat) : Field := ⟨0x40050000 + n * 0x100 + 0x0, 31, 31, 0⟩
/-- `SLK_CFG.CODE` -/
def SLK_CFG_CODE (n : Nat) : Field := ⟨0x40050000 + n * 0x100 + 0x0, 28, 27, 0⟩
/-- `SLK_CFG.IQSWAP` -/
def SLK_CFG_IQSWAP (n : Nat) : Field := ⟨0x40050000 + n * 0x100 + 0x0, 26, 26, 0⟩
/-- `SLK_CFG.QINV` -/
def SLK_CFG_QINV (n : Nat) : Field := ⟨0x40050000 + n * 0x100 + 0x0, 25, 25, 0⟩
/-- `SLK_CFG.AGCM` -/
def SLK_CFG_AGCM (n : Nat) : Field := ⟨0x40050000 + n * 0x100 + 0x0, 23, 22, 0⟩
/-- `SLK_CFG.ANT` -/
def SLK_CFG_ANT (n : Nat) : Field := ⟨0x40050000 + n * 0x100 + 0x0, 21, 20, 0⟩
/-- `SLK_CFG.BANDS` -/
def SLK_CFG_BANDS (n : Nat) : Field := ⟨0x40050000 + n * 0x100 + 0x0, 19, 17, 0⟩
/-- `SLK_LOF.LOF` -/
def SLK_LOF_LOF (n : Nat) : Field := ⟨0x40050000 + n * 0x100 + 0x4, 31, 0, 0⟩
/-- `SLK_STAT.UP` -/
def SLK_STAT_UP (n : Nat) : Field := ⟨0x40050000 + n * 0x100 + 0x8, 31, 31, 0⟩
/-- `SLK_STAT.TRAIN` -/
def SLK_STAT_TRAIN (n : Nat) : Field := ⟨0x40050000 + n * 0x100 + 0x8, 30, 30, 0⟩
/-- `SLK_STAT.ASLEEP` -/
def SLK_STAT_ASLEEP (n : Nat) : Field := ⟨0x40050000 + n * 0x100 + 0x8, 29, 29, 0⟩
/-- `SLK_STAT.MAPERR` -/
def SLK_STAT_MAPERR (n : Nat) : Field := ⟨0x40050000 + n * 0x100 + 0x8, 28, 28, 0⟩
/-- `SLK_STAT.PULSE` -/
def SLK_STAT_PULSE (n : Nat) : Field := ⟨0x40050000 + n * 0x100 + 0x8, 10, 10, 0⟩
/-- `SLK_STAT.GDEV` -/
def SLK_STAT_GDEV (n : Nat) : Field := ⟨0x40050000 + n * 0x100 + 0x8, 9, 9, 0⟩
/-- `SLK_STAT.Faults` -/
def SLK_STAT_FAULTS (n : Nat) : Field := ⟨0x40050000 + n * 0x100 + 0x8, 8, 0, 0⟩
/-- `SLK_FAULT.PULSE` -/
def SLK_FAULT_PULSE (n : Nat) : Field := ⟨0x40050000 + n * 0x100 + 0xC, 10, 10, 0⟩
/-- `SLK_FAULT.GDEV` -/
def SLK_FAULT_GDEV (n : Nat) : Field := ⟨0x40050000 + n * 0x100 + 0xC, 9, 9, 0⟩
/-- `SLK_FAULT.Faults` -/
def SLK_FAULT_FAULTS (n : Nat) : Field := ⟨0x40050000 + n * 0x100 + 0xC, 8, 0, 0⟩
/-- `SLK_SUBCNT.COUNT` -/
def SLK_SUBCNT_COUNT (n : Nat) : Field := ⟨0x40050000 + n * 0x100 + 0x10, 31, 0, 0⟩
/-- `SLK_CTRLERR.COUNT` -/
def SLK_CTRLERR_COUNT (n : Nat) : Field := ⟨0x40050000 + n * 0x100 + 0x14, 15, 0, 0⟩
/-- `SLK_FMT_SH.FRAC` -/
def SLK_FMT_SH_FRAC (n : Nat) : Field := ⟨0x40050000 + n * 0x100 + 0x18, 31, 16, 0⟩
/-- `SLK_FMT_SH.SECH` -/
def SLK_FMT_SH_SECH (n : Nat) : Field := ⟨0x40050000 + n * 0x100 + 0x18, 15, 0, 0⟩
/-- `SLK_FMT_SL.SECL` -/
def SLK_FMT_SL_SECL (n : Nat) : Field := ⟨0x40050000 + n * 0x100 + 0x1C, 31, 0, 0⟩
/-- `SLK_FMT_NS.NS` -/
def SLK_FMT_NS_NS (n : Nat) : Field := ⟨0x40050000 + n * 0x100 + 0x20, 31, 0, 0⟩
/-- `SLK_AGC.TGT` -/
def SLK_AGC_TGT (n : Nat) : Field := ⟨0x40050000 + n * 0x100 + 0x24, 31, 24, 82⟩
/-- `SLK_AGC.GAIN` -/
def SLK_AGC_GAIN (n : Nat) : Field := ⟨0x40050000 + n * 0x100 + 0x24, 23, 16, 0⟩
/-- `SLK_AGC.GMIN` -/
def SLK_AGC_GMIN (n : Nat) : Field := ⟨0x40050000 + n * 0x100 + 0x24, 15, 8, 0⟩
/-- `SLK_AGC.GMAX` -/
def SLK_AGC_GMAX (n : Nat) : Field := ⟨0x40050000 + n * 0x100 + 0x24, 7, 0, 255⟩
/-- `SLK_GBASE.VALID` -/
def SLK_GBASE_VALID (n : Nat) : Field := ⟨0x40050000 + n * 0x100 + 0x28, 31, 31, 0⟩
/-- `SLK_GBASE.BASE` -/
def SLK_GBASE_BASE (n : Nat) : Field := ⟨0x40050000 + n * 0x100 + 0x28, 15, 0, 0⟩
/-- `SLK_IFD.DBPS` -/
def SLK_IFD_DBPS (n : Nat) : Field := ⟨0x40050000 + n * 0x100 + 0x2C, 31, 24, 16⟩
/-- `SLK_IFD.GDEV` -/
def SLK_IFD_GDEV (n : Nat) : Field := ⟨0x40050000 + n * 0x100 + 0x2C, 23, 16, 24⟩
/-- `SLK_IFD.PULSE` -/
def SLK_IFD_PULSE (n : Nat) : Field := ⟨0x40050000 + n * 0x100 + 0x2C, 15, 8, 8⟩
/-- `SLK_MEAS.UPFR` -/
def SLK_MEAS_UPFR (n : Nat) : Field := ⟨0x40050000 + n * 0x100 + 0x30, 31, 24, 0⟩
/-- `SLK_MEAS.FSFR` -/
def SLK_MEAS_FSFR (n : Nat) : Field := ⟨0x40050000 + n * 0x100 + 0x30, 23, 16, 0⟩
/-- `SLK_MEAS.DCI` -/
def SLK_MEAS_DCI (n : Nat) : Field := ⟨0x40050000 + n * 0x100 + 0x30, 15, 8, 0⟩
/-- `SLK_MEAS.DCQ` -/
def SLK_MEAS_DCQ (n : Nat) : Field := ⟨0x40050000 + n * 0x100 + 0x30, 7, 0, 0⟩

/-- The registers of SLK by offset, fields with their access codes. -/
def slkRegs (n ofs : Nat) : List (Field × Acc) :=
  match ofs with
  | 0x0 => [(SLK_CFG_EN n, .rw),
      (SLK_CFG_CODE n, .rw),
      (SLK_CFG_IQSWAP n, .rw),
      (SLK_CFG_QINV n, .rw),
      (SLK_CFG_AGCM n, .rw),
      (SLK_CFG_ANT n, .rw),
      (SLK_CFG_BANDS n, .rw)]
  | 0x4 => [(SLK_LOF_LOF n, .rw)]
  | 0x8 => [(SLK_STAT_UP n, .ro),
      (SLK_STAT_TRAIN n, .ro),
      (SLK_STAT_ASLEEP n, .ro),
      (SLK_STAT_MAPERR n, .ro),
      (SLK_STAT_PULSE n, .ro),
      (SLK_STAT_GDEV n, .ro),
      (SLK_STAT_FAULTS n, .ro)]
  | 0xC => [(SLK_FAULT_PULSE n, .w1c),
      (SLK_FAULT_GDEV n, .w1c),
      (SLK_FAULT_FAULTS n, .w1c)]
  | 0x10 => [(SLK_SUBCNT_COUNT n, .ro)]
  | 0x14 => [(SLK_CTRLERR_COUNT n, .ro)]
  | 0x18 => [(SLK_FMT_SH_FRAC n, .ro),
      (SLK_FMT_SH_SECH n, .ro)]
  | 0x1C => [(SLK_FMT_SL_SECL n, .ro)]
  | 0x20 => [(SLK_FMT_NS_NS n, .ro)]
  | 0x24 => [(SLK_AGC_TGT n, .rw),
      (SLK_AGC_GAIN n, .ro),
      (SLK_AGC_GMIN n, .rw),
      (SLK_AGC_GMAX n, .rw)]
  | 0x28 => [(SLK_GBASE_VALID n, .ro),
      (SLK_GBASE_BASE n, .rw)]
  | 0x2C => [(SLK_IFD_DBPS n, .rw),
      (SLK_IFD_GDEV n, .rw),
      (SLK_IFD_PULSE n, .rw)]
  | 0x30 => [(SLK_MEAS_UPFR n, .ro),
      (SLK_MEAS_FSFR n, .ro),
      (SLK_MEAS_DCI n, .ro),
      (SLK_MEAS_DCQ n, .ro)]
  | _ => []

/-! ### FEC -/

/-- `FEC_CFG.EN` -/
def FEC_CFG_EN (b : Nat) : Field := ⟨0x40060000 + b * 0x100 + 0x0, 31, 31, 0⟩
/-- `FEC_CFG.MODE` -/
def FEC_CFG_MODE (b : Nat) : Field := ⟨0x40060000 + b * 0x100 + 0x0, 30, 29, 0⟩
/-- `FEC_CFG.FLEN` -/
def FEC_CFG_FLEN (b : Nat) : Field := ⟨0x40060000 + b * 0x100 + 0x0, 28, 27, 2⟩
/-- `FEC_CFG.DIV` -/
def FEC_CFG_DIV (b : Nat) : Field := ⟨0x40060000 + b * 0x100 + 0x0, 23, 16, 15⟩
/-- `FEC_TBASE.ADDR` -/
def FEC_TBASE_ADDR (b : Nat) : Field := ⟨0x40060000 + b * 0x100 + 0x4, 31, 2, 536870912⟩
/-- `FEC_SEQ.GO` -/
def FEC_SEQ_GO (b : Nat) : Field := ⟨0x40060000 + b * 0x100 + 0x8, 31, 31, 0⟩
/-- `FEC_SEQ.BUSY` -/
def FEC_SEQ_BUSY (b : Nat) : Field := ⟨0x40060000 + b * 0x100 + 0x8, 30, 30, 0⟩
/-- `FEC_SEQ.START` -/
def FEC_SEQ_START (b : Nat) : Field := ⟨0x40060000 + b * 0x100 + 0x8, 25, 16, 0⟩
/-- `FEC_SEQ.PC` -/
def FEC_SEQ_PC (b : Nat) : Field := ⟨0x40060000 + b * 0x100 + 0x8, 9, 0, 0⟩
/-- `FEC_STAT.CHKFAIL` -/
def FEC_STAT_CHKFAIL (b : Nat) : Field := ⟨0x40060000 + b * 0x100 + 0xC, 31, 31, 0⟩
/-- `FEC_STAT.OPERR` -/
def FEC_STAT_OPERR (b : Nat) : Field := ⟨0x40060000 + b * 0x100 + 0xC, 30, 30, 0⟩
/-- `FEC_STAT.DEFER` -/
def FEC_STAT_DEFER (b : Nat) : Field := ⟨0x40060000 + b * 0x100 + 0xC, 29, 29, 0⟩
/-- `FEC_STAT.FAILPC` -/
def FEC_STAT_FAILPC (b : Nat) : Field := ⟨0x40060000 + b * 0x100 + 0xC, 9, 0, 0⟩
/-- `FEC_RDATA.DATA` -/
def FEC_RDATA_DATA (b : Nat) : Field := ⟨0x40060000 + b * 0x100 + 0x10, 23, 0, 0⟩
/-- `FEC_CAL.EN` -/
def FEC_CAL_EN (b : Nat) : Field := ⟨0x40060000 + b * 0x100 + 0x14, 31, 31, 0⟩
/-- `FEC_CAL.START` -/
def FEC_CAL_START (b : Nat) : Field := ⟨0x40060000 + b * 0x100 + 0x14, 25, 16, 0⟩
/-- `FEC_CAL.PERIOD` -/
def FEC_CAL_PERIOD (b : Nat) : Field := ⟨0x40060000 + b * 0x100 + 0x14, 15, 0, 60⟩
/-- `FEC_PWR.EN` -/
def FEC_PWR_EN (b : Nat) : Field := ⟨0x40060000 + b * 0x100 + 0x18, 31, 31, 0⟩
/-- `FEC_PWR.WAKE` -/
def FEC_PWR_WAKE (b : Nat) : Field := ⟨0x40060000 + b * 0x100 + 0x18, 29, 20, 0⟩
/-- `FEC_PWR.SLEEP` -/
def FEC_PWR_SLEEP (b : Nat) : Field := ⟨0x40060000 + b * 0x100 + 0x18, 19, 10, 0⟩
/-- `FEC_PWR.LEAD` -/
def FEC_PWR_LEAD (b : Nat) : Field := ⟨0x40060000 + b * 0x100 + 0x18, 9, 0, 20⟩
/-- `FEC_AGCT0.EN` -/
def FEC_AGCT0_EN (b : Nat) : Field := ⟨0x40060000 + b * 0x100 + 0x1C, 31, 31, 0⟩
/-- `FEC_AGCT0.CS` -/
def FEC_AGCT0_CS (b : Nat) : Field := ⟨0x40060000 + b * 0x100 + 0x1C, 30, 30, 0⟩
/-- `FEC_AGCT0.GINV` -/
def FEC_AGCT0_GINV (b : Nat) : Field := ⟨0x40060000 + b * 0x100 + 0x1C, 29, 29, 0⟩
/-- `FEC_AGCT0.GPOS` -/
def FEC_AGCT0_GPOS (b : Nat) : Field := ⟨0x40060000 + b * 0x100 + 0x1C, 28, 24, 0⟩
/-- `FEC_AGCT0.TEMPLATE` -/
def FEC_AGCT0_TEMPLATE (b : Nat) : Field := ⟨0x40060000 + b * 0x100 + 0x1C, 23, 0, 0⟩
/-- `FEC_AGCT1.EN` -/
def FEC_AGCT1_EN (b : Nat) : Field := ⟨0x40060000 + b * 0x100 + 0x20, 31, 31, 0⟩
/-- `FEC_AGCT1.CS` -/
def FEC_AGCT1_CS (b : Nat) : Field := ⟨0x40060000 + b * 0x100 + 0x20, 30, 30, 0⟩
/-- `FEC_AGCT1.GINV` -/
def FEC_AGCT1_GINV (b : Nat) : Field := ⟨0x40060000 + b * 0x100 + 0x20, 29, 29, 0⟩
/-- `FEC_AGCT1.GPOS` -/
def FEC_AGCT1_GPOS (b : Nat) : Field := ⟨0x40060000 + b * 0x100 + 0x20, 28, 24, 0⟩
/-- `FEC_AGCT1.TEMPLATE` -/
def FEC_AGCT1_TEMPLATE (b : Nat) : Field := ⟨0x40060000 + b * 0x100 + 0x20, 23, 0, 0⟩

/-- The registers of FEC by offset, fields with their access codes. -/
def fecRegs (b ofs : Nat) : List (Field × Acc) :=
  match ofs with
  | 0x0 => [(FEC_CFG_EN b, .rw),
      (FEC_CFG_MODE b, .rw),
      (FEC_CFG_FLEN b, .rw),
      (FEC_CFG_DIV b, .rw)]
  | 0x4 => [(FEC_TBASE_ADDR b, .rw)]
  | 0x8 => [(FEC_SEQ_GO b, .wo),
      (FEC_SEQ_BUSY b, .ro),
      (FEC_SEQ_START b, .rw),
      (FEC_SEQ_PC b, .ro)]
  | 0xC => [(FEC_STAT_CHKFAIL b, .w1c),
      (FEC_STAT_OPERR b, .w1c),
      (FEC_STAT_DEFER b, .w1c),
      (FEC_STAT_FAILPC b, .ro)]
  | 0x10 => [(FEC_RDATA_DATA b, .ro)]
  | 0x14 => [(FEC_CAL_EN b, .rw),
      (FEC_CAL_START b, .rw),
      (FEC_CAL_PERIOD b, .rw)]
  | 0x18 => [(FEC_PWR_EN b, .rw),
      (FEC_PWR_WAKE b, .rw),
      (FEC_PWR_SLEEP b, .rw),
      (FEC_PWR_LEAD b, .rw)]
  | 0x1C => [(FEC_AGCT0_EN b, .rw),
      (FEC_AGCT0_CS b, .rw),
      (FEC_AGCT0_GINV b, .rw),
      (FEC_AGCT0_GPOS b, .rw),
      (FEC_AGCT0_TEMPLATE b, .rw)]
  | 0x20 => [(FEC_AGCT1_EN b, .rw),
      (FEC_AGCT1_CS b, .rw),
      (FEC_AGCT1_GINV b, .rw),
      (FEC_AGCT1_GPOS b, .rw),
      (FEC_AGCT1_TEMPLATE b, .rw)]
  | _ => []

/-! ### SNP -/

/-- `SNP_CRED.FREE` -/
def SNP_CRED_FREE : Field := ⟨0x40070000 + 0x0, 6, 0, 64⟩
/-- `SNP_STAT.RPLRUN` -/
def SNP_STAT_RPLRUN : Field := ⟨0x40070000 + 0x4, 31, 31, 0⟩
/-- `SNP_STAT.PACED` -/
def SNP_STAT_PACED : Field := ⟨0x40070000 + 0x4, 30, 30, 0⟩
/-- `SNP_STAT.CAP` -/
def SNP_STAT_CAP : Field := ⟨0x40070000 + 0x4, 23, 16, 0⟩
/-- `SNP_STAT.RPLERR` -/
def SNP_STAT_RPLERR : Field := ⟨0x40070000 + 0x4, 4, 4, 0⟩
/-- `SNP_STAT.BUSYERR` -/
def SNP_STAT_BUSYERR : Field := ⟨0x40070000 + 0x4, 3, 3, 0⟩
/-- `SNP_STAT.NOCRED` -/
def SNP_STAT_NOCRED : Field := ⟨0x40070000 + 0x4, 2, 2, 0⟩
/-- `SNP_STAT.CFGERR` -/
def SNP_STAT_CFGERR : Field := ⟨0x40070000 + 0x4, 1, 1, 0⟩
/-- `SNP_IRQ.ERR` -/
def SNP_IRQ_ERR : Field := ⟨0x40070000 + 0x8, 3, 3, 0⟩
/-- `SNP_IRQ.RPLDONE` -/
def SNP_IRQ_RPLDONE : Field := ⟨0x40070000 + 0x8, 2, 2, 0⟩
/-- `SNP_IRQ.PASS` -/
def SNP_IRQ_PASS : Field := ⟨0x40070000 + 0x8, 1, 1, 0⟩
/-- `SNP_IRQ.CAPDONE` -/
def SNP_IRQ_CAPDONE : Field := ⟨0x40070000 + 0x8, 0, 0, 0⟩
/-- `SNP_IRQEN.ERR` -/
def SNP_IRQEN_ERR : Field := ⟨0x40070000 + 0xC, 3, 3, 0⟩
/-- `SNP_IRQEN.RPLDONE` -/
def SNP_IRQEN_RPLDONE : Field := ⟨0x40070000 + 0xC, 2, 2, 0⟩
/-- `SNP_IRQEN.PASS` -/
def SNP_IRQEN_PASS : Field := ⟨0x40070000 + 0xC, 1, 1, 0⟩
/-- `SNP_IRQEN.CAPDONE` -/
def SNP_IRQEN_CAPDONE : Field := ⟨0x40070000 + 0xC, 0, 0, 0⟩
/-- `SNP_RPL.GO` -/
def SNP_RPL_GO : Field := ⟨0x40070000 + 0x10, 31, 31, 0⟩
/-- `SNP_RPL.STOP` -/
def SNP_RPL_STOP : Field := ⟨0x40070000 + 0x10, 30, 30, 0⟩
/-- `SNP_RPL.ORG` -/
def SNP_RPL_ORG : Field := ⟨0x40070000 + 0x10, 29, 29, 1⟩
/-- `SNP_RPL.HANDLE` -/
def SNP_RPL_HANDLE : Field := ⟨0x40070000 + 0x10, 18, 16, 0⟩
/-- `SNP_RPL.PASSES` -/
def SNP_RPL_PASSES : Field := ⟨0x40070000 + 0x10, 15, 0, 1⟩
/-- `SNP_RPL_START.START` -/
def SNP_RPL_START_START : Field := ⟨0x40070000 + 0x14, 25, 0, 0⟩
/-- `SNP_RPL_COUNT.COUNT` -/
def SNP_RPL_COUNT_COUNT : Field := ⟨0x40070000 + 0x18, 26, 0, 0⟩
/-- `SNP_RPL_PASS.PASS` -/
def SNP_RPL_PASS_PASS : Field := ⟨0x40070000 + 0x1C, 31, 0, 0⟩

/-- The registers of SNP by offset, fields with their access codes. -/
def snpRegs (ofs : Nat) : List (Field × Acc) :=
  match ofs with
  | 0x0 => [(SNP_CRED_FREE, .ro)]
  | 0x4 => [(SNP_STAT_RPLRUN, .ro),
      (SNP_STAT_PACED, .ro),
      (SNP_STAT_CAP, .ro),
      (SNP_STAT_RPLERR, .w1c),
      (SNP_STAT_BUSYERR, .w1c),
      (SNP_STAT_NOCRED, .w1c),
      (SNP_STAT_CFGERR, .w1c)]
  | 0x8 => [(SNP_IRQ_ERR, .w1c),
      (SNP_IRQ_RPLDONE, .w1c),
      (SNP_IRQ_PASS, .w1c),
      (SNP_IRQ_CAPDONE, .w1c)]
  | 0xC => [(SNP_IRQEN_ERR, .rw),
      (SNP_IRQEN_RPLDONE, .rw),
      (SNP_IRQEN_PASS, .rw),
      (SNP_IRQEN_CAPDONE, .rw)]
  | 0x10 => [(SNP_RPL_GO, .wo),
      (SNP_RPL_STOP, .wo),
      (SNP_RPL_ORG, .rw),
      (SNP_RPL_HANDLE, .rw),
      (SNP_RPL_PASSES, .rw)]
  | 0x14 => [(SNP_RPL_START_START, .rw)]
  | 0x18 => [(SNP_RPL_COUNT_COUNT, .rw)]
  | 0x1C => [(SNP_RPL_PASS_PASS, .ro)]
  | _ => []

/-! ### SNPH -/

/-- `SNP_HCFG.ARM` -/
def SNP_HCFG_ARM (h : Nat) : Field := ⟨0x40070000 + h * 0x40 + 0x100, 31, 31, 0⟩
/-- `SNP_HCFG.FREE` -/
def SNP_HCFG_FREE (h : Nat) : Field := ⟨0x40070000 + h * 0x40 + 0x100, 30, 30, 0⟩
/-- `SNP_HCFG.TRIG` -/
def SNP_HCFG_TRIG (h : Nat) : Field := ⟨0x40070000 + h * 0x40 + 0x100, 29, 29, 0⟩
/-- `SNP_HCFG.RATE` -/
def SNP_HCFG_RATE (h : Nat) : Field := ⟨0x40070000 + h * 0x40 + 0x100, 26, 24, 0⟩
/-- `SNP_HCFG.LINK` -/
def SNP_HCFG_LINK (h : Nat) : Field := ⟨0x40070000 + h * 0x40 + 0x100, 22, 20, 0⟩
/-- `SNP_HCFG.EPOCH` -/
def SNP_HCFG_EPOCH (h : Nat) : Field := ⟨0x40070000 + h * 0x40 + 0x100, 15, 0, 0⟩
/-- `SNP_HLEN.LEN` -/
def SNP_HLEN_LEN (h : Nat) : Field := ⟨0x40070000 + h * 0x40 + 0x104, 26, 0, 0⟩
/-- `SNP_HMIX.MIX` -/
def SNP_HMIX_MIX (h : Nat) : Field := ⟨0x40070000 + h * 0x40 + 0x108, 31, 0, 0⟩
/-- `SNP_HSTAT.STATE` -/
def SNP_HSTAT_STATE (h : Nat) : Field := ⟨0x40070000 + h * 0x40 + 0x10C, 31, 29, 0⟩
/-- `SNP_HSTAT.LINKF` -/
def SNP_HSTAT_LINKF (h : Nat) : Field := ⟨0x40070000 + h * 0x40 + 0x10C, 28, 28, 0⟩
/-- `SNP_HSTAT.FECW` -/
def SNP_HSTAT_FECW (h : Nat) : Field := ⟨0x40070000 + h * 0x40 + 0x10C, 27, 27, 0⟩
/-- `SNP_HSTAT.OVF` -/
def SNP_HSTAT_OVF (h : Nat) : Field := ⟨0x40070000 + h * 0x40 + 0x10C, 26, 26, 0⟩
/-- `SNP_HSTAT.LATE` -/
def SNP_HSTAT_LATE (h : Nat) : Field := ⟨0x40070000 + h * 0x40 + 0x10C, 25, 25, 0⟩
/-- `SNP_HSTAT.REPLAY` -/
def SNP_HSTAT_REPLAY (h : Nat) : Field := ⟨0x40070000 + h * 0x40 + 0x10C, 24, 24, 0⟩
/-- `SNP_HSTAT.NCRED` -/
def SNP_HSTAT_NCRED (h : Nat) : Field := ⟨0x40070000 + h * 0x40 + 0x10C, 6, 0, 0⟩
/-- `SNP_HMASK_L.MAP` -/
def SNP_HMASK_L_MAP (h : Nat) : Field := ⟨0x40070000 + h * 0x40 + 0x110, 31, 0, 0⟩
/-- `SNP_HMASK_H.MAP` -/
def SNP_HMASK_H_MAP (h : Nat) : Field := ⟨0x40070000 + h * 0x40 + 0x114, 31, 0, 0⟩
/-- `SNP_HTIME_SH.FRAC` -/
def SNP_HTIME_SH_FRAC (h : Nat) : Field := ⟨0x40070000 + h * 0x40 + 0x118, 31, 16, 0⟩
/-- `SNP_HTIME_SH.SECH` -/
def SNP_HTIME_SH_SECH (h : Nat) : Field := ⟨0x40070000 + h * 0x40 + 0x118, 15, 0, 0⟩
/-- `SNP_HTIME_SL.SECL` -/
def SNP_HTIME_SL_SECL (h : Nat) : Field := ⟨0x40070000 + h * 0x40 + 0x11C, 31, 0, 0⟩
/-- `SNP_HTIME_NS.NS` -/
def SNP_HTIME_NS_NS (h : Nat) : Field := ⟨0x40070000 + h * 0x40 + 0x120, 31, 0, 0⟩
/-- `SNP_HTHR.TI` -/
def SNP_HTHR_TI (h : Nat) : Field := ⟨0x40070000 + h * 0x40 + 0x124, 31, 16, 0⟩
/-- `SNP_HTHR.TQ` -/
def SNP_HTHR_TQ (h : Nat) : Field := ⟨0x40070000 + h * 0x40 + 0x124, 15, 0, 0⟩

/-- The registers of SNPH by offset, fields with their access codes. -/
def snpHandleRegs (h ofs : Nat) : List (Field × Acc) :=
  match ofs with
  | 0x100 => [(SNP_HCFG_ARM h, .wo),
      (SNP_HCFG_FREE h, .wo),
      (SNP_HCFG_TRIG h, .rw),
      (SNP_HCFG_RATE h, .rw),
      (SNP_HCFG_LINK h, .rw),
      (SNP_HCFG_EPOCH h, .rw)]
  | 0x104 => [(SNP_HLEN_LEN h, .rw)]
  | 0x108 => [(SNP_HMIX_MIX h, .rw)]
  | 0x10C => [(SNP_HSTAT_STATE h, .ro),
      (SNP_HSTAT_LINKF h, .ro),
      (SNP_HSTAT_FECW h, .ro),
      (SNP_HSTAT_OVF h, .ro),
      (SNP_HSTAT_LATE h, .ro),
      (SNP_HSTAT_REPLAY h, .ro),
      (SNP_HSTAT_NCRED h, .ro)]
  | 0x110 => [(SNP_HMASK_L_MAP h, .ro)]
  | 0x114 => [(SNP_HMASK_H_MAP h, .ro)]
  | 0x118 => [(SNP_HTIME_SH_FRAC h, .ro),
      (SNP_HTIME_SH_SECH h, .ro)]
  | 0x11C => [(SNP_HTIME_SL_SECL h, .ro)]
  | 0x120 => [(SNP_HTIME_NS_NS h, .ro)]
  | 0x124 => [(SNP_HTHR_TI h, .ro),
      (SNP_HTHR_TQ h, .ro)]
  | _ => []

/-! ### SNPC -/

/-- `SNP_MAPCFG.ADDR` -/
def SNP_MAPCFG_ADDR (c : Nat) : Field := ⟨0x40070000 + c * 0x20 + 0x400, 31, 16, 0⟩
/-- `SNP_MAPCFG.AUTO` -/
def SNP_MAPCFG_AUTO (c : Nat) : Field := ⟨0x40070000 + c * 0x20 + 0x400, 5, 5, 0⟩
/-- `SNP_MAPCFG.DEPTH` -/
def SNP_MAPCFG_DEPTH (c : Nat) : Field := ⟨0x40070000 + c * 0x20 + 0x400, 4, 0, 0⟩
/-- `SNP_MAPREF.THR` -/
def SNP_MAPREF_THR (c : Nat) : Field := ⟨0x40070000 + c * 0x20 + 0x404, 31, 24, 84⟩
/-- `SNP_MAPREF.REF` -/
def SNP_MAPREF_REF (c : Nat) : Field := ⟨0x40070000 + c * 0x20 + 0x404, 12, 0, 0⟩
/-- `SNP_KSTEP.STEP` -/
def SNP_KSTEP_STEP (c : Nat) : Field := ⟨0x40070000 + c * 0x20 + 0x408, 31, 0, 0⟩
/-- `SNP_CSTEP.STEP` -/
def SNP_CSTEP_STEP (c : Nat) : Field := ⟨0x40070000 + c * 0x20 + 0x40C, 31, 0, 0⟩
/-- `SNP_PEAK.CODE` -/
def SNP_PEAK_CODE (c : Nat) : Field := ⟨0x40070000 + c * 0x20 + 0x410, 31, 24, 0⟩
/-- `SNP_PEAK.COUNT` -/
def SNP_PEAK_COUNT (c : Nat) : Field := ⟨0x40070000 + c * 0x20 + 0x410, 23, 12, 0⟩
/-- `SNP_PEAK.CELL` -/
def SNP_PEAK_CELL (c : Nat) : Field := ⟨0x40070000 + c * 0x20 + 0x410, 10, 0, 0⟩
/-- `SNP_MSTAT.MAPERR` -/
def SNP_MSTAT_MAPERR (c : Nat) : Field := ⟨0x40070000 + c * 0x20 + 0x414, 31, 31, 0⟩
/-- `SNP_MSTAT.NOISE` -/
def SNP_MSTAT_NOISE (c : Nat) : Field := ⟨0x40070000 + c * 0x20 + 0x414, 28, 16, 0⟩
/-- `SNP_MSTAT.ROW` -/
def SNP_MSTAT_ROW (c : Nat) : Field := ⟨0x40070000 + c * 0x20 + 0x414, 3, 0, 0⟩

/-- The registers of SNPC by offset, fields with their access codes. -/
def snpClusterRegs (c ofs : Nat) : List (Field × Acc) :=
  match ofs with
  | 0x400 => [(SNP_MAPCFG_ADDR c, .rw),
      (SNP_MAPCFG_AUTO c, .rw),
      (SNP_MAPCFG_DEPTH c, .rw)]
  | 0x404 => [(SNP_MAPREF_THR c, .rw),
      (SNP_MAPREF_REF c, .rw)]
  | 0x408 => [(SNP_KSTEP_STEP c, .rw)]
  | 0x40C => [(SNP_CSTEP_STEP c, .rw)]
  | 0x410 => [(SNP_PEAK_CODE c, .ro),
      (SNP_PEAK_COUNT c, .ro),
      (SNP_PEAK_CELL c, .ro)]
  | 0x414 => [(SNP_MSTAT_MAPERR c, .ro),
      (SNP_MSTAT_NOISE c, .ro),
      (SNP_MSTAT_ROW c, .ro)]
  | _ => []

/-! ### ITG -/

/-- `ITG_STATE.STATE` -/
def ITG_STATE_STATE : Field := ⟨0x40080000 + 0x0, 30, 28, 0⟩
/-- `ITG_STATE.PREV` -/
def ITG_STATE_PREV : Field := ⟨0x40080000 + 0x0, 26, 24, 0⟩
/-- `ITG_STATE.CHG` -/
def ITG_STATE_CHG : Field := ⟨0x40080000 + 0x0, 15, 0, 0⟩
/-- `ITG_VERD.XCHK` -/
def ITG_VERD_XCHK : Field := ⟨0x40080000 + 0x4, 19, 18, 0⟩
/-- `ITG_VERD.NAVD` -/
def ITG_VERD_NAVD : Field := ⟨0x40080000 + 0x4, 17, 16, 0⟩
/-- `ITG_VERD.IFER` -/
def ITG_VERD_IFER : Field := ⟨0x40080000 + 0x4, 15, 14, 0⟩
/-- `ITG_VERD.LEVEL` -/
def ITG_VERD_LEVEL : Field := ⟨0x40080000 + 0x4, 13, 12, 0⟩
/-- `ITG_VERD.POS` -/
def ITG_VERD_POS : Field := ⟨0x40080000 + 0x4, 11, 10, 0⟩
/-- `ITG_VERD.RELOC` -/
def ITG_VERD_RELOC : Field := ⟨0x40080000 + 0x4, 9, 8, 0⟩
/-- `ITG_VERD.OSC` -/
def ITG_VERD_OSC : Field := ⟨0x40080000 + 0x4, 7, 6, 0⟩
/-- `ITG_VERD.OSNMA` -/
def ITG_VERD_OSNMA : Field := ⟨0x40080000 + 0x4, 5, 4, 0⟩
/-- `ITG_VERD.RESID` -/
def ITG_VERD_RESID : Field := ⟨0x40080000 + 0x4, 3, 2, 0⟩
/-- `ITG_VERD.WOAD` -/
def ITG_VERD_WOAD : Field := ⟨0x40080000 + 0x4, 1, 0, 0⟩
/-- `ITG_LATCH.STEPERR` -/
def ITG_LATCH_STEPERR : Field := ⟨0x40080000 + 0x8, 2, 2, 0⟩
/-- `ITG_LATCH.WOAD` -/
def ITG_LATCH_WOAD : Field := ⟨0x40080000 + 0x8, 1, 1, 0⟩
/-- `ITG_LATCH.RELOC` -/
def ITG_LATCH_RELOC : Field := ⟨0x40080000 + 0x8, 0, 0, 0⟩
/-- `ITG_CFG.OSREQ` -/
def ITG_CFG_OSREQ : Field := ⟨0x40080000 + 0xC, 31, 31, 0⟩
/-- `ITG_CFG.WOADREQ` -/
def ITG_CFG_WOADREQ : Field := ⟨0x40080000 + 0xC, 30, 30, 1⟩
/-- `ITG_CFG.FAILCLOSE` -/
def ITG_CFG_FAILCLOSE : Field := ⟨0x40080000 + 0xC, 29, 29, 1⟩
/-- `ITG_CFG.WSURV` -/
def ITG_CFG_WSURV : Field := ⟨0x40080000 + 0xC, 28, 28, 1⟩
/-- `ITG_CFG.WGRP` -/
def ITG_CFG_WGRP : Field := ⟨0x40080000 + 0xC, 7, 0, 6⟩
/-- `ITG_TRBND.NS` -/
def ITG_TRBND_NS : Field := ⟨0x40080000 + 0x10, 31, 0, 100⟩
/-- `ITG_HBND.NS` -/
def ITG_HBND_NS : Field := ⟨0x40080000 + 0x14, 31, 0, 1000⟩
/-- `ITG_DGBND.NS` -/
def ITG_DGBND_NS : Field := ⟨0x40080000 + 0x18, 31, 0, 10000⟩
/-- `ITG_RECOV.RECOVN` -/
def ITG_RECOV_RECOVN : Field := ⟨0x40080000 + 0x1C, 31, 16, 60⟩
/-- `ITG_RECOV.CLEANN` -/
def ITG_RECOV_CLEANN : Field := ⟨0x40080000 + 0x1C, 15, 0, 10⟩
/-- `ITG_HOLD.HOLDMAX` -/
def ITG_HOLD_HOLDMAX : Field := ⟨0x40080000 + 0x20, 31, 16, 24⟩
/-- `ITG_HOLD.HOLDIN` -/
def ITG_HOLD_HOLDIN : Field := ⟨0x40080000 + 0x20, 15, 0, 5⟩
/-- `ITG_BURST.CONT` -/
def ITG_BURST_CONT : Field := ⟨0x40080000 + 0x24, 31, 31, 0⟩
/-- `ITG_BURST.IMIN` -/
def ITG_BURST_IMIN : Field := ⟨0x40080000 + 0x24, 27, 16, 10⟩
/-- `ITG_BURST.IMAX` -/
def ITG_BURST_IMAX : Field := ⟨0x40080000 + 0x24, 11, 0, 3600⟩
/-- `ITG_BURST2.TGT` -/
def ITG_BURST2_TGT : Field := ⟨0x40080000 + 0x28, 31, 16, 50⟩
/-- `ITG_BURST2.BLEN` -/
def ITG_BURST2_BLEN : Field := ⟨0x40080000 + 0x28, 15, 8, 2⟩
/-- `ITG_BURST2.BMAX` -/
def ITG_BURST2_BMAX : Field := ⟨0x40080000 + 0x28, 7, 0, 30⟩
/-- `ITG_INTV.MISSED` -/
def ITG_INTV_MISSED : Field := ⟨0x40080000 + 0x2C, 31, 16, 0⟩
/-- `ITG_INTV.INTV` -/
def ITG_INTV_INTV : Field := ⟨0x40080000 + 0x2C, 11, 0, 0⟩
/-- `ITG_XCHK.XBND` -/
def ITG_XCHK_XBND : Field := ⟨0x40080000 + 0x30, 15, 0, 200⟩
/-- `ITG_XDIF.NS` -/
def ITG_XDIF_NS : Field := ⟨0x40080000 + 0x34, 31, 0, 0⟩
/-- `ITG_IRQ.LATCH` -/
def ITG_IRQ_LATCH : Field := ⟨0x40080000 + 0x38, 1, 1, 0⟩
/-- `ITG_IRQ.CHG` -/
def ITG_IRQ_CHG : Field := ⟨0x40080000 + 0x38, 0, 0, 0⟩
/-- `ITG_IRQEN.LATCH` -/
def ITG_IRQEN_LATCH : Field := ⟨0x40080000 + 0x3C, 1, 1, 0⟩
/-- `ITG_IRQEN.CHG` -/
def ITG_IRQEN_CHG : Field := ⟨0x40080000 + 0x3C, 0, 0, 0⟩

/-- The registers of ITG by offset, fields with their access codes. -/
def itgRegs (ofs : Nat) : List (Field × Acc) :=
  match ofs with
  | 0x0 => [(ITG_STATE_STATE, .ro),
      (ITG_STATE_PREV, .ro),
      (ITG_STATE_CHG, .ro)]
  | 0x4 => [(ITG_VERD_XCHK, .ro),
      (ITG_VERD_NAVD, .ro),
      (ITG_VERD_IFER, .ro),
      (ITG_VERD_LEVEL, .ro),
      (ITG_VERD_POS, .ro),
      (ITG_VERD_RELOC, .ro),
      (ITG_VERD_OSC, .ro),
      (ITG_VERD_OSNMA, .ro),
      (ITG_VERD_RESID, .ro),
      (ITG_VERD_WOAD, .ro)]
  | 0x8 => [(ITG_LATCH_STEPERR, .ro),
      (ITG_LATCH_WOAD, .w1cl),
      (ITG_LATCH_RELOC, .w1cl)]
  | 0xC => [(ITG_CFG_OSREQ, .rwl),
      (ITG_CFG_WOADREQ, .rwl),
      (ITG_CFG_FAILCLOSE, .rwl),
      (ITG_CFG_WSURV, .rwl),
      (ITG_CFG_WGRP, .rwl)]
  | 0x10 => [(ITG_TRBND_NS, .rwl)]
  | 0x14 => [(ITG_HBND_NS, .rwl)]
  | 0x18 => [(ITG_DGBND_NS, .rwl)]
  | 0x1C => [(ITG_RECOV_RECOVN, .rwl),
      (ITG_RECOV_CLEANN, .rwl)]
  | 0x20 => [(ITG_HOLD_HOLDMAX, .rwl),
      (ITG_HOLD_HOLDIN, .rwl)]
  | 0x24 => [(ITG_BURST_CONT, .rwl),
      (ITG_BURST_IMIN, .rwl),
      (ITG_BURST_IMAX, .rwl)]
  | 0x28 => [(ITG_BURST2_TGT, .rwl),
      (ITG_BURST2_BLEN, .rwl),
      (ITG_BURST2_BMAX, .rwl)]
  | 0x2C => [(ITG_INTV_MISSED, .ro),
      (ITG_INTV_INTV, .ro)]
  | 0x30 => [(ITG_XCHK_XBND, .rwl)]
  | 0x34 => [(ITG_XDIF_NS, .ro)]
  | 0x38 => [(ITG_IRQ_LATCH, .w1c),
      (ITG_IRQ_CHG, .w1c)]
  | 0x3C => [(ITG_IRQEN_LATCH, .rw),
      (ITG_IRQEN_CHG, .rw)]
  | _ => []

/-! ### ITGB -/

/-- `ITG_BL_X.MM` -/
def ITG_BL_X_MM (n : Nat) : Field := ⟨0x40080000 + n * 0x10 + 0x40, 31, 0, 0⟩
/-- `ITG_BL_Y.MM` -/
def ITG_BL_Y_MM (n : Nat) : Field := ⟨0x40080000 + n * 0x10 + 0x44, 31, 0, 0⟩
/-- `ITG_BL_Z.MM` -/
def ITG_BL_Z_MM (n : Nat) : Field := ⟨0x40080000 + n * 0x10 + 0x48, 31, 0, 0⟩
/-- `ITG_BL_S.CFG` -/
def ITG_BL_S_CFG (n : Nat) : Field := ⟨0x40080000 + n * 0x10 + 0x4C, 31, 31, 0⟩
/-- `ITG_BL_S.SURV` -/
def ITG_BL_S_SURV (n : Nat) : Field := ⟨0x40080000 + n * 0x10 + 0x4C, 30, 30, 0⟩
/-- `ITG_BL_S.SHORT` -/
def ITG_BL_S_SHORT (n : Nat) : Field := ⟨0x40080000 + n * 0x10 + 0x4C, 29, 29, 0⟩
/-- `ITG_BL_S.BUSY` -/
def ITG_BL_S_BUSY (n : Nat) : Field := ⟨0x40080000 + n * 0x10 + 0x4C, 28, 28, 0⟩

/-- The registers of ITGB by offset, fields with their access codes. -/
def itgBaseRegs (n ofs : Nat) : List (Field × Acc) :=
  match ofs with
  | 0x40 => [(ITG_BL_X_MM n, .rwl)]
  | 0x44 => [(ITG_BL_Y_MM n, .rwl)]
  | 0x48 => [(ITG_BL_Z_MM n, .rwl)]
  | 0x4C => [(ITG_BL_S_CFG n, .rwl),
      (ITG_BL_S_SURV n, .ro),
      (ITG_BL_S_SHORT n, .ro),
      (ITG_BL_S_BUSY n, .ro)]
  | _ => []

/-! ### EPT -/

/-- `EPT_CFG.EN` -/
def EPT_CFG_EN (p : Nat) : Field := ⟨0x40100000 + p * 0x1000 + 0x0, 31, 31, 0⟩
/-- `EPT_CFG.MODE` -/
def EPT_CFG_MODE (p : Nat) : Field := ⟨0x40100000 + p * 0x1000 + 0x0, 30, 28, 0⟩
/-- `EPT_CFG.AN` -/
def EPT_CFG_AN (p : Nat) : Field := ⟨0x40100000 + p * 0x1000 + 0x0, 27, 27, 1⟩
/-- `EPT_CFG.PTPEN` -/
def EPT_CFG_PTPEN (p : Nat) : Field := ⟨0x40100000 + p * 0x1000 + 0x0, 26, 26, 0⟩
/-- `EPT_CFG.STSEN` -/
def EPT_CFG_STSEN (p : Nat) : Field := ⟨0x40100000 + p * 0x1000 + 0x0, 25, 25, 0⟩
/-- `EPT_CFG.TRANS` -/
def EPT_CFG_TRANS (p : Nat) : Field := ⟨0x40100000 + p * 0x1000 + 0x0, 24, 22, 7⟩
/-- `EPT_CFG.P2P` -/
def EPT_CFG_P2P (p : Nat) : Field := ⟨0x40100000 + p * 0x1000 + 0x0, 21, 21, 0⟩
/-- `EPT_STAT.LINK` -/
def EPT_STAT_LINK (p : Nat) : Field := ⟨0x40100000 + p * 0x1000 + 0x4, 31, 31, 0⟩
/-- `EPT_STAT.SPEED` -/
def EPT_STAT_SPEED (p : Nat) : Field := ⟨0x40100000 + p * 0x1000 + 0x4, 30, 28, 0⟩
/-- `EPT_STAT.TXSTOP` -/
def EPT_STAT_TXSTOP (p : Nat) : Field := ⟨0x40100000 + p * 0x1000 + 0x4, 27, 27, 0⟩
/-- `EPT_STAT.SPDERR` -/
def EPT_STAT_SPDERR (p : Nat) : Field := ⟨0x40100000 + p * 0x1000 + 0x4, 3, 3, 0⟩
/-- `EPT_STAT.CFGERR` -/
def EPT_STAT_CFGERR (p : Nat) : Field := ⟨0x40100000 + p * 0x1000 + 0x4, 2, 2, 0⟩
/-- `EPT_STAT.FCSERR` -/
def EPT_STAT_FCSERR (p : Nat) : Field := ⟨0x40100000 + p * 0x1000 + 0x4, 1, 1, 0⟩
/-- `EPT_STAT.LINKCHG` -/
def EPT_STAT_LINKCHG (p : Nat) : Field := ⟨0x40100000 + p * 0x1000 + 0x4, 0, 0, 0⟩
/-- `EPT_MAC_H.MAC` -/
def EPT_MAC_H_MAC (p : Nat) : Field := ⟨0x40100000 + p * 0x1000 + 0x8, 15, 0, 0⟩
/-- `EPT_MAC_L.MAC` -/
def EPT_MAC_L_MAC (p : Nat) : Field := ⟨0x40100000 + p * 0x1000 + 0xC, 31, 0, 0⟩
/-- `EPT_IP4.ADDR` -/
def EPT_IP4_ADDR (p : Nat) : Field := ⟨0x40100000 + p * 0x1000 + 0x10, 31, 0, 0⟩
/-- `EPT_IP6_0.ADDR` -/
def EPT_IP6_0_ADDR (p : Nat) : Field := ⟨0x40100000 + p * 0x1000 + 0x14, 31, 0, 0⟩
/-- `EPT_IP6_1.ADDR` -/
def EPT_IP6_1_ADDR (p : Nat) : Field := ⟨0x40100000 + p * 0x1000 + 0x18, 31, 0, 0⟩
/-- `EPT_IP6_2.ADDR` -/
def EPT_IP6_2_ADDR (p : Nat) : Field := ⟨0x40100000 + p * 0x1000 + 0x1C, 31, 0, 0⟩
/-- `EPT_IP6_3.ADDR` -/
def EPT_IP6_3_ADDR (p : Nat) : Field := ⟨0x40100000 + p * 0x1000 + 0x20, 31, 0, 0⟩
/-- `EPT_LAT_RX.PS` -/
def EPT_LAT_RX_PS (p : Nat) : Field := ⟨0x40100000 + p * 0x1000 + 0x24, 31, 0, 0⟩
/-- `EPT_LAT_TX.PS` -/
def EPT_LAT_TX_PS (p : Nat) : Field := ⟨0x40100000 + p * 0x1000 + 0x28, 31, 0, 0⟩
/-- `EPT_ASYM.PS` -/
def EPT_ASYM_PS (p : Nat) : Field := ⟨0x40100000 + p * 0x1000 + 0x2C, 31, 0, 0⟩
/-- `EPT_PROLE.ROLEA` -/
def EPT_PROLE_ROLEA (p : Nat) : Field := ⟨0x40100000 + p * 0x1000 + 0x30, 31, 30, 0⟩
/-- `EPT_PROLE.ROLEB` -/
def EPT_PROLE_ROLEB (p : Nat) : Field := ⟨0x40100000 + p * 0x1000 + 0x30, 29, 28, 0⟩
/-- `EPT_PSTATE.STATEA` -/
def EPT_PSTATE_STATEA (p : Nat) : Field := ⟨0x40100000 + p * 0x1000 + 0x34, 7, 4, 1⟩
/-- `EPT_PSTATE.STATEB` -/
def EPT_PSTATE_STATEB (p : Nat) : Field := ⟨0x40100000 + p * 0x1000 + 0x34, 3, 0, 1⟩
/-- `EPT_MPD.PS` -/
def EPT_MPD_PS (p : Nat) : Field := ⟨0x40100000 + p * 0x1000 + 0x38, 31, 0, 0⟩
/-- `EPT_FWD.MASK` -/
def EPT_FWD_MASK (p : Nat) : Field := ⟨0x40100000 + p * 0x1000 + 0x3C, 31, 24, 0⟩
/-- `EPT_FWD.CRED` -/
def EPT_FWD_CRED (p : Nat) : Field := ⟨0x40100000 + p * 0x1000 + 0x3C, 7, 0, 32⟩
/-- `EPT_FWDSTAT.FREE` -/
def EPT_FWDSTAT_FREE (p : Nat) : Field := ⟨0x40100000 + p * 0x1000 + 0x40, 7, 0, 32⟩
/-- `EPT_CNT_FWDDROP.COUNT` -/
def EPT_CNT_FWDDROP_COUNT (p : Nat) : Field := ⟨0x40100000 + p * 0x1000 + 0x44, 31, 0, 0⟩
/-- `EPT_CNT_DROP.COUNT` -/
def EPT_CNT_DROP_COUNT (p : Nat) : Field := ⟨0x40100000 + p * 0x1000 + 0x48, 31, 0, 0⟩
/-- `EPT_CNT_REFUSE.COUNT` -/
def EPT_CNT_REFUSE_COUNT (p : Nat) : Field := ⟨0x40100000 + p * 0x1000 + 0x4C, 31, 0, 0⟩
/-- `EPT_CNT_GET.COUNT` -/
def EPT_CNT_GET_COUNT (p : Nat) : Field := ⟨0x40100000 + p * 0x1000 + 0x50, 31, 0, 0⟩
/-- `EPT_STS_CFG.V6` -/
def EPT_STS_CFG_V6 (p : Nat) : Field := ⟨0x40100000 + p * 0x1000 + 0x54, 31, 31, 0⟩
/-- `EPT_STS_CFG.TYPES` -/
def EPT_STS_CFG_TYPES (p : Nat) : Field := ⟨0x40100000 + p * 0x1000 + 0x54, 30, 25, 0⟩
/-- `EPT_STS_CFG.GETEN` -/
def EPT_STS_CFG_GETEN (p : Nat) : Field := ⟨0x40100000 + p * 0x1000 + 0x54, 24, 24, 1⟩
/-- `EPT_STS_CFG.UPORT` -/
def EPT_STS_CFG_UPORT (p : Nat) : Field := ⟨0x40100000 + p * 0x1000 + 0x54, 15, 0, 41710⟩
/-- `EPT_STS_DST4.ADDR` -/
def EPT_STS_DST4_ADDR (p : Nat) : Field := ⟨0x40100000 + p * 0x1000 + 0x58, 31, 0, 0⟩
/-- `EPT_STS_DST6_0.ADDR` -/
def EPT_STS_DST6_0_ADDR (p : Nat) : Field := ⟨0x40100000 + p * 0x1000 + 0x5C, 31, 0, 0⟩
/-- `EPT_STS_DST6_1.ADDR` -/
def EPT_STS_DST6_1_ADDR (p : Nat) : Field := ⟨0x40100000 + p * 0x1000 + 0x60, 31, 0, 0⟩
/-- `EPT_STS_DST6_2.ADDR` -/
def EPT_STS_DST6_2_ADDR (p : Nat) : Field := ⟨0x40100000 + p * 0x1000 + 0x64, 31, 0, 0⟩
/-- `EPT_STS_DST6_3.ADDR` -/
def EPT_STS_DST6_3_ADDR (p : Nat) : Field := ⟨0x40100000 + p * 0x1000 + 0x68, 31, 0, 0⟩
/-- `EPT_STS_INT.S` -/
def EPT_STS_INT_S (p : Nat) : Field := ⟨0x40100000 + p * 0x1000 + 0x6C, 15, 0, 10⟩
/-- `EPT_IRQ.IRQ` -/
def EPT_IRQ_IRQ (p : Nat) : Field := ⟨0x40100000 + p * 0x1000 + 0x70, 3, 0, 0⟩
/-- `EPT_IRQEN.IRQ` -/
def EPT_IRQEN_IRQ (p : Nat) : Field := ⟨0x40100000 + p * 0x1000 + 0x74, 3, 0, 0⟩

/-- The registers of EPT by offset, fields with their access codes. -/
def eptRegs (p ofs : Nat) : List (Field × Acc) :=
  match ofs with
  | 0x0 => [(EPT_CFG_EN p, .rw),
      (EPT_CFG_MODE p, .rw),
      (EPT_CFG_AN p, .rw),
      (EPT_CFG_PTPEN p, .rw),
      (EPT_CFG_STSEN p, .rw),
      (EPT_CFG_TRANS p, .rw),
      (EPT_CFG_P2P p, .rw)]
  | 0x4 => [(EPT_STAT_LINK p, .ro),
      (EPT_STAT_SPEED p, .ro),
      (EPT_STAT_TXSTOP p, .ro),
      (EPT_STAT_SPDERR p, .w1c),
      (EPT_STAT_CFGERR p, .w1c),
      (EPT_STAT_FCSERR p, .w1c),
      (EPT_STAT_LINKCHG p, .w1c)]
  | 0x8 => [(EPT_MAC_H_MAC p, .rw)]
  | 0xC => [(EPT_MAC_L_MAC p, .rw)]
  | 0x10 => [(EPT_IP4_ADDR p, .rw)]
  | 0x14 => [(EPT_IP6_0_ADDR p, .rw)]
  | 0x18 => [(EPT_IP6_1_ADDR p, .rw)]
  | 0x1C => [(EPT_IP6_2_ADDR p, .rw)]
  | 0x20 => [(EPT_IP6_3_ADDR p, .rw)]
  | 0x24 => [(EPT_LAT_RX_PS p, .rw)]
  | 0x28 => [(EPT_LAT_TX_PS p, .rw)]
  | 0x2C => [(EPT_ASYM_PS p, .rw)]
  | 0x30 => [(EPT_PROLE_ROLEA p, .rw),
      (EPT_PROLE_ROLEB p, .rw)]
  | 0x34 => [(EPT_PSTATE_STATEA p, .ro),
      (EPT_PSTATE_STATEB p, .ro)]
  | 0x38 => [(EPT_MPD_PS p, .ro)]
  | 0x3C => [(EPT_FWD_MASK p, .rw),
      (EPT_FWD_CRED p, .rw)]
  | 0x40 => [(EPT_FWDSTAT_FREE p, .ro)]
  | 0x44 => [(EPT_CNT_FWDDROP_COUNT p, .ro)]
  | 0x48 => [(EPT_CNT_DROP_COUNT p, .ro)]
  | 0x4C => [(EPT_CNT_REFUSE_COUNT p, .ro)]
  | 0x50 => [(EPT_CNT_GET_COUNT p, .ro)]
  | 0x54 => [(EPT_STS_CFG_V6 p, .rw),
      (EPT_STS_CFG_TYPES p, .rw),
      (EPT_STS_CFG_GETEN p, .rw),
      (EPT_STS_CFG_UPORT p, .rw)]
  | 0x58 => [(EPT_STS_DST4_ADDR p, .rw)]
  | 0x5C => [(EPT_STS_DST6_0_ADDR p, .rw)]
  | 0x60 => [(EPT_STS_DST6_1_ADDR p, .rw)]
  | 0x64 => [(EPT_STS_DST6_2_ADDR p, .rw)]
  | 0x68 => [(EPT_STS_DST6_3_ADDR p, .rw)]
  | 0x6C => [(EPT_STS_INT_S p, .rw)]
  | 0x70 => [(EPT_IRQ_IRQ p, .w1c)]
  | 0x74 => [(EPT_IRQEN_IRQ p, .rw)]
  | _ => []

/-! ### EPTC -/

/-- `EPT_CLK.TDROLE` -/
def EPT_CLK_TDROLE : Field := ⟨0x40100000 + 0x800, 31, 31, 0⟩
/-- `EPT_CLK.TDSLOT` -/
def EPT_CLK_TDSLOT : Field := ⟨0x40100000 + 0x800, 30, 30, 0⟩
/-- `EPT_CLK.FWDOTHER` -/
def EPT_CLK_FWDOTHER : Field := ⟨0x40100000 + 0x800, 29, 29, 0⟩
/-- `EPT_CLK.PRIO1` -/
def EPT_CLK_PRIO1 : Field := ⟨0x40100000 + 0x800, 15, 8, 128⟩
/-- `EPT_CLK.PRIO2` -/
def EPT_CLK_PRIO2 : Field := ⟨0x40100000 + 0x800, 7, 0, 128⟩
/-- `EPT_CLKID_H.ID` -/
def EPT_CLKID_H_ID : Field := ⟨0x40100000 + 0x804, 31, 0, 0⟩
/-- `EPT_CLKID_L.ID` -/
def EPT_CLKID_L_ID : Field := ⟨0x40100000 + 0x808, 31, 0, 0⟩
/-- `EPT_PSEL.MODE` -/
def EPT_PSEL_MODE : Field := ⟨0x40100000 + 0x850, 31, 30, 2⟩
/-- `EPT_PSEL.SELB` -/
def EPT_PSEL_SELB : Field := ⟨0x40100000 + 0x850, 29, 29, 0⟩
/-- `EPT_PSEL.DISAGREE` -/
def EPT_PSEL_DISAGREE : Field := ⟨0x40100000 + 0x850, 28, 28, 0⟩
/-- `EPT_PSEL.SWCNT` -/
def EPT_PSEL_SWCNT : Field := ⟨0x40100000 + 0x850, 15, 0, 0⟩
/-- `EPT_PSW_BIAS.PS` -/
def EPT_PSW_BIAS_PS : Field := ⟨0x40100000 + 0x854, 31, 0, 0⟩
/-- `EPT_AVG.AVG` -/
def EPT_AVG_AVG : Field := ⟨0x40100000 + 0x858, 7, 0, 16⟩

/-- The registers of EPTC by offset, fields with their access codes. -/
def eptClockRegs (ofs : Nat) : List (Field × Acc) :=
  match ofs with
  | 0x800 => [(EPT_CLK_TDROLE, .rwl),
      (EPT_CLK_TDSLOT, .rwl),
      (EPT_CLK_FWDOTHER, .rw),
      (EPT_CLK_PRIO1, .rw),
      (EPT_CLK_PRIO2, .rw)]
  | 0x804 => [(EPT_CLKID_H_ID, .rw)]
  | 0x808 => [(EPT_CLKID_L_ID, .rw)]
  | 0x850 => [(EPT_PSEL_MODE, .rwl),
      (EPT_PSEL_SELB, .ro),
      (EPT_PSEL_DISAGREE, .w1c),
      (EPT_PSEL_SWCNT, .ro)]
  | 0x854 => [(EPT_PSW_BIAS_PS, .ro)]
  | 0x858 => [(EPT_AVG_AVG, .rw)]
  | _ => []

/-! ### EPTD -/

/-- `EPT_DOM_CFG.TYPE` -/
def EPT_DOM_CFG_TYPE (s : Nat) : Field := ⟨0x40100000 + s * 0x20 + 0x810, 31, 30, 0⟩
/-- `EPT_DOM_CFG.TWOSTEP` -/
def EPT_DOM_CFG_TWOSTEP (s : Nat) : Field := ⟨0x40100000 + s * 0x20 + 0x810, 29, 29, 0⟩
/-- `EPT_DOM_CFG.CONLY` -/
def EPT_DOM_CFG_CONLY (s : Nat) : Field := ⟨0x40100000 + s * 0x20 + 0x810, 28, 28, 0⟩
/-- `EPT_DOM_CFG.USE` -/
def EPT_DOM_CFG_USE (s : Nat) : Field := ⟨0x40100000 + s * 0x20 + 0x810, 27, 26, 0⟩
/-- `EPT_DOM_CFG.DOMAIN` -/
def EPT_DOM_CFG_DOMAIN (s : Nat) : Field := ⟨0x40100000 + s * 0x20 + 0x810, 7, 0, 0⟩
/-- `EPT_DOM_INT.LSYNC` -/
def EPT_DOM_INT_LSYNC (s : Nat) : Field := ⟨0x40100000 + s * 0x20 + 0x814, 31, 24, 0⟩
/-- `EPT_DOM_INT.LANN` -/
def EPT_DOM_INT_LANN (s : Nat) : Field := ⟨0x40100000 + s * 0x20 + 0x814, 23, 16, 1⟩
/-- `EPT_DOM_INT.LDREQ` -/
def EPT_DOM_INT_LDREQ (s : Nat) : Field := ⟨0x40100000 + s * 0x20 + 0x814, 15, 8, 0⟩
/-- `EPT_DOM_INT.ARTO` -/
def EPT_DOM_INT_ARTO (s : Nat) : Field := ⟨0x40100000 + s * 0x20 + 0x814, 7, 0, 3⟩
/-- `EPT_DOM_OFS.PS` -/
def EPT_DOM_OFS_PS (s : Nat) : Field := ⟨0x40100000 + s * 0x20 + 0x818, 31, 0, 0⟩
/-- `EPT_DOM_SIG.PS` -/
def EPT_DOM_SIG_PS (s : Nat) : Field := ⟨0x40100000 + s * 0x20 + 0x81C, 31, 0, 0⟩
/-- `EPT_DOM_STAT.LOCKED` -/
def EPT_DOM_STAT_LOCKED (s : Nat) : Field := ⟨0x40100000 + s * 0x20 + 0x820, 31, 31, 0⟩
/-- `EPT_DOM_STAT.ANNTO` -/
def EPT_DOM_STAT_ANNTO (s : Nat) : Field := ⟨0x40100000 + s * 0x20 + 0x820, 30, 30, 0⟩
/-- `EPT_DOM_STAT.GMCLASS` -/
def EPT_DOM_STAT_GMCLASS (s : Nat) : Field := ⟨0x40100000 + s * 0x20 + 0x820, 23, 16, 248⟩
/-- `EPT_DOM_STAT.STEPS` -/
def EPT_DOM_STAT_STEPS (s : Nat) : Field := ⟨0x40100000 + s * 0x20 + 0x820, 15, 8, 0⟩
/-- `EPT_DOM_STAT.SAMPLES` -/
def EPT_DOM_STAT_SAMPLES (s : Nat) : Field := ⟨0x40100000 + s * 0x20 + 0x820, 7, 0, 0⟩
/-- `EPT_DOM_GMID_H.ID` -/
def EPT_DOM_GMID_H_ID (s : Nat) : Field := ⟨0x40100000 + s * 0x20 + 0x824, 31, 0, 0⟩
/-- `EPT_DOM_GMID_L.ID` -/
def EPT_DOM_GMID_L_ID (s : Nat) : Field := ⟨0x40100000 + s * 0x20 + 0x828, 31, 0, 0⟩

/-- The registers of EPTD by offset, fields with their access codes. -/
def eptSlotRegs (s ofs : Nat) : List (Field × Acc) :=
  match ofs with
  | 0x810 => [(EPT_DOM_CFG_TYPE s, .rwl),
      (EPT_DOM_CFG_TWOSTEP s, .rw),
      (EPT_DOM_CFG_CONLY s, .rwl),
      (EPT_DOM_CFG_USE s, .rwl),
      (EPT_DOM_CFG_DOMAIN s, .rw)]
  | 0x814 => [(EPT_DOM_INT_LSYNC s, .rw),
      (EPT_DOM_INT_LANN s, .rw),
      (EPT_DOM_INT_LDREQ s, .rw),
      (EPT_DOM_INT_ARTO s, .rw)]
  | 0x818 => [(EPT_DOM_OFS_PS s, .ro)]
  | 0x81C => [(EPT_DOM_SIG_PS s, .ro)]
  | 0x820 => [(EPT_DOM_STAT_LOCKED s, .ro),
      (EPT_DOM_STAT_ANNTO s, .ro),
      (EPT_DOM_STAT_GMCLASS s, .ro),
      (EPT_DOM_STAT_STEPS s, .ro),
      (EPT_DOM_STAT_SAMPLES s, .ro)]
  | 0x824 => [(EPT_DOM_GMID_H_ID s, .ro)]
  | 0x828 => [(EPT_DOM_GMID_L_ID s, .ro)]
  | _ => []

/-! ### TEL -/

/-- `TEL_INVAL.ALL` -/
def TEL_INVAL_ALL : Field := ⟨0x40200000 + 0x40, 31, 31, 0⟩
/-- `TEL_INVAL.LINE` -/
def TEL_INVAL_LINE : Field := ⟨0x40200000 + 0x40, 6, 0, 0⟩
/-- `TEL_TAG.TAG` -/
def TEL_TAG_TAG : Field := ⟨0x40200000 + 0x44, 7, 0, 0⟩
/-- `TEL_IRQ.IRQ` -/
def TEL_IRQ_IRQ : Field := ⟨0x40200000 + 0x60, 3, 0, 0⟩
/-- `TEL_IRQEN.IRQ` -/
def TEL_IRQEN_IRQ : Field := ⟨0x40200000 + 0x64, 3, 0, 0⟩

/-- The registers of TEL by offset, fields with their access codes. -/
def telRegs (ofs : Nat) : List (Field × Acc) :=
  match ofs with
  | 0x40 => [(TEL_INVAL_ALL, .wo),
      (TEL_INVAL_LINE, .wo)]
  | 0x44 => [(TEL_TAG_TAG, .ro)]
  | 0x60 => [(TEL_IRQ_IRQ, .w1c)]
  | 0x64 => [(TEL_IRQEN_IRQ, .rw)]
  | _ => []

/-! ### TELB -/

/-- `TEL_BANK.V33` -/
def TEL_BANK_V33 (b : Nat) : Field := ⟨0x40200000 + b * 4 + 0x10, 31, 31, 1⟩
/-- `TEL_BANK.PRESENT` -/
def TEL_BANK_PRESENT (b : Nat) : Field := ⟨0x40200000 + b * 4 + 0x10, 30, 30, 0⟩
/-- `TEL_BANK.VERR` -/
def TEL_BANK_VERR (b : Nat) : Field := ⟨0x40200000 + b * 4 + 0x10, 29, 29, 0⟩
/-- `TEL_BANK.MV10` -/
def TEL_BANK_MV10 (b : Nat) : Field := ⟨0x40200000 + b * 4 + 0x10, 9, 0, 0⟩

/-- The registers of TELB by offset, fields with their access codes. -/
def telBankRegs (b ofs : Nat) : List (Field × Acc) :=
  match ofs with
  | 0x10 => [(TEL_BANK_V33 b, .rw),
      (TEL_BANK_PRESENT b, .ro),
      (TEL_BANK_VERR b, .ro),
      (TEL_BANK_MV10 b, .ro)]
  | _ => []

/-! ### TELJ -/

/-- `TEL_PERMIT.MAP` -/
def TEL_PERMIT_MAP (j : Nat) : Field := ⟨0x40200000 + j * 4 + 0x20, 31, 0, 0⟩
/-- `TEL_SEALREQ.MAP` -/
def TEL_SEALREQ_MAP (j : Nat) : Field := ⟨0x40200000 + j * 4 + 0x2C, 31, 0, 0⟩
/-- `TEL_CAPNE.MAP` -/
def TEL_CAPNE_MAP (j : Nat) : Field := ⟨0x40200000 + j * 4 + 0x48, 31, 0, 0⟩

/-- The registers of TELJ by offset, fields with their access codes. -/
def telMapRegs (j ofs : Nat) : List (Field × Acc) :=
  match ofs with
  | 0x20 => [(TEL_PERMIT_MAP j, .rwl)]
  | 0x2C => [(TEL_SEALREQ_MAP j, .rwl)]
  | 0x48 => [(TEL_CAPNE_MAP j, .ro)]
  | _ => []

/-! ### TELL -/

/-- `TEL_CFG.MODE` -/
def TEL_CFG_MODE (n : Nat) : Field := ⟨0x40200000 + n * 0x40 + 0x400, 31, 29, 0⟩
/-- `TEL_CFG.POL` -/
def TEL_CFG_POL (n : Nat) : Field := ⟨0x40200000 + n * 0x40 + 0x400, 28, 28, 0⟩
/-- `TEL_CFG.HOLD` -/
def TEL_CFG_HOLD (n : Nat) : Field := ⟨0x40200000 + n * 0x40 + 0x400, 27, 27, 0⟩
/-- `TEL_CFG.LATEOPEN` -/
def TEL_CFG_LATEOPEN (n : Nat) : Field := ⟨0x40200000 + n * 0x40 + 0x400, 26, 26, 0⟩
/-- `TEL_CFG.EDGE` -/
def TEL_CFG_EDGE (n : Nat) : Field := ⟨0x40200000 + n * 0x40 + 0x400, 25, 24, 0⟩
/-- `TEL_CFG.GATED` -/
def TEL_CFG_GATED (n : Nat) : Field := ⟨0x40200000 + n * 0x40 + 0x400, 23, 23, 0⟩
/-- `TEL_CFG.QUAL` -/
def TEL_CFG_QUAL (n : Nat) : Field := ⟨0x40200000 + n * 0x40 + 0x400, 22, 20, 0⟩
/-- `TEL_CFG.LATEMAX` -/
def TEL_CFG_LATEMAX (n : Nat) : Field := ⟨0x40200000 + n * 0x40 + 0x400, 15, 8, 10⟩
/-- `TEL_WMAX.MIN` -/
def TEL_WMAX_MIN (n : Nat) : Field := ⟨0x40200000 + n * 0x40 + 0x404, 15, 0, 60⟩
/-- `TEL_PTR.IDLE` -/
def TEL_PTR_IDLE (n : Nat) : Field := ⟨0x40200000 + n * 0x40 + 0x408, 31, 31, 1⟩
/-- `TEL_PTR.PTR` -/
def TEL_PTR_PTR (n : Nat) : Field := ⟨0x40200000 + n * 0x40 + 0x408, 11, 0, 0⟩
/-- `TEL_STAT.WSTATE` -/
def TEL_STAT_WSTATE (n : Nat) : Field := ⟨0x40200000 + n * 0x40 + 0x40C, 31, 30, 0⟩
/-- `TEL_STAT.LEVEL` -/
def TEL_STAT_LEVEL (n : Nat) : Field := ⟨0x40200000 + n * 0x40 + 0x40C, 29, 29, 0⟩
/-- `TEL_STAT.ARMED` -/
def TEL_STAT_ARMED (n : Nat) : Field := ⟨0x40200000 + n * 0x40 + 0x40C, 28, 28, 0⟩
/-- `TEL_STAT.OVF` -/
def TEL_STAT_OVF (n : Nat) : Field := ⟨0x40200000 + n * 0x40 + 0x40C, 7, 7, 0⟩
/-- `TEL_STAT.LATE` -/
def TEL_STAT_LATE (n : Nat) : Field := ⟨0x40200000 + n * 0x40 + 0x40C, 6, 6, 0⟩
/-- `TEL_STAT.WITHHELD` -/
def TEL_STAT_WITHHELD (n : Nat) : Field := ⟨0x40200000 + n * 0x40 + 0x40C, 5, 5, 0⟩
/-- `TEL_STAT.SUPERSEDED` -/
def TEL_STAT_SUPERSEDED (n : Nat) : Field := ⟨0x40200000 + n * 0x40 + 0x40C, 4, 4, 0⟩
/-- `TEL_STAT.CHAINERR` -/
def TEL_STAT_CHAINERR (n : Nat) : Field := ⟨0x40200000 + n * 0x40 + 0x40C, 3, 3, 0⟩
/-- `TEL_STAT.CFGERR` -/
def TEL_STAT_CFGERR (n : Nat) : Field := ⟨0x40200000 + n * 0x40 + 0x40C, 2, 2, 0⟩
/-- `TEL_STAT.GLITCH` -/
def TEL_STAT_GLITCH (n : Nat) : Field := ⟨0x40200000 + n * 0x40 + 0x40C, 1, 1, 0⟩
/-- `TEL_EXEC.COUNT` -/
def TEL_EXEC_COUNT (n : Nat) : Field := ⟨0x40200000 + n * 0x40 + 0x410, 31, 0, 0⟩
/-- `TEL_LATECNT.COUNT` -/
def TEL_LATECNT_COUNT (n : Nat) : Field := ⟨0x40200000 + n * 0x40 + 0x414, 15, 0, 0⟩
/-- `TEL_LOST.COUNT` -/
def TEL_LOST_COUNT (n : Nat) : Field := ⟨0x40200000 + n * 0x40 + 0x418, 31, 0, 0⟩
/-- `TEL_FILL.FILL` -/
def TEL_FILL_FILL (n : Nat) : Field := ⟨0x40200000 + n * 0x40 + 0x41C, 8, 0, 0⟩
/-- `TEL_CAP_SH.FRAC` -/
def TEL_CAP_SH_FRAC (n : Nat) : Field := ⟨0x40200000 + n * 0x40 + 0x420, 31, 16, 0⟩
/-- `TEL_CAP_SH.SECH` -/
def TEL_CAP_SH_SECH (n : Nat) : Field := ⟨0x40200000 + n * 0x40 + 0x420, 15, 0, 0⟩
/-- `TEL_CAP_SL.SECL` -/
def TEL_CAP_SL_SECL (n : Nat) : Field := ⟨0x40200000 + n * 0x40 + 0x424, 31, 0, 0⟩
/-- `TEL_CAP_NS.FALL` -/
def TEL_CAP_NS_FALL (n : Nat) : Field := ⟨0x40200000 + n * 0x40 + 0x428, 31, 31, 0⟩
/-- `TEL_CAP_NS.VALID` -/
def TEL_CAP_NS_VALID (n : Nat) : Field := ⟨0x40200000 + n * 0x40 + 0x428, 30, 30, 0⟩
/-- `TEL_CAP_NS.NS` -/
def TEL_CAP_NS_NS (n : Nat) : Field := ⟨0x40200000 + n * 0x40 + 0x428, 29, 0, 0⟩

/-- The registers of TELL by offset, fields with their access codes. -/
def telLineRegs (n ofs : Nat) : List (Field × Acc) :=
  match ofs with
  | 0x400 => [(TEL_CFG_MODE n, .rw),
      (TEL_CFG_POL n, .rw),
      (TEL_CFG_HOLD n, .rwl),
      (TEL_CFG_LATEOPEN n, .rwl),
      (TEL_CFG_EDGE n, .rw),
      (TEL_CFG_GATED n, .rw),
      (TEL_CFG_QUAL n, .rw),
      (TEL_CFG_LATEMAX n, .rw)]
  | 0x404 => [(TEL_WMAX_MIN n, .rwl)]
  | 0x408 => [(TEL_PTR_IDLE n, .ro),
      (TEL_PTR_PTR n, .rw)]
  | 0x40C => [(TEL_STAT_WSTATE n, .ro),
      (TEL_STAT_LEVEL n, .ro),
      (TEL_STAT_ARMED n, .ro),
      (TEL_STAT_OVF n, .w1c),
      (TEL_STAT_LATE n, .w1c),
      (TEL_STAT_WITHHELD n, .w1c),
      (TEL_STAT_SUPERSEDED n, .w1c),
      (TEL_STAT_CHAINERR n, .w1c),
      (TEL_STAT_CFGERR n, .w1c),
      (TEL_STAT_GLITCH n, .w1c)]
  | 0x410 => [(TEL_EXEC_COUNT n, .ro)]
  | 0x414 => [(TEL_LATECNT_COUNT n, .ro)]
  | 0x418 => [(TEL_LOST_COUNT n, .ro)]
  | 0x41C => [(TEL_FILL_FILL n, .ro)]
  | 0x420 => [(TEL_CAP_SH_FRAC n, .ro),
      (TEL_CAP_SH_SECH n, .ro)]
  | 0x424 => [(TEL_CAP_SL_SECL n, .ro)]
  | 0x428 => [(TEL_CAP_NS_FALL n, .ro),
      (TEL_CAP_NS_VALID n, .ro),
      (TEL_CAP_NS_NS n, .ro)]
  | _ => []

/-! ### UMB -/

/-- `UMB_STAT.READY` -/
def UMB_STAT_READY : Field := ⟨0x40300000 + 0x0, 31, 31, 0⟩
/-- `UMB_STAT.BUSY` -/
def UMB_STAT_BUSY : Field := ⟨0x40300000 + 0x0, 30, 30, 0⟩
/-- `UMB_STAT.LOCKED` -/
def UMB_STAT_LOCKED : Field := ⟨0x40300000 + 0x0, 29, 29, 0⟩
/-- `UMB_STAT.WRAPPED` -/
def UMB_STAT_WRAPPED : Field := ⟨0x40300000 + 0x0, 28, 28, 0⟩
/-- `UMB_STAT.SFULL` -/
def UMB_STAT_SFULL : Field := ⟨0x40300000 + 0x0, 27, 27, 0⟩
/-- `UMB_STAT.FFULL` -/
def UMB_STAT_FFULL : Field := ⟨0x40300000 + 0x0, 26, 26, 0⟩
/-- `UMB_NEXT_L.SEQ` -/
def UMB_NEXT_L_SEQ : Field := ⟨0x40300000 + 0x4, 31, 0, 0⟩
/-- `UMB_NEXT_H.SEQ` -/
def UMB_NEXT_H_SEQ : Field := ⟨0x40300000 + 0x8, 31, 0, 0⟩
/-- `UMB_OLD_L.SEQ` -/
def UMB_OLD_L_SEQ : Field := ⟨0x40300000 + 0xC, 31, 0, 0⟩
/-- `UMB_OLD_H.SEQ` -/
def UMB_OLD_H_SEQ : Field := ⟨0x40300000 + 0x10, 31, 0, 0⟩
/-- `UMB_WP.SLOT` -/
def UMB_WP_SLOT : Field := ⟨0x40300000 + 0x14, 16, 0, 4096⟩
/-- `UMB_VALID.COUNT` -/
def UMB_VALID_COUNT : Field := ⟨0x40300000 + 0x18, 16, 0, 0⟩
/-- `UMB_FREE.COUNT` -/
def UMB_FREE_COUNT : Field := ⟨0x40300000 + 0x1C, 16, 0, 126976⟩
/-- `UMB_FZ.FNEXT` -/
def UMB_FZ_FNEXT : Field := ⟨0x40300000 + 0x20, 28, 16, 512⟩
/-- `UMB_FZ.SNEXT` -/
def UMB_FZ_SNEXT : Field := ⟨0x40300000 + 0x20, 12, 0, 256⟩
/-- `UMB_DAMAGED.COUNT` -/
def UMB_DAMAGED_COUNT : Field := ⟨0x40300000 + 0x24, 31, 0, 0⟩
/-- `UMB_NREF.COUNT` -/
def UMB_NREF_COUNT : Field := ⟨0x40300000 + 0x28, 15, 0, 0⟩
/-- `UMB_CFG.SUMP` -/
def UMB_CFG_SUMP : Field := ⟨0x40300000 + 0x2C, 31, 20, 60⟩
/-- `UMB_CFG.SNAPI` -/
def UMB_CFG_SNAPI : Field := ⟨0x40300000 + 0x2C, 19, 9, 60⟩
/-- `UMB_CFG.SNAPMAX` -/
def UMB_CFG_SNAPMAX : Field := ⟨0x40300000 + 0x2C, 6, 0, 32⟩
/-- `UMB_W0.TYPE` -/
def UMB_W0_TYPE : Field := ⟨0x40300000 + 0x40, 31, 16, 0⟩
/-- `UMB_W0.SRC` -/
def UMB_W0_SRC : Field := ⟨0x40300000 + 0x40, 15, 8, 0⟩
/-- `UMB_W0.SEV` -/
def UMB_W0_SEV : Field := ⟨0x40300000 + 0x40, 7, 0, 0⟩
/-- `UMB_W1.PAY` -/
def UMB_W1_PAY : Field := ⟨0x40300000 + 0x44, 31, 0, 0⟩
/-- `UMB_W2.PAY` -/
def UMB_W2_PAY : Field := ⟨0x40300000 + 0x48, 31, 0, 0⟩
/-- `UMB_W3.PAY` -/
def UMB_W3_PAY : Field := ⟨0x40300000 + 0x4C, 15, 0, 0⟩
/-- `UMB_W4.TIME` -/
def UMB_W4_TIME : Field := ⟨0x40300000 + 0x50, 31, 0, 0⟩
/-- `UMB_W5.TIME` -/
def UMB_W5_TIME : Field := ⟨0x40300000 + 0x54, 31, 0, 0⟩
/-- `UMB_CMD.GO` -/
def UMB_CMD_GO : Field := ⟨0x40300000 + 0x58, 31, 31, 0⟩
/-- `UMB_CMD.DEST` -/
def UMB_CMD_DEST : Field := ⟨0x40300000 + 0x58, 30, 30, 0⟩
/-- `UMB_CFGW.CFG` -/
def UMB_CFGW_CFG : Field := ⟨0x40300000 + 0x5C, 31, 0, 0⟩
/-- `UMB_LAST.SLOT` -/
def UMB_LAST_SLOT : Field := ⟨0x40300000 + 0x60, 16, 0, 0⟩

/-- The registers of UMB by offset, fields with their access codes. -/
def umbRegs (ofs : Nat) : List (Field × Acc) :=
  match ofs with
  | 0x0 => [(UMB_STAT_READY, .ro),
      (UMB_STAT_BUSY, .ro),
      (UMB_STAT_LOCKED, .ro),
      (UMB_STAT_WRAPPED, .ro),
      (UMB_STAT_SFULL, .ro),
      (UMB_STAT_FFULL, .ro)]
  | 0x4 => [(UMB_NEXT_L_SEQ, .ro)]
  | 0x8 => [(UMB_NEXT_H_SEQ, .ro)]
  | 0xC => [(UMB_OLD_L_SEQ, .ro)]
  | 0x10 => [(UMB_OLD_H_SEQ, .ro)]
  | 0x14 => [(UMB_WP_SLOT, .ro)]
  | 0x18 => [(UMB_VALID_COUNT, .ro)]
  | 0x1C => [(UMB_FREE_COUNT, .ro)]
  | 0x20 => [(UMB_FZ_FNEXT, .ro),
      (UMB_FZ_SNEXT, .ro)]
  | 0x24 => [(UMB_DAMAGED_COUNT, .ro)]
  | 0x28 => [(UMB_NREF_COUNT, .ro)]
  | 0x2C => [(UMB_CFG_SUMP, .ro),
      (UMB_CFG_SNAPI, .ro),
      (UMB_CFG_SNAPMAX, .ro)]
  | 0x40 => [(UMB_W0_TYPE, .rw),
      (UMB_W0_SRC, .rw),
      (UMB_W0_SEV, .rw)]
  | 0x44 => [(UMB_W1_PAY, .rw)]
  | 0x48 => [(UMB_W2_PAY, .rw)]
  | 0x4C => [(UMB_W3_PAY, .rw)]
  | 0x50 => [(UMB_W4_TIME, .rw)]
  | 0x54 => [(UMB_W5_TIME, .rw)]
  | 0x58 => [(UMB_CMD_GO, .wo),
      (UMB_CMD_DEST, .wo)]
  | 0x5C => [(UMB_CFGW_CFG, .wo)]
  | 0x60 => [(UMB_LAST_SLOT, .ro)]
  | _ => []

/-! ### CUS -/

/-- `CUS_STAT.STATE` -/
def CUS_STAT_STATE : Field := ⟨0x40310000 + 0x0, 31, 30, 0⟩
/-- `CUS_STAT.POSV` -/
def CUS_STAT_POSV : Field := ⟨0x40310000 + 0x0, 29, 29, 0⟩
/-- `CUS_STAT.ULOCK` -/
def CUS_STAT_ULOCK : Field := ⟨0x40310000 + 0x0, 28, 28, 0⟩
/-- `CUS_STAT.PENDV` -/
def CUS_STAT_PENDV : Field := ⟨0x40310000 + 0x0, 27, 27, 0⟩
/-- `CUS_STAT.FIRST` -/
def CUS_STAT_FIRST : Field := ⟨0x40310000 + 0x0, 26, 26, 0⟩
/-- `CUS_STAT.BACKOFF` -/
def CUS_STAT_BACKOFF : Field := ⟨0x40310000 + 0x0, 25, 25, 0⟩
/-- `CUS_STAT.CHAL` -/
def CUS_STAT_CHAL : Field := ⟨0x40310000 + 0x0, 24, 24, 0⟩
/-- `CUS_STAT.FAIL` -/
def CUS_STAT_FAIL : Field := ⟨0x40310000 + 0x0, 7, 0, 0⟩
/-- `CUS_BOFF.S` -/
def CUS_BOFF_S : Field := ⟨0x40310000 + 0x4, 15, 0, 0⟩
/-- `CUS_SCNT_L.CTR` -/
def CUS_SCNT_L_CTR : Field := ⟨0x40310000 + 0x8, 31, 0, 0⟩
/-- `CUS_SCNT_H.CTR` -/
def CUS_SCNT_H_CTR : Field := ⟨0x40310000 + 0xC, 31, 0, 0⟩
/-- `CUS_SPOSX_L.MM` -/
def CUS_SPOSX_L_MM : Field := ⟨0x40310000 + 0x30, 31, 0, 0⟩
/-- `CUS_SPOSX_H.MM` -/
def CUS_SPOSX_H_MM : Field := ⟨0x40310000 + 0x34, 31, 0, 0⟩
/-- `CUS_SPOSY_L.MM` -/
def CUS_SPOSY_L_MM : Field := ⟨0x40310000 + 0x38, 31, 0, 0⟩
/-- `CUS_SPOSY_H.MM` -/
def CUS_SPOSY_H_MM : Field := ⟨0x40310000 + 0x3C, 31, 0, 0⟩
/-- `CUS_SPOSZ_L.MM` -/
def CUS_SPOSZ_L_MM : Field := ⟨0x40310000 + 0x40, 31, 0, 0⟩
/-- `CUS_SPOSZ_H.MM` -/
def CUS_SPOSZ_H_MM : Field := ⟨0x40310000 + 0x44, 31, 0, 0⟩
/-- `CUS_IDLE.S` -/
def CUS_IDLE_S : Field := ⟨0x40310000 + 0x48, 15, 0, 0⟩

/-- The registers of CUS by offset, fields with their access codes. -/
def cusRegs (ofs : Nat) : List (Field × Acc) :=
  match ofs with
  | 0x0 => [(CUS_STAT_STATE, .ro),
      (CUS_STAT_POSV, .ro),
      (CUS_STAT_ULOCK, .ro),
      (CUS_STAT_PENDV, .ro),
      (CUS_STAT_FIRST, .ro),
      (CUS_STAT_BACKOFF, .ro),
      (CUS_STAT_CHAL, .ro),
      (CUS_STAT_FAIL, .ro)]
  | 0x4 => [(CUS_BOFF_S, .ro)]
  | 0x8 => [(CUS_SCNT_L_CTR, .ro)]
  | 0xC => [(CUS_SCNT_H_CTR, .ro)]
  | 0x30 => [(CUS_SPOSX_L_MM, .ro)]
  | 0x34 => [(CUS_SPOSX_H_MM, .ro)]
  | 0x38 => [(CUS_SPOSY_L_MM, .ro)]
  | 0x3C => [(CUS_SPOSY_H_MM, .ro)]
  | 0x40 => [(CUS_SPOSZ_L_MM, .ro)]
  | 0x44 => [(CUS_SPOSZ_H_MM, .ro)]
  | 0x48 => [(CUS_IDLE_S, .ro)]
  | _ => []

/-! ### CUSD -/

/-- `CUS_SDIG.DIG` -/
def CUS_SDIG_DIG (i : Nat) : Field := ⟨0x40310000 + i * 4 + 0x10, 31, 0, 0⟩

/-- The registers of CUSD by offset, fields with their access codes. -/
def cusDigRegs (i ofs : Nat) : List (Field × Acc) :=
  match ofs with
  | 0x10 => [(CUS_SDIG_DIG i, .ro)]
  | _ => []

/-! ### SVC -/

/-- `SVC_STAT.LINK` -/
def SVC_STAT_LINK : Field := ⟨0x40320000 + 0x0, 31, 30, 0⟩
/-- `SVC_STAT.SESSION` -/
def SVC_STAT_SESSION : Field := ⟨0x40320000 + 0x0, 29, 29, 0⟩
/-- `SVC_STAT.ATTN` -/
def SVC_STAT_ATTN : Field := ⟨0x40320000 + 0x0, 28, 28, 0⟩
/-- `SVC_STAT.FLFAIL` -/
def SVC_STAT_FLFAIL : Field := ⟨0x40320000 + 0x0, 27, 27, 0⟩
/-- `SVC_STAT.INFLIGHT` -/
def SVC_STAT_INFLIGHT : Field := ⟨0x40320000 + 0x0, 11, 8, 0⟩
/-- `SVC_STAT.WFREE` -/
def SVC_STAT_WFREE : Field := ⟨0x40320000 + 0x0, 3, 0, 8⟩
/-- `SVC_BAUD.BAUD` -/
def SVC_BAUD_BAUD : Field := ⟨0x40320000 + 0x4, 23, 0, 115200⟩
/-- `SVC_SEQ.TXSEQ` -/
def SVC_SEQ_TXSEQ : Field := ⟨0x40320000 + 0x8, 31, 16, 0⟩
/-- `SVC_SEQ.RXEXP` -/
def SVC_SEQ_RXEXP : Field := ⟨0x40320000 + 0x8, 15, 0, 0⟩
/-- `SVC_CNT_ERR.COUNT` -/
def SVC_CNT_ERR_COUNT : Field := ⟨0x40320000 + 0xC, 31, 0, 0⟩
/-- `SVC_CNT_RETX.COUNT` -/
def SVC_CNT_RETX_COUNT : Field := ⟨0x40320000 + 0x10, 31, 0, 0⟩
/-- `SVC_CNT_DOWN.COUNT` -/
def SVC_CNT_DOWN_COUNT : Field := ⟨0x40320000 + 0x14, 15, 0, 0⟩
/-- `SVC_CNT_CMD.COUNT` -/
def SVC_CNT_CMD_COUNT : Field := ⟨0x40320000 + 0x18, 31, 0, 0⟩
/-- `SVC_UPD.USTATE` -/
def SVC_UPD_USTATE : Field := ⟨0x40320000 + 0x1C, 31, 29, 0⟩
/-- `SVC_UPDID_L.ID` -/
def SVC_UPDID_L_ID : Field := ⟨0x40320000 + 0x20, 31, 0, 0⟩
/-- `SVC_UPDID_H.ID` -/
def SVC_UPDID_H_ID : Field := ⟨0x40320000 + 0x24, 31, 0, 0⟩
/-- `SVC_UPDPG.RECV` -/
def SVC_UPDPG_RECV : Field := ⟨0x40320000 + 0x28, 17, 0, 0⟩
/-- `SVC_JRNL.SECTOR` -/
def SVC_JRNL_SECTOR : Field := ⟨0x40320000 + 0x2C, 31, 28, 0⟩
/-- `SVC_JRNL.NEXT` -/
def SVC_JRNL_NEXT : Field := ⟨0x40320000 + 0x2C, 10, 0, 0⟩
/-- `SVC_REPAIR.RSTATE` -/
def SVC_REPAIR_RSTATE : Field := ⟨0x40320000 + 0x30, 31, 29, 0⟩
/-- `SVC_REPAIR.GROUP` -/
def SVC_REPAIR_GROUP : Field := ⟨0x40320000 + 0x30, 15, 15, 0⟩
/-- `SVC_REPAIR.TARGET` -/
def SVC_REPAIR_TARGET : Field := ⟨0x40320000 + 0x30, 7, 0, 0⟩
/-- `SVC_IRQ.IRQ` -/
def SVC_IRQ_IRQ : Field := ⟨0x40320000 + 0x34, 3, 0, 0⟩
/-- `SVC_IRQEN.IRQ` -/
def SVC_IRQEN_IRQ : Field := ⟨0x40320000 + 0x38, 3, 0, 0⟩
/-- `SVC_UPDTOT.TOTAL` -/
def SVC_UPDTOT_TOTAL : Field := ⟨0x40320000 + 0x3C, 17, 0, 0⟩

/-- The registers of SVC by offset, fields with their access codes. -/
def svcRegs (ofs : Nat) : List (Field × Acc) :=
  match ofs with
  | 0x0 => [(SVC_STAT_LINK, .ro),
      (SVC_STAT_SESSION, .ro),
      (SVC_STAT_ATTN, .ro),
      (SVC_STAT_FLFAIL, .ro),
      (SVC_STAT_INFLIGHT, .ro),
      (SVC_STAT_WFREE, .ro)]
  | 0x4 => [(SVC_BAUD_BAUD, .ro)]
  | 0x8 => [(SVC_SEQ_TXSEQ, .ro),
      (SVC_SEQ_RXEXP, .ro)]
  | 0xC => [(SVC_CNT_ERR_COUNT, .ro)]
  | 0x10 => [(SVC_CNT_RETX_COUNT, .ro)]
  | 0x14 => [(SVC_CNT_DOWN_COUNT, .ro)]
  | 0x18 => [(SVC_CNT_CMD_COUNT, .ro)]
  | 0x1C => [(SVC_UPD_USTATE, .ro)]
  | 0x20 => [(SVC_UPDID_L_ID, .ro)]
  | 0x24 => [(SVC_UPDID_H_ID, .ro)]
  | 0x28 => [(SVC_UPDPG_RECV, .ro)]
  | 0x2C => [(SVC_JRNL_SECTOR, .ro),
      (SVC_JRNL_NEXT, .ro)]
  | 0x30 => [(SVC_REPAIR_RSTATE, .ro),
      (SVC_REPAIR_GROUP, .ro),
      (SVC_REPAIR_TARGET, .ro)]
  | 0x34 => [(SVC_IRQ_IRQ, .w1c)]
  | 0x38 => [(SVC_IRQEN_IRQ, .rw)]
  | 0x3C => [(SVC_UPDTOT_TOTAL, .ro)]
  | _ => []

/-! ### CFL -/

/-- `CFL_STAT.STATE` -/
def CFL_STAT_STATE : Field := ⟨0x40330000 + 0x0, 31, 29, 0⟩
/-- `CFL_STAT.SRC` -/
def CFL_STAT_SRC : Field := ⟨0x40330000 + 0x0, 28, 28, 0⟩
/-- `CFL_STAT.SOFT` -/
def CFL_STAT_SOFT : Field := ⟨0x40330000 + 0x0, 27, 27, 0⟩
/-- `CFL_STAT.MIRV` -/
def CFL_STAT_MIRV : Field := ⟨0x40330000 + 0x0, 26, 26, 0⟩
/-- `CFL_STAT.MIRWR` -/
def CFL_STAT_MIRWR : Field := ⟨0x40330000 + 0x0, 25, 25, 0⟩
/-- `CFL_STAT.MISM` -/
def CFL_STAT_MISM : Field := ⟨0x40330000 + 0x0, 24, 24, 0⟩
/-- `CFL_FAULT.CAUSE` -/
def CFL_FAULT_CAUSE : Field := ⟨0x40330000 + 0x4, 31, 24, 0⟩
/-- `CFL_FAULT.MIRROR` -/
def CFL_FAULT_MIRROR : Field := ⟨0x40330000 + 0x4, 23, 23, 0⟩
/-- `CFL_FOFS.OFS` -/
def CFL_FOFS_OFS : Field := ⟨0x40330000 + 0x8, 31, 0, 0⟩
/-- `CFL_FLASH.MIB` -/
def CFL_FLASH_MIB : Field := ⟨0x40330000 + 0xC, 7, 0, 0⟩
/-- `CFL_RECS.COUNT` -/
def CFL_RECS_COUNT : Field := ⟨0x40330000 + 0x10, 31, 0, 0⟩
/-- `CFL_TIME.MS` -/
def CFL_TIME_MS : Field := ⟨0x40330000 + 0x14, 15, 0, 0⟩

/-- The registers of CFL by offset, fields with their access codes. -/
def cflRegs (ofs : Nat) : List (Field × Acc) :=
  match ofs with
  | 0x0 => [(CFL_STAT_STATE, .ro),
      (CFL_STAT_SRC, .ro),
      (CFL_STAT_SOFT, .ro),
      (CFL_STAT_MIRV, .ro),
      (CFL_STAT_MIRWR, .ro),
      (CFL_STAT_MISM, .ro)]
  | 0x4 => [(CFL_FAULT_CAUSE, .ro),
      (CFL_FAULT_MIRROR, .ro)]
  | 0x8 => [(CFL_FOFS_OFS, .ro)]
  | 0xC => [(CFL_FLASH_MIB, .ro)]
  | 0x10 => [(CFL_RECS_COUNT, .ro)]
  | 0x14 => [(CFL_TIME_MS, .ro)]
  | _ => []

/-! ### CFLD -/

/-- `CFL_DIG.DIG` -/
def CFL_DIG_DIG (i : Nat) : Field := ⟨0x40330000 + i * 4 + 0x20, 31, 0, 0⟩

/-- The registers of CFLD by offset, fields with their access codes. -/
def cflDigRegs (i ofs : Nat) : List (Field × Acc) :=
  match ofs with
  | 0x20 => [(CFL_DIG_DIG i, .ro)]
  | _ => []

/-! ### CLU -/

/-- `CLU_CTL.CKEN` -/
def CLU_CTL_CKEN (c : Nat) : Field := ⟨0x50000000 + c * 0x100000 + 0x0, 31, 31, 1⟩
/-- `CLU_CTL.BIST` -/
def CLU_CTL_BIST (c : Nat) : Field := ⟨0x50000000 + c * 0x100000 + 0x0, 30, 30, 0⟩
/-- `CLU_CTL.BUSY` -/
def CLU_CTL_BUSY (c : Nat) : Field := ⟨0x50000000 + c * 0x100000 + 0x0, 29, 29, 0⟩
/-- `CLU_GANG.GANG` -/
def CLU_GANG_GANG (c : Nat) : Field := ⟨0x50000000 + c * 0x100000 + 0x4, 31, 31, 0⟩
/-- `CLU_PBASE.ADDR` -/
def CLU_PBASE_ADDR (c : Nat) : Field := ⟨0x50000000 + c * 0x100000 + 0x8, 31, 16, 0⟩
/-- `CLU_PBASE.LEN` -/
def CLU_PBASE_LEN (c : Nat) : Field := ⟨0x50000000 + c * 0x100000 + 0x8, 12, 0, 0⟩
/-- `CLU_RING.ADDR` -/
def CLU_RING_ADDR (c : Nat) : Field := ⟨0x50000000 + c * 0x100000 + 0xC, 31, 16, 0⟩
/-- `CLU_RING.LEN` -/
def CLU_RING_LEN (c : Nat) : Field := ⟨0x50000000 + c * 0x100000 + 0xC, 9, 0, 0⟩
/-- `CLU_RING_WP.WP` -/
def CLU_RING_WP_WP (c : Nat) : Field := ⟨0x50000000 + c * 0x100000 + 0x10, 9, 0, 0⟩
/-- `CLU_RING_RP.RP` -/
def CLU_RING_RP_RP (c : Nat) : Field := ⟨0x50000000 + c * 0x100000 + 0x14, 9, 0, 0⟩
/-- `CLU_RING_LVL.THR` -/
def CLU_RING_LVL_THR (c : Nat) : Field := ⟨0x50000000 + c * 0x100000 + 0x18, 25, 16, 0⟩
/-- `CLU_RING_LVL.FILL` -/
def CLU_RING_LVL_FILL (c : Nat) : Field := ⟨0x50000000 + c * 0x100000 + 0x18, 9, 0, 0⟩
/-- `CLU_DROP.COUNT` -/
def CLU_DROP_COUNT (c : Nat) : Field := ⟨0x50000000 + c * 0x100000 + 0x1C, 31, 0, 0⟩
/-- `CLU_CTINV.FLUSH` -/
def CLU_CTINV_FLUSH (c : Nat) : Field := ⟨0x50000000 + c * 0x100000 + 0x20, 31, 31, 0⟩
/-- `CLU_TOK.FREE` -/
def CLU_TOK_FREE (c : Nat) : Field := ⟨0x50000000 + c * 0x100000 + 0x24, 8, 0, 256⟩
/-- `CLU_GDWQ.START` -/
def CLU_GDWQ_START (c : Nat) : Field := ⟨0x50000000 + c * 0x100000 + 0x28, 11, 0, 0⟩
/-- `CLU_CNTA.TRACK` -/
def CLU_CNTA_TRACK (c : Nat) : Field := ⟨0x50000000 + c * 0x100000 + 0x2C, 30, 24, 0⟩
/-- `CLU_CNTA.ACQ` -/
def CLU_CNTA_ACQ (c : Nat) : Field := ⟨0x50000000 + c * 0x100000 + 0x2C, 22, 16, 0⟩
/-- `CLU_CNTA.IDLE` -/
def CLU_CNTA_IDLE (c : Nat) : Field := ⟨0x50000000 + c * 0x100000 + 0x2C, 14, 8, 0⟩
/-- `CLU_CNTA.MIG` -/
def CLU_CNTA_MIG (c : Nat) : Field := ⟨0x50000000 + c * 0x100000 + 0x2C, 6, 0, 0⟩
/-- `CLU_CNTB.REPAIR` -/
def CLU_CNTB_REPAIR (c : Nat) : Field := ⟨0x50000000 + c * 0x100000 + 0x30, 14, 8, 64⟩
/-- `CLU_CNTB.RETIRED` -/
def CLU_CNTB_RETIRED (c : Nat) : Field := ⟨0x50000000 + c * 0x100000 + 0x30, 6, 0, 0⟩
/-- `CLU_IRQ.DROP` -/
def CLU_IRQ_DROP (c : Nat) : Field := ⟨0x50000000 + c * 0x100000 + 0x34, 4, 4, 0⟩
/-- `CLU_IRQ.RING` -/
def CLU_IRQ_RING (c : Nat) : Field := ⟨0x50000000 + c * 0x100000 + 0x34, 3, 3, 0⟩
/-- `CLU_IRQ.FAULT` -/
def CLU_IRQ_FAULT (c : Nat) : Field := ⟨0x50000000 + c * 0x100000 + 0x34, 2, 2, 0⟩
/-- `CLU_IRQ.PROG` -/
def CLU_IRQ_PROG (c : Nat) : Field := ⟨0x50000000 + c * 0x100000 + 0x34, 1, 1, 0⟩
/-- `CLU_IRQ.DUMP` -/
def CLU_IRQ_DUMP (c : Nat) : Field := ⟨0x50000000 + c * 0x100000 + 0x34, 0, 0, 0⟩
/-- `CLU_IRQEN.DROP` -/
def CLU_IRQEN_DROP (c : Nat) : Field := ⟨0x50000000 + c * 0x100000 + 0x38, 4, 4, 0⟩
/-- `CLU_IRQEN.RING` -/
def CLU_IRQEN_RING (c : Nat) : Field := ⟨0x50000000 + c * 0x100000 + 0x38, 3, 3, 0⟩
/-- `CLU_IRQEN.FAULT` -/
def CLU_IRQEN_FAULT (c : Nat) : Field := ⟨0x50000000 + c * 0x100000 + 0x38, 2, 2, 0⟩
/-- `CLU_IRQEN.PROG` -/
def CLU_IRQEN_PROG (c : Nat) : Field := ⟨0x50000000 + c * 0x100000 + 0x38, 1, 1, 0⟩
/-- `CLU_IRQEN.DUMP` -/
def CLU_IRQEN_DUMP (c : Nat) : Field := ⟨0x50000000 + c * 0x100000 + 0x38, 0, 0, 0⟩
/-- `CLU_STAT.MAPERR` -/
def CLU_STAT_MAPERR (c : Nat) : Field := ⟨0x50000000 + c * 0x100000 + 0x3C, 31, 31, 0⟩
/-- `CLU_STAT.GDWQREF` -/
def CLU_STAT_GDWQREF (c : Nat) : Field := ⟨0x50000000 + c * 0x100000 + 0x3C, 5, 5, 0⟩
/-- `CLU_STAT.NOTOK` -/
def CLU_STAT_NOTOK (c : Nat) : Field := ⟨0x50000000 + c * 0x100000 + 0x3C, 4, 4, 0⟩
/-- `CLU_STAT.RPERR` -/
def CLU_STAT_RPERR (c : Nat) : Field := ⟨0x50000000 + c * 0x100000 + 0x3C, 3, 3, 0⟩
/-- `CLU_STAT.GANGREF` -/
def CLU_STAT_GANGREF (c : Nat) : Field := ⟨0x50000000 + c * 0x100000 + 0x3C, 2, 2, 0⟩
/-- `CLU_STAT.BISTREF` -/
def CLU_STAT_BISTREF (c : Nat) : Field := ⟨0x50000000 + c * 0x100000 + 0x3C, 1, 1, 0⟩
/-- `CLU_STAT.BISTDONE` -/
def CLU_STAT_BISTDONE (c : Nat) : Field := ⟨0x50000000 + c * 0x100000 + 0x3C, 0, 0, 0⟩
/-- `CLU_EPOCH.EPOCH` -/
def CLU_EPOCH_EPOCH (c : Nat) : Field := ⟨0x50000000 + c * 0x100000 + 0x40, 15, 0, 0⟩
/-- `CLU_FLT_L.MAP` -/
def CLU_FLT_L_MAP (c : Nat) : Field := ⟨0x50000000 + c * 0x100000 + 0x44, 31, 0, 0⟩
/-- `CLU_FLT_H.MAP` -/
def CLU_FLT_H_MAP (c : Nat) : Field := ⟨0x50000000 + c * 0x100000 + 0x48, 31, 0, 0⟩
/-- `CLU_RET_L.MAP` -/
def CLU_RET_L_MAP (c : Nat) : Field := ⟨0x50000000 + c * 0x100000 + 0x4C, 31, 0, 0⟩
/-- `CLU_RET_H.MAP` -/
def CLU_RET_H_MAP (c : Nat) : Field := ⟨0x50000000 + c * 0x100000 + 0x50, 31, 0, 0⟩

/-- The registers of CLU by offset, fields with their access codes. -/
def cluRegs (c ofs : Nat) : List (Field × Acc) :=
  match ofs with
  | 0x0 => [(CLU_CTL_CKEN c, .rw),
      (CLU_CTL_BIST c, .wo),
      (CLU_CTL_BUSY c, .ro)]
  | 0x4 => [(CLU_GANG_GANG c, .rwb)]
  | 0x8 => [(CLU_PBASE_ADDR c, .rw),
      (CLU_PBASE_LEN c, .rw)]
  | 0xC => [(CLU_RING_ADDR c, .rw),
      (CLU_RING_LEN c, .rw)]
  | 0x10 => [(CLU_RING_WP_WP c, .ro)]
  | 0x14 => [(CLU_RING_RP_RP c, .rw)]
  | 0x18 => [(CLU_RING_LVL_THR c, .rw),
      (CLU_RING_LVL_FILL c, .ro)]
  | 0x1C => [(CLU_DROP_COUNT c, .ro)]
  | 0x20 => [(CLU_CTINV_FLUSH c, .wo)]
  | 0x24 => [(CLU_TOK_FREE c, .ro)]
  | 0x28 => [(CLU_GDWQ_START c, .wo)]
  | 0x2C => [(CLU_CNTA_TRACK c, .ro),
      (CLU_CNTA_ACQ c, .ro),
      (CLU_CNTA_IDLE c, .ro),
      (CLU_CNTA_MIG c, .ro)]
  | 0x30 => [(CLU_CNTB_REPAIR c, .ro),
      (CLU_CNTB_RETIRED c, .ro)]
  | 0x34 => [(CLU_IRQ_DROP c, .w1c),
      (CLU_IRQ_RING c, .w1c),
      (CLU_IRQ_FAULT c, .w1c),
      (CLU_IRQ_PROG c, .w1c),
      (CLU_IRQ_DUMP c, .w1c)]
  | 0x38 => [(CLU_IRQEN_DROP c, .rw),
      (CLU_IRQEN_RING c, .rw),
      (CLU_IRQEN_FAULT c, .rw),
      (CLU_IRQEN_PROG c, .rw),
      (CLU_IRQEN_DUMP c, .rw)]
  | 0x3C => [(CLU_STAT_MAPERR c, .ro),
      (CLU_STAT_GDWQREF c, .w1c),
      (CLU_STAT_NOTOK c, .w1c),
      (CLU_STAT_RPERR c, .w1c),
      (CLU_STAT_GANGREF c, .w1c),
      (CLU_STAT_BISTREF c, .w1c),
      (CLU_STAT_BISTDONE c, .w1c)]
  | 0x40 => [(CLU_EPOCH_EPOCH c, .ro)]
  | 0x44 => [(CLU_FLT_L_MAP c, .ro)]
  | 0x48 => [(CLU_FLT_H_MAP c, .ro)]
  | 0x4C => [(CLU_RET_L_MAP c, .ro)]
  | 0x50 => [(CLU_RET_H_MAP c, .ro)]
  | _ => []

/-! ### ENG -/

/-- `ENG_CFG.SRC` -/
def ENG_CFG_SRC (e : Nat) : Field := ⟨0x50010000 + e / 64 * 0x100000 + e % 64 * 0x400 + 0x0, 31, 28, 0⟩
/-- `ENG_CFG.CHID` -/
def ENG_CFG_CHID (e : Nat) : Field := ⟨0x50010000 + e / 64 * 0x100000 + e % 64 * 0x400 + 0x0, 11, 0, 0⟩
/-- `ENG_CODE.DESCA` -/
def ENG_CODE_DESCA (e : Nat) : Field := ⟨0x50010000 + e / 64 * 0x100000 + e % 64 * 0x400 + 0x4, 28, 16, 0⟩
/-- `ENG_CODE.DESCB` -/
def ENG_CODE_DESCB (e : Nat) : Field := ⟨0x50010000 + e / 64 * 0x100000 + e % 64 * 0x400 + 0x4, 12, 0, 0⟩
/-- `ENG_CRATE_L.RATE` -/
def ENG_CRATE_L_RATE (e : Nat) : Field := ⟨0x50010000 + e / 64 * 0x100000 + e % 64 * 0x400 + 0x8, 31, 0, 0⟩
/-- `ENG_CRATE_H.RATE` -/
def ENG_CRATE_H_RATE (e : Nat) : Field := ⟨0x50010000 + e / 64 * 0x100000 + e % 64 * 0x400 + 0xC, 15, 0, 0⟩
/-- `ENG_KRATE_L.RATE` -/
def ENG_KRATE_L_RATE (e : Nat) : Field := ⟨0x50010000 + e / 64 * 0x100000 + e % 64 * 0x400 + 0x10, 31, 0, 0⟩
/-- `ENG_KRATE_H.RATE` -/
def ENG_KRATE_H_RATE (e : Nat) : Field := ⟨0x50010000 + e / 64 * 0x100000 + e % 64 * 0x400 + 0x14, 7, 0, 0⟩
/-- `ENG_CPHS_F0.FRAC` -/
def ENG_CPHS_F0_FRAC (e : Nat) : Field := ⟨0x50010000 + e / 64 * 0x100000 + e % 64 * 0x400 + 0x18, 31, 0, 0⟩
/-- `ENG_CPHS_F1.FRAC` -/
def ENG_CPHS_F1_FRAC (e : Nat) : Field := ⟨0x50010000 + e / 64 * 0x100000 + e % 64 * 0x400 + 0x1C, 15, 0, 0⟩
/-- `ENG_CPHS_C.SET` -/
def ENG_CPHS_C_SET (e : Nat) : Field := ⟨0x50010000 + e / 64 * 0x100000 + e % 64 * 0x400 + 0x20, 31, 31, 0⟩
/-- `ENG_CPHS_C.CHIP` -/
def ENG_CPHS_C_CHIP (e : Nat) : Field := ⟨0x50010000 + e / 64 * 0x100000 + e % 64 * 0x400 + 0x20, 19, 0, 0⟩
/-- `ENG_CPHS_B.IB` -/
def ENG_CPHS_B_IB (e : Nat) : Field := ⟨0x50010000 + e / 64 * 0x100000 + e % 64 * 0x400 + 0x24, 19, 0, 0⟩
/-- `ENG_KPHS_L.PH` -/
def ENG_KPHS_L_PH (e : Nat) : Field := ⟨0x50010000 + e / 64 * 0x100000 + e % 64 * 0x400 + 0x28, 31, 0, 0⟩
/-- `ENG_KPHS_H.SET` -/
def ENG_KPHS_H_SET (e : Nat) : Field := ⟨0x50010000 + e / 64 * 0x100000 + e % 64 * 0x400 + 0x2C, 31, 31, 0⟩
/-- `ENG_KPHS_H.PH` -/
def ENG_KPHS_H_PH (e : Nat) : Field := ⟨0x50010000 + e / 64 * 0x100000 + e % 64 * 0x400 + 0x2C, 7, 0, 0⟩
/-- `ENG_TGT.ANY` -/
def ENG_TGT_ANY (e : Nat) : Field := ⟨0x50010000 + e / 64 * 0x100000 + e % 64 * 0x400 + 0x30, 16, 16, 0⟩
/-- `ENG_TGT.DSEQ` -/
def ENG_TGT_DSEQ (e : Nat) : Field := ⟨0x50010000 + e / 64 * 0x100000 + e % 64 * 0x400 + 0x30, 15, 0, 0⟩
/-- `ENG_DWQ.START` -/
def ENG_DWQ_START (e : Nat) : Field := ⟨0x50010000 + e / 64 * 0x100000 + e % 64 * 0x400 + 0x34, 11, 0, 0⟩
/-- `ENG_CTL.CANCEL` -/
def ENG_CTL_CANCEL (e : Nat) : Field := ⟨0x50010000 + e / 64 * 0x100000 + e % 64 * 0x400 + 0x38, 31, 31, 0⟩
/-- `ENG_CTL.APPLY` -/
def ENG_CTL_APPLY (e : Nat) : Field := ⟨0x50010000 + e / 64 * 0x100000 + e % 64 * 0x400 + 0x38, 30, 30, 0⟩
/-- `ENG_CTL.SETROLE` -/
def ENG_CTL_SETROLE (e : Nat) : Field := ⟨0x50010000 + e / 64 * 0x100000 + e % 64 * 0x400 + 0x38, 29, 29, 0⟩
/-- `ENG_CTL.ROLE` -/
def ENG_CTL_ROLE (e : Nat) : Field := ⟨0x50010000 + e / 64 * 0x100000 + e % 64 * 0x400 + 0x38, 2, 0, 0⟩
/-- `ENG_STAT.STATE` -/
def ENG_STAT_STATE (e : Nat) : Field := ⟨0x50010000 + e / 64 * 0x100000 + e % 64 * 0x400 + 0x3C, 31, 29, 4⟩
/-- `ENG_STAT.RUN` -/
def ENG_STAT_RUN (e : Nat) : Field := ⟨0x50010000 + e / 64 * 0x100000 + e % 64 * 0x400 + 0x3C, 28, 28, 0⟩
/-- `ENG_STAT.QDEPTH` -/
def ENG_STAT_QDEPTH (e : Nat) : Field := ⟨0x50010000 + e / 64 * 0x100000 + e % 64 * 0x400 + 0x3C, 27, 25, 0⟩
/-- `ENG_STAT.PEND` -/
def ENG_STAT_PEND (e : Nat) : Field := ⟨0x50010000 + e / 64 * 0x100000 + e % 64 * 0x400 + 0x3C, 24, 24, 0⟩
/-- `ENG_STAT.FCODE` -/
def ENG_STAT_FCODE (e : Nat) : Field := ⟨0x50010000 + e / 64 * 0x100000 + e % 64 * 0x400 + 0x3C, 23, 20, 0⟩
/-- `ENG_STAT.ICODE` -/
def ENG_STAT_ICODE (e : Nat) : Field := ⟨0x50010000 + e / 64 * 0x100000 + e % 64 * 0x400 + 0x3C, 19, 12, 0⟩
/-- `ENG_STAT.FAULT` -/
def ENG_STAT_FAULT (e : Nat) : Field := ⟨0x50010000 + e / 64 * 0x100000 + e % 64 * 0x400 + 0x3C, 9, 9, 0⟩
/-- `ENG_STAT.ROLEERR` -/
def ENG_STAT_ROLEERR (e : Nat) : Field := ⟨0x50010000 + e / 64 * 0x100000 + e % 64 * 0x400 + 0x3C, 8, 8, 0⟩
/-- `ENG_STAT.MIGERR` -/
def ENG_STAT_MIGERR (e : Nat) : Field := ⟨0x50010000 + e / 64 * 0x100000 + e % 64 * 0x400 + 0x3C, 7, 7, 0⟩
/-- `ENG_STAT.OVWR` -/
def ENG_STAT_OVWR (e : Nat) : Field := ⟨0x50010000 + e / 64 * 0x100000 + e % 64 * 0x400 + 0x3C, 6, 6, 0⟩
/-- `ENG_STAT.QFULL` -/
def ENG_STAT_QFULL (e : Nat) : Field := ⟨0x50010000 + e / 64 * 0x100000 + e % 64 * 0x400 + 0x3C, 5, 5, 0⟩
/-- `ENG_STAT.GAP` -/
def ENG_STAT_GAP (e : Nat) : Field := ⟨0x50010000 + e / 64 * 0x100000 + e % 64 * 0x400 + 0x3C, 4, 4, 0⟩
/-- `ENG_STAT.SAT` -/
def ENG_STAT_SAT (e : Nat) : Field := ⟨0x50010000 + e / 64 * 0x100000 + e % 64 * 0x400 + 0x3C, 3, 3, 0⟩
/-- `ENG_STAT.CANCELLED` -/
def ENG_STAT_CANCELLED (e : Nat) : Field := ⟨0x50010000 + e / 64 * 0x100000 + e % 64 * 0x400 + 0x3C, 2, 2, 0⟩
/-- `ENG_STAT.LATE` -/
def ENG_STAT_LATE (e : Nat) : Field := ⟨0x50010000 + e / 64 * 0x100000 + e % 64 * 0x400 + 0x3C, 1, 1, 0⟩
/-- `ENG_STAT.PIRQ` -/
def ENG_STAT_PIRQ (e : Nat) : Field := ⟨0x50010000 + e / 64 * 0x100000 + e % 64 * 0x400 + 0x3C, 0, 0, 0⟩
/-- `ENG_DSEQ.DSEQ` -/
def ENG_DSEQ_DSEQ (e : Nat) : Field := ⟨0x50010000 + e / 64 * 0x100000 + e % 64 * 0x400 + 0x40, 15, 0, 0⟩
/-- `ENG_CPH_C.CHIP` -/
def ENG_CPH_C_CHIP (e : Nat) : Field := ⟨0x50010000 + e / 64 * 0x100000 + e % 64 * 0x400 + 0x44, 19, 0, 0⟩
/-- `ENG_CPH_F1.FRAC` -/
def ENG_CPH_F1_FRAC (e : Nat) : Field := ⟨0x50010000 + e / 64 * 0x100000 + e % 64 * 0x400 + 0x48, 15, 0, 0⟩
/-- `ENG_CPH_F0.FRAC` -/
def ENG_CPH_F0_FRAC (e : Nat) : Field := ⟨0x50010000 + e / 64 * 0x100000 + e % 64 * 0x400 + 0x4C, 31, 0, 0⟩
/-- `ENG_CPH_B.IB` -/
def ENG_CPH_B_IB (e : Nat) : Field := ⟨0x50010000 + e / 64 * 0x100000 + e % 64 * 0x400 + 0x50, 19, 0, 0⟩
/-- `ENG_KPH_H.PH` -/
def ENG_KPH_H_PH (e : Nat) : Field := ⟨0x50010000 + e / 64 * 0x100000 + e % 64 * 0x400 + 0x54, 7, 0, 0⟩
/-- `ENG_KPH_L.PH` -/
def ENG_KPH_L_PH (e : Nat) : Field := ⟨0x50010000 + e / 64 * 0x100000 + e % 64 * 0x400 + 0x58, 31, 0, 0⟩
/-- `ENG_MIG.ARM` -/
def ENG_MIG_ARM (e : Nat) : Field := ⟨0x50010000 + e / 64 * 0x100000 + e % 64 * 0x400 + 0x5C, 31, 31, 0⟩
/-- `ENG_MIG.DONE` -/
def ENG_MIG_DONE (e : Nat) : Field := ⟨0x50010000 + e / 64 * 0x100000 + e % 64 * 0x400 + 0x5C, 30, 30, 0⟩
/-- `ENG_MIG.FROM` -/
def ENG_MIG_FROM (e : Nat) : Field := ⟨0x50010000 + e / 64 * 0x100000 + e % 64 * 0x400 + 0x5C, 9, 0, 0⟩

/-- The registers of ENG by offset, fields with their access codes. -/
def engRegs (e ofs : Nat) : List (Field × Acc) :=
  match ofs with
  | 0x0 => [(ENG_CFG_SRC e, .rwb),
      (ENG_CFG_CHID e, .rwb)]
  | 0x4 => [(ENG_CODE_DESCA e, .rwb),
      (ENG_CODE_DESCB e, .rwb)]
  | 0x8 => [(ENG_CRATE_L_RATE e, .rwb)]
  | 0xC => [(ENG_CRATE_H_RATE e, .rwb)]
  | 0x10 => [(ENG_KRATE_L_RATE e, .rwb)]
  | 0x14 => [(ENG_KRATE_H_RATE e, .rwb)]
  | 0x18 => [(ENG_CPHS_F0_FRAC e, .rwb)]
  | 0x1C => [(ENG_CPHS_F1_FRAC e, .rwb)]
  | 0x20 => [(ENG_CPHS_C_SET e, .rwb),
      (ENG_CPHS_C_CHIP e, .rwb)]
  | 0x24 => [(ENG_CPHS_B_IB e, .rwb)]
  | 0x28 => [(ENG_KPHS_L_PH e, .rwb)]
  | 0x2C => [(ENG_KPHS_H_SET e, .rwb),
      (ENG_KPHS_H_PH e, .rwb)]
  | 0x30 => [(ENG_TGT_ANY e, .wo),
      (ENG_TGT_DSEQ e, .wo)]
  | 0x34 => [(ENG_DWQ_START e, .wo)]
  | 0x38 => [(ENG_CTL_CANCEL e, .wo),
      (ENG_CTL_APPLY e, .wo),
      (ENG_CTL_SETROLE e, .wo),
      (ENG_CTL_ROLE e, .wo)]
  | 0x3C => [(ENG_STAT_STATE e, .ro),
      (ENG_STAT_RUN e, .ro),
      (ENG_STAT_QDEPTH e, .ro),
      (ENG_STAT_PEND e, .ro),
      (ENG_STAT_FCODE e, .ro),
      (ENG_STAT_ICODE e, .ro),
      (ENG_STAT_FAULT e, .w1c),
      (ENG_STAT_ROLEERR e, .w1c),
      (ENG_STAT_MIGERR e, .w1c),
      (ENG_STAT_OVWR e, .w1c),
      (ENG_STAT_QFULL e, .w1c),
      (ENG_STAT_GAP e, .w1c),
      (ENG_STAT_SAT e, .w1c),
      (ENG_STAT_CANCELLED e, .w1c),
      (ENG_STAT_LATE e, .w1c),
      (ENG_STAT_PIRQ e, .w1c)]
  | 0x40 => [(ENG_DSEQ_DSEQ e, .ro)]
  | 0x44 => [(ENG_CPH_C_CHIP e, .ro)]
  | 0x48 => [(ENG_CPH_F1_FRAC e, .ro)]
  | 0x4C => [(ENG_CPH_F0_FRAC e, .ro)]
  | 0x50 => [(ENG_CPH_B_IB e, .ro)]
  | 0x54 => [(ENG_KPH_H_PH e, .ro)]
  | 0x58 => [(ENG_KPH_L_PH e, .ro)]
  | 0x5C => [(ENG_MIG_ARM e, .rw),
      (ENG_MIG_DONE e, .ro),
      (ENG_MIG_FROM e, .rw)]
  | _ => []

/-! ### LDSP -/

/-- `LDSP_CTL.RUN` -/
def LDSP_CTL_RUN (d : Nat) : Field := ⟨0x60000000 + d * 0x40000 + 0x0, 31, 31, 0⟩
/-- `LDSP_CTL.RESET` -/
def LDSP_CTL_RESET (d : Nat) : Field := ⟨0x60000000 + d * 0x40000 + 0x0, 30, 30, 0⟩
/-- `LDSP_CTL.SHADOW` -/
def LDSP_CTL_SHADOW (d : Nat) : Field := ⟨0x60000000 + d * 0x40000 + 0x0, 29, 29, 0⟩
/-- `LDSP_CTL.STEP` -/
def LDSP_CTL_STEP (d : Nat) : Field := ⟨0x60000000 + d * 0x40000 + 0x0, 28, 28, 0⟩
/-- `LDSP_STAT.STATE` -/
def LDSP_STAT_STATE (d : Nat) : Field := ⟨0x60000000 + d * 0x40000 + 0x4, 31, 29, 0⟩
/-- `LDSP_STAT.SH` -/
def LDSP_STAT_SH (d : Nat) : Field := ⟨0x60000000 + d * 0x40000 + 0x4, 28, 28, 0⟩
/-- `LDSP_STAT.IE` -/
def LDSP_STAT_IE (d : Nat) : Field := ⟨0x60000000 + d * 0x40000 + 0x4, 27, 27, 0⟩
/-- `LDSP_STAT.BLKBUSY` -/
def LDSP_STAT_BLKBUSY (d : Nat) : Field := ⟨0x60000000 + d * 0x40000 + 0x4, 26, 26, 0⟩
/-- `LDSP_STAT.FCODE` -/
def LDSP_STAT_FCODE (d : Nat) : Field := ⟨0x60000000 + d * 0x40000 + 0x4, 19, 16, 0⟩
/-- `LDSP_STAT.PC` -/
def LDSP_STAT_PC (d : Nat) : Field := ⟨0x60000000 + d * 0x40000 + 0x4, 13, 0, 0⟩
/-- `LDSP_FLAG.EPOVR` -/
def LDSP_FLAG_EPOVR (d : Nat) : Field := ⟨0x60000000 + d * 0x40000 + 0x8, 4, 4, 0⟩
/-- `LDSP_FLAG.DFAULT` -/
def LDSP_FLAG_DFAULT (d : Nat) : Field := ⟨0x60000000 + d * 0x40000 + 0x8, 3, 3, 0⟩
/-- `LDSP_FLAG.WDOG` -/
def LDSP_FLAG_WDOG (d : Nat) : Field := ⟨0x60000000 + d * 0x40000 + 0x8, 2, 2, 0⟩
/-- `LDSP_FLAG.CFGERR` -/
def LDSP_FLAG_CFGERR (d : Nat) : Field := ⟨0x60000000 + d * 0x40000 + 0x8, 1, 1, 0⟩
/-- `LDSP_FLAG.FAULT` -/
def LDSP_FLAG_FAULT (d : Nat) : Field := ⟨0x60000000 + d * 0x40000 + 0x8, 0, 0, 0⟩
/-- `LDSP_FPC.PC` -/
def LDSP_FPC_PC (d : Nat) : Field := ⟨0x60000000 + d * 0x40000 + 0xC, 13, 0, 0⟩
/-- `LDSP_FADDR.ADDR` -/
def LDSP_FADDR_ADDR (d : Nat) : Field := ⟨0x60000000 + d * 0x40000 + 0x10, 31, 0, 0⟩
/-- `LDSP_CYC.COUNT` -/
def LDSP_CYC_COUNT (d : Nat) : Field := ⟨0x60000000 + d * 0x40000 + 0x14, 31, 0, 0⟩
/-- `LDSP_ACT.COUNT` -/
def LDSP_ACT_COUNT (d : Nat) : Field := ⟨0x60000000 + d * 0x40000 + 0x18, 31, 0, 0⟩
/-- `LDSP_TCMP.CMP` -/
def LDSP_TCMP_CMP (d : Nat) : Field := ⟨0x60000000 + d * 0x40000 + 0x1C, 31, 0, 0⟩
/-- `LDSP_IRQ.TIMER` -/
def LDSP_IRQ_TIMER (d : Nat) : Field := ⟨0x60000000 + d * 0x40000 + 0x20, 3, 3, 0⟩
/-- `LDSP_IRQ.DBELL` -/
def LDSP_IRQ_DBELL (d : Nat) : Field := ⟨0x60000000 + d * 0x40000 + 0x20, 2, 2, 0⟩
/-- `LDSP_IRQ.EPOCH` -/
def LDSP_IRQ_EPOCH (d : Nat) : Field := ⟨0x60000000 + d * 0x40000 + 0x20, 1, 1, 0⟩
/-- `LDSP_IRQ.CLU` -/
def LDSP_IRQ_CLU (d : Nat) : Field := ⟨0x60000000 + d * 0x40000 + 0x20, 0, 0, 0⟩
/-- `LDSP_IRQEN.TIMER` -/
def LDSP_IRQEN_TIMER (d : Nat) : Field := ⟨0x60000000 + d * 0x40000 + 0x24, 3, 3, 0⟩
/-- `LDSP_IRQEN.DBELL` -/
def LDSP_IRQEN_DBELL (d : Nat) : Field := ⟨0x60000000 + d * 0x40000 + 0x24, 2, 2, 0⟩
/-- `LDSP_IRQEN.EPOCH` -/
def LDSP_IRQEN_EPOCH (d : Nat) : Field := ⟨0x60000000 + d * 0x40000 + 0x24, 1, 1, 0⟩
/-- `LDSP_IRQEN.CLU` -/
def LDSP_IRQEN_CLU (d : Nat) : Field := ⟨0x60000000 + d * 0x40000 + 0x24, 0, 0, 0⟩
/-- `LDSP_DBELL.MSG` -/
def LDSP_DBELL_MSG (d : Nat) : Field := ⟨0x60000000 + d * 0x40000 + 0x28, 31, 0, 0⟩
/-- `LDSP_OUTBOX.MSG` -/
def LDSP_OUTBOX_MSG (d : Nat) : Field := ⟨0x60000000 + d * 0x40000 + 0x2C, 31, 0, 0⟩
/-- `LDSP_NIRQ.HALT` -/
def LDSP_NIRQ_HALT (d : Nat) : Field := ⟨0x60000000 + d * 0x40000 + 0x30, 1, 1, 0⟩
/-- `LDSP_NIRQ.OUTBOX` -/
def LDSP_NIRQ_OUTBOX (d : Nat) : Field := ⟨0x60000000 + d * 0x40000 + 0x30, 0, 0, 0⟩
/-- `LDSP_NIRQEN.HALT` -/
def LDSP_NIRQEN_HALT (d : Nat) : Field := ⟨0x60000000 + d * 0x40000 + 0x34, 1, 1, 0⟩
/-- `LDSP_NIRQEN.OUTBOX` -/
def LDSP_NIRQEN_OUTBOX (d : Nat) : Field := ⟨0x60000000 + d * 0x40000 + 0x34, 0, 0, 0⟩
/-- `LDSP_WDOG.EN` -/
def LDSP_WDOG_EN (d : Nat) : Field := ⟨0x60000000 + d * 0x40000 + 0x38, 31, 31, 0⟩
/-- `LDSP_WDOG.KICK` -/
def LDSP_WDOG_KICK (d : Nat) : Field := ⟨0x60000000 + d * 0x40000 + 0x38, 30, 30, 0⟩
/-- `LDSP_WDOG.LIMIT` -/
def LDSP_WDOG_LIMIT (d : Nat) : Field := ⟨0x60000000 + d * 0x40000 + 0x38, 23, 16, 10⟩
/-- `LDSP_WDOG.COUNT` -/
def LDSP_WDOG_COUNT (d : Nat) : Field := ⟨0x60000000 + d * 0x40000 + 0x38, 7, 0, 0⟩

/-- The registers of LDSP by offset, fields with their access codes. -/
def ldspRegs (d ofs : Nat) : List (Field × Acc) :=
  match ofs with
  | 0x0 => [(LDSP_CTL_RUN d, .rw),
      (LDSP_CTL_RESET d, .wo),
      (LDSP_CTL_SHADOW d, .rw),
      (LDSP_CTL_STEP d, .wo)]
  | 0x4 => [(LDSP_STAT_STATE d, .ro),
      (LDSP_STAT_SH d, .ro),
      (LDSP_STAT_IE d, .ro),
      (LDSP_STAT_BLKBUSY d, .ro),
      (LDSP_STAT_FCODE d, .ro),
      (LDSP_STAT_PC d, .ro)]
  | 0x8 => [(LDSP_FLAG_EPOVR d, .w1c),
      (LDSP_FLAG_DFAULT d, .w1c),
      (LDSP_FLAG_WDOG d, .w1c),
      (LDSP_FLAG_CFGERR d, .w1c),
      (LDSP_FLAG_FAULT d, .w1c)]
  | 0xC => [(LDSP_FPC_PC d, .ro)]
  | 0x10 => [(LDSP_FADDR_ADDR d, .ro)]
  | 0x14 => [(LDSP_CYC_COUNT d, .ro)]
  | 0x18 => [(LDSP_ACT_COUNT d, .ro)]
  | 0x1C => [(LDSP_TCMP_CMP d, .rw)]
  | 0x20 => [(LDSP_IRQ_TIMER d, .w1c),
      (LDSP_IRQ_DBELL d, .w1c),
      (LDSP_IRQ_EPOCH d, .w1c),
      (LDSP_IRQ_CLU d, .ro)]
  | 0x24 => [(LDSP_IRQEN_TIMER d, .rw),
      (LDSP_IRQEN_DBELL d, .rw),
      (LDSP_IRQEN_EPOCH d, .rw),
      (LDSP_IRQEN_CLU d, .rw)]
  | 0x28 => [(LDSP_DBELL_MSG d, .rw)]
  | 0x2C => [(LDSP_OUTBOX_MSG d, .rw)]
  | 0x30 => [(LDSP_NIRQ_HALT d, .w1c),
      (LDSP_NIRQ_OUTBOX d, .w1c)]
  | 0x34 => [(LDSP_NIRQEN_HALT d, .rw),
      (LDSP_NIRQEN_OUTBOX d, .rw)]
  | 0x38 => [(LDSP_WDOG_EN d, .rw),
      (LDSP_WDOG_KICK d, .wo),
      (LDSP_WDOG_LIMIT d, .rw),
      (LDSP_WDOG_COUNT d, .ro)]
  | _ => []

/-! ### LDSPG -/

/-- `LDSP_GCTL.CKEN` -/
def LDSP_GCTL_CKEN (g : Nat) : Field := ⟨0x60000000 + g * 0x100000 + 0x40, 31, 31, 1⟩
/-- `LDSP_GCTL.RST` -/
def LDSP_GCTL_RST (g : Nat) : Field := ⟨0x60000000 + g * 0x100000 + 0x40, 30, 30, 0⟩

/-- The registers of LDSPG by offset, fields with their access codes. -/
def ldspGroupRegs (g ofs : Nat) : List (Field × Acc) :=
  match ofs with
  | 0x40 => [(LDSP_GCTL_CKEN g, .rw),
      (LDSP_GCTL_RST g, .rw)]
  | _ => []

/-! ### Band tables (R242) and group control (R165) -/

/-- `PLL_BANDe_0.VALID` -/
def PLL_BAND_VALID (x e : Nat) : Field := ⟨0x40031000 + x * 0x200 + e * 8, 31, 31, if e = 0 ∧ x < 3 then 1 else 0⟩
/-- `PLL_BANDe_0.FMAX` -/
def PLL_BAND_FMAX (x e : Nat) : Field :=
  ⟨0x40031000 + x * 0x200 + e * 8, 28, 16, if e ≠ 0 then 0 else match x with | 0 => 3350 | 1 => 2450 | 2 => 6300 | _ => 0⟩
/-- `PLL_BANDe_0.FMIN` -/
def PLL_BAND_FMIN (x e : Nat) : Field :=
  ⟨0x40031000 + x * 0x200 + e * 8, 12, 0, if e ≠ 0 then 0 else match x with | 0 => 3200 | 1 => 2350 | 2 => 6200 | _ => 0⟩
/-- `PLL_BANDe_1.CAP` -/
def PLL_BAND_CAP (x e : Nat) : Field := ⟨0x40031000 + x * 0x200 + e * 8 + 4, 9, 0, 512⟩

/-- Entry `e` of the band table of synthesiser `x`. -/
def bandRegs (x e ofs : Nat) : List (Field × Acc) :=
  match ofs with
  | 0 => [(PLL_BAND_VALID x e, .rw), (PLL_BAND_FMAX x e, .rw), (PLL_BAND_FMIN x e, .rw)]
  | 4 => [(PLL_BAND_CAP x e, .rw)]
  | _ => []

/-- The synthesiser block: synthesisers, `PLL_RFI`, outputs, bank measurements, band tables (R409). -/
def pllBlockRegs (o : Nat) : List (Field × Acc) :=
  if o < 0x600 then pllRegs (o / 0x100) (o % 0x100)
  else if o < 0xE00 then rfiRegs o
  else if o < 0xF80 then ckoRegs ((o - 0xE00) / 0x20) (0xE00 + (o - 0xE00) % 0x20)
  else if o < 0xF8C then ckoBankRegs ((o - 0xF80) / 4) (0xF80 + o % 4)
  else if 0x1000 ≤ o ∧ o < 0x1C00 then bandRegs ((o - 0x1000) / 0x200) (o % 0x200 / 8) (o % 8)
  else []

/-- The time core block: core, pulses, input. -/
def timBlockRegs (o : Nat) : List (Field × Acc) :=
  if 0x100 ≤ o ∧ o < 0x180 then tpRegs ((o - 0x100) / 0x40) (0x100 + o % 0x40) else timRegs o

/-- The snapshot block: common, handles, clusters. -/
def snpBlockRegs (o : Nat) : List (Field × Acc) :=
  if o < 0x100 then snpRegs o
  else if o < 0x300 then snpHandleRegs ((o - 0x100) / 0x40) (0x100 + o % 0x40)
  else if 0x400 ≤ o ∧ o < 0x600 then snpClusterRegs ((o - 0x400) / 0x20) (0x400 + o % 0x20)
  else []

/-- The integrity block: registers and the three baselines, `n` from 0 for `ITG_BL1`. -/
def itgBlockRegs (o : Nat) : List (Field × Acc) :=
  if 0x40 ≤ o ∧ o < 0x70 then itgBaseRegs ((o - 0x40) / 0x10) (0x40 + o % 0x10) else itgRegs o

/-- One Ethernet port's block; the clock-wide registers lie in the block of `EP0` only. -/
def eptBlockRegs (p o : Nat) : List (Field × Acc) :=
  if o < 0x800 then eptRegs p o
  else if p ≠ 0 then []
  else if 0x810 ≤ o ∧ o < 0x850 then eptSlotRegs ((o - 0x810) / 0x20) (0x810 + (o - 0x810) % 0x20)
  else eptClockRegs o

/-- The event line block. -/
def telBlockRegs (o : Nat) : List (Field × Acc) :=
  if 0x10 ≤ o ∧ o < 0x20 then telBankRegs ((o - 0x10) / 4) (0x10 + o % 4)
  else if 0x20 ≤ o ∧ o < 0x2C then telMapRegs ((o - 0x20) / 4) (0x20 + o % 4)
  else if 0x2C ≤ o ∧ o < 0x38 then telMapRegs ((o - 0x2C) / 4) (0x2C + o % 4)
  else if 0x48 ≤ o ∧ o < 0x54 then telMapRegs ((o - 0x48) / 4) (0x48 + o % 4)
  else if 0x400 ≤ o ∧ o < 0x1C00 then telLineRegs ((o - 0x400) / 0x40) (0x400 + o % 0x40)
  else telRegs o

/-- The custody and loader digests beside their blocks' registers. -/
def cusBlockRegs (o : Nat) : List (Field × Acc) :=
  if 0x10 ≤ o ∧ o < 0x30 then cusDigRegs ((o - 0x10) / 4) (0x10 + o % 4) else cusRegs o

/-- The configuration loader's block. -/
def cflBlockRegs (o : Nat) : List (Field × Acc) :=
  if 0x20 ≤ o ∧ o < 0x40 then cflDigRegs ((o - 0x20) / 4) (0x20 + o % 4) else cflRegs o

/-- The fields of the register at an address, empty where no register is (R400, R409). -/
def regsAt (a : Nat) : List (Field × Acc) :=
  let o := a % 0x10000
  let page := a / 0x10000
  if page < 0x5000 then
    match page with
    | 0x4000 => sysRegs o
    | 0x4001 => supRegs o
    | 0x4002 => rtcRegs o
    | 0x4003 => pllBlockRegs o
    | 0x4004 => timBlockRegs o
    | 0x4005 => if o < 0x800 then slkRegs (o / 0x100) (o % 0x100) else []
    | 0x4006 => if o < 0x400 then fecRegs (o / 0x100) (o % 0x100) else []
    | 0x4007 => snpBlockRegs o
    | 0x4008 => itgBlockRegs o
    | 0x4010 => if o < 0x8000 then eptBlockRegs (o / 0x1000) (o % 0x1000) else []
    | 0x4020 => telBlockRegs o
    | 0x4030 => umbRegs o
    | 0x4031 => cusBlockRegs o
    | 0x4032 => svcRegs o
    | 0x4033 => cflBlockRegs o
    | _ => []
  else if page < 0x5100 then
    let c := (page - 0x5000) / 16
    match page % 16 with
    | 0 => cluRegs c o
    | 1 => engRegs (64 * c + o / 0x400) (o % 0x400)
    | _ => []
  else if 0x6000 ≤ page ∧ page < 0x6040 ∧ page % 4 = 0 then
    let d := (page - 0x6000) / 4
    if o = 0x40 then (if d % 4 = 0 then ldspGroupRegs (d / 4) o else []) else ldspRegs d o
  else []

end Sys2Proof.Machine
end

