-- ==== Sys2Proof/Machine/Parts.lean ====
section
/-! DEFINITION. What each unit of the DQ7104 holds beside its registers: plain records, one for each kind of unit,
whose field defaults are the values after reset. -/

namespace Sys2Proof.Machine

-- ## 02

/-- The settings of `SLK_CFG` in force: the fields other than `EN` are held until `EN` goes from 0 to 1
(R41). -/
structure LinkCfg where
  code   : Nat := 0
  iqswap : Nat := 0
  qinv   : Nat := 0
  agcm   : Nat := 0
  ant    : Nat := 0
  bands  : Nat := 0
  deriving DecidableEq, Repr

/-- What a sample link holds beside its registers (R39–R47, R50). -/
structure LinkSt where
  cfg      : LinkCfg := {}
  /-- delay-line tap of each of the five lanes, `none` before training finds an eye (R41) -/
  taps     : List (Option Nat) := []
  /-- elapsed ns at which each lane's tap last moved (R41) -/
  tapAt    : List Nat := []
  /-- a marker has been received since the alignment restarted (R40, R42), and since the link was brought up -/
  aligned  : Bool := false
  marked   : Bool := false
  /-- a fault has been present in the running frame (R43) -/
  frameF   : Bool := false
  /-- control words counted since the marker (R40) -/
  words    : Nat := 0
  /-- failed words of the frame (R42 CTRL) -/
  badWords : Nat := 0
  /-- the frame held a word with `OVF` = 1 (R42) -/
  ovfSeen  : Bool := false
  /-- consecutive device epochs within ±1 of 204,600 (R42 RATE) -/
  rateOk   : Nat := 0
  /-- data lanes flagged STUCK, one bit each (R42) -/
  stuck    : Nat := 0
  /-- a fault episode is running, the elapsed ns at which it began and at which its last fault ended, and the faults
  seen in it (R44) -/
  episode  : Bool := false
  epAt     : Nat := 0
  freeAt   : Nat := 0
  seen     : Nat := 0
  /-- sum of `UPFR` over the epochs since the last step of the gain, and their number (R45) -/
  upfrSum  : Nat := 0
  upfrN    : Nat := 0
  /-- baseline filter, `BASE` × 2^22 (R47), and the milliseconds of learning -/
  gacc     : Nat := 0
  learnMs  : Nat := 0
  /-- gain code last written to the front-end (R48) -/
  gainSent : Nat := 0
  /-- a gain or calibration write reached the front-end in this epoch (R48) -/
  fecMark  : Bool := false
  deriving DecidableEq, Repr

/-- The kinds of table sequence of a front-end bus (R48). -/
inductive FecKind where
  | wake | sleep | go | cal
  deriving DecidableEq, Repr

/-- What a front-end bus holds beside its registers (R48–R51). -/
structure FecSt where
  running  : Option FecKind := none
  /-- the sequence waits, until the elapsed ns `waitTill` (R49) -/
  waiting  : Bool := false
  waitTill : Nat := 0
  pendWake : Bool := false
  pendSlp  : Bool := false
  pendGo   : Option Nat := none
  pendCal  : Bool := false
  /-- table sequences are held until the navigation core SRAM is reloaded (R51) -/
  hold     : Bool := false
  deriving DecidableEq, Repr

-- ## 03

/-- One complex sample as an engine takes it: its levels (R37), a gap, the flags of its frame and epoch (R43, R48), the
first sample of a device epoch. -/
structure Sample where
  i     : Int
  q     : Int
  gap   : Bool := false
  linkF : Bool := false
  fecw  : Bool := false
  epoch : Bool := false
  deriving DecidableEq, Repr

/-- A set of staged engine registers: `ENG_CFG`, `ENG_CODE`, the rates and the phase sets (R81). -/
structure EngSet where
  src   : Nat := 0
  chid  : Nat := 0
  descA : Nat := 0
  descB : Nat := 0
  crate : Nat := 0
  krate : Nat := 0
  cset  : Bool := false
  cfrac : Nat := 0
  chip  : Nat := 0
  ib    : Nat := 0
  kset  : Bool := false
  kph   : Nat := 0
  deriving DecidableEq, Repr

/-- A committed set that waits for its boundary (R82). -/
structure PendSet where
  set    : EngSet := {}
  any    : Bool := false
  target : Nat := 0
  /-- the target had passed when the commit arrived (R82) -/
  late   : Bool := false
  deriving DecidableEq, Repr

/-- One arm: enable, generator, sub-carrier select and offset in 1/64 chip (R67). -/
structure Arm where
  en  : Bool := false
  gen : Bool := false
  sc  : Nat := 0
  ofs : Int := 0
  deriving DecidableEq, Repr

/-- A running dwell: the loaded program buffer, its position, the loop counters and what is left of the
`ACC` or `SKIP` under way (R69–R71). -/
structure Run where
  prog : List Nat := []
  pc   : Nat := 0
  ctr0 : Nat := 0
  ctr1 : Nat := 0
  left : Option Nat := none
  /-- the next sample is the first of the `ACC` or `SKIP` under way -/
  first : Bool := false
  deriving DecidableEq, Repr

/-- One code generator of an engine: its copy of the descriptor (eight words) and, for a table code, the
blocks of chips its window holds, oldest first, as table words (R58, R63, R64). `bad` says that a fetch of the window
failed while no dwell ran. -/
structure Gen where
  desc   : Option (List Nat) := none
  blocks : List (Nat × List Nat) := []
  bad    : Bool := false
  deriving DecidableEq, Repr

/-- What a channel engine holds beside its registers (ch. 3). The offset base that `ABASE` sets stays from one dwell to the
next, as the arm settings do (DESIGN CHOICE, log entry 16). -/
structure EngSt where
  /-- the values in use; the staging copy is held in the registers -/
  use    : EngSet := {}
  pend   : Option PendSet := none
  /-- engine chip index E, code fraction F, generator B index, carrier phase (R54, R55, R59) -/
  chip   : Nat := 0
  cfrac  : Nat := 0
  ib     : Nat := 0
  kph    : Nat := 0
  genA   : Gen := {}
  genB   : Gen := {}
  arms   : Tbl Arm := []
  accI   : Tbl Int := []
  accQ   : Tbl Int := []
  ncsum  : Tbl Nat := []
  abase  : Int := 0
  run    : Option Run := none
  queue  : List Nat := []
  /-- records that await the ring, at most two (R80); the flag says the record asked for the interrupt -/
  recs   : List (Bool × List Nat) := []
  nsamp  : Nat := 0
  gapn   : Nat := 0
  /-- samples and gaps of the span of the non-coherent sums -/
  ncSamp : Nat := 0
  ncGap  : Nat := 0
  /-- flags of the coherent span and of the non-coherent one, at their places in R78; no sample has been accumulated
  since the last phase set, descriptor change, clock restart or handover -/
  fl     : Nat := 0
  ncFl   : Nat := 0
  fresh  : Bool := false
  /-- the spans hold a sample of the source's running frame, of the running device epoch (R43, R48) -/
  inFrame : Bool := false
  ncInFrame : Bool := false
  inEpoch : Bool := false
  ncInEpoch : Bool := false
  /-- restarts of the cluster clock up to the last record; no record yet since a handover (R73, R88) -/
  restarts : Nat := 0
  migd   : Bool := false
  /-- samples of the replay stream that a refill still misses (R66, R100); elapsed ns of the epoch in which it began, and
  that it began within a pass -/
  refill : Nat := 0
  refillAt : Nat := 0
  refillIn : Bool := false
  /-- an earlier record was dropped -/
  lost   : Bool := false
  /-- target of the migration this engine is the source of (R88) -/
  migTo  : Option Nat := none
  /-- pass origin recorded by a replay run: chip, fraction, IB, carrier phase (R100) -/
  origin : Option (Nat × Nat × Nat × Nat) := none
  /-- samples of the replay pass taken, and a set applied at the boundary that ended the last pass (R100) -/
  rpos   : Nat := 0
  atPass : Option EngSet := none
  deriving DecidableEq, Repr

/-- What a cluster holds beside its registers. -/
structure CluSt where
  /-- the gang in force (R87) -/
  gang    : Bool := false
  /-- a gang change waits for the epoch -/
  gangDue : Bool := false
  /-- a flush waits for the epoch (R65) -/
  flush   : Bool := false
  /-- times the cluster clock has resumed (R73) -/
  restarts : Nat := 0
  /-- engines whose records await the ring, in order of completion; engines of the records the ring holds, oldest first
  (R80) -/
  done    : List Nat := []
  held    : List Nat := []
  deriving DecidableEq, Repr

-- ## 04

/-- A capture handle beside its registers: the settings taken by the `ARM` (R93–R96), with the settings of the link. -/
structure HandleSt where
  len   : Nat := 0
  rate  : Nat := 0
  link  : Nat := 0
  cfg   : LinkCfg := {}
  mix   : Nat := 0
  trig  : Bool := false
  epoch : Nat := 0
  /-- the epoch asked for had passed at the `ARM` (R93) -/
  late  : Bool := false
  /-- credit blocks held, ascending (R95) -/
  cred  : List Nat := []
  /-- epoch count at the trigger, and the time of stored sample 0 after that boundary in 2^-16 ns -/
  count0 : Nat := 0
  sub   : Nat := 0
  /-- epoch count at the `ARM`; phase of the capture mixer at the first sample, 2^-32 cycle, and samples mixed; the last
  of them as the filter holds them (R90, R93) -/
  armedAt : Nat := 0
  phase : Nat := 0
  taken : Nat := 0
  hist  : List (Int × Int) := []
  /-- the frame and the epoch of a stored sample still run (R94) -/
  openF : Bool := false
  openE : Bool := false
  deriving DecidableEq, Repr

/-- A replay run (R98). -/
structure ReplaySt where
  handle : Nat := 0
  start  : Nat := 0
  count  : Nat := 0
  passes : Nat := 0
  org    : Bool := false
  stop   : Bool := false
  /-- a pass of the run has ended -/
  later  : Bool := false
  /-- a pass is under way -/
  inPass : Bool := false
  deriving DecidableEq, Repr

/-- The search map of a cluster: the powers of the row under way and the row to write next (R102, R103). -/
structure MapSt where
  cells : Tbl Nat := []
  done  : List Nat := []
  row   : Nat := 0
  deriving DecidableEq, Repr

-- ## 05

/-- The loop states of a tracked channel (R123). -/
inductive LoopState where
  | pullIn | freq | phase | coast | lost
  deriving DecidableEq, Repr

/-- A follower's carrier-phase difference (R135, R136): antenna, last difference and its last change in 2^-16 cycle, sum
and count of the period, a slip in the period. -/
structure DiffSt where
  ant  : Nat
  last : Int
  step : Int
  sum  : Int
  n    : Nat
  slip : Bool
  deriving DecidableEq, Repr

/-- A record of R77 as loop code reads it; the sums of the 32 arms with their exponent applied. -/
structure DumpRec where
  flags : Nat
  dseq  : Nat
  epoch : Nat
  src   : Nat
  sidx  : Nat
  chip  : Nat
  cfrac : Nat
  kph   : Nat
  nsamp : Nat
  ib    : Nat
  gapn  : Nat
  sums  : List (Int × Int)
  deriving DecidableEq, Repr

/-- What a channel knows of its symbols and codes (R117, R118): the state that a report shows as `SYNC`; the place of
the first sub-dump of a symbol or code, counted modulo its length; the histogram; the last prompt; the signs of the last
prompts, newest first; a rotation that has matched, in how many periods in a row, and the sub-dump it must match at
next. -/
structure SyncSt where
  state : Nat := 0
  edge  : Nat := 0
  bins  : Tbl Nat := []
  last  : Option (Int × Int) := none
  signs : List Bool := []
  match_ : Option (Nat × Nat × Nat) := none
  deriving DecidableEq, Repr

/-- The coherent sum in progress (R115): sums of the arms over the data symbols that have ended, with their signs taken out,
and over the symbol under way; sub-dumps that have passed and that were added, sum of their weights in 2^-16 (R125), one
with `FECW` among them. -/
structure CohSt where
  arms : List (Int × Int) := []
  part : List (Int × Int) := []
  n    : Nat := 0
  used : Nat := 0
  wgt  : Nat := 0
  fecw : Bool := false
  deriving DecidableEq, Repr

/-- Discriminators summed over a loop period, weighted, and their numbers (R115, R119): PLL in 2^-32 cycle, FLL in
2^-32 Hz, DLL in 2^-32 chip. -/
structure DiscSt where
  pll  : Int := 0
  fll  : Int := 0
  dll  : Int := 0
  n    : Nat := 0
  nf   : Nat := 0
  deriving DecidableEq, Repr

/-- The loop filters of a channel (R120, R131, R133), in 2^-32 Hz and 2^-32 chip/s: frequency integrators of the PLL and of
the FLL, the latter's rate, the Doppler estimate, the DLL's integrator, the rate it started from, its output; the part of
the output that removes a coupled channel's error over one span; the last steered Doppler in 2^-8 Hz; the DLL is the
channel's own. -/
structure LoopSt where
  pll  : Int := 0
  fll  : Int := 0
  rate : Int := 0
  est  : Int := 0
  dll  : Int := 0
  base : Int := 0
  v    : Int := 0
  corr : Int := 0
  dop  : Option Int := none
  own  : Bool := true
  deriving DecidableEq, Repr

/-- A tracked channel: the loop state the loop DSP of the engine's cluster keeps for it (ch. 5). -/
structure ChanSt where
  /-- the channel exists -/
  live   : Bool := false
  /-- a `LOREL` frame of its link since the last record (R35); a code-only phase set of its own under way (R125) -/
  lorel  : Bool := false
  ownSet : Bool := false
  cfg    : ChanCfg := {}
  st     : LoopState := .pullIn
  coup   : Bool := false
  /-- decoupled by R131; excluded by the solution (R132); steer stale -/
  excl   : Bool := false
  navEx  : Bool := false
  stale  : Bool := false
  sync   : SyncSt := {}
  /-- sub-dumps since the channel started; milliseconds in the state, of the channel, and since its averages of C/N0 began
  (R122, R123) -/
  k      : Nat := 0
  inMs   : Nat := 0
  life   : Nat := 0
  cnMs   : Nat := 0
  coh    : CohSt := {}
  disc   : DiscSt := {}
  loop   : LoopSt := {}
  /-- the prompt sum before the last, with the sub-dump at which it ended (R119) -/
  prev   : Option (Int × Int × Nat) := none
  /-- newest first, with the epoch count of each: |FLL output| in mHz of the last 50 ms; (Ip, Qp) of the last 100 ms;
  (|P|², |N|²) of the last second (R122, R123) -/
  fll    : List (Nat × Nat) := []
  ipq    : List (Int × Int × Nat) := []
  pn     : List (Nat × Nat × Nat) := []
  cont   : Nat := 0
  slips  : Nat := 0
  /-- continuity has broken since the last difference (R136); in the report period; a `LINKF` record in it (R175) -/
  broke  : Bool := false
  slipP  : Bool := false
  linkP  : Bool := false
  /-- carrier phase since continuity began, 2^-40 cycle, and the samples it covers (R137) -/
  acc    : Int := 0
  accN   : Nat := 0
  /-- code residual and `MPE`, 2^-32 chip (R129, R131) -/
  res    : Int := 0
  mpe    : Int := 0
  /-- magnitudes of the arms over the report period (R129), and very early, very late and prompt powers over coherent
  spans (R128), each with the number of spans -/
  mags   : List Nat := []
  magN   : Nat := 0
  veVl   : Nat × Nat × Nat := (0, 0, 0)
  veN    : Nat := 0
  late   : Nat := 0
  /-- a record has been answered; the last one: sequence, extended epoch, sample index, phases in 2^-48 chip and
  2^-40 cycle, generator B's index (R114, R137, R138); the carrier rate word committed last, and the boundary it was
  committed for -/
  seen   : Bool := false
  dseq   : Nat := 0
  repoch : Nat := 0
  rsidx  : Nat := 0
  rchip  : Nat := 0
  rfrac  : Nat := 0
  rkph   : Nat := 0
  rib    : Nat := 0
  krate  : Nat := 0
  cseq   : Nat := 0
  /-- the last steer entry read whole, as its words (R130) -/
  steer  : Option (List Nat) := none
  diffs  : List DiffSt := []
  /-- reports written (R137 `SEQ`), the last one's words, and code residuals reported in the last second, 2^-16 chip,
  with the epoch count of each, newest first (R132) -/
  rseq   : Nat := 0
  report : List Nat := []
  /-- sub-dumps since the channel started, at that report (R172) -/
  repK   : Nat := 0
  /-- a continuity break, and a `LINKF` record, in the period of that report (R175, R195) -/
  rmark  : Bool × Bool := (false, false)
  resid  : List (Int × Nat) := []
  /-- epoch count at which the channel started -/
  born   : Nat := 0
  /-- the source DSP has handed the block over and stopped committing (R138) -/
  handed : Bool := false
  /-- the loop state block written for, or imported from, a migration (R138) -/
  block  : List Nat := []
  deriving DecidableEq, Repr

/-- What a loop DSP's loop code keeps for all its channels: the elapsed ns of the `LATE` records of the last second,
newest first, and the overload they made (R114); reports written (R137). -/
structure LateSt where
  lates : List Nat := []
  ovld  : Bool := false
  count : Nat := 0
  deriving DecidableEq, Repr

-- ## 06

/-- A loop context (R158). -/
structure LoopCtx where
  armed : Bool := false
  hc : Nat := 0
  hs : Nat := 0
  he : Nat := 0
  deriving DecidableEq, Repr

/-- A write of `HC`, `HS`, `HE` (with its context) or `HSTAT`, by register number, that the loop hardware sees from the
instruction numbered `at_` on (R156). -/
structure LoopWr where
  at_ : Nat
  ctx : Nat
  reg : Nat
  val : Nat
  deriving DecidableEq, Repr

/-- What a result on its way will change: a numbered register, the other copy of one (R161), or a word of X or Y memory
(R156). -/
inductive Dest where
  | reg (n : Nat)
  | copy (n : Nat)
  | x (a : Nat)
  | y (a : Nat)
  deriving DecidableEq, Repr

/-- A result on its way: it lands before the instruction numbered `at_` reads (R156). -/
structure Landing where
  at_  : Nat
  dest : Dest
  val  : Nat
  /-- `SR` and the loop context, as the instruction that issued it saw them (R150, R156) -/
  sr   : Nat := 0
  ctx  : Nat := 0
  deriving DecidableEq, Repr

/-- The readers that see an old value after a write (R156). -/
inductive View where
  | addr (n : Nat) | acc (k : Nat) | flags | sr | mem (sp : DspSpace) (a : Nat)
  deriving DecidableEq, Repr

/-- An old value that one kind of reader still sees until the instruction numbered `until_`. -/
structure Stale where
  until_ : Nat
  view   : View
  old    : Nat
  deriving DecidableEq, Repr

/-- A background block copy (R143): the space and next word it fills, the source address, the words left,
the cycles to the next word and between words, its own instruction. -/
structure BlkSt where
  toY  : Bool := false
  dst  : Nat := 0
  src  : Nat := 0
  left : Nat := 0
  wait : Nat := 0
  gap  : Nat := 1
  pc   : Nat := 0
  deriving DecidableEq, Repr

/-- A store posted to E space (R142): its address and value, its instruction, and the cycles until it reaches its
target. -/
structure PostSt where
  addr : Nat
  val  : Nat
  pc   : Nat
  left : Nat
  deriving DecidableEq, Repr

/-- What a loop DSP holds beside its registers (R146 to R168). -/
structure DspSt where
  pc    : Nat := 0
  /-- where execution goes after the delay slot that comes next: the target of a branch taken, or on (R157) -/
  slot  : Option Nat := none
  /-- `D`, `P`, `K` and `W` registers by register number; accumulators as 72-bit patterns -/
  regs  : Tbl Nat := []
  ac    : Tbl Nat := []
  sr    : Nat := 0
  ipc   : Nat := 0
  isr   : Nat := 0
  hsel  : Nat := 0
  loops : Tbl LoopCtx := []
  /-- the shadow copies by register number, `AC3` under 0x33 (R161) -/
  shadow : Tbl Nat := []
  /-- instructions issued, which numbers results on their way -/
  icnt  : Nat := 0
  land  : List Landing := []
  stale : List Stale := []
  /-- writes of the loop contexts that the loop hardware does not yet see, in their order (R156) -/
  loopWr : List LoopWr := []
  /-- cycles for which the special unit is still busy (R152, R155) -/
  special : Nat := 0
  /-- cycles counted since the last device epoch (R168); cycles of the group clock in a millisecond, as they were last; a
  reset or a clock has changed in the millisecond; RUN was entered or left in it -/
  cycles : Nat := 0
  rate  : Nat := 0
  partly : Bool := false
  mixed : Bool := false
  /-- a `STEP` waits for its instruction; a `WAIT` has not yet ended (R165) -/
  step  : Bool := false
  inWait : Bool := false
  /-- the state to return to from STOPPED (R166), as `LDSP_STAT.STATE` codes it -/
  resume : Option Nat := none
  /-- posted stores and block copies that their target refused: instruction and address (R144) -/
  refused : List (Nat × Nat) := []
  blk   : Option BlkSt := none
  /-- the store queue, oldest first: at most 4 (R142) -/
  stq   : List PostSt := []
  deriving DecidableEq, Repr

-- ## 07

/-- One satellite's ephemeris and clock sets (R177, R178) and its OSNMA state (R179); times are device seconds. -/
structure SatSt where
  /-- the set in use, its reference time and fit interval in s, and whether it is authenticated -/
  used   : Option (List (BitVec 8)) := none
  usedT  : Nat := 0
  fit    : Nat := 0
  auth   : Bool := false
  /-- group-delay terms of its signals in ps, health and accuracy index (R176, R182) -/
  terms  : Tbl Int := []
  healthy : Bool := true
  ura    : Nat := 0
  /-- an accepted newer set that is not yet used (R178) -/
  next   : Option (List (BitVec 8)) := none
  nextT  : Nat := 0
  nextFit : Nat := 0
  nextAuth : Bool := false
  nextTerms : Tbl Int := []
  nextHealthy : Bool := true
  nextUra : Nat := 0
  /-- almanac and its reference time -/
  alm    : Option (List (BitVec 8) × Nat) := none
  /-- SBAS flags it as not to be used (R202) -/
  barred : Bool := false
  /-- the last reception of an LNAV or GLONASS set, for the bit-for-bit comparison -/
  heard  : Option (List (BitVec 8)) := none
  /-- tags received whose key is not yet verified; ADKD 0 of the set in use verified; device second at which ADKD 4 was
  last verified; device second of the last mismatch (R179) -/
  tags   : Nat := 0
  adkd0  : Bool := false
  adkd4  : Option Nat := none
  failAt : Option Nat := none
  /-- the signal codes whose data have yielded the time of week (R118, R172) -/
  tow    : List Nat := []
  deriving DecidableEq, Repr

/-- One entry of a `MEAS` datagram (R195). -/
structure MeasEntry where
  sys : BitVec 8
  sv : BitVec 8
  sig : BitVec 8
  ant : BitVec 8
  flags : BitVec 16
  cn0 : BitVec 16
  pr : BitVec 64
  cp : BitVec 64
  dop : BitVec 32
  lock : BitVec 16
  elev : BitVec 8
  azim : BitVec 8
  deriving DecidableEq, Repr

/-- One measurement of an epoch (R171–R175): its engine, component and antenna, its pseudorange in 2^-32 m and its carrier phase
in 2^-16 cycle where they are valid, and the flags of R195. -/
structure Meas where
  e    : Nat
  sys  : Nat
  sv   : Nat
  sig  : Nat
  k    : Int
  ant  : Nat
  pr   : Option Int
  /-- the pseudorange in 2^-10 m -/
  prw  : Nat
  tow  : Bool
  cp   : Option Int
  half : Bool
  dop  : Int
  cn0  : Nat
  lock : Nat
  elev : Int
  azim : Nat
  used : Bool := false
  rej  : Bool := false
  coup : Bool
  follow : Bool
  slip : Bool
  /-- the coherent span behind it, ms -/
  tcoh : Nat
  deriving DecidableEq, Repr

/-- A channel's carrier ambiguity (R174), good while its slip count stands: N0, and whether its data's polarity is inverted. -/
structure AmbSt where
  sv    : Nat
  sig   : Nat
  slips : Nat
  /-- epoch count at which the channel started -/
  born  : Nat := 0
  n0    : Option Int := none
  inv   : Option Bool := none
  deriving DecidableEq, Repr

/-- What is known of a satellite's transmit time (R172): the epoch count of a report instant, the satellite's time there in 2^-64 ps,
and its change in a ms of device time. -/
structure AnchorSt where
  ep   : Nat
  ts   : Int
  step : Int
  deriving DecidableEq, Repr

/-- UTC as a system broadcasts it (R185): A0 in ps, A1 in 2^-50, reference time in device s. -/
structure UtcSt where
  a0 : Int := 0
  a1 : Int := 0
  t0 : Nat := 0
  deriving DecidableEq, Repr

/-- A survey's average (R188): the sum of the epochs' information matrices in 2^64 / mm², by rows, and of their products with
the positions in 10^-6 m. -/
structure SurveySt where
  info : List Int := []
  vec  : List Int := []
  deriving DecidableEq, Repr

/-- Differences of one satellite and band between two antennas over which their whole cycles stand (R136, R209): the satellite,
the band, the wavelength in 2^-30 m, whether the arc goes on, and sums over its epochs: their number, the directions in 2^-30,
the products of directions by rows, the differences in 2^-32 m, their products with the directions, their squares. -/
structure ArcSt where
  key  : Nat
  band : Nat
  lam  : Int
  live : Bool := true
  n    : Nat := 0
  su   : List Int := []
  suu  : List Int := []
  sy   : Int := 0
  syu  : List Int := []
  syy  : Int := 0
  deriving DecidableEq, Repr

/-- The modes of an entry of physical memory protection (R407). -/
inductive PmpMode where
  | off | tor | na4 | napot
  deriving DecidableEq, Repr

/-- An entry of physical memory protection (R407): its mode, its address in units of 4 bytes, what it permits, and whether it
binds machine mode as well. -/
structure PmpEntry where
  mode : PmpMode := .off
  addr : Nat := 0
  r    : Bool := false
  w    : Bool := false
  x    : Bool := false
  l    : Bool := false
  deriving DecidableEq, Repr

/-- The navigation core at its first instruction (R354): its byte address, machine mode, the 16 entries of physical memory
protection, all OFF, and interrupts. -/
structure NavBoot where
  pc      : Nat := 0
  machine : Bool := true
  pmp     : List PmpEntry := List.replicate 16 {}
  irq     : Bool := false
  deriving DecidableEq, Repr

/-- What the navigation core holds (ch. 7): position, survey, satellite sets, announcements, last solution,
and what it has seen of a bus error (R406). -/
structure NavSt where
  running  : Bool := false
  /-- how it started (R354, R357) -/
  boot     : NavBoot := {}
  /-- words of the solution parameter block as read at the start; an unreadable one is absent (R191) -/
  par      : List (Option Nat) := []
  /-- the start was cold 0, warm 1, hot 2 (R107, R194) -/
  start    : Nat := 0
  /-- a store or load access fault taken: `mcause` and `mtval` (R406) -/
  mcause   : Option Nat := none
  mtval    : Nat := 0
  sats     : Tbl SatSt := []
  /-- sets refused by the consistency check; elapsed ns of the last one, and of the last leap disagreement (R200) -/
  refused  : Nat := 0
  ephrefAt : Option Nat := none
  leapdisAt : Option Nat := none
  /-- a leap announcement heard once: kind, TAI second, device second of its reception; the accepted one (R181) -/
  leapHeard : Option (Nat × Nat × Nat) := none
  /-- UTC − TAI heard from the `UTCREF` system, and its device second (R181, R230) -/
  utcHeard : Option (Int × Nat) := none
  leapAcc  : Option (Nat × Nat) := none
  /-- another system's announcement heard last: kind and TAI second -/
  leapOther : Option (Nat × Nat) := none
  /-- the GPS week kept, and whether a 13-bit week gave it (R180) -/
  week     : Nat := 2340
  week13   : Bool := false
  /-- by system: UTC parameters, time against GPS time in ps, ionosphere parameters with their device s (R176) -/
  utc      : Tbl UtcSt := []
  offs     : Tbl Int := []
  iono     : Tbl (List (BitVec 8) × Nat) := []
  /-- the verified OSNMA public key; the last verified TESLA key and its time (R179) -/
  osPub    : Option (List (BitVec 8)) := none
  osKey    : Option (List (BitVec 8) × Nat) := none
  /-- position mode: 0 SURVEY, 1 FIXED, 2 FREE; the estimated or surveyed position in mm; survey results (R188) -/
  posMode  : Nat := 0
  pos      : Option (Int × Int × Int) := none
  /-- the position of FREE mode, which is never sealed or fixed; one kept for aiding only, and its class: 0 none, 1 coarse,
  2 fine (R188, R193) -/
  freePos  : Option (Int × Int × Int) := none
  aidPos   : Option (Int × Int × Int) := none
  aidClass : Nat := 0
  surveyed : Bool := false
  metAcc   : Bool := false
  surveyMs : Nat := 0
  svSum    : SurveySt := {}
  /-- the 3D standard deviation of the position in mm, and the last velocity in 10^-6 m/s -/
  posAcc   : Nat := 0
  vel      : Int × Int × Int := (0, 0, 0)
  /-- epochs of the last 10 s with an unconstrained position in mm: elapsed ns, speed in 2^-32 of 10^-6 m/s, position; newest
  first (R189) -/
  epochs   : List (Nat × Nat × (Int × Int × Int)) := []
  /-- motion flags and the elapsed ns of the last known value (R189) -/
  moving   : Bool := true
  displaced : Bool := false
  movAt    : Option Nat := none
  /-- last accepted solution: satellites, σ, δ, drift, TDOP and its epoch count (R196) -/
  nsv      : Nat := 0
  sigma    : Nat := 0
  delta    : Int := 0
  drift    : Int := 0
  tdop     : Nat := 0
  solAt    : Option Nat := none
  /-- every satellite is in NOTIME (R179) -/
  notime   : Bool := true
  /-- R173 -/
  rxofs    : Int := 0
  /-- the last report instant: epoch count and device time; the first one with a channel since the start (R197) -/
  repEp    : Nat := 0
  repT     : Nat := 0
  /-- the report period of that instant, ms (R137, R195) -/
  repPer   : Nat := 20
  firstEp  : Option Nat := none
  /-- the measurements of an epoch, in `MEAS` order, and their report instant (R171–R175, R195) -/
  meas     : List Meas := []
  measEp   : Option Nat := none
  measT    : Nat := 0
  anchors  : Tbl AnchorSt := []
  /-- by channel identifier -/
  ambs     : Tbl AmbSt := []
  /-- a solution has been accepted since the start, and its position was FIXED (R195) -/
  solved   : Bool := false
  /-- lead antenna of the groups at the last evidence record, and whether the groups met `WGRP` (R208) -/
  lead     : Nat := 0
  groupsOk : Bool := false
  /-- the codes of every band in which a pair was evaluated at that record, by pair: N, G, C, R, M, band, AZS (R208, R210) -/
  woadEv   : List (List (List Nat)) := []
  /-- by antenna, the elapsed ns at which a baseline survey began, and the arcs of its differences (R209) -/
  survAt   : Tbl Nat := []
  arcs     : Tbl (List ArcSt) := []
  /-- the assisted-acquisition list: signals that a lost or ended channel left (R109, R123) -/
  assist   : List ChanCfg := []
  /-- values of the burst's fixes without WARN or FAIL: δ, σ, drift, epoch (R186) -/
  fixes    : List (Int × Nat × Int × Nat) := []
  deriving DecidableEq, Repr

/-- The mordant set's writer (R192–R194): the copy that a write under way goes to, a request that arrived during it, a
request that waits. -/
structure MordantSt where
  busy  : Option Nat := none
  again : Bool := false
  req   : Bool := false
  deriving DecidableEq, Repr

-- ## 08

/-- A fix burst (R215, R216, R306). -/
structure BurstSt where
  active  : Bool := false
  /-- the array has been released to the burst -/
  released : Bool := false
  /-- elapsed ns at which it started, and the wake tick -/
  startAt : Nat := 0
  wakeTick : Nat := 0
  /-- the burst has had a clean fix, a fix with WARN, a fix with the drift off (R201, R215) -/
  clean   : Bool := false
  warn    : Bool := false
  warned  : Bool := false
  /-- a fix that qualifies by R216 has been judged since `BLEN` -/
  qualified : Bool := false
  deriving DecidableEq, Repr

/-- What the integrity block and the custody core's judgement hold (ch. 8). -/
structure ItgSt where
  /-- consecutive fixes without FAIL, consecutive clean fixes (R204) -/
  recovN  : Nat := 0
  cleanN  : Nat := 0
  /-- consecutive bursts with the drift off, and since when in continuous tracking (R201) -/
  driftN  : Nat := 0
  driftAt : Option Nat := none
  /-- consecutive inconsistent and one-direction evaluations, by pair × 4 + band (R210) -/
  incN    : Tbl Nat := []
  oneN    : Tbl Nat := []
  /-- elapsed ns of the last woad FAIL, and a woad PASS since (R205) -/
  woadFail : Option Nat := none
  woadPass : Bool := false
  /-- elapsed ns of the last clean fix and of the last fix (R204), and of the entry into continuous tracking -/
  cleanAt : Nat := 0
  cleanOld : Nat := 0
  fixAt   : Nat := 0
  contAt  : Nat := 0
  /-- device time (2^-64 ns) and elapsed ns at which the state was entered; device time of the last evaluation
  (R214, R442) -/
  entered : Nat := 0
  enteredUp : Nat := 0
  /-- elapsed ns of the last change of code, and the code in force before the changes of that clock (R207) -/
  chgUp   : Nat := 0
  chgFrom : Nat := 0
  /-- the last change of code by the integrity block: elapsed ns and code (R207) -/
  blk     : Option (Nat × Nat) := none
  evalT   : Nat := 0
  /-- `SEQ` of the last record judged (R200) -/
  lastSeq : Nat := 0
  /-- woad entries of the last record: N, C, R, verdict, band (R214) -/
  woad    : List (Nat × Nat × Nat × Nat × Nat) := []
  /-- elapsed ns of the first cross-check difference beyond the bound (R443) -/
  xnote   : Option Nat := none
  /-- for each link, the spans of elapsed ns in which `GDEV` or `PULSE` stood, newest first (R201) -/
  ifer    : Tbl (List (Nat × Nat)) := []
  /-- surveyed baselines in mm, by antenna (R209) -/
  surv    : Tbl (Int × Int × Int) := []
  /-- heading, pitch, roll and their validity (R214); the attitude stored (R201, R209); a survey has found the array turned
  from it (R201) -/
  att     : Nat × Int × Int := (0, 0, 0)
  attV    : Bool := false
  attSt   : Option (Nat × Int × Int) := none
  turned  : Bool := false
  /-- baseline surveys have been restarted: a baseline stored before is not usable (R193) -/
  survRe  : Bool := false
  /-- a clear of `RELOC` by the owner, and the record of a set, wait for the end of BRACE, since the record write does (R205,
  R345) -/
  relocClr : Bool := false
  relocSet : Bool := false
  /-- only the minimum service set works (R29); below it (R30) -/
  minSet  : Bool := false
  below   : Bool := false
  /-- an interval in seconds whose `RTC_WAKE` write BRACE has held off, and the tick it counts from (R215) -/
  wakePend : Option (Nat × Option Nat) := none
  burst   : BurstSt := {}
  deriving DecidableEq, Repr

-- ## 09

/-- A correction offered to the servo and not yet applied (R218, R224, R225). -/
structure FixPend where
  delta : Int := 0
  sigma : Nat := 0
  drift : Int := 0
  /-- epoch count of the stamp -/
  stamp : Nat := 0
  fonly : Bool := false
  /-- 0 GNSS, 1 and 2 the PTP slots, 3 `TPI` -/
  src   : Nat := 0
  /-- the how manieth whole second to come it applies at, from 1 -/
  at_   : Nat := 1
  deriving DecidableEq, Repr

/-- A load that waits for its boundary (R221). -/
structure LoadPend where
  t     : Nat := 0
  epoch : Nat := 0
  err   : Nat := 0
  src   : Nat := 0
  deriving DecidableEq, Repr

/-- The servo settings in force (R220, R224, R225). -/
structure ServoSet where
  tslew   : Nat := 10
  slewmax : Nat := 200
  gf      : Nat := 128
  deriving DecidableEq, Repr

/-- A pulse setting (R231). -/
structure TpSet where
  en    : Bool := false
  pol   : Bool := false
  scale : Nat := 0
  qual  : Nat := 0
  per   : Nat := 1000
  wid   : Nat := 100000
  ofs   : Int := 0
  deriving DecidableEq, Repr

/-- One leading edge computed for a coming second: its ideal instant in 2^-64 ns, its residual in ps (R232), and whether
it is reported (R234). -/
structure TpEdge where
  t   : Nat := 0
  res : Int := 0
  rep : Bool := false
  deriving DecidableEq, Repr

/-- What a time pulse output holds beside its registers (R231–R236). -/
structure TpSt where
  set     : TpSet := {}
  /-- the level driven at the ball (R231, R414) -/
  pin     : Bool := false
  /-- device second at which the written setting takes effect -/
  due     : Option Nat := none
  /-- the second composed last and the edges still to come -/
  composed : Option Nat := none
  edges   : List TpEdge := []
  /-- the first second that is composed after a load (R234) -/
  first   : Nat := 0
  /-- no leading edge before this instant (2^-64 ns) -/
  notBefore : Nat := 0
  /-- instant of the last trailing edge -/
  lastTrail : Nat := 0
  trailAt : Option Nat := none
  /-- the next message is the first under a new setting; the first after the step; the next edge keeps its distance from
  the last trailing edge after a step, a leap or a move backwards (R223, R236) -/
  newSet  : Bool := false
  stepped : Bool := false
  align   : Bool := false
  /-- payload of the last `TP-NEXT` composed, until it is sent (R234, R235) -/
  msg     : Option (List (BitVec 8)) := none
  deriving DecidableEq, Repr

/-- What the time pulse input holds beside its registers (R237, R238). -/
structure TpiSt where
  /-- elapsed ns at the enable, and at the last usable edge -/
  enabledAt : Nat := 0
  usedAt  : Option Nat := none
  /-- x of the last usable edges, newest first, at most 16 -/
  xs      : List Int := []
  /-- device second for which a correction has been offered -/
  offered : Nat := 0
  deriving DecidableEq, Repr

/-- What the time core holds beside its registers (ch. 9). Device time is counted in 2^-64 ns. -/
structure TimSt where
  /-- device time at the last epoch boundary, load or step -/
  t       : Nat := 0
  /-- elapsed time since the cold start, in ns of the time-core clock -/
  up      : Nat := 0
  /-- device second whose second-driven actions have run -/
  secDone : Option Nat := none
  /-- the reference is absent (R246) -/
  refLost : Bool := false
  /-- settings in force, and the ones written, each with the how manieth whole second to come it applies at (R220) -/
  ocomp   : Int := 0
  ocompDue : List (Nat × Int) := []
  aging   : Int := 0
  agingDue : List (Nat × Int) := []
  agingAcc : Int := 0
  servo   : ServoSet := {}
  servoDue : List (Nat × ServoSet) := []
  fixes   : List FixPend := []
  step    : Option FixPend := none
  load    : Option LoadPend := none
  /-- remaining correction Q and the whole correction added at the last whole second, in 2^-48 s; the slew of the
  correction under way, and the part of it applied in the running second -/
  q       : Int := 0
  corr    : Int := 0
  slew    : Int := 0
  applied : Int := 0
  /-- a slew is under way (R224) -/
  slewing : Bool := false
  /-- past changes of the slew: epoch count, whole correction then, correction per second from then, newest
  first -/
  hist    : List (Nat × Int × Int) := []
  /-- moves of device time by loads: epoch count and move in ps, newest first (R222, R228) -/
  moves   : List (Nat × Int) := []
  /-- epoch count of the last load or step -/
  movedAt : Nat := 0
  /-- device time before and after the last load or step, if it moved it forward (R285, R288) -/
  jump    : Option (Nat × Nat) := none
  /-- δ predicted at the last applied fix, with the correction then (R226) -/
  dfix    : Int := 0
  dcorr   : Int := 0
  /-- E0 in ps; `none` while the error is not known; elapsed ns of the last applied fix, load or step -/
  e0      : Option Nat := none
  e0At    : Nat := 0
  /-- elapsed ns of the last applied fix, if there is one (`TIM_HAGE`) -/
  fixAt   : Option Nat := none
  /-- biases of the scales in force, by code (R229) -/
  bias    : Tbl Int := []
  /-- the last whole second latched with `TIM_RTCL_*`, and `TERR` at it (R442) -/
  rtclSec : Nat := 0
  rtclErr : Nat := 0xFFFFFFFF
  /-- the step of this cold start has been asked for (R222) -/
  stepAsked : Bool := false
  deriving DecidableEq, Repr

-- ## 10

/-- A synthesiser's target (R241). -/
structure PllTarget where
  rdiv : Nat := 1
  n    : Nat := 0
  num  : Nat := 0
  den  : Nat := 1
  deriving DecidableEq, Repr

/-- What a synthesiser holds beside its registers (R243–R249). -/
structure PllSt where
  /-- target of the last lock, last committed target, target taken at a `GO` that waits for its second (R248) -/
  lock    : PllTarget := {}
  commit  : PllTarget := {}
  staged  : Option PllTarget := none
  /-- edges in MHz of the band in use, and of every valid entry of the band table, as they were at the lock (R242) -/
  edges   : Nat × Nat := (0, 0)
  table   : List (Option (Nat × Nat)) := []
  /-- a relock waits for its second (R405) -/
  relockDue : Bool := false
  /-- phase offset taken at the lock, in ps (R245) -/
  phofs   : Int := 0
  /-- follow term in force, 2^-48, and whether the synthesiser follows (R249) -/
  follow  : Int := 0
  following : Bool := false
  /-- waiting for the reference after a loss of it (R246) -/
  noRef   : Bool := false
  /-- elapsed ns at which a loss of `PLL_A` began (R246) -/
  lossAt  : Option Nat := none
  deriving DecidableEq, Repr

/-- An output setting (R250, R251). -/
structure CkoSet where
  en   : Bool := false
  fmt  : Nat := 1
  lvl  : Nat := 0
  act  : Bool := false
  odiv : Nat := 500
  deriving DecidableEq, Repr

/-- What a clock output holds beside its registers (R250, R252). -/
structure CkoSt where
  set     : CkoSet := {}
  due     : Bool := false
  /-- a compliance episode is running -/
  episode : Bool := false
  deriving DecidableEq, Repr

-- ## 11

/-- A foreign master heard on a port (R260, R262): its last Announce and the elapsed ns of the last two. -/
structure Foreign where
  msg   : PtpMsg
  at1   : Nat := 0
  at2   : Option Nat := none
  deriving DecidableEq, Repr

/-- What a port holds for one domain slot (R262–R268). Instants are in 2^-64 ns of device time. -/
structure PortSlot where
  /-- a two-step Sync that waits for its Follow_Up: sequence, ingress time less its correction, elapsed ns -/
  sync    : Option (Nat × Int × Nat) := none
  /-- the outstanding Delay_Req: sequence, egress time, elapsed ns -/
  dreq    : Option (Nat × Int × Nat) := none
  /-- ingress time less origin and corrections of the last Sync, for the E2E delay -/
  lastMs  : Option Int := none
  foreign : List Foreign := []
  /-- elapsed ns at which PRE_MASTER ends (R260) -/
  qualAt  : Nat := 0
  /-- sequence counts by message type (R265) -/
  seqs    : Tbl Nat := []
  /-- the outstanding Pdelay_Req: sequence, egress time t1, elapsed ns; and its Pdelay_Resp, awaiting its follow-up:
  t4, t2 and corrections -/
  preq    : Option (Nat × Int × Nat) := none
  presp   : Option (Int × Int × Int) := none
  deriving DecidableEq, Repr

/-- A copy held for an egress port: its buffer, the message, its ingress time in 2^-64 ns (R266, R267). -/
structure Copy where
  buf     : Nat
  msg     : PtpMsg
  ingress : Int
  deriving DecidableEq, Repr

/-- What a port holds beside its registers. -/
structure PortSt where
  a       : PortSlot := {}
  b       : PortSlot := {}
  /-- copies held for the port, oldest first -/
  copies  : List Copy := []
  /-- GETs answered in the device second (R275) -/
  gets    : Nat := 0
  /-- datagrams sent by type (R273 `SEQ`) -/
  sent    : Tbl Nat := []
  deriving DecidableEq, Repr

/-- A domain slot's servo (R268–R271). -/
structure SlotSt where
  /-- offsets held, newest first, in ps, with the elapsed ns of each -/
  samples : List (Int × Nat) := []
  /-- port in SLAVE state, and the last Announce of its parent -/
  port    : Option Nat := none
  parent  : Option PtpMsg := none
  /-- elapsed ns since which the slot has been LOCKED, and has met the condition of AUTO -/
  lockAt  : Option Nat := none
  condAt  : Option Nat := none
  /-- δ of the slot at the device seconds at which it was LOCKED, newest first, at most 16, each with its elapsed ns
  (R271) -/
  hist    : List (Nat × Int) := []
  deriving DecidableEq, Repr

/-- What the template of `IDENT` holds while the navigation core is stopped (R25, R274): the fields that a soft start can change,
as they were when the core stopped. -/
structure IdentHeld where
  dig0    : Nat := 0
  dig1    : Nat := 0
  vers    : Nat := 0
  retired : Nat := 0
  deriving DecidableEq, Repr

/-- The PTP engine and the status transmitter, beyond single ports. -/
structure NetSt where
  /-- free forwarding buffers, and for each buffer in use the copies left (R267) -/
  free    : Nat := 256
  bufs    : Tbl Nat := []
  nextBuf : Nat := 0
  /-- elapsed ns of the last load the engine wrote (R270) -/
  loadAt  : Option Nat := none
  /-- `TDROLE` MEMBER in force (R278) -/
  member  : Bool := false
  /-- a switch of the source slot has been refused and is still wanted (R271) -/
  swRef   : Bool := false
  /-- latest datagram payloads by type code; for TP-NEXT by type × 16 + output, for MEAS every part -/
  latest  : Tbl (List (List (BitVec 8))) := []
  /-- last TIME payload the navigation core sent (R197) -/
  lastTime : List (BitVec 8) := []
  /-- the template of `IDENT`, from the stop of the navigation core to its next start (R274) -/
  ident   : Option IdentHeld := none
  /-- entries and highest severity since the last UMBER-SUM (R277) -/
  umbNew  : Nat := 0
  umbSev  : Nat := 0
  /-- the navigation core has run since the cold start: status datagrams are on (R25) -/
  stsOpen : Bool := false
  deriving DecidableEq, Repr

-- ## 12

/-- A held copy of a schedule entry: its index and its four words, or a double-bit error in the fetch
(R282, R284, R285). -/
structure EntryCopy where
  idx : Nat := 0
  w0  : Nat := 0
  w1  : Nat := 0
  w2  : Nat := 0
  w3  : Nat := 0
  bad : Bool := false
  /-- due less than 1 µs after the entry two places before it (R285) -/
  near : Bool := false
  deriving DecidableEq, Repr

/-- What a timed event line holds beside its registers (ch. 12). -/
structure LineSt where
  copies  : List EntryCopy := []
  /-- index the next fetch reads; `none` after an `END` or a stop -/
  fetchAt : Option Nat := none
  /-- device time (2^-64 ns) at which the head entry reached the head -/
  headAt  : Nat := 0
  /-- due times of the last entry fetched and of the one before it (R285) -/
  due1    : Option Nat := none
  due2    : Option Nat := none
  /-- stopped by a chain error until `PTR` is written -/
  stopped : Bool := false
  /-- end of the pulse in progress, in elapsed ns, and the level the line takes then (R444) -/
  pulseTo : Option Nat := none
  after   : Bool := false
  /-- index of the `OPEN` entry that left the window DENIED (R290) -/
  openIdx : Nat := 0
  /-- elapsed ns at which the window opened, and of the fall that made it HELD (R291) -/
  openAt  : Nat := 0
  fallAt  : Nat := 0
  /-- stamps held, oldest first: TV96 and falling (R292) -/
  fifo    : List (Nat × Bool) := []
  /-- stamps lost in the overflow episode running, if one is -/
  lost    : Option Nat := none
  /-- elapsed ns at which the last Aelud word ended, if one was sent (R296) -/
  wordEnd : Option Nat := none
  deriving DecidableEq, Repr

/-- What a bank of lines holds beside its register: drivers on, and elapsed ns since `VERR` is clear
(R280, R433). -/
structure BankSt where
  drivers : Bool := false
  measured : Bool := false
  clearAt : Nat := 0
  deriving DecidableEq, Repr

-- ## 13

/-- What the always-on domain holds beside its registers (ch. 13). -/
structure RtcSt where
  /-- `RTC_TICK` -/
  tick    : Nat := 0
  /-- crystal edges in the trim window, and the trim of the window (R302) -/
  edge    : Nat := 0
  trim    : Int := 0
  /-- staged top bit and committed value of the seconds (R301) -/
  secTop  : Nat := 0
  secVal  : Option Nat := none
  /-- writes that wait for the next tick: address, word, and whether the seal held for it (R303, R405) -/
  todo    : List (Nat × Nat × Bool) := []
  /-- trimmed tick from which the wake period counts, in force since the write (R304) -/
  wakeBase : Nat := 0
  /-- ticks counted for the period: they differ from `RTC_TICK` when the seconds are set -/
  run     : Nat := 0
  /-- the correction of R302 made at the edge counted last, and one that a commit of the seconds moved to the next edge
  (R307) -/
  last    : Int := 0
  owe     : Int := 0
  /-- the comparator's interface lock (R303) -/
  lock    : Bool := true
  /-- the domain is held in reset (R310) -/
  inReset : Bool := false
  /-- the crystal stands still (R310) -/
  stopped : Bool := false
  deriving DecidableEq, Repr

-- ## 14

/-- What the supply monitor and the starts hold beside the registers (ch. 14, 16, R27). -/
structure SupSt where
  /-- rails up and `RST_N` high: the part is powered; held in reset -/
  powered : Bool := false
  rstLow  : Bool := false
  /-- causes present: `PFW_N` low, `VDD_IO33` low, `VDD_CORE` low (R314) -/
  pfw     : Bool := false
  io33    : Bool := false
  core    : Bool := false
  /-- `VDD_IO33` below 2.95 V, the level that the release of a cold start asks (R320) -/
  ioShort : Bool := false
  /-- causes that took part in the current BRACE -/
  cPfw    : Bool := false
  cIo33   : Bool := false
  cCore   : Bool := false
  /-- elapsed ns at which BRACE began, at which the supply last became stable -/
  braceAt : Nat := 0
  stableAt : Option Nat := none
  warnEnd : Nat := 0
  /-- the array is gated for BRACE (R317) -/
  arrayOff : Bool := false
  /-- elapsed ns at which the temperature last was above 100 °C; an episode runs (R323) -/
  hotAt   : Nat := 0
  hotEp   : Bool := false
  /-- the highest temperature of the episode, in 0.25 °C -/
  hotMax  : Int := 0
  /-- a cold start is due, and the soft starts that wait (R27): causes as bits of `SYS_START.CAUSE` -/
  coldDue : Bool := false
  softDue : Nat := 0
  deriving DecidableEq, Repr

-- ## 15

/-- An umber entry before it has a sequence number (R327, R338–R340). -/
structure UEntry where
  time : Nat := 0
  typ  : Nat := 0
  src  : Nat := 0
  sev  : Nat := 0
  pay  : Nat := 0
  /-- goes to area S (R333) -/
  areaS : Bool := false
  deriving DecidableEq, Repr

/-- A commit under way (R329): its slot, its sequence, the entry. -/
structure Commit where
  slot : Nat := 0
  seq  : Nat := 0
  e    : UEntry := {}
  deriving DecidableEq, Repr

/-- What the umber controller and the custody core's queue hold beside the registers (ch. 15). -/
structure UmbSt where
  queue  : List UEntry := []
  /-- entries lost since the queue filled (R334) -/
  lost   : Nat := 0
  commit : Option Commit := none
  /-- first-zone slots that hold a valid entry (R331) -/
  first  : Nat := 0
  /-- request count expected next (R333) -/
  reqNext : Option Nat := none
  /-- a summary fell due in a soft start and waits for its end (R336) -/
  sumDue : Bool := false
  /-- device seconds of the last summary, and minute of the last snapshot -/
  sumAt  : Option Nat := none
  snapAt : Option Nat := none
  /-- a snapshot is due: a fall of trust or a woad FAIL (R337) -/
  snapDue : Bool := false
  /-- newest entry committed: sequence, time, type, severity (R277) -/
  newest : Option (Nat × Nat × Nat × Nat) := none
  /-- slots found damaged by the scan or since (R330, R335) -/
  bad    : List Nat := []
  /-- continuations of the snapshot in the queue or under way, and whether its header is committed (R337) -/
  snap   : List UEntry := []
  snapOn : Bool := false
  deriving DecidableEq, Repr

-- ## 16

/-- Where a start stands (R27, R30, R352, R354, R357). -/
inductive Phase where
  /-- no power, or held in reset -/
  | off
  /-- cold start released, not yet begun -/
  | released
  /-- stopped for good: the ROM digest failed, or the identity is not valid -/
  | dead
  /-- waiting for a reference class (R240), for `PLL_A` (R30), for the end of BRACE (R314) -/
  | rfi | pllA | braceWait
  /-- the configuration walk runs -/
  | walk
  /-- running; with only the minimum service set -/
  | run | minimum
  deriving DecidableEq, Repr

/-- The configuration walk (R349–R353, R358). -/
structure WalkSt where
  /-- the mirror is walked; the walk is filtered -/
  mirror : Bool := false
  soft   : Bool := false
  len    : Nat := 0
  rblk   : Nat := 0
  /-- word index of the next record among the record words -/
  pos    : Nat := 0
  recs   : Nat := 0
  /-- elapsed ns at its begin -/
  at_    : Nat := 0
  /-- a `WAIT` is under way; it polls -/
  waiting : Bool := false
  polls  : Bool := false
  /-- the last walk was a clean walk of the active image (R361); the digest of the image walked -/
  clean  : Bool := false
  digest : Nat := 0
  vers   : Nat := 0
  /-- the mirror is being rewritten; the new sealed digest follows it (R353, R356) -/
  rewrite : Bool := false
  activate : Bool := false
  /-- the part keeps the mirror in use until the next cold start (R359) -/
  keepMirror : Bool := false
  deriving DecidableEq, Repr

/-- The custody record in force (R344). -/
structure CustodyRec where
  sealed_ : Bool := false
  posv   : Bool := false
  ulock  : Bool := false
  reloc  : Bool := false
  pendv  : Bool := false
  first  : Bool := false
  mirv   : Bool := false
  gen    : Nat := 0
  ctr    : Nat := 0
  fail   : Nat := 0
  key    : Nat := 0
  sdig   : Nat := 0
  pdig   : Nat := 0
  spos   : Int × Int × Int := (0, 0, 0)
  mlen   : Nat := 0
  mdig   : Nat := 0
  deriving DecidableEq, Repr

/-- The custody core (ch. 16): the record in force and the copy that holds it, the challenge, the session. -/
structure CusSt where
  phase  : Phase := .off
  rec_   : CustodyRec := {}
  copyB  : Bool := false
  reopened : Bool := false
  /-- nonce of the valid challenge -/
  chal   : Option Nat := none
  /-- elapsed ns of the challenge, of the last command (R360, R364) -/
  chalAt : Nat := 0
  cmdAt  : Nat := 0
  /-- counted since the back-off began: crystal edges, and ns on `IRC` while `XOFAIL` was set (R365) -/
  waitEdges : Nat := 0
  waitNs : Nat := 0
  /-- the session is the one in which the first `SEAL` was made (R333) -/
  firstSession : Bool := false
  /-- the navigation watchdog has reached its limit since the last kick; elapsed ns of the soft starts by it (R359) -/
  nwDone : Bool := false
  nwdog  : List Nat := []
  /-- the entries of a start that finds the always-on domain changed wait for its interface (R303, R310); the reasons of a
  start that has ended wait to be cleared (R306) -/
  aonDue : Bool := false
  reasonDone : Bool := false
  /-- failed lock attempts of `PLL_A` in a row, and of the classification (R30) -/
  lockFails : Nat := 0
  /-- what the start found outside: the flash's density in MiB, whether its erases leave sectors blank, and the
  sector of a copy whose second read-back fails -/
  mib    : Nat := 0
  blankOk : Bool := true
  copyFail : Option Nat := none
  copyAgain : List Nat := []
  /-- `TEST_EN` was high at the release of reset: no service, and nothing is written to the MRAM (R428) -/
  testEn : Bool := false
  walk   : WalkSt := {}
  deriving DecidableEq, Repr

-- ## 17

/-- A `PARTMAP` entry (R384): part type, image offset in 4,096, length, version. -/
structure PartMap where
  ptype : Nat := 0
  iofs  : Nat := 0
  len   : Nat := 0
  ver   : Nat := 0
  deriving DecidableEq, Repr

/-- The state a replay of the journal gives (R383–R386), with the pending run (R391). -/
structure JrnlSt where
  /-- recovered and usable -/
  ok      : Bool := false
  sector  : Nat := 0
  next    : Nat := 1
  gen     : Nat := 1
  jseq    : Nat := 0
  parts   : List PartMap := []
  newParts : List PartMap := []
  /-- the open transfer: identifier, container length, received runs (first page, pages) -/
  open_   : Option (Nat × Nat) := none
  runs    : List (Nat × Nat) := []
  pending : Option (Nat × Nat) := none
  /-- the staged image: length and first 8 octets of its digest -/
  staged  : Option (Nat × Nat) := none
  actreq  : Bool := false
  copyBeg : Option Nat := none
  copied  : List Nat := []
  intents : List (Nat × Nat) := []
  /-- identifiers whose transfer has ended -/
  ended   : List Nat := []
  /-- an activation has been refused at a cold start (R369) -/
  refused : Bool := false
  deriving DecidableEq, Repr

/-- A repair under way (R397, R398). -/
structure RepairSt where
  force  : Bool := false
  /-- `SEQ` of the command to answer -/
  seq    : Nat := 0
  count  : Nat := 0
  /-- elapsed ns at which it began -/
  at_    : Nat := 0
  deriving DecidableEq, Repr

/-- The service link, its command queue and the command in execution (ch. 17). -/
structure SvcSt where
  /-- accepted commands that wait: code, `SEQ`, payload (R376) -/
  cmds    : List (Nat × Nat × List (BitVec 8)) := []
  /-- data frames sent and not acknowledged, oldest first: type, `SEQ`, payload (R371) -/
  unacked : List (Nat × Nat × List (BitVec 8)) := []
  /-- responses that wait for the window -/
  waiting : List (Nat × List (BitVec 8)) := []
  /-- expiries of the retransmission timer without progress (R372) -/
  expiries : Nat := 0
  /-- an acknowledgement is owed (R371) -/
  ackDue  : Bool := false
  /-- rate chosen and not yet taken; no valid frame at the new rate yet (R374) -/
  newBaud : Option Nat := none
  probing : Bool := false
  /-- a long command has done its work and its response is not yet queued (R376): code, `SEQ`, response -/
  long    : Option (Nat × Nat × List (BitVec 8)) := none
  /-- the response of the command under way is discarded (R372, R399) -/
  discard : Bool := false
  /-- `SEQ` of the response after whose acknowledgement the session ends -/
  closeAt : Option Nat := none
  /-- `SEQ` of each response after whose acknowledgement a soft start begins, and its cause bit, oldest first (R395) -/
  startAt : List (Nat × Nat) := []
  repair  : RepairSt := {}
  /-- the receiver is enabled (R306) -/
  rxOn    : Bool := false
  jrnl    : JrnlSt := {}
  deriving DecidableEq, Repr

end Sys2Proof.Machine
end

