-- ==== Sys2Proof/Machine/State.lean ====
section
/-! DEFINITION. The state of the DQ7104 as plain data, its value after reset, and the reasons a command can stop. -/

namespace Sys2Proof.Machine

/-- The part as it left production: identity and the CRC written beside it, grade, the octets of the production entries in
area M (R7, R325, R343, R344; log entry 10). -/
structure PartSt where
  ident : Nat := 0
  idCrc : Nat := 0xECBB4B55
  grade : Nat := 0
  prod  : List Byte := []
  deriving DecidableEq, Repr

/-- What the part sends or drives outside. -/
inductive Out where
  /-- octets on the service UART, delimiters included (R370) -/
  | uart (octets : List Byte)
  /-- a frame on front-end bus `b` (R49) -/
  | fec (b : Nat) (w : Nat)
  /-- a PTP message on port `p`, made by the part or forwarded (R259, R266) -/
  | ptp (p : Nat) (m : PtpMsg)
  /-- an ARP reply, a neighbour advertisement (R272) -/
  | arp (p : Nat) (target : Word)
  | nadv (p : Nat) (target : BitVec 128)
  /-- a status datagram: port, IPv6, destination address and port, payload (R273) -/
  | udp (p : Nat) (v6 : Bool) (dst : BitVec 128) (dport : Nat) (payload : List Byte)
  /-- an edge of a time pulse (R231); the level an event line takes at its pin (R281, R283); the marker and the Aelud word
  of a line, with the levels of its pin, each from an instant in elapsed ns after the second (R293) -/
  | tp (n : Nat) (level : Bool)
  | line (n : Nat) (level : Bool)
  | aelud (n : Nat) (word : List Byte) (wave : List (Nat × Bool))
  /-- `SVC_ATTN_N` asserted or released (R30, R376) -/
  | attn (on : Bool)
  deriving DecidableEq, Repr

/-- The machine. Registers are held field by field: the key of a field is its register's address times 32 plus its
lowest bit, and a field at its reset value is not listed. Memories list the octets that differ from what an unlisted
address reads as. -/
structure State where
  reg     : List (Nat × Nat)
  mem     : List Host.Cell
  flash   : List Host.Cell
  /-- resets that left the snapshot memory's contents undefined (R97), and cold starts, which leave those of the
  schedule table and of the other volatile memories undefined (R297) -/
  wipes   : Nat
  colds   : Nat
  /-- protected units that hold an error; the flag says a double-bit error (R21) -/
  ecc     : List (Nat × Bool)
  /-- read latches: master and address, value (R403) -/
  latch   : Tbl Nat
  links   : Tbl LinkSt
  fecs    : Tbl FecSt
  engs    : Tbl EngSt
  clus    : Tbl CluSt
  handles : Tbl HandleSt
  replay  : ReplaySt
  maps    : Tbl MapSt
  chans   : Tbl ChanSt
  lates   : Tbl LateSt
  dsps    : Tbl DspSt
  nav     : NavSt
  mordant : MordantSt
  itg     : ItgSt
  tim     : TimSt
  tps     : Tbl TpSt
  tpi     : TpiSt
  plls    : Tbl PllSt
  ckos    : Tbl CkoSt
  ports   : Tbl PortSt
  slots   : Tbl SlotSt
  net     : NetSt
  lines   : Tbl LineSt
  banks   : Tbl BankSt
  rtc     : RtcSt
  sup     : SupSt
  umb     : UmbSt
  cus     : CusSt
  svc     : SvcSt
  /-- the test access port's instruction register (R428) -/
  tap     : TapInstr
  part    : PartSt
  /-- the model's own fields: what was sent, newest first; the free values drawn; the commands that wait -/
  out     : List Out
  free    : Nat
  pending : List Instr
  deriving DecidableEq, Repr

/-- A model fault. No command raises one: an error of the hardware is a state change (R401, R406). -/
inductive Fault where
  deriving DecidableEq, Repr

/-- A model refusal. -/
inductive Refusal where
  /-- the command has no meaning yet; raised by a dispatch arm only, and safe: nothing follows from it -/
  | notModelled (mnemonic : String)
  deriving DecidableEq, Repr

/-- The machine right after reset: every register at its reset value, memories without listed octets, every unit at
its defaults, no command waiting (R24; log entries 8, 9, 10). -/
def State.reset : State :=
  { reg := [], mem := [], flash := [], wipes := 0, colds := 0, ecc := [], latch := [], links := [], fecs := [], engs := [], clus := [],
    handles := [], replay := {}, maps := [], chans := [], lates := [], dsps := [], nav := {}, mordant := {}, itg := {}, tim := {},
    tps := [], tpi := {}, plls := [], ckos := [], ports := [], slots := [], net := {}, lines := [], banks := [],
    rtc := {}, sup := {}, umb := {}, cus := {}, svc := {}, tap := .idcode, part := {}, out := [], free := 0,
    pending := [] }

end Sys2Proof.Machine
end

