-- ==== Sys2Proof/Machine/Ops.lean ====
section
/-! DEFINITION. Named operations over the state: register fields, unit records, device time, emissions, free values,
umber notes, memories with their error protection. -/

namespace Sys2Proof.Machine

/-! ### Register fields (R402) -/

/-- The key of a field: its register's address and its lowest bit. -/
def Field.key (f : Field) : Nat := f.addr * 32 + f.lo

/-- The width of a field in bits. -/
def Field.width (f : Field) : Nat := f.hi + 1 - f.lo

/-- The value of a field. -/
def State.get (s : State) (f : Field) : Nat := tblGet s.reg f.rst f.key

/-- The value of a field as a signed number. -/
def State.getI (s : State) (f : Field) : Int := sgn f.width (s.get f)

/-- Whether a field is not zero. -/
def State.on (s : State) (f : Field) : Bool := s.get f != 0

/-- A field set, truncated to its width. -/
def State.set (s : State) (f : Field) (v : Nat) : State :=
  { s with reg := tblPut s.reg f.rst f.key (v % 2 ^ f.width) }

/-- A field set from a signed number. -/
def State.setI (s : State) (f : Field) (v : Int) : State := s.set f (uns f.width v)

/-- A one-bit field set from a Boolean. -/
def State.setB (s : State) (f : Field) (b : Bool) : State := s.set f (b2n b)

/-- A counter that wraps, raised. -/
def State.inc (s : State) (f : Field) (k : Nat := 1) : State := s.set f (s.get f + k)

/-- A counter that saturates, raised (R437). -/
def State.incSat (s : State) (f : Field) (k : Nat := 1) : State := s.set f (satN f.width (s.get f + k))

/-- A counter lowered, not below zero. -/
def State.dec (s : State) (f : Field) (k : Nat := 1) : State := s.set f (s.get f - k)

/-- Bits of a field set. -/
def State.orF (s : State) (f : Field) (m : Nat) : State := s.set f (s.get f ||| m)

/-- Bits of a field cleared. -/
def State.clrF (s : State) (f : Field) (m : Nat) : State := s.set f ((s.get f ||| m) ^^^ m)

/-- A 64-bit value held in two registers, low word first. -/
def State.get2 (s : State) (lo hi : Field) : Nat := s.get hi * 2 ^ lo.width + s.get lo

/-- A value put into two registers, low word first. -/
def State.set2 (s : State) (lo hi : Field) (v : Nat) : State :=
  (s.set lo (v % 2 ^ lo.width)).set hi (v / 2 ^ lo.width)

/-- The signed value of two registers. -/
def State.getI2 (s : State) (lo hi : Field) : Int := sgn (lo.width + hi.width) (s.get2 lo hi)

/-- A signed value put into two registers. -/
def State.setI2 (s : State) (lo hi : Field) (v : Int) : State := s.set2 lo hi (uns (lo.width + hi.width) v)

/-- Every field of the registers in an address range back at its reset value. -/
def State.clearRegs (s : State) (lo hi : Nat) : State :=
  { s with reg := s.reg.filter fun e => !(decide (lo * 32 ≤ e.1) && decide (e.1 < hi * 32)) }

/-! ### Unit records -/

/-- Link `n`'s record. -/
def State.link (s : State) (n : Nat) : LinkSt := tblGet s.links {} n
/-- Link `n`'s record set. -/
def State.setLink (s : State) (n : Nat) (x : LinkSt) : State := { s with links := tblSet s.links n x }
/-- Front-end bus `b`'s record. -/
def State.fec (s : State) (b : Nat) : FecSt := tblGet s.fecs {} b
/-- Front-end bus `b`'s record set. -/
def State.setFec (s : State) (b : Nat) (x : FecSt) : State := { s with fecs := tblSet s.fecs b x }
/-- Engine `e`'s record. -/
def State.eng (s : State) (e : Nat) : EngSt := tblGet s.engs {} e
/-- Engine `e`'s record set. -/
def State.setEng (s : State) (e : Nat) (x : EngSt) : State := { s with engs := tblSet s.engs e x }
/-- Cluster `c`'s record. -/
def State.clu (s : State) (c : Nat) : CluSt := tblGet s.clus {} c
/-- Cluster `c`'s record set. -/
def State.setClu (s : State) (c : Nat) (x : CluSt) : State := { s with clus := tblSet s.clus c x }
/-- Capture handle `h`'s record. -/
def State.handle (s : State) (h : Nat) : HandleSt := tblGet s.handles {} h
/-- Capture handle `h`'s record set. -/
def State.setHandle (s : State) (h : Nat) (x : HandleSt) : State := { s with handles := tblSet s.handles h x }
/-- Cluster `c`'s search map. -/
def State.map (s : State) (c : Nat) : MapSt := tblGet s.maps {} c
/-- Cluster `c`'s search map set. -/
def State.setMap (s : State) (c : Nat) (x : MapSt) : State := { s with maps := tblSet s.maps c x }
/-- The channel on engine `e`. -/
def State.chan (s : State) (e : Nat) : ChanSt := tblGet s.chans {} e
/-- The channel on engine `e` set. -/
def State.setChan (s : State) (e : Nat) (x : ChanSt) : State := { s with chans := tblSet s.chans e x }
/-- Loop DSP `d`'s record. -/
def State.dsp (s : State) (d : Nat) : DspSt := tblGet s.dsps {} d
/-- Loop DSP `d`'s record set. -/
def State.setDsp (s : State) (d : Nat) (x : DspSt) : State := { s with dsps := tblSet s.dsps d x }
/-- Time pulse `n`'s record. -/
def State.tp (s : State) (n : Nat) : TpSt := tblGet s.tps {} n
/-- Time pulse `n`'s record set. -/
def State.setTp (s : State) (n : Nat) (x : TpSt) : State := { s with tps := tblSet s.tps n x }
/-- Synthesiser `x`'s record. -/
def State.pll (s : State) (x : Nat) : PllSt := tblGet s.plls {} x
/-- Synthesiser `x`'s record set. -/
def State.setPll (s : State) (x : Nat) (p : PllSt) : State := { s with plls := tblSet s.plls x p }
/-- Clock output `k`'s record. -/
def State.cko (s : State) (k : Nat) : CkoSt := tblGet s.ckos {} k
/-- Clock output `k`'s record set. -/
def State.setCko (s : State) (k : Nat) (x : CkoSt) : State := { s with ckos := tblSet s.ckos k x }
/-- Port `p`'s record. -/
def State.port (s : State) (p : Nat) : PortSt := tblGet s.ports {} p
/-- Port `p`'s record set. -/
def State.setPort (s : State) (p : Nat) (x : PortSt) : State := { s with ports := tblSet s.ports p x }
/-- Domain slot `k`'s record. -/
def State.slot (s : State) (k : Nat) : SlotSt := tblGet s.slots {} k
/-- Domain slot `k`'s record set. -/
def State.setSlot (s : State) (k : Nat) (x : SlotSt) : State := { s with slots := tblSet s.slots k x }
/-- Event line `n`'s record. -/
def State.line (s : State) (n : Nat) : LineSt := tblGet s.lines {} n
/-- Event line `n`'s record set. -/
def State.setLine (s : State) (n : Nat) (x : LineSt) : State := { s with lines := tblSet s.lines n x }
/-- Line bank `b`'s record. -/
def State.bank (s : State) (b : Nat) : BankSt := tblGet s.banks {} b
/-- Line bank `b`'s record set. -/
def State.setBank (s : State) (b : Nat) (x : BankSt) : State := { s with banks := tblSet s.banks b x }

/-! ### Emissions and free values -/

/-- Something sent or driven outside, put in front of the list. -/
def State.emit (s : State) (o : Out) : State := { s with out := o :: s.out }

/-- The next free value below a bound; the counter advances (log entry 4). -/
def State.draw (s : State) (bound : Nat) : State × Nat :=
  ({ s with free := s.free + 1 }, Config.freeValue s.free % bound)

/-- A quotient where the spec states no rounding: the floor, or one more when it is not exact, as a free value has it. -/
def State.quotient (s : State) (a : Int) (b : Nat) : State × Int :=
  let q := a / (max b 1 : Nat)
  if a % (max b 1 : Nat) = 0 then (s, q)
  else
    let (s, k) := s.draw 2
    (s, q + (k : Int))

/-! ### Device time (R217) -/

/-- One second, millisecond and microsecond in 2^-64 ns. -/
def secU : Nat := 1000000000 * 2 ^ 64
/-- One millisecond in 2^-64 ns. -/
def msU : Nat := 1000000 * 2 ^ 64
/-- One microsecond in 2^-64 ns. -/
def usU : Nat := 1000 * 2 ^ 64
/-- One picosecond is 2^64 / 1,000 of that unit: a time in ps, signed, in 2^-64 ns, rounded to nearest. -/
def psU (ps : Int) : Int := roundDiv (ps * 2 ^ 64) 1000
/-- A time in 2^-64 ns, signed, in whole ps, rounded to nearest. -/
def uToPs (u : Int) : Int := roundDiv (u * 1000) (2 ^ 64)

/-- Device time at an instant `sub` 2^-16 ns after the last epoch boundary. -/
def State.now (s : State) (sub : Nat := 0) : Nat := s.tim.t + sub * 2 ^ 48

/-- Whole seconds, nanoseconds of the second, fraction in 2^-16 ns: TV96 (R217). -/
def tvSec (t : Nat) : Nat := t / secU
/-- Nanoseconds of the second. -/
def tvNs (t : Nat) : Nat := t % secU / 2 ^ 64
/-- The fraction of a nanosecond in 2^-16 ns. -/
def tvFrac (t : Nat) : Nat := t % 2 ^ 64 / 2 ^ 48

/-- TV96 as one number. -/
def tv96 (t : Nat) : Nat := tvSec t % 2 ^ 48 * 2 ^ 48 + tvNs t * 2 ^ 16 + tvFrac t

/-- TV64, formed by truncation (R217): seconds, low 40 bits, and the fraction of the second in 2^-24 s. -/
def tv64 (t : Nat) : Nat := tvSec t % 2 ^ 40 * 2 ^ 24 + t % secU * 2 ^ 24 / secU

/-- The epoch count, 64 bits (R219). -/
def State.epochCount (s : State) : Nat := s.get2 TIM_EPOCH_L_COUNT TIM_EPOCH_H_COUNT

/-! ### Umber notes: the custody core's queue (R334) -/

/-- Time quality of an entry (R338): STEPPED 0, LOADED 1, FREE 2. -/
def State.quality (s : State) : Nat := 2 - min 2 (s.get TIM_STAT_STATE)

/-- The entry types that go to area S in the session of the first seal (R333). -/
def sessionType (typ : Nat) : Bool := [0x0704, 0x0706, 0x0707, 0x0708, 0x0709, 0x070A].contains typ

/-- A full queue loses the header of a snapshot: the entry that arises or the one in the last place is it (R334, R337). -/
def UmbSt.orphaned (u : UmbSt) (e : UEntry) : Bool :=
  e.typ == 0x0002 || (u.lost == 0 && (u.queue.drop 63).any fun x => x.typ == 0x0002)

/-- The continuations lost with their header. -/
def UmbSt.orphans (u : UmbSt) (e : UEntry) : Nat := if u.orphaned e then u.snap.length else 0

/-- An entry put into the custody core's queue: the queue keeps 64; when more arise the first 63 are kept and one
`LOST` entry gives the number of the rest (R334). -/
def State.enqueue (s : State) (e : UEntry) : State :=
  let u := s.umb
  if u.queue.length < 64 then
    { s with umb := { u with queue := u.queue ++ [e], lost := 0 } }
  else
    let n := (if u.lost = 0 then 2 else u.lost + 1) + u.orphans e
    let l : UEntry := { time := e.time, typ := 0x0005, src := 0x01, sev := s.quality * 64 + 2, pay := n }
    { s with umb := { u with queue := u.queue.take 63 ++ [l], lost := n, snap := if u.orphaned e then [] else u.snap } }

/-- One umber entry: type, source, level, payload, with the device time of the event (R333, R338–R340). -/
def State.note (s : State) (typ src lvl pay : Nat) (sub : Nat := 0) : State :=
  s.enqueue { time := tv64 (s.now sub), typ := typ, src := src, sev := s.quality * 64 + lvl,
              pay := pay % 2 ^ 80, areaS := s.cus.firstSession && sessionType typ }

/-- `SVC_ATTN_N` follows the conditions of R369: held in the cases of R30 and R354, else asserted only outside a
session. -/
def State.attnUpdate (s : State) : State :=
  let held := s.itg.below || s.cus.phase == .dead
  let cond := s.on RTC_FSW_H_VALID || s.on ITG_LATCH_STEPERR || s.on ITG_LATCH_WOAD || s.on ITG_LATCH_RELOC ||
    s.cus.phase == .minimum || s.svc.jrnl.staged.isSome || s.svc.jrnl.refused
  let want := held || (!s.on SVC_STAT_SESSION && cond)
  if s.on SVC_STAT_ATTN == want then s else (s.setB SVC_STAT_ATTN want).emit (.attn want)

/-- More than the minimum service set works: outputs beside `TP0` leave their reset state (R28–R30, R414, R415). -/
def State.serves (s : State) : Bool := !s.itg.below && !s.itg.minSet

/-- A level driven at a time pulse output: seen where it differs from the one before. -/
def State.tpDrive (s : State) (n : Nat) (lvl : Bool) : State :=
  if (s.tp n).pin = lvl then s else (s.setTp n { s.tp n with pin := lvl }).emit (.tp n lvl)

/-- The level of a time pulse output between its pulses: what `POL` makes it (R231), low where the part gives no service or
the output none in the minimum service set (R29, R30, R414, R415). -/
def State.tpIdle (s : State) (n : Nat) : Bool := (s.tp n).set.pol && !s.itg.below && (!s.itg.minSet || n == 0)

/-- An output between its pulses takes that level. -/
def State.tpRest (s : State) (n : Nat) : State := if (s.tp n).trailAt.isSome then s else s.tpDrive n (s.tpIdle n)

/-- The navigation core runs: started, and not halted by BRACE (R316). -/
def State.navOn (s : State) : Bool := s.nav.running && !s.on SUP_STAT_SETTLED

/-- Engines retired (R86). -/
def State.retired (s : State) : Nat := ((List.range 1024).filter fun e => s.get (ENG_STAT_STATE e) == 5).length

/-- What `IDENT` says of the configuration and the engines now (R276). -/
def State.identNow (s : State) : IdentHeld :=
  { dig0 := s.get (CFL_DIG_DIG 0), dig1 := s.get (CFL_DIG_DIG 1), vers := s.cus.walk.vers, retired := s.retired }

/-! ### Memories (R21, R400) -/

/-- An octet of the MRAM as the part left production: all ones, but for the production entries of area M and for the
identity block, the identity and its CRC (R343, R344). -/
def PartSt.mram (p : PartSt) (o : Nat) : Byte :=
  if o < 0x2000 then p.prod.getD o 0xFF
  else if 0x708000 ≤ o ∧ o < 0x708014 then (beBytes 16 p.ident ++ leBytes 4 p.idCrc).getD (o - 0x708000) 0xFF
  else 0xFF

/-- What an octet that nothing has written reads as on a part, after `n` resets that left the snapshot memory undefined
(R97) and `c` cold starts: in the MRAM as it left production, an open value in a volatile memory whose contents a reset has
lost, else 0 (log entry 9). -/
def memDefault (p : PartSt) (n c a : Nat) : Byte :=
  if 0x90000000 ≤ a ∧ a < 0x90800000 then p.mram (a - 0x90000000)
  else if 0x70000000 ≤ a ∧ a < 0x72000000 then (if n = 0 then 0 else Config.lostByte n a)
  else if 0x100000000 ≤ a then 0
  else if c = 0 then 0
  else Config.lostByte c a

/-- An octet that nothing has programmed in the configuration flash reads as erased. -/
def flashDefault (_ : Nat) : Byte := 0xFF

/-- One octet of a sparse memory. -/
def cellGet (d : Nat → Byte) (m : List Host.Cell) (a : Nat) : Byte := tblGet m (d a) a

/-- One octet written, keeping the canonical form. -/
def cellPut (d : Nat → Byte) (m : List Host.Cell) (a : Nat) (v : Byte) : List Host.Cell := tblPut m (d a) a v

/-- Octets written from an address upwards. -/
def cellPuts (d : Nat → Byte) : List Host.Cell → Nat → List Byte → List Host.Cell
  | m, _, [] => m
  | m, a, b :: bs => cellPuts d (cellPut d m a b) (a + 1) bs

/-- The canonical form of the memory and of the flash. -/
def Memory.wf (s : State) : Bool := tblCanon (memDefault s.part s.wipes s.colds) s.mem && tblCanon flashDefault s.flash

/-- One octet of the internal memories. -/
def State.byteAt (s : State) (a : Nat) : Byte := cellGet (memDefault s.part s.wipes s.colds) s.mem a

/-- Octets of the internal memories from an address. -/
def State.bytesAt (s : State) (a n : Nat) : List Byte := (List.range n).map fun i => s.byteAt (a + i)

/-- A little-endian value of `n` octets, as it stands, without the error check. -/
def State.peek (s : State) (a n : Nat) : Nat := leNat (s.bytesAt a n)

/-- Octets put into memory, without the error check. -/
def State.pokes (s : State) (a : Nat) (bs : List Byte) : State := { s with mem := cellPuts (memDefault s.part s.wipes s.colds) s.mem a bs }

/-- A little-endian value of `n` octets put into memory, without the error check. -/
def State.poke (s : State) (a n v : Nat) : State := s.pokes a (leBytes n v)

/-- The contents of every volatile memory become undefined (R97, R297; log entry 9). -/
def State.wipeCold (s : State) : State :=
  { s with
    wipes := s.wipes + 1
    colds := s.colds + 1
    mem := s.mem.filter fun e => decide (0x90000000 ≤ e.1) && decide (e.1 < 0x90800000) }

/-- The snapshot memory's contents become undefined (R97). -/
def State.wipeSnap (s : State) : State :=
  { s with
    wipes := s.wipes + 1
    mem := s.mem.filter fun e => !(decide (0x70000000 ≤ e.1) && decide (e.1 < 0x72000000)) }

/-- The custody core SRAM is cleared (R22). -/
def State.wipeCust (s : State) : State :=
  let inCust := fun (a : Nat) => decide (0x100000000 ≤ a) && decide (a < 0x100040000)
  { s with mem := s.mem.filter fun e => !inCust e.1, ecc := s.ecc.filter fun e => !inCust e.1 }

/-- One octet of the configuration flash. -/
def State.flashAt (s : State) (a : Nat) : Byte := cellGet flashDefault s.flash a

/-- Octets of the configuration flash. -/
def State.flashBytes (s : State) (a n : Nat) : List Byte := (List.range n).map fun i => s.flashAt (a + i)

/-- Octets programmed into the flash: a bit goes from 1 to 0 only. -/
def flashProgram : List Host.Cell → Nat → List Byte → List Host.Cell
  | m, _, [] => m
  | m, a, b :: bs => flashProgram (cellPut flashDefault m a (cellGet flashDefault m a &&& b)) (a + 1) bs

/-- Octets of the flash from an address erased. -/
def flashErase (m : List Host.Cell) (a n : Nat) : List Host.Cell :=
  m.filter fun e => !(decide (a ≤ e.1) && decide (e.1 < a + n))

/-- The memories of the map (R400), and the two protected ones that have no bus address: the custody core SRAM and the
PTP and Ethernet buffers. -/
inductive MemClass where
  | snap | cluster (c : Nat) | dsp (d : Nat) (sp : DspSpace) | nav | mram | sched | cust | eth
  deriving DecidableEq, Repr

/-- The memory an address lies in. Memories without a bus address stand above the 32-bit space, 256 KiB and 1 MiB long
(DESIGN CHOICE: log 9). -/
def memClass (a : Nat) : Option MemClass :=
  if 0x50000000 ≤ a ∧ a < 0x51000000 then
    let o := a % 0x100000
    if 0x80000 ≤ o ∧ o < 0xC0000 then some (.cluster ((a - 0x50000000) / 0x100000)) else none
  else if 0x60000000 ≤ a ∧ a < 0x60400000 then
    let d := (a - 0x60000000) / 0x40000
    match a % 0x40000 / 0x10000 with
    | 1 => some (.dsp d .x)
    | 2 => some (.dsp d .y)
    | 3 => some (.dsp d .p)
    | _ => none
  else if 0x70000000 ≤ a ∧ a < 0x72000000 then some .snap
  else if 0x80000000 ≤ a ∧ a < 0x80400000 then some .nav
  else if 0x90000000 ≤ a ∧ a < 0x90800000 then some .mram
  else if 0x40210000 ≤ a ∧ a < 0x40220000 then some .sched
  else if 0x100000000 ≤ a ∧ a < 0x100040000 then some .cust
  else if 0x100100000 ≤ a ∧ a < 0x100200000 then some .eth
  else none

/-- Octets of a protected unit: 8 in the MRAM, one in the Ethernet buffers, 4 elsewhere, none in the snapshot memory
(R21). -/
def MemClass.unit : MemClass → Nat
  | .snap => 0
  | .mram => 8
  | .eth => 1
  | _ => 4

/-- The memory's code in an `ECC` entry and the source that owns it (R339, R340). -/
def MemClass.codes : MemClass → Nat × Nat
  | .snap => (0, 0x01)
  | .cluster c => (1, 0x10 + c)
  | .dsp d _ => (2, 0x20 + d)
  | .nav => (3, 0x02)
  | .mram => (6, 0x01)
  | .sched => (Config.schedMemCode.toNat, 0x09)
  | .cust => (4, 0x01)
  | .eth => (5, 0x08)

/-- The first address of the protected unit that holds an address. -/
def MemClass.base (k : MemClass) (a : Nat) : Nat := if k.unit = 0 then a else a / k.unit * k.unit

/-- The error a protected unit holds. -/
def State.eccOf (s : State) (k : MemClass) (a : Nat) : Option Bool :=
  if k.unit = 0 then none else tblFind s.ecc (k.base a)

/-- An error put into a protected unit. Parity corrects nothing, so every error of the Ethernet buffers acts as one that
is not corrected (DEDUCED: log 9). -/
def State.setEcc (s : State) (k : MemClass) (a : Nat) (dbl : Bool) : State :=
  if k.unit = 0 then s else { s with ecc := tblSet s.ecc (k.base a) (dbl || k == .eth) }

/-- A protected unit's error gone. -/
def State.clrEcc (s : State) (k : MemClass) (a : Nat) : State := { s with ecc := tblErase s.ecc (k.base a) }

/-! ### Read latches (R403) -/

/-- The number of a master in the latch table. -/
def Master.code : Master → Nat
  | .nav => 16
  | .ldsp d => d.val
  | .cust => 17
  | .loader => 18
  | .ptp => 19
  | .itg => 20
  | .svc => 17

/-- The key of a latch: master and register address. -/
def latchKey (m : Master) (a : Nat) : Nat := Master.code m * 2 ^ 32 + a

/-- A register's value latched for a master. -/
def State.hold (s : State) (m : Master) (a v : Nat) : State := { s with latch := tblSet s.latch (latchKey m a) v }

/-- A master's latch of a register released. -/
def State.release (s : State) (m : Master) (a : Nat) : State := { s with latch := tblErase s.latch (latchKey m a) }

/-- What a master has latched of a register. -/
def State.held (s : State) (m : Master) (a : Nat) : Option Nat := tblFind s.latch (latchKey m a)

/-- The latches on the registers of an address range released, for every master (a start resets their block). -/
def State.clearLatches (s : State) (lo hi : Nat) : State :=
  { s with latch := s.latch.filter fun e => !(decide (lo ≤ e.1 % 2 ^ 32) && decide (e.1 % 2 ^ 32 < hi)) }

/-- A function applied for each number below a bound, lowest first. -/
def State.each (s : State) (n : Nat) (f : Nat → State → State) : State := (List.range n).foldl (fun s i => f i s) s

/-- The next epoch boundary: the first whole millisecond at least 1 ms after the last one, load or step (R219). -/
def State.nextBoundary (s : State) : Nat := ceilDiv (s.tim.t + msU) msU * msU

/-- An instant of device time lies in the running epoch, or has passed. -/
def State.due (s : State) (t : Nat) : Bool := decide (t < s.nextBoundary)

/-- `ns` have passed since an elapsed instant, at the latest in the epoch that runs. -/
def State.reached (s : State) (since ns : Nat) : Bool := decide (since + ns < s.tim.up + 1000000)

end Sys2Proof.Machine
end

