-- ==== Sys2Proof/Machine/UmberBlock.lean ====
section
/-! DEFINITION. The umber controller (ch. 15): slots, validity, the recovery scan, commits. -/

namespace Sys2Proof.Machine

/-- The address of a slot in the MRAM window (R325). -/
def slotAddr (k : Nat) : Nat := 0x90000000 + k * 32

/-- What a slot shows to a reader (R330). -/
inductive SlotView where
  | blank | damaged | failed
  | entry (seq : Nat)
  deriving DecidableEq, Repr

/-- Bytes 8 to 29 of an entry (R327). -/
def entryBody (e : UEntry) : List Byte :=
  leBytes 8 e.time ++ leBytes 2 e.typ ++ leBytes 1 e.src ++ leBytes 1 e.sev ++ leBytes 10 e.pay

/-- The CRC of an entry under a sequence number (R328). -/
def entryCrc (seq : Nat) (e : UEntry) : Nat := crc16 (leBytes 8 seq ++ entryBody e)

/-- Whether a slot holds a double-bit error in one of its four units. -/
def State.slotDouble (s : State) (k : Nat) : Bool :=
  s.umb.bad.contains k || (List.range 4).any fun i => s.eccOf .mram (slotAddr k + 8 * i) == some true

/-- A slot judged by itself: damaged, blank, failed, or an entry whose CRC matches (R326, R328, R330). -/
def State.slotView (s : State) (k : Nat) : SlotView :=
  if s.slotDouble k then .damaged
  else
    let bs := s.bytesAt (slotAddr k) 32
    let seq := leNat (bs.take 8)
    if seq = 2 ^ 64 - 1 then .blank
    else if crc16 (bs.take 30) = leNat (bs.drop 30) then .entry seq
    else .failed

/-- The sequence of a slot whose CRC matches. -/
def State.slotSeq (s : State) (k : Nat) : Option Nat :=
  match s.slotView k with
  | .entry q => some q
  | _ => none

/-- The slots of the record that hold a production entry, a written octet or a stored error; every other slot is blank. -/
def State.usedSlots (s : State) : List Nat :=
  let f := fun (acc : List Nat) (a : Nat) =>
    if 0x90000000 ≤ a ∧ a < 0x90400000 then
      let k := (a - 0x90000000) / 32
      if acc.head? = some k then acc else k :: acc
    else acc
  let ks := (s.mem.foldl (fun acc c => f acc c.1) []).reverse
  let es := (s.ecc.foldl (fun acc c => f acc c.1) []).reverse
  let ps := List.range (min 256 (ceilDiv s.part.prod.length 32))
  let ks := ps ++ ks.filter fun k => !ps.contains k
  ks ++ es.filter fun k => !ks.contains k

/-- The slot after a ring slot, and the one before it (R325). -/
def ringNext (k : Nat) : Nat := if k + 1 < 131072 then k + 1 else 4096
/-- The ring slot before a ring slot. -/
def ringPrev (k : Nat) : Nat := if 4096 < k then k - 1 else 131071

/-- `expect` lowered past sequences that valid first-zone entries hold; at most `fuel` of them. -/
def skipFirst (first : List Nat) : Nat → Nat → Nat
  | 0, e => e
  | fuel + 1, e => if first.contains e then skipFirst first fuel (e - 1) else e

/-- What the walk of R330 finds: valid entries, damaged slots, the sequence of the oldest valid entry. -/
structure WalkFind where
  valid   : Nat := 0
  damaged : List Nat := []
  oldest  : Option Nat := none
  deriving DecidableEq, Repr

/-- The walk of R330 from slot `k` backwards. -/
def State.walkRing (s : State) (first : List Nat) : Nat → Nat → Nat → WalkFind → WalkFind
  | 0, _, _, r => r
  | fuel + 1, k, e, r =>
    let e := skipFirst first first.length e
    match s.slotView k with
    | .damaged => s.walkRing first fuel (ringPrev k) (e - 1) { r with damaged := k :: r.damaged }
    | .blank => r
    | .failed => s.walkRing first fuel (ringPrev k) (e - 1) { r with damaged := k :: r.damaged }
    | .entry q =>
      if q = e then
        s.walkRing first fuel (ringPrev k) (e - 1) { r with valid := r.valid + 1, oldest := some q }
      else r

/-- The first blank slot from `k`, or the end of the area. -/
def State.firstBlank (s : State) : Nat → Nat → Nat
  | 0, k => k
  | fuel + 1, k => if s.slotView k = .blank then k else s.firstBlank fuel (k + 1)

/-- `UMB_STAT.WRAPPED` by the rule of R331: set when `UMB_NEXT` exceeds the valid first-zone slots by more than
126,976; it stays set. -/
def State.umbWrapped (s : State) : State :=
  let nx := s.get2 UMB_NEXT_L_SEQ UMB_NEXT_H_SEQ
  if nx > s.umb.first + 126976 then s.set UMB_STAT_WRAPPED 1 else s

/-- What the status datagram says of a slot's entry: sequence, time, type, severity (R277, R327). -/
def State.slotShown (s : State) (k q : Nat) : Nat × Nat × Nat × Nat :=
  let bs := s.bytesAt (slotAddr k) 32
  (q, leNat (sliceN bs 8 8), leNat (sliceN bs 16 2), leNat (sliceN bs 19 1))

/-- The full flags of areas S and F from their next slots. -/
def State.umbFull (s : State) : State :=
  (s.setB UMB_STAT_SFULL (s.get UMB_FZ_SNEXT == 512)).setB UMB_STAT_FFULL (s.get UMB_FZ_FNEXT == 4096)

/-- The recovery scan (R330, R331): every slot judged, the run found, the registers set. -/
def State.umbScan (s : State) : State :=
  let used := s.usedSlots
  let ents := used.filterMap fun k => (s.slotSeq k).map fun q => (k, q)
  let ring := ents.filter fun e => decide (4096 ≤ e.1)
  let firstE := ents.filter fun e => decide (e.1 < 4096)
  let newest := ring.foldl (fun (b : Option (Nat × Nat)) e =>
    match b with
    | none => some e
    | some m => if m.2 < e.2 then some e else some m) none
  let top := ents.foldl (fun m e => max m (e.2 + 1)) 0
  let firstSeqs := firstE.map (·.2)
  let (wp, find) :=
    match newest with
    | none => (4096, ({} : WalkFind))
    | some (k, q) => (ringNext k, s.walkRing firstSeqs 126975 k q {})
  let fz := used.filter fun k => decide (k < 4096) && s.slotView k ≠ .blank && (s.slotSeq k).isNone
  let s := s.set2 UMB_NEXT_L_SEQ UMB_NEXT_H_SEQ top
  let s := s.set2 UMB_OLD_L_SEQ UMB_OLD_H_SEQ (find.oldest.getD top)
  let s := s.set UMB_WP_SLOT wp
  let s := s.set UMB_VALID_COUNT find.valid
  let s := s.set UMB_FREE_COUNT (126976 - find.valid)
  let s := s.set UMB_FZ_SNEXT (s.firstBlank 256 256)
  let s := s.set UMB_FZ_FNEXT (s.firstBlank 3584 512)
  let s := s.set UMB_DAMAGED_COUNT (satN 32 (find.damaged.length + fz.length))
  let s := s.set UMB_STAT_WRAPPED 0
  let last := ents.foldl (fun (b : Option (Nat × Nat)) e =>
    match b with
    | none => some e
    | some m => if m.2 < e.2 then some e else some m) none
  let s := { s with umb := { s.umb with first := firstE.length, bad := find.damaged ++ fz,
                                        newest := last.map fun (e : Nat × Nat) => s.slotShown e.1 e.2 } }
  (s.umbFull).umbWrapped

/-- An entry put in front of the queue, under the bound of R334. A snapshot's header that this drops takes its continuations
with it. -/
def State.enqueueFront (s : State) (e : UEntry) : State :=
  let u := s.umb
  if u.queue.length < 64 then { s with umb := { u with queue := e :: u.queue } }
  else
    let gone := (u.queue.drop 62).any fun x => x.typ == 0x0002
    let n := (if u.lost = 0 then 2 else u.lost + 1) + if gone then u.snap.length else 0
    let l : UEntry := { time := e.time, typ := 0x0005, src := 0x01, sev := s.quality * 64 + 2, pay := n }
    { s with umb := { u with queue := (e :: u.queue).take 63 ++ [l], lost := n, snap := if gone then [] else u.snap } }

/-- The `RECOVERY` entry goes first (R331). -/
def State.recoveryNote (s : State) (ms : Nat) : State :=
  s.enqueueFront { time := tv64 s.now, typ := 0x0004, src := 0x00, sev := s.quality * 64 + 1,
                   pay := s.get UMB_DAMAGED_COUNT * 2 ^ 48 + s.get UMB_VALID_COUNT * 2 ^ 31 + min ms 65535 }

/-- Whether a ring slot holds a valid entry: its CRC matches and its sequence lies in the run (R330). -/
def State.slotValid (s : State) (k : Nat) : Bool :=
  match s.slotSeq k with
  | none => false
  | some q =>
    if k < 4096 then decide (q < s.get2 UMB_NEXT_L_SEQ UMB_NEXT_H_SEQ)
    else decide (0 < s.get UMB_VALID_COUNT) && decide (s.get2 UMB_OLD_L_SEQ UMB_OLD_H_SEQ ≤ q) &&
      decide (q < s.get2 UMB_NEXT_L_SEQ UMB_NEXT_H_SEQ)

/-- Whether a slot holds a valid entry, whatever errors its units have taken since. -/
def State.slotHeld (s : State) (k : Nat) : Bool :=
  let bs := s.bytesAt (slotAddr k) 32
  let q := leNat (bs.take 8)
  crc16 (bs.take 30) == leNat (bs.drop 30) && decide (q < s.get2 UMB_NEXT_L_SEQ UMB_NEXT_H_SEQ) &&
    (decide (k < 4096) || (decide (0 < s.get UMB_VALID_COUNT) && decide (s.get2 UMB_OLD_L_SEQ UMB_OLD_H_SEQ ≤ q)))

/-- A slot whose entry counts as valid (R332, R439): it held one, and no error has been found in it. -/
def State.slotCounted (s : State) (k : Nat) : Bool := !s.umb.bad.contains k && s.slotHeld k

/-- The sequence of the first ring slot from `k` onwards whose entry counts as valid. -/
def State.oldestFrom (s : State) : Nat → Nat → Option Nat
  | 0, _ => none
  | fuel + 1, k => if s.slotCounted k then some (leNat (s.bytesAt (slotAddr k) 8)) else s.oldestFrom fuel (ringNext k)

/-- A valid ring entry ceases to be valid: `VALID` falls, `FREE` rises, and the oldest is the next valid one after
slot `k` (R332). -/
def State.umbLose (s : State) (k : Nat) : State :=
  let s := (s.dec UMB_VALID_COUNT).inc UMB_FREE_COUNT
  let nx := s.get2 UMB_NEXT_L_SEQ UMB_NEXT_H_SEQ
  if s.get UMB_VALID_COUNT = 0 then s.set2 UMB_OLD_L_SEQ UMB_OLD_H_SEQ nx
  else s.set2 UMB_OLD_L_SEQ UMB_OLD_H_SEQ ((s.oldestFrom 126975 (ringNext k)).getD nx)

/-- The entry that `UMB_W0` to `UMB_W5` hold. -/
def State.umbStaged (s : State) (areaS : Bool) : UEntry :=
  { time := s.get UMB_W5_TIME * 2 ^ 32 + s.get UMB_W4_TIME, typ := s.get UMB_W0_TYPE, src := s.get UMB_W0_SRC,
    sev := s.get UMB_W0_SEV, areaS := areaS,
    pay := s.get UMB_W1_PAY * 2 ^ 48 + s.get UMB_W2_PAY * 2 ^ 16 + s.get UMB_W3_PAY }

/-- An entry put into `UMB_W0` to `UMB_W5`. -/
def State.umbStage (s : State) (e : UEntry) : State :=
  let s := s.set UMB_W0_TYPE e.typ
  let s := s.set UMB_W0_SRC e.src
  let s := s.set UMB_W0_SEV e.sev
  let s := s.set UMB_W1_PAY (e.pay / 2 ^ 48)
  let s := s.set UMB_W2_PAY (e.pay / 2 ^ 16)
  let s := s.set UMB_W3_PAY e.pay
  let s := s.set UMB_W4_TIME e.time
  s.set UMB_W5_TIME (e.time / 2 ^ 32)

/-- The first blank slots of areas S and F, from the ones the registers show (R326): a slot found damaged is none. -/
def State.umbBlanks (s : State) : State :=
  let n := s.get UMB_FZ_SNEXT
  let f := s.get UMB_FZ_FNEXT
  ((s.set UMB_FZ_SNEXT (s.firstBlank (512 - n) n)).set UMB_FZ_FNEXT (s.firstBlank (4096 - f) f)).umbFull

/-- The slot an entry goes to (R333): area S while it has a blank slot, area F while it has one, else the ring. -/
def State.umbSlotFor (s : State) (areaS : Bool) : Nat :=
  if areaS && decide (s.get UMB_FZ_SNEXT < 512) then s.get UMB_FZ_SNEXT
  else if s.get UMB_FZ_FNEXT < 4096 then s.get UMB_FZ_FNEXT
  else s.get UMB_WP_SLOT

/-- Eight octets written into a 64-bit MRAM word, which ends any error it held (R21). -/
def State.mramWord (s : State) (a : Nat) (bs : List Byte) : State := (s.clrEcc .mram a).pokes a bs

/-- The next entry to commit: the snapshot under way, else the front of the queue, else the staged registers. -/
def State.umbTake (s : State) (areaS : Bool) : State × UEntry :=
  let u := s.umb
  match u.snapOn, u.snap with
  | true, e :: rest =>
    let s := { s with umb := { u with snap := rest, snapOn := !rest.isEmpty } }
    (s.umbStage e, e)
  | _, _ =>
    match u.queue with
    | e :: rest =>
      let s := { s with umb := { u with queue := rest, snapOn := e.typ == 0x0002 && !u.snap.isEmpty } }
      (s.umbStage e, e)
    | [] => (s, s.umbStaged areaS)

/-- A commit begins (R329, R332): the words at offsets 8, 16 and 24 are written; a valid ring entry they overwrite
ceases to be valid. Refused while busy, before `READY` and while BRACE locks the write registers (R335). -/
def State.umbGo (s : State) (areaS : Bool) : State :=
  if s.on UMB_STAT_BUSY || !s.on UMB_STAT_READY || s.on UMB_STAT_LOCKED then s
  else
    let (s, e) := s.umbBlanks.umbTake areaS
    let k := s.umbSlotFor e.areaS
    let seq := s.get2 UMB_NEXT_L_SEQ UMB_NEXT_H_SEQ
    let s := if 4096 ≤ k ∧ s.slotCounted k then s.umbLose k else s
    let body := entryBody e ++ leBytes 2 (entryCrc seq e)
    let a := slotAddr k
    let s := s.mramWord (a + 8) (body.take 8)
    let s := s.mramWord (a + 16) (sliceN body 8 8)
    let s := s.mramWord (a + 24) (sliceN body 16 8)
    let s := { s with umb := { s.umb with commit := some { slot := k, seq := seq, e := e } } }
    s.set UMB_STAT_BUSY 1

/-- An error found in the body of the slot under commit (R335): the commit's own words are damaged before it ends. -/
def State.bodyBad (s : State) (k : Nat) : Bool :=
  s.umb.bad.contains k && (List.range 3).any fun i => s.eccOf .mram (slotAddr k + 8 + 8 * i) == some true

/-- A commit ends (R329, R332): the sequence word is written, and the registers follow. An entry found damaged within its commit
takes its slot and its sequence, and is never valid. -/
def State.umbDone (s : State) : State :=
  match s.umb.commit with
  | none => s
  | some c =>
    let s := s.mramWord (slotAddr c.slot) (leBytes 8 c.seq)
    let u := s.umb
    let dam := s.bodyBad c.slot
    let s := { s with umb := { u with commit := none, bad := if dam then u.bad else u.bad.filter (· ≠ c.slot),
                                      first := if c.slot < 4096 && !dam then u.first + 1 else u.first,
                                      newest := if dam then u.newest else some (c.seq, c.e.time, c.e.typ, c.e.sev)
                                      }, net := { s.net with umbNew := s.net.umbNew + 1, umbSev := max s.net.umbSev (c.e.sev % 8) } }
    let s := s.set UMB_STAT_BUSY 0
    let s := s.set UMB_LAST_SLOT c.slot
    let s := s.set2 UMB_NEXT_L_SEQ UMB_NEXT_H_SEQ (c.seq + 1)
    let s : State :=
      if c.slot < 512 then s.set UMB_FZ_SNEXT (s.firstBlank (511 - c.slot) (c.slot + 1))
      else if c.slot < 4096 then s.set UMB_FZ_FNEXT (s.firstBlank (4095 - c.slot) (c.slot + 1))
      else if dam then s.set UMB_WP_SLOT (ringNext c.slot)
      else
        let s : State := if s.get UMB_VALID_COUNT = 0 then s.set2 UMB_OLD_L_SEQ UMB_OLD_H_SEQ c.seq else s
        ((s.inc UMB_VALID_COUNT).dec UMB_FREE_COUNT).set UMB_WP_SLOT (ringNext c.slot)
    let s : State := if s.get UMB_VALID_COUNT = 0 then s.set2 UMB_OLD_L_SEQ UMB_OLD_H_SEQ (c.seq + 1) else s
    (s.umbFull).umbWrapped

/-- The newest valid entry of the record (R277). -/
def State.umbNewest (s : State) : Option (Nat × Nat × Nat × Nat) :=
  s.usedSlots.foldl (fun b k =>
    match s.slotValid k, s.slotSeq k, b with
    | true, some q, some m => if m.1 < q then some (s.slotShown k q) else b
    | true, some q, none => some (s.slotShown k q)
    | _, _, _ => b) none

/-- A slot that held a valid entry does so no longer: in the first zone the number of those falls (R331), in the ring
`VALID` and the run follow (R332). -/
def State.umbGone (s : State) (k : Nat) : State :=
  if k < 4096 then { s with umb := { s.umb with first := s.umb.first - 1 } }
  else
    let s := (s.dec UMB_VALID_COUNT).inc UMB_FREE_COUNT
    let nx := s.get2 UMB_NEXT_L_SEQ UMB_NEXT_H_SEQ
    if s.get UMB_VALID_COUNT = 0 then s.set2 UMB_OLD_L_SEQ UMB_OLD_H_SEQ nx
    else if leNat (s.bytesAt (slotAddr k) 8) = s.get2 UMB_OLD_L_SEQ UMB_OLD_H_SEQ then
      s.set2 UMB_OLD_L_SEQ UMB_OLD_H_SEQ ((s.oldestFrom 126975 (ringNext k)).getD nx)
    else s

/-- A double-bit error found on a slot in normal operation (R335): the slot becomes damaged, is counted once, and
its entry is no longer valid. -/
def State.umbDamage (s : State) (a : Nat) : State :=
  if 0x90000000 ≤ a ∧ a < 0x90400000 ∧ s.on UMB_STAT_READY then
    let k := (a - 0x90000000) / 32
    if s.umb.bad.contains k then s
    else
      let held := s.slotHeld k
      let s := { s with umb := { s.umb with bad := k :: s.umb.bad } }
      let s := s.incSat UMB_DAMAGED_COUNT
      let s := if held then s.umbGone k else s
      let s := if held then { s with umb := { s.umb with newest := s.umbNewest } } else s
      s.umbBlanks
  else s

/-- The configuration of summaries and snapshots (R340): a field out of range takes its default. -/
def State.umbCfgw (s : State) (w : Nat) : State :=
  let p := bits w 31 20
  let i := bits w 19 9
  let m := bits w 6 0
  let s := s.set UMB_CFG_SUMP (if 1 ≤ p ∧ p ≤ 3600 then p else 60)
  let s := s.set UMB_CFG_SNAPI (if i ≤ 1440 then i else 60)
  s.set UMB_CFG_SNAPMAX (if 1 ≤ m ∧ m ≤ 64 then m else 32)

/-- The custody core restarts in a soft start, from its begin to the release of the processing domains (R357). -/
def State.softUnderWay (s : State) : Bool := s.cus.walk.soft && (s.cus.phase == .walk || s.cus.phase == .braceWait)

/-- The summary of R336: one due during a soft start is written when the custody core runs again. -/
def State.umbSummary (s : State) : State :=
  let sec := tvSec s.now
  let p := max 1 (s.get UMB_CFG_SUMP)
  let due := s.umb.sumDue || (match s.umb.sumAt with
    | none => sec % p == 0
    | some a => decide (a < sec / p * p))
  if !due then s
  else if s.softUnderWay then { s with umb := { s.umb with sumDue := true } }
  else
    let s := { s with umb := { s.umb with sumAt := some (sec / p * p), sumDue := false } }
    let d := clampI (-2147483647) 2147483647 s.nav.delta
    s.note 0x0001 0x01 0 (s.get ITG_STATE_STATE * 2 ^ 76 + s.get TIM_STAT_STATE * 2 ^ 74 +
      min s.nav.nsv 255 * 2 ^ 64 + s.get TIM_TERR_NS * 2 ^ 32 + uns 32 d)

/-- The summaries and snapshots after a move of device time back (R336, R337): the multiples of `SUMP`, and the minutes of a
snapshot, that lie ahead again are due again. `was` is device time before. -/
def State.sumMoved (s : State) (was : Nat) : State :=
  let p := max 1 (s.get UMB_CFG_SUMP)
  if s.tim.t < was then
    let sec := (s.tim.t - 1) / secU
    { s with umb := { s.umb with sumAt := s.umb.sumAt.map fun a => min a (sec / p * p),
                                 snapAt := s.umb.snapAt.filter fun m => decide (m ≤ sec / 60) } }
  else s

/-- A pseudorange in 0.1 m, rounded to nearest. -/
def pr01 (e : MeasEntry) : Nat := (roundDiv (e.pr.toNat * 10) 1024).toNat

/-- One continuation's payload (R337). -/
def msnapC (p0 : Nat) (e : MeasEntry) : Nat :=
  let f := e.flags.toNat
  let elev := clampI 0 90 e.elev.toInt
  e.sys.toNat % 8 * 2 ^ 77 + e.sv.toNat % 64 * 2 ^ 71 + e.sig.toNat * 2 ^ 63 + e.ant.toNat % 4 * 2 ^ 61 +
    b2n (bit f 11) * 2 ^ 60 + b2n (bit f 10) * 2 ^ 59 + b2n (bit f 9) * 2 ^ 58 +
    min 255 (roundDiv e.cn0.toNat 25).toNat * 2 ^ 50 + min 268435455 (pr01 e - p0) * 2 ^ 22 +
    elev.toNat * 2 ^ 15 + e.azim.toNat * 2 ^ 7

/-- A measurement snapshot (R337): lead channels with a valid pseudorange, at most `SNAPMAX`, in `MEAS` order. There is no
epoch to record while the navigation core does not run; one due while a snapshot is being committed waits for its end
(R335). -/
def State.umbMsnap (s : State) (es : List MeasEntry) : State :=
  let min60 := tvSec s.now / 60
  let si := s.get UMB_CFG_SNAPI
  let due := s.umb.snapDue || (si != 0 && min60 % si == 0 && s.umb.snapAt != some min60)
  if !due || !s.navOn then s
  else if !s.umb.snap.isEmpty then { s with umb := { s.umb with snapDue := true, snapAt := some min60 } }
  else
    let es := es.filter fun e => bit e.flags.toNat 15 && !bit e.flags.toNat 6
    let p0 := match es with
      | [] => 0
      | e :: r => r.foldl (fun m x => min m (pr01 x)) (pr01 e)
    let es := es.take (s.get UMB_CFG_SNAPMAX)
    let mk := fun t p => ({ time := tv64 s.now, typ := t, src := 0x01, sev := s.quality * 64, pay := p } : UEntry)
    let hd := mk 0x0002 (es.length * 2 ^ 72 + p0 % 2 ^ 32 * 2 ^ 40 +
      uns 32 (clampI (-2147483647) 2147483647 s.nav.delta) * 2 ^ 8 + s.get ITG_STATE_STATE * 2 ^ 4 +
      b2n (s.nav.posMode == 1) * 8 + b2n s.nav.solved * 4)
    let s := { s with umb := { s.umb with snapDue := false, snapAt := some min60,
                                          snap := es.map fun e => mk 0x0003 (msnapC p0 e) } }
    s.enqueue hd

end Sys2Proof.Machine
end

