-- ==== Sys2Proof/Machine/Mem.lean ====
section
/-! DEFINITION. Protected memory accesses (R21): correction, double-bit errors and the umber entry they cause. -/

namespace Sys2Proof.Machine

/-- The umber entry of a double-bit error (R21, R340). -/
def State.noteEcc (s : State) (k : MemClass) (a : Nat) : State :=
  (if k = .mram then s.umbDamage a else s).note 0x0501 k.codes.2 3 (k.codes.1 * 2 ^ 72 + a % 2 ^ 32)

/-- A read of `n` octets inside one protected unit (R21): a single-bit error is corrected and counted; a double-bit
error gives no value and one umber entry. -/
def State.memRead (s : State) (k : MemClass) (a n : Nat) : State × Option Nat :=
  match s.eccOf k a with
  | none => (s, some (s.peek a n))
  | some false => (s.incSat SYS_ECC_CNT_COUNT, some (s.peek a n))
  | some true => (s.noteEcc k a, none)

/-- A write of `n` octets inside one protected unit (R21): a write of the whole unit ends any error it held; a
narrower one reads the unit first, corrects and counts a single-bit error, and is refused by a double-bit error. -/
def State.memWrite (s : State) (k : MemClass) (a n v : Nat) : State × Bool :=
  if k.unit ≤ n then ((s.clrEcc k a).poke a n v, true)
  else
    match s.eccOf k a with
    | none => (s.poke a n v, true)
    | some false => (((s.incSat SYS_ECC_CNT_COUNT).clrEcc k a).poke a n v, true)
    | some true => (s.noteEcc k a, false)

/-- Units of the MRAM with errors, read in order up to the first double-bit error (R21). -/
def State.eccUpTo (s : State) : List (Nat × Bool) → State
  | [] => s
  | (_, false) :: rest => (s.incSat SYS_ECC_CNT_COUNT).eccUpTo rest
  | (a, true) :: _ => s.noteEcc .mram a

/-- Units of the MRAM with errors, each of them read (R21). -/
def State.eccEach (s : State) : List (Nat × Bool) → State
  | [] => s
  | (_, false) :: rest => (s.incSat SYS_ECC_CNT_COUNT).eccEach rest
  | (a, true) :: rest => (s.noteEcc .mram a).eccEach rest

/-- The errors stored in a range of the MRAM. -/
def State.eccIn (s : State) (a n : Nat) : List (Nat × Bool) :=
  s.ecc.filter fun e => decide (a < e.1 + 8) && decide (e.1 < a + n)

/-- The custody core or the loader reads octets of the MRAM (R21); what they give is read beside. -/
def State.mramRead (s : State) (a n : Nat) : State := s.eccUpTo (s.eccIn a n)

/-- The recovery scan ends; the errors that it met in the slots are counted or noted (R21, R331). With `TEST_EN` high
nothing is written to the MRAM (R428), so the record does not come into use. -/
def State.umbRecovered (s : State) (ms : Nat) : State :=
  if s.cus.testEn || s.on UMB_STAT_READY then s
  else ((s.umbScan.set UMB_STAT_READY 1).eccEach (s.eccIn 0x90000000 0x400000)).recoveryNote ms

/-- Words read one after another, up to the first double-bit error. -/
def State.memReadWords (s : State) (k : MemClass) (a : Nat) : Nat → State × List Nat × Bool
  | 0 => (s, [], true)
  | n + 1 =>
    match s.memRead k a 4 with
    | (s', none) => (s', [], false)
    | (s', some v) =>
      let (s'', vs, ok) := s'.memReadWords k (a + 4) n
      (s'', v :: vs, ok)

/-- Words written one after another. -/
def State.memWriteWords (s : State) (k : MemClass) (a : Nat) : List Nat → State
  | [] => s
  | v :: vs => (s.memWrite k a 4 v).1.memWriteWords k (a + 4) vs

end Sys2Proof.Machine
end

