-- ==== Sys2Proof/Machine/RtcBlock.lean ====
section
/-! DEFINITION. The always-on domain (ch. 13): the tick count and its trim, the wake period, stamps. -/

namespace Sys2Proof.Machine

/-- The trim in effect for a window: −512 acts as −511 (R302). -/
def trimValue (w : Nat) : Int := max (-511) (sgn 10 w)

/-- `k` crystal edges: corrections of R302 fall where the accumulator passes 2^20; a written trim applies from the
next window. `fuel` bounds the windows crossed. -/
def rtcEdges (written : Int) : Nat → Nat → RtcSt → RtcSt
  | 0, _, r => r
  | fuel + 1, k, r =>
    if k = 0 then r
    else
      let n := min k (2 ^ 20 - r.edge)
      let m := r.trim.natAbs
      let c : Nat := (r.edge + n) * m / 2 ^ 20 - r.edge * m / 2 ^ 20
      let sg : Int := if r.trim < 0 then -1 else 1
      let d : Int := (n : Int) + sg * c + r.owe
      let e := r.edge + n
      let l : Nat := e * m / 2 ^ 20 - (e - 1) * m / 2 ^ 20
      let r' : RtcSt := { r with
        tick := ((r.tick : Int) + d).toNat % 2 ^ 48, run := ((r.run : Int) + d).toNat,
        last := sg * l + (if n = 1 then r.owe else 0), owe := 0,
        edge := if e = 2 ^ 20 then 0 else e, trim := if e = 2 ^ 20 then written else r.trim }
      rtcEdges written fuel (k - n) r'

/-- The custody core counts a back-off in crystal edges, or on `IRC` while `XOFAIL` is set (R365). -/
def State.backoffCount (s : State) (edges ns : Nat) : State :=
  if !s.on CUS_STAT_BACKOFF then s
  else if s.on RTC_STAT_XOFAIL then { s with cus := { s.cus with waitNs := s.cus.waitNs + ns } }
  else { s with cus := { s.cus with waitEdges := s.cus.waitEdges + edges } }

/-- The interface lock of R303: by the comparator, or while BRACE lasts. -/
def State.rtcLocked (s : State) : Bool := s.rtc.lock || s.on SUP_STAT_BRACE

/-- A tick value put into a stamp's two registers. -/
def State.rtcStamp (s : State) (lo hi : Field) : State := s.set2 lo hi s.rtc.tick

/-- A wake source recognised at this tick (R306). -/
def State.rtcWakeSet (s : State) (f : Field) : State := (s.set f 1).rtcStamp RTC_WTICK_L_TICK RTC_WTICK_H_TICK

/-- `RTC_WAKE` takes a value and the period restarts at this tick (R304). -/
def State.rtcWake (s : State) (v : Nat) : State :=
  let s := s.set RTC_WAKE_WAKE v
  { s with rtc := { s.rtc with wakeBase := s.rtc.run } }

/-- The value of `RTC_WAKE` for an interval of `n` seconds, counted from a tick or from the write (R215). -/
def State.wakeValue (s : State) (n : Nat) (tick : Option Nat) : Nat :=
  match tick with
  | none => n * 256
  | some w => if n = 0 then 0 else max 1 ((n * 32768 + 64 - (s.rtc.tick - w)) / 128)

/-- `RTC_CTL.FSWCLR` (R309). -/
def State.rtcFswClr (s : State) : State :=
  let s := s.set RTC_FSW_H_VALID 0
  let s := s.set2 RTC_FSW_L_TICK RTC_FSW_H_TICK 0
  (s.set RTC_SWCNT_SWCNT 0).set RTC_SWCNT_WMISS 0

/-- The reason bits of `RTC_WREASON`, by bit. -/
def wreasonBits : List (Nat × Field) :=
  [(5, RTC_WREASON_BACKUP), (4, RTC_WREASON_POWER), (3, RTC_WREASON_RESET), (2, RTC_WREASON_SUPPLY), (1, RTC_WREASON_HOST),
   (0, RTC_WREASON_PERIODIC)]

/-- The registers whose writes apply at the next tick (R303, R405): `RTC_WAKE`, `RTC_CTL`, `RTC_WREASON`. -/
def rtcLateReg (a : Nat) : Bool := a == 0x40020018 || a == 0x4002001C || a == 0x40020024

/-- A write that the domain has accepted waits for the next tick, in place of one that waits for the same register (R405);
`locked` says that the seal holds for its RWL fields. -/
def State.rtcLater (s : State) (a w : Nat) (locked : Bool) : State :=
  { s with rtc := { s.rtc with todo := s.rtc.todo.filter (·.1 ≠ a) ++ [(a, w, locked)] } }

/-- The word that waits for a register, if one does. -/
def State.rtcWaits (s : State) (a : Nat) : Option Nat := (s.rtc.todo.find? (·.1 = a)).map (·.2.1)

/-- A write applies (R303, R304, R309). -/
def State.rtcTake (s : State) (x : Nat × Nat × Bool) : State :=
  let w := x.2.1
  if x.1 = 0x40020018 then s.rtcWake (w % 2 ^ 24)
  else if x.1 = 0x4002001C then
    let s := if x.2.2 then s else (s.set RTC_CTL_SYNCSET (bits w 31 31)).set RTC_CTL_BOUND (bits w 15 0)
    if bit w 30 then s.rtcFswClr.attnUpdate else s
  else wreasonBits.foldl (fun s b => if bit w b.1 then s.set b.2 0 else s) s

/-- Crystal edges counted. -/
def State.rtcCount (s : State) (k : Nat) : State :=
  { s.backoffCount k 0 with rtc := rtcEdges (trimValue (s.get RTC_TRIM_TRIM)) (k / 2 ^ 20 + 2) k s.rtc }

/-- The domain counts `k` crystal edges, unless it is held in reset or the crystal stands still (R299, R310); the writes that
wait apply at the first of them (R303). -/
def State.rtcAdvance (s : State) (k : Nat) : State :=
  if s.rtc.inReset || s.rtc.stopped then s
  else if k = 0 ∨ s.rtc.todo = [] then s.rtcCount k
  else
    let t := s.rtcCount 1
    let t := s.rtc.todo.foldl State.rtcTake { t with rtc := { t.rtc with todo := [] } }
    t.rtcCount (k - 1)

/-- A write of `RTC_WAKE` by the custody core; BRACE holds it off until its end (R215, R303). -/
def State.custWake (s : State) (n : Nat) (tick : Option Nat := none) : State :=
  if s.rtcLocked then { s with itg := { s.itg with wakePend := some (n, tick) } }
  else ({ s with itg := { s.itg with wakePend := none } }).rtcLater 0x40020018 (s.wakeValue n tick % 2 ^ 24) false

/-- The custody core clears reasons it has acted on (R306): its write takes those with it that still wait. -/
def State.wreasonAct (s : State) (mask : Nat) : State :=
  if mask = 0 then s else s.rtcLater 0x40020024 (mask ||| (s.rtcWaits 0x40020024).getD 0) false

/-- The custody core writes `RTC_CTL.FSWCLR` with the other fields as they are (R309). -/
def State.custFswClr (s : State) : State :=
  let held := s.get RTC_CTL_SYNCSET * 2 ^ 31 + s.get RTC_CTL_BOUND
  s.rtcLater 0x4002001C (((s.rtcWaits 0x4002001C).getD held) ||| 2 ^ 30) false

/-- A commit of the seconds: the staged top bit and the low word wait for their tick (R301). -/
def State.rtcCommit (s : State) (w : Nat) : State :=
  ({ s with rtc := { s.rtc with secVal := some (s.rtc.secTop * 2 ^ 32 + w) } }).set RTC_STAT_SETPEND 1

/-- The prescaler rolled over from 32,767 to 0 at the edge counted last (R301). An added tick can carry it one tick further;
the committed value then stands, and the correction is owed (R307). -/
def RtcSt.rolled (r : RtcSt) : Bool := r.tick % 32768 == 0 || (decide (0 < r.last) && r.tick % 32768 == 1)

/-- The correction a commit at the edge counted last moves to the next edge (R307): none where it was needed to reach
the rollover. -/
def RtcSt.moved (r : RtcSt) (sync : Bool) : Int := if sync && r.tick % 32768 == 0 then 0 else r.last

/-- The committed seconds apply: at a rollover of the prescaler with `SYNCSET`, else at this tick with the
prescaler cleared and `PRELOST` set (R301); a correction of the same edge moves to the next one (R307). -/
def State.rtcSecApply (s : State) (edges : Nat) : State :=
  let s := s.rtcAdvance edges
  match s.rtc.secVal with
  | none => s
  | some v =>
    let sync := s.on RTC_CTL_SYNCSET
    if sync && !s.rtc.rolled then s
    else
      let m := s.rtc.moved sync
      let s := { s with rtc := { s.rtc with tick := v * 32768, run := ((s.rtc.run : Int) - m).toNat, secVal := none, owe := m } }
      let s := (s.set RTC_STAT_SETPEND 0).set RTC_STAT_DISC 1
      if sync then s else s.set RTC_STAT_PRELOST 1

/-- A periodic wake falls due (R304, R306, R307): recorded, or counted as missed on `VBAT`; `WOVR` while a burst
runs. The period keeps its phase. -/
def State.rtcPeriodic (s : State) (edges : Nat) : State :=
  let s := s.rtcAdvance edges
  let p := s.get RTC_WAKE_WAKE * 128
  if p = 0 || decide (s.rtc.run < s.rtc.wakeBase + p) then s
  else
    let s := { s with rtc := { s.rtc with wakeBase := s.rtc.wakeBase + p } }
    if s.on RTC_STAT_ONBAT then s.incSat RTC_SWCNT_WMISS
    else
      let s := s.rtcWakeSet RTC_WREASON_PERIODIC
      if s.itg.burst.active then s.set RTC_STAT_WOVR 1 else s

/-- A host resume (R305): ignored on `VBAT`; the service port's receiver is enabled. -/
def State.rtcHost (s : State) (edges : Nat) : State :=
  let s := s.rtcAdvance edges
  if s.on RTC_STAT_ONBAT || s.rtc.inReset then s
  else { s.rtcWakeSet RTC_WREASON_HOST with svc := { s.svc with rxOn := true } }

/-- The switch to `VBAT` (R308). -/
def State.rtcToVbat (s : State) (edges : Nat) : State :=
  let s := s.rtcAdvance edges
  if s.on RTC_STAT_ONBAT || s.rtc.inReset then s
  else
    let s := s.set RTC_STAT_ONBAT 1
    let s := s.rtcStamp RTC_LSW_L_TICK RTC_LSW_H_TICK
    let s := if s.on RTC_FSW_H_VALID then s
      else (s.rtcStamp RTC_FSW_L_TICK RTC_FSW_H_TICK).set RTC_FSW_H_VALID 1
    let s := s.incSat RTC_SWCNT_SWCNT
    { s with rtc := { s.rtc with lock := true } }

/-- The return to `VDD_IO33` (R308). -/
def State.rtcFromVbat (s : State) (edges : Nat) : State :=
  let s := s.rtcAdvance edges
  if !s.on RTC_STAT_ONBAT || s.rtc.inReset then s
  else
    let s := s.set RTC_STAT_ONBAT 0
    (s.rtcStamp RTC_LRET_L_TICK RTC_LRET_H_TICK).rtcWakeSet RTC_WREASON_BACKUP

/-- The domain's reset: every register at its reset value, which sets `DISC` and `POWER` (R310). -/
def State.rtcReset (s : State) : State :=
  let s := (s.clearRegs 0x40020000 0x40030000).clearLatches 0x40020000 0x40030000
  { s with rtc := { inReset := true } }

/-- The domain leaves reset on the supply that returned and counts from 0 (R310). -/
def State.rtcLeaveReset (s : State) (onVbat : Bool) : State :=
  if !s.rtc.inReset then s
  else ({ s with rtc := { s.rtc with inReset := false } }).setB RTC_STAT_ONBAT onVbat

/-- `VBAT` measured while on `VDD_IO33`, in 10 mV: low below 2.2 V (R310). -/
def State.rtcVbat (s : State) (mv10 : Nat) : State :=
  if s.on RTC_STAT_ONBAT || s.rtc.inReset then s
  else (s.set RTC_VBAT_MV10 (satN 10 mv10)).setB RTC_STAT_VBATLOW (decide (mv10 < 220))

/-- No crystal edge for 1 ms (R310). -/
def State.rtcXofail (s : State) (edges : Nat) : State :=
  let s := s.rtcAdvance edges
  if s.on RTC_STAT_ONBAT || s.rtc.inReset then s
  else (({ s with rtc := { s.rtc with stopped := true } }).set RTC_STAT_XOFAIL 1).set RTC_STAT_DISC 1

/-- Crystal edges return and the count goes on (R310). -/
def State.rtcEdgesReturn (s : State) : State := { s with rtc := { s.rtc with stopped := false } }

end Sys2Proof.Machine
end

