-- ==== Sys2Proof/Machine/TelBlock.lean ====
section
/-! DEFINITION. Timed event lines (ch. 12): the schedule, windows and their gate, capture, Aelud words. -/

namespace Sys2Proof.Machine

/-- Whether line `n`'s bit is set in a map of three registers. -/
def State.telBit (s : State) (f : Nat → Field) (n : Nat) : Bool := bit (s.get (f (n / 32))) (n % 32)

/-- Line `n`'s bit of a map set or cleared. -/
def State.setTelBit (s : State) (f : Nat → Field) (n : Nat) (v : Bool) : State :=
  if v then s.orF (f (n / 32)) (2 ^ (n % 32)) else s.clrF (f (n / 32)) (2 ^ (n % 32))

/-- The holdover bounds in force (ch. 8): each written bound held within the next wider one. -/
def State.dgBound (s : State) : Nat := min (max (s.get ITG_DGBND_NS) 10) 1000000
/-- `ITG_HBND` in force. -/
def State.hBound (s : State) : Nat := min (max (s.get ITG_HBND_NS) 10) s.dgBound
/-- `ITG_TRBND` in force. -/
def State.trBound (s : State) : Nat := min (max (s.get ITG_TRBND_NS) 10) s.hBound

/-- The integrity code (R198). -/
def State.code (s : State) : Nat := s.get ITG_STATE_STATE

/-- The gate conditions of R290 that fail, one bit each as the `WDENIED` entry gives them (R340). -/
def State.gateFails (s : State) (n : Nat) : Nat :=
  let c := s.code
  let codeOk := c == 4 || (c == 3 && decide (s.get TIM_TERR_NS ≤ s.hBound))
  let sealOk := !s.telBit TEL_SEALREQ_MAP n || s.get CUS_STAT_STATE == 1 || s.get CUS_STAT_STATE == 2
  b2n (!codeOk) + 2 * b2n (!s.telBit TEL_PERMIT_MAP n) + 4 * b2n (s.get TIM_STAT_STATE != 2) + 8 * b2n (!sealOk)

/-- Whether a line's driver drives: its mode is an output, its bank's drivers are on (R280), and the part has more than
the minimum service set (R29, R30). -/
def State.telDrives (s : State) (n : Nat) : Bool :=
  let m := s.get (TEL_CFG_MODE n)
  (m == 1 || m == 2 || m == 4) && (s.bank (n / 24)).drivers && s.serves

/-- The level of a line's pin; `POL` makes the inactive level high (R281). -/
def State.telPin (s : State) (n : Nat) : Bool := s.on (TEL_STAT_LEVEL n) != s.on (TEL_CFG_POL n)

/-- A line shows its level at its pin when its driver drives. -/
def State.telShow (s : State) (n : Nat) : State := if s.telDrives n then s.emit (.line n (s.telPin n)) else s

/-- A line's logical level set; an edge leaves the part when its driver drives. -/
def State.telLevel (s : State) (n : Nat) (v : Bool) : State :=
  if s.on (TEL_STAT_LEVEL n) = v then s else (s.setB (TEL_STAT_LEVEL n) v).telShow n

/-- A window opens (R290): the line goes active and one umber entry names the entry that opened it. Below the minimum
service set every window stays closed (R30). -/
def State.winOpen (s : State) (n idx sub : Nat) : State :=
  if s.itg.below then s else
  let s := (s.set (TEL_STAT_WSTATE n) 1).telLevel n true
  let s := s.setLine n { s.line n with openAt := s.tim.up + sub / 65536 }
  s.note 0x0601 0x09 1 (n * 2 ^ 73 + idx) sub

/-- A window closes with a cause (R291); a window that is not open or held returns to CLOSED without an entry. -/
def State.winClose (s : State) (n cause sub : Nat) : State :=
  let w := s.get (TEL_STAT_WSTATE n)
  let s := (s.set (TEL_STAT_WSTATE n) 0).telLevel n false
  if w = 1 ∨ w = 2 then
    let ms := (s.tim.up + sub / 65536 - (s.line n).openAt) / 1000000
    s.note 0x0603 0x09 1 (n * 2 ^ 73 + cause * 2 ^ 70 + min ms (2 ^ 32 - 1)) sub
  else s

/-- A fall of trust (R212): open windows close or become HELD by their line's action; with `FAILCLOSE` a change to
code 0x0 closes every open or held window. -/
def State.winFall (s : State) (fall : Bool) (code : Nat) : State :=
  s.each 96 fun n s =>
    let w := s.get (TEL_STAT_WSTATE n)
    if code = 0 ∧ s.on ITG_CFG_FAILCLOSE ∧ (w = 1 ∨ w = 2) then s.winClose n 2 0
    else if fall ∧ w = 1 then
      if s.on (TEL_CFG_HOLD n) then
        let s := s.set (TEL_STAT_WSTATE n) 2
        let s := s.setLine n { s.line n with fallAt := s.tim.up }
        s.note 0x0602 0x09 2 (n * 2 ^ 73 + code * 2 ^ 69)
      else s.winClose n 2 0
    else s

/-- DENIED windows with `LATEOPEN` open as soon as the gate permits (R290). -/
def State.lateOpen (s : State) : State :=
  s.each 96 fun n s =>
    if s.get (TEL_STAT_WSTATE n) = 3 ∧ s.on (TEL_CFG_LATEOPEN n) ∧ s.gateFails n = 0 then
      s.winOpen n (s.line n).openIdx 0
    else s

/-- Windows whose gate the permit, the seal request or the custody state now refuses close with cause PERMIT
(R291); DENIED windows are judged again. -/
def State.winPermit (s : State) : State :=
  (s.each 96 fun n s =>
    let w := s.get (TEL_STAT_WSTATE n)
    if (w = 1 ∨ w = 2) ∧ (bit (s.gateFails n) 1 || bit (s.gateFails n) 3) then s.winClose n 4 0 else s).lateOpen

/-! ### The schedule (R282–R288) -/

/-- An entry's line, action, next index, `END`, `ARG` and due time. -/
def EntryCopy.line (c : EntryCopy) : Nat := bits c.w0 30 24
/-- `ACTION` -/
def EntryCopy.action (c : EntryCopy) : Nat := bits c.w0 23 20
/-- `NEXT` -/
def EntryCopy.next (c : EntryCopy) : Nat := bits c.w0 11 0
/-- `END` -/
def EntryCopy.last (c : EntryCopy) : Bool := bit c.w0 15
/-- `ARG` -/
def EntryCopy.arg (c : EntryCopy) : Nat := bits c.w1 31 16
/-- The entry's time in 2^-64 ns of device time. -/
def EntryCopy.due (c : EntryCopy) : Nat := (bits c.w1 15 0 * 2 ^ 32 + c.w2) * secU + c.w3 * 2 ^ 64

/-- Whether an action is one of a mode (R283). -/
def actionOk (mode action : Nat) : Bool :=
  match action with
  | 0 => mode != 4
  | 1 | 2 | 3 => mode == 1
  | 4 | 5 => mode == 2
  | 6 | 7 => mode == 3
  | _ => false

/-- A chain error (R282–R284): double-bit error, another line's entry, a nonzero unlisted bit, an action of another
mode or reserved, a `PULSE` without width, nanoseconds out of range. -/
def EntryCopy.err (c : EntryCopy) (n mode : Nat) : Bool :=
  c.bad || c.line != n || bits c.w0 19 16 != 0 || bits c.w0 14 12 != 0 || !actionOk mode c.action ||
    (c.action == 3 && c.arg == 0) || decide (999999999 < c.w3)

/-- An erroneous entry at the head of a line stops the line (R284). -/
def State.telHead (s : State) (n : Nat) : State :=
  let l := s.line n
  match l.copies with
  | [] => s
  | c :: _ =>
    if c.err n (s.get (TEL_CFG_MODE n)) then
      let s := s.setLine n { l with stopped := true, copies := [], fetchAt := none }
      let s := (s.set (TEL_STAT_CHAINERR n) 1).orF TEL_IRQ_IRQ 1
      let s := s.set (TEL_PTR_PTR n) c.idx
      s.note 0x0605 0x09 2 (n * 2 ^ 73 + c.idx)
    else s

/-- The fetch of a line's next entry into a free copy (R284, R285): an invalid entry is not taken. -/
def State.telFetch (s : State) (n sub : Nat) : State :=
  let l := s.line n
  match l.fetchAt with
  | none => s
  | some i =>
    if 2 ≤ l.copies.length ∨ s.get (TEL_CFG_MODE n) = 4 then s
    else
      let (s, ws, ok) := s.memReadWords .sched (0x40210000 + i * 16) 4
      let c : EntryCopy := { idx := i, w0 := ws.getD 0 0, w1 := ws.getD 1 0, w2 := ws.getD 2 0, w3 := ws.getD 3 0,
                             bad := !ok }
      if ok && !bit c.w0 31 then s
      else
        let c := { c with near := l.due2.any fun d => decide (d ≤ c.due) && decide (c.due < d + usU) }
        let stop := c.last || c.err n (s.get (TEL_CFG_MODE n))
        let s := s.setLine n { l with
          copies := l.copies ++ [c], fetchAt := if stop then none else some c.next, due1 := some c.due, due2 := l.due1,
          headAt := if l.copies = [] then s.now sub else l.headAt }
        if l.copies = [] then s.telHead n else s

/-- The line moves past its head entry (R284). -/
def State.telAdvance (s : State) (n sub : Nat) (c : EntryCopy) : State :=
  let l := s.line n
  let s := s.setLine n { l with copies := l.copies.tail, headAt := s.now sub }
  if c.last then s.set (TEL_PTR_IDLE n) 1 else (s.set (TEL_PTR_PTR n) c.next).telHead n

/-- Device time at the clock at which an entry fell due: its own time, or the new time of the load or step that passed it. -/
def State.fellDue (s : State) (due : Nat) : Nat :=
  match s.tim.jump with
  | some (a, b) => if a < due && decide (due ≤ b) then b else due
  | none => due

/-- An entry of line `n` that reaches the head at device time `at_` is late (R288): past by more than `LATEMAX` as it reached the
head; one less than 1 µs after the entry two places before it counts as reaching the head at the clock it fell due (R285). -/
def State.lateHead (s : State) (n : Nat) (c : EntryCopy) (at_ : Nat) : Bool :=
  decide (c.due + s.get (TEL_CFG_LATEMAX n) * msU < if c.near then s.fellDue c.due else at_)

/-- The head entry of a line executes when it is due (R288): skipped when late by more than `LATEMAX` as it reached
the head; without effect, and `SUPERSEDED`, when the next held entry acts in the same clock: it is due, and is not late as it
comes to the head; else `act` acts. -/
def State.telExec (s : State) (n sub action : Nat) (act : EntryCopy → State → State) : State :=
  let l := s.line n
  let t := s.now sub
  match l.copies with
  | [] => s
  | c :: rest =>
    if c.action ≠ action ∨ t < c.due ∨ l.stopped then s
    else if s.lateHead n c l.headAt then
      ((s.set (TEL_STAT_LATE n) 1).incSat (TEL_LATECNT_COUNT n)).telAdvance n sub c
    else
      let s := s.inc (TEL_EXEC_COUNT n)
      let sup := match rest with
        | [] => false
        | d :: _ => decide (d.due ≤ t) && !d.err n (s.get (TEL_CFG_MODE n)) && !s.lateHead n d t
      let s := if sup then s.set (TEL_STAT_SUPERSEDED n) 1 else act c s
      s.telAdvance n sub c

/-- Whether `QUAL` withholds a `SET` or `PULSE` (R289). -/
def State.telWithheld (s : State) (n : Nat) : Bool := decide (s.code < s.get (TEL_CFG_QUAL n))

/-- `SET` (R283, R289, R444). -/
def telActSet (n : Nat) (_ : EntryCopy) (s : State) : State :=
  if s.telWithheld n then s.set (TEL_STAT_WITHHELD n) 1
  else if (s.line n).pulseTo.isSome then s.setLine n { s.line n with after := true }
  else s.telLevel n true

/-- `CLEAR` (R283, R444). -/
def telActClear (n : Nat) (_ : EntryCopy) (s : State) : State :=
  if (s.line n).pulseTo.isSome then s.setLine n { s.line n with after := false } else s.telLevel n false

/-- `PULSE` (R283, R289, R444): the width counts elapsed time. -/
def telActPulse (n sub : Nat) (c : EntryCopy) (s : State) : State :=
  if s.telWithheld n then s.set (TEL_STAT_WITHHELD n) 1
  else
    let stop := s.tim.up + sub / 65536 + c.arg * 1000
    let l := s.line n
    match l.pulseTo with
    | some e => s.setLine n { l with pulseTo := some (max e stop), after := false }
    | none => (s.setLine n { l with pulseTo := some stop, after := false }).telLevel n true

/-- `OPEN` (R290): without effect on an open or held window; else a gate that is shut leaves the window DENIED, with an
entry, and one that permits opens a closed window (DEDUCED: log 34). -/
def telActOpen (n sub : Nat) (c : EntryCopy) (s : State) : State :=
  let w := s.get (TEL_STAT_WSTATE n)
  if w = 1 ∨ w = 2 then s
  else
    let g := s.gateFails n
    if g = 0 then (if w = 0 then s.winOpen n c.idx sub else s)
    else
      let s := (s.set (TEL_STAT_WSTATE n) 3).orF TEL_IRQ_IRQ 8
      let s := s.setLine n { s.line n with openIdx := c.idx }
      s.note 0x0604 0x09 2 (n * 2 ^ 73 + g * 2 ^ 69 + c.idx) sub

/-- `CLOSE` (R283, R291). -/
def telActClose (n sub : Nat) (_ : EntryCopy) (s : State) : State := s.winClose n 0 sub

/-- `ARM` and `DISARM` (R283). -/
def telActArm (n : Nat) (on : Bool) (_ : EntryCopy) (s : State) : State :=
  if s.on (TEL_CFG_GATED n) then s.setB (TEL_STAT_ARMED n) on else s

/-- A pulse ends and the line takes its pending level (R444). -/
def State.telPulseEnd (s : State) (n : Nat) : State :=
  let l := s.line n
  match l.pulseTo with
  | none => s
  | some e =>
    if s.reached e 0 then (s.setLine n { l with pulseTo := none, after := false }).telLevel n l.after else s

/-- A line's mode ends (R281). -/
def State.telModeEnd (s : State) (n cause : Nat) : State :=
  let s := s.winClose n cause 0
  let l := s.line n
  let k := l.fifo.length
  let s := s.incSat (TEL_LOST_COUNT n) k
  let s := s.set (TEL_FILL_FILL n) 0
  let s := s.setTelBit TEL_CAPNE_MAP n false
  let follow := !s.on (TEL_PTR_IDLE n) && !l.stopped
  let s := s.setLine n { l with
    copies := [], pulseTo := none, after := false, fifo := [], due1 := none, due2 := none,
    fetchAt := if follow then some (s.get (TEL_PTR_PTR n)) else none }
  (s.set (TEL_STAT_ARMED n) 0).telLevel n false

/-- The effect of a write of `TEL_CFG` (R279, R281): a reserved mode is refused with `CFGERR`; a change of mode ends
the old one. `old` is the mode before the write. -/
def State.telCfg (s : State) (n old : Nat) : State :=
  let m := s.get (TEL_CFG_MODE n)
  if 5 ≤ m then (s.set (TEL_CFG_MODE n) old).set (TEL_STAT_CFGERR n) 1
  else if m = old then s
  else ((s.set (TEL_CFG_MODE n) old).telModeEnd n 5).set (TEL_CFG_MODE n) m

/-- An output line shows its level as its mode starts, and when `POL` changes (R281); `old` is the state before the write. -/
def State.telCfgShow (s : State) (n : Nat) (old : State) : State :=
  if s.get (TEL_CFG_MODE n) ≠ old.get (TEL_CFG_MODE n) ∨ s.on (TEL_CFG_POL n) ≠ old.on (TEL_CFG_POL n) then s.telShow n else s

/-- The effect of a write of `TEL_PTR` (R284). -/
def State.telPtr (s : State) (n : Nat) : State :=
  let s := s.set (TEL_PTR_IDLE n) 0
  s.setLine n { s.line n with
    copies := [], fetchAt := some (s.get (TEL_PTR_PTR n)), stopped := false, due1 := none, due2 := none }

/-- The copies of one line discarded (R287). -/
def State.telFlush (s : State) (n : Nat) : State :=
  let l := s.line n
  let follow := !s.on (TEL_PTR_IDLE n) && !l.stopped
  s.setLine n { l with copies := [], due1 := none, due2 := none,
                       fetchAt := if follow then some (s.get (TEL_PTR_PTR n)) else none }

/-- The effect of a write of `TEL_INVAL` (R287). -/
def State.telInval (s : State) (w : Nat) : State :=
  if bit w 31 then s.each 96 fun n s => s.telFlush n
  else if w % 128 < 96 then s.telFlush (w % 128) else s

/-! ### Capture (R292) -/

/-- An edge on a capture line: ignored when its pulse is shorter than 50 ns, not selected, or not armed; else
stamped, or lost when the FIFO is full. -/
def State.telEdge (s : State) (n sub : Nat) (falling : Bool) (width : Nat) : State :=
  if s.get (TEL_CFG_MODE n) ≠ 3 then s
  else if width < 50 then s.set (TEL_STAT_GLITCH n) 1
  else
    let e := s.get (TEL_CFG_EDGE n)
    let sel := match e with
      | 0 => !falling
      | 1 => falling
      | _ => true
    if !sel || (s.on (TEL_CFG_GATED n) && !s.on (TEL_STAT_ARMED n)) then s
    else
      let l := s.line n
      if l.fifo.length < 256 then
        let s := s.setLine n { l with fifo := l.fifo ++ [(tv96 (s.now sub), falling)] }
        let s := s.set (TEL_FILL_FILL n) (l.fifo.length + 1)
        (s.setTelBit TEL_CAPNE_MAP n true).orF TEL_IRQ_IRQ 2
      else
        let s := s.setLine n { l with lost := some (l.lost.getD 0 + 1) }
        ((s.incSat (TEL_LOST_COUNT n)).set (TEL_STAT_OVF n) 1).orF TEL_IRQ_IRQ 4

/-- The overflow episode ends when the FIFO holds no stamp (R292). -/
def State.telOvfEnd (s : State) (n : Nat) : State :=
  let l := s.line n
  match l.lost with
  | none => s
  | some k =>
    if l.fifo ≠ [] then s
    else (s.setLine n { l with lost := none }).note 0x0606 0x09 2 (n * 2 ^ 73 + min k (2 ^ 32 - 1))

/-- A read of `TEL_CAP_SH`: the oldest stamp leaves the FIFO and is latched for the master (R292, R403). -/
def State.telCapRead (s : State) (m : Master) (n : Nat) : State :=
  let l := s.line n
  let (st, fall, valid) : Nat × Bool × Bool := match l.fifo with
    | [] => (0, false, false)
    | (t, f) :: _ => (t, f, true)
  let s := s.setLine n { l with fifo := l.fifo.tail }
  let s := s.set (TEL_FILL_FILL n) l.fifo.tail.length
  let s := if l.fifo.tail = [] then s.setTelBit TEL_CAPNE_MAP n false else s
  let a := 0x40200400 + n * 0x40 + 0x20
  let s := s.hold m a (st % 2 ^ 16 * 2 ^ 16 + bits st 95 80)
  let s := s.hold m (a + 4) (bits st 79 48)
  s.hold m (a + 8) (b2n fall * 2 ^ 31 + b2n valid * 2 ^ 30 + bits st 47 16)

/-! ### Banks and Aelud words -/

/-- A bank's drivers go on, and its lines show their levels (R280, R433). -/
def State.bankDrive (s : State) (b : Nat) : State :=
  (s.setBank b { s.bank b with drivers := true }).each 24 fun k s => s.telShow (24 * b + k)

/-- A bank supply measured, in 10 mV (R280): `VERR` when absent or off `V33` by more than 10 %, which turns the
drivers off. -/
def State.bankMeasure (s : State) (b mv10 : Nat) : State :=
  let nom := if s.on (TEL_BANK_V33 b) then 330 else 180
  let dif := if mv10 < nom then nom - mv10 else mv10 - nom
  let present := decide (120 < mv10)
  let verr := !present || decide (nom < dif * 10)
  let was := s.on (TEL_BANK_VERR b) || !(s.bank b).measured
  let s := s.set (TEL_BANK_MV10 b) (satN 10 mv10)
  let s := (s.setB (TEL_BANK_PRESENT b) present).setB (TEL_BANK_VERR b) verr
  let k := s.bank b
  s.setBank b { k with measured := true, drivers := k.drivers && !verr,
                       clearAt := if was && !verr then s.tim.up else k.clearAt }

/-- `VERR` has been clear for 1 ms: the drivers return and take the state their line holds (R433). -/
def State.bankReturn (s : State) (b : Nat) : State :=
  let k := s.bank b
  if !k.measured || s.on (TEL_BANK_VERR b) || k.drivers then s
  else s.bankDrive b

/-- The 80-bit Aelud word of a second (R294). -/
def aeludWord (code sec utcofs tag : Nat) : List Byte :=
  let body := beBytes 1 (0x10 + code % 16) ++ beBytes 5 (sec % 2 ^ 40) ++ beBytes 1 (utcofs % 256) ++ beBytes 1 tag
  0xB2 :: body ++ beBytes 1 (crc8 body)

/-- The levels of an Aelud line from a second on, before `POL` (R293): the marker for 10 µs, the bit cells of 1 µs from 30 µs,
a 1 with the inactive level first and a 0 with the active one, then rest. -/
def aeludLevels (word : List Byte) : List (Nat × Bool) :=
  let cells := word.flatMap fun (b : Byte) => (List.range 8).map fun k => b.getLsbD (7 - k)
  [(0, true), (10000, false)] ++
    (cells.zipIdx.flatMap fun (v, k) => [(30000 + 1000 * k, !v), (30500 + 1000 * k, v)]) ++ [(110000, false)]

/-- The words sent by the lines in AELUD mode that drive (R30, R293, R296), if device time is at a whole second. -/
def State.aeludSecond (s : State) : State :=
  if s.tim.t % secU ≠ 0 then s
  else s.each 96 fun n s =>
    let l := s.line n
    let clear : Bool := match l.wordEnd with
      | none => true
      | some e => decide (e + 200000 ≤ s.tim.up)
    if s.get (TEL_CFG_MODE n) = 4 ∧ s.telDrives n ∧ clear then
      let s := s.setLine n { l with wordEnd := some (s.tim.up + 110000) }
      let word := aeludWord s.code (tvSec s.now) (s.get TIM_UTC_UTCOFS) (s.get TEL_TAG_TAG)
      s.emit (.aelud n word ((aeludLevels word).map fun (t, v) => (t, v != s.on (TEL_CFG_POL n))))
    else s

/-- The part falls to the minimum service set: every line goes to DISABLED, windows close with cause SERVICE
(R297), and an overflow episode that this ends has its entry (R292). -/
def State.telMinimum (s : State) : State :=
  s.each 96 fun n s =>
    (if s.get (TEL_CFG_MODE n) = 0 then s else (s.telModeEnd n 6).set (TEL_CFG_MODE n) 0).telOvfEnd n

end Sys2Proof.Machine
end

