-- ==== Sys2Proof/Machine/TimeBlock.lean ====
section
/-! DEFINITION. The time core (ch. 9): corrections, loads, the step, holdover prediction, pulses and the pulse
input. Corrections are counted in 2^-48 s, device time in 2^-64 ns. -/

namespace Sys2Proof.Machine

/-- 2^-48 s in picoseconds, rounded to nearest. -/
def u48ToPs (u : Int) : Int := roundDiv (u * 1000000000000) (2 ^ 48)

/-- Milliseconds of device time into the second. -/
def State.msOfSec (s : State) : Nat := s.tim.t % secU / msU

/-- Device time stands at a whole second whose actions have not run yet. -/
def State.secondWaits (s : State) : Bool := decide (s.tim.t % secU = 0) && s.tim.secDone != some (tvSec s.tim.t)

/-- How many whole seconds are to come up to the first one at or after `t`, that one included. -/
def State.secondsTill (s : State) (t : Nat) : Nat := ceilDiv t secU - tvSec s.tim.t + b2n s.secondWaits

/-- The how manieth whole second to come a change committed now takes effect at (R220). -/
def State.applyIn (s : State) : Nat := (if s.msOfSec < 500 then 1 else 2) + b2n s.secondWaits

/-- A value that waits for the `k`th whole second to come replaces one that waits for the same second. -/
def dueAdd {α : Type} (l : List (Nat × α)) (k : Nat) (v : α) : List (Nat × α) := (k, v) :: l.filter fun e => e.1 != k

/-- At a whole second: what applies, if anything, and what goes on waiting. -/
def dueTick {α : Type} (l : List (Nat × α)) : Option α × List (Nat × α) :=
  ((l.find? fun e => decide (e.1 ≤ 1)).map (·.2),
    (l.filter fun e => decide (1 < e.1)).map fun e => (e.1 - 1, e.2))

/-- The correction added up to now (R224). -/
def State.corrNow (s : State) : Int := s.tim.corr + s.tim.applied * (s.msOfSec : Int) / 1000

/-- The correction added up to an earlier epoch count. -/
def corrAt (hist : List (Nat × Int × Int)) (e : Nat) : Int :=
  match hist.find? fun h => decide (h.1 ≤ e) with
  | some (e0, c, v) => c + v * ((e - e0 : Nat) : Int) / 1000
  | none => 0

/-- The 64-bit epoch count that a 32-bit stamp names, by the half-window rule; `none` when it lies ahead (R436). A stamp that has
passed before the count began stands for its begin: no correction was added before it. -/
def State.stampEpoch (s : State) (t32 : Nat) : Option Nat :=
  let n := s.epochCount
  let behind := (n % 2 ^ 32 + 2 ^ 32 - t32) % 2 ^ 32
  if behind < 2 ^ 31 then some (n - behind) else none

/-! ### Holdover prediction (R226) -/

/-- The model terms of R226 after `n` ns: whether `lim` ns covers E0 + UY·Δt + ½·AG·Δt² + WN·√Δt, with `e0` in ps. -/
def holdFits (e0 uy ag wn n lim : Nat) : Bool :=
  let d := 2 * 86400 * 10 ^ 18
  let r := e0 * d + uy * n * (d / 10 ^ 9) + ag * n * n
  let x := lim * 1000 * d
  decide (r ≤ x) && decide (wn * wn * n * d * d ≤ 10 ^ 9 * (x - r) * (x - r))

/-- The prediction in whole ns, rounded up. -/
def holdNs (e0 uy ag wn n : Nat) : Nat :=
  let d := 2 * 86400 * 10 ^ 18
  let r := e0 * d + uy * n * (d / 10 ^ 9) + ag * n * n
  let k := (r / d + isqrt (wn * wn * n / 10 ^ 9)) / 1000
  if holdFits e0 uy ag wn n k then k
  else if holdFits e0 uy ag wn n (k + 1) then k + 1
  else k + 2

/-- The largest number of seconds between `lo` and `hi` over which the prediction stays within a limit. -/
def holdLongest (e0 uy ag wn lim : Nat) : Nat → Nat → Nat → Nat
  | 0, lo, _ => lo
  | fuel + 1, lo, hi =>
    if hi ≤ lo then lo
    else
      let m := (lo + hi + 1) / 2
      if holdFits e0 uy ag wn (m * 10 ^ 9) lim then holdLongest e0 uy ag wn lim fuel m hi
      else holdLongest e0 uy ag wn lim fuel lo (m - 1)

/-- δpred now, in ps (R226). -/
def State.dpred (s : State) : Int := s.tim.dfix + u48ToPs (s.corrNow - s.tim.dcorr)

/-- `TERR` for a predicted δ, at the elapsed instant `up` (R226): unknown in FREE and after a load of unknown error. -/
def State.terrFor (s : State) (d : Int) (up : Nat) : Nat :=
  if s.get TIM_STAT_STATE = 0 then 0xFFFFFFFF
  else
    match s.tim.e0 with
    | none => 0xFFFFFFFF
    | some e0 =>
      min 0xFFFFFFFE (holdNs (e0 + d.natAbs) (s.get TIM_HM_UY_UY) (s.get TIM_HM_AG_AG) (s.get TIM_HM_WN_WN)
        (up - s.tim.e0At))

/-- `TERR` now (R226). -/
def State.terrNow (s : State) : Nat := s.terrFor s.dpred s.tim.up

/-- δpred as the holdover predicted it for an earlier epoch count, in ps (R201, R226). -/
def State.dpredAt (s : State) (e : Nat) : Int := s.tim.dfix + u48ToPs (corrAt s.tim.hist e - s.tim.dcorr)

/-- `TIM_IMODEL` (R226): 0 before a fix or the step has set E0. -/
def State.imodelNow (s : State) : Nat :=
  let lim := min (s.get ITG_BURST2_TGT) s.trBound
  match s.tim.e0 with
  | none => 0
  | some e0 =>
    if s.get TIM_STAT_STATE ≠ 2 ∨ lim * 1000 < e0 then 0
    else holdLongest e0 (s.get TIM_HM_UY_UY) (s.get TIM_HM_AG_AG) (s.get TIM_HM_WN_WN) lim 17 0 65535

/-- The registers of the prediction re-evaluated (R226). -/
def State.timEval (s : State) : State :=
  let s := s.set TIM_TERR_NS s.terrNow
  let s := s.setI TIM_DPRED_PS (satI 32 s.dpred)
  let s := s.set TIM_IMODEL_S s.imodelNow
  let s := match s.tim.fixAt with
    | none => s
    | some a => s.set TIM_HAGE_S (satN 32 ((s.tim.up - a) / 10 ^ 9))
  s.setI TIM_SLREM_Q (satI 32 (u48ToPs (s.tim.q - s.tim.applied * (s.msOfSec : Int) / 1000)))

/-! ### Requests (R218, R221, R222) -/

/-- A released correction waits for its second; a later one for the same second replaces it (R218, R220, R228). A stamp ahead of the current
epoch discards it (R436). -/
def State.timRelease (s : State) (delta : Int) (sigma : Nat) (drift : Int) (stamp : Option Nat) (fonly : Bool)
    (src : Nat) : State :=
  match stamp with
  | none => s.set TIM_STAT_FIXSTALE 1
  | some e =>
    let f : FixPend := { delta := delta, sigma := sigma, drift := drift, stamp := e, fonly := fonly, src := src,
                         at_ := s.applyIn }
    { s with tim := { s.tim with fixes := f :: s.tim.fixes.filter fun g => g.at_ != f.at_ } }

/-- `TIM_FIX_CTL` written (R218). -/
def State.timFixGo (s : State) (w : Nat) : State :=
  if bit w 31 then
    s.timRelease (clampI (-2147483647) 2147483647 (s.getI TIM_FIX_D_DELTA)) (s.get TIM_FIX_S_SIGMA)
      (s.getI TIM_FIX_DR_DRIFT) (s.stampEpoch (s.get TIM_FIX_T_EPOCH)) (bit w 30) 0
  else s

/-- `TIM_STEP_CTL` written (R222): refused in STEPPED; else the step waits for the first whole second at least
1.5 s ahead. -/
def State.timStepGo (s : State) (w : Nat) : State :=
  if !bit w 31 then s
  else if s.get TIM_STAT_STATE = 2 then s.set TIM_STAT_REFUSED 1
  else
    let a := s.secondsTill (s.tim.t + secU + secU / 2)
    { s with tim := { s.tim with stepAsked := true, step := some {
        delta := s.getI2 TIM_STEP_L_DELTA TIM_STEP_H_DELTA, sigma := s.get TIM_FIX_S_SIGMA,
        stamp := (s.stampEpoch (s.get TIM_FIX_T_EPOCH)).getD s.epochCount, at_ := a } } }

/-- `TIM_LOAD_CTL` written (R221, R436): refused in STEPPED, or when its boundary has passed. -/
def State.timLoadGo (s : State) (w : Nat) : State :=
  if !bit w 31 then s
  else if s.get TIM_STAT_STATE = 2 then s.set TIM_STAT_REFUSED 1
  else
    let n := s.epochCount
    let ep := s.get TIM_LOAD_EP_EPOCH
    if (n % 2 ^ 32 + 2 ^ 32 - ep) % 2 ^ 32 < 2 ^ 31 then s.set TIM_STAT_LATE 1
    else
      let sec := s.get TIM_LOAD_SH_SECH * 2 ^ 32 + s.get TIM_LOAD_SL_SECL
      { s with tim := { s.tim with load := some {
          t := sec * secU + s.get TIM_LOAD_NS_NS * 2 ^ 64, epoch := ep, err := s.get TIM_LOAD_ERR_NS,
          src := bits w 26 24 } } }

/-- An instant of device time carried over a move of it by `mv`, in 2^-64 ns. -/
def movedBy (mv : Int) (t : Nat) : Nat := ((t : Int) + mv).toNat

/-- An output's pulse when device time moves: edges composed in the old time are not produced (R234), a pulse begun
completes at its width (R236), and its instants are measured in the new time. -/
def TpSt.moved (p : TpSt) (mv : Int) : TpSt :=
  { p with edges := [], composed := none, first := 0, msg := none, trailAt := p.trailAt.map (movedBy mv),
           lastTrail := movedBy mv p.lastTrail, notBefore := movedBy mv p.notBefore }

/-- The pulses after a load that moved device time by `mv` (R223, R234): the first second composed is that after the next
composition instant. After a move backwards the first edge meets both rules of R236, that of a step and that of a change of
setting (DEDUCED: log 55). -/
def State.tpMoved (s : State) (mv : Int) : State :=
  s.each 2 fun n s =>
    let sec := tvSec s.tim.t
    let p := { (s.tp n).moved mv with first := if s.tim.t % secU ≤ secU / 2 then sec + 1 else sec + 2 }
    s.setTp n (if mv < 0 then { p with align := true, notBefore := s.tim.t + secU } else p)

/-- The head entries of the event lines after a move of device time (R288): each counts as reaching the head at the new
time, so that an entry passed by more than `LATEMAX` is late (DEDUCED: log 46). `was` is device time before. -/
def State.telMoved (s : State) (was : Nat) : State :=
  let s := { s with tim := { s.tim with jump := if was < s.tim.t then some (was, s.tim.t) else none } }
  s.each 96 fun n s =>
    if (s.line n).copies = [] then s else s.setLine n { s.line n with headAt := s.tim.t }

/-- The load takes effect at its boundary (R221, R226), unless a step is due there (R228). -/
def State.timLoadApply (s : State) : State :=
  match s.tim.load with
  | none => s
  | some l =>
    if s.epochCount % 2 ^ 32 ≠ l.epoch then s
    else
      let s := { s with tim := { s.tim with load := none } }
      let stepDue := match s.tim.step with
        | some p => s.secondWaits && decide (p.at_ ≤ 1)
        | none => false
      if s.get TIM_STAT_STATE = 2 then s.set TIM_STAT_REFUSED 1
      else if stepDue then s
      else
        let was := s.tim.t
        let mvU := (l.t : Int) - was
        let mv := uToPs mvU
        let n := s.epochCount
        let s := { s with tim := { s.tim with
          t := l.t, secDone := none, moves := (n, mv) :: s.tim.moves, movedAt := n, dfix := 0, dcorr := s.corrNow,
          e0 := if l.err = 0xFFFFFFFF then none else some (l.err * 1000), e0At := s.tim.up } }
        (((s.set TIM_STAT_STATE 1).set TIM_STAT_SRC l.src).tpMoved mvU).telMoved was |>.sumMoved was

/-! ### The whole second (R220–R226, R230, R232) -/

/-- The step takes effect (R222): −δnow is added, the time core is STEPPED, and one umber entry gives δ. -/
def State.timStepApply (s : State) (p : FixPend) : State :=
  let mv := (s.tim.moves.filter fun m => decide (p.stamp < m.1)).foldl (fun a m => a + m.2) 0
  let dnow := p.delta + mv
  let t' := ((s.tim.t : Int) - psU dnow).toNat
  let was := s.tim.t
  let mvU := (t' : Int) - was
  let n := s.epochCount
  let s := { s with tim := { s.tim with
    t := t', secDone := if t' % secU = 0 then some (tvSec t') else none, step := none, movedAt := n,
    q := 0, slew := 0, applied := 0, slewing := false, dfix := 0, dcorr := s.tim.corr,
    e0 := some (s.get TIM_HM_EF_EF + 3 * p.sigma), e0At := s.tim.up } }
  let s := (s.set TIM_STAT_STATE 2).set TIM_STAT_SRC 0
  let s := (s.orF TIM_IRQ_IRQ 8).note 0x0201 0x04 1 (uns 64 p.delta * 2 ^ 16)
  let s := (s.telMoved was).sumMoved was
  s.each 2 fun k s =>
    s.setTp k { (s.tp k).moved mvU with stepped := true, align := true, notBefore := t' + secU }

/-- Q / `TSLEW` (R224): the floor, or one more when it is not exact, as the free value has it; the slew is never
nothing. -/
def slewRate (q ts : Nat) : Nat := max 1 (q / ts + if q % ts ≠ 0 ∧ Config.quotientUp q ts = true then 1 else 0)

/-- A released fix takes effect (R224, R225); a correction of another source does not restart `TIM_HAGE` (R238, R269). The
flag says that |δnow| exceeds 1 ms in STEPPED. -/
def State.timFixApply (s : State) (f : FixPend) : State × Bool :=
  if f.stamp < s.tim.movedAt then (s.set TIM_STAT_FIXSTALE 1, false)
  else
    let stepped := s.get TIM_STAT_STATE = 2
    -- δnow in ps · 2^-48
    let dnow := f.delta * 2 ^ 48 + (s.tim.corr - corrAt s.tim.hist f.stamp) * 1000000000000
    if stepped ∧ !f.fonly ∧ 1000000000 * 2 ^ 48 < dnow.natAbs then
      ({ s with tim := { s.tim with slew := 0, slewing := false } }, true)
    else
      let s := { s with tim := { s.tim with
        ocomp := s.tim.ocomp - roundDiv ((s.tim.servo.gf : Int) * f.drift * 281475) 256000 } }
      let s := s.orF TIM_IRQ_IRQ 2
      if !stepped || f.fonly then (s, false)
      else
        let q := roundDiv (-dnow) 1000000000000
        let ts := max 1 (min s.tim.servo.tslew 3600)
        let lim : Int := ((max 1 (min s.tim.servo.slewmax 200) * 2 ^ 48 / 10 ^ 9 : Nat) : Int)
        let r : Int := slewRate q.natAbs ts
        let s := { s with tim := { s.tim with
          q := q, slew := clampI (-lim) lim (if q < 0 then -r else r),
          slewing := decide (dnow ≠ 0), dfix := roundDiv dnow (2 ^ 48), dcorr := s.tim.corr,
          e0 := some ((if f.src = 0 then s.get TIM_HM_EF_EF else 5000) + 3 * f.sigma), e0At := s.tim.up,
          fixAt := if f.src = 0 then some s.tim.up else s.tim.fixAt } }
        (s.set TIM_STAT_SRC f.src, false)

/-- The slew of the second that begins, and the rate word (R220, R224): the last second removes the remainder
exactly; what the limit of `RATE` keeps back stays in the remaining correction. -/
def State.timRate (s : State) : State :=
  let want := if s.tim.q.natAbs ≤ s.tim.slew.natAbs then s.tim.q else s.tim.slew
  let lim : Int := 2814749767
  let sum := s.tim.ocomp + want
  let rate := clampI (-lim) lim sum
  let got := clampI (min 0 want) (max 0 want) (rate - s.tim.ocomp)
  let s := s.setB TIM_STAT_RCLAMP (decide (rate ≠ sum))
  let s := s.setI2 TIM_RATE_L_RATE TIM_RATE_H_RATE rate
  let s := s.setI TIM_SLEW_SLEW got
  let s := s.setB TIM_STAT_SLEWING s.tim.slewing
  { s with tim := { s.tim with applied := got, hist := (s.epochCount, s.tim.corr, got) :: s.tim.hist } }

/-- The second that ended closes: its correction is added, and `SLEWEND` is raised when nothing remains (R224). -/
def State.timClose (s : State) : State :=
  let q := s.tim.q - s.tim.applied
  let ended := s.tim.slewing && decide (q = 0)
  let corr := s.tim.corr + s.tim.applied
  let s := { s with tim := { s.tim with q := q, corr := corr, applied := 0,
                                        slew := if ended then 0 else s.tim.slew,
                                        slewing := s.tim.slewing && !ended,
                                        dfix := if ended then 0 else s.tim.dfix,
                                        dcorr := if ended then corr else s.tim.dcorr } }
  if ended then s.orF TIM_IRQ_IRQ 4 else s

/-- Written settings whose second has come take effect (R220). -/
def State.timSettings (s : State) : State :=
  let t := s.tim
  let o := dueTick t.ocompDue
  let a := dueTick t.agingDue
  let v := dueTick t.servoDue
  let t := { t with ocomp := o.1.getD t.ocomp, ocompDue := o.2, aging := a.1.getD t.aging, agingDue := a.2,
                    servo := v.1.getD t.servo, servoDue := v.2 }
  let b := [2, 3, 4, 5, 6, 7].foldl (fun b n => tblSet b n (sgn 32 (s.get (⟨0x400400A0 + (n - 2) * 4, 31, 0, 0⟩)))) t.bias
  { s with tim := { t with bias := b } }

/-- Aging: one 86,400th a second, the fraction carried forward (R225). -/
def State.timAging (s : State) : State :=
  let a := s.tim.agingAcc + s.tim.aging
  { s with tim := { s.tim with ocomp := s.tim.ocomp + a / 86400, agingAcc := a % 86400 } }

/-- `TIM_OCOMP` shows the compensation in force while no written value waits. -/
def State.timOcompReg (s : State) : State :=
  if s.tim.ocompDue.isEmpty then s.setI2 TIM_OCOMP_L_OCOMP TIM_OCOMP_H_OCOMP s.tim.ocomp else s

/-- The leap at its second (R230); announcements of it are done with (R181). -/
def State.timLeap (s : State) (sec : Nat) : State :=
  let l := s.get TIM_UTC_LEAP
  if (l = 1 ∨ l = 2) ∧ sec = s.get2 TIM_LEAPT_L_SEC TIM_LEAPT_H_SEC then
    let s := { s with nav := { s.nav with leapHeard := none, utcHeard := none, leapAcc := none, leapOther := none } }
    (s.setI TIM_UTC_UTCOFS (s.getI TIM_UTC_UTCOFS + if l = 1 then -1 else 1)).set TIM_UTC_LEAP 0
  else s

/-- The delay line measured (R232): taps per clock in 1/256; outside 120 to 136 the pulses are placed coarsely. -/
def State.timCalibrate (s : State) (ncal : Nat) : State :=
  let bad := decide (ncal < 120 * 256) || decide (136 * 256 < ncal)
  let s := (s.set TIM_FDCAL_NCAL (satN 16 ncal)).setB TIM_STAT_FDFAIL bad
  s.each 2 fun n s => s.setB (TIM_TP_STAT_COARSE n) bad

/-- The leap when the step and `LEAPT` meet (R228): it follows `LEAPT` in the new time, so a step from `sec` that carries
device time to or past it brings the leap along, and after one backwards it waits for its second. -/
def State.timLeapAt (s : State) (sec : Nat) : State :=
  let at_ := s.get2 TIM_LEAPT_L_SEC TIM_LEAPT_H_SEC
  if sec ≤ at_ ∧ at_ ≤ tvSec s.tim.t then s.timLeap at_ else s

/-- The whole second of the time core. The flag says that a fix found more than 1 ms in STEPPED. -/
def State.timSecond (s : State) (ncal : Nat) : State × Bool :=
  let sec := tvSec s.tim.t
  let s := { s with tim := { s.tim with secDone := some sec } }
  let s := s.orF TIM_IRQ_IRQ 1
  let s := s.timClose
  let s := s.timSettings
  let s := s.timAging
  let fix := s.tim.fixes.find? fun f => decide (f.at_ ≤ 1)
  let later := (s.tim.fixes.filter fun f => decide (1 < f.at_)).map fun f : FixPend => { f with at_ := f.at_ - 1 }
  let s := { s with tim := { s.tim with fixes := later } }
  let (s, err) : State × Bool :=
    match s.tim.step, fix with
    | some p, f =>
      if p.at_ ≤ 1 then ((if f.isSome then s.set TIM_STAT_FIXSTALE 1 else s).timStepApply p, false)
      else
        let s := { s with tim := { s.tim with step := some { p with at_ := p.at_ - 1 } } }
        match f with
        | some f => s.timFixApply f
        | none => (s, false)
    | none, some f => s.timFixApply f
    | none, none => (s, false)
  let s := (s.timLeapAt sec).timRate.timOcompReg
  (s.timCalibrate ncal, err)

/-! ### Time pulses (R231–R236) -/

/-- A write of a pulse register holds the setting until the first whole second at least 1 s later (R236). What was
composed for the second that the write moves the setting away from is composed again. -/
def State.tpWritten (s : State) (n : Nat) : State :=
  let p := s.tp n
  let due := ceilDiv (s.tim.t + secU) secU
  let p := match p.due with
    | some d =>
      let c := p.composed.getD 0
      if d ≠ due ∧ p.composed.isSome ∧ d ≤ c ∧ c < due then
        { p with composed := none, msg := none, edges := p.edges.filter fun e => decide (e.t < c * secU) }
      else p
    | none => p
  (s.setTp n { p with due := some due }).set (TIM_TP_STAT_PEND n) 1

/-- The written setting of an output. -/
def State.tpRegs (s : State) (n : Nat) : TpSet :=
  { en := s.on (TIM_TP_CFG_EN n), pol := s.on (TIM_TP_CFG_POL n), scale := s.get (TIM_TP_CFG_SCALE n),
    qual := s.get (TIM_TP_CFG_QUAL n), per := s.get (TIM_TP_PER_PER n), wid := s.get (TIM_TP_WID_WID n),
    ofs := s.getI (TIM_TP_OFS_OFS n) }

/-- The rules of R231 for a setting. -/
def TpSet.ok (x : TpSet) : Bool :=
  decide (1 ≤ x.per) && decide (x.per ≤ 60000) && decide (1 ≤ x.wid) && decide (x.wid ≤ 500000) &&
    decide (x.ofs.natAbs < x.per * 1000000) && decide (x.wid + 1 ≤ x.per * 1000)

/-- The pending setting is judged at its second and takes effect, or is refused with `CFGERR` (R231, R236). The output
goes to the level between pulses that the setting gives, at the end of its pulse where one runs (DESIGN CHOICE: log 55). -/
def State.tpApply (s : State) (sec n : Nat) : State :=
  let p := s.tp n
  match p.due with
  | none => s
  | some d =>
    if sec < d then s
    else
      let x := s.tpRegs n
      let s := s.set (TIM_TP_STAT_PEND n) 0
      if x.ok then
        (s.setTp n { p with set := x, due := none, edges := if x.en then p.edges else [],
                            newSet := p.newSet || decide (p.composed ≠ some sec) }).tpRest n
      else (s.setTp n { p with due := none }).set (TIM_TP_STAT_CFGERR n) 1

/-- Count, in seconds, to be added to device seconds for a scale (R229). -/
def State.scaleOfs (s : State) (k : Nat) : Int :=
  match k with
  | 1 => s.getI TIM_UTC_UTCOFS
  | 2 | 6 => -315964819
  | 3 | 7 => -935280019
  | 4 => -1136073633
  | 5 => s.getI TIM_UTC_UTCOFS + 10800
  | _ => 0

/-- The written bias of a scale, in ps. -/
def State.scaleBias (s : State) (k : Nat) : Int :=
  if 2 ≤ k ∧ k ≤ 7 then sgn 32 (s.get (⟨0x400400A0 + (k - 2) * 4, 31, 0, 0⟩)) else 0

/-- `UTCOFS` as it will stand in a second (R230). -/
def State.utcofsAt (s : State) (sec : Nat) : Int :=
  let l := s.get TIM_UTC_LEAP
  if (l = 1 ∨ l = 2) ∧ sec = s.get2 TIM_LEAPT_L_SEC TIM_LEAPT_H_SEC then
    s.getI TIM_UTC_UTCOFS + (if l = 1 then -1 else 1)
  else s.getI TIM_UTC_UTCOFS

/-- The ideal leading edges of a second, in ps after its start (R231). -/
def State.tpIdeal (s : State) (x : TpSet) (sec : Nat) : List Nat :=
  let per : Nat := x.per * 10 ^ 9
  let leap := s.utcofsAt sec - s.getI TIM_UTC_UTCOFS
  let so := s.scaleOfs x.scale + (if x.scale = 1 ∨ x.scale = 5 then leap else 0)
  let phase : Int := (((sec : Int) + so) * 10 ^ 12 + s.scaleBias x.scale - x.ofs * 1000) % (per : Int)
  let first := if phase = 0 then 0 else ((per : Int) - phase).toNat
  if 10 ^ 12 ≤ first then []
  else (List.range ((10 ^ 12 - 1 - first) / per + 1)).map fun i => first + i * per

/-- Whether an edge is reported: every edge for a period of at least 100 ms, else the first at or after each whole
100 ms (R234). -/
def tpReported (per : Nat) (prev : Option Nat) (e : Nat) : Bool :=
  if 100 ≤ per then true
  else
    match prev with
    | none => true
    | some p => decide (p / 10 ^ 11 < e / 10 ^ 11) || (decide (e % 10 ^ 11 = 0))

/-- The residual of an edge in ps (R232): `gap` is the part of an increment from the last clock to the edge, in
2^-32 ns, and `rate` the rate word that will apply (R234); the tap nearest to it, or the nearer clock when the delay line
has failed. -/
def State.tpResidual (s : State) (rate : Int) (gap : Nat) : Int :=
  let a : Nat := (2500000 * ((2 ^ 48 : Int) + rate)).toNat
  let b : Nat := 1023 * 2 ^ 48
  let ncal := s.get TIM_FDCAL_NCAL
  let g : Nat := gap * 1000
  if s.on TIM_STAT_FDFAIL then
    if 2 * g * b ≤ a * 2 ^ 32 then -(roundDiv g (2 ^ 32))
    else roundDiv ((a : Int) * 2 ^ 32 - g * b) (b * 2 ^ 32)
  else
    let tap := (roundDiv (g * b * ncal : Nat) (2 ^ 32 * 256 * a)).toNat
    roundDiv ((tap : Int) * 256 * a * 2 ^ 32 - g * ncal * b) (ncal * b * 2 ^ 32)

/-- The rate word that will apply at the next whole second, as composition at or after S + 500 ms knows it: what is
committed later applies a second later (R220, R234). -/
def State.tpRate (s : State) : Int :=
  let t := { s with tim := { s.tim with t := (tvSec s.tim.t + 1) * secU } }
  (t.timSecond (s.get TIM_FDCAL_NCAL)).1.getI2 TIM_RATE_L_RATE TIM_RATE_H_RATE

/-- An ideal edge's instant, from its ps after a second's start. -/
def tpAt (base e : Nat) : Nat := base + (e * 2 ^ 64 + 500) / 1000

/-- The edges with their residuals, in order; they take the gaps one by one. -/
def State.tpEdges (s : State) (rate : Int) (per base : Nat) : Option Nat → List Nat → List Nat → List TpEdge
  | _, [], _ => []
  | prev, e :: es, gaps =>
    let rep := tpReported per prev e
    { t := tpAt base e, res := s.tpResidual rate (gaps.headD 0), rep := rep } ::
      s.tpEdges rate per base (if rep then some e else prev) es gaps.tail

/-- The `TP-NEXT` payload (R235). -/
def State.tpPayload (s : State) (n sec : Nat) (x : TpSet) (es : List TpEdge) (stepped gated cfg leap : Bool) :
    List Byte :=
  let rep := es.filter fun e => e.rep
  let fl := b2n stepped * 128 + b2n gated * 64 + b2n cfg * 32 + b2n leap * 16 + b2n (s.on TIM_STAT_FDFAIL) * 8
  beBytes 6 sec ++ beBytes 6 0 ++ beBytes 1 n ++ beBytes 1 x.scale ++ beBytes 1 s.code ++ beBytes 1 fl ++
    beBytes 4 x.per ++ beBytes 4 x.wid ++ beBytes 1 rep.length ++ beBytes 3 0 ++
    rep.flatMap fun e =>
      let o := e.t - sec * secU
      beBytes 4 (o / 2 ^ 64) ++ beBytes 2 (o % 2 ^ 64 / 2 ^ 48) ++ beBytes 2 (uns 16 (satI 16 e.res))

/-- The next edge shown in `TIM_TPn_NXT` and `TIM_TPn_RES`. -/
def State.tpShow (s : State) (n : Nat) : State :=
  match (s.tp n).edges with
  | [] => s
  | e :: _ =>
    let s := s.set (TIM_TP_NXT_SH_FRAC n) (tvFrac e.t)
    let s := s.set (TIM_TP_NXT_SH_SECH n) (tvSec e.t / 2 ^ 32)
    let s := s.set (TIM_TP_NXT_SL_SECL n) (tvSec e.t)
    let s := s.set (TIM_TP_NXT_NS_NS n) (tvNs e.t)
    s.setI (TIM_TP_RES_RES n) (satI 16 e.res)

/-- The leading edges of second `next` under the setting `x`: ideal ones that come no earlier than the rules of R236 allow.
`fresh`: the first edges under the setting. -/
def State.tpNext (s : State) (n : Nat) (x : TpSet) (next : Nat) (fresh : Bool) (gaps : List Nat) : List TpEdge :=
  let p := s.tp n
  let ends := match p.edges.getLast? with
    | some e => e.t + p.set.wid * usU
    | none => p.trailAt.getD p.lastTrail
  let from_ := max p.notBefore (if fresh then ends + (x.wid + 1) * usU else 0)
  s.tpEdges s.tpRate x.per (next * secU) none ((s.tpIdeal x next).filter fun e => decide (from_ ≤ tpAt (next * secU) e)) gaps

/-- Composition of the next second at S + 500 ms (R234, R236): the setting that will apply, the edges the rules of
R236 allow, and the message, for a second that holds an edge; that of the step's second holds none and says so. A leap
shifts the alignment of scales 1 and 5 unless the period divides it. A pending setting whose second a load has passed is in
force at the next one. -/
def State.tpCompose (s : State) (n : Nat) (gaps : List Nat) : State :=
  let p := s.tp n
  let next := tvSec s.tim.t + 1
  if s.msOfSec < 500 ∨ p.composed = some next ∨ next < p.first then s
  else
    let w := s.tpRegs n
    let newSet := p.due.any (fun d => decide (d ≤ next)) = true ∧ w.ok = true
    let x := if newSet then w else p.set
    if !x.en then s.setTp n { p with composed := some next, msg := none }
    else
      let stepDue := match s.tim.step with
        | some q => q.at_ == 1 + b2n s.secondWaits
        | none => false
      let by_ := s.utcofsAt next - s.getI TIM_UTC_UTCOFS
      let leap := decide (by_ ≠ 0)
      let shifts := (x.scale == 1 || x.scale == 5) && decide (by_ * 1000 % x.per ≠ 0)
      let cfg := decide newSet || p.newSet
      let align := p.align || shifts
      let es := if stepDue then [] else s.tpNext n x next (cfg || align) gaps
      let quiet := if stepDue then (s.tpIdeal x next).isEmpty else es.isEmpty
      let shown := p.edges = []
      let p := { p with composed := some next, msg := none, edges := p.edges ++ es, newSet := cfg && es.isEmpty,
                        align := align && es.isEmpty }
      if quiet then s.setTp n p
      else
        let msg := s.tpPayload n next x es (stepDue || p.stepped) (decide (s.code < x.qual)) (cfg && !es.isEmpty) leap
        let s := (s.setTp n { p with msg := some msg, stepped := p.stepped && es.isEmpty }).orF TIM_IRQ_IRQ 16
        if shown then s.tpShow n else s

/-- The present second was not composed (R234). -/
def State.tpBlank (s : State) (p : TpSt) : Bool :=
  let now := tvSec s.tim.t
  decide (now < p.first) || (match p.composed with
    | none => true
    | some c => decide (c < now))

/-- A leading edge falls due (R236): produced while the code is at least `QUAL`, else withheld; an edge of a second
that was not composed is withheld and counted (R234). Below the minimum service set the output stays at its reset level
(R30), and so does `TP1` with only that set working (R29). -/
def State.tpLead (s : State) (n : Nat) : State :=
  let p := s.tp n
  let none_ := if p.set.en ∧ s.tpBlank p then (s.inc (TIM_TP_CNT_COUNT n)).set (TIM_TP_STAT_WITHHELD n) 1 else s
  match p.edges with
  | [] => none_
  | e :: rest =>
    if !s.due e.t then none_
    else
      let s := s.inc (TIM_TP_CNT_COUNT n)
      let s := s.setTp n { p with edges := rest }
      let s := s.tpShow n
      if s.code < p.set.qual || s.itg.below || (s.itg.minSet && n != 0) then s.set (TIM_TP_STAT_WITHHELD n) 1
      else
        let s := s.setTp n { s.tp n with trailAt := some (e.t + p.set.wid * usU) }
        (s.set (TIM_TP_STAT_ACTIVE n) 1).tpDrive n (!p.set.pol)

/-- A pulse asserted ends: the trailing edge (R231). -/
def State.tpEnd (s : State) (n : Nat) : State :=
  let p := s.tp n
  match p.trailAt with
  | none => s
  | some t =>
    let s := s.setTp n { p with trailAt := none, lastTrail := t }
    (s.set (TIM_TP_STAT_ACTIVE n) 0).tpRest n

/-- The trailing edge follows at the width (R231). -/
def State.tpTrail (s : State) (n : Nat) : State :=
  match (s.tp n).trailAt with
  | some t => if s.due t then s.tpEnd n else s
  | none => s

/-- The custody core enables `TP0` with the reset settings of its registers when only the minimum service set works
(R236). -/
def State.tpMinimum (s : State) : State :=
  let s := s.clearRegs 0x40040100 0x40040110
  (s.set (TIM_TP_CFG_EN 0) 1).tpWritten 0

/-! ### The time pulse input (R237, R238) -/

/-- The mode of `TPI`; the reserved code acts as CAPTURE. -/
def State.tpiMode (s : State) : Nat := if s.get TIM_TPI_CFG_MODE = 3 then 0 else s.get TIM_TPI_CFG_MODE

/-- The sample standard deviation of a list, in whole units, rounded down; 0 for fewer than two. -/
def stdDev (xs : List Int) : Nat :=
  let n := xs.length
  if n < 2 then 0
  else
    let sum := xs.foldl (· + ·) 0
    let sq := xs.foldl (fun a x => a + x * x) 0
    isqrt (((n : Int) * sq - sum * sum).toNat / (n * (n - 1)))

/-- A stamped edge in the capture registers: `NEW`, and `OVR` when the previous stamp is unread (R237). -/
def State.tpiStamp (s : State) (t : Nat) : State :=
  let s := if s.on TIM_TPI_STAT_NEW then s.set TIM_TPI_STAT_OVR 1 else s
  let s := s.set TIM_TPI_SH_FRAC (tvFrac t)
  let s := s.set TIM_TPI_SH_SECH (tvSec t / 2 ^ 32)
  let s := s.set TIM_TPI_SL_SECL (tvSec t)
  let s := s.set TIM_TPI_NS_NS (tvNs t)
  (s.set TIM_TPI_STAT_NEW 1).orF TIM_IRQ_IRQ 32

/-- `TIM_TPI_CFG` written: an enable starts the loss timer and the deviation afresh. `was` is `EN` before. -/
def State.tpiCfg (s : State) (was : Bool) : State :=
  if s.on TIM_TPI_CFG_EN && !was then
    { s with tpi := { s.tpi with enabledAt := s.tim.up, usedAt := none, xs := [] } }
  else s

end Sys2Proof.Machine
end

