-- ==== Sys2Proof/Machine/NavPar.lean ====
section
/-! DEFINITION. The solution parameter block of the navigation core (R191), which it reads as it starts. -/

namespace Sys2Proof.Machine

/-- Words of the block. -/
def parWords : Nat := 36

/-- The block read into the navigation core (R21, R191). -/
def State.parRead (s : State) : State :=
  { s with nav := { s.nav with par := [] } }.each parWords fun i s =>
    let (s, v) := s.memRead .nav (0x80000400 + 4 * i) 4
    { s with nav := { s.nav with par := s.nav.par ++ [v] } }

/-- A value of 1, 4 or 8 octets of the block from an offset; none where it could not be read. -/
def State.navRaw (s : State) (ofs n : Nat) : Option Nat :=
  let w := fun i => (s.nav.par.getD i none)
  match w (ofs / 4) with
  | none => none
  | some v =>
    if n = 8 then (w (ofs / 4 + 1)).map fun h => v + h * 2 ^ 32
    else some (v / 2 ^ (8 * (ofs % 4)) % 2 ^ (8 * n))

/-- The fields with a bounded range: offset, octets, default, lowest, highest. -/
def navFields : List (Nat × Nat × Nat × Nat × Nat) :=
  [(0x00, 1, 0, 0, 3), (0x01, 1, 0, 0, 2), (0x02, 1, 10, 0, 45), (0x03, 1, 25, 15, 45), (0x04, 1, 0, 0, 1),
   (0x05, 1, 1, 0, 1), (0x06, 1, 0x1F, 0, 0x7F), (0x07, 1, 0, 0, 0), (0x08, 4, 360, 10, 10080),
   (0x0C, 4, 300, 10, 10000), (0x14, 4, 0, 0, 1)]

/-- A value found and within a range, or the default. -/
def within (o : Option Nat) (d lo hi : Nat) : Nat :=
  match o with
  | some v => if lo ≤ v ∧ v ≤ hi then v else d
  | none => d

/-- A bounded field of the block: its default when the value found is out of range. -/
def State.navField (s : State) (ofs : Nat) : Nat :=
  match navFields.find? fun f => f.1 == ofs with
  | some (o, n, d, lo, hi) => within (s.navRaw o n) d lo hi
  | none => 0

/-- `SVMAX`, whose range begins at `SVMIN`. -/
def State.svMax (s : State) : Nat := within (s.navRaw 0x10 4) 4320 (s.navField 0x08) 20160

/-- `FIXPOS`. -/
def State.fixPos (s : State) : Int × Int × Int :=
  let v := fun o => sgn 64 ((s.navRaw o 8).getD 0)
  (v 0x18, v 0x20, v 0x28)

/-- `DLY` of a link and band in ps: 0 when out of range. -/
def State.navDly (s : State) (link band : Nat) : Int :=
  let d := sgn 32 ((s.navRaw (0x30 + 4 * (3 * link + band)) 4).getD 0)
  if d.natAbs ≤ 1000000 then d else 0

/-- The entry of a field found out of range (R191). -/
def State.navParamNote (s : State) (ofs : Nat) (ok : Nat → Bool) (n : Nat) : State :=
  match s.navRaw ofs n with
  | some v => if ok v then s else s.note 0x0006 0x02 1 (ofs * 2 ^ 64 + v)
  | none => s

/-- Every field out of range recorded. -/
def State.navParams (s : State) : State :=
  let s := navFields.foldl (fun s f =>
    s.navParamNote f.1 (fun v => decide (f.2.2.2.1 ≤ v) && decide (v ≤ f.2.2.2.2)) f.2.1) s
  let s := s.navParamNote 0x10 (fun v => decide (s.navField 0x08 ≤ v) && decide (v ≤ 20160)) 4
  s.each 24 fun i s => s.navParamNote (0x30 + 4 * i) (fun v => decide ((sgn 32 v).natAbs ≤ 1000000)) 4

/-- Milliseconds between solutions (R186, R191). -/
def State.solPeriod (s : State) : Nat :=
  match s.navField 0x00 with
  | 0 => 1000
  | 1 => 500
  | 2 => 200
  | _ => 100

/-- A satellite system that `SYSMASK` admits (R191; log entry 63). -/
def State.sysOn (s : State) (sys : Nat) : Bool := bit (s.navField 0x06) sys

/-! ### How well device time is known -/

/-- Device time has a predicted error of at most `ns` (R179, R193). -/
def State.timeWithin (s : State) (ns : Nat) : Bool :=
  match s.tim.e0 with
  | none => false
  | some e0 => decide (holdNs (e0 + s.dpred.natAbs) (s.get TIM_HM_UY_UY) (s.get TIM_HM_AG_AG) (s.get TIM_HM_WN_WN)
      (s.tim.up - s.tim.e0At) ≤ ns)

/-- Device time is known within ±1 day (R180): stepped, or loaded with a known error. -/
def State.dayKnown (s : State) : Bool := s.get TIM_STAT_STATE == 2 || s.tim.e0.isSome

/-- A satellite's record. -/
def State.sat (s : State) (k : Nat) : SatSt := tblGet s.nav.sats {} k
/-- A satellite's record set. -/
def State.setSat (s : State) (k : Nat) (x : SatSt) : State := { s with nav := { s.nav with sats := tblSet s.nav.sats k x } }
/-- The key of a satellite. -/
def satKey (sys sv : Nat) : Nat := sys * 256 + sv

/-- OSNMA has time (R179): TRUSTED, or device time with a predicted error of at most 15 s. -/
def State.osnmaTime (s : State) : Bool := s.code == 4 || s.timeWithin 15000000000

/-- A time in device seconds is no longer ago than `d`. -/
def State.secsWithin (s : State) (o : Option Nat) (d : Nat) : Bool :=
  match o with
  | some a => decide (tvSec s.now ≤ a + d)
  | none => false

/-- The OSNMA state of a Galileo satellite (R179): NOTIME 0, PENDING 1, OK 2, FAIL 3. -/
def State.osnmaState (s : State) (sv : Nat) : Nat :=
  let y := s.sat (satKey 1 sv)
  if s.nav.notime then 0
  else if s.secsWithin y.failAt 3600 then 3
  else if y.adkd0 && s.secsWithin y.adkd4 21600 then 2
  else 1

end Sys2Proof.Machine
end

