-- ==== Sys2Proof/Machine/Signals.lean ====
section
/-! DEFINITION. The signal components of R170 with what tracking needs of each (R115, R116), and the arms of a tracking
dwell (R127, R128). -/

namespace Sys2Proof

open Machine

/-- A component: its carrier and the carrier's step by GLONASS channel in Hz, its engine chip rate in 10^-3 chip/s, its
sub-dump span, data symbol and coherent limits before and after sync in ms (symbol 0: none), the chips of its secondary
code or overlay, its band (0 L1, 1 L5, 2 the third). -/
structure Comp where
  freq   : Nat
  fstep  : Nat := 0
  chip   : Nat
  span   : Nat
  symbol : Nat
  sec    : Nat
  pre    : Nat
  post   : Nat
  band   : Nat
  deriving DecidableEq, Repr

/-- A component with sub-dumps of 1 ms. -/
def comp1 (band freq chip symbol sec post : Nat) : Comp :=
  { freq := freq, chip := chip, span := 1, symbol := symbol, sec := sec, pre := 1, post := post, band := band }

/-- A component whose sub-dump, of 4, 10 or 20 ms, is its coherent limit before sync. -/
def compN (span band freq chip symbol sec post : Nat) : Comp :=
  { comp1 band freq chip symbol sec post with span := span, pre := span }

/-- The carrier of L1, E1 and B1C. -/
def fL1 : Nat := 1575420000
/-- The carrier of L5, E5a and B2a. -/
def fL5 : Nat := 1176450000
/-- The carrier of L2C. -/
def fL2 : Nat := 1227600000
/-- 1.023 Mchip/s in 10^-3 chip/s. -/
def chipU : Nat := 1023000000

/-- The components that GPS and QZSS share, by the low digit of their code (R116, R170): `cl` tells which code of L2C is
tracked. -/
def compGps (cl : Bool) : Nat → Option Comp
  | 1 => some (comp1 0 fL1 chipU 20 0 20)
  | 2 => some (compN 10 0 fL1 chipU 10 0 10)
  | 3 => some (compN 10 0 fL1 chipU 0 1800 100)
  | 4 => some (comp1 1 fL5 (10 * chipU) 10 10 10)
  | 5 => some (comp1 1 fL5 (10 * chipU) 0 20 100)
  | 6 => some (if cl then compN 20 2 fL2 chipU 0 0 100 else compN 20 2 fL2 chipU 20 0 20)
  | _ => none

/-- The component of a signal code (R116, R170). `geo` tells a BeiDou GEO satellite. QZSS L6 has no row in R116: it has
no symbols, and no limit below the loop period's longest (R115; log entry 58). -/
def compOf (sig : Nat) (geo cl : Bool) : Option Comp :=
  match sig with
  | 0x11 => some (compN 4 0 fL1 chipU 4 0 4)
  | 0x12 => some (compN 4 0 fL1 chipU 0 25 100)
  | 0x13 => some (comp1 1 fL5 (10 * chipU) 20 20 20)
  | 0x14 => some (comp1 1 fL5 (10 * chipU) 0 100 100)
  | 0x15 => some (comp1 1 1207140000 (10 * chipU) 4 4 4)
  | 0x16 => some (comp1 1 1207140000 (10 * chipU) 0 100 100)
  | 0x17 => some (comp1 2 1278750000 (5 * chipU) 1 0 1)
  | 0x18 => some (comp1 2 1278750000 (5 * chipU) 0 100 100)
  | 0x21 => some (comp1 0 1561098000 (2 * chipU) (if geo then 2 else 20) (if geo then 0 else 20) (if geo then 2 else 20))
  | 0x22 => some (compN 10 0 fL1 chipU 10 0 10)
  | 0x23 => some (compN 10 0 fL1 chipU 0 1800 100)
  | 0x24 => some (comp1 1 fL5 (10 * chipU) 5 5 5)
  | 0x25 => some (comp1 1 fL5 (10 * chipU) 0 100 100)
  | 0x26 => some (comp1 2 1268520000 (10 * chipU) (if geo then 2 else 20) (if geo then 0 else 20) (if geo then 2 else 20))
  | 0x31 => some { comp1 0 1602000000 511000000 10 0 10 with fstep := 562500 }
  | 0x32 => some { comp1 2 1246000000 511000000 10 0 10 with fstep := 437500 }
  | 0x33 => some (comp1 1 1202025000 (10 * chipU) 5 5 5)
  | 0x34 => some (comp1 1 1202025000 (10 * chipU) 0 10 100)
  | 0x47 => some { comp1 2 1278750000 2557500000 0 0 100 with pre := 100 }
  | 0x51 => some (comp1 1 fL5 chipU 20 0 20)
  | 0x61 => some (comp1 0 fL1 chipU 2 0 2)
  | 0x62 => some (comp1 1 fL5 (10 * chipU) 2 0 2)
  | 0x63 => some (comp1 1 fL5 (10 * chipU) 0 20 100)
  | _ => if sig / 16 = 0 ∨ sig / 16 = 4 then compGps cl (sig % 16) else none

/-- The component a channel tracks. -/
def ChanCfg.comp (c : ChanCfg) : Comp := (compOf c.sig c.geo c.cl).getD (comp1 0 fL1 chipU 20 0 20)

/-- The carrier of a channel, with the GLONASS channel's step (R170). -/
def ChanCfg.fRf (c : ChanCfg) : Nat := ((c.comp.freq : Int) + c.k * c.comp.fstep).toNat

/-- The signal carries no data: its PLL uses the full angle (R119). -/
def ChanCfg.pilot (c : ChanCfg) : Bool := c.comp.symbol == 0

/-- L1C, E1 and B1C are composite signals (R128). -/
def ChanCfg.boc (c : ChanCfg) : Bool := [0x02, 0x03, 0x42, 0x43, 0x11, 0x12, 0x22, 0x23].contains c.sig

/-- The pilot of a composite signal, and its data, have a second component (R128). -/
def ChanCfg.pilot2 (c : ChanCfg) : Bool := [0x11, 0x12, 0x22, 0x23].contains c.sig
/-- The data component has a second component: E1 alone (R128). -/
def ChanCfg.data2 (c : ChanCfg) : Bool := [0x11, 0x12].contains c.sig

/-- The double delta applies: codes up to 2.046 Mchip/s with a second early and late arm (R119, R127). -/
def ChanCfg.slow (c : ChanCfg) : Bool := decide (c.comp.chip ≤ 2 * chipU)

/-- A channel whose loops can close on the double delta (R119, R129). -/
def ChanCfg.delta (c : ChanCfg) : Bool := c.slow && !c.boc

/-- The spacing d in 1/64 chip (R127, R128): 32 in PULL-IN; then 6, but for codes above 2.046 Mchip/s. -/
def ChanCfg.spacing (c : ChanCfg) (pullIn : Bool) : Nat := if pullIn || !(c.boc || c.slow) then 32 else 6

/-- Sub-dumps of a length in ms. -/
def ChanCfg.subs (c : ChanCfg) (ms : Nat) : Nat := max 1 (ms / c.comp.span)

/-- The place of an overlay, or of the long code of L2C, is taken from device time (R118): known within 5 ms. -/
def ChanCfg.timed (c : ChanCfg) : Bool := decide (c.comp.sec = 1800) || (c.comp.symbol == 0 && c.comp.sec == 0)

/-! ### Arms (R127, R128) -/

/-- An arm of generator B when `b` is set. -/
def armOf (b : Bool) (sc : Nat) (ofs : Int) : Arm := { en := true, gen := b, sc := sc, ofs := ofs }

/-- Sixteen arms of the shape ladder, −64 to +56 in steps of 8. -/
def ladder (on b : Bool) (sc : Nat) : List Arm :=
  (List.range 16).map fun (j : Nat) => if on then armOf b sc (8 * (j : Int) - 64) else {}

/-- The arms of a BPSK signal (R127). -/
def bpskArms (d : Int) (shape : Bool) : List Arm :=
  [armOf false 0 (-(d / 2)), armOf false 0 0, armOf false 0 (d / 2), armOf false 0 (-1024), armOf false 0 (-d),
   armOf false 0 d] ++ ladder shape false 0

/-- The arms of a composite signal (R128). -/
def bocArms (c : ChanCfg) (d : Int) : List Arm :=
  let l1c := c.sig % 0x40 == 2 || c.sig % 0x40 == 3
  let p := if l1c then 1 else 2
  let two := fun on (b : Bool) (o : Int) => if on then armOf b 3 o else {}
  [armOf true p (-(d / 2)), armOf true p 0, armOf true p (d / 2), armOf true 2 (-1024),
   two c.pilot2 true (-(d / 2)), two c.pilot2 true 0, two c.pilot2 true (d / 2),
   armOf false 2 0, two c.data2 false 0, armOf true 2 (-32), armOf true 2 32] ++ ladder c.shape true 2

/-- The arms of a channel's dwell, those beyond the list being off. -/
def ChanCfg.arms (c : ChanCfg) (pullIn : Bool) : List Arm :=
  let d : Int := c.spacing pullIn
  if c.boc then bocArms c d else bpskArms d c.shape

/-- The number of the ladder's first arm. -/
def ChanCfg.ladderAt (c : ChanCfg) : Nat := if c.boc then 11 else 6

/-- The pilot of a composite signal: the component on generator B (R128). -/
def ChanCfg.pilotSig (c : ChanCfg) : Nat := if c.pilot then c.sig else c.sig + 1

/-- The data component that shares a signal with a component whose place is taken from time: that of L1C and B1C has the code
below, that of L2C the same one (R118, R170). -/
def ChanCfg.dataSig (c : ChanCfg) : Nat := if c.cl then c.sig else c.sig - 1

/-- The sum at a point is one of two components with weights in 2^-16. -/
def ChanCfg.weighted (c : ChanCfg) (j : Nat) : Bool :=
  c.boc && (if !c.pilot && j == 1 then c.data2 else c.pilot2)

/-- A point of a composite signal: two components with their weights (R128). -/
def combine (w : Int × Int) (a b : Int × Int) : Int × Int := (w.1 * a.1 + w.2 * b.1, w.1 * a.2 + w.2 * b.2)

/-- The sum at a point: the early, prompt or late arm `j` (0, 1, 2) of a channel (R127, R128). A channel on the data component
of a composite signal has its prompt on generator A and its early and late points on the pilot's, with the pilot's
weights. -/
def ChanCfg.point (c : ChanCfg) (arms : List (Int × Int)) (j : Nat) : Int × Int :=
  let a := fun i => arms.getD i (0, 0)
  if c.boc && !c.pilot && j == 1 then
    if c.data2 then combine (Config.compWeight c.sig) (a 7) (a 8) else a 7
  else if c.boc && c.pilot2 then combine (Config.compWeight c.pilotSig) (a j) (a (4 + j))
  else a j

end Sys2Proof
end

