-- ==== Sys2Proof/Machine/NavSolve.lean ====
section
/-! DEFINITION. The arithmetic of the time solution (R173, R182–R184): linear systems solved exactly, ranges, weights. The spec
states no arithmetic for them; what is not exact here is finer than any unit of a result (DESIGN CHOICE: log entry 61). -/

namespace Sys2Proof.Machine

/-! ### Linear systems -/

/-- A row made free of a pivot's column: exact by the division of the pivot before. -/
def rowClear (pivot row : List Int) (k : Nat) (before : Int) : List Int :=
  let p := pivot.getD k 0
  let f := row.getD k 0
  List.zipWith (fun a b => (p * a - f * b) / before) row pivot

/-- The first row with something in a column, and the others. -/
def pivotRow (k : Nat) : List (List Int) → Option (List Int × List (List Int))
  | [] => none
  | r :: rs => if r.getD k 0 ≠ 0 then some (r, rs) else (pivotRow k rs).map fun p => (p.1, r :: p.2)

/-- Fraction-free elimination of the columns from `k`, `n` of them: the rows, and the last pivot. -/
def eliminate : Nat → Nat → List (List Int) → List (List Int) → Int → Option (List (List Int) × Int)
  | 0, _, done, _, d => some (done, d)
  | n + 1, k, done, rest, before =>
    match pivotRow k rest with
    | none => none
    | some (p, rs) =>
      let clear := fun r => rowClear p r k before
      eliminate n (k + 1) (done.map clear ++ [p]) (rs.map clear) (p.getD k 0)

/-- The solutions of a square system for several right sides, each by its numerators over one divisor. -/
def solveSystem (a : List (List Int)) (right : List (List Int)) : Option (List (List Int) × Int) :=
  let n := a.length
  let rows := (List.range n).map fun i => a.getD i [] ++ right.map fun r => r.getD i 0
  match eliminate n 0 [] rows 1 with
  | none => none
  | some (rs, d) =>
    if d = 0 then none
    else some ((List.range right.length).map fun (j : Nat) => rs.map fun r => r.getD (n + j) 0, d)

/-- The unit vectors of a dimension. -/
def unitVecs (n : Nat) : List (List Int) :=
  (List.range n).map fun i => (List.range n).map fun j => if i = j then 1 else 0

/-- Entries of a list from a place, zero beyond its end. -/
def sliceI (l : List Int) (o n : Nat) : List Int := (List.range n).map fun i => l.getD (o + i) 0

/-- An observation: its row in 2^-30, its value, its weight. -/
abbrev ObsRow := List Int × Int × Int

/-- The scalar product. -/
def dotI (a b : List Int) : Int := (List.zipWith (· * ·) a b).foldl (· + ·) 0

/-- The normal equations of observations in `n` unknowns. -/
def normalEqs (n : Nat) (obs : List ObsRow) : List (List Int) × List Int :=
  let col := fun (o : ObsRow) i => o.1.getD i 0
  ((List.range n).map fun i => (List.range n).map fun j => obs.foldl (fun a o => a + o.2.2 * col o i * col o j) 0,
   (List.range n).map fun i => obs.foldl (fun a o => a + o.2.2 * col o i * (o.2.1 * 2 ^ 30)) 0)

/-- The least squares of observations: the unknowns, and the columns of the inverse of the normal matrix, over one
divisor. -/
def leastSquares (n : Nat) (obs : List ObsRow) : Option (List Int × List (List Int) × Int) :=
  let (a, b) := normalEqs n obs
  match solveSystem a (b :: unitVecs n) with
  | some (x :: inv, d) => if d < 0 then some (x.map (- ·), inv.map fun r => r.map (- ·), -d) else some (x, inv, d)
  | _ => none

/-! ### Ranges (R173, R183) -/

/-- The speed of light, m/s. -/
def lightSpeed : Nat := 299792458

/-- The Earth's rotation in 10^-15 rad/s, the value of WGS 84 (PRESUMED: log entry 61). -/
def earthRate : Int := 72921151467

/-- The difference of two positions. -/
def subV (a b : Int × Int × Int) : Int × Int × Int := (a.1 - b.1, a.2.1 - b.2.1, a.2.2 - b.2.2)

/-- The scalar product of two vectors. -/
def dotV (a b : Int × Int × Int) : Int := a.1 * b.1 + a.2.1 * b.2.1 + a.2.2 * b.2.2

/-- The length of a vector, 2^-32 of its unit. -/
def lengthV (a : Int × Int × Int) : Nat := isqrt ((dotV a a).toNat * 2 ^ 64)

/-- The direction of a vector, 2^-30. -/
def dirV (a : Int × Int × Int) : List Int :=
  let l := max 1 (lengthV a)
  [a.1, a.2.1, a.2.2].map fun x => roundDiv (x * 2 ^ 62) l

/-- The range from a receiver to a satellite with the Earth's rotation during the flight, 2^-32 m; positions in mm
(R183). -/
def rangeTo (sat rcv : Int × Int × Int) : Int :=
  roundDiv (lengthV (subV sat rcv)) 1000 +
    roundDiv ((sat.1 * rcv.2.1 - sat.2.1 * rcv.1) * earthRate * 2 ^ 32) (lightSpeed * 10 ^ 21)

/-- A time in ps as a length in 2^-32 m. -/
def psLen (ps : Int) : Int := roundDiv (ps * lightSpeed * 2 ^ 32) (10 ^ 12)

/-- A length in 2^-32 m as a number over 10^-12 s. -/
def lenPs (s : State) (num : Int) (den : Nat) : State × Int :=
  s.quotient (num * 10 ^ 12) (den * (lightSpeed * 2 ^ 32))

/-- A square root where the spec states no rounding: the floor, or one more when it is not exact (log entry 4). -/
def State.root (s : State) (num : Nat) (den : Nat) : State × Nat :=
  let r := isqrt (num / max den 1)
  if r * r * den = num then (s, r)
  else
    let (s, k) := s.draw 2
    (s, r + k)

/-! ### Weights (R183) -/

/-- The code noise of a component in mm (R183). -/
def noiseMm (c : Comp) (sig cn0 tcoh : Nat) : Nat := Config.codeNoise sig cn0 tcoh * lightSpeed * 10 ^ 6 / (65536 * max 1 c.chip)

/-- σ_E squared in mm²: 0.3 m / sin(elevation), of an elevation in 2^-16 cycle. -/
def elevVar (elev : Int) : Nat :=
  let sn := (cosSin (elev * 65536)).2
  90000 * 2 ^ 60 / max 1 (sn * sn).toNat

/-- A weight for a variance in mm². -/
def weightOf (var : Nat) : Int := (2 ^ 64 / max 1 var : Nat)

end Sys2Proof.Machine
end

