-- ==== Sys2Proof/Machine/NavGeo.lean ====
section
/-! DEFINITION. Where satellites are (R171, R172, R183, R188): system times, the position in use, what a satellite's set or
almanac predicts, elevation and azimuth, the troposphere. Orbits are the interface specifications' (log entry 61). -/

namespace Sys2Proof.Machine

/-! ### Times (R171) -/

/-- The system of a signal code (R170, R195). -/
def sysOf (sig : Nat) : Nat := sig / 16

/-- What is added to device time, in s, to give a system's time since its origin (R171): GPS, Galileo, QZSS, NavIC and
SBAS count from 1980-01-06, BeiDou from 2006-01-01, and GLONASS time is UTC + 3 h. -/
def State.sysOffset (s : State) (sys : Nat) : Int :=
  if sys = 2 then -1136073633 else if sys = 3 then s.getI TIM_UTC_UTCOFS + 10800 else -315964819

/-- 1 ms in 2^-64 ps. -/
def msFine : Nat := 10 ^ 9 * 2 ^ 64

/-- A length in 2^-32 m as a time of flight in 2^-64 ps. -/
def flightFine (len : Int) : Int := len * 10 ^ 12 * 2 ^ 32 / lightSpeed

/-- A set is within its validity (R177). -/
def State.setValid (s : State) (t fit : Nat) : Bool :=
  let n := tvSec s.now
  decide (max n t - min n t ≤ fit)

/-- The ns of device time since a TV64; none while device time is not known within a day, or before it. -/
def State.ageNs (s : State) (tv : Nat) : Option Nat :=
  let now := tv64 s.now
  if s.dayKnown && decide (tv ≤ now) then some ((now - tv) * 1000000000 / 2 ^ 24) else none

/-- An age in days is known and at most `d`. -/
def State.daysWithin (s : State) (sec d : Nat) : Bool :=
  s.dayKnown && decide (max sec (tvSec s.now) - min sec (tvSec s.now) ≤ 86400 * d)

/-! ### The position in use (R188) -/

/-- The square of the distance between two positions, mm². -/
def dist2 (a b : Int × Int × Int) : Nat := (dotV (subV a b) (subV a b)).toNat

/-- `FIXPOS` is given and not refused: within 50 m of a sealed position (R188). -/
def State.fixGiven (s : State) : Bool :=
  s.navField 0x14 == 1 && (!s.cus.rec_.posv || decide (dist2 s.fixPos s.cus.rec_.spos ≤ 50000 * 50000))

/-- The position in use: in FREE mode the one estimated there; else sealed, then `FIXPOS`, then surveyed (R188). -/
def State.posInUse (s : State) : Option (Int × Int × Int) :=
  if s.nav.posMode = 2 then s.nav.freePos
  else if s.cus.rec_.posv then some s.cus.rec_.spos
  else if s.fixGiven then some s.fixPos
  else s.nav.pos

/-- The position that predictions start from: the one in use, or the one kept for aiding (R193). -/
def State.posAid (s : State) : Option (Int × Int × Int) :=
  match s.posInUse with
  | some p => some p
  | none => s.nav.aidPos

/-- The aiding class is fine (R106, R193): device time within 10 µs, and the position known from a solution or kept within
1 km. -/
def State.fineAid (s : State) : Bool :=
  decide (s.terrNow ≤ 10000) && (s.nav.solved || s.nav.aidClass == 2)

/-! ### Sets (R176, R177, R182) -/

/-- The key of a set: a Galileo satellite's F/NAV set has its own beside that of I/NAV, since each clock refers to its own pair
(R182). -/
def setKey (sys sv : Nat) (fnav : Bool) : Nat := if sys = 1 ∧ fnav then 8 * 256 + sv else satKey sys sv

/-- What is predicted of a satellite at an instant of its system's time in ps: by a set in use within its validity, else by an
almanac, which gives no velocity and no clock. -/
def State.predicted (s : State) (key almKey : Nat) (tx : Int) : Option SatEph :=
  let y := s.sat key
  match (if s.setValid y.usedT y.fit then y.used else none), (s.sat almKey).alm with
  | some b, _ => some (Config.satAt b tx)
  | none, some a =>
    if s.daysWithin a.2 180 then some { pos := Config.almanacOrbit a.1 tx, vel := (0, 0, 0), clk := 0, clkRate := 0 } else none
  | none, none => none

/-- The instant at which a satellite sent what a position receives at an instant, both in its system's time in 2^-64 ps, with
what is predicted of it there: the flight is found in three steps from 75 ms. -/
def State.sentAt (s : State) (key almKey : Nat) (pos : Int × Int × Int) (rx : Int) : Option (Int × SatEph) :=
  let back := fun (tx : Int) => (s.predicted key almKey (tx / 2 ^ 64)).map fun g => rx - flightFine (rangeTo g.pos pos)
  match (back (rx - 75 * msFine)).bind back |>.bind back with
  | none => none
  | some tx => (s.predicted key almKey (tx / 2 ^ 64)).map fun g => (tx, g)

/-- The transmit time predicted of a component's satellite at a receive time, 2^-64 ps of the satellite's own clock (R118,
R172). -/
def State.predictAt (s : State) (c : ChanCfg) (rx : Int) : Option Int :=
  let key := satKey (sysOf c.sig) c.sv
  match s.posAid with
  | none => none
  | some p => (s.sentAt key key p rx).map fun g => g.1 + g.2.clk * 2 ^ 64

/-! ### Directions (R183, R195, R200) -/

/-- The vertical at a position on the ellipsoid of WGS 84 (PRESUMED: log entry 61), as a vector of the position's length. -/
def upOf (p : Int × Int × Int) : Int × Int × Int := (p.1, p.2.1, p.2.2 * 1006739496742 / 10 ^ 12)

/-- Elevation and azimuth of a vector from a position, 2^-16 cycle. -/
def lookAt (pos los : Int × Int × Int) : Int × Nat :=
  let u := upOf pos
  let up := dotV los u
  let flat := isqrt ((dotV los los) * (dotV u u) - up * up).toNat
  let east := los.2.1 * u.1 - los.1 * u.2.1
  let north := los.2.2 * (u.1 * u.1 + u.2.1 * u.2.1) - u.2.2 * (los.1 * u.1 + los.2.1 * u.2.1)
  (roundDiv (angle48 up flat) (2 ^ 32),
   uns 16 (roundDiv (angle48 (east * isqrt (dotV u u).toNat) north) (2 ^ 32)))

/-- The days of the year that have passed, from device seconds (R183; the troposphere's season). -/
def yearDay (sec : Nat) : Nat := sec / 86400 * 10000 % 3652425 / 10000

/-- The troposphere in 2^-32 m: the zenith delay of RTCA DO-229 at a position and day, by its mapping function
1.001 / sqrt(0.002001 + sin²) of the elevation (R183; log entry 61). -/
def State.tropo (s : State) (pos : Int × Int × Int) (elev : Int) : Int :=
  let sn := (cosSin (elev * 65536)).2
  let root := isqrt ((2001 * 2 ^ 60 / 1000000 + sn * sn).toNat)
  roundDiv (Config.tropoZenith pos (yearDay (tvSec s.now)) * 2 ^ 32 * 1001 * 2 ^ 30) (1000000 * max 1 root)

end Sys2Proof.Machine
end

