-- ==== Sys2Proof/Machine/EngUnit.lean ====
section
/-! DEFINITION. The correlation path of a channel engine (R52–R67): oscillators, replicas, descriptors, code
generators and their prefetch window, accumulation of one sample. -/

namespace Sys2Proof.Machine

/-! ### Samples of a link (R36, R37, R42) -/

/-- The level of a sign and a magnitude (R37). -/
def signMag (s : Bool) (m : Nat) : Int := (if s then -1 else 1) * (2 * (m : Int) + 1)

/-- The level of a code on `D3`–`D0` under `SLK_CFG.CODE` (R37). -/
def codeLevel (code : Nat) (c : BitVec 4) : Int :=
  match code with
  | 0 => signMag (bit c.toNat 3) (bits c.toNat 2 2)
  | 1 => signMag (bit c.toNat 3) (bits c.toNat 2 1)
  | 2 => signMag (bit c.toNat 3) (bits c.toNat 2 0)
  | _ => 2 * sgn 4 c.toNat + 1

/-- I and Q of a clock cycle: exchanged under `IQSWAP`, Q negated under `QINV` after decoding (R36); zero for a sample
that the stream did not give (R42). -/
def LinkCfg.levels (c : LinkCfg) (m : LinkSample) : Int × Int :=
  let i := if c.iqswap = 1 then m.q else m.i
  let q := codeLevel c.code (if c.iqswap = 1 then m.i else m.q)
  if m.sub then (0, 0) else (codeLevel c.code i, if c.qinv = 1 then -q else q)

/-- The stream of a link is lost: it is not up, or `CLK`, `RATE` or `SKEW` stands (R42). -/
def State.linkLost (s : State) (n : Nat) : Bool :=
  let f := s.get (SLK_STAT_FAULTS n)
  !s.on (SLK_STAT_UP n) || bit f 0 || bit f 1 || bit f 7

/-- A clock cycle of link `n` as an engine takes it, with the marks of its frame and epoch (R42, R43, R48). -/
def State.linkSample (s : State) (n : Nat) (m : LinkSample) : Sample :=
  let l := s.link n
  let (i, q) := if s.linkLost n then (0, 0) else l.cfg.levels m
  { i := i, q := q, gap := m.gap, linkF := l.frameF, fecw := l.fecMark, epoch := m.epoch }

/-! ### The carrier replica (R57) -/

/-- `C[p]`. -/
def carrierC (p : Nat) : Int :=
  match p % 16 with
  | 0 => 4 | 1 => 3 | 2 => 2 | 3 => 1 | 4 => -1 | 5 => -2 | 6 => -3 | 7 => -4
  | 8 => -4 | 9 => -3 | 10 => -2 | 11 => -1 | 12 => 1 | 13 => 2 | 14 => 3 | _ => 4

/-- `S[p] = C[(p − 4) mod 16]`. -/
def carrierS (p : Nat) : Int := carrierC (p + 12)

/-! ### Descriptors (R58, R59) -/

/-- `KIND` -/
def descKind (d : List Nat) : Nat := bits (d.getD 0 0) 31 30
/-- `TMUX` -/
def descTmux (d : List Nat) : Nat := bits (d.getD 0 0) 29 28
/-- `SCP` -/
def descCos (d : List Nat) : Bool := bit (d.getD 0 0) 27
/-- `SCH` -/
def descSch (d : List Nat) : Nat := bits (d.getD 0 0) 26 22
/-- `N` -/
def descN (d : List Nat) : Nat := bits (d.getD 0 0) 19 0
/-- `SCH2` -/
def descSch2 (d : List Nat) : Nat := bits (d.getD 1 0) 31 27
/-- `LEN1` -/
def descLen1 (d : List Nat) : Nat := bits (d.getD 1 0) 26 22
/-- `LEN2` -/
def descLen2 (d : List Nat) : Nat := bits (d.getD 1 0) 21 17

/-- Table words of 512 chips (R61). -/
def descBlockWords (d : List Nat) : Nat := if descSch2 d = 0 then 16 else 32

/-- Words of a whole chip table (R61). -/
def descWords (d : List Nat) : Nat := ceilDiv (descN d) (if descSch2 d = 0 then 32 else 16)

/-- A half-period count: none, or an even value up to 30. -/
def halfPeriods (h : Nat) : Bool := h % 2 == 0

/-- The rules of R58, and R59 for generator A. -/
def descOk (d : List Nat) (genA : Bool) : Bool :=
  let w := fun i => d.getD i 0
  let k := descKind d
  let tm := descTmux d
  let len := fun n : Nat => decide (2 ≤ n) && decide (n ≤ 27)
  k != 3 && tm != 3 && bits (w 0) 21 20 == 0 && halfPeriods (descSch d) && (tm == 0 || descSch d == 0) &&
    decide (1 ≤ descN d) && (!genA || tm == 0 || decide (2 * descN d ≤ 1048575)) &&
    bits (w 1) 16 0 == 0 && halfPeriods (descSch2 d) &&
    (k == 0 || len (descLen1 d)) && (k != 1 || len (descLen2 d)) &&
    bits (w 2) 31 27 == 0 && (k != 0 || (bits (w 2) 26 16 == 0 && decide (bits (w 2) 15 0 + descWords d ≤ 65536))) &&
    bits (w 3) 31 27 == 0 && bits (w 4) 31 27 == 0 && bits (w 5) 31 27 == 0 && bits (w 6) 31 20 == 0 &&
    bits (w 7) 31 20 == 0

/-! ### Code chips (R60–R62) -/

/-- Parity of a word. -/
def parityGo : Nat → Nat → Bool
  | 0, _ => false
  | n + 1, w => xor (w % 2 == 1) (parityGo n (w / 2))

/-- `n` steps of a shift register of length `len` (R60). -/
def lfsrRun (len taps : Nat) : Nat → Nat → Nat
  | 0, st => st
  | n + 1, st => lfsrRun len taps n ((st * 2 + b2n (parityGo len (st &&& taps))) % 2 ^ len)

/-- The output of one register at chip `i`: it reloads at every multiple of `p` chips, if `p` is not 0. -/
def lfsrChip (len taps start p i : Nat) : Bool :=
  bit (lfsrRun len taps (if p = 0 then i else i % p) (start % 2 ^ len)) (len - 1)

/-- A chip of a generator and its sub-carrier flag (R60, R61): a table chip comes from the block held. -/
def Gen.chip (g : Gen) (d : List Nat) (i : Nat) : Bool × Bool :=
  let w := fun n => d.getD n 0
  match descKind d with
  | 0 =>
    let blk := ((g.blocks.find? fun b => b.1 = i / 512).map (·.2)).getD []
    if descSch2 d = 0 then (bit (blk.getD (i % 512 / 32) 0) (i % 32), false)
    else
      let x := blk.getD (i % 512 / 16) 0
      (bit x (2 * (i % 16)), bit x (2 * (i % 16) + 1))
  | 1 =>
    (xor (lfsrChip (descLen1 d) (w 2) (w 4) (w 6) i) (lfsrChip (descLen2 d) (w 3) (w 5) (w 7) i), false)
  | _ => (lfsrChip (descLen1 d) (w 2) (w 4) (w 6) i, false)

/-- The sub-carrier sign at a chip fraction `f` (2^-48) for `h` half-periods (R62). -/
def scSign (cos : Bool) (h f : Nat) : Int :=
  if h = 0 then 1 else if (h * f + (if cos then 2 ^ 47 else 0)) / 2 ^ 48 % 2 = 0 then 1 else -1

/-- The engine period (R59); 2^20 while no descriptor copy is held (DESIGN CHOICE, log entry 16). -/
def EngSt.ne (x : EngSt) : Nat :=
  match x.genA.desc with
  | some d => if descTmux d = 0 then descN d else 2 * descN d
  | none => 2 ^ 20

/-- A generator of `TMUX` gives a chip on this engine chip (R58). -/
def tmuxOn (tm e : Nat) : Bool := tm == 0 || (tm == 1 && e % 2 == 0) || (tm == 2 && e % 2 == 1)

/-- Advances of generator B's index from position 0 to an unwrapped engine position (R59): once for each chip it
produces, on entering an even engine chip or on leaving an odd one, as generator A's index moves. -/
def tmuxCount (tm ne : Nat) (p : Int) : Int :=
  if tm = 0 then p
  else p / (ne : Int) * (if tm = 1 then (ne + 1) / 2 else ne / 2 : Nat) + p % (ne : Int) / 2

/-- The replica of an arm at the engine's present position (R59, R62, R67): −1, 0 or +1. -/
def EngSt.replica (x : EngSt) (a : Arm) : Int :=
  let g := if a.gen then x.genB else x.genA
  match g.desc with
  | none => 0
  | some d =>
    let pos : Int := (x.chip * 2 ^ 48 + x.cfrac : Nat) - a.ofs * 2 ^ 42
    let q := pos / (2 ^ 48 : Nat)
    let f := (pos % (2 ^ 48 : Nat)).toNat
    let e := (q % (x.ne : Int)).toNat
    let tm := descTmux d
    if !tmuxOn tm e then 0
    else
      let n : Int := descN d
      let idx : Nat :=
        if a.gen then
          (((x.ib : Int) + tmuxCount tm x.ne q - tmuxCount tm x.ne x.chip) % n).toNat
        else ((if tm = 0 then (e : Int) else (e : Int) / 2) % n).toNat
      let (c, fl) := g.chip d idx
      let h := match a.sc with
        | 0 => 0
        | 1 => if fl then descSch2 d else descSch d
        | 2 => descSch d
        | _ => descSch2 d
      (if c then -1 else 1) * scSign (descCos d) h f

/-! ### Accumulation (R52, R53) -/

/-- A sum held in 24 bits, and whether it was held. -/
def acc24 (v : Int) : Int × Bool := (satI 24 v, satI 24 v != v)

/-- One enabled arm's sums with a sample's rotated components added. -/
def EngSt.addArm (x : EngSt) (yI yQ : Int) (k : Nat) : EngSt :=
  let a := tblGet x.arms {} k
  if !a.en then x
  else
    let r := x.replica a
    let (i, si) := acc24 (tblGet x.accI 0 k + r * yI)
    let (q, sq) := acc24 (tblGet x.accQ 0 k + r * yQ)
    let x := { x with accI := tblPut x.accI 0 k i, accQ := tblPut x.accQ 0 k q }
    if si || sq then { x with fl := x.fl ||| 0x1000, ncFl := x.ncFl ||| 0x1000 } else x

/-- A sample added to every enabled arm (R52), with its flags and counts (R77, R78). -/
def EngSt.addSample (x : EngSt) (m : Sample) : EngSt :=
  let f := b2n m.linkF * 0x4000 + b2n m.fecw * 0x2000
  let x := { x with nsamp := x.nsamp + 1, ncSamp := x.ncSamp + 1, fl := x.fl ||| f, ncFl := x.ncFl ||| f, fresh := false,
                    inFrame := true, ncInFrame := true, inEpoch := true, ncInEpoch := true }
  if m.gap || x.refill != 0 then { x with gapn := x.gapn + 1, ncGap := x.ncGap + 1 }
  else
    let c := carrierC (x.kph / 2 ^ 36)
    let sn := carrierS (x.kph / 2 ^ 36)
    let yI := m.i * c + m.q * sn
    let yQ := m.q * c - m.i * sn
    (List.range 32).foldl (fun x k => x.addArm yI yQ k) x

/-- The oscillators advance by one sample (R54–R56, R59). The flag says that E wrapped to 0. A phase set with `CHIP` at or
above the period stands, and E goes on from it as (E + 1) mod the period (DEDUCED from R54, log entry 17). -/
def EngSt.advance (x : EngSt) : EngSt × Bool :=
  let f := x.cfrac + x.use.crate
  let kph := (x.kph + x.use.krate) % 2 ^ 40
  if f < 2 ^ 48 then ({ x with cfrac := f, kph := kph }, false)
  else
    let e := (x.chip + 1) % x.ne
    let ib := match x.genB.desc with
      | some d =>
        ((x.ib : Int) + tmuxCount (descTmux d) x.ne (x.chip + 1) - tmuxCount (descTmux d) x.ne x.chip) % (descN d : Int)
          |>.toNat
      | none => x.ib
    ({ x with cfrac := f - 2 ^ 48, chip := e, ib := ib, kph := kph }, e == 0)

/-- The flags of a span that is cleared: the faults of its samples go; the `JUMP` of a phase set or a descriptor change
stays until a sample has been accumulated after it (R78). -/
def clearFlags (fresh : Bool) (fl : Nat) : Nat := if fresh then fl &&& 0x200 else 0

/-- A fault in the running frame marks the spans that hold a sample of it (R43). -/
def EngSt.markFrame (x : EngSt) : EngSt :=
  { x with fl := x.fl ||| (if x.inFrame then 0x4000 else 0), ncFl := x.ncFl ||| (if x.ncInFrame then 0x4000 else 0) }

/-- A front-end write in the running epoch marks the spans that hold a sample of it (R48). -/
def EngSt.markEpoch (x : EngSt) : EngSt :=
  { x with fl := x.fl ||| (if x.inEpoch then 0x2000 else 0), ncFl := x.ncFl ||| (if x.ncInEpoch then 0x2000 else 0) }

/-- The coherent accumulators cleared. -/
def EngSt.clear (x : EngSt) : EngSt :=
  { x with accI := [], accQ := [], nsamp := 0, gapn := 0, fl := clearFlags x.fresh x.fl, inFrame := false,
           inEpoch := false }

/-- The non-coherent sums cleared (R79). -/
def EngSt.clearNc (x : EngSt) : EngSt :=
  { x with ncsum := [], ncSamp := 0, ncGap := 0, ncFl := clearFlags x.fresh x.ncFl, ncInFrame := false,
           ncInEpoch := false }

/-- A phase set or a descriptor change marks the span (R78). -/
def EngSt.jump (x : EngSt) : EngSt :=
  { x with fl := x.fl ||| 0x200, ncFl := x.ncFl ||| 0x200, fresh := true }

/-- The flags that the first record after a restart of the cluster clock, and after a handover, carries whatever its
span (R73, R88). -/
def EngSt.firstFlags (x : EngSt) (restarts : Nat) : Nat :=
  (if x.restarts = restarts then 0 else 0x200) ||| (if x.migd then 0x40 else 0)

/-! ### Records (R76, R77, R79) -/

/-- The smallest exponent from `e` at which every value fits, at most `fuel` higher. -/
def expFrom (fits : Nat → Bool) : Nat → Nat → Nat
  | 0, e => e
  | fuel + 1, e => if fits e then e else expFrom fits fuel (e + 1)

/-- The sums of the 32 arms, zeros for arms that are disabled. -/
def EngSt.armVals {α : Type} (x : EngSt) (t : Tbl α) (z : α) : List α :=
  (List.range 32).map fun k => if (tblGet x.arms {} k).en then tblGet t z k else z

/-- The exponent of a coherent record (R76). -/
def cohExp (vs : List Int) : Nat :=
  expFrom (fun e => vs.all fun v => decide (-(2 ^ (15 + e) : Nat) ≤ v) && decide (v < (2 ^ (15 + e) : Nat))) 8 0

/-- The exponent of a non-coherent record (R79). -/
def ncExp (vs : List Nat) : Nat := expFrom (fun e => vs.all fun v => decide (v / 2 ^ e < 2 ^ 32)) 20 0

/-- Exponent and arm words of a record. -/
def EngSt.arms32 (x : EngSt) (nc : Bool) : Nat × List Nat :=
  if nc then
    let vs := x.armVals x.ncsum 0
    let e := ncExp vs
    (e, vs.map fun v => v / 2 ^ e)
  else
    let is := x.armVals x.accI 0
    let qs := x.armVals x.accQ 0
    let e := cohExp (is ++ qs)
    (e, (is.zip qs).map fun p => uns 16 (p.1 / (2 ^ e : Nat)) * 2 ^ 16 + uns 16 (p.2 / (2 ^ e : Nat)))

/-- A record of 42 words (R77); `flags` holds the flags that the span does not. The span of a non-coherent record, in
`NSAMP`, `GAPN` and its flags, holds all samples since the sums were cleared, also those of a coherent span that was
cleared without `NCACC` (DEDUCED from R75 and R77, log entry 17). -/
def EngSt.record (x : EngSt) (e dseq epoch tag sidx flags : Nat) (nc : Bool) : List Nat :=
  let (ex, ws) := x.arms32 nc
  let gapn := if nc then x.ncGap else x.gapn
  let fl := (if nc then x.ncFl ||| 0x100 else x.fl) ||| flags ||| (if gapn = 0 then 0 else 0x800) |||
    (if x.use.src = 8 then 0x80 else 0)
  [e % 1024 * 2 ^ 22 + ex * 2 ^ 17 + dseq % 65536,
   epoch % 65536 * 2 ^ 16 + fl,
   tag % 256 * 2 ^ 24 + x.use.src % 16 * 2 ^ 20 + sidx % 2 ^ 20,
   x.use.chid % 4096 * 2 ^ 20 + x.chip % 2 ^ 20,
   x.cfrac / 2 ^ 16 % 2 ^ 32,
   x.cfrac % 2 ^ 16 * 2 ^ 16 + x.kph / 2 ^ 32 % 256,
   x.kph % 2 ^ 32,
   satN 32 (if nc then x.ncSamp else x.nsamp),
   x.ib % 2 ^ 20,
   satN 32 gapn] ++ ws

/-! ### Windows and descriptors in memory (R58, R63–R66) -/

/-- The byte address of a word of a cluster's local memory. -/
def cluWord (c w : Nat) : Nat := 0x50080000 + c * 0x100000 + w % 65536 * 4

/-- One block of 512 chips of a table; none on a double-bit error. -/
def State.genBlock (s : State) (c : Nat) (d : List Nat) (b : Nat) : State × Option (Nat × List Nat) :=
  let k := descBlockWords d
  let n := min k (descWords d - b * k)
  let (s, ws, ok) := s.memReadWords (.cluster c) (cluWord c (bits (d.getD 2 0) 15 0 + b * k)) n
  (s, if ok then some (b, ws) else none)

/-- Blocks in order; none on a double-bit error in any. -/
def State.genBlocks (s : State) (c : Nat) (d : List Nat) : List Nat → State × Option (List (Nat × List Nat))
  | [] => (s, some [])
  | b :: bs =>
    match s.genBlock c d b with
    | (s, none) => (s, none)
    | (s, some x) =>
      match s.genBlocks c d bs with
      | (s, none) => (s, none)
      | (s, some xs) => (s, some (x :: xs))

/-- The blocks of the window around a chip index: all of a code of at most 4,096 chips, else eight (R63). -/
def windowBlocks (d : List Nat) (idx : Nat) : List Nat :=
  let nb := ceilDiv (descN d) 512
  if descN d ≤ 4096 then List.range nb else (List.range 8).map fun j => (idx / 512 + 8 * nb - 5 + j) % nb

/-- A generator filled from its descriptor around an index (R58, R63, R66), given for generator A as the engine chip:
the fault code when it cannot be. -/
def State.genLoad (s : State) (c di idx : Nat) (genA : Bool) : State × Except Nat Gen :=
  let (s, ws, ok) := s.memReadWords (.cluster c) (cluWord c (di * 8)) 8
  if !ok then (s, .error 5)
  else if !descOk ws genA then (s, .error 4)
  else if descKind ws = 0 then
    let i := if genA && descTmux ws != 0 then idx / 2 else idx
    match s.genBlocks c ws (windowBlocks ws i) with
    | (s, none) => (s, .error 5)
    | (s, some bs) => (s, .ok { desc := some ws, blocks := bs })
  else (s, .ok { desc := some ws })

/-- A generator's window after the prompt moved to an index (R63): on entering block `b`, block `b + 2` is fetched
in place of the oldest. -/
def State.genMove (s : State) (c : Nat) (g : Gen) (old new : Nat) : State × Option Gen :=
  match g.desc with
  | none => (s, some g)
  | some d =>
    if descKind d ≠ 0 ∨ descN d ≤ 4096 ∨ old / 512 = new / 512 then (s, some g)
    else
      match s.genBlock c d ((new / 512 + 2) % ceilDiv (descN d) 512) with
      | (s, none) => (s, none)
      | (s, some x) => (s, some { g with blocks := g.blocks.tail ++ [x] })

/-- A generator as a dwell may use it: its descriptor copy and its window are whole. -/
def Gen.whole (g : Gen) : Bool := g.desc.isSome && !g.bad

/-- A generator on an LFSR code. -/
def Gen.lfsr (g : Gen) : Bool :=
  match g.desc with
  | some d => descKind d != 0
  | none => false

/-- A generator on a table code. -/
def Gen.table (g : Gen) : Bool :=
  match g.desc with
  | some d => descKind d == 0
  | none => false

/-- Generator A's index (R59). -/
def EngSt.ia (x : EngSt) : Nat :=
  match x.genA.desc with
  | some d => if descTmux d = 0 then x.chip else x.chip / 2
  | none => x.chip

/-- The oscillators' chips after `n` samples: E, and generator B's index (R54, R59). -/
def EngSt.chipsAfter (x : EngSt) (n : Nat) : Nat × Nat :=
  let q := (x.cfrac + n * x.use.crate) / 2 ^ 48
  (if q = 0 then x.chip else (x.chip + q) % x.ne,
   match x.genB.desc with
   | some d =>
     ((x.ib : Int) + tmuxCount (descTmux d) x.ne (x.chip + q : Nat) - tmuxCount (descTmux d) x.ne x.chip) %
       (descN d : Int) |>.toNat
   | none => x.ib)

/-- The two generators' indices after `n` samples. -/
def EngSt.indexAfter (x : EngSt) (n : Nat) : Nat × Nat :=
  let p := x.chipsAfter n
  ({ x with chip := p.1 }.ia, p.2)

end Sys2Proof.Machine
end

