-- ==== Sys2Proof/Machine/EngBlock.lean ====
section
/-! DEFINITION. Channel engines (ch. 3): dwell tokens, dwell programs, boundaries and pending sets, the dump ring,
engine states, gangs, migration and the self-test; the replay stream as an engine takes it (R98, R99). -/

namespace Sys2Proof.Machine

/-! ### Engine records and their registers -/

/-- An engine's record put back, with the fields of `ENG_STAT` that show it. -/
def State.engPut (s : State) (e : Nat) (x : EngSt) : State :=
  (((s.setEng e x).setB (ENG_STAT_RUN e) x.run.isSome).set (ENG_STAT_QDEPTH e) x.queue.length).setB (ENG_STAT_PEND e)
    x.pend.isSome

/-- `ENG_STAT.STATE`: IDLE 0, TRACKING 1, ACQUIRING 2, MIGRATING 3, REPAIR 4, RETIRED 5. -/
def State.engState (s : State) (e : Nat) : Nat := s.get (ENG_STAT_STATE e)

/-- An engine enters a state (R84). -/
def State.engEnter (s : State) (e k : Nat) : State := s.set (ENG_STAT_STATE e) k

/-- A function applied to each of a cluster's 64 engines, lowest first. -/
def State.eachEng (s : State) (c : Nat) (f : Nat → State → State) : State := s.each 64 fun k s => f (64 * c + k) s

/-- The engines of a cluster in a state (R85). -/
def State.engCount (s : State) (c k : Nat) : Nat :=
  ((List.range 64).filter fun j => s.engState (64 * c + j) = k).length

/-- Tokens an engine holds (R68). -/
def EngSt.tokens (x : EngSt) : Nat := x.queue.length + b2n x.run.isSome

/-- Tokens returned to the pool of a cluster. -/
def State.tokBack (s : State) (c n : Nat) : State := s.inc (CLU_TOK_FREE c) n

/-- The cluster's clock runs: enabled, not gated by BRACE, and `PLL_A` locked and aligned (R73, R243, R317). -/
def State.cluOn (s : State) (c : Nat) : Bool := s.on (CLU_CTL_CKEN c) && s.on (PLL_STAT_ALIGNED 0) && !s.sup.arrayOff

/-! ### Migration aborts, cancels and faults (R72, R73, R88) -/

/-- A handover of loop states comes to nothing (R139): the source DSP answers again, the target DSP discards what it
imported. -/
def State.handBack (s : State) (src tgt : Nat) : State :=
  if (s.chan src).handed then
    (s.setChan tgt { s.chan tgt with live := false }).setChan src { s.chan src with handed := false }
  else s

/-- A migration aborts: both engines return as R84 gives, and the target's queued dwells are removed. -/
def State.migAbort (s : State) (src : Nat) : State :=
  match (s.eng src).migTo with
  | none => s
  | some tgt =>
    let s := ((s.handBack src tgt).setEng src { s.eng src with migTo := none }).engEnter src 1
    let y := s.eng tgt
    let s := (s.tokBack (tgt / 64) y.tokens).engPut tgt { y with queue := [], run := none }
    ((s.engEnter tgt 0).set (ENG_MIG_ARM tgt) 0).set (ENG_STAT_MIGERR tgt) 1

/-- The running dwell ends and the queue is emptied: tokens return, `CANCELLED` is set (R73). -/
def State.engCancel (s : State) (e : Nat) : State :=
  let x := s.eng e
  let s := (s.tokBack (e / 64) x.tokens).engPut e { x with run := none, queue := [] }
  (s.set (ENG_STAT_CANCELLED e) 1).migAbort e

/-- A dwell faults (R72). -/
def State.engFault (s : State) (e code : Nat) : State :=
  let x := s.eng e
  let s := (s.tokBack (e / 64) 1).engPut e { x.clear.clearNc with run := none }
  let s := (s.set (ENG_STAT_FAULT e) 1).set (ENG_STAT_FCODE e) code
  (s.set (CLU_IRQ_FAULT (e / 64)) 1).migAbort e

/-! ### Descriptors and windows in an engine -/

/-- Both generators filled from their descriptors around the present position; the fault code when one cannot be. -/
def State.engReload (s : State) (e : Nat) : State × Option Nat :=
  let x := s.eng e
  let c := e / 64
  match s.genLoad c x.use.descA x.chip true with
  | (s, .error f) => (s.setEng e { x with genA := {}, genB := {} }, some f)
  | (s, .ok a) =>
    match s.genLoad c x.use.descB x.ib false with
    | (s, .error f) => (s.setEng e { x with genA := {}, genB := {} }, some f)
    | (s, .ok b) => (s.setEng e { x with genA := a, genB := b }, none)

/-- The clocks in which generators that run forward from their initial states meet the code phase, 64 chips a clock
while the replay stream moves by 4 samples: the first at which none has an index still to reach (R66, R98). `a` and `b`
say which generators run; from `n`, at most `fuel` clocks more. -/
def EngSt.runClocks (x : EngSt) (a b : Bool) : Nat → Nat → Nat
  | 0, n => n
  | fuel + 1, n =>
    let (i, j) := x.indexAfter (4 * n)
    if (a && decide (n < ceilDiv i 64)) || (b && decide (n < ceilDiv j 64)) then x.runClocks a b fuel (n + 1) else n

/-- Samples of the replay stream that a refill misses, 4 in each clock; `a` and `b` say which generators load. An LFSR
generator runs forward to the index that the code phase holds when it arrives; a table window takes 32 clocks when its
engine refills `alone`, else up to 2,048, a free value (R65, R66, R98). -/
def State.refillTime (s : State) (x : EngSt) (a b alone : Bool) : State × Nat :=
  let lfsr := x.runClocks (a && x.genA.lfsr) (b && x.genB.lfsr) 16384 0
  if x.use.src ≠ 8 then (s, 0)
  else if (a && x.genA.table) || (b && x.genB.table) then
    if alone then (s, 4 * max lfsr 32)
    else
      let (s, k) := s.draw 2017
      (s, 4 * max lfsr (32 + k))
  else (s, 4 * lfsr)

/-- The generators read anew; a running dwell faults when they cannot be (R58, R66). `loads` says, of each generator
before and after, whether it loads and so misses samples. A refill begun in the epoch still runs beside the new one. -/
def State.engRefillIf (s : State) (e : Nat) (alone : Bool) (loads : Gen → Gen → Bool) : State :=
  let x := s.eng e
  match s.engReload e with
  | (s, some f) => if (s.eng e).run.isSome then s.engFault e f else s
  | (s, none) =>
    let y := s.eng e
    match s.refillTime y (loads x.genA y.genA) (loads x.genB y.genB) alone with
    | (s, n) => s.setEng e { s.eng e with refill := if y.use.src = 8 then max (s.eng e).refill n else 0,
                                          refillAt := s.tim.up, refillIn := s.replay.inPass }

/-- No other engine of the cluster refills (R65). -/
def State.refillAlone (s : State) (e : Nat) : Bool :=
  (List.range 64).all fun k => 64 * (e / 64) + k == e || (s.eng (64 * (e / 64) + k)).refill == 0

/-- Both generators refilled (R66). -/
def State.engRefill (s : State) (e : Nat) : State := s.engRefillIf e (s.refillAlone e) fun _ _ => true

/-- At the begin of a pass a refill of the pass before has gone on through the 4.0 µs between them, 1,637 clocks (R98); one
from outside a pass, at most 2,048 or 16,384 clocks long (R65, R66), is over after a whole epoch, and before that how much
of it is left is open. -/
def State.refillLeft (s : State) (later : Bool) (e : Nat) : State :=
  let x := s.eng e
  if x.refill = 0 then s
  else if later && x.refillIn then s.setEng e { x with refill := x.refill - 4 * 1637 }
  else if x.refillAt + 2000000 ≤ s.tim.up then s.setEng e { x with refill := 0 }
  else
    let (s, k) := s.draw (x.refill + 1)
    s.setEng e { x with refill := k }

/-! ### Pending sets (R81–R83) -/

/-- A set taken into use (R82, R83): the span begins anew where it sets a phase or names other descriptors; frames and
epochs of another stream are no longer the running ones. A set whose `ENG_CODE` equals the one in use is no new
`ENG_CODE` in the sense of R64 and re-reads nothing (DEDUCED, log entry 17). -/
def State.engApplySet (s : State) (e : Nat) (p : EngSet) : State :=
  let x := s.eng e
  let desc := p.descA != x.use.descA || p.descB != x.use.descB
  let same := p.src == x.use.src
  let x := { x with use := { p with cset := false, kset := false }, inFrame := x.inFrame && same,
                    ncInFrame := x.ncInFrame && same, inEpoch := x.inEpoch && same, ncInEpoch := x.ncInEpoch && same }
  let x := if p.cset then { x with chip := p.chip, cfrac := p.cfrac, ib := p.ib } else x
  let x := if p.kset then { x with kph := p.kph } else x
  let s := s.engPut e (if p.cset || p.kset || desc then x.jump else x)
  if p.cset || desc then s.engRefill e else s

/-- The staging copy, as the registers hold it. -/
def State.engStaged (s : State) (e : Nat) : EngSet :=
  { src := s.get (ENG_CFG_SRC e), chid := s.get (ENG_CFG_CHID e), descA := s.get (ENG_CODE_DESCA e),
    descB := s.get (ENG_CODE_DESCB e), crate := s.get2 (ENG_CRATE_L_RATE e) (ENG_CRATE_H_RATE e),
    krate := s.get2 (ENG_KRATE_L_RATE e) (ENG_KRATE_H_RATE e), cset := s.on (ENG_CPHS_C_SET e),
    cfrac := s.get2 (ENG_CPHS_F0_FRAC e) (ENG_CPHS_F1_FRAC e), chip := s.get (ENG_CPHS_C_CHIP e),
    ib := s.get (ENG_CPHS_B_IB e), kset := s.on (ENG_KPHS_H_SET e),
    kph := s.get2 (ENG_KPHS_L_PH e) (ENG_KPHS_H_PH e) }

/-- A write of `ENG_TGT` commits the whole staging copy (R81, R82). -/
def State.engCommit (s : State) (e w : Nat) : State :=
  let x := s.eng e
  let tgt := w % 65536
  let late := !bit w 16 && decide ((s.get (ENG_DSEQ_DSEQ e) + 65536 - tgt) % 65536 < 32768)
  let s := if x.pend.isSome then s.set (ENG_STAT_OVWR e) 1 else s
  let s := s.engPut e { x with pend := some { set := s.engStaged e, any := bit w 16, target := tgt, late := late } }
  (s.set (ENG_CPHS_C_SET e) 0).set (ENG_KPHS_H_SET e) 0

/-- `ENG_CTL.APPLY`: only while no dwell runs (R83). -/
def State.engApply (s : State) (e : Nat) : State :=
  let x := s.eng e
  match x.run, x.pend with
  | none, some p => (s.engPut e { x with pend := none }).engApplySet e p.set
  | _, _ => s

/-! ### The replay stream (R91, R98, R99) -/

/-- Samples per second stored at a rate code (R90). -/
def storedRate : Nat → Nat
  | 0 => 4092000
  | 1 => 10230000
  | 2 => 20460000
  | 3 => 51150000
  | 4 => 102300000
  | _ => 204600000

/-- The byte address of stored sample `i` (R91). -/
def HandleSt.addr (h : HandleSt) (i : Nat) : Nat :=
  0x70000000 + h.cred.getD (i / 1048576) 0 * 0x80000 + i % 1048576 / 2

/-- The level a sign and magnitude pair stands for (R91). -/
def levelOf (pair : Nat) : Int := signMag (bit pair 1) (pair % 2)

/-- Epochs from the trigger to stored sample `i` (R99). -/
def HandleSt.epochOf (h : HandleSt) (i : Nat) : Nat :=
  (h.sub * storedRate h.rate + i * 65536000000000) / (65536000000 * storedRate h.rate)

/-- The first stored sample of an epoch counted from the trigger. -/
def HandleSt.firstOf (h : HandleSt) (k : Nat) : Nat :=
  ceilDiv ((k * 65536000000 - h.sub) * storedRate h.rate) 65536000000000

/-- Stored sample `i` of a handle as an engine takes it. -/
def State.replaySample (s : State) (h i : Nat) : Sample :=
  let x := s.handle h
  let b := (s.byteAt (x.addr i)).toNat / (if i % 2 = 0 then 1 else 16) % 16
  { i := levelOf (b / 4), q := levelOf (b % 4), gap := false, linkF := s.on (SNP_HSTAT_LINKF h),
    fecw := s.on (SNP_HSTAT_FECW h), epoch := i == 0 || x.epochOf i != x.epochOf (i - 1) }

/-- The samples a pass still has for an engine. -/
def State.replayLeft (s : State) (x : EngSt) : List Sample :=
  if s.replay.inPass then
    (List.range (s.replay.count - x.rpos)).map fun i =>
      s.replaySample s.replay.handle (s.replay.start + x.rpos + i)
  else []

/-- Device-epoch count and index within its epoch of the sample an engine takes next. -/
def State.boundaryAt (s : State) (x : EngSt) (sidx : Nat) : Nat × Nat :=
  if x.use.src = 8 then
    let h := s.handle s.replay.handle
    let i := s.replay.start + (if x.rpos < s.replay.count then x.rpos else 0)
    let k := h.epochOf i
    (h.count0 + k, i - h.firstOf k)
  else (s.epochCount, sidx)

/-! ### Dwell programs (R69–R71) -/

/-- The bits an opcode uses below its opcode field; none for a reserved opcode. -/
def dwellMask : Nat → Option Nat
  | 0x0 => some 0
  | 0x1 => some 0xFFFF
  | 0x2 => some 0x0FFC0FFF
  | 0x3 => some 0x0FFFC000
  | 0x4 => some 0x0E0FFFFF
  | 0x5 => some 0x0C0FFFFF
  | 0x6 => some 0x0C0000FF
  | 0x7 => some 0
  | 0x8 => some 0x0C0000FF
  | 0x9 => some 0x080FFFFF
  | 0xA => some 0x0800003F
  | 0xB => some 0x3F
  | 0xC => some 0xFF
  | 0xD => some 0
  | _ => none

/-- An instruction word that does not fault (R70, R71). The reserved `UNIT` 0b11 faults as a reserved opcode does (DESIGN
CHOICE, log entry 16). -/
def dwellOk (w : Nat) : Bool :=
  match dwellMask (bits w 31 28) with
  | none => false
  | some m =>
    (bits w 27 0 ||| m) == m &&
      ((bits w 31 28 != 4 && bits w 31 28 != 5) || (bits w 27 26 != 3 && bits w 19 0 != 0))

/-- The dwell stands at an instruction: it faults beyond the loaded program or at a word that R70 refuses. -/
def State.engSettle (s : State) (e : Nat) : State :=
  match (s.eng e).run with
  | none => s
  | some r =>
    match r.prog[r.pc]? with
    | none => s.engFault e 3
    | some w => if dwellOk w then s else s.engFault e 1

/-- The dwell goes to an instruction. -/
def State.engGoto (s : State) (e : Nat) (pc : Nat) : State :=
  let x := s.eng e
  match x.run with
  | none => s
  | some r => (s.setEng e { x with run := some { r with pc := pc, left := none, first := false } }).engSettle e

/-- The dwell goes to the next instruction. -/
def State.engNext (s : State) (e : Nat) : State :=
  match (s.eng e).run with
  | none => s
  | some r => s.engGoto e (r.pc + 1)

/-- The instruction under way in a dwell, when the cluster's clock runs. -/
def State.dwellWord (s : State) (e : Nat) : Option Nat :=
  if s.cluOn (e / 64) then
    match (s.eng e).run with
    | none => none
    | some r => r.prog[r.pc]?
  else none

/-- An instruction of the opcode named runs; another one under way is left as it is. -/
def State.dwellExec (s : State) (e op : Nat) (act : Nat → State → State) : State :=
  match s.dwellWord e with
  | none => s
  | some w => if bits w 31 28 = op then act w s else s

/-- `ENG_DWQ` (R68). An engine with none running takes an eighth dwell, since it holds seven tokens; `QDEPTH`, of three
bits, then reads 0 (DESIGN CHOICE, log entry 16). -/
def State.engQueue (s : State) (e start : Nat) : State :=
  let c := e / 64
  let st := s.engState e
  let x := s.eng e
  if !(st == 1 || (st == 2 && !(s.clu c).gang) || (st == 3 && x.migTo.isNone)) then s.set (ENG_STAT_ROLEERR e) 1
  else if 8 ≤ x.tokens then s.set (ENG_STAT_QFULL e) 1
  else if s.get (CLU_TOK_FREE c) = 0 then (s.set (ENG_STAT_QFULL e) 1).set (CLU_STAT_NOTOK c) 1
  else if s.on (CLU_STAT_MAPERR c) then s.set (ENG_STAT_QFULL e) 1
  else (s.dec (CLU_TOK_FREE c)).engPut e { x with queue := x.queue ++ [start] }

/-- The program loaded from a start index: up to 64 instructions, not past the program area (R69). -/
def State.dwellLoad (s : State) (e start : Nat) : State × List Nat × Bool :=
  let c := e / 64
  s.memReadWords (.cluster c) (cluWord c (s.get (CLU_PBASE_ADDR c) + start))
    (min 64 (s.get (CLU_PBASE_LEN c) - start))

/-- The oldest queued dwell starts (R52, R58, R69). -/
def State.engBegin (s : State) (e : Nat) : State :=
  let x := s.eng e
  match x.queue with
  | [] => s
  | start :: rest =>
    let s := s.engPut e { x with queue := rest, run := some {} }
    if 9 ≤ x.use.src then s.engFault e 6
    else
      match s.dwellLoad e start with
      | (s, _, false) => s.engFault e 5
      | (s, ws, true) =>
        let s := s.setEng e { s.eng e with run := some { prog := ws } }
        if !x.genA.whole || !x.genB.whole then
          match s.engReload e with
          | (s, some f) => s.engFault e f
          | (s, none) => s.engSettle e
        else s.engSettle e

/-- An engine starts its next dwell: none runs, and it is not a migration target that waits for its handover. -/
def State.dwellStart (s : State) (e : Nat) : State :=
  let x := s.eng e
  let st := s.engState e
  if x.run.isNone && (st == 1 || st == 2 || (st == 3 && x.migTo.isSome)) && s.cluOn (e / 64) then s.engBegin e else s

/-- `ABASE` -/
def dwellActAbase (e w : Nat) (s : State) : State :=
  (s.setEng e { s.eng e with abase := sgn 16 w }).engNext e

/-- The arms of a range set by a function of their number. -/
def EngSt.setArms (x : EngSt) (first last : Nat) (f : Nat → Arm → Arm) : EngSt :=
  let arms := (List.range 32).foldl
    (fun t k => if first ≤ k ∧ k ≤ last then tblPut t {} k (f k (tblGet t {} k)) else t) x.arms
  { x with arms := arms }

/-- The offset that `AOFS` gives arm `k`. -/
def aofsOf (base : Int) (w k : Nat) : Int := base + ((k : Int) - bits w 27 23) * bits w 11 0

/-- `AOFS` -/
def dwellActAofs (e w : Nat) (s : State) : State :=
  let x := s.eng e
  let a := bits w 27 23
  let b := bits w 22 18
  let ok := (List.range 32).all fun k =>
    !(decide (a ≤ k) && decide (k ≤ b)) || (decide (-32768 ≤ aofsOf x.abase w k) && decide (aofsOf x.abase w k ≤ 32767))
  if ok then (s.setEng e (x.setArms a b fun k r => { r with ofs := aofsOf x.abase w k })).engNext e
  else s.engFault e 2

/-- `ASRC` -/
def dwellActAsrc (e w : Nat) (s : State) : State :=
  let x := s.eng e
  let f : Nat → Arm → Arm := fun _ r => { r with en := bit w 17, gen := bit w 16, sc := bits w 15 14 }
  (s.setEng e (x.setArms (bits w 27 23) (bits w 22 18) f)).engNext e

/-- What a run over samples leaves: the state, the engine, what is left of the span, whether its first sample is still
to come, a fetch fault. -/
structure SpanOut where
  s     : State
  x     : EngSt
  left  : Option Nat
  first : Bool
  fault : Bool

/-- One sample passes: the oscillators advance and the windows follow (R56, R63). The flags: E wrapped to 0; a fetch
found a double-bit error, which leaves its window incomplete. -/
def State.engTick (s : State) (c : Nat) (x : EngSt) : State × EngSt × Bool × Bool :=
  let (y, wrap) := x.advance
  let y := { y with rpos := y.rpos + 1, refill := y.refill - 1 }
  match s.genMove c y.genA x.ia y.ia with
  | (s, a) =>
    match s.genMove c y.genB x.ib y.ib with
    | (s, b) =>
      (s, { y with genA := a.getD { y.genA with bad := true }, genB := b.getD { y.genB with bad := true } }, wrap,
       a.isNone || b.isNone)

/-- Samples that pass while no dwell takes them (R56). -/
def coastGo (c : Nat) : List Sample → State → EngSt → State × EngSt
  | [], s, x => (s, x)
  | _ :: ms, s, x =>
    match s.engTick c x with
    | (s, y, _) => coastGo c ms s y

/-- Samples taken over a span of R71: `acc` accumulates; unit 0 ends after `left` samples, 1 after `left` wraps of E,
2 before the `left`-th epoch boundary after its first sample. After a fetch fault the samples that are left pass. -/
def spanGo (c : Nat) (acc : Bool) (unit : Nat) : List Sample → Nat → Bool → State → EngSt → SpanOut
  | [], left, first, s, x => ⟨s, x, some left, first, false⟩
  | m :: ms, left, first, s, x =>
    let edge := unit == 2 && m.epoch && !first
    if edge && left == 1 then ⟨s, x, none, false, false⟩
    else
      match s.engTick c (if acc then x.addSample m else x) with
      | (s, y, _, true) =>
        match coastGo c ms s y with
        | (s, y) => ⟨s, y, none, false, true⟩
      | (s, y, wrap, false) =>
        let left := left - b2n (edge || unit == 0 || (unit == 1 && wrap))
        if left == 0 then ⟨s, y, none, false, false⟩ else spanGo c acc unit ms left false s y

/-- The stream of an engine: the samples of its link, or the replay stream. R52 faults a dwell that starts with a
reserved stream; one that runs when a set with such a stream applies goes on with samples of zero (DESIGN CHOICE, log
entry 17). -/
def State.engStream (s : State) (x : EngSt) (ms : List LinkSample) : List Sample :=
  if x.use.src = 8 then s.replayLeft x else ms.map (s.linkSample x.use.src)

/-- `ENG_STAT.SAT` and `GAP` after samples were taken; the span's saturation mark of before is put back. -/
def State.engSpanFlags (s : State) (e : Nat) (x y : EngSt) : State :=
  let s := if bit y.fl 12 then s.set (ENG_STAT_SAT e) 1 else s
  let s := if x.gapn < y.gapn then s.set (ENG_STAT_GAP e) 1 else s
  s.setEng e { y with fl := y.fl ||| (x.fl &&& 0x1000), ncFl := y.ncFl ||| (x.ncFl &&& 0x1000) }

/-- `ACC` and `SKIP` over samples (R70, R71). -/
def dwellActSpan (e : Nat) (acc : Bool) (ms : List LinkSample) (w : Nat) (s : State) : State :=
  let x := s.eng e
  match x.run with
  | none => s
  | some r =>
    let x := if acc && r.left.isNone && bit w 25 then x.clear else x
    let x0 := { x with fl := x.fl &&& 0xEFFF, ncFl := x.ncFl &&& 0xEFFF }
    let left := r.left.getD (bits w 19 0)
    let first := r.left.isNone || r.first
    let o := spanGo (e / 64) acc (bits w 27 26) (s.engStream x ms) left first s x0
    let y := if o.fault then o.x else { o.x with run := some { r with left := o.left, first := o.first } }
    let s := o.s.engSpanFlags e x y
    if o.fault then s.engFault e 5 else if o.left.isNone then s.engNext e else s

/-- The oscillators alone: samples while no dwell runs (R56). -/
def State.engCoast (s : State) (e : Nat) (ms : List LinkSample) : State :=
  let x := s.eng e
  match coastGo (e / 64) (s.engStream x ms) s x with
  | (s, y) => s.setEng e y

/-- `ACC` with samples; without a dwell the oscillators take them (R56). -/
def State.dwellAcc (s : State) (e : Nat) (ms : List LinkSample) : State :=
  if (s.eng e).run.isNone && s.cluOn (e / 64) then s.engCoast e ms else s.dwellExec e 4 (dwellActSpan e true ms)

/-- `NCACC` (R79): the sums hold 52 bits. -/
def dwellActNcacc (e : Nat) (_ : Nat) (s : State) : State :=
  let x := s.eng e
  let sums := (List.range 32).foldl (fun t k =>
    if (tblGet x.arms {} k).en then
      let i := tblGet x.accI 0 k
      let q := tblGet x.accQ 0 k
      tblPut t 0 k (satN 52 (tblGet t 0 k + (i * i + q * q).toNat))
    else t) x.ncsum
  (s.setEng e { x.clear with ncsum := sums }).engNext e

/-- `SETC` -/
def dwellActSetc (e w : Nat) (s : State) : State :=
  let x := s.eng e
  match x.run with
  | none => s
  | some r =>
    let r := if bit w 27 then { r with ctr1 := bits w 19 0 } else { r with ctr0 := bits w 19 0 }
    (s.setEng e { x with run := some r }).engNext e

/-- `LOOP`: the counters hold 20 bits. -/
def dwellActLoop (e w : Nat) (s : State) : State :=
  let x := s.eng e
  match x.run with
  | none => s
  | some r =>
    let n := ((if bit w 27 then r.ctr1 else r.ctr0) + (2 ^ 20 - 1)) % 2 ^ 20
    let r := if bit w 27 then { r with ctr1 := n } else { r with ctr0 := n }
    let s := s.setEng e { x with run := some r }
    if n = 0 then s.engNext e else s.engGoto e (bits w 5 0)

/-- `JMP` -/
def dwellActJmp (e w : Nat) (s : State) : State := s.engGoto e (bits w 5 0)

/-- `IRQ` -/
def dwellActIrq (e w : Nat) (s : State) : State :=
  let s := (s.set (ENG_STAT_ICODE e) (bits w 7 0)).set (ENG_STAT_PIRQ e) 1
  (s.set (CLU_IRQ_PROG (e / 64)) 1).engNext e

/-- `END`: the token returns. -/
def dwellActEnd (e : Nat) (_ : Nat) (s : State) : State :=
  (s.tokBack (e / 64) 1).engPut e { s.eng e with run := none }

/-- `NOP` -/
def dwellActNop (e : Nat) (_ : Nat) (s : State) : State := s.engNext e

/-! ### Boundaries (R75–R82, R88) -/

/-- A non-coherent record of a ganged cluster goes to the search map: the powers of the enabled arms in place of the
engine's earlier ones (R102). -/
def State.mapRecord (s : State) (e : Nat) (x : EngSt) : State :=
  let m := s.map (e / 64)
  let slot := e % 64
  let (ex, ws) := x.arms32 true
  let cells := (List.range 32).foldl (fun t k =>
    if (tblGet x.arms {} k).en then tblSet t (32 * slot + k) (ws.getD k 0 * 2 ^ ex)
    else tblErase t (32 * slot + k)) m.cells
  s.setMap (e / 64) { m with cells := cells, done := if m.done.contains slot then m.done else slot :: m.done }

/-- The handover of a migration at the source's boundary, behind the set that applies there (R88): the target's
queued dwell starts with the handover, also where its cluster's clock is stopped (DESIGN CHOICE, log entry 18); its span
begins with the source's phase set or descriptor change, if one has just applied, and the target itself knows whether
its cluster's clock has resumed since its last record (R73, R78). -/
def State.migHandover (s : State) (src : Nat) : State :=
  let x := s.eng src
  match x.migTo with
  | none => s
  | some tgt =>
    let y := s.eng tgt
    let y := ({ y with use := x.use, pend := x.pend, chip := x.chip, cfrac := x.cfrac, ib := x.ib, kph := x.kph,
                       genA := x.genA, genB := x.genB, rpos := x.rpos, refill := x.refill,
                       refillAt := x.refillAt, refillIn := x.refillIn, fresh := x.fresh, fl := x.fl,
                       ncFl := x.ncFl, migd := true }).clear.clearNc
    let s := (s.engPut tgt y).set (ENG_DSEQ_DSEQ tgt) (s.get (ENG_DSEQ_DSEQ src))
    let s := ((s.engEnter tgt 1).set (ENG_MIG_ARM tgt) 0).set (ENG_MIG_DONE tgt) 1
    let s := (s.tokBack (src / 64) x.tokens).engPut src { x with pend := none, run := none, queue := [], migTo := none }
    (s.engEnter src 0).engBegin tgt

/-- A record is complete and awaits the ring, behind those of its cluster (R80). -/
def State.recordDone (s : State) (e : Nat) : State :=
  let k := s.clu (e / 64)
  s.setClu (e / 64) { k with done := k.done ++ [e] }

/-- A dump boundary: `DSEQ` rises, the record is formed from the phases before any set applies, the pending set that is
due applies, a migration hands over (R75–R82, R88). -/
def dwellActDump (e sidx : Nat) (nc : Bool) (w : Nat) (s : State) : State :=
  let x := s.eng e
  if 2 ≤ x.recs.length then s
  else
    let dseq := (s.get (ENG_DSEQ_DSEQ e) + 1) % 65536
    let s := s.set (ENG_DSEQ_DSEQ e) dseq
    let due := match x.pend with
      | none => none
      | some p => if p.any || p.late || p.target == dseq then some p else none
    let late := match due with
      | none => false
      | some p => p.late
    let (epoch, idx) := s.boundaryAt x sidx
    let n := (s.clu (e / 64)).restarts
    let rec_ := x.record e dseq epoch (bits w 7 0) idx (b2n late * 0x8000 ||| x.firstFlags n) nc
    let toMap := nc && (s.clu (e / 64)).gang
    let s := if toMap then s.mapRecord e x else s.recordDone e
    let x := if toMap then x else { x with recs := x.recs ++ [(bit w 26, rec_)], restarts := n, migd := false }
    let x := if bit w 27 then (if nc then x.clearNc else x.clear) else x
    let s := if late then s.set (ENG_STAT_LATE e) 1 else s
    let s := s.engPut e x
    let s := match due with
      | none => s.setEng e { x with atPass := none }
      | some p =>
        let atEnd := x.use.src == 8 && decide (s.replay.count ≤ x.rpos)
        (s.engPut e { x with pend := none, atPass := if atEnd then some p.set else none }).engApplySet e p.set
    if (s.eng e).migTo.isSome then s.migHandover e else s.engNext e

/-! ### The dump ring (R80) -/

/-- `CLU_IRQ.RING` is raised while `FILL` is at least `THR`. -/
def State.ringLevel (s : State) (c : Nat) : State :=
  if s.get (CLU_RING_LVL_THR c) ≤ s.get (CLU_RING_LVL_FILL c) then s.set (CLU_IRQ_RING c) 1 else s

/-- A record dropped (R80). -/
def State.ringDrop (s : State) (c n : Nat) : State := (s.incSat (CLU_DROP_COUNT c) n).set (CLU_IRQ_DROP c) 1

/-- The oldest waiting record of the cluster goes to the ring, or is dropped when the ring is full (R80): an engine
whose record is not the oldest waits, and all wait while the array is power-gated (R316). A record that waits at a cancel, or while the cluster clock is stopped, still goes
(DEDUCED from R73 and R80, log entry 18). -/
def State.recordToRing (s : State) (e : Nat) : State :=
  let c := e / 64
  let x := s.eng e
  let k := s.clu c
  match x.recs with
  | [] => s
  | (irq, ws) :: rest =>
    if k.done.head? ≠ some e ∨ s.sup.arrayOff = true then s
    else
    let s := s.setClu c { k with done := k.done.tail }
    let len := s.get (CLU_RING_LEN c)
    let fill := s.get (CLU_RING_LVL_FILL c)
    let wp := s.get (CLU_RING_WP_WP c)
    if len ≤ fill then (s.setEng e { x with recs := rest, lost := true }).ringDrop c 1
    else
      let ws := if x.lost then ws.take 1 ++ [ws.getD 1 0 ||| 0x400] ++ ws.drop 2 else ws
      let s := s.setEng e { x with recs := rest, lost := false }
      let s := s.memWriteWords (.cluster c) (cluWord c (s.get (CLU_RING_ADDR c) + wp * 42)) ws
      let s := (s.set (CLU_RING_WP_WP c) ((wp + 1) % len)).set (CLU_RING_LVL_FILL c) (fill + 1)
      let s := s.setClu c { s.clu c with held := (s.clu c).held ++ [e] }
      let s := if irq then s.set (CLU_IRQ_DUMP c) 1 else s
      s.ringLevel c

/-- A write of `CLU_RING_RP`: `old` is the pointer before it (R80). -/
def State.ringRelease (s : State) (c old : Nat) : State :=
  let new := s.get (CLU_RING_RP_RP c)
  let len := s.get (CLU_RING_LEN c)
  let fill := s.get (CLU_RING_LVL_FILL c)
  let n := (new + len - old) % max len 1
  if new = old then s
  else if len ≤ new ∨ fill < n then (s.set (CLU_RING_RP_RP c) old).set (CLU_STAT_RPERR c) 1
  else
    let k := s.clu c
    ((s.setClu c { k with held := k.held.drop n }).set (CLU_RING_LVL_FILL c) (fill - n)).ringLevel c

/-- Two word areas of local memory have a word in common. -/
def areasMeet (a n b m : Nat) : Bool := decide (0 < n) && decide (0 < m) && decide (a < b + m) && decide (b < a + n)

/-- Words of the search map's ring of rows (R102). -/
def State.mapWords (s : State) (c : Nat) : Nat := min 16 (s.get (SNP_MAPCFG_DEPTH c)) * 516

/-- `CLU_STAT.MAPERR` and `SNP_MSTAT.MAPERR` after a change of the areas they judge. -/
def State.cluMap (s : State) (c : Nat) : State :=
  let pa := s.get (CLU_PBASE_ADDR c)
  let pn := s.get (CLU_PBASE_LEN c)
  let ra := s.get (CLU_RING_ADDR c)
  let rn := s.get (CLU_RING_LEN c) * 42
  let ma := s.get (SNP_MAPCFG_ADDR c)
  let mn := s.mapWords c
  let bad := decide (65536 < pa + pn) || decide (65536 < ra + rn) || areasMeet pa pn ra rn
  let mbad := decide (65536 < ma + mn) || areasMeet ma mn pa pn || areasMeet ma mn ra rn
  (s.setB (CLU_STAT_MAPERR c) bad).setB (SNP_MSTAT_MAPERR c) mbad

/-- A write of `CLU_RING`: the ring starts anew and the records held are discarded (R80). Records so discarded raise
`CLU_IRQ.DROP` as other dropped records do (DESIGN CHOICE, log entry 16). -/
def State.ringReconfigure (s : State) (c : Nat) : State :=
  let fill := s.get (CLU_RING_LVL_FILL c)
  let s := (s.clu c).held.foldl (fun s e => s.setEng e { s.eng e with lost := true }) s
  let s := s.setClu c { s.clu c with held := [] }
  let s := if fill = 0 then s else s.ringDrop c fill
  let s := ((s.set (CLU_RING_WP_WP c) 0).set (CLU_RING_RP_RP c) 0).set (CLU_RING_LVL_FILL c) 0
  s.cluMap c

/-! ### Engine control and states (R84–R87) -/

/-- `ENG_CTL.SETROLE` (R84, R87). -/
def State.engRole (s : State) (e role : Nat) : State :=
  let st := s.engState e
  if (s.clu (e / 64)).gang then s.set (ENG_STAT_ROLEERR e) 1
  else if st = 0 ∧ (role = 1 ∨ role = 2) then s.engEnter e role
  else if (st = 1 ∨ st = 2) ∧ role = 0 then (s.engCancel e).engEnter e 0
  else s.set (ENG_STAT_ROLEERR e) 1

/-- A write of `ENG_CTL`: cancel, then apply, then the role. -/
def State.engCtl (s : State) (e w : Nat) : State :=
  let s := if bit w 31 then s.engCancel e else s
  let s := if bit w 30 then s.engApply e else s
  if bit w 29 then s.engRole e (bits w 2 0) else s

/-- The cluster clock resumes: every engine's first record after it carries `JUMP` (R73). -/
def State.cluResume (s : State) (c : Nat) : State :=
  s.setClu c { s.clu c with restarts := (s.clu c).restarts + 1 }

/-- `CLU_CTL.CKEN` changed (R73): clearing it cancels every dwell, setting it restarts the oscillators. A cancel by `CKEN`
sets `CANCELLED` on all 64 engines, as a write of `CANCEL` to each would; BRACE and a loss of `PLL_A` set it where an
engine holds a token (DESIGN CHOICE, log entry 16). -/
def State.cluClock (s : State) (c : Nat) (was : Bool) : State :=
  let en := s.on (CLU_CTL_CKEN c)
  if was && !en then s.eachEng c fun e s => s.engCancel e
  else if !was && en then s.cluResume c
  else s

/-- `CLU_CTL.BIST` (R86). -/
def State.cluBist (s : State) (c : Nat) : State :=
  if s.engCount c 0 + s.engCount c 4 + s.engCount c 5 = 64 then
    (s.eachEng c fun e s => if s.engState e = 0 then s.engEnter e 4 else s).set (CLU_CTL_BUSY c) 1
  else s.set (CLU_STAT_BISTREF c) 1

/-- A write of `CLU_CTL`. -/
def State.cluCtl (s : State) (c : Nat) (was : Bool) (w : Nat) : State :=
  let s := s.cluClock c was
  if bit w 30 then s.cluBist c else s

/-- The self-test ends: failing engines are RETIRED, each with an umber entry, and the others IDLE (R86). An engine that
is in REPAIR when a gang applies becomes IDLE here, inside the ganged cluster, and stays so (DEDUCED from R86 and R87,
log entry 18). It does not go on while the array is power-gated (R316). -/
def State.bistDone (s : State) (c : Nat) (failed : List Nat) : State :=
  if !s.on (CLU_CTL_BUSY c) || s.sup.arrayOff then s
  else
    let s := s.eachEng c fun e s =>
      if s.engState e ≠ 4 then s
      else if failed.contains (e % 64) then (s.engEnter e 5).note 0x0502 (0x10 + c) 2 e
      else s.engEnter e 0
    (s.set (CLU_CTL_BUSY c) 0).set (CLU_STAT_BISTDONE c) 1

/-- `CLU_GDWQ` (R87): one dwell on every ACQUIRING engine, or none. -/
def State.gangQueue (s : State) (c start : Nat) : State :=
  let es := ((List.range 64).map (64 * c + ·)).filter fun e => s.engState e = 2
  if !(s.clu c).gang then s
  else if s.get (CLU_TOK_FREE c) < es.length ∨ (es.any fun e => decide (8 ≤ (s.eng e).tokens)) ∨
      s.on (CLU_STAT_MAPERR c) then s.set (CLU_STAT_GDWQREF c) 1
  else
    es.foldl (fun s e =>
      (s.dec (CLU_TOK_FREE c)).engPut e { s.eng e with queue := (s.eng e).queue ++ [start] }) s

/-- A gang change at the device epoch (R87). -/
def State.gangEpoch (s : State) (c : Nat) : State :=
  let x := s.clu c
  let want := s.on (CLU_GANG_GANG c)
  if want = x.gang then s
  else if want then
    if 0 < s.engCount c 1 + s.engCount c 3 then (s.set (CLU_STAT_GANGREF c) 1).set (CLU_GANG_GANG c) 0
    else
      (s.setClu c { x with gang := true }).eachEng c fun e s => if s.engState e = 0 then s.engEnter e 2 else s
  else
    (s.setClu c { x with gang := false }).eachEng c fun e s =>
      if s.engState e = 2 then (s.engCancel e).engEnter e 0 else s

/-- The flush of R65 in one engine that holds a copy: it reads its descriptors and windows again; an LFSR generator
whose descriptor is unchanged does not stop. `alone`: no other engine refills with it. -/
def State.engFlush (s : State) (alone : Bool) (e : Nat) : State :=
  let x := s.eng e
  if x.genA.desc.isNone && x.genB.desc.isNone then s
  else
    let s := s.engRefillIf e alone fun g h => h.table || g.desc != h.desc
    let y := s.eng e
    if y.genA.desc = x.genA.desc ∧ y.genB.desc = x.genB.desc then s else s.setEng e y.jump

/-- At most one engine of the cluster reads a table, on the replay stream (R65). -/
def State.lonely (s : State) (c : Nat) : Bool :=
  ((List.range 64).filter fun k =>
    let x := s.eng (64 * c + k)
    x.genA.table || x.genB.table).length ≤ 1

/-- What a device epoch does in a cluster: a buffered flush, then a gang change (R65, R87), when the array has power
(R316). -/
def State.cluEpoch (s : State) (c : Nat) : State :=
  let x := s.clu c
  if s.sup.arrayOff then s
  else
    let one := s.lonely c
    let s := if x.flush then (s.setClu c { x with flush := false }).eachEng c fun e s => s.engFlush one e else s
    s.gangEpoch c

/-- A write of `CLU_CTINV` (R65). -/
def State.ctinv (s : State) (c w : Nat) : State :=
  if bit w 31 then s.setClu c { s.clu c with flush := true } else s

/-- A write of `ENG_MIG` (R88): `wasArm` and `wasFrom` are the fields before it. One that is refused ends the handover of loop
states it would have armed (R139). -/
def State.migArm (s : State) (e : Nat) (wasArm : Bool) (wasFrom : Nat) : State :=
  let src := s.get (ENG_MIG_FROM e)
  if wasArm then
    let armed := s.on (ENG_MIG_ARM e)
    let s := (s.set (ENG_MIG_ARM e) 1).set (ENG_MIG_FROM e) wasFrom
    if armed then s.set (ENG_STAT_MIGERR e) 1 else s
  else if !s.on (ENG_MIG_ARM e) then s
  else if s.engState e ≠ 0 ∨ s.engState src ≠ 1 then
    let s := (s.set (ENG_MIG_ARM e) 0).set (ENG_STAT_MIGERR e) 1
    if (s.eng src).migTo.isNone then s.handBack src e else s
  else
    let s := ((s.engEnter e 3).engEnter src 3).set (ENG_MIG_DONE e) 0
    s.setEng src { s.eng src with migTo := some e }

/-- No boundary within 100 ms of arming (R88), for the target or the source of the migration. -/
def State.migTimeout (s : State) (e : Nat) : State :=
  if s.on (ENG_MIG_ARM e) then
    let src := s.get (ENG_MIG_FROM e)
    if (s.eng src).migTo = some e then s.migAbort src else s
  else s.migAbort e

end Sys2Proof.Machine
end

