-- ==== Sys2Proof/Machine/SnapBlock.lean ====
section
/-! DEFINITION. Snapshots and acquisition (ch. 4): credits and handles, captures, replay runs and passes, the search
map. -/

namespace Sys2Proof.Machine

/-! ### Credits and handles (R95–R97) -/

/-- The credits held by all handles. -/
def State.creditsHeld (s : State) : List Nat := (List.range 8).flatMap fun h => (s.handle h).cred

/-- A set of credit blocks as a map of 64 bits. -/
def creditMap (cs : List Nat) : Nat := cs.foldl (fun m b => m ||| 2 ^ b) 0

/-- A handle's record put back, with the registers that show its credits. -/
def State.handlePut (s : State) (h : Nat) (x : HandleSt) : State :=
  let m := creditMap x.cred
  let s := (s.setHandle h x).set (SNP_HSTAT_NCRED h) x.cred.length
  (s.set (SNP_HMASK_L_MAP h) m).set (SNP_HMASK_H_MAP h) (m / 2 ^ 32)

/-- `SNP_STAT.CAP` follows the handles' states. -/
def State.capBits (s : State) : State :=
  s.set SNP_STAT_CAP ((List.range 8).foldl (fun m h =>
    m + b2n (s.get (SNP_HSTAT_STATE h) == 1 || s.get (SNP_HSTAT_STATE h) == 2) * 2 ^ h) 0)

/-- A handle enters a state: FREE 0, ARMED 1, CAPTURING 2, STORED 3, ABORTED 4. -/
def State.handleEnter (s : State) (h k : Nat) : State := (s.set (SNP_HSTAT_STATE h) k).capBits

/-- The credits of a handle return to the pool. -/
def State.creditsBack (s : State) (h : Nat) : State :=
  let x := s.handle h
  (s.inc SNP_CRED_FREE x.cred.length).handlePut h { x with cred := [] }

/-- A write of `SNP_HCFG` refused (R96): `old` is the state before it. -/
def State.snapRefuse (old : State) (f : Field) : State := (old.set f 1).set SNP_IRQ_ERR 1

/-- An epoch, by its low 16 bits, has passed (R93). -/
def State.epochPassed (s : State) (e : Nat) : Bool := decide ((s.epochCount + 65536 - e) % 65536 < 32768)

/-- `ARM` on a handle (R95, R96). Where a FREE handle is armed both with an invalid setting and with too few credits free,
`CFGERR` alone is set: the credits are counted for a valid setting (DEDUCED, log entry 19). -/
def State.snapArm (s old : State) (h : Nat) : State :=
  let len := s.get (SNP_HLEN_LEN h)
  let rate := s.get (SNP_HCFG_RATE h)
  let n := s.get (SNP_HCFG_LINK h)
  if s.get (SNP_HSTAT_STATE h) ≠ 0 ∨ len = 0 ∨ 67108864 < len ∨ 6 ≤ rate ∨ !s.on (SLK_STAT_UP n) then
    old.snapRefuse SNP_STAT_CFGERR
  else
    let need := ceilDiv len 1048576
    let held := s.creditsHeld
    let cred := ((List.range 64).filter fun b => !held.contains b).take need
    if s.get SNP_CRED_FREE < need then old.snapRefuse SNP_STAT_NOCRED
    else
      let trig := s.on (SNP_HCFG_TRIG h)
      let epoch := s.get (SNP_HCFG_EPOCH h)
      let (s, phase) := s.draw (2 ^ 32)
      let x : HandleSt := { len := len, rate := rate, link := n, cfg := (s.link n).cfg,
                            mix := s.get (SNP_HMIX_MIX h), trig := trig, epoch := epoch,
                            late := trig && s.epochPassed epoch, cred := cred, armedAt := s.epochCount, phase := phase }
      let s := (s.dec SNP_CRED_FREE need).handlePut h x
      let s := ((s.set (SNP_HSTAT_LINKF h) 0).set (SNP_HSTAT_FECW h) 0).set (SNP_HSTAT_OVF h) 0
      (s.set (SNP_HSTAT_LATE h) 0).handleEnter h 1

/-- `FREE` on a handle (R96, R97). One on a handle that is FREE changes no state and raises no flag, and the fields written
with it are stored (DESIGN CHOICE, log entry 19). -/
def State.snapFree (s old : State) (h : Nat) : State :=
  if s.on (SNP_HSTAT_REPLAY h) then old.snapRefuse SNP_STAT_BUSYERR
  else if s.get (SNP_HSTAT_STATE h) = 0 then s
  else (s.creditsBack h).handleEnter h 0

/-- A write of `SNP_HCFG` (R96): `FREE` wins over `ARM`; a refused write changes nothing. -/
def State.snapHcfg (s old : State) (h w : Nat) : State :=
  if bit w 30 then s.snapFree old h else if bit w 31 then s.snapArm old h else s

/-! ### Captures (R90–R94) -/

/-- An SM2 link at D = 1 is stored code for code (R92). -/
def HandleSt.codeForCode (x : HandleSt) : Bool := x.rate == 5 && x.cfg.code == 0

/-- The factor D of a rate code (R90). -/
def decimation : Nat → Nat
  | 0 => 50
  | 1 => 20
  | 2 => 10
  | 3 => 4
  | 4 => 2
  | _ => 1

/-- The coefficients of the filter of a rate code, in 2^-16: a linear phase is a symmetrical response; at D = 1 there is no
filter (R90; log entry 40). -/
def filterTaps (rate : Nat) : List Int :=
  let h := Config.captureTaps rate
  if rate = 5 then [65536] else h.tail.reverse ++ h

/-- A word of the capture mixer's sine table: a value in 2^-30 at an amplitude of at least half of full scale, with a
rounding of −1, 0 or +1, within the 16 bits (R90; log entry 40). -/
def mixWord (v : Int) (round : Nat) : Int :=
  clampI (-32768) 32767 (roundDiv (v * ((32767 - Config.mixBelow % 16384 : Nat) : Int)) (2 ^ 30) + (round % 3 : Nat) - 1)

/-- The 16-bit cosine and sine of the capture mixer at a phase of 2^-32 cycle (R90). -/
def mixer (ph : Nat) : Int × Int :=
  let c := cosSin ph
  let r := Config.mixRound ph
  (mixWord c.1 r.1, mixWord c.2 r.2)

/-- The capture mixer at sample `k` since the `ARM`: the component at `MIX` comes to 0 Hz (R90). Levels in 2^-15. -/
def HandleSt.mix1 (x : HandleSt) (k : Nat) (v : Int × Int) : Int × Int :=
  let m := mixer ((x.phase + k * x.mix) % 2 ^ 32)
  (v.1 * m.1 + v.2 * m.2, v.2 * m.1 - v.1 * m.2)

/-- The samples of a link mixed, in order. -/
def HandleSt.mixed (x : HandleSt) (raw : List LinkSample) : List (Int × Int) :=
  raw.zipIdx.map fun p => x.mix1 (x.taken + p.2) (x.cfg.levels p.1)

/-- The filter's output at the last of some mixed samples, newest first. -/
def firAt (taps : List Int) (newest : List (Int × Int)) : Int × Int :=
  (taps.zip newest).foldl (fun a p => (a.1 + p.1 * p.2.1, a.2 + p.1 * p.2.2)) (0, 0)

/-- The filtered and decimated samples that a link's samples give, in 2^-31 of an input level (R90). -/
def HandleSt.filtered (x : HandleSt) (raw : List LinkSample) : List (Int × Int) :=
  let d := decimation x.rate
  let all := x.hist ++ x.mixed raw
  ((List.range raw.length).filter fun i => (x.taken + i + 1) % d = 0).map fun i =>
    firAt (filterTaps x.rate) (all.take (x.hist.length + i + 1)).reverse

/-- The mixer and the filter after a link's samples. -/
def HandleSt.after (x : HandleSt) (raw : List LinkSample) : HandleSt :=
  let all := x.hist ++ x.mixed raw
  { x with taken := x.taken + raw.length, hist := all.drop (all.length - (filterTaps x.rate).length) }

/-- The rms value of one component over the last 4,096 samples, in 1/256 of an input level, rounded down (R91). -/
def rms4096 (vs : List Int) : Nat :=
  isqrt ((vs.drop (vs.length - 4096)).foldl (fun a v => a + (v * v).toNat) 0 / 4096) / 2 ^ 23

/-- The trigger is due (R93): 4,096 decimated samples of pre-roll, a boundary since the `ARM`, the first decimated sample
at or after it; with `TRIG` = 1 the epoch asked for, or one after it. -/
def State.capDue (s : State) (h sub : Nat) (pre : List LinkSample) : Bool :=
  let x := s.handle h
  let here := s.epochCount % 65536 == x.epoch
  s.get (SNP_HSTAT_STATE h) == 1 && decide (4096 * decimation x.rate ≤ pre.length) && decide (x.armedAt < s.epochCount) &&
    decide (sub * storedRate x.rate < 65536000000000) && (!x.trig || x.late || here || s.epochPassed x.epoch)

/-- The trigger (R91–R94): `sub` is the time of stored sample 0 after the epoch boundary, `pre` the link's samples since
the `ARM`. -/
def State.capTrigger (s : State) (h sub : Nat) (pre : List LinkSample) : State :=
  let x := s.handle h
  let here := s.epochCount % 65536 == x.epoch
  if !s.capDue h sub pre then s
  else
    let t := s.now sub
    let fs := x.filtered pre
    let s := if x.codeForCode then (s.set (SNP_HTHR_TI h) 0).set (SNP_HTHR_TQ h) 0
      else (s.set (SNP_HTHR_TI h) (rms4096 (fs.map (·.1)))).set (SNP_HTHR_TQ h) (rms4096 (fs.map (·.2)))
    let s := (s.set (SNP_HTIME_SH_FRAC h) (tvFrac t)).set (SNP_HTIME_SH_SECH h) (tvSec t / 2 ^ 32)
    let s := (s.set (SNP_HTIME_SL_SECL h) (tvSec t)).set (SNP_HTIME_NS_NS h) (tvNs t)
    let s := if x.trig && (x.late || !here) then s.set (SNP_HSTAT_LATE h) 1 else s
    let s := if (s.link x.link).frameF then s.set (SNP_HSTAT_LINKF h) 1 else s
    let s := if (s.link x.link).fecMark then s.set (SNP_HSTAT_FECW h) 1 else s
    (s.setHandle h { x.after pre with count0 := s.epochCount, sub := sub }).handleEnter h 2

/-- A component cut to sign and magnitude (R91): against a threshold of 0 every sample has magnitude 1, a substituted one
too (R94; DESIGN CHOICE, log entry 19). -/
def cutPair (x : Int) (t : Nat) : Nat := b2n (decide (x < 0)) * 2 + b2n (decide (t ≤ x.natAbs))

/-- The four bits of a stored sample. -/
def cutSample (ti tq : Nat) (v : Int × Int) : Nat := cutPair v.1 ti * 4 + cutPair v.2 tq

/-- Codes packed two to an octet, the earlier in the low bits. -/
def packCodes : List Nat → List Byte
  | [] => []
  | [a] => [BitVec.ofNat 8 a]
  | a :: b :: r => BitVec.ofNat 8 (b * 16 + a) :: packCodes r

/-- Octets put into credits, each filled before the next. -/
def State.fillCredits (s : State) : List Nat → List Byte → State
  | [], _ => s
  | b :: bs, os => (s.pokes (0x70000000 + b * 0x80000) (os.take 0x80000)).fillCredits bs (os.drop 0x80000)

/-- The last sample of a capture: `LEN` samples are stored (R91, R96); `raw` are the link's samples since the trigger. The
frame and the epoch of the last sample still run (R94). -/
def State.capDone (s : State) (h : Nat) (raw : List LinkSample) : State :=
  let x := s.handle h
  if s.get (SNP_HSTAT_STATE h) ≠ 2 then s
  else
    let ti := s.get (SNP_HTHR_TI h)
    let tq := s.get (SNP_HTHR_TQ h)
    let codes := if x.codeForCode then raw.map fun m => cutSample 3 3 (x.cfg.levels m)
      else (x.filtered raw).map (cutSample (ti * 2 ^ 23) (tq * 2 ^ 23))
    let codes := (List.range x.len).map fun i => codes.getD i 0
    let s := s.setHandle h { x with openF := true, openE := true }
    ((s.fillCredits x.cred (packCodes codes)).handleEnter h 3).set SNP_IRQ_CAPDONE 1

/-! ### Replay runs (R98) -/

/-- A replay run ends. -/
def State.replayEnd (s : State) : State :=
  let s := (s.set SNP_STAT_RPLRUN 0).set (SNP_HSTAT_REPLAY s.replay.handle) 0
  { s.set SNP_IRQ_RPLDONE 1 with replay := { s.replay with inPass := false, stop := false } }

/-- `SNP_RPL.GO` (R98). The fields of the word are stored also when the `GO` is refused (DEDUCED, log entry 20). -/
def State.replayGo (s : State) : State :=
  let h := s.get SNP_RPL_HANDLE
  let start := s.get SNP_RPL_START_START
  let count := s.get SNP_RPL_COUNT_COUNT
  if s.on SNP_STAT_RPLRUN ∨ s.get (SNP_HSTAT_STATE h) ≠ 3 ∨ count = 0 ∨ (s.handle h).len < start + count then
    (s.set SNP_STAT_RPLERR 1).set SNP_IRQ_ERR 1
  else
    let r : ReplaySt := { handle := h, start := start, count := count, passes := s.get SNP_RPL_PASSES,
                          org := s.on SNP_RPL_ORG }
    let s := ((s.set SNP_STAT_RPLRUN 1).set SNP_RPL_PASS_PASS 0).set (SNP_HSTAT_REPLAY h) 1
    { s with replay := r }

/-- A write of `SNP_RPL` (R98): `STOP` ends the run at the end of the current pass, and in the gap between two passes the
next is that pass; `GO` and `STOP` in one word start a run that ends with its first pass (DEDUCED, log entry 20). -/
def State.replayWrite (s : State) (w : Nat) : State :=
  let s := if bit w 31 then s.replayGo else s
  if bit w 30 ∧ s.on SNP_STAT_RPLRUN then { s with replay := { s.replay with stop := true } } else s

/-- Steps 1 to 3 of R100 in one ACQUIRING engine of a ganged cluster; `first` is the first pass of a run with
`ORG` = 1. -/
def State.passEngine (s : State) (first : Bool) (e : Nat) : State :=
  let c := e / 64
  let x := s.eng e
  if first then
    (s.setEng e { x with origin := some (x.chip, x.cfrac, x.ib, x.kph), rpos := 0, atPass := none })
  else
    let set_ := x.atPass
    let x := { x with rpos := 0, atPass := none }
    let x := match x.origin with
      | some (chip, frac, ib, kph) => { x with chip := chip, cfrac := frac, ib := ib, kph := kph }
      | none => x
    let kr := (x.use.krate + uns 40 (s.getI (SNP_KSTEP_STEP c))) % 2 ^ 40
    let cr := (x.use.crate + uns 48 (s.getI (SNP_CSTEP_STEP c))) % 2 ^ 48
    let x := { x with use := { x.use with krate := kr, crate := cr } }
    let s := (s.setEng e x.jump).engRefillIf e (s.lonely c) fun _ _ => true
    match set_ with
    | some p => s.engApplySet e p
    | none => s

/-- The first sample of a pass (R100, R103). -/
def State.passStart (s : State) : State :=
  if !s.on SNP_STAT_RPLRUN ∨ s.replay.inPass then s
  else
    let later := s.replay.later
    let first := !later && s.replay.org
    let s := { s with replay := { s.replay with inPass := true } }
    s.each 16 fun c s =>
      let s := if later && s.on (SNP_MAPCFG_AUTO c) then s.set (SNP_MAPREF_REF c) (min (s.get (SNP_MSTAT_NOISE c)) 3170)
        else s
      let s := s.setMap c { s.map c with cells := [], done := [] }
      s.eachEng c fun e s =>
        let s := s.refillLeft later e
        if (s.clu c).gang && s.engState e == 2 then s.passEngine first e
        else if (s.eng e).use.src = 8 then s.setEng e { s.eng e with rpos := 0 }
        else s

/-! ### The search map (R102, R103) -/

/-- The largest step `j` with 1.007^j ≤ `num` / `den`: `pn` and `pd` are 1007^j × `den` and 1000^j × `num`. -/
def logGo : Nat → Nat → Nat → Nat → Nat
  | 0, j, _, _ => j
  | fuel + 1, j, pn, pd => if pn * 1007 ≤ pd * 1000 then logGo fuel (j + 1) (pn * 1007) (pd * 1000) else j

/-- floor(ln(`num` / `den`) / ln 1.007), at least 0 and at most 5,167. -/
def logSteps (num den : Nat) : Nat := logGo 5167 0 den num

/-- The code of a cell, exact to within one step (R102): `err` is 0, 1 or 2 for −1, 0 and +1. -/
def cellCode (ref err : Nat) (p : Option Nat) : Nat :=
  match p with
  | none => 0
  | some p => (clampI 0 255 ((logSteps p 1 : Int) - (min ref 3170 : Nat) + err - 1)).toNat

/-- The active cells of a cluster's row: those of engines that made an `NCDUMP` in the pass and are not RETIRED (R102). -/
def State.rowCells (s : State) (c : Nat) : Tbl Nat :=
  (s.map c).cells.filter fun p => s.engState (64 * c + p.1 / 32) != 5

/-- The codes of a cluster's row; `base` numbers the free values of their errors. -/
def State.rowCodes (s : State) (c base : Nat) : List Nat :=
  (List.range 2048).map fun k =>
    cellCode (s.get (SNP_MAPREF_REF c)) (Config.freeValue (base + k) % 3) (tblFind (s.rowCells c) k)

/-- `NOISE` of a row's active cells. -/
def cellsNoise (cells : Tbl Nat) : Nat :=
  if cells.isEmpty then 0 else logSteps (cells.foldl (fun a p => a + p.2) 0) cells.length

/-- The trailer of a row (R102). -/
def State.rowTrailer (s : State) (c top cell count : Nat) : List Byte :=
  let m := s.map c
  let missed := ((List.range 64).filter fun j => s.engState (64 * c + j) = 2 ∧ !m.done.contains j).length
  leBytes 4 (s.get SNP_RPL_PASS_PASS) ++ leBytes 1 top ++ leBytes 1 missed ++ leBytes 2 cell ++ leBytes 2 count ++
    leBytes 2 (cellsNoise (s.rowCells c)) ++ leBytes 4 0

/-- A row written to local memory, when the map has rows and its placement is not refused (R102, R103). -/
def State.rowWrite (s : State) (c : Nat) (bs : List Byte) : State :=
  let m := s.map c
  let depth := min 16 (s.get (SNP_MAPCFG_DEPTH c))
  if depth = 0 ∨ s.on (SNP_MSTAT_MAPERR c) then s
  else
    let row := m.row % depth
    let ws := (List.range 516).map fun i => leNat (sliceN bs (4 * i) 4)
    let s := s.memWriteWords (.cluster c) (cluWord c (s.get (SNP_MAPCFG_ADDR c) + row * 516)) ws
    (s.set (SNP_MSTAT_ROW c) row).setMap c { m with row := row + 1 }

/-- The row of a pass: codes and trailer, the peak registers, the next row (R102, R103). -/
def State.mapRow (s : State) (c : Nat) : State :=
  if !(s.clu c).gang then s
  else
    let codes := s.rowCodes c s.free
    let top := codes.foldl max 0
    let cell := codes.idxOf top
    let count := (codes.filter fun v => s.get (SNP_MAPREF_THR c) ≤ v).length
    let noise := cellsNoise (s.rowCells c)
    let s := State.rowWrite { s with free := s.free + 2048 } c
      (codes.map (BitVec.ofNat 8 ·) ++ s.rowTrailer c top cell count)
    let s := s.setMap c { s.map c with cells := [], done := [] }
    let s := ((s.set (SNP_PEAK_CODE c) top).set (SNP_PEAK_COUNT c) count).set (SNP_PEAK_CELL c) cell
    (s.set (SNP_MSTAT_NOISE c) noise).set SNP_IRQ_PASS 1

/-- The last sample of a pass (R98, R103). -/
def State.passEnd (s : State) : State :=
  if !s.on SNP_STAT_RPLRUN ∨ !s.replay.inPass then s
  else
    let r := s.replay
    let s := s.inc SNP_RPL_PASS_PASS
    let s := { s with replay := { r with inPass := false, later := true } }
    let s := s.each 16 fun c s => s.mapRow c
    if r.stop || (r.passes != 0 && s.get SNP_RPL_PASS_PASS == r.passes) then s.replayEnd else s

/-- BRACE: every capture is aborted and keeps its credits; a replay run ends (R97). -/
def State.snapBrace (s : State) : State :=
  let s := s.each 8 fun h s =>
    if s.get (SNP_HSTAT_STATE h) = 1 ∨ s.get (SNP_HSTAT_STATE h) = 2 then s.handleEnter h 4 else s
  if s.on SNP_STAT_RPLRUN then s.replayEnd else s

end Sys2Proof.Machine
end

