-- ==== Sys2Proof/Machine/TrackLoop.lean ====
section
/-! DEFINITION. The loops of a tracked channel (ch. 5): records as loop code reads them, symbol and code synchronisation,
coherent sums, discriminators, loop filters, signal level and lock. -/

namespace Sys2Proof.Machine

/-! ### Records (R77) -/

/-- A record from its 42 words. -/
def dumpRec (ws : List Word) : DumpRec :=
  let w := fun i => (ws.getD i 0).toNat
  let ex := bits (w 0) 21 17
  { flags := bits (w 1) 15 0, dseq := bits (w 0) 15 0, epoch := bits (w 1) 31 16, src := bits (w 2) 23 20,
    sidx := bits (w 2) 19 0, chip := bits (w 3) 19 0, cfrac := w 4 * 2 ^ 16 + bits (w 5) 31 16,
    kph := bits (w 5) 7 0 * 2 ^ 32 + w 6, nsamp := w 7, ib := bits (w 8) 19 0, gapn := w 9,
    sums := (List.range 32).map fun j => (sgn 16 (w (10 + j) / 65536) * 2 ^ ex, sgn 16 (w (10 + j)) * 2 ^ ex) }

/-- The record is one of tracking: not of the replay stream (R125), and coherent. -/
def DumpRec.tracks (r : DumpRec) : Bool := !bit r.flags 7 && !bit r.flags 8

/-- The record's discriminators are discarded (R125). -/
def DumpRec.discarded (r : DumpRec) : Bool :=
  bit r.flags 14 || bit r.flags 12 || bit r.flags 9 || (bit r.flags 11 && decide (r.nsamp < 2 * r.gapn))

/-- The weight of the record, 2^-16 (R125): what was accumulated of its samples. -/
def DumpRec.weight (r : DumpRec) : Nat := if r.gapn = 0 then 65536 else (r.nsamp - r.gapn) * 65536 / max r.nsamp 1

/-- The epoch count at or before `now` with the 16 bits a record gives. -/
def epochNear (now e : Nat) : Nat := now - (now + 65536 - e) % 65536

/-! ### Symbols and secondary codes (R117, R118) -/

/-- The coherent span in ms (R115, R116): the loop period, up to the component's limit before or after sync. -/
def ChanSt.tcoh (x : ChanSt) : Nat :=
  min x.cfg.period (if x.sync.state = 0 then x.cfg.comp.pre else x.cfg.comp.post)

/-- The largest entry of a table of bins and the largest of the others, by the bin's number. -/
def topTwo (t : Tbl Nat) : (Nat × Nat) × Nat :=
  t.foldl (fun a e => if a.1.2 < e.2 then (e, a.1.2) else (a.1, max a.2 e.2)) ((0, 0), 0)

/-- A sub-dump in the histogram of symbol edges (R117). -/
def SyncSt.edges (y : SyncSt) (m k : Nat) (p : Int × Int) : SyncSt :=
  match y.last with
  | none => { y with last := some p }
  | some q =>
    if p.1 * q.1 + p.2 * q.2 < 0 then
      let bins := tblSet y.bins (k % m) (tblGet y.bins 0 (k % m) + 1)
      let (top, second) := topTwo bins
      if 15 ≤ top.2 ∧ 4 * second ≤ top.2 then { state := 1, edge := top.1 } else { y with bins := bins, last := some p }
    else { y with last := some p }

/-- The signs of the last prompts match a code whose first chip lies at sub-dumps `a` modulo its length (R118). -/
def signsMatch (sec signs : List Bool) (data : Bool) (k a : Nat) : Bool :=
  let n := sec.length
  let hits := ((List.range n).filter fun j => signs.getD j false == sec.getD ((k + 2 * n - j - a) % n) false).length
  let need := if 20 ≤ n then n - 1 else n
  decide (need ≤ hits) || (data && decide (hits + need ≤ n))

/-- A sub-dump in the search of a secondary code (R118). -/
def SyncSt.search (y : SyncSt) (sec : List Bool) (data : Bool) (k : Nat) (neg : Bool) : SyncSt :=
  let n := sec.length
  let signs := (neg :: y.signs).take n
  let y := { y with signs := signs }
  if signs.length < n then y
  else
    let found := fun (a c : Nat) =>
      if (if n ≤ 5 then 5 else 2) ≤ c then { state := 2, edge := a } else { y with match_ := some (a, c, k + n) }
    let fresh := match (List.range n).find? fun a => signsMatch sec signs data k a with
      | some a => found a 1
      | none => { y with match_ := none }
    match y.match_ with
    | none => fresh
    | some (a, c, at_) =>
      if k < at_ then y else if signsMatch sec signs data k a then found a (c + 1) else fresh

/-- Synchronisation as a channel starts: symbols of one sub-dump need none. -/
def syncStart (c : ChanCfg) : SyncSt := if c.comp.sec = 0 ∧ c.comp.symbol = c.comp.span then { state := 1 } else {}

/-- A sub-dump's prompt taken for synchronisation (R117, R118). `timed` is a place that device time gives: of an overlay, or
under fine aiding of the symbol edges, for which no histogram is kept then. -/
def SyncSt.take (y : SyncSt) (c : ChanCfg) (k : Nat) (p : Int × Int) (timed : Option Nat) : SyncSt :=
  if c.timed then
    match timed with
    | some e => { state := 3, edge := e % max 1 c.comp.sec }
    | none => y
  else if y.state ≠ 0 then y
  else if c.comp.sec = 0 then
    match timed with
    | some e => { state := 1, edge := e % max 1 (c.subs c.comp.symbol) }
    | none => y.edges (c.subs c.comp.symbol) k p
  else if c.sec.length = c.comp.sec then y.search c.sec (!c.pilot) k (decide (p.1 < 0))
  else y

/-- What a record that is missing or discarded leaves of the search. -/
def SyncSt.gap (y : SyncSt) : SyncSt := { y with last := none, signs := [], match_ := none }

/-- The sign of the secondary code or overlay in sub-dump `k` (R115). -/
def ChanSt.chipSign (x : ChanSt) : Int :=
  let n := x.cfg.sec.length
  if 2 ≤ x.sync.state ∧ 0 < n then (if x.cfg.sec.getD ((x.k + n - x.sync.edge % n) % n) false then -1 else 1) else 1

/-- A span of `n` sub-dumps ends with the present one: spans lie on the edges known (R115). -/
def ChanSt.ends (x : ChanSt) (n : Nat) : Bool := (x.k + 1 + n * (x.sync.edge + 1) - x.sync.edge) % n == 0

/-- The present record closes a loop period (R113, R115). -/
def ChanSt.closing (x : ChanSt) : Bool := x.ends (x.cfg.subs x.cfg.period)

/-! ### Coherent sums (R115) -/

/-- Sums of the arms with others added under a sign. -/
def addSums (sign : Int) (a b : List (Int × Int)) : List (Int × Int) :=
  (List.range 32).map fun j =>
    let p := a.getD j (0, 0)
    let q := b.getD j (0, 0)
    (p.1 + sign * q.1, p.2 + sign * q.2)

/-- A record's sums added, the sign of the secondary code removed. -/
def CohSt.add (y : CohSt) (sign : Int) (r : DumpRec) : CohSt :=
  { y with used := y.used + 1, wgt := y.wgt + r.weight, fecw := y.fecw || bit r.flags 13,
           part := addSums sign y.part r.sums }

/-- The data symbol under way joins the ones before it in the span, its sign the one that their prompts show (R115; log
entry 58). -/
def CohSt.join (c : ChanCfg) (y : CohSt) : CohSt :=
  let p := c.point y.arms 1
  let q := c.point y.part 1
  if y.arms.isEmpty then { y with arms := y.part, part := [] }
  else { y with arms := addSums (if p.1 * q.1 + p.2 * q.2 < 0 then -1 else 1) y.arms y.part, part := [] }

/-- The present sub-dump begins a data symbol: edges are known, and the component carries data (R115). -/
def ChanSt.symbolBegins (x : ChanSt) : Bool :=
  let m := x.cfg.subs x.cfg.comp.symbol
  !x.cfg.pilot && x.sync.state != 0 && (x.k + m - x.sync.edge % m) % m == 0

/-- The symbol before the present sub-dump has ended, where it begins another. -/
def ChanSt.symbolEdge (x : ChanSt) : ChanSt := if x.symbolBegins then { x with coh := x.coh.join x.cfg } else x

/-- The power of a sum. -/
def power (p : Int × Int) : Nat := (p.1 * p.1 + p.2 * p.2).toNat

/-- The magnitude of a sum in 2^-16. -/
def magnitude (p : Int × Int) : Nat := isqrt (power p * 2 ^ 32)

/-! ### Discriminators (R119) -/

/-- A ratio, exact to a free unit; free where the divisor is 0 and the spec states no result (log entry 59). -/
def State.ratio (s : State) (a : Int) (b : Nat) : State × Int :=
  if b = 0 then
    let (s, k) := s.draw (2 ^ 32)
    (s, sgn 32 k)
  else s.quotient a b

/-- The angle of a vector in 2^-32 cycle, exact to a free unit either way; free for the zero vector (log entry 59). -/
def State.turn (s : State) (y x : Int) : State × Int :=
  if x = 0 ∧ y = 0 then
    let (s, k) := s.draw (2 ^ 32)
    (s, sgn 32 k)
  else
    let (s, k) := s.draw 3
    (s, angle48 y x / 2 ^ 16 + (k : Int) - 1)

/-- The PLL discriminator: four quadrants on pilots, two on data. -/
def State.pllDisc (s : State) (pilot : Bool) (p : Int × Int) : State × Int :=
  if !pilot && decide (p.1 < 0) then s.turn (-p.2) (-p.1) else s.turn p.2 p.1

/-- The FLL discriminator of two successive sums, in 2^-32 Hz. -/
def State.fllDisc (s : State) (tcoh : Nat) (p q : Int × Int) : State × Int :=
  let (s, a) := s.turn (p.1 * q.2 - q.1 * p.2) (p.1 * q.1 + p.2 * q.2)
  s.ratio (a * 1000) tcoh

/-- The DLL discriminator with early and late at ±d/2, d in 1/64 chip; in 2^-32 chip. -/
def State.dllDisc (s : State) (d e l : Nat) : State × Int :=
  s.ratio (((128 : Int) - d) * ((e : Int) - l) * 2 ^ 32) (128 * (e + l))

/-- The double delta; the ideal correlation's slope is 1 at this combination of a triangle (R119). -/
def State.deltaDisc (s : State) (e l e2 l2 p : Nat) : State × Int :=
  s.ratio ((2 * ((e : Int) - l) - ((e2 : Int) - l2)) * 2 ^ 32) (2 * p)

/-- Two successive coherent sums may form the FLL's discriminator: on a pilot, or within one data symbol (R119); before
sync, where the symbols are not known, any two (DESIGN CHOICE, log entry 58). -/
def ChanSt.fllPair (x : ChanSt) : Bool :=
  let m := x.cfg.subs x.cfg.comp.symbol
  let sym := fun k => (k + m - x.sync.edge % m) / m
  match x.prev with
  | none => false
  | some (_, _, k) =>
    k + x.coh.n == x.k && (x.cfg.pilot || x.sync.state == 0 || sym (k + 1 - x.coh.n) == sym x.k)

/-- The FLL discriminator of a coherent span: with the span before it as it stands, 0 where they make no pair (R119). -/
def State.spanFll (s : State) (x : ChanSt) (p : Int × Int) : State × Int :=
  match x.prev with
  | some (i, q, _) => if x.fllPair then s.fllDisc (x.coh.n * x.cfg.comp.span) (i, q) p else (s, 0)
  | none => (s, 0)

/-- The DLL discriminator of a coherent span (R119). -/
def State.spanDll (s : State) (x : ChanSt) : State × Int :=
  let m := fun j => magnitude (x.cfg.point x.coh.arms j)
  s.dllDisc (x.cfg.spacing (x.st == .pullIn)) (m 0) (m 2)

/-- The double delta of a coherent span, beside its early-late value; that value itself where the channel has none. -/
def State.spanDelta (s : State) (x : ChanSt) (d : Int) : State × Int :=
  let a := x.coh.arms
  let m := fun j => magnitude (x.cfg.point a j)
  if x.cfg.delta then s.deltaDisc (m 0) (m 2) (magnitude (a.getD 4 (0, 0))) (magnitude (a.getD 5 (0, 0))) (m 1) else (s, d)

/-- A span's discriminators join those of the loop period, weighted by how much of the span was there (R115, R125). -/
def ChanSt.discAdd (x : ChanSt) (p : Int × Int) (e f d dd : Int) : ChanSt :=
  let w := x.coh.wgt / max x.coh.used 1
  let y := x.disc
  let y : DiscSt :=
    { y with pll := y.pll + e * w / 65536, dll := y.dll + (if x.cfg.delta && x.st == .phase then dd else d) * w / 65536,
             n := y.n + 1, fll := y.fll + (if x.fllPair then f * w / 65536 else 0), nf := y.nf + b2n x.fllPair }
  let fll := if x.fllPair then (f.natAbs * 1000 / 2 ^ 32, x.repoch) :: x.fll else x.fll
  { x with disc := y, fll := fll, mpe := dd - d, prev := some (p.1, p.2, x.k) }

/-- The discriminators of a coherent span that has just ended with the sum in `x.coh` (R115, R119, R125). -/
def State.spanDiscs (s : State) (x : ChanSt) : State × ChanSt :=
  let p := x.cfg.point x.coh.arms 1
  let e := s.pllDisc x.cfg.pilot p
  let f := e.1.spanFll x p
  let d := f.1.spanDll x
  let dd := d.1.spanDelta x d.2
  (dd.1, x.discAdd p e.2 f.2 d.2 dd.2)

/-- What a coherent span adds to the averages of R122, R128 and R129; one with `FECW` is left out of C/N0 and PLI
(R125). The noise arm's power is given in the unit of the prompt's, which for two components is 2^-16 of a sum's. |VE|² and
|VL|² are held against the prompt arm of the first component, which has their gain, not against the combined point (DESIGN
CHOICE, log entry 58). -/
def ChanSt.spanSums (x : ChanSt) : ChanSt :=
  let c := x.cfg
  let a := x.coh.arms
  let p := c.point a 1
  let g := fun i => a.getD i (0, 0)
  let x := if x.coh.fecw then x else
    { x with ipq := (p.1, p.2, x.repoch) :: x.ipq, pn := (power p, power (g 3) * (if c.weighted 1 then 2 ^ 32 else 1), x.repoch) :: x.pn }
  let x := if c.shape then
      { x with mags := (List.range 32).map fun j => x.mags.getD j 0 + magnitude (g j), magN := x.magN + 1 } else x
  if c.boc then
    { x with veVl := (x.veVl.1 + power (g 9), x.veVl.2.1 + power (g 10), x.veVl.2.2 + power (g 1)), veN := x.veN + 1 }
  else x

/-- The prompt moves half a chip towards the larger of the very early and very late arms when its power, over 20 coherent
spans, exceeds the prompt's (R128): the shift in 2^-48 chip, if there is one, and the channel with the count begun
anew. -/
def ChanSt.farPeak (x : ChanSt) : ChanSt × Int :=
  if x.veN < 20 then (x, 0)
  else
    let y := { x with veVl := (0, 0, 0), veN := 0 }
    let (ve, vl, p) := x.veVl
    if max ve vl ≤ p then (y, 0) else (y, if vl ≤ ve then 2 ^ 47 else -2 ^ 47)

/-! ### Signal level and lock (R122, R123) -/

/-- The entries of a list no older than `ms` at epoch `now`: each gives its epoch by `f`. -/
def lastMs {α : Type} (f : α → Nat) (es : List α) (now ms : Nat) : List α := es.filter fun e => decide (now < f e + ms)

/-- The averages with what is too old for them taken out. -/
def ChanSt.trim (x : ChanSt) : ChanSt :=
  { x with fll := lastMs (·.2) x.fll x.repoch 50, ipq := lastMs (·.2.2) x.ipq x.repoch 100,
           pn := lastMs (·.2.2) x.pn x.repoch 1000, resid := lastMs (·.2) x.resid x.repoch 1000 }

/-- Sums of |P|² and of |N|² over entries. -/
def pnSums (es : List (Nat × Nat × Nat)) : Nat × Nat := (es.foldl (fun a e => a + e.1) 0, es.foldl (fun a e => a + e.2.1) 0)

/-- C/N0 of sums is at least `db` dB-Hz, for coherent spans of `tcoh` ms (R122). -/
def cn0AtLeast (sp sn tcoh db : Nat) : Bool := decide (sn < sp) && decide ((sn * tcoh) ^ 10 * 10 ^ db ≤ ((sp - sn) * 1000) ^ 10)

/-- The largest `k` below a bound with 10^k ≤ (`a` / `b`)^1000, from `k` upwards. -/
def centiDb (a b : Nat) : Nat → Nat → Nat
  | 0, k => k
  | fuel + 1, k => if b ^ 1000 * 10 ^ (k + 1) ≤ a ^ 1000 then centiDb a b fuel (k + 1) else k

/-- `CN0` of a report, 0.01 dB-Hz (R122, R137): 0 when P̄ ≤ N̄; open when no noise was measured. -/
def State.cn0Word (s : State) (x : ChanSt) : State × Nat :=
  let (sp, sn) := pnSums x.pn
  if sp ≤ sn then (s, 0)
  else if sn = 0 then s.draw 65536
  else
    let k := centiDb ((sp - sn) * 1000) (sn * x.tcoh) 65534 0
    let (s, r) := s.draw 2
    (s, k + r)

/-- Numerator and denominator of PLI over the last 100 ms (R122). -/
def ChanSt.pli (x : ChanSt) : Int × Nat :=
  (x.ipq.foldl (fun a e => a + (e.1 * e.1 - e.2.1 * e.2.1)) 0,
   x.ipq.foldl (fun a e => a + (e.1 * e.1 + e.2.1 * e.2.1).toNat) 0)

/-- PLI over the last 100 ms of a channel that has lasted so long is at least `k` hundredths, or below it. -/
def ChanSt.pliAt (x : ChanSt) (k : Int) (above : Bool) : Bool :=
  decide (100 ≤ x.life) && decide (0 < x.pli.2) && (decide (k * x.pli.2 ≤ 100 * x.pli.1) == above)

/-- The mean |FLL output| of the last 50 ms is below 5 Hz. -/
def ChanSt.fllQuiet (x : ChanSt) : Bool :=
  decide (0 < x.fll.length) && decide (x.fll.foldl (fun a e => a + e.1) 0 < 5000 * x.fll.length)

/-- The last second puts C/N0 on one side of a bound, once its averages have run so long; a second of which every record was
left out shows nothing. -/
def ChanSt.secondAt (x : ChanSt) (db : Nat) (above : Bool) : Bool :=
  let (sp, sn) := pnSums x.pn
  decide (1000 ≤ x.cnMs) && !x.pn.isEmpty && (cn0AtLeast sp sn x.tcoh db == above)

/-- The last 100 ms show 26 dB-Hz (R123). -/
def ChanSt.level26 (x : ChanSt) : Bool :=
  let (sp, sn) := pnSums (lastMs (·.2.2) x.pn x.repoch 100)
  decide (100 ≤ x.cnMs) && cn0AtLeast sp sn x.tcoh 26

/-- The C/N0 floor (R123). -/
def ChanSt.floor (x : ChanSt) : Nat := if x.coup then 15 else 22

/-- The next loop state (R123); `broken` is a continuity break of this record. -/
def ChanSt.next (x : ChanSt) (broken : Bool) : LoopState :=
  match x.st with
  | .pullIn => if 100 ≤ x.inMs ∧ x.fllQuiet then .freq else if 500 ≤ x.inMs then .lost else .pullIn
  | .freq => if x.secondAt x.floor false then .coast else if x.pliAt 80 true && x.level26 then .phase else .freq
  | .phase =>
    if x.secondAt x.floor false then .coast
    else if broken || x.pliAt 50 false then .freq
    else .phase
  | .coast =>
    if x.secondAt (x.floor + 3) true then .freq
    else if (if x.coup then 10000 else 2000) ≤ x.inMs then .lost
    else .coast
  | .lost => .lost

/-- The integrators on a change of state (R120): into PHASE the PLL's takes the FLL's estimate; into FREQ the FLL goes on
from the estimate in force. -/
def LoopSt.enter (l : LoopSt) (st : LoopState) : LoopSt :=
  match st with
  | .phase => { l with pll := l.fll }
  | .freq => { l with fll := l.est, pll := l.est, rate := 0 }
  | _ => l

/-- The channel goes to its next state; from FREQ on its arms have the spacing of R127. -/
def ChanSt.move (x : ChanSt) (broken : Bool) : ChanSt :=
  let n := x.next broken
  if n = x.st then x else { x with st := n, inMs := 0, loop := if x.st == .pullIn && n == .freq then x.loop else x.loop.enter n }

/-! ### Loop filters (R120) -/

/-- A bandwidth within its range and lowered to keep its product with the coherent span, in mHz (R120). -/
def bandwidth (bn lo hi product tcoh : Nat) : Nat :=
  let b := max lo (min hi bn)
  if product = 0 then b else min b (product / max tcoh 1)

/-- A gain applied. -/
def gained (g e : Int) : Int := g * e / 2 ^ 32

/-- The carrier loops at the end of a loop period with mean discriminators `e` and, where there is one, `f` (R120): in
PULL-IN and FREQ the FLL alone steers and assists the PLL's integrator, in PHASE the PLL steers; in COAST the estimate
holds (R123). -/
def ChanSt.carrierLoop (x : ChanSt) (e : Int) (f : Option Int) : LoopSt :=
  let l := x.loop
  let t := x.cfg.period
  let early := x.st == .pullIn || x.st == .freq
  let gp := Config.loopGain 0 707 (bandwidth x.cfg.bnPll 2000 25000 300000 x.tcoh) t
  let ga := Config.loopGain 2 0 (bandwidth x.cfg.bnAid 1000 10000 250000 x.tcoh) t
  let gf := Config.loopGain 1 707
    (bandwidth (if x.st == .pullIn then x.cfg.bnPull else x.cfg.bnFreq) 1000 10000 250000 x.tcoh) t
  let aid := if early then (match f with | some f => gained ga.2 f | none => 0) else 0
  let pll := l.pll + gained gp.2 e + aid
  let l := { l with pll := pll, est := if early then l.est else pll + gained gp.1 e }
  match f with
  | some f =>
    if early then
      let rate := l.rate + gained gf.2 f
      { l with rate := rate, fll := l.fll + rate + gained gf.1 f, est := l.fll + rate + gained gf.1 f }
    else l
  | none => l

/-- The DLL at the end of a loop period with a mean discriminator: its integrator, and its output on the rate it started
from (R120, R133). -/
def ChanSt.codeLoop (x : ChanSt) (l : LoopSt) (e : Int) : LoopSt :=
  let g := Config.loopGain 3 0 (bandwidth x.cfg.bnDll 50 2000 0 x.tcoh) x.cfg.period
  let i := l.dll + gained g.2 e
  { l with dll := i, v := l.base + i + gained g.1 e }

/-- The mean of the FLL discriminator over a period, when it has any. -/
def State.fllMean (s : State) (y : DiscSt) : State × Option Int :=
  if y.nf = 0 then (s, none)
  else
    let (s, f) := s.quotient y.fll y.nf
    (s, some f)

/-- The loops at a closing record (R115, R119, R120): the discriminators of the period are averaged; a period without
any, and COAST, leave the filters as they are. -/
def State.loopFilter (s : State) (x : ChanSt) : State × ChanSt :=
  let y := x.disc
  let x := { x with disc := {} }
  if y.n = 0 then (s, x)
  else
    let (s, e) := s.quotient y.pll y.n
    let (s, f) := s.fllMean y
    let (s, d) := s.quotient y.dll y.n
    let x := { x with res := d }
    if x.cfg.follow || x.st == .coast || x.st == .lost then (s, x)
    else
      let l := x.carrierLoop e f
      (s, { x with loop := if l.own then x.codeLoop l d else l })

end Sys2Proof.Machine
end

