-- ==== Sys2Proof/Machine/TrackBlock.lean ====
section
/-! DEFINITION. Tracking (ch. 5) as the design of loop code does it: channels and their records, commits, coupled
channels, antenna groups, reports, the handover of loop states. -/

namespace Sys2Proof.Machine

/-- A loop DSP's loop code: its overload history and its count of reports. -/
def State.lateSt (s : State) (d : Nat) : LateSt := tblGet s.lates {} d

/-- A loop DSP's loop code set. -/
def State.setLate (s : State) (d : Nat) (x : LateSt) : State := { s with lates := tblSet s.lates d x }

/-! ### `LATE` records (R114) -/

/-- Instants within the last second. -/
def State.lastSec (s : State) (ts : List Nat) : List Nat := ts.filter fun t => decide (s.tim.up < t + 1000000000)

/-- A `LATE` record of a loop DSP: more than 10 in any 1 s set the overload, which a full second without one ends. -/
def State.lateRecord (s : State) (d : Nat) : State :=
  let x := s.lateSt d
  let old := s.lastSec x.lates
  let l := s.tim.up :: old
  s.setLate d { x with lates := l, ovld := (x.ovld && decide (old ≠ [])) || decide (10 < l.length) }

/-- The overload stands until a full second passes without a `LATE` record. -/
def State.lateOvld (s : State) (d : Nat) : State × Bool :=
  let x := s.lateSt d
  let on := x.ovld && decide (s.lastSec x.lates ≠ [])
  (s.setLate d { x with ovld := on }, on)

/-! ### Boundary times and phases (R39, R135) -/

/-- The antenna of an engine's link (R34). -/
def State.antOf (s : State) (e : Nat) : Nat := (s.link (s.eng e).use.src).cfg.ant

/-- The boundary time of a record on a link, in 2^-16 ns / 1,023: the marker stamp carried to the record's epoch, plus
`SIDX` samples (R39, R135). -/
def State.boundaryT (s : State) (n ep sidx : Nat) : Int :=
  let sec := s.get (SLK_FMT_SH_SECH n) * 2 ^ 32 + s.get (SLK_FMT_SL_SECL n)
  let t : Int := ((sec * 1000000000 + s.get (SLK_FMT_NS_NS n)) * 2 ^ 16 + s.get (SLK_FMT_SH_FRAC n) : Nat)
  let mark : Int := s.epochCount + (t - (s.tim.t / 2 ^ 48 : Nat)) / 65536000000
  (t + ((ep : Int) - mark) * 65536000000) * 1023 + sidx * 327680000

/-- Time from one channel's last boundary to another's, in the unit of `State.boundaryT`: 327,680,000 to a sample. -/
def State.apart (s : State) (e f : Nat) : Int :=
  let x := s.chan e
  let y := s.chan f
  s.boundaryT (s.eng f).use.src y.repoch y.rsidx - s.boundaryT (s.eng e).use.src x.repoch x.rsidx

/-- A code phase as one number, 2^-48 chip. -/
def ChanSt.phase (x : ChanSt) : Nat := x.rchip * 2 ^ 48 + x.rfrac

/-- A difference of code phases wrapped into half an engine period either way. -/
def wrapHalf (m : Nat) (d : Int) : Int :=
  let e := d % (m : Int)
  if 2 * e < m then e else e - m

/-- The lead's code phase minus a follower's at the follower's boundary, 2^-48 chip (R134). -/
def State.leadError (s : State) (e f : Nat) : Int :=
  wrapHalf ((s.eng f).ne * 2 ^ 48)
    ((s.chan e).phase + (s.eng e).use.crate * s.apart e f / 327680000 - (s.chan f).phase)

/-! ### Set-ups (R115, R123, R134, R170) -/

/-- Channels of an antenna group in a cluster, other than one engine's. -/
def State.groupIn (s : State) (c group e : Nat) : List Nat :=
  ((List.range 64).map (64 * c + ·)).filter fun f => f != e && (s.chan f).live && (s.chan f).cfg.group == group

/-- The bits of a number below a bound that are set. -/
def bitCount (n w : Nat) : Nat := ((List.range n).filter fun i => bit w i).length

/-- The lead of an antenna group in a cluster. -/
def State.leadOf (s : State) (c group e : Nat) : Option Nat :=
  (s.groupIn c group e).find? fun f => !(s.chan f).cfg.follow

/-- A group's member fits (R134): 2 to 4 antennas, each once, one signal of one satellite, one lead. -/
def State.groupFits (s : State) (e : Nat) (c : ChanCfg) : Bool :=
  let fs := s.groupIn (e / 64) c.group e
  let n := bitCount 4 c.antmask
  if c.group = 255 then !c.follow
  else
    decide (2 ≤ n) && decide (n ≤ 4) && bit c.antmask (s.antOf e) && (c.follow == fs.any fun f => !(s.chan f).cfg.follow) &&
      fs.all fun f => s.antOf f != s.antOf e && (s.chan f).cfg.sig == c.sig && (s.chan f).cfg.sv == c.sv

/-- A set-up is one of the design: a component of R170 in a band of the engine's link (R34), a loop period that is a whole
multiple of the sub-dump span (R115), a coupled period, a group that fits (R134). Another set-up starts and changes
nothing (DESIGN CHOICE, log entry 58). -/
def State.setupOk (s : State) (e : Nat) (c : ChanCfg) : Bool :=
  (compOf c.sig c.geo c.cl).isSome && bit (s.link (s.eng e).use.src).cfg.bands c.comp.band &&
    [1, 4, 10, 20, 100].contains c.period && decide (c.period % c.comp.span = 0) && [10, 20, 100].contains c.tc &&
    s.groupFits e c

/-- A carrier rate word as a Doppler in 2^-32 Hz (R121). -/
def dopOf (fRf lof krate : Nat) : Int :=
  roundDiv (sgn 40 krate * 204600000) 256 - ((fRf : Int) - lof) * 2 ^ 32

/-- A channel starts in PULL-IN (R123): with the Doppler of its search cell, or that of the rate in force. -/
def State.chanStart (s : State) (e : Nat) (c : ChanCfg) : ChanSt :=
  let u := (s.eng e).use
  let d := match c.cell with
    | some (_, _, d) => d * 2 ^ 24
    | none => dopOf c.fRf (s.get (SLK_LOF_LOF u.src)) u.krate
  { live := true, cfg := c, coup := c.coupled, rseq := (s.chan e).rseq, sync := syncStart c, krate := u.krate, born := s.epochCount,
    loop := { pll := d, fll := d, est := d } }

/-- The same signal in the assisted-acquisition list. -/
def sameSignal (a b : ChanCfg) : Bool := a.sv == b.sv && a.sig == b.sig && a.k == b.k

/-- A signal put on the assisted-acquisition list (R109, R123), or taken off it. -/
def State.assist (s : State) (c : ChanCfg) (on : Bool) : State :=
  let l := s.nav.assist.filter fun d => !sameSignal c d
  { s with nav := { s.nav with assist := if on then l ++ [{ c with cell := none }] else l } }

/-! ### What a record says (R114, R122, R125, R126) -/

/-- The record's epoch count, and the samples since the one before: the span's own, or, where records are missing, those
between the boundaries (R125). -/
def State.recordAt (s : State) (x : ChanSt) (r : DumpRec) : Nat × Nat :=
  let ep := epochNear s.epochCount r.epoch
  let far : Int := ((ep : Int) - x.repoch) * 204600 + r.sidx - x.rsidx
  (ep, if x.seen && (bit r.flags 10 || bit r.flags 6) then far.toNat else r.nsamp)

/-- The record's phases are the truth (R114, R125): the carrier phase since the record before is the one nearest to the
rate committed. -/
def ChanSt.truth (x : ChanSt) (r : DumpRec) (ep n : Nat) : ChanSt :=
  let d := sgn 40 x.krate * n
  let d := if x.seen then d + sgn 40 (uns 40 ((r.kph : Int) - x.rkph - d)) else 0
  { x with seen := true, acc := x.acc + d, accN := x.accN + (if x.seen then n else 0), dseq := r.dseq, repoch := ep,
           rsidx := r.sidx, rchip := r.chip, rfrac := r.cfrac, rkph := r.kph, rib := r.ib,
           late := satN 16 (x.late + b2n (bit r.flags 15)), linkP := x.linkP || bit r.flags 14 }

/-- The record breaks carrier continuity (R35, R125); none stands before the first record. -/
def ChanSt.breaks (x : ChanSt) (r : DumpRec) : Bool :=
  x.seen && (bit r.flags 14 || x.lorel || (bit r.flags 9 && !x.ownSet))

/-- Continuity after a record (R126). -/
def ChanSt.carry (x : ChanSt) (r : DumpRec) (broken : Bool) : ChanSt :=
  let x := { x with lorel := false, ownSet := x.ownSet && !bit r.flags 9 }
  if broken then { x with cont := 0, slips := satN 16 (x.slips + 1), acc := 0, accN := 0, broke := true, slipP := true }
  else x

/-- Milliseconds pass on a channel. -/
def ChanSt.passMs (x : ChanSt) (ms : Nat) : ChanSt :=
  { x with inMs := x.inMs + ms, life := x.life + ms, cnMs := x.cnMs + ms }

/-- The records missing before one (R125): those between the two boundaries. -/
def ChanSt.missing (x : ChanSt) (r : DumpRec) (n : Nat) : Nat :=
  let sp := x.cfg.comp.span
  if bit r.flags 10 || bit r.flags 6 then (n + sp * 102300) / (sp * 204600) - 1 else 0

/-- A record as a sub-dump of its channel (R115–R118, R125): a discarded one adds nothing; where sync is found, sums and
the averages of C/N0 begin anew, since spans change their length. -/
def ChanSt.subDump (x : ChanSt) (r : DumpRec) (timed : Option Nat) : ChanSt :=
  let x := x.passMs x.cfg.comp.span
  if r.discarded then
    let x := x.symbolEdge
    { x with sync := x.sync.gap, coh := { x.coh with n := x.coh.n + 1 } }
  else
    let y := x.sync.take x.cfg x.k (x.cfg.point r.sums 1) timed
    let x := if y.state = x.sync.state then { x with sync := y }
      else { x with sync := y, coh := {}, disc := {}, prev := none, pn := [], cnMs := 0 }
    let x := x.symbolEdge
    { x with coh := { x.coh.add x.chipSign r with n := x.coh.n + 1 } }

/-- The end of a coherent span (R115, R119, R122). -/
def State.spanEnd (s : State) (x : ChanSt) : State × ChanSt :=
  if !(x.ends (x.cfg.subs x.tcoh) || x.closing) then (s, x)
  else if x.coh.used = 0 then (s, { x with coh := {}, prev := none })
  else
    let (s, x) := s.spanDiscs { x with coh := x.coh.join x.cfg }
    (s, { x.spanSums with coh := {} })

/-- Missing sub-dumps pass (R125): they add nothing, and the spans they end keep what was added before. -/
def State.skipSubs : Nat → State → ChanSt → State × ChanSt
  | 0, s, x => (s, x)
  | n + 1, s, x =>
    let x := (x.passMs x.cfg.comp.span).symbolEdge
    match s.spanEnd { x with sync := x.sync.gap, coh := { x.coh with n := x.coh.n + 1 } } with
    | (s, x) => State.skipSubs n s { x with k := x.k + 1 }

/-! ### Commits (R112, R121, R131, R134) -/

/-- `KRATE` for a Doppler in 2^-32 Hz (R121). -/
def krateOf (fRf lof : Nat) (dop : Int) : Nat :=
  uns 40 (roundDiv ((((fRf : Int) - lof) * 2 ^ 32 + dop) * 2 ^ 40) (2 ^ 32 * 204600000))

/-- `CRATE` for a chip rate in 10^-3 chip/s, a Doppler in 2^-32 Hz and an added code rate in 2^-32 chip/s (R121). -/
def crateOf (fRf fchip : Nat) (dop v : Int) : Nat :=
  let d : Nat := 1000 * 2 ^ 32 * max fRf 1
  uns 48 (roundDiv (((fchip : Int) * (2 ^ 32 * (fRf : Int) + dop) * 2 ^ 32 + v * (d : Int)) * 2 ^ 48) (d * 2 ^ 32 * 204600000))

/-- The steer entry of an engine's slot, as words of the cluster's local memory (R130). -/
def steerAddr (e : Nat) : Nat := cluWord (e / 64) (Config.steerTable (e / 64) + 8 * (e % 64))

/-- The DSP reads a steer entry: one whose `SEQ` is odd, which holds an error, or which is another channel's, is not
taken, and the last whole one stays in use (R130). -/
def State.steerRead (s : State) (e : Nat) (x : ChanSt) : State × ChanSt :=
  let (s, ws, ok) := s.memReadWords (.cluster (e / 64)) (steerAddr e) 8
  let w := ws.getD 0 0
  if ok && w / 2 ^ 16 % 2 == 0 && w % 4096 == s.get (ENG_CFG_CHID e) then (s, { x with steer := some ws }) else (s, x)

/-- The prediction of a steer entry carried to a record's boundary, minus the record's code phase, in 2^-48 chip,
wrapped into half an engine period either way (R131). -/
def steerError (ne fRf fchip : Nat) (w : List Nat) (epoch sidx chip frac : Nat) : Int :=
  let samples : Int := sgn 32 (epoch + 2 ^ 32 - w.getD 1 0) * 204600 + sidx
  let rate : Int := crateOf fRf fchip (sgn 32 (w.getD 4 0) * 2 ^ 24) (sgn 32 (w.getD 5 0) * 2 ^ 12)
  let p : Int := w.getD 2 0 % 2 ^ 20 * 2 ^ 48 + w.getD 3 0 * 2 ^ 16
  wrapHalf (ne * 2 ^ 48) (p + rate * samples - (chip * 2 ^ 48 + frac : Nat))

/-- A channel's DLL becomes its own: it starts at the rate in force with its integrator at zero (R131, R133). -/
def LoopSt.alone (l : LoopSt) : LoopSt := if l.own then l else { l with own := true, dll := 0, base := l.v }

/-- The steered Doppler as feed-forward (R131): a change of it moves the carrier loops' estimates. -/
def LoopSt.feed (l : LoopSt) (dop : Int) : LoopSt :=
  let d := match l.dop with
    | some o => (dop - o) * 2 ^ 24
    | none => 0
  { l with dop := some dop, pll := l.pll + d, fll := l.fll + d, est := l.est + d }

/-- A coupled channel at a closing record (R131, R133): the code rate beyond carrier aiding is the entry's plus what removes
the error over the next span, at most 0.01 chip of it; too large an error decouples the channel, an entry too old leaves
it to its own DLL. In COAST the carrier follows the entry (R123). -/
def ChanSt.aided (x : ChanSt) (ne : Nat) : ChanSt :=
  let x := { x with loop := { x.loop with corr := 0 } }
  if !x.coup then { x with stale := false, loop := { x.loop.alone with dop := none } }
  else
    match x.steer with
    | none => { x with stale := true, loop := x.loop.alone }
    | some w =>
      let ep := x.repoch % 2 ^ 32
      let dop := sgn 32 (w.getD 4 0)
      if (3 * x.cfg.tc : Nat) < sgn 32 (ep + 2 ^ 32 - w.getD 1 0) then { x with stale := true, loop := x.loop.alone }
      else
        let err := steerError ne x.cfg.fRf x.cfg.comp.chip w ep x.rsidx x.rchip x.rfrac
        if 2 ^ 47 < err.natAbs then { x with coup := false, excl := true, stale := false, loop := x.loop.alone }
        else
          let c := clampI (-(2 ^ 48 / 100)) (2 ^ 48 / 100) err
          let l := x.loop.feed dop
          let corr := roundDiv (c * 1000) (2 ^ 16 * max x.cfg.comp.span 1)
          let l := { l with own := false, v := sgn 32 (w.getD 5 0) * 2 ^ 12 + corr, corr := corr }
          { x with stale := false, loop := if x.st == .coast then { l with est := dop * 2 ^ 24 } else l }

/-- The correction of R131 has acted over its span: the record after it commits the rate without it (log entry 58). -/
def LoopSt.settle (l : LoopSt) : LoopSt := { l with v := l.v - l.corr, corr := 0 }

/-- Rates written to an engine's staging copy and committed for a boundary (R112). -/
def State.commitRates (s : State) (e krate crate target : Nat) : State :=
  let s := s.set2 (ENG_KRATE_L_RATE e) (ENG_KRATE_H_RATE e) krate
  let s := s.set2 (ENG_CRATE_L_RATE e) (ENG_CRATE_H_RATE e) crate
  s.engCommit e (target % 65536)

/-- Generator B's index at an unwrapped engine chip, from the index `ib` at the chip `from_` (R59). -/
def EngSt.ibAt (g : EngSt) (ib from_ q : Int) : Int :=
  match g.genB.desc with
  | some d => (ib + tmuxCount (descTmux d) g.ne q - tmuxCount (descTmux d) g.ne from_) % (max 1 (descN d) : Nat)
  | none => ib

/-- A code-only phase set staged for the next boundary (R128, R134): the phase there at a rate, moved by `shift`, with
generator B's index that belongs to it. -/
def State.stageCode (s : State) (e : Nat) (x : ChanSt) (crate : Nat) (shift : Int) : State :=
  let g := s.eng e
  let m := g.ne * 2 ^ 48
  let n := ceilDiv (m - x.phase % m) (max crate 1)
  let p : Int := x.phase + crate * n + shift
  let q := p / (2 ^ 48 : Nat)
  let ib := g.ibAt x.rib x.rchip q
  let s := s.set2 (ENG_CPHS_F0_FRAC e) (ENG_CPHS_F1_FRAC e) (p % (2 ^ 48 : Nat)).toNat
  let s := (s.set (ENG_CPHS_C_CHIP e) (q % (g.ne : Int)).toNat).set (ENG_CPHS_C_SET e) 1
  s.set (ENG_CPHS_B_IB e) ib.toNat

/-- The followers of a lead: engines of the same cluster with channels of its group (R134). -/
def State.followers (s : State) (e : Nat) (x : ChanSt) : List Nat :=
  if x.cfg.group = 255 ∨ x.cfg.follow then [] else (s.groupIn (e / 64) x.cfg.group e).filter fun f => (s.chan f).cfg.follow

/-- The rate that brings a follower's code phase to the lead's over the lead's next loop period, 2^-48 chip a sample
(R134). -/
def State.trim (s : State) (e f period : Nat) : Int := roundDiv (s.leadError e f) (204600 * max period 1)

/-- The commit that answers a record, to the engine for boundary L + 1 and to its followers for their next one (R112,
R134): a follower's Doppler is its lead's. In COAST an independent channel holds its rates (R123). `shift` is a
code-only phase set. -/
def State.chanCommit (s : State) (e : Nat) (x : ChanSt) (shift : Int) : State :=
  if x.cfg.follow || x.handed || x.st == .lost || (x.st == .coast && x.loop.own) then s
  else
    let kr := krateOf x.cfg.fRf (s.get (SLK_LOF_LOF (s.eng e).use.src)) x.loop.est
    let cr := crateOf x.cfg.fRf x.cfg.comp.chip x.loop.est x.loop.v
    let s := if shift = 0 then s else s.stageCode e x cr shift
    let s := s.setChan e { s.chan e with krate := kr, ownSet := x.ownSet || shift != 0, cseq := (x.dseq + 1) % 65536 }
    let s := s.commitRates e kr cr (x.dseq + 1)
    (s.followers e x).foldl (fun s f =>
      let y := s.chan f
      let t := (s.get (ENG_DSEQ_DSEQ f) + 1) % 65536
      let s := s.setChan f { y with krate := kr, cseq := t, loop := { y.loop with est := x.loop.est } }
      s.commitRates f kr (uns 48 ((cr : Int) + s.trim e f x.cfg.period)) t) s

/-- A follower starts with the lead's code phase at its own sample time, by a phase set for its next boundary (R134). -/
def State.followStart (s : State) (e : Nat) : State :=
  let x := s.chan e
  match if x.cfg.follow then s.leadOf (e / 64) x.cfg.group e else none with
  | none => s
  | some l =>
    let u := (s.eng l).use
    let s := s.stageCode e x u.crate (s.leadError l e)
    let s := s.setChan e { x with krate := u.krate, ownSet := true, cseq := (x.dseq + 1) % 65536,
                                  loop := { x.loop with est := (s.chan l).loop.est } }
    s.commitRates e u.krate u.crate (x.dseq + 1)

/-! ### Differences (R135, R136) -/

/-- One difference in 2^-16 cycle, less its whole cycles, from the last records of a follower `f` and of its lead `e`; the
angle is exact to a free step either way. -/
def State.diffRaw (s : State) (e f : Nat) : State × Int :=
  let x := s.chan e
  let y := s.chan f
  let (li, lq) := match x.prev with | some (i, q, _) => (i, q) | none => (0, 0)
  let (ai, aq) := match y.prev with | some (i, q, _) => (i, q) | none => (0, 0)
  let (s, a) := s.turn (aq * li - ai * lq) (ai * li + aq * lq)
  let mv := sgn 40 (s.eng e).use.krate * -(s.apart e f) / (327680000 * 2 ^ 24)
  (s, ((y.rkph : Int) - x.rkph) / 2 ^ 24 + mv + a / 2 ^ 16)

/-- A value moved by whole cycles of 2^16 to within half a cycle of another. -/
def nearCycle (v ref : Int) : Int := ref + sgn 16 (uns 16 (v - ref))

/-- A follower's difference joined to its earlier ones (R136). -/
def diffJoin (old : Option DiffSt) (ant : Nat) (raw : Int) (broke : Bool) : DiffSt :=
  match old with
  | none => { ant := ant, last := nearCycle raw 0, step := 0, sum := nearCycle raw 0, n := 1, slip := broke }
  | some o =>
    let d := nearCycle raw o.last
    let slip := broke || decide (16384 < (d - o.last - o.step).natAbs)
    if slip then
      let d := nearCycle raw 0
      { ant := ant, last := d, step := 0, sum := d, n := 1, slip := true }
    else { o with last := d, step := d - o.last, sum := o.sum + d, n := o.n + 1 }

/-- Every channel of an antenna group is in a cluster (R139). A group number names one group of the device: a channel of
another cluster that bears it is of the same group, part of which has moved (DESIGN CHOICE, log entry 58). -/
def State.groupWhole (s : State) (c group : Nat) : Bool :=
  s.chans.all fun p => !p.2.live || p.2.cfg.group != group || p.1 / 64 == c

/-- Differences at a closing record of a lead, one for each follower; none while part of the group has moved to another
cluster (R135, R139). -/
def State.chanDiffs (s : State) (e : Nat) : State :=
  let x := s.chan e
  let fs := (s.followers e x).filter fun f => (s.chan f).seen
  if !s.groupWhole (e / 64) x.cfg.group then s
  else
    let s := fs.foldl (fun s f =>
      let (s, raw) := s.diffRaw e f
      let x := s.chan e
      let y := s.chan f
      let a := s.antOf f
      let n := diffJoin (x.diffs.find? fun o => o.ant = a) a raw (x.broke || y.broke)
      let s := s.setChan f { y with broke := false }
      s.setChan e { x with diffs := (x.diffs.filter fun o => o.ant ≠ a) ++ [n] }) s
    s.setChan e { s.chan e with broke := false }

/-! ### The loop update (R112–R136) -/

/-- The mode a set-up asks for at a closing record of a live channel (R133): its sync and its signal stay. Averages of C/N0 begin
anew where spans change their length. -/
def ChanSt.retune (x : ChanSt) (c : ChanCfg) : ChanSt :=
  let y := { x with cfg := { c with sv := x.cfg.sv, sig := x.cfg.sig, k := x.cfg.k, geo := x.cfg.geo, cl := x.cfg.cl, sec := x.cfg.sec },
                    coup := c.coupled, excl := x.excl && c.coupled == x.cfg.coupled }
  if y.tcoh = x.tcoh then y else { y with pn := [], cnMs := 0 }

/-- The engine of a lost channel returns to the pool, its signal to the assisted-acquisition list (R123). -/
def State.chanLost (s : State) (e : Nat) : State :=
  let s := s.assist (s.chan e).cfg true
  if s.engState e = 1 then (s.engCancel e).engEnter e 0 else s

/-- What a closing record does (R112, R131, R133): set-up, coupling, filters, the state, then commit and differences. -/
def State.chanClose (s : State) (e : Nat) (x : ChanSt) (setup : Option ChanCfg) (broken : Bool) (shift : Int) : State :=
  let x := match setup with
    | some c => if s.setupOk e { c with sv := x.cfg.sv, sig := x.cfg.sig, k := x.cfg.k, geo := x.cfg.geo, cl := x.cfg.cl }
      then x.retune c else x
    | none => x
  let (s, x) := if x.coup then s.steerRead e x else (s, x)
  let x := x.aided (s.eng e).ne
  let (s, x) := s.loopFilter x
  let x := { x with cont := satN 16 (x.cont + b2n (x.st == LoopState.phase && !broken)) }
  let x := x.move broken
  ((s.setChan e x).chanCommit e x shift).chanDiffs e

/-- A start from a search cell sets the code phase and the rates (R123). -/
def State.cellShift (s : State) (e : Nat) (x : ChanSt) : Int :=
  match x.cfg.cell with
  | some (chip, frac, _) => wrapHalf ((s.eng e).ne * 2 ^ 48) (((chip * 2 ^ 48 + frac * 2 ^ 16 : Nat) : Int) - x.phase)
  | none => 0

/-- The transmit time of a satellite at a record's boundary, 2^-64 ps of its system's time (R118, R172): from the time of week
that the data component of the same signal has yielded, or, while device time is known within 5 ms, from the range
predicted. -/
def State.boundaryTx (s : State) (e : Nat) (c : ChanCfg) (ep sidx : Nat) : Option Int :=
  let key := satKey (sysOf c.sig) c.sv
  match (if (s.sat key).tow.contains c.dataSig then tblFind s.nav.anchors key else none) with
  | some a => some (a.ts + (((ep : Int) - a.ep) * 204600 + sidx) * a.step / 204600)
  | none =>
    if s.terrNow ≤ 5000000 then
      let n := (s.eng e).use.src
      s.predictAt c (s.boundaryT n ep sidx * 1000 * 2 ^ 48 / 1023 + s.sysOffset (sysOf c.sig) * 10 ^ 12 * 2 ^ 64 -
        s.navDly n c.comp.band * 2 ^ 64)
    else none

/-- The sub-dumps in which device time finds a place: an overlay, or under fine aiding the symbol of a signal without a secondary
code (R106, R117, R118). -/
def State.timedSubs (s : State) (c : ChanCfg) : Nat :=
  if c.timed then max 1 c.comp.sec
  else if s.fineAid ∧ c.comp.sec = 0 then c.subs c.comp.symbol
  else 0

/-- The place of an overlay, a long code or the symbol edges among a channel's sub-dumps that device time and the satellite's
transmit time give (R117, R118): the sub-dump after the boundary is the one whose start is nearest to the transmit time there. -/
def State.timedEdge (s : State) (e : Nat) (x : ChanSt) (r : DumpRec) (ep : Nat) : Option Nat :=
  let c := x.cfg
  let n := s.timedSubs c
  let step : Int := c.comp.span * msFine
  if n = 0 then none
  else (s.boundaryTx e c ep r.sidx).map fun t => (((x.k : Int) + 1 - (2 * t + step) / (2 * step)) % (n : Int)).toNat

/-- The effect of a record on its channel `x`; `first` tells the record that started it. -/
def State.chanRecord (s : State) (e : Nat) (x : ChanSt) (r : DumpRec) (u : LoopIn) (first : Bool) : State :=
  let s := if bit r.flags 15 then s.lateRecord (e / 64) else s
  let (ep, n) := s.recordAt x r
  let broken := x.breaks r
  let x := ((x.truth r ep n).carry r broken).trim
  let (s, x) := s.skipSubs (x.missing r n) x
  let x := x.subDump r (s.timedEdge e x r ep)
  let closes := x.closing
  let (s, x) := s.spanEnd x
  let (x, shift) := x.farPeak
  let shift := if first then s.cellShift e x else shift
  let s := if closes then s.chanClose e x (if first then none else u.setup) broken shift
    else
      let due := first || shift != 0 || x.loop.corr != 0
      let x := { x.move broken with loop := (x.move broken).loop.settle }
      let s := s.setChan e x
      if due then s.chanCommit e x shift else s
  let x := s.chan e
  let s := s.setChan e { x with k := x.k + 1 }
  let s := if first then s.followStart e else s
  if x.st = .lost then s.chanLost e else s

/-- The loop code of a cluster runs: its DSP is in RUN or WAIT, with its clock on and the array not gated (R165, R166, R316). -/
def State.loopRuns (s : State) (d : Nat) : Bool :=
  let k := s.get (LDSP_STAT_STATE d)
  (k == 1 || k == 2) && s.on (LDSP_GCTL_CKEN (d / 4)) && !s.sup.arrayOff

/-- Loop code answers a record of an engine (R112, R138, R139): a set-up starts a channel where none lives; a handed-over
channel is not answered until its migration has aborted; the first record of a target ends the source's copy. A record
that is none of tracking has no effect (R125). -/
def State.loopUpdate (s : State) (e : Nat) (u : LoopIn) : State :=
  let r := dumpRec u.rec_
  let x := s.chan e
  let st := s.engState e
  if !s.loopRuns (e / 64) || !r.tracks || (st != 1 && st != 3) then s
  else if x.live && x.st != .lost then
    if x.handed && st == 3 then s
    else
      let src := s.get (ENG_MIG_FROM e)
      let s := if bit r.flags 6 && src != e then s.setChan src { s.chan src with live := false } else s
      s.chanRecord e { x with handed := false } r u false
  else
    match u.setup with
    | none => s
    | some c => if s.setupOk e c then (s.assist c false).chanRecord e (s.chanStart e c) r u true else s

/-! ### Steer entries, reports (R130, R132, R137) -/

/-- A steer entry written whole (R130): `SEQ` rises to an odd value, the words follow, and it rises to an even one. -/
def State.steerWrite (s : State) (e chid epoch chip frac dop cdiv : Nat) : State :=
  if !s.navOn then s
  else
  let seq := (s.peek (steerAddr e + 2) 2 + 1) / 2 * 2
  s.memWriteWords (.cluster (e / 64)) (steerAddr e)
    [(seq + 2) % 2 ^ 16 * 2 ^ 16 + chid, epoch, chip, frac, dop, cdiv, 0, 0]

/-- A loop state's code in a report. -/
def LoopState.code : LoopState → Nat
  | .pullIn => 0
  | .freq => 1
  | .phase => 2
  | .coast => 3
  | .lost => 4

/-- Report words for differences, at most three (R136, R137). -/
def State.diffWords (s : State) : List DiffSt → State × List Nat
  | [] => (s, [])
  | d :: ds =>
    let (s, m) := s.quotient d.sum d.n
    let (s, ws) := s.diffWords ds
    (s, (b2n (decide (0 < d.n)) * 2 ^ 31 + b2n d.slip * 2 ^ 30 + d.ant % 4 * 2 ^ 28 + uns 28 m) :: ws)

/-- The ideal normalised correlation at a ladder offset in 1/64 chip, 2^-16 (R129). -/
def idealCorr (c : ChanCfg) (ofs : Int) : Int := if c.boc then Config.bocShape c.sig ofs else max 0 ((64 - ofs.natAbs) * 1024)

/-- The largest deviation of the ladder from the ideal correlation, times 2^16 and the prompt's magnitude (R129). -/
def ChanSt.shapeTop (x : ChanSt) : Nat :=
  (List.range 16).foldl (fun m (j : Nat) =>
    max m ((x.mags.getD (x.cfg.ladderAt + j) 0 * 65536 : Nat) -
      idealCorr x.cfg (8 * (j : Int) - 64) * (x.mags.getD 1 0 : Nat)).natAbs) 0

/-- `SHAPE`, 2^-12 (R129); free where the ladder is off or no span was taken (log entry 59). -/
def State.shapeWord (s : State) (x : ChanSt) : State × Nat :=
  let p := x.mags.getD 1 0
  if !x.cfg.shape || p == 0 then s.draw 65536
  else
    let (s, q) := s.quotient x.shapeTop (16 * p)
    (s, satN 16 q.toNat)

/-- `MPE`, 2^-12 chip (R129); free where the double delta does not apply (log entry 59). -/
def State.mpeWord (s : State) (x : ChanSt) : State × Nat :=
  if x.cfg.boc || !x.cfg.slow then s.draw 65536
  else
    let (s, q) := s.quotient x.mpe (2 ^ 20)
    (s, uns 16 (satI 16 q))

/-- `ACC` at an instant `m` samples after the last record (R137): the carrier phase less the nominal offset. -/
def State.accWord (s : State) (e : Nat) (x : ChanSt) (m : Int) : State × Int :=
  let u := (s.eng e).use
  let nom : Int := (x.cfg.fRf : Int) - s.get (SLK_LOF_LOF u.src)
  s.quotient ((x.acc + sgn 40 u.krate * m) * 204600000 - nom * (x.accN + m) * 2 ^ 40) (204600000 * 2 ^ 24)

/-- A channel whose code residual, averaged over 1 s, exceeds four times its expected code noise at epoch `now` (R132). -/
def ChanSt.noisy (x : ChanSt) (cn0 now : Nat) : Bool :=
  x.coup && decide (x.born + 1000 ≤ now) && decide (4 * Config.codeNoise x.cfg.sig cn0 x.tcoh * x.resid.length < (x.resid.foldl (fun (a : Int) r => a + r.1) 0).natAbs)

/-- One channel's report (R137): phases carried to the report instant by the rates in force. In a migration the source
reports until the handover and the target from it; while part of its group has moved no difference is valid (R139). -/
def State.chanReport (s : State) (e : Nat) (ovld : Bool) : State :=
  let x := s.chan e
  if !x.live || s.on (ENG_MIG_ARM e) || (x.handed && s.engState e != 3) then s
  else
    let g := s.eng e
    let samples : Int := ((s.epochCount : Int) - x.repoch) * 204600 - x.rsidx
    let far : Int := x.phase + g.use.crate * samples
    let rolls := (far / (g.ne * 2 ^ 48 : Nat)).toNat
    let ph := far % (g.ne * 2 ^ 48 : Nat)
    let (s, acc) := s.accWord e x samples
    let acc := uns 64 acc
    let (s, dop) := s.quotient x.loop.est (2 ^ 24)
    let (s, res) := s.quotient x.res 65536
    let (s, cn0) := s.cn0Word x
    let (s, pli) := s.quotient (x.pli.1 * 127) x.pli.2
    let (s, shape) := s.shapeWord x
    let (s, mpe) := s.mpeWord x
    let (s, dws) := if x.cfg.follow || !s.groupWhole (e / 64) x.cfg.group then (s, []) else s.diffWords ((x.diffs.filter (fun d => decide (0 < d.n))).take 3)
    let chid := s.get (ENG_CFG_CHID e)
    let fl := b2n x.coup * 64 + b2n (x.excl || x.navEx) * 32 + b2n x.stale * 16 + b2n x.cfg.follow * 8 + b2n ovld * 4
    let ws := [e * 2 ^ 22 + chid * 2 ^ 10 + x.st.code * 2 ^ 7 + fl + x.sync.state % 4, s.epochCount % 2 ^ 32,
      ph.toNat / 2 ^ 48 % 2 ^ 20, ph.toNat % 2 ^ 48 / 2 ^ 16, acc / 2 ^ 32, acc % 2 ^ 32, uns 32 dop,
      cn0 % 2 ^ 16 * 2 ^ 16 + uns 8 pli * 2 ^ 8, x.cont * 2 ^ 16 + x.slips, uns 32 res,
      shape % 2 ^ 16 * 2 ^ 16 + mpe] ++ (dws ++ [0, 0, 0]).take 3 ++
      [x.cfg.group % 256 * 2 ^ 24 + x.cfg.antmask % 16 * 2 ^ 20 + x.late, (x.rseq + 1) % 2 ^ 32]
    let ds := x.diffs.map fun d => { d with sum := 0, n := 0, slip := false }
    let x := { x with resid := (res, s.epochCount) :: x.resid }
    let s := s.setChan e { x with
      rseq := (x.rseq + 1) % 2 ^ 32, report := ws, repK := x.k + rolls, rmark := (x.slipP, x.linkP), slipP := false, linkP := false, late := 0,
      diffs := ds, mags := [], magN := 0, navEx := x.noisy cn0 s.epochCount, live := x.st != .lost }
    let d := s.lateSt (e / 64)
    let s := s.setLate (e / 64) { d with count := d.count + 1 }
    s.memWriteWords .nav (0x80000000 + Config.reportPlace (e / 64) d.count % 0xFFFF0 * 4) ws

/-- The report period in ms (R137): the coupled period, which it equals, of the channels of a loop DSP, or the one in force where
it has none. -/
def State.reportPeriod (s : State) (d : Nat) : Nat :=
  match s.chans.find? fun p => p.2.live && p.1 / 64 == d with
  | some p => p.2.cfg.tc
  | none => s.nav.repPer

/-- The reports of a loop DSP at a report instant (R137). -/
def State.trackReports (s : State) (d : Nat) : State :=
  if !s.loopRuns d then s
  else
  let (s, ovld) := s.lateOvld d
  let per := s.reportPeriod d
  let s := s.eachEng d fun e s => s.chanReport e ovld
  let n := s.nav
  let live := n.running && s.chans.any fun p => p.2.live
  { s with nav := { n with repEp := s.epochCount, repT := s.tim.t, repPer := per, measEp := none,
                           firstEp := if n.firstEp.isNone && live then some s.epochCount else n.firstEp } }

/-! ### Handover, bursts and BRACE (R109, R138, R139) -/

/-- The 32-word loop state block (R138); `free` gives words 18 to 31. Fields that the spec names without a format hold the
low bits of the model's own numbers (DESIGN CHOICE, log entry 60). -/
def ChanSt.blockWords (x : ChanSt) (chid : Nat) (acc : Int) (free : List Nat) : List Nat :=
  let (sp, sn) := pnSums x.pn
  let p := x.cfg.point (x.coh.join x.cfg).arms 1
  let a := uns 64 acc
  [chid * 2 ^ 20 + x.st.code * 2 ^ 16 + b2n x.coup * 2 ^ 15 + b2n x.excl * 2 ^ 14 + b2n x.stale * 2 ^ 13 +
     b2n x.cfg.follow * 2 ^ 12 + x.cfg.group % 256,
   uns 32 x.loop.pll, uns 32 x.loop.est, uns 32 x.loop.fll, uns 32 x.loop.dll, a / 2 ^ 32, a % 2 ^ 32,
   x.cont * 2 ^ 16 + x.slips, x.sync.state * 2 ^ 16 + x.sync.edge % 2 ^ 16, sp % 2 ^ 32, sn % 2 ^ 32, uns 32 x.pli.1,
   x.pli.2 % 2 ^ 32, uns 32 p.1, uns 32 p.2, x.coh.used % 2 ^ 32, x.coh.n % 2 ^ 32,
   x.dseq % 2 ^ 16 * 2 ^ 16 + x.cseq % 2 ^ 16] ++ (List.range 14).map fun i => free.getD i 0

/-- A whole antenna group goes to one cluster (R138): members of the group that have left the source's cluster are in
the target's. -/
def State.groupGoes (s : State) (src tgt : Nat) : Bool :=
  let g := (s.chan src).cfg.group
  g == 255 || s.chans.all fun p =>
    !p.2.live || p.2.cfg.group != g || p.1 / 64 == src / 64 || p.1 / 64 == tgt / 64

/-- A channel is handed over (R138): it runs and has answered a record, the target is IDLE and lies in another cluster, and
its group goes there. Loop code does nothing else (DESIGN CHOICE, log entry 58). -/
def State.handsOver (s : State) (src tgt : Nat) : Bool :=
  s.loopRuns (src / 64) && s.loopRuns (tgt / 64) && (s.chan src).live && (s.chan src).seen && !(s.chan src).handed && s.engState tgt == 0 && src / 64 != tgt / 64 &&
    s.groupGoes src tgt

/-- The loop state of a migration (R138): the source writes its block to the handover area and stops committing, the target
imports it with the coherent sum in progress; a coupled channel waits for a steer entry of its new cluster (R139). The
differences summed so far stay behind, and the count of whole cycles begins anew in the target (DESIGN CHOICE, log entry
58). -/
def State.chanHandoff (s : State) (src tgt : Nat) (free : List Nat) : State :=
  let x := s.chan src
  let (s, acc) := s.accWord src x 0
  let b := x.blockWords (s.get (ENG_CFG_CHID src)) acc free
  let s := s.setChan src { x with handed := true, block := b }
  let s := s.memWriteWords .nav (0x80000000 + Config.handoverPlace src tgt % 0xFFFE0 * 4) b
  s.setChan tgt { x with handed := false, block := b, steer := none, stale := x.coup, diffs := [],
                         loop := if x.coup then x.loop.settle.alone else x.loop, rseq := (s.chan tgt).rseq }

/-- Every channel ends: its burst has ended, every tracking engine is set IDLE, and its signal awaits the assisted
acquisition of the next burst (R109). -/
def State.chansEnd (s : State) : State :=
  let s := s.each 1024 fun e s => if s.engState e = 1 then (s.engCancel e).engEnter e 0 else s
  let s := s.chans.foldl (fun s p => if p.2.live then s.assist p.2.cfg true else s) s
  { s with chans := s.chans.map fun p => (p.1, { p.2 with live := false }) }

/-- The phases of a channel's last record carried to the present epoch by its rates, set at once (R139): device time has run
through BRACE, and no dwell runs. -/
def State.chanRephase (s : State) (e : Nat) : State :=
  let x := s.chan e
  let u := (s.eng e).use
  let m : Int := ((s.epochCount : Int) - x.repoch) * 204600 - x.rsidx
  let p : Int := x.phase + u.crate * m
  let q := p / (2 ^ 48 : Nat)
  let g := s.eng e
  let s := s.stageCode e { x with rchip := (q % (g.ne : Int)).toNat, rfrac := (p % (2 ^ 48 : Nat)).toNat,
                                  rib := (g.ibAt x.rib x.rchip q).toNat } 0 0
  let s := s.set2 (ENG_KPHS_L_PH e) (ENG_KPHS_H_PH e) (uns 40 ((x.rkph : Int) + sgn 40 u.krate * m))
  ((s.set (ENG_KPHS_H_SET e) 1).engCommit e 0x10000).engApply e

/-- After BRACE every channel restarts in PULL-IN, with phases predicted from device time (R139). -/
def State.chansRestart (s : State) : State :=
  s.chans.foldl (fun s p =>
    if p.2.live then
      let s := if p.2.seen then s.chanRephase p.1 else s
      s.setChan p.1 { s.chanStart p.1 { p.2.cfg with cell := none } with slips := p.2.slips, cont := 0, ownSet := false }
    else s) s

end Sys2Proof.Machine
end

