-- ==== Sys2Proof/Machine/MeasBlock.lean ====
section
/-! DEFINITION. Raw measurements (R171–R175): receive and transmit times, pseudoranges, carrier phases, the entries of a
`MEAS` datagram (R195). They are formed once for each report instant. -/

namespace Sys2Proof.Machine

/-- A report's word. -/
def ChanSt.word (x : ChanSt) (i : Nat) : Nat := x.report.getD i 0

/-- The receive time of a component in its system's time, 2^-64 ps (R171): the device time of the instant less the external delay
of the link and band. -/
def State.rxTime (s : State) (e : Nat) (c : ChanCfg) : Int :=
  (s.nav.repT : Int) * 1000 + s.sysOffset (sysOf c.sig) * 10 ^ 12 * 2 ^ 64 -
    s.navDly (s.eng e).use.src c.comp.band * 2 ^ 64

/-- Code phase of a report, 2^-32 chip. -/
def ChanSt.codePhase (x : ChanSt) : Nat := x.word 2 * 2 ^ 32 + x.word 3

/-- The code period in ms (R170). -/
def State.codeMs (s : State) (e : Nat) (c : ChanCfg) : Nat := max 1 ((s.eng e).ne * 10 ^ 6 / max 1 c.comp.chip)

/-- A time in the divisor of a component: 2^-64 ps over the chip rate in 10^-3 chip/s. -/
def phaseFine (phase : Nat) : Int := phase * 10 ^ 15 * 2 ^ 32

/-- The start of the code period, in ms, that puts the code phase nearest to a transmit time given in 2^-64 ps (R172). -/
def periodStart (chip perMs phase : Nat) (target : Int) : Int :=
  let den : Int := (chip * perMs : Nat) * (msFine : Int)
  perMs * ((2 * (target * chip - phaseFine phase) + den) / (2 * den))

/-- The transmit time of a code period's start and a code phase, in 2^-64 ps over the chip rate (R172). -/
def txFine (chip phase : Nat) (start : Int) : Int := start * msFine * chip + phaseFine phase

/-! ### Levels (R172) -/

/-- A satellite's transmit time carried from its anchor to the report instant, 2^-64 ps. -/
def State.anchorNow (s : State) (a : AnchorSt) : Int := a.ts + ((s.nav.repEp : Int) - a.ep) * a.step

/-- The transmit time predicted for a component, 2^-64 ps, when its error is below a quarter of a code period (R172): by the
satellite's set or almanac, the position known and device time. -/
def State.predictTx (s : State) (e : Nat) (c : ChanCfg) : Option Int :=
  let y := s.sat (satKey (sysOf c.sig) c.sv)
  let now := tvSec s.now
  let t := if y.used.isSome then y.usedT else (y.alm.map (·.2)).getD 0
  let err := Config.rangeError (max now t - min now t) s.nav.posAcc + s.terrNow * lightSpeed / 10 ^ 9
  if 4000 * err < lightSpeed * s.codeMs e c then s.predictAt c (s.rxTime e c - s.nav.rxofs * msFine) else none

/-- The transmit time that an overlay set from device time gives: the place in the overlay, nearest to a flight of 75 ms
(R118, R172; log entry 65). -/
def State.overlayTx (s : State) (e : Nat) (x : ChanSt) : Option Int :=
  let c := x.cfg.comp
  if x.word 0 % 4 = 3 ∧ c.sec = 1800 then
    let place := (x.repK + c.sec - x.sync.edge % c.sec) % c.sec * c.span
    let t := s.rxTime e x.cfg - s.nav.rxofs * msFine - 75 * msFine - place * msFine
    let whole : Int := c.sec * c.span * msFine
    some ((2 * t + whole) / (2 * whole) * whole + place * msFine)
  else none

/-- The start of a channel's code period and whether it is known at level TOW (R172): by the satellite's anchor, by an overlay, or
resolved by prediction. -/
def State.resolve (s : State) (e : Nat) (x : ChanSt) : Option (Int × Bool) :=
  let c := x.cfg
  let at_ := periodStart c.comp.chip (s.codeMs e c) x.codePhase
  match tblFind s.nav.anchors (satKey (sysOf c.sig) c.sv) with
  | some a => some (at_ (s.anchorNow a), true)
  | none =>
    match s.overlayTx e x with
    | some t => some (at_ (t + phaseFine x.codePhase / max 1 c.comp.chip), true)
    | none => (s.predictTx e c).map fun t => (at_ t, false)

/-! ### Channels of the epoch (R175, R195) -/

/-- An engine's channel reported at the last report instant. -/
def State.reported (s : State) (e : Nat) : Bool :=
  let x := s.chan e
  x.report != [] && x.word 1 == s.nav.repEp % 2 ^ 32 && x.word 0 / 2 ^ 22 == e

/-- The channel yields a measurement (R175), and `SYSMASK` admits its system. -/
def State.yields (s : State) (e : Nat) : Bool :=
  let x := s.chan e
  let st := bits (x.word 0) 9 7
  s.reported e && s.sysOn (sysOf x.cfg.sig) && st != 0 && st != 4 && !x.rmark.2 &&
    !(bit (x.word 0) 5 && x.excl && decide (2 ^ 15 < (sgn 32 (x.word 9)).natAbs))

/-- The place of a channel's entry in an epoch (R195). -/
def State.measKey (s : State) (e : Nat) : Nat :=
  let c := (s.chan e).cfg
  ((sysOf c.sig * 256 + c.sv) * 256 + c.sig) * 16 + s.antOf e

/-- An engine put in its place by `SYS`, `SV`, `SIG`, `ANT`. -/
def State.measPut (s : State) (e : Nat) : List Nat → List Nat
  | [] => [e]
  | f :: fs => if s.measKey e < s.measKey f then e :: f :: fs else f :: s.measPut e fs

/-- The engines of an epoch in `MEAS` order. -/
def State.measEngs (s : State) : List Nat :=
  (s.chans.filter fun p => s.yields p.1).foldl (fun l p => s.measPut p.1 l) []

/-- A channel's satellite as its set or almanac predicts it for what is received at the report instant: position in mm and the
vector to it from a position. -/
def State.losOf (s : State) (e : Nat) (c : ChanCfg) (pos : Int × Int × Int) : Option (Int × Int × Int) :=
  let key := satKey (sysOf c.sig) c.sv
  (s.sentAt key key pos (s.rxTime e c - s.nav.rxofs * msFine)).map fun g => subV g.2.pos pos

/-! ### Transmit times known (R172) -/

/-- The anchor that a channel's code period start gives at the report instant. -/
def State.anchorOf (s : State) (x : ChanSt) (start : Int) : AnchorSt :=
  { ep := s.nav.repEp, ts := txFine x.cfg.comp.chip x.codePhase start / max 1 x.cfg.comp.chip,
    step := msFine + msFine * sgn 32 (x.word 6) / (256 * max 1 x.cfg.fRf) }

/-- Anchors carried to the report instant: by a channel of the satellite at level TOW; a satellite without a channel keeps
none. -/
def State.anchorsNow (s : State) (es : List (Nat × Option (Int × Bool))) : State :=
  let t : Tbl AnchorSt := es.foldl (fun t p =>
    match p.2 with
    | some (start, true) =>
      let x := s.chan p.1
      let key := satKey (sysOf x.cfg.sig) x.cfg.sv
      if (tblFind t key).isSome then t else tblSet t key (s.anchorOf x start)
    | _ => t) []
  { s with nav := { s.nav with anchors := t } }

/-! ### Pseudoranges (R173) -/

/-- A pseudorange over 2^32 × chip rate × 10^12, in 2^-32 m, with `rxofs` in ms taken from the receive time. -/
def State.rangeNum (s : State) (e : Nat) (x : ChanSt) (start rxofs : Int) : Int :=
  let chip := x.cfg.comp.chip
  ((s.rxTime e x.cfg - rxofs * msFine) * chip - txFine chip x.codePhase start) * lightSpeed

/-- The divisor of a pseudorange. -/
def rangeDen (chip : Nat) : Nat := 2 ^ 32 * max 1 chip * 10 ^ 12

/-- `RXOFS` (R173): 0 from the first step on; before it a whole number that puts the smallest pseudorange between 19,000 km and
20,000 km, free among those that do. -/
def State.rxofsFor (s : State) (es : List (Nat × Option (Int × Bool))) : State × Int :=
  if s.get TIM_STAT_STATE = 2 then (s, 0)
  else
    let ps := es.filterMap fun p => p.2.map fun r =>
      let x := s.chan p.1
      s.rangeNum p.1 x r.1 0 / rangeDen x.cfg.comp.chip
    match ps with
    | [] => (s, s.nav.rxofs)
    | p :: ps =>
      let m := ps.foldl min p
      let ms : Int := lightSpeed * 2 ^ 32
      let lo := -((-(m - 20000000 * 2 ^ 32) * 1000) / ms)
      let hi := (m - 19000000 * 2 ^ 32) * 1000 / ms
      if hi ≤ lo then (s, lo)
      else
        let (s, k) := s.draw (hi - lo + 1).toNat
        (s, lo + k)

/-! ### Carrier phases (R174) -/

/-- A channel's ambiguity, good for the channel as it started and while its slips stand. -/
def State.ambOf (s : State) (x : ChanSt) : Option AmbSt :=
  match tblFind s.nav.ambs (bits (x.word 0) 21 10) with
  | some a => if a.sv = x.cfg.sv ∧ a.born = x.born ∧ a.sig = x.cfg.sig ∧ a.slips = x.word 8 % 2 ^ 16 then some a else none
  | none => none

/-- N0 for a pseudorange in 2^-32 m (R174): the whole number that makes Φλ equal P within half a wavelength. -/
def ambFor (x : ChanSt) (pr : Int) : Int :=
  roundDiv (pr * x.cfg.fRf + sgn 64 (x.word 4 * 2 ^ 32 + x.word 5) * 2 ^ 16 * lightSpeed) (lightSpeed * 2 ^ 32)

/-- The ambiguities after an epoch: N0 is fixed as the continuity count leaves 0, and goes with it; the half cycle is then open
until a preamble's polarity is known again (R174). -/
def State.ambNext (s : State) (x : ChanSt) (pr : Option Int) : Option AmbSt :=
  let old := s.ambOf x
  let fresh : AmbSt := { sv := x.cfg.sv, sig := x.cfg.sig, slips := x.word 8 % 2 ^ 16, born := x.born }
  if x.word 8 / 2 ^ 16 = 0 then none
  else
    let a := old.getD fresh
    match a.n0, pr with
    | none, some p => some { a with n0 := some (ambFor x p) }
    | _, _ => some a

/-- The carrier phase, 2^-16 cycle, and whether its half cycle is resolved: always on a pilot (R174). -/
def carrierPhase (x : ChanSt) (a : Option AmbSt) : Option Int × Bool :=
  match a with
  | none => (none, x.cfg.pilot)
  | some a =>
    let half := x.cfg.pilot || a.inv.isSome
    let coast := bits (x.word 0) 9 7 == 3
    match a.n0 with
    | some n => (if coast then none
        else some (n * 65536 - sgn 64 (x.word 4 * 2 ^ 32 + x.word 5) + (if !x.cfg.pilot && a.inv == some true then 32768 else 0)), half)
    | none => (none, half)

/-! ### An epoch (R171–R175) -/

/-- One channel's measurement. -/
def State.measOne (s : State) (e : Nat) (r : Option (Int × Bool)) (rxofs : Int) : State :=
  let x := s.chan e
  let c := x.cfg
  let (s, pr) : State × Option Int := match r with
    | some (start, _) =>
      let (s, p) := s.quotient (s.rangeNum e x start rxofs) (rangeDen c.comp.chip)
      (s, some p)
    | none => (s, none)
  let (s, prw) := s.quotient (pr.getD 0) (2 ^ 22)
  let (s, lock) := s.quotient (x.word 8 / 2 ^ 16 * c.tc) 100
  let look := match s.posAid with
    | some p => ((s.losOf e c p).map (lookAt p)).getD (0, 0)
    | none => (0, 0)
  let (s, elev) := s.quotient (look.1 * 360) 65536
  let (s, azim) := s.quotient look.2 256
  let a := s.ambNext x pr
  let (cp, half) := carrierPhase x a
  let m : Meas :=
    { e := e, sys := sysOf c.sig, sv := c.sv, sig := c.sig, k := c.k, ant := s.antOf e, pr := pr, prw := prw.toNat,
      tow := match r with | some (_, t) => t | none => false
      cp := cp, half := half, dop := sgn 32 (x.word 6), cn0 := x.word 7 / 2 ^ 16, lock := satN 16 lock.toNat, elev := elev,
      azim := azim.toNat % 256, coup := bit (x.word 0) 6, follow := bit (x.word 0) 3, slip := x.rmark.1, tcoh := x.tcoh }
  let ambs := match a with
    | some a => tblSet s.nav.ambs (bits (x.word 0) 21 10) a
    | none => tblErase s.nav.ambs (bits (x.word 0) 21 10)
  { s with nav := { s.nav with meas := s.nav.meas ++ [m], ambs := ambs } }

/-- Measurements of the last report instant, formed when they are first asked for, and before the next one at the latest. -/
def State.measEpoch (s : State) : State :=
  if s.nav.measEp = some s.nav.repEp then s
  else
    let es := s.measEngs.map fun e => (e, s.resolve e (s.chan e))
    let (s, rxofs) := s.rxofsFor es
    let s := { s with nav := { s.nav with rxofs := rxofs, meas := [], measEp := some s.nav.repEp, measT := s.nav.repT } }
    let s := es.foldl (fun s p => s.measOne p.1 p.2 rxofs) s
    s.anchorsNow es

/-- The measurements of the last report instant, which a running navigation core forms. -/
def State.measNow (s : State) : State := if s.navOn then s.measEpoch else s

/-- A report instant of a loop DSP (R137, R174): the first one of an instant finds the measurements of the instant before
formed, so that an ambiguity is fixed at the epoch at which its continuity count leaves 0. -/
def State.reportInstant (s : State) (d : Nat) : State :=
  (if s.nav.repEp = s.epochCount then s else s.measNow).trackReports d

/-- The navigation core has tracked for one report period since its start (R197). -/
def State.tracked (s : State) : Bool :=
  match s.nav.firstEp with
  | some e => decide (e < s.nav.repEp)
  | none => false

/-! ### Entries (R195) -/

/-- The entry of a measurement; fields that are not valid read zero. -/
def State.measEntry (s : State) (m : Meas) : MeasEntry :=
  let os := if m.sys = 1 then s.osnmaState m.sv else 0
  let fl := b2n m.pr.isSome * 2 ^ 15 + b2n (m.tow && m.pr.isSome) * 2 ^ 14 + b2n m.cp.isSome * 2 ^ 13 + b2n m.half * 2 ^ 12 +
    b2n m.used * 2 ^ 11 + b2n m.rej * 2 ^ 10 + b2n (os == 2) * 2 ^ 9 + b2n (os == 3) * 2 ^ 8 + b2n m.coup * 2 ^ 7 +
    b2n m.follow * 2 ^ 6 + b2n m.slip * 2 ^ 5
  { sys := BitVec.ofNat 8 m.sys, sv := BitVec.ofNat 8 m.sv, sig := BitVec.ofNat 8 m.sig,
    ant := BitVec.ofNat 8 ((if m.sys = 3 then uns 4 m.k else 0) * 16 + m.ant), flags := BitVec.ofNat 16 fl,
    cn0 := BitVec.ofNat 16 m.cn0, pr := BitVec.ofNat 64 m.prw, cp := BitVec.ofNat 64 (uns 64 (m.cp.getD 0)),
    dop := BitVec.ofNat 32 (uns 32 m.dop), lock := BitVec.ofNat 16 m.lock, elev := BitVec.ofNat 8 (uns 8 m.elev),
    azim := BitVec.ofNat 8 m.azim }

/-- The entries of the epoch's measurements. -/
def State.measEntries (s : State) : List MeasEntry := s.nav.meas.map s.measEntry

end Sys2Proof.Machine
end

