-- ==== Sys2Proof/Machine/Chi2.lean ====
section
/-! DEFINITION. The limits of the residual test (R202): for each number of degrees of freedom from 2 to 255, the values
in 1/256 that a chi-square exceeds with probability 1e-3 (WARN) and 1e-7 (FAIL), rounded up. -/

namespace Sys2Proof.Machine

/-- Limits for 2 to 65 degrees of freedom. -/
def chi2Rows0 : List (Nat × Nat) :=
  [(3537, 8253), (4165, 9064), (4728, 9790), (5252, 10461), (5750, 11095), (6227, 11700), (6688, 12281),
   (7137, 12844), (7575, 13392), (8004, 13925), (8425, 14448), (8840, 14959), (9248, 15462), (9651, 15956),
   (10049, 16443), (10443, 16923), (10832, 17397), (11218, 17865), (11601, 18327), (11981, 18785),
   (12357, 19239), (12731, 19688), (13102, 20133), (13471, 20574), (13838, 21012), (14202, 21446),
   (14565, 21878), (14926, 22306), (15284, 22731), (15642, 23154), (15997, 23574), (16351, 23992),
   (16704, 24407), (17055, 24820), (17405, 25231), (17753, 25640), (18100, 26047), (18446, 26452),
   (18791, 26855), (19135, 27256), (19478, 27656), (19820, 28054), (20160, 28450), (20500, 28845),
   (20839, 29238), (21177, 29630), (21514, 30020), (21850, 30409), (22186, 30797), (22520, 31184),
   (22854, 31569), (23187, 31953), (23520, 32336), (23851, 32718), (24182, 33098), (24513, 33478),
   (24842, 33856), (25172, 34234), (25500, 34610), (25828, 34986), (26155, 35360), (26482, 35734),
   (26808, 36106), (27133, 36478)]

/-- Limits for 66 to 129 degrees of freedom. -/
def chi2Rows1 : List (Nat × Nat) :=
  [(27459, 36849), (27783, 37219), (28107, 37588), (28431, 37957), (28754, 38324), (29076, 38691),
   (29398, 39057), (29720, 39423), (30041, 39787), (30362, 40151), (30682, 40514), (31002, 40877),
   (31322, 41239), (31641, 41600), (31959, 41960), (32278, 42320), (32596, 42679), (32913, 43038),
   (33230, 43396), (33547, 43753), (33863, 44110), (34180, 44466), (34495, 44822), (34811, 45177),
   (35126, 45532), (35441, 45886), (35755, 46239), (36069, 46592), (36383, 46945), (36696, 47297),
   (37010, 47648), (37323, 47999), (37635, 48350), (37947, 48700), (38260, 49049), (38571, 49398),
   (38883, 49747), (39194, 50095), (39505, 50443), (39816, 50790), (40126, 51137), (40436, 51484),
   (40746, 51830), (41056, 52175), (41365, 52521), (41674, 52865), (41983, 53210), (42292, 53554),
   (42600, 53898), (42909, 54241), (43217, 54584), (43525, 54926), (43832, 55269), (44139, 55610),
   (44447, 55952), (44753, 56293), (45060, 56634), (45367, 56974), (45673, 57314), (45979, 57654),
   (46285, 57994), (46591, 58333), (46896, 58672), (47202, 59010)]

/-- Limits for 130 to 193 degrees of freedom. -/
def chi2Rows2 : List (Nat × Nat) :=
  [(47507, 59348), (47812, 59686), (48116, 60024), (48421, 60361), (48725, 60698), (49030, 61034),
   (49334, 61371), (49637, 61707), (49941, 62042), (50245, 62378), (50548, 62713), (50851, 63048),
   (51154, 63383), (51457, 63717), (51760, 64051), (52062, 64385), (52364, 64718), (52667, 65052),
   (52969, 65385), (53271, 65718), (53572, 66050), (53874, 66382), (54175, 66714), (54477, 67046),
   (54778, 67378), (55079, 67709), (55379, 68040), (55680, 68371), (55981, 68701), (56281, 69032),
   (56581, 69362), (56881, 69692), (57181, 70021), (57481, 70351), (57781, 70680), (58081, 71009),
   (58380, 71338), (58679, 71666), (58979, 71995), (59278, 72323), (59577, 72651), (59875, 72978),
   (60174, 73306), (60473, 73633), (60771, 73960), (61070, 74287), (61368, 74614), (61666, 74940),
   (61964, 75267), (62262, 75593), (62559, 75919), (62857, 76244), (63154, 76570), (63452, 76895),
   (63749, 77220), (64046, 77545), (64343, 77870), (64640, 78195), (64937, 78519), (65234, 78843),
   (65530, 79167), (65827, 79491), (66123, 79815), (66420, 80138)]

/-- Limits for 194 to 255 degrees of freedom. -/
def chi2Rows3 : List (Nat × Nat) :=
  [(66716, 80462), (67012, 80785), (67308, 81108), (67604, 81431), (67900, 81753), (68195, 82076),
   (68491, 82398), (68786, 82720), (69082, 83042), (69377, 83364), (69672, 83686), (69967, 84007),
   (70262, 84329), (70557, 84650), (70852, 84971), (71147, 85292), (71441, 85613), (71736, 85933),
   (72030, 86254), (72325, 86574), (72619, 86894), (72913, 87214), (73207, 87534), (73501, 87854),
   (73795, 88173), (74089, 88493), (74383, 88812), (74676, 89131), (74970, 89450), (75263, 89769),
   (75557, 90087), (75850, 90406), (76143, 90724), (76437, 91043), (76730, 91361), (77023, 91679),
   (77316, 91997), (77608, 92315), (77901, 92632), (78194, 92950), (78486, 93267), (78779, 93584),
   (79071, 93901), (79364, 94218), (79656, 94535), (79948, 94852), (80240, 95168), (80532, 95485),
   (80824, 95801), (81116, 96117), (81408, 96433), (81700, 96749), (81992, 97065), (82283, 97381),
   (82575, 97697), (82866, 98012), (83158, 98327), (83449, 98643), (83740, 98958), (84031, 99273),
   (84323, 99588), (84614, 99902)]

/-- The WARN and FAIL limits for a number of degrees of freedom. -/
def chi2Limits (dof : Nat) : Nat × Nat := (chi2Rows0 ++ chi2Rows1 ++ chi2Rows2 ++ chi2Rows3)[dof - 2]?.getD (0, 0)

end Sys2Proof.Machine
end

