-- ==== Sys2Proof/Machine/CusBlock.lean ====
section
/-! DEFINITION. The custody record (R343–R345) and the `CUS` registers, which the custody core keeps from it. -/

namespace Sys2Proof.Machine

/-- The record's octets before its CRC (R344). -/
def CustodyRec.body (r : CustodyRec) : List Byte :=
  let fl := b2n r.posv + 2 * b2n r.ulock + 4 * b2n r.reloc + 8 * b2n r.pendv + 16 * b2n r.first + 32 * b2n r.mirv
  leBytes 2 0x4353 ++ leBytes 1 1 ++ leBytes 1 (b2n r.sealed_) ++ leBytes 4 fl ++ leBytes 8 r.gen ++ leBytes 8 r.ctr ++
    leBytes 1 r.fail ++ leBytes 7 0 ++ beBytes 32 r.key ++ beBytes 32 r.sdig ++ beBytes 32 r.pdig ++
    leBytes 8 (uns 64 r.spos.1) ++ leBytes 8 (uns 64 r.spos.2.1) ++ leBytes 8 (uns 64 r.spos.2.2) ++
    leBytes 4 r.mlen ++ leBytes 4 0 ++ beBytes 32 r.mdig ++ leBytes 60 0

/-- The record's 256 octets (R344, R345). -/
def CustodyRec.octets (r : CustodyRec) : List Byte := r.body ++ leBytes 4 (crc32 r.body)

/-- The address of a copy (R344). -/
def custodyAddr (copyB : Bool) : Nat := 0x90700000 + b2n copyB * 0x100

/-- The record a copy holds, when its tag and CRC match (R345). -/
def custodyParse (bs : List Byte) : Option CustodyRec :=
  let n := fun o k => leNat (sliceN bs o k)
  let d := fun o => beNat (sliceN bs o 32)
  if n 0 2 = 0x4353 ∧ n 0xFC 4 = crc32 (bs.take 0xFC) then
    let fl := n 4 4
    some { sealed_ := n 3 1 == 1, posv := bit fl 0, ulock := bit fl 1, reloc := bit fl 2, pendv := bit fl 3,
           first := bit fl 4, mirv := bit fl 5, gen := n 8 8, ctr := n 0x10 8, fail := n 0x18 1, key := d 0x20,
           sdig := d 0x40, pdig := d 0x60, spos := (sgn 64 (n 0x80 8), sgn 64 (n 0x88 8), sgn 64 (n 0x90 8)),
           mlen := n 0x98 4, mdig := d 0xA0 }
  else none

/-- A copy as the custody core reads it; a double-bit error makes it not valid (R21). -/
def State.custodyCopy (s : State) (copyB : Bool) : Option CustodyRec :=
  let a := custodyAddr copyB
  if (List.range 32).any fun i => s.eccOf .mram (a + 8 * i) = some true then none
  else custodyParse (s.bytesAt a 256)

/-- The `CUS` registers and `CFL_STAT.MIRV` from the record in force (ch. 16). -/
def State.cusRegs (s : State) : State :=
  let r := s.cus.rec_
  let s := s.set CUS_STAT_STATE (if r.sealed_ then (if s.cus.reopened then 2 else 1) else 0)
  let s := s.setB CUS_STAT_POSV r.posv
  let s := s.setB CUS_STAT_ULOCK r.ulock
  let s := s.setB CUS_STAT_PENDV r.pendv
  let s := s.setB CUS_STAT_FIRST r.first
  let s := s.setB CUS_STAT_CHAL s.cus.chal.isSome
  let s := s.set CUS_STAT_FAIL r.fail
  let s := s.set2 CUS_SCNT_L_CTR CUS_SCNT_H_CTR r.ctr
  let s := s.each 8 fun i s => s.set (CUS_SDIG_DIG i) (if r.sealed_ then r.sdig / 2 ^ (32 * (7 - i)) else 0)
  let p : Int × Int × Int := if r.posv then r.spos else (0, 0, 0)
  let s := s.setI2 CUS_SPOSX_L_MM CUS_SPOSX_H_MM p.1
  let s := s.setI2 CUS_SPOSY_L_MM CUS_SPOSY_H_MM p.2.1
  let s := s.setI2 CUS_SPOSZ_L_MM CUS_SPOSZ_H_MM p.2.2
  s.setB CFL_STAT_MIRV r.mirv

/-- The identity block stands: no double-bit error, and its CRC holds (R21, R344, R345). -/
def State.idOk (s : State) : Bool :=
  !((s.eccIn 0x90708000 20).any fun e => e.2) && crc32 (s.bytesAt 0x90708000 16) == s.peek 0x90708010 4

/-- The record in force found at a start: the valid copy with the higher generation, else OPEN with `CTR` 0
(R345). -/
def State.cusRead (s : State) : State :=
  let s := (s.mramRead (custodyAddr false) 256).mramRead (custodyAddr true) 256
  let pick : Bool × CustodyRec :=
    match s.custodyCopy false, s.custodyCopy true with
    | some a, some b => if a.gen < b.gen then (true, b) else (false, a)
    | some a, none => (false, a)
    | none, some b => (true, b)
    | none, none => (true, {})
  ({ s with cus := { s.cus with rec_ := pick.2, copyB := pick.1 } }).cusRegs

/-- The record changed: the copy not in force is written, with `GEN` one above the copy in force (R345). A change
that changes no field writes nothing (DEDUCED: the custody core changes the record by writing it). -/
def State.cusStore (s : State) (r : CustodyRec) : State :=
  if { r with gen := s.cus.rec_.gen } = s.cus.rec_ then s.cusRegs else
  let b := !s.cus.copyB
  let r := { r with gen := s.cus.rec_.gen + 1 }
  let a := custodyAddr b
  let s := s.each 32 fun i s => s.clrEcc .mram (a + 8 * i)
  ({ s.pokes a r.octets with cus := { s.cus with rec_ := r, copyB := b } }).cusRegs

end Sys2Proof.Machine
end

