-- ==== Sys2Proof/Machine/LinkBlock.lean ====
section
/-! DEFINITION. Sample links and front-end buses (ch. 2): bring-up, faults, gain, interference, table sequences. -/

namespace Sys2Proof.Machine

/-! ### Links (R34–R47) -/

/-- A link is enabled, awake and not refused by R34. -/
def State.linkLive (s : State) (n : Nat) : Bool :=
  s.on (SLK_CFG_EN n) && !s.on (SLK_STAT_ASLEEP n) && !s.on (SLK_STAT_MAPERR n)

/-- A mark set in every handle that captures from a link, or has captured in the frame or epoch that still runs: `open_`
tells which (R94). -/
def State.snapMark (s : State) (n : Nat) (f : Nat → Field) (open_ : HandleSt → Bool := fun _ => false) : State :=
  s.each 8 fun h s =>
    if (s.handle h).link = n ∧ (s.get (SNP_HSTAT_STATE h) = 2 ∨ (s.get (SNP_HSTAT_STATE h) = 3 ∧ open_ (s.handle h)))
    then s.set (f h) 1 else s

/-- A function applied to the engines that take a link's samples. -/
def State.linkEngs (s : State) (n : Nat) (f : EngSt → EngSt) : State :=
  { s with engs := s.engs.map fun p => (p.1, if p.2.use.src = n then f p.2 else p.2) }

/-- A function applied to the channels on the engines that take a link's samples. -/
def State.linkChans (s : State) (n : Nat) (f : ChanSt → ChanSt) : State :=
  { s with chans := s.chans.map fun p => (p.1, if (s.eng p.1).use.src = n then f p.2 else p.2) }

/-- A write that reaches a link's front-end marks the epoch: the samples to come, the spans that already hold samples of
it, the captures that overlap it (R48, R78, R94). -/
def State.fecMarks (s : State) (n : Nat) : State :=
  ((s.setLink n { s.link n with fecMark := true }).linkEngs n EngSt.markEpoch).snapMark n SNP_HSTAT_FECW HandleSt.openE

/-- A fault found present on a link: it marks its frame, with the spans and captures that hold samples of that frame
(R43, R94); a relock is a slip on every channel of the link (R35); the episode of R44 begins or goes on. -/
def State.linkFault (s : State) (n bit_ : Nat) : State :=
  if !s.linkLive n then s
  else
    let s := (s.linkEngs n EngSt.markFrame).snapMark n SNP_HSTAT_LINKF HandleSt.openF
    let s := if bit_ = 8 then s.linkChans n fun x => { x with lorel := true } else s
    let m := 2 ^ bit_
    let s := (s.orF (SLK_STAT_FAULTS n) m).orF (SLK_FAULT_FAULTS n) m
    let l := s.link n
    s.setLink n { l with frameF := true, episode := true, epAt := if l.episode then l.epAt else s.tim.up,
                         seen := (if l.episode then l.seen else 0) ||| m }

/-- An epoch begins: nothing is marked of it yet (R48, R94). -/
def State.epochMarks (s : State) : State :=
  { s with
    links := s.links.map fun p => (p.1, { p.2 with fecMark := false })
    engs := s.engs.map fun p => (p.1, { p.2 with inEpoch := false, ncInEpoch := false })
    handles := s.handles.map fun p => (p.1, { p.2 with openE := false }) }

/-- A frame of a link ends: the next one starts with the faults still present (R43). -/
def State.linkFrame (s : State) (n : Nat) : State :=
  let s := s.linkEngs n fun x => { x with inFrame := false, ncInFrame := false }
  let s := s.each 8 fun h s =>
    if (s.handle h).link = n then s.setHandle h { s.handle h with openF := false } else s
  s.setLink n { s.link n with frameF := s.on (SLK_STAT_FAULTS n) }

/-- A fault of a link has ended. -/
def State.linkClear (s : State) (n bit_ : Nat) : State :=
  if bit (s.get (SLK_STAT_FAULTS n)) bit_ then
    let s := s.clrF (SLK_STAT_FAULTS n) (2 ^ bit_)
    if s.get (SLK_STAT_FAULTS n) = 0 then s.setLink n { s.link n with freeAt := s.tim.up } else s
  else s

/-- The tap of a lane on its way to the centre of the eye, and when it moved: one tap at most in 1 ms (R41). -/
def tapFollow (up : Nat) (old : Option Nat) (at_ : Nat) (eye : Option (Fin 64)) : Option Nat × Nat :=
  match old, eye with
  | some t, some e =>
    if e.val = t ∨ up < at_ + 1000000 then (some t, at_) else (some (if t < e.val then t + 1 else t - 1), up)
  | _, _ => (old, at_)

/-- The delay lines of a link that is up follow drift (R41). -/
def LinkSt.follow (l : LinkSt) (up : Nat) (eyes : List (Option (Fin 64))) : LinkSt :=
  let ts := (List.range 5).map fun i =>
    tapFollow up ((l.taps[i]?).getD none) (l.tapAt.getD i 0) ((eyes[i]?).getD none)
  { l with taps := ts.map (·.1), tapAt := ts.map (·.2) }

/-- The result of training (R41): a tap for each of the five lanes, or `SKEW` when a lane has no eye. An empty list
says that training has not ended. On a link that is up, the delay lines follow drift. -/
def State.linkTrain (s : State) (n : Nat) (eyes : List (Option (Fin 64))) : State :=
  if eyes = [] ∨ !s.linkLive n then s
  else if s.on (SLK_STAT_UP n) then s.setLink n ((s.link n).follow s.tim.up eyes)
  else
    let taps := (List.range 5).map fun i => ((eyes[i]?).getD none).map (·.val)
    let s := s.setLink n { s.link n with taps := taps }
    if taps.all (·.isSome) then s.linkClear n 7 else s.linkFault n 7

/-- Training has found an eye on every lane. -/
def LinkSt.trained (l : LinkSt) : Bool := !l.taps.isEmpty && l.taps.all (·.isSome)

/-- A link starts the sequence of R41 with the fields of `SLK_CFG` in force. Faults stay until they end (R42). -/
def State.linkStart (s : State) (n : Nat) : State :=
  let s := s.setLink n { s.link n with taps := [], tapAt := [], aligned := false, marked := false, words := 0,
                                       badWords := 0, ovfSeen := false, rateOk := 0 }
  ((s.set (SLK_STAT_ASLEEP n) 0).set (SLK_STAT_TRAIN n) 1).set (SLK_STAT_UP n) 0

/-- The links of a bus sleep now: `FEC_PWR.EN` is set, and no burst has been released (R50). -/
def State.fecAsleep (s : State) (b : Nat) : Bool :=
  s.on (FEC_PWR_EN b) && !(s.get ITG_INTV_INTV == 0) && !(s.itg.burst.active && s.itg.burst.released)

/-- A link goes down: neither up nor training, fault detection off. -/
def State.linkStop (s : State) (n : Nat) : State :=
  let s := (s.set (SLK_STAT_UP n) 0).set (SLK_STAT_TRAIN n) 0
  let s := if s.get (SLK_STAT_FAULTS n) = 0 then s else s.setLink n { s.link n with freeAt := s.tim.up }
  let s := s.setLink n { s.link n with stuck := 0, frameF := false }
  ((s.set (SLK_STAT_FAULTS n) 0).set (SLK_STAT_GDEV n) 0).set (SLK_STAT_PULSE n) 0

/-- A link that may run comes up by R41, or is ASLEEP until the next burst (R50). -/
def State.linkBegin (s : State) (n : Nat) : State :=
  if s.fecAsleep (n / 2) then (s.linkStop n).set (SLK_STAT_ASLEEP n) 1 else s.linkStart n

/-- Whether two links in force claim an antenna-band pair in common (R34). -/
def LinkCfg.clash (a b : LinkCfg) : Bool := a.ant == b.ant && (a.bands &&& b.bands) != 0

/-- R34 for link `n`, the lower-numbered links having been decided. R34 is judged anew at every change of the enables: a
link that comes to be refused goes down, one that is no longer refused starts R41 by itself (DESIGN CHOICE, log entry
14). -/
def State.linkMapOne (n : Nat) (s : State) : State :=
  if !s.on (SLK_CFG_EN n) then s
  else
    let c := (s.link n).cfg
    let bad := c.bands == 0 || (List.range n).any fun m =>
      s.on (SLK_CFG_EN m) && !s.on (SLK_STAT_MAPERR m) && c.clash (s.link m).cfg
    if bad = s.on (SLK_STAT_MAPERR n) then s
    else if bad then ((s.linkStop n).set (SLK_STAT_ASLEEP n) 0).set (SLK_STAT_MAPERR n) 1
    else (s.set (SLK_STAT_MAPERR n) 0).linkBegin n

/-- R34 for every link, lowest first. -/
def State.linkMap (s : State) : State := s.each 8 State.linkMapOne

/-- The effect of a write of `SLK_CFG` (R41): fields other than `EN` are held until `EN` goes from 0 to 1. `was` is
`EN` before the write. -/
def State.slkCfg (s : State) (n : Nat) (was : Bool) (eyes : List (Option (Fin 64))) : State :=
  let en := s.on (SLK_CFG_EN n)
  if en = was then s
  else if en then
    let c : LinkCfg := { code := s.get (SLK_CFG_CODE n), iqswap := s.get (SLK_CFG_IQSWAP n),
                         qinv := s.get (SLK_CFG_QINV n), agcm := s.get (SLK_CFG_AGCM n),
                         ant := s.get (SLK_CFG_ANT n), bands := s.get (SLK_CFG_BANDS n) }
    let s := (s.setLink n { s.link n with cfg := c }).linkBegin n
    (s.linkMap).linkTrain n eyes
  else
    (((s.linkStop n).set (SLK_STAT_ASLEEP n) 0).set (SLK_STAT_MAPERR n) 0).linkMap

/-- A marker received `gap` samples after the one before (R39–R42): it is stamped, the frame that ended is judged,
words align to it, and the first one after training brings the link up. -/
def State.linkMarker (s : State) (n sub gap : Nat) (eyes : List (Option (Fin 64))) : State :=
  if !s.linkLive n then s
  else
    let s := s.linkTrain n eyes
    let t := s.now sub
    let s := s.set (SLK_FMT_SH_FRAC n) (tvFrac t)
    let s := s.set (SLK_FMT_SH_SECH n) (tvSec t / 2 ^ 32)
    let s := s.set (SLK_FMT_SL_SECL n) (tvSec t)
    let s := s.set (SLK_FMT_NS_NS n) (tvNs t)
    let l := s.link n
    let s := if 16 < l.badWords then s else s.linkClear n 4
    let s := if l.ovfSeen then s else s.linkClear n 5
    let s := s.linkClear n 8
    let s := if !l.marked then s else if gap = 204600 then s.linkClear n 3 else s.linkFault n 3
    let s := s.linkFrame n
    let s := s.setLink n { s.link n with aligned := true, marked := true, words := 0, badWords := 0, ovfSeen := false }
    if s.on (SLK_STAT_TRAIN n) && (s.link n).trained then
      ((s.set (SLK_STAT_TRAIN n) 0).set (SLK_STAT_UP n) 1).linkClear n 0
    else s

/-- A failed control word, counted; the 17th of a frame is the fault (R40, R42). -/
def State.linkBadWord (s : State) (n : Nat) : State :=
  let k := (s.link n).badWords + 1
  let s := (s.setLink n { s.link n with badWords := k }).incSat (SLK_CTRLERR_COUNT n)
  if 16 < k then s.linkFault n 4 else s

/-- A `GAIN` word in EXTERNAL mode: the code is copied as it comes, not clamped (DESIGN CHOICE, log entry 15); gain codes
hold in BRACE (R45, R51). -/
def State.linkGain (s : State) (n g : Nat) : State :=
  if (s.link n).cfg.agcm = 1 ∧ !s.on SUP_STAT_BRACE then s.set (SLK_AGC_GAIN n) g else s

/-- A control word (R40, R42, R45): ignored and counted when its check fails or its type is reserved, then also with `OVF`
set (DESIGN CHOICE: log 14). -/
def State.linkWord (s : State) (n w : Nat) : State :=
  let l := s.link n
  if !s.linkLive n ∨ !l.aligned then s
  else
    let s := s.setLink n { l with words := l.words + 1 }
    if crc8 (beBytes 2 (w / 256)) ≠ w % 256 then s.linkBadWord n
    else if 4 ≤ bits w 22 20 then s.incSat (SLK_CTRLERR_COUNT n)
    else
      let s := if bit w 23 then ((s.setLink n { s.link n with ovfSeen := true }).snapMark n SNP_HSTAT_OVF).linkFault n 5 else s
      match bits w 22 20 with
      | 1 => s.linkGain n (bits w 15 8)
      | 2 => if bit w 9 then s.linkFault n 8 else s
      | _ => s

/-- No clock edge for 1 µs (R42). -/
def State.linkClk (s : State) (n : Nat) : State :=
  if s.linkLive n then (s.linkFault n 0).set (SLK_STAT_UP n) 0 else s

/-- The clock returns: the link is brought up again by R41 (R42). -/
def State.linkClkReturn (s : State) (n : Nat) (eyes : List (Option (Fin 64))) : State :=
  if s.linkLive n ∧ bit (s.get (SLK_STAT_FAULTS n)) 0 then (s.linkStart n).linkTrain n eyes else s

/-- No marker for 1.1 ms: word alignment restarts at the next marker (R42). -/
def State.linkMark (s : State) (n : Nat) : State :=
  if s.linkLive n then (s.linkFault n 3).setLink n { (s.linkFault n 3).link n with aligned := false } else s

/-- The data lanes a code uses (R37). -/
def laneUsed (code lane : Nat) : Bool :=
  match code with
  | 0 => decide (2 ≤ lane)
  | 1 => decide (1 ≤ lane)
  | _ => true

/-- A used lane without a transition for 1 ms (R42). -/
def State.linkStuck (s : State) (n lane : Nat) : State :=
  if s.linkLive n ∧ laneUsed (s.link n).cfg.code lane then
    let s := s.linkFault n 6
    s.setLink n { s.link n with stuck := (s.link n).stuck ||| 2 ^ lane }
  else s

/-- A stuck lane toggles (R42). -/
def State.linkToggle (s : State) (n lane : Nat) : State :=
  let l := s.link n
  let k := (l.stuck ||| 2 ^ lane) ^^^ 2 ^ lane
  let s := s.setLink n { l with stuck := k }
  if l.stuck ≠ 0 ∧ k = 0 then s.linkClear n 6 else s

/-- The receive queue left its bounds: the slipped samples are substituted and the queue is re-centred (R42). -/
def State.linkSlip (s : State) (n k : Nat) : State :=
  if s.linkLive n then (s.linkFault n 2).incSat (SLK_SUBCNT_COUNT n) k else s

/-- The link has been free of faults for 1 s: one umber entry for the episode (R44). Its duration runs to the end of the
last fault: the second without faults that closes the episode is left out (DESIGN CHOICE, log entry 14). -/
def State.linkEpisodeEnd (s : State) (n : Nat) : State :=
  let l := s.link n
  if !l.episode ∨ s.get (SLK_STAT_FAULTS n) ≠ 0 ∨ !s.reached l.freeAt 1000000000 then s
  else
    let ms := (l.freeAt - l.epAt) / 1000000
    let s := s.setLink n { l with episode := false, seen := 0 }
    s.note 0x0401 0x0C 2 (n * 2 ^ 77 + l.seen * 2 ^ 68 + min ms (2 ^ 32 - 1))

/-- The gain step of every 16 device epochs in PART mode (R45); gain codes hold in BRACE (R51), while the sums of `UPFR` run on:
the first comparison after it takes the mean of all the epochs since the last one. The reserved mode holds the code as OFF does
(DESIGN CHOICE, log entry 15). -/
def State.linkAgc (s : State) (n : Nat) : State :=
  let l := s.link n
  if l.cfg.agcm ≠ 2 ∨ l.upfrN < 16 ∨ s.on SUP_STAT_BRACE then s
  else
    let s := s.setLink n { l with upfrSum := 0, upfrN := 0 }
    let tgt := s.get (SLK_AGC_TGT n)
    let g := s.get (SLK_AGC_GAIN n)
    let g' : Int :=
      if l.upfrN * (tgt + 4) < l.upfrSum then (g : Int) - 1
      else if (l.upfrSum : Int) < l.upfrN * ((tgt : Int) - 4) then g + 1
      else g
    s.set (SLK_AGC_GAIN n) (clampI (s.get (SLK_AGC_GMIN n)) (s.get (SLK_AGC_GMAX n)) g').toNat

/-- `BASE` written: valid at once (R47). -/
def State.linkBase (s : State) (n : Nat) : State :=
  let s := s.set (SLK_GBASE_VALID n) 1
  s.setLink n { s.link n with gacc := s.get (SLK_GBASE_BASE n) * 2 ^ 22 }

/-- 10 min of learning (R47). -/
def State.linkLearned (s : State) (n : Nat) : State :=
  if 600000 ≤ (s.link n).learnMs then s.set (SLK_GBASE_VALID n) 1 else s

/-- `GDEV` and `PULSE` evaluated (R46); `GDEV` also under the reserved gain mode (DESIGN CHOICE, log entry 15). -/
def State.linkInterference (s : State) (n : Nat) : State :=
  let c := (s.link n).cfg
  let dif := ((s.get (SLK_AGC_GAIN n) * 256 : Nat) - (s.get (SLK_GBASE_BASE n) : Int)).natAbs
  let gdev := s.on (SLK_GBASE_VALID n) && c.agcm != 0 &&
    decide (s.get (SLK_IFD_GDEV n) * 1024 < dif * s.get (SLK_IFD_DBPS n))
  let pulse := c.code != 0 && decide (s.get (SLK_IFD_PULSE n) < s.get (SLK_MEAS_FSFR n))
  let s := (s.setB (SLK_STAT_GDEV n) gdev).setB (SLK_STAT_PULSE n) pulse
  let s := if gdev then s.set (SLK_FAULT_GDEV n) 1 else s
  if pulse then s.set (SLK_FAULT_PULSE n) 1 else s

/-- The span of the epoch that ended added to the interference history, of which 60 s are kept (R201). -/
def State.linkIfer (s : State) (n : Nat) : State :=
  if s.on (SLK_STAT_GDEV n) || s.on (SLK_STAT_PULSE n) then
    let u := s.tim.up
    let old := (tblGet s.itg.ifer [] n).filter fun e => decide (u ≤ e.2 + 60000000000)
    let new := match old with
      | (a, b) :: r => if b + 1000000 = u then (a, u) :: r else (u - 1000000, u) :: (a, b) :: r
      | [] => [(u - 1000000, u)]
    { s with itg := { s.itg with ifer := tblSet s.itg.ifer n new } }
  else s

/-- A link at a device epoch (R42, R44–R47): its statistics are latched, its clock count judged, substituted samples
counted, the gain and baseline followed and interference evaluated. The baseline is learnt only while the link is up: R47
names the integrity state alone (DESIGN CHOICE, log entry 15). -/
def State.linkEpoch (s : State) (n : Nat) (o : LinkObs) : State :=
  let s := s.linkIfer n
  if !s.linkLive n then s
  else
    let s := s.set (SLK_MEAS_UPFR n) o.upfr.toNat
    let s := s.set (SLK_MEAS_FSFR n) o.fsfr.toNat
    let s := s.set (SLK_MEAS_DCI n) o.dci.toNat
    let s := s.set (SLK_MEAS_DCQ n) o.dcq.toNat
    let ok := decide (204599 ≤ o.clocks) && decide (o.clocks ≤ 204601)
    let l := s.link n
    let s := s.setLink n { l with
      rateOk := if ok then l.rateOk + 1 else 0,
      upfrSum := if l.cfg.agcm = 2 then l.upfrSum + o.upfr.toNat else 0,
      upfrN := if l.cfg.agcm = 2 then l.upfrN + 1 else 0 }
    let s := if !ok then s.linkFault n 1 else if 9 ≤ l.rateOk then s.linkClear n 1 else s
    let f := s.get (SLK_STAT_FAULTS n)
    let s := if bit f 0 || bit f 1 || bit f 7 then s.incSat (SLK_SUBCNT_COUNT n) 204600 else s
    let s := s.linkClear n 2
    let s : State :=
      if s.code = 4 ∧ s.on (SLK_STAT_UP n) then
        let l := s.link n
        let a := l.gacc + s.get (SLK_AGC_GAIN n) * 256 - l.gacc / 2 ^ 22
        (s.setLink n { l with gacc := a, learnMs := l.learnMs + 1 }).set (SLK_GBASE_BASE n) (a / 2 ^ 22)
      else s
    s.linkInterference n

/-! ### Front-end buses (R48–R51) -/

/-- Bits of a frame (R49); the reserved length acts as 24. -/
def State.fecLen (s : State) (b : Nat) : Nat :=
  match s.get (FEC_CFG_FLEN b) with
  | 0 => 8
  | 1 => 16
  | _ => 24

/-- A frame leaves the bus: chip select in bit 24, frame bits below. -/
def State.fecSend (s : State) (b cs frame : Nat) : State :=
  s.emit (.fec b (cs * 2 ^ 24 + frame % 2 ^ s.fecLen b))

/-- The gain write of link `2b + k` from its template, when the code changed (R45, R48). What the front-end sends back
meanwhile is not taken to `FEC_RDATA` (DESIGN CHOICE: log 15). -/
def State.fecGain (s : State) (b k : Nat) : State :=
  let n := 2 * b + k
  let pick (f0 f1 : Nat → Field) : Nat := s.get ((if k = 0 then f0 else f1) b)
  let g := s.get (SLK_AGC_GAIN n)
  let l := s.link n
  if pick FEC_AGCT0_EN FEC_AGCT1_EN = 0 ∨ l.gainSent = g then s
  else
    let code := if pick FEC_AGCT0_GINV FEC_AGCT1_GINV = 1 then 255 - g else g
    let pos := pick FEC_AGCT0_GPOS FEC_AGCT1_GPOS
    let t := pick FEC_AGCT0_TEMPLATE FEC_AGCT1_TEMPLATE
    let m := 255 * 2 ^ pos
    let frame := ((t ||| m) ^^^ m) ||| code * 2 ^ pos
    ((s.setLink n { l with gainSent := g }).fecMarks n).fecSend b (pick FEC_AGCT0_CS FEC_AGCT1_CS) frame

/-- The table lies in navigation core SRAM (ch. 2, `FEC_TBASE`). -/
def State.fecTableOk (s : State) (b : Nat) : Bool :=
  let a := s.get (FEC_TBASE_ADDR b) * 4
  decide (0x80000000 ≤ a) && decide (a < 0x80400000)

/-- A sequence starts at an entry, or `OPERR` is set and it does not run. -/
def State.fecStart (s : State) (b : Nat) (k : FecKind) (entry : Nat) : State :=
  if s.fecTableOk b then
    ((s.setFec b { s.fec b with running := some k, waiting := false }).set (FEC_SEQ_BUSY b) 1).set (FEC_SEQ_PC b) entry
  else s.set (FEC_STAT_OPERR b) 1

/-- A bus sends: it is enabled, no BRACE stands (R51), and more than the minimum service set works (R29, R30). -/
def State.fecOn (s : State) (b : Nat) : Bool := s.on (FEC_CFG_EN b) && !s.on SUP_STAT_BRACE && s.serves

/-- The epoch slot of a bus (R48, R51): gain writes, then the pending sequence of highest priority when none runs. A
sequence that ends within a slot leaves the pending one to the next slot (DESIGN CHOICE, log entry 15). -/
def State.fecSlot (s : State) (b : Nat) : State :=
  if !s.fecOn b then s
  else
    let s := (s.fecGain b 0).fecGain b 1
    let f := s.fec b
    if f.running.isSome ∨ f.hold then s
    else if f.pendWake then (s.setFec b { f with pendWake := false }).fecStart b .wake (s.get (FEC_PWR_WAKE b))
    else if f.pendSlp then (s.setFec b { f with pendSlp := false }).fecStart b .sleep (s.get (FEC_PWR_SLEEP b))
    else
      match f.pendGo with
      | some e => (s.setFec b { f with pendGo := none }).fecStart b .go e
      | none =>
        if f.pendCal then (s.setFec b { f with pendCal := false }).fecStart b .cal (s.get (FEC_CAL_START b)) else s

/-- `FEC_SEQ.GO` (R48): ignored with `OPERR` while a sequence runs; the `START` written beside it is stored. While one waits,
a further `GO` replaces it (DESIGN CHOICE, log entry 15). -/
def State.fecGo (s : State) (b w : Nat) : State :=
  if !bit w 31 then s
  else if s.on (FEC_SEQ_BUSY b) then s.set (FEC_STAT_OPERR b) 1
  else s.setFec b { s.fec b with pendGo := some (s.get (FEC_SEQ_START b)) }

/-- The calibration period expires (R48). -/
def State.fecCal (s : State) (b : Nat) : State :=
  if s.on (FEC_CAL_EN b) then s.setFec b { s.fec b with pendCal := true } else s

/-- A sequence stops with `CHKFAIL` or `OPERR` and one umber entry (R49). -/
def State.fecFail (s : State) (b : Nat) (chk : Bool) : State :=
  let pc := s.get (FEC_SEQ_PC b)
  let s := s.set (FEC_STAT_FAILPC b) pc
  let s := if chk then s.set (FEC_STAT_CHKFAIL b) 1 else s.set (FEC_STAT_OPERR b) 1
  let s := (s.setFec b { s.fec b with running := none, waiting := false }).set (FEC_SEQ_BUSY b) 0
  s.note 0x0402 0x0C 2 (b * 2 ^ 78 + b2n chk * 2 ^ 77 + b2n (!chk) * 2 ^ 76 + pc)

/-- A table entry as the bus reads it; a double-bit error gives none. -/
def State.fecEntry (s : State) (b pc : Nat) : State × Option Nat :=
  s.memRead .nav (s.get (FEC_TBASE_ADDR b) * 4 + pc % 1024 * 4) 4

/-- The entry at `PC` runs when it is the operation named (R48, R49): after 900 µs it waits for the next slot. A
reserved operation, or an entry that cannot be read, stops the sequence. -/
def State.fecStep (s : State) (b us op : Nat) (act : Nat → State → State) : State :=
  let f := s.fec b
  if f.running.isNone ∨ f.waiting ∨ f.hold ∨ !s.fecOn b then s
  else if 900 < us then s.set (FEC_STAT_DEFER b) 1
  else
    match s.fecEntry b (s.get (FEC_SEQ_PC b)) with
    | (s, none) => s.fecFail b false
    | (s, some w) => if 4 ≤ bits w 31 29 then s.fecFail b false else if bits w 31 29 = op then act w s else s

/-- The program counter of a sequence moves on. -/
def State.fecNext (s : State) (b k : Nat) : State := s.inc (FEC_SEQ_PC b) k

/-- The frame of an entry is sent and the received frame held; a calibration write marks its link (R48): chip select `k`
of bus `b` is taken as link `2b + k`, as the gain templates of R48 name the links (DESIGN CHOICE, log entry 15). -/
def State.fecFrame (s : State) (b w rx : Nat) : State :=
  let cs := bits w 28 28
  let s := (s.fecSend b cs (bits w 23 0)).set (FEC_RDATA_DATA b) (rx % 2 ^ s.fecLen b)
  if (s.fec b).running = some .cal then
    s.fecMarks (2 * b + cs)
  else s

/-- `WRITE` (R49). -/
def fecActWrite (b rx w : Nat) (s : State) : State := (s.fecFrame b w rx).fecNext b 1

/-- `CHECK` (R49): the received frame against the next entry. -/
def fecActCheck (b rx w : Nat) (s : State) : State :=
  let s := s.fecFrame b w rx
  match s.fecEntry b (s.get (FEC_SEQ_PC b) + 1) with
  | (s, none) => s.fecFail b false
  | (s, some e) =>
    let m := bits e 31 16
    if (s.get (FEC_RDATA_DATA b) &&& m) = (bits e 15 0 &&& m) then s.fecNext b 2 else s.fecFail b true

/-- `WAIT` begins (R49): for [23:0] µs, from `us` after the epoch boundary. -/
def fecActWait (b us w : Nat) (s : State) : State :=
  s.setFec b { s.fec b with waiting := true, waitTill := s.tim.up + (us + bits w 23 0) * 1000 }

/-- A wait ends when its time is over (R49). -/
def State.fecWaitEnd (s : State) (b : Nat) : State :=
  let f := s.fec b
  if f.waiting && s.reached f.waitTill 0 then (s.setFec b { f with waiting := false }).fecNext b 1 else s

/-- `END` (R49). -/
def fecActEnd (b : Nat) (_ : Nat) (s : State) : State :=
  (s.setFec b { s.fec b with running := none }).set (FEC_SEQ_BUSY b) 0

/-- The wake sequences of a burst become pending (R50). -/
def State.fecWake (s : State) : State :=
  s.each 4 fun b s => if s.on (FEC_PWR_EN b) then s.setFec b { s.fec b with pendWake := true, pendSlp := false } else s

/-- `FEC_PWR` written: the bus's links are ASLEEP between bursts while `EN` is set, and come up by R41 when it is cleared
(R50). -/
def State.fecPwr (s : State) (b : Nat) : State :=
  (List.range 2).foldl (fun s k =>
    let n := 2 * b + k
    if s.fecAsleep b then (if s.linkLive n then (s.linkStop n).set (SLK_STAT_ASLEEP n) 1 else s)
    else if s.on (SLK_STAT_ASLEEP n) && s.on (SLK_CFG_EN n) then s.linkStart n
    else s) s

/-- The links of buses that sleep between bursts come up by R41 (R50). -/
def State.linksWake (s : State) : State :=
  s.each 8 fun n s => if s.on (SLK_STAT_ASLEEP n) && s.on (SLK_CFG_EN n) then s.linkStart n else s

/-- The burst ends: the sleep sequences become pending, and the links of their buses are ASLEEP (R50), also where BRACE or a
soft start ends the burst and holds the sequences (DESIGN CHOICE, log entry 15). -/
def State.fecSleep (s : State) : State :=
  let s := s.each 4 fun b s => if s.on (FEC_PWR_EN b) then s.setFec b { s.fec b with pendSlp := true } else s
  s.each 8 fun n s =>
    if s.on (FEC_PWR_EN (n / 2)) && s.linkLive n then (s.linkStop n).set (SLK_STAT_ASLEEP n) 1 else s

end Sys2Proof.Machine
end

