-- ==== Sys2Proof/Machine/ItgBlock.lean ====
section
/-! DEFINITION. The integrity state (ch. 8): evidence and its verdicts, the woad check, transitions, latches, fix
bursts and their interval. Verdicts are 0 NONE, 1 PASS, 2 WARN, 3 FAIL. -/

namespace Sys2Proof.Machine

/-! ### The burst interval (R215, R216) -/

/-- `IMIN` in force, s. -/
def State.imin (s : State) : Nat := min (max (s.get ITG_BURST_IMIN) 10) 3600
/-- `IMAX` in force: from `IMIN` to 3,600 s. -/
def State.imax (s : State) : Nat := min (max (s.get ITG_BURST_IMAX) s.imin) 3600
/-- `BLEN` in force, s. -/
def State.blen (s : State) : Nat := max 1 (s.get ITG_BURST2_BLEN)

/-- Continuous tracking: no interval runs (R215). -/
def State.continuous (s : State) : Bool := s.get ITG_INTV_INTV == 0

/-- A write of the set is asked for; a request during a write is merged into one further write (R194). -/
def State.mordantAsk (s : State) : State :=
  { s with mordant :=
      if s.mordant.busy.isSome then { s.mordant with again := true } else { s.mordant with req := true } }

/-- The burst under way is over, with nothing offered (R186). -/
def State.burstDrop (s : State) : State :=
  { s with itg := { s.itg with burst := {} }, nav := { s.nav with fixes := [] } }

/-- Continuous tracking and bursts exchanged as the state and `CONT` require (R215); the counts of R201's drift condition
start afresh. A burst cut short ends with a write of the mordant set (R194), and its channels run on (R109; DEDUCED: log
58); at the end of continuous tracking every channel ends. -/
def State.itgMode (s : State) : State :=
  let cont := decide (s.code ≤ 1) || s.on ITG_BURST_CONT
  let s := if cont = s.continuous then s else { s with itg := { s.itg with driftN := 0, driftAt := none } }
  if cont then
    if s.continuous then s
    else
      let s := (if s.itg.burst.active then s.mordantAsk else s.fecWake).linksWake.burstDrop
      let s := { s with itg := { s.itg with contAt := s.tim.up } }
      (s.set ITG_INTV_INTV 0).custWake 0
  else if s.continuous then ((s.chansEnd.set ITG_INTV_INTV s.imin).custWake s.imin).fecSleep
  else s

/-! ### Changes of state (R198, R204–R207) -/

/-- Two codes of one state: HOLDOVER has 0x3 and 0x2. -/
def sameState (a b : Nat) : Bool := a == b || ((a == 3 || a == 2) && (b == 3 || b == 2))

/-- HOLDOVER's code: 0x2 before the step, else by `TERR` against `ITG_HBND` (R198, R204). -/
def State.holdCode (s : State) : Nat :=
  if s.get TIM_STAT_STATE = 2 ∧ s.terrNow ≤ s.hBound then 3 else 2

/-- `ITG_VERD` [19:0]. -/
def State.verdWord (s : State) : Nat :=
  s.get ITG_VERD_XCHK * 2 ^ 18 + s.get ITG_VERD_NAVD * 2 ^ 16 + s.get ITG_VERD_IFER * 2 ^ 14 +
    s.get ITG_VERD_LEVEL * 2 ^ 12 + s.get ITG_VERD_POS * 2 ^ 10 + s.get ITG_VERD_RELOC * 2 ^ 8 +
    s.get ITG_VERD_OSC * 2 ^ 6 + s.get ITG_VERD_OSNMA * 2 ^ 4 + s.get ITG_VERD_RESID * 2 ^ 2 + s.get ITG_VERD_WOAD

/-- The step asked for at the first entry to TRUSTED after a cold start (R222). -/
def State.askStep (s : State) : State :=
  if s.get TIM_STAT_STATE = 2 ∨ s.tim.stepAsked then s
  else
    let s := s.setI2 TIM_STEP_L_DELTA TIM_STEP_H_DELTA s.nav.delta
    let s := s.set TIM_FIX_T_EPOCH (s.nav.solAt.getD s.epochCount)
    (s.set TIM_FIX_S_SIGMA (satN 32 s.nav.sigma)).timStepGo (2 ^ 31)

/-- What a change between states does beside the code: `PREV`, `CHG`, the interrupt, the entry, the counts of R204,
the source of time, the step, the burst mode (R204, R206, R215, R222). -/
def State.itgChange (s : State) (old code : Nat) : State :=
  let s := (s.set ITG_STATE_PREV old).incSat ITG_STATE_CHG
  let s := s.set ITG_IRQ_CHG 1
  let s := s.note 0x0301 0x03 (if code = 0 then 3 else 1) (old * 2 ^ 76 + code * 2 ^ 72 + s.verdWord * 2 ^ 52)
  let i := s.itg
  let s := { s with itg := { i with entered := s.tim.t, enteredUp := s.tim.up,
                                    recovN := if code = 0 then 0 else i.recovN,
                                    cleanN := if code = 1 then 0 else i.cleanN } }
  let s := if (code = 3 ∨ code = 2) ∧ s.get TIM_STAT_STATE = 2 then s.set TIM_STAT_SRC 4 else s
  let s := if code = 4 then s.askStep else s
  s.itgMode

/-- The code in force before the changes of the present clock (R207). -/
def State.codeBefore (s : State) : Nat := if s.itg.chgUp = s.tim.up then s.itg.chgFrom else s.code

/-- A code takes effect (R198, R199, R204, R206, R212): windows follow it, a fall of trust asks for a snapshot
(R337), and a change between 0x3 and 0x2 does nothing more. The minimum service set holds UNTRUSTED (R29). -/
def State.itgEnter (s : State) (code : Nat) : State :=
  let old := s.code
  if old = code ∨ (s.itg.minSet ∧ code ≠ 0) then s
  else
    let s := { s with itg := { s.itg with chgUp := s.tim.up, chgFrom := s.codeBefore } }
    let s := s.set ITG_STATE_STATE code
    let fall := decide (3 ≤ old) && decide (code ≤ 2)
    let s := if sameState old code then s else s.itgChange old code
    let s := if fall then { s with umb := { s.umb with snapDue := true } } else s
    (s.winFall fall code).lateOpen

/-- `RELOC` is kept in the custody store; no record write starts during BRACE (R205, R345). -/
def State.relocStore (s : State) : State :=
  if s.on SUP_STAT_BRACE then { s with itg := { s.itg with relocSet := true } }
  else ({ s with itg := { s.itg with relocSet := false } }).cusStore { s.cus.rec_ with reloc := true }

/-- A latch sets (R205, R206): one entry and the interrupt, and the state is UNTRUSTED. `RELOC` is kept in the custody
store. -/
def State.itgLatch (s : State) (f : Field) : State :=
  if s.on f then s
  else
    let s := (s.set f 1).set ITG_IRQ_LATCH 1
    let l := s.get ITG_LATCH_STEPERR * 4 + s.get ITG_LATCH_WOAD * 2 + s.get ITG_LATCH_RELOC
    let s := s.note 0x0302 0x03 3 (l * 2 ^ 77 + 2 ^ 76)
    let s := if f = ITG_LATCH_RELOC then s.relocStore else s
    s.itgEnter 0

/-- A latch clears, by the owner or by the part itself (R205, R206). -/
def State.itgUnlatch (s : State) (f : Field) (own : Bool) : State :=
  if !s.on f then s
  else
    let s := s.set f 0
    let l := s.get ITG_LATCH_STEPERR * 4 + s.get ITG_LATCH_WOAD * 2 + s.get ITG_LATCH_RELOC
    let s := s.note 0x0302 0x03 1 (l * 2 ^ 77 + b2n own * 2 ^ 75)
    if f = ITG_LATCH_RELOC then s.cusStore { s.cus.rec_ with reloc := false }
    else if f = ITG_LATCH_WOAD then { s with itg := { s.itg with woadFail := none, woadPass := false } }
    else s

/-- The owner's clear of latches by a write of `ITG_LATCH` (R205): 1 clears. `RELOC` clears when its record is written,
which BRACE holds off (R345). -/
def State.itgLatchWrite (s : State) (w : Nat) : State :=
  let s := if bit w 1 then s.itgUnlatch ITG_LATCH_WOAD false else s
  if !bit w 0 then s
  else if s.on SUP_STAT_BRACE then { s with itg := { s.itg with relocClr := s.on ITG_LATCH_RELOC } }
  else s.itgUnlatch ITG_LATCH_RELOC false

/-- A latch is set. -/
def State.latched (s : State) : Bool := s.on ITG_LATCH_STEPERR || s.on ITG_LATCH_WOAD || s.on ITG_LATCH_RELOC

/-- 30 min have passed since the last woad FAIL (R205). -/
def State.woadQuiet (s : State) : Bool :=
  match s.itg.woadFail with
  | some a => s.reached a (1800 * 10 ^ 9)
  | none => true

/-- The part itself clears `WOAD` after 30 min without a woad FAIL that include a woad PASS (R205). -/
def State.woadExpiry (s : State) : State :=
  if s.itg.woadPass && s.woadQuiet then s.itgUnlatch ITG_LATCH_WOAD true else s

/-- The integrity block's own change of code (R207). -/
def State.itgBlock (s : State) (code : Nat) : State :=
  if code = s.code then s else ({ s with itg := { s.itg with blk := some (s.tim.up, code) } }).itgEnter code

/-- The custody core's change to a code at a fix: against a change of the integrity block in the same clock the lower code
stands, but a clean fix stands against `TERR` crossing `ITG_TRBND`, by which TRUSTED became HOLDOVER (R207). -/
def State.itgFix (s : State) (code : Nat) : State :=
  match s.itg.blk with
  | some (a, k) => if a = s.tim.up ∧ k < code ∧ (s.codeBefore ≠ 4 ∨ k < 2) then s.itgEnter k else s.itgEnter code
  | none => s.itgEnter code

/-- HOLDOVER's code 0x3 or 0x2 was in force before the changes of this clock. -/
def State.wasHoldover (s : State) : Bool := s.codeBefore == 3 || s.codeBefore == 2

/-- The correction added since a fix's stamp, in ps (R224). -/
def State.sinceStamp (s : State) : Int :=
  u48ToPs (s.corrNow - corrAt s.tim.hist (s.nav.solAt.getD s.epochCount))

/-- `TERR` as the fix will set it is within `ITG_TRBND` (R204); before the step the condition reads as met. -/
def State.terrAfter (s : State) : Bool :=
  if s.get TIM_STAT_STATE ≠ 2 then true
  else
    let d := (s.nav.delta + s.sinceStamp).natAbs
    decide (d ≤ 1000000000) && decide (d + s.get TIM_HM_EF_EF + 3 * s.nav.sigma ≤ s.trBound * 1000)

/-- A clean fix of this clock after which `TERR` is within `ITG_TRBND` (R207). -/
def State.cleanNow (s : State) : Bool := decide (s.itg.cleanAt = s.tim.up) && s.terrAfter

/-- The integrity block's transitions that follow from `TERR` (R204), once the time core is STEPPED. In one clock with a
change by the custody core the lower code stands; against `ITG_TRBND` a clean fix stands, `TERR` being taken after it (R207;
log 56). -/
def State.itgTerr (s : State) : State :=
  if s.get TIM_STAT_STATE ≠ 2 then s
  else
    let t := s.terrNow
    let c := s.code
    if 1000000 < t then s.itgBlock 0
    else if 1 < c ∧ s.wasHoldover ∧ s.dgBound < t then s.itgBlock 1
    else if c = 4 ∧ s.codeBefore = 3 ∧ s.hBound < t then s.itgBlock 2
    else if c = 4 then (if s.trBound < t ∧ !s.cleanNow then s.itgBlock s.holdCode else s)
    else if c = 3 ∨ c = 2 then (if s.dgBound < t then s.itgBlock 1 else s.itgBlock s.holdCode)
    else s

/-- TRUSTED becomes HOLDOVER (R199, R204): a missed burst, no fix for `HOLDIN`, a soft start. -/
def State.itgHoldover (s : State) : State := if s.code = 4 then s.itgEnter s.holdCode else s

/-- `HOLDMAX` in force, h: within 1 to 720. -/
def State.holdMax (s : State) : Nat := min (max (s.get ITG_HOLD_HOLDMAX) 1) 720

/-- `HOLDIN` in force, s. -/
def State.holdIn (s : State) : Nat := max 1 (s.get ITG_HOLD_HOLDIN)

/-- The instant from which the holdover age counted before the changes of this clock: the last clean fix (R204). -/
def State.agedFrom (s : State) : Nat := if s.itg.cleanAt = s.tim.up then s.itg.cleanOld else s.itg.cleanAt

/-- The holdover age passes `HOLDMAX` (R204); a clean fix of the same clock does not outweigh it (R207). -/
def State.itgAge (s : State) : State :=
  if 1 < s.code ∧ (s.wasHoldover ∨ s.code ≠ 4) ∧ s.reached s.agedFrom (s.holdMax * 3600 * 10 ^ 9) then s.itgBlock 1 else s

/-- Continuous tracking goes on without a fix for `HOLDIN` (R204): TRUSTED becomes HOLDOVER. -/
def State.itgNoFix (s : State) : State :=
  if s.continuous ∧ s.reached (max s.itg.fixAt s.itg.contAt) (s.holdIn * 10 ^ 9) then s.itgHoldover else s

/-- Only the minimum service set works: UNTRUSTED is held (R29, R204). -/
def State.itgMinimum (s : State) : State :=
  ({ s with itg := { s.itg with minSet := true } }).itgEnter 0

/-! ### Evidence and verdicts (R200–R203) -/

/-- The evidence record. -/
structure Evid where
  /-- TV64 device time of the epoch -/
  time : Nat
  nsat : Nat
  dof  : Nat
  excl : Nat
  flags : Nat
  chi2 : Nat
  delta : Int
  drift : Int
  sigma : Nat
  osok : Nat
  osfail : Nat
  cnspread : Nat
  elspan : Nat
  /-- N, G, C, R, M, BAND, AZS of each pair entry -/
  woad : List (List Nat)
  seq : Nat
  deriving DecidableEq, Repr

/-- The fields of the record's octets (R200). -/
def evidParse (bs : List Byte) : Evid :=
  let n := fun o k => leNat (sliceN bs o k)
  { time := n 0 8, nsat := n 8 1, dof := n 9 1, excl := n 0xA 1, flags := n 0xB 1, chi2 := n 0xC 4, delta := sgn 32 (n 0x10 4),
    drift := sgn 32 (n 0x14 4), sigma := n 0x18 4, osok := n 0x1C 1, osfail := n 0x1D 1, cnspread := n 0x1E 1,
    elspan := n 0x1F 1,
    woad := (List.range 3).map fun p => ((List.range 6).map fun k => n (0x20 + 6 * p + k) 1) ++ [n (0x32 + p) 1],
    seq := n 0x3C 4 }

/-- The record read from navigation core SRAM; none on a double-bit error. -/
def State.evidRead (s : State) : State × Option Evid :=
  let (s, ws, ok) := s.memReadWords .nav 0x80000500 16
  (s, if ok then some (evidParse (ws.flatMap fun w => leBytes 4 w)) else none)

/-- The residual verdict (R201, R202). -/
def Evid.resid (e : Evid) : Nat :=
  let l := chi2Limits e.dof
  if l.2 < e.chi2 then 3 else if l.1 < e.chi2 ∨ 1 ≤ e.excl then 2 else 1

/-- The OSNMA verdict (R201). -/
def Evid.osnma (e : Evid) (off notime : Bool) : Nat :=
  if 2 ≤ e.osfail then 3 else if e.osfail = 1 then 2 else if off || notime || decide (e.osok < 4) then 0 else 1

/-- The drift condition's counts (R201): three consecutive bursts, or 10 min of continuous tracking. -/
def State.driftStep (s : State) (off : Bool) : State × Bool :=
  let i := s.itg
  if s.itg.burst.active then
    let n := if off then (if i.burst.warned then i.driftN else i.driftN + 1) else i.driftN
    ({ s with itg := { i with driftN := n, driftAt := none, burst := { i.burst with warned := i.burst.warned || off } } },
      decide (3 ≤ n) && (off || i.burst.warned))
  else
    match off, i.driftAt with
    | false, _ => ({ s with itg := { i with driftAt := none, driftN := 0 } }, false)
    | true, none => ({ s with itg := { i with driftAt := some s.tim.up, driftN := 0 } }, false)
    | true, some a => ({ s with itg := { i with driftN := 0 } }, decide (a + 600000000000 ≤ s.tim.up))

/-- The oscillator verdict (R201): NONE before the step; δpred and `TERR` are those of the record's epoch; bounds in ps. -/
def State.osc (s : State) (e : Evid) (drift : Bool) : Nat :=
  if s.get TIM_STAT_STATE ≠ 2 then 0
  else
    let p : Int × Nat := match s.nav.solAt with
      | some a => (s.dpredAt a, s.tim.up - (s.epochCount - a) * 1000000)
      | none => (s.dpred, s.tim.up)
    let err := (e.delta - p.1).natAbs
    let t := s.terrFor p.1 p.2 * 1000
    if 4 * t + 50000 < err then 3 else if t + 20000 < err ∨ drift then 2 else 1

/-- The relocation verdict (R201). -/
def Evid.reloc (e : Evid) (posv turned : Bool) : Nat :=
  let known := bit e.flags 2
  let moving := bit e.flags 0
  let disp := bit e.flags 1
  if known && (moving || (disp && posv)) then 3
  else if (known && disp && !posv) || turned then 2
  else if !known then 0 else 1

/-- The position verdict (R201). -/
def Evid.posn (e : Evid) : Nat :=
  match bits e.flags 6 5 with
  | 0 => 0
  | 1 => 1
  | _ => 2

/-- The level verdict (R201). -/
def Evid.level (e : Evid) : Nat :=
  if 6 ≤ e.nsat ∧ 40 ≤ e.elspan ∧ e.cnspread ≤ 20 then 2 else if e.nsat < 6 then 0 else 1

/-- Nanoseconds of the last 60 s in which a link showed interference (R201). -/
def State.iferNs (s : State) (n : Nat) : Nat :=
  let lo := s.tim.up - 60000000000
  (tblGet s.itg.ifer [] n).foldl (fun a e => a + (e.2 - max e.1 lo)) 0

/-- The interference verdict (R201). -/
def State.iferVerdict (s : State) : Nat :=
  if (List.range 8).any fun n =>
      (s.on (SLK_CFG_EN n) && decide (10000000000 < s.iferNs n)) || (s.link n).episode
  then 2 else 1

/-- `TPI` supplies the cross-check (R238, R269, R443): XCHECK, or SOURCE before the step, with `TPILOSS` clear. -/
def State.tpiChecks (s : State) : Bool :=
  (s.get TIM_TPI_CFG_MODE == 1 || (s.get TIM_TPI_CFG_MODE == 2 && s.get TIM_STAT_STATE != 2)) && !s.on TIM_TPI_STAT_TPILOSS

/-- A cross-check source is in use (R443). -/
def State.xSource (s : State) : Bool :=
  s.tpiChecks || (List.range 2).any fun k => s.get (EPT_DOM_CFG_USE k) == 1 && s.on (EPT_DOM_STAT_LOCKED k)

/-- While no source is in use, the note is cleared (R443). -/
def State.xTidy (s : State) : State :=
  if s.xSource || s.itg.xnote.isNone then s else { s with itg := { s.itg with xnote := none } }

/-- `ITG_XDIF` is 0 on the lead (ch. 8). -/
def State.xLead (s : State) : State :=
  if s.on EPT_CLK_TDROLE then s
  else
    let s := s.set ITG_XDIF_NS 0
    { s with itg := { s.itg with xnote := none } }

/-- An update of `ITG_XDIF`, in ns, from a source in use, and the note of the first one beyond the bound (R443); none on the
lead. -/
def State.xdif (s : State) (ns : Int) : State :=
  if !s.on EPT_CLK_TDROLE then s.xLead
  else
  let s := s.setI ITG_XDIF_NS (satI 32 ns)
  let note : Option Nat :=
    if s.get ITG_XCHK_XBND < ns.natAbs then some (s.itg.xnote.getD s.tim.up) else none
  { s with itg := { s.itg with xnote := note } }

/-- The cross-check verdict (R201, R443). -/
def State.xchk (s : State) : Nat :=
  if !s.on EPT_CLK_TDROLE || !s.xSource then 0
  else
    match s.itg.xnote with
    | some a => if a + 10000000000 ≤ s.tim.up then 2 else 1
    | none => 1

/-! ### The woad check (R208–R210, R445) -/

/-- The baseline in force of antenna `n`: configured, else surveyed (R209). -/
def State.baseline (s : State) (n : Nat) : Option (Int × Int × Int) :=
  if s.on (ITG_BL_S_CFG (n - 1)) then
    some (s.getI (ITG_BL_X_MM (n - 1)), s.getI (ITG_BL_Y_MM (n - 1)), s.getI (ITG_BL_Z_MM (n - 1)))
  else if s.on (ITG_BL_S_SURV (n - 1)) then tblFind s.itg.surv n
  else none

/-- A baseline shorter than 0.5 m (R209). -/
def shortBaseline (b : Int × Int × Int) : Bool :=
  decide (b.1 * b.1 + b.2.1 * b.2.1 + b.2.2 * b.2.2 < 250000)

/-- A valid baseline (R209). -/
def State.baselineOk (s : State) (n : Nat) : Bool :=
  match s.baseline n with
  | some b => !shortBaseline b
  | none => false

/-- The baseline of the pair of the lead antenna and another (R208): b(a) − b(lead), where b(0) = 0; none while one of them is
not known. -/
def State.pairBase (s : State) (lead a : Nat) : Option (Int × Int × Int) :=
  let b := fun n => if n = 0 then some (0, 0, 0) else s.baseline n
  match b a, b lead with
  | some p, some q => some (p.1 - q.1, p.2.1 - q.2.1, p.2.2 - q.2.2)
  | _, _ => none

/-- One pair entry judged (R210, R445): the verdict, and the counts of consecutive inconsistent and one-direction
evaluations. -/
def woadJudge (valid busy : Bool) (w : List Nat) (inc one : Nat) : Nat × Nat × Nat :=
  let n := w.getD 0 0
  let g := w.getD 1 0
  let c := w.getD 2 0
  let r := w.getD 3 0
  let m := w.getD 4 0
  let az := w.getD 6 0
  let one' := if busy && decide (250 ≤ c) && decide (6 ≤ n) && decide (90 ≤ az) then one + 1 else 0
  if 3 ≤ one' then (3, 0, one')
  else if !valid ∨ n < 5 ∨ g < 5 then (0, 0, one')
  else
    let inc' := if max 2 (ceilDiv n 4) ≤ m then inc + 1 else 0
    let v := if 242 ≤ c ∧ 75 ≤ r then 3 else if 2 ≤ inc' then 3 else if 1 ≤ m ∨ 40 < r then 2 else 1
    (v, inc', one')

/-- A survey of the pair's baseline runs. -/
def State.pairBusy (s : State) (lead a : Nat) : Bool :=
  [lead, a].any fun n => n != 0 && s.on (ITG_BL_S_BUSY (n - 1))

/-- One band of a pair judged, the antennas other than the lead in order; a FAIL writes an entry (R206). -/
def State.woadBand (s : State) (p : Nat) (w : List Nat) : State × Nat :=
  let n := w.getD 0 0
  let band := w.getD 5 0 % 4
  let k := p * 4 + band
  let lead := s.nav.lead
  let a := if p ≤ lead then p - 1 else p
  let valid := match s.pairBase lead a with
    | some b => !shortBaseline b
    | none => false
  if n = 0 then (s, 0)
  else
    let (v, inc, one) := woadJudge valid (s.pairBusy lead a) w (tblGet s.itg.incN 0 k) (tblGet s.itg.oneN 0 k)
    let s := { s with itg := { s.itg with incN := tblPut s.itg.incN 0 k inc, oneN := tblPut s.itg.oneN 0 k one } }
    if v = 3 then
      (s.note 0x0303 0x03 3 (p * 2 ^ 78 + band * 2 ^ 76 + n * 2 ^ 68 + w.getD 2 0 * 2 ^ 60 + w.getD 3 0 * 2 ^ 50 +
        w.getD 4 0 * 2 ^ 42), v)
    else (s, v)

/-- One pair evaluated: its entry of the record, and the other bands in which the navigation core evaluated it at that fix,
for which the record has no room (R208, R210); the worst decides. -/
def State.woadPair (s : State) (p : Nat) (w : List Nat) : State × Nat :=
  let more := (s.nav.woadEv.getD (p - 1) []).filter fun o => o.getD 5 0 != w.getD 5 0 % 4
  (if w.getD 0 0 = 0 then [] else more).foldl (fun r o =>
    let q := r.1.woadBand p o
    (q.1, max r.2 q.2)) (s.woadBand p w)

/-- Every pair entry of a record, pairs 1 to 3 in order; the list gathers their verdicts. -/
def State.woadAll (s : State) : Nat → List (List Nat) → State × List Nat
  | _, [] => (s, [])
  | p, w :: ws =>
    let (s, v) := s.woadPair p w
    let (s, vs) := s.woadAll (p + 1) ws
    (s, v :: vs)

/-- The woad check is required: `WOADREQ` with a valid baseline (R203). -/
def State.woadNeeded (s : State) : Bool :=
  s.on ITG_CFG_WOADREQ && (s.baselineOk 1 || s.baselineOk 2 || s.baselineOk 3)

/-! ### A fix (R204, R216, R218) -/

/-- The verdicts in the order of `ITG_VERD`, lowest bits first. -/
def verdFields : List Field :=
  [ITG_VERD_WOAD, ITG_VERD_RESID, ITG_VERD_OSNMA, ITG_VERD_OSC, ITG_VERD_RELOC, ITG_VERD_POS, ITG_VERD_LEVEL,
   ITG_VERD_IFER, ITG_VERD_NAVD, ITG_VERD_XCHK]

/-- The verdicts of a record put into `ITG_VERD`; woad FAILs write their entries. -/
def State.verdicts (s : State) (e : Evid) (x : EvidIn) : State :=
  let (s, drift) := s.driftStep (decide (2000 < (e.drift - x.model).natAbs))
  let off := s.navField 0x05 == 0
  let (s, wv) := s.woadAll 1 e.woad
  let s := { s.xTidy with itg := { s.xTidy.itg with
    evalT := s.tim.t,
    woad := (e.woad.zip wv).map fun x => (x.1.getD 0 0, x.1.getD 2 0, x.1.getD 3 0, x.2, x.1.getD 5 0 % 4) } }
  let vs := [wv.foldl max 0, e.resid, e.osnma off s.nav.notime, s.osc e drift, e.reloc s.cus.rec_.posv s.itg.turned, e.posn,
    e.level, s.iferVerdict, if bit e.flags 3 || bit e.flags 4 then 2 else 1, s.xchk]
  (verdFields.zip vs).foldl (fun s x => s.set x.1 x.2) s

/-- A clean fix (R203). -/
def State.clean (s : State) : Bool :=
  verdFields.all (fun f => decide (s.get f ≤ 1)) && s.get ITG_VERD_RESID == 1 &&
    (s.get ITG_VERD_OSC == 1 || s.get TIM_STAT_STATE != 2) && (!s.woadNeeded || s.get ITG_VERD_WOAD == 1) &&
    (!s.on ITG_CFG_OSREQ || s.get ITG_VERD_OSNMA == 1)

/-- A correction written to the servo's registers and released (R218). -/
def State.fixOffer (s : State) (delta : Int) (sigma : Nat) (drift : Int) (stamp : Nat) : State :=
  let s := s.setI TIM_FIX_D_DELTA (clampI (-2147483647) 2147483647 delta)
  let s := s.set TIM_FIX_S_SIGMA (satN 32 sigma)
  let s := s.setI TIM_FIX_DR_DRIFT (satI 32 drift)
  (s.set TIM_FIX_T_EPOCH stamp).timFixGo (2 ^ 31)

/-- The fix released in continuous tracking, or kept for the burst's value (R186, R218). -/
def State.fixRelease (s : State) : State :=
  let stamp := s.nav.solAt.getD s.epochCount
  if s.itg.burst.active then
    { s with nav := { s.nav with fixes := s.nav.fixes ++ [(s.nav.delta, s.nav.sigma, s.nav.drift, stamp)] } }
  else s.fixOffer s.nav.delta s.nav.sigma s.nav.drift stamp

/-- The transition of a fix without FAIL and with no latch set (R204). -/
def State.fixTransition (s : State) (clean warn : Bool) : State :=
  let c := s.code
  let ok := s.terrAfter
  let i := s.itg
  if c = 0 then
    let s := { s with itg := { i with recovN := i.recovN + 1 } }
    let high := s.get TIM_STAT_STATE = 2 ∧ 1000000 < s.terrNow
    if max 1 (s.get ITG_RECOV_RECOVN) ≤ i.recovN + 1 ∧ ok ∧ ¬high then s.itgFix (if clean then 4 else 1) else s
  else if c = 1 then
    let n := if clean then i.cleanN + 1 else 0
    let s := { s with itg := { i with cleanN := n } }
    if max 1 (s.get ITG_RECOV_CLEANN) ≤ n ∧ ok then s.itgFix 4 else s
  else if warn then s.itgEnter 1
  else if (c = 3 ∨ c = 2) ∧ clean ∧ ok then s.itgFix 4
  else s

/-- The burst's own record of a fix (R215, R216). -/
def State.burstNote (s : State) (clean warn : Bool) : State :=
  let i := s.itg
  let b := i.burst
  if !b.active then s
  else
    let q := decide (b.startAt + s.blen * 1000000000 ≤ s.tim.up) && s.get ITG_VERD_RESID != 0 &&
      (!s.woadNeeded || s.get ITG_VERD_WOAD != 0)
    { s with itg := { i with burst := { b with clean := b.clean || clean, warn := b.warn || warn,
                                               qualified := b.qualified || q } } }

/-- A fix judged (R201–R206, R218). -/
def State.fixJudged (s : State) : State :=
  let fail := verdFields.any fun f => s.get f == 3
  let warn := verdFields.any fun f => s.get f == 2
  let woad := s.get ITG_VERD_WOAD
  let s := { s with itg := { s.itg with
    fixAt := s.tim.up,
    woadFail := if woad = 3 then some s.tim.up else s.itg.woadFail,
    woadPass := if woad = 3 then false else s.itg.woadPass || woad == 1 } }
  let s := if woad = 3 then ({ s with umb := { s.umb with snapDue := true } }).itgLatch ITG_LATCH_WOAD else s
  let s := if s.get ITG_VERD_RELOC = 3 ∧ s.cus.rec_.posv then s.itgLatch ITG_LATCH_RELOC else s
  let clean := s.clean
  let s := if clean then { s with itg := { s.itg with cleanAt := s.tim.up, cleanOld := s.agedFrom } } else s
  let s := if fail ∨ warn ∨ s.latched then s else s.fixRelease
  let s := s.burstNote clean warn
  if fail ∨ s.latched then
    ({ s with itg := { s.itg with recovN := 0, cleanN := 0 } }).itgEnter 0
  else s.fixTransition clean warn

/-- The custody core judges a new evidence record (R200–R206). A record whose `SEQ` has not advanced, whose `DOF` is
below 2 or whose position mode is 3, one older than three solution periods, and one that cannot be read, is absent; so is one of a navigation core that a soft
start has stopped (R207). -/
def State.evidence (s : State) (x : EvidIn) : State :=
  if !s.nav.running then s else
  match s.evidRead with
  | (s, none) => s
  | (s, some e) =>
    if e.seq = s.itg.lastSeq ∨ e.time + 3 * s.solPeriod * 2 ^ 24 / 1000 < tv64 s.now then s
    else
      let s := { s with itg := { s.itg with lastSeq := e.seq } }
      if e.dof < 2 ∨ bits e.flags 6 5 = 3 then s else (s.verdicts e x).fixJudged

/-! ### Fix bursts (R186, R215, R216, R306) -/

/-- A periodic wake begins a burst with the front-end wake (R306); none begins in continuous tracking, during BRACE,
or while a burst runs. -/
def State.burstStart (s : State) : State :=
  if s.continuous ∨ s.itg.burst.active ∨ s.on SUP_STAT_BRACE ∨ !s.on RTC_WREASON_PERIODIC then s
  else
    let tick := s.get2 RTC_WTICK_L_TICK RTC_WTICK_H_TICK
    let s := { s with itg := { s.itg with burst := { active := true, startAt := s.tim.up, wakeTick := tick } },
                      nav := { s.nav with fixes := [] } }
    (s.wreasonAct 1).fecWake

/-- The longest lead of the buses that sleep between bursts, ms (R50). -/
def State.fecLead (s : State) : Nat :=
  (List.range 4).foldl (fun m b => if s.on (FEC_PWR_EN b) then max m (s.get (FEC_PWR_LEAD b)) else m) 0

/-- `FEC_PWR.LEAD` ms later the array is released for the burst, and the links come up (R50). -/
def State.burstRelease (s : State) : State :=
  let b := s.itg.burst
  if !b.active ∨ b.released ∨ s.on SUP_STAT_BRACE ∨ !s.reached b.startAt (s.fecLead * 1000000) then s
  else ({ s with itg := { s.itg with burst := { b with released := true } } }).linksWake

/-- The burst's value (R186): the mean of its fixes weighted by the inverse of their variances, stamped at the last
of them. -/
def burstMean (fs : List (Int × Nat × Int × Nat)) : Option (Int × Nat × Int × Nat) :=
  match fs.getLast? with
  | none => none
  | some l =>
    let sq := fun (f : Int × Nat × Int × Nat) => max 1 (f.2.1 * f.2.1)
    let p := fs.foldl (fun a f => a * sq f) 1
    let w := fs.foldl (fun a f => a + p / sq f) 0
    let d := fs.foldl (fun a f => a + f.1 * ((p / sq f : Nat) : Int)) 0
    let r := fs.foldl (fun a f => a + f.2.2.1 * ((p / sq f : Nat) : Int)) 0
    some (roundDiv d w, isqrt (p / w), roundDiv r w, l.2.2.2)

/-- The burst is over (R109, R194, R215, R216): its channels end, the mordant set is asked for, the next interval is set
and written to `RTC_WAKE`, and the sleep sequences follow. -/
def State.burstClose (s : State) (missed : Bool) : State :=
  let b := s.itg.burst
  let last := s.get ITG_INTV_INTV
  let s := { s with itg := { s.itg with driftN := if b.warned then s.itg.driftN else 0 } }
  let s := s.chansEnd.mordantAsk.burstDrop.fecSleep
  let s := if missed then s.incSat ITG_INTV_MISSED else s
  let s := if missed then s.itgHoldover else s
  let n :=
    if s.code = 4 ∧ !missed ∧ !b.warn then
      min (max (min (if b.clean then 2 * last else last) s.imodelNow) s.imin) s.imax
    else s.imin
  (s.set ITG_INTV_INTV n).custWake n (some b.wakeTick)

/-- The first qualifying fix after `BLEN` ends the burst, which offers its value (R186, R216). -/
def State.burstEnd (s : State) : State :=
  let b := s.itg.burst
  if !b.active ∨ !b.qualified then s
  else
    let s := match burstMean s.nav.fixes with
      | some (d, g, r, t) => s.fixOffer d g r t
      | none => s
    s.burstClose false

/-- `BMAX` in force, s: at least `BLEN`. -/
def State.bmax (s : State) : Nat := max s.blen (s.get ITG_BURST2_BMAX)

/-- A burst that reaches `BMAX`, or that BRACE ends, is missed (R216), unless a qualifying fix has ended it already. -/
def State.burstMiss (s : State) : State :=
  if s.itg.burst.qualified then s.burstEnd else if s.itg.burst.active then s.burstClose true else s

/-- A burst reaches `BMAX` (R216). -/
def State.burstMax (s : State) : State :=
  if s.reached s.itg.burst.startAt (s.bmax * 10 ^ 9) then s.burstMiss else s

end Sys2Proof.Machine
end

