-- ==== Sys2Proof/Machine/Mordant.lean ====
section
/-! DEFINITION. The mordant set (R192–R194, R442): its copies and items, what the navigation core stores in them, and what it
finds there at a start. The spec gives the contents of items 0x0001 and 0x0009; those of the others are the model's own layout
(DESIGN CHOICE: log entry 64). -/

namespace Sys2Proof.Machine

/-! ### Copies and items (R192, R193) -/

/-- The address of a copy (R192, R343). -/
def mordantAddr (c : Nat) : Nat := 0x90400000 + c * 0x80000

/-- An item's header offset and the size of its contents (R193). -/
def mordantPlace : Nat → Nat × Nat
  | 1 => (0x00040, 32)
  | 2 => (0x00068, 65536)
  | 3 => (0x10070, 16384)
  | 4 => (0x14078, 1024)
  | 5 => (0x14480, 256)
  | 6 => (0x14588, 256)
  | 7 => (0x14690, 1024)
  | 8 => (0x14A98, 256)
  | 9 => (0x14BA0, 64)
  | _ => (0x14BE8, 4096)

/-- No octet of a range of the MRAM lies in a unit with a double-bit error. -/
def State.mramSound (s : State) (a n : Nat) : Bool :=
  s.ecc.all fun e => !e.2 || decide (e.1 + 8 ≤ a) || decide (a + n ≤ e.1)

/-- Octets written to the MRAM by the custody core; written units lose their errors. -/
def State.mramPut (s : State) (a : Nat) (bs : List Byte) : State :=
  ({ s with ecc := s.ecc.filter fun e => decide (e.1 + 8 ≤ a) || decide (a + bs.length ≤ e.1) }).pokes a bs

/-- The generation of a valid copy (R192). -/
def State.mordantGen (s : State) (c : Nat) : Option Nat :=
  let bs := s.bytesAt (mordantAddr c) 64
  let n := fun o k => leNat (sliceN bs o k)
  if s.mramSound (mordantAddr c) 64 && n 0 2 == 0x4D44 && n 2 2 == 1 && n 0x10 4 == 89072 &&
      n 0x3C 4 == crc32 (bs.take 0x3C) then some (n 8 8) else none

/-- The copy a start uses: the valid one with the higher generation (R192). -/
def State.mordantUse (s : State) : Option Nat :=
  match s.mordantGen 0, s.mordantGen 1 with
  | some a, some b => some (if a < b then 1 else 0)
  | some _, none => some 0
  | none, some _ => some 1
  | none, none => none

/-- The contents of an item that is present and valid in the copy in use (R193). -/
def State.mordantItem (s : State) (k : Nat) : Option (List Byte) :=
  match s.mordantUse with
  | none => none
  | some c =>
    let p := mordantPlace k
    let a := mordantAddr c + p.1
    let bs := s.bytesAt (a + 8) p.2
    if s.mramSound a (8 + p.2) && s.peek a 2 == k && s.peek (a + 2) 2 == p.2 / 4 && s.peek (a + 4) 4 == crc32 bs then
      some bs
    else none

/-- The mordant set is read at a start: the headers, and the items of the copy in use (R21, R192, R193). -/
def State.mordantRead (s : State) : State :=
  let s := (s.mramRead (mordantAddr 0) 64).mramRead (mordantAddr 1) 64
  match s.mordantUse with
  | none => s
  | some c => s.each 10 fun i s =>
      let p := mordantPlace (i + 1)
      s.mramRead (mordantAddr c + p.1) (8 + p.2)

/-- Item 0x0001 (R442). -/
def State.mordantTime (s : State) : List Byte :=
  leBytes 12 (s.tim.rtclSec * 2 ^ 48) ++ leBytes 4 0 ++ leBytes 8 (s.get2 TIM_RTCL_L_TICK TIM_RTCL_H_TICK) ++
    leBytes 2 (uns 16 s.rtc.trim) ++ leBytes 2 0 ++ leBytes 4 s.tim.rtclErr

/-- Item 0x0009 (R442). -/
def State.mordantItg (s : State) : List Byte :=
  let l := s.get ITG_LATCH_STEPERR * 4 + s.get ITG_LATCH_WOAD * 2 + s.get ITG_LATCH_RELOC
  leBytes 1 s.code ++ leBytes 1 l ++ leBytes 6 0 ++ leBytes 8 (tv64 s.itg.entered) ++ leBytes 8 (tv64 s.now) ++
    leBytes 40 0

/-! ### What the navigation core stores (R193; log entry 64) -/

/-- A signed number in `n` octets. -/
def iBytes (n : Nat) (v : Int) : List Byte := leBytes n (uns (8 * n) v)

/-- Three signed 64-bit numbers. -/
def vBytes (v : Int × Int × Int) : List Byte := iBytes 8 v.1 ++ iBytes 8 v.2.1 ++ iBytes 8 v.2.2

/-- Three signed 64-bit numbers read back. -/
def vRead (bs : List Byte) (o : Nat) : Int × Int × Int :=
  let v := fun i => sgn 64 (leNat (sliceN bs (o + 8 * i) 8))
  (v 0, v 1, v 2)

/-- A number read from octets. -/
def nRead (bs : List Byte) (o n : Nat) : Nat := leNat (sliceN bs o n)

/-- A whole device second as a TV64 (R193). -/
def tvOfSec (sec : Nat) : Nat := sec * 2 ^ 24

/-- The device second of a TV64 in octets. -/
def tvRead (bs : List Byte) (o : Nat) : Nat := nRead bs o 8 / 2 ^ 24

/-- Octets cut or filled with zeros to a length. -/
def fit (bs : List Byte) (n : Nat) : List Byte := sliceN bs 0 n

/-- Item 0x0002: a slot for each satellite with a set in use. -/
def State.itemEph (s : State) : Option (List Byte) :=
  let xs := (s.nav.sats.filter fun p => match p.2.used with
    | some b => decide (b.length ≤ 192)
    | none => false).take 256
  if xs = [] then none
  else some (fit (xs.flatMap fun p =>
    let x := p.2
    let b := x.used.getD []
    fit (leBytes 1 (1 + 2 * b2n x.auth + 4 * b2n x.adkd0 + 8 * b2n x.healthy) ++ leBytes 2 p.1 ++ leBytes 1 b.length ++
      leBytes 8 (tvOfSec x.usedT) ++ leBytes 4 x.fit ++ leBytes 1 x.ura ++ leBytes 1 (min 5 x.terms.length) ++
      fit ((x.terms.take 5).flatMap fun q => leBytes 1 q.1 ++ iBytes 8 q.2) 45 ++ b) 256) 65536)

/-- Item 0x0003: a slot for each satellite with an almanac. -/
def State.itemAlm (s : State) : Option (List Byte) :=
  let xs := (s.nav.sats.filter fun p => match p.2.alm with
    | some b => decide (b.1.length ≤ 52)
    | none => false).take 256
  if xs = [] then none
  else some (fit (xs.flatMap fun p =>
    let b := p.2.alm.getD ([], 0)
    fit (leBytes 1 1 ++ leBytes 2 p.1 ++ leBytes 1 b.1.length ++ leBytes 8 (tvOfSec b.2) ++ b.1) 64) 16384)

/-- Item 0x0004: weeks, the accepted leap second, UTC and system-time offsets, UTC − TAI. -/
def State.itemUtc (s : State) : List Byte :=
  let n := s.nav
  let l := n.leapAcc.getD (0, 0)
  fit (leBytes 4 n.week ++ leBytes 1 (b2n n.week13) ++ leBytes 1 (b2n n.leapAcc.isSome) ++ leBytes 2 l.1 ++
    leBytes 8 (tvOfSec l.2) ++
    (List.range 7).flatMap (fun k =>
      let u := tblGet n.utc {} k
      let o := tblFind n.offs k
      leBytes 1 (b2n (tblFind n.utc k).isSome + 2 * b2n o.isSome) ++ iBytes 8 u.a0 ++ iBytes 8 u.a1 ++
        leBytes 8 (tvOfSec u.t0) ++ iBytes 8 (o.getD 0)) ++ leBytes 1 1 ++ iBytes 2 (s.getI TIM_UTC_UTCOFS)) 1024

/-- Item 0x0005: ionosphere parameters by system. -/
def State.itemIono (s : State) : Option (List Byte) :=
  if s.nav.iono = [] then none
  else some (fit ((List.range 7).flatMap fun k =>
    let x := tblGet s.nav.iono ([], 0) k
    fit (leBytes 1 (if x.1.length ≤ 27 then x.1.length else 0) ++ leBytes 8 (tvOfSec x.2) ++ x.1) 36) 256)

/-- Item 0x0006: the position in use with its mode and covariance, the last velocity and the last attitude; and the surveyed
position, which in FREE mode is another (R188). -/
def State.itemPos (s : State) (pos : Option (Int × Int × Int)) : Option (List Byte) :=
  let n := s.nav
  let a := s.itg.attSt.getD (0, 0, 0)
  match pos with
  | none => none
  | some p =>
    some (fit (leBytes 8 (tv64 s.now) ++
      leBytes 1 (b2n (n.surveyed && n.pos.isSome) + 2 * b2n n.metAcc + 4 * b2n s.itg.attSt.isSome) ++ leBytes 1 n.posMode ++
      leBytes 4 n.posAcc ++ leBytes 2 a.1 ++ iBytes 2 a.2.1 ++ iBytes 2 a.2.2 ++ leBytes 4 0 ++ vBytes p ++ vBytes n.vel ++
      vBytes (n.pos.getD (0, 0, 0)) ++ (n.svSum.info.take 9).flatMap (iBytes 16)) 256)

/-- Item 0x0008: the surveyed baselines. -/
def State.itemBase (s : State) : Option (List Byte) :=
  if (List.range 3).all fun i => !s.on (ITG_BL_S_SURV i) then none
  else some (fit ((List.range 3).flatMap fun i =>
    fit (leBytes 8 (b2n (s.on (ITG_BL_S_SURV i))) ++ vBytes (tblGet s.itg.surv (0, 0, 0) (i + 1))) 32) 256)

/-- Item 0x000A: the verified OSNMA public key, the last verified TESLA key and its time. -/
def State.itemKeys (s : State) : Option (List Byte) :=
  if s.nav.osPub = none ∧ s.nav.osKey = none then none
  else
    let p := s.nav.osPub.getD []
    let k := s.nav.osKey.getD ([], 0)
    some (fit (fit (leBytes 2 p.length ++ p) 512 ++ leBytes 2 k.1.length ++ leBytes 8 (tvOfSec k.2) ++ k.1) 4096)

/-! ### Writing (R192, R194) -/

/-- The contents of an item as a write gives them: those of R442 are the custody core's own, the oscillator model is
navigation firmware's, and the others come from the navigation core's state; `pos` is the position in use. -/
def State.mordantBody (s : State) (pos : Option (Int × Int × Int)) (items : List (Nat × List Byte)) : Nat → Option (List Byte)
  | 1 => some s.mordantTime
  | 2 => s.itemEph
  | 3 => s.itemAlm
  | 4 => some s.itemUtc
  | 5 => s.itemIono
  | 6 => s.itemPos pos
  | 7 => (items.find? fun e => e.1 == 7).map fun e => fit e.2 1024
  | 8 => s.itemBase
  | 9 => some s.mordantItg
  | _ => s.itemKeys

/-- One place of a copy written: header and contents, or a header of type 0x0000 for an absent item (R193). -/
def State.mordantPut (s : State) (c k : Nat) (body : Option (List Byte)) : State :=
  let p := mordantPlace k
  let a := mordantAddr c + p.1
  match body with
  | none => s.mramPut a (leBytes 8 0)
  | some bs => s.mramPut a (leBytes 2 k ++ leBytes 2 (p.2 / 4) ++ leBytes 4 (crc32 bs) ++ bs)

/-- A write of the set (R192, R194): every item goes to the copy with the lower generation, or to the one that is not
valid, A first; `RTC_STAT.DISC` clears with item 0x0001 (R301). Nothing is written during BRACE. -/
def State.mordantWrite (s : State) (pos : Option (Int × Int × Int)) (items : List (Nat × List Byte)) : State :=
  if !s.mordant.req || s.mordant.busy.isSome || s.on SUP_STAT_BRACE then s
  else
    let c := match s.mordantGen 0, s.mordantGen 1 with
      | some a, some b => if a < b then 0 else 1
      | some _, none => 1
      | none, _ => 0
    let s := { s with mordant := { s.mordant with busy := some c, req := false } }
    let s := s.each 10 fun i s => s.mordantPut c (i + 1) (s.mordantBody pos items (i + 1))
    s.set RTC_STAT_DISC 0

/-- The header is written last, and the copy is valid (R192); a merged request waits for its write. -/
def State.mordantDone (s : State) : State :=
  match s.mordant.busy with
  | none => s
  | some c =>
    let g := match s.mordantGen (1 - c) with
      | some g => g + 1
      | none => 1
    let h := leBytes 2 0x4D44 ++ leBytes 2 1 ++ leBytes 4 0 ++ leBytes 8 g ++ leBytes 4 89072 ++ leBytes 40 0
    let s := s.mramPut (mordantAddr c) (h ++ leBytes 4 (crc32 h))
    { s with mordant := { busy := none, again := false, req := s.mordant.req || s.mordant.again } }

/-- Every 10 min of continuous tracking the set is written (R194). -/
def State.mordantPeriod (s : State) : State := if s.continuous then s.mordantAsk else s

/-- BRACE abandons a write under way: its header is not written (R192). -/
def State.mordantAbandon (s : State) : State := { s with mordant := { s.mordant with busy := none } }

/-! ### What a start finds (R107, R193, R194) -/

/-- Slots of an item. -/
def itemSlots (bs : List Byte) (len n : Nat) : List (List Byte) :=
  ((List.range n).map fun i => sliceN bs (len * i) len).filter fun b => nRead b 0 1 != 0

/-- Ephemeris and clock sets from item 0x0002; each counts while it is within the validity of R177. -/
def State.loadEph (s : State) (bs : List Byte) : State :=
  (itemSlots bs 256 256).foldl (fun s b =>
    let f := nRead b 0 1
    let terms := (List.range (min 5 (nRead b 17 1))).foldl (fun t i =>
      tblSet t (nRead b (18 + 9 * i) 1) (sgn 64 (nRead b (19 + 9 * i) 8))) []
    s.setSat (nRead b 1 2) { s.sat (nRead b 1 2) with
      used := some (sliceN b 63 (nRead b 3 1)), usedT := tvRead b 4, fit := nRead b 12 4, ura := nRead b 16 1, terms := terms,
      auth := bit f 1, adkd0 := bit f 2, healthy := bit f 3 }) s

/-- Almanacs from item 0x0003, for prediction within 180 days. -/
def State.loadAlm (s : State) (bs : List Byte) : State :=
  (itemSlots bs 64 256).foldl (fun s b =>
    if s.daysWithin (tvRead b 4) 180 then
      s.setSat (nRead b 1 2) { s.sat (nRead b 1 2) with alm := some (sliceN b 12 (nRead b 3 1), tvRead b 4) }
    else s) s

/-- An accepted leap second put into the time core again (R181, R230): one whose second has passed while the part was off has
changed `UTCOFS` since. -/
def State.leapRestore (s : State) : State :=
  match s.nav.leapAcc with
  | none => s
  | some (kind, sec) =>
    if s.dayKnown && decide (sec ≤ tvSec s.now) then
      ({ s with nav := { s.nav with leapAcc := none } }).setI TIM_UTC_UTCOFS
        (s.getI TIM_UTC_UTCOFS + if kind = 1 then -1 else if kind = 2 then 1 else 0)
    else (s.set TIM_UTC_LEAP kind).set2 TIM_LEAPT_L_SEC TIM_LEAPT_H_SEC sec

/-- Weeks, leap second, UTC and offsets from item 0x0004. -/
def State.loadUtc (s : State) (bs : List Byte) : State :=
  let n := s.nav
  let n := { n with week := max 2340 (nRead bs 0 4), week13 := nRead bs 4 1 == 1,
                    leapAcc := if nRead bs 5 1 = 1 then some (nRead bs 6 2, tvRead bs 8) else none }
  let n := (List.range 7).foldl (fun (n : NavSt) k =>
    let o := 16 + 33 * k
    let i := fun a => sgn 64 (nRead bs a 8)
    let n := if bit (nRead bs o 1) 0 then
        { n with utc := tblSet n.utc k { a0 := i (o + 1), a1 := i (o + 9), t0 := tvRead bs (o + 17) } } else n
    if bit (nRead bs o 1) 1 then { n with offs := tblSet n.offs k (i (o + 25)) } else n) n
  let s := { s with nav := n }
  let s := if nRead bs 247 1 = 1 then s.setI TIM_UTC_UTCOFS (sgn 16 (nRead bs 248 2)) else s
  s.leapRestore

/-- Ionosphere parameters from item 0x0005, within 7 days. -/
def State.loadIono (s : State) (bs : List Byte) : State :=
  (List.range 7).foldl (fun s k =>
    let n := nRead bs (36 * k) 1
    let t := tvRead bs (36 * k + 1)
    if n ≠ 0 ∧ s.daysWithin t 7 then
      { s with nav := { s.nav with iono := tblSet s.nav.iono k (sliceN bs (36 * k + 9) n, t) } }
    else s) s

/-- Position, velocity and attitude from item 0x0006: a surveyed position is one again, and the position then in use serves
aiding only. -/
def State.loadPos (s : State) (bs : List Byte) : State :=
  let f := nRead bs 8 1
  let n := { s.nav with pos := if bit f 0 then some (vRead bs 72) else none, aidPos := some (vRead bs 24), surveyed := bit f 0,
                        metAcc := bit f 1, posAcc := nRead bs 10 4, vel := vRead bs 48 }
  { s with nav := n, itg := { s.itg with
      attSt := if bit f 2 then some (nRead bs 14 2, sgn 16 (nRead bs 16 2), sgn 16 (nRead bs 18 2)) else none } }

/-- Surveyed baselines from item 0x0008, usable until the survey is restarted (R193); a survey that has been made since
stands. -/
def State.loadBase (s : State) (bs : List Byte) : State :=
  s.each 3 fun i s =>
    if nRead bs (32 * i) 1 = 1 ∧ !s.on (ITG_BL_S_SURV i) ∧ !s.itg.survRe then
      ({ s with itg := { s.itg with surv := tblSet s.itg.surv (i + 1) (vRead bs (32 * i + 8)) } }).set (ITG_BL_S_SURV i) 1
    else s

/-- OSNMA keys from item 0x000A, while they are valid (R193). -/
def State.loadKeys (s : State) (bs : List Byte) : State :=
  let p := nRead bs 0 2
  let k := nRead bs 512 2
  let pub := sliceN bs 2 p
  let key := sliceN bs 522 k
  if !Config.keyValid pub key (tvRead bs 514) (tvSec s.now) then s
  else { s with nav := { s.nav with
      osPub := if p = 0 then none else some pub, osKey := if k = 0 then none else some (key, tvRead bs 514) } }

/-- The position kept is within `km` by its age and the last velocity (R193). -/
def State.posWithin (s : State) (km : Nat) : Bool :=
  match s.mordantItem 6 with
  | none => false
  | some bs =>
    match s.ageNs (nRead bs 0 8) with
    | none => false
    | some a =>
      let v := s.nav.vel
      decide ((v.1 * v.1 + v.2.1 * v.2.1 + v.2.2 * v.2.2).toNat * (a * a) ≤ (km * 10 ^ 18) ^ 2)

/-- The position kept serves aiding (R193): fine within 1 km, coarse within 100 km, else not at all. -/
def State.aidLoad (s : State) : State :=
  let k := if s.posWithin 1 then 2 else if s.posWithin 100 then 1 else 0
  { s with nav := { s.nav with aidClass := k, aidPos := if k = 0 then none else s.nav.aidPos } }

/-- An item taken, where it is present and valid. -/
def State.loadItem (s : State) (k : Nat) (f : State → List Byte → State) : State :=
  match s.mordantItem k with
  | some bs => f s bs
  | none => s

/-- The mordant set taken into the navigation core (R192, R193). -/
def State.mordantLoad (s : State) : State :=
  let s := ((s.loadItem 2 State.loadEph).loadItem 3 State.loadAlm).loadItem 4 State.loadUtc
  let s := ((s.loadItem 5 State.loadIono).loadItem 6 State.loadPos).loadItem 8 State.loadBase
  (s.loadItem 10 State.loadKeys).aidLoad

/-- The class of a start (R107, R193, R194): hot with an ephemeris in validity, warm with an almanac within 90 days; both with the
position within 100 km, time within ±2 s and an oscillator model; cold otherwise. The oscillator model's age is that of the set,
as its position item tells it (log entry 64). -/
def State.startClass (s : State) : Nat :=
  let model := (s.mordantItem 7).isSome && (match s.mordantItem 6 with
    | some bs => (match s.ageNs (nRead bs 0 8) with
      | some a => decide (a ≤ 30 * 86400 * 10 ^ 9)
      | none => false)
    | none => false)
  let base := model && s.posWithin 100 && s.timeWithin 2000000000
  if !base then 0
  else if s.nav.sats.any fun p => p.2.used.isSome && s.setValid p.2.usedT p.2.fit then 2
  else if s.nav.sats.any fun p => match p.2.alm with
      | some a => s.daysWithin a.2 90
      | none => false then 1
  else 0

end Sys2Proof.Machine
end

