-- ==== Sys2Proof/Machine/NavData.lean ====
section
/-! DEFINITION. Navigation data (R176–R181): ephemeris and clock sets, almanacs, UTC and leap seconds, weeks, OSNMA. Messages
arrive as decoded by their interface specifications (log entry 62). -/

namespace Sys2Proof.Machine

/-! ### Sets (R177, R178) -/

/-- Newer sets come into use at a solution epoch (R178): a Galileo set waits for its authentication while OSNMA is on
and an authenticated previous set is within its validity. -/
def State.satUse (s : State) (k : Nat) (x : SatSt) : SatSt :=
  match x.next with
  | none => x
  | some b =>
    let waits := s.navField 0x05 == 1 && k / 256 == 1 && x.used.isSome && x.auth && !x.nextAuth && s.setValid x.usedT x.fit
    if waits then x
    else { x with used := some b, usedT := x.nextT, fit := x.nextFit, auth := x.nextAuth, adkd0 := x.nextAuth,
                  terms := x.nextTerms, healthy := x.nextHealthy, ura := x.nextUra, next := none, nextAuth := false }

/-- The set predicts a position more than 5 km from that of the previous accepted set, or of the almanac when there is none; one
with neither before it has nothing to differ from (R177). -/
def State.ephFar (s : State) (sys : Nat) (y : SatSt) (alm : Option (List Byte × Nat)) (set : List Byte) : Bool :=
  let t : Int := ((tvSec s.now : Int) + s.sysOffset sys) * 10 ^ 12
  let far := fun p => decide (5000000 * 5000000 < dist2 (Config.satAt set t).pos p)
  match y.next, y.used, alm with
  | some b, _, _ => far (Config.satAt b t).pos
  | none, some b, _ => far (Config.satAt b t).pos
  | none, none, some a => far (Config.almanacOrbit a.1 t)
  | none, none, none => false

/-- The fit interval of a set (R177): stated, or 2 h; 15 min for GLONASS. -/
def fitOf (sys fit : Nat) : Nat := if sys = 3 then 900 else if fit = 0 then 7200 else fit

/-- LNAV subframes and GLONASS strings need two equal receptions; another message is taken at once when a CRC protects it
(R177). -/
def atOnce (x : NavMsg) : Bool := x.crc && x.kind != .lnav && x.kind != .glonass

/-- An ephemeris and clock set received (R177): a set under a CRC is taken at once, another after two equal receptions;
a set more than 5 km off is refused and counted. A repeat of a set that is held changes nothing. F/NAV gives a set of its
own (R182). -/
def State.navEph (s : State) (x : NavMsg) (e : EphIn) : State :=
  let k := setKey x.sys.val x.sv.val (x.kind == .fnav)
  let y := s.sat k
  if !atOnce x && y.heard != some e.set then s.setSat k { y with heard := some e.set }
  else if y.used = some e.set ∨ y.next = some e.set then s
  else if s.ephFar x.sys.val y (s.sat (satKey x.sys.val x.sv.val)).alm e.set then
    { s with nav := { s.nav with refused := s.nav.refused + 1, ephrefAt := some s.tim.up } }
  else
    s.setSat k { y with heard := some e.set, next := some e.set, nextT := e.t, nextFit := fitOf x.sys.val e.fit,
                        nextAuth := false, nextTerms := e.terms.foldl (fun t p => tblSet t p.1 p.2) [],
                        nextHealthy := e.healthy, nextUra := e.ura }

/-! ### Leap seconds (R181) -/

/-- Another system's announcement and that of the `UTCREF` system, accepted or heard, differ: the integrity block is
told. -/
def State.leapCompare (s : State) : State :=
  let n := s.nav
  let ref := match n.leapAcc with
    | some a => some a
    | none => n.leapHeard.map fun h => (h.1, h.2.1)
  match ref, n.leapOther with
  | some a, some b => if a = b then s else { s with nav := { n with leapdisAt := some s.tim.up } }
  | _, _ => s

/-- UTC − TAI from the `UTCREF` system, accepted as R181 accepts an announcement: after two equal receptions at least 30 s
apart (R230). -/
def State.navUtc (s : State) (sys : Nat) (u : Int) : State :=
  if sys ≠ s.navField 0x01 then s
  else
    let now := tvSec s.now
    match s.nav.utcHeard with
    | some (v, a) =>
      if v = u then (if now < a + 30 then s else s.setI TIM_UTC_UTCOFS u)
      else { s with nav := { s.nav with utcHeard := some (u, now) } }
    | none => { s with nav := { s.nav with utcHeard := some (u, now) } }

/-- A leap-second announcement (R181): the one of the `UTCREF` system is accepted after two equal receptions at least
30 s apart; another system's different event is a disagreement. -/
def State.navLeap (s : State) (sys kind sec : Nat) : State :=
  let n := s.nav
  let now := tvSec s.now
  if sys = s.navField 0x01 then
    let fresh : State := { s with nav := { n with leapHeard := some (kind, sec, now) } }
    match n.leapHeard with
    | some (k, t, a) =>
      if k = kind ∧ t = sec then
        if now < a + 30 ∨ n.leapAcc = some (kind, sec) then s
        else
          let s := { s with nav := { n with leapAcc := some (kind, sec) } }
          ((s.set TIM_UTC_LEAP kind).set2 TIM_LEAPT_L_SEC TIM_LEAPT_H_SEC sec).mordantAsk.leapCompare
      else fresh.leapCompare
    | none => fresh.leapCompare
  else ({ s with nav := { n with leapOther := some (kind, sec) } } : State).leapCompare

/-! ### Weeks (R180) -/

/-- The GPS week of device time. -/
def State.devWeek (s : State) : Nat := (tvSec s.now - 315964819) / 604800

/-- A week number resolved to the candidate nearest the expected week, never before week 2,340 (R180). -/
def weekNear (expect value width : Nat) : Nat :=
  if width = 0 then value
  else
    let m := 2 ^ width
    let down := expect / m * m + value % m
    let cs := [down - m, down, down + m].filter fun c => decide (2340 ≤ c) && decide (c % m = value % m)
    match cs with
    | [] => 2340 + (value + m - 2340 % m) % m
    | c :: r => r.foldl (fun a b => if max b expect - min b expect < max a expect - min a expect then b else a) c

/-- A week number heard: Galileo's and BeiDou's are full and counted from their own origins; a 10-bit week gives way to a 13-bit
one (R180). -/
def State.navWeek (s : State) (sys value width : Nat) : State :=
  let n := s.nav
  let put := fun w (b : Bool) => { s with nav := { n with week := w, week13 := n.week13 || b } }
  if sys = 1 then put (value + 1024) false
  else if sys = 2 then put (value + 1356) false
  else if n.week13 && decide (0 < width) && decide (width < 13) then s
  else put (weekNear (if s.dayKnown then s.devWeek else n.week) value width) (width == 13)

/-- A GLONASS day: the week of GPS time in which day NT of the four-year interval N4 lies, day 1 of the first being
1996-01-01 (R180). -/
def gloWeek (n4 nt : Nat) : Nat := (5839 + (n4 - 1) * 1461 + (nt - 1)) / 7

/-! ### Time of week and polarity (R172, R174) -/

/-- The engine whose channel of a satellite and signal was reported last. -/
def State.engFor (s : State) (sig sv : Nat) : Option Nat :=
  (s.chans.find? fun p => s.reported p.1 && p.2.cfg.sig == sig && p.2.cfg.sv == sv).map (·.1)

/-- A decoded time of week (R172): the satellite's transmit time is known from it at every component; the component on which it
was decoded has yielded time (R118). -/
def State.navTow (s : State) (sys sv sig ms : Nat) : State :=
  let k := satKey sys sv
  let y := s.sat k
  let s := s.setSat k { y with tow := if y.tow.contains sig then y.tow else sig :: y.tow }
  match s.engFor sig sv with
  | none => s
  | some e =>
    { s with nav := { s.nav with anchors := tblSet s.nav.anchors k (s.anchorOf (s.chan e) ms) } }

/-- A preamble's polarity (R174). -/
def State.navInv (s : State) (sv sig : Nat) (inv : Bool) : State :=
  match s.engFor sig sv with
  | none => s
  | some e =>
    let x := s.chan e
    let a := (s.ambOf x).getD { sv := sv, sig := sig, slips := x.word 8 % 2 ^ 16, born := x.born }
    { s with nav := { s.nav with ambs := tblSet s.nav.ambs (bits (x.word 0) 21 10) { a with inv := some inv } } }

/-! ### Messages (R176) -/

/-- An item of a message taken, when it is there. -/
def State.item {α : Type} (s : State) (o : Option α) (f : State → α → State) : State :=
  match o with
  | some a => f s a
  | none => s

/-- Almanac, UTC, offsets and ionosphere of a message: the UTC parameters of LNAV are for reporting only, and it has no offsets
(R176). -/
def State.navAiding (s : State) (x : NavMsg) : State :=
  let k := x.sys.val
  let s := s.item x.alm fun s a => s.setSat (satKey k a.1) { s.sat (satKey k a.1) with alm := some a.2 }
  let s := s.item (if x.kind == .lnav then none else x.utc) fun s u => { s with nav := { s.nav with utc := tblSet s.nav.utc k { a0 := u.1, a1 := u.2.1, t0 := u.2.2 } } }
  let s := s.item (if x.kind == .lnav then none else x.offs) fun s o => { s with nav := { s.nav with offs := tblSet s.nav.offs k o } }
  s.item x.iono fun s b => { s with nav := { s.nav with iono := tblSet s.nav.iono k (b, tvSec s.now) } }

/-- A navigation message (R176): one whose check fails is discarded whole. SBAS gives only its monitoring flags. -/
def State.navMessage (s : State) (x : NavMsg) : State :=
  let k := x.sys.val
  if !s.navOn || !x.ok then s
  else if k = 6 then
    x.flags.foldl (fun s f => s.setSat (satKey f.1 f.2.1) { s.sat (satKey f.1 f.2.1) with barred := f.2.2 }) s
  else
    let s := (s.item x.eph fun s e => s.navEph x e).navAiding x
    let s := s.item x.utcofs fun s u => s.navUtc k u
    let s := s.item x.leap fun s l => s.navLeap k l.1 l.2
    let s := s.item x.week fun s w => s.navWeek k w.1 w.2
    let s := s.item x.day fun s d => { s with nav := { s.nav with week := gloWeek d.1 d.2 } }
    let s := s.item x.tow fun s t => s.navTow k x.sv.val t.1 t.2
    s.item x.inv fun s i => s.navInv x.sv.val i.1 i.2

/-! ### OSNMA (R179) -/

/-- Keys verified: a public key against the Merkle tree root, a root key under the public key, a disclosed key by the
chain to the last one. The flag says that the disclosed key holds. -/
def State.osnmaKeys (s : State) (x : TagIn) : State × Bool :=
  let s := s.item x.pub fun s p =>
    if Config.osnmaPub (Config.merkleRoot s.cus.walk.digest) p.1 p.2 then { s with nav := { s.nav with osPub := some p.1 } } else s
  let s := s.item x.root fun s r =>
    match s.nav.osPub with
    | some p => if Config.osnmaRoot p r.1 r.2.1 r.2.2 then { s with nav := { s.nav with osKey := some (r.1, r.2.1) } } else s
    | none => s
  match x.key, s.nav.osKey with
  | some k, some old =>
    if k = old then (s, true)
    else if Config.teslaChain k.1 k.2 old.1 old.2 then ({ s with nav := { s.nav with osKey := some k } }, true)
    else (s, false)
  | _, _ => (s, false)

/-- A tag that holds: ADKD 0 authenticates the set it covers, ADKD 4 the time parameters; ADKD 12 adds nothing to the
states. -/
def SatSt.tagHolds (y : SatSt) (adkd : Nat) (data : List Byte) (now : Nat) : SatSt :=
  if adkd = 4 then { y with adkd4 := some now }
  else if adkd = 0 then
    if y.next = some data then { y with nextAuth := true }
    else if y.used = some data then { y with auth := true, adkd0 := true }
    else y
  else y

/-- An OSNMA tag (R179) under its key: pending while the key is not yet released or not verified; a mismatch under a
verified key is a FAIL for 1 h. -/
def State.osnmaTag (s : State) (x : TagIn) : State :=
  let s := if s.navOn then { s with nav := { s.nav with notime := !s.osnmaTime } } else s
  if !s.navOn || s.nav.notime || s.navField 0x05 != 1 then s
  else
    let (s, ok) := s.osnmaKeys x
    let k := satKey 1 x.sv.val
    let y := s.sat k
    if x.adkd ≠ 0 ∧ x.adkd ≠ 4 ∧ x.adkd ≠ 12 then s
    else
      match x.key, ok with
      | some key, true =>
        let y := { y with tags := 0 }
        s.setSat k (if Config.osnmaMac key.1 x.adkd x.sv.val x.data x.tag then y.tagHolds x.adkd x.data (tvSec s.now)
          else { y with failAt := some (tvSec s.now) })
      | _, _ => s.setSat k { y with tags := y.tags + 1 }

end Sys2Proof.Machine
end

