-- ==== Sys2Proof/Machine/WoadBlock.lean ====
section
/-! DEFINITION. What the navigation core forms for the woad check (R200, R208–R210): differences of the antenna groups, their
geometry and residuals, baseline surveys. -/

namespace Sys2Proof.Machine

/-- One woad pair entry in the codes of R200, with its azimuth span. -/
structure WoadEnt where
  n : Nat := 0
  g : Nat := 0
  c : Nat := 0
  r : Nat := 0
  m : Nat := 0
  band : Nat := 0
  azs : Nat := 0
  deriving DecidableEq, Repr

/-- A difference of one satellite: its key, the difference in 2^-32 cycle, the vector to the satellite in mm, the carrier in Hz, the
azimuth in 2^-16 cycle. -/
structure WoadDiff where
  key  : Nat
  d    : Int
  los  : Int × Int × Int
  freq : Nat
  azim : Nat
  deriving DecidableEq, Repr

/-- Leads of antenna groups at the last report instant. -/
def State.groupLeads (s : State) : List Nat :=
  s.measEngs.filter fun e => (s.chan e).cfg.group != 255 && !(s.chan e).cfg.follow

/-- The lead antenna of the groups: that of the first (R208; log entry 66). -/
def State.leadAnt (s : State) : Nat :=
  match s.groupLeads with
  | [] => 0
  | e :: _ => s.antOf e

/-- The antenna of pair entry `p`, from 0: those other than the lead, in order. -/
def pairAnt (lead p : Nat) : Nat := if p < lead then p else p + 1

/-- A lead's difference with an antenna, with `VALID` set and `DSLIP` clear, in 2^-16 cycle (R137, R210). -/
def diffWith (x : ChanSt) (ant : Nat) : Option Int :=
  ([11, 12, 13].map x.word).findSome? fun w =>
    if bit w 31 && !bit w 30 && bits w 29 28 == ant then some (sgn 28 w) else none

/-- A satellite has a set in use within its validity. -/
def State.ephNow (s : State) (key : Nat) : Bool :=
  let y := s.sat key
  y.used.isSome && s.setValid y.usedT y.fit

/-- Differences of a pair in a band, one for each satellite, by a reading of the report (R210). -/
def State.diffsBy (s : State) (pos : Int × Int × Int) (lead band : Nat) (read : ChanSt → Option Int) : List WoadDiff :=
  s.groupLeads.foldl (fun l e =>
    let x := s.chan e
    let c := x.cfg
    let key := satKey (sysOf c.sig) c.sv
    match read x, (if s.ephNow key then s.losOf e c pos else none) with
    | some d, some los =>
      if s.antOf e = lead ∧ c.comp.band = band ∧ !(l.any fun o => o.key == key) then
        l ++ [{ key := key, d := d * 65536, los := los, freq := c.fRf, azim := (lookAt pos los).2 }]
      else l
    | _, _ => l) []

/-- Differences of the pair of the lead antenna and another in a band. -/
def State.woadDiffs (s : State) (pos : Int × Int × Int) (lead ant band : Nat) : List WoadDiff :=
  s.diffsBy pos lead band fun x => diffWith x ant

/-- The phase that a baseline predicts, 2^-32 cycle (R210). -/
def WoadDiff.predicted (o : WoadDiff) (b : Int × Int × Int) : Int :=
  roundDiv (dotV b o.los * o.freq * 2 ^ 64) (max 1 (lengthV o.los) * (1000 * lightSpeed))

/-- The sum of unit phasors at angles in 2^-32 cycle, 2^-30. -/
def phasors (as : List Int) : Int × Int :=
  as.foldl (fun t a => let p := cosSin a; (t.1 + p.1, t.2 + p.2)) (0, 0)

/-- The nearest code, a half rounding upwards, held at 255 (R200). -/
def codeOf (num den : Nat) : Nat := min 255 ((2 * num + den) / (2 * max 1 den))

/-- Azimuths put in order. -/
def sortedIn (a : Nat) : List Nat → List Nat
  | [] => [a]
  | b :: bs => if a ≤ b then a :: b :: bs else b :: sortedIn a bs

/-- The azimuth span in 2^-16 cycle: a turn less the largest gap between adjacent azimuths. -/
def azimSpan (as : List Nat) : Nat :=
  match as.foldr sortedIn [] with
  | [] => 0
  | a :: l =>
    let gaps := (List.zip (a :: l) (l ++ [a + 65536])).map fun p => p.2 - p.1
    65536 - gaps.foldl max 0

/-- A pair's entry from its differences (R200, R210); a pair without a baseline has only N, C and the span. -/
def woadEntry (base : Option (Int × Int × Int)) (band : Nat) (ds : List WoadDiff) : WoadEnt :=
  let n := ds.length
  if n = 0 then {}
  else
    let v := phasors (ds.map (·.d))
    let c := codeOf (255 * lengthV (v.1, v.2, 0)) (n * 2 ^ 62)
    let azs := codeOf (180 * azimSpan (ds.map (·.azim))) 65536
    let w : WoadEnt := { n := min 255 n, c := c, band := band, azs := azs }
    match base with
    | none => w
    | some b =>
      let ps := ds.map (·.predicted b)
      let sum := ps.foldl (· + ·) 0
      let dev := ps.foldl (fun (a : Nat) (p : Int) => a + ((p * n - sum) * (p * n - sum)).toNat) 0
      let es := List.zipWith (fun (o : WoadDiff) p => o.d - p) ds ps
      let u := phasors es
      let k := roundDiv (angle48 u.2 u.1) 65536
      let rs := es.map fun e => sgn 32 (uns 32 (e - k))
      let sq := rs.foldl (fun (a : Nat) (r : Int) => a + (r * r).toNat) 0
      { w with g := codeOf (10 * isqrt (dev / n)) (n * 2 ^ 32), r := codeOf (500 * isqrt (sq / n)) (2 ^ 32),
               m := min 255 ((rs.filter fun r => decide (15 * 2 ^ 32 < 100 * r.natAbs)).length) }

/-- How far an entry goes towards a FAIL (R210, R445): the record has room for one band of a pair, and the worst decides. -/
def WoadEnt.rank (w : WoadEnt) : Nat :=
  if w.n < 5 ∨ w.g < 5 then b2n (decide (6 ≤ w.n) && decide (250 ≤ w.c) && decide (90 ≤ w.azs))
  else if 242 ≤ w.c ∧ 75 ≤ w.r then 5
  else if max 2 (ceilDiv w.n 4) ≤ w.m then 4
  else if 1 ≤ w.m ∨ 40 < w.r then 3
  else 2

/-- The entries of pair `p` (R208): the check is evaluated in each band in which the pair has differences. -/
def State.woadBands (s : State) (pos : Int × Int × Int) (lead p : Nat) : List WoadEnt :=
  let ant := pairAnt lead p
  (List.range 3).filterMap fun b =>
    let ds := s.woadDiffs pos lead ant b
    if ds.isEmpty then none else some (woadEntry (s.pairBase lead ant) b ds)

/-- The codes of an entry. -/
def WoadEnt.codes (w : WoadEnt) : List Nat := [w.n, w.g, w.c, w.r, w.m, w.band, w.azs]

/-- The entry of pair `p` that the record takes: the worst, the lowest band of equals (log entry 66). -/
def State.woadPairEntry (s : State) (pos : Int × Int × Int) (lead p : Nat) : WoadEnt :=
  match s.woadBands pos lead p with
  | [] => {}
  | e :: es => es.foldl (fun a b => if a.rank < b.rank then b else a) e

/-- Groups cover every antenna whose link is up for at least `WGRP` satellites, below 5 acting as 5 (R208). -/
def State.groupsMet (s : State) : Bool :=
  let ants := (List.range 8).filterMap fun n => if s.on (SLK_STAT_UP n) then some (s.link n).cfg.ant else none
  let sats := s.groupLeads.foldl (fun (l : List Nat) e =>
    let c := (s.chan e).cfg
    let key := satKey (sysOf c.sig) c.sv
    if (ants.all fun a => bit c.antmask a) && !l.contains key then key :: l else l) []
  decide (max 5 (s.get ITG_CFG_WGRP) ≤ sats.length)

/-! ### Baseline surveys (R209) -/

/-- The array has turned by more than 2° in an angle from the attitude stored (R201; log entry 66). -/
def attTurned (a b : Nat × Int × Int) : Bool :=
  let h := (a.1 + 36000 - b.1 % 36000) % 36000
  decide (200 < min h (36000 - h)) || decide (200 < (a.2.1 - b.2.1).natAbs) || decide (200 < (a.2.2 - b.2.2).natAbs)

/-- The difference from antenna 0 to another, 2^-16 cycle: groups that another antenna leads give it as one of two
differences. -/
def diffFrom0 (lead ant : Nat) (x : ChanSt) : Option Int :=
  if lead = 0 then diffWith x ant
  else
    match diffWith x 0 with
    | none => none
    | some z => if ant = lead then some (-z) else (diffWith x ant).map (· - z)

/-- The sum of two lists, as long as the second. -/
def addI (a b : List Int) : List Int := (List.range b.length).map fun i => a.getD i 0 + b.getD i 0

/-- An epoch of an arc. -/
def ArcSt.add (y : ArcSt) (o : WoadDiff) : ArcSt :=
  let u := dirV o.los
  let v := roundDiv (o.d * lightSpeed) (max 1 o.freq)
  { y with n := y.n + 1, su := addI y.su u, suu := addI y.suu (u.flatMap fun a => u.map (a * ·)), sy := y.sy + v,
           syu := addI y.syu (u.map (· * v)), syy := y.syy + v * v }

/-- The arcs of a baseline after an epoch: each difference joins the arc of its satellite and band, which the whole cycles of
R136 hold together; one without a difference has ended. -/
def arcsNext (arcs : List ArcSt) (ds : List (Nat × WoadDiff)) : List ArcSt :=
  let mine := fun (y : ArcSt) (p : Nat × WoadDiff) => y.live && y.band == p.1 && y.key == p.2.key
  let old := arcs.map fun y =>
    match ds.find? (mine y) with
    | some p => y.add p.2
    | none => { y with live := false }
  old ++ (ds.filter fun p => !arcs.any fun y => mine y p).map fun p =>
    ArcSt.add { key := p.2.key, band := p.1, lam := roundDiv (lightSpeed * 2 ^ 30 : Nat) (max 1 p.2.freq) } p.2

/-- The baseline in 2^-32 m that arcs give while their whole cycles are not known: each arc's mean is taken out. -/
def arcsFloat (arcs : List ArcSt) : Option (List Int) :=
  let a := (List.range 9).map fun i => arcs.foldl (fun (t : Int) y =>
    t + (y.suu.getD i 0 - y.su.getD (i / 3) 0 * y.su.getD (i % 3) 0 / (max 1 y.n : Nat))) 0
  let b := (List.range 3).map fun i => arcs.foldl (fun (t : Int) y =>
    t + (y.syu.getD i 0 - y.su.getD i 0 * y.sy / (max 1 y.n : Nat)) * 2 ^ 30) 0
  match solveSystem ((List.range 3).map fun i => sliceI a (3 * i) 3) [b] with
  | some (x :: _, d) => some (x.map fun v => if d < 0 then roundDiv (-v) d.natAbs else roundDiv v d.natAbs)
  | _ => none

/-- What an arc's differences have beyond the baseline, 2^-32 cycle: k and a whole number. -/
def ArcSt.rest (y : ArcSt) (b : List Int) : Int :=
  roundDiv ((y.sy * 2 ^ 30 - dotI y.su b)) (max 1 (y.n * y.lam.natAbs))

/-- The whole cycles of arcs fixed (R209): in each band k is the direction of what is left. -/
def arcsFix (arcs : List ArcSt) (b : List Int) : List (ArcSt × Int) :=
  arcs.map fun y =>
    let v := phasors ((arcs.filter fun z => z.band == y.band).map fun z => z.rest b)
    (y, roundDiv (y.rest b - roundDiv (angle48 v.2 v.1) 65536) (2 ^ 32))

/-- The baseline with k for each band, from arcs with their whole cycles (R209): the baseline in mm, and the largest variance of
an axis in 2^-64 m². -/
def arcsSolve (fixed : List (ArcSt × Int)) : Option ((Int × Int × Int) × Nat) :=
  let bands := (List.range 3).filter fun k => fixed.any fun p => p.1.band == k
  let m := 3 + bands.length
  let at_ := fun (p : ArcSt × Int) (i : Nat) => if bands.getD (i - 3) 3 = p.1.band then p.1.lam else 0
  let whole := fun (p : ArcSt × Int) => p.2 * p.1.lam * 4
  let cell := fun (p : ArcSt × Int) (i j : Nat) =>
    if i < 3 ∧ j < 3 then p.1.suu.getD (3 * i + j) 0
    else if i < 3 then p.1.su.getD i 0 * at_ p j
    else if j < 3 then p.1.su.getD j 0 * at_ p i
    else at_ p i * at_ p j * p.1.n
  let right := fun (p : ArcSt × Int) (i : Nat) =>
    if i < 3 then p.1.syu.getD i 0 - whole p * p.1.su.getD i 0 else at_ p i * (p.1.sy - whole p * p.1.n)
  let a := (List.range m).map fun i => (List.range m).map fun j => fixed.foldl (fun t p => t + cell p i j) 0
  let r := (List.range m).map fun i => fixed.foldl (fun t p => t + right p i) 0
  match solveSystem a (r.map (· * 2 ^ 30) :: unitVecs m) with
  | some (x :: inv, d) =>
    let g := fun (v : Int) => if d < 0 then -v else v
    let q := max 1 d.natAbs
    let sq := fixed.foldl (fun t p => t + (p.1.syy - 2 * whole p * p.1.sy + whole p * whole p * p.1.n)) 0
    let sse := (sq - roundDiv (dotI (x.map g) r) (2 ^ 30 * q)).toNat
    let n := fixed.foldl (fun t p => t + p.1.n) 0
    let top := (List.range 3).foldl (fun (t : Int) i => max t (g ((inv.getD i []).getD i 0))) 0
    let c := fun i => roundDiv (g (x.getD i 0) * 1000) (q * 2 ^ 32)
    some ((c 0, c 1, c 2), sse * 2 ^ 60 * top.toNat / (max 1 (n - m) * q))
  | _ => none

/-- The estimate of a survey (R209): the baseline in mm once its whole cycles are fixed, and whether every axis has a standard
deviation of at most 5 mm. -/
def arcsEstimate (arcs : List ArcSt) : Option ((Int × Int × Int) × Bool) :=
  match arcsFloat arcs with
  | none => none
  | some b => (arcsSolve (arcsFix arcs b)).map fun p => (p.1, decide (p.2 * 10 ^ 6 ≤ 25 * 2 ^ 64))

/-- A survey after an epoch, begun at `a`: stored when its estimate `r` is within the limit, else it goes on. -/
def State.surveyNext (s : State) (i a : Nat) (arcs : List ArcSt) (r : Option ((Int × Int × Int) × Bool)) : State × Bool :=
  match r with
  | some (b, true) =>
    let s := { s with itg := { s.itg with surv := tblSet s.itg.surv (i + 1) b },
                      nav := { s.nav with survAt := tblErase s.nav.survAt i, arcs := tblErase s.nav.arcs i } }
    ((s.set (ITG_BL_S_SURV i) 1).set (ITG_BL_S_BUSY i) 0, true)
  | _ =>
    (({ s with nav := { s.nav with survAt := tblSet s.nav.survAt i a, arcs := tblSet s.nav.arcs i arcs } } : State).set
      (ITG_BL_S_BUSY i) 1, false)

/-- A survey's epoch (R209): with `WSURV` and no configured baseline b and k are estimated from the differences; it ends after
30 min when every axis is within 5 mm. A baseline that is surveyed is not surveyed again until `WSURV` is set anew, which
restarts the survey (DESIGN CHOICE, log entry 66). The flag tells that one has ended. -/
def State.surveyBase (s : State) (pos : Int × Int × Int) (i : Nat) : State × Bool :=
  let arcs := tblGet s.nav.arcs [] i
  if !s.on ITG_CFG_WSURV || s.on (ITG_BL_S_CFG i) || s.on (ITG_BL_S_SURV i) then
    (({ s with nav := { s.nav with survAt := tblErase s.nav.survAt i, arcs := tblErase s.nav.arcs i } } : State).set
      (ITG_BL_S_BUSY i) 0, false)
  else
    let lead := s.leadAnt
    let ds := (List.range 3).flatMap fun b => (s.diffsBy pos lead b (diffFrom0 lead (i + 1))).map fun o => (b, o)
    if arcs.isEmpty && ds.isEmpty then (s, false)
    else
      let arcs := arcsNext arcs ds
      let a := tblGet s.nav.survAt s.tim.up i
      s.surveyNext i a arcs (if a + 1800000000000 ≤ s.tim.up then arcsEstimate arcs else none)

/-- `WSURV` is set anew: the surveys restart, and no baseline surveyed or stored before is usable (R193, R209). -/
def State.survRestart (s : State) : State :=
  let s := s.each 3 fun i s => (s.set (ITG_BL_S_SURV i) 0).set (ITG_BL_S_BUSY i) 0
  { s with itg := { s.itg with survRe := true }, nav := { s.nav with survAt := [], arcs := [] } }

/-- Baseline surveys and the attitude of an epoch (R209, R214): three baselines define it. A survey's end compares it with the
one stored, if there is one, and stores it (R201). -/
def State.navBaselines (s : State) (pos : Int × Int × Int) : State :=
  let (s, ended) := (List.range 3).foldl (fun (t : State × Bool) i =>
    let (s, e) := t.1.surveyBase pos i
    (s, t.2 || e)) (s, false)
  let i := s.itg
  if s.baselineOk 1 && s.baselineOk 2 && s.baselineOk 3 then
    let b := fun n => (s.baseline n).getD (0, 0, 0)
    let a := Config.attitude (b 1) (b 2) (b 3) pos
    let turned := match i.attSt with
      | some b => if ended then attTurned a b else i.turned
      | none => false
    { s with itg := { i with att := a, attV := true, turned := turned,
                             attSt := if ended || i.attSt.isNone then some a else i.attSt } }
  else { s with itg := { i with attV := false } }

end Sys2Proof.Machine
end

