-- ==== Sys2Proof/Machine/NavBlock.lean ====
section
/-! DEFINITION. The navigation core (ch. 7): position modes, the time solution, the evidence record; the request ring, which
the custody core serves. -/

namespace Sys2Proof.Machine

/-! ### Position (R188–R190) -/

/-- R190: the position may be sealed. -/
def State.sealable (s : State) : Bool := s.nav.posMode == 1 && (s.nav.metAcc || s.fixGiven)

/-- The position mode a start, or the end of FREE, gives (R188). -/
def State.posModeStart (s : State) : Nat :=
  if s.navField 0x04 = 1 then 2
  else if s.cus.rec_.posv || s.fixGiven || s.nav.surveyed then 1
  else 0

/-- The navigation core starts (R354, R357): the parameter block is read and checked and the mordant set is read (R191, R192), a
`FIXPOS` too far from the sealed position is recorded, and the position mode follows. -/
def State.navStart (s : State) : State :=
  let s := { s with nav := { running := true, boot := { pc := s.get SYS_NAVBOOT_ADDR * 4 } }, 
                          net := { s.net with stsOpen := true, ident := none } }
  let s := s.parRead.mordantRead.mordantLoad
  let (s, seq) := s.memRead .nav 0x8000053C 4
  let s := { s with itg := { s.itg with lastSeq := seq.getD s.itg.lastSeq } }
  let s := s.navParams
  let s := if s.navField 0x14 == 1 && !s.fixGiven then
      s.note 0x0007 0x02 2 (satN 32 (isqrt (dist2 s.fixPos s.cus.rec_.spos))) else s
  { s with nav := { s.nav with posMode := s.posModeStart, start := s.startClass } }

/-- The set is written with the position in use (R193, R194). -/
def State.mordantSave (s : State) (items : List (Nat × List Byte)) : State := s.mordantWrite s.posInUse items

/-- The motion flags are known: set within twice the burst interval (R189). -/
def State.movKnown (s : State) : Bool :=
  match s.nav.movAt with
  | none => false
  | some a => s.continuous || decide (s.tim.up ≤ a + 2 * s.get ITG_INTV_INTV * 1000000000)

/-- The epochs that the means of R189 take: of the last 10 s, and of the burst while it is shorter. -/
def State.motionEpochs (s : State) : List (Nat × Nat × (Int × Int × Int)) :=
  let b := s.itg.burst
  s.nav.epochs.filter fun e => decide (s.tim.up < e.1 + 10000000000) && (!b.active || decide (b.startAt ≤ e.1))

/-- The mean of positions, in mm. -/
def meanPos (ps : List (Int × Int × Int)) : Int × Int × Int :=
  let m := fun (f : Int × Int × Int → Int) => roundDiv (ps.foldl (fun a p => a + f p) 0) ps.length
  (m (·.1), m (·.2.1), m (·.2.2))

/-- 0.5 m/s in the unit of an epoch's speed. -/
def halfMetre : Nat := 500000 * 2 ^ 32

/-- The flags of R189 from the means of an epoch; fewer than 1 s of epochs leave them not known, which sets `MOVING`.
A displacement in FIXED mode without a sealed position starts a new survey. -/
def State.navMotion (s : State) (here : Option (Nat × (Int × Int × Int))) : State :=
  let s := match here with
    | some e => { s with nav := { s.nav with epochs := (s.tim.up, e) :: s.motionEpochs } }
    | none => { s with nav := { s.nav with epochs := s.motionEpochs } }
  let n := s.nav
  let es := n.epochs
  if es.length * s.solPeriod < 1000 then { s with nav := { n with moving := true, displaced := false, movAt := none } }
  else
    let ref := if s.cus.rec_.posv then some s.cus.rec_.spos else s.posInUse
    let disp := match ref with
      | some p => decide (50000 * 50000 < dist2 (meanPos (es.map (·.2.2))) p)
      | none => false
    let speed := es.foldl (fun a e => a + e.2.1) 0
    let n := { n with moving := decide (halfMetre * es.length < speed), displaced := disp, movAt := some s.tim.up }
    if disp && n.posMode == 1 && !s.cus.rec_.posv then
      { s with nav := { n with posMode := 0, surveyed := false, metAcc := false, surveyMs := 0, svSum := {}, pos := none } }
    else { s with nav := n }

/-! ### Satellites of a solution (R182, R183) -/

/-- The pairs of a system, primary and alternate: the components of each member (R182). -/
def pairsOf (sys : Nat) : List (List Nat × List Nat) :=
  match sys with
  | 0 => [([0x01], [0x04, 0x05]), ([0x01], [0x06])]
  | 4 => [([0x41], [0x44, 0x45]), ([0x41], [0x46])]
  | 1 => [([0x11, 0x12], [0x13, 0x14]), ([0x11, 0x12], [0x15, 0x16])]
  | 2 => [([0x22, 0x23], [0x24, 0x25]), ([0x21], [0x26])]
  | 3 => [([0x31], [0x32])]
  | _ => []

/-- A member of a pair: its pseudorange in 2^-32 m, its code noise variance in mm², its lowest C/N0 in 0.01 dB-Hz, its carrier in
Hz, its first component. -/
structure Member where
  p    : Int
  var  : Nat
  cn   : Nat
  freq : Nat
  head : Meas
  deriving DecidableEq, Repr

/-- A component's measurement of a satellite that the solution may use: a lead's or a lone channel's (R175), and not that of a
channel excluded by its code residual (R132). -/
def State.compMeas (s : State) (sys sv sig : Nat) : Option Meas :=
  s.nav.meas.find? fun m => m.sys == sys && m.sv == sv && m.sig == sig && !m.follow && m.pr.isSome && !(s.chan m.e).navEx

/-- A member from its components, averaged with equal weight, each with its group-delay term (R182); Galileo's clocks
need none. -/
def State.member (s : State) (sys sv : Nat) (sigs : List Nat) : Option Member :=
  let ms := sigs.filterMap fun g => s.compMeas sys sv g
  match ms with
  | [] => none
  | m :: _ =>
    let terms := (s.sat (satKey sys sv)).terms
    let term := fun (m : Meas) => if sys = 1 then 0 else psLen (tblGet terms 0 m.sig)
    let noise := fun (m : Meas) => noiseMm ((compOf m.sig false false).getD (comp1 0 fL1 chipU 20 0 20)) m.sig m.cn0 m.tcoh
    let c := (compOf m.sig false false).getD (comp1 0 fL1 chipU 20 0 20)
    some { p := roundDiv (ms.foldl (fun a m => a + m.pr.getD 0 + term m) 0) ms.length,
           var := ms.foldl (fun a m => a + noise m * noise m) 0 / (ms.length * ms.length),
           cn := ms.foldl (fun a m => min a m.cn0) m.cn0, freq := ((c.freq : Int) + m.k * c.fstep).toNat, head := m }

/-- The pair of a satellite: the primary one where both members are tracked, else the alternate; the flag tells the
alternate (R182). The members of a GLONASS pair have the same frequency channel. -/
def State.pairFor (s : State) (sys sv : Nat) : Option (Member × Member × Bool) :=
  let ps := (pairsOf sys).map fun p => (s.member sys sv p.1, s.member sys sv p.2)
  let ps := if sys = 3 then ps.filter fun p => p.1.map (·.head.k) == p.2.map (·.head.k) else ps
  match ps with
  | (some a, some b) :: _ => some (a, b, false)
  | [_, (some a, some b)] => some (a, b, true)
  | _ => none

/-- A satellite's part in a solution: the key of its bias, the combination corrected in 2^-32 m, its weight, the direction to it in
2^-30, its range rate in 10^-6 m/s, C/N0 and elevation. -/
structure SatObs where
  sys  : Nat
  sv   : Nat
  k    : Int
  z    : Int
  w    : Int
  dir  : List Int
  rate : Int
  cn   : Nat
  elev : Int
  deriving DecidableEq, Repr

/-- The satellite may enter by a set (R177–R179, R183, R202): admitted, with the set in use within its validity, healthy, not
flagged by SBAS, not in OSNMA state FAIL. -/
def State.satEnters (s : State) (sys sv key : Nat) : Bool :=
  let y := s.sat key
  s.sysOn sys && s.ephNow key && y.healthy && !(s.sat (satKey sys sv)).barred && !(sys == 1 && s.osnmaState sv == 3)

/-- The ionosphere-free combination, 2^-32 m, and its variance in mm² (R182). -/
def ionoFree (a b : Member) : Int × Nat :=
  let f1 := a.freq * a.freq
  let f2 := b.freq * b.freq
  let d := f1 - f2
  (a.p - roundDiv ((b.p - a.p) * f2) d, (f1 * f1 * a.var + f2 * f2 * b.var) / max 1 (d * d))

/-- What the set in use predicts of a satellite at the transmit time of a member (R172, R183): `ts` is the satellite's own
time. -/
def State.satSent (s : State) (key : Nat) (m : Meas) : SatEph :=
  let b := (s.sat key).used.getD []
  let ts := (s.rxTime m.e (s.chan m.e).cfg - s.nav.rxofs * msFine - flightFine (m.pr.getD 0)) / 2 ^ 64
  Config.satAt b (ts - (Config.satAt b ts).clk)

/-- A satellite's observation at a position in mm (R182, R183), with its masks or, while the position is being found, without:
a satellite is corrected by the message whose clock belongs to its pair. -/
def State.satObs (s : State) (pos : Int × Int × Int) (masks : Bool) (sat : Nat × Nat) : Option SatObs :=
  match s.pairFor sat.1 sat.2 with
  | none => none
  | some (a, b, alt) =>
    let key := setKey sat.1 sat.2 (!alt)
    let g := s.satSent key a.head
    let los := subV g.pos pos
    let elev := (lookAt pos los).1
    if !s.satEnters sat.1 sat.2 key || (masks && (decide (min a.cn b.cn < 100 * s.navField 0x03) ||
        decide (elev * 360 < (s.navField 0x02 : Int) * 65536))) then none
    else
      let (p, var) := ionoFree a b
      let dir := dirV los
      let turn := (g.vel.1 * pos.2.1 - g.vel.2.1 * pos.1) * earthRate / (lightSpeed * 10 ^ 18)
      let along := roundDiv (dotI dir [g.vel.1, g.vel.2.1, g.vel.2.2]) (2 ^ 30)
      let dop := roundDiv (a.head.dop * lightSpeed * 10 ^ 6) (256 * max 1 a.freq)
      some { sys := sat.1, sv := sat.2, k := if sat.1 = 3 then a.head.k else 0,
             z := p - rangeTo g.pos pos + psLen g.clk - s.tropo pos elev,
             w := weightOf (var + elevVar elev), dir := dir,
             rate := -dop - along - turn + roundDiv (g.clkRate * lightSpeed) (10 ^ 6), cn := a.cn, elev := elev }

/-- The satellites measured, each once. -/
def State.measSats (s : State) : List (Nat × Nat) :=
  s.nav.meas.foldl (fun (l : List (Nat × Nat)) m => if l.contains (m.sys, m.sv) then l else l ++ [(m.sys, m.sv)]) []

/-! ### Least squares (R184) -/

/-- The `UTCREF` system. -/
def State.refSys (s : State) : Nat := s.navField 0x01

/-- The biases that observations need: one for each other system, and for GLONASS one for each channel. -/
def biasKeys (ref : Nat) (os : List SatObs) : List (Nat × Int) :=
  (os.filter fun o => o.sys != ref).foldl (fun l o => if l.contains (o.sys, o.k) then l else l ++ [(o.sys, o.k)]) []

/-- The broadcast offset of a system's time against that of the `UTCREF` system, ps. -/
def State.timeOffset (s : State) (sys : Nat) : Option Int :=
  let o := fun k => if k = 0 then some 0 else tblFind s.nav.offs k
  match o sys, o s.refSys with
  | some a, some b => some (a - b)
  | _, _ => none

/-- The unknowns are δ, biases, and, when it is free, the position. -/
def obsRow (keys : List (Nat × Int)) (free : Bool) (o : SatObs) : List Int :=
  [2 ^ 30] ++ keys.map (fun k => if k = (o.sys, o.k) then 2 ^ 30 else 0) ++ (if free then o.dir.map (- ·) else [])

/-- Priors on biases: the broadcast offsets with a standard deviation of 10 ns (R184). -/
def State.priors (s : State) (keys : List (Nat × Int)) (free : Bool) : List ObsRow :=
  keys.filterMap fun k => (s.timeOffset k.1).map fun o =>
    ([0] ++ keys.map (fun j => if j = k then 2 ^ 30 else 0) ++ (if free then [0, 0, 0] else []), -psLen o, weightOf 8987552)

/-- A solution of the pseudoranges: unknowns over one divisor, the inverse normal matrix over it, degrees of freedom,
observations with their residuals in 2^-32 m, keys of the biases. -/
structure Fit where
  x    : List Int
  inv  : List (List Int)
  d    : Int
  dof  : Int
  res  : List (SatObs × Int)
  keys : List (Nat × Int)
  deriving DecidableEq, Repr

/-- The solution of observations, with the position free or held. -/
def State.fitOf (s : State) (os : List SatObs) (free : Bool) : Option Fit :=
  let keys := biasKeys s.refSys os
  let n := 1 + keys.length + (if free then 3 else 0)
  (leastSquares n (os.map (fun o => (obsRow keys free o, o.z, o.w)) ++ s.priors keys free)).map fun r =>
    { x := r.1, inv := r.2.1, d := r.2.2, dof := (os.length : Int) - n, keys := keys,
      res := os.map fun o => (o, roundDiv (o.z * 2 ^ 30 * r.2.2 - dotI (obsRow keys free o) r.1) (2 ^ 30 * r.2.2.toNat)) }

/-- A correction of the position, mm. -/
def Fit.shift (f : Fit) (lin : Int × Int × Int) : Int × Int × Int :=
  let n := 1 + f.keys.length
  let c := fun i => roundDiv (f.x.getD (n + i) 0 * 1000) (f.d.toNat * 2 ^ 32)
  (lin.1 + c 0, lin.2.1 + c 1, lin.2.2 + c 2)

/-- The position of satellites by least squares, from a start: the equations are made linear anew until it moves by no more than
1 mm, at most so many times. -/
def State.posOf (s : State) (sats : List (Nat × Nat)) : Nat → (Int × Int × Int) → (Int × Int × Int)
  | 0, p => p
  | n + 1, p =>
    match s.fitOf (sats.filterMap (s.satObs p false)) true with
    | none => p
    | some f =>
      let q := f.shift p
      if dist2 q p ≤ 1 then q else s.posOf sats n q

/-- A solution: the position about which it is made, with the fit there. -/
structure Sol where
  pos : Int × Int × Int
  fit : Fit
  deriving DecidableEq, Repr

/-- The solution of satellites with the position estimated or held (R183, R184): an estimate starts from the position known, or
from the centre of the Earth. -/
def State.solve (s : State) (sats : List (Nat × Nat)) (free : Bool) : Option Sol :=
  let p := s.posAid.getD (0, 0, 0)
  let q := if free then s.posOf sats 20 p else p
  let os := sats.filterMap (s.satObs q true)
  let q := if free then s.posOf (os.map fun o => (o.sys, o.sv)) 20 q else q
  let os := sats.filterMap (s.satObs q true)
  (s.fitOf os free).map fun f => { pos := q, fit := f }

/-- `CHI2` of a solution, 2^-8 (R200, R202). -/
def State.chiOf (s : State) (f : Fit) : State × Nat :=
  let (s, q) := s.quotient (f.res.foldl (fun a p => a + p.2 * p.2 * p.1.w) 0 * 256000000) (2 ^ 128)
  (s, q.toNat)

/-- The observation of the largest normalised residual. -/
def Fit.worst (f : Fit) : Option SatObs :=
  (f.res.foldl (fun (b : Option (SatObs × Int)) p =>
    let v := p.2 * p.2 * p.1.w
    match b with
    | some q => if q.2 < v then some (p.1, v) else b
    | none => some (p.1, v)) none).map (·.1)

/-- The solution after the residual test (R202): the first one, or the one without the satellite of the largest normalised residual
when it meets the conditions; with `CHI2` and the satellite left out. -/
def State.solExclude (s : State) (free : Bool) (y : Sol) : State × Sol × Nat × Option SatObs :=
  let (s, c) := s.chiOf y.fit
  if c ≤ (chi2Limits y.fit.dof.toNat).2 then (s, y, c, none)
  else
    match y.fit.worst with
    | none => (s, y, c, none)
    | some o =>
      match s.solve (s.measSats.filter (· != (o.sys, o.sv))) free with
      | none => (s, y, c, none)
      | some z =>
        let (s, c') := s.chiOf z.fit
        if 2 ≤ z.fit.dof ∧ c' ≤ (chi2Limits z.fit.dof.toNat).1 then (s, z, c', some o) else (s, y, c, none)

/-! ### Results (R184, R185, R188, R189) -/

/-- δ in ps: device time against TAI by the system's broadcast UTC (R184, R185). -/
def State.fitDelta (s : State) (f : Fit) : State × Int :=
  let u := tblGet s.nav.utc {} s.refSys
  let (s, d) := lenPs s (f.x.getD 0 0) f.d.toNat
  let (s, r) := s.quotient (u.a1 * ((tvSec s.now : Int) - u.t0) * 10 ^ 12) (2 ^ 50)
  (s, d + u.a0 + r)

/-- The standard deviation of δ in ps. -/
def State.fitSigma (s : State) (f : Fit) : State × Nat :=
  s.root (2 ^ 124 * ((f.inv.getD 0 []).getD 0 0).toNat * 10 ^ 18) (f.d.toNat * lightSpeed ^ 2)

/-- The time dilution of precision, 0.01: without weights and priors; open where the geometry alone gives none. -/
def State.fitTdop (s : State) (f : Fit) (free : Bool) : State × Nat :=
  match leastSquares f.x.length (f.res.map fun p => (obsRow f.keys free p.1, 0, 1)) with
  | some (_, inv, d) => s.root (2 ^ 60 * ((inv.getD 0 []).getD 0 0).toNat * 10 ^ 4) d.toNat
  | none => s.draw 65536

/-- The velocity in 10^-6 m/s and the clock drift in 10^-12, from Doppler (R184): the drift alone where the geometry gives no
velocity. -/
def State.fitRate (s : State) (os : List SatObs) : State × Option (Int × Int × Int) × Int :=
  let drift := fun (s : State) (n : Int) (d : Int) => s.quotient (n * 10 ^ 6) (d.toNat * lightSpeed)
  match leastSquares 4 (os.map fun o => (o.dir.map (- ·) ++ [2 ^ 30], o.rate, 1)) with
  | some (x, _, d) =>
    let v := fun i => roundDiv (x.getD i 0) d.toNat
    let (s, r) := drift s (x.getD 3 0) d
    (s, some (v 0, v 1, v 2), r)
  | none =>
    let (s, r) := drift s (os.foldl (fun a o => a + o.rate) 0) os.length
    (s, none, r)

/-- The inverse covariance of an estimated position, 2^64 / mm², by rows. -/
def Fit.posInfo (f : Fit) : List Int :=
  let n := 1 + f.keys.length
  let c := (List.range 3).map fun i => (List.range 3).map fun j => (f.inv.getD (n + i) []).getD (n + j) 0
  match solveSystem c (unitVecs 3) with
  | some (m, d) => m.flatten.map fun v => v * f.d / (d * 2 ^ 60)
  | none => []

/-- Rows of a 3 × 3 matrix. -/
def rows3 (m : List Int) : List (List Int) := (List.range 3).map fun i => sliceI m (3 * i) 3

/-- The mean position of a survey in mm and its 3D standard deviation in mm (R188). -/
def SurveySt.mean (y : SurveySt) : Option ((Int × Int × Int) × Nat) :=
  match solveSystem (rows3 y.info) (y.vec :: unitVecs 3) with
  | some (x :: inv, d) =>
    let c := fun i => roundDiv (if d < 0 then -(x.getD i 0) else x.getD i 0) (d.natAbs * 1000)
    let tr := (List.range 3).foldl (fun a i => a + (inv.getD i []).getD i 0) 0
    some ((c 0, c 1, c 2), isqrt ((if d < 0 then -tr else tr).toNat * 2 ^ 64 / d.natAbs))
  | _ => none

/-- An epoch's position added to a survey's average (R188). -/
def SurveySt.add (y : SurveySt) (info : List Int) (pos : Int × Int × Int) : SurveySt :=
  let p := [pos.1 * 1000, pos.2.1 * 1000, pos.2.2 * 1000]
  { info := (List.range 9).map fun i => y.info.getD i 0 + info.getD i 0,
    vec := (List.range 3).map fun i => y.vec.getD i 0 + dotI (sliceI info (3 * i) 3) p }

/-- The survey goes on, or ends (R188): after `SVMIN` within `SVACC`, or at `SVMAX`; its end asks for a write of the
mordant set (R194). -/
def State.navSurvey (s : State) (pos : Int × Int × Int) (info : List Int) : State :=
  let n := s.nav
  if n.posMode = 1 then s
  else if n.posMode = 2 then { s with nav := { n with freePos := some pos } }
  else
    let ms := n.surveyMs + s.solPeriod
    let sum := n.svSum.add info pos
    let (p, acc) := (sum.mean).getD (pos, n.posAcc)
    let met := decide (s.navField 0x08 * 60000 ≤ ms) && decide (acc ≤ s.navField 0x0C)
    let n := { n with surveyMs := ms, pos := some p, posAcc := acc, svSum := sum }
    if met || decide (s.svMax * 60000 ≤ ms) then
      ({ s with nav := { n with posMode := 1, surveyed := true, metAcc := met } }).mordantAsk
    else { s with nav := n }

/-! ### The evidence record (R200) -/

/-- A time within the last hour of elapsed time. -/
def State.lastHour (s : State) (o : Option Nat) : Bool :=
  match o with
  | some a => decide (s.tim.up ≤ a + 3600000000000)
  | none => false

/-- What an evidence record tells of a solution beside the state of the navigation core. -/
structure EvidOut where
  nsat : Nat
  dof  : Nat
  excl : Nat
  chi2 : Nat
  osok : Nat
  osfail : Nat
  cnspread : Nat
  elspan : Nat
  woad : List WoadEnt
  deriving DecidableEq, Repr

/-- The evidence record's 64 octets with its count (R200). -/
def State.evidOctets (s : State) (x : EvidOut) (seq : Nat) : List Byte :=
  let n := s.nav
  let fl := b2n (n.moving || !s.movKnown) + 2 * b2n n.displaced + 4 * b2n s.movKnown +
    8 * b2n (s.lastHour n.ephrefAt) + 16 * b2n (s.lastHour n.leapdisAt) + 32 * n.posMode
  leBytes 8 (tv64 n.measT) ++ leBytes 1 (satN 8 x.nsat) ++ leBytes 1 (satN 8 x.dof) ++ leBytes 1 x.excl ++
    leBytes 1 fl ++ leBytes 4 (satN 32 x.chi2) ++ leBytes 4 (uns 32 (satI 32 n.delta)) ++
    leBytes 4 (uns 32 (satI 32 n.drift)) ++ leBytes 4 (satN 32 n.sigma) ++ leBytes 1 (satN 8 x.osok) ++
    leBytes 1 (satN 8 x.osfail) ++ leBytes 1 (satN 8 x.cnspread) ++ leBytes 1 (satN 8 x.elspan) ++
    x.woad.flatMap (fun e => [e.n, e.g, e.c, e.r, e.m, e.band].flatMap (leBytes 1)) ++
    x.woad.flatMap (fun e => leBytes 1 e.azs) ++ leBytes 7 0 ++ leBytes 4 seq

/-- The words of a list of octets. -/
def wordsOf : List Byte → List Nat
  | b0 :: b1 :: b2 :: b3 :: bs => leNat [b0, b1, b2, b3] :: wordsOf bs
  | _ => []

/-- Galileo satellites measured, each once. -/
def State.galileos (s : State) : List Nat :=
  (s.nav.meas.filter fun m => m.sys == 1).foldl (fun (l : List Nat) m => if l.contains m.sv then l else m.sv :: l) []

/-- Spread of a list: the largest less the smallest. -/
def spread (l : List Int) : Int :=
  match l with
  | [] => 0
  | a :: l => l.foldl max a - l.foldl min a

/-- The figures of a solution for its evidence record (R200, R201). -/
def State.evidOut (s : State) (f : Fit) (chi2 excl : Nat) (pos : Int × Int × Int) : State × EvidOut :=
  let os := f.res.map (·.1)
  let (s, cn) := s.quotient (spread (os.map fun o => (o.cn : Int))) 10
  let (s, el) := s.quotient (spread (os.map fun o => o.elev) * 360) 65536
  let lead := s.leadAnt
  (s, { nsat := os.length, dof := f.dof.toNat, excl := excl, chi2 := chi2,
        osok := (os.filter fun o => o.sys == 1 && s.osnmaState o.sv == 2).length,
        osfail := (s.galileos.filter fun v => s.osnmaState v == 3).length, cnspread := cn.toNat, elspan := el.toNat,
        woad := (List.range 3).map fun p => s.woadPairEntry pos lead p })

/-! ### The solution epoch (R132, R184, R186, R200, R202) -/

/-- The marks `USED` and `REJ` of the epoch's measurements (R195): the components of the satellites' pairs. -/
def State.markMeas (s : State) (os : List SatObs) (rej : Option SatObs) : State :=
  let mem := fun (l : List SatObs) (m : Meas) => !m.follow && m.pr.isSome && l.any fun o => o.sys == m.sys && o.sv == m.sv &&
    (match s.pairFor m.sys m.sv with
      | some (a, b, _) => (pairsOf m.sys).any fun p =>
          p.1.contains a.head.sig && p.2.contains b.head.sig && (p.1 ++ p.2).contains m.sig
      | none => false)
  { s with nav := { s.nav with meas := s.nav.meas.map fun m =>
      { m with used := mem os m, rej := mem rej.toList m } } }

/-- The scale of a system (R229): none for SBAS. -/
def scaleOf (sys : Nat) : Option Nat := if sys ≤ 5 then some (sys + 2) else none

/-- A system's time against that of the `UTCREF` system, ps: by the biases solved, their mean over the frequency channels of
GLONASS, or else as broadcast (R184, R229; log entry 61). -/
def State.solvedOffset (s : State) (f : Fit) (sys : Nat) : State × Option Int :=
  let bs := (List.range f.keys.length).filter fun i => (f.keys.getD i (99, 0)).1 == sys
  if sys = s.refSys then (s, some 0)
  else if bs.isEmpty then (s, s.timeOffset sys)
  else
    let (s, b) := lenPs s (bs.foldl (fun a i => a + f.x.getD (1 + i) 0) 0) (f.d.toNat * bs.length)
    (s, some (-b))

/-- The biases of the scales, which the navigation core writes (R229): a system's time less device time, whole seconds aside. -/
def State.scaleWrite (s : State) (f : Fit) : State :=
  let u := tblGet s.nav.utc {} s.refSys
  let (s, r) := s.quotient (u.a1 * ((tvSec s.now : Int) - u.t0) * 10 ^ 12) (2 ^ 50)
  s.each 6 fun sys s =>
    match s.solvedOffset f sys, scaleOf sys with
    | (s, some o), some k => s.set ⟨0x400400A0 + (k - 2) * 4, 31, 0, 0⟩ (uns 32 (satI 32 (u.a0 + r + o)))
    | (s, _), _ => s

/-- What an accepted epoch gives (R184, R188, R189, R229): last solution, biases of the scales, flags, position and survey. -/
def State.solResults (s : State) (free : Bool) (y : Sol) : State :=
  let f := y.fit
  let delta := s.fitDelta f
  let sigma := delta.1.fitSigma f
  let tdop := sigma.1.fitTdop f free
  let used := f.res.map (·.1)
  let rate := tdop.1.fitRate used
  let s := rate.1.scaleWrite f
  let vel := rate.2.1
  let pos := f.shift y.pos
  let un : Option (Int × Int × Int) := if free then some pos
    else (s.solve (used.map fun o => (o.sys, o.sv)) true).map fun z => z.fit.shift z.pos
  let here := match vel, un with
    | some v, some p => some (isqrt ((dotV v v).toNat * 2 ^ 64), p)
    | _, _ => none
  let s := { s with nav := { s.nav with vel := vel.getD s.nav.vel } }
  let s := (s.navMotion here).navSurvey pos (if free then f.posInfo else [])
  { s with nav := { s.nav with nsv := used.length, sigma := sigma.2, delta := delta.2, drift := rate.2.2, tdop := tdop.2,
                               solAt := s.nav.measEp, solved := true, groupsOk := s.groupsMet } }

/-- A solution epoch begins: which sets are used, the mode in force, and the measurements of the last report instant
(R178, R186, R188). -/
def State.solBegin (s : State) : State :=
  let sats : Tbl SatSt := s.nav.sats.map fun (e : Nat × SatSt) => (e.1, s.satUse e.1 e.2)
  let mode := if s.navField 0x04 = 1 then 2 else if s.nav.posMode = 2 then s.posModeStart else s.nav.posMode
  ({ s with nav := { s.nav with sats := sats, posMode := mode, notime := !s.osnmaTime } }).measEpoch

/-- The position is estimated, not fixed (R184). -/
def State.posFree (s : State) : Bool := s.nav.posMode != 1

/-- An accepted epoch (R200, R202): its exclusion, its results, and the evidence record, whose count is written last. -/
def State.solAccept (s : State) (y : Sol) : State :=
  let e := s.solExclude s.posFree y
  let y := e.2.1
  let rej := e.2.2.2
  let pos := if s.posFree then y.fit.shift y.pos else y.pos
  let r := ((e.1.solResults s.posFree y).markMeas (y.fit.res.map (·.1)) rej).navBaselines pos
  let q := r.memRead .nav 0x8000053C 4
  let seq := (q.2.getD q.1.itg.lastSeq + 1) % 2 ^ 32
  let o := q.1.evidOut y.fit e.2.2.1 (b2n rej.isSome) pos
  let lead := o.1.leadAnt
  let ev := (List.range 3).map fun p => (o.1.woadBands pos lead p).map WoadEnt.codes
  let t := { o.1 with nav := { o.1.nav with lead := lead, woadEv := ev } }
  t.memWriteWords .nav 0x80000500 (wordsOf (t.evidOctets o.2 seq))

/-- A solution epoch (R186): the measurements of the last report instant; it is accepted when its satellites exceed the
estimated states by at least 2 (R184), and then position, flags and last solution follow and an evidence record is
written, its count last. -/
def State.solution (s : State) : State :=
  if !s.navOn then s
  else
    let s := s.solBegin
    match s.solve s.measSats s.posFree with
    | none => s
    | some y => if y.fit.dof < 2 then s else s.solAccept y

/-! ### Requests for umber entries (R333) -/

/-- One request: stamped with the device time of acceptance, or refused and counted. -/
def State.navRequest (s : State) (ws : List Nat) : State :=
  let bs := ws.flatMap (leBytes 4)
  let typ := leNat (sliceN bs 0 2)
  let lvl := leNat (sliceN bs 2 1)
  let pay := leNat (sliceN bs 4 10)
  if typ = 0x0006 then s.note typ 0x02 1 pay
  else if typ = 0x0007 then s.note typ 0x02 2 pay
  else if 0x0F00 ≤ typ ∧ typ ≤ 0x0FFF ∧ lvl ≤ 3 then s.note typ 0x02 lvl pay
  else s.incSat UMB_NREF_COUNT

/-- The slots of the ring as the custody core reads them (R21): a slot with a double-bit error is not taken. -/
def State.navSlots (s : State) : State × List (List Nat) :=
  (List.range 16).foldl (fun (t : State × List (List Nat)) i =>
    let (s, ws, ok) := t.1.memReadWords .nav (0x80000600 + 16 * i) 4
    (s, if ok then t.2 ++ [ws] else t.2)) (s, [])

/-- Requests taken in count order from slots, at most `fuel` of them. -/
def State.navTake (s : State) (slots : List (List Nat)) : Nat → State
  | 0 => s
  | fuel + 1 =>
    let want := s.umb.reqNext.getD 1
    match slots.find? fun ws => ws.getD 3 0 / 2 ^ 24 % 256 == want with
    | none => s
    | some ws =>
      let s := s.navRequest ws
      State.navTake { s with umb := { s.umb with reqNext := some ((want + 1) % 256) } } slots fuel

/-- The request ring polled (R333). -/
def State.navPoll (s : State) (fuel : Nat) : State :=
  let (s, slots) := s.navSlots
  s.navTake slots fuel

end Sys2Proof.Machine
end

