-- ==== Sys2Proof/Machine/PtpBlock.lean ====
section
/-! DEFINITION. The PTP engine (ch. 11): ports, the best master clock algorithm, servos, the source slot, transparent
forwarding. Instants are in 2^-64 ns of device time; message times and corrections in 2^-16 ns. The standard's own tables
are IEEE 1588-2019 (R260; log entry 44). -/

namespace Sys2Proof.Machine

/-! ### Ports and their slots -/

/-- A port's record for a slot. -/
def State.pslot (s : State) (p k : Nat) : PortSlot := if k = 0 then (s.port p).a else (s.port p).b
/-- A port's record for a slot set. -/
def State.setPslot (s : State) (p k : Nat) (x : PortSlot) : State :=
  s.setPort p (if k = 0 then { s.port p with a := x } else { s.port p with b := x })

/-- `EPT_PSTATE` of a slot: the standard's portState. -/
def pstateF (p k : Nat) : Field := if k = 0 then EPT_PSTATE_STATEA p else EPT_PSTATE_STATEB p
/-- A port's state in a slot. -/
def State.pstate (s : State) (p k : Nat) : Nat := s.get (pstateF p k)
/-- A port's state in a slot set; a change raises `EPT_IRQ.PSTATE`. -/
def State.setPstate (s : State) (p k v : Nat) : State :=
  if s.pstate p k = v then s else (s.set (pstateF p k) v).orF (EPT_IRQ_IRQ p) 2

/-- A port's role in a slot (R262). -/
def State.prole (s : State) (p k : Nat) : Nat := s.get (if k = 0 then EPT_PROLE_ROLEA p else EPT_PROLE_ROLEB p)

/-- The port is on, its link is up and its transmitter runs, and the part has more than the minimum service set (R28–R30). -/
def State.portUp (s : State) (p : Nat) : Bool :=
  s.on (EPT_CFG_EN p) && s.on (EPT_STAT_LINK p) && !s.on (EPT_STAT_TXSTOP p) && s.serves

/-- The port has a role in a CLOCK slot (R262); while its link is down its state and its servo stay (R257). -/
def State.portHas (s : State) (p k : Nat) : Bool :=
  s.on (EPT_CFG_EN p) && s.on (EPT_CFG_PTPEN p) && s.prole p k != 0 && s.get (EPT_DOM_CFG_TYPE k) == 1 && s.serves

/-- The port takes part in a CLOCK slot: it has a role and its link is up. -/
def State.portIn (s : State) (p k : Nat) : Bool := s.portHas p k && s.portUp p

/-- The slot of a domain, none when neither slot has it configured. -/
def State.slotOf (s : State) (domain : Nat) : Option Nat :=
  (List.range 2).find? fun k => s.get (EPT_DOM_CFG_TYPE k) != 0 && s.get (EPT_DOM_CFG_DOMAIN k) == domain

/-- `EPT_CLKID`. -/
def State.clkId (s : State) : Nat := s.get EPT_CLKID_H_ID * 2 ^ 32 + s.get EPT_CLKID_L_ID

/-- The slot is slaveOnly: `CONLY`, or the slot of the time domain on a member (R263). -/
def State.slaveOnly (s : State) (k : Nat) : Bool :=
  s.on (EPT_DOM_CFG_CONLY k) || (s.net.member && s.get EPT_CLK_TDSLOT == k)

/-- 2 to a signed power of 1 s, in ns. -/
def logNs (l : Int) : Nat := if 0 ≤ l then 1000000000 * 2 ^ l.toNat else 1000000000 / 2 ^ (-l).toNat

/-! ### Times of messages (R258, R259) -/

/-- Ingress time of a receive stamp (R258). -/
def State.ingress (s : State) (p sub : Nat) : Int := (s.now sub : Int) - psU (s.getI (EPT_LAT_RX_PS p))
/-- Egress time of a transmit stamp (R258). -/
def State.egress (s : State) (p sub : Nat) : Int := (s.now sub : Int) + psU (s.getI (EPT_LAT_TX_PS p))
/-- An instant in 2^-16 ns. -/
def to16 (u : Int) : Nat := (u / 2 ^ 48).toNat
/-- delayAsymmetry of a port. -/
def State.asym (s : State) (p : Nat) : Int := psU (s.getI (EPT_ASYM_PS p))

/-! ### Datasets and the best master clock algorithm (R213, R260, R264) -/

/-- The enumerated accuracies of the standard from 1 ns up: limit in ns and code. -/
def accCodes : List (Nat × Nat) :=
  [(1, 0x1D), (2, 0x1E), (10, 0x1F), (25, 0x20), (100, 0x21), (250, 0x22), (1000, 0x23), (2500, 0x24), (10000, 0x25),
   (25000, 0x26), (100000, 0x27), (250000, 0x28), (1000000, 0x29), (2500000, 0x2A), (10000000, 0x2B), (25000000, 0x2C),
   (100000000, 0x2D), (250000000, 0x2E), (1000000000, 0x2F), (4294967293, 0x30)]

/-- The smallest enumerated accuracy at or above a bound in ns. -/
def accOf (ns : Nat) : Nat :=
  match accCodes.find? fun e => decide (ns ≤ e.1) with
  | some e => e.2
  | none => 0x31

/-- `clockClass` advertised (R213). -/
def State.ownClass (s : State) : Nat :=
  match s.code with
  | 4 => 6
  | 3 => 7
  | 2 => 52
  | 1 => 52
  | _ => 248

/-- A message with every field at zero. -/
def ptpZero : PtpMsg :=
  { mtype := 0, domain := 0, twoStep := false, seq := 0, corr := 0, srcId := 0, srcPort := 0, ts := 0, reqId := 0,
    reqPort := 0, logInt := 0, prio1 := 0, gmClass := 0, gmAcc := 0, gmVar := 0, prio2 := 0, gmId := 0, steps := 0,
    tsrc := 0, utcOfs := 0, aflags := 0 }

/-- The part's own dataset as grandmaster (R213, R264). -/
def State.ownDs (s : State) : PtpMsg :=
  let good := decide (3 ≤ s.code)
  let l := s.get TIM_UTC_LEAP
  let lt := s.get2 TIM_LEAPT_L_SEC TIM_LEAPT_H_SEC
  let n := tvSec s.now
  let near := decide (lt ≤ n + 43200) && decide (n < lt)
  let fl := b2n (l == 1 && near) + 2 * b2n (l == 2 && near) + 4 * b2n (s.get TIM_STAT_STATE != 0) + 8 + 16 * b2n good +
    32 * b2n good
  { ptpZero with
    prio1 := BitVec.ofNat 8 (s.get EPT_CLK_PRIO1)
    gmClass := BitVec.ofNat 8 s.ownClass
    gmAcc := BitVec.ofNat 8 (if s.code = 0 then 0xFE else accOf s.terrNow)
    gmVar := if good then 0x4E5D else 0xFFFF
    prio2 := BitVec.ofNat 8 (s.get EPT_CLK_PRIO2)
    gmId := BitVec.ofNat 64 s.clkId
    srcId := BitVec.ofNat 64 s.clkId
    tsrc := if s.code = 4 then 0x20 else 0xA0
    utcOfs := -(s.getI TIM_UTC_UTCOFS)
    aflags := BitVec.ofNat 8 fl }

/-- The standard's comparison of two datasets of one grandmaster, each with the port that received it: 2 and −2 where one is
better, 1 and −1 where it is better by topology (R260; log entry 44). -/
def dsPath (clk : Nat) (a : PtpMsg) (ra : Nat) (b : PtpMsg) (rb : Nat) : Int :=
  let sa := a.steps.toNat
  let sb := b.steps.toNat
  if sb + 1 < sa then -2
  else if sa + 1 < sb then 2
  else if sb < sa then (if clk < a.srcId.toNat then -2 else -1)
  else if sa < sb then (if clk < b.srcId.toNat then 2 else 1)
  else
    let x := [a.srcId.toNat, ra, a.srcPort.toNat]
    let y := [b.srcId.toNat, rb, b.srcPort.toNat]
    if x < y then 1 else if y < x then -1 else 0

/-- The standard's dataset comparison: of two grandmasters by their attributes, within one by the path. -/
def dsOrder (clk : Nat) (a : PtpMsg) (ra : Nat) (b : PtpMsg) (rb : Nat) : Int :=
  let gm := fun (m : PtpMsg) =>
    [m.prio1.toNat, m.gmClass.toNat, m.gmAcc.toNat, m.gmVar.toNat, m.prio2.toNat, m.gmId.toNat]
  if a.gmId = b.gmId then dsPath clk a ra b rb else if gm a < gm b then 2 else -2

/-- The best of the datasets that a port received. -/
def dsBest (clk p : Nat) : List PtpMsg → Option PtpMsg
  | [] => none
  | m :: ms =>
    match dsBest clk p ms with
    | none => some m
    | some b => some (if 0 < dsOrder clk b p m p then b else m)

/-- The best qualified foreign master of a port in a slot: heard twice within four announce intervals. -/
def State.erBest (s : State) (p k : Nat) : Option PtpMsg :=
  let w := 4 * logNs (s.getI (EPT_DOM_INT_LANN k))
  dsBest s.clkId (p + 1) (((s.pslot p k).foreign.filter fun f =>
    match f.at2 with
    | some a => decide (f.at1 ≤ a + w)
    | none => false).map fun f => f.msg)

/-- The ports of a slot with their best foreign masters. -/
def State.erAll (s : State) (k : Nat) : List (Nat × PtpMsg) :=
  (List.range 8).filterMap fun p => if s.portHas p k then (s.erBest p k).map fun m => (p, m) else none

/-- The port that holds the best dataset of a slot, with that dataset. -/
def State.eBest (s : State) (k : Nat) : Option (Nat × PtpMsg) :=
  (s.erAll k).foldl (fun b e =>
    match b with
    | none => some e
    | some x => if 0 < dsOrder s.clkId e.2 (e.1 + 1) x.2 (x.1 + 1) then some e else some x) none

/-- The recommended state of a port (R260, R262, R263): MASTER 6, PASSIVE 7, SLAVE 9, LISTENING 4, with the announce intervals
of PRE_MASTER before MASTER. A port whose own best dataset is of the best one's path only is PASSIVE. A LISTENING port that holds
no dataset stays LISTENING until its announce timeout, whatever the others hold. -/
def State.decide_ (s : State) (p k : Nat) (best : Option (Nat × PtpMsg)) : Nat × Nat :=
  let own := s.ownDs
  let clk := s.clkId
  let so := s.slaveOnly k
  let st := s.pstate p k
  let want : Nat × Nat :=
    match best, s.erBest p k with
    | none, _ => if so then (4, 0) else if st = 4 ∨ st = 1 then (4, 0) else (6, 0)
    | some (r, b), er =>
      if so then (if r = p then (9, 0) else (4, 0))
      else if er.isNone && st = 4 then (4, 0)
      else if own.gmClass.toNat ≤ 127 then
        match er with
        | some e => if 0 < dsOrder clk own 0 e (p + 1) then (6, 0) else (7, 0)
        | none => (6, 0)
      else if 0 < dsOrder clk own 0 b (r + 1) then (6, 0)
      else if r = p then (9, 0)
      else
        match er with
        | some e => if dsOrder clk b (r + 1) e (p + 1) = 1 then (7, 0) else (6, b.steps.toNat + 1)
        | none => (6, b.steps.toNat + 1)
  match s.prole p k with
  | 2 => if want.1 = 9 then (7, 0) else want
  | 3 => if want.1 = 6 then (4, 0) else want
  | _ => want

/-- A port takes its recommended state (R260): MASTER after the announce intervals of PRE_MASTER (5), SLAVE after the first Sync
taken in UNCALIBRATED (8). -/
def State.recommend (s : State) (p k : Nat) (d : Nat × Nat) (newParent : Bool) : State :=
  let st := s.pstate p k
  if d.1 = 6 ∧ st ≠ 6 ∧ d.2 ≠ 0 then
    if st = 5 then s
    else
      let at_ := s.tim.up + d.2 * logNs (s.getI (EPT_DOM_INT_LANN k))
      (s.setPslot p k { s.pslot p k with qualAt := at_ }).setPstate p k 5
  else if d.1 = 9 then (if (st = 9 ∨ st = 8) ∧ !newParent then s else s.setPstate p k 8)
  else s.setPstate p k d.1

/-- A port follows the parent of its slot: SLAVE, or UNCALIBRATED before it. -/
def State.follows (s : State) (p k : Nat) : Bool := s.pstate p k == 9 || s.pstate p k == 8

/-- The parent's dataset, or the part's own, shown in the slot's registers. -/
def State.slotShow (s : State) (k : Nat) : State :=
  let m := (s.slot k).parent.getD s.ownDs
  let s := s.set (EPT_DOM_STAT_GMCLASS k) m.gmClass.toNat
  let s := s.set (EPT_DOM_STAT_STEPS k) m.steps.toNat
  let s := s.set (EPT_DOM_GMID_H_ID k) (m.gmId.toNat / 2 ^ 32)
  s.set (EPT_DOM_GMID_L_ID k) m.gmId.toNat

/-! ### Servos (R268, R269) -/

/-- Offsets averaged; below 4 acts as 4. -/
def State.eptAvg (s : State) : Nat := max 4 (s.get EPT_AVG_AVG)

/-- The mean of a list, rounded to nearest; 0 for none. -/
def meanI (xs : List Int) : Int := if xs = [] then 0 else roundDiv (xs.foldl (· + ·) 0) xs.length

/-- The offsets a slot averages. -/
def State.avgOf (s : State) (k : Nat) : List Int := ((s.slot k).samples.take s.eptAvg).map (·.1)

/-- Samples of a slot from the last 2 s. -/
def State.fresh (s : State) (k : Nat) : Nat :=
  ((s.slot k).samples.filter fun e => decide (s.tim.up ≤ e.2 + 2000000000)).length

/-- δ_dom, σ, `SAMPLES` and `LOCKED` of a slot (R268), and how long LOCKED and the condition of AUTO have held
(R271). -/
def State.slotEval (s : State) (k : Nat) : State :=
  let xs := s.avgOf k
  let s := s.setI (EPT_DOM_OFS_PS k) (clampI (-2147483647) 2147483647 (meanI xs))
  let s := s.set (EPT_DOM_SIG_PS k) (satN 32 (stdDev xs))
  let s := s.set (EPT_DOM_STAT_SAMPLES k) (satN 8 (s.slot k).samples.length)
  let lock := decide (8 ≤ s.fresh k) && !s.on (EPT_DOM_STAT_ANNTO k) && (s.slot k).port.isSome
  let s := s.setB (EPT_DOM_STAT_LOCKED k) lock
  let x := s.slot k
  let s := s.setSlot k { x with lockAt := if lock then some (x.lockAt.getD s.tim.up) else none }
  let cond := s.on (EPT_DOM_STAT_LOCKED 0) && decide (s.get (EPT_DOM_STAT_GMCLASS 0) ≤ s.get (EPT_DOM_STAT_GMCLASS 1))
  let y := s.slot 0
  (s.setSlot 0 { y with condAt := if cond then some (y.condAt.getD s.tim.up) else none }).xTidy

/-- A slot's samples dropped: its parent changed. What it measured in the seconds before stays for a switch (R271). -/
def State.slotClear (s : State) (k : Nat) : State := (s.setSlot k { s.slot k with samples := [] }).slotEval k

/-- Samples of the last 2 s run out (R268). -/
def State.slotAged (s : State) (k : Nat) : State := s.slotEval k

/-- Two datasets are of one parent. -/
def sameParent (a b : Option PtpMsg) : Bool :=
  match a, b with
  | some a, some b => a.srcId == b.srcId && a.srcPort == b.srcPort
  | none, none => true
  | _, _ => false

/-- Every port's state in a slot decided again; the slot follows its SLAVE port and its parent. A change of either drops the
samples. -/
def State.bmca (s : State) (k : Nat) : State :=
  let best := s.eBest k
  let x := s.slot k
  let newParent := !sameParent x.parent (best.map (·.2)) || x.port != best.map (·.1)
  let s := s.each 8 fun p s =>
    if s.portHas p k && s.pstate p k != 1 then s.recommend p k (s.decide_ p k best) newParent else s
  let port := (List.range 8).find? fun p => s.portHas p k && s.follows p k
  let parent := match port, best with
    | some _, some (_, m) => some m
    | _, _ => none
  let same := x.port == port && sameParent x.parent parent
  let s := (s.setSlot k { x with port := port, parent := parent }).slotShow k
  let s := if parent.isSome then s.set (EPT_DOM_STAT_ANNTO k) 0 else s
  if same then s.slotEval k else s.slotClear k

/-- A port starts again from INITIALIZING in a slot; its sequence counts go on (R257, R265). -/
def State.portFresh (s : State) (p k : Nat) : State :=
  (s.setPslot p k { seqs := (s.pslot p k).seqs }).setPstate p k 1

/-- Ports that have no role any more return to INITIALIZING, and those whose link is up listen; then the states are decided. -/
def State.ptpConfig (s : State) : State :=
  s.each 2 fun k s =>
    let s := s.each 8 fun p s =>
      if s.portHas p k then (if s.pstate p k = 1 ∧ s.portUp p then s.setPstate p k 4 else s)
      else if s.pstate p k = 1 then s
      else s.portFresh p k
    s.bmca k

/-- Device time has been moved by a load or the step: offsets measured before it are dropped. -/
def State.ptpMoved (s : State) : State :=
  s.each 2 fun k s => (s.setSlot k { s.slot k with hist := [] }).slotClear k

/-! ### Messages sent (R259, R264, R265) -/

/-- The next sequenceId of a message type on a port and slot (R265). -/
def State.seqNext (s : State) (p k ty : Nat) : State × Nat :=
  let x := s.pslot p k
  let q := (tblGet x.seqs 0 ty) % 65536
  (s.setPslot p k { x with seqs := tblSet x.seqs ty ((q + 1) % 65536) }, q)

/-- A message of the part's own on a port and slot. -/
def State.ptpMsg (s : State) (p k ty seq : Nat) : PtpMsg :=
  { ptpZero with
    mtype := BitVec.ofNat 4 ty
    domain := BitVec.ofNat 8 (s.get (EPT_DOM_CFG_DOMAIN k))
    seq := BitVec.ofNat 16 seq
    srcId := BitVec.ofNat 64 s.clkId
    srcPort := BitVec.ofNat 16 (p + 1)
    trans := BitVec.ofNat 3 (s.get (EPT_CFG_TRANS p)) }

/-- Where a message goes by one transport (R260): Layer 2 to a MAC address under EtherType 0x88F7, UDP/IPv4 or UDP/IPv6 to a
group address and a port, that of peer delay apart. -/
inductive PtpDest where
  | l2 (mac : Nat)
  | udp4 (addr port : Nat)
  | udp6 (addr port : Nat)
  deriving DecidableEq, Repr

/-- The destinations of a message, by the transports it leaves by (R260). -/
def ptpDests (m : PtpMsg) : List PtpDest :=
  let ty := m.mtype.toNat
  let peer := ty == 2 || ty == 3 || ty == 10
  let port := if ty < 4 then 319 else 320
  let has := fun k => bit m.trans.toNat k
  (if has 0 then [.l2 (if peer then 0x0180C200000E else 0x011B19000000)] else []) ++
    (if has 1 then [.udp4 (if peer then 0xE000006B else 0xE0000181) port] else []) ++
    (if has 2 then [.udp6 ((if peer then 0xFF02 else 0xFF0E) * 2 ^ 112 + (if peer then 0x6B else 0x181)) port] else [])

/-- Whether the part may send PTP on a port: up, PTP on, a transport enabled, `EPT_CLKID` not zero (R260, R264). -/
def State.ptpMay (s : State) (p : Nat) : Bool :=
  s.portUp p && s.on (EPT_CFG_PTPEN p) && s.get (EPT_CFG_TRANS p) != 0 && s.clkId != 0

/-- The port measures its link delay in a slot: a P2P port with a role in a CLOCK slot, or of a TC slot (R260, R266). -/
def State.peerOn (s : State) (p k : Nat) : Bool :=
  s.portUp p && s.on (EPT_CFG_PTPEN p) && s.on (EPT_CFG_P2P p) && (s.portIn p k || s.get (EPT_DOM_CFG_TYPE k) == 2)

/-- Sync, and Follow_Up when two-step (R259, R260). -/
def State.syncTx (s : State) (p k sub : Nat) : State :=
  if !s.ptpMay p || !s.portIn p k || s.pstate p k != 6 then s
  else
    let (s, q) := s.seqNext p k 0
    let t := to16 (s.egress p sub)
    let li := s.getI (EPT_DOM_INT_LSYNC k)
    let m := { s.ptpMsg p k 0 q with logInt := li }
    if s.on (EPT_DOM_CFG_TWOSTEP k) then
      (s.emit (.ptp p { m with twoStep := true })).emit (.ptp p { s.ptpMsg p k 8 q with ts := t, logInt := li })
    else s.emit (.ptp p { m with ts := t })

/-- `TDROLE` takes effect at the announce interval (R278). -/
def State.ptpRole (s : State) : State :=
  let m := s.on EPT_CLK_TDROLE
  if s.net.member = m then s else ({ s with net := { s.net with member := m } }).ptpConfig

/-- Announce with live trust values, or the parent's dataset passed on (R264); PRE_MASTER ends at an announce interval. -/
def State.announceTx (s : State) (p k : Nat) : State :=
  let s := s.ptpRole
  let s := if s.portIn p k && s.pstate p k == 5 && s.reached (s.pslot p k).qualAt 0 then s.setPstate p k 6 else s
  if !s.ptpMay p || !s.portIn p k || s.pstate p k != 6 then s
  else
    let (s, q) := s.seqNext p k 0xB
    let ds := match (s.slot k).parent with
      | some m => { m with steps := m.steps + 1 }
      | none => s.ownDs
    let b := s.ptpMsg p k 0xB q
    (s.slotShow k).emit (.ptp p { ds with
      trans := b.trans, mtype := b.mtype, domain := b.domain, seq := b.seq, srcId := b.srcId, srcPort := b.srcPort, corr := 0, ts := 0,
      reqId := 0, reqPort := 0, twoStep := false, logInt := s.getI (EPT_DOM_INT_LANN k) })

/-- A Delay_Req of a client, or a Pdelay_Req of a P2P port: one outstanding on the port and slot, the next after the answer
or 1 s (R265). -/
def State.delayReqTx (s : State) (p k sub : Nat) : State :=
  if !s.ptpMay p || !(s.portIn p k || s.peerOn p k) then s
  else
    let t := s.egress p sub
    let free := fun (o : Option (Nat × Int × Nat)) => match o with
      | some x => decide (x.2.2 + 1000000000 ≤ s.tim.up)
      | none => true
    let li := s.getI (EPT_DOM_INT_LDREQ k)
    let corr := -(s.asym p / 2 ^ 48)
    if s.on (EPT_CFG_P2P p) then
      if !free (s.pslot p k).preq then s
      else
        let (s, q) := s.seqNext p k 2
        let s := s.setPslot p k { s.pslot p k with preq := some (q, t, s.tim.up), presp := none }
        s.emit (.ptp p { s.ptpMsg p k 2 q with ts := to16 t, corr := corr, logInt := li })
    else if !s.follows p k || !free (s.pslot p k).dreq then s
    else
      let (s, q) := s.seqNext p k 1
      let s := s.setPslot p k { s.pslot p k with dreq := some (q, t, s.tim.up) }
      s.emit (.ptp p { s.ptpMsg p k 1 q with ts := to16 t, corr := corr, logInt := li })

/-! ### Messages received (R260, R262, R265, R268) -/

/-- One offset sample into the slot's servo (R268): a sample more than 100 ns from the running mean is discarded once 8
samples exist; XCHECK updates `ITG_XDIF` while the slot is LOCKED (R269, R443). `ms` is the ingress time less origin and
corrections. -/
def State.ptpSample (s : State) (p k : Nat) (ms : Int) : State :=
  let s := s.setPslot p k { s.pslot p k with lastMs := some ms }
  let o := uToPs ms - s.getI (EPT_MPD_PS p)
  let far := decide (8 ≤ (s.slot k).samples.length) && decide (100000 < (o - meanI (s.avgOf k)).natAbs)
  let s := if far then s else
    let x := s.slot k
    s.setSlot k { x with samples := ((o, s.tim.up) :: x.samples).take (max 8 s.eptAvg) }
  let s := s.slotEval k
  if s.get (EPT_DOM_CFG_USE k) == 1 && s.on (EPT_DOM_STAT_LOCKED k) && !s.tpiChecks then s.xdif (roundDiv (s.getI (EPT_DOM_OFS_PS k)) 1000) else s

/-- Whether a message comes from the parent of the slot whose SLAVE port this is; one with alternateMasterFlag is not used
(R261). -/
def State.fromParent (s : State) (p k : Nat) (m : PtpMsg) : Bool :=
  s.portIn p k && s.follows p k && !bit m.aflags.toNat 6 && (match (s.slot k).parent with
    | some a => a.srcId == m.srcId && a.srcPort == m.srcPort
    | none => false)

/-- A received Sync (R268): the port is SLAVE; one-step gives a sample, two-step waits for its Follow_Up. -/
def State.syncRx (s : State) (p sub : Nat) (m : PtpMsg) : State :=
  match s.slotOf m.domain.toNat with
  | none => s
  | some k =>
    if !s.fromParent p k m then s
    else
      let s := s.setPstate p k 9
      let t := s.ingress p sub - m.corr * 2 ^ 48 - s.asym p
      if m.twoStep then s.setPslot p k { s.pslot p k with sync := some (m.seq.toNat, t, s.tim.up) }
      else (s.setPslot p k { s.pslot p k with sync := none }).ptpSample p k (t - m.ts * 2 ^ 48)

/-- A Follow_Up matched to the last Sync within 1 s (R265). -/
def State.followUpRx (s : State) (p : Nat) (m : PtpMsg) : State :=
  match s.slotOf m.domain.toNat with
  | none => s
  | some k =>
    match (s.pslot p k).sync with
    | none => s
    | some (q, t, a) =>
      if !s.fromParent p k m || q != m.seq.toNat || decide (a + 1000000000 < s.tim.up) then s
      else (s.setPslot p k { s.pslot p k with sync := none }).ptpSample p k (t - m.ts * 2 ^ 48 - m.corr * 2 ^ 48)

/-- An Announce that the part does not use: its own, one of 255 steps or more, of the ARB timescale, of an alternate master
(R260, R261). -/
def State.announceVoid (s : State) (m : PtpMsg) : Bool :=
  m.srcId.toNat == s.clkId || decide (255 ≤ m.steps.toNat) || !bit m.aflags.toNat 3 || bit m.aflags.toNat 6

/-- A received Announce enters the algorithm (R260, R262). -/
def State.announceRx (s : State) (p : Nat) (m : PtpMsg) : State :=
  match s.slotOf m.domain.toNat with
  | none => s
  | some k =>
    let s := s.ptpRole
    if !s.portIn p k || s.announceVoid m then s
    else
      let x := s.pslot p k
      let mine := fun (f : Foreign) => f.msg.srcId == m.srcId && f.msg.srcPort == m.srcPort
      let f : Foreign := { msg := m, at1 := s.tim.up, at2 := (x.foreign.find? mine).map fun f => f.at1 }
      (s.setPslot p k { x with foreign := f :: x.foreign.filter fun g => !mine g }).bmca k

/-- The announce receipt timeout of a port (R268): its foreign masters are forgotten; a SLAVE's slot loses LOCKED; a port
that may be MASTER becomes it, a slave-only one listens (R263), and one without a link waits for it (R257). -/
def State.announceTimeout (s : State) (p k : Nat) : State :=
  let s := s.ptpRole
  if !s.portHas p k || s.pstate p k == 6 || s.pstate p k == 1 then s
  else
    let slave := s.follows p k
    let s := s.setPslot p k { s.pslot p k with foreign := [] }
    let s := s.setPstate p k (if !s.portUp p then 1 else if s.slaveOnly k || s.prole p k == 3 then 4 else 6)
    let s := s.bmca k
    if slave && (s.slot k).parent.isNone then (s.set (EPT_DOM_STAT_ANNTO k) 1).slotEval k else s

/-- A Delay_Req answered by a master (R260). -/
def State.delayReqRx (s : State) (p sub : Nat) (m : PtpMsg) : State :=
  match s.slotOf m.domain.toNat with
  | none => s
  | some k =>
    if !s.ptpMay p || !s.portIn p k || s.pstate p k != 6 || s.on (EPT_CFG_P2P p) then s
    else
      s.emit (.ptp p { s.ptpMsg p k 9 m.seq.toNat with
        ts := to16 (s.ingress p sub), corr := m.corr, reqId := m.srcId, reqPort := m.srcPort,
        logInt := s.getI (EPT_DOM_INT_LDREQ k) })

/-- A response names this port's request. -/
def State.forPort (s : State) (p : Nat) (m : PtpMsg) : Bool := m.reqId.toNat == s.clkId && m.reqPort.toNat == p + 1

/-- A Delay_Resp matched to the outstanding Delay_Req within 1 s gives the mean path delay (R265). -/
def State.delayRespRx (s : State) (p : Nat) (m : PtpMsg) : State :=
  match s.slotOf m.domain.toNat with
  | none => s
  | some k =>
    match (s.pslot p k).dreq, (s.pslot p k).lastMs with
    | some (q, t3, a), some ms =>
      if !s.fromParent p k m || !s.forPort p m || q != m.seq.toNat || decide (a + 1000000000 < s.tim.up) then s
      else
        let sm := (m.ts : Int) * 2 ^ 48 - t3 - m.corr * 2 ^ 48
        (s.setPslot p k { s.pslot p k with dreq := none }).setI (EPT_MPD_PS p) (satI 32 (uToPs ((ms + sm) / 2)))
    | _, _ => s

/-- A Pdelay_Req answered by the port itself (R266), one-step or two-step as its slot sends Sync. -/
def State.pdelayReqRx (s : State) (p sub txSub : Nat) (m : PtpMsg) : State :=
  match s.slotOf m.domain.toNat with
  | none => s
  | some k =>
    if !s.ptpMay p || !s.peerOn p k then s
    else
      let t2 := s.ingress p sub
      let t3 := s.egress p txSub
      let r := { s.ptpMsg p k 3 m.seq.toNat with reqId := m.srcId, reqPort := m.srcPort }
      if s.on (EPT_DOM_CFG_TWOSTEP k) then
        (s.emit (.ptp p { r with twoStep := true, ts := to16 t2 })).emit
          (.ptp p { s.ptpMsg p k 0xA m.seq.toNat with ts := to16 t3, corr := m.corr, reqId := m.srcId, reqPort := m.srcPort })
      else s.emit (.ptp p { r with corr := m.corr + (t3 - t2) / 2 ^ 48 })

/-- A Pdelay_Resp, or its follow-up, matched to the outstanding request within 1 s gives the mean link delay (R265). -/
def State.pdelayRespRx (s : State) (p sub : Nat) (m : PtpMsg) : State :=
  match s.slotOf m.domain.toNat with
  | none => s
  | some k =>
    let x := s.pslot p k
    match x.preq with
    | none => s
    | some (q, t1, a) =>
      if !s.forPort p m || q != m.seq.toNat || decide (a + 1000000000 < s.tim.up) then s
      else if m.mtype = 3 then
        let t4 := s.ingress p sub
        let c := m.corr * 2 ^ 48 + s.asym p
        if m.twoStep then s.setPslot p k { x with presp := some (t4, m.ts * 2 ^ 48, c) }
        else (s.setPslot p k { x with preq := none }).setI (EPT_MPD_PS p) (satI 32 (uToPs ((t4 - t1 - c) / 2)))
      else
        match x.presp with
        | none => s
        | some (t4, t2, c) =>
          let d := (t4 - t1) - ((m.ts : Int) * 2 ^ 48 - t2) - c - m.corr * 2 ^ 48
          (s.setPslot p k { x with preq := none, presp := none }).setI (EPT_MPD_PS p) (satI 32 (uToPs (d / 2)))

/-! ### Transparent forwarding (R266, R267) -/

/-- A copy not made or dropped (R267). -/
def State.fwdDrop (s : State) (q : Nat) : State := (s.incSat (EPT_CNT_FWDDROP_COUNT q)).orF (EPT_IRQ_IRQ q) 8

/-- delayAsymmetry at the ingress port, in 2^-16 ns: for a Sync and a Pdelay_Resp (R258, log 44). -/
def State.asymIn (s : State) (p ty : Nat) : Int := if ty = 0 ∨ ty = 3 then roundDiv (s.asym p) (2 ^ 48) else 0
/-- delayAsymmetry at the egress port, in 2^-16 ns: for a Delay_Req and a Pdelay_Req (R258, log 44). -/
def State.asymOut (s : State) (q ty : Nat) : Int := if ty = 1 ∨ ty = 2 then roundDiv (s.asym q) (2 ^ 48) else 0

/-- A frame forwarded (R266, R267): one buffer for the frame, one credit for each copy; a port without a free credit, or
that is down, gets no copy. -/
def State.forward (s : State) (p sub : Nat) (m : PtpMsg) : State :=
  let outs := (List.range 8).filter fun q => q != p && bit (s.get (EPT_FWD_MASK p)) q
  let can := fun q => s.portUp q && decide (0 < s.get (EPT_FWDSTAT_FREE q)) && decide (0 < s.net.free)
  let s := (outs.filter fun q => !can q).foldl (fun s q => s.fwdDrop q) s
  let outs := outs.filter can
  if outs = [] then s
  else
    let tc := match s.slotOf m.domain.toNat with
      | some k => s.get (EPT_DOM_CFG_TYPE k) == 2
      | none => false
    let add := if tc && s.on (EPT_CFG_P2P p) && m.mtype == 0 then roundDiv (psU (s.getI (EPT_MPD_PS p))) (2 ^ 48) else 0
    let b := s.net.nextBuf
    let n := s.net
    let s := { s with net := { n with free := n.free - 1, bufs := tblSet n.bufs b outs.length, nextBuf := b + 1 } }
    let c : Copy := { buf := b, msg := { m with corr := m.corr + add + s.asymIn p m.mtype.toNat }, ingress := s.ingress p sub }
    outs.foldl (fun s q =>
      (s.setPort q { s.port q with copies := (s.port q).copies ++ [c] }).dec (EPT_FWDSTAT_FREE q)) s

/-- A copy's credit returns, and with the last copy the buffer (R267). -/
def State.copyBack (s : State) (q : Nat) (c : Copy) : State :=
  let s := s.inc (EPT_FWDSTAT_FREE q)
  let n := s.net
  let left := tblGet n.bufs 0 c.buf
  if left ≤ 1 then { s with net := { n with free := n.free + 1, bufs := tblErase n.bufs c.buf } }
  else { s with net := { n with bufs := tblSet n.bufs c.buf (left - 1) } }

/-- The oldest copy's last octet leaves (R266): an event message gains its residence; one above 10 ms is dropped. -/
def State.copySent (s : State) (q sub : Nat) : State :=
  match (s.port q).copies with
  | [] => s
  | c :: rest =>
    let s := (s.setPort q { s.port q with copies := rest }).copyBack q c
    let res := s.egress q sub - c.ingress
    if 10 * (msU : Int) < res then s.fwdDrop q
    else
      let m := c.msg
      s.emit (.ptp q (if m.mtype.toNat < 4 then
        { m with corr := m.corr + roundDiv res (2 ^ 48) - s.asymOut q m.mtype.toNat } else m))

/-- Every copy a port holds is cut (R257). -/
def State.portCut (s : State) (q : Nat) : State :=
  let cs := (s.port q).copies
  cs.foldl (fun s c => s.copyBack q c) (s.setPort q { s.port q with copies := [] })

/-- The credits of the enabled ports add up to 256 or less (R267). -/
def State.credOk (s : State) : Bool :=
  decide (((List.range 8).filter fun q => s.on (EPT_CFG_EN q)).foldl (fun a q => a + s.get (EPT_FWD_CRED q)) 0 ≤ 256)

/-- `EPT_FWD` written (R267): a credit count below the copies held, of 0, or that takes the sum over the enabled ports
past 256 is refused with `CFGERR`; else `FREE` changes by the difference. `old` is `CRED` before. -/
def State.credWrite (s : State) (p old : Nat) : State :=
  let new := s.get (EPT_FWD_CRED p)
  if new = 0 ∨ new < (s.port p).copies.length ∨ !s.credOk then
    (s.set (EPT_FWD_CRED p) old).set (EPT_STAT_CFGERR p) 1
  else s.set (EPT_FWDSTAT_FREE p) (s.get (EPT_FWDSTAT_FREE p) + new - old)

/-! ### Links (R255, R257) -/

/-- The speeds a mode runs: 10G 0, 5G 1, 2.5G 2, 1G 3 (R255); the numbers above 3 are speeds outside the table (100M 4, 10M 5 and
the rest: the operand's coding, DESIGN CHOICE, log 33). -/
def speedOk (mode speed : Nat) : Bool :=
  match mode with
  | 0 => speed ≤ 3
  | 1 => speed == 2
  | _ => speed == 3

/-- A link goes down: copies are cut. The servos of its slots lose LOCKED after their announce receipt timeout (R257). -/
def State.linkDown (s : State) (p : Nat) : State :=
  if !s.on (EPT_STAT_LINK p) then s
  else
    let s := s.portCut p
    let s := ((s.set (EPT_STAT_LINK p) 0).set (EPT_STAT_LINKCHG p) 1).orF (EPT_IRQ_IRQ p) 1
    s.each 2 fun k s => s.setPslot p k { s.pslot p k with preq := none, presp := none }

/-- A link changes (R255, R257): the PTP engine starts a port whose link comes up from INITIALIZING; a speed outside the mode's
table leaves it down with `SPDERR`. -/
def State.linkChange (s : State) (p : Nat) (up : Bool) (speed : Nat) : State :=
  if !up then s.linkDown p
  else if !s.on (EPT_CFG_EN p) || s.on (EPT_STAT_TXSTOP p) || !s.serves then s
  else if !speedOk (s.get (EPT_CFG_MODE p)) speed then (s.linkDown p).set (EPT_STAT_SPDERR p) 1
  else
    let was := s.on (EPT_STAT_LINK p)
    let s := ((s.set (EPT_STAT_LINK p) 1).set (EPT_STAT_SPEED p) speed).set (EPT_STAT_LINKCHG p) 1
    let s := if was then s else s.each 2 fun k s => s.portFresh p k
    (s.orF (EPT_IRQ_IRQ p) 1).ptpConfig

/-- `EPT_CFG` written: a mode outside the table is refused with `CFGERR` (R255), and so is an enable that takes the
credits of the enabled ports past 256 (R267); a port switched off loses its link. -/
def State.eptCfg (s : State) (p oldMode : Nat) : State :=
  let s := if 3 < s.get (EPT_CFG_MODE p) then (s.set (EPT_CFG_MODE p) oldMode).set (EPT_STAT_CFGERR p) 1 else s
  let s := if s.on (EPT_CFG_EN p) && !s.credOk then (s.set (EPT_CFG_EN p) 0).set (EPT_STAT_CFGERR p) 1 else s
  if s.on (EPT_CFG_EN p) then s.ptpConfig else (s.linkDown p).ptpConfig

/-- `PLL_C` is lost: every transmitter stops, frames are cut, links drop (R257). -/
def State.ethStop (s : State) : State :=
  s.each 8 fun p s => (s.linkDown p).set (EPT_STAT_TXSTOP p) 1

/-- `PLL_C` is aligned again (R257). -/
def State.ethGo (s : State) : State := s.each 8 fun p s => s.set (EPT_STAT_TXSTOP p) 0

/-! ### The source slot (R269–R271) -/

/-- The selected source slot. -/
def State.selSlot (s : State) : Nat := s.get EPT_PSEL_SELB

/-- The slot the mode wants (R271): in AUTO, A while it meets its condition, with 60 s of it before a return from B. -/
def State.wantSlot (s : State) : Nat :=
  match s.get EPT_PSEL_MODE with
  | 0 => 0
  | 1 => 1
  | _ =>
    let a := s.get (EPT_DOM_STAT_GMCLASS 0)
    let b := s.get (EPT_DOM_STAT_GMCLASS 1)
    match (s.slot 0).condAt with
    | some t => if s.selSlot = 1 ∧ s.tim.up < t + 60000000000 then 1 else 0
    | none => if s.on (EPT_DOM_STAT_LOCKED 1) ∧ (!s.on (EPT_DOM_STAT_LOCKED 0) ∨ b < a) then 1 else s.selSlot

/-- The differences δ_new - δ_old of the last 16 s: at the seconds at which both slots were LOCKED (R271). -/
def State.slotDiffs (s : State) (new old : Nat) : List Int :=
  (s.slot new).hist.filterMap fun e =>
    match (s.slot old).hist.find? fun o => o.1 == e.1 with
    | some o => if s.tim.up ≤ e.1 + 16000000000 then some (e.2 - o.2) else none
    | none => none

/-- A switch of the source slot (R271): the new slot has been LOCKED for 16 s and no step waits (R278); it is refused with
`DISAGREE` when |D| exceeds 1 µs, else the bias B is set. -/
def State.ptpSwitch (s : State) : State :=
  let w := s.wantSlot
  if w = s.selSlot then { s with net := { s.net with swRef := false } }
  else
    let ready := match (s.slot w).lockAt with
      | some a => decide (a + 16000000000 ≤ s.tim.up)
      | none => false
    if !ready || s.tim.step.isSome then s
    else
      let d := meanI (s.slotDiffs w (1 - w))
      if 1000000 < d.natAbs then
        if s.net.swRef then s
        else
          let s := { s with net := { s.net with swRef := true } }
          (s.set EPT_PSEL_DISAGREE 1).note 0x0206 0x08 2
            (2 ^ 79 + w * 2 ^ 78 + uns 32 d * 2 ^ 32 + s.get EPT_PSW_BIAS_PS)
      else
        let b := d - clampI (-10000) 10000 d
        let s := { s with net := { s.net with swRef := false } }
        let s := ((s.set EPT_PSEL_SELB w).incSat EPT_PSEL_SWCNT).setI EPT_PSW_BIAS_PS b
        s.note 0x0206 0x08 1 (w * 2 ^ 78 + uns 32 d * 2 ^ 32 + uns 32 b)

/-- The custody core runs and admits corrections: no latch set, no soft start under way (R218, R269). -/
def State.admits (s : State) : Bool := !s.latched && (s.cus.phase == .run)

/-- A load was written within the last 16 s (R270). -/
def State.loadSoon (s : State) : Bool :=
  match s.net.loadAt with
  | some a => decide (s.tim.up < a + 16000000000)
  | none => false

/-- The correction or the load of the selected slot at a whole second (R269, R270): the correction has a drift that no rule forms
(log entry 33), so that it acts on frequency before the step. -/
def State.ptpOffer (s : State) : State :=
  let k := s.selSlot
  let d := s.getI (EPT_DOM_OFS_PS k) - s.getI EPT_PSW_BIAS_PS
  let sig := s.get (EPT_DOM_SIG_PS k)
  let held := s.wantSlot != k && !s.net.swRef
  if s.get (EPT_DOM_CFG_USE k) ≠ 2 || !s.on (EPT_DOM_STAT_LOCKED k) || held then s
  else if s.get TIM_STAT_STATE ≠ 2 ∧ 1000000 < d.natAbs ∧ !s.loadSoon then
    let ep := s.epochCount + 1001
    let t := ((s.tim.t : Int) + 1001 * (msU : Int) - psU d).toNat
    let s := { s with net := { s.net with loadAt := some s.tim.up } }
    let s := s.set TIM_LOAD_SH_SECH (tvSec t / 2 ^ 32)
    let s := s.set TIM_LOAD_SL_SECL (tvSec t)
    let s := s.set TIM_LOAD_NS_NS (tvNs t)
    let s := s.set TIM_LOAD_EP_EPOCH ep
    let s := s.set TIM_LOAD_ERR_NS (satN 32 (ceilDiv (3 * sig + 5000) 1000))
    s.timLoadGo (2 ^ 31 + (k + 1) * 2 ^ 24)
  else if s.admits then s.timRelease d sig (Config.ptpDrift (s.slot k).hist) (some s.epochCount) false (k + 1)
  else s

/-- The whole second of the PTP engine: histories, then the correction or load; counts of the second start afresh. -/
def State.ptpSecond (s : State) : State :=
  let s := s.each 2 fun k s =>
    let s := s.slotEval k
    let x := s.slot k
    if s.on (EPT_DOM_STAT_LOCKED k) then
      s.setSlot k { x with hist := ((s.tim.up, s.getI (EPT_DOM_OFS_PS k)) :: x.hist).take 16 }
    else s
  let s := s.each 8 fun p s => if (s.port p).gets = 0 then s else s.setPort p { s.port p with gets := 0 }
  s.ptpOffer

/-- `EPT_CLK` written: a change of `TDROLE` is recorded (R278), and the lead shows no cross-check difference. `old` is
`TDROLE` before. -/
def State.eptClk (s : State) (old : Nat) : State :=
  let n := s.get EPT_CLK_TDROLE
  let s := if n = old then s else s.note 0x0207 0x08 1 (old * 2 ^ 79 + n * 2 ^ 78)
  s.xLead.ptpConfig

/-- `EPT_DOMs_CFG` written: type 3 and domain numbers above 127 are refused. -/
def State.eptDom (s : State) (k oldType oldDom : Nat) : State :=
  let s := if s.get (EPT_DOM_CFG_TYPE k) = 3 then s.set (EPT_DOM_CFG_TYPE k) oldType else s
  let s := if 127 < s.get (EPT_DOM_CFG_DOMAIN k) then s.set (EPT_DOM_CFG_DOMAIN k) oldDom else s
  s.ptpConfig

/-- `EPT_DOMs_INT` written: a value outside R260 is refused, sets `CFGERR` on `EP0` and leaves its field. The old fields in
register order. -/
def State.eptInt (s : State) (k lsync lann ldreq arto : Nat) : State :=
  let chk := fun (s : State) (f : Field) (lo hi : Int) (old : Nat) =>
    let v := sgn 8 (s.get f)
    if lo ≤ v ∧ v ≤ hi then s else (s.set f old).set (EPT_STAT_CFGERR 0) 1
  let s := chk s (EPT_DOM_INT_LSYNC k) (-7) 1 lsync
  let s := chk s (EPT_DOM_INT_LANN k) (-3) 3 lann
  let s := chk s (EPT_DOM_INT_LDREQ k) (-7) 4 ldreq
  chk s (EPT_DOM_INT_ARTO k) 2 10 arto

end Sys2Proof.Machine
end

