-- ==== Sys2Proof/Machine/StsBlock.lean ====
section
/-! DEFINITION. Status datagrams, `GET`, ARP and neighbour answers, and the classes of received frames (ch. 11; R195–R197,
R214, R235). Payloads are big-endian. -/

namespace Sys2Proof.Machine

/-! ### Sending -/

/-- A status type's bit of `EPT_STS_CFG.TYPES`. -/
def stsBit (typ : Nat) : Nat := 6 - typ

/-- The navigation core does not run, or a soft start is under way: datagrams come from templates (R274). -/
def State.soft (s : State) : Bool := !s.navOn

/-- The 32-octet header (R273). -/
def State.stsHeader (s : State) (typ len seq : Nat) (soft get : Bool) : List Byte :=
  beBytes 2 0xD710 ++ beBytes 1 1 ++ beBytes 1 typ ++ beBytes 2 len ++ beBytes 2 (b2n soft * 2 ^ 15 + b2n get * 2 ^ 14) ++
    beBytes 4 seq ++ beBytes 16 s.part.ident ++ beBytes 4 0

/-- One status datagram sent by a port: the count of its type rises (R273). -/
def State.stsSend (s : State) (p typ : Nat) (body : List Byte) (get v6 : Bool) (dst : BitVec 128) (dport : Nat) : State :=
  let x := s.port p
  let q := tblGet x.sent 0 typ
  let s := s.setPort p { x with sent := tblSet x.sent typ ((q + 1) % 2 ^ 32) }
  let soft := s.soft && (typ == 1 || typ == 4 || typ == 5)
  s.emit (.udp p v6 dst dport (s.stsHeader typ body.length q soft get ++ body))

/-- A port's IPv6 address, or its IPv6 destination, from four registers. -/
def State.addr6 (s : State) (a b c d : Field) : BitVec 128 :=
  BitVec.ofNat 128 (((s.get a * 2 ^ 32 + s.get b) * 2 ^ 32 + s.get c) * 2 ^ 32 + s.get d)

/-- The port sends a type by its schedule (R274); none before the navigation core has run since the cold start (R25). -/
def State.stsOn (s : State) (p typ : Nat) : Bool :=
  s.net.stsOpen && s.portUp p && s.on (EPT_CFG_STSEN p) && bit (s.get (EPT_STS_CFG_TYPES p)) (stsBit typ)

/-- A datagram to the port's configured destination; `key` is where its latest payload is kept for `GET`. -/
def State.stsScheduled (s : State) (p typ key : Nat) (bodies : List (List Byte)) : State :=
  let v6 := s.on (EPT_STS_CFG_V6 p)
  let dst := if v6 then
      s.addr6 (EPT_STS_DST6_0_ADDR p) (EPT_STS_DST6_1_ADDR p) (EPT_STS_DST6_2_ADDR p) (EPT_STS_DST6_3_ADDR p)
    else BitVec.ofNat 128 (s.get (EPT_STS_DST4_ADDR p))
  let s := { s with net := { s.net with latest := tblSet s.net.latest key bodies } }
  bodies.foldl (fun s b => s.stsSend p typ b false v6 dst (s.get (EPT_STS_CFG_UPORT p))) s

/-! ### Payloads -/

/-- The GPS week of device seconds. -/
def gpsWeek (sec : Nat) : Nat := (sec - 315964819) / 604800

/-- The live fields of `TIME` from T to `TERR`, with `UTCREF` and `NSV` between them (R196, R197). -/
def State.timeHead (s : State) (utcref nsv : Nat) : List Byte :=
  let sec := tvSec s.now
  let leap := s.get TIM_UTC_LEAP
  let lt := if leap = 0 then 0 else s.get2 TIM_LEAPT_L_SEC TIM_LEAPT_H_SEC
  beBytes 12 (sec * 2 ^ 48) ++ beBytes 1 s.code ++ beBytes 1 (s.get TIM_STAT_SRC) ++
    beBytes 1 (uns 8 (s.getI TIM_UTC_UTCOFS)) ++ beBytes 1 leap ++ beBytes 6 lt ++ beBytes 1 utcref ++ beBytes 1 nsv ++
    beBytes 4 s.terrNow

/-- The `TIME` payload as the navigation core sends it (R196). -/
def State.timeBody (s : State) : List Byte :=
  let n := s.nav
  let known := s.movKnown
  let fl := b2n n.surveyed * 2 ^ 14 + b2n s.cus.rec_.posv * 2 ^ 13 + b2n (s.navField 0x05 == 1) * 2 ^ 12 +
    b2n n.notime * 2 ^ 11 + b2n (n.moving || !known) * 2 ^ 10 + b2n n.displaced * 2 ^ 9 + b2n known * 2 ^ 8
  let age := match n.solAt with
    | some e => min (s.epochCount - e) 0xFFFFFFFE
    | none => 0xFFFFFFFE
  s.timeHead (s.navField 0x01) (satN 8 n.nsv) ++ beBytes 4 (satN 32 n.sigma) ++
    beBytes 4 (uns 32 (satI 32 n.delta)) ++ beBytes 2 fl ++ beBytes 2 (satN 16 n.tdop) ++
    beBytes 2 (gpsWeek (tvSec s.now)) ++ beBytes 1 n.posMode ++ beBytes 1 0 ++ beBytes 4 age

/-- The `TIME` payload from its template (R197): the last one sent, with the time core's fields and `SOFT`. -/
def State.timeSoft (s : State) : List Byte :=
  let t := sliceN s.net.lastTime 0 48
  let b := fun i => (t.getD i 0).toNat
  s.timeHead (b 22) (b 23) ++ sliceN t 28 8 ++ beBytes 1 (b 36 ||| 128) ++ beBytes 1 (b 37) ++ sliceN t 38 2 ++
    beBytes 2 (gpsWeek (tvSec s.now)) ++ sliceN t 42 2 ++ beBytes 4 0xFFFFFFFF

/-- A `TIME` datagram (R196, R197, R274). -/
def State.timeDatagram (s : State) (p : Nat) : State :=
  if !s.stsOn p 1 then s
  else if s.soft then s.stsScheduled p 1 1 [s.timeSoft]
  else
    let b := s.timeBody
    ({ s with net := { s.net with lastTime := b } }).stsScheduled p 1 1 [b]

/-- A `TP-NEXT` datagram of an output whose next second has been composed (R234, R274). -/
def State.tpNextDatagram (s : State) (p n : Nat) : State :=
  match (s.tp n).msg with
  | none => s
  | some b => if s.stsOn p 2 && (s.tp n).composed == some (tvSec s.tim.t + 1) then s.stsScheduled p 2 (2 * 16 + n) [b] else s

/-- One `MEAS` entry's octets (R195). -/
def measOctets (e : MeasEntry) : List Byte :=
  let n := fun (w : Nat) (v : Nat) => beBytes w v
  n 1 e.sys.toNat ++ n 1 e.sv.toNat ++ n 1 e.sig.toNat ++ n 1 e.ant.toNat ++ n 2 e.flags.toNat ++ n 2 e.cn0.toNat ++
    n 8 e.pr.toNat ++ n 8 e.cp.toNat ++ n 4 e.dop.toNat ++ n 2 e.lock.toNat ++ n 1 e.elev.toNat ++ n 1 e.azim.toNat

/-- Entries in parts of up to 32; `fuel` bounds the parts. -/
def measChunks : Nat → List MeasEntry → List (List MeasEntry)
  | 0, _ => []
  | fuel + 1, es => if es = [] then [] else es.take 32 :: measChunks fuel (es.drop 32)

/-- The `MEAS` payloads of an epoch (R195). -/
def State.measBodies (s : State) : List (List Byte) :=
  let ps := measChunks 32 s.measEntries
  let n := s.nav
  let hf := b2n n.solved * 128 + b2n (n.posMode == 1) * 64
  (List.range ps.length).zipWith (fun i part =>
    beBytes 12 (tv96 n.measT) ++ beBytes 2 n.repPer ++ beBytes 1 part.length ++ beBytes 1 i ++ beBytes 1 ps.length ++
      beBytes 1 hf ++ beBytes 4 (uns 32 n.rxofs) ++ beBytes 4 (uns 32 (clampI (-2147483647) 2147483647 n.delta)) ++
      beBytes 4 (uns 32 (satI 32 n.drift)) ++ beBytes 2 0 ++ part.flatMap measOctets) ps

/-- `MEAS` datagrams of the last report instant (R195): not while the navigation core is stopped, nor before it has tracked for
one report period, nor in BRACE (R197, R274, R278). -/
def State.measDatagram (s : State) (p : Nat) : State :=
  if s.soft || s.on SUP_STAT_BRACE || !s.tracked || !s.stsOn p 3 then s
  else
    let s := s.measNow
    s.stsScheduled p 3 3 s.measBodies

/-- The `INTEG` payload (R214). -/
def State.integBody (s : State) : List Byte :=
  let i := s.itg
  let l := s.get ITG_LATCH_STEPERR * 4 + s.get ITG_LATCH_WOAD * 2 + s.get ITG_LATCH_RELOC
  let w := (List.range 3).flatMap fun k =>
    match i.woad[k]? with
    | some (n, c, r, v, b) => [BitVec.ofNat 8 n, BitVec.ofNat 8 c, BitVec.ofNat 8 r, BitVec.ofNat 8 (v + 4 * b)]
    | none => [0, 0, 0, 0]
  beBytes 12 (tv96 i.evalT) ++ beBytes 1 s.code ++ beBytes 1 (s.get ITG_STATE_PREV) ++ beBytes 2 l ++
    beBytes 4 s.verdWord ++ beBytes 4 s.terrNow ++ beBytes 4 (satN 32 ((s.tim.up - i.enteredUp) / 1000000000)) ++
    beBytes 2 (s.get ITG_INTV_INTV) ++ beBytes 2 (s.get ITG_INTV_MISSED) ++ w ++ beBytes 2 i.att.1 ++
    beBytes 2 (uns 16 i.att.2.1) ++ beBytes 2 (uns 16 i.att.2.2) ++ beBytes 2 (b2n i.attV * 2 ^ 15) ++
    beBytes 4 (s.get ITG_XDIF_NS) ++ beBytes 8 0

/-- An `INTEG` datagram (R214, R274). -/
def State.integDatagram (s : State) (p : Nat) : State :=
  if s.stsOn p 4 then s.stsScheduled p 4 4 [s.integBody] else s

/-- What `IDENT` says of the configuration and the engines: its template in a soft start or while the navigation core is
stopped, the parts themselves else (R274). Identity, custody state, start and seconds are current in either (DESIGN CHOICE,
log 33). -/
def State.identHeld (s : State) : IdentHeld := if s.soft then s.net.ident.getD s.identNow else s.identNow

/-- The `IDENT` payload (R276). -/
def State.identBody (s : State) : List Byte :=
  let h := s.identHeld
  beBytes 16 s.part.ident ++ beBytes 1 0xB1 ++ beBytes 1 s.part.grade ++ beBytes 1 (s.get CUS_STAT_STATE) ++
    beBytes 1 (s.get SYS_START_TYPE) ++ beBytes 4 (satN 32 (s.tim.up / 1000000000)) ++
    beBytes 4 h.dig0 ++ beBytes 4 h.dig1 ++
    (if s.cus.rec_.sealed_ then beBytes 8 (s.cus.rec_.sdig / 2 ^ 192) else beBytes 8 0) ++
    ((List.range 6).flatMap fun k => beBytes 4 (h.vers / 2 ^ (32 * k))) ++
    beBytes 1 (s.get EPT_CLK_TDROLE) ++ beBytes 1 0 ++ beBytes 2 h.retired

/-- An `IDENT` datagram (R274, R276). -/
def State.identDatagram (s : State) (p : Nat) : State :=
  if s.stsOn p 5 then s.stsScheduled p 5 5 [s.identBody] else s

/-- The `UMBER-SUM` payload (R277). -/
def State.umberSumBody (s : State) : List Byte :=
  let (q, t, ty, sv) := s.umb.newest.getD (0, 0, 0, 0)
  beBytes 8 q ++ beBytes 8 t ++ beBytes 2 ty ++ beBytes 1 (sv % 8) ++ beBytes 1 s.net.umbSev ++ beBytes 4 s.net.umbNew ++
    beBytes 4 (s.get UMB_FREE_COUNT) ++ beBytes 4 0

/-- An `UMBER-SUM` datagram: not while the custody core restarts nor in BRACE (R274, R277, R278). -/
def State.umberSumDatagram (s : State) (p : Nat) : State :=
  if s.soft || s.on SUP_STAT_BRACE || !s.stsOn p 6 then s
  else
    let s := s.stsScheduled p 6 6 [s.umberSumBody]
    { s with net := { s.net with umbNew := 0, umbSev := 0 } }

/-! ### Answers (R272, R275) -/

/-- A frame refused (R272). -/
def State.frameRefuse (s : State) (p : Nat) : State := (s.incSat (EPT_CNT_REFUSE_COUNT p)).orF (EPT_IRQ_IRQ p) 4
/-- A frame dropped (R272). -/
def State.frameDrop (s : State) (p : Nat) : State := s.incSat (EPT_CNT_DROP_COUNT p)

/-- An ARP request for the port's address is answered. -/
def State.arpRx (s : State) (p : Nat) (target : Word) : State :=
  if s.portUp p && target.toNat == s.get (EPT_IP4_ADDR p) && target != 0 then s.emit (.arp p target) else s

/-- The port's IPv6 address. -/
def State.portIp6 (s : State) (p : Nat) : BitVec 128 :=
  s.addr6 (EPT_IP6_0_ADDR p) (EPT_IP6_1_ADDR p) (EPT_IP6_2_ADDR p) (EPT_IP6_3_ADDR p)

/-- A neighbour solicitation for the port's address is answered. -/
def State.nsRx (s : State) (p : Nat) (target : BitVec 128) : State :=
  if s.portUp p && target == s.portIp6 p && target != 0 then s.emit (.nadv p target) else s

/-- Whether a type is sent in the current state (R274). -/
def State.stsSent (s : State) (typ : Nat) : Bool :=
  if typ = 3 ∨ typ = 6 then !s.soft && !s.on SUP_STAT_BRACE else 1 ≤ typ && typ ≤ 5

/-- A `GET` is well formed (R273, R275): its header, four octets of payload, and a type that is sent. -/
def getOk (bs : List Byte) : Bool :=
  let n := fun o k => beNat (sliceN bs o k)
  bs.length == 36 && n 0 2 == 0xD710 && n 2 1 == 1 && n 3 1 == 0x10 && n 4 2 == 4 && decide (1 ≤ n 32 1) &&
    decide (n 32 1 ≤ 6) && n 33 3 == 0

/-- A `GET` (R275), a UDP payload of header and request: answered with the latest datagram of its type, at most 16 per device
second; a malformed one, one of type 0x10 and one beyond the limit are refused. -/
def State.statusGet (s : State) (p : Nat) (v6 : Bool) (src : BitVec 128) (sport : Nat) (payload : List Byte) : State :=
  let typ := (payload.getD 32 0).toNat
  if !s.portUp p then s
  else if !getOk payload || !s.on (EPT_STS_CFG_GETEN p) || decide (16 ≤ (s.port p).gets) then s.frameRefuse p
  else
    let keys := if typ = 2 then [32, 33] else [typ]
    let bodies := (keys.filter fun k => typ != 2 || (s.tp (k - 32)).set.en).flatMap fun k =>
      (tblFind s.net.latest k).getD []
    if !s.net.stsOpen || !s.stsSent typ || bodies = [] then s
    else
      let s := s.setPort p { s.port p with gets := (s.port p).gets + 1 }
      bodies.foldl (fun s b => s.stsSend p typ b true v6 src sport) (s.incSat (EPT_CNT_GET_COUNT p))

/-! ### Received frames (R272) -/

/-- A PTP message that the engine terminates, by its type. -/
def State.ptpTerminate (s : State) (p sub txSub : Nat) (m : PtpMsg) : State :=
  match m.mtype.toNat with
  | 0 => s.syncRx p sub m
  | 1 => s.delayReqRx p sub m
  | 2 => s.pdelayReqRx p sub txSub m
  | 3 => s.pdelayRespRx p sub m
  | 8 => s.followUpRx p m
  | 9 => s.delayRespRx p m
  | 10 => s.pdelayRespRx p sub m
  | 11 => s.announceRx p m
  | _ => s.frameDrop p

/-- A PTP frame, by the rows of R272: management refused, a CLOCK slot's message terminated, where the engine takes no unicast one
(R261), a TC slot's or another domain's forwarded, any other dropped, also one on a transport the port has not enabled. On a
P2P port of a TC slot Pdelay messages are the port's own and are not forwarded (R266). -/
def State.framePtp (s : State) (p sub txSub trans : Nat) (toMe : Bool) (m : PtpMsg) : State :=
  let ty := m.mtype.toNat
  let m := { m with trans := BitVec.ofNat 3 (2 ^ trans) }
  let pd := ty == 2 || ty == 3 || ty == 10
  if ty = 13 then s.frameRefuse p
  else if !s.on (EPT_CFG_PTPEN p) || !bit (s.get (EPT_CFG_TRANS p)) trans then s.frameDrop p
  else
    match s.slotOf m.domain.toNat with
    | some k =>
      if s.get (EPT_DOM_CFG_TYPE k) = 1 then
        if s.prole p k = 0 then s.frameDrop p else if toMe then s else s.ptpTerminate p sub txSub m
      else if pd && s.on (EPT_CFG_P2P p) then (if toMe then s else s.ptpTerminate p sub txSub m)
      else s.forward p sub m
    | none => if s.on EPT_CLK_FWDOTHER then s.forward p sub m else s.frameDrop p

/-- A frame that no row before takes (R272): refused when it is to the port's addresses, else dropped. -/
def State.frameElse (s : State) (p : Nat) (toMe : Bool) : State := if toMe then s.frameRefuse p else s.frameDrop p

/-- A received frame handled by the first matching row of R272. -/
def State.frameRx (s : State) (p : Nat) (f : FrameIn) : State :=
  if !s.on (EPT_CFG_EN p) || !s.on (EPT_STAT_LINK p) then s
  else if !f.fcsOk then (s.set (EPT_STAT_FCSERR p) 1).frameDrop p
  else if f.octets < 64 || (match f.vid with | some v => v != 0 | none => false) then s.frameDrop p
  else
    match f.body with
    | .ptp m => s.framePtp p f.sub f.txSub f.trans f.toMe m
    | .arp t => if t.toNat = s.get (EPT_IP4_ADDR p) ∧ t ≠ 0 then s.arpRx p t else s.frameElse p f.toMe
    | .ns t => if t = s.portIp6 p ∧ t ≠ 0 then s.nsRx p t else s.frameElse p f.toMe
    | .udp v6 dport src sport payload =>
      if !f.toMe then s.frameDrop p
      else if dport.toNat = s.get (EPT_STS_CFG_UPORT p) then s.statusGet p v6 src sport.toNat payload
      else s.frameRefuse p
    | .toPort => s.frameRefuse p
    | .other => s.frameElse p f.toMe

end Sys2Proof.Machine
end

