-- ==== Sys2Proof/Machine/ClkBlock.lean ====
section
/-! DEFINITION. The synthesisers and the clock outputs (ch. 10). Frequencies are fractions of whole hertz. -/

namespace Sys2Proof.Machine

/-! ### Reference class and targets (R240–R242) -/

/-- The class that a count of reference edges over 256 crystal ticks selects (R240). -/
def rfiClass (count : Nat) : Option Nat :=
  [78125, 79922, 156250, 159844].findIdx? fun n => decide (200 * (max count n - min count n) ≤ n)

/-- The nominal reference frequency of a class in Hz. -/
def classHz : Nat → Nat
  | 0 => 10000000
  | 1 => 10230000
  | 2 => 20000000
  | _ => 20460000

/-- The dividers of `PLL_A`, `PLL_B` and `PLL_C` for a class (R241). -/
def classTarget (k x : Nat) : PllTarget :=
  let t : Nat × Nat × Nat :=
    match k, x with
    | 0, 0 => (327, 9, 25)
    | 0, 1 => (240, 0, 1)
    | 0, _ => (625, 0, 1)
    | 1, 0 => (320, 0, 1)
    | 1, 1 => (234, 206, 341)
    | 1, _ => (610, 970, 1023)
    | 2, 0 => (163, 17, 25)
    | 2, 1 => (120, 0, 1)
    | 2, _ => (312, 1, 2)
    | _, 0 => (160, 0, 1)
    | _, 1 => (117, 103, 341)
    | _, _ => (305, 485, 1023)
  { rdiv := 1, n := t.1, num := t.2.1, den := t.2.2 }

/-- A target shown in the divider registers. -/
def State.pllShow (s : State) (x : Nat) (t : PllTarget) : State :=
  (((s.set (PLL_DIV_RDIV x) t.rdiv).set (PLL_DIV_N x) t.n).set (PLL_NUM_NUM x) t.num).set (PLL_DEN_DEN x) t.den

/-- The staged target: `RDIV` and `DEN` of 0 act as 1 (R241). -/
def State.pllRegs (s : State) (x : Nat) : PllTarget :=
  { rdiv := max 1 (s.get (PLL_DIV_RDIV x)), n := s.get (PLL_DIV_N x), num := s.get (PLL_NUM_NUM x),
    den := max 1 (s.get (PLL_DEN_DEN x)) }

/-- Numerator and denominator of the VCO frequency of a target in Hz (R241). -/
def State.vco (s : State) (t : PllTarget) : Nat × Nat :=
  (classHz (s.get PLL_RFI_FREQ) * (t.n * t.den + t.num), t.rdiv * t.den)

/-- The target VCO frequency in kHz, rounded. -/
def State.vcoKhz (s : State) (t : PllTarget) : Nat := (roundDiv (s.vco t).1 ((s.vco t).2 * 1000)).toNat

/-- The VCO range of a synthesiser in MHz (R239). -/
def vcoRange : Nat → Nat × Nat
  | 0 => (3100, 3500)
  | 1 => (2200, 2600)
  | 2 => (6000, 6500)
  | _ => (4000, 6400)

/-- Whether edges in MHz contain a target's whole trim span (R242). -/
def spanIn (v e : Nat × Nat) : Bool :=
  decide (e.1 * 1000000000 * v.2 ≤ v.1 * 998) && decide (v.1 * 1002 ≤ e.2 * 1000000000 * v.2)

/-- The edges of a valid entry of the band table (R242). -/
def State.bandEdges (s : State) (x e : Nat) : Option (Nat × Nat) :=
  let m := (s.get (PLL_BAND_FMIN x e), s.get (PLL_BAND_FMAX x e))
  if s.on (PLL_BAND_VALID x e) && decide (m.1 ≤ m.2) then some m else none

/-- The band a target takes of a table: the lowest-numbered valid entry that contains its whole trim span; none when the
target lies outside the VCO range (R239, R242). -/
def State.bandFor (s : State) (x : Nat) (t : PllTarget) (edges : Nat → Option (Nat × Nat)) : Option (Nat × Nat × Nat) :=
  let v := s.vco t
  let r := vcoRange x
  if r.1 * 1000000 * v.2 ≤ v.1 ∧ v.1 ≤ r.2 * 1000000 * v.2 then
    (List.range 64).findSome? fun e => match edges e with
      | some m => if spanIn v m then some (e, m) else none
      | none => none
  else none

/-! ### Clock outputs (R243, R250, R251) -/

/-- A clock output's synthesiser. -/
def ckoPll (k : Nat) : Nat := 3 + k / 4

/-- The synthesiser is locked and aligned: the only state in which its outputs run (R243). -/
def State.aligned (s : State) (x : Nat) : Bool := s.get (PLL_STAT_STATE x) == 3 && s.on (PLL_STAT_ALIGNED x)

/-- Numerator and denominator of an output's nominal frequency in Hz. -/
def State.ckoHz (s : State) (k odiv : Nat) : Nat × Nat :=
  let v := s.vco (s.pll (ckoPll k)).commit
  (v.1, v.2 * odiv)

/-- The highest frequency of a format and level in Hz; none for a pair that is refused (R251). -/
def fmtLimit (fmt lvl : Nat) : Option Nat :=
  match fmt with
  | 0 => if lvl = 0 then some 200000000 else if lvl = 3 then none else some 250000000
  | 1 => some 800000000
  | 2 => some 400000000
  | 3 => some 1250000000
  | _ => none

/-- What an output shows of its setting and its synthesiser: it toggles while enabled, its synthesiser is aligned, no
GATE action holds it (R252), and more than the minimum service set works (R29, R30, R414). -/
def State.ckoShow (s : State) (k : Nat) : State :=
  let c := (s.cko k).set
  let up := s.aligned (ckoPll k)
  let f := s.ckoHz k c.odiv
  let s := s.setB (CKO_STAT_ACTIVE k) (c.en && up && !(c.act && s.on (CKO_STAT_COMPL k)) && s.serves)
  let s := if c.en && !up then s else s.set (CKO_STAT_LOCKWAIT k) 0
  let s := s.set (CKO_FREQ_HZ k) (if c.en then (roundDiv f.1 f.2).toNat else 0)
  if c.en && decide (f.2 ≠ 0) && decide (f.1 % f.2 = 0) then s else s.set (CKO_PHASE_PS k) 0x80000000

/-- Every output shown again. -/
def State.ckoShowAll (s : State) : State := s.each 12 fun k s => s.ckoShow k

/-- The four outputs of a bank shown again. -/
def State.bankShow (s : State) (x : Nat) : State :=
  if x < 3 then s else s.each 4 fun j s => s.ckoShow (4 * (x - 3) + j)

/-- A write of `CKO_CFG` waits for the next whole second (R250). -/
def State.ckoWritten (s : State) (k : Nat) : State :=
  (s.setCko k { s.cko k with due := true }).set (CKO_STAT_PEND k) 1

/-- The written setting of an output. -/
def State.ckoRegs (s : State) (k : Nat) : CkoSet :=
  { en := s.on (CKO_CFG_EN k), fmt := s.get (CKO_CFG_FMT k), lvl := s.get (CKO_CFG_LVL k),
    act := s.on (CKO_CFG_COMPLACT k), odiv := s.get (CKO_CFG_ODIV k) }

/-- The written setting at its second: taken, latched until lock and alignment, or refused (R250, R251). -/
def State.ckoApply (s : State) (k : Nat) : State :=
  let o := s.cko k
  if !o.due then s
  else
    let c := s.ckoRegs k
    let s := (s.setCko k { o with due := false }).set (CKO_STAT_PEND k) 0
    let f := s.ckoHz k c.odiv
    match fmtLimit c.fmt c.lvl with
    | none => s.set (CKO_STAT_CFGERR k) 1
    | some lim =>
      if c.odiv < 4 ∨ 4096 < c.odiv then s.set (CKO_STAT_CFGERR k) 1
      else if lim * f.2 < f.1 then s.set (CKO_STAT_FRQERR k) 1
      else
        let s := s.setCko k { s.cko k with set := c }
        let s := if c.en && !s.aligned (ckoPll k) then s.set (CKO_STAT_LOCKWAIT k) 1 else s
        let s := if c.en then s else s.set (CKO_STAT_COMPL k) 0
        s.ckoShow k

/-- The measured phase of each toggling whole-hertz output at a whole second (R249). -/
def State.ckoPhase (s : State) (k : Nat) (ps : Int) : State :=
  let c := (s.cko k).set
  let f := s.ckoHz k c.odiv
  if s.on (CKO_STAT_ACTIVE k) && decide (f.2 ≠ 0) && decide (f.1 % f.2 = 0) then
    s.setI (CKO_PHASE_PS k) (satI 32 ps)
  else s

/-! ### Locks and losses (R243–R247) -/

/-- Outputs gated, logic on `IRC`, cluster clocks stopped (R243, R247). A loss of `PLL_A` cancels every dwell (R73),
and the part is below the minimum service set: windows close, the pulses rest, the attention line is held (R30). `runt`
are the outputs cut short (R246). -/
def State.pllDown (s : State) (x : Nat) (runt : List Nat) : State :=
  let was := s.aligned x
  let cut := runt.filter fun k => s.on (CKO_STAT_ACTIVE k) && decide (ckoPll k = x)
  let s := ((s.set (PLL_STAT_LOCK x) 0).set (PLL_STAT_ALIGNED x) 0).set (PLL_STAT_RAMP x) 0
  let s := s.setPll x { s.pll x with follow := 0, following := false }
  let s := cut.foldl (fun s k => s.set (CKO_STAT_RUNT k) 1) s
  let s := s.bankShow x
  let s := if x < 2 then s.set (PLL_STAT_IRCSEL x) 1 else s
  if x = 0 && was then
    let s := s.each 1024 fun e s => if (s.eng e).tokens = 0 then s.migAbort e else s.engCancel e
    let s := s.setPll 0 { s.pll 0 with lossAt := some s.tim.up }
    let s := ({ s with itg := { s.itg with below := true } } : State).ckoShowAll
    let s := s.each 96 fun n s => if s.get (TEL_STAT_WSTATE n) = 0 then s else s.winClose n 6 0
    let s := s.each 2 fun n s => (s.tpEnd n).tpRest n
    s.attnUpdate
  else s

/-- A target refused for want of a band: `NOBAND` and one umber entry (R242). -/
def State.noBand (s : State) (x : Nat) (t : PllTarget) : State :=
  (s.set (PLL_STAT_NOBAND x) 1).note 0x0204 0x07 2 (x * 2 ^ 72 + s.vcoKhz t)

/-- A synthesiser waits in OFF for the reference, with `LOR` (R246). -/
def State.pllWait (s : State) (x : Nat) : State :=
  ((s.set (PLL_STAT_STATE x) 0).set (PLL_STAT_LOR x) 1).setPll x { s.pll x with noRef := true }

/-- A lock starts towards a target (R244): band chosen, outputs gated, calibration under way. Without a band the lock
that stands is kept; a synthesiser that has none is OFF (R242), and so is one while the reference is absent (R246). -/
def State.pllStartAt (s : State) (x : Nat) (t : PllTarget) (lost : Bool) (runt : List Nat) :
    Option (Nat × Nat × Nat) → State
  | none => (if lost then s.set (PLL_STAT_STATE x) 0 else s).noBand x t
  | some (b, m) =>
    let s := s.pllDown x runt
    let s := s.setPll x { s.pll x with commit := t, edges := m, table := (List.range 64).map (s.bandEdges x), phofs := s.getI (PLL_PHOFS_PS x), noRef := false }
    if s.tim.refLost then s.pllWait x
    else ((s.set (PLL_STAT_STATE x) 1).set (PLL_STAT_BAND x) b).set (PLL_VCO_KHZ x) (s.vcoKhz t)

/-- A lock starts, in the lowest band that takes the target. -/
def State.pllStart (s : State) (x : Nat) (t : PllTarget) (lost : Bool) (runt : List Nat) : State :=
  s.pllStartAt x t lost runt (s.bandFor x t (s.bandEdges x))

/-- Calibration ends (R244). -/
def State.pllCalDone (s : State) (x : Nat) : State :=
  if s.get (PLL_STAT_STATE x) = 1 then s.set (PLL_STAT_STATE x) 2 else s

/-- `LOCK` (R244). -/
def State.pllLock (s : State) (x : Nat) : State :=
  if s.get (PLL_STAT_STATE x) = 2 then (s.set (PLL_STAT_STATE x) 3).set (PLL_STAT_LOCK x) 1 else s

/-- The success that ends a run of failed attempts to lock `PLL_A` gives their number (R30). -/
def State.refOk (s : State) : State :=
  let n := s.cus.lockFails
  let s := { s with cus := { s.cus with lockFails := 0 }, itg := { s.itg with below := false } }
  let s := (if n = 0 then s else s.note 0x0202 0x07 4 (satN 32 n)).attnUpdate.ckoShowAll
  s.each 2 fun n s => s.tpRest n

/-- `ALIGNED` (R244, R245): the outputs start, the logic returns to the synthesiser; `PLL_A` ends the state below the
minimum service set, and one entry gives how long it lasted (R246). -/
def State.pllAligned (s : State) (x : Nat) : State :=
  if s.get (PLL_STAT_STATE x) ≠ 3 || s.on (PLL_STAT_ALIGNED x) then s
  else
    let p := s.pll x
    let s := (s.setPll x { p with lock := p.commit, lossAt := none }).set (PLL_STAT_ALIGNED x) 1
    let s := s.set (PLL_STAT_IRCSEL x) 0
    let s := s.bankShow x
    match p.lossAt with
    | none => s
    | some a =>
      let s := s.refOk
      let s := s.note 0x0203 0x07 3 (satN 32 ((s.tim.up - a) / 1000))
      let s := s.each 16 fun c s => s.cluResume c
      s.attnUpdate.lateOpen

/-- Loss of lock with the reference present (R246): counted, and calibrated again towards the last committed target. -/
def State.pllLol (s : State) (x : Nat) (runt : List Nat) : State :=
  if s.get (PLL_STAT_STATE x) ≠ 3 then s
  else
    let s := (s.set (PLL_STAT_LOL x) 1).incSat (PLL_LOLCNT_COUNT x)
    let s := s.pllDown x runt
    s.pllStart x (s.pll x).commit true []

/-- Loss of reference: every running synthesiser gates its outputs and waits in OFF (R246). -/
def State.pllLor (s : State) (runt : List Nat) : State :=
  let s := (s.set PLL_RFI_LOR 1).incSat PLL_RFI_LORCNT
  let s := { s with tim := { s.tim with refLost := true } }
  s.each 6 fun x s =>
    if s.get (PLL_STAT_STATE x) = 0 then s
    else ((s.pllDown x runt).pllWait x).incSat (PLL_LOLCNT_COUNT x)

/-- The reference returns: every synthesiser that waits for it and is enabled relocks (R246). -/
def State.pllReturn (s : State) : State :=
  let s := { s with tim := { s.tim with refLost := false } }
  s.each 6 fun x s =>
    let p := s.pll x
    let s := s.setPll x { p with noRef := false }
    if p.noRef && s.on (PLL_CTL_EN x) then s.pllStart x p.commit true [] else s

/-! ### Commands of a synthesiser (R247–R249) -/

/-- The largest offset from the last locked target, in 2^-48 (R248). -/
def maxOffset : Int := 549755814 * 1024

/-- The effect of a write of `PLL_CTL` (R243, R247, R248): `GO` takes the staged target, `RELOCK` waits for its second,
a cleared enable stops a synthesiser, which still waits for an absent reference, a cleared `FOLLOW` ends the follow term. `was` is `EN` before. -/
def State.pllCtl (s : State) (x : Nat) (was : Bool) (w : Nat) : State :=
  let s := if bit w 30 && decide (3 ≤ x) then
      (s.setPll x { s.pll x with staged := some (s.pllRegs x) }).set (PLL_STAT_PEND x) 1 else s
  let s := if !bit w 29 then s
    else if x = 0 && s.get TIM_STAT_STATE == 2 then s.set (PLL_STAT_REFUSED x) 1
    else (s.setPll x { s.pll x with relockDue := true }).set (PLL_STAT_PEND x) 1
  let s := if was && !s.on (PLL_CTL_EN x) then
      let s := (s.pllDown x []).set (PLL_STAT_STATE x) 0
      s.setPll x { s.pll x with noRef := s.tim.refLost && (s.pll x).noRef }
    else s
  let p := s.pll x
  if s.on (PLL_CTL_FOLLOW x) || !p.following then s
  else (s.setPll x { p with follow := 0, following := false }).setB (PLL_STAT_RAMP x)
    (s.on (PLL_STAT_RAMP x) || decide (p.follow ≠ 0))

/-- The effect of a write of `PLL_TRIM` (R248): refused beyond the bound, with the old trim `old` kept; else a ramp
while the synthesiser is locked. -/
def State.pllTrim (s : State) (x old : Nat) : State :=
  let t := s.getI (PLL_TRIM_TRIM x)
  if maxOffset < (t * 1024 + (s.pll x).follow).natAbs then (s.set (PLL_TRIM_TRIM x) old).set (PLL_STAT_TRIMERR x) 1
  else if s.get (PLL_STAT_STATE x) = 3 ∧ s.get (PLL_TRIM_TRIM x) ≠ old then s.set (PLL_STAT_RAMP x) 1
  else s

/-- A committed target within ±2,000 ppm of the last locked target and in the same band, of the table as it was at the lock
(R242), is a small step (R248). -/
def State.smallStep (s : State) (x : Nat) (t : PllTarget) : Bool :=
  let p := s.pll x
  let a := s.vco t
  let b := s.vco p.lock
  s.aligned x && decide (1000 * (max (a.1 * b.2) (b.1 * a.2) - min (a.1 * b.2) (b.1 * a.2)) ≤ 2 * (b.1 * a.2)) &&
    (s.bandFor x t (fun e => p.table.getD e none)).map (·.1) == some (s.get (PLL_STAT_BAND x))

/-- Commit and relock at their second (R244, R247, R248). A synthesiser that does not run keeps the target for its next lock,
unless no band takes it (R242); without a reference class its frequency is not known yet. -/
def State.pllApply (s : State) (x : Nat) : State :=
  let p := s.pll x
  let s := (s.setPll x { p with staged := none, relockDue := false }).set (PLL_STAT_PEND x) 0
  if !s.on (PLL_CTL_EN x) || !s.on PLL_RFI_VALID || s.tim.refLost then
    let s := if s.on (PLL_CTL_EN x) && s.tim.refLost && (p.staged.isSome || p.relockDue) then s.pllWait x else s
    match p.staged with
    | none => s
    | some t =>
      if s.on PLL_RFI_VALID && (s.bandFor x t (s.bandEdges x)).isNone then s.noBand x t
      else s.setPll x { s.pll x with commit := t }
  else
    match p.staged with
    | some t =>
      if s.smallStep x t && !p.relockDue then
        ((s.setPll x { s.pll x with commit := t }).set (PLL_STAT_RAMP x) 1).set (PLL_VCO_KHZ x) (s.vcoKhz t) |>.bankShow x
      else s.pllStart x t false []
    | none =>
      if !p.relockDue then s
      else if x = 0 ∧ s.get TIM_STAT_STATE = 2 then s.set (PLL_STAT_REFUSED x) 1
      else s.pllStart x p.commit false []

/-- The follow term at a whole second (R249): the time core's `RATE`, within the bound of R248. -/
def State.pllFollow (s : State) (x : Nat) : State :=
  let p := s.pll x
  if !s.on (PLL_CTL_FOLLOW x) || !s.aligned x then s
  else
    let t := s.getI (PLL_TRIM_TRIM x) * 1024
    let f := clampI (-maxOffset - t) (maxOffset - t) (s.getI2 TIM_RATE_L_RATE TIM_RATE_H_RATE)
    let s := if f = p.follow then s else s.set (PLL_STAT_RAMP x) 1
    s.setPll x { p with follow := f, following := true }

/-- The ramp reaches its new value (R248). -/
def State.pllRampDone (s : State) (x : Nat) : State := s.set (PLL_STAT_RAMP x) 0

/-- The whole second of the synthesisers and outputs: commits, then output settings, follow terms and phases. -/
def State.clkSecond (s : State) (phases : List Int) : State :=
  let s := s.each 6 fun x s => s.pllApply x
  let s := s.each 12 fun k s => s.ckoApply k
  let s := s.each 6 fun x s => if x < 3 then s else s.pllFollow x
  s.each 12 fun k s => s.ckoPhase k (phases.getD k 0)

/-! ### Compliance (R252) -/

/-- The measured supply of an output's bank. -/
def State.bankMv (s : State) (k mv10 : Nat) : State :=
  (s.set (CKO_BANK_MV10 (k / 4)) (satN 10 mv10)).setB (CKO_BANK_PRESENT (k / 4)) (decide (120 < mv10))

/-- The lowest supply in mV at which a format and level complies (R251). -/
def fmtSupply (fmt lvl : Nat) : Nat :=
  match fmt with
  | 0 => if lvl = 0 then 1710 else if lvl = 1 then 2375 else 3135
  | 1 => 1710
  | 2 => 2375
  | _ => if lvl < 2 then 1710 else 2375

/-- A supply shown as `mv10` can be below an output's requirement (R252). DEDUCED (log 32): `MV10` drops what is below
10 mV. -/
def CkoSet.short (c : CkoSet) (mv10 : Nat) : Bool := decide (10 * mv10 < fmtSupply c.fmt c.lvl)

/-- A supply shown as `mv10` can be 20 mV above the requirement (R252). -/
def CkoSet.ample (c : CkoSet) (mv10 : Nat) : Bool := decide (fmtSupply c.fmt c.lvl + 10 < 10 * mv10)

/-- `COMPL` sets where the supply is below the lowest of R251 for the output's setting, and an episode begins unless one
is running (R252). An unpowered bank is below every requirement. -/
def State.complSet (s : State) (k mv10 : Nat) : State :=
  let o := s.cko k
  if !o.set.en || s.on (CKO_STAT_COMPL k) then s
  else if !o.set.short mv10 then s.bankMv k mv10
  else
    let s := ((s.bankMv k mv10).set (CKO_STAT_COMPL k) 1).ckoShow k
    if o.episode then s
    else
      let s := s.setCko k { s.cko k with episode := true }
      let s := (s.set (CKO_STAT_COMPLEP k) 1).incSat (CKO_CNT_EPIS k)
      s.note 0x0205 0x07 2 (k * 2 ^ 72 + o.set.fmt * 2 ^ 69 + o.set.lvl * 2 ^ 67 + satN 10 mv10)

/-- `COMPL` clears where the supply is 20 mV above the requirement, and a gated output restarts (R252, R254). -/
def State.complClear (s : State) (k mv10 : Nat) : State :=
  if !s.on (CKO_STAT_COMPL k) then s
  else if !(s.cko k).set.ample mv10 then s.bankMv k mv10
  else ((s.bankMv k mv10).set (CKO_STAT_COMPL k) 0).ckoShow k

/-- The episode ends (R252). -/
def State.complEnd (s : State) (k : Nat) : State :=
  if s.on (CKO_STAT_COMPL k) then s else s.setCko k { s.cko k with episode := false }

end Sys2Proof.Machine
end

