-- ==== Sys2Proof/Machine/JrnlBlock.lean ====
section
/-! DEFINITION. The configuration flash and its journal (ch. 17): layout, entries, sector change, recovery, copy. -/

namespace Sys2Proof.Machine

/-! ### The flash (R346, R382) -/

/-- The staging slot's size S (R346). -/
def State.slotSize (s : State) : Nat := (s.get CFL_FLASH_MIB - 1) * 2 ^ 19

/-- The first octet of an area: 0 journal, 1 active slot, 2 build area, 3 receive area (R346, R382, R383). -/
def State.areaBase (s : State) : Nat → Nat
  | 0 => 0
  | 1 => 0x100000
  | 2 => 0x100000 + s.slotSize
  | _ => 0x300000 + s.slotSize

/-- Octets programmed into an area. -/
def State.flashPut (s : State) (a : Nat) (bs : List Byte) : State := { s with flash := flashProgram s.flash a bs }

/-- A sector of an area erased. -/
def State.flashClear (s : State) (area idx : Nat) : State :=
  { s with flash := flashErase s.flash (s.areaBase area + idx * 65536) 65536 }

/-- The header as R347: `RBLK` and `LEN`. -/
def imageHeader (h : List Byte) : Option (Nat × Nat) :=
  let f := fun o n => leNat (sliceN h o n)
  let rblk := f 6 2
  let len := f 8 4
  if f 0 4 = 0x46514344 ∧ f 4 2 = 1 ∧ 1 ≤ rblk ∧ rblk ≤ 256 ∧ len % 4096 = 0 ∧ rblk * 4096 ≤ len ∧ len ≤ 2097152 ∧
      (sliceN h 0x24 28).all (· == 0) then some (rblk, len)
  else none

/-! ### Entries (R383, R384) -/

/-- A journal entry as stored (R383). -/
def jrnlEntry (et jseq upd : Nat) (body : List Byte) : List Byte :=
  let bs := leBytes 1 et ++ leBytes 3 0 ++ leBytes 4 jseq ++ leBytes 8 upd ++ sliceN body 0 12
  bs ++ leBytes 4 (crc32 bs)

/-- A valid entry: type, number, identifier, body. -/
def jrnlParse (bs : List Byte) : Option (Nat × Nat × Nat × List Byte) :=
  if leNat (sliceN bs 28 4) = crc32 (bs.take 28) then
    some (leNat (sliceN bs 0 1), leNat (sliceN bs 4 4), leNat (sliceN bs 8 8), sliceN bs 16 12)
  else none

/-- A sector header of a generation (R383). -/
def jrnlHeader (gen : Nat) : List Byte :=
  let bs := leBytes 4 0x4A524E4C ++ leBytes 4 1 ++ leBytes 4 gen ++ leBytes 16 0
  bs ++ leBytes 4 (crc32 bs)

/-- The octets of a journal slot. -/
def State.jrnlSlot (s : State) (sector k : Nat) : List Byte := s.flashBytes (sector * 65536 + k * 32) 32

/-- A slot with every octet 0xFF. -/
def slotBlank (bs : List Byte) : Bool := bs.all (· == 0xFF)

/-- The runs of pages without pages `a` to `a + n − 1`. -/
def runsDrop (rs : List (Nat × Nat)) (a n : Nat) : List (Nat × Nat) :=
  rs.flatMap fun r =>
    [(r.1, min r.2 (a - r.1)), (max r.1 (a + n), r.1 + r.2 - max r.1 (a + n))].filter fun x => decide (0 < x.2)

/-- The runs with a run added, merged with those it meets, in ascending order. -/
def runsAdd (rs : List (Nat × Nat)) (a n : Nat) : List (Nat × Nat) :=
  let meet := rs.filter fun r => decide (r.1 ≤ a + n) && decide (a ≤ r.1 + r.2)
  let lo := meet.foldl (fun m r => min m r.1) a
  let hi := meet.foldl (fun m r => max m (r.1 + r.2)) (a + n)
  let rest := rs.filter fun r => !(decide (r.1 ≤ a + n) && decide (a ≤ r.1 + r.2))
  rest.filter (fun r => decide (r.1 < lo)) ++ [(lo, hi - lo)] ++ rest.filter fun r => decide (lo ≤ r.1)

/-- Pages in a list of runs. -/
def runsCount (rs : List (Nat × Nat)) : Nat := rs.foldl (fun a r => a + r.2) 0

/-- A page lies in a run. -/
def runsHas (rs : List (Nat × Nat)) (p : Nat) : Bool := rs.any fun r => decide (r.1 ≤ p) && decide (p < r.1 + r.2)

/-- What ends with a transfer: the object, its staged image, a requested activation and its copy. -/
def JrnlSt.drop (j : JrnlSt) : JrnlSt :=
  { j with open_ := none, runs := [], pending := none, staged := none, actreq := false, copyBeg := none, copied := [],
           newParts := [], refused := false }

/-- An entry's effect on the journal's state (R384). An `OPEN` keeps the `PARTMAP` entries before it: in a checkpoint those of the
active image come first (R385). -/
def JrnlSt.apply (j : JrnlSt) (et upd : Nat) (body : List Byte) : JrnlSt :=
  let f := fun o n => leNat (sliceN body (o - 16) n)
  match et with
  | 0x01 => { j with intents := (j.intents.filter (· ≠ (f 16 1, f 18 2))) ++ [(f 16 1, f 18 2)] }
  | 0x02 => { j with intents := j.intents.filter (· ≠ (f 16 1, f 18 2)) }
  | 0x03 => { j.drop with open_ := some (upd, f 16 4), newParts := j.newParts }
  | 0x04 => { j with runs := runsAdd j.runs (f 16 4) (f 20 4) }
  | 0x05 => { j with runs := runsDrop j.runs (f 16 4) (f 20 4) }
  | 0x06 => { j.drop with ended := upd :: j.ended }
  | 0x07 => { j with staged := some (f 16 4, beNat (sliceN body 4 8)), refused := false }
  | 0x08 => { j with actreq := true, refused := false }
  | 0x09 => { j with copyBeg := some (f 16 4), copied := [] }
  | 0x0A => { j with copied := f 16 2 :: j.copied }
  | 0x0B => { j with newParts := (j.newParts.filter fun p => p.ptype != f 16 1) ++
                [{ ptype := f 16 1, iofs := f 18 2, len := f 20 4, ver := f 24 4 }] }
  | 0x0C => { j.drop with parts := j.newParts, ended := upd :: j.ended }
  | 0x0D => { j with actreq := false, refused := true }
  | 0x0E => { j.drop with intents := [], parts := [] }
  | 0x0F => { j with parts := j.newParts, newParts := [] }
  | _ => j

/-- The update state a journal gives, as `SVC_UPD.USTATE` codes it: none 0, receiving 1, staged 3, activation requested
4, copying 5. -/
def JrnlSt.ustate (j : JrnlSt) : Nat :=
  if j.copyBeg.isSome then 5 else if j.actreq then 4 else if j.staged.isSome then 3 else if j.open_.isSome then 1 else 0

/-- The update registers follow the journal; a change of `USTATE` raises `SVC_IRQ`. -/
def State.updShow (s : State) : State :=
  let j := s.svc.jrnl
  let old := s.get SVC_UPD_USTATE
  let s := s.set SVC_UPD_USTATE j.ustate
  let s := s.set2 SVC_UPDID_L_ID SVC_UPDID_H_ID (match j.open_ with | some (u, _) => u | none => 0)
  let s := s.set SVC_UPDTOT_TOTAL (match j.open_ with | some (_, n) => ceilDiv n 256 | none => 0)
  let s := s.set SVC_UPDPG_RECV (runsCount j.runs)
  let s := (s.set SVC_JRNL_SECTOR j.sector).set SVC_JRNL_NEXT j.next
  if j.ustate = old then s else s.orF SVC_IRQ_IRQ 4

/-- One entry written at the next slot. -/
def State.jrnlRaw (s : State) (et upd : Nat) (body : List Byte) : State :=
  let j := s.svc.jrnl
  if 2048 ≤ j.next then s
  else
    let n := (j.jseq + 1) % 2 ^ 32
    let s := s.flashPut (j.sector * 65536 + j.next * 32) (jrnlEntry et n upd body)
    let j := { j.apply et upd body with next := j.next + 1, jseq := n }
    ({ s with svc := { s.svc with jrnl := j } }).updShow

/-- The body of `INTENT` and `DONE`. -/
def areaBody (area idx : Nat) : List Byte := leBytes 2 area ++ leBytes 2 idx

/-- The live state as entries: type and body (R385). -/
def JrnlSt.live (j : JrnlSt) : List (Nat × List Byte) :=
  (j.parts.map fun p => (0x0B, leBytes 2 p.ptype ++ leBytes 2 p.iofs ++ leBytes 4 p.len ++ leBytes 4 p.ver)) ++
  (match j.open_ with | some (_, n) => [(0x03, leBytes 4 n)] | none => []) ++
  (j.runs.map fun r => (0x04, leBytes 4 r.1 ++ leBytes 4 r.2)) ++
  (match j.staged with | some (n, d) => [(0x07, leBytes 4 n ++ beBytes 8 d)] | none => []) ++
  (if j.actreq then [(0x08, [])] else []) ++
  (match j.copyBeg with | some n => [(0x09, leBytes 4 n)] | none => []) ++
  (j.copied.reverse.map fun n => (0x0A, leBytes 2 n)) ++
  (j.intents.map fun i => (0x01, areaBody i.1 i.2))

/-- Entries written one after another into a new sector, with no effect on the state they record. -/
def State.jrnlCopy (s : State) (upd : Nat) : List (Nat × List Byte) → State
  | [] => s
  | (et, body) :: es =>
    let j := s.svc.jrnl
    let n := (j.jseq + 1) % 2 ^ 32
    let s := s.flashPut (j.sector * 65536 + j.next * 32) (jrnlEntry et n upd body)
    State.jrnlCopy { s with svc := { s.svc with jrnl := { j with next := j.next + 1, jseq := n } } } upd es

/-- The header and checkpoint of a sector (steps 4 and 5 of R385). -/
def State.jrnlCkpt (s : State) (sector gen : Nat) : State :=
  let s := s.flashPut (sector * 65536) (jrnlHeader gen)
  let s := { s with svc := { s.svc with jrnl := { s.svc.jrnl with sector := sector, next := 1, gen := gen, ok := true } } }
  let j := s.svc.jrnl
  let upd := match j.open_ with | some (u, _) => u | none => 0
  let live := j.live
  (s.jrnlCopy upd ((0x0E, leBytes 4 live.length) :: live ++ [(0x0F, [])])).updShow

/-- The move to the next sector (R385). A recovery can find the full sector with fewer than 2 slots left: what finds no slot is
not written, and the checkpoint holds no `INTENT` of the sector just erased (DEDUCED: log 50). -/
def State.jrnlMove (s : State) : State :=
  let j := s.svc.jrnl
  let nx := (j.sector + 1) % 16
  let s := s.jrnlRaw 0x01 0 (areaBody 0 nx)
  let s := s.flashClear 0 nx
  let s := s.jrnlRaw 0x02 0 (areaBody 0 nx)
  let k := s.svc.jrnl
  let s := { s with svc := { s.svc with jrnl := { k with intents := k.intents.filter (· ≠ (0, nx)) } } }
  s.jrnlCkpt nx ((j.gen + 1) % 2 ^ 32)

/-- The move, when 3 slots of the sector remain blank (R385). -/
def State.jrnlMoveFull (s : State) : State :=
  let full := decide (2045 ≤ s.svc.jrnl.next)
  if full then s.jrnlMove else s

/-- An entry journalled; a sector with 3 blank slots left is full (R385). -/
def State.jrnlPut (s : State) (et upd : Nat) (body : List Byte) : State := (s.jrnlRaw et upd body).jrnlMoveFull

/-- The identifier of the open transfer or staged image. -/
def State.updId (s : State) : Nat := match s.svc.jrnl.open_ with | some (u, _) => u | none => 0

/-- A sector of an area erased under `INTENT` and `DONE` (R386). A sector of the journal that the move after `INTENT` has just
erased and begun to use is not erased again. -/
def State.jrnlErase (s : State) (area idx : Nat) : State :=
  let s := s.jrnlPut 0x01 0 (areaBody area idx)
  if area = 0 ∧ idx = s.svc.jrnl.sector then s
  else (s.flashClear area idx).jrnlPut 0x02 0 (areaBody area idx)

/-- The pending run journalled (R391). -/
def State.jrnlRun (s : State) : State :=
  match s.svc.jrnl.pending with
  | none => s
  | some (a, n) =>
    let s := s.jrnlPut 0x04 s.updId (leBytes 4 a ++ leBytes 4 n)
    { s with svc := { s.svc with jrnl := { s.svc.jrnl with pending := none } } }

/-! ### Recovery (R386) -/

/-- A sector's generation when its header is valid. -/
def State.jrnlGen (s : State) (k : Nat) : Option Nat :=
  let bs := s.jrnlSlot k 0
  if leNat (bs.take 4) = 0x4A524E4C ∧ leNat (sliceN bs 4 4) = 1 ∧ leNat (sliceN bs 28 4) = crc32 (bs.take 28) then
    some (leNat (sliceN bs 8 4))
  else none

/-- The slots of a sector from `k`, `n` of them: the valid entries in order. -/
def State.jrnlEntries (s : State) (sector : Nat) : List (Nat × Nat × Nat × List Byte) :=
  (List.range 2047).filterMap fun k => jrnlParse (s.jrnlSlot sector (k + 1))

/-- A sector holds a checkpoint that ended. -/
def State.jrnlEnded (s : State) (sector : Nat) : Bool := (s.jrnlEntries sector).any fun e => e.1 == 0x0F

/-- The last slot of a sector that is not blank. -/
def State.jrnlLast (s : State) (sector : Nat) : Nat :=
  (List.range 2048).foldl (fun m k => if slotBlank (s.jrnlSlot sector k) then m else k) 0

/-- A sector wholly blank. -/
def State.jrnlBlank (s : State) (sector : Nat) : Bool :=
  (List.range 2048).all fun k => slotBlank (s.jrnlSlot sector k)

/-- The used sector: the highest generation among those whose header is valid and whose checkpoint ended. -/
def State.jrnlUsed (s : State) : Option (Nat × Nat) :=
  (List.range 16).foldl (fun (b : Option (Nat × Nat)) k =>
    match s.jrnlGen k with
    | some g => if s.jrnlEnded k then (match b with | some (_, h) => if h < g then some (k, g) else b | none => some (k, g)) else b
    | none => b) none

/-- Sectors to erase again: a valid header without a checkpoint that ended, or one neither valid nor blank. -/
def State.jrnlBroken (s : State) : List Nat :=
  (List.range 16).filter fun k => if (s.jrnlGen k).isSome then !s.jrnlEnded k else !slotBlank (s.jrnlSlot k 0)

/-- One entry replayed. -/
def JrnlSt.replay (j : JrnlSt) (e : Nat × Nat × Nat × List Byte) : JrnlSt :=
  let k := j.apply e.1 e.2.2.1 e.2.2.2
  { k with jseq := e.2.1 }

/-- The state that a replay of a sector's entries gives. -/
def jrnlReplay (es : List (Nat × Nat × Nat × List Byte)) : JrnlSt := es.foldl JrnlSt.replay {}

/-- Sectors erased again at a start, each under its own `INTENT` and `DONE` (R386). -/
def State.eraseAgain (s : State) (again : List (Nat × Nat)) : State := again.foldl (fun s i => s.jrnlErase i.1 i.2) s

/-- The journal's recovery (R386). A sector found full is left first: the move erases the next one, whose interrupted erase it
completes. With no sector to use, sector 0 is erased without an `INTENT`, as no journal can hold one, and the others after it
has begun (DEDUCED: log 50). -/
def State.jrnlRecover (s : State) : State :=
  let broken := s.jrnlBroken.map fun b => (0, b)
  match s.jrnlUsed with
  | none =>
    let s := if broken.contains (0, 0) then s.flashClear 0 0 else s
    let s := ({ s with svc := { s.svc with jrnl := {} } }).jrnlCkpt 0 1
    let s := s.eraseAgain (broken.filter (· ≠ (0, 0)))
    if broken.isEmpty || s.cus.blankOk then s else s.set SVC_STAT_FLFAIL 1
  | some (k, g) =>
    let ended := s.svc.jrnl.ended
    let j := jrnlReplay (s.jrnlEntries k)
    let j := { j with ok := true, sector := k, gen := g, next := s.jrnlLast k + 1,
                      ended := j.ended ++ ended.filter fun u => !j.ended.contains u }
    let s := ({ s with svc := { s.svc with jrnl := j } }).updShow.jrnlMoveFull
    let again := s.svc.jrnl.intents ++ broken.filter fun i => !s.svc.jrnl.intents.contains i && i.2 != s.svc.jrnl.sector
    let s := s.eraseAgain again
    if (j.intents.isEmpty && broken.isEmpty) || s.cus.blankOk then s else s.set SVC_STAT_FLFAIL 1

/-! ### Activation (R396) -/

/-- The `UPDATE` entry: stage and result (R396). -/
def State.noteUpdate (s : State) (stage result : Nat) : State :=
  s.note 0x0708 0x01 1 (stage * 2 ^ 72 + result % 256 * 2 ^ 64 + s.updId)

/-- A sector of the active slot programmed where its read-back fails: its octets are then open. -/
def State.copyMiss (s : State) (n : Nat) : State :=
  let dst := s.areaBase 1 + n * 65536
  let g := s.free
  ({ s with free := g + 1 }).flashPut dst ((List.range 65536).map fun i => Config.lostByte g (dst + i))

/-- A sector of the active slot copied from the build area. One whose read-back fails is erased and programmed once more; that of
the sector named fails twice (R396). -/
def State.copySector (s : State) (fail : Option Nat) (n : Nat) : State :=
  let s := s.jrnlErase 1 n
  let s := if fail = some n ∨ n ∈ s.cus.copyAgain then (s.copyMiss n).jrnlErase 1 n else s
  let src := s.areaBase 2 + n * 65536
  let dst := s.areaBase 1 + n * 65536
  if fail = some n then s.copyMiss n
  else (s.flashPut dst (s.flashBytes src 65536)).jrnlPut 0x0A s.updId (leBytes 2 n)

/-- The manifest entries of the container in the receive area, as `PARTMAP` bodies (R388). -/
def State.manifestParts (s : State) : List (List Byte) :=
  let c := s.areaBase 3
  (List.range (leNat (s.flashBytes (c + 6) 1))).map fun i =>
    let e := s.flashBytes (c + 64 + 64 * i) 64
    leBytes 2 (leNat (sliceN e 0 1)) ++ leBytes 2 (leNat (sliceN e 12 4) / 4096) ++ sliceN e 16 4 ++ sliceN e 8 4

/-- The copy's sectors from the first without `COPYSEC`, then the part map and `ACTIVE`. A second failure of a sector
ends the copy with `FLASH` (R396). -/
def State.copyGo (s : State) : State :=
  match s.svc.jrnl.copyBeg, s.svc.jrnl.staged with
  | some len, some (slen, dig) =>
    let todo := (List.range (ceilDiv len 65536)).filter fun n => !s.svc.jrnl.copied.contains n
    let fail := match s.cus.copyFail with
      | some n => if todo.contains n then some n else none
      | none => none
    let run := match fail with
      | some n => todo.filter fun k => decide (k ≤ n)
      | none => todo
    let s := run.foldl (fun s n => s.copySector fail n) s
    if fail.isSome then s.noteUpdate 4 0x1A
    else
      let s := s.manifestParts.foldl (fun s b => s.jrnlPut 0x0B s.updId b) s
      let s := s.noteUpdate 5 0
      s.jrnlPut 0x0C s.updId (leBytes 4 slen ++ beBytes 8 dig)
  | _, _ => s

/-- An activation requested, in the activating soft start (R396): the build area is digested and copied. -/
def State.activation (s : State) : State :=
  match s.svc.jrnl.actreq, s.svc.jrnl.staged with
  | true, some (len, dig) =>
    if beNat ((sha256 (s.flashBytes (s.areaBase 2) len)).take 8) ≠ dig then
      let s := s.noteUpdate 3 0x14
      s.jrnlPut 0x06 s.updId []
    else (s.jrnlPut 0x09 s.updId (leBytes 4 len)).copyGo
  | _, _ => s

/-- A cold start's part (R396): a copy begun is completed; a request without a copy is refused. -/
def State.activationCold (s : State) : State :=
  let j := s.svc.jrnl
  if j.copyBeg.isSome then s.copyGo
  else if j.actreq then
    let s := (s.note 0x0709 0x01 2 (2 ^ 78 + s.updId)).noteUpdate 3 0x17
    s.jrnlPut 0x0D s.updId (leBytes 1 2)
  else s

end Sys2Proof.Machine
end

