-- ==== Sys2Proof/Machine/StartBlock.lean ====
section
/-! DEFINITION. Resets, the two kinds of start, the walk's begin and end, walk faults, the minimum service set (ch. 1,
ch. 16). -/

namespace Sys2Proof.Machine

/-! ### Sessions and back-off (R360, R365, R373) -/

/-- A REOPENED session ends with its entry (R360): reason 0 closed, 1 idle, 2 link down, 3 soft start. -/
def State.sessEnd (s : State) (reason : Nat) : State :=
  if s.cus.reopened then
    let s := s.note 0x0707 0x0A 1 (reason * 2 ^ 78 + s.cus.rec_.ctr % 2 ^ 32)
    ({ s with cus := { s.cus with reopened := false, firstSession := false } }).set CUS_IDLE_S 0 |>.cusRegs
  else { s with cus := { s.cus with firstSession := false } }

/-- The session of the link ends (R373). -/
def State.sessClose (s : State) (reason : Nat) : State :=
  let s := s.sessEnd reason
  if s.on SVC_STAT_SESSION then ((s.set SVC_STAT_SESSION 0).orF SVC_IRQ_IRQ 2).attnUpdate else s

/-- The link's state: 0 down, 1 up, 2 changing rate. -/
def State.svcLink (s : State) (k : Nat) : State :=
  if s.get SVC_STAT_LINK = k then s else (s.set SVC_STAT_LINK k).orF SVC_IRQ_IRQ 1

/-- Both directions of the link reset (R371, R373): a command in execution runs on, and its response is discarded
(R372, R399). -/
def State.svcClear (s : State) : State :=
  let v := s.svc
  let busy := v.long.isSome || s.on SVC_REPAIR_RSTATE
  let s : State := { s with
    svc := { jrnl := v.jrnl, repair := v.repair, rxOn := v.rxOn, long := v.long, discard := busy
             startAt := v.startAt.map fun x => (65536, x.2) } }
  ((s.set SVC_STAT_INFLIGHT 0).set SVC_STAT_WFREE 8).set SVC_SEQ_TXSEQ 0 |>.set SVC_SEQ_RXEXP 0

/-- The service port restarts with the custody core: at 115,200 baud, no link (R25, R368). -/
def State.svcRestart (s : State) : State :=
  let s := (s.svcClear.svcLink 0).set SVC_BAUD_BAUD 115200
  let s := ((s.set SVC_REPAIR_RSTATE 0).set SVC_REPAIR_GROUP 0).set SVC_REPAIR_TARGET 0
  { s with svc := { s.svc with repair := {}, startAt := [], long := none, discard := false } }

/-- Seconds of back-off after `n` failures (R365). -/
def backoffS (n : Nat) : Nat := if n < 3 then 0 else min (60 * 2 ^ (min n 20 - 3)) 3600

/-- The back-off begins: after a failure, or in full at a start (R365). -/
def State.backoff (s : State) : State :=
  let n := backoffS s.cus.rec_.fail
  let s := { s with cus := { s.cus with waitEdges := 0, waitNs := 0 } }
  (s.setB CUS_STAT_BACKOFF (n != 0)).set CUS_BOFF_S n

/-- Whole seconds of the back-off counted: 32,768 crystal edges are one (R365). -/
def CusSt.waited (c : CusSt) : Nat := (c.waitEdges * 10 ^ 9 + c.waitNs * 32768) / (32768 * 10 ^ 9)

/-- The wait's seconds left, and the idle time of a REOPENED session, at a device second; a command that executes does not
count as idle time (R375). -/
def State.cusSecond (s : State) : State :=
  let n := backoffS s.cus.rec_.fail
  let s := if s.on CUS_STAT_BACKOFF then s.set CUS_BOFF_S (n - s.cus.waited) else s
  if s.cus.reopened && !(s.svc.long.isSome || s.on SVC_REPAIR_RSTATE) then s.set CUS_IDLE_S (satN 16 ((s.tim.up - s.cus.cmdAt) / 10 ^ 9)) else s

/-! ### Resets (R24, R25, R97, R352) -/

/-- The `PROC` reset (R24, R86, R97): registers, engines, loop DSPs, snapshot store, navigation core; every engine is in
REPAIR and its self-test runs. -/
def State.procReset (s : State) : State :=
  let s := if s.nav.running then { s with net := { s.net with ident := some s.identNow } } else s
  let s := (s.clearRegs 0x40070000 0x40080000).clearRegs 0x50000000 0x70000000
  let s := (s.clearLatches 0x40070000 0x40080000).clearLatches 0x50000000 0x70000000
  let s := { s with
    engs := [], clus := [], handles := [], replay := {}, maps := [], chans := [], lates := [], dsps := []
    nav := {}, mordant := {} }
  s.wipeSnap.each 16 fun c s => s.set (CLU_CTL_BUSY c) 1

/-- The pulse outputs return to their reset level (R30, R414). -/
def State.pulsesRest (s : State) : State :=
  s.each 2 fun n s => s.tpDrive n false

/-- The outputs return to their reset level at a cold start (R414). -/
def State.outputsRest (s : State) : State :=
  let s := s.pulsesRest
  if s.on SVC_STAT_ATTN then s.emit (.attn false) else s

/-- The reset of a cold start (R24, R25): everything but the always-on domain, the MRAM and the flash. -/
def State.coldReset (s : State) : State :=
  let s := s.outputsRest.wipeCold
  let z : State := State.reset
  let keep := fun (e : Nat × Nat) => decide (0x40020000 * 32 ≤ e.1) && decide (e.1 < 0x40030000 * 32)
  let inRtc := fun (e : Nat × Nat) => decide (0x40020000 ≤ e.1 % 2 ^ 32) && decide (e.1 % 2 ^ 32 < 0x40030000)
  let inMram := fun (e : Nat × Bool) => decide (0x90000000 ≤ e.1)
  let sup : SupSt := { powered := s.sup.powered, rstLow := s.sup.rstLow, pfw := s.sup.pfw, io33 := s.sup.io33,
                       core := s.sup.core, ioShort := s.sup.ioShort }
  let s : State := { z with
    reg := s.reg.filter keep, mem := s.mem, flash := s.flash, wipes := s.wipes, colds := s.colds
    ecc := s.ecc.filter inMram, latch := s.latch.filter inRtc, rtc := s.rtc, sup := sup
    tap := s.tap, part := s.part, out := s.out, free := s.free, pending := s.pending }
  s.each 16 fun c s => s.set (CLU_CTL_BUSY c) 1

/-- Registers of a range that records may write, and with `sticky` the flags that software clears, back at their reset
values. -/
def State.clearWritable (s : State) (lo hi : Nat) (sticky : Bool := false) : State :=
  let config := fun (e : Nat × Nat) =>
    decide (lo * 32 ≤ e.1) && decide (e.1 < hi * 32) &&
      (regsAt (e.1 / 32)).any fun f => f.1.key == e.1 && (f.2 == .rw || f.2 == .rwb || f.2 == .rwl || (sticky && f.2 == .w1c))
  { s with reg := s.reg.filter fun e => !config e }

/-- An output after its registers' reset: a pulse begun completes at its width (R236), and nothing else but its level is
left. -/
def TpSt.rest (p : TpSt) : TpSt :=
  if p.trailAt.isSome then { trailAt := p.trailAt, lastTrail := p.lastTrail, pin := p.pin } else { pin := p.pin }

/-- The registers of the time core at their reset values, but for its count, state and `TERR`, and for what shows a pulse
begun (R236, R352). -/
def State.timReset (s : State) : State :=
  let s := (s.clearWritable 0x40040000 0x40050000 true).clearRegs 0x40040200 0x40040220
  let s := (s.clearRegs 0x40040110 0x40040128).clearRegs 0x40040150 0x40040168
  s.each 2 fun n s => if (s.tp n).trailAt.isSome then s.set (TIM_TP_STAT_ACTIVE n) 1 else s

/-- `PLL_A` to `PLL_C` and the reference monitor keep what shows their lock (R352). -/
def State.lockedReset (s : State) : State :=
  let s := (s.clearWritable 0x40030000 0x40030300 true).clearWritable 0x40030600 0x40030610 true
  (s.each 3 fun x s => s.set (PLL_LOLCNT_COUNT x) 0).set PLL_RFI_LORCNT 0

/-- The walk reset (R352): the processing domains, and every permitted block of the `COLD` domain, with what their reset
latched (R403); the time core keeps its count, state and `TERR`, and `PLL_A` to `PLL_C` their lock. The lines end their
modes, the pulse outputs rest, and no transmitter runs while `PLL_C` is not aligned (R257, R281, R414). -/
def State.walkReset (s : State) : State :=
  let s := s.telMinimum.procReset
  let s := (s.clearLatches 0x40000000 0x40020000).clearLatches 0x40030000 0x40220000
  let s := (s.clearWritable 0x40000000 0x40020000).timReset.lockedReset
  let s := (s.clearRegs 0x40080004 0x40080008).clearRegs 0x4008000C 0x40090000
  let s := ((s.clearRegs 0x40030300 0x40030600).clearRegs 0x40030E00 0x40030F80).clearRegs 0x40031000 0x40032000
  let s := (s.clearRegs 0x40050000 0x40070000).clearRegs 0x40100000 0x40108000
  let s := ((s.clearWritable 0x40200000 0x40200020).clearRegs 0x40200020 0x40200044).clearRegs 0x40200048 0x40210000
  let t := s.tim
  let net : NetSt := { umbNew := s.net.umbNew, umbSev := s.net.umbSev, stsOpen := s.net.stsOpen, lastTime := s.net.lastTime,
                       ident := s.net.ident }
  let s : State := { s with
    mem := s.mem.filter fun e => !(decide (0x40210000 ≤ e.1) && decide (e.1 < 0x40220000))
    links := [], fecs := [], plls := s.plls.filter fun e => decide (e.1 < 3)
    ckos := [], ports := [], slots := [], net := net, lines := [], banks := s.banks
    tps := s.tps.map fun e => (e.1, e.2.rest), tpi := {}
    itg := { s.itg with surv := [], xnote := none }
    tim := { t with ocomp := 0, ocompDue := [], aging := 0, agingDue := [], servo := {}, servoDue := [], bias := [] } }
  let s := s.each 2 fun n s => s.tpRest n
  if s.aligned 2 then s else s.each 8 fun p s => s.set (EPT_STAT_TXSTOP p) 1

/-! ### The image (R347, R348) -/

/-- An octet of the image: in the active slot, or in the mirror. -/
def State.imageAt (s : State) (mirror : Bool) (o : Nat) : Byte :=
  if mirror then s.byteAt (0x90500000 + o) else s.flashAt (0x100000 + o)

/-- Octets of the image. -/
def State.imageBytes (s : State) (mirror : Bool) (o n : Nat) : List Byte :=
  (List.range n).map fun i => s.imageAt mirror (o + i)

/-- The mirror's octets hold no double-bit error. -/
def State.imageSound (s : State) (mirror : Bool) (o n : Nat) : Bool :=
  !mirror || !(s.ecc.any fun e => e.2 && decide (0x90500000 + o < e.1 + 8) && decide (e.1 < 0x90500000 + o + n))

/-- The image offset of a record word: records begin at byte 0x40 of block 0 and leave out each block's CRC. -/
def recordOfs (p : Nat) : Nat :=
  if p < 1007 then 0x40 + 4 * p else 4096 * (1 + (p - 1007) / 1023) + 4 * ((p - 1007) % 1023)

/-- Record words before block `n`. -/
def recordWords (n : Nat) : Nat := if n = 0 then 0 else 1007 + 1023 * (n - 1)

/-- A record block's CRC holds (R348). -/
def State.blockOk (s : State) (mirror : Bool) (b : Nat) : Bool :=
  let bs := s.imageBytes mirror (4096 * b) 4096
  crc32 (bs.take 4092) == leNat (bs.drop 4092)

/-- The first 8 octets of a digest. -/
def digest8 (d : Nat) : Nat := d / 2 ^ 192

/-- The bits of `RTC_WREASON`. -/
def State.wreason (s : State) : Nat :=
  s.get RTC_WREASON_BACKUP * 32 + s.get RTC_WREASON_POWER * 16 + s.get RTC_WREASON_RESET * 8 +
    s.get RTC_WREASON_SUPPLY * 4 + s.get RTC_WREASON_HOST * 2 + s.get RTC_WREASON_PERIODIC

/-- A start has ended: the custody core clears the reasons it has acted on, as soon as the interface is not locked (R303,
R306). -/
def State.wreasonClear (s : State) : State :=
  let s := { s with cus := { s.cus with reasonDone := s.rtcLocked } }
  if s.rtcLocked then s
  else s.wreasonAct (s.wreason / 2 * 2)

/-! ### The minimum service set, walk faults (R29, R351, R352, R415) -/

/-- The start ends with the minimum service set alone (R352): until the next cold start. -/
def State.minimumStay (s : State) : State :=
  let s := s.set CFL_STAT_STATE 5
  ({ s with cus := { s.cus with phase := .minimum, walk := { s.cus.walk with clean := false } } }).wreasonClear.attnUpdate

/-- The part runs with the minimum service set (R29, R352, R415). A fall in a soft start resets the processing domains
alone (R358): the registers of the `COLD` domain stay, but for those of `TP0` and the modes of the lines (R236, R297), and
the other outputs return to their disabled level. -/
def State.minimumFall (s : State) (soft : Bool) : State :=
  let s := if soft then s.telMinimum.procReset.each 8 fun p s => s.linkDown p else s.walkReset
  let s := s.tpMinimum.itgMinimum.ckoShowAll
  (s.each 2 fun n s => s.tpRest n).minimumStay

/-- A walk fault shown and noted (R351). -/
def State.walkNote (s : State) (mirror : Bool) (cause ofs : Nat) : State :=
  let s := (s.set CFL_FAULT_CAUSE cause).setB CFL_FAULT_MIRROR mirror
  (s.set CFL_FOFS_OFS ofs).note 0x0702 0x0B 3 (b2n mirror * 2 ^ 79 + cause * 2 ^ 72 + ofs * 2 ^ 32)

/-- How the begin of a walk ends: the walk runs, the digest is not permitted, a fault. -/
inductive WalkOpen where
  | runs | mismatch (digest : Nat) | fault (cause : Nat)
  deriving DecidableEq, Repr

/-- The octets of the mirror that opening an image reads: those of the image, or of what stands for its header (R21). -/
def State.imageRead (s : State) (mirror : Bool) : State :=
  if mirror then s.mramRead 0x90500000 (match imageHeader (s.imageBytes mirror 0 64) with
      | some (_, len) => len
      | none => 64) else s

/-- An image is opened: its header, its digest while SEALED (R347, R355). -/
def State.walkOpen (s : State) (mirror soft : Bool) : State × WalkOpen :=
  let s := (s.set CFL_STAT_STATE 2).imageRead mirror
  let on := (s.setB CFL_STAT_SRC mirror).setB CFL_STAT_SOFT soft
  if !s.imageSound mirror 0 64 then (on, .fault 0x0B)
  else
    match imageHeader (s.imageBytes mirror 0 64) with
    | none => (on, .fault 0x02)
    | some (rblk, len) =>
      let r := s.cus.rec_
      let d := beNat (sha256 (s.imageBytes mirror 0 len))
      if r.sealed_ && !s.cus.reopened && !s.imageSound mirror 0 len then (on, .fault 0x0B)
      else if r.sealed_ && !s.cus.reopened && d != r.sdig && !(r.pendv && d == r.pdig) then (s, .mismatch d)
      else
        let w : WalkSt := { mirror := mirror, soft := soft, len := len, rblk := rblk, digest := d,
                            vers := leNat (s.imageBytes mirror 0x0C 24), at_ := s.tim.up,
                            keepMirror := s.cus.walk.keepMirror }
        let s := (on.set CFL_STAT_STATE 3).set CFL_RECS_COUNT 0
        ({ s with cus := { s.cus with phase := .walk, walk := w } }, .runs)

/-- The mirror is walked, when it is valid; if it faults as well, the minimum service set is left (R352). -/
def State.walkMirror (s : State) (soft : Bool) : State :=
  if !s.cus.rec_.mirv then s.minimumFall soft
  else
    match s.walkOpen true soft with
    | (s, .runs) => s
    | (s, .mismatch _) => (s.walkNote true 0x0C 0).minimumFall soft
    | (s, .fault c) => (s.walkNote true c 0).minimumFall soft

/-- A walk fault (R351, R352, R358): what was applied is discarded, and the mirror is walked. -/
def State.walkFault (s : State) (cause ofs : Nat) : State :=
  let w := s.cus.walk
  let s := s.walkNote w.mirror cause ofs
  if w.mirror then s.minimumFall w.soft else (if w.soft then s.procReset else s.walkReset).walkMirror w.soft

/-- The active image is walked (R355). -/
def State.walkActive (s : State) (soft : Bool) : State :=
  let s := s.set CFL_STAT_MISM 0
  match s.walkOpen false soft with
  | (s, .runs) => s
  | (s, .mismatch d) => ((s.set CFL_STAT_MISM 1).note 0x0703 0x01 3 (digest8 d)).walkMirror soft
  | (s, .fault c) =>
    let s := { s with cus := { s.cus with walk := { s.cus.walk with mirror := false, soft := soft } } }
    s.walkFault c 0

/-! ### After the walk (R353, R354, R356) -/

/-- The bound digest of an activated image becomes the sealed one (R356). -/
def State.sdigUpdate (s : State) : State :=
  let r := s.cus.rec_
  if r.sealed_ && r.pendv && s.cus.walk.digest == r.pdig && s.cus.walk.clean then
    s.cusStore { r with sdig := r.pdig, pendv := false }
  else s

/-- The mirror's rewrite begins after a clean walk of an active image that it does not hold (R353). -/
def State.mirrorBegin (s : State) : State :=
  let r := s.cus.rec_
  if !s.cus.walk.clean then s
  else if r.mirv && r.mdig == s.cus.walk.digest then s.sdigUpdate
  else
    let s := s.cusStore { r with mirv := false }
    ({ s with cus := { s.cus with walk := { s.cus.walk with rewrite := true } } }).set CFL_STAT_MIRWR 1

/-- The copy ends (R353, R356): the mirror holds the image, and one record write says so. -/
def State.mirrorDone (s : State) : State :=
  let w := s.cus.walk
  if !w.rewrite || s.on SUP_STAT_BRACE then s
  else
    let s := s.each (w.len / 8) fun i s => s.clrEcc .mram (0x90500000 + 8 * i)
    let s := s.pokes 0x90500000 (s.imageBytes false 0 w.len)
    let s := { s with cus := { s.cus with walk := { w with rewrite := false } } }
    ((s.cusStore { s.cus.rec_ with mlen := w.len, mdig := w.digest, mirv := true }).set CFL_STAT_MIRWR 0).sdigUpdate

/-- The array is released and the navigation core starts, with its `START` entry (R354, R357). -/
def State.arrayRelease (s : State) : State :=
  let w := s.cus.walk
  let s := { s with
    cus := { s.cus with phase := .run }
    fecs := s.fecs.map fun (e : Nat × FecSt) => (e.1, { e.2 with hold := false }) }
  let s := s.navStart
  let s := s.note 0x0701 0x01 1 (b2n w.soft * 2 ^ 72 + s.wreason * 2 ^ 64 + digest8 w.digest)
  s.wreasonClear

/-- The walk has ended with `END` (R347, R349, R354): `CFL_DIG` holds the digest of the image walked. -/
def State.walkDone (s : State) : State :=
  let w := s.cus.walk
  let s := (s.set CFL_STAT_STATE 4).set CFL_TIME_MS (satN 16 ((s.tim.up - w.at_) / 1000000))
  let s := s.each 8 fun i s => s.set (CFL_DIG_DIG i) (w.digest / 2 ^ (32 * (7 - i)))
  let s := { s with cus := { s.cus with walk := { w with clean := !w.mirror, waiting := false } } }
  s.arrayRelease.mirrorBegin.attnUpdate

/-! ### Cold start (R354) -/

/-- The part stops for good, or until the next cold start (R345, R354): every output at its reset level, and no service
(R28, R30). -/
def State.startDead (s : State) : State :=
  let s := s.pulsesRest.walkReset
  ({ s with cus := { s.cus with phase := .dead }, itg := { s.itg with below := true }, tps := [] }).attnUpdate

/-- A failed attempt to find or lock to the reference (R30, R240): one entry for the first. -/
def State.refFail (s : State) (ph : Phase) : State :=
  let n := s.cus.lockFails + 1
  let s := { s with cus := { s.cus with phase := ph, lockFails := n }, itg := { s.itg with below := true } }
  (if n = 1 then s.note 0x0202 0x07 4 1 else s).attnUpdate

/-- The class that a count of edges gives (R240, R241). -/
def State.rfiClassify (s : State) (count : Nat) : State :=
  match rfiClass count with
  | none => s.refFail .rfi
  | some k =>
    let s := (s.set PLL_RFI_FREQ k).set PLL_RFI_VALID 1
    let s := s.each 3 fun x s => s.pllShow x (classTarget k x)
    { s with cus := { s.cus with phase := .pllA } }

/-- `PLL_A`, `PLL_B` and `PLL_C` lock and align (R244). -/
def State.pllStartAll (s : State) : State :=
  (s.each 3 fun x s => (((s.pllStart x (s.pllRegs x) false []).pllCalDone x).pllLock x).pllAligned x).ethGo

/-- Device time loaded from the counter (R311): the boundary named is the third ahead. -/
def State.timeLoad (s : State) : State :=
  match s.mordantItem 1 with
  | none => s
  | some bs =>
    let e := leNat (sliceN bs 28 4)
    if s.on RTC_STAT_DISC || e == 0xFFFFFFFF then s
    else
      let dn := (s.rtc.tick + 2 ^ 48 - leNat (sliceN bs 16 8) % 2 ^ 48) % 2 ^ 48
      let tw := leNat (sliceN bs 0 12)
      let ns := (tw / 2 ^ 48) * 10 ^ 9 + tw / 2 ^ 16 % 2 ^ 32 + dn * 10 ^ 9 / 32768 + 3000000
      let bound := min (max (s.get RTC_CTL_BOUND) 1) 1000
      let err := e + ceilDiv (dn * bound * 1000) 32768 + 30518
      let s := (s.set TIM_LOAD_SH_SECH (ns / 10 ^ 9 / 2 ^ 32)).set TIM_LOAD_SL_SECL (ns / 10 ^ 9)
      let s := (s.set TIM_LOAD_NS_NS (ns % 10 ^ 9)).set TIM_LOAD_EP_EPOCH (s.epochCount + 3)
      (s.set TIM_LOAD_ERR_NS (min err 0xFFFFFFFE)).timLoadGo (2 ^ 31 + 5 * 2 ^ 24)

/-- The entry of the first start after a return from `VBAT` (R309). -/
def State.backupNote (s : State) : State :=
  if s.on RTC_WREASON_BACKUP then
    let lsw := s.get2 RTC_LSW_L_TICK RTC_LSW_H_TICK
    let ret := s.get2 RTC_LRET_L_TICK RTC_LRET_H_TICK
    s.note 0x0104 0x06 2 (lsw * 2 ^ 32 + satN 32 ((ret - lsw) / 32768))
  else s

/-- The entry of each start, of either kind, that finds `VBATLOW`, `XOFAIL` or `POWER` set (R310). -/
def State.aonFlags (s : State) : State :=
  if s.on RTC_STAT_VBATLOW || s.on RTC_STAT_XOFAIL || s.on RTC_WREASON_POWER then
    s.note 0x0105 0x06 3 (s.get RTC_WREASON_POWER * 2 ^ 79 + s.get RTC_STAT_XOFAIL * 2 ^ 78 +
      s.get RTC_STAT_VBATLOW * 2 ^ 77 + s.get RTC_VBAT_MV10)
  else s

/-- The entries of a cold start that finds the always-on domain changed (R309, R310), once its interface is not locked
(R303). -/
def State.aonNotes (s : State) : State :=
  let s := { s with cus := { s.cus with aonDue := s.rtcLocked } }
  if s.rtcLocked then s else s.backupNote.aonFlags

/-- The SFDP tables are read (R346). -/
def State.sfdp (s : State) : State := (s.set CFL_FLASH_MIB (satN 8 s.cus.mib)).set CFL_STAT_STATE 1

/-- The density is one of those of R346. -/
def State.flashKnown (s : State) : Bool := s.cus.mib == 32 || s.cus.mib == 64 || s.cus.mib == 128

/-- A flash without SFDP tables or with another density: a walk fault before any record, and no journal (R351). -/
def State.flashFault (s : State) (soft : Bool) : State :=
  let w : WalkSt := { soft := soft, keepMirror := s.cus.walk.keepMirror }
  ({ s with cus := { s.cus with walk := w }, svc := { s.svc with jrnl := {} } }).walkFault 0x01 0

/-- From step 4 of R354 on: device time, journal, digest pass, walk; they wait for the end of BRACE (R314). -/
def State.startContinue (s : State) : State :=
  if s.on SUP_STAT_BRACE then { s with cus := { s.cus with phase := .braceWait } }
  else
    let s := (if s.cus.aonDue then s.aonNotes else s).mordantRead.timeLoad
    let s := s.sfdp
    if s.flashKnown then s.jrnlRecover.activationCold.attnUpdate.walkActive false
    else s.flashFault false

/-- The identity shown (R295, R344, R366). -/
def State.identity (s : State) : State :=
  let id := s.part.ident
  let s := s.set SYS_ID0_ID (id / 2 ^ 96) |>.set SYS_ID1_ID (id / 2 ^ 64) |>.set SYS_ID2_ID (id / 2 ^ 32)
  let s := (s.set SYS_ID3_ID id).set SYS_REV_GRADE s.part.grade
  s.set TEL_TAG_TAG ((beBytes 16 id).foldl (fun a b => a ^^^ b.toNat) 0)

/-- Before the first lock the logic of `PLL_A` and `PLL_B` runs on `IRC` and no transmitter runs (R240, R243, R257). -/
def State.beforeLock (s : State) : State :=
  (((s.set (PLL_STAT_IRCSEL 0) 1).set (PLL_STAT_IRCSEL 1) 1)).ethStop

/-- A cold start (R354). With `TEST_EN` high the part gives no service (R428). -/
def State.coldStart (s : State) (x : ColdIn) : State :=
  if s.cus.phase ≠ .released then s
  else
    let s := s.rtcAdvance x.edges
    let c := { s.cus with mib := x.mib, blankOk := x.blankOk, copyFail := x.copyFail, copyAgain := x.copyAgain, testEn := x.testEn }
    let s := { s with cus := c, svc := { s.svc with rxOn := true } }
    if !x.romOk then s.startDead
    else
      let s := s.cusRead.mramRead 0x90708000 20
      if !s.idOk || x.testEn then s.startDead
      else
        let s := s.identity.beforeLock
        let s : State := if s.cus.rec_.reloc then s.set ITG_LATCH_RELOC 1 else s
        let s : State := s.backoff.aonNotes.rfiClassify x.rfi
        if s.cus.phase != .pllA then s
        else if x.pllA then s.refOk.pllStartAll.startContinue
        else s.refFail .pllA

/-- A further classification, once per second (R240). -/
def State.rfiRetry (s : State) (count : Nat) : State :=
  if s.cus.phase = .rfi then s.rfiClassify count else s

/-- A further attempt to lock `PLL_A`, once per second (R30): at a cold start, or after a loss in service (R246), where the
part goes on as it was. -/
def State.pllARetry (s : State) (ok : Bool) : State :=
  if s.cus.phase = .pllA then (if ok then s.refOk.pllStartAll.startContinue else s.refFail .pllA)
  else if !s.itg.below || (s.pll 0).lossAt.isNone || s.cus.phase == .dead then s
  else if ok && !s.tim.refLost then (((s.pllStart 0 (s.pll 0).commit true []).pllCalDone 0).pllLock 0).pllAligned 0
  else s.refFail s.cus.phase

/-! ### Soft start (R26, R27, R357–R359) -/

/-- The custody core commits its queue while the umber controller takes entries (R334, R357). -/
def State.umbFlush (s : State) : Nat → State
  | 0 => s
  | n + 1 =>
    if s.umb.commit.isSome then (s.umbDone).umbFlush n
    else if (s.umb.queue.isEmpty && s.umb.snap.isEmpty) || !s.on UMB_STAT_READY || s.on UMB_STAT_LOCKED then s
    else (s.umbGo false).umbFlush n

/-- The custody core SRAM is cleared, and with it the entries of its queue that could not be committed (R22, R334). -/
def State.custClear (s : State) : State :=
  { s.wipeCust with umb := { s.umb with queue := [], lost := 0, snap := [], snapOn := false } }

/-- A soft start, from its beginning (R357): `cause` as `SYS_START.CAUSE` codes it. One that BRACE ended and that begins
again writes its entry and counts again (DESIGN CHOICE: log 57). With the minimum service set the
part stays in that state (R352): only the journal's part of the start is done. -/
def State.softBegin (s : State) (cause : Nat) : State :=
  let low := s.cus.phase == .minimum
  let s := (s.sessClose 3).jrnlRun
  let s := s.itgHoldover.umbFlush 300
  let s := s.procReset.custClear
  let s := { s with fecs := [0, 1, 2, 3].foldl (fun t b => tblSet t b { tblGet t {} b with hold := true }) s.fecs }
  let late := (s.cus.nwdog.filter fun a => decide (s.tim.up < a + 3600 * 10 ^ 9)).length
  let keep := s.cus.walk.keepMirror || (bit cause 2 && late == 3)
  let c := s.cus
  let cus : CusSt := { rec_ := c.rec_, copyB := c.copyB, nwdog := c.nwdog, mib := c.mib, blankOk := c.blankOk,
                       copyFail := c.copyFail, copyAgain := c.copyAgain, nwDone := c.nwDone, reasonDone := c.reasonDone, lockFails := c.lockFails,
                       walk := { c.walk with keepMirror := keep } }
  let s := ({ s with cus := cus, sup := { s.sup with softDue := 0 } }).svcRestart.cusRead
  let s := ((s.set SYS_START_TYPE 1).set SYS_START_CAUSE cause).incSat SYS_START_SOFTCNT
  let s := (s.backoff.note 0x0504 0x01 1 (cause * 2 ^ 72)).aonFlags
  let s := s.sfdp
  let s := if s.flashKnown then s.jrnlRecover else s
  let s := if s.flashKnown && bit cause 0 then s.activation else s
  let s := s.attnUpdate
  if low then s.minimumStay
  else if bit cause 2 && decide (4 ≤ late) then s.minimumFall true
  else if !s.flashKnown then s.flashFault true
  else if keep then s.walkMirror true
  else s.walkActive true

/-- A soft-start cause (R26, R27): a cause that meets a soft start under way joins it; one that meets a cold start waits
for its end. -/
def State.softCause (s : State) (k : Nat) : State :=
  if s.cus.phase = .walk ∧ s.cus.walk.soft then s.orF SYS_START_CAUSE (2 ^ k)
  else
    let s := { s with sup := { s.sup with softDue := s.sup.softDue ||| 2 ^ k } }
    if s.cus.phase = .run ∨ s.cus.phase = .minimum then s else s.orF SYS_START_CAUSE (2 ^ k)

/-- A soft start begins when a cause waits, the part runs, and no BRACE stands. -/
def State.softStart (s : State) (x : SoftIn) : State :=
  if s.sup.softDue = 0 || (s.cus.phase != .run && s.cus.phase != .minimum) || s.on SUP_STAT_BRACE then s
  else
    let s := s.rtcAdvance x.edges
    let s := { s with cus := { s.cus with mib := x.mib, blankOk := x.blankOk, copyFail := x.copyFail, copyAgain := x.copyAgain } }
    let c := s.sup.softDue
    let s := if bit c 2 then { s with cus := { s.cus with nwdog := s.tim.up :: s.cus.nwdog } } else s
    if x.romOk then s.softBegin c
    else (((s.sessClose 3).jrnlRun).itgHoldover.umbFlush 300).procReset.custClear.startDead

/-- The navigation watchdog counts milliseconds while it is on; its count stands still during a soft start (R357, R359). -/
def State.nwdogEpoch (s : State) : State :=
  if s.on SYS_NWDOG_EN && !s.softUnderWay then s.incSat SYS_NWCNT_COUNT else s

/-- The watchdog's limit (R359): `SYS_NWCNT` reaches it once after each kick (DEDUCED: log 68), and the custody core starts
a soft start; in a cold start the cause is recorded (R27). -/
def State.nwdogExpiry (s : State) : State :=
  if s.on SYS_NWDOG_EN && (s.cus.phase == .run || (s.cus.phase == .walk && !s.cus.walk.soft)) && !s.cus.nwDone &&
      decide (max 1 (s.get SYS_NWDOG_LIMIT) ≤ s.get SYS_NWCNT_COUNT) then
    ({ s with cus := { s.cus with nwDone := true } }).softCause 2
  else s

end Sys2Proof.Machine
end

