-- ==== Sys2Proof/Machine/SvcLink.lean ====
section
/-! DEFINITION. The service link (ch. 17): frames, window, acknowledgements, retransmission, rate, responses. -/

namespace Sys2Proof.Machine

/-- A decoded frame (R370). -/
structure SvcFrame where
  typ     : Nat := 0
  poll    : Bool := false
  seq     : Nat := 0
  ack     : Nat := 0
  payload : List Byte := []
  deriving DecidableEq, Repr

/-- A frame as sent, with its delimiter (R370). -/
def svcEncode (f : SvcFrame) : List Byte :=
  let bs := leBytes 1 f.typ ++ leBytes 1 (b2n f.poll) ++ leBytes 2 f.seq ++ leBytes 2 f.ack ++
    leBytes 2 f.payload.length ++ f.payload
  cobsStuff (bs ++ leBytes 4 (crc32 bs)) ++ [0]

/-- A frame from its encoded octets without the delimiter; none for one that is discarded (R370). -/
def svcDecode (octets : List Byte) : Option SvcFrame :=
  if 1041 < octets.length then none
  else
    match cobsUnstuff octets with
    | none => none
    | some bs =>
      let n := bs.length - 4
      let len := leNat (sliceN bs 6 2)
      let fl := leNat (sliceN bs 1 1)
      if bs.length < 12 ∨ crc32 (bs.take n) ≠ leNat (bs.drop n) ∨ bs.length ≠ len + 12 ∨ 1 < fl then none
      else
        some { typ := leNat (sliceN bs 0 1), poll := fl == 1, seq := leNat (sliceN bs 2 2),
               ack := leNat (sliceN bs 4 2), payload := sliceN bs 8 len }

/-- The port runs: its receiver is enabled and the custody core has not stopped (R30, R306, R354). -/
def State.svcAlive (s : State) : Bool := s.svc.rxOn && s.cus.phase != .dead

/-- One frame of the part, with the acknowledgement it carries (R371). -/
def State.svcSend (s : State) (typ seq : Nat) (payload : List Byte) : State :=
  let f : SvcFrame := { typ := typ, seq := seq, ack := s.get SVC_SEQ_RXEXP, payload := payload }
  ({ s with svc := { s.svc with ackDue := false } }).emit (.uart (svcEncode f))

/-- An acknowledgement-only frame (R371). -/
def State.svcAck (s : State) : State := s.svcSend 0 (s.get SVC_SEQ_TXSEQ) []

/-- Waiting responses sent while the window is open (R371); at most `n` of them. -/
def State.svcPump (s : State) : Nat → State
  | 0 => s
  | n + 1 =>
    match s.svc.waiting with
    | [] => s
    | (typ, p) :: rest =>
      if 8 ≤ s.svc.unacked.length then s
      else
        let q := s.get SVC_SEQ_TXSEQ
        let un := s.svc.unacked ++ [(typ, q, p)]
        let s := { s with svc := { s.svc with waiting := rest, unacked := un } }
        let s := ((s.set SVC_STAT_INFLIGHT un.length).set SVC_STAT_WFREE (8 - un.length)).set SVC_SEQ_TXSEQ (q + 1)
        (s.svcSend typ q p).svcPump n

/-- The `SEQ` the next response queued will have. -/
def State.svcNextSeq (s : State) : Nat := (s.get SVC_SEQ_TXSEQ + s.svc.waiting.length) % 65536

/-- A response queued (R376): status, `SEQ` of the command, the command's fields. -/
def State.svcRespond (s : State) (code seq status : Nat) (fields : List Byte) : State :=
  let p := leBytes 2 status ++ leBytes 2 seq ++ fields
  let s := s.inc SVC_CNT_CMD_COUNT
  ({ s with svc := { s.svc with waiting := s.svc.waiting ++ [(code ||| 0x80, p)] } }).svcPump 8

/-- The response of a command that took its time; it is discarded when its link has ended (R372, R399). -/
def State.svcRespondLate (s : State) (code seq status : Nat) (fields : List Byte) : State :=
  let s := { s with cus := { s.cus with cmdAt := s.tim.up } }
  if s.svc.discard then ({ s with svc := { s.svc with discard := false } }).inc SVC_CNT_CMD_COUNT
  else s.svcRespond code seq status fields

/-- The link goes down (R372). -/
def State.svcDown (s : State) : State :=
  let s := (s.sessClose 2).svcClear.svcLink 0
  (s.set SVC_BAUD_BAUD 115200).incSat SVC_CNT_DOWN_COUNT

/-- What follows the acknowledgement of frames with the `SEQ`s given: the end of a session, a soft start, a change of
rate (R374, R377, R395). -/
def State.svcAcked (s : State) (seqs : List Nat) : State :=
  let hit := fun (q : Nat) => seqs.contains q
  let s : State := match s.svc.closeAt with
    | some q => if hit q then ({ s with svc := { s.svc with closeAt := none } }).sessClose 0 else s
    | none => s
  let s : State := match s.svc.newBaud with
    | some b =>
      if hit 0 then ({ s with svc := { s.svc with newBaud := none, probing := true } }).set SVC_BAUD_BAUD b else s
    | none => s
  let due := s.svc.startAt.filter fun x => hit x.1
  let s := { s with svc := { s.svc with startAt := s.svc.startAt.filter fun x => !hit x.1 } }
  due.foldl (fun s x => s.softCause x.2) s

/-- An `ACK` decoded: it covers the frames before the one it names (R371). -/
def State.svcAckIn (s : State) (a : Nat) : State :=
  match s.svc.unacked with
  | [] => s
  | (_, q, _) :: _ =>
    let un := s.svc.unacked
    let n := (a + 65536 - q) % 65536
    if n = 0 ∨ un.length < n then s
    else
      let s := { s with svc := { s.svc with unacked := un.drop n, expiries := 0 } }
      let left := un.length - n
      let s := (s.set SVC_STAT_INFLIGHT left).set SVC_STAT_WFREE (8 - left)
      (s.svcAcked ((un.take n).map fun x => x.2.1)).svcPump 8

/-- `HELLO` received: both directions reset, an open session ends, and the command waits to be answered; it is acknowledged as
any data frame (R371, R373). -/
def State.svcHelloIn (s : State) (f : SvcFrame) : State :=
  let s := ((s.sessClose 0).svcClear.svcLink 1).set SVC_SEQ_RXEXP 1
  let s := { s with svc := { s.svc with cmds := [(1, f.seq, f.payload)], ackDue := true } }
  if f.poll then s.svcAck else s

/-- A data frame on an open link: accepted when expected, acknowledged again when a duplicate, else discarded unseen
(R371). -/
def State.svcDataIn (s : State) (f : SvcFrame) : State :=
  let e := s.get SVC_SEQ_RXEXP
  let back := (e + 65536 - f.seq) % 65536
  if 8 < back then s
  else
    let s : State := if back = 0 then
        ({ s with svc := { s.svc with cmds := s.svc.cmds ++ [(f.typ, f.seq, f.payload)] } }).set SVC_SEQ_RXEXP (e + 1)
      else s
    let s := ({ s with svc := { s.svc with ackDue := true } }).svcAckIn f.ack
    if f.poll then s.svcAck else s

/-- An acknowledgement-only frame on an open link (R371). -/
def State.svcAckOnly (s : State) (f : SvcFrame) : State :=
  let s := s.svcAckIn f.ack
  if f.poll then s.svcAck else s

/-- A frame that passed its checks (R371, R373, R374): the first one at a new rate confirms the rate. -/
def State.svcFrameIn (s : State) (f : SvcFrame) : State :=
  let s : State := if s.svc.probing then ({ s with svc := { s.svc with probing := false } }).svcLink 1 else s
  if f.typ = 1 then s.svcHelloIn f
  else if s.get SVC_STAT_LINK = 0 then s
  else if f.typ = 0 then s.svcAckOnly f
  else s.svcDataIn f

/-- Octets up to a delimiter (R370); `only` says that they are an acknowledgement-only frame. -/
def State.svcReceive (s : State) (octets : List Byte) (only : Bool) : State :=
  if !s.svcAlive || octets.isEmpty then s
  else
    match svcDecode octets with
    | none => s.incSat SVC_CNT_ERR_COUNT
    | some f => if only && f.typ != 0 then s else (s.svcFrameIn f).attnUpdate

/-- An acknowledgement is owed and nothing has carried it (R371). -/
def State.svcAckDelay (s : State) : State := if s.svcAlive && s.svc.ackDue then s.svcAck else s

/-- The unacknowledged frames sent again, in order (R372). -/
def State.svcResend (s : State) : List (Nat × Nat × List Byte) → State
  | [] => s
  | (typ, q, p) :: rest => ((s.incSat SVC_CNT_RETX_COUNT).svcSend typ q p).svcResend rest

/-- The retransmission timer expires (R372). -/
def State.svcExpiry (s : State) : State :=
  if !s.svcAlive || s.svc.unacked.isEmpty then s
  else
    let n := s.svc.expiries + 1
    if 26 ≤ n then s.svcDown.attnUpdate
    else ({ s with svc := { s.svc with expiries := n } }).svcResend s.svc.unacked

/-- No valid frame at the new rate (R374). -/
def State.svcRateOut (s : State) : State := if s.svcAlive && s.svc.probing then s.svcDown.attnUpdate else s

end Sys2Proof.Machine
end

