-- ==== Sys2Proof/Machine/UpdBlock.lean ====
section
/-! DEFINITION. Sapel containers (R387–R389), the reception of pages (R391), the build of a staged image (R394). -/

namespace Sys2Proof.Machine

/-! ### Pages (R391) -/

/-- The pages of the open transfer. -/
def State.updPages (s : State) : Nat := match s.svc.jrnl.open_ with | some (_, n) => ceilDiv n 256 | none => 0

/-- The journal's state changed in place. -/
def State.setJrnl (s : State) (j : JrnlSt) : State := { s with svc := { s.svc with jrnl := j } }

/-- The pending run is journalled before page `p`, when that is not contiguous with it (R391). -/
def State.runFirst (s : State) (p : Nat) : State :=
  match s.svc.jrnl.pending with
  | some (a, m) => if p = a + m then s else s.jrnlRun
  | none => s

/-- A page joins the pending run; one that is not contiguous with it journals it first, and so does the 64th page. -/
def State.pageTaken (s : State) (p : Nat) : State :=
  let s := s.runFirst p
  let run := match s.svc.jrnl.pending with
    | some (a, n) => (a, n + 1)
    | none => (p, 1)
  let s := s.setJrnl { s.svc.jrnl with pending := some run }
  if run.2 = 64 then s.jrnlRun else s

/-- A page whose read-back differs: the pages of its sector are dropped and the sector is erased (R391). -/
def State.pageFail (s : State) (p : Nat) : State :=
  let a := p / 256 * 256
  let n := min 256 (s.updPages - a)
  let left := match s.svc.jrnl.pending with
    | some (b, m) => (runsDrop [(b, m)] a n).head?
    | none => none
  let s := s.setJrnl { s.svc.jrnl with pending := left }
  (s.jrnlPut 0x05 s.updId (leBytes 4 a ++ leBytes 4 n)).jrnlErase 3 (p / 256)

/-- Pages programmed in order from page `p`, read back and taken; the flag says that every read-back agreed. Pages
already received are not programmed again. -/
def State.pagesPut (s : State) (ok : Bool) : Nat → Nat → List Byte → State × Bool
  | 0, _, _ => (s, true)
  | n + 1, p, bs =>
    let page := bs.take 256
    if runsHas s.svc.jrnl.runs p then s.pagesPut ok n (p + 1) (bs.drop 256)
    else
      let a := s.areaBase 3 + p * 256
      let s := s.flashPut a page
      if ok && s.flashBytes a page.length == page then (s.pageTaken p).pagesPut ok n (p + 1) (bs.drop 256)
      else (s.pageFail p, false)

/-- The received pages once page `p` is accepted: a pending run that it is not contiguous with is journalled before (R391). -/
def JrnlSt.runsBefore (j : JrnlSt) (p : Nat) : List (Nat × Nat) :=
  match j.pending with
  | some (a, m) => if p = a + m then j.runs else runsAdd j.runs a m
  | none => j.runs

/-- A page that the runs `rs` hold, among `n` from `p`, whose octets differ from those offered. -/
def State.pagesDiffer (s : State) (rs : List (Nat × Nat)) : Nat → Nat → List Byte → Bool
  | 0, _, _ => false
  | n + 1, p, bs =>
    let page := bs.take 256
    (runsHas rs p && s.flashBytes (s.areaBase 3 + p * 256) page.length != page) ||
      s.pagesDiffer rs n (p + 1) (bs.drop 256)

/-- Pages that BRACE has let program, `n` of them from page `p`; they are not received (R391, R399). -/
def State.pagesCut (s : State) : Nat → Nat → List Byte → State
  | 0, _, _ => s
  | n + 1, p, bs =>
    let s := if runsHas s.svc.jrnl.runs p then s else s.flashPut (s.areaBase 3 + p * 256) (bs.take 256)
    s.pagesCut n (p + 1) (bs.drop 256)

/-- The runs that received and pending pages would form with `n` more from `p`. -/
def JrnlSt.runsWith (j : JrnlSt) (p n : Nat) : Nat :=
  let rs := match j.pending with
    | some (a, m) => runsAdd j.runs a m
    | none => j.runs
  (runsAdd rs p n).length

/-! ### The container (R387, R388) -/

/-- A manifest entry. -/
structure Manifest where
  ptype : Nat
  delta : Bool
  basev : Nat
  newv  : Nat
  iofs  : Nat
  ilen  : Nat
  pofs  : Nat
  plen  : Nat
  pdig  : List Byte
  deriving DecidableEq, Repr

/-- Octets of the container in the receive area. -/
def State.contBytes (s : State) (o n : Nat) : List Byte := s.flashBytes (s.areaBase 3 + o) n

/-- A manifest entry read; none when it breaks R388. `total` is the container's length. -/
def manifestRead (e : List Byte) (total : Nat) : Option Manifest :=
  let f := fun o n => leNat (sliceN e o n)
  let m : Manifest := { ptype := f 0 1, delta := f 1 1 == 1, basev := f 4 4, newv := f 8 4, iofs := f 12 4, ilen := f 16 4,
                        pofs := f 20 4, plen := f 24 4, pdig := sliceN e 28 32 }
  let ok := decide (1 ≤ m.ptype) && decide (m.ptype ≤ 6) && decide (f 1 1 ≤ 1) && f 2 2 == 0 && f 60 4 == 0 &&
    (m.delta || (m.basev == 0 && m.plen == m.ilen)) && m.iofs % 4096 == 0 && m.ilen % 4096 == 0 && m.ilen != 0 &&
    m.pofs % 4 == 0 && decide (640 ≤ m.pofs) && decide (m.pofs + m.plen ≤ total)
  if ok then some m else none

/-- The entries tile the image up to `len`: `n` steps from offset `o`. -/
def manifestTiles (ms : List Manifest) (len : Nat) : Nat → Nat → Bool
  | 0, o => o == len
  | n + 1, o =>
    match ms.find? fun m => m.iofs == o with
    | some m => manifestTiles ms len n (o + m.ilen)
    | none => false

/-- Each type at most once. -/
def manifestOnce (ms : List Manifest) : Bool := ms.all fun m => (ms.filter fun k => k.ptype == m.ptype).length == 1

/-- Every element of a list of results, or none. -/
def allSome {α : Type} : List (Option α) → Option (List α)
  | [] => some []
  | none :: _ => none
  | some a :: rest => (allSome rest).map (a :: ·)

/-- The manifest of the container received; none when header or manifest breaks R387 or R388. -/
def State.contManifest (s : State) (upd total : Nat) : Option (List Manifest) :=
  let h := s.contBytes 0 576
  let f := fun o n => leNat (sliceN h o n)
  let np := f 6 1
  let len := f 16 4
  if f 0 4 = 0x5341504C ∧ f 4 2 = 1 ∧ 1 ≤ np ∧ np ≤ 8 ∧ f 7 1 = 0 ∧ f 8 8 = upd ∧ len % 4096 = 0 ∧ len ≤ 2097152 ∧
      f 20 1 = 0xB1 ∧ f 21 3 = 0 ∧ f 56 8 = 0 ∧ (sliceN h (64 + 64 * np) (512 - 64 * np)).all (· == 0) then
    match allSome ((List.range np).map fun i => manifestRead (sliceN h (64 + 64 * i) 64) total) with
    | none => none
    | some ms =>
      let cfg := ms.any fun m => m.ptype == 5 && m.iofs == 0
      if manifestOnce ms && manifestTiles ms len np 0 && cfg then some ms else none
  else none

/-! ### Deltas (R389) -/

/-- Operations of a delta applied to a base; `n` bounds their number. `ops` are the octets left, `made` the octets
made, newest block first. -/
def deltaRun (base : List Byte) : Nat → List Byte → List (List Byte) → Option (List Byte)
  | 0, _, _ => none
  | n + 1, ops, made =>
    if sliceN ops 1 3 ≠ [0, 0, 0] ∨ ops.length < 4 then none
    else
      match leNat (ops.take 1) with
      | 0 => if ops.length = 4 then some made.reverse.flatten else none
      | 1 =>
        let o := leNat (sliceN ops 4 4)
        let k := leNat (sliceN ops 8 4)
        if ops.length < 12 ∨ k = 0 ∨ base.length < o + k then none
        else deltaRun base n (ops.drop 12) ((base.drop o).take k :: made)
      | 2 =>
        let k := leNat (sliceN ops 4 4)
        let full := ceilDiv k 4 * 4
        if k = 0 ∨ ops.length < 8 + full ∨ (sliceN ops (8 + k) (full - k)).any (· != 0) then none
        else deltaRun base n (ops.drop (8 + full)) ((ops.drop 8).take k :: made)
      | _ => none

/-- The base of a delta: the active part of its type (R389). -/
def State.deltaBase (s : State) (m : Manifest) (len : Nat) : Option (List Byte) :=
  match s.svc.jrnl.parts.find? fun p => p.ptype == m.ptype with
  | some p => if p.ver = m.basev ∧ p.len = len then some (s.flashBytes (s.areaBase 1 + p.iofs * 4096) len) else none
  | none => none

/-- The octets of a part, or the status of the failure (R389, R394). -/
def State.partBytes (s : State) (m : Manifest) : Except Nat (List Byte) :=
  let p := s.contBytes m.pofs m.plen
  if !m.delta then .ok p
  else
    let f := fun o n => leNat (sliceN p o n)
    if f 0 4 ≠ 0x53444C54 ∨ f 4 2 ≠ 1 ∨ f 6 2 ≠ 0 ∨ m.plen < 20 then .error 0x11
    else
      match s.deltaBase m (f 8 4) with
      | none => .error 0x13
      | some base =>
        match deltaRun base m.plen (p.drop 16) [] with
        | none => .error 0x11
        | some out => if out.length = f 12 4 ∧ f 12 4 = m.ilen then .ok out else .error 0x11

/-! ### The build (R394) -/

/-- Parts written into the build area in order, up to the first failure; the status. -/
def State.buildParts (s : State) : List Manifest → State × Nat
  | [] => (s, 0)
  | m :: ms =>
    match s.partBytes m with
    | .error c => (s, c)
    | .ok bs => (s.flashPut (s.areaBase 2 + m.iofs) bs).buildParts ms

/-- Octets of the build area. -/
def State.buildBytes (s : State) (o n : Nat) : List Byte := s.flashBytes (s.areaBase 2 + o) n

/-- Steps 6 and 7: the digests of the parts and of the image, its header, its versions. -/
def State.buildCheck (s : State) (ms : List Manifest) : Nat :=
  let len := leNat (s.contBytes 16 4)
  let h := s.buildBytes 0 64
  let cfg := fun (rblk : Nat) => ms.any fun m => m.ptype == 5 && m.ilen == rblk * 4096
  let vers := ms.all fun m => leNat (sliceN h (0x0C + 4 * (m.ptype - 1)) 4) == m.newv
  if ms.any fun m => sha256 (s.buildBytes m.iofs m.ilen) != m.pdig then 0x14
  else if sha256 (s.buildBytes 0 len) ≠ s.contBytes 24 32 then 0x14
  else
    match imageHeader h with
    | some (rblk, n) => if n == len && cfg rblk && vers then 0 else 0x11
    | none => 0x11

/-- An image staged earlier is no longer staged (R394): `OPEN` and the received runs are journalled anew. -/
def State.unstage (s : State) (upd total : Nat) : State :=
  if s.svc.jrnl.staged.isNone then s
  else
    let rs := s.svc.jrnl.runs
    rs.foldl (fun s r => s.jrnlPut 0x04 upd (leBytes 4 r.1 ++ leBytes 4 r.2)) (s.jrnlPut 0x03 upd (leBytes 4 total))

/-- `COMMIT_STAGING` up to its last step (R394): the state, and the status. -/
def State.commitBuild (s : State) (upd total : Nat) (ok : Bool) : State × Nat :=
  let s := s.jrnlRun.unstage upd total
  if runsCount s.svc.jrnl.runs ≠ ceilDiv total 256 then (s, 0x10)
  else
    match s.contManifest upd total with
    | none => (s, 0x11)
    | some ms =>
      if !Config.sigValid (s.contBytes 576 64) (sha256 (s.contBytes 0 576)) then (s, 0x12)
      else
        let s := s.each (ceilDiv (leNat (s.contBytes 16 4)) 65536) fun i s => s.jrnlErase 2 i
        if !ok then (s, 0x1A)
        else
          match s.buildParts ms with
          | (s, 0) => (s, s.buildCheck ms)
          | (s, c) => (s, c)

end Sys2Proof.Machine
end

