-- ==== Sys2Proof/Machine/DspCore.lean ====
section
/-! DEFINITION. The loop DSP (ch. 6): registers, results on their way, faults, interrupts, start and stop. -/

namespace Sys2Proof.Machine

/-! ### The register file (R146, R147, R150) -/

/-- A register of the `D`, `P`, `K` or `W` files, by number. -/
def DspSt.reg (x : DspSt) (n : Nat) : Nat := tblGet x.regs 0 n

/-- A register of these files set. -/
def DspSt.setReg (x : DspSt) (n v : Nat) : DspSt := { x with regs := tblPut x.regs 0 n v }

/-- An accumulator's 72 bits. -/
def DspSt.acc (x : DspSt) (k : Nat) : Nat := tblGet x.ac 0 k

/-- An accumulator set. -/
def DspSt.setAcc (x : DspSt) (k v : Nat) : DspSt := { x with ac := tblPut x.ac 0 k (v % 2 ^ 72) }

/-- A write of a loop register reaches the contexts (R146). -/
def LoopWr.apply (l : Tbl LoopCtx) (w : LoopWr) : Tbl LoopCtx :=
  let c := tblGet l {} w.ctx
  if w.reg = 0x29 then tblPut l {} w.ctx { c with hc := w.val % 2 ^ 16 }
  else if w.reg = 0x2A then tblPut l {} w.ctx { c with hs := w.val % 2 ^ 14 }
  else if w.reg = 0x2B then tblPut l {} w.ctx { c with he := w.val % 2 ^ 14 }
  else (List.range 4).foldl (fun l k => tblPut l {} k { tblGet l {} k with armed := bit w.val (4 + k) }) l

/-- A loop context as its registers show it: with the writes that the loop hardware does not yet see. -/
def DspSt.loop (x : DspSt) (k : Nat) : LoopCtx := tblGet (x.loopWr.foldl LoopWr.apply x.loops) {} k

/-- A write of a loop register of context `k`, which the loop hardware sees from an instruction on (R156). -/
def DspSt.loopLater (x : DspSt) (k n v at_ : Nat) : DspSt :=
  { x with loopWr := x.loopWr ++ [{ at_ := at_, ctx := k, reg := n, val := v }] }

/-- The writes of loop registers that are due. -/
def DspSt.loopsLand (x : DspSt) (p : LoopWr → Bool) : DspSt :=
  { x with loops := (x.loopWr.filter p).foldl LoopWr.apply x.loops, loopWr := x.loopWr.filter fun w => !p w }

/-- The oldest value that a reader of a view still sees, else the present one (R156). -/
def DspSt.seen (x : DspSt) (v : View) (cur : Nat) : Nat :=
  match x.stale.find? fun e => e.view = v ∧ x.icnt < e.until_ with
  | some e => e.old
  | none => cur

/-- An old value kept for one view until `n` instructions after the present one. -/
def DspSt.keep (x : DspSt) (v : View) (old n : Nat) : DspSt :=
  { x with stale := x.stale ++ [{ until_ := x.icnt + n, view := v, old := old }] }

/-- `SR` as the readers of `SHF`, `RND`, `SATM` and `IE` see it. -/
def DspSt.srSeen (x : DspSt) : Nat := x.seen .sr x.sr

/-- `SR.SHF` of a status word. -/
def srShf (sr : Nat) : Int := sgn 4 (bits sr 27 24)

/-- An integer shifted arithmetically, left for positive places. -/
def shiftI (v k : Int) : Int := if 0 ≤ k then v * 2 ^ k.toNat else v / 2 ^ (-k).toNat

/-- The loop contexts armed, as `HSTAT` shows them. -/
def DspSt.act (x : DspSt) : Nat := (List.range 4).foldl (fun m k => m + b2n (x.loop k).armed * 2 ^ k) 0

/-- The scaled view of an accumulator and whether a limit was applied (R150). -/
def scaledRead (sr acc : Nat) : Nat × Bool :=
  let v := uns 72 (shiftI (sgn 72 acc) (srShf sr))
  let r := if bit sr 23 then (v + 2 ^ 31) % 2 ^ 72 else v
  let top := bits v 71 63
  if top = 0 ∨ top = 511 ∨ !bit sr 22 then (bits r 63 32, false)
  else (if bit v 71 then 0x80000000 else 0x7FFFFFFF, true)

/-- A register by number as transfers and stores read it, and whether a scaled read limited it; `cyc` is the cycle
counter (R146, R150, R156). -/
def DspSt.read (x : DspSt) (cyc n : Nat) : Nat × Bool :=
  let av := fun k => x.seen (.acc k) (x.acc k)
  if n < 0x18 then (x.reg n, false)
  else if n < 0x20 then (uns 32 (sgn 16 (x.reg n)), false)
  else if n < 0x28 then (x.reg n, false)
  else if n = 0x28 then (x.sr, false)
  else if n = 0x29 then ((x.loop x.hsel).hc, false)
  else if n = 0x2A then ((x.loop x.hsel).hs, false)
  else if n = 0x2B then ((x.loop x.hsel).he, false)
  else if n = 0x2C then (x.ipc, false)
  else if n = 0x2D then (x.isr, false)
  else if n = 0x2E then (cyc, false)
  else if n = 0x2F then (x.act * 16 + x.hsel, false)
  else if n < 0x34 then scaledRead x.srSeen (av (n - 0x30))
  else if n < 0x38 then (bits (av (n - 0x34)) 31 0, false)
  else if n < 0x3C then (uns 32 (sgn 8 (bits (av (n - 0x38)) 71 64)), false)
  else (bits (av (n - 0x3C)) 63 32, false)

/-- A register by number takes a value, at its width (R146, R150); the loop hardware sees it from instruction `hw` on. The
shift of `sr` applies, and the loop context `k`. -/
def DspSt.put (x : DspSt) (n v hw sr k : Nat) : DspSt :=
  if n < 0x10 then x.setReg n (v % 2 ^ 32)
  else if n < 0x20 then x.setReg n (v % 2 ^ 16)
  else if n < 0x28 then x.setReg n (v &&& 0x3FFF3FFF)
  else if n = 0x28 then { x with sr := (x.sr &&& 0x40000000) ||| (v &&& 0xAFCC000F) }
  else if n < 0x2C then x.loopLater k n v hw
  else if n = 0x2C then { x with ipc := v % 2 ^ 14 }
  else if n = 0x2D then { x with isr := v % 2 ^ 32 }
  else if n = 0x2E then x
  else if n = 0x2F then { (x.loopLater k n v hw) with hsel := v % 4 }
  else if n < 0x34 then x.setAcc (n - 0x30) (uns 72 (shiftI (sgn 32 v * 2 ^ 32) (-(srShf sr))))
  else if n < 0x38 then x.setAcc (n - 0x34) (x.acc (n - 0x34) / 2 ^ 32 * 2 ^ 32 + v % 2 ^ 32)
  else if n < 0x3C then x.setAcc (n - 0x38) (v % 2 ^ 8 * 2 ^ 64 + x.acc (n - 0x38) % 2 ^ 64)
  else x.setAcc (n - 0x3C) (uns 72 (sgn 32 v * 2 ^ 32) + x.acc (n - 0x3C) % 2 ^ 32)

/-- Two register numbers name one register: the views of an accumulator do (R150). -/
def sameReg (n m : Nat) : Bool := n == m || (decide (0x30 ≤ n) && decide (0x30 ≤ m) && n % 4 == m % 4)

/-- What earlier instructions load into a register that this one writes: it is there when the next instruction reads, below
what this one writes (R156). -/
def DspSt.landFor (x : DspSt) (n : Nat) : DspSt :=
  let mine := fun (l : Landing) => match l.dest with
    | .reg m => sameReg n m && decide (l.at_ ≤ x.icnt + 1)
    | _ => false
  (x.land.filter mine).foldl (fun x l => match l.dest with
    | .reg m => x.put m l.val (l.at_ + 1) l.sr l.ctx
    | _ => x) { x with land := x.land.filter fun l => !mine l }

/-- What readers of the old value keep when a register is written (R156): the value held before, with what earlier
instructions have loaded; `acc` for a write by class M or X. -/
def DspSt.keepOld (x : DspSt) (n : Nat) (acc : Bool) : DspSt :=
  if n < 0x10 then x
  else
  let x := x.landFor n
  if n < 0x28 then x.keep (.addr n) (x.reg n) 3
  else if n = 0x28 then (x.keep .sr x.sr 2).keep .flags x.sr 2
  else if acc && decide (0x30 ≤ n) then x.keep (.acc (n % 4)) (x.acc (n % 4)) 2
  else x

/-- Results on their way to a destination that a later write overtakes are dropped. -/
def DspSt.dropLand (x : DspSt) (dest : Dest) (at_ : Nat) : DspSt :=
  { x with land := x.land.filter fun l => !(decide (l.dest = dest) && decide (at_ ≤ l.at_)) }

/-- A register written so that the next instruction reads it. -/
def DspSt.write (x : DspSt) (n v : Nat) : DspSt := ((x.keepOld n true).dropLand (.reg n) 0).put n v (x.icnt + 3) x.srSeen x.hsel

/-- A register written so that it is read from `lat` instructions on. -/
def DspSt.writeLater (x : DspSt) (n v lat : Nat) : DspSt :=
  let l : Landing := { at_ := x.icnt + lat, dest := .reg n, val := v, sr := x.srSeen, ctx := x.hsel }
  let x := (x.keepOld n false).dropLand (.reg n) l.at_
  { x with land := x.land ++ [l] }

/-- The flags N, Z, V, C set; a conditional branch sees them from the second instruction on (R147, R156). -/
def DspSt.setFlags (x : DspSt) (n z v c : Bool) : DspSt :=
  let x := x.landFor 0x28
  let y := x.keep .flags x.sr 2
  { y with sr := x.sr / 16 * 16 + b2n n * 8 + b2n z * 4 + b2n v * 2 + b2n c }

/-- A sticky bit of `SR` sets. -/
def DspSt.sticky (x : DspSt) (m : Nat) : DspSt :=
  let x := x.landFor 0x28
  { x with sr := x.sr ||| m }

/-! ### The shadow bank (R161) -/

/-- The registers the shadow bank doubles, beside `AC3` (R161). -/
def shadowRegs : List Nat := [0x08, 0x09, 0x0A, 0x0B, 0x0C, 0x0D, 0x0E, 0x0F, 0x16, 0x17, 0x1E, 0x1F, 0x26, 0x27]

/-- The copies swapped. -/
def DspSt.swap (x : DspSt) : DspSt :=
  let y := shadowRegs.foldl (fun y n =>
    { (y.setReg n (tblGet y.shadow 0 n)) with shadow := tblPut y.shadow 0 n (y.reg n) }) x
  { (y.setAcc 3 (tblGet y.shadow 0 0x33)) with shadow := tblPut y.shadow 0 0x33 (y.acc 3) }

/-- A register number that the bank doubles: a view of `AC3` among them. -/
def doubled (n : Nat) : Bool := shadowRegs.contains n || (decide (0x30 ≤ n) && n % 4 == 3)

/-- The handler's copies swapped back (R160, R161): its results on their way go on to the copies they were issued for, and
what its readers still saw of those is over. -/
def DspSt.swapBack (x : DspSt) : DspSt :=
  let land := x.land.map fun l => match l.dest with
    | .reg n => if doubled n then { l with dest := .copy n } else l
    | _ => l
  let stale := x.stale.filter fun e => match e.view with
    | .addr n => !doubled n
    | .acc k => k != 3
    | _ => true
  { x.swap with land := land, stale := stale }

/-! ### Memories and results on their way (R145, R156) -/

/-- The byte address of a word of a DSP's memory. -/
def dspWord (d : Nat) (sp : DspSpace) (a : Nat) : Nat :=
  0x60000000 + d * 0x40000 + (match sp with | .x => 0x10000 | .y => 0x20000 | .p => 0x30000) + a * 4

/-- One result lands. -/
def State.dspLandOne (s : State) (d : Nat) (l : Landing) : State :=
  match l.dest with
  | .reg n => s.setDsp d ((s.dsp d).put n l.val (l.at_ + 1) l.sr l.ctx)
  | .copy n => s.setDsp d (((s.dsp d).swap.put n l.val (l.at_ + 1) l.sr l.ctx).swap)
  | .x a => (s.memWrite (.dsp d .x) (dspWord d .x a) 4 l.val).1
  | .y a => (s.memWrite (.dsp d .y) (dspWord d .y a) 4 l.val).1

/-- Every result chosen lands, in order. -/
def State.dspLandIf (s : State) (d : Nat) (p : Landing → Bool) : State :=
  let x := s.dsp d
  let s := s.setDsp d { x with land := x.land.filter fun l => !p l }
  (x.land.filter p).foldl (fun s l => s.dspLandOne d l) s

/-- What is due lands before the instruction to come reads, and old views that have ended go. -/
def State.dspLand (s : State) (d : Nat) : State :=
  let n := (s.dsp d).icnt
  let s := s.dspLandIf d fun l => decide (l.at_ ≤ n)
  let x := (s.dsp d).loopsLand fun w => decide (w.at_ ≤ n)
  s.setDsp d { x with stale := x.stale.filter fun e => decide (n < e.until_) }

/-- The pipeline drains: everything lands, nothing old is seen any more. -/
def State.dspDrain (s : State) (d : Nat) : State :=
  let s := s.dspLandIf d fun _ => true
  s.setDsp d { ((s.dsp d).loopsLand fun _ => true) with special := 0, stale := [] }

/-- A result on its way is a store. -/
def Landing.store (l : Landing) : Bool :=
  match l.dest with
  | .x _ | .y _ => true
  | _ => false

/-- The word of X or Y that a store changes, as a load of the DSP still sees it (R156): the one that the store before it on its
way leaves, else what memory holds. -/
def State.keepWord (s : State) (d : Nat) (x : DspSt) (l : Landing) : DspSt :=
  let old := fun sp a =>
    let v := match (x.land.takeWhile fun m => decide (m ≠ l)).reverse.find? fun m => decide (m.dest = l.dest) with
      | some m => m.val
      | none => s.peek (dspWord d sp a) 4
    { x with stale := x.stale ++ [{ until_ := l.at_, view := .mem sp a, old := v }] }
  match l.dest with
  | .x a => old .x a
  | .y a => old .y a
  | _ => x

/-- Stores of a DSP reach its memories before another master's access; its own loads still see the old words for the
instructions that R156 names. -/
def State.dspStoresLand (s : State) (d : Nat) : State :=
  let x := ((s.dsp d).land.filter Landing.store).foldl (fun x l => s.keepWord d x l) (s.dsp d)
  (s.setDsp d x).dspLandIf d Landing.store


/-! ### States, faults, handlers (R159–R166) -/

/-- `LDSP_STAT.STATE`: RESET 0, RUN 1, WAIT 2, HALT 3, FAULTHALT 4, STOPPED 5. -/
def State.dspState (s : State) (d : Nat) : Nat := s.get (LDSP_STAT_STATE d)

/-- A DSP enters a state; what the millisecond holds beside one state is kept in mind (R168). -/
def State.dspEnter (s : State) (d k : Nat) : State :=
  let x := s.dsp d
  let o := s.dspState d
  let s := s.setDsp d { x with mixed := x.mixed || (o == 1) != (k == 1),
                               partly := x.partly || (o == 0) != (k == 0) || (o == 5) != (k == 5) }
  s.set (LDSP_STAT_STATE d) k

/-- `n` cycles of the group clock pass, `act` of them in RUN (R168): the timer finds its match among them (R159), and the
special unit comes nearer its end (R155). -/
def State.dspPass (s : State) (d n act : Nat) : State :=
  let left := (s.get (LDSP_TCMP_CMP d) + 2 ^ 32 - s.get (LDSP_CYC_COUNT d)) % 2 ^ 32
  let s := if 0 < left ∧ left ≤ n then s.set (LDSP_IRQ_TIMER d) 1 else s
  let s := (s.inc (LDSP_CYC_COUNT d) n).inc (LDSP_ACT_COUNT d) act
  s.setDsp d { s.dsp d with cycles := (s.dsp d).cycles + n, special := (s.dsp d).special - n }

/-- Cycles in the state in which the DSP is. -/
def State.dspCycles (s : State) (d n : Nat) : State := s.dspPass d n (if s.dspState d = 1 then n else 0)

/-- Entry to a handler (R160, R161): `fault` sets `FX`. A DSP in WAIT runs again; a halted or stopped one stays so. -/
def State.dspEnterHandler (s : State) (d ipc vector : Nat) (fault : Bool) : State :=
  let s := s.dspDrain d
  let x := s.dsp d
  let sh := s.on (LDSP_CTL_SHADOW d)
  let sr := (x.sr &&& 0x7FFFFFFF) ||| (b2n fault * 0x20000000)
  let x := { x with ipc := ipc % 2 ^ 14, isr := x.sr, sr := sr, pc := vector, slot := none, inWait := false,
                    resume := x.resume.map fun r => if r = 2 then 1 else r }
  let x := if sh then { x.swap with sr := sr ||| 0x40000000 } else x
  let s := s.setDsp d x
  if s.dspState d = 2 then s.dspEnter d 1 else s

/-- FAULTHALT: the navigation core is interrupted and one umber entry written (R164). -/
def State.dspFaultHalt (s : State) (d : Nat) : State :=
  let s := (s.dspDrain d).dspEnter d 4
  let s := s.setDsp d { s.dsp d with slot := none, inWait := false, step := false }
  (s.set (LDSP_NIRQ_HALT d) 1).note 0x0503 (0x20 + d) 3
    (s.get (LDSP_STAT_FCODE d) * 2 ^ 76 + s.get (LDSP_FPC_PC d) * 2 ^ 62 + s.get (LDSP_FADDR_ADDR d))

/-- A fault (R164): `fpc` is the faulting instruction, `ipc` where the handler returns to; the address is shown for the
causes that have one. -/
def State.dspFault (s : State) (d code addr fpc ipc : Nat) : State :=
  let s := (s.set (LDSP_FPC_PC d) fpc).set (LDSP_STAT_FCODE d) code
  let s := if code = 2 ∨ code = 3 ∨ code = 5 then s.set (LDSP_FADDR_ADDR d) addr else s
  let sr := (s.dsp d).sr
  let s := s.set (LDSP_FLAG_FAULT d) 1
  if bit sr 29 || bit sr 30 then (s.set (LDSP_FLAG_DFAULT d) 1).dspFaultHalt d
  else s.dspEnterHandler d ipc 0x0004 true

/-- The cluster's interrupt level (R141). -/
def State.cluIrq (s : State) (c : Nat) : Bool :=
  (s.on (CLU_IRQ_DROP c) && s.on (CLU_IRQEN_DROP c)) || (s.on (CLU_IRQ_RING c) && s.on (CLU_IRQEN_RING c)) ||
  (s.on (CLU_IRQ_FAULT c) && s.on (CLU_IRQEN_FAULT c)) || (s.on (CLU_IRQ_PROG c) && s.on (CLU_IRQEN_PROG c)) ||
  (s.on (CLU_IRQ_DUMP c) && s.on (CLU_IRQEN_DUMP c))

/-- The vector of the source to enter (R159). -/
def State.dspVector (s : State) (d : Nat) : Option Nat :=
  if s.cluIrq d && s.on (LDSP_IRQEN_CLU d) then some 0x0008
  else if s.on (LDSP_IRQ_EPOCH d) && s.on (LDSP_IRQEN_EPOCH d) then some 0x000C
  else if s.on (LDSP_IRQ_DBELL d) && s.on (LDSP_IRQEN_DBELL d) then some 0x0010
  else if s.on (LDSP_IRQ_TIMER d) && s.on (LDSP_IRQEN_TIMER d) then some 0x0014
  else none

/-- RESET (R165): registers, shadow copies and loop contexts cleared, `CYC` among them (R146); the memories are not, and
stores already posted are on their way (DEDUCED, log 25). -/
def State.dspReset (s : State) (d : Nat) : State :=
  let s := s.dspStoresLand d
  let x := s.dsp d
  let s := (s.setDsp d { stq := x.stq, rate := x.rate, partly := x.partly, mixed := x.mixed }).dspEnter d 0
  (s.set (LDSP_CTL_RUN d) 0).set (LDSP_CYC_COUNT d) 0

/-- The group's clock runs and BRACE has not gated the array (R166). -/
def State.dspClock (s : State) (d : Nat) : Bool := s.on (LDSP_GCTL_CKEN (d / 4)) && !s.sup.arrayOff

/-- A write of `LDSP_CTL.RUN` (R165). -/
def State.dspRunBit (s : State) (d : Nat) (run : Bool) : State :=
  let x := s.dsp d
  let go := if x.inWait then 2 else 1
  match s.dspState d with
  | 0 =>
    if run then
      if s.on (LDSP_GCTL_RST (d / 4)) then s.set (LDSP_CTL_RUN d) 0
      else if s.dspClock d then s.dspEnter d 1
      else (s.setDsp d { x with resume := some 1 }).dspEnter d 5
    else s
  | 1 => if run then s else (s.dspDrain d).dspEnter d 3
  | 2 => if run then s else (s.dspDrain d).dspEnter d 3
  | 3 =>
    if !run then s
    else if s.dspClock d then (s.setDsp d { x with step := false }).dspEnter d go
    else (s.setDsp d { x with step := false, resume := some go }).dspEnter d 5
  | 5 => s.setDsp d { x with resume := some (if run then go else 3) }
  | _ => s

/-- A write of `LDSP_CTL` (R161, R165): `shadow` is the field before it. -/
def State.dspCtl (s : State) (d : Nat) (shadow : Bool) (w : Nat) : State :=
  let st := s.dspState d
  let s := if s.on (LDSP_CTL_SHADOW d) != shadow && st != 0 && st != 3 then
      (s.setB (LDSP_CTL_SHADOW d) shadow).set (LDSP_FLAG_CFGERR d) 1
    else s
  if bit w 30 then s.dspReset d
  else
    let s := s.dspRunBit d (bit w 31)
    if bit w 28 && s.dspState d == 3 then s.setDsp d { s.dsp d with step := true } else s

/-- A DSP stops in STOPPED, its state kept (R166). -/
def State.dspStop (s : State) (d : Nat) : State :=
  let st := s.dspState d
  if st = 1 ∨ st = 2 then
    let s := s.dspDrain d
    (s.setDsp d { s.dsp d with resume := some st }).dspEnter d 5
  else s

/-- It continues when the array and its clock run again (R166). -/
def State.dspGo (s : State) (d : Nat) : State :=
  let x := s.dsp d
  if s.dspState d = 5 ∧ s.dspClock d then (s.setDsp d { x with resume := none }).dspEnter d (x.resume.getD 1) else s

/-- Cycles of a group clock in a millisecond: from `PLL_B`, or from `IRC` while it is not locked (R166). -/
def State.groupCycles (s : State) (d : Nat) : Nat :=
  if !s.dspClock d then 0 else if s.on (PLL_STAT_IRCSEL 1) then 100000 else 300000

/-- The group clock is looked at: a change of it is of the millisecond that runs (R168). -/
def State.dspRate (s : State) (d : Nat) : State :=
  let x := s.dsp d
  let n := s.groupCycles d
  if x.rate = n then s else s.setDsp d { x with rate := max n x.rate, partly := true }

/-- A write of `LDSP_GCTL` of group `g` (R165, R166). -/
def State.dspGroup (s : State) (g : Nat) : State :=
  let on := s.on (LDSP_GCTL_CKEN g)
  let rst := s.on (LDSP_GCTL_RST g)
  s.each 4 fun k s =>
    let d := 4 * g + k
    let s := s.dspRate d
    if rst then s.dspReset d else if on then s.dspGo d else s.dspStop d

/-- The watchdog's limit (R167). -/
def State.dspLimit (s : State) (d : Nat) : Nat := max 1 (s.get (LDSP_WDOG_LIMIT d))

/-- The watchdog has reached its limit (R167). -/
def State.dspWatchdog (s : State) (d : Nat) : State :=
  let st := s.dspState d
  if s.on (LDSP_WDOG_EN d) && decide (s.dspLimit d ≤ s.get (LDSP_WDOG_COUNT d)) && st != 0 && st != 4 then
    let s := (s.set (LDSP_STAT_FCODE d) 6).set (LDSP_FLAG_WDOG d) 1
    (s.set (LDSP_FPC_PC d) (s.dsp d).pc).dspFaultHalt d
  else s

/-- `LDSP_CYC` comes to equal `LDSP_TCMP` (R159, R168): the cycles up to the match have passed, and the epochs to come do
not count them again. A stopped group clock counts none. -/
def State.dspTimer (s : State) (d : Nat) : State :=
  if s.dspState d = 0 || !s.dspClock d then s
  else
    let n := (s.get (LDSP_TCMP_CMP d) + 2 ^ 32 - s.get (LDSP_CYC_COUNT d)) % 2 ^ 32
    (s.dspCycles d n).set (LDSP_IRQ_TIMER d) 1

/-- The cycles of the millisecond that no instruction has counted, cycles beyond it being of the next (R168): those of the
state in which the DSP has been; where RUN was entered or left in it, how many of them were in RUN is open, and where a
reset ended or the clock changed in it, how many there were (log 23). -/
def State.dspRest (s : State) (d : Nat) : State :=
  let s := s.dspRate d
  let x := s.dsp d
  let rest := x.rate - x.cycles
  let (s, n) := if x.partly then s.draw (rest + 1) else (s, rest)
  let (s, act) := if x.mixed then s.draw (n + 1) else (s, if s.dspState d = 1 then n else 0)
  let s := if s.dspState d = 0 then s else s.dspPass d n act
  s.setDsp d { s.dsp d with cycles := (s.dsp d).cycles - x.rate, rate := s.groupCycles d, partly := false, mixed := false }

/-- A device epoch at a DSP: the cycles of the millisecond, the epoch interrupt and the watchdog's count, whatever the group
clock (R159, R163, R167, R168). -/
def State.dspEpoch (s : State) (d : Nat) : State :=
  let s := s.dspRest d
  let s := if s.on (LDSP_IRQ_EPOCH d) then s.set (LDSP_FLAG_EPOVR d) 1 else s.set (LDSP_IRQ_EPOCH d) 1
  if s.on (LDSP_WDOG_EN d) && decide (s.get (LDSP_WDOG_COUNT d) < s.dspLimit d) then
    s.inc (LDSP_WDOG_COUNT d) else s

end Sys2Proof.Machine
end

