-- ==== Sys2Proof/Machine/SupBlock.lean ====
section
/-! DEFINITION. Supplies, warnings, BRACE and the way out of it, resets by the supplies and by `RST_N`, temperature
(ch. 14). -/

namespace Sys2Proof.Machine

/-! ### Resets (R306, R312, R313, R320, R413) -/

/-- A wake reason set, while the always-on domain runs. -/
def State.rtcReason (s : State) (f : Field) : State := if s.rtc.inReset then s else s.rtcWakeSet f

/-- The part goes into reset and stays there: every domain but the always-on one is reset (R24, R25). -/
def State.enterReset (s : State) : State := s.coldReset

/-- The release of a cold start (R320): every rail is present, `VDD_CORE` is above its warning level, `VDD_IO33` is at or above
2.95 V and `RST_N` is high.
`PFW_N` low, or `VDD_IO33` below its warning threshold, makes the warning condition hold at once (R314). -/
def State.coldRelease (s : State) : State :=
  if !s.sup.powered || s.sup.rstLow || s.sup.core || s.sup.ioShort then s
  else
    let s := s.coldReset.set SUP_RAIL_PRES 0x3F
    let s := { s with cus := { s.cus with phase := .released }, sup := { s.sup with stableAt := some 0 } }
    let s := if s.sup.pfw then (s.set SUP_STAT_PFW 1).set SUP_STAT_PFWSEEN 1 else s
    if s.sup.pfw || s.sup.io33 then
      let s := s.set SUP_STAT_WARN 1
      { s with sup := { s.sup with cPfw := s.sup.pfw, cIo33 := s.sup.io33, stableAt := none } }
    else s

/-- The part is held in reset: by a supply, by `RST_N`, or by `VDD_CORE` below its warning level (R313, R320, R413). -/
def State.heldReset (s : State) : Bool := !s.sup.powered || s.sup.rstLow || s.cus.phase == .off

/-- The rails have risen in order and are stable (R320). -/
def State.powerUp (s : State) : State :=
  if s.sup.powered then s
  else ({ s with sup := { s.sup with powered := true, io33 := false, core := false, ioShort := false } }).coldRelease

/-- `RST_N` low for 1 µs (R413). -/
def State.rstAssert (s : State) : State :=
  if s.sup.rstLow then s
  else (({ s with sup := { s.sup with rstLow := true } }).rtcReason RTC_WREASON_RESET).enterReset

/-- `RST_N` high again: the cold start is released (R320, R433). -/
def State.rstRelease (s : State) : State :=
  if !s.sup.rstLow then s else ({ s with sup := { s.sup with rstLow := false } }).coldRelease

/-- A rail falls through its reset threshold (R313), or is found absent (R312): the part is in reset until the rails have
risen again. -/
def State.supplyLost (s : State) : State :=
  if !s.sup.powered then s
  else (({ s with sup := { s.sup with powered := false } }).rtcReason RTC_WREASON_SUPPLY).enterReset

/-- A fall through a reset threshold; below that of `VDD_IO33` the domain's comparator locks its interface (R303, R308,
R313). -/
def State.supplyReset (s : State) (core : Bool) : State :=
  let s := if core then s else { s with rtc := { s.rtc with lock := true } }
  if !s.sup.powered then s
  else
    let s := s.supplyLost
    if core then s.set SUP_RAIL_PRES 0x3E else s

/-- A rail absent (R312): its presence bit reads 0. -/
def State.railAbsent (s : State) (rail : Nat) : State :=
  if !s.sup.powered then s else (s.supplyLost).set SUP_RAIL_PRES (0x3F - 2 ^ rail)

/-- A setting of `RTC_WAKE` that a locked interface held back is written (R303). -/
def State.wakeWaiting (s : State) : State :=
  match s.itg.wakePend with
  | some (n, t) => s.custWake n t
  | none => s

/-- `VDD_IO33` above 2.95 V for 10 ms with the cold start's reset released: the comparator's interface lock ends (R308);
a wake setting that waited is written. -/
def State.rtcLockEnd (s : State) : State :=
  if !s.rtc.lock || s.rtc.inReset || s.on RTC_STAT_ONBAT || s.cus.phase == .off then s
  else State.wakeWaiting { s with rtc := { s.rtc with lock := false } }

/-! ### The warning condition (R314) -/

/-- The warning condition holds: stability ends (R314, R324). -/
def State.warned (s : State) : State :=
  ({ s with sup := { s.sup with stableAt := none } }).set SUP_STAT_WARN 1

/-- `PFW_N` falls (R314). -/
def State.pfwLow (s : State) : State :=
  let s := { s with sup := { s.sup with pfw := true } }
  if s.heldReset then s
  else
    let s := { s with sup := { s.sup with cPfw := true } }
    ((s.set SUP_STAT_PFW 1).set SUP_STAT_PFWSEEN 1).warned

/-- The lower of a held minimum and a new value. -/
def State.lowest (s : State) (f : Field) (v : Nat) : State := s.set f (min (s.get f) (min v 1023))

/-- A rail falls through its warning threshold (R313), `level` its lowest since, `VDD_IO33` in 10 mV. In reset the part keeps that
it is low for the release (R314), and a `VDD_IO33` below 2.95 V holds the release (R320) until a later level reaches it. -/
def State.supplyWarning (s : State) (core : Bool) (level : Nat) : State :=
  let s := if core then s else { s with sup := { s.sup with ioShort := decide (level < 295) } }
  if s.heldReset then
    if core then { s with sup := { s.sup with core := true } }
    else ({ s with sup := { s.sup with io33 := true } }).coldRelease
  else if core then
    let s := { s with sup := { s.sup with core := true, cCore := true } }
    let s := if s.on SUP_STAT_BRACE then s.lowest SUP_MIN_CORE level else s.set SUP_MIN_CORE (min level 1023)
    (s.clrF SUP_RAIL_PRES 1).warned
  else
    let s := { s with sup := { s.sup with io33 := true, cIo33 := true } }
    let s := if s.on SUP_STAT_BRACE then s.lowest SUP_MIN_IO33 level else s.set SUP_MIN_IO33 (min level 1023)
    s.warned

/-- The causes of the BRACE that stands (ch. 14, `SUP_CAUSE`). -/
def State.braceCauses (s : State) : State :=
  ((s.setB SUP_CAUSE_PFW s.sup.cPfw).setB SUP_CAUSE_IO33 s.sup.cIo33).setB SUP_CAUSE_CORE s.sup.cCore

/-- The end of the condition: `PFW_N` is high and both rails are back; stability begins and `SUP_LASTW` restarts
(R314, R315). A part in reset that waited for `VDD_CORE` or `VDD_IO33` alone is released (R320). -/
def State.warningEnd (s : State) : State :=
  if s.heldReset then ({ s with sup := { s.sup with pfw := false, io33 := false, core := false, ioShort := false } }).coldRelease
  else if !s.on SUP_STAT_WARN then s
  else
    let s := { s with sup := { s.sup with pfw := false, io33 := false, core := false, ioShort := false,
                                          stableAt := some s.tim.up, warnEnd := s.tim.up } }
    (((s.set SUP_STAT_WARN 0).set SUP_STAT_PFW 0).orF SUP_RAIL_PRES 1).set SUP_LASTW_SEC 0

/-! ### BRACE (R316, R317) -/

/-- The entry in progress completes in its commit order; what waits stays in the queue (R316). -/
def State.umbBrace (s : State) : State :=
  let s := s.umbDone
  ({ s with umb := { s.umb with snap := [], snapOn := false } }).set UMB_STAT_LOCKED 1

/-- A start under way is stopped by BRACE: a walk runs again from its first record, a soft start from its beginning
(R27). -/
def State.startBrace (s : State) : State :=
  if s.cus.phase = .walk then
    if s.cus.walk.soft then
      { s with cus := { s.cus with phase := .braceWait }, sup := { s.sup with softDue := s.get SYS_START_CAUSE } }
    else { s with cus := { s.cus with phase := .braceWait } }
  else s

/-- BRACE (R316): the steps of its table, in order. -/
def State.braceBegin (s : State) : State :=
  if !s.on SUP_STAT_WARN || s.on SUP_STAT_BRACE then s
  else
    let s := (s.set SUP_STAT_BRACE 1).set SUP_STAT_LONG 0
    let s := if s.sup.cIo33 then s else s.set SUP_MIN_IO33 1023
    let s := if s.sup.cCore then s else s.set SUP_MIN_CORE 1023
    let s := ({ s with sup := { s.sup with braceAt := s.tim.up } }).braceCauses
    let s := s.umbBrace.mordantAbandon
    let s := s.each 1024 fun e s => if (s.eng e).tokens = 0 then s.migAbort e else s.engCancel e
    let s := s.snapBrace
    let s := s.each 16 fun d s => s.dspStop d
    let s := { s with sup := { s.sup with arrayOff := true } }
    (s.set SUP_STAT_SETTLED 1).burstMiss.startBrace

/-- The duration of the BRACE that stands, in ms. -/
def State.braceMs (s : State) : Nat := satN 32 ((s.tim.up - s.sup.braceAt) / 1000000)

/-- What the end of either BRACE writes (R319): the entry with cause, duration and lowest values. -/
def State.braceNote (s : State) (typ lvl : Nat) : State :=
  let c := s.get SUP_CAUSE_PFW * 4 + s.get SUP_CAUSE_IO33 * 2 + s.get SUP_CAUSE_CORE
  s.note typ 0x05 lvl (c * 2 ^ 77 + s.get SUP_DUR_MS * 2 ^ 32 + s.get SUP_MIN_IO33 * 2 ^ 16 + s.get SUP_MIN_CORE)

/-- The walk of a cold start goes on from its first record (R27). -/
def State.walkAgain (s : State) : State :=
  let w := s.cus.walk
  let s := (s.set CFL_STAT_STATE 3).set CFL_RECS_COUNT 0
  { s with cus := { s.cus with phase := .walk, walk := { w with pos := 0, recs := 0, waiting := false, polls := false,
                                                                at_ := s.tim.up } } }

/-- A start that BRACE held goes on: a soft start from its beginning, a cold one with its walk from the first record, or
from the load of device time where no walk had begun (R27, R314). The soft start writes its entry 0x0504 again and counts in
`SOFTCNT` again (DESIGN CHOICE, log entry 57). -/
def State.startResume (s : State) : State :=
  if s.cus.phase = .braceWait then
    let d := s.sup.softDue
    let soft := s.cus.walk.soft && d != 0
    if soft then ({ s with cus := { s.cus with phase := .run } }).softBegin d
    else if s.cus.walk.len = 0 then s.startContinue else s.walkAgain
  else s

/-- The end of BRACE (R319): interfaces released, queued entries committed, array ungated, loop DSPs resumed, channels
restarted, then the entry of the sag. -/
def State.braceOver (s : State) (long : Bool) : State :=
  let s := s.braceCauses.set SUP_DUR_MS s.braceMs
  let s := ((s.set SUP_STAT_BRACE 0).set SUP_STAT_SETTLED 0).set SUP_STAT_LONG 0
  let s := (s.set UMB_STAT_LOCKED 0).umbFlush 300
  let s := { s with sup := { s.sup with arrayOff := false, cPfw := false, cIo33 := false, cCore := false } }
  let s := if s.itg.relocSet then s.relocStore else s
  let s := if s.itg.relocClr then ({ s with itg := { s.itg with relocClr := false } }).itgUnlatch ITG_LATCH_RELOC false else s
  let s := s.each 16 fun c s => s.cluResume c
  let s := s.each 16 fun d s => s.dspGo d
  let s := s.chansRestart.wakeWaiting
  let s := if long then
      (((s.incSat SUP_BRCNT_LONG).braceNote 0x0102 3).set SUP_STAT_LONGSAG 1).orF SUP_IRQ_IRQ 2
    else
      (((s.incSat SUP_BRCNT_SHORT).braceNote 0x0101 2).set SUP_STAT_SAGREC 1).orF SUP_IRQ_IRQ 1
  s.startResume

/-- The supply has been stable for a time (R314, R318). -/
def State.stableFor (s : State) (ns : Nat) : Bool :=
  !s.on SUP_STAT_WARN && (match s.sup.stableAt with | some a => s.reached a ns | none => false)

/-- A short BRACE ends: stable for 10 ms, and no more than 500 ms long (R318). -/
def State.braceShort (s : State) : State :=
  if s.on SUP_STAT_BRACE && s.stableFor 10000000 && !s.on SUP_STAT_LONG then s.braceOver false else s

/-- A long sag ends: stable for 2 s (R318). -/
def State.braceLong (s : State) : State :=
  if s.on SUP_STAT_BRACE && s.stableFor 2000000000 && s.on SUP_STAT_LONG then s.braceOver true else s

/-- The monitor at a device epoch: the measured supplies, their lowest values in BRACE, the age of BRACE,
`SUP_LASTW` (R315, R318). -/
def State.supEpoch (s : State) (io33 core : Nat) : State :=
  let s := { s with sup := { s.sup with ioShort := decide (io33 < 295) } }
  let s := (s.set SUP_MEAS_IO33 (min io33 1023)).set SUP_MEAS_CORE (min core 1023)
  let s := s.set SUP_LASTW_SEC (satN 32 ((s.tim.up - s.sup.warnEnd) / 10 ^ 9))
  if s.on SUP_STAT_BRACE then
    let s := ((s.lowest SUP_MIN_IO33 io33).lowest SUP_MIN_CORE core).braceCauses
    s.setB SUP_STAT_LONG (decide (s.sup.braceAt + 500000000 < s.tim.up))
  else s

/-! ### Temperature (R323) -/

/-- The die temperature measured, in 0.25 °C: above 105 °C an episode begins. -/
def State.tempMeasure (s : State) (q : Int) : State :=
  let hot := decide (420 < q)
  let s := ((s.set SUP_TEMP_VALID 1).setI SUP_TEMP_DEGQ (satI 12 q)).setB SUP_STAT_HOT hot
  let s := if hot && !s.sup.hotEp then
      let s := { s with sup := { s.sup with hotEp := true, hotMax := q } }
      (s.set SUP_STAT_HOTEP 1).orF SUP_IRQ_IRQ 4
    else s
  let s := { s with sup := { s.sup with hotMax := max s.sup.hotMax q } }
  if 400 < q then { s with sup := { s.sup with hotAt := s.tim.up } } else s

/-- The episode ends after 60 s at or below 100 °C, with its entry (R323). -/
def State.hotEnd (s : State) : State :=
  if s.sup.hotEp && s.reached s.sup.hotAt 60000000000 then
    ({ s with sup := { s.sup with hotEp := false } }).note 0x0103 0x05 2 (uns 12 (satI 12 s.sup.hotMax))
  else s

end Sys2Proof.Machine
end

