-- ==== Sys2Proof/Machine/Bus.lean ====
section
/-! DEFINITION. The address space (ch. 18): who may reach what, how a register write acts field by field, what a write
sets in motion, what a read shows, the read latches, memories as masters see them, and bus errors. -/

namespace Sys2Proof.Machine

/-! ### Permissions (R20, R141, R303, R335, R343, R350, R401) -/

/-- The registers of `TIM` that the custody core alone writes (ch. 9). -/
def timCustodyOnly (a : Nat) : Bool := a == 0x40040044 || (0x40040048 ≤ a && a ≤ 0x40040050)

/-- The targets that a record may not touch (R350). -/
def recordForbidden (addr : Nat) : Bool :=
  let a := addr / 4 * 4
  let page := a / 0x10000
  if page = 0x4000 then a != 0x4000001C && a != 0x40000020
  else if page = 0x4001 then a != 0x40010028
  else if page = 0x4008 then a == 0x40080000 || a == 0x40080008
  else if page = 0x4004 then timCustodyOnly a
  else
    !(page == 0x4003 || page == 0x4005 || page == 0x4006 || page == 0x4007 || (page == 0x4010 && a < 0x40108000) ||
      page == 0x4020 || page == 0x4021 || (0x5000 ≤ page && page < 0x5100) || (0x6000 ≤ page && page < 0x6040) ||
      (0x7000 ≤ page && page < 0x7200) || (0x8000 ≤ page && page < 0x8040))

/-- The windows of a loop DSP in E space (R141). -/
def dspWindow (d addr : Nat) (write : Bool) : Bool :=
  let own := 0x60000000 + d * 0x40000
  if 0x50000000 + d * 0x100000 ≤ addr ∧ addr < 0x50000000 + (d + 1) * 0x100000 then true
  else if own ≤ addr ∧ addr < own + 0x100 then addr / 4 * 4 != own && addr / 4 * 4 != own + 0x40
  else if 0x80000000 ≤ addr ∧ addr < 0x80400000 then true
  else
    !write && ((0x40040000 ≤ addr && addr < 0x40050000) || (0x40300000 ≤ addr && addr < 0x40300040) ||
      (0x90000000 ≤ addr && addr < 0x90800000))

/-! ### The navigation core's accesses (R406, R407) -/

/-- The kinds of access of the navigation core; `atomic` is LR, SC or AMO. -/
inductive NavAccess where
  | fetch | load | store | atomic
  deriving DecidableEq, Repr

/-- The low bits of an address that are 1, counted from bit 0: at most `fuel` of them. -/
def onesBelow : Nat → Nat → Nat
  | 0, _ => 0
  | fuel + 1, n => if n % 2 = 1 then onesBelow fuel (n / 2) + 1 else 0

/-- An entry covers a byte address; `base` is the address of the entry before it, where a TOR range begins (R407; the ranges are
those of the RISC-V privileged architecture: PRESUMED, log 26). -/
def PmpEntry.covers (e : PmpEntry) (base a : Nat) : Bool :=
  match e.mode with
  | .off => false
  | .tor => decide (base ≤ a / 4) && decide (a / 4 < e.addr)
  | .na4 => a / 4 == e.addr
  | .napot => let k := onesBelow 32 e.addr + 1; a / 4 / 2 ^ k == e.addr / 2 ^ k

/-- The first entry that covers an address. -/
def pmpFind (a : Nat) : Nat → List PmpEntry → Option PmpEntry
  | _, [] => none
  | base, e :: es => if e.covers base a then some e else pmpFind a e.addr es

/-- Physical memory protection permits a kind of access: no entry binds machine mode unless it is locked, and user mode has no
access where none covers the address (R407). -/
def NavBoot.permits (b : NavBoot) (k : NavAccess) (a : Nat) : Bool :=
  match pmpFind a 0 b.pmp with
  | none => b.machine
  | some e =>
    (b.machine && !e.l) ||
      (match k with
       | .fetch => e.x
       | .load => e.r
       | .store => e.w
       | .atomic => e.r && e.w)

/-- The access fault that the navigation core takes before its access leaves it, as `mcause` codes it (R407): fetches, LR, SC
and AMO reach navigation core SRAM alone. -/
def NavBoot.fault (b : NavBoot) (k : NavAccess) (a : Nat) : Option Nat :=
  let here := memClass a == some .nav
  match k with
  | .fetch => if here && b.permits k a then none else some 1
  | .load => if b.permits k a then none else some 5
  | .store => if b.permits k a then none else some 7
  | .atomic => if here && b.permits k a then none else some 7

/-- Whether a rule lets a master make an access of this kind to an address. -/
def State.busAllowed (s : State) (m : Master) (addr : Nat) (write : Bool) : Bool :=
  let page := addr / 0x10000
  let own := m == .cust || m == .svc
  let agent := match m with
    | .ldsp d => dspWindow d.val addr write
    | .ptp => (write && 0x40040054 ≤ addr && addr < 0x4004006C) || memClass addr == some .eth
    | .itg => write && addr == 0x40080000
    | .svc => !write || addr == 0x40080008 || !recordForbidden addr
    | .loader => !recordForbidden addr
    | .nav => (s.nav.boot.fault (if write then .store else .load) addr).isNone
    | _ => true
  let rule :=
    if page = 0x4002 then
      !s.rtcLocked && (m == .nav || own) &&
        (!write || m == .cust || (addr != 0x40020018 && addr != 0x40020024))
    else if page = 0x4004 then
      !write || own || !(timCustodyOnly addr || (0x40040054 ≤ addr && addr < 0x4004006C && m != .ptp))
    else if page = 0x4008 then !write || addr != 0x40080008 || m == .svc
    else if page = 0x4030 then
      addr % 0x10000 < 0x40 || ((!write || m == .cust) && !s.on SUP_STAT_BRACE)
    else if page = 0x4032 then !write || m == .cust || (m == .nav && addr == 0x40320034)
    else if 0x9070 ≤ page ∧ page < 0x9080 then m == .cust
    else if 0x10000 ≤ page then (memClass addr == some .cust && m == .cust) || (memClass addr == some .eth && m == .ptp)
    else true
  agent && rule

/-! ### What a read shows -/

/-- The map of the engines of a cluster with a property. -/
def engMap (c : Nat) (p : Nat → Bool) : Nat :=
  (List.range 64).foldl (fun m k => m + (if p (64 * c + k) then 2 ^ k else 0)) 0

/-- What the registers of `SYS_NIRQ` show (R408). -/
def State.viewNirq (s : State) : State :=
  let ept := (List.range 8).any fun p => s.get (EPT_IRQ_IRQ p) &&& s.get (EPT_IRQEN_IRQ p) != 0
  let itg := (s.on ITG_IRQ_LATCH && s.on ITG_IRQEN_LATCH) || (s.on ITG_IRQ_CHG && s.on ITG_IRQEN_CHG)
  let snp := (s.on SNP_IRQ_ERR && s.on SNP_IRQEN_ERR) || (s.on SNP_IRQ_RPLDONE && s.on SNP_IRQEN_RPLDONE) ||
    (s.on SNP_IRQ_PASS && s.on SNP_IRQEN_PASS) || (s.on SNP_IRQ_CAPDONE && s.on SNP_IRQEN_CAPDONE)
  let s := s.setB SYS_NIRQ_SVC (s.get SVC_IRQ_IRQ &&& s.get SVC_IRQEN_IRQ != 0)
  let s := s.setB SYS_NIRQ_SUP (s.get SUP_IRQ_IRQ &&& s.get SUP_IRQEN_IRQ != 0)
  let s := s.setB SYS_NIRQ_TEL (s.get TEL_IRQ_IRQ &&& s.get TEL_IRQEN_IRQ != 0)
  let s := s.setB SYS_NIRQ_TIM (s.get TIM_IRQ_IRQ &&& s.get TIM_IRQEN_IRQ != 0)
  ((s.setB SYS_NIRQ_EPT ept).setB SYS_NIRQ_ITG itg).setB SYS_NIRQ_SNP snp

/-- The interrupt lines of the navigation core by their bits of `mip`: 11 for `SYS_NIRQ`, 16 + d for loop DSP d (R408). -/
def State.navMip (s : State) : Nat :=
  let v := s.viewNirq
  let ext := [SYS_NIRQ_SVC, SYS_NIRQ_SUP, SYS_NIRQ_TEL, SYS_NIRQ_EPT, SYS_NIRQ_TIM, SYS_NIRQ_ITG, SYS_NIRQ_SNP].any v.on
  let dsp := fun (d : Nat) =>
    (s.on (LDSP_NIRQ_HALT d) && s.on (LDSP_NIRQEN_HALT d)) || (s.on (LDSP_NIRQ_OUTBOX d) && s.on (LDSP_NIRQEN_OUTBOX d))
  (List.range 16).foldl (fun m d => m + (if dsp d then 2 ^ (16 + d) else 0)) (if ext then 2 ^ 11 else 0)

/-- The count of the always-on domain as its registers show it (R300). -/
def State.viewRtc (s : State) : State :=
  let t := s.rtc.tick
  let s := s.set2 RTC_TICK_L_TICK RTC_TICK_H_TICK t
  (s.set2 RTC_SEC_L_SEC RTC_SEC_H_SEC (t / 32768)).set RTC_PRE_PRE (t % 32768)

/-- Device time as `TIM_NOW_*` shows it (R217). -/
def State.viewNow (s : State) (sub : Nat) : State :=
  let t := s.now sub
  let s := (s.set TIM_NOW_SH_FRAC (tvFrac t)).set TIM_NOW_SH_SECH (tvSec t / 2 ^ 32)
  (s.set TIM_NOW_SL_SECL (tvSec t)).set TIM_NOW_NS_NS (tvNs t)

/-- The bounds in force and the baselines (ch. 8): a read of a bound returns the value in force, and one of a baseline
that is not configured the surveyed value. -/
def State.viewItg (s : State) : State :=
  let s' := ((s.set ITG_TRBND_NS s.trBound).set ITG_HBND_NS s.hBound).set ITG_DGBND_NS s.dgBound
  s'.each 3 fun i v =>
    match s.baseline (i + 1) with
    | none => v.set (ITG_BL_S_SHORT i) 0
    | some (x, y, z) =>
      (((v.setI (ITG_BL_X_MM i) x).setI (ITG_BL_Y_MM i) y).setI (ITG_BL_Z_MM i) z).setB (ITG_BL_S_SHORT i)
        (shortBaseline (x, y, z))

/-- Counts, fault and retirement maps and the epoch of a cluster (ch. 3). -/
def State.viewClu (s : State) (c : Nat) : State :=
  let n := fun k => s.engCount c k
  let v := ((s.set (CLU_CNTA_IDLE c) (n 0)).set (CLU_CNTA_TRACK c) (n 1)).set (CLU_CNTA_ACQ c) (n 2)
  let v := ((v.set (CLU_CNTA_MIG c) (n 3)).set (CLU_CNTB_REPAIR c) (n 4)).set (CLU_CNTB_RETIRED c) (n 5)
  let v := v.set2 (CLU_FLT_L_MAP c) (CLU_FLT_H_MAP c) (engMap c fun e => s.on (ENG_STAT_FAULT e))
  let v := v.set2 (CLU_RET_L_MAP c) (CLU_RET_H_MAP c) (engMap c fun e => s.engState e == 5)
  v.set (CLU_EPOCH_EPOCH c) s.epochCount

/-- An engine's values in use and its live phases (ch. 3). -/
def State.viewEng (s : State) (e : Nat) : State :=
  let x := s.eng e
  let u := x.use
  let s := (s.set (ENG_CFG_SRC e) u.src).set (ENG_CFG_CHID e) u.chid
  let s := (s.set (ENG_CODE_DESCA e) u.descA).set (ENG_CODE_DESCB e) u.descB
  let s := s.set2 (ENG_CRATE_L_RATE e) (ENG_CRATE_H_RATE e) u.crate
  let s := s.set2 (ENG_KRATE_L_RATE e) (ENG_KRATE_H_RATE e) u.krate
  let s := s.set (ENG_CPH_C_CHIP e) x.chip
  let s := s.set2 (ENG_CPH_F0_FRAC e) (ENG_CPH_F1_FRAC e) x.cfrac
  (s.set (ENG_CPH_B_IB e) x.ib).set2 (ENG_KPH_L_PH e) (ENG_KPH_H_PH e) x.kph

/-- Samples per second that captures under way store, against what leaves the replay its full pace (R98). -/
def State.paced (s : State) : Bool :=
  let caps := (List.range 8).filter fun h => s.get (SNP_HSTAT_STATE h) == 2
  let rate := caps.foldl (fun a h => a + storedRate (s.handle h).rate) 0
  s.on SNP_STAT_RPLRUN && decide (818400000 < rate)

/-- A loop DSP's live state (ch. 6). -/
def State.viewDsp (s : State) (d : Nat) : State :=
  let x := s.dsp d
  let v := (s.set (LDSP_STAT_PC d) x.pc).setB (LDSP_STAT_SH d) (bit x.sr 30)
  let v := (v.setB (LDSP_STAT_IE d) (bit x.sr 31)).setB (LDSP_STAT_BLKBUSY d) x.blk.isSome
  v.setB (LDSP_IRQ_CLU d) (s.cluIrq d)

/-- The registers around an address as a read shows them. `sub` is the instant after the epoch boundary. -/
def State.busView (s : State) (addr sub : Nat) : State :=
  let page := addr / 0x10000
  if page = 0x4000 then s.viewNirq
  else if page = 0x4002 then s.viewRtc
  else if page = 0x4004 then s.viewNow sub
  else if page = 0x4007 then s.setB SNP_STAT_PACED s.paced
  else if page = 0x4008 then s.viewItg
  else if page = 0x4020 then
    s.each 4 fun b v => if (s.bank b).measured then v else v.set (TEL_BANK_VERR b) 1
  else if 0x5000 ≤ page ∧ page < 0x5100 then
    let c := (page - 0x5000) / 16
    if page % 16 = 0 then s.viewClu c else s.viewEng (64 * c + addr % 0x10000 / 0x400)
  else if 0x6000 ≤ page ∧ page < 0x6040 then s.viewDsp ((page - 0x6000) / 4)
  else s

/-- A register's 32 bits: reserved and write-only fields read 0 (R402). -/
def State.regValue (s : State) (addr : Nat) : Nat :=
  (regsAt addr).foldl (fun a f => if f.2 = .wo then a else a + s.get f.1 * 2 ^ f.1.lo) 0

/-- How many registers after this one its read latches (R403). -/
def latchCount (addr : Nat) : Nat :=
  let o := addr % 0x10000
  let page := addr / 0x10000
  if page = 0x4002 then
    if o = 0x08 then 2
    else if o = 0x00 ∨ o = 0x28 ∨ o = 0x30 ∨ o = 0x38 ∨ o = 0x40 then 1 else 0
  else if page = 0x4004 then
    if o = 0x00 ∨ o = 0x110 ∨ o = 0x150 ∨ o = 0x208 then 2 else if o = 0x0C then 1 else 0
  else if page = 0x4005 then if o % 0x100 = 0x18 then 2 else 0
  else if page = 0x4007 then if 0x100 ≤ o ∧ o < 0x300 ∧ o % 0x40 = 0x18 then 2 else 0
  else if page = 0x4020 then if 0x400 ≤ o ∧ o < 0x1C00 ∧ o % 0x40 = 0x20 then 2 else 0
  else if page = 0x4030 then if o = 0x04 ∨ o = 0x0C then 1 else 0
  else if page = 0x4031 then if o = 0x08 ∨ o = 0x30 ∨ o = 0x38 ∨ o = 0x40 then 1 else 0
  else if page = 0x4032 then if o = 0x20 then 1 else 0
  else if 0x5000 ≤ page ∧ page < 0x5100 ∧ page % 16 = 1 then if o % 0x400 = 0x44 then 5 else 0
  else 0

/-- The registers of the group that a register ends: the last of them releases the latch (R403). -/
def latchBack (addr : Nat) : Nat :=
  match (List.range 5).find? fun i => latchCount (addr - 4 * (i + 1)) == i + 1 with
  | some i => i + 1
  | none => 0

/-- A register's read: its first register latches the group for the master, the last one releases it (R403); what a
read itself changes. -/
def State.regRead (s : State) (m : Master) (addr sub : Nat) : State × Nat :=
  if 0x40200400 ≤ addr ∧ addr < 0x40201C00 ∧ addr % 0x40 = 0x20 then
    let s := s.telCapRead m ((addr - 0x40200400) / 0x40)
    (s.release m addr, (s.held m addr).getD 0)
  else
    let v := s.busView addr sub
    let n := latchCount addr
    let x := if n ≠ 0 then v.regValue addr else (s.held m addr).getD (v.regValue addr)
    let s := (List.range n).foldl (fun s i => s.hold m (addr + 4 * (i + 1)) (v.regValue (addr + 4 * (i + 1)))) s
    let s := (List.range (latchBack addr)).foldl (fun s i => s.release m (addr - 4 * i)) s
    (if addr = 0x40040210 then s.set TIM_TPI_STAT_NEW 0 else s, x)

/-! ### What a register write does (R402) -/

/-- The part is SEALED: no owner session has reopened it (R360). -/
def State.sealedNow (s : State) : Bool := s.cus.rec_.sealed_ && !s.cus.reopened

/-- The bits that a register's fields cover. -/
def fieldMask (fs : List (Field × Acc)) : Nat := fs.foldl (fun a f => a ||| (2 ^ f.1.width - 1) * 2 ^ f.1.lo) 0

/-- A field the seal locks. -/
def Acc.lockable : Acc → Bool
  | .rwl | .w1cl => true
  | _ => false

/-- The value a locked field is held at: the running count for the seconds of the always-on domain. -/
def State.fieldHeld (s : State) (f : Field) : Nat :=
  if f.addr / 0x10000 = 0x4002 then s.viewRtc.get f else s.get f

/-- One field of a write, for a field that is not locked: the latches of `ITG_LATCH` clear by their own rule (R205). -/
def State.fieldWrite (s : State) (f : Field) (a : Acc) (w : Nat) : State :=
  match a with
  | .rw | .rwb | .rwl => s.set f (bits w f.hi f.lo)
  | .w1c => s.clrF f (bits w f.hi f.lo)
  | .ro | .wo | .w1cl => s

/-- The seal holds for a master's write (R402): not for the loader during a walk (R350), that of a repair among them (R397). -/
def State.lockHolds (s : State) (m : Master) : Bool :=
  s.sealedNow && !(m == .loader && (s.cus.phase == .walk || s.get SVC_REPAIR_RSTATE == 2))

/-- Whether R402 refuses a write whole. -/
def State.writeError (s : State) (m : Master) (addr w : Nat) : Bool :=
  let fs := regsAt addr
  let locked := s.lockHolds m
  (w ||| fieldMask fs) != fieldMask fs || (fs.all fun f => f.2 == .ro) ||
    (locked && fs.any fun f => f.2.lockable && s.fieldHeld f.1 != bits w f.1.hi f.1.lo) ||
    (addr == 0x4002001C && bit w 30 && m != .cust)

/-! ### What writes set in motion -/

/-- `SYS`: a kick returns the count of the navigation watchdog to 0, and the limit lies ahead again (R359). -/
def hookSys (o : Nat) (w : Nat) (s : State) : State :=
  if o = 0x20 ∧ bit w 30 then
    let s := s.set SYS_NWCNT_COUNT 0
    { s with cus := { s.cus with nwDone := false } }
  else s

/-- `RTC` (R301). -/
def hookRtc (o : Nat) (w : Nat) (s : State) : State :=
  if o = 0x08 then s.rtcCommit w
  else if o = 0x0C then { s with rtc := { s.rtc with secTop := w % 2 } }
  else s

/-- `PLL` and `CKO` (R243–R250): the enables of `PLL_A` to `PLL_C` cannot be cleared, and they do not follow. -/
def hookPll (o : Nat) (w : Nat) (old s : State) : State :=
  if o < 0x600 then
    let x := o / 0x100
    if o % 0x100 = 0 then
      let s := if x < 3 then (s.set (PLL_CTL_EN x) 1).set (PLL_CTL_FOLLOW x) 0 else s
      s.pllCtl x (old.on (PLL_CTL_EN x)) w
    else if o % 0x100 = 0x14 then s.pllTrim x (old.get (PLL_TRIM_TRIM x))
    else s
  else if 0xE00 ≤ o ∧ o < 0xF80 ∧ o % 0x20 = 0 then s.ckoWritten ((o - 0xE00) / 0x20)
  else s

/-- `TIM` (R218, R220–R222, R226, R236, R237). -/
def hookTim (o : Nat) (w : Nat) (old s : State) : State :=
  if 0x100 ≤ o ∧ o < 0x180 then if o % 0x40 < 0x10 then s.tpWritten ((o - 0x100) / 0x40) else s
  else if o = 0x18 ∨ o = 0x1C then
    { s with tim := { s.tim with ocompDue := dueAdd s.tim.ocompDue s.applyIn (s.getI2 TIM_OCOMP_L_OCOMP TIM_OCOMP_H_OCOMP) } }
  else if o = 0x30 then { s with tim := { s.tim with agingDue := dueAdd s.tim.agingDue s.applyIn (s.getI TIM_AGING_AGING) } }
  else if o = 0x6C then
    let v : ServoSet := { tslew := s.get TIM_SERVO_TSLEW, slewmax := s.get TIM_SERVO_SLEWMAX, gf := s.get TIM_SERVO_GF }
    { s with tim := { s.tim with servoDue := dueAdd s.tim.servoDue s.applyIn v } }
  else if o = 0x44 then s.timFixGo w
  else if o = 0x50 then s.timStepGo w
  else if o = 0x68 then s.timLoadGo w
  else if 0x70 ≤ o ∧ o < 0x80 then s.timEval
  else if o = 0x200 then (s.tpiCfg (old.on TIM_TPI_CFG_EN)).xTidy
  else s

/-- `SLK` (R41, R47). -/
def hookSlk (o : Nat) (eyes : List (Option (Fin 64))) (old s : State) : State :=
  let n := o / 0x100
  if o % 0x100 = 0 then s.slkCfg n (old.on (SLK_CFG_EN n)) eyes
  else if o % 0x100 = 0x28 then s.linkBase n
  else s

/-- `FEC` (R48, R50). -/
def hookFec (o w : Nat) (s : State) : State :=
  if o % 0x100 = 0x08 then s.fecGo (o / 0x100) w
  else if o % 0x100 = 0x18 then s.fecPwr (o / 0x100)
  else s

/-- `SNP` (R96, R98, R102, R103): `REF` reads the value in use, at most 3,170. -/
def hookSnp (o w : Nat) (old s : State) : State :=
  if o = 0x10 then s.replayWrite w
  else if 0x100 ≤ o ∧ o < 0x300 ∧ o % 0x40 = 0 then s.snapHcfg old ((o - 0x100) / 0x40) w
  else if 0x400 ≤ o ∧ o < 0x600 then
    let c := (o - 0x400) / 0x20
    if o % 0x20 = 0 then s.cluMap c
    else if o % 0x20 = 4 then s.set (SNP_MAPREF_REF c) (min (s.get (SNP_MAPREF_REF c)) 3170)
    else s
  else s

/-- `ITG` (R204, R205, R215). -/
def hookItg (o w : Nat) (old s : State) : State :=
  if o = 0x08 then (s.itgLatchWrite w).attnUpdate
  else if 0x10 ≤ o ∧ o < 0x1C then s.itgTerr
  else if o = 0x0C then (if s.on ITG_CFG_WSURV && !old.on ITG_CFG_WSURV then s.survRestart else s)
  else if o = 0x24 then s.itgMode
  else if o = 0x28 then s.timEval
  else s

/-- `EPT` (R255–R263, R267, R278). -/
def hookEpt (o : Nat) (old s : State) : State :=
  let p := o / 0x1000
  let r := o % 0x1000
  if r = 0x00 then s.eptCfg p (old.get (EPT_CFG_MODE p))
  else if r = 0x30 then s.ptpConfig
  else if r = 0x3C then s.credWrite p (old.get (EPT_FWD_CRED p))
  else if r = 0x800 then s.eptClk (old.get EPT_CLK_TDROLE)
  else if r = 0x810 ∨ r = 0x830 then
    let k := (r - 0x810) / 0x20
    (s.eptDom k (old.get (EPT_DOM_CFG_TYPE k)) (old.get (EPT_DOM_CFG_DOMAIN k))).xTidy
  else if r = 0x814 ∨ r = 0x834 then
    let k := (r - 0x814) / 0x20
    s.eptInt k (old.get (EPT_DOM_INT_LSYNC k)) (old.get (EPT_DOM_INT_LANN k)) (old.get (EPT_DOM_INT_LDREQ k))
      (old.get (EPT_DOM_INT_ARTO k))
  else s

/-- `TEL` (R279, R281, R284, R287, R290, R291). -/
def hookTel (o w : Nat) (old s : State) : State :=
  if 0x20 ≤ o ∧ o < 0x38 then s.winPermit
  else if o = 0x40 then s.telInval w
  else if 0x400 ≤ o ∧ o < 0x1C00 then
    let n := (o - 0x400) / 0x40
    if o % 0x40 = 0 then ((s.telCfg n (old.get (TEL_CFG_MODE n))).telCfgShow n old).lateOpen
    else if o % 0x40 = 0x08 then s.telPtr n
    else s
  else s

/-- `UMB` (R333, R340). -/
def hookUmb (o w : Nat) (s : State) : State :=
  if o = 0x58 then (if bit w 31 then s.umbGo (bit w 30) else s)
  else if o = 0x5C then s.umbCfgw w
  else s

/-- `CLU` (R65, R73, R80, R86, R87). -/
def hookClu (c o w : Nat) (old s : State) : State :=
  if o = 0x00 then s.cluCtl c (old.on (CLU_CTL_CKEN c)) w
  else if o = 0x04 then s.setClu c { s.clu c with gangDue := true }
  else if o = 0x08 then s.cluMap c
  else if o = 0x0C then s.ringReconfigure c
  else if o = 0x14 then s.ringRelease c (old.get (CLU_RING_RP_RP c))
  else if o = 0x18 ∨ o = 0x34 then s.ringLevel c
  else if o = 0x20 then s.ctinv c w
  else if o = 0x28 then s.gangQueue c (w % 4096)
  else s

/-- `ENG` (R68, R73, R81–R84, R88). -/
def hookEng (e o w : Nat) (old s : State) : State :=
  if o = 0x30 then s.engCommit e w
  else if o = 0x34 then s.engQueue e (w % 4096)
  else if o = 0x38 then s.engCtl e w
  else if o = 0x5C then s.migArm e (old.on (ENG_MIG_ARM e)) (old.get (ENG_MIG_FROM e))
  else s

/-- `LDSP` (R161, R163, R165–R167). -/
def hookDsp (d o w : Nat) (old s : State) : State :=
  if o = 0x00 then s.dspCtl d (old.on (LDSP_CTL_SHADOW d)) w
  else if o = 0x28 then s.set (LDSP_IRQ_DBELL d) 1
  else if o = 0x2C then s.set (LDSP_NIRQ_OUTBOX d) 1
  else if o = 0x38 then (if bit w 30 then s.set (LDSP_WDOG_COUNT d) 0 else s)
  else if o = 0x40 then s.dspGroup (d / 4)
  else s

/-- What a register write does beyond its fields. -/
def regHook (addr w : Nat) (eyes : List (Option (Fin 64))) (old s : State) : State :=
  let page := addr / 0x10000
  let o := addr % 0x10000
  if page < 0x5000 then
    match page with
    | 0x4000 => hookSys o w s
    | 0x4002 => hookRtc o w s
    | 0x4003 => hookPll o w old s
    | 0x4004 => hookTim o w old s
    | 0x4005 => hookSlk o eyes old s
    | 0x4006 => hookFec o w s
    | 0x4007 => hookSnp o w old s
    | 0x4008 => hookItg o w old s
    | 0x4010 => hookEpt o old s
    | 0x4020 => hookTel o w old s
    | 0x4030 => hookUmb o w s
    | _ => s
  else if page < 0x5100 then
    let c := (page - 0x5000) / 16
    if page % 16 = 0 then hookClu c o w old s else hookEng (64 * c + o / 0x400) (o % 0x400) w old s
  else hookDsp ((page - 0x6000) / 4) o w old s

/-- A register write that R402 accepts: field by field, then what it sets in motion. One whose writable fields are
all locked changes nothing; the always-on domain takes some at its next tick. -/
def State.regWrite (s : State) (m : Master) (addr w : Nat) (eyes : List (Option (Fin 64))) : State :=
  let fs := regsAt addr
  let locked := s.lockHolds m
  if locked && fs.all fun f => f.2.lockable || f.2 == .ro then s
  else if rtcLateReg addr then s.rtcLater addr w locked
  else
    let t := fs.foldl (fun t f => if locked && f.2.lockable then t else t.fieldWrite f.1 f.2 w) s
    regHook addr w eyes s t

/-! ### The broadcast image (R101) -/

/-- The slots' registers of a ganged cluster written together: every ACQUIRING engine. -/
def State.broadcast (s : State) (m : Master) (c o w : Nat) : State × Bool :=
  let base := 0x50010000 + c * 0x100000
  let ok := (decide (o ≤ 0x30) || (o == 0x38 && !bit w 29 && w % 8 == 0 && (bit w 31 || bit w 30))) && decide (o % 4 = 0)
  if !(s.clu c).gang || !ok || s.writeError m (base + o) w then (s, false)
  else
    (s.eachEng c fun e s => if s.engState e = 2 then s.regWrite m (base + e % 64 * 0x400 + o) w [] else s, true)

/-! ### Memories as masters see them (R21, R145, R400, R401) -/

/-- The octets of an access. -/
def AccSize.bytes : AccSize → Nat
  | .b1 => 1
  | .b2 => 2
  | .b4 => 4

/-- The credit block of a snapshot address is held by an ARMED or CAPTURING handle (R401). -/
def State.creditBusy (s : State) (addr : Nat) : Bool :=
  let b := (addr - 0x70000000) / 0x80000
  (List.range 8).any fun h => (s.get (SNP_HSTAT_STATE h) == 1 || s.get (SNP_HSTAT_STATE h) == 2) && (s.handle h).cred.contains b

/-- A memory's own rule on a write (R145, R401). -/
def State.memWritable (s : State) (k : MemClass) (addr : Nat) : Bool :=
  match k with
  | .snap => !s.creditBusy addr
  | .mram => false
  | .dsp d .p => s.dspState d == 0 || s.dspState d == 3 || s.dspState d == 4
  | _ => true

/-- Whether an access to a memory has a size and alignment it takes: the schedule table takes whole words. -/
def MemClass.takes (k : MemClass) (addr n : Nat) : Bool := addr % n == 0 && (k != .sched || n == 4)

/-- Stores of a loop DSP on their way reach its memories before another master's access (R145). -/
def State.memSettle (s : State) (k : MemClass) : State :=
  match k with
  | .dsp d _ => s.dspStoresLand d
  | _ => s

/-! ### Accesses -/

/-- A read of `n` octets by a master: the value, or a bus error. `sub` is the instant after the epoch boundary. -/
def State.busRead (s : State) (m : Master) (addr n : Nat) (sub : Nat := 0) : State × Option Nat :=
  if !s.busAllowed m addr false then (s, none)
  else
    match memClass addr with
    | some k => if k.takes addr n then (s.memSettle k).memRead k addr n else (s, none)
    | none =>
      if n ≠ 4 ∨ addr % 4 ≠ 0 ∨ regsAt addr = [] then (s, none)
      else
        let r := s.regRead m addr sub
        (r.1, some r.2)

/-- A write of `n` octets by a master; the flag says that it was accepted. A bus error changes nothing but what a
double-bit error records. `eyes` are the eyes that a training finds. -/
def State.busWrite (s : State) (m : Master) (addr n w : Nat) (eyes : List (Option (Fin 64)) := []) : State × Bool :=
  if !s.busAllowed m addr true then (s, false)
  else
    match memClass addr with
    | some k =>
      if k.takes addr n && s.memWritable k addr then (s.memSettle k).memWrite k addr n (w % 2 ^ (8 * n)) else (s, false)
    | none =>
      if n ≠ 4 ∨ addr % 4 ≠ 0 then (s, false)
      else if 0x50000000 ≤ addr ∧ addr < 0x51000000 ∧ addr / 0x10000 % 16 = 2 then
        s.broadcast m ((addr - 0x50000000) / 0x100000) (addr % 0x10000) w
      else if s.writeError m addr w then (s, false)
      else (s.regWrite m addr w eyes, true)

/-- A bus error as its master sees it (R406): the navigation core takes a precise access fault, a loop DSP that executes
fault 0x2; the other masters answer in their own protocols. -/
def State.busError (s : State) (m : Master) (addr : Nat) (write : Bool) : State :=
  match m with
  | .nav => { s with nav := { s.nav with mcause := some (if write then 7 else 5), mtval := addr } }
  | .ldsp d =>
    if s.dspState d.val = 1 ∨ (s.dspState d.val = 3 ∧ (s.dsp d.val).step) then
      s.dspFault d.val 2 addr (s.dsp d.val).pc (s.dsp d.val).pc
    else s
  | _ => s

end Sys2Proof.Machine
end

