-- ==== Sys2Proof/Machine/DspAlu.lean ====
section
/-! DEFINITION. The loop DSP's instructions without the external ones (R147–R158): decoding of the words, operand forms,
flags, and what each instruction does. -/

namespace Sys2Proof.Machine

/-- The instructions of R152. -/
inductive DspOp where
  | nop | mov | add | adds | sub | subs | and | or | xor | neg | abs | min | max | cmp | shl | shr | asr | shlv | asrv
  | mpy | mac | msu | mpyu | ftap | ftaps
  | ld | st
  | ldil | ldih | addi | cmpi
  | clra | adda | suba | nega | absa | sha | shar | xfr | xfw
  | bra | bcc | call | ret | rti | lps | lpr | lpx | wait | trap | sync
  | eld | est | blkx | blky
  | ang | mag | divf
  deriving DecidableEq, Repr

/-! ### Decoding (R152, R153) -/

/-- An operation by number from a list; none beyond it. -/
def pickOp (ops : List DspOp) (n : Nat) : Option DspOp := ops[n]?

/-- The operation a word names by its class and code, its zero fields aside. -/
def dspCode (w : Nat) : Option DspOp :=
  match bits w 31 29 with
  | 0 => pickOp [.nop, .mov, .add, .adds, .sub, .subs, .and, .or, .xor, .neg, .abs, .min, .max, .cmp, .shl, .shr, .asr,
                 .shlv, .asrv] (bits w 28 24)
  | 1 => pickOp [.mpy, .mac, .msu, .mpyu, .ftap, .ftaps] (bits w 28 26)
  | 2 => some (if bit w 28 then .st else .ld)
  | 3 => pickOp [.ldil, .ldih, .addi, .cmpi] (bits w 28 27)
  | 4 => pickOp [.clra, .adda, .suba, .nega, .absa, .sha, .shar, .xfr, .xfw] (bits w 28 25)
  | 5 => pickOp [.bra, .bcc, .call, .ret, .rti, .lps, .lpr, .lpx, .wait, .trap, .sync] (bits w 28 25)
  | 6 => pickOp [.eld, .est, .blkx, .blky] (bits w 28 26)
  | _ => pickOp [.ang, .mag, .divf] (bits w 28 26)

/-- The bits that a word of an operation must have clear (R153). -/
def dspZero (op : DspOp) (w : Nat) : Nat :=
  match op with
  | .mpy | .mac | .msu | .mpyu => 0x0000FFFF
  | .ftap | .ftaps => 0x0000003F
  | .ld | .st =>
    match bits w 17 15 with
    | 0 | 1 | 2 => 0x000040FF
    | 4 => 0x00004000
    | _ => 0x00007FFF
  | .ldil | .ldih | .addi | .cmpi => 0x001F0000
  | .clra | .adda | .suba | .nega | .absa | .sha | .shar | .xfr | .xfw => 0x00000780
  | .bra | .call => 0x01FFC000
  | .bcc => 0x001FC000
  | .ret | .rti | .wait | .sync => 0x01FFFFFF
  | .lps => 0
  | .lpr => 0x0007E000
  | .lpx => 0x007FFFFF
  | .trap => 0x01FFFF00
  | .eld | .est => 0x0003F003
  | .blkx | .blky => 0x02000003
  | .ang | .mag | .divf => 0x03000FFF
  | _ => 0x00000FE0

/-- Codes inside an operation that are reserved: the modes of R151, the register numbers of class I, the conditions of
`Bcc`, a loop body of no length. -/
def dspReserved (op : DspOp) (w : Nat) : Bool :=
  match op with
  | .ld | .st => decide (6 ≤ bits w 17 15)
  | .ldil | .ldih | .addi => decide (0x28 ≤ bits w 26 21)
  | .cmpi => decide (0x10 ≤ bits w 26 21)
  | .bcc => decide (12 ≤ bits w 24 21)
  | .lps | .lpr => bits w 12 0 == 0
  | _ => false

/-- The instruction a word encodes; none raises fault 0x1. -/
def dspDecode (w : Nat) : Option DspOp :=
  match dspCode w with
  | none => none
  | some op => if (w &&& dspZero op w) = 0 ∧ !dspReserved op w then some op else none

/-- Instructions that must not stand in a delay slot (R157). -/
def DspOp.notInSlot : DspOp → Bool
  | .bra | .bcc | .call | .ret | .rti | .lps | .lpr | .wait | .trap => true
  | _ => false

/-! ### Results -/

/-- Where execution goes after an instruction: on, on after a delay slot, to a target after a delay slot, to a target at
once, into WAIT. -/
inductive Flow where
  | next | slot | branch (t : Nat) | jump (t : Nat) | wait

/-- What an instruction does: a state, where execution goes and the cycles taken; or a fault with its cause and
address. -/
inductive DspRes where
  | ok (s : State) (f : Flow) (cycles : Nat)
  | fault (s : State) (code addr : Nat)

/-- A DSP record put back, execution going on. -/
def State.dspOk (s : State) (d : Nat) (x : DspSt) : DspRes := .ok (s.setDsp d x) .next 1

/-! ### Class A (R147, R152) -/

/-- A 32-bit result with its flags; V and C where the spec states none are free. -/
structure AluOut where
  val : Nat
  v   : Option Bool := none
  c   : Option Bool := none
  lim : Bool := false

/-- The sum of two words with carry and overflow. -/
def aluAdd (a b : Nat) : AluOut :=
  let r := (a + b) % 2 ^ 32
  { val := r, v := some (sgn 32 a + sgn 32 b != sgn 32 r), c := some (decide (2 ^ 32 ≤ a + b)) }

/-- The difference of two words with overflow; how C stands after a subtraction is not stated. -/
def aluSub (a b : Nat) : AluOut :=
  let r := uns 32 (sgn 32 a - sgn 32 b)
  { val := r, v := some (sgn 32 a - sgn 32 b != sgn 32 r) }

/-- A result limited to 32 bits where `SATM` is set. -/
def aluSat (satm : Bool) (exact : Int) (r : AluOut) : AluOut :=
  if satm && exact != satI 32 exact then { r with val := uns 32 (satI 32 exact), lim := true } else r

/-- The operations of class A that write a result. -/
def aluOp (op : DspOp) (satm : Bool) (a b sh : Nat) : AluOut :=
  match op with
  | .add => aluAdd a b
  | .adds => aluSat satm (sgn 32 a + sgn 32 b) (aluAdd a b)
  | .sub | .cmp => aluSub a b
  | .subs => aluSat satm (sgn 32 a - sgn 32 b) (aluSub a b)
  | .and => { val := a &&& b }
  | .or => { val := a ||| b }
  | .xor => { val := a ^^^ b }
  | .neg => aluSub 0 a
  | .abs => { val := (sgn 32 a).natAbs, v := some (a == 2 ^ 31) }
  | .min => { val := if sgn 32 a ≤ sgn 32 b then a else b }
  | .max => { val := if sgn 32 a ≤ sgn 32 b then b else a }
  | .shl => { val := a * 2 ^ sh % 2 ^ 32 }
  | .shr => { val := a / 2 ^ sh }
  | .asr => { val := uns 32 (sgn 32 a / (2 ^ sh : Nat)) }
  | .shlv => { val := a * 2 ^ (b % 64) % 2 ^ 32 }
  | .asrv => { val := uns 32 (sgn 32 a / (2 ^ (b % 64) : Nat)) }
  | _ => { val := a }

/-- A free flag, or the one stated. -/
def State.flagOr (s : State) (f : Option Bool) : State × Bool :=
  match f with
  | some b => (s, b)
  | none =>
    let (s, k) := s.draw 2
    (s, k == 1)

/-- Flags of a result: N and Z of it, V and C stated or free. -/
def State.dspFlags (s : State) (d : Nat) (n z : Bool) (v c : Option Bool) : State :=
  let (s, v) := s.flagOr v
  let (s, c) := s.flagOr c
  s.setDsp d ((s.dsp d).setFlags n z v c)

/-- A class A operation other than `NOP` and `MOV`. The absolute value of the most negative number is not stated: it is
free. -/
def dspAlu (op : DspOp) (d w : Nat) (s : State) : DspRes :=
  let x := s.dsp d
  let a := x.reg (bits w 19 16)
  let r := aluOp op (bit x.srSeen 22) a (x.reg (bits w 15 12)) (bits w 4 0)
  let (s, val) := if op = .abs ∧ a = 2 ^ 31 then s.draw (2 ^ 32) else (s, r.val)
  let x := if r.lim then x.sticky 0x80000 else x
  let x := if op = .cmp then x else x.write (bits w 23 20) val
  .ok ((s.setDsp d x).dspFlags d (bit val 31) (val == 0) r.v r.c) .next 1

/-- `MOV` -/
def dspMovOp (d w : Nat) (s : State) : DspRes :=
  let x := s.dsp d
  s.dspOk d (x.write (bits w 23 20) (x.reg (bits w 19 16)))

/-- `NOP` -/
def dspNopOp (_ _ : Nat) (s : State) : DspRes := .ok s .next 1

/-! ### Addressing and memory (R151) -/

/-- A pointer value wrapped by its circular buffer. -/
def wrapPtr (wreg : Nat) (v : Int) : Nat :=
  let wl := bits wreg 13 0
  let wb : Int := bits wreg 29 16
  if wl = 0 then uns 16 v else uns 16 (wb + (v - wb) % wl)

/-- A pointer, step or buffer register as address generation sees it. -/
def DspSt.ptr (x : DspSt) (n : Nat) : Nat := x.seen (.addr n) (x.reg n)

/-- A pointer updated by addressing: later addresses see it at once. -/
def DspSt.setPtr (x : DspSt) (p v : Nat) : DspSt :=
  let n := 0x10 + p
  let x := x.dropLand (.reg n) 0
  { (x.setReg n v) with stale := x.stale.filter fun e => !decide (e.view = .addr n) }

/-- The address of a load or store and the DSP with its pointer updated (R151). -/
def DspSt.address (x : DspSt) (w : Nat) : Nat × DspSt :=
  let n := bits w 20 18
  let p : Int := x.ptr (0x10 + n)
  let k := sgn 16 (x.ptr (0x18 + n))
  let wr := x.ptr (0x20 + n)
  let dsp := sgn 6 (bits w 13 8)
  match bits w 17 15 with
  | 0 => (uns 16 (p + dsp), x)
  | 1 => (uns 16 p, x.setPtr n (wrapPtr wr (p + dsp)))
  | 2 => (wrapPtr wr (p + dsp), x.setPtr n (wrapPtr wr (p + dsp)))
  | 3 => (uns 16 p, x.setPtr n (wrapPtr wr (p + k)))
  | 4 => (bits w 13 0, x)
  | _ => (uns 16 (p + k), x)

/-- A word of X or Y as a load reads it (R156); none on a double-bit error. -/
def State.dspLoad (s : State) (d : Nat) (sp : DspSpace) (a : Nat) : State × Option Nat :=
  let r := s.memRead (.dsp d sp) (dspWord d sp a) 4
  (r.1, r.2.map ((s.dsp d).seen (.mem sp a)))

/-- `LD` -/
def dspLdOp (d w : Nat) (s : State) : DspRes :=
  let sp := if bit w 27 then DspSpace.y else .x
  let n := bits w 26 21
  let (a, x) := (s.dsp d).address w
  if n = 0x2E then .fault s 1 0
  else if 0x4000 ≤ a then .fault s 3 a
  else
    match s.dspLoad d sp a with
    | (s, none) => .fault s 5 a
    | (s, some v) => s.dspOk d (x.writeLater n v 2)

/-- A store on its way to X or Y. -/
def DspSt.storeLater (x : DspSt) (sp : DspSpace) (a v : Nat) : DspSt :=
  let dest := if sp = .y then Dest.y a else .x a
  { x with land := x.land ++ [{ at_ := x.icnt + 2, dest := dest, val := v % 2 ^ 32 }] }

/-- A scaled read that limited a value sets `LV` (R150). -/
def DspSt.limited (x : DspSt) (lim : Bool) : DspSt := if lim then x.sticky 0x80000 else x

/-- `ST` -/
def dspStOp (d w : Nat) (s : State) : DspRes :=
  let sp := if bit w 27 then DspSpace.y else .x
  let x := s.dsp d
  let (v, lim) := x.read (s.get (LDSP_CYC_COUNT d)) (bits w 26 21)
  let (a, x) := x.address w
  if 0x4000 ≤ a then .fault s 3 a else s.dspOk d ((x.limited lim).storeLater sp a v)

/-! ### Class M (R148, R154) -/

/-- An accumulator written by class M or X (R156). -/
def DspSt.writeAcc (x : DspSt) (k v : Nat) : DspSt :=
  let x := x.landFor (0x30 + k)
  (x.keep (.acc k) (x.acc k) 2).setAcc k v

/-- The product of two data registers, signed or not. -/
def DspSt.product (x : DspSt) (w : Nat) (signed : Bool) : Int :=
  let a := x.reg (bits w 23 20)
  let b := x.reg (bits w 19 16)
  if signed then sgn 32 a * sgn 32 b else ((a * b : Nat) : Int)

/-- The 72 bits that `MPY`, `MPYU`, `MAC`, `MSU` and the taps leave: the unsigned product is extended by zeros into G. -/
def DspSt.mulAcc (x : DspSt) (op : DspOp) (w : Nat) : Nat :=
  let k := sgn 72 (x.acc (bits w 25 24))
  match op with
  | .mpy => uns 72 (x.product w true)
  | .mpyu => uns 72 (x.product w false)
  | .mac | .ftap => uns 72 (k + x.product w true)
  | _ => uns 72 (k - x.product w true)

/-- `MPY`, `MAC`, `MSU`, `MPYU` -/
def dspMulOp (op : DspOp) (d w : Nat) (s : State) : DspRes :=
  let x := s.dsp d
  s.dspOk d (x.writeAcc (bits w 25 24) (x.mulAcc op w))

/-- A pointer updated by an `UPD` code (R151). -/
def DspSt.upd (x : DspSt) (p code : Nat) : DspSt :=
  let v : Int := x.ptr (0x10 + p)
  let k := sgn 16 (x.ptr (0x18 + p))
  let wr := x.ptr (0x20 + p)
  match code with
  | 0 => x
  | 1 => x.setPtr p (wrapPtr wr (v + 1))
  | 2 => x.setPtr p (wrapPtr wr (v + k))
  | _ => x.setPtr p (wrapPtr wr (v - k))

/-- `FTAP`, `FTAPS` (R154) -/
def dspTapOp (op : DspOp) (d w : Nat) (s : State) : DspRes :=
  let x := s.dsp d
  let pa := bits w 15 13
  let pb := bits w 10 8
  let a := x.ptr (0x10 + pa)
  let b := x.ptr (0x10 + pb)
  if 0x4000 ≤ a then .fault s 3 a
  else if 0x4000 ≤ b then .fault s 3 b
  else
    match s.dspLoad d .x a with
    | (s, none) => .fault s 5 a
    | (s, some va) =>
      match s.dspLoad d .y b with
      | (s, none) => .fault s 5 b
      | (s, some vb) =>
        let x := x.writeAcc (bits w 25 24) (x.mulAcc op w)
        let x := (x.writeLater (bits w 23 20) va 2).writeLater (bits w 19 16) vb 2
        s.dspOk d ((x.upd pa (bits w 12 11)).upd pb (bits w 7 6))

/-! ### Class I -/

/-- `LDIL`, `LDIH`, `ADDI` -/
def dspImmOp (op : DspOp) (d w : Nat) (s : State) : DspRes :=
  let x := s.dsp d
  let n := bits w 26 21
  let cur := (x.read 0 n).1
  let imm := bits w 15 0
  let v := match op with
    | .ldil => imm
    | .ldih => imm * 2 ^ 16 + cur % 2 ^ 16
    | _ => uns 32 (sgn 32 cur + sgn 16 imm)
  s.dspOk d (x.write n v)

/-- `CMPI`: the immediate is signed, as `ADDI`'s. -/
def dspCmpiOp (d w : Nat) (s : State) : DspRes :=
  let r := aluSub ((s.dsp d).reg (bits w 26 21)) (uns 32 (sgn 16 (bits w 15 0)))
  .ok (s.dspFlags d (bit r.val 31) (r.val == 0) r.v r.c) .next 1

/-! ### Class X (R147, R149) -/

/-- The exact result of an accumulator operation, for an accumulator as its destination sees it (`a`), as other reads
see it (`old`), and for the second one (`b`). -/
def accOp (op : DspOp) (a old b sh : Int) : Int :=
  match op with
  | .clra => 0
  | .adda => a + b
  | .suba => a - b
  | .nega => -old
  | .absa => old.natAbs
  | .shar => if sh < 0 then shiftI (a + 2 ^ (-sh - 1).toNat) sh else shiftI a sh
  | _ => shiftI a sh

/-- `CLRA` to `SHAR`. The absolute value of the most negative accumulator is not stated: it is free. -/
def dspAccOp (op : DspOp) (d w : Nat) (s : State) : DspRes :=
  let x := s.dsp d
  let k := bits w 24 23
  let j := bits w 22 21
  let old := x.seen (.acc k) (x.acc k)
  let v := accOp op (sgn 72 (x.acc k)) (sgn 72 old) (sgn 72 (x.seen (.acc j) (x.acc j))) (sgn 7 (bits w 6 0))
  let (s, r) := if op = .absa ∧ old = 2 ^ 71 then s.draw (2 ^ 72) else (s, uns 72 v)
  let s := s.setDsp d (x.writeAcc k r)
  .ok (s.dspFlags d (bit r 71) (r == 0) (some (v != sgn 72 (uns 72 v))) none) .next 1

/-- `XFR` -/
def dspXfrOp (d w : Nat) (s : State) : DspRes :=
  let x := s.dsp d
  let (v, lim) := x.read (s.get (LDSP_CYC_COUNT d)) (bits w 20 15)
  s.dspOk d ((x.limited lim).write (bits w 14 11) v)

/-- `XFW` -/
def dspXfwOp (d w : Nat) (s : State) : DspRes :=
  let x := s.dsp d
  let n := bits w 20 15
  if n = 0x2E then .fault s 1 0 else s.dspOk d (x.write n (x.reg (bits w 14 11)))

/-! ### Class B (R157, R158, R160) -/

/-- A condition of `Bcc` on the flags N, Z, V, C. -/
def condHolds (cond sr : Nat) : Bool :=
  let n := bit sr 3
  let z := bit sr 2
  let v := bit sr 1
  let c := bit sr 0
  match cond with
  | 0 => z
  | 1 => !z
  | 2 => n != v
  | 3 => n == v
  | 4 => !z && n == v
  | 5 => z || n != v
  | 6 => n
  | 7 => !n
  | 8 => v
  | 9 => !v
  | 10 => c
  | _ => !c

/-- `BRA` -/
def dspBraOp (_ w : Nat) (s : State) : DspRes := .ok s (.branch (bits w 13 0)) 1

/-- `Bcc`: its delay slot follows whether it is taken or not (R157). -/
def dspBccOp (d w : Nat) (s : State) : DspRes :=
  let x := s.dsp d
  .ok s (if condHolds (bits w 24 21) (x.seen .flags x.sr) then .branch (bits w 13 0) else .slot) 1

/-- `CALL`: the return address is that of the instruction after the delay slot. -/
def dspCallOp (d w : Nat) (s : State) : DspRes :=
  let x := s.dsp d
  .ok (s.setDsp d (x.write 0x0F (x.pc + 2))) (.branch (bits w 13 0)) 1

/-- `RET` -/
def dspRetOp (d _ : Nat) (s : State) : DspRes := .ok s (.branch (bits ((s.dsp d).reg 0x0F) 13 0)) 1

/-- `RTI`: `SR` takes what was saved, its zero bits staying so (R147), at once for its readers; the handler's results stay on
their way (R156, R161; log entry 25). -/
def dspRtiOp (d _ : Nat) (s : State) : DspRes :=
  let x := (s.dsp d).landFor 0x28
  let y := if bit x.sr 30 then x.swapBack else x
  let stale := y.stale.filter fun e => !(decide (e.view = .sr) || decide (e.view = .flags))
  .ok (s.setDsp d { y with sr := x.isr &&& 0xAFCC000F, stale := stale }) (.jump x.ipc) 3

/-- The contexts as the loop hardware sees them (R156). -/
def DspSt.hwLoops (x : DspSt) : Tbl LoopCtx := x.loops

/-- What the loop hardware makes of a context; writes of its registers on their way stay so. -/
def DspSt.setCtx (x : DspSt) (k : Nat) (c : LoopCtx) : DspSt := { x with loops := tblPut x.loops {} k c }

/-- A context armed or disarmed by an instruction: earlier writes of `HSTAT` on their way do not undo it. -/
def DspSt.markCtx (x : DspSt) (k : Nat) (on : Bool) : DspSt :=
  { x with loopWr := x.loopWr.map fun w =>
      if w.reg = 0x2F ∧ bit w.val (4 + k) ≠ on then { w with val := w.val ^^^ 2 ^ (4 + k) } else w }

/-- A context armed: earlier writes of its own registers on their way are overtaken. -/
def DspSt.arm (x : DspSt) (k : Nat) (c : LoopCtx) : DspSt :=
  let y := (x.setCtx k c).markCtx k true
  { y with loopWr := y.loopWr.filter fun w => w.reg == 0x2F || w.ctx != k }

/-- `LPS` and `LPR`: a count of 0 arms nothing, and execution goes on after the body. -/
def dspLoopOp (d w count : Nat) (s : State) : DspRes :=
  let x := s.dsp d
  let k := bits w 24 23
  let he := (x.pc + bits w 12 0) % 2 ^ 14
  if (tblGet x.hwLoops {} k).armed then .fault s 4 0
  else if count = 0 then .ok s (.jump (he + 1)) 1
  else s.dspOk d (x.arm k { armed := true, hc := count, hs := (x.pc + 1) % 2 ^ 14, he := he })

/-- `LPS` -/
def dspLpsOp (d w : Nat) (s : State) : DspRes := dspLoopOp d w (bits w 22 13) s

/-- `LPR` -/
def dspLprOp (d w : Nat) (s : State) : DspRes := dspLoopOp d w (bits ((s.dsp d).reg (bits w 22 19)) 15 0) s

/-- `LPX` -/
def dspLpxOp (d w : Nat) (s : State) : DspRes :=
  let x := s.dsp d
  let k := bits w 24 23
  let c := tblGet x.hwLoops {} k
  if c.armed then s.dspOk d ((x.setCtx k { c with armed := false }).markCtx k false) else .fault s 4 0

/-- `WAIT` -/
def dspWaitOp (_ _ : Nat) (s : State) : DspRes := .ok s .wait 1

/-- `TRAP` -/
def dspTrapOp (_ _ : Nat) (s : State) : DspRes := .fault s 7 0

/-! ### Class S (R155) -/

/-- A result of the special unit on its way (R155, R156); a second operation stalls until the unit is free (R152). -/
def State.dspSpecial (s : State) (d dd v lat : Nat) : DspRes :=
  let x := s.dsp d
  .ok (s.setDsp d { x.writeLater dd v lat with special := x.special + lat }) .next (1 + x.special)

/-- `ANG`: within 2^-20 cycle of atan2(`Dy`, `Dx`), the error free. -/
def dspAngOp (d w : Nat) (s : State) : DspRes :=
  let x := s.dsp d
  let y := sgn 32 (x.reg (bits w 19 16))
  let c := sgn 32 (x.reg (bits w 15 12))
  if y = 0 ∧ c = 0 then s.dspSpecial d (bits w 23 20) 0 6
  else
    let (s, e) := s.draw 8191
    s.dspSpecial d (bits w 23 20) (uns 32 (angle48 y c / 2 ^ 16 + (e : Int) - 4095)) 6

/-- `MAG`: an integer within 1 of √(`Dy`² + `Dx`²), the error free. -/
def dspMagOp (d w : Nat) (s : State) : DspRes :=
  let x := s.dsp d
  let y := sgn 32 (x.reg (bits w 19 16))
  let c := sgn 32 (x.reg (bits w 15 12))
  let q := (y * y + c * c).toNat
  let r := isqrt q
  let lo := if r * r = q then r - 1 else r
  let (s, e) := s.draw (r + 2 - lo)
  s.dspSpecial d (bits w 23 20) (lo + e) 6

/-- `DIVF`: an integer within 1 of `Dn` × 2^31 / `Dm`, the error free; limited to 32 bits with `LV`, and with `DZ` by
zero. -/
def dspDivfOp (d w : Nat) (s : State) : DspRes :=
  let x := s.dsp d
  let a := sgn 32 (x.reg (bits w 19 16))
  let b := sgn 32 (x.reg (bits w 15 12))
  let limit := fun neg : Bool => if neg then 0x80000000 else 0x7FFFFFFF
  if b = 0 then
    (s.setDsp d (x.sticky 0x40000)).dspSpecial d (bits w 23 20) (limit (decide (a < 0))) 16
  else
    let num := if b < 0 then -(a * 2 ^ 31) else a * 2 ^ 31
    let den := b.natAbs
    if 2 ^ 31 * (den : Int) - den < num ∨ num < -(2 ^ 31) * (den : Int) then
      (s.setDsp d (x.sticky 0x80000)).dspSpecial d (bits w 23 20) (limit (decide (num < 0))) 16
    else
      let q := num / (den : Int)
      let lo := if num % (den : Int) = 0 then q - 1 else q
      let hi := q + 1
      let (s, e) := s.draw (hi - lo + 1).toNat
      s.dspSpecial d (bits w 23 20) (uns 32 (satI 32 (lo + e))) 16

end Sys2Proof.Machine
end

