-- ==== Sys2Proof/Machine/DspExt.lean ====
section
/-! DEFINITION. The loop DSP's external instructions (R141–R144), the issue of one instruction (R157, R158, R164), and a
bus write with the single step it can ask for (R165). -/

namespace Sys2Proof.Machine

/-! ### Block copies (R143, R144) -/

/-- Cycles from issue to the value of a load, by window (R141). -/
def eldLatency (addr : Nat) : Nat :=
  if addr < 0x50000000 then 20
  else if addr < 0x60000000 then 14
  else if addr < 0x70000000 then 6
  else if addr < 0x90000000 then 44
  else 60

/-- The word address in E space of a class E instruction. -/
def DspSt.eAddr (x : DspSt) (w : Nat) : Nat := (x.reg (bits w 21 18) + bits w 11 0) % 2 ^ 32

/-- One word of a block copy lands, or its source answers with a bus error and the copy ends. -/
def State.blkTake (d : Fin 16) (b : BlkSt) : State × Option Nat → State
  | (s, none) =>
    let x := s.dsp d.val
    s.setDsp d.val { x with refused := x.refused ++ [(b.pc, b.src)], blk := none }
  | (s, some v) =>
    let sp := if b.toY then DspSpace.y else .x
    let s := (s.memWrite (.dsp d.val sp) (dspWord d.val sp b.dst) 4 v).1
    let n := b.left - 1
    let b' : BlkSt := { b with dst := b.dst + 1, src := (b.src + 4) % 2 ^ 32, left := n, wait := b.gap }
    s.setDsp d.val { s.dsp d.val with blk := if n = 0 then none else some b' }

/-- One word of a block copy: read over the bus, and put in its place. -/
def State.blkWord (s : State) (d : Fin 16) (b : BlkSt) : State := State.blkTake d b (s.busRead (.ldsp d) b.src 4)

/-- `n` cycles of the copy under way; `fuel` bounds the words. -/
def State.blkRun (s : State) (d : Fin 16) : Nat → Nat → State
  | 0, _ => s
  | fuel + 1, n =>
    match (s.dsp d.val).blk with
    | none => s
    | some b =>
      if n < b.wait then s.setDsp d.val { s.dsp d.val with blk := some { b with wait := b.wait - n } }
      else (s.blkWord d b).blkRun d fuel (n - b.wait)

/-- Cycles until the copy under way ends. -/
def DspSt.blkLeft (x : DspSt) : Nat :=
  match x.blk with
  | none => 0
  | some b => b.wait + (b.left - 1) * b.gap

/-- The copy under way ends: its remaining words land. -/
def State.blkDone (s : State) (d : Fin 16) : State := s.blkRun d 64 (s.dsp d.val).blkLeft

/-! ### The store queue (R142, R144) -/

/-- A posted store reaches its target, or is answered with a bus error. -/
def State.stqPut (s : State) (d : Fin 16) (p : PostSt) : State :=
  let r := s.busWrite (.ldsp d) p.addr 4 p.val
  if r.2 then r.1 else r.1.setDsp d.val { r.1.dsp d.val with refused := (r.1.dsp d.val).refused ++ [(p.pc, p.addr)] }

/-- How many of the stores have reached their targets: the last one that is due and all before it, in program order. -/
def stqDue (q : List PostSt) : Nat := q.length - (q.reverse.takeWhile fun p => decide (0 < p.left)).length

/-- `n` cycles of the store queue. -/
def State.stqRun (s : State) (d : Fin 16) (n : Nat) : State :=
  let x := s.dsp d.val
  let q := x.stq.map fun p => { p with left := p.left - n }
  (q.take (stqDue q)).foldl (fun s p => s.stqPut d p) (s.setDsp d.val { x with stq := q.drop (stqDue q) })

/-- Cycles until the store queue is empty. -/
def DspSt.stqLeft (x : DspSt) : Nat :=
  match x.stq.getLast? with
  | none => 0
  | some p => p.left

/-- Cycles until the store queue has room. -/
def DspSt.stqRoom (x : DspSt) : Nat := if x.stq.length < 4 then 0 else x.stq.foldl (fun m p => min m p.left) x.stqLeft

/-- Every posted store reaches its target. -/
def State.stqDone (s : State) (d : Fin 16) : State := s.stqRun d (s.dsp d.val).stqLeft

/-- `n` cycles of what goes on beside the instructions: posted stores and the block copy. -/
def State.dspBeside (s : State) (d : Fin 16) (n : Nat) : State := (s.stqRun d n).blkRun d 64 n

/-- A stall of `n` cycles. -/
def State.dspStall (s : State) (d : Fin 16) (n : Nat) : State := (s.dspCycles d.val n).dspBeside d n

/-- All posted stores of all DSPs reach their targets. -/
def State.dspFlush (s : State) : State := s.each 16 fun d s => s.stqDone (Fin.ofNat 16 d)

/-- A DSP that neither runs nor waits has completed its posted stores (R165, R166). -/
def State.dspSettle (s : State) (d : Fin 16) : State :=
  if s.dspState d.val = 1 ∨ s.dspState d.val = 2 then s else s.stqDone d

/-! ### Class E and `SYNC` -/

/-- `ELD`: refused at issue outside the windows; the DSP stalls until the value returns. -/
def dspEldOp (d : Fin 16) (w : Nat) (s : State) : DspRes :=
  let a := (s.dsp d.val).eAddr w
  if !dspWindow d.val a false then .fault s 2 a
  else
    match s.busRead (.ldsp d) a 4 with
    | (s, none) => .fault s 2 a
    | (s, some v) => .ok (s.setDsp d.val ((s.dsp d.val).write (bits w 25 22) v)) .next (eldLatency a)

/-- Cycles in which a store reaches its target: an engine's register within the 16 cluster clocks of R111, and a free
number elsewhere (log 25). -/
def State.postTime (s : State) (addr : Nat) : State × Nat :=
  s.draw (if 0x50000000 ≤ addr && addr < 0x51000000 then 12 else 2 ^ 32)

/-- `EST`: refused at issue outside the windows; else posted to the queue (R142). An error of the target is answered
later (R144). -/
def dspEstOp (d : Fin 16) (w : Nat) (s : State) : DspRes :=
  let x := s.dsp d.val
  let a := x.eAddr w
  if !dspWindow d.val a true then .fault s 2 a
  else
    let (s, n) := s.postTime a
    let p : PostSt := { addr := a, val := x.reg (bits w 25 22), pc := x.pc, left := n }
    .ok (s.setDsp d.val { x with stq := x.stq ++ [p] }) .next 1

/-- `BLKX` and `BLKY` -/
def dspBlkOp (toY : Bool) (d : Fin 16) (w : Nat) (s : State) : DspRes :=
  let x := s.dsp d.val
  let a := x.eAddr w
  let n := bits w 17 12 + 1
  let dst := x.ptr (0x10 + bits w 24 22)
  match (List.range n).find? fun i => !dspWindow d.val ((a + 4 * i) % 2 ^ 32) false with
  | some i => .fault s 2 ((a + 4 * i) % 2 ^ 32)
  | none =>
    if 0x4000 < dst + n then .fault s 3 (max dst 0x4000)
    else
      let own := 0x50000000 ≤ a && a < 0x51000000
      let b : BlkSt := { toY := toY, dst := dst, src := a, left := n, wait := eldLatency a, gap := if own then 1 else 4,
                         pc := x.pc }
      .ok (s.setDsp d.val { x with blk := some b }) .next 1

/-- `SYNC`: its stall has ended before. -/
def dspSyncOp (_ : Fin 16) (_ : Nat) (s : State) : DspRes := .ok s .next 1

/-- Operations of E space, before which a waiting refusal is taken (R144); `SYNC` waits for it. -/
def DspOp.external : DspOp → Bool
  | .eld | .est | .blkx | .blky | .sync => true
  | _ => false

/-- The cycles for which an operation of E space stalls before it issues (R142, R143): `ELD` until every earlier store
has completed, `EST` until the queue has room, a block copy until the one before has ended, `SYNC` until neither is
left. -/
def DspSt.holdTime (x : DspSt) : DspOp → Nat
  | .eld => x.stqLeft
  | .est => x.stqRoom
  | .blkx | .blky => x.blkLeft
  | .sync => max x.stqLeft x.blkLeft
  | _ => 0

/-- The stall of an operation before it issues. -/
def State.dspHold (s : State) (d : Fin 16) (op : DspOp) : State :=
  if op.external then s.dspStall d ((s.dsp d.val).holdTime op) else s

/-- A target's refusal of a posted store or of a block copy is taken (R144): fault 0x2 names the instruction and
the address; `IPC` is the first instruction not completed. -/
def State.dspRefused (s : State) (d : Nat) : State :=
  let x := s.dsp d
  match x.refused with
  | [] => s
  | (pc, a) :: rest => (s.setDsp d { x with refused := rest }).dspFault d 2 a pc x.pc

/-- A target's refusal reaches a DSP that runs or waits; a delay slot is completed first (R144, R160). -/
def State.dspPosted (s : State) (d : Fin 16) : State :=
  let st := s.dspState d.val
  if (st == 1 || st == 2) && s.dspClock d.val && (s.dsp d.val).slot.isNone then
    ((s.stqDone d).dspRefused d.val).dspSettle d
  else s

/-- An interrupt is entered: in RUN or WAIT under the group's clock, with `IE` set, outside the shadow bank, after a delay
slot and a special operation, when a source is pending (R159–R162, R166). -/
def State.dspInterrupt (s : State) (d : Fin 16) : State :=
  let x := s.dsp d.val
  let st := s.dspState d.val
  if (st == 1 || st == 2) && s.dspClock d.val && bit x.srSeen 31 && !bit x.sr 30 && x.slot.isNone then
    match s.dspVector d.val with
    | some v => (s.dspEnterHandler d.val x.pc v false).dspStall d (8 + x.special)
    | none => s
  else s

/-! ### Issue (R152–R158, R164) -/

/-- What the instructions of R152 do, by operation. -/
def dspAct (op : DspOp) (d : Fin 16) (w : Nat) (s : State) : DspRes :=
  match op with
  | .nop => dspNopOp d.val w s
  | .mov => dspMovOp d.val w s
  | .mpy | .mac | .msu | .mpyu => dspMulOp op d.val w s
  | .ftap | .ftaps => dspTapOp op d.val w s
  | .ld => dspLdOp d.val w s
  | .st => dspStOp d.val w s
  | .ldil | .ldih | .addi => dspImmOp op d.val w s
  | .cmpi => dspCmpiOp d.val w s
  | .clra | .adda | .suba | .nega | .absa | .sha | .shar => dspAccOp op d.val w s
  | .xfr => dspXfrOp d.val w s
  | .xfw => dspXfwOp d.val w s
  | .bra => dspBraOp d.val w s
  | .bcc => dspBccOp d.val w s
  | .call => dspCallOp d.val w s
  | .ret => dspRetOp d.val w s
  | .rti => dspRtiOp d.val w s
  | .lps => dspLpsOp d.val w s
  | .lpr => dspLprOp d.val w s
  | .lpx => dspLpxOp d.val w s
  | .wait => dspWaitOp d.val w s
  | .trap => dspTrapOp d.val w s
  | .sync => dspSyncOp d w s
  | .eld => dspEldOp d w s
  | .est => dspEstOp d w s
  | .blkx => dspBlkOp false d w s
  | .blky => dspBlkOp true d w s
  | .ang => dspAngOp d.val w s
  | .mag => dspMagOp d.val w s
  | .divf => dspDivfOp d.val w s
  | _ => dspAlu op d.val w s

/-- The highest-numbered armed context whose body ends at an address, as the loop hardware sees it (R158). -/
def DspSt.loopEnd (x : DspSt) (pc : Nat) : Option Nat :=
  [3, 2, 1, 0].find? fun k => (tblGet x.hwLoops {} k).armed && (tblGet x.hwLoops {} k).he == pc

/-- The loop-end decision (R158): the context counts down and execution returns to its start, or it is disarmed. -/
def DspSt.loopStep (x : DspSt) (pc : Nat) : DspSt × Option Nat :=
  match x.loopEnd pc with
  | none => (x, none)
  | some k =>
    let c := tblGet x.hwLoops {} k
    if 1 < c.hc then (x.setCtx k { c with hc := c.hc - 1 }, some c.hs) else (x.setCtx k { c with armed := false }, none)

/-- A single step ends in HALT, unless the instruction led to FAULTHALT (R165). -/
def State.stepEnd (s : State) (d : Fin 16) : State :=
  let x := s.dsp d.val
  (if x.step then s.setDsp d.val { x with step := false } else s).dspSettle d

/-- Where an instruction leaves the DSP (R157, R158): the target of an earlier branch after its delay slot, the start of
a loop body, its own target, or the next word. -/
def State.dspAfter (s : State) (d : Fin 16) (pc : Nat) (slot back : Option Nat) (f : Flow) (n : Nat) : State :=
  let x := s.dsp d.val
  let on := match slot with
    | some t => t
    | none => back.getD (pc + 1)
  let (dest, br) : Nat × Option Nat := match f with
    | .next | .wait => (on, none)
    | .slot => (on, some (on + 1))
    | .branch t => (on, some t)
    | .jump t => (t, none)
  let wait := match f with
    | .wait => true
    | _ => false
  let s := s.setDsp d.val { x with pc := dest, slot := br, icnt := x.icnt + 1, inWait := wait }
  let s := s.dspStall d n
  if wait && s.dspState d.val == 1 then (s.stqDone d).dspEnter d.val 2 else s

/-- One instruction of an operation (R152): it issues in RUN, or as the single step of HALT, when its word stands at
the PC. Another instruction there leaves everything as it is. An operation of E space that follows a refusal gives way
to fault 0x2, but in a delay slot it completes first (R144, R160). -/
def State.dspIssue (s : State) (d : Fin 16) (op : DspOp) : State :=
  let x := s.dsp d.val
  let st := s.dspState d.val
  if !((st == 1 || (st == 3 && x.step)) && s.dspClock d.val) then s
  else if 0x4000 ≤ x.pc then (s.dspFault d.val 8 0 x.pc x.pc).stepEnd d
  else
    match s.memRead (.dsp d.val .p) (dspWord d.val .p x.pc) 4 with
    | (t, none) => (t.dspFault d.val 5 x.pc x.pc x.pc).stepEnd d
    | (t, some w) =>
      match dspDecode w with
      | none => (t.dspFault d.val 1 0 x.pc x.pc).stepEnd d
      | some o =>
        if o ≠ op then s
        else if op.external && x.slot.isNone && !((t.dspHold d op).dsp d.val).refused.isEmpty then
          ((t.dspHold d op).dspRefused d.val).stepEnd d
        else if op.notInSlot && x.slot.isSome then (t.dspFault d.val 1 0 x.pc x.pc).stepEnd d
        else
          let t := (t.dspHold d op).dspLand d.val
          let y := t.dsp d.val
          let l := y.loopStep x.pc
          match dspAct op d w (t.setDsp d.val l.1) with
          | .ok t f n => (t.dspAfter d x.pc x.slot l.2 f n).stepEnd d
          | .fault t code a =>
            if code = 7 then (t.dspFault d.val 7 a x.pc (l.2.getD (x.pc + 1))).stepEnd d
            else
              let z := t.dsp d.val
              let t := t.setDsp d.val { z with loops := y.loops, loopWr := y.loopWr }
              (t.dspFault d.val code a x.pc x.pc).stepEnd d

/-- The instruction at the PC, whichever it is. -/
def State.dspOne (s : State) (d : Fin 16) : State :=
  let x := s.dsp d.val
  match dspDecode (s.peek (dspWord d.val .p x.pc) 4) with
  | some op => s.dspIssue d op
  | none => s.dspIssue d .nop

/-! ### A bus write with the step it asks for -/

/-- The single steps that writes of `LDSP_CTL.STEP` wait for, and the stores that a halt waits for. -/
def State.dspSteps (s : State) : State :=
  s.each 16 fun d s => if (s.dsp d).step then s.dspOne (Fin.ofNat 16 d) else s.dspSettle (Fin.ofNat 16 d)

/-- A write by a master; an error is seen by it (R406). -/
def State.busDo (s : State) (m : Master) (addr n w : Nat) (eyes : List (Option (Fin 64)) := []) : State :=
  match s.busWrite m addr n w eyes with
  | (s, true) => s.dspSteps
  | (s, false) => s.busError m addr true

/-- A read by a master; an error is seen by it (R406). -/
def State.busGet (s : State) (m : Master) (addr n : Nat) (sub : Nat := 0) : State :=
  match s.busRead m addr n sub with
  | (s, some _) => s
  | (s, none) => s.busError m addr false

/-- A write, or a read, by a master (R401, R406). -/
def State.busAccess (s : State) (m : Master) (addr n : Nat) (wr : Option Word) : State :=
  match wr with
  | some w => s.busDo m addr n w.toNat
  | none => s.busGet m addr n

end Sys2Proof.Machine
end

