-- ==== Sys2Proof/Machine/WalkBlock.lean ====
section
/-! DEFINITION. The records of the configuration walk (R348–R351, R358). -/

namespace Sys2Proof.Machine

/-- The records of R349. -/
inductive WalkOp where
  | wr32 | fill | load | wait | check | stop
  deriving DecidableEq, Repr

/-- The record a word begins, with its length in words. -/
def walkOpOf (w0 : Nat) : Option (WalkOp × Nat) :=
  match w0 / 2 ^ 24 with
  | 0x01 => some (.wr32, 3)
  | 0x02 => some (.fill, 4)
  | 0x03 => some (.load, 4)
  | 0x04 => some (.wait, 4)
  | 0x05 => some (.check, 11)
  | 0x0F => some (.stop, 1)
  | _ => none

/-- The bits of word 0 that a record uses beside its opcode. -/
def WalkOp.used : WalkOp → Nat
  | .wait => 0xFFFFFF
  | .check => 1
  | _ => 0

/-- A record word of the image walked. -/
def State.walkWord (s : State) (p : Nat) : Nat := leNat (s.imageBytes s.cus.walk.mirror (recordOfs p) 4)

/-- The blocks that record words occupy stand: no double-bit error of the mirror, and their CRCs hold (R348); else the
fault's cause. -/
def State.walkBlocks (s : State) (p n : Nat) : Option Nat :=
  let m := s.cus.walk.mirror
  let b0 := recordOfs p / 4096
  let bs := (List.range (recordOfs (p + n - 1) / 4096 - b0 + 1)).map (b0 + ·)
  if bs.any fun b => !s.imageSound m (4096 * b) 4096 then some 0x0B
  else if bs.any fun b => !s.blockOk m b then some 0x03
  else none

/-- The record under way: its operation and words, or the cause of the fault it raises. -/
def State.walkRecord (s : State) : Except Nat (WalkOp × List Nat) :=
  let p := s.cus.walk.pos
  let total := recordWords s.cus.walk.rblk
  if total ≤ p then .error 0x0A
  else
    match s.walkBlocks p 1 with
    | some c => .error c
    | none =>
      match walkOpOf (s.walkWord p) with
      | none => .error 0x04
      | some (op, n) =>
        if total < p + n then .error 0x0A
        else
          match s.walkBlocks p n with
          | some c => .error c
          | none =>
            let w0 := s.walkWord p % 2 ^ 24
            if (w0 ||| op.used) != op.used then .error 0x04
            else .ok (op, (List.range n).map fun i => s.walkWord (p + i))

/-- An address in the processing domains (R358). -/
def procTarget (a : Nat) : Bool :=
  (0x40070000 ≤ a && a < 0x40080000) || (0x50000000 ≤ a && a < 0x51000000) || (0x60000000 ≤ a && a < 0x60400000) ||
    (0x70000000 ≤ a && a < 0x72000000) || (0x80000000 ≤ a && a < 0x80400000)

/-- The word addresses of a range. -/
def wordRange (a n : Nat) : List Nat := (List.range (n / 4)).map fun i => a + 4 * i

/-- Every word of a range may be touched by a record (R350). -/
def rangeAllowed (a n : Nat) : Bool := (wordRange a n).all fun x => decide (x < 2 ^ 32) && !recordForbidden x

/-- The record fault's offset. -/
def State.walkFail (s : State) (cause : Nat) : State := s.walkFault cause (recordOfs s.cus.walk.pos)

/-- The walk goes on behind a record of `n` words; `done` counts it as applied. -/
def State.walkNext (s : State) (n : Nat) (done : Bool) : State :=
  let s := { s with cus := { s.cus with walk := { s.cus.walk with pos := s.cus.walk.pos + n, waiting := false } } }
  if done then s.inc CFL_RECS_COUNT else s

/-- Words written by the loader in order, up to the first bus error; the flag says that there was none. -/
def State.walkPut (s : State) : List (Nat × Nat) → State × Bool
  | [] => (s, true)
  | (a, v) :: rest =>
    match s.busWrite .loader a 4 v with
    | (s, true) => s.dspSteps.walkPut rest
    | (s, false) => (s, false)

/-- The writes of a record: checked whole against R350, filtered in a soft start, made in ascending order. -/
def State.walkWrites (s : State) (n a len : Nat) (ws : List (Nat × Nat)) : State :=
  let soft := s.cus.walk.soft
  if !rangeAllowed a len then s.walkFail 0x05
  else
    let todo := if soft then ws.filter fun e => procTarget e.1 else ws
    if todo.isEmpty then s.walkNext n false
    else
      match s.walkPut todo with
      | (s, true) => s.walkNext n true
      | (s, false) => s.walkFail 0x06

/-- A length is good, and an address aligned (R349). -/
def goodRange (a len : Nat) : Bool := a % 4 == 0 && len % 4 == 0 && len != 0

/-- `WR32` -/
def walkActWr32 (ws : List Nat) (s : State) : State :=
  let a := ws.getD 1 0
  if a % 4 ≠ 0 then s.walkFail 0x04 else s.walkWrites 3 a 4 [(a, ws.getD 2 0)]

/-- `FILL` -/
def walkActFill (ws : List Nat) (s : State) : State :=
  let a := ws.getD 1 0
  let len := ws.getD 2 0
  let v := ws.getD 3 0
  if !goodRange a len then s.walkFail 0x04 else s.walkWrites 4 a len ((wordRange a len).map fun x => (x, v))

/-- `LOAD` -/
def walkActLoad (ws : List Nat) (s : State) : State :=
  let a := ws.getD 1 0
  let o := ws.getD 2 0
  let len := ws.getD 3 0
  let w := s.cus.walk
  if !goodRange a len then s.walkFail 0x04
  else if o < w.rblk * 4096 ∨ w.len < o + len then s.walkFail 0x09
  else if !s.imageSound w.mirror o len then s.walkFail 0x0B
  else s.walkWrites 4 a len ((wordRange a len).map fun x => (x, leNat (s.imageBytes w.mirror (o + (x - a)) 4)))

/-- `WAIT`: begins, or polls again. A soft start skips it. -/
def walkActWait (ws : List Nat) (s : State) : State :=
  let t := ws.getD 0 0 % 2 ^ 24
  let a := ws.getD 1 0
  let mask := ws.getD 2 0
  if t = 0 ∨ a % 4 ≠ 0 then s.walkFail 0x04
  else if mask ≠ 0 ∧ recordForbidden a then s.walkFail 0x05
  else if s.cus.walk.soft then s.walkNext 4 false
  else if mask = 0 then { s with cus := { s.cus with walk := { s.cus.walk with waiting := true, polls := false } } }
  else
    match s.busRead .loader a 4 with
    | (s, none) => s.walkFail 0x06
    | (s, some v) =>
      if v &&& mask = ws.getD 3 0 then s.walkNext 4 true
      else { s with cus := { s.cus with walk := { s.cus.walk with waiting := true, polls := true } } }

/-- Words read by the loader, as octets; none on a bus error. -/
def State.walkGet (s : State) : List Nat → State × Option (List Byte)
  | [] => (s, some [])
  | a :: rest =>
    match s.busRead .loader a 4 with
    | (s, none) => (s, none)
    | (s, some v) =>
      match s.walkGet rest with
      | (s, none) => (s, none)
      | (s, some bs) => (s, some (leBytes 4 v ++ bs))

/-- The octets a `CHECK` digests: a range of the image or on chip; else the fault's cause. -/
def State.walkRange (s : State) (image : Bool) (a len : Nat) : State × Except Nat (List Byte) :=
  let w := s.cus.walk
  if len % 4 ≠ 0 ∨ len = 0 then (s, .error 0x04)
  else if image then
    if w.len < a + len then (s, .error 0x04)
    else if !s.imageSound w.mirror a len then (s, .error 0x0B)
    else (s, .ok (s.imageBytes w.mirror a len))
  else if a % 4 ≠ 0 then (s, .error 0x04)
  else if !rangeAllowed a len then (s, .error 0x05)
  else
    match s.walkGet (wordRange a len) with
    | (s, none) => (s, .error 0x06)
    | (s, some bs) => (s, .ok bs)

/-- `CHECK` -/
def walkActCheck (ws : List Nat) (s : State) : State :=
  match s.walkRange (bit (ws.getD 0 0) 0) (ws.getD 1 0) (ws.getD 2 0) with
  | (s, .error c) => s.walkFail c
  | (s, .ok bs) => if sha256 bs = (ws.drop 3).flatMap (leBytes 4) then s.walkNext 11 true else s.walkFail 0x08

/-- `END` -/
def walkActEnd (_ : List Nat) (s : State) : State := s.walkDone

/-- The record under way is applied when it is the operation named; any record that R348 and R349 refuse ends the walk.
A `WAIT` under way is only polled. -/
def State.walkStep (s : State) (op : WalkOp) (act : List Nat → State → State) : State :=
  let w := s.cus.walk
  if s.cus.phase ≠ .walk ∨ (w.waiting && !(w.polls && op == .wait)) then s
  else
    match s.walkRecord with
    | .error c => s.walkFail c
    | .ok (o, ws) => if o = op then act ws s else s

/-- A `WAIT` ends (R349): the time has passed, or a polled condition has not come true. -/
def State.walkWaitEnd (s : State) : State :=
  let w := s.cus.walk
  if s.cus.phase ≠ .walk ∨ !w.waiting then s
  else if w.polls then s.walkFail 0x07
  else s.walkNext 4 true

/-- The walk has not ended within 10 s (R349). -/
def State.walkTimeout (s : State) : State := if s.cus.phase = .walk then s.walkFail 0x0A else s

end Sys2Proof.Machine
end

