-- ==== Sys2Proof/Machine/SvcBlock.lean ====
section
/-! DEFINITION. The commands of the service port (R376–R398): checks in common, custody, registers, updates, repairs. -/

namespace Sys2Proof.Machine

/-! ### What all commands share (R376–R378) -/

/-- The codes of the command table (R377). -/
def svcCodes : List Nat :=
  [0x01, 0x02, 0x03, 0x04, 0x10, 0x11, 0x12, 0x20, 0x21, 0x22, 0x23, 0x24, 0x30, 0x31, 0x32, 0x40, 0x41, 0x42]

/-- What a command comes to: a response, or none yet. -/
inductive SvcDone where
  | answer (status : Nat) (fields : List Byte)
  | later
  deriving DecidableEq, Repr

/-- A command that runs long, or a repair, is in execution. -/
def State.svcBusy (s : State) : Bool := s.svc.long.isSome || s.on SVC_REPAIR_RSTATE

/-- The next command waiting is executed when its code is one of those named; it waits for the one before it, but a
`HELLO` is answered at once (R373, R376, R399). -/
def State.svcTake (s : State) (known : Nat → Bool) (act : List Byte → Nat → State → State × SvcDone) : State :=
  match s.svc.cmds with
  | [] => s
  | (code, seq, p) :: rest =>
    if !s.svcAlive || !known code || (s.svcBusy && code != 1) then s
    else
      let s : State := { s with svc := { s.svc with cmds := rest }, cus := { s.cus with cmdAt := s.tim.up } }
      match act p seq s with
      | (s, .answer st fields) => (s.svcRespond code seq st fields).attnUpdate
      | (s, .later) => s.attnUpdate

/-- A status without fields. -/
def State.says (s : State) (status : Nat) : State × SvcDone := (s, .answer status [])

/-- The checks of R376 and R377 in order: payload, class, BRACE; then the command. `owner` marks classes R and W, which a
SEALED part refuses. -/
def State.svcGate (s : State) (bad owner brace : Bool) (act : State → State × SvcDone) : State × SvcDone :=
  if bad then s.says 0x03
  else if owner && s.sealedNow then s.says 0x02
  else if brace && s.on SUP_STAT_BRACE then s.says 0x05
  else act s

/-- A field of a payload, little-endian. -/
def payN (p : List Byte) (o n : Nat) : Nat := leNat (sliceN p o n)

/-! ### Sessions and custody (R360–R365, R373, R374, R381) -/

/-- The rate chosen (R368, R374). -/
def svcRate (trimmed : Bool) (top : Nat) : Nat :=
  if !trimmed || decide (top < 460800) then 115200
  else if top < 921600 then 460800
  else if top < 3000000 then 921600
  else if top < 6000000 then 3000000
  else if top < 12000000 then 6000000
  else 12000000

/-- `PCAP` (R373). -/
def State.pcap (s : State) : Nat :=
  let j := s.svc.jrnl
  b2n (s.aligned 0) + 2 * b2n (j.ok && !s.on SVC_STAT_FLFAIL) + 4 * b2n j.open_.isSome + 8 * b2n j.staged.isSome +
    16 * b2n (s.cus.phase == .minimum)

/-- `HELLO` answered (R373, R374). -/
def svcActHello (p : List Byte) (_ : Nat) (s : State) : State × SvcDone :=
  if p.length ≠ 12 ∨ payN p 0 1 ≠ 1 ∨ payN p 8 4 ≠ 0 then s.says 0x03
  else
    let b := svcRate (s.aligned 0) (payN p 4 4)
    let fields := leBytes 1 1 ++ leBytes 1 0xB1 ++ leBytes 1 (s.get CUS_STAT_STATE) ++ leBytes 1 8 ++ leBytes 4 b ++
      leBytes 4 s.pcap ++ beBytes 16 s.part.ident ++ leBytes 2 1024
    let s := (s.set SVC_STAT_SESSION 1).orF SVC_IRQ_IRQ 2
    let s : State := if b = s.get SVC_BAUD_BAUD then s
      else ({ s with svc := { s.svc with newBaud := some b } }).svcLink 2
    (s, .answer 0 fields)

/-- The pending run journalled, but never during BRACE (R391). -/
def State.runJournalled (s : State) : State := if s.on SUP_STAT_BRACE then s else s.jrnlRun.attnUpdate

/-- `CLOSE`: the session ends when the response is acknowledged. -/
def svcActClose (p : List Byte) (_ : Nat) (s : State) : State × SvcDone :=
  s.svcGate (p.length != 0) false false fun s =>
    let s := s.runJournalled
    ({ s with svc := { s.svc with closeAt := some s.svcNextSeq } }).says 0

/-- `AUTH_CHALLENGE` (R364, R365). -/
def svcActChallenge (p : List Byte) (_ : Nat) (s : State) : State × SvcDone :=
  s.svcGate (p.length != 0) false true fun s =>
    if !s.cus.rec_.sealed_ then s.says 0x07
    else if s.on CUS_STAT_BACKOFF then (s, .answer 0x08 (leBytes 2 (s.get CUS_BOFF_S)))
    else
      let s := s.cusStore { s.cus.rec_ with ctr := s.cus.rec_.ctr + 1 }
      let r := s.draw (2 ^ 128)
      let s := r.1
      let s := ({ s with cus := { s.cus with chal := some r.2, chalAt := s.tim.up } }).cusRegs
      (s, .answer 0 (beBytes 16 r.2 ++ leBytes 8 s.cus.rec_.ctr))

/-- The response that a challenge asks for (R364). -/
def State.authWanted (s : State) (nonce : Nat) : List Byte :=
  hmacSha256 (beBytes 32 s.cus.rec_.key) (beBytes 16 nonce ++ beBytes 16 s.part.ident ++ beBytes 8 s.cus.rec_.ctr)

/-- The `AUTH` entry (R340, R364). -/
def State.noteAuth (s : State) (passed : Bool) : State :=
  let r := s.cus.rec_
  s.note 0x0706 0x0A (if passed then 1 else 2)
    (b2n passed * 2 ^ 79 + satN 7 r.fail * 2 ^ 72 + backoffS r.fail * 2 ^ 56 + r.ctr % 2 ^ 32)

/-- A response evaluated (R360, R364, R365). -/
def State.authTry (s : State) (nonce : Nat) (r : List Byte) : State × SvcDone :=
  let passed := r == s.authWanted nonce
  let s := { s with cus := { s.cus with chal := none } }
  if passed then
    let s := s.cusStore { s.cus.rec_ with fail := 0 }
    let s := ({ s with cus := { s.cus with reopened := true } }).cusRegs
    (s.backoff.noteAuth true).says 0
  else
    let s := s.cusStore { s.cus.rec_ with fail := min 255 (s.cus.rec_.fail + 1) }
    (s.backoff.noteAuth false).says 0x0A

/-- `AUTH_RESPONSE`: without a challenge that is valid for another response it is refused, and is not an attempt. -/
def svcActAuth (p : List Byte) (_ : Nat) (s : State) : State × SvcDone :=
  s.svcGate (p.length != 32) false true fun s =>
    match s.cus.chal with
    | none => s.says 0x09
    | some nonce =>
      if !s.cus.rec_.sealed_ || decide (s.cus.chalAt + 60 * 10 ^ 9 < s.tim.up) then s.says 0x09
      else s.authTry nonce p

/-- What `SEAL` binds (R361). -/
def State.sealGo (s : State) (key : Nat) (pos ulock : Bool) : State :=
  let r := s.cus.rec_
  let spos : Int × Int × Int := if pos then s.posInUse.getD (0, 0, 0) else (0, 0, 0)
  let d := s.cus.walk.digest
  let was := s.cus.reopened
  let s := { s with cus := { s.cus with firstSession := s.cus.firstSession || !r.first, reopened := false } }
  let s := s.cusStore { r with sealed_ := true, posv := pos, ulock := ulock, pendv := false, first := true, fail := 0,
                               key := key, sdig := d, spos := spos }
  let s := s.backoff.note 0x0704 0x01 1 (b2n pos * 2 ^ 79 + digest8 d)
  let s : State := if was then ({ s with cus := { s.cus with reopened := true } }).sessEnd 0 else s
  s.winPermit

/-- `SEAL` (R361). -/
def svcActSeal (p : List Byte) (_ : Nat) (s : State) : State × SvcDone :=
  let opt := payN p 32 1
  s.svcGate (p.length != 36 || decide (3 < opt) || payN p 33 3 != 0) true true fun s =>
    let key := beNat (p.take 32)
    if key = 0 then s.says 0x0B
    else if !s.cus.walk.clean then s.says 0x0C
    else if bit opt 0 && !s.sealable then s.says 0x0D
    else
      let s := s.sealGo key (bit opt 0) (bit opt 1)
      (s, .answer 0 (beBytes 32 s.cus.rec_.sdig))

/-- `UNSEAL` (R291, R360, R361). -/
def svcActUnseal (p : List Byte) (_ : Nat) (s : State) : State × SvcDone :=
  s.svcGate (p.length != 0) true true fun s =>
    if !s.cus.rec_.sealed_ then s.says 0
    else
      let d := digest8 s.cus.rec_.sdig
      let s := { s with cus := { s.cus with reopened := false, chal := none } }
      let s := s.cusStore { s.cus.rec_ with sealed_ := false, posv := false, ulock := false, pendv := false, key := 0,
                                            sdig := 0, pdig := 0, spos := (0, 0, 0) }
      (((s.set CUS_IDLE_S 0).note 0x0705 0x01 1 d).winPermit).says 0

/-- `CLEAR_FSW` (R309, R381). -/
def svcActClearFsw (p : List Byte) (_ : Nat) (s : State) : State × SvcDone :=
  s.svcGate (p.length != 0) true true fun s =>
    let lo := s.get RTC_FSW_L_TICK
    let hi := s.get RTC_FSW_H_VALID * 2 ^ 31 + s.get RTC_FSW_H_TICK
    let tick := s.get2 RTC_FSW_L_TICK RTC_FSW_H_TICK
    (s.custFswClr.note 0x070A 0x0A 1 (tick * 2 ^ 32), .answer 0 (leBytes 4 lo ++ leBytes 4 hi))

/-! ### Registers and the record (R362, R363, R379, R380) -/

/-- The registers of class Q (R362). -/
def classQ (a : Nat) : Bool :=
  decide (0x40000000 ≤ a ∧ a ≤ 0x40000014) || a == 0x40310000 || a == 0x40310004 ||
    a == ITG_STATE_STATE.addr || (decide (TIM_NOW_SH_SECH.addr ≤ a) && decide (a ≤ TIM_NOW_NS_NS.addr)) ||
    a == TIM_TERR_NS.addr || a == RTC_FSW_L_TICK.addr || a == RTC_FSW_H_VALID.addr

/-- Consecutive words read by the custody core, up to the first bus error (R379). -/
def State.svcWords (s : State) : Nat → Nat → State × Option (List Byte)
  | 0, _ => (s, some [])
  | n + 1, a =>
    match s.busRead .svc a 4 with
    | (s, none) => (s, none)
    | (s, some v) =>
      match s.svcWords n (a + 4) with
      | (s, none) => (s, none)
      | (s, some bs) => (s, some (leBytes 4 v ++ bs))

/-- `READ_REG` (R377, R379): class Q when every word is. -/
def svcActReadReg (p : List Byte) (_ : Nat) (s : State) : State × SvcDone :=
  let a := payN p 0 4
  let n := payN p 4 1
  let q := (List.range n).all fun i => classQ (a + 4 * i)
  s.svcGate (p.length != 5 || a % 4 != 0 || n == 0) (!q) false fun s =>
    match s.svcWords n a with
    | (s, none) => s.says 0x01
    | (s, some bs) => (s, .answer 0 bs)

/-- `WRITE_REG` (R363, R379). -/
def svcActWriteReg (p : List Byte) (_ : Nat) (s : State) : State × SvcDone :=
  let a := payN p 0 4
  s.svcGate (p.length != 8 || a % 4 != 0) true false fun s =>
    match s.busWrite .svc a 4 (payN p 4 4) with
    | (s, true) => s.dspSteps.says 0
    | (s, false) => s.says 0x01

/-- The slots whose sequence field lies in a range, in ascending sequence. -/
def State.slotsIn (s : State) (first n : Nat) : List Nat :=
  let seq := fun k => leNat (s.bytesAt (slotAddr k) 8)
  let ks := s.usedSlots.filter fun k => decide (first ≤ seq k) && decide (seq k < first + n)
  (List.range n).flatMap fun i => ks.filter fun k => seq k == first + i

/-- A slot's words as the custody core reads them (R21). -/
def State.slotTouch (s : State) (k : Nat) : State :=
  s.each 4 fun i s => (s.memRead .mram (slotAddr k + 8 * i) 8).1

/-- `READ_UMBER` (R341, R380): each entry is judged at the moment it is read. -/
def svcActReadUmber (p : List Byte) (_ : Nat) (s : State) : State × SvcDone :=
  let first := payN p 0 8
  let n := payN p 8 1
  s.svcGate (p.length != 9 || n == 0 || decide (31 < n)) true true fun s =>
    let s := (s.slotsIn first n).foldl (fun s k => s.slotTouch k) s
    let ks := (s.slotsIn first n).filter fun k => s.slotValid k
    let has := fun i => ks.any fun k => s.slotSeq k == some (first + i)
    let missing := (List.range n).foldl (fun m i => if has i then m else m + 2 ^ i) 0
    let es := ks.flatMap fun k => s.bytesAt (slotAddr k) 32
    (s, .answer 0 (leBytes 8 first ++ leBytes 1 n ++ leBytes 3 0 ++ leBytes 4 missing ++ es))

/-! ### Updates (R390–R396) -/

/-- The flash answers update commands (R386). -/
def State.flashUsable (s : State) : Bool := s.svc.jrnl.ok && !s.on SVC_STAT_FLFAIL

/-- An `UPDATE` entry of a refusal or failure (R396), and its status. -/
def State.updFails (s : State) (stage upd status : Nat) : State × SvcDone :=
  (s.note 0x0708 0x01 1 (stage * 2 ^ 72 + status % 256 * 2 ^ 64 + upd)).says status

/-- Whether a `PUT_OBJECT` breaks the rules of R390 on offset, length and total. -/
def State.putRange (s : State) (total ofs len : Nat) : Bool :=
  ofs % 256 != 0 || (len % 256 != 0 && ofs + len != total) || decide (total < 640) ||
    decide (s.slotSize < total + 2097152) || decide (total < ofs + len)

/-- The pages of a `PUT_OBJECT` into the open transfer (R390, R391): the status. -/
def State.putPages (s : State) (ok : Bool) (ofs : Nat) (data : List Byte) : State × Nat :=
  let p := ofs / 256
  let n := ceilDiv data.length 256
  if s.pagesDiffer (s.svc.jrnl.runsBefore p) n p data then (s, 0x0F)
  else if 512 < s.svc.jrnl.runsWith p n then (s, 0x0F)
  else
    match (s.runFirst p).pagesPut ok n p data with
    | (s, true) => (s, 0)
    | (s, false) => (s, 0x1A)

/-- The opening: `OPEN`, then every sector of the receive area that the total reaches erased (R390). -/
def State.putOpen (s : State) (upd total : Nat) : State :=
  let s := s.jrnlPut 0x03 upd (leBytes 4 total)
  s.each (ceilDiv total 65536) fun i s => s.jrnlErase 3 i

/-- `PUT_OBJECT` (R390, R391): checked, a new transfer opened; its data is programmed when that is done. Every refusal has its
`UPDATE` entry (R396). -/
def svcActPut (ok : Bool) (p : List Byte) (seq : Nat) (s : State) : State × SvcDone :=
  let upd := payN p 0 8
  let total := payN p 8 4
  let ofs := payN p 12 4
  let data := p.drop 16
  s.svcGate (decide (p.length < 17) || decide (784 < p.length)) true true fun s =>
    let j := s.svc.jrnl
    let mine := match j.open_ with | some (u, _) => u == upd | none => false
    if !s.flashUsable then s.updFails 1 upd 0x1A
    else if s.putRange total ofs data.length || (mine && j.open_ != some (upd, total)) then s.updFails 1 upd 0x0F
    else if mine && j.actreq then s.updFails 1 upd 0x06
    else if !mine && j.ended.contains upd then s.updFails 1 upd 0x0E
    else if !mine && j.open_.isSome then s.updFails 1 upd 0x06
    else
      let s := if mine then s else s.putOpen upd total
      ({ s with svc := { s.svc with long := some (0x20, seq, BitVec.ofNat 8 (b2n ok) :: p) } }, .later)

/-- A `PUT_OBJECT` programs its data and ends (R390, R391, R396). Where BRACE stands, the programs begun before it complete, how
many is open, and nothing counts as received (R399). -/
def State.putRest (s : State) (seq : Nat) (data : List Byte) : State :=
  let ok := data.take 1 == [1]
  let p := data.drop 1
  let ofs := payN p 12 4
  let d := p.drop 16
  if s.on SUP_STAT_BRACE then
    let n := Config.freeValue s.free % (ceilDiv d.length 256 + 1)
    (({ s with free := s.free + 1 }).pagesCut n (ofs / 256) d).svcRespondLate 0x20 seq 0x05 []
  else
    let r := s.putPages ok ofs d
    let s := if r.2 = 0 then r.1 else r.1.note 0x0708 0x01 1 (2 ^ 72 + r.2 % 256 * 2 ^ 64 + payN p 0 8)
    s.svcRespondLate 0x20 seq r.2 []

/-- `QUERY_OBJECT` (R393). -/
def svcActQuery (p : List Byte) (_ : Nat) (s : State) : State × SvcDone :=
  let upd := payN p 0 8
  let page := payN p 8 4
  s.svcGate (p.length != 12) true false fun s =>
    let j := s.svc.jrnl
    match j.open_ with
    | none => s.says 0x0E
    | some (u, _) =>
      if upd ≠ 0 ∧ upd ≠ u then s.says 0x0E
      else
        let total := s.updPages
        let has := fun k => decide (k < total) && runsHas j.runs k
        let oct := fun k => BitVec.ofNat 8 ((List.range 8).foldl (fun m i => m + b2n (has (page + 8 * k + i)) * 2 ^ i) 0)
        (s, .answer 0 (leBytes 8 u ++ leBytes 1 (s.get SVC_UPD_USTATE) ++ leBytes 3 0 ++ leBytes 4 total ++
          leBytes 4 (runsCount j.runs) ++ leBytes 4 page ++ (List.range 992).map oct))

/-- `ABANDON_OBJECT` (R392). -/
def svcActAbandon (p : List Byte) (_ : Nat) (s : State) : State × SvcDone :=
  let upd := payN p 0 8
  s.svcGate (p.length != 8) true true fun s =>
    if !s.flashUsable then s.updFails 6 upd 0x1A
    else if s.svc.jrnl.open_.isNone || s.updId != upd then s.updFails 6 upd 0x0E
    else if s.svc.jrnl.actreq then s.updFails 6 upd 0x06
    else (s.jrnlPut 0x06 upd []).says 0

/-- `COMMIT_STAGING` up to its last step (R394); the response follows when its flash work has ended. -/
def svcActCommit (ok : Bool) (p : List Byte) (seq : Nat) (s : State) : State × SvcDone :=
  let upd := payN p 0 8
  s.svcGate (p.length != 8) true true fun s =>
    if !s.flashUsable then s.updFails 2 upd 0x1A
    else
      match s.svc.jrnl.open_ with
      | none => s.updFails 2 upd 0x0E
      | some (u, total) =>
        if u ≠ upd then s.updFails 2 upd 0x0E
        else if s.svc.jrnl.actreq then s.updFails 2 upd 0x06
        else
          let own := s.cus.reopened
          let r := s.commitBuild upd total ok
          let long := some (0x23, seq, [BitVec.ofNat 8 r.2, BitVec.ofNat 8 (b2n own)])
          let s := { r.1 with svc := { r.1.svc with long := long } }
          ((s.set SVC_UPD_USTATE 2).orF SVC_IRQ_IRQ 4, .later)

/-- The end of `COMMIT_STAGING` (R356, R394). -/
def State.commitRest (s : State) (seq : Nat) (data : List Byte) : State :=
  let st := leNat (data.take 1)
  let own := data.drop 1 == [1]
  let upd := s.updId
  let len := s.contBytes 16 4
  let dig := s.contBytes 24 32
  let s := s.updShow
  let s : State := if st = 0 then
      let s := s.jrnlPut 0x07 upd (len ++ dig.take 8)
      if own && s.cus.rec_.sealed_ then s.cusStore { s.cus.rec_ with pdig := beNat dig, pendv := true } else s
    else s
  (s.noteUpdate 2 st).svcRespondLate 0x23 seq st (if st = 0 then len ++ dig else [])

/-- The causes for which an activation is refused (R395): MOVING, SUPPLY, OWNER_LOCK. -/
def State.activateBars (s : State) : Bool × Bool × Bool :=
  (s.nav.moving || !s.movKnown || s.nav.displaced,
   decide (s.get SUP_LASTW_SEC < 60) || s.on RTC_STAT_ONBAT || s.on SUP_STAT_WARN,
   s.cus.rec_.ulock)

/-- `ACTIVATE` (R395). -/
def svcActActivate (p : List Byte) (_ : Nat) (s : State) : State × SvcDone :=
  let upd := payN p 0 8
  s.svcGate (p.length != 8) true true fun s =>
    if !s.flashUsable then s.updFails 3 upd 0x1A
    else
      match s.svc.jrnl.staged with
      | none => s.updFails 3 upd 0x15
      | some _ =>
        let bars := s.activateBars
        if s.updId ≠ upd then s.updFails 3 upd 0x15
        else if s.on SVC_REPAIR_RSTATE || s.svc.jrnl.actreq then s.updFails 3 upd 0x06
        else if bars.1 || bars.2.1 || bars.2.2 then
          let s := s.note 0x0709 0x01 2 (b2n bars.1 * 2 ^ 79 + b2n bars.2.1 * 2 ^ 78 + b2n bars.2.2 * 2 ^ 77 + upd)
          s.updFails 3 upd (if bars.1 then 0x16 else if bars.2.1 then 0x17 else 0x18)
        else
          let r := s.cus.rec_
          let m := !r.sealed_ || (r.pendv && r.pdig == beNat (s.contBytes 24 32))
          let s := s.jrnlPut 0x08 upd []
          ({ s with svc := { s.svc with startAt := s.svc.startAt ++ [(s.svcNextSeq, 0)] } }, .answer 0 (leBytes 1 (b2n m)))

/-- The wait for the acknowledgement of the oldest response ends (R395). -/
def State.startWaitEnd (s : State) : State :=
  match s.svc.startAt with
  | (_, k) :: rest => ({ s with svc := { s.svc with startAt := rest } }).softCause k
  | [] => s

/-! ### Repair in service (R397, R398) -/

/-- What a repair of a cluster or group must not meet (R398): the minimum service set, another repair, an activation
requested. -/
def State.repairBar (s : State) : Option Nat :=
  if s.cus.phase = .minimum then some 0x1B
  else if s.on SVC_REPAIR_RSTATE || s.svc.jrnl.actreq then some 0x06
  else none

/-- A repair begins: the request block is written, its count last, and the navigation core is told (R397). -/
def State.repairBegin (s : State) (group : Bool) (target seq : Nat) (force : Bool) : State :=
  let n := (s.svc.repair.count + 1) % 256
  let s := (s.memWrite .nav 0x80000700 1 (if group then 2 else 1)).1
  let s := (s.memWrite .nav 0x80000701 1 target).1
  let s := (s.memWrite .nav 0x80000703 1 n).1
  let s := { s with svc := { s.svc with repair := { force := force, seq := seq, count := n, at_ := s.tim.up } } }
  (((s.set SVC_REPAIR_RSTATE 1).setB SVC_REPAIR_GROUP group).set SVC_REPAIR_TARGET target).orF SVC_IRQ_IRQ 8

/-- `REPAIR_CLUSTER` and `REPAIR_GROUP` begin. -/
def svcActRepair (group : Bool) (p : List Byte) (seq : Nat) (s : State) : State × SvcDone :=
  let t := payN p 0 1
  let opt := payN p 1 1
  s.svcGate (p.length != 2 || decide ((if group then 4 else 16) ≤ t) || decide (1 < opt)) true true fun s =>
    match s.repairBar with
    | some st => s.says st
    | none => (s.repairBegin group t seq (bit opt 0), .later)

/-- `REPAIR_PROC`: a soft start with cause repair follows the response. -/
def svcActRepairProc (p : List Byte) (_ : Nat) (s : State) : State × SvcDone :=
  s.svcGate (p.length != 0) true true fun s =>
    ({ s with svc := { s.svc with startAt := s.svc.startAt ++ [(s.svcNextSeq, 1)] } }).says 0

/-- A repair ends: its entry, its response, `RSTATE` IDLE. `map` shows the slots retired. -/
def State.repairEnd (s : State) (status n map : Nat) : State :=
  let g := s.on SVC_REPAIR_GROUP
  let t := s.get SVC_REPAIR_TARGET
  let s := s.note 0x0505 0x01 (if n = 0 then 1 else 2)
    (t * 2 ^ 72 + b2n g * 2 ^ 71 + n * 2 ^ 64 + status % 256 * 2 ^ 56)
  let s := s.set SVC_REPAIR_RSTATE 0
  let fields := if !g && status == 0 then leBytes 1 n ++ leBytes 3 0 ++ leBytes 8 map else []
  s.svcRespondLate (if g then 0x41 else 0x40) s.svc.repair.seq status fields

/-- What a repair's walk writes for a record, or the cause of its fault; records of other kinds are passed over. -/
def State.recordWrites (s : State) (op : WalkOp) (ws : List Nat) : Except Nat (List (Nat × Nat)) :=
  let w := fun k => ws.getD k 0
  let a := w 1
  match op with
  | .wr32 => if a % 4 ≠ 0 then .error 0x04 else if !rangeAllowed a 4 then .error 0x05 else .ok [(a, w 2)]
  | .fill =>
    if !goodRange a (w 2) then .error 0x04
    else if !rangeAllowed a (w 2) then .error 0x05
    else .ok ((wordRange a (w 2)).map fun x => (x, w 3))
  | .load =>
    let k := s.cus.walk
    if !goodRange a (w 3) then .error 0x04
    else if w 2 < k.rblk * 4096 ∨ k.len < w 2 + w 3 then .error 0x09
    else if !s.imageSound k.mirror (w 2) (w 3) then .error 0x0B
    else if !rangeAllowed a (w 3) then .error 0x05
    else .ok ((wordRange a (w 3)).map fun x => (x, leNat (s.imageBytes k.mirror (w 2 + (x - a)) 4)))
  | _ => .ok []

/-- The walk of a repair: the writes of `WR32`, `FILL` and `LOAD` records whose targets are picked; a fault gives cause
and offset. -/
def State.repairWalk (s : State) (pick : Nat → Bool) : Nat → State × Option (Nat × Nat)
  | 0 => (s, some (0x0A, 0))
  | n + 1 =>
    let p := s.cus.walk.pos
    match s.walkRecord with
    | .error c => (s, some (c, recordOfs p))
    | .ok (op, ws) =>
      if op = .stop then (s, none)
      else
        match s.recordWrites op ws with
        | .error c => (s, some (c, recordOfs p))
        | .ok wr =>
          match s.walkPut (wr.filter fun e => pick e.1) with
          | (s, false) => (s, some (0x06, recordOfs p))
          | (s, true) =>
            let k := { s.cus.walk with pos := p + ws.length }
            ({ s with cus := { s.cus with walk := k } }).repairWalk pick n

/-- An image whose header stands walked for a repair: its end, or the cause and offset of its fault. What the last start's walk
left recorded stays. -/
def State.repairRun (s : State) (mirror : Bool) (pick : Nat → Bool) (rblk len : Nat) : State × WalkOpen × Nat :=
  let kept := s.cus.walk
  let k : WalkSt := { mirror := mirror, len := len, rblk := rblk }
  match ({ s with cus := { s.cus with walk := k } }).repairWalk pick (rblk * 1024) with
  | (s, none) => ({ s with cus := { s.cus with walk := kept } }, .runs, 0)
  | (s, some (c, o)) => ({ s with cus := { s.cus with walk := kept } }, .fault c, o)

/-- What the opening of an image for a repair finds, as at a start (R347, R355): a fault, a digest that is not permitted, or `RBLK`
and `LEN`. -/
def State.repairOpens (s : State) (mirror : Bool) : WalkOpen × Nat × Nat :=
  if !s.imageSound mirror 0 64 then (.fault 0x0B, 0, 0)
  else
    match imageHeader (s.imageBytes mirror 0 64) with
    | none => (.fault 0x02, 0, 0)
    | some (rblk, len) =>
      let r := s.cus.rec_
      let d := beNat (sha256 (s.imageBytes mirror 0 len))
      if s.sealedNow && !s.imageSound mirror 0 len then (.fault 0x0B, 0, 0)
      else if s.sealedNow && d != r.sdig && !(r.pendv && d == r.pdig) then (.mismatch d, 0, 0)
      else (.runs, rblk, len)

/-- One image walked for a repair (R397): how it ended, and the offset of a fault. -/
def State.repairFrom (s : State) (mirror : Bool) (pick : Nat → Bool) : State × WalkOpen × Nat :=
  let s := s.imageRead mirror
  let o := s.repairOpens mirror
  if o.1 = .runs then s.repairRun mirror pick o.2.1 o.2.2 else (s, o.1, 0)

/-- The walk of a repair (R397): the active image, or the mirror where a SEALED part does not permit its digest (R355); the flag
says that there was no fault. `CFL_STAT.MISM` is of the last start and stays. -/
def State.repairImage (s : State) (pick : Nat → Bool) : State × Bool :=
  match s.repairFrom false pick with
  | (s, .runs, _) => (s, true)
  | (s, .fault c, o) => (s.walkNote false c o, false)
  | (s, .mismatch d, _) =>
    let s := s.note 0x0703 0x01 3 (digest8 d)
    if !s.cus.rec_.mirv then (s, false)
    else
      match s.repairFrom true pick with
      | (s, .runs, _) => (s, true)
      | (s, .mismatch _, _) => (s.walkNote true 0x0C 0, false)
      | (s, .fault c, o) => (s.walkNote true c o, false)

/-- The `PROC` reset of one cluster (R397): dwells and migrations end, every engine enters REPAIR and the self-test
runs. -/
def State.cluReset (s : State) (c : Nat) : State :=
  let lo := 0x50000000 + c * 0x100000
  let s := s.eachEng c fun e s => (s.engCancel e).migTimeout e
  let s := (s.clearRegs lo (lo + 0x100000)).clearLatches lo (lo + 0x100000)
  let mine := fun (e : Nat) => decide (64 * c ≤ e) && decide (e < 64 * c + 64)
  let s := { s with
    engs := s.engs.filter fun x => !mine x.1
    chans := s.chans.filter fun x => !mine x.1
    clus := tblErase s.clus c
    maps := tblErase s.maps c }
  s.set (CLU_CTL_BUSY c) 1

/-- Steps 4 and 5 of R397 for a cluster: a walk fault leaves its clock off. -/
def State.repairCluster (s : State) (c : Nat) : State :=
  let lo := 0x50000000 + c * 0x100000
  match ((s.set SVC_REPAIR_RSTATE 2).cluReset c).repairImage fun a => decide (lo ≤ a) && decide (a < lo + 0x100000) with
  | (s, true) => s.set SVC_REPAIR_RSTATE 3
  | (s, false) => ((s.set (CLU_CTL_CKEN c) 0).cluClock c true).repairEnd 0x1B 0 0

/-- The reload of a loop DSP group (R398): held in reset while its records are walked; once it is released the records
of `LDSP_CTL` and `LDSP_GCTL` act. -/
def State.repairGroup (s : State) (g : Nat) : State :=
  let lo := 0x60000000 + g * 0x100000
  let mine := fun (a : Nat) => decide (lo ≤ a) && decide (a < lo + 0x100000)
  let ctl := fun (a : Nat) => a % 0x40000 == 0x00 || a % 0x40000 == 0x40
  let s := ((s.dspFlush.set SVC_REPAIR_RSTATE 2).set (LDSP_GCTL_RST g) 1).dspGroup g
  match s.repairImage fun a => mine a && !ctl a with
  | (s, false) => s.repairEnd 0x1B 0 0
  | (s, true) =>
    match ((s.set (LDSP_GCTL_RST g) 0).dspGroup g).repairImage fun a => mine a && ctl a with
    | (s, ok) => s.repairEnd (if ok then 0 else 0x1B) 0 0

/-- The clusters a repair vacates. -/
def State.repairClusters (s : State) : List Nat :=
  let t := s.get SVC_REPAIR_TARGET
  if s.on SVC_REPAIR_GROUP then (List.range 4).map (4 * t + ·) else [t]

/-- An engine that holds a channel has its dwells cancelled and returns to the pool, and the channel is lost (R123, R397). -/
def State.chanForced (s : State) (e : Nat) : State :=
  if s.engState e = 1 ∨ s.engState e = 3 then
    let s := ((s.engCancel e).assist (s.chan e).cfg true).engEnter e 0
    { s with chans := tblErase s.chans e }
  else s.engCancel e

/-- Step 3 of R397, for both kinds: clusters that still hold channels end the repair, or lose them by `FORCE`; then the
reload. -/
def State.repairGo (s : State) : State :=
  if s.get SVC_REPAIR_RSTATE ≠ 1 then s
  else
    let held := s.repairClusters.any fun c => decide (0 < s.engCount c 1 + s.engCount c 3)
    if held && !s.svc.repair.force then s.repairEnd 0x19 0 0
    else
      let cs := if held then s.repairClusters else []
      let s := cs.foldl (fun s c => s.eachEng c fun e s => s.chanForced e) s
      let t := s.get SVC_REPAIR_TARGET
      if s.on SVC_REPAIR_GROUP then s.repairGroup t else s.repairCluster t

/-- The 10 s of vacating are over (R397). -/
def State.repairLate (s : State) : State := if s.reached s.svc.repair.at_ (10 * 10 ^ 9) then s.repairGo.attnUpdate else s

/-- Navigation firmware has answered: its count is the request's (R397). -/
def State.repairAnswered (s : State) : State :=
  if s.get SVC_REPAIR_RSTATE = 1 ∧ (s.byteAt 0x80000704).toNat = s.svc.repair.count then s.repairGo.attnUpdate else s

/-- The self-test of a cluster under repair has ended (R397). -/
def State.repairTested (s : State) (c : Nat) : State :=
  if s.get SVC_REPAIR_RSTATE = 3 ∧ s.get SVC_REPAIR_TARGET = c ∧ !s.on (CLU_CTL_BUSY c) then
    let map := engMap c fun e => s.engState e == 5
    s.repairEnd 0 (s.engCount c 5) map
  else s

/-! ### The end of a long command (R376, R394) -/

/-- A long command ends; BRACE suspends the work on the flash. -/
def State.longEnd (s : State) : State :=
  match s.svc.long with
  | none => s
  | some (code, seq, data) =>
    if code = 0x23 ∧ s.on SUP_STAT_BRACE then s
    else
      let s := { s with svc := { s.svc with long := none } }
      (if code = 0x23 then s.commitRest seq data else s.putRest seq data).attnUpdate

end Sys2Proof.Machine
end

