-- ==== Sys2Proof/Machine/Epoch.lean ====
section
/-! DEFINITION. What happens together: the device epoch (R219), the whole second (R220), events of the synthesisers, the
pulse input (R237, R238), the test access port (R428). -/

namespace Sys2Proof.Machine

/-! ### Synthesisers and what depends on them -/

/-- An event of the synthesisers: Ethernet stops when `PLL_C` is lost, and may go on when it is aligned again (R257); PTP
stops and goes on with the minimum service set (R28). -/
def State.pllEvent (s : State) (f : State → State) : State :=
  let was := s.aligned 2
  let below := s.itg.below
  let s := f s
  let s := if s.itg.below = below then s else if below then s.ptpConfig else (s.each 8 fun q s => s.portCut q).ptpConfig
  if was && !s.aligned 2 then s.ethStop else if !was && s.aligned 2 then s.ethGo else s

/-! ### The device epoch (R219) -/

/-- A load whose boundary this is takes effect (R221); offsets measured in the old time are dropped. -/
def State.loadDue (s : State) : State :=
  let due := s.tim.load.isSome
  let s := s.timLoadApply
  if due && s.tim.load.isNone then s.ptpMoved else s

/-- Device time reaches the next boundary, and the count rises. -/
def State.epochTick (s : State) : State :=
  let t := s.nextBoundary
  let d := (t - s.tim.t) / 2 ^ 64
  let s := ({ s with tim := { s.tim with t := t, up := s.tim.up + d } }).backoffCount 0 d
  s.set2 TIM_EPOCH_L_COUNT TIM_EPOCH_H_COUNT (s.epochCount + 1)

/-- The links at an epoch, each with what was measured of it. -/
def State.linksEpoch (s : State) (obs : List LinkObs) : State :=
  s.each 8 fun n s => match obs[n]? with
    | some o => s.linkEpoch n o
    | none => s

/-- The custody core has acted on the wakes that ask for nothing more, and clears their bits (R306, R307): a host resume, and
a periodic wake in continuous tracking or while a burst runs. -/
def State.wakeActed (s : State) : State :=
  if (s.cus.phase != .run && s.cus.phase != .minimum) || s.rtcLocked then s
  else
    let s := (if s.cus.reasonDone then s.wreasonClear else s).wreasonAct (s.get RTC_WREASON_HOST * 2)
    if s.continuous || s.itg.burst.active || s.cus.phase == .minimum then s.wreasonAct (s.get RTC_WREASON_PERIODIC) else s

/-- A device epoch boundary: the crystal edges, time and count, a load that is due, then everything driven by the epoch (R42, R46, R65, R87,
R159, R219, R221, R226, R315, R359). -/
def State.deviceEpoch (s : State) (obs : EpochObs) : State :=
  let s := (s.rtcAdvance obs.edges).epochTick.loadDue.timEval
  let s := s.epochMarks.linksEpoch obs.links
  let s := s.each 16 fun c s => s.cluEpoch c
  let s := s.each 16 fun d s => s.dspEpoch d
  (s.supEpoch obs.io33 obs.core).nwdogEpoch.wakeActed.lateOpen

/-! ### The whole second (R220) -/

/-- The count of the always-on domain latched at a whole second (R299, R442). -/
def State.rtcLatch (s : State) (sec : Nat) : State :=
  let s := s.set2 TIM_RTCL_L_TICK TIM_RTCL_H_TICK s.rtc.tick
  let s := s.set TIM_RTCL_S_SEC sec
  { s with tim := { s.tim with rtclSec := sec, rtclErr := s.terrNow } }

/-- The second of the time core: a step drops what was measured in the old time, an error it may not slew sets the latch
(R204, R222). -/
def State.coreSecond (s : State) (ncal : Nat) : State :=
  let asked := s.tim.step.isSome
  let r := s.timSecond ncal
  let s := r.1
  let s : State := if asked && s.tim.step.isNone then s.ptpMoved else s
  if r.2 then s.itgLatch ITG_LATCH_STEPERR else s

/-- A whole second of device time; each acts once. `edges` are crystal edges counted, `phases` the measured phases of the
clock outputs (R220, R249, R250, R268–R270, R293, R365). -/
def State.deviceSecond (s : State) (ncal edges : Nat) (phases : List Int) : State :=
  let sec := tvSec s.tim.t
  if s.tim.t % secU ≠ 0 ∨ s.tim.secDone = some sec then s
  else
    let s := (s.rtcAdvance edges).rtcLatch sec
    let s := s.coreSecond ncal
    let s := s.pllEvent fun s => s.clkSecond phases
    let s := s.each 2 fun n s => s.tpApply sec n
    let s := s.ptpSecond
    s.aeludSecond.cusSecond.timEval.attnUpdate.lateOpen

/-! ### The pulse input (R237, R238) -/

/-- A used edge gives x, and the mode says what x does; `sec` is the second nearest to the edge. -/
def State.tpiUse (s : State) (x : Int) (sec : Nat) : State :=
  let xs := (x :: s.tpi.xs).take 16
  let s := { s with tpi := { s.tpi with usedAt := some s.tim.up, xs := xs } }
  let s := (s.setI TIM_TPI_OFFS_X (satI 32 x)).inc TIM_TPI_CNT_COUNT
  let mode := s.tpiMode
  let s : State := if mode = 0 then s else s.set TIM_TPI_STAT_TPILOSS 0
  if mode = 0 then s
  else if mode = 1 ∨ s.get TIM_STAT_STATE ≠ 2 then s.xdif (roundDiv x 1000)
  else if xs.length < 2 || s.tpi.offered == sec || !s.admits then s
  else
    let s := { s with tpi := { s.tpi with offered := sec } }
    s.timRelease x (stdDev xs) 0 (some s.epochCount) false 3

/-- An edge on `TPI`, `sub` after the epoch boundary: the pulse that it begins or ends is `width` ns long. The edge that
`EDGE` selects is stamped. -/
def State.tpiEdge (s : State) (sub : Nat) (e : TpiIn) : State :=
  if !s.on TIM_TPI_CFG_EN || e.falling != s.on TIM_TPI_CFG_EDGE then s
  else if e.width < 50 then s.set TIM_TPI_STAT_GLITCH 1
  else
    let t := s.now sub
    let s := s.tpiStamp t
    let sec := (t + secU / 2) / secU
    let d := uToPs ((t : Int) - (sec * secU : Nat))
    let win := max 1 (s.get TIM_TPI_CFG_WIN)
    if s.tpiMode ≠ 0 ∧ win * 1000000 < d.natAbs then s.set TIM_TPI_STAT_STRAY 1
    else s.tpiUse (d - s.getI TIM_TPI_DLY_PS) sec

/-- 3 s without a usable edge (R238). -/
def State.tpiLoss (s : State) : State :=
  if s.on TIM_TPI_CFG_EN && s.tpiMode != 0 && s.reached (s.tpi.usedAt.getD s.tpi.enabledAt) (3 * 10 ^ 9) then
    (s.set TIM_TPI_STAT_TPILOSS 1).xTidy
  else s

/-! ### Custody timers (R360, R364, R365) -/

/-- 30 min without a command in a REOPENED session; the time does not run while a command executes (R360, R375). -/
def State.idleOut (s : State) : State :=
  if s.svcBusy || !s.cus.reopened || !s.reached s.cus.cmdAt (1800 * 10 ^ 9) then s else (s.sessEnd 1).attnUpdate

/-- A challenge becomes void after 60 s (R364). -/
def State.chalOut (s : State) : State :=
  if s.reached s.cus.chalAt (60 * 10 ^ 9) then ({ s with cus := { s.cus with chal := none } }).cusRegs else s

/-- The back-off ends when its seconds have been counted, at the latest in the epoch that runs (R365). -/
def State.backoffOut (s : State) : State :=
  if ({ s.cus with waitNs := s.cus.waitNs + 1000000 } : CusSt).waited < backoffS s.cus.rec_.fail then s else (s.set CUS_STAT_BACKOFF 0).set CUS_BOFF_S 0

/-! ### The test access port (R428) -/

/-- The custody record in force in the MRAM is OPEN (R345). -/
def State.recordOpen (s : State) : Bool :=
  match s.custodyCopy false, s.custodyCopy true with
  | some a, some b => !(if a.gen < b.gen then b.sealed_ else a.sealed_)
  | some a, none => !a.sealed_
  | none, some b => !b.sealed_
  | none, none => true

/-- An instruction shifted into the test access port (R428). -/
def State.tapTake (s : State) (i : TapInstr) : State := { s with tap := i }

/-- The instructions of the test access port that act on the balls (R428). -/
def tapDrives (x : TapInstr) : Bool := x == .extest || x == .clamp || x == .highz

/-- The instruction in effect (R428): EXTEST, CLAMP and HIGHZ act as BYPASS unless `RST_N` is low and the part is OPEN, whenever
they were shifted in. -/
def State.tapActs (s : State) : TapInstr :=
  if tapDrives s.tap && !(s.sup.rstLow && s.recordOpen) then .bypass else s.tap

/-- What the device identification register reads while IDCODE is in effect (R428). -/
def State.tapIdcode (s : State) : Option (BitVec 32) := if s.tapActs = .idcode then some 0x271044B7 else none

end Sys2Proof.Machine
end

