-- ==== Sys2Proof/Machine/ClkCmd.lean ====
section
/-! DEFINITION. The commands of one family. Synthesisers and clock outputs (ch. 10). -/

namespace Sys2Proof.Machine

/-- The output of a place in a synthesiser's bank (R239). -/
def bankOutput (x : Fin 6) (r : Fin 4) : Nat := ((List.range 12).filter fun k => ckoPll k = x.val).getD r.val 12

/-- `RFI_CLASSIFY_RETRY` (R240): With no valid class, the classification is repeated once per second. -/
def execRfiClassifyRetry (count : Nat) (s : State) : Host.Outcome State Fault Refusal :=
  .next (s.rfiRetry count)

/-- `PLL_A_LOCK_RETRY` (R30): While PLL_A cannot lock, the custody core retries once per second and logs the failed attempts. -/
def execPllALockRetry (ok : Bool) (s : State) : Host.Outcome State Fault Refusal :=
  .next (s.pllEvent fun s => s.pllARetry ok)

/-- `PLL_COMMIT` (R248): PLL_CTL.GO commits the staged target at the next second as a small step or a relock. -/
def execPllCommit (m : Master) (x : Fin 6) (w : Word) (s : State) : Host.Outcome State Fault Refusal :=
  .next (s.busDo m (PLL_CTL_GO x).addr 4 w.toNat)

/-- `PLL_RELOCK` (R244): PLL_CTL.RELOCK relocks the synthesiser at the next second, refused for PLL_A once STEPPED. -/
def execPllRelock (m : Master) (x : Fin 6) (w : Word) (s : State) : Host.Outcome State Fault Refusal :=
  .next (s.busDo m (PLL_CTL_GO x).addr 4 w.toNat)

/-- `PLL_ENABLE` (R243): A write of PLL_CTL.EN enables or disables a PLL_D to PLL_F synthesiser. -/
def execPllEnable (m : Master) (x : Fin 6) (w : Word) (s : State) : Host.Outcome State Fault Refusal :=
  .next (s.busDo m (PLL_CTL_GO x).addr 4 w.toNat)

/-- `PLL_FOLLOW` (R249): PLL_CTL.FOLLOW makes the synthesiser follow the time core's RATE. -/
def execPllFollow (m : Master) (x : Fin 6) (w : Word) (s : State) : Host.Outcome State Fault Refusal :=
  .next (s.busDo m (PLL_CTL_GO x).addr 4 w.toNat)

/-- `PLL_TRIM_WRITE` (R248): A write of PLL_TRIM starts a ramp, or is refused with TRIMERR beyond ±2,000 ppm. -/
def execPllTrimWrite (m : Master) (x : Fin 6) (w : Word) (s : State) : Host.Outcome State Fault Refusal :=
  .next (s.busDo m (PLL_TRIM_TRIM x).addr 4 w.toNat)

/-- `PLL_RAMP_DONE` (R248): A small-step ramp reaches its new value and RAMP clears. -/
def execPllRampDone (x : Fin 6) (s : State) : Host.Outcome State Fault Refusal :=
  .next (s.pllRampDone x)

/-- `PLL_CAL_DONE` (R244): Band choice and VCO calibration end, and acquisition begins. -/
def execPllCalDone (x : Fin 6) (s : State) : Host.Outcome State Fault Refusal :=
  .next (s.pllEvent fun s => s.pllCalDone x)

/-- `LOCK` (R244): The phase error stays within ±500 ps at 64 reference edges and LOCK sets. -/
def execLock (x : Fin 6) (s : State) : Host.Outcome State Fault Refusal :=
  .next (s.pllEvent fun s => s.pllLock x)

/-- `ALIGNED` (R245): Phase alignment to RFI completes, the logic returns to the synthesiser and latched enables apply. -/
def execAligned (x : Fin 6) (s : State) : Host.Outcome State Fault Refusal :=
  .next (s.pllEvent fun s => s.pllAligned x)

/-- `LOL` (R246): Loss of lock: the outputs are gated and the synthesiser recalibrates. -/
def execLol (x : Fin 6) (runt : List (Fin 4)) (s : State) : Host.Outcome State Fault Refusal :=
  .next (s.pllEvent fun s => s.pllLol x (runt.map fun r => bankOutput x r))

/-- `LOR` (R246): Loss of reference: every synthesiser gates its outputs and waits in OFF. -/
def execLor (runt : List (Fin 12)) (s : State) : Host.Outcome State Fault Refusal :=
  .next (s.pllEvent fun s => s.pllLor (runt.map Fin.val))

/-- `RFI_RETURN` (R246): The reference returns and every synthesiser relocks. -/
def execRfiReturn (s : State) : Host.Outcome State Fault Refusal :=
  .next (s.pllEvent State.pllReturn)

/-- `CKO_CFG_WRITE` (R250): A write of CKO_CFG is buffered to the next whole second. -/
def execCkoCfgWrite (m : Master) (k : Fin 12) (w : Word) (s : State) : Host.Outcome State Fault Refusal :=
  .next (s.busDo m (CKO_CFG_EN k).addr 4 w.toNat)

/-- `COMPL_SET` (R252): The bank supply stays below the output's requirement for 10 µs and COMPL sets. -/
def execComplSet (k : Fin 12) (mv10 : Nat) (s : State) : Host.Outcome State Fault Refusal :=
  .next (s.complSet k mv10)

/-- `COMPL_CLEAR` (R252): The supply stays 20 mV above the requirement for 1 ms and COMPL clears. -/
def execComplClear (k : Fin 12) (mv10 : Nat) (s : State) : Host.Outcome State Fault Refusal :=
  .next (s.complClear k mv10)

/-- `COMPL_EPISODE_END` (R252): COMPL stays clear for 1 s and the compliance episode ends. -/
def execComplEpisodeEnd (k : Fin 12) (s : State) : Host.Outcome State Fault Refusal :=
  .next (s.complEnd k)

end Sys2Proof.Machine
end

