-- ==== Sys2Proof/Machine/DspCmd.lean ====
section
/-! DEFINITION. The commands of one family. The instructions of the loop DSP (ch. 6). -/

namespace Sys2Proof.Machine

/-- `DSP_NOP` (R152): Loop DSP instruction NOP. -/
def execDspNop (d : Fin 16) (s : State) : Host.Outcome State Fault Refusal :=
  .next (s.dspIssue d .nop)

/-- `DSP_MOV` (R152): Loop DSP instruction MOV. -/
def execDspMov (d : Fin 16) (s : State) : Host.Outcome State Fault Refusal :=
  .next (s.dspIssue d .mov)

/-- `DSP_ADD` (R152): Loop DSP instruction ADD. -/
def execDspAdd (d : Fin 16) (s : State) : Host.Outcome State Fault Refusal :=
  .next (s.dspIssue d .add)

/-- `DSP_ADDS` (R152): Loop DSP instruction ADDS, saturating add. -/
def execDspAdds (d : Fin 16) (s : State) : Host.Outcome State Fault Refusal :=
  .next (s.dspIssue d .adds)

/-- `DSP_SUB` (R152): Loop DSP instruction SUB. -/
def execDspSub (d : Fin 16) (s : State) : Host.Outcome State Fault Refusal :=
  .next (s.dspIssue d .sub)

/-- `DSP_SUBS` (R152): Loop DSP instruction SUBS, saturating subtract. -/
def execDspSubs (d : Fin 16) (s : State) : Host.Outcome State Fault Refusal :=
  .next (s.dspIssue d .subs)

/-- `DSP_AND` (R152): Loop DSP instruction AND. -/
def execDspAnd (d : Fin 16) (s : State) : Host.Outcome State Fault Refusal :=
  .next (s.dspIssue d .and)

/-- `DSP_OR` (R152): Loop DSP instruction OR. -/
def execDspOr (d : Fin 16) (s : State) : Host.Outcome State Fault Refusal :=
  .next (s.dspIssue d .or)

/-- `DSP_XOR` (R152): Loop DSP instruction XOR. -/
def execDspXor (d : Fin 16) (s : State) : Host.Outcome State Fault Refusal :=
  .next (s.dspIssue d .xor)

/-- `DSP_NEG` (R152): Loop DSP instruction NEG. -/
def execDspNeg (d : Fin 16) (s : State) : Host.Outcome State Fault Refusal :=
  .next (s.dspIssue d .neg)

/-- `DSP_ABS` (R152): Loop DSP instruction ABS. -/
def execDspAbs (d : Fin 16) (s : State) : Host.Outcome State Fault Refusal :=
  .next (s.dspIssue d .abs)

/-- `DSP_MIN` (R152): Loop DSP instruction MIN. -/
def execDspMin (d : Fin 16) (s : State) : Host.Outcome State Fault Refusal :=
  .next (s.dspIssue d .min)

/-- `DSP_MAX` (R152): Loop DSP instruction MAX. -/
def execDspMax (d : Fin 16) (s : State) : Host.Outcome State Fault Refusal :=
  .next (s.dspIssue d .max)

/-- `DSP_CMP` (R152): Loop DSP instruction CMP. -/
def execDspCmp (d : Fin 16) (s : State) : Host.Outcome State Fault Refusal :=
  .next (s.dspIssue d .cmp)

/-- `DSP_SHL` (R152): Loop DSP instruction SHL, immediate left shift. -/
def execDspShl (d : Fin 16) (s : State) : Host.Outcome State Fault Refusal :=
  .next (s.dspIssue d .shl)

/-- `DSP_SHR` (R152): Loop DSP instruction SHR, immediate logical right shift. -/
def execDspShr (d : Fin 16) (s : State) : Host.Outcome State Fault Refusal :=
  .next (s.dspIssue d .shr)

/-- `DSP_ASR` (R152): Loop DSP instruction ASR, immediate arithmetic right shift. -/
def execDspAsr (d : Fin 16) (s : State) : Host.Outcome State Fault Refusal :=
  .next (s.dspIssue d .asr)

/-- `DSP_SHLV` (R152): Loop DSP instruction SHLV, variable left shift. -/
def execDspShlv (d : Fin 16) (s : State) : Host.Outcome State Fault Refusal :=
  .next (s.dspIssue d .shlv)

/-- `DSP_ASRV` (R152): Loop DSP instruction ASRV, variable arithmetic right shift. -/
def execDspAsrv (d : Fin 16) (s : State) : Host.Outcome State Fault Refusal :=
  .next (s.dspIssue d .asrv)

/-- `DSP_MPY` (R148): Loop DSP instruction MPY, signed product into an accumulator. -/
def execDspMpy (d : Fin 16) (s : State) : Host.Outcome State Fault Refusal :=
  .next (s.dspIssue d .mpy)

/-- `DSP_MAC` (R148): Loop DSP instruction MAC, which adds a product to an accumulator. -/
def execDspMac (d : Fin 16) (s : State) : Host.Outcome State Fault Refusal :=
  .next (s.dspIssue d .mac)

/-- `DSP_MSU` (R148): Loop DSP instruction MSU, which subtracts a product from an accumulator. -/
def execDspMsu (d : Fin 16) (s : State) : Host.Outcome State Fault Refusal :=
  .next (s.dspIssue d .msu)

/-- `DSP_MPYU` (R148): Loop DSP instruction MPYU, unsigned product. -/
def execDspMpyu (d : Fin 16) (s : State) : Host.Outcome State Fault Refusal :=
  .next (s.dspIssue d .mpyu)

/-- `DSP_FTAP` (R154): Loop DSP instruction FTAP, a filter tap with two loads and pointer updates. -/
def execDspFtap (d : Fin 16) (s : State) : Host.Outcome State Fault Refusal :=
  .next (s.dspIssue d .ftap)

/-- `DSP_FTAPS` (R154): Loop DSP instruction FTAPS, a subtracting filter tap. -/
def execDspFtaps (d : Fin 16) (s : State) : Host.Outcome State Fault Refusal :=
  .next (s.dspIssue d .ftaps)

/-- `DSP_LD` (R151): Loop DSP instruction LD, a load from X or Y in one addressing mode. -/
def execDspLd (d : Fin 16) (s : State) : Host.Outcome State Fault Refusal :=
  .next (s.dspIssue d .ld)

/-- `DSP_ST` (R151): Loop DSP instruction ST, a store to X or Y. -/
def execDspSt (d : Fin 16) (s : State) : Host.Outcome State Fault Refusal :=
  .next (s.dspIssue d .st)

/-- `DSP_LDIL` (R152): Loop DSP instruction LDIL. -/
def execDspLdil (d : Fin 16) (s : State) : Host.Outcome State Fault Refusal :=
  .next (s.dspIssue d .ldil)

/-- `DSP_LDIH` (R152): Loop DSP instruction LDIH. -/
def execDspLdih (d : Fin 16) (s : State) : Host.Outcome State Fault Refusal :=
  .next (s.dspIssue d .ldih)

/-- `DSP_ADDI` (R152): Loop DSP instruction ADDI. -/
def execDspAddi (d : Fin 16) (s : State) : Host.Outcome State Fault Refusal :=
  .next (s.dspIssue d .addi)

/-- `DSP_CMPI` (R152): Loop DSP instruction CMPI. -/
def execDspCmpi (d : Fin 16) (s : State) : Host.Outcome State Fault Refusal :=
  .next (s.dspIssue d .cmpi)

/-- `DSP_CLRA` (R153): Loop DSP instruction CLRA. -/
def execDspClra (d : Fin 16) (s : State) : Host.Outcome State Fault Refusal :=
  .next (s.dspIssue d .clra)

/-- `DSP_ADDA` (R153): Loop DSP instruction ADDA. -/
def execDspAdda (d : Fin 16) (s : State) : Host.Outcome State Fault Refusal :=
  .next (s.dspIssue d .adda)

/-- `DSP_SUBA` (R153): Loop DSP instruction SUBA. -/
def execDspSuba (d : Fin 16) (s : State) : Host.Outcome State Fault Refusal :=
  .next (s.dspIssue d .suba)

/-- `DSP_NEGA` (R153): Loop DSP instruction NEGA. -/
def execDspNega (d : Fin 16) (s : State) : Host.Outcome State Fault Refusal :=
  .next (s.dspIssue d .nega)

/-- `DSP_ABSA` (R153): Loop DSP instruction ABSA. -/
def execDspAbsa (d : Fin 16) (s : State) : Host.Outcome State Fault Refusal :=
  .next (s.dspIssue d .absa)

/-- `DSP_SHA` (R149): Loop DSP instruction SHA, an arithmetic accumulator shift. -/
def execDspSha (d : Fin 16) (s : State) : Host.Outcome State Fault Refusal :=
  .next (s.dspIssue d .sha)

/-- `DSP_SHAR` (R149): Loop DSP instruction SHAR, a rounding accumulator shift. -/
def execDspShar (d : Fin 16) (s : State) : Host.Outcome State Fault Refusal :=
  .next (s.dspIssue d .shar)

/-- `DSP_XFR` (R152): Loop DSP instruction XFR, which moves any register number into a D register. -/
def execDspXfr (d : Fin 16) (s : State) : Host.Outcome State Fault Refusal :=
  .next (s.dspIssue d .xfr)

/-- `DSP_XFW` (R152): Loop DSP instruction XFW, which moves a D register into any register number. -/
def execDspXfw (d : Fin 16) (s : State) : Host.Outcome State Fault Refusal :=
  .next (s.dspIssue d .xfw)

/-- `DSP_BRA` (R157): Loop DSP instruction BRA, with one delay slot. -/
def execDspBra (d : Fin 16) (s : State) : Host.Outcome State Fault Refusal :=
  .next (s.dspIssue d .bra)

/-- `DSP_BCC` (R157): Loop DSP instruction Bcc, a conditional branch with one delay slot. -/
def execDspBcc (d : Fin 16) (s : State) : Host.Outcome State Fault Refusal :=
  .next (s.dspIssue d .bcc)

/-- `DSP_CALL` (R157): Loop DSP instruction CALL, with the return address in D15. -/
def execDspCall (d : Fin 16) (s : State) : Host.Outcome State Fault Refusal :=
  .next (s.dspIssue d .call)

/-- `DSP_RET` (R157): Loop DSP instruction RET. -/
def execDspRet (d : Fin 16) (s : State) : Host.Outcome State Fault Refusal :=
  .next (s.dspIssue d .ret)

/-- `DSP_RTI` (R160): Loop DSP instruction RTI restores SR and resumes at IPC, swapping the shadow bank back. -/
def execDspRti (d : Fin 16) (s : State) : Host.Outcome State Fault Refusal :=
  .next (s.dspIssue d .rti)

/-- `DSP_LPS` (R158): Loop DSP instruction LPS arms a loop context with an immediate count. -/
def execDspLps (d : Fin 16) (s : State) : Host.Outcome State Fault Refusal :=
  .next (s.dspIssue d .lps)

/-- `DSP_LPR` (R158): Loop DSP instruction LPR arms a loop context with a count from a register. -/
def execDspLpr (d : Fin 16) (s : State) : Host.Outcome State Fault Refusal :=
  .next (s.dspIssue d .lpr)

/-- `DSP_LPX` (R158): Loop DSP instruction LPX disarms a loop context. -/
def execDspLpx (d : Fin 16) (s : State) : Host.Outcome State Fault Refusal :=
  .next (s.dspIssue d .lpx)

/-- `DSP_WAIT` (R152): Loop DSP instruction WAIT waits for an interrupt. -/
def execDspWait (d : Fin 16) (s : State) : Host.Outcome State Fault Refusal :=
  .next (s.dspIssue d .wait)

/-- `DSP_TRAP` (R164): Loop DSP instruction TRAP takes fault 0x7. -/
def execDspTrap (d : Fin 16) (s : State) : Host.Outcome State Fault Refusal :=
  .next (s.dspIssue d .trap)

/-- `DSP_SYNC` (R142): Loop DSP instruction SYNC stalls until the store queue is empty and no block copy runs. -/
def execDspSync (d : Fin 16) (s : State) : Host.Outcome State Fault Refusal :=
  .next (s.dspIssue d .sync)

/-- `DSP_ELD` (R142): Loop DSP instruction ELD, an E-space load that stalls until its value returns. -/
def execDspEld (d : Fin 16) (s : State) : Host.Outcome State Fault Refusal :=
  .next (s.dspIssue d .eld)

/-- `DSP_EST` (R142): Loop DSP instruction EST, an E-space store posted to the store queue. -/
def execDspEst (d : Fin 16) (s : State) : Host.Outcome State Fault Refusal :=
  .next (s.dspIssue d .est)

/-- `DSP_BLKX` (R143): Loop DSP instruction BLKX, a background block copy from E space to X. -/
def execDspBlkx (d : Fin 16) (s : State) : Host.Outcome State Fault Refusal :=
  .next (s.dspIssue d .blkx)

/-- `DSP_BLKY` (R143): Loop DSP instruction BLKY, a background block copy from E space to Y. -/
def execDspBlky (d : Fin 16) (s : State) : Host.Outcome State Fault Refusal :=
  .next (s.dspIssue d .blky)

/-- `DSP_ANG` (R155): Loop DSP instruction ANG, atan2 in fractions of a cycle. -/
def execDspAng (d : Fin 16) (s : State) : Host.Outcome State Fault Refusal :=
  .next (s.dspIssue d .ang)

/-- `DSP_MAG` (R155): Loop DSP instruction MAG, a magnitude. -/
def execDspMag (d : Fin 16) (s : State) : Host.Outcome State Fault Refusal :=
  .next (s.dspIssue d .mag)

/-- `DSP_DIVF` (R155): Loop DSP instruction DIVF, a fractional divide. -/
def execDspDivf (d : Fin 16) (s : State) : Host.Outcome State Fault Refusal :=
  .next (s.dspIssue d .divf)

end Sys2Proof.Machine
end

