-- ==== Sys2Proof/Machine/DspCtl.lean ====
section
/-! DEFINITION. The commands of one family. Control of the loop DSPs and what happens in them beside instructions (ch. 6). -/

namespace Sys2Proof.Machine

/-- The bus address of a word of a loop DSP's memory (R145, R400). -/
def dspSpaceAddr (d : Fin 16) (sp : DspSpace) (ofs : Nat) : Nat :=
  0x60000000 + d.val * 0x40000 + (match sp with | .x => 0x10000 | .y => 0x20000 | .p => 0x30000) + ofs % 0x10000

/-- `DSP_BLOCK_COPY_DONE` (R143): A background block copy lands its last word and BLKBUSY clears. -/
def execDspBlockCopyDone (d : Fin 16) (s : State) : Host.Outcome State Fault Refusal :=
  .next (s.blkDone d)

/-- `DSP_POSTED_BUS_ERROR` (R144): A target answers a posted EST or block copy with a bus error, and the DSP takes fault 0x2. -/
def execDspPostedBusError (d : Fin 16) (s : State) : Host.Outcome State Fault Refusal :=
  .next (s.dspPosted d)

/-- `DSP_INTERRUPT_ENTRY` (R160): A pending enabled source is entered: IPC and ISR are saved, IE is cleared and the vector is taken. -/
def execDspInterruptEntry (d : Fin 16) (s : State) : Host.Outcome State Fault Refusal :=
  .next (s.dspInterrupt d)

/-- `DSP_TIMER_MATCH` (R159): LDSP_CYC equals LDSP_TCMP and sets LDSP_IRQ.TIMER. -/
def execDspTimerMatch (d : Fin 16) (s : State) : Host.Outcome State Fault Refusal :=
  .next (s.dspTimer d)

/-- `DSP_WATCHDOG_EXPIRY` (R167): The watchdog count reaches LIMIT, and the DSP enters FAULTHALT with FCODE 0x6. -/
def execDspWatchdogExpiry (d : Fin 16) (s : State) : Host.Outcome State Fault Refusal :=
  .next (s.dspWatchdog d)

/-- `DSP_WDOG_KICK` (R167): A write of LDSP_WDOG.KICK returns the watchdog count to 0. -/
def execDspWdogKick (m : Master) (d : Fin 16) (w : Word) (s : State) : Host.Outcome State Fault Refusal :=
  .next (s.busDo m (LDSP_WDOG_KICK d).addr 4 w.toNat)

/-- `DSP_RUN` (R165): LDSP_CTL.RUN = 1 starts the DSP from RESET at word 0, or resumes it from HALT. -/
def execDspRun (m : Master) (d : Fin 16) (w : Word) (s : State) : Host.Outcome State Fault Refusal :=
  .next (s.busDo m (LDSP_CTL_RUN d).addr 4 w.toNat)

/-- `DSP_HALT` (R165): LDSP_CTL.RUN = 0 halts the DSP at the next instruction boundary once its stores complete. -/
def execDspHalt (m : Master) (d : Fin 16) (w : Word) (s : State) : Host.Outcome State Fault Refusal :=
  .next (s.busDo m (LDSP_CTL_RUN d).addr 4 w.toNat)

/-- `DSP_RESET` (R165): LDSP_CTL.RESET puts the DSP in RESET, clearing its registers. -/
def execDspReset (m : Master) (d : Fin 16) (w : Word) (s : State) : Host.Outcome State Fault Refusal :=
  .next (s.busDo m (LDSP_CTL_RUN d).addr 4 w.toNat)

/-- `DSP_STEP` (R165): LDSP_CTL.STEP in HALT executes one instruction. -/
def execDspSingleStep (m : Master) (d : Fin 16) (w : Word) (s : State) : Host.Outcome State Fault Refusal :=
  .next (s.busDo m (LDSP_CTL_RUN d).addr 4 w.toNat)

/-- `DSP_SHADOW_SELECT` (R165): A write of LDSP_CTL.SHADOW selects the interrupt model in RESET or HALT, or sets CFGERR otherwise. -/
def execDspShadowSelect (m : Master) (d : Fin 16) (w : Word) (s : State) : Host.Outcome State Fault Refusal :=
  .next (s.busDo m (LDSP_CTL_RUN d).addr 4 w.toNat)

/-- `DSP_GROUP_CLOCK` (R166): LDSP_GCTL.CKEN stops or resumes the group's four DSPs. -/
def execDspGroupClock (m : Master) (g : Fin 4) (w : Word) (s : State) : Host.Outcome State Fault Refusal :=
  .next (s.busDo m (LDSP_GCTL_CKEN g).addr 4 w.toNat)

/-- `DSP_GROUP_RESET` (R165): LDSP_GCTL.RST holds the group's four DSPs in RESET. -/
def execDspGroupReset (m : Master) (g : Fin 4) (w : Word) (s : State) : Host.Outcome State Fault Refusal :=
  .next (s.busDo m (LDSP_GCTL_CKEN g).addr 4 w.toNat)

/-- `DSP_DOORBELL` (R159): A write of LDSP_DBELL sets LDSP_IRQ.DBELL. -/
def execDspDoorbell (m : Master) (d : Fin 16) (w : Word) (s : State) : Host.Outcome State Fault Refusal :=
  .next (s.busDo m (LDSP_DBELL_MSG d).addr 4 w.toNat)

/-- `DSP_OUTBOX` (R159): A write of LDSP_OUTBOX sets LDSP_NIRQ.OUTBOX for the navigation core. -/
def execDspOutbox (m : Master) (d : Fin 16) (w : Word) (s : State) : Host.Outcome State Fault Refusal :=
  .next (s.busDo m (LDSP_OUTBOX_MSG d).addr 4 w.toNat)

/-- `DSP_MEMORY_ACCESS` (R145): Another master accesses the DSP's X, Y or P memory, with P writable only in RESET, HALT or FAULTHALT. -/
def execDspMemoryAccess (m : Master) (d : Fin 16) (sp : DspSpace) (ofs : Nat) (size : AccSize) (wr : Option Word) (s : State) : Host.Outcome State Fault Refusal :=
  .next (s.busAccess m (dspSpaceAddr d sp ofs) (AccSize.bytes size) wr)

end Sys2Proof.Machine
end

