-- ==== Sys2Proof/Machine/EngCmd.lean ====
section
/-! DEFINITION. The commands of one family. Channel engines, dwell programs, result rings, clusters and migration (ch. 3). -/

namespace Sys2Proof.Machine

/-- `DWELL_QUEUE` (R68): A write of ENG_DWQ queues a dwell and takes a token, or is refused by engine state, queue depth or pool. -/
def execDwellQueue (m : Master) (e : Fin 1024) (w : Word) (s : State) : Host.Outcome State Fault Refusal :=
  .next (s.busDo m (ENG_DWQ_START e).addr 4 w.toNat)

/-- `DWELL_START` (R69): A queued dwell starts and loads up to 64 instructions into the program buffer. -/
def execDwellStart (e : Fin 1024) (s : State) : Host.Outcome State Fault Refusal :=
  .next (s.dwellStart e)

/-- `DWELL_NOP` (R70): Dwell instruction NOP does nothing. -/
def execDwellNop (e : Fin 1024) (s : State) : Host.Outcome State Fault Refusal :=
  .next (s.dwellExec e 0 (dwellActNop e))

/-- `DWELL_ABASE` (R70): Dwell instruction ABASE sets the arm offset base. -/
def execDwellAbase (e : Fin 1024) (s : State) : Host.Outcome State Fault Refusal :=
  .next (s.dwellExec e 1 (dwellActAbase e))

/-- `DWELL_AOFS` (R70): Dwell instruction AOFS sets the offsets of a range of arms from the base and step. -/
def execDwellAofs (e : Fin 1024) (s : State) : Host.Outcome State Fault Refusal :=
  .next (s.dwellExec e 2 (dwellActAofs e))

/-- `DWELL_ASRC` (R70): Dwell instruction ASRC sets the enable, generator and sub-carrier of a range of arms. -/
def execDwellAsrc (e : Fin 1024) (s : State) : Host.Outcome State Fault Refusal :=
  .next (s.dwellExec e 3 (dwellActAsrc e))

/-- `DWELL_ACC` (R71): Dwell instruction ACC optionally clears the accumulators, then accumulates over its span. -/
def execDwellAcc (e : Fin 1024) (samples : List LinkSample) (s : State) : Host.Outcome State Fault Refusal :=
  .next (s.dwellAcc e samples)

/-- `DWELL_SKIP` (R71): Dwell instruction SKIP consumes its span without accumulating. -/
def execDwellSkip (e : Fin 1024) (samples : List LinkSample) (s : State) : Host.Outcome State Fault Refusal :=
  .next (s.dwellExec e 5 (dwellActSpan e false samples))

/-- `DWELL_DUMP` (R75): Dwell instruction DUMP marks a boundary, advances DSEQ and exports a coherent record. -/
def execDwellDump (e : Fin 1024) (sidx : Nat) (s : State) : Host.Outcome State Fault Refusal :=
  .next (s.dwellExec e 6 (dwellActDump e sidx false))

/-- `DWELL_NCACC` (R79): Dwell instruction NCACC adds I² + Q² to each arm's non-coherent sum and clears the coherent accumulators. -/
def execDwellNcacc (e : Fin 1024) (s : State) : Host.Outcome State Fault Refusal :=
  .next (s.dwellExec e 7 (dwellActNcacc e))

/-- `DWELL_NCDUMP` (R79): Dwell instruction NCDUMP marks a boundary and exports a non-coherent record to the ring, or to the search map when ganged. -/
def execDwellNcdump (e : Fin 1024) (sidx : Nat) (s : State) : Host.Outcome State Fault Refusal :=
  .next (s.dwellExec e 8 (dwellActDump e sidx true))

/-- `DWELL_SETC` (R70): Dwell instruction SETC loads a loop counter. -/
def execDwellSetc (e : Fin 1024) (s : State) : Host.Outcome State Fault Refusal :=
  .next (s.dwellExec e 9 (dwellActSetc e))

/-- `DWELL_LOOP` (R70): Dwell instruction LOOP decrements a counter and jumps while it is not 0. -/
def execDwellLoop (e : Fin 1024) (s : State) : Host.Outcome State Fault Refusal :=
  .next (s.dwellExec e 0xA (dwellActLoop e))

/-- `DWELL_JMP` (R70): Dwell instruction JMP jumps within the dwell program. -/
def execDwellJmp (e : Fin 1024) (s : State) : Host.Outcome State Fault Refusal :=
  .next (s.dwellExec e 0xB (dwellActJmp e))

/-- `DWELL_IRQ` (R70): Dwell instruction IRQ writes ICODE, sets PIRQ and raises CLU_IRQ.PROG. -/
def execDwellIrq (e : Fin 1024) (s : State) : Host.Outcome State Fault Refusal :=
  .next (s.dwellExec e 0xC (dwellActIrq e))

/-- `DWELL_END` (R70): Dwell instruction END ends the dwell and returns its token. -/
def execDwellEnd (e : Fin 1024) (s : State) : Host.Outcome State Fault Refusal :=
  .next (s.dwellExec e 0xD (dwellActEnd e))

/-- `RECORD_TO_RING` (R80): A waiting record is written to the dump ring, or dropped when the ring is full. -/
def execRecordToRing (e : Fin 1024) (s : State) : Host.Outcome State Fault Refusal :=
  .next (s.recordToRing e)

/-- `ENG_COMMIT` (R81): A write of ENG_TGT commits the staging copy as the pending set. -/
def execEngCommit (m : Master) (e : Fin 1024) (w : Word) (s : State) : Host.Outcome State Fault Refusal :=
  .next (s.busDo m (ENG_TGT_DSEQ e).addr 4 w.toNat)

/-- `ENG_CANCEL` (R73): ENG_CTL.CANCEL ends the running dwell and removes the queued dwells, returning their tokens. -/
def execEngCancel (m : Master) (e : Fin 1024) (w : Word) (s : State) : Host.Outcome State Fault Refusal :=
  .next (s.busDo m (ENG_CTL_CANCEL e).addr 4 w.toNat)

/-- `ENG_APPLY` (R83): ENG_CTL.APPLY applies the pending set at once while no dwell runs. -/
def execEngApply (m : Master) (e : Fin 1024) (w : Word) (s : State) : Host.Outcome State Fault Refusal :=
  .next (s.busDo m (ENG_CTL_CANCEL e).addr 4 w.toNat)

/-- `ENG_SETROLE` (R84): ENG_CTL.SETROLE moves the engine between IDLE, TRACKING and ACQUIRING. -/
def execEngSetrole (m : Master) (e : Fin 1024) (w : Word) (s : State) : Host.Outcome State Fault Refusal :=
  .next (s.busDo m (ENG_CTL_CANCEL e).addr 4 w.toNat)

/-- `RING_RELEASE` (R80): A write of CLU_RING_RP releases records, or sets RPERR when it passes the records held. -/
def execRingRelease (m : Master) (c : Fin 16) (w : Word) (s : State) : Host.Outcome State Fault Refusal :=
  .next (s.busDo m (CLU_RING_RP_RP c).addr 4 w.toNat)

/-- `RING_RECONFIGURE` (R80): A write of CLU_RING resets the ring pointers and discards the records held. -/
def execRingReconfigure (m : Master) (c : Fin 16) (w : Word) (s : State) : Host.Outcome State Fault Refusal :=
  .next (s.busDo m (CLU_RING_ADDR c).addr 4 w.toNat)

/-- `CTINV_WRITE` (R65): A write of CLU_CTINV.FLUSH requests a flush at the next epoch. -/
def execCtinvWrite (m : Master) (c : Fin 16) (w : Word) (s : State) : Host.Outcome State Fault Refusal :=
  .next (s.busDo m (CLU_CTINV_FLUSH c).addr 4 w.toNat)

/-- `CLU_CKEN_WRITE` (R73): Clearing CLU_CTL.CKEN stops the cluster clock and cancels every dwell. -/
def execCluCkenWrite (m : Master) (c : Fin 16) (w : Word) (s : State) : Host.Outcome State Fault Refusal :=
  .next (s.busDo m (CLU_CTL_CKEN c).addr 4 w.toNat)

/-- `CLU_BIST` (R86): CLU_CTL.BIST starts the engine self-test, or is refused unless every engine is IDLE, REPAIR or RETIRED. -/
def execCluBist (m : Master) (c : Fin 16) (w : Word) (s : State) : Host.Outcome State Fault Refusal :=
  .next (s.busDo m (CLU_CTL_CKEN c).addr 4 w.toNat)

/-- `BISTDONE` (R86): The self-test ends, and failing engines are RETIRED with umber entries. -/
def execBistdone (c : Fin 16) (failed : List (Fin 64)) (s : State) : Host.Outcome State Fault Refusal :=
  .next (((s.bistDone c (failed.map Fin.val)).repairTested c).attnUpdate)

/-- `CLU_GANG_WRITE` (R87): A write of CLU_GANG.GANG requests a gang change at the next epoch. -/
def execCluGangWrite (m : Master) (c : Fin 16) (w : Word) (s : State) : Host.Outcome State Fault Refusal :=
  .next (s.busDo m (CLU_GANG_GANG c).addr 4 w.toNat)

/-- `GANG_DWELL_QUEUE` (R87): A write of CLU_GDWQ queues one dwell on every ACQUIRING engine, or refuses the whole write. -/
def execGangDwellQueue (m : Master) (c : Fin 16) (w : Word) (s : State) : Host.Outcome State Fault Refusal :=
  .next (s.busDo m (CLU_GDWQ_START c).addr 4 w.toNat)

/-- `MIG_ARM` (R88): A write of ENG_MIG with ARM and FROM arms an IDLE target for a TRACKING source. -/
def execMigArm (m : Master) (e : Fin 1024) (w : Word) (s : State) : Host.Outcome State Fault Refusal :=
  .next (s.busDo m (ENG_MIG_ARM e).addr 4 w.toNat)

/-- `MIG_TIMEOUT` (R88): No boundary within 100 ms of arming aborts the migration with MIGERR. -/
def execMigTimeout (e : Fin 1024) (s : State) : Host.Outcome State Fault Refusal :=
  .next (s.migTimeout e)

end Sys2Proof.Machine
end

