-- ==== Sys2Proof/Machine/EptCmd.lean ====
section
/-! DEFINITION. The commands of one family. Ethernet ports, PTP and status datagrams (ch. 11). -/

namespace Sys2Proof.Machine

/-- `FRAME_RECEIVED` (R272): A received Ethernet frame is classified and dropped, terminated, forwarded or answered. -/
def execFrameReceived (p : Fin 8) (f : FrameIn) (s : State) : Host.Outcome State Fault Refusal :=
  .next (s.frameRx p f)

/-- `FORWARD_COPY_SENT` (R267): A forwarded copy's last octet leaves and its credit, and for the last copy its buffer, return. -/
def execForwardCopySent (p : Fin 8) (sub : Nat) (s : State) : Host.Outcome State Fault Refusal :=
  .next (s.copySent p sub)

/-- `SYNC_RX` (R268): A received Sync gives one offset sample to the slot's servo. -/
def execSyncRx (p : Fin 8) (sub : Nat) (m : PtpMsg) (s : State) : Host.Outcome State Fault Refusal :=
  .next (s.syncRx p sub m)

/-- `FOLLOW_UP_RX` (R265): A received Follow_Up is matched to its Sync. -/
def execFollowUpRx (p : Fin 8) (m : PtpMsg) (s : State) : Host.Outcome State Fault Refusal :=
  .next (s.followUpRx p m)

/-- `ANNOUNCE_RX` (R262): A received Announce enters the best master clock algorithm. -/
def execAnnounceRx (p : Fin 8) (m : PtpMsg) (s : State) : Host.Outcome State Fault Refusal :=
  .next (s.announceRx p m)

/-- `DELAY_REQ_RX` (R260): A received Delay_Req is answered with a Delay_Resp. -/
def execDelayReqRx (p : Fin 8) (sub : Nat) (m : PtpMsg) (s : State) : Host.Outcome State Fault Refusal :=
  .next (s.delayReqRx p sub m)

/-- `DELAY_RESP_RX` (R265): A received Delay_Resp is matched to the outstanding Delay_Req. -/
def execDelayRespRx (p : Fin 8) (m : PtpMsg) (s : State) : Host.Outcome State Fault Refusal :=
  .next (s.delayRespRx p m)

/-- `PDELAY_REQ_RX` (R266): A received Pdelay_Req is answered by the port. -/
def execPdelayReqRx (p : Fin 8) (sub : Nat) (txSub : Nat) (m : PtpMsg) (s : State) : Host.Outcome State Fault Refusal :=
  .next (s.pdelayReqRx p sub txSub m)

/-- `PDELAY_RESP_RX` (R265): A received Pdelay_Resp or its follow-up is matched to the outstanding request. -/
def execPdelayRespRx (p : Fin 8) (sub : Nat) (m : PtpMsg) (s : State) : Host.Outcome State Fault Refusal :=
  .next (s.pdelayRespRx p sub m)

/-- `SYNC_TX` (R259): At each sync interval, the port sends Sync, and a Follow_Up when two-step. -/
def execSyncTx (p : Fin 8) (slot : Fin 2) (sub : Nat) (s : State) : Host.Outcome State Fault Refusal :=
  .next (s.syncTx p slot sub)

/-- `ANNOUNCE_TX` (R264): At each announce interval, the port sends Announce with live trust values. -/
def execAnnounceTx (p : Fin 8) (slot : Fin 2) (s : State) : Host.Outcome State Fault Refusal :=
  .next (s.announceTx p slot)

/-- `DELAY_REQ_TX` (R265): A client sends its next Delay_Req or Pdelay_Req after the answer or after 1 s. -/
def execDelayReqTx (p : Fin 8) (slot : Fin 2) (sub : Nat) (s : State) : Host.Outcome State Fault Refusal :=
  .next (s.delayReqTx p slot sub)

/-- `ANNOUNCE_TIMEOUT` (R268): The announce receipt timeout expires and the slot loses LOCKED. -/
def execAnnounceTimeout (p : Fin 8) (slot : Fin 2) (s : State) : Host.Outcome State Fault Refusal :=
  .next (s.announceTimeout p slot)

/-- `PTP_SOURCE_SWITCH` (R271): AUTO selection switches source slot with bias B, or refuses with DISAGREE. -/
def execPtpSourceSwitch (s : State) : Host.Outcome State Fault Refusal :=
  .next s.ptpSwitch

/-- `ARP_REQUEST` (R272): An ARP request for the port's address is answered. -/
def execArpRequest (p : Fin 8) (target : Word) (s : State) : Host.Outcome State Fault Refusal :=
  .next (s.arpRx p target)

/-- `NEIGHBOUR_SOLICITATION` (R272): An IPv6 neighbour solicitation for the port's address is answered. -/
def execNeighbourSolicitation (p : Fin 8) (target : BitVec 128) (s : State) : Host.Outcome State Fault Refusal :=
  .next (s.nsRx p target)

/-- `GET` (R275): A status GET is answered with the latest datagram of its type, within 16 per second. -/
def execStatusGet (p : Fin 8) (src : BitVec 128) (sport : BitVec 16) (payload : List Byte) (s : State) : Host.Outcome State Fault Refusal :=
  .next (s.statusGet p (decide (2 ^ 32 ≤ src.toNat)) src sport.toNat payload)

/-- `TIME_DATAGRAM` (R274): Within 100 ms after each second, a TIME datagram is sent. -/
def execTimeDatagram (p : Fin 8) (s : State) : Host.Outcome State Fault Refusal :=
  .next (s.timeDatagram p)

/-- `TP_NEXT_DATAGRAM` (R234): By S + 800 ms, a TP-NEXT datagram is sent per enabled output. -/
def execTpNextDatagram (p : Fin 8) (n : Fin 2) (s : State) : Host.Outcome State Fault Refusal :=
  .next (s.tpNextDatagram p n)

/-- `MEAS_DATAGRAM` (R274): Within 50 ms after each report instant, MEAS datagrams are sent. -/
def execMeasDatagram (p : Fin 8) (_ _ : Unit) (s : State) : Host.Outcome State Fault Refusal :=
  .next (s.measDatagram p)

/-- `INTEG_DATAGRAM` (R274): An INTEG datagram is sent on a change of state and every EPT_STS_INT seconds. -/
def execIntegDatagram (p : Fin 8) (s : State) : Host.Outcome State Fault Refusal :=
  .next (s.integDatagram p)

/-- `IDENT_DATAGRAM` (R276): An IDENT datagram is sent every 10 s and within 1 s of link up. -/
def execIdentDatagram (p : Fin 8) (s : State) : Host.Outcome State Fault Refusal :=
  .next (s.identDatagram p)

/-- `UMBER_SUM_DATAGRAM` (R277): An UMBER-SUM datagram is sent every 60 s. -/
def execUmberSumDatagram (p : Fin 8) (s : State) : Host.Outcome State Fault Refusal :=
  .next (s.umberSumDatagram p)

/-- `EPT_LINK_CHANGE` (R257): A port link goes up or down, setting LINKCHG. -/
def execEptLinkChange (p : Fin 8) (up : Bool) (speed : Fin 8) (s : State) : Host.Outcome State Fault Refusal :=
  .next (s.linkChange p up speed)

/-- `EPT_CRED_WRITE` (R267): A write of EPT_FWD.CRED changes FREE, or is refused with CFGERR. -/
def execEptCredWrite (m : Master) (p : Fin 8) (w : Word) (s : State) : Host.Outcome State Fault Refusal :=
  .next (s.busDo m (EPT_FWD_CRED p).addr 4 w.toNat)

/-- `SLOT_SAMPLES_AGED` (R268): A slot that holds fewer than 8 offset samples from the last 2 s loses LOCKED although its Announce has not timed out. -/
def execSlotSamplesAged (slot : Fin 2) (s : State) : Host.Outcome State Fault Refusal :=
  .next (s.slotAged slot)

end Sys2Proof.Machine
end

