-- ==== Sys2Proof/Machine/ItgCmd.lean ====
section
/-! DEFINITION. The commands of one family. Integrity: evidence, verdicts, latches and fix bursts (ch. 8). -/

namespace Sys2Proof.Machine

/-- `EVIDENCE_RECORD` (R201): The custody core turns a new evidence record into verdicts and applies the transitions that follow. -/
def execEvidenceRecord (x : EvidIn) (s : State) : Host.Outcome State Fault Refusal :=
  .next ((s.evidence x).attnUpdate)

/-- `TERR_BOUND_CROSS` (R204): TERR crosses ITG_TRBND, ITG_HBND, ITG_DGBND or 1 ms, and the integrity block changes state or code. -/
def execTerrBoundCross (s : State) : Host.Outcome State Fault Refusal :=
  .next (s.itgTerr.attnUpdate)

/-- `HOLDOVER_AGE_LIMIT` (R204): The holdover age passes HOLDMAX, and the state moves to DEGRADED. -/
def execHoldoverAgeLimit (s : State) : Host.Outcome State Fault Refusal :=
  .next (s.itgAge.attnUpdate)

/-- `HOLDIN_TIMEOUT` (R204): No fix for HOLDIN in continuous tracking moves TRUSTED to HOLDOVER. -/
def execHoldinTimeout (s : State) : Host.Outcome State Fault Refusal :=
  .next (s.itgNoFix.attnUpdate)

/-- `WOAD_LATCH_EXPIRY` (R205): After 30 min without a woad FAIL and with a woad PASS, the part clears the WOAD latch itself. -/
def execWoadLatchExpiry (s : State) : Host.Outcome State Fault Refusal :=
  .next (s.woadExpiry.attnUpdate)

/-- `ITG_LATCH_WRITE` (R205): A write of 1 to ITG_LATCH by the custody core for the owner clears a latch while OPEN or REOPENED. -/
def execItgLatchWrite (m : Master) (w : Word) (s : State) : Host.Outcome State Fault Refusal :=
  .next (s.busDo m ITG_LATCH_STEPERR.addr 4 w.toNat)

/-- `BURST_START` (R306): A periodic wake begins a fix burst with the front-end wake, then releases the array after LEAD. -/
def execBurstStart (s : State) : Host.Outcome State Fault Refusal :=
  .next s.burstStart

/-- `BURST_END` (R216): After BLEN, the first qualifying fix ends the burst, and the next interval is written to RTC_WAKE. -/
def execBurstEnd (s : State) : Host.Outcome State Fault Refusal :=
  .next (s.burstEnd.attnUpdate)

/-- `BMAX` (R216): A burst reaching BMAX without a qualifying fix is missed, and MISSED rises. -/
def execBmax (s : State) : Host.Outcome State Fault Refusal :=
  .next (s.burstMax.attnUpdate)

/-- `BURST_ARRAY_RELEASE` (R50): FEC_PWR.LEAD ms after the burst's front-end wake, the array is released for the burst. -/
def execBurstArrayRelease (s : State) : Host.Outcome State Fault Refusal :=
  .next s.burstRelease

end Sys2Proof.Machine
end

