-- ==== Sys2Proof/Machine/LinkCmd.lean ====
section
/-! DEFINITION. The commands of one family. Sample links and front-end control (ch. 2). -/

namespace Sys2Proof.Machine

/-- `SLK_ENABLE` (R41): A write of SLK_CFG.EN to 1 applies the held fields and starts link training. -/
def execSlkEnable (m : Master) (n : Fin 8) (w : Word) (eyes : List (Option (Fin 64))) (s : State) : Host.Outcome State Fault Refusal :=
  .next (s.busDo m (SLK_CFG_EN n).addr 4 w.toNat eyes)

/-- `MARKER_RECEIVED` (R39): A frame marker sample is stamped in device time and sets the control-word alignment. -/
def execMarkerReceived (n : Fin 8) (sub gap : Nat) (eyes : List (Option (Fin 64))) (s : State) : Host.Outcome State Fault Refusal :=
  .next (s.linkMarker n sub gap eyes)

/-- `CONTROL_WORD` (R40): A 24-bit control word is checked by CRC-8 and acted on by its type: GAIN, STATUS, TEMP or IDLE. -/
def execControlWord (n : Fin 8) (w : BitVec 24) (s : State) : Host.Outcome State Fault Refusal :=
  .next (s.linkWord n w.toNat)

/-- `CLK_FAULT` (R42): No link clock edge for 1 µs raises CLK and starts sample substitution. -/
def execClkFault (n : Fin 8) (s : State) : Host.Outcome State Fault Refusal :=
  .next (s.linkClk n)

/-- `MARK_FAULT` (R42): No marker for 1.1 ms raises MARK, and word alignment restarts. -/
def execMarkFault (n : Fin 8) (s : State) : Host.Outcome State Fault Refusal :=
  .next (s.linkMark n)

/-- `STUCK_FAULT` (R42): A used lane without a transition for 1 ms raises STUCK. -/
def execStuckFault (n : Fin 8) (lane : Fin 4) (s : State) : Host.Outcome State Fault Refusal :=
  .next (s.linkStuck n lane)

/-- `SLIP_FAULT` (R42): The receive queue leaves its bounds, and slipped samples are substituted while it is re-centred. -/
def execSlipFault (n : Fin 8) (slipped : Nat) (s : State) : Host.Outcome State Fault Refusal :=
  .next (s.linkSlip n slipped)

/-- `FAULT_EPISODE_END` (R44): After 1 s free of faults, the link's fault episode ends and one umber entry is written. -/
def execFaultEpisodeEnd (n : Fin 8) (s : State) : Host.Outcome State Fault Refusal :=
  .next (s.linkEpisodeEnd n)

/-- `AGC_UPDATE` (R45): Every 16 device epochs in PART mode, the gain code steps according to the mean UPFR. -/
def execAgcUpdate (n : Fin 8) (s : State) : Host.Outcome State Fault Refusal :=
  .next (s.linkAgc n)

/-- `GBASE_WRITE` (R47): A firmware write of SLK_GBASE.BASE sets VALID at once. -/
def execGbaseWrite (m : Master) (n : Fin 8) (w : Word) (s : State) : Host.Outcome State Fault Refusal :=
  .next (s.busDo m (SLK_GBASE_BASE n).addr 4 w.toNat)

/-- `GBASE_VALID_TIMER` (R47): After 10 min of learning while TRUSTED, SLK_GBASE.VALID sets. -/
def execGbaseValidTimer (n : Fin 8) (s : State) : Host.Outcome State Fault Refusal :=
  .next (s.linkLearned n)

/-- `FEC_SLOT` (R48): At each device epoch boundary, the bus does gain writes and then the running or highest-priority pending sequence. -/
def execFecSlot (b : Fin 4) (s : State) : Host.Outcome State Fault Refusal :=
  .next (s.fecSlot b)

/-- `FEC_SEQ_GO` (R48): A write of FEC_SEQ.GO queues a sequence, or sets OPERR while a sequence is busy. -/
def execFecSeqGo (m : Master) (b : Fin 4) (w : Word) (s : State) : Host.Outcome State Fault Refusal :=
  .next (s.busDo m (FEC_SEQ_GO b).addr 4 w.toNat)

/-- `FEC_CAL_DUE` (R48): The calibration period expires and a calibration sequence becomes pending. -/
def execFecCalDue (b : Fin 4) (s : State) : Host.Outcome State Fault Refusal :=
  .next (s.fecCal b)

/-- `FEC_WRITE` (R49): A WRITE table entry sends its frame. -/
def execFecWrite (b : Fin 4) (us : Nat) (rx : BitVec 24) (s : State) : Host.Outcome State Fault Refusal :=
  .next (s.fecStep b us 1 (fecActWrite b rx.toNat))

/-- `FEC_CHECK` (R49): A CHECK entry sends its frame and compares the received frame under the mask. -/
def execFecCheck (b : Fin 4) (us : Nat) (rx : BitVec 24) (s : State) : Host.Outcome State Fault Refusal :=
  .next (s.fecStep b us 2 (fecActCheck b rx.toNat))

/-- `FEC_WAIT` (R49): A WAIT entry starts a wait of the given microseconds. -/
def execFecWait (b : Fin 4) (us : Nat) (s : State) : Host.Outcome State Fault Refusal :=
  .next (s.fecStep b us 3 (fecActWait b us))

/-- `FEC_WAIT_EXPIRY` (R49): The wait of a WAIT entry ends, and the sequence continues. -/
def execFecWaitExpiry (b : Fin 4) (s : State) : Host.Outcome State Fault Refusal :=
  .next (s.fecWaitEnd b)

/-- `FEC_END` (R49): An END entry ends the sequence. -/
def execFecEnd (b : Fin 4) (us : Nat) (s : State) : Host.Outcome State Fault Refusal :=
  .next (s.fecStep b us 0 (fecActEnd b))

/-- `LINK_CLOCK_RETURN` (R42): The clock of a link with a CLK fault returns, and the link is brought up again by the sequence of R41 so that the fault can end. -/
def execLinkClockReturn (n : Fin 8) (eyes : List (Option (Fin 64))) (s : State) : Host.Outcome State Fault Refusal :=
  .next (s.linkClkReturn n eyes)

/-- `STUCK_LANE_TOGGLE` (R42): A lane flagged STUCK shows a transition again and the STUCK fault ends. -/
def execStuckLaneToggle (n : Fin 8) (lane : Fin 4) (s : State) : Host.Outcome State Fault Refusal :=
  .next (s.linkToggle n lane)

end Sys2Proof.Machine
end

