-- ==== Sys2Proof/Machine/NavCmd.lean ====
section
/-! DEFINITION. The commands of one family. Solutions, navigation data and the mordant set (ch. 7). -/

namespace Sys2Proof.Machine

/-- `SOLUTION_EPOCH` (R186): The navigation core forms a solution and, when it is accepted, writes an evidence record as a fix. -/
def execSolutionEpoch (_ : Unit) (s : State) : Host.Outcome State Fault Refusal :=
  .next s.solution

/-- `NAV_MESSAGE` (R177): A navigation message is decoded and its ephemeris, clock, UTC or leap-second data are accepted or refused. -/
def execNavMessage (x : NavMsg) (s : State) : Host.Outcome State Fault Refusal :=
  .next (s.navMessage x)

/-- `OSNMA_TAG` (R179): OSNMA tags and keys are verified, and the satellite's authentication state changes. -/
def execOsnmaTag (x : TagIn) (s : State) : Host.Outcome State Fault Refusal :=
  .next (s.osnmaTag x)

/-- `MORDANT_WRITE` (R194): The custody core writes the mordant set to the older copy, items first and header last. -/
def execMordantWrite (items : List (Fin 11 × List Byte)) (s : State) : Host.Outcome State Fault Refusal :=
  .next (s.mordantSave (items.map fun p => (p.1.val, p.2)))

/-- `MORDANT_WRITE_DONE` (R192): A mordant-set write of up to 3 ms ends with its copy header written, and a merged request may start a further write. -/
def execMordantWriteDone (s : State) : Host.Outcome State Fault Refusal :=
  .next s.mordantDone

/-- `MORDANT_PERIOD` (R194): Every 10 min in continuous tracking, a mordant-set write is requested. -/
def execMordantPeriod (s : State) : Host.Outcome State Fault Refusal :=
  .next s.mordantPeriod

end Sys2Proof.Machine
end

