-- ==== Sys2Proof/Machine/RegCmd.lean ====
section
/-! DEFINITION. The commands of one family. Register access: writes, latched reads (ch. 18). -/

namespace Sys2Proof.Machine

/-- The low half of each latched custody value (R403): `CUS_SCNT`, `CUS_SPOSX`, `CUS_SPOSY`, `CUS_SPOSZ`. -/
def cusReadAddr (which : Fin 4) : Nat :=
  match which.val with
  | 0 => CUS_SCNT_L_CTR.addr
  | 1 => CUS_SPOSX_L_MM.addr
  | 2 => CUS_SPOSY_L_MM.addr
  | _ => CUS_SPOSZ_L_MM.addr

/-- `REGISTER_WRITE` (R402): A write to a register without behaviour of its own acts field by field, or raises a bus error. -/
def execRegisterWrite (m : Master) (addr : Nat) (size : AccSize) (w : Word) (s : State) : Host.Outcome State Fault Refusal :=
  .next (s.busDo m addr (AccSize.bytes size) w.toNat)

/-- `SLK_FMT_READ` (R403): A read of SLK_FMT_SH latches the marker stamp until SLK_FMT_NS is read. -/
def execSlkFmtRead (m : Master) (n : Fin 8) (s : State) : Host.Outcome State Fault Refusal :=
  .next (s.busGet m (SLK_FMT_SH_FRAC n).addr 4)

/-- `SNP_HTIME_READ` (R403): A read of SNP_HTIME_SH latches the capture time until SNP_HTIME_NS is read. -/
def execSnpHtimeRead (m : Master) (h : Fin 8) (s : State) : Host.Outcome State Fault Refusal :=
  .next (s.busGet m (SNP_HTIME_SH_FRAC h).addr 4)

/-- `TIM_NOW_READ` (R403): A read of TIM_NOW_SH latches device time until TIM_NOW_NS is read. -/
def execTimNowRead (m : Master) (sub : Nat) (s : State) : Host.Outcome State Fault Refusal :=
  .next (s.busGet m TIM_NOW_SH_FRAC.addr 4 sub)

/-- `TIM_EPOCH_READ` (R403): A read of TIM_EPOCH_L latches TIM_EPOCH_H. -/
def execTimEpochRead (m : Master) (s : State) : Host.Outcome State Fault Refusal :=
  .next (s.busGet m TIM_EPOCH_L_COUNT.addr 4)

/-- `TP_NEXT_EDGE_READ` (R403): A read of TIM_TPn_NXT_SH latches the next edge time. -/
def execTpNextEdgeRead (m : Master) (n : Fin 2) (s : State) : Host.Outcome State Fault Refusal :=
  .next (s.busGet m (TIM_TP_NXT_SH_FRAC n).addr 4)

/-- `TPI_STAMP_READ` (R237): A read of TIM_TPI_SH latches the stamp, and the read of TIM_TPI_NS releases it and clears NEW. -/
def execTpiStampRead (m : Master) (s : State) : Host.Outcome State Fault Refusal :=
  .next (s.busGet m TIM_TPI_SH_FRAC.addr 4)

/-- `ENG_PHASE_READ` (R403): A read of ENG_CPH_C latches the live phases until ENG_KPH_L is read. -/
def execEngPhaseRead (m : Master) (e : Fin 1024) (s : State) : Host.Outcome State Fault Refusal :=
  .next (s.busGet m (ENG_CPH_C_CHIP e).addr 4)

/-- `UMB_SEQUENCE_READ` (R403): A read of UMB_NEXT_L or UMB_OLD_L latches its high half. -/
def execUmbSequenceRead (m : Master) (old : Bool) (s : State) : Host.Outcome State Fault Refusal :=
  .next (s.busGet m (if old then UMB_OLD_L_SEQ.addr else UMB_NEXT_L_SEQ.addr) 4)

/-- `CUS_LATCHED_READ` (R403): A read of CUS_SCNT_L or a CUS_SPOS low half latches its high half. -/
def execCusLatchedRead (m : Master) (which : Fin 4) (s : State) : Host.Outcome State Fault Refusal :=
  .next (s.busGet m (cusReadAddr which) 4)

/-- `SVC_UPDID_READ` (R403): A read of SVC_UPDID_L latches SVC_UPDID_H. -/
def execSvcUpdidRead (m : Master) (s : State) : Host.Outcome State Fault Refusal :=
  .next (s.busGet m SVC_UPDID_L_ID.addr 4)

end Sys2Proof.Machine
end

