-- ==== Sys2Proof/Machine/RtcCmd.lean ====
section
/-! DEFINITION. The commands of one family. The always-on domain (ch. 13). -/

namespace Sys2Proof.Machine

/-- The low half of each stamp (R403): `RTC_WTICK`, `RTC_FSW`, `RTC_LSW`, `RTC_LRET`. -/
def rtcStampAddr (which : Fin 4) : Nat :=
  match which.val with
  | 0 => RTC_WTICK_L_TICK.addr
  | 1 => RTC_FSW_L_TICK.addr
  | 2 => RTC_LSW_L_TICK.addr
  | _ => RTC_LRET_L_TICK.addr

/-- `RTC_SEC_STAGE` (R301): A write of RTC_SEC_H stages the top bit of a new seconds value. -/
def execRtcSecStage (m : Master) (w : Word) (s : State) : Host.Outcome State Fault Refusal :=
  .next (s.busDo m RTC_SEC_H_SEC.addr 4 w.toNat)

/-- `RTC_SEC_COMMIT` (R301): A write of RTC_SEC_L commits the 33-bit value and sets SETPEND. -/
def execRtcSecCommit (m : Master) (w : Word) (s : State) : Host.Outcome State Fault Refusal :=
  .next (s.busDo m RTC_SEC_L_SEC.addr 4 w.toNat)

/-- `RTC_SEC_APPLY` (R301): The committed value becomes RTC_SEC at the prescaler rollover or at the next tick, setting DISC. -/
def execRtcSecApply (edges : Nat) (s : State) : Host.Outcome State Fault Refusal :=
  .next (s.rtcSecApply edges)

/-- `RTC_TRIM_WRITE` (R302): A write of RTC_TRIM applies from the next trim window. -/
def execRtcTrimWrite (m : Master) (w : Word) (s : State) : Host.Outcome State Fault Refusal :=
  .next (s.busDo m RTC_TRIM_TRIM.addr 4 w.toNat)

/-- `RTC_WAKE_WRITE` (R304): The custody core writes RTC_WAKE and the wake period restarts. -/
def execRtcWakeWrite (m : Master) (w : Word) (edges : Nat) (s : State) : Host.Outcome State Fault Refusal :=
  .next ((s.rtcAdvance edges).busDo m RTC_WAKE_WAKE.addr 4 w.toNat)

/-- `PERIODIC_WAKE` (R306): The wake period falls due and PERIODIC and RTC_WTICK are recorded, or WMISS on VBAT. -/
def execPeriodicWake (edges : Nat) (s : State) : Host.Outcome State Fault Refusal :=
  .next (s.rtcPeriodic edges)

/-- `HOST_RESUME` (R305): Two low samples of SVC_WAKE_N after a high one set HOST and enable the service port. -/
def execHostResume (edges : Nat) (s : State) : Host.Outcome State Fault Refusal :=
  .next (s.rtcHost edges)

/-- `FSWCLR` (R309): The custody core writes RTC_CTL.FSWCLR, clearing RTC_FSW and the switch counts. -/
def execFswclr (m : Master) (w : Word) (s : State) : Host.Outcome State Fault Refusal :=
  .next (s.busDo m RTC_CTL_FSWCLR.addr 4 w.toNat)

/-- `SWITCH_TO_VBAT` (R308): VDD_IO33 falls through 2.60 V and the domain switches to VBAT, stamping the switch. -/
def execSwitchToVbat (edges : Nat) (s : State) : Host.Outcome State Fault Refusal :=
  .next (s.rtcToVbat edges)

/-- `RETURN_FROM_VBAT` (R308): VDD_IO33 stays above 2.70 V for 1 ms, and the domain returns with BACKUP set. -/
def execReturnFromVbat (edges : Nat) (s : State) : Host.Outcome State Fault Refusal :=
  .next (s.rtcFromVbat edges)

/-- `AON_LOCK_RELEASE` (R308): VDD_IO33 above 2.95 V for 10 ms with reset released ends the comparator's interface lock. -/
def execAonLockRelease (s : State) : Host.Outcome State Fault Refusal :=
  .next s.rtcLockEnd

/-- `AON_RESET` (R310): The selected supply falls below 1.8 V and every RTC register resets, setting DISC and POWER. -/
def execAonReset (s : State) : Host.Outcome State Fault Refusal :=
  .next s.rtcReset

/-- `AON_RESET_RELEASE` (R310): A supply returns for 1 ms and the domain leaves reset and counts from 0. -/
def execAonResetRelease (onVbat : Bool) (s : State) : Host.Outcome State Fault Refusal :=
  .next (s.rtcLeaveReset onVbat)

/-- `VBAT_MEASURE` (R310): VBAT is measured within 1 ms of selecting VDD_IO33 and then every 60 s, setting VBATLOW. -/
def execVbatMeasure (mv10 : Nat) (s : State) : Host.Outcome State Fault Refusal :=
  .next (s.rtcVbat mv10)

/-- `XOFAIL` (R310): No crystal edge for 1 ms sets XOFAIL and DISC. -/
def execXofail (edges : Nat) (s : State) : Host.Outcome State Fault Refusal :=
  .next (s.rtcXofail edges)

/-- `CRYSTAL_EDGES_RETURN` (R310): Crystal edges return after XOFAIL, and RTC_TICK counts again. -/
def execCrystalEdgesReturn (s : State) : Host.Outcome State Fault Refusal :=
  .next s.rtcEdgesReturn

/-- `RTC_TICK_READ` (R300): A read of RTC_TICK_L latches RTC_TICK_H. -/
def execRtcTickRead (m : Master) (edges : Nat) (s : State) : Host.Outcome State Fault Refusal :=
  .next ((s.rtcAdvance edges).busGet m RTC_TICK_L_TICK.addr 4)

/-- `RTC_SEC_READ` (R300): A read of RTC_SEC_L latches RTC_SEC_H and RTC_PRE until RTC_PRE is read. -/
def execRtcSecRead (m : Master) (edges : Nat) (s : State) : Host.Outcome State Fault Refusal :=
  .next ((s.rtcAdvance edges).busGet m RTC_SEC_L_SEC.addr 4)

/-- `RTC_STAMP_READ` (R403): A read of the low half of RTC_WTICK, RTC_FSW, RTC_LSW or RTC_LRET latches its high half. -/
def execRtcStampRead (m : Master) (which : Fin 4) (s : State) : Host.Outcome State Fault Refusal :=
  .next (s.busGet m (rtcStampAddr which) 4)

end Sys2Proof.Machine
end

