-- ==== Sys2Proof/Machine/SnapCmd.lean ====
section
/-! DEFINITION. The commands of one family. Snapshots, replay and acquisition (ch. 4). -/

namespace Sys2Proof.Machine

/-- `SNP_ARM` (R96): SNP_HCFG.ARM takes credits and starts filtering, or is refused. -/
def execSnpArm (m : Master) (h : Fin 8) (w : Word) (s : State) : Host.Outcome State Fault Refusal :=
  .next (s.busDo m (SNP_HCFG_ARM h).addr 4 w.toNat)

/-- `SNP_FREE` (R96): SNP_HCFG.FREE aborts a capture or returns a stored handle's credits, or is refused while replayed. -/
def execSnpFree (m : Master) (h : Fin 8) (w : Word) (s : State) : Host.Outcome State Fault Refusal :=
  .next (s.busDo m (SNP_HCFG_ARM h).addr 4 w.toNat)

/-- `CAPTURE_TRIGGER` (R93): After the pre-roll, the capture triggers at its epoch boundary and thresholds are fixed. -/
def execCaptureTrigger (h : Fin 8) (sub : Nat) (pre : List LinkSample) (s : State) : Host.Outcome State Fault Refusal :=
  .next (s.capTrigger h sub pre)

/-- `CAPDONE` (R96): The last sample of a capture is stored, the handle becomes STORED and CAPDONE is raised. -/
def execCapdone (h : Fin 8) (raw : List LinkSample) (s : State) : Host.Outcome State Fault Refusal :=
  .next (s.capDone h raw)

/-- `REPLAY_GO` (R98): SNP_RPL.GO starts a replay run, or is refused with RPLERR. -/
def execReplayGo (m : Master) (w : Word) (s : State) : Host.Outcome State Fault Refusal :=
  .next (s.busDo m SNP_RPL_GO.addr 4 w.toNat)

/-- `REPLAY_STOP` (R98): SNP_RPL.STOP ends the run at the end of the current pass. -/
def execReplayStop (m : Master) (w : Word) (s : State) : Host.Outcome State Fault Refusal :=
  .next (s.busDo m SNP_RPL_GO.addr 4 w.toNat)

/-- `REPLAY_PASS_START` (R100): At a pass's first sample, ganged engines record or reload their origin and add the Doppler steps. -/
def execReplayPassStart (s : State) : Host.Outcome State Fault Refusal :=
  .next s.passStart

/-- `REPLAY_PASS_END` (R103): After a pass, the map trailer and peak registers are written and PASS is raised; the run may end. -/
def execReplayPassEnd (s : State) : Host.Outcome State Fault Refusal :=
  .next s.passEnd

/-- `BROADCAST_WRITE` (R101): A write to the broadcast image reaches every ACQUIRING engine of the cluster. -/
def execBroadcastWrite (m : Master) (c : Fin 16) (ofs : Nat) (w : Word) (s : State) : Host.Outcome State Fault Refusal :=
  .next (s.busDo m (0x50020000 + c.val * 0x100000 + ofs % 0x10000) 4 w.toNat)

end Sys2Proof.Machine
end

