-- ==== Sys2Proof/Machine/StartCmd.lean ====
section
/-! DEFINITION. The commands of one family. Starts, the configuration walk, custody and memory protection (ch. 16, R21). -/

namespace Sys2Proof.Machine

/-- An access that finds an error in a protected unit (R21): the unit holds it when the access is made. -/
def State.upsetAt (s : State) (addr : Nat) (u : Option Upset) : State :=
  match u, memClass addr with
  | some .double, some k => s.setEcc k addr true
  | some .single, some k => if s.eccOf k addr == some true then s else s.setEcc k addr false
  | _, _ => s

/-- `COLD_START` (R354): The custody core starts from ROM, reads custody and identity, classifies RFI, locks PLL_A to PLL_C, recovers the journal, runs the digest pass and walk, and releases the array. -/
def execColdStart (x : ColdIn) (s : State) : Host.Outcome State Fault Refusal :=
  .next (s.coldStart x)

/-- `SOFT_START` (R357): The custody core commits its queue, resets the processing domains, restarts from ROM and walks the filtered image. -/
def execSoftStart (x : SoftIn) (s : State) : Host.Outcome State Fault Refusal :=
  .next (s.softStart x)

/-- `PROTECTED_MEMORY_ACCESS` (R21): An access to a SECDED-protected memory corrects single-bit errors and merges narrow writes. -/
def execProtectedMemoryAccess (m : Master) (addr : Nat) (size : AccSize) (wr : Option Word) (upset : Option Upset) (s : State) : Host.Outcome State Fault Refusal :=
  .next ((s.upsetAt addr upset).busAccess m addr (AccSize.bytes size) wr)

/-- `WALK_WR32` (R349): A walk record writes one register or memory word. -/
def execWalkWr32 (s : State) : Host.Outcome State Fault Refusal :=
  .next (s.walkStep .wr32 walkActWr32)

/-- `WALK_FILL` (R349): A walk record fills a range with a value. -/
def execWalkFill (s : State) : Host.Outcome State Fault Refusal :=
  .next (s.walkStep .fill walkActFill)

/-- `WALK_LOAD` (R349): A walk record copies image data to a destination. -/
def execWalkLoad (s : State) : Host.Outcome State Fault Refusal :=
  .next (s.walkStep .load walkActLoad)

/-- `WALK_WAIT` (R349): A walk record waits for a time or polls an address until a masked match. -/
def execWalkWait (s : State) : Host.Outcome State Fault Refusal :=
  .next (s.walkStep .wait walkActWait)

/-- `WALK_WAIT_EXPIRY` (R349): A walk WAIT's time ends: the walk continues or, when polling, faults. -/
def execWalkWaitExpiry (s : State) : Host.Outcome State Fault Refusal :=
  .next s.walkWaitEnd

/-- `WALK_CHECK` (R349): A walk record checks the SHA-256 digest of a range. -/
def execWalkCheck (s : State) : Host.Outcome State Fault Refusal :=
  .next (s.walkStep .check walkActCheck)

/-- `WALK_END` (R349): A walk record ends the walk. -/
def execWalkEnd (s : State) : Host.Outcome State Fault Refusal :=
  .next (s.walkStep .stop walkActEnd)

/-- `WALK_TIMEOUT` (R349): A walk not ended within 10 s faults. -/
def execWalkTimeout (s : State) : Host.Outcome State Fault Refusal :=
  .next s.walkTimeout

/-- `MIRROR_REWRITE_DONE` (R353): The mirror copy ends and MLEN, MDIG and MIRV are set in one record write. -/
def execMirrorRewriteDone (s : State) : Host.Outcome State Fault Refusal :=
  .next s.mirrorDone

/-- `NAV_WATCHDOG_EXPIRY` (R359): SYS_NWCNT reaches LIMIT and the custody core starts a soft start with cause 2. -/
def execNavWatchdogExpiry (s : State) : Host.Outcome State Fault Refusal :=
  .next s.nwdogExpiry

/-- `NAV_WDOG_KICK` (R359): A write of SYS_NWDOG.KICK returns the watchdog count to 0. -/
def execNavWdogKick (m : Master) (w : Word) (s : State) : Host.Outcome State Fault Refusal :=
  .next (s.busDo m SYS_NWDOG_KICK.addr 4 w.toNat)

/-- `SESSION_IDLE_TIMEOUT` (R360): 30 min without a command in a REOPENED session returns the part to SEALED. -/
def execSessionIdleTimeout (s : State) : Host.Outcome State Fault Refusal :=
  .next s.idleOut

/-- `CHALLENGE_EXPIRY` (R364): A challenge not answered within 60 s becomes void. -/
def execChallengeExpiry (s : State) : Host.Outcome State Fault Refusal :=
  .next s.chalOut

/-- `BACKOFF_EXPIRY` (R365): The back-off wait, counted in crystal edges, ends and challenges are accepted again. -/
def execBackoffExpiry (s : State) : Host.Outcome State Fault Refusal :=
  .next s.backoffOut

end Sys2Proof.Machine
end

