-- ==== Sys2Proof/Machine/SupCmd.lean ====
section
/-! DEFINITION. The commands of one family. Supplies, BRACE and temperature (ch. 14). -/

namespace Sys2Proof.Machine

/-- `POWER_UP` (R320): The rails rise in order and the cold start is released once every rail is present and stable and RST_N is high. -/
def execPowerUp (s : State) : Host.Outcome State Fault Refusal :=
  .next s.powerUp

/-- `RST_N_ASSERT` (R413): RST_N held low for at least 1 µs is recognised and causes a cold start. -/
def execRstNAssert (s : State) : Host.Outcome State Fault Refusal :=
  .next s.rstAssert

/-- `RST_N_RELEASE` (R320): RST_N returns high after being held low, and the cold start is released. -/
def execRstNRelease (s : State) : Host.Outcome State Fault Refusal :=
  .next s.rstRelease

/-- `PFW_N` (R314): PFW_N falls and starts the warning condition. -/
def execPfwN (s : State) : Host.Outcome State Fault Refusal :=
  .next s.pfwLow

/-- `SUPPLY_WARNING` (R313): VDD_IO33 or VDD_CORE falls through its warning threshold for 0.5 µs. -/
def execSupplyWarning (core : Bool) (level : Nat) (s : State) : Host.Outcome State Fault Refusal :=
  .next (s.supplyWarning core level)

/-- `SUPPLY_RESET` (R313): A rail falls through its reset threshold and causes a cold start. -/
def execSupplyReset (core : Bool) (s : State) : Host.Outcome State Fault Refusal :=
  .next (s.supplyReset core)

/-- `RAIL_ABSENT` (R312): A presence detector finds its rail below 85 % for 1 µs and causes a cold start without BRACE. -/
def execRailAbsent (rail : Fin 6) (s : State) : Host.Outcome State Fault Refusal :=
  .next (s.railAbsent rail)

/-- `BRACE` (R316): The warning condition begins: umber, RTC and flash are locked, dwells and captures end, and the array is gated. -/
def execBrace (s : State) : Host.Outcome State Fault Refusal :=
  .next (if s.on SUP_STAT_WARN && !s.on SUP_STAT_BRACE then s.dspFlush.braceBegin else s.braceBegin)

/-- `WARNING_END` (R314): PFW_N is high and the rails reach their ending levels, so the stability count starts. -/
def execWarningEnd (s : State) : Host.Outcome State Fault Refusal :=
  .next s.warningEnd

/-- `BRACE_END_SHORT` (R319): After 10 ms of stable supply within 500 ms, BRACE ends and the part resumes with SAGREC. -/
def execBraceEndShort (s : State) : Host.Outcome State Fault Refusal :=
  .next s.braceShort

/-- `BRACE_END_LONG` (R319): After 2 s of stable supply, a long sag ends and the part resumes with LONGSAG. -/
def execBraceEndLong (s : State) : Host.Outcome State Fault Refusal :=
  .next s.braceLong

/-- `TEMP_MEASURE` (R323): Every 1 ms, the die temperature is measured and HOT is set above 105 °C. -/
def execTempMeasure (degq : Int) (s : State) : Host.Outcome State Fault Refusal :=
  .next (s.tempMeasure degq)

/-- `HOT_EPISODE_END` (R323): The temperature stays at or below 100 °C for 60 s and the episode ends. -/
def execHotEpisodeEnd (s : State) : Host.Outcome State Fault Refusal :=
  .next s.hotEnd

end Sys2Proof.Machine
end

