-- ==== Sys2Proof/Machine/SvcCmd.lean ====
section
/-! DEFINITION. The commands of one family. The service port, field update and repair (ch. 17). -/

namespace Sys2Proof.Machine

/-- `SVC_FRAME_RX` (R370): A service frame is delimited, decoded and checked, then accepted, duplicated or discarded. -/
def execSvcFrameRx (octets : List Byte) (s : State) : Host.Outcome State Fault Refusal :=
  .next (s.svcReceive octets false)

/-- `SVC_ACK_FRAME` (R371): An acknowledgement-only frame advances the acknowledged window. -/
def execSvcAckFrame (octets : List Byte) (s : State) : Host.Outcome State Fault Refusal :=
  .next (s.svcReceive octets true)

/-- `SVC_ACK_DELAY` (R371): 5 ms after an accepted frame with nothing to send, an acknowledgement-only frame is sent. -/
def execSvcAckDelay (s : State) : Host.Outcome State Fault Refusal :=
  .next s.svcAckDelay

/-- `SVC_RETRANSMIT` (R372): The 40 ms timer expires and unacknowledged frames are resent; the 26th expiry declares the link down. -/
def execSvcRetransmit (s : State) : Host.Outcome State Fault Refusal :=
  .next s.svcExpiry

/-- `SVC_RATE_TIMEOUT` (R374): No valid frame at the new rate within 500 ms returns to 115,200 baud and downs the link. -/
def execSvcRateTimeout (s : State) : Host.Outcome State Fault Refusal :=
  .next s.svcRateOut

/-- `SVC_UNKNOWN_COMMAND` (R376): A command of unknown code is answered UNKNOWN. -/
def execSvcUnknownCommand (s : State) : Host.Outcome State Fault Refusal :=
  .next (s.svcTake (fun c => !svcCodes.contains c) (fun _ _ s => s.says 0x04))

/-- `HELLO` (R373): HELLO resets the link, ends any session and is answered with HELLO-ACK and a rate. -/
def execHello (s : State) : Host.Outcome State Fault Refusal :=
  .next (s.svcTake (fun c => c == 0x01) svcActHello)

/-- `CLOSE` (R377): CLOSE ends the session after its response is acknowledged. -/
def execClose (s : State) : Host.Outcome State Fault Refusal :=
  .next (s.svcTake (fun c => c == 0x02) svcActClose)

/-- `AUTH_CHALLENGE` (R364): AUTH_CHALLENGE raises CTR, writes the custody record and issues a nonce, or is refused. -/
def execAuthChallenge (s : State) : Host.Outcome State Fault Refusal :=
  .next (s.svcTake (fun c => c == 0x03) svcActChallenge)

/-- `AUTH_RESPONSE` (R364): AUTH_RESPONSE compares the HMAC, and either reopens the part or counts a failure. -/
def execAuthResponse (s : State) : Host.Outcome State Fault Refusal :=
  .next (s.svcTake (fun c => c == 0x04) svcActAuth)

/-- `READ_REG` (R379): READ_REG reads consecutive registers under the command class. -/
def execReadReg (s : State) : Host.Outcome State Fault Refusal :=
  .next (s.svcTake (fun c => c == 0x10) svcActReadReg)

/-- `WRITE_REG` (R363): WRITE_REG writes one register through the custody core. -/
def execWriteReg (s : State) : Host.Outcome State Fault Refusal :=
  .next (s.svcTake (fun c => c == 0x11) svcActWriteReg)

/-- `READ_UMBER` (R380): READ_UMBER returns the valid entries of a sequence range with a missing map. -/
def execReadUmber (s : State) : Host.Outcome State Fault Refusal :=
  .next (s.svcTake (fun c => c == 0x12) svcActReadUmber)

/-- `PUT_OBJECT` (R390): PUT_OBJECT opens a transfer or programs received pages into the receive area. -/
def execPutObject (flashOk : Bool) (s : State) : Host.Outcome State Fault Refusal :=
  .next (s.svcTake (fun c => c == 0x20) (svcActPut flashOk))

/-- `JOURNAL_PENDING_RUN` (R391): 1 s after a pending run's last page, the run is journalled as PROGRESS. -/
def execJournalPendingRun (s : State) : Host.Outcome State Fault Refusal :=
  .next s.runJournalled

/-- `QUERY_OBJECT` (R393): QUERY_OBJECT returns the state and page map of a transfer or staged image. -/
def execQueryObject (s : State) : Host.Outcome State Fault Refusal :=
  .next (s.svcTake (fun c => c == 0x21) svcActQuery)

/-- `ABANDON_OBJECT` (R392): ABANDON_OBJECT journals ABANDON for an open transfer or staged image. -/
def execAbandonObject (s : State) : Host.Outcome State Fault Refusal :=
  .next (s.svcTake (fun c => c == 0x22) svcActAbandon)

/-- `COMMIT_STAGING` (R394): COMMIT_STAGING verifies the container and builds and checks the staged image. -/
def execCommitStaging (flashOk : Bool) (s : State) : Host.Outcome State Fault Refusal :=
  .next (s.svcTake (fun c => c == 0x23) (svcActCommit flashOk))

/-- `ACTIVATE` (R395): ACTIVATE checks the refusal conditions, journals ACTREQ and answers with MATCH. -/
def execActivate (s : State) : Host.Outcome State Fault Refusal :=
  .next (s.svcTake (fun c => c == 0x24) svcActActivate)

/-- `ACTIVATION_ACK_WAIT` (R395): After the ACTIVATE or REPAIR_PROC response is acknowledged, or 200 ms pass, the soft start begins. -/
def execActivationAckWait (s : State) : Host.Outcome State Fault Refusal :=
  .next s.startWaitEnd

/-- `SEAL` (R361): SEAL binds the key, digest, position and update lock, making the part SEALED. -/
def execSealPart (s : State) : Host.Outcome State Fault Refusal :=
  .next (s.svcTake (fun c => c == 0x30) svcActSeal)

/-- `UNSEAL` (R361): UNSEAL clears the bindings and returns a REOPENED part to OPEN. -/
def execUnsealPart (s : State) : Host.Outcome State Fault Refusal :=
  .next (s.svcTake (fun c => c == 0x31) svcActUnseal)

/-- `CLEAR_FSW` (R381): CLEAR_FSW clears RTC_FSW through the custody core and writes a CLEARFSW entry. -/
def execClearFsw (s : State) : Host.Outcome State Fault Refusal :=
  .next (s.svcTake (fun c => c == 0x32) svcActClearFsw)

/-- `REPAIR_CLUSTER` (R397): REPAIR_CLUSTER vacates, reloads and self-tests one cluster. -/
def execRepairCluster (s : State) : Host.Outcome State Fault Refusal :=
  .next (s.svcTake (fun c => c == 0x40) (svcActRepair false))

/-- `REPAIR_GROUP` (R398): REPAIR_GROUP vacates a loop DSP group, holds it in reset and reloads its DSPs. -/
def execRepairGroup (s : State) : Host.Outcome State Fault Refusal :=
  .next (s.svcTake (fun c => c == 0x41) (svcActRepair true))

/-- `REPAIR_PROC` (R377): REPAIR_PROC ends in a soft start with cause repair. -/
def execRepairProc (s : State) : Host.Outcome State Fault Refusal :=
  .next (s.svcTake (fun c => c == 0x42) svcActRepairProc)

/-- `REPAIR_VACATED` (R397): Navigation firmware answers the repair request, and the reload proceeds. -/
def execRepairVacated (s : State) : Host.Outcome State Fault Refusal :=
  .next s.repairAnswered

/-- `REPAIR_VACATE_TIMEOUT` (R397): After 10 s, a cluster still holding channels ends the repair with NOFREE, or is forced. -/
def execRepairVacateTimeout (s : State) : Host.Outcome State Fault Refusal :=
  .next s.repairLate

/-- `COMMAND_EXECUTION_END` (R376): A long service command such as COMMIT_STAGING or the opening PUT_OBJECT finishes its flash work and its response is queued, so the next command may start. -/
def execCommandExecutionEnd (s : State) : Host.Outcome State Fault Refusal :=
  .next s.longEnd

end Sys2Proof.Machine
end

