-- ==== Sys2Proof/Machine/TapCmd.lean ====
section
/-! DEFINITION. The commands of one family. The test access port (ch. 19). -/

namespace Sys2Proof.Machine

/-- `JTAG_TAP_INSTRUCTION` (R428): An instruction shifted into the IEEE 1149.1 TAP takes effect, EXTEST, CLAMP and HIGHZ only while RST_N is low and the part is OPEN. -/
def execJtagTapInstruction (x : TapInstr) (s : State) : Host.Outcome State Fault Refusal :=
  .next (s.tapTake x)

end Sys2Proof.Machine
end

