-- ==== Sys2Proof/Machine/TelCmd.lean ====
section
/-! DEFINITION. The commands of one family. Timed event lines (ch. 12). -/

namespace Sys2Proof.Machine

/-- An open window has been open for `TEL_WMAX` minutes, of which 0 acts as 1 (R291). -/
def State.winLimit (s : State) (n : Nat) : State :=
  if s.get (TEL_STAT_WSTATE n) = 1 ∧ s.reached (s.line n).openAt (max 1 (s.get (TEL_WMAX_MIN n)) * 60000000000) then
    s.winClose n 1 0
  else s

/-- A held window reaches 60 s after the fall (R212, R291). -/
def State.winHoldEnd (s : State) (n : Nat) : State :=
  if s.get (TEL_STAT_WSTATE n) = 2 ∧ s.reached (s.line n).fallAt 60000000000 then s.winClose n 3 0 else s

/-- `TEL_CFG_WRITE` (R281): A write of TEL_CFG ends the old mode and starts the new one. -/
def execTelCfgWrite (m : Master) (n : Fin 96) (w : Word) (s : State) : Host.Outcome State Fault Refusal :=
  .next (s.busDo m (TEL_CFG_MODE n).addr 4 w.toNat)

/-- `TEL_PTR_WRITE` (R284): A write of TEL_PTR clears IDLE, discards the copies and starts fetching. -/
def execTelPtrWrite (m : Master) (n : Fin 96) (w : Word) (s : State) : Host.Outcome State Fault Refusal :=
  .next (s.busDo m (TEL_PTR_PTR n).addr 4 w.toNat)

/-- `TEL_INVAL` (R287): A write of TEL_INVAL discards the held copies of one line or of all lines. -/
def execTelInval (m : Master) (w : Word) (s : State) : Host.Outcome State Fault Refusal :=
  .next (s.busDo m TEL_INVAL_ALL.addr 4 w.toNat)

/-- `TEL_FETCH` (R285): A line refills a freed copy of its next entry, re-reading an invalid entry every 10 µs. -/
def execTelFetch (n : Fin 96) (sub : Nat) (s : State) : Host.Outcome State Fault Refusal :=
  .next (s.telFetch n sub)

/-- `TEL_NOP` (R283): A due NOP entry executes with no effect. -/
def execTelNop (n : Fin 96) (sub : Nat) (s : State) : Host.Outcome State Fault Refusal :=
  .next (s.telExec n sub 0 (fun _ s => s))

/-- `TEL_SET` (R283): A due SET entry drives the line active, unless withheld by QUAL. -/
def execTelSet (n : Fin 96) (sub : Nat) (s : State) : Host.Outcome State Fault Refusal :=
  .next (s.telExec n sub 1 (telActSet n))

/-- `TEL_CLEAR` (R283): A due CLEAR entry drives the line inactive. -/
def execTelClear (n : Fin 96) (sub : Nat) (s : State) : Host.Outcome State Fault Refusal :=
  .next (s.telExec n sub 2 (telActClear n))

/-- `TEL_PULSE` (R444): A due PULSE entry drives the line active for ARG µs. -/
def execTelPulse (n : Fin 96) (sub : Nat) (s : State) : Host.Outcome State Fault Refusal :=
  .next (s.telExec n sub 3 (telActPulse n sub))

/-- `TEL_OPEN` (R290): A due OPEN entry opens the window when the gate permits, or leaves it DENIED. -/
def execTelOpen (n : Fin 96) (sub : Nat) (s : State) : Host.Outcome State Fault Refusal :=
  .next (s.telExec n sub 4 (telActOpen n sub))

/-- `TEL_CLOSE` (R291): A due CLOSE entry closes an open or held window. -/
def execTelClose (n : Fin 96) (sub : Nat) (s : State) : Host.Outcome State Fault Refusal :=
  .next (s.telExec n sub 5 (telActClose n sub))

/-- `TEL_ARM` (R283): A due ARM entry starts stamping on a gated capture line. -/
def execTelArm (n : Fin 96) (sub : Nat) (s : State) : Host.Outcome State Fault Refusal :=
  .next (s.telExec n sub 6 (telActArm n true))

/-- `TEL_DISARM` (R283): A due DISARM entry stops stamping on a gated capture line. -/
def execTelDisarm (n : Fin 96) (sub : Nat) (s : State) : Host.Outcome State Fault Refusal :=
  .next (s.telExec n sub 7 (telActArm n false))

/-- `PULSE_END` (R444): A pulse's width in time-core clocks elapses and the line takes its pending level. -/
def execPulseEnd (n : Fin 96) (s : State) : Host.Outcome State Fault Refusal :=
  .next (s.telPulseEnd n)

/-- `WINDOW_LIMIT` (R291): A window open for TEL_WMAX minutes closes with cause LIMIT. -/
def execWindowLimit (n : Fin 96) (s : State) : Host.Outcome State Fault Refusal :=
  .next (s.winLimit n)

/-- `HOLDEND` (R291): A held window reaches 60 s after the fall and closes. -/
def execHoldend (n : Fin 96) (s : State) : Host.Outcome State Fault Refusal :=
  .next (s.winHoldEnd n)

/-- `TEL_PERMIT_WRITE` (R291): A change of TEL_PERMIT or TEL_SEALREQ closes windows whose gate would now refuse. -/
def execTelPermitWrite (m : Master) (j : Fin 6) (w : Word) (s : State) : Host.Outcome State Fault Refusal :=
  .next (s.busDo m ((TEL_PERMIT_MAP 0).addr + 4 * j.val) 4 w.toNat)

/-- `CAPTURE_EDGE` (R292): An input edge on a capture line is stamped into the FIFO, or lost when the FIFO is full. -/
def execCaptureEdge (n : Fin 96) (sub : Nat) (falling : Bool) (width : Nat) (s : State) : Host.Outcome State Fault Refusal :=
  .next (s.telEdge n sub falling width)

/-- `CAPTURE_OVERFLOW_EPISODE_END` (R292): The FIFO next holds no stamp, and the overflow episode's umber entry is written. -/
def execCaptureOverflowEpisodeEnd (n : Fin 96) (s : State) : Host.Outcome State Fault Refusal :=
  .next (s.telOvfEnd n)

/-- `TEL_CAP_READ` (R292): A read of TEL_CAP_SH takes the oldest stamp out of the FIFO and latches it. -/
def execTelCapRead (m : Master) (n : Fin 96) (s : State) : Host.Outcome State Fault Refusal :=
  .next (s.busGet m (TEL_CAP_SH_FRAC n).addr 4)

/-- `BANK_SUPPLY_MEASURE` (R280): Every 1 ms, each bank supply is measured and VERR is updated, switching drivers off. -/
def execBankSupplyMeasure (b : Fin 4) (mv10 : Nat) (s : State) : Host.Outcome State Fault Refusal :=
  .next (s.bankMeasure b mv10)

/-- `BANK_DRIVER_RETURN` (R433): After VERR has been clear for 1 ms, the bank's drivers return. -/
def execBankDriverReturn (b : Fin 4) (s : State) : Host.Outcome State Fault Refusal :=
  .next (s.bankReturn b)

end Sys2Proof.Machine
end

