-- ==== Sys2Proof/Machine/TimeCmd.lean ====
section
/-! DEFINITION. The commands of one family. Device time and the pulses (ch. 9). -/

namespace Sys2Proof.Machine

/-- `DEVICE_EPOCH` (R219): At each whole millisecond of device time, the epoch count advances and epoch-driven actions run. -/
def execDeviceEpoch (obs : EpochObs) (s : State) : Host.Outcome State Fault Refusal :=
  .next (s.deviceEpoch obs)

/-- `DEVICE_SECOND` (R220): At each whole second of device time, rate changes, fixes, steps, aging, leap and calibration take effect. -/
def execDeviceSecond (ncal edges : Nat) (phases : List Int) (s : State) : Host.Outcome State Fault Refusal :=
  .next (s.deviceSecond ncal edges phases)

/-- `FIX_RELEASE` (R218): TIM_FIX_CTL.GO releases a correction, optionally frequency only, to the servo. -/
def execFixRelease (m : Master) (w : Word) (s : State) : Host.Outcome State Fault Refusal :=
  .next (s.busDo m TIM_FIX_CTL_GO.addr 4 w.toNat)

/-- `STEP_REQUEST` (R222): TIM_STEP_CTL.GO requests the single step of device time. -/
def execStepRequest (m : Master) (w : Word) (s : State) : Host.Outcome State Fault Refusal :=
  .next (s.busDo m TIM_STEP_CTL_GO.addr 4 w.toNat)

/-- `LOAD_REQUEST` (R221): TIM_LOAD_CTL.GO requests a load, refused when late or in STEPPED. -/
def execLoadRequest (m : Master) (w : Word) (s : State) : Host.Outcome State Fault Refusal :=
  .next (s.busDo m TIM_LOAD_CTL_GO.addr 4 w.toNat)

/-- `TP_SETTING_WRITE` (R236): A write of a pulse register is held pending until the first whole second at least 1 s later. -/
def execTpSettingWrite (m : Master) (n : Fin 2) (r : Fin 4) (w : Word) (s : State) : Host.Outcome State Fault Refusal :=
  .next (s.busDo m ((TIM_TP_CFG_EN n).addr + 4 * r.val) 4 w.toNat)

/-- `TP_COMPOSE` (R234): At S + 500 ms, the time core computes the next second's edges for TP-NEXT. -/
def execTpCompose (n : Fin 2) (gaps : List Nat) (s : State) : Host.Outcome State Fault Refusal :=
  .next (s.tpCompose n gaps)

/-- `TP_LEADING_EDGE` (R236): A pulse leading edge is produced when the code reaches QUAL, or withheld. -/
def execTpLeadingEdge (n : Fin 2) (s : State) : Host.Outcome State Fault Refusal :=
  .next (s.tpLead n)

/-- `TP_TRAILING_EDGE` (R231): A pulse's trailing edge follows at its width. -/
def execTpTrailingEdge (n : Fin 2) (s : State) : Host.Outcome State Fault Refusal :=
  .next (s.tpTrail n)

/-- `TPI_EDGE` (R237): An edge on TPI is stamped and, when usable, forms x for its mode. -/
def execTpiEdge (sub : Nat) (e : TpiIn) (s : State) : Host.Outcome State Fault Refusal :=
  .next (s.tpiEdge sub e)

/-- `TPILOSS` (R238): 3 s without a usable TPI edge sets TPILOSS. -/
def execTpiloss (s : State) : Host.Outcome State Fault Refusal :=
  .next s.tpiLoss

end Sys2Proof.Machine
end

