-- ==== Sys2Proof/Machine/TrackCmd.lean ====
section
/-! DEFINITION. The commands of one family. Tracking channels, steering and hand-over (ch. 5). -/

namespace Sys2Proof.Machine

/-- The cluster an engine belongs to (R11). -/
def clusterOf (e : Fin 1024) : Fin 16 := ⟨e.val / 64, by omega⟩

/-- `LOOP_UPDATE` (R112): Loop code answers record L with discriminators, filters and a commit for L + 1. -/
def execLoopUpdate (e : Fin 1024) (r : LoopIn) (s : State) : Host.Outcome State Fault Refusal :=
  .next (s.loopUpdate e r)

/-- `STEER_ENTRY_WRITE` (R130): The navigation core writes a steer entry for a coupled channel by the SEQ protocol. -/
def execSteerEntryWrite (e : Fin 1024) (chid : BitVec 12) (epoch : Word) (chip : BitVec 20) (frac dop cdiv : Word) (s : State) : Host.Outcome State Fault Refusal :=
  .next (s.steerWrite e chid.toNat epoch.toNat chip.toNat frac.toNat dop.toNat cdiv.toNat)

/-- `TRACKING_REPORT` (R137): At each report instant, the loop DSP writes one report per channel. -/
def execTrackingReport (d : Fin 16) (s : State) : Host.Outcome State Fault Refusal :=
  .next (s.reportInstant d)

/-- `MIGRATION_HANDOFF` (R138; `block` gives words 18 to 31): The source DSP writes the loop state block and the target DSP imports it and arms the target. -/
def execMigrationHandoff (src tgt : Fin 1024) (block : List Word) (w : Word) (s : State) : Host.Outcome State Fault Refusal :=
  .next (if s.handsOver src tgt then
      (s.chanHandoff src tgt (block.map BitVec.toNat)).busDo (.ldsp (clusterOf tgt)) (ENG_MIG_ARM tgt).addr 4 w.toNat
    else s)

end Sys2Proof.Machine
end

