-- ==== Sys2Proof/Machine/UmbCmd.lean ====
section
/-! DEFINITION. The commands of one family. The umber record (ch. 15). -/

namespace Sys2Proof.Machine

/-- `UMB_CMD_GO` (R333): The custody core commits the staged entry to area S, area F or the ring. -/
def execUmbCmdGo (m : Master) (w : Word) (s : State) : Host.Outcome State Fault Refusal :=
  .next (s.busDo m UMB_CMD_GO.addr 4 w.toNat)

/-- `UMBER_COMMIT_DONE` (R329): An umber commit writes its sequence word and ends, and the next queued entry may go. -/
def execUmberCommitDone (s : State) : Host.Outcome State Fault Refusal :=
  .next s.umbDone

/-- `READY` (R331): The recovery scan ends, READY sets and the RECOVERY entry is written. -/
def execReady (ms : Nat) (s : State) : Host.Outcome State Fault Refusal :=
  .next (s.umbRecovered ms)

/-- `NAV_REQUEST_POLL` (R333): Every 1 ms, the custody core takes navigation requests from the ring, accepting or refusing them. -/
def execNavRequestPoll (s : State) : Host.Outcome State Fault Refusal :=
  .next (s.navPoll 16)

/-- `SUMMARY` (R336): At each multiple of SUMP seconds, a SUMMARY entry is written. -/
def execSummary (s : State) : Host.Outcome State Fault Refusal :=
  .next s.umbSummary

/-- `MSNAP` (R337): Every SNAPI minutes, and at falls of trust and woad FAILs, a measurement snapshot is written. -/
def execMsnap (_ : Unit) (s : State) : Host.Outcome State Fault Refusal :=
  .next (s.measNow.umbMsnap s.measNow.measEntries)

/-- `UMB_CFGW` (R340): A write of UMB_CFGW sets UMB_CFG from the custody policy tables. -/
def execUmbCfgw (m : Master) (w : Word) (s : State) : Host.Outcome State Fault Refusal :=
  .next (s.busDo m UMB_CFGW_CFG.addr 4 w.toNat)

end Sys2Proof.Machine
end

