-- ==== Sys2Proof/Machine/Dispatch.lean ====
section
/-! DEFINITION. One arm for each command: its meaning, a definition of its own in the file of its family. -/

namespace Sys2Proof.Machine

def exec (i : Instr) (s : State) : Host.Outcome State Fault Refusal :=
  match i with
  | .slkEnable m n w eyes => Sys2Proof.Machine.execSlkEnable m n w eyes s
  | .markerReceived n sub gap eyes => Sys2Proof.Machine.execMarkerReceived n sub gap eyes s
  | .controlWord n w => Sys2Proof.Machine.execControlWord n w s
  | .clkFault n => Sys2Proof.Machine.execClkFault n s
  | .markFault n => Sys2Proof.Machine.execMarkFault n s
  | .stuckFault n lane => Sys2Proof.Machine.execStuckFault n lane s
  | .slipFault n slipped => Sys2Proof.Machine.execSlipFault n slipped s
  | .faultEpisodeEnd n => Sys2Proof.Machine.execFaultEpisodeEnd n s
  | .agcUpdate n => Sys2Proof.Machine.execAgcUpdate n s
  | .gbaseWrite m n w => Sys2Proof.Machine.execGbaseWrite m n w s
  | .gbaseValidTimer n => Sys2Proof.Machine.execGbaseValidTimer n s
  | .fecSlot b => Sys2Proof.Machine.execFecSlot b s
  | .fecSeqGo m b w => Sys2Proof.Machine.execFecSeqGo m b w s
  | .fecCalDue b => Sys2Proof.Machine.execFecCalDue b s
  | .fecWrite b us rx => Sys2Proof.Machine.execFecWrite b us rx s
  | .fecCheck b us rx => Sys2Proof.Machine.execFecCheck b us rx s
  | .fecWait b us => Sys2Proof.Machine.execFecWait b us s
  | .fecWaitExpiry b => Sys2Proof.Machine.execFecWaitExpiry b s
  | .fecEnd b us => Sys2Proof.Machine.execFecEnd b us s
  | .linkClockReturn n eyes => Sys2Proof.Machine.execLinkClockReturn n eyes s
  | .stuckLaneToggle n lane => Sys2Proof.Machine.execStuckLaneToggle n lane s
  | .dwellQueue m e w => Sys2Proof.Machine.execDwellQueue m e w s
  | .dwellStart e => Sys2Proof.Machine.execDwellStart e s
  | .dwellNop e => Sys2Proof.Machine.execDwellNop e s
  | .dwellAbase e => Sys2Proof.Machine.execDwellAbase e s
  | .dwellAofs e => Sys2Proof.Machine.execDwellAofs e s
  | .dwellAsrc e => Sys2Proof.Machine.execDwellAsrc e s
  | .dwellAcc e samples => Sys2Proof.Machine.execDwellAcc e samples s
  | .dwellSkip e samples => Sys2Proof.Machine.execDwellSkip e samples s
  | .dwellDump e sidx => Sys2Proof.Machine.execDwellDump e sidx s
  | .dwellNcacc e => Sys2Proof.Machine.execDwellNcacc e s
  | .dwellNcdump e sidx => Sys2Proof.Machine.execDwellNcdump e sidx s
  | .dwellSetc e => Sys2Proof.Machine.execDwellSetc e s
  | .dwellLoop e => Sys2Proof.Machine.execDwellLoop e s
  | .dwellJmp e => Sys2Proof.Machine.execDwellJmp e s
  | .dwellIrq e => Sys2Proof.Machine.execDwellIrq e s
  | .dwellEnd e => Sys2Proof.Machine.execDwellEnd e s
  | .recordToRing e => Sys2Proof.Machine.execRecordToRing e s
  | .engCommit m e w => Sys2Proof.Machine.execEngCommit m e w s
  | .engCancel m e w => Sys2Proof.Machine.execEngCancel m e w s
  | .engApply m e w => Sys2Proof.Machine.execEngApply m e w s
  | .engSetrole m e w => Sys2Proof.Machine.execEngSetrole m e w s
  | .ringRelease m c w => Sys2Proof.Machine.execRingRelease m c w s
  | .ringReconfigure m c w => Sys2Proof.Machine.execRingReconfigure m c w s
  | .ctinvWrite m c w => Sys2Proof.Machine.execCtinvWrite m c w s
  | .cluCkenWrite m c w => Sys2Proof.Machine.execCluCkenWrite m c w s
  | .cluBist m c w => Sys2Proof.Machine.execCluBist m c w s
  | .bistdone c failed => Sys2Proof.Machine.execBistdone c failed s
  | .cluGangWrite m c w => Sys2Proof.Machine.execCluGangWrite m c w s
  | .gangDwellQueue m c w => Sys2Proof.Machine.execGangDwellQueue m c w s
  | .migArm m e w => Sys2Proof.Machine.execMigArm m e w s
  | .migTimeout e => Sys2Proof.Machine.execMigTimeout e s
  | .snpArm m h w => Sys2Proof.Machine.execSnpArm m h w s
  | .snpFree m h w => Sys2Proof.Machine.execSnpFree m h w s
  | .captureTrigger h sub pre => Sys2Proof.Machine.execCaptureTrigger h sub pre s
  | .capdone h raw => Sys2Proof.Machine.execCapdone h raw s
  | .replayGo m w => Sys2Proof.Machine.execReplayGo m w s
  | .replayStop m w => Sys2Proof.Machine.execReplayStop m w s
  | .replayPassStart => Sys2Proof.Machine.execReplayPassStart s
  | .replayPassEnd => Sys2Proof.Machine.execReplayPassEnd s
  | .broadcastWrite m c ofs w => Sys2Proof.Machine.execBroadcastWrite m c ofs w s
  | .loopUpdate e r => Sys2Proof.Machine.execLoopUpdate e r s
  | .steerEntryWrite e chid epoch chip frac dop cdiv => Sys2Proof.Machine.execSteerEntryWrite e chid epoch chip frac dop cdiv s
  | .trackingReport d => Sys2Proof.Machine.execTrackingReport d s
  | .migrationHandoff src tgt block w => Sys2Proof.Machine.execMigrationHandoff src tgt block w s
  | .dspNop d => Sys2Proof.Machine.execDspNop d s
  | .dspMov d => Sys2Proof.Machine.execDspMov d s
  | .dspAdd d => Sys2Proof.Machine.execDspAdd d s
  | .dspAdds d => Sys2Proof.Machine.execDspAdds d s
  | .dspSub d => Sys2Proof.Machine.execDspSub d s
  | .dspSubs d => Sys2Proof.Machine.execDspSubs d s
  | .dspAnd d => Sys2Proof.Machine.execDspAnd d s
  | .dspOr d => Sys2Proof.Machine.execDspOr d s
  | .dspXor d => Sys2Proof.Machine.execDspXor d s
  | .dspNeg d => Sys2Proof.Machine.execDspNeg d s
  | .dspAbs d => Sys2Proof.Machine.execDspAbs d s
  | .dspMin d => Sys2Proof.Machine.execDspMin d s
  | .dspMax d => Sys2Proof.Machine.execDspMax d s
  | .dspCmp d => Sys2Proof.Machine.execDspCmp d s
  | .dspShl d => Sys2Proof.Machine.execDspShl d s
  | .dspShr d => Sys2Proof.Machine.execDspShr d s
  | .dspAsr d => Sys2Proof.Machine.execDspAsr d s
  | .dspShlv d => Sys2Proof.Machine.execDspShlv d s
  | .dspAsrv d => Sys2Proof.Machine.execDspAsrv d s
  | .dspMpy d => Sys2Proof.Machine.execDspMpy d s
  | .dspMac d => Sys2Proof.Machine.execDspMac d s
  | .dspMsu d => Sys2Proof.Machine.execDspMsu d s
  | .dspMpyu d => Sys2Proof.Machine.execDspMpyu d s
  | .dspFtap d => Sys2Proof.Machine.execDspFtap d s
  | .dspFtaps d => Sys2Proof.Machine.execDspFtaps d s
  | .dspLd d => Sys2Proof.Machine.execDspLd d s
  | .dspSt d => Sys2Proof.Machine.execDspSt d s
  | .dspLdil d => Sys2Proof.Machine.execDspLdil d s
  | .dspLdih d => Sys2Proof.Machine.execDspLdih d s
  | .dspAddi d => Sys2Proof.Machine.execDspAddi d s
  | .dspCmpi d => Sys2Proof.Machine.execDspCmpi d s
  | .dspClra d => Sys2Proof.Machine.execDspClra d s
  | .dspAdda d => Sys2Proof.Machine.execDspAdda d s
  | .dspSuba d => Sys2Proof.Machine.execDspSuba d s
  | .dspNega d => Sys2Proof.Machine.execDspNega d s
  | .dspAbsa d => Sys2Proof.Machine.execDspAbsa d s
  | .dspSha d => Sys2Proof.Machine.execDspSha d s
  | .dspShar d => Sys2Proof.Machine.execDspShar d s
  | .dspXfr d => Sys2Proof.Machine.execDspXfr d s
  | .dspXfw d => Sys2Proof.Machine.execDspXfw d s
  | .dspBra d => Sys2Proof.Machine.execDspBra d s
  | .dspBcc d => Sys2Proof.Machine.execDspBcc d s
  | .dspCall d => Sys2Proof.Machine.execDspCall d s
  | .dspRet d => Sys2Proof.Machine.execDspRet d s
  | .dspRti d => Sys2Proof.Machine.execDspRti d s
  | .dspLps d => Sys2Proof.Machine.execDspLps d s
  | .dspLpr d => Sys2Proof.Machine.execDspLpr d s
  | .dspLpx d => Sys2Proof.Machine.execDspLpx d s
  | .dspWait d => Sys2Proof.Machine.execDspWait d s
  | .dspTrap d => Sys2Proof.Machine.execDspTrap d s
  | .dspSync d => Sys2Proof.Machine.execDspSync d s
  | .dspEld d => Sys2Proof.Machine.execDspEld d s
  | .dspEst d => Sys2Proof.Machine.execDspEst d s
  | .dspBlkx d => Sys2Proof.Machine.execDspBlkx d s
  | .dspBlky d => Sys2Proof.Machine.execDspBlky d s
  | .dspAng d => Sys2Proof.Machine.execDspAng d s
  | .dspMag d => Sys2Proof.Machine.execDspMag d s
  | .dspDivf d => Sys2Proof.Machine.execDspDivf d s
  | .dspBlockCopyDone d => Sys2Proof.Machine.execDspBlockCopyDone d s
  | .dspPostedBusError d => Sys2Proof.Machine.execDspPostedBusError d s
  | .dspInterruptEntry d => Sys2Proof.Machine.execDspInterruptEntry d s
  | .dspTimerMatch d => Sys2Proof.Machine.execDspTimerMatch d s
  | .dspWatchdogExpiry d => Sys2Proof.Machine.execDspWatchdogExpiry d s
  | .dspWdogKick m d w => Sys2Proof.Machine.execDspWdogKick m d w s
  | .dspRun m d w => Sys2Proof.Machine.execDspRun m d w s
  | .dspHalt m d w => Sys2Proof.Machine.execDspHalt m d w s
  | .dspReset m d w => Sys2Proof.Machine.execDspReset m d w s
  | .dspSingleStep m d w => Sys2Proof.Machine.execDspSingleStep m d w s
  | .dspShadowSelect m d w => Sys2Proof.Machine.execDspShadowSelect m d w s
  | .dspGroupClock m g w => Sys2Proof.Machine.execDspGroupClock m g w s
  | .dspGroupReset m g w => Sys2Proof.Machine.execDspGroupReset m g w s
  | .dspDoorbell m d w => Sys2Proof.Machine.execDspDoorbell m d w s
  | .dspOutbox m d w => Sys2Proof.Machine.execDspOutbox m d w s
  | .dspMemoryAccess m d sp ofs size wr => Sys2Proof.Machine.execDspMemoryAccess m d sp ofs size wr s
  | .solutionEpoch x => Sys2Proof.Machine.execSolutionEpoch x s
  | .navMessage x => Sys2Proof.Machine.execNavMessage x s
  | .osnmaTag x => Sys2Proof.Machine.execOsnmaTag x s
  | .mordantWrite items => Sys2Proof.Machine.execMordantWrite items s
  | .mordantWriteDone => Sys2Proof.Machine.execMordantWriteDone s
  | .mordantPeriod => Sys2Proof.Machine.execMordantPeriod s
  | .evidenceRecord x => Sys2Proof.Machine.execEvidenceRecord x s
  | .terrBoundCross => Sys2Proof.Machine.execTerrBoundCross s
  | .holdoverAgeLimit => Sys2Proof.Machine.execHoldoverAgeLimit s
  | .holdinTimeout => Sys2Proof.Machine.execHoldinTimeout s
  | .woadLatchExpiry => Sys2Proof.Machine.execWoadLatchExpiry s
  | .itgLatchWrite m w => Sys2Proof.Machine.execItgLatchWrite m w s
  | .burstStart => Sys2Proof.Machine.execBurstStart s
  | .burstEnd => Sys2Proof.Machine.execBurstEnd s
  | .bmax => Sys2Proof.Machine.execBmax s
  | .burstArrayRelease => Sys2Proof.Machine.execBurstArrayRelease s
  | .deviceEpoch obs => Sys2Proof.Machine.execDeviceEpoch obs s
  | .deviceSecond ncal edges phases => Sys2Proof.Machine.execDeviceSecond ncal edges phases s
  | .fixRelease m w => Sys2Proof.Machine.execFixRelease m w s
  | .stepRequest m w => Sys2Proof.Machine.execStepRequest m w s
  | .loadRequest m w => Sys2Proof.Machine.execLoadRequest m w s
  | .tpSettingWrite m n r w => Sys2Proof.Machine.execTpSettingWrite m n r w s
  | .tpCompose n gaps => Sys2Proof.Machine.execTpCompose n gaps s
  | .tpLeadingEdge n => Sys2Proof.Machine.execTpLeadingEdge n s
  | .tpTrailingEdge n => Sys2Proof.Machine.execTpTrailingEdge n s
  | .tpiEdge sub e => Sys2Proof.Machine.execTpiEdge sub e s
  | .tpiloss => Sys2Proof.Machine.execTpiloss s
  | .rfiClassifyRetry count => Sys2Proof.Machine.execRfiClassifyRetry count s
  | .pllALockRetry ok => Sys2Proof.Machine.execPllALockRetry ok s
  | .pllCommit m x w => Sys2Proof.Machine.execPllCommit m x w s
  | .pllRelock m x w => Sys2Proof.Machine.execPllRelock m x w s
  | .pllEnable m x w => Sys2Proof.Machine.execPllEnable m x w s
  | .pllFollow m x w => Sys2Proof.Machine.execPllFollow m x w s
  | .pllTrimWrite m x w => Sys2Proof.Machine.execPllTrimWrite m x w s
  | .pllRampDone x => Sys2Proof.Machine.execPllRampDone x s
  | .pllCalDone x => Sys2Proof.Machine.execPllCalDone x s
  | .lock x => Sys2Proof.Machine.execLock x s
  | .aligned x => Sys2Proof.Machine.execAligned x s
  | .lol x runt => Sys2Proof.Machine.execLol x runt s
  | .lor runt => Sys2Proof.Machine.execLor runt s
  | .rfiReturn => Sys2Proof.Machine.execRfiReturn s
  | .ckoCfgWrite m k w => Sys2Proof.Machine.execCkoCfgWrite m k w s
  | .complSet k mv10 => Sys2Proof.Machine.execComplSet k mv10 s
  | .complClear k mv10 => Sys2Proof.Machine.execComplClear k mv10 s
  | .complEpisodeEnd k => Sys2Proof.Machine.execComplEpisodeEnd k s
  | .frameReceived p f => Sys2Proof.Machine.execFrameReceived p f s
  | .forwardCopySent p sub => Sys2Proof.Machine.execForwardCopySent p sub s
  | .syncRx p sub m => Sys2Proof.Machine.execSyncRx p sub m s
  | .followUpRx p m => Sys2Proof.Machine.execFollowUpRx p m s
  | .announceRx p m => Sys2Proof.Machine.execAnnounceRx p m s
  | .delayReqRx p sub m => Sys2Proof.Machine.execDelayReqRx p sub m s
  | .delayRespRx p m => Sys2Proof.Machine.execDelayRespRx p m s
  | .pdelayReqRx p sub txSub m => Sys2Proof.Machine.execPdelayReqRx p sub txSub m s
  | .pdelayRespRx p sub m => Sys2Proof.Machine.execPdelayRespRx p sub m s
  | .syncTx p slot sub => Sys2Proof.Machine.execSyncTx p slot sub s
  | .announceTx p slot => Sys2Proof.Machine.execAnnounceTx p slot s
  | .delayReqTx p slot sub => Sys2Proof.Machine.execDelayReqTx p slot sub s
  | .announceTimeout p slot => Sys2Proof.Machine.execAnnounceTimeout p slot s
  | .ptpSourceSwitch => Sys2Proof.Machine.execPtpSourceSwitch s
  | .arpRequest p target => Sys2Proof.Machine.execArpRequest p target s
  | .neighbourSolicitation p target => Sys2Proof.Machine.execNeighbourSolicitation p target s
  | .statusGet p src sport payload => Sys2Proof.Machine.execStatusGet p src sport payload s
  | .timeDatagram p => Sys2Proof.Machine.execTimeDatagram p s
  | .tpNextDatagram p n => Sys2Proof.Machine.execTpNextDatagram p n s
  | .measDatagram p period entries => Sys2Proof.Machine.execMeasDatagram p period entries s
  | .integDatagram p => Sys2Proof.Machine.execIntegDatagram p s
  | .identDatagram p => Sys2Proof.Machine.execIdentDatagram p s
  | .umberSumDatagram p => Sys2Proof.Machine.execUmberSumDatagram p s
  | .eptLinkChange p up speed => Sys2Proof.Machine.execEptLinkChange p up speed s
  | .eptCredWrite m p w => Sys2Proof.Machine.execEptCredWrite m p w s
  | .slotSamplesAged slot => Sys2Proof.Machine.execSlotSamplesAged slot s
  | .telCfgWrite m n w => Sys2Proof.Machine.execTelCfgWrite m n w s
  | .telPtrWrite m n w => Sys2Proof.Machine.execTelPtrWrite m n w s
  | .telInval m w => Sys2Proof.Machine.execTelInval m w s
  | .telFetch n sub => Sys2Proof.Machine.execTelFetch n sub s
  | .telNop n sub => Sys2Proof.Machine.execTelNop n sub s
  | .telSet n sub => Sys2Proof.Machine.execTelSet n sub s
  | .telClear n sub => Sys2Proof.Machine.execTelClear n sub s
  | .telPulse n sub => Sys2Proof.Machine.execTelPulse n sub s
  | .telOpen n sub => Sys2Proof.Machine.execTelOpen n sub s
  | .telClose n sub => Sys2Proof.Machine.execTelClose n sub s
  | .telArm n sub => Sys2Proof.Machine.execTelArm n sub s
  | .telDisarm n sub => Sys2Proof.Machine.execTelDisarm n sub s
  | .pulseEnd n => Sys2Proof.Machine.execPulseEnd n s
  | .windowLimit n => Sys2Proof.Machine.execWindowLimit n s
  | .holdend n => Sys2Proof.Machine.execHoldend n s
  | .telPermitWrite m j w => Sys2Proof.Machine.execTelPermitWrite m j w s
  | .captureEdge n sub falling width => Sys2Proof.Machine.execCaptureEdge n sub falling width s
  | .captureOverflowEpisodeEnd n => Sys2Proof.Machine.execCaptureOverflowEpisodeEnd n s
  | .telCapRead m n => Sys2Proof.Machine.execTelCapRead m n s
  | .bankSupplyMeasure b mv10 => Sys2Proof.Machine.execBankSupplyMeasure b mv10 s
  | .bankDriverReturn b => Sys2Proof.Machine.execBankDriverReturn b s
  | .rtcSecStage m w => Sys2Proof.Machine.execRtcSecStage m w s
  | .rtcSecCommit m w => Sys2Proof.Machine.execRtcSecCommit m w s
  | .rtcSecApply edges => Sys2Proof.Machine.execRtcSecApply edges s
  | .rtcTrimWrite m w => Sys2Proof.Machine.execRtcTrimWrite m w s
  | .rtcWakeWrite m w edges => Sys2Proof.Machine.execRtcWakeWrite m w edges s
  | .periodicWake edges => Sys2Proof.Machine.execPeriodicWake edges s
  | .hostResume edges => Sys2Proof.Machine.execHostResume edges s
  | .fswclr m w => Sys2Proof.Machine.execFswclr m w s
  | .switchToVbat edges => Sys2Proof.Machine.execSwitchToVbat edges s
  | .returnFromVbat edges => Sys2Proof.Machine.execReturnFromVbat edges s
  | .aonLockRelease => Sys2Proof.Machine.execAonLockRelease s
  | .aonReset => Sys2Proof.Machine.execAonReset s
  | .aonResetRelease onVbat => Sys2Proof.Machine.execAonResetRelease onVbat s
  | .vbatMeasure mv10 => Sys2Proof.Machine.execVbatMeasure mv10 s
  | .xofail edges => Sys2Proof.Machine.execXofail edges s
  | .crystalEdgesReturn => Sys2Proof.Machine.execCrystalEdgesReturn s
  | .rtcTickRead m edges => Sys2Proof.Machine.execRtcTickRead m edges s
  | .rtcSecRead m edges => Sys2Proof.Machine.execRtcSecRead m edges s
  | .rtcStampRead m which => Sys2Proof.Machine.execRtcStampRead m which s
  | .powerUp => Sys2Proof.Machine.execPowerUp s
  | .rstNAssert => Sys2Proof.Machine.execRstNAssert s
  | .rstNRelease => Sys2Proof.Machine.execRstNRelease s
  | .pfwN => Sys2Proof.Machine.execPfwN s
  | .supplyWarning core level => Sys2Proof.Machine.execSupplyWarning core level s
  | .supplyReset core => Sys2Proof.Machine.execSupplyReset core s
  | .railAbsent rail => Sys2Proof.Machine.execRailAbsent rail s
  | .brace => Sys2Proof.Machine.execBrace s
  | .warningEnd => Sys2Proof.Machine.execWarningEnd s
  | .braceEndShort => Sys2Proof.Machine.execBraceEndShort s
  | .braceEndLong => Sys2Proof.Machine.execBraceEndLong s
  | .tempMeasure degq => Sys2Proof.Machine.execTempMeasure degq s
  | .hotEpisodeEnd => Sys2Proof.Machine.execHotEpisodeEnd s
  | .umbCmdGo m w => Sys2Proof.Machine.execUmbCmdGo m w s
  | .umberCommitDone => Sys2Proof.Machine.execUmberCommitDone s
  | .ready ms => Sys2Proof.Machine.execReady ms s
  | .navRequestPoll => Sys2Proof.Machine.execNavRequestPoll s
  | .summary => Sys2Proof.Machine.execSummary s
  | .msnap entries => Sys2Proof.Machine.execMsnap entries s
  | .umbCfgw m w => Sys2Proof.Machine.execUmbCfgw m w s
  | .coldStart x => Sys2Proof.Machine.execColdStart x s
  | .softStart x => Sys2Proof.Machine.execSoftStart x s
  | .protectedMemoryAccess m addr size wr upset => Sys2Proof.Machine.execProtectedMemoryAccess m addr size wr upset s
  | .walkWr32 => Sys2Proof.Machine.execWalkWr32 s
  | .walkFill => Sys2Proof.Machine.execWalkFill s
  | .walkLoad => Sys2Proof.Machine.execWalkLoad s
  | .walkWait => Sys2Proof.Machine.execWalkWait s
  | .walkWaitExpiry => Sys2Proof.Machine.execWalkWaitExpiry s
  | .walkCheck => Sys2Proof.Machine.execWalkCheck s
  | .walkEnd => Sys2Proof.Machine.execWalkEnd s
  | .walkTimeout => Sys2Proof.Machine.execWalkTimeout s
  | .mirrorRewriteDone => Sys2Proof.Machine.execMirrorRewriteDone s
  | .navWatchdogExpiry => Sys2Proof.Machine.execNavWatchdogExpiry s
  | .navWdogKick m w => Sys2Proof.Machine.execNavWdogKick m w s
  | .sessionIdleTimeout => Sys2Proof.Machine.execSessionIdleTimeout s
  | .challengeExpiry => Sys2Proof.Machine.execChallengeExpiry s
  | .backoffExpiry => Sys2Proof.Machine.execBackoffExpiry s
  | .svcFrameRx octets => Sys2Proof.Machine.execSvcFrameRx octets s
  | .svcAckFrame octets => Sys2Proof.Machine.execSvcAckFrame octets s
  | .svcAckDelay => Sys2Proof.Machine.execSvcAckDelay s
  | .svcRetransmit => Sys2Proof.Machine.execSvcRetransmit s
  | .svcRateTimeout => Sys2Proof.Machine.execSvcRateTimeout s
  | .svcUnknownCommand => Sys2Proof.Machine.execSvcUnknownCommand s
  | .hello => Sys2Proof.Machine.execHello s
  | .close => Sys2Proof.Machine.execClose s
  | .authChallenge => Sys2Proof.Machine.execAuthChallenge s
  | .authResponse => Sys2Proof.Machine.execAuthResponse s
  | .readReg => Sys2Proof.Machine.execReadReg s
  | .writeReg => Sys2Proof.Machine.execWriteReg s
  | .readUmber => Sys2Proof.Machine.execReadUmber s
  | .putObject flashOk => Sys2Proof.Machine.execPutObject flashOk s
  | .journalPendingRun => Sys2Proof.Machine.execJournalPendingRun s
  | .queryObject => Sys2Proof.Machine.execQueryObject s
  | .abandonObject => Sys2Proof.Machine.execAbandonObject s
  | .commitStaging flashOk => Sys2Proof.Machine.execCommitStaging flashOk s
  | .activate => Sys2Proof.Machine.execActivate s
  | .activationAckWait => Sys2Proof.Machine.execActivationAckWait s
  | .sealPart => Sys2Proof.Machine.execSealPart s
  | .unsealPart => Sys2Proof.Machine.execUnsealPart s
  | .clearFsw => Sys2Proof.Machine.execClearFsw s
  | .repairCluster => Sys2Proof.Machine.execRepairCluster s
  | .repairGroup => Sys2Proof.Machine.execRepairGroup s
  | .repairProc => Sys2Proof.Machine.execRepairProc s
  | .repairVacated => Sys2Proof.Machine.execRepairVacated s
  | .repairVacateTimeout => Sys2Proof.Machine.execRepairVacateTimeout s
  | .commandExecutionEnd => Sys2Proof.Machine.execCommandExecutionEnd s
  | .registerWrite m addr size w => Sys2Proof.Machine.execRegisterWrite m addr size w s
  | .slkFmtRead m n => Sys2Proof.Machine.execSlkFmtRead m n s
  | .snpHtimeRead m h => Sys2Proof.Machine.execSnpHtimeRead m h s
  | .timNowRead m sub => Sys2Proof.Machine.execTimNowRead m sub s
  | .timEpochRead m => Sys2Proof.Machine.execTimEpochRead m s
  | .tpNextEdgeRead m n => Sys2Proof.Machine.execTpNextEdgeRead m n s
  | .tpiStampRead m => Sys2Proof.Machine.execTpiStampRead m s
  | .engPhaseRead m e => Sys2Proof.Machine.execEngPhaseRead m e s
  | .umbSequenceRead m old => Sys2Proof.Machine.execUmbSequenceRead m old s
  | .cusLatchedRead m which => Sys2Proof.Machine.execCusLatchedRead m which s
  | .svcUpdidRead m => Sys2Proof.Machine.execSvcUpdidRead m s
  | .jtagTapInstruction x => Sys2Proof.Machine.execJtagTapInstruction x s

end Sys2Proof.Machine
end

