-- ==== Sys2Proof/Safety.lean ====
section
/-! DEFINITION. What counts as a safe run: it goes on, and its memories stay in their one canonical form. -/

namespace Sys2Proof

open Sys2Proof.Machine

/-- The machine takes a step and goes on. -/
def Goes (s : State) : Prop := ∃ t, step s = Host.Outcome.next t

/-- A run of `k` steps goes on to its end. -/
def SafeRun (k : Nat) (s : State) : Prop := ∃ t, Host.Core.run core k s = Host.Outcome.next t

/-- The register fields stand in canonical form: keys rise strictly. -/
def regsRise (s : State) : Bool := tblSorted none s.reg

/-- Memory and flash in canonical form, register fields listed once each in rising order. -/
def Canonical (s : State) : Prop := Memory.wf s = true ∧ regsRise s = true

/-- A register write that R402 and R406 accept, and that has an effect: the master may make it, no rule refuses it, and
not every writable field of the register is locked. -/
def writeTaken (s : State) (m : Master) (a w : Nat) : Bool :=
  s.busAllowed m a true && !s.writeError m a w &&
    !(s.lockHolds m && (regsAt a).all fun f => f.2.lockable || f.2 == .ro)

/-- The state with a register's fields written as R402 says: those that the seal locks keep their values. -/
def written (s : State) (m : Master) (a w : Nat) : State :=
  (regsAt a).foldl (fun t f => if s.lockHolds m && f.2.lockable then t else t.fieldWrite f.1 f.2 w) s

/-- The command `c` is master `m`'s write of `w` to the register at `a`: when it is accepted, the fields are written
and then `f` happens. -/
def Writes (c : Instr) (m : Master) (a : Nat) (w : Word) (s : State) (f : State → State) : Prop :=
  writeTaken s m a w.toNat = true → exec c s = .next (f (written s m a w.toNat)).dspSteps

/-- The address of engine `e`'s register at offset `o` (R400): 64 engines in each cluster, 1 KiB for each. -/
def engAddr (e : Fin 1024) (o : Nat) : Nat := 0x50010000 + 0x100000 * (e.val / 64) + 0x400 * (e.val % 64) + o

/-- The rows of the loop DSP's instructions, each with the operation it is named after (R152). -/
def dspRows (d : Fin 16) : List (DspOp × Instr) :=
  [(.nop, .dspNop d), (.mov, .dspMov d), (.add, .dspAdd d), (.adds, .dspAdds d), (.sub, .dspSub d), (.subs, .dspSubs d),
   (.and, .dspAnd d), (.or, .dspOr d), (.xor, .dspXor d), (.neg, .dspNeg d), (.abs, .dspAbs d), (.min, .dspMin d),
   (.max, .dspMax d), (.cmp, .dspCmp d), (.shl, .dspShl d), (.shr, .dspShr d), (.asr, .dspAsr d), (.shlv, .dspShlv d),
   (.asrv, .dspAsrv d), (.mpy, .dspMpy d), (.mac, .dspMac d), (.msu, .dspMsu d), (.mpyu, .dspMpyu d), (.ftap, .dspFtap d),
   (.ftaps, .dspFtaps d), (.ld, .dspLd d), (.st, .dspSt d), (.ldil, .dspLdil d), (.ldih, .dspLdih d), (.addi, .dspAddi d),
   (.cmpi, .dspCmpi d), (.clra, .dspClra d), (.adda, .dspAdda d), (.suba, .dspSuba d), (.nega, .dspNega d),
   (.absa, .dspAbsa d), (.sha, .dspSha d), (.shar, .dspShar d), (.xfr, .dspXfr d), (.xfw, .dspXfw d), (.bra, .dspBra d),
   (.bcc, .dspBcc d), (.call, .dspCall d), (.ret, .dspRet d), (.rti, .dspRti d), (.lps, .dspLps d), (.lpr, .dspLpr d),
   (.lpx, .dspLpx d), (.wait, .dspWait d), (.trap, .dspTrap d), (.sync, .dspSync d), (.eld, .dspEld d), (.est, .dspEst d),
   (.blkx, .dspBlkx d), (.blky, .dspBlky d), (.ang, .dspAng d), (.mag, .dspMag d), (.divf, .dspDivf d)]

/-- In `s` a loop DSP runs, or takes the single step asked for in HALT, with its clock, and the word `w` of the operation
`op` stands at its PC and may execute there (R144, R157, R165); `u` is the DSP about to execute it, its stall over, results
that are due landed and the loop-end decision taken, and `back` the start of the loop body that it returns to, if any
(R142, R143, R156, R158). -/
def DspReady (s : State) (d : Fin 16) (op : DspOp) (w : Nat) (u : State) (back : Option Nat) : Prop :=
  let x := s.dsp d.val
  ∃ t, (s.dspState d.val = 1 ∨ s.dspState d.val = 3 ∧ x.step = true) ∧ s.dspClock d.val = true ∧ x.pc < 0x4000 ∧
    s.memRead (.dsp d.val .p) (dspWord d.val .p x.pc) 4 = (t, some w) ∧ dspDecode w = some op ∧
    (op.external = true → x.slot = none → ((t.dspHold d op).dsp d.val).refused = []) ∧
    (op.notInSlot = true → x.slot = none) ∧
    u = ((t.dspHold d op).dspLand d.val).setDsp d.val ((((t.dspHold d op).dspLand d.val).dsp d.val).loopStep x.pc).1 ∧
    back = ((((t.dspHold d op).dspLand d.val).dsp d.val).loopStep x.pc).2

/-- `s`'s instruction has executed with the effect `u`, going on as `f` says after `n` cycles. -/
def dspDone (s : State) (d : Fin 16) (back : Option Nat) (u : State) (f : Flow) (n : Nat) :
    Host.Outcome State Fault Refusal :=
  .next ((u.dspAfter d (s.dsp d.val).pc (s.dsp d.val).slot back f n).stepEnd d)

/-- `s`'s instruction raises the fault `code` with the address `addr` in the state `u`; its loop-end decision has not
happened. -/
def dspFaults (s : State) (d : Fin 16) (u : State) (code addr : Nat) : Host.Outcome State Fault Refusal :=
  .next ((u.dspFault d.val code addr (s.dsp d.val).pc (s.dsp d.val).pc).stepEnd d)

/-- The service port can take the command `code` in front, with its `SEQ` and payload; `rest` waits behind it (R376). -/
def SvcReady (s : State) (code seq : Nat) (p : List Byte) (rest : List (Nat × Nat × List Byte)) : Prop :=
  s.svc.cmds = (code, seq, p) :: rest ∧ s.svcAlive = true ∧ (s.svcBusy = false ∨ code = 1)

/-- The state in which the execution of a service command begins. -/
def svcBegun (s : State) (rest : List (Nat × Nat × List Byte)) : State :=
  { s with svc := { s.svc with cmds := rest }, cus := { s.cus with cmdAt := s.tim.up } }

/-- The service command `code` has come to the state `t` and is answered with a status and fields (R376). -/
def svcAnswer (t : State) (code seq status : Nat) (fields : List Byte) : Host.Outcome State Fault Refusal :=
  .next (t.svcRespond code seq status fields).attnUpdate

end Sys2Proof
end

