-- ==== Sys2Proof/Certificates/Slice0/Obligations.lean ====
section
/-! DEFINITION. The statements for the provers: what each command and the block as a whole does, family by family. -/

set_option linter.all false

open Sys2Proof Sys2Proof.Machine

/-- R39–R42, R47: what reaches a link. That a frame is judged at the marker that ends it, and which of CTRL, OVF, LOREL and
MARK end there, is the model's choice (log entry 14). -/
def Obligations.LinkWords : Prop :=
  ∀ (m : Master) (n : Fin 8) (w : Word) (cw : BitVec 24) (sub gap : Nat) (eyes : List (Option (Fin 64))) (s : State),
    (writeTaken s m (0x40050000 + 0x100 * n.val) w.toNat = true →
      let t := written s m (0x40050000 + 0x100 * n.val) w.toNat
      let en := t.on (SLK_CFG_EN n)
      exec (.slkEnable m n w eyes) s = .next (
        if en = s.on (SLK_CFG_EN n) then t
        else if en then
          let c : LinkCfg := { code := t.get (SLK_CFG_CODE n), iqswap := t.get (SLK_CFG_IQSWAP n),
                               qinv := t.get (SLK_CFG_QINV n), agcm := t.get (SLK_CFG_AGCM n),
                               ant := t.get (SLK_CFG_ANT n), bands := t.get (SLK_CFG_BANDS n) }
          (((t.setLink n { t.link n with cfg := c }).linkBegin n).linkMap).linkTrain n eyes
        else (((t.linkStop n).set (SLK_STAT_ASLEEP n) 0).set (SLK_STAT_MAPERR n) 0).linkMap).dspSteps) ∧
    (Writes (.gbaseWrite m n w) m (0x40050028 + 0x100 * n.val) w s fun t =>
      let t := t.set (SLK_GBASE_VALID n) 1
      t.setLink n { t.link n with gacc := t.get (SLK_GBASE_BASE n) * 2 ^ 22 }) ∧
    (s.linkLive n = true → exec (.markerReceived n sub gap eyes) s = .next
      (let t := s.linkTrain n eyes
       let k := t.now sub
       let t := t.set (SLK_FMT_SH_FRAC n) (tvFrac k)
       let t := t.set (SLK_FMT_SH_SECH n) (tvSec k / 2 ^ 32)
       let t := t.set (SLK_FMT_SL_SECL n) (tvSec k)
       let t := t.set (SLK_FMT_NS_NS n) (tvNs k)
       let l := t.link n
       let t := if 16 < l.badWords then t else t.linkClear n 4
       let t := if l.ovfSeen then t else t.linkClear n 5
       let t := t.linkClear n 8
       let t := if !l.marked then t else if gap = 204600 then t.linkClear n 3 else t.linkFault n 3
       let t := t.linkFrame n
       let t := t.setLink n { t.link n with aligned := true, marked := true, words := 0, badWords := 0, ovfSeen := false }
       if t.on (SLK_STAT_TRAIN n) && (t.link n).trained then
         ((t.set (SLK_STAT_TRAIN n) 0).set (SLK_STAT_UP n) 1).linkClear n 0
       else t)) ∧
    (s.linkLive n = true → (s.link n).aligned = true →
      let l := s.link n
      let k := cw.toNat
      let t := s.setLink n { l with words := l.words + 1 }
      (crc8 (beBytes 2 (k / 256)) ≠ k % 256 → exec (.controlWord n cw) s = .next
        (let u := (t.setLink n { t.link n with badWords := (t.link n).badWords + 1 }).incSat (SLK_CTRLERR_COUNT n)
         if 16 < (t.link n).badWords + 1 then u.linkFault n 4 else u)) ∧
      (crc8 (beBytes 2 (k / 256)) = k % 256 → 4 ≤ bits k 22 20 → exec (.controlWord n cw) s = .next
        (t.incSat (SLK_CTRLERR_COUNT n))) ∧
      (crc8 (beBytes 2 (k / 256)) = k % 256 → bits k 22 20 < 4 →
        let u := if bit k 23 then
          ((t.setLink n { t.link n with ovfSeen := true }).snapMark n SNP_HSTAT_OVF).linkFault n 5 else t
        (bits k 22 20 = 1 → exec (.controlWord n cw) s = .next
          (if (u.link n).cfg.agcm = 1 ∧ u.on SUP_STAT_BRACE = false then u.set (SLK_AGC_GAIN n) (bits k 15 8) else u)) ∧
        (bits k 22 20 = 2 → exec (.controlWord n cw) s = .next (if bit k 9 then u.linkFault n 8 else u)) ∧
        (bits k 22 20 = 0 ∨ bits k 22 20 = 3 → exec (.controlWord n cw) s = .next u)))

/-- R42, R44, R45, R47: faults, episodes, gain and baseline of a link. That the duration of an episode leaves out the quiet
second is the model's choice (log entry 14), and so is the test that the second has passed (log entry 67). -/
def Obligations.LinkFaults : Prop :=
  ∀ (n : Fin 8) (lane : Fin 4) (slipped : Nat) (eyes : List (Option (Fin 64))) (s : State),
    let l := s.link n
    (s.linkLive n = true →
      exec (.clkFault n) s = .next ((s.linkFault n 0).set (SLK_STAT_UP n) 0) ∧
      exec (.markFault n) s = .next ((s.linkFault n 3).setLink n { (s.linkFault n 3).link n with aligned := false }) ∧
      (laneUsed l.cfg.code lane = true →
        let t := s.linkFault n 6
        exec (.stuckFault n lane) s = .next (t.setLink n { t.link n with stuck := (t.link n).stuck ||| 2 ^ lane.val })) ∧
      exec (.slipFault n slipped) s = .next ((s.linkFault n 2).incSat (SLK_SUBCNT_COUNT n) slipped) ∧
      (bit (s.get (SLK_STAT_FAULTS n)) 0 = true →
        exec (.linkClockReturn n eyes) s = .next ((s.linkStart n).linkTrain n eyes))) ∧
    (let k := (l.stuck ||| 2 ^ lane.val) ^^^ 2 ^ lane.val
     let t := s.setLink n { l with stuck := k }
     exec (.stuckLaneToggle n lane) s = .next (if l.stuck ≠ 0 ∧ k = 0 then t.linkClear n 6 else t)) ∧
    (l.episode = true → s.get (SLK_STAT_FAULTS n) = 0 → s.reached l.freeAt 1000000000 = true → exec (.faultEpisodeEnd n) s = .next
      ((s.setLink n { l with episode := false, seen := 0 }).note 0x0401 0x0C 2
        (n * 2 ^ 77 + l.seen * 2 ^ 68 + min ((l.freeAt - l.epAt) / 1000000) (2 ^ 32 - 1)))) ∧
    (l.cfg.agcm = 2 → 16 ≤ l.upfrN → s.on SUP_STAT_BRACE = false →
      let t := s.setLink n { l with upfrSum := 0, upfrN := 0 }
      let tgt := t.get (SLK_AGC_TGT n)
      let g := t.get (SLK_AGC_GAIN n)
      let g' : Int :=
        if l.upfrN * (tgt + 4) < l.upfrSum then (g : Int) - 1
        else if (l.upfrSum : Int) < l.upfrN * ((tgt : Int) - 4) then g + 1
        else g
      exec (.agcUpdate n) s = .next
        (t.set (SLK_AGC_GAIN n) (clampI (t.get (SLK_AGC_GMIN n)) (t.get (SLK_AGC_GMAX n)) g').toNat)) ∧
    (600000 ≤ l.learnMs → exec (.gbaseValidTimer n) s = .next (s.set (SLK_GBASE_VALID n) 1))

/-- R48, R49, R51: front-end buses. The received frame comes with the command (the model's choice, log entry 3). The
model's choices are also: an entry that cannot be read ends in OPERR and a second GO takes the place of the first (log
entry 15), a bus stands still below the minimum service (log entry 57), and the test of a wait's end (log entry 67). -/
def Obligations.FrontEndBus : Prop :=
  ∀ (m : Master) (b : Fin 4) (w : Word) (us : Nat) (rx : BitVec 24) (s : State),
    let f := s.fec b
    let entries := [Instr.fecWrite b us rx, .fecCheck b us rx, .fecWait b us, .fecEnd b us]
    (Writes (.fecSeqGo m b w) m (0x40060008 + 0x100 * b.val) w s fun t =>
      if !bit w.toNat 31 then t
      else if t.on (FEC_SEQ_BUSY b) then t.set (FEC_STAT_OPERR b) 1
      else t.setFec b { t.fec b with pendGo := some (t.get (FEC_SEQ_START b)) }) ∧
    (s.on (FEC_CAL_EN b) = true → exec (.fecCalDue b) s = .next (s.setFec b { f with pendCal := true })) ∧
    (s.on (FEC_CAL_EN b) = false → exec (.fecCalDue b) s = .next s) ∧
    (s.on (FEC_CFG_EN b) = false ∨ s.on SUP_STAT_BRACE = true ∨ s.itg.below = true ∨ s.itg.minSet = true →
      exec (.fecSlot b) s = .next s ∧ ∀ c ∈ entries, exec c s = .next s) ∧
    (f.running = none ∨ f.waiting = true ∨ f.hold = true → ∀ c ∈ entries, exec c s = .next s) ∧
    (s.on (FEC_CFG_EN b) = true → s.on SUP_STAT_BRACE = false → s.itg.below = false → s.itg.minSet = false →
      (let t := (s.fecGain b 0).fecGain b 1
       let g := t.fec b
       (g.running.isSome = true ∨ g.hold = true → exec (.fecSlot b) s = .next t) ∧
       (g.running = none → g.hold = false →
         (g.pendWake = true → exec (.fecSlot b) s = .next
           ((t.setFec b { g with pendWake := false }).fecStart b .wake (t.get (FEC_PWR_WAKE b)))) ∧
         (g.pendWake = false → g.pendSlp = true → exec (.fecSlot b) s = .next
           ((t.setFec b { g with pendSlp := false }).fecStart b .sleep (t.get (FEC_PWR_SLEEP b)))) ∧
         (g.pendWake = false → g.pendSlp = false → ∀ i, g.pendGo = some i → exec (.fecSlot b) s = .next
           ((t.setFec b { g with pendGo := none }).fecStart b .go i)) ∧
         (g.pendWake = false → g.pendSlp = false → g.pendGo = none → exec (.fecSlot b) s = .next
           (if g.pendCal then (t.setFec b { g with pendCal := false }).fecStart b .cal (t.get (FEC_CAL_START b)) else t)))) ∧
      (f.running ≠ none → f.waiting = false → f.hold = false →
        (900 < us → ∀ c ∈ entries, exec c s = .next (s.set (FEC_STAT_DEFER b) 1)) ∧
        (us ≤ 900 →
          let r := s.memRead .nav (s.get (FEC_TBASE_ADDR b) * 4 + s.get (FEC_SEQ_PC b) % 1024 * 4) 4
          let t := r.1
          (r.2 = none → ∀ c ∈ entries, exec c s = .next (t.fecFail b false)) ∧
          (∀ v, r.2 = some v →
            (4 ≤ bits v 31 29 → ∀ c ∈ entries, exec c s = .next (t.fecFail b false)) ∧
            (bits v 31 29 = 1 → exec (.fecWrite b us rx) s = .next ((t.fecFrame b v rx.toNat).inc (FEC_SEQ_PC b) 1)) ∧
            (bits v 31 29 = 2 →
              let u := t.fecFrame b v rx.toNat
              let q := u.fecEntry b (u.get (FEC_SEQ_PC b) + 1)
              (q.2 = none → exec (.fecCheck b us rx) s = .next (q.1.fecFail b false)) ∧
              ∀ e, q.2 = some e → exec (.fecCheck b us rx) s = .next
                (if (q.1.get (FEC_RDATA_DATA b) &&& bits e 31 16) = (bits e 15 0 &&& bits e 31 16) then
                  q.1.inc (FEC_SEQ_PC b) 2 else q.1.fecFail b true)) ∧
            (bits v 31 29 = 3 → exec (.fecWait b us) s = .next (t.setFec b { t.fec b with
              waiting := true, waitTill := t.tim.up + (us + bits v 23 0) * 1000 })) ∧
            (bits v 31 29 = 0 → exec (.fecEnd b us) s = .next
              ((t.setFec b { t.fec b with running := none }).set (FEC_SEQ_BUSY b) 0)))))) ∧
    (f.waiting = true → s.reached f.waitTill 0 = true → exec (.fecWaitExpiry b) s = .next
      ((s.setFec b { f with waiting := false }).inc (FEC_SEQ_PC b) 1)) ∧
    (f.waiting = false ∨ s.reached f.waitTill 0 = false → exec (.fecWaitExpiry b) s = .next s) ∧
    (∀ (chk : Bool),
      let pc := s.get (FEC_SEQ_PC b)
      let t := (s.set (FEC_STAT_FAILPC b) pc).set (if chk then FEC_STAT_CHKFAIL b else FEC_STAT_OPERR b) 1
      s.fecFail b chk = ((t.setFec b { t.fec b with running := none, waiting := false }).set (FEC_SEQ_BUSY b) 0).note
        0x0402 0x0C 2 (b.val * 2 ^ 78 + b2n chk * 2 ^ 77 + b2n (!chk) * 2 ^ 76 + pc))

/-- R68, R73, R81–R84, R87, R88, R439: writes to an engine; a token changes hands and none is lost. The model's choices: a write of ENG_MIG while armed (log entry 18), an
eighth dwell taken while none runs (log entry 16), and the channel given back to its engine (log entry 58). -/
def Obligations.EngineWrites : Prop :=
  ∀ (m : Master) (e : Fin 1024) (w : Word) (s : State),
    let c := e.val / 64
    let ctl : State → State := fun t =>
      let t := if bit w.toNat 31 then t.engCancel e else t
      let t := if bit w.toNat 30 then t.engApply e else t
      if bit w.toNat 29 then
        let role := bits w.toNat 2 0
        let st := t.engState e
        if (t.clu c).gang then t.set (ENG_STAT_ROLEERR e) 1
        else if st = 0 ∧ (role = 1 ∨ role = 2) then t.engEnter e role
        else if (st = 1 ∨ st = 2) ∧ role = 0 then (t.engCancel e).engEnter e 0
        else t.set (ENG_STAT_ROLEERR e) 1
      else t
    (Writes (.dwellQueue m e w) m (engAddr e 0x34) w s fun t =>
      let st := t.engState e
      let x := t.eng e
      if !(st == 1 || (st == 2 && !(t.clu c).gang) || (st == 3 && x.migTo.isNone)) then t.set (ENG_STAT_ROLEERR e) 1
      else if 8 ≤ x.tokens then t.set (ENG_STAT_QFULL e) 1
      else if t.get (CLU_TOK_FREE c) = 0 then (t.set (ENG_STAT_QFULL e) 1).set (CLU_STAT_NOTOK c) 1
      else if t.on (CLU_STAT_MAPERR c) then t.set (ENG_STAT_QFULL e) 1
      else (t.dec (CLU_TOK_FREE c)).engPut e { x with queue := x.queue ++ [w.toNat % 4096] }) ∧
    (Writes (.engCommit m e w) m (engAddr e 0x30) w s fun t =>
      let x := t.eng e
      let late := !bit w.toNat 16 && decide ((t.get (ENG_DSEQ_DSEQ e) + 65536 - w.toNat % 65536) % 65536 < 32768)
      let u := if x.pend.isSome then t.set (ENG_STAT_OVWR e) 1 else t
      let u := u.engPut e { x with
        pend := some { set := u.engStaged e, any := bit w.toNat 16, target := w.toNat % 65536, late := late } }
      (u.set (ENG_CPHS_C_SET e) 0).set (ENG_KPHS_H_SET e) 0) ∧
    Writes (.engCancel m e w) m (engAddr e 0x38) w s ctl ∧
    Writes (.engApply m e w) m (engAddr e 0x38) w s ctl ∧
    Writes (.engSetrole m e w) m (engAddr e 0x38) w s ctl ∧
    (Writes (.migArm m e w) m (engAddr e 0x5C) w s fun t =>
      if s.on (ENG_MIG_ARM e) then
        let u := (t.set (ENG_MIG_ARM e) 1).set (ENG_MIG_FROM e) (s.get (ENG_MIG_FROM e))
        if t.on (ENG_MIG_ARM e) then u.set (ENG_STAT_MIGERR e) 1 else u
      else if !t.on (ENG_MIG_ARM e) then t
      else
        let src := t.get (ENG_MIG_FROM e)
        if t.engState e ≠ 0 ∨ t.engState src ≠ 1 then
          let u := (t.set (ENG_MIG_ARM e) 0).set (ENG_STAT_MIGERR e) 1
          if (u.eng src).migTo = none then u.handBack src e else u
        else
          let u := ((t.engEnter e 3).engEnter src 3).set (ENG_MIG_DONE e) 0
          u.setEng src { u.eng src with migTo := some e }) ∧
    (∀ start, regsRise s = true → s.get (CLU_TOK_FREE c) + (s.eng e).tokens ≤ 256 →
      let books := fun t : State => t.get (CLU_TOK_FREE c) + (t.eng e).queue.length + b2n (t.eng e).run.isSome
      books (s.engQueue e start) = books s ∧
      ((s.eng e).run.isSome = true → books (dwellActEnd e.val w.toNat s) = books s))

/-- R65, R73, R80, R86, R87: writes to a cluster. The model's choices: a read pointer at or above LEN counts as past the
records held (log entry 18), and what a gang's dwell queue takes (log entry 16). -/
def Obligations.ClusterWrites : Prop :=
  ∀ (m : Master) (c : Fin 16) (w : Word) (s : State),
    let base := 0x50000000 + 0x100000 * c.val
    let ctl : State → State := fun t =>
      let en := t.on (CLU_CTL_CKEN c)
      let was := s.on (CLU_CTL_CKEN c)
      let t := if was && !en then t.eachEng c fun e t => t.engCancel e
        else if !was && en then t.setClu c { t.clu c with restarts := (t.clu c).restarts + 1 }
        else t
      if bit w.toNat 30 then
        if t.engCount c 0 + t.engCount c 4 + t.engCount c 5 = 64 then
          (t.eachEng c fun e t => if t.engState e = 0 then t.engEnter e 4 else t).set (CLU_CTL_BUSY c) 1
        else t.set (CLU_STAT_BISTREF c) 1
      else t
    Writes (.cluCkenWrite m c w) m base w s ctl ∧
    Writes (.cluBist m c w) m base w s ctl ∧
    (Writes (.cluGangWrite m c w) m (0x50000004 + 0x100000 * c.val) w s fun t =>
      t.setClu c { t.clu c with gangDue := true }) ∧
    (Writes (.ringReconfigure m c w) m (0x5000000C + 0x100000 * c.val) w s fun t =>
      let fill := t.get (CLU_RING_LVL_FILL c)
      let t := (t.clu c).held.foldl (fun t e => t.setEng e { t.eng e with lost := true }) t
      let t := t.setClu c { t.clu c with held := [] }
      let t := if fill = 0 then t else t.ringDrop c fill
      (((t.set (CLU_RING_WP_WP c) 0).set (CLU_RING_RP_RP c) 0).set (CLU_RING_LVL_FILL c) 0).cluMap c) ∧
    (Writes (.ringRelease m c w) m (0x50000014 + 0x100000 * c.val) w s fun t =>
      let old := s.get (CLU_RING_RP_RP c)
      let new := t.get (CLU_RING_RP_RP c)
      let len := t.get (CLU_RING_LEN c)
      let fill := t.get (CLU_RING_LVL_FILL c)
      let n := (new + len - old) % max len 1
      if new = old then t
      else if len ≤ new ∨ fill < n then (t.set (CLU_RING_RP_RP c) old).set (CLU_STAT_RPERR c) 1
      else
        ((t.setClu c { t.clu c with held := (t.clu c).held.drop n }).set (CLU_RING_LVL_FILL c) (fill - n)).ringLevel c) ∧
    (Writes (.ctinvWrite m c w) m (0x50000020 + 0x100000 * c.val) w s fun t =>
      if bit w.toNat 31 then t.setClu c { t.clu c with flush := true } else t) ∧
    (Writes (.gangDwellQueue m c w) m (0x50000028 + 0x100000 * c.val) w s fun t => t.gangQueue c (w.toNat % 4096))

/-- R70, R71, R79: dwell instructions. That a loop counter wraps in its 20 bits is the model's choice (log entry 17), and so
is one instruction a command (log entry 16). -/
def Obligations.DwellInstructions : Prop :=
  ∀ (e : Fin 1024) (w : Nat) (r : Run) (s : State),
    let x := s.eng e
    s.cluOn (e / 64) = true → x.run = some r → r.prog[r.pc]? = some w →
      (bits w 31 28 = 0x0 → exec (.dwellNop e) s = .next (s.engNext e)) ∧
      (bits w 31 28 = 0x1 → exec (.dwellAbase e) s = .next ((s.setEng e { x with abase := sgn 16 w }).engNext e)) ∧
      (bits w 31 28 = 0x2 →
        let ok := (List.range 32).all fun k => !(decide (bits w 27 23 ≤ k) && decide (k ≤ bits w 22 18)) ||
          (decide (-32768 ≤ aofsOf x.abase w k) && decide (aofsOf x.abase w k ≤ 32767))
        exec (.dwellAofs e) s = .next (if ok then
            (s.setEng e (x.setArms (bits w 27 23) (bits w 22 18) fun k a => { a with ofs := aofsOf x.abase w k })).engNext e
          else s.engFault e 2)) ∧
      (bits w 31 28 = 0x3 → exec (.dwellAsrc e) s = .next
        ((s.setEng e (x.setArms (bits w 27 23) (bits w 22 18) fun _ a =>
          { a with en := bit w 17, gen := bit w 16, sc := bits w 15 14 })).engNext e)) ∧
      (bits w 31 28 = 0x7 → exec (.dwellNcacc e) s = .next
        (let sums := (List.range 32).foldl (fun t k =>
           if (tblGet x.arms {} k).en then
             tblPut t 0 k (satN 52 (tblGet t 0 k +
               (tblGet x.accI 0 k * tblGet x.accI 0 k + tblGet x.accQ 0 k * tblGet x.accQ 0 k).toNat))
           else t) x.ncsum
         (s.setEng e { x.clear with ncsum := sums }).engNext e)) ∧
      (bits w 31 28 = 0x9 → exec (.dwellSetc e) s = .next
        ((s.setEng e { x with run := some (if bit w 27 then { r with ctr1 := bits w 19 0 }
          else { r with ctr0 := bits w 19 0 }) }).engNext e)) ∧
      (bits w 31 28 = 0xA →
        let n := ((if bit w 27 then r.ctr1 else r.ctr0) + (2 ^ 20 - 1)) % 2 ^ 20
        let t := s.setEng e { x with run := some (if bit w 27 then { r with ctr1 := n } else { r with ctr0 := n }) }
        exec (.dwellLoop e) s = .next (if n = 0 then t.engNext e else t.engGoto e (bits w 5 0))) ∧
      (bits w 31 28 = 0xB → exec (.dwellJmp e) s = .next (s.engGoto e (bits w 5 0))) ∧
      (bits w 31 28 = 0xC → exec (.dwellIrq e) s = .next
        ((((s.set (ENG_STAT_ICODE e) (bits w 7 0)).set (ENG_STAT_PIRQ e) 1).set (CLU_IRQ_PROG (e / 64)) 1).engNext e)) ∧
      (bits w 31 28 = 0xD → exec (.dwellEnd e) s = .next ((s.tokBack (e / 64) 1).engPut e { s.eng e with run := none }))

/-- R52, R54–R56, R68, R69, R71, R73, R75, R76, R78, R79, R82, R102: spans and boundaries. The samples come with the command
(the model's choice, log entry 3), and where no dwell follows `DWELL_ACC` moves the oscillators on (the model's choice, log
entry 16). -/
def Obligations.DwellSpans : Prop :=
  ∀ (e : Fin 1024) (w sidx : Nat) (ms : List LinkSample) (r : Run) (s : State),
    let x := s.eng e
    s.cluOn (e / 64) = true →
      (x.run = none → exec (.dwellAcc e ms) s = .next (s.engCoast e ms)) ∧
      (x.run = some r → r.prog[r.pc]? = some w →
        (∀ acc : Bool, bits w 31 28 = (if acc then 4 else 5) →
          let y := if acc && r.left.isNone && bit w 25 then x.clear else x
          let z := { y with fl := y.fl &&& 0xEFFF, ncFl := y.ncFl &&& 0xEFFF }
          let o := spanGo (e / 64) acc (bits w 27 26) (s.engStream y ms) (r.left.getD (bits w 19 0)) (r.left.isNone || r.first) s z
          let t := o.s.engSpanFlags e y
            (if o.fault then o.x else { o.x with run := some { r with left := o.left, first := o.first } })
          exec (if acc then .dwellAcc e ms else .dwellSkip e ms) s = .next
            (if o.fault then t.engFault e 5 else if o.left = none then t.engNext e else t)) ∧
        (bits w 31 28 = 6 → exec (.dwellDump e sidx) s = .next (dwellActDump e sidx false w s)) ∧
        (bits w 31 28 = 8 → exec (.dwellNcdump e sidx) s = .next (dwellActDump e sidx true w s)) ∧
        (2 ≤ x.recs.length → ∀ nc, dwellActDump e sidx nc w s = s) ∧
        (x.recs.length < 2 → x.pend = none → ∀ nc,
          let dseq := (s.get (ENG_DSEQ_DSEQ e) + 1) % 65536
          let t := s.set (ENG_DSEQ_DSEQ e) dseq
          let b := t.boundaryAt x sidx
          let toMap := nc && (s.clu (e / 64)).gang
          let n := (s.clu (e / 64)).restarts
          let y := if toMap then x
            else { x with recs := x.recs ++ [(bit w 26, x.record e dseq b.1 (bits w 7 0) b.2 (x.firstFlags n) nc)],
                          restarts := n, migd := false }
          let y := if bit w 27 then (if nc then y.clearNc else y.clear) else y
          let t := if toMap then t.mapRecord e x else t.recordDone e
          let t := (t.engPut e y).setEng e { y with atPass := none }
          dwellActDump e sidx nc w s = if (t.eng e).migTo.isSome then t.migHandover e else t.engNext e)) ∧
      (∀ (c unit left : Nat) (acc first : Bool) (m : Sample) (y : EngSt),
        (let edge := unit = 2 ∧ m.epoch = true ∧ first = false
         (edge ∧ left = 1 → ∀ rest, spanGo c acc unit (m :: rest) left first s y = ⟨s, y, none, false, false⟩) ∧
         (¬ (edge ∧ left = 1) → ∀ t v wrap rest, s.engTick c (if acc then y.addSample m else y) = (t, v, wrap, false) →
           let k := left - (if edge ∨ unit = 0 ∨ (unit = 1 ∧ wrap = true) then 1 else 0)
           spanGo c acc unit (m :: rest) left first s y =
             if k = 0 then ⟨t, v, none, false, false⟩ else spanGo c acc unit rest k false t v)) ∧
        (let v := (s.engTick c y).2.1
         v.kph = (y.kph + y.use.krate) % 2 ^ 40 ∧
         (y.cfrac + y.use.crate < 2 ^ 48 → v.cfrac = y.cfrac + y.use.crate ∧ v.chip = y.chip) ∧
         (2 ^ 48 ≤ y.cfrac + y.use.crate → v.cfrac = y.cfrac + y.use.crate - 2 ^ 48 ∧ v.chip = (y.chip + 1) % y.ne) ∧
         v.accI = y.accI ∧ v.accQ = y.accQ ∧ v.nsamp = y.nsamp) ∧
        (m.gap = true ∨ y.refill ≠ 0 →
          let v := y.addSample m
          v.accI = y.accI ∧ v.accQ = y.accQ ∧ v.nsamp = y.nsamp + 1 ∧ v.gapn = y.gapn + 1 ∧ v.kph = y.kph ∧ v.chip = y.chip) ∧
        (m.gap = false → y.refill = 0 →
          let cs := carrierC (y.kph / 2 ^ 36)
          let sn := carrierS (y.kph / 2 ^ 36)
          let v := y.addSample m
          v.nsamp = y.nsamp + 1 ∧ v.gapn = y.gapn ∧
          (v.accI, v.accQ) = (List.range 32).foldl (fun (p : Tbl Int × Tbl Int) k =>
            let a := tblGet y.arms {} k
            if a.en then
              (tblPut p.1 0 k (satI 24 (tblGet p.1 0 k + y.replica a * (m.i * cs + m.q * sn))),
               tblPut p.2 0 k (satI 24 (tblGet p.2 0 k + y.replica a * (m.q * cs - m.i * sn))))
            else p) (y.accI, y.accQ)))

/-- R69, R80, R84, R86, R88, R316: events of the engines. That nothing of a record or of the self-test goes on while the array
is power-gated is R316's; which record is next is the cluster's order of completion (R80; the model's choice among equals,
log entry 18). -/
def Obligations.EngineEvents : Prop :=
  ∀ (e : Fin 1024) (c : Fin 16) (failed : List (Fin 64)) (s : State),
    let x := s.eng e
    let k := e.val / 64
    (x.run = none → (s.engState e = 1 ∨ s.engState e = 2 ∨ (s.engState e = 3 ∧ x.migTo.isSome = true)) → s.cluOn k = true →
      exec (.dwellStart e) s = .next (s.engBegin e)) ∧
    (∀ irq ws rest, x.recs = (irq, ws) :: rest → (s.clu k).done.head? ≠ some e.val ∨ s.sup.arrayOff = true →
      exec (.recordToRing e) s = .next s) ∧
    (∀ irq ws rest, x.recs = (irq, ws) :: rest → (s.clu k).done.head? = some e.val → s.sup.arrayOff = false →
      let s' := s.setClu k { s.clu k with done := (s.clu k).done.tail }
      (s.get (CLU_RING_LEN k) ≤ s.get (CLU_RING_LVL_FILL k) → exec (.recordToRing e) s = .next
        ((s'.setEng e { x with recs := rest, lost := true }).ringDrop k 1)) ∧
      (s.get (CLU_RING_LVL_FILL k) < s.get (CLU_RING_LEN k) →
        let wp := s.get (CLU_RING_WP_WP k)
        let t := s'.setEng e { x with recs := rest, lost := false }
        let t := t.memWriteWords (.cluster k) (cluWord k (t.get (CLU_RING_ADDR k) + wp * 42))
          (if x.lost then ws.take 1 ++ [ws.getD 1 0 ||| 0x400] ++ ws.drop 2 else ws)
        let t := (t.set (CLU_RING_WP_WP k) ((wp + 1) % s.get (CLU_RING_LEN k))).set (CLU_RING_LVL_FILL k)
          (s.get (CLU_RING_LVL_FILL k) + 1)
        let t := t.setClu k { t.clu k with held := (t.clu k).held ++ [e.val] }
        exec (.recordToRing e) s = .next ((if irq then t.set (CLU_IRQ_DUMP k) 1 else t).ringLevel k))) ∧
    (s.sup.arrayOff = true → exec (.bistdone c failed) s = .next ((s.repairTested c).attnUpdate)) ∧
    (s.on (CLU_CTL_BUSY c) = true → s.sup.arrayOff = false → exec (.bistdone c failed) s = .next
      (let t := s.eachEng c fun j t =>
         if t.engState j ≠ 4 then t
         else if (failed.map Fin.val).contains (j % 64) then (t.engEnter j 5).note 0x0502 (0x10 + c) 2 j
         else t.engEnter j 0
       ((((t.set (CLU_CTL_BUSY c) 0).set (CLU_STAT_BISTDONE c) 1).repairTested c).attnUpdate))) ∧
    (s.on (ENG_MIG_ARM e) = true → (s.eng (s.get (ENG_MIG_FROM e))).migTo = some e.val →
      exec (.migTimeout e) s = .next (s.migAbort (s.get (ENG_MIG_FROM e)))) ∧
    (s.on (ENG_MIG_ARM e) = false → exec (.migTimeout e) s = .next (s.migAbort e))

/-- R93, R95–R98, R101, R439: snapshot writes. CFGERR alone for a bad setting that also wants too many credits and the test whether
the epoch has passed (log entry 19), the free phase of the mixer (log entry 40), and what FREE does to a FREE handle (log
entry 19) are the model's choices. -/
def Obligations.SnapshotWrites : Prop :=
  ∀ (m : Master) (h : Fin 8) (c : Fin 16) (ofs : Nat) (w : Word) (s : State),
    let a := 0x40070100 + 0x40 * h.val
    let refuse : Field → State := fun f => (s.set f 1).set SNP_IRQ_ERR 1
    (bit w.toNat 30 = false → bit w.toNat 31 = true → Writes (.snpArm m h w) m a w s fun t =>
      let len := t.get (SNP_HLEN_LEN h)
      let rate := t.get (SNP_HCFG_RATE h)
      let n := t.get (SNP_HCFG_LINK h)
      if t.get (SNP_HSTAT_STATE h) ≠ 0 ∨ len = 0 ∨ 67108864 < len ∨ 6 ≤ rate ∨ !t.on (SLK_STAT_UP n) then refuse SNP_STAT_CFGERR
      else
        let need := ceilDiv len 1048576
        let cred := ((List.range 64).filter fun b => !t.creditsHeld.contains b).take need
        if t.get SNP_CRED_FREE < need then refuse SNP_STAT_NOCRED
        else
          let trig := t.on (SNP_HCFG_TRIG h)
          let epoch := t.get (SNP_HCFG_EPOCH h)
          let x : HandleSt := { len := len, rate := rate, link := n, cfg := (t.link n).cfg,
                                mix := t.get (SNP_HMIX_MIX h), trig := trig, epoch := epoch,
                                late := trig && t.epochPassed epoch, cred := cred, armedAt := t.epochCount,
                                phase := (t.draw (2 ^ 32)).2 }
          let t := ((t.draw (2 ^ 32)).1.dec SNP_CRED_FREE need).handlePut h x
          let t := ((t.set (SNP_HSTAT_LINKF h) 0).set (SNP_HSTAT_FECW h) 0).set (SNP_HSTAT_OVF h) 0
          (t.set (SNP_HSTAT_LATE h) 0).handleEnter h 1) ∧
    (bit w.toNat 30 = true → Writes (.snpFree m h w) m a w s fun t =>
      if t.on (SNP_HSTAT_REPLAY h) then refuse SNP_STAT_BUSYERR
      else if t.get (SNP_HSTAT_STATE h) = 0 then t
      else (t.creditsBack h).handleEnter h 0) ∧
    (bit w.toNat 31 = true → bit w.toNat 30 = false → Writes (.replayGo m w) m 0x40070010 w s State.replayGo) ∧
    (bit w.toNat 30 = true → bit w.toNat 31 = false → Writes (.replayStop m w) m 0x40070010 w s fun t =>
      if t.on SNP_STAT_RPLRUN then { t with replay := { t.replay with stop := true } } else t) ∧
    (let o := ofs % 0x10000
     let image := 0x50020000 + c.val * 0x100000 + o
     s.busAllowed m image true = true → (s.clu c).gang = true → o % 4 = 0 →
     (o ≤ 0x30 ∨ (o = 0x38 ∧ bit w.toNat 29 = false ∧ w.toNat % 8 = 0 ∧ (bit w.toNat 31 = true ∨ bit w.toNat 30 = true))) →
     s.writeError m (0x50010000 + c.val * 0x100000 + o) w.toNat = false →
       exec (.broadcastWrite m c ofs w) s = .next
         (s.eachEng c fun e t =>
           if t.engState e = 2 then t.regWrite m (0x50010000 + c.val * 0x100000 + e % 64 * 0x400 + o) w.toNat []
           else t).dspSteps) ∧
    (regsRise s = true → s.get SNP_CRED_FREE + (s.handle h).cred.length ≤ 64 →
      (s.creditsBack h).get SNP_CRED_FREE = s.get SNP_CRED_FREE + (s.handle h).cred.length ∧
      ((s.creditsBack h).handle h).cred = [] ∧ ∀ k, k ≠ h.val → (s.creditsBack h).handle k = s.handle k)

/-- R90–R94, R96: captures. The link's samples come with the command, the filter's coefficients and the mixer's rounding are
open (the model's choice, log entries 3 and 40). That a missing sample counts as code 0, that the thresholds are integer
roots, and LATE at the trigger are the model's choices too (log entry 19). -/
def Obligations.SnapshotCaptures : Prop :=
  ∀ (h : Fin 8) (sub : Nat) (pre raw : List LinkSample) (s : State),
    let x := s.handle h
    let here := s.epochCount % 65536 == x.epoch
    let due := s.get (SNP_HSTAT_STATE h) = 1 ∧ 4096 * decimation x.rate ≤ pre.length ∧ x.armedAt < s.epochCount ∧
      sub * storedRate x.rate < 65536000000000 ∧
      (x.trig = false ∨ x.late = true ∨ here = true ∨ s.epochPassed x.epoch = true)
    (due → exec (.captureTrigger h sub pre) s = .next
      (let k := s.now sub
       let fs := x.filtered pre
       let t := if x.codeForCode then (s.set (SNP_HTHR_TI h) 0).set (SNP_HTHR_TQ h) 0
         else (s.set (SNP_HTHR_TI h) (rms4096 (fs.map (·.1)))).set (SNP_HTHR_TQ h) (rms4096 (fs.map (·.2)))
       let t := (t.set (SNP_HTIME_SH_FRAC h) (tvFrac k)).set (SNP_HTIME_SH_SECH h) (tvSec k / 2 ^ 32)
       let t := (t.set (SNP_HTIME_SL_SECL h) (tvSec k)).set (SNP_HTIME_NS_NS h) (tvNs k)
       let t := if x.trig && (x.late || !here) then t.set (SNP_HSTAT_LATE h) 1 else t
       let t := if (t.link x.link).frameF then t.set (SNP_HSTAT_LINKF h) 1 else t
       let t := if (t.link x.link).fecMark then t.set (SNP_HSTAT_FECW h) 1 else t
       (t.setHandle h { x.after pre with count0 := t.epochCount, sub := sub }).handleEnter h 2)) ∧
    (¬ due → exec (.captureTrigger h sub pre) s = .next s) ∧
    (s.get (SNP_HSTAT_STATE h) = 2 →
      let codes := if x.codeForCode then raw.map fun m => cutSample 3 3 (x.cfg.levels m)
        else (x.filtered raw).map (cutSample (s.get (SNP_HTHR_TI h) * 2 ^ 23) (s.get (SNP_HTHR_TQ h) * 2 ^ 23))
      let t := s.setHandle h { x with openF := true, openE := true }
      exec (.capdone h raw) s = .next
        (((t.fillCredits x.cred (packCodes ((List.range x.len).map fun i => codes.getD i 0))).handleEnter h 3).set
          SNP_IRQ_CAPDONE 1))

/-- R65, R66, R98, R100, R102, R103: passes. What is left of a refill at a pass's begin is the model's choice (log entry
16). -/
def Obligations.ReplayPasses : Prop :=
  ∀ (s : State), s.on SNP_STAT_RPLRUN = true →
    (s.replay.inPass = false →
      let later := s.replay.later
      exec .replayPassStart s = .next
        ((({ s with replay := { s.replay with inPass := true } } : State)).each 16 fun c t =>
          let t := if later && t.on (SNP_MAPCFG_AUTO c) then
              t.set (SNP_MAPREF_REF c) (min (t.get (SNP_MSTAT_NOISE c)) 3170) else t
          let t := t.setMap c { t.map c with cells := [], done := [] }
          t.eachEng c fun e t =>
            let t := t.refillLeft later e
            if (t.clu c).gang && t.engState e == 2 then t.passEngine (!later && s.replay.org) e
            else if (t.eng e).use.src = 8 then t.setEng e { t.eng e with rpos := 0 }
            else t)) ∧
    (∀ (later : Bool) (e : Nat),
      let x := s.eng e
      (x.refill = 0 → s.refillLeft later e = s) ∧
      (x.refill ≠ 0 → later = true → x.refillIn = true →
        s.refillLeft later e = s.setEng e { x with refill := x.refill - 4 * 1637 }) ∧
      (x.refill ≠ 0 → later = false ∨ x.refillIn = false → x.refillAt + 2000000 ≤ s.tim.up →
        s.refillLeft later e = s.setEng e { x with refill := 0 })) ∧
    (s.replay.inPass = true →
      let r := s.replay
      let t := s.inc SNP_RPL_PASS_PASS
      let t := ({ t with replay := { r with inPass := false, later := true } } : State)
      let t := t.each 16 fun c t => t.mapRow c
      exec .replayPassEnd s = .next
        (if r.stop || (r.passes != 0 && t.get SNP_RPL_PASS_PASS == r.passes) then t.replayEnd else t))

/-- R112, R121, R123, R130, R134, R137–R139: the commands of tracking. The set-ups that loop code takes are those of
`State.setupOk` (the model's choice, log entry 58), on which `State.loopRuns` and `State.handsOver` rest too; the
measurements formed before a report rest on log entry 65 and the places of the steer table on log entry 60 (the model's
choices). -/
def Obligations.TrackingSteps : Prop :=
  ∀ (e : Fin 1024) (u : LoopIn) (s : State),
    let x := s.chan e
    let r := dumpRec u.rec_
    let runs := s.loopRuns (e / 64)
    (runs = false ∨ r.tracks = false ∨ s.engState e ≠ 1 ∧ s.engState e ≠ 3 → exec (.loopUpdate e u) s = .next s) ∧
    (runs = true → r.tracks = true → s.engState e = 1 → x.live = true → x.st ≠ .lost → bit r.flags 6 = false →
      exec (.loopUpdate e u) s = .next (s.chanRecord e { x with handed := false } r u false)) ∧
    (∀ c, runs = true → r.tracks = true → s.engState e = 1 → x.live = false → u.setup = some c → s.setupOk e c = true →
      exec (.loopUpdate e u) s = .next ((s.assist c false).chanRecord e (s.chanStart e c) r u true) ∧
      (s.chanStart e c).st = .pullIn ∧ (s.chanStart e c).coup = c.coupled) ∧
    (∀ (y : ChanSt), y.cfg.follow = false → y.handed = false → y.st ≠ .lost → y.st ≠ .coast → y.cfg.group = 255 →
      let kr := uns 40 (roundDiv ((((y.cfg.fRf : Int) - s.get (SLK_LOF_LOF (s.eng e).use.src)) * 2 ^ 32 + y.loop.est) * 2 ^ 40)
        (2 ^ 32 * 204600000))
      s.chanCommit e y 0 = (s.setChan e { x with krate := kr, ownSet := y.ownSet, cseq := (y.dseq + 1) % 65536 }).commitRates e kr
        (crateOf y.cfg.fRf y.cfg.comp.chip y.loop.est y.loop.v) (y.dseq + 1)) ∧
    (∀ chid epoch chip frac dop cdiv, s.navOn = false → exec (.steerEntryWrite e chid epoch chip frac dop cdiv) s = .next s) ∧
    (∀ chid epoch chip frac dop cdiv, s.navOn = true → exec (.steerEntryWrite e chid epoch chip frac dop cdiv) s = .next
      (s.memWriteWords (.cluster (e / 64)) (steerAddr e)
        [((s.peek (steerAddr e + 2) 2 + 1) / 2 * 2 + 2) % 2 ^ 16 * 2 ^ 16 + chid.toNat, epoch.toNat, chip.toNat, frac.toNat,
         dop.toNat, cdiv.toNat, 0, 0])) ∧
    (∀ d : Fin 16,
      let a := if s.nav.repEp = s.epochCount then s else s.measNow
      let b := a.lateOvld d
      let t := b.1.eachEng d fun e t => t.chanReport e b.2
      let live := t.nav.running && t.chans.any fun p => p.2.live
      (a.loopRuns d = false → exec (.trackingReport d) s = .next a) ∧
      (a.loopRuns d = true → exec (.trackingReport d) s = .next { t with nav := { t.nav with
        repEp := t.epochCount, repT := t.tim.t, repPer := b.1.reportPeriod d, measEp := none,
        firstEp := if t.nav.firstEp.isNone && live then some t.epochCount else t.nav.firstEp } })) ∧
    (∀ ovld, x.live = true → s.on (ENG_MIG_ARM e) = false → x.handed = false →
      let y := (s.chanReport e ovld).chan e
      y.rseq = (x.rseq + 1) % 2 ^ 32 ∧ y.late = 0 ∧ y.st = x.st ∧ y.report.length = 16 ∧
        y.report.getD 1 0 = s.epochCount % 2 ^ 32 ∧ y.report.getD 15 0 = y.rseq ∧
        (s.groupWhole (e / 64) x.cfg.group = false →
          y.report.getD 11 0 = 0 ∧ y.report.getD 12 0 = 0 ∧ y.report.getD 13 0 = 0)) ∧
    (∀ (tgt : Fin 1024) block w,
      let b := x.blockWords (s.get (ENG_CFG_CHID e)) (s.accWord e x 0).2 (block.map BitVec.toNat)
      let t := s.chanHandoff e tgt (block.map BitVec.toNat)
      let c := clusterOf tgt
      (s.handsOver e tgt = true → writeTaken t (.ldsp c) (engAddr tgt 0x5C) w.toNat = true →
        exec (.migrationHandoff e tgt block w) s = .next
          (((written t (.ldsp c) (engAddr tgt 0x5C) w.toNat).migArm tgt (t.on (ENG_MIG_ARM tgt)) (t.get (ENG_MIG_FROM tgt))).dspSteps)) ∧
      (s.handsOver e tgt = true → (t.chan e).handed = true ∧ (t.chan tgt).handed = false ∧ (t.chan tgt).st = x.st ∧
        (t.chan tgt).steer = none ∧ (t.chan tgt).stale = x.coup ∧ b.length = 32 ∧ (t.chan tgt).block = b) ∧
      (s.handsOver e tgt = false → exec (.migrationHandoff e tgt block w) s = .next s))

/-- R147, R152: class A. `res` writes `Dd` and sets the flags. -/
def Obligations.DspArithmetic : Prop :=
  ∀ (d : Fin 16) (w : Nat) (s u : State) (back : Option Nat),
    let x := u.dsp d.val
    let a := x.reg (bits w 19 16)
    let b := x.reg (bits w 15 12)
    let k := bits w 4 0
    let A := sgn 32 a
    let B := sgn 32 b
    let off := fun (lim : Bool) => if lim then x.sticky 0x80000 else x
    let flags := fun (t : State) (val : Nat) (v c : Option Bool) =>
      dspDone s d back (t.dspFlags d.val (bit val 31) (val == 0) v c) .next 1
    let res := fun (t : State) (lim : Bool) (val : Nat) (v c : Option Bool) =>
      flags (t.setDsp d.val ((off lim).write (bits w 23 20) val)) val v c
    let sat := fun (e : Int) => bit x.srSeen 22 && e != satI 32 e
    (DspReady s d .nop w u back → exec (.dspNop d) s = dspDone s d back u .next 1) ∧
    (DspReady s d .mov w u back →
      exec (.dspMov d) s = dspDone s d back (u.setDsp d.val (x.write (bits w 23 20) a)) .next 1) ∧
    (DspReady s d .add w u back → exec (.dspAdd d) s =
      res u false ((a + b) % 2 ^ 32) (some (A + B != sgn 32 ((a + b) % 2 ^ 32))) (some (decide (2 ^ 32 ≤ a + b)))) ∧
    (DspReady s d .adds w u back → exec (.dspAdds d) s =
      res u (sat (A + B)) (if sat (A + B) then uns 32 (satI 32 (A + B)) else (a + b) % 2 ^ 32)
        (some (A + B != sgn 32 ((a + b) % 2 ^ 32))) (some (decide (2 ^ 32 ≤ a + b)))) ∧
    (DspReady s d .sub w u back → exec (.dspSub d) s =
      res u false (uns 32 (A - B)) (some (A - B != sgn 32 (uns 32 (A - B)))) none) ∧
    (DspReady s d .subs w u back → exec (.dspSubs d) s =
      res u (sat (A - B)) (if sat (A - B) then uns 32 (satI 32 (A - B)) else uns 32 (A - B))
        (some (A - B != sgn 32 (uns 32 (A - B)))) none) ∧
    (DspReady s d .cmp w u back → exec (.dspCmp d) s =
      flags (u.setDsp d.val x) (uns 32 (A - B)) (some (A - B != sgn 32 (uns 32 (A - B)))) none) ∧
    (DspReady s d .and w u back → exec (.dspAnd d) s = res u false (a &&& b) none none) ∧
    (DspReady s d .or w u back → exec (.dspOr d) s = res u false (a ||| b) none none) ∧
    (DspReady s d .xor w u back → exec (.dspXor d) s = res u false (a ^^^ b) none none) ∧
    (DspReady s d .neg w u back → exec (.dspNeg d) s =
      res u false (uns 32 (0 - A)) (some (0 - A != sgn 32 (uns 32 (0 - A)))) none) ∧
    (DspReady s d .abs w u back → exec (.dspAbs d) s =
      if a = 2 ^ 31 then res (u.draw (2 ^ 32)).1 false (u.draw (2 ^ 32)).2 (some true) none
      else res u false A.natAbs (some false) none) ∧
    (DspReady s d .min w u back → exec (.dspMin d) s = res u false (if A ≤ B then a else b) none none) ∧
    (DspReady s d .max w u back → exec (.dspMax d) s = res u false (if A ≤ B then b else a) none none) ∧
    (DspReady s d .shl w u back → exec (.dspShl d) s = res u false (a * 2 ^ k % 2 ^ 32) none none) ∧
    (DspReady s d .shr w u back → exec (.dspShr d) s = res u false (a / 2 ^ k) none none) ∧
    (DspReady s d .asr w u back → exec (.dspAsr d) s = res u false (uns 32 (A / (2 ^ k : Nat))) none none) ∧
    (DspReady s d .shlv w u back → exec (.dspShlv d) s = res u false (a * 2 ^ (b % 64) % 2 ^ 32) none none) ∧
    (DspReady s d .asrv w u back → exec (.dspAsrv d) s = res u false (uns 32 (A / (2 ^ (b % 64) : Nat))) none none)

/-- R147–R149, R152: classes M (without the taps) and X. -/
def Obligations.DspAccumulators : Prop :=
  ∀ (d : Fin 16) (w : Nat) (s u : State) (back : Option Nat),
    let x := u.dsp d.val
    let p := sgn 32 (x.reg (bits w 23 20)) * sgn 32 (x.reg (bits w 19 16))
    let m := bits w 25 24
    let mul := fun (v : Int) => dspDone s d back (u.setDsp d.val (x.writeAcc m (uns 72 v))) .next 1
    let k := bits w 24 23
    let j := bits w 22 21
    let a := sgn 72 (x.acc k)
    let o := sgn 72 (x.seen (.acc k) (x.acc k))
    let b := sgn 72 (x.seen (.acc j) (x.acc j))
    let sh := sgn 7 (bits w 6 0)
    let acc := fun (t : State) (v : Int) (r : Nat) =>
      dspDone s d back ((t.setDsp d.val (x.writeAcc k r)).dspFlags d.val (bit r 71) (r == 0)
        (some (v != sgn 72 (uns 72 v))) none) .next 1
    (DspReady s d .mpy w u back → exec (.dspMpy d) s = mul p) ∧
    (DspReady s d .mpyu w u back → exec (.dspMpyu d) s =
      mul (x.reg (bits w 23 20) * x.reg (bits w 19 16) : Nat)) ∧
    (DspReady s d .mac w u back → exec (.dspMac d) s = mul (sgn 72 (x.acc m) + p)) ∧
    (DspReady s d .msu w u back → exec (.dspMsu d) s = mul (sgn 72 (x.acc m) - p)) ∧
    (DspReady s d .clra w u back → exec (.dspClra d) s = acc u 0 (uns 72 0)) ∧
    (DspReady s d .adda w u back → exec (.dspAdda d) s = acc u (a + b) (uns 72 (a + b))) ∧
    (DspReady s d .suba w u back → exec (.dspSuba d) s = acc u (a - b) (uns 72 (a - b))) ∧
    (DspReady s d .nega w u back → exec (.dspNega d) s = acc u (-o) (uns 72 (-o))) ∧
    (DspReady s d .absa w u back → exec (.dspAbsa d) s =
      if x.seen (.acc k) (x.acc k) = 2 ^ 71 then acc (u.draw (2 ^ 72)).1 o.natAbs (u.draw (2 ^ 72)).2
      else acc u o.natAbs (uns 72 o.natAbs)) ∧
    (DspReady s d .sha w u back → exec (.dspSha d) s = acc u (shiftI a sh) (uns 72 (shiftI a sh))) ∧
    (DspReady s d .shar w u back → exec (.dspShar d) s =
      let v := if sh < 0 then shiftI (a + 2 ^ (-sh - 1).toNat) sh else shiftI a sh
      acc u v (uns 72 v))

/-- R146, R150–R152, R154, R156: classes D and I, the transfers and the taps. That CMPI extends its immediate with the sign
(log entry 24) and that a fault undoes the loop-end decision (log entry 25) are the model's choices. -/
def Obligations.DspMoves : Prop :=
  ∀ (d : Fin 16) (w : Nat) (s u : State) (back : Option Nat),
    let x := u.dsp d.val
    let go := fun (t : State) (y : DspSt) => dspDone s d back (t.setDsp d.val y) .next 1
    let stop := fun (t : State) (code addr : Nat) =>
      dspFaults s d (t.setDsp d.val { t.dsp d.val with
        loops := ((s.memRead (.dsp d.val .p) (dspWord d.val .p (s.dsp d.val).pc) 4).1.dspLand d.val |>.dsp d.val).loops,
        loopWr := ((s.memRead (.dsp d.val .p) (dspWord d.val .p (s.dsp d.val).pc) 4).1.dspLand d.val |>.dsp d.val).loopWr })
        code addr
    let sp := if bit w 27 then DspSpace.y else .x
    let n := bits w 26 21
    let adr := x.address w
    let cur := (x.read 0 n).1
    let cyc := u.get (LDSP_CYC_COUNT d.val)
    let lv := fun (lim : Bool) (y : DspSt) => if lim then y.sticky 0x80000 else y
    let D := bits w 14 11
    let e := bits w 20 15
    let taps := fun (c : Instr) (f : Int → Int → Int) =>
      let pa := x.ptr (0x10 + bits w 15 13)
      let pb := x.ptr (0x10 + bits w 10 8)
      let p := sgn 32 (x.reg (bits w 23 20)) * sgn 32 (x.reg (bits w 19 16))
      let k := sgn 72 (x.acc (bits w 25 24))
      (0x4000 ≤ pa → exec c s = stop u 3 pa) ∧
      (pa < 0x4000 → 0x4000 ≤ pb → exec c s = stop u 3 pb) ∧
      (∀ t t' va vb, pa < 0x4000 → pb < 0x4000 → u.memRead (.dsp d.val .x) (dspWord d.val .x pa) 4 = (t, some va) →
        t.memRead (.dsp d.val .y) (dspWord d.val .y pb) 4 = (t', some vb) →
        exec c s = go t'
          (((((x.writeAcc (bits w 25 24) (uns 72 (f k p))).writeLater (bits w 23 20) (x.seen (.mem .x pa) va) 2).writeLater
            (bits w 19 16) ((t.dsp d.val).seen (.mem .y pb) vb) 2).upd (bits w 15 13) (bits w 12 11)).upd (bits w 10 8) (bits w 7 6)))
    (DspReady s d .ld w u back →
      (n = 0x2E → exec (.dspLd d) s = stop u 1 0) ∧
      (n ≠ 0x2E → 0x4000 ≤ adr.1 → exec (.dspLd d) s = stop u 3 adr.1) ∧
      (∀ t v, n ≠ 0x2E → adr.1 < 0x4000 → u.memRead (.dsp d.val sp) (dspWord d.val sp adr.1) 4 = (t, some v) →
        exec (.dspLd d) s = go t (adr.2.writeLater n (x.seen (.mem sp adr.1) v) 2)) ∧
      (∀ t, n ≠ 0x2E → adr.1 < 0x4000 → u.memRead (.dsp d.val sp) (dspWord d.val sp adr.1) 4 = (t, none) →
        exec (.dspLd d) s = stop t 5 adr.1)) ∧
    (DspReady s d .st w u back →
      (0x4000 ≤ adr.1 → exec (.dspSt d) s = stop u 3 adr.1) ∧
      (adr.1 < 0x4000 → exec (.dspSt d) s = go u ((lv (x.read cyc n).2 adr.2).storeLater sp adr.1 (x.read cyc n).1))) ∧
    (DspReady s d .ldil w u back → exec (.dspLdil d) s = go u (x.write n (bits w 15 0))) ∧
    (DspReady s d .ldih w u back → exec (.dspLdih d) s = go u (x.write n (bits w 15 0 * 2 ^ 16 + cur % 2 ^ 16))) ∧
    (DspReady s d .addi w u back → exec (.dspAddi d) s =
      go u (x.write n (uns 32 (sgn 32 cur + sgn 16 (bits w 15 0))))) ∧
    (DspReady s d .cmpi w u back → exec (.dspCmpi d) s =
      let v := sgn 32 (x.reg n) - sgn 32 (uns 32 (sgn 16 (bits w 15 0)))
      dspDone s d back (u.dspFlags d.val (bit (uns 32 v) 31) (uns 32 v == 0) (some (v != sgn 32 (uns 32 v))) none) .next 1) ∧
    (DspReady s d .xfr w u back → exec (.dspXfr d) s = go u ((lv (x.read cyc e).2 x).write D (x.read cyc e).1)) ∧
    (DspReady s d .xfw w u back → exec (.dspXfw d) s =
      if e = 0x2E then stop u 1 0 else go u (x.write e (x.reg D))) ∧
    (DspReady s d .ftap w u back → taps (.dspFtap d) fun k p => k + p) ∧
    (DspReady s d .ftaps w u back → taps (.dspFtaps d) fun k p => k - p)

/-- R157, R158, R160, R161, R164: class B. That CALL saves the address behind its delay slot (log entry 24) and that RTI
ends nothing in flight (log entry 25) are the model's choices. -/
def Obligations.DspFlow : Prop :=
  ∀ (d : Fin 16) (w : Nat) (s u : State) (back : Option Nat),
    let x := u.dsp d.val
    let y := ((s.memRead (.dsp d.val .p) (dspWord d.val .p (s.dsp d.val).pc) 4).1.dspLand d.val).dsp d.val
    let stop := dspFaults s d (u.setDsp d.val { u.dsp d.val with loops := y.loops, loopWr := y.loopWr }) 4 0
    let t := bits w 13 0
    let k := bits w 24 23
    let c := tblGet x.hwLoops {} k
    let he := (x.pc + bits w 12 0) % 2 ^ 14
    let arms := fun (n : Nat) =>
      if c.armed then stop
      else if n = 0 then dspDone s d back u (.jump (he + 1)) 1
      else dspDone s d back (u.setDsp d.val (x.arm k { armed := true, hc := n, hs := (x.pc + 1) % 2 ^ 14, he := he })) .next 1
    (DspReady s d .bra w u back → exec (.dspBra d) s = dspDone s d back u (.branch t) 1) ∧
    (DspReady s d .bcc w u back → exec (.dspBcc d) s =
      dspDone s d back u (if condHolds (bits w 24 21) (x.seen .flags x.sr) then .branch t else .slot) 1) ∧
    (DspReady s d .call w u back → exec (.dspCall d) s =
      dspDone s d back (u.setDsp d.val (x.write 0x0F (x.pc + 2))) (.branch t) 1) ∧
    (DspReady s d .ret w u back → exec (.dspRet d) s = dspDone s d back u (.branch (bits (x.reg 0x0F) 13 0)) 1) ∧
    (DspReady s d .rti w u back → exec (.dspRti d) s =
      let x := x.landFor 0x28
      let z := if bit x.sr 30 then x.swapBack else x
      dspDone s d back (u.setDsp d.val { z with
        sr := x.isr &&& 0xAFCC000F
        stale := z.stale.filter fun e => !(decide (e.view = .sr) || decide (e.view = .flags)) }) (.jump x.ipc) 3) ∧
    (DspReady s d .lps w u back → exec (.dspLps d) s = arms (bits w 22 13)) ∧
    (DspReady s d .lpr w u back → exec (.dspLpr d) s = arms (bits (x.reg (bits w 22 19)) 15 0)) ∧
    (DspReady s d .lpx w u back → exec (.dspLpx d) s =
      if c.armed then dspDone s d back (u.setDsp d.val ((x.setCtx k { c with armed := false }).markCtx k false)) .next 1 else stop) ∧
    (DspReady s d .wait w u back → exec (.dspWait d) s = dspDone s d back u .wait 1) ∧
    (DspReady s d .trap w u back → exec (.dspTrap d) s =
      .next ((u.dspFault d.val 7 0 (s.dsp d.val).pc (back.getD ((s.dsp d.val).pc + 1))).stepEnd d))

/-- R141–R144, R155: classes E and S, and `SYNC`. That 0 by 0 gives the positive limit (log entry 24), a block copy past its
memory fault 0x3 and the time of a posted store (log entry 25) are the model's choices. -/
def Obligations.DspExternals : Prop :=
  ∀ (d : Fin 16) (w : Nat) (s u : State) (back : Option Nat),
    let x := u.dsp d.val
    let stop := fun (op : DspOp) (t : State) (code addr : Nat) =>
      let y := (((s.memRead (.dsp d.val .p) (dspWord d.val .p (s.dsp d.val).pc) 4).1.dspHold d op).dspLand d.val).dsp d.val
      dspFaults s d (t.setDsp d.val { t.dsp d.val with loops := y.loops, loopWr := y.loopWr }) code addr
    let a := x.eAddr w
    let r := bits w 25 22
    let Y := sgn 32 (x.reg (bits w 19 16))
    let X := sgn 32 (x.reg (bits w 15 12))
    let put := fun (t : State) (z : DspSt) (val lat : Nat) =>
      dspDone s d back (t.setDsp d.val { z.writeLater (bits w 23 20) val lat with special := x.special + lat }) .next
        (1 + x.special)
    let copy := fun (op : DspOp) (c : Instr) (toY : Bool) =>
      let n := bits w 17 12 + 1
      let dst := x.ptr (0x10 + bits w 24 22)
      (∀ i, ((List.range n).find? fun i => !dspWindow d.val ((a + 4 * i) % 2 ^ 32) false) = some i →
        exec c s = stop op u 2 ((a + 4 * i) % 2 ^ 32)) ∧
      ((∀ i, i < n → dspWindow d.val ((a + 4 * i) % 2 ^ 32) false = true) →
        exec c s =
          if 0x4000 < dst + n then stop op u 3 (max dst 0x4000)
          else dspDone s d back (u.setDsp d.val { x with blk := some {
              toY := toY, dst := dst, src := a, left := n, wait := eldLatency a,
              gap := if 0x50000000 ≤ a && a < 0x51000000 then 1 else 4, pc := x.pc } }) .next 1)
    (DspReady s d .eld w u back →
      (dspWindow d.val a false = false → exec (.dspEld d) s = stop .eld u 2 a) ∧
      (∀ t val, dspWindow d.val a false = true → u.busRead (.ldsp d) a 4 = (t, some val) →
        exec (.dspEld d) s = dspDone s d back (t.setDsp d.val ((t.dsp d.val).write r val)) .next (eldLatency a)) ∧
      (∀ t, dspWindow d.val a false = true → u.busRead (.ldsp d) a 4 = (t, none) → exec (.dspEld d) s = stop .eld t 2 a)) ∧
    (DspReady s d .est w u back →
      (dspWindow d.val a true = false → exec (.dspEst d) s = stop .est u 2 a) ∧
      (dspWindow d.val a true = true → exec (.dspEst d) s =
        let q := u.postTime a
        dspDone s d back (q.1.setDsp d.val
          { x with stq := x.stq ++ [{ addr := a, val := x.reg r, pc := x.pc, left := q.2 }] }) .next 1)) ∧
    (DspReady s d .blkx w u back → copy .blkx (.dspBlkx d) false) ∧
    (DspReady s d .blky w u back → copy .blky (.dspBlky d) true) ∧
    (DspReady s d .sync w u back → exec (.dspSync d) s = dspDone s d back u .next 1) ∧
    (DspReady s d .ang w u back → exec (.dspAng d) s =
      if Y = 0 ∧ X = 0 then put u x 0 6
      else put (u.draw 8191).1 x (uns 32 (angle48 Y X / 2 ^ 16 + ((u.draw 8191).2 : Int) - 4095)) 6) ∧
    (DspReady s d .mag w u back → exec (.dspMag d) s =
      let q := (Y * Y + X * X).toNat
      let lo := if isqrt q * isqrt q = q then isqrt q - 1 else isqrt q
      let f := u.draw (isqrt q + 2 - lo)
      put f.1 x (lo + f.2) 6) ∧
    (DspReady s d .divf w u back →
      let num := if X < 0 then -(Y * 2 ^ 31) else Y * 2 ^ 31
      let q := num / (X.natAbs : Int)
      let lo := if num % (X.natAbs : Int) = 0 then q - 1 else q
      let f := u.draw (q + 1 - lo + 1).toNat
      let z := fun (m : Nat) => x.sticky m
      (X = 0 → exec (.dspDivf d) s =
        put (u.setDsp d.val (z 0x40000)) (z 0x40000) (if Y < 0 then 0x80000000 else 0x7FFFFFFF) 16) ∧
      (X ≠ 0 → 2 ^ 31 * (X.natAbs : Int) - X.natAbs < num ∨ num < -(2 ^ 31) * (X.natAbs : Int) →
        exec (.dspDivf d) s = put (u.setDsp d.val (z 0x80000)) (z 0x80000) (if num < 0 then 0x80000000 else 0x7FFFFFFF) 16) ∧
      (X ≠ 0 → num ≤ 2 ^ 31 * (X.natAbs : Int) - X.natAbs → -(2 ^ 31) * (X.natAbs : Int) ≤ num →
        exec (.dspDivf d) s = put f.1 x (uns 32 (satI 32 (lo + f.2))) 16))

/-- R144, R152, R157, R164: faults at issue, of every row, and what a fault does. Where a refused access is taken by an
instruction of E space and by SYNC is the model's choice (log entry 25). -/
def Obligations.DspTraps : Prop :=
  ∀ (d : Fin 16) (s t : State) (w : Nat),
    let x := s.dsp d.val
    let rd := s.memRead (.dsp d.val .p) (dspWord d.val .p x.pc) 4
    (s.dspState d.val = 1 ∨ s.dspState d.val = 3 ∧ x.step = true → s.dspClock d.val = true → ∀ p ∈ dspRows d,
      (0x4000 ≤ x.pc → exec p.2 s = dspFaults s d s 8 0) ∧
      (x.pc < 0x4000 → rd = (t, none) → exec p.2 s = dspFaults s d t 5 x.pc) ∧
      (x.pc < 0x4000 → rd = (t, some w) → dspDecode w = none → exec p.2 s = dspFaults s d t 1 0) ∧
      (x.pc < 0x4000 → rd = (t, some w) → dspDecode w = some p.1 → p.1.notInSlot = true → x.slot.isSome = true →
        exec p.2 s = dspFaults s d t 1 0) ∧
      (∀ pc a rest, x.pc < 0x4000 → rd = (t, some w) → dspDecode w = some p.1 → p.1.external = true → x.slot = none →
        let y := (t.dspHold d p.1).dsp d.val
        y.refused = (pc, a) :: rest → exec p.2 s =
          .next ((((t.dspHold d p.1).setDsp d.val { y with refused := rest }).dspFault d.val 2 a pc y.pc).stepEnd d))) ∧
    (∀ p ∈ dspRows d, (s.dspState d.val ≠ 1 ∧ (s.dspState d.val ≠ 3 ∨ x.step = false) ∨ s.dspClock d.val = false →
      exec p.2 s = .next s)) ∧
    (∀ code addr fpc ipc, code ≠ 2 → code ≠ 3 → code ≠ 5 →
      let u := ((s.set (LDSP_FPC_PC d.val) fpc).set (LDSP_STAT_FCODE d.val) code).set (LDSP_FLAG_FAULT d.val) 1
      s.dspFault d.val code addr fpc ipc =
        if bit x.sr 29 || bit x.sr 30 then (u.set (LDSP_FLAG_DFAULT d.val) 1).dspFaultHalt d.val
        else u.dspEnterHandler d.val ipc 0x0004 true)

/-- R159, R161, R165–R167: the control writes. -/
def Obligations.DspControl : Prop :=
  ∀ (m : Master) (d : Fin 16) (g : Fin 4) (w : Word) (s : State),
    let ctl := fun (t : State) =>
      let st := t.dspState d.val
      let t := if t.on (LDSP_CTL_SHADOW d.val) != s.on (LDSP_CTL_SHADOW d.val) && st != 0 && st != 3 then
          (t.setB (LDSP_CTL_SHADOW d.val) (s.on (LDSP_CTL_SHADOW d.val))).set (LDSP_FLAG_CFGERR d.val) 1
        else t
      if bit w.toNat 30 then t.dspReset d.val
      else
        let t := t.dspRunBit d.val (bit w.toNat 31)
        if bit w.toNat 28 && t.dspState d.val == 3 then t.setDsp d.val { t.dsp d.val with step := true } else t
    let group := fun (t : State) =>
      t.each 4 fun k u =>
        let u := u.dspRate (4 * g.val + k)
        if t.on (LDSP_GCTL_RST g.val) then u.dspReset (4 * g.val + k)
        else if t.on (LDSP_GCTL_CKEN g.val) then u.dspGo (4 * g.val + k) else u.dspStop (4 * g.val + k)
    Writes (.dspRun m d w) m (LDSP_CTL_RUN d.val).addr w s ctl ∧
    Writes (.dspHalt m d w) m (LDSP_CTL_RUN d.val).addr w s ctl ∧
    Writes (.dspReset m d w) m (LDSP_CTL_RUN d.val).addr w s ctl ∧
    Writes (.dspSingleStep m d w) m (LDSP_CTL_RUN d.val).addr w s ctl ∧
    Writes (.dspShadowSelect m d w) m (LDSP_CTL_RUN d.val).addr w s ctl ∧
    Writes (.dspGroupClock m g w) m (LDSP_GCTL_CKEN g.val).addr w s group ∧
    Writes (.dspGroupReset m g w) m (LDSP_GCTL_CKEN g.val).addr w s group ∧
    (Writes (.dspDoorbell m d w) m (LDSP_DBELL_MSG d.val).addr w s fun t => t.set (LDSP_IRQ_DBELL d.val) 1) ∧
    (Writes (.dspOutbox m d w) m (LDSP_OUTBOX_MSG d.val).addr w s fun t => t.set (LDSP_NIRQ_OUTBOX d.val) 1) ∧
    (Writes (.dspWdogKick m d w) m (LDSP_WDOG_KICK d.val).addr w s fun t =>
      if bit w.toNat 30 then t.set (LDSP_WDOG_COUNT d.val) 0 else t)

/-- R143–R145, R159, R160, R167: events. -/
def Obligations.DspEvents : Prop :=
  ∀ (d : Fin 16) (s : State),
    let x := s.dsp d.val
    let st := s.dspState d.val
    let irq := fun (a b : Field) => s.on a && s.on b
    (∀ b, x.blk = some b → exec (.dspBlockCopyDone d) s = .next (s.blkRun d 64 (b.wait + (b.left - 1) * b.gap))) ∧
    (st = 1 ∨ st = 2 → s.dspClock d.val = true → x.slot = none →
      let t := s.stqRun d x.stqLeft
      let y := t.dsp d.val
      (y.refused = [] → exec (.dspPostedBusError d) s = .next (t.dspSettle d)) ∧
      (∀ pc a rest, y.refused = (pc, a) :: rest → exec (.dspPostedBusError d) s =
        .next (((t.setDsp d.val { y with refused := rest }).dspFault d.val 2 a pc y.pc).dspSettle d))) ∧
    (st = 1 ∨ st = 2 → s.dspClock d.val = true → bit x.srSeen 31 = true → bit x.sr 30 = false → x.slot = none →
      ∀ v, (if s.cluIrq d.val && s.on (LDSP_IRQEN_CLU d.val) then v = 0x0008
            else if irq (LDSP_IRQ_EPOCH d.val) (LDSP_IRQEN_EPOCH d.val) then v = 0x000C
            else if irq (LDSP_IRQ_DBELL d.val) (LDSP_IRQEN_DBELL d.val) then v = 0x0010
            else irq (LDSP_IRQ_TIMER d.val) (LDSP_IRQEN_TIMER d.val) = true ∧ v = 0x0014) →
        let p := s.dspDrain d.val
        let y := p.dsp d.val
        let sr := y.sr &&& 0x7FFFFFFF
        let z : DspSt := { y with
          ipc := x.pc % 2 ^ 14, isr := y.sr, sr := sr, pc := v, slot := none, inWait := false,
          resume := y.resume.map fun r => if r = 2 then 1 else r }
        let q := p.setDsp d.val
          (if p.on (LDSP_CTL_SHADOW d.val) then { z.swap with sr := sr ||| 0x40000000 } else z)
        exec (.dspInterruptEntry d) s =
          .next ((if q.dspState d.val = 2 then q.dspEnter d.val 1 else q).dspStall d (8 + x.special))) ∧
    (bit x.srSeen 31 = false → exec (.dspInterruptEntry d) s = .next s) ∧
    (st = 0 ∨ s.dspClock d.val = false → exec (.dspTimerMatch d) s = .next s) ∧
    (st ≠ 0 → s.dspClock d.val = true →
      let cmp := s.get (LDSP_TCMP_CMP d.val)
      let n := (cmp + 2 ^ 32 - s.get (LDSP_CYC_COUNT d.val)) % 2 ^ 32
      let t := if 0 < n then s.set (LDSP_IRQ_TIMER d.val) 1 else s
      let t := (t.inc (LDSP_CYC_COUNT d.val) n).inc (LDSP_ACT_COUNT d.val) (if st = 1 then n else 0)
      let t := (t.setDsp d.val { t.dsp d.val with
        cycles := (t.dsp d.val).cycles + n, special := (t.dsp d.val).special - n }).set (LDSP_IRQ_TIMER d.val) 1
      exec (.dspTimerMatch d) s = .next t ∧
      (regsRise s = true → s.get (LDSP_CYC_COUNT d.val) < 2 ^ 32 → cmp < 2 ^ 32 →
        t.get (LDSP_CYC_COUNT d.val) = cmp ∧ t.on (LDSP_IRQ_TIMER d.val) = true)) ∧
    (s.on (LDSP_WDOG_EN d.val) = true → max 1 (s.get (LDSP_WDOG_LIMIT d.val)) ≤ s.get (LDSP_WDOG_COUNT d.val) →
      st ≠ 0 → st ≠ 4 →
      exec (.dspWatchdogExpiry d) s =
        .next ((((s.set (LDSP_STAT_FCODE d.val) 6).set (LDSP_FLAG_WDOG d.val) 1).set (LDSP_FPC_PC d.val)
          (((s.set (LDSP_STAT_FCODE d.val) 6).set (LDSP_FLAG_WDOG d.val) 1).dsp d.val).pc).dspFaultHalt d.val)) ∧
    (∀ m sp k (v : Word), k < 0x4000 →
      let a := dspWord d.val sp k
      (s.busAllowed m a true = true → (sp = .p → st = 0 ∨ st = 3 ∨ st = 4) →
        exec (.dspMemoryAccess m d sp (4 * k) .b4 (some v)) s =
          .next (((s.dspStoresLand d.val).memWrite (.dsp d.val sp) a 4 v.toNat).1.dspSteps)) ∧
      (sp = .p → st = 1 ∨ st = 2 ∨ st = 5 →
        exec (.dspMemoryAccess m d sp (4 * k) .b4 (some v)) s = .next (s.busError m a true)) ∧
      (∀ t r, s.busAllowed m a false = true → (s.dspStoresLand d.val).memRead (.dsp d.val sp) a 4 = (t, some r) →
        exec (.dspMemoryAccess m d sp (4 * k) .b4 none) s = .next t))

/-- R176–R181: navigation data, one item of a message at a time. Messages arrive decoded, the orbits and the checks of OSNMA
are open functions (the model's choice, log entry 62), and that a repeat of the held set changes nothing is the model's
choice too (log entry 27). -/
def Obligations.NavigationData : Prop :=
  ∀ (m : NavMsg) (kd : MsgKind) (p : Fin 7) (v : Fin 256) (crc : Bool) (s : State),
    let k := satKey p.val v.val
    let once := crc = true ∧ kd ≠ .lnav ∧ kd ≠ .glonass
    let n := s.nav
    let now := tvSec s.now
    (s.navOn = false ∨ m.ok = false → exec (.navMessage m) s = .next s) ∧
    (s.navOn = true → p.val ≠ 6 →
      (∀ e : EphIn,
        let j := setKey p.val v.val (kd == .fnav)
        let y := s.sat j
        let msg : NavMsg := { kind := kd, sys := p, sv := v, ok := true, crc := crc, eph := some e }
        (¬ once → y.heard ≠ some e.set →
          exec (.navMessage msg) s = .next (s.setSat j { y with heard := some e.set })) ∧
        (once ∨ y.heard = some e.set → y.used = some e.set ∨ y.next = some e.set → exec (.navMessage msg) s = .next s) ∧
        (once ∨ y.heard = some e.set → y.used ≠ some e.set → y.next ≠ some e.set →
          exec (.navMessage msg) s = .next
            (if s.ephFar p.val y (s.sat k).alm e.set then { s with nav := { n with refused := n.refused + 1, ephrefAt := some s.tim.up } }
             else s.setSat j { y with
              heard := some e.set, next := some e.set, nextT := e.t, nextAuth := false,
              nextFit := if p.val = 3 then 900 else if e.fit = 0 then 7200 else e.fit,
              nextTerms := e.terms.foldl (fun t q => tblSet t q.1 q.2) [], nextHealthy := e.healthy, nextUra := e.ura }))) ∧
      (∀ u,
        let msg : NavMsg := { kind := kd, sys := p, sv := v, ok := true, crc := crc, utcofs := some u }
        (p.val ≠ s.navField 0x01 → exec (.navMessage msg) s = .next s) ∧
        (p.val = s.navField 0x01 → (∀ a, n.utcHeard ≠ some (u, a)) → exec (.navMessage msg) s =
          .next { s with nav := { n with utcHeard := some (u, now) } }) ∧
        (∀ a, p.val = s.navField 0x01 → n.utcHeard = some (u, a) → exec (.navMessage msg) s =
          .next (if a + 30 ≤ now then s.setI TIM_UTC_UTCOFS u else s))) ∧
      (∀ kind sec, n.leapOther = none → p.val = s.navField 0x01 →
        let msg : NavMsg := { kind := kd, sys := p, sv := v, ok := true, crc := crc, leap := some (kind, sec) }
        (n.leapHeard = none → exec (.navMessage msg) s =
          .next { s with nav := { n with leapHeard := some (kind, sec, now) } }) ∧
        (∀ a, n.leapHeard = some (kind, sec, a) → a + 30 ≤ now → n.leapAcc ≠ some (kind, sec) →
          exec (.navMessage msg) s = .next
            ((({ s with nav := { n with leapAcc := some (kind, sec) } }.set TIM_UTC_LEAP kind).set2 TIM_LEAPT_L_SEC
              TIM_LEAPT_H_SEC sec).mordantAsk))) ∧
      (∀ kind sec a, p.val ≠ s.navField 0x01 → n.leapAcc = some a →
        exec (.navMessage { kind := kd, sys := p, sv := v, ok := true, crc := crc, leap := some (kind, sec) }) s =
          .next { s with nav := { n with
            leapOther := some (kind, sec), leapdisAt := if a = (kind, sec) then n.leapdisAt else some s.tim.up } }) ∧
      (∀ w b, p.val ≠ 1 → p.val ≠ 2 → (n.week13 = true → b = 0 ∨ 13 ≤ b) →
        exec (.navMessage { kind := kd, sys := p, sv := v, ok := true, crc := crc, week := some (w, b) }) s = .next { s with nav := { n with
          week := weekNear (if s.dayKnown then (now - 315964819) / 604800 else n.week) w b, week13 := n.week13 || b == 13 } }) ∧
      (∀ w b, p.val ≠ 1 → p.val ≠ 2 → n.week13 = true → 0 < b → b < 13 →
        exec (.navMessage { kind := kd, sys := p, sv := v, ok := true, crc := crc, week := some (w, b) }) s = .next s)) ∧
    (∀ x : TagIn, s.navOn = false → exec (.osnmaTag x) s = .next s) ∧
    (∀ x : TagIn, s.navOn = true → s.osnmaTime = false → exec (.osnmaTag x) s = .next { s with nav := { n with notime := true } }) ∧
    (∀ (x : TagIn) (key : List Byte × Nat),
      let t := { s with nav := { n with notime := false } }
      let i := satKey 1 x.sv.val
      let z := t.sat i
      let good := Config.osnmaMac key.1 x.adkd x.sv.val x.data x.tag
      t.navOn = true → t.navField 0x05 = 1 → s.osnmaTime = true → x.pub = none → x.root = none →
      x.adkd = 0 ∨ x.adkd = 4 ∨ x.adkd = 12 →
        (x.key = none → exec (.osnmaTag x) s = .next (t.setSat i { z with tags := z.tags + 1 })) ∧
        (x.key = some key → n.osKey = some key → exec (.osnmaTag x) s = .next (t.setSat i
          (if good = false then { z with tags := 0, failAt := some now }
           else if x.adkd = 4 then { z with tags := 0, adkd4 := some now }
           else if x.adkd = 12 then { z with tags := 0 }
           else if z.next = some x.data then { z with tags := 0, nextAuth := true }
           else if z.used = some x.data then { z with tags := 0, auth := true, adkd0 := true }
           else { z with tags := 0 }))))

/-- R178, R184, R186, R188, R192–R194, R200, R202: solutions and the mordant set. The orbits and clocks of the sets in use are
open functions, and the degrees of freedom leave velocity and drift out (the model's choices, log entry 61). -/
def Obligations.SolutionEpochs : Prop :=
  ∀ (items : List (Fin 11 × List Byte)) (s : State),
    let begun : State :=
      ({ s with nav := { s.nav with
        sats := s.nav.sats.map fun (e : Nat × SatSt) => (e.1, s.satUse e.1 e.2),
        posMode := if s.navField 0x04 = 1 then 2 else if s.nav.posMode = 2 then s.posModeStart else s.nav.posMode,
        notime := !s.osnmaTime } }).measEpoch
    let free := begun.posFree
    let sol := begun.solve begun.measSats free
    (s.navOn = false → exec (.solutionEpoch ()) s = .next s) ∧
    (s.navOn = true → match sol with
      | none => exec (.solutionEpoch ()) s = .next begun
      | some y =>
        let os := begun.measSats.filterMap (begun.satObs y.pos true)
        let e := begun.solExclude free y
        let z := e.2.1
        let pos := if free then z.fit.shift z.pos else z.pos
        let r := ((e.1.solResults free z).markMeas (z.fit.res.map (·.1)) e.2.2.2).navBaselines pos
        let q := r.memRead .nav 0x8000053C 4
        let seq := (q.2.getD q.1.itg.lastSeq + 1) % 2 ^ 32
        let o := q.1.evidOut z.fit e.2.2.1 (b2n e.2.2.2.isSome) pos
        let lead := o.1.leadAnt
        let t := { o.1 with nav := { o.1.nav with
          lead := lead, woadEv := (List.range 3).map fun p => (o.1.woadBands pos lead p).map WoadEnt.codes } }
        y.fit.dof = (os.length : Int) - (1 + (biasKeys begun.refSys os).length + (if free then 3 else 0) : Nat) ∧
        exec (.solutionEpoch ()) s = .next (if y.fit.dof < 2 then begun
          else t.memWriteWords .nav 0x80000500 (wordsOf (t.evidOctets o.2 seq)))) ∧
    (s.mordant.req = false ∨ s.mordant.busy.isSome = true ∨ s.on SUP_STAT_BRACE = true →
      exec (.mordantWrite items) s = .next s) ∧
    (s.mordant.req = true → s.mordant.busy = none → s.on SUP_STAT_BRACE = false →
      ∀ c, (∀ a, s.mordantGen 0 = some a → (∀ b, s.mordantGen 1 = some b → c = if a < b then 0 else 1) ∧
          (s.mordantGen 1 = none → c = 1)) → (s.mordantGen 0 = none → c = 0) →
        let bs := items.map fun p => (p.1.val, p.2)
        let t := { s with mordant := { s.mordant with busy := some c, req := false } }
        exec (.mordantWrite items) s = .next
          ((t.each 10 fun i t => t.mordantPut c (i + 1) (t.mordantBody s.posInUse bs (i + 1))).set RTC_STAT_DISC 0)) ∧
    (s.mordant.busy = none → exec .mordantWriteDone s = .next s) ∧
    (∀ c g, s.mordant.busy = some c →
      (∀ o, s.mordantGen (1 - c) = some o → g = o + 1) → (s.mordantGen (1 - c) = none → g = 1) →
      let h := leBytes 2 0x4D44 ++ leBytes 2 1 ++ leBytes 4 0 ++ leBytes 8 g ++ leBytes 4 89072 ++ leBytes 40 0
      let t := s.mramPut (mordantAddr c) (h ++ leBytes 4 (crc32 h))
      exec .mordantWriteDone s = .next { t with mordant := {
        busy := none, again := false, req := t.mordant.req || t.mordant.again } }) ∧
    (s.continuous = true → exec .mordantPeriod s = .next { s with mordant :=
      if s.mordant.busy.isSome then { s.mordant with again := true } else { s.mordant with req := true } }) ∧
    (s.continuous = false → exec .mordantPeriod s = .next s)

/-- R200–R207: the evidence record's effect. What absent evidence gives (log entry 29), the record as the block reads it
(log entry 28) and which of two changes in one clock stands (log entry 56) are the model's choices. -/
def Obligations.EvidenceVerdicts : Prop :=
  ∀ (x : EvidIn) (s t : State) (e : Evid),
    let fin := fun (t : State) => Host.Outcome.next (σ := State) (φ := Fault) (ρ := Refusal) t.attnUpdate
    let seen := { t with itg := { t.itg with lastSeq := e.seq } }
    let old := e.time + 3 * t.solPeriod * 2 ^ 24 / 1000 < tv64 t.now
    let f := e.flags
    (s.nav.running = false → exec (.evidenceRecord x) s = fin s) ∧
    (s.nav.running = true → s.evidRead = (t, none) → exec (.evidenceRecord x) s = fin t) ∧
    (s.nav.running = true → s.evidRead = (t, some e) →
      (e.seq = t.itg.lastSeq ∨ old → exec (.evidenceRecord x) s = fin t) ∧
      (e.seq ≠ t.itg.lastSeq → ¬ old → e.dof < 2 ∨ bits f 6 5 = 3 → exec (.evidenceRecord x) s = fin seen) ∧
      (e.seq ≠ t.itg.lastSeq → ¬ old → 2 ≤ e.dof → bits f 6 5 ≠ 3 →
        exec (.evidenceRecord x) s = fin (seen.verdicts e x).fixJudged)) ∧
    (regsRise t = true →
     let v := t.verdicts e x
     (v.get ITG_VERD_RESID =
        if (chi2Limits e.dof).2 < e.chi2 then 3 else if (chi2Limits e.dof).1 < e.chi2 ∨ 1 ≤ e.excl then 2 else 1) ∧
     (v.get ITG_VERD_POS = if bits f 6 5 = 0 then 0 else if bits f 6 5 = 1 then 1 else 2) ∧
     (v.get ITG_VERD_LEVEL =
        if 6 ≤ e.nsat ∧ 40 ≤ e.elspan ∧ e.cnspread ≤ 20 then 2 else if e.nsat < 6 then 0 else 1) ∧
     (v.get ITG_VERD_NAVD = if bit f 3 || bit f 4 then 2 else 1) ∧
     (v.get ITG_VERD_OSNMA =
        if 2 ≤ e.osfail then 3 else if e.osfail = 1 then 2
        else if t.navField 0x05 = 0 ∨ t.nav.notime = true ∨ e.osok < 4 then 0 else 1) ∧
     (v.get ITG_VERD_RELOC =
        if bit f 2 = true ∧ (bit f 0 = true ∨ (bit f 1 = true ∧ t.cus.rec_.posv = true)) then 3
        else if (bit f 2 = true ∧ bit f 1 = true ∧ t.cus.rec_.posv = false) ∨ t.itg.turned = true then 2
        else if bit f 2 = true then 1 else 0)) ∧
    (chi2Limits 2 = (3537, 8253) ∧ chi2Limits 4 = (4728, 9790) ∧ chi2Limits 6 = (5750, 11095) ∧
      chi2Limits 8 = (6688, 12281)) ∧
    ((∃ f ∈ verdFields, s.get f = 3) →
      let woad := s.get ITG_VERD_WOAD
      let u := { s with itg := { s.itg with
        fixAt := s.tim.up,
        woadFail := if woad = 3 then some s.tim.up else s.itg.woadFail,
        woadPass := if woad = 3 then false else s.itg.woadPass || woad == 1 } }
      let u := if woad = 3 then ({ u with umb := { u.umb with snapDue := true } }).itgLatch ITG_LATCH_WOAD else u
      let u := if s.get ITG_VERD_RELOC = 3 ∧ s.cus.rec_.posv = true then u.itgLatch ITG_LATCH_RELOC else u
      let clean := u.clean
      let u := if clean then { u with itg := { u.itg with cleanAt := u.tim.up, cleanOld := u.agedFrom } } else u
      let u := u.burstNote clean (verdFields.any fun f => s.get f == 2)
      s.fixJudged = ({ u with itg := { u.itg with recovN := 0, cleanN := 0 } }).itgEnter 0) ∧
    (∀ k, s.itgFix k = match s.itg.blk with
      | none => s.itgEnter k
      | some (a, b) => if a = s.tim.up ∧ b < k ∧ (s.codeBefore = 4 → b < 2) then s.itgEnter b else s.itgEnter k) ∧
    (∀ clean warn, s.code = 0 →
      let u := { s with itg := { s.itg with recovN := s.itg.recovN + 1 } }
      s.fixTransition clean warn =
        if max 1 (s.get ITG_RECOV_RECOVN) ≤ s.itg.recovN + 1 ∧ s.terrAfter = true ∧
            ¬(s.get TIM_STAT_STATE = 2 ∧ 1000000 < u.terrNow) then
          u.itgFix (if clean then 4 else 1)
        else u) ∧
    (∀ clean warn, s.code = 1 →
      let n := if clean then s.itg.cleanN + 1 else 0
      let u := { s with itg := { s.itg with cleanN := n } }
      s.fixTransition clean warn =
        if max 1 (s.get ITG_RECOV_CLEANN) ≤ n ∧ s.terrAfter then u.itgFix 4 else u) ∧
    (∀ clean, s.code = 2 ∨ s.code = 3 ∨ s.code = 4 → s.fixTransition clean true = s.itgEnter 1) ∧
    (s.code = 2 ∨ s.code = 3 → s.terrAfter = true → s.fixTransition true false = s.itgFix 4)

/-- R198, R199, R204–R207, R212: the integrity block's events. The bounds of HOLDMAX (log entry 29), the spans and the
clearing of RELOC that waits while BRACE stands (log entry 67), and what counts as one clock (log entry 56) are the model's
choices. -/
def Obligations.IntegrityEvents : Prop :=
  ∀ (m : Master) (w : Word) (s : State),
    let c := s.code
    let t := s.terrNow
    let goes := fun (k : Nat) => Host.Outcome.next (σ := State) (φ := Fault) (ρ := Refusal)
      (if k = c then s else ({ s with itg := { s.itg with blk := some (s.tim.up, k) } }).itgEnter k).attnUpdate
    let hold := if s.get TIM_STAT_STATE = 2 ∧ t ≤ s.hBound then 3 else 2
    (s.get TIM_STAT_STATE ≠ 2 → exec .terrBoundCross s = .next s.attnUpdate) ∧
    (s.get TIM_STAT_STATE = 2 →
      (1000000 < t → exec .terrBoundCross s = goes 0) ∧
      (t ≤ 1000000 → 1 < c → s.wasHoldover = true → s.dgBound < t → exec .terrBoundCross s = goes 1) ∧
      (t ≤ 1000000 → c = 4 → s.codeBefore = 3 → s.hBound < t → t ≤ s.dgBound → exec .terrBoundCross s = goes 2) ∧
      (t ≤ 1000000 → c = 4 → ¬ (s.wasHoldover = true ∧ s.dgBound < t) → ¬ (s.codeBefore = 3 ∧ s.hBound < t) →
        (s.trBound < t → s.cleanNow = false → exec .terrBoundCross s = goes hold) ∧
        (t ≤ s.trBound ∨ s.cleanNow = true → exec .terrBoundCross s = .next s.attnUpdate)) ∧
      (t ≤ 1000000 → c = 2 ∨ c = 3 → s.dgBound < t → exec .terrBoundCross s = goes 1) ∧
      (t ≤ 1000000 → c = 2 ∨ c = 3 → t ≤ s.dgBound → exec .terrBoundCross s = goes hold) ∧
      (t ≤ 1000000 → c < 2 → exec .terrBoundCross s = .next s.attnUpdate)) ∧
    (let aged := s.reached s.agedFrom (min (max (s.get ITG_HOLD_HOLDMAX) 1) 720 * 3600 * 10 ^ 9)
     (aged = true → c = 2 ∨ c = 3 ∨ c = 4 ∧ s.wasHoldover = true → exec .holdoverAgeLimit s = goes 1) ∧
     (aged = false ∨ c < 2 ∨ c = 4 ∧ s.wasHoldover = false → exec .holdoverAgeLimit s = .next s.attnUpdate)) ∧
    (let quiet := s.reached (max s.itg.fixAt s.itg.contAt) (max 1 (s.get ITG_HOLD_HOLDIN) * 10 ^ 9)
     (s.continuous = true → quiet = true → c = 4 →
       exec .holdinTimeout s = .next (s.itgEnter hold).attnUpdate) ∧
     (s.continuous = false ∨ quiet = false ∨ c ≠ 4 → exec .holdinTimeout s = .next s.attnUpdate)) ∧
    (s.itg.woadPass = true → s.woadQuiet = true → s.on ITG_LATCH_WOAD = true → exec .woadLatchExpiry s = .next
      (let u := s.set ITG_LATCH_WOAD 0
       let u := u.note 0x0302 0x03 1 ((u.get ITG_LATCH_STEPERR * 4 + u.get ITG_LATCH_WOAD * 2 + u.get ITG_LATCH_RELOC) * 2 ^ 77
         + 2 ^ 75)
       { u with itg := { u.itg with woadFail := none, woadPass := false } }.attnUpdate)) ∧
    (∀ a, s.itg.woadFail = some a → s.woadQuiet = s.reached a (1800 * 10 ^ 9)) ∧
    (s.itg.woadPass = false ∨ s.woadQuiet = false → exec .woadLatchExpiry s = .next s.attnUpdate) ∧
    (Writes (.itgLatchWrite m w) m 0x40080008 w s fun u =>
      let u := if bit w.toNat 1 then u.itgUnlatch ITG_LATCH_WOAD false else u
      (if !bit w.toNat 0 then u
       else if u.on SUP_STAT_BRACE then { u with itg := { u.itg with relocClr := u.on ITG_LATCH_RELOC } }
       else u.itgUnlatch ITG_LATCH_RELOC false).attnUpdate) ∧
    (∀ k, k < 5 → (c ≠ k → s.itg.minSet = false ∨ k = 0 → s.itgEnter k =
      let u := { s with itg := { s.itg with chgUp := s.tim.up, chgFrom := s.codeBefore } }.set ITG_STATE_STATE k
      let u := if sameState c k then u else u.itgChange c k
      let u := if 3 ≤ c ∧ k ≤ 2 then { u with umb := { u.umb with snapDue := true } } else u
      (u.winFall (decide (3 ≤ c) && decide (k ≤ 2)) k).lateOpen) ∧
      (c = k ∨ s.itg.minSet = true ∧ k ≠ 0 → s.itgEnter k = s))

/-- R50, R186, R215, R216, R306: the burst events. That the row of three at the burst's close begins anew (log entry 29) and
that the write of `RTC_WREASON` takes others with it that wait for the tick (log entry 35) are the model's choices. -/
def Obligations.FixBursts : Prop :=
  ∀ (s : State),
    let b := s.itg.burst
    let close := fun (u : State) (missed : Bool) =>
      let b := u.itg.burst
      let last := u.get ITG_INTV_INTV
      let u := { u with itg := { u.itg with driftN := if b.warned then u.itg.driftN else 0 } }
      let u := u.chansEnd.mordantAsk.burstDrop.fecSleep
      let u := if missed then u.incSat ITG_INTV_MISSED else u
      let u := if missed then u.itgHoldover else u
      let n := if u.code = 4 ∧ !missed ∧ !b.warn then
          min (max (min (if b.clean then 2 * last else last) u.imodelNow) u.imin) u.imax
        else u.imin
      (u.set ITG_INTV_INTV n).custWake n (some b.wakeTick)
    let fin := fun (t : State) => Host.Outcome.next (σ := State) (φ := Fault) (ρ := Refusal) t.attnUpdate
    (s.continuous = false → b.active = false → s.on SUP_STAT_BRACE = false → s.on RTC_WREASON_PERIODIC = true →
      exec .burstStart s = .next
        (({ s with
            itg := { s.itg with burst := {
              active := true, startAt := s.tim.up, wakeTick := s.get2 RTC_WTICK_L_TICK RTC_WTICK_H_TICK } },
            nav := { s.nav with fixes := [] } }.rtcLater 0x40020024 (1 ||| (s.rtcWaits 0x40020024).getD 0) false).fecWake)) ∧
    (s.continuous = true ∨ b.active = true ∨ s.on SUP_STAT_BRACE = true ∨ s.on RTC_WREASON_PERIODIC = false →
      exec .burstStart s = .next s) ∧
    (b.active = true → b.released = false → s.on SUP_STAT_BRACE = false → s.reached b.startAt (s.fecLead * 1000000) = true →
      exec .burstArrayRelease s = .next ({ s with itg := { s.itg with burst := { b with released := true } } }.linksWake)) ∧
    (b.active = false ∨ b.released = true ∨ s.on SUP_STAT_BRACE = true ∨
        s.reached b.startAt (s.fecLead * 1000000) = false → exec .burstArrayRelease s = .next s) ∧
    (b.active = true → b.qualified = true → s.nav.fixes = [] → exec .burstEnd s = fin (close s false)) ∧
    (∀ f, b.active = true → b.qualified = true → burstMean s.nav.fixes = some f →
      exec .burstEnd s = fin (close (s.fixOffer f.1 f.2.1 f.2.2.1 f.2.2.2) false)) ∧
    (b.qualified = false → exec .burstEnd s = .next s.attnUpdate) ∧
    (let late := s.reached b.startAt (max s.blen (s.get ITG_BURST2_BMAX) * 10 ^ 9)
     (b.active = true → b.qualified = false → late = true → exec .bmax s = fin (close s true)) ∧
     (b.active = true → b.qualified = true → late = true → exec .bmax s = exec .burstEnd s) ∧
     (b.active = false ∨ late = false → exec .bmax s = .next s.attnUpdate))

/-- R218, R221, R222, R228: requests to the time core. The second of a request is counted in whole seconds to come
(the model's choice, log entry 47), and a step whose stamp is ahead counts from now (the model's choice, log entry 31). -/
def Obligations.TimeRequests : Prop :=
  ∀ (m : Master) (w : Word) (s : State), bit w.toNat 31 = true →
    (Writes (.fixRelease m w) m 0x40040044 w s fun t =>
      t.timRelease (clampI (-2147483647) 2147483647 (t.getI TIM_FIX_D_DELTA)) (t.get TIM_FIX_S_SIGMA)
        (t.getI TIM_FIX_DR_DRIFT) (t.stampEpoch (t.get TIM_FIX_T_EPOCH)) (bit w.toNat 30) 0) ∧
    (Writes (.stepRequest m w) m 0x40040050 w s fun t =>
      if t.get TIM_STAT_STATE = 2 then t.set TIM_STAT_REFUSED 1
      else
        { t with tim := { t.tim with stepAsked := true, step := some {
            delta := t.getI2 TIM_STEP_L_DELTA TIM_STEP_H_DELTA, sigma := t.get TIM_FIX_S_SIGMA,
            stamp := (t.stampEpoch (t.get TIM_FIX_T_EPOCH)).getD t.epochCount,
            at_ := t.secondsTill (t.tim.t + secU + secU / 2) } } }) ∧
    (Writes (.loadRequest m w) m 0x40040068 w s fun t =>
      if t.get TIM_STAT_STATE = 2 then t.set TIM_STAT_REFUSED 1
      else if (t.epochCount % 2 ^ 32 + 2 ^ 32 - t.get TIM_LOAD_EP_EPOCH) % 2 ^ 32 < 2 ^ 31 then t.set TIM_STAT_LATE 1
      else
        { t with tim := { t.tim with load := some {
            t := (t.get TIM_LOAD_SH_SECH * 2 ^ 32 + t.get TIM_LOAD_SL_SECL) * secU + t.get TIM_LOAD_NS_NS * 2 ^ 64,
            epoch := t.get TIM_LOAD_EP_EPOCH, err := t.get TIM_LOAD_ERR_NS, src := bits w.toNat 26 24 } } })

/-- R231, R234, R236: pulse settings and edges.
R231, R234, R235: composition of an enabled output whose setting stays. What a setting write does to edges composed already
(log entry 55), the count and WITHHELD of a pulse that was not composed (log entry 31), the output below the minimum
service (log entry 57) and POL in a pulse (log entry 55) are the model's choices. -/
def Obligations.Pulses : Prop :=
  (∀ (m : Master) (n : Fin 2) (r : Fin 4) (w : Word) (gaps : List Nat) (s : State),
    let p := s.tp n
    let drive := fun (t : State) (lvl : Bool) =>
      if (t.tp n).pin = lvl then t else (t.setTp n { t.tp n with pin := lvl }).emit (.tp n lvl)
    (Writes (.tpSettingWrite m n r w) m (0x40040100 + 0x40 * n.val + 4 * r.val) w s fun t =>
      let q := t.tp n
      let due := ceilDiv (t.tim.t + secU) secU
      let q := match q.due with
        | some d =>
          let c := q.composed.getD 0
          if d ≠ due ∧ q.composed.isSome = true ∧ d ≤ c ∧ c < due then
            { q with composed := none, msg := none, edges := q.edges.filter fun e => decide (e.t < c * secU) }
          else q
        | none => q
      (t.setTp n { q with due := some due }).set (TIM_TP_STAT_PEND n) 1) ∧
    (∀ e rest, p.edges = e :: rest → s.due e.t = true →
      let t := ((s.inc (TIM_TP_CNT_COUNT n)).setTp n { p with edges := rest }).tpShow n
      (t.code < p.set.qual ∨ t.itg.below = true ∨ t.itg.minSet = true ∧ n.val ≠ 0 →
        exec (.tpLeadingEdge n) s = .next (t.set (TIM_TP_STAT_WITHHELD n) 1)) ∧
      (p.set.qual ≤ t.code → t.itg.below = false → t.itg.minSet = false ∨ n.val = 0 →
        exec (.tpLeadingEdge n) s = .next
          (drive ((t.setTp n { t.tp n with trailAt := some (e.t + p.set.wid * usU) }).set (TIM_TP_STAT_ACTIVE n) 1)
            (!p.set.pol)))) ∧
    ((∀ e rest, p.edges = e :: rest → s.due e.t = false) →
      let blank := tvSec s.tim.t < p.first ∨ p.composed = none ∨ ∃ c, p.composed = some c ∧ c < tvSec s.tim.t
      (p.set.en = true → blank →
        exec (.tpLeadingEdge n) s = .next ((s.inc (TIM_TP_CNT_COUNT n)).set (TIM_TP_STAT_WITHHELD n) 1)) ∧
      (p.set.en = false ∨ ¬ blank → exec (.tpLeadingEdge n) s = .next s)) ∧
    (∀ t0, p.trailAt = some t0 → s.due t0 = true → exec (.tpTrailingEdge n) s = .next
      (let t := (s.setTp n { p with trailAt := none, lastTrail := t0 }).set (TIM_TP_STAT_ACTIVE n) 0
       drive t (p.set.pol && !s.itg.below && (!s.itg.minSet || n.val == 0)))) ∧
    (500 ≤ s.msOfSec → p.composed ≠ some (tvSec s.tim.t + 1) → p.first ≤ tvSec s.tim.t + 1 → (s.tpRegs n).en = false →
      p.set.en = false →
      exec (.tpCompose n gaps) s = .next (s.setTp n { p with composed := some (tvSec s.tim.t + 1), msg := none }))) ∧
  (∀ (n : Fin 2) (gaps : List Nat) (s : State),
    let p := s.tp n
    let next := tvSec s.tim.t + 1
    500 ≤ s.msOfSec → p.composed ≠ some next → p.first ≤ next → p.set.en = true → p.due = none → s.tim.step = none →
    ∀ l, p.edges.getLast? = some l →
      let by_ := s.utcofsAt next - s.getI TIM_UTC_UTCOFS
      let leap := decide (by_ ≠ 0)
      let align := p.align || ((p.set.scale == 1 || p.set.scale == 5) && decide (by_ * 1000 % p.set.per ≠ 0))
      let quiet := if p.newSet || align then l.t + p.set.wid * usU + (p.set.wid + 1) * usU else 0
      let es := s.tpEdges s.tpRate p.set.per (next * secU) none
        ((s.tpIdeal p.set next).filter fun e => decide (max p.notBefore quiet ≤ tpAt (next * secU) e)) gaps
      let q := { p with composed := some next, msg := none, edges := p.edges ++ es, newSet := p.newSet && es.isEmpty,
                        align := align && es.isEmpty }
      (es = [] → exec (.tpCompose n gaps) s = .next (s.setTp n q)) ∧
      (es ≠ [] →
        let msg := s.tpPayload n next p.set es p.stepped (decide (s.code < p.set.qual)) p.newSet leap
        exec (.tpCompose n gaps) s = .next
          ((s.setTp n { q with msg := some msg, stepped := false }).orF TIM_IRQ_IRQ 16)))

/-- R219, R220, R237, R238: what the clock drives. What is measured, and the crystal edges, come with the command (the
model's choice, log entry 3). That DEVICE_SECOND acts on a whole second alone and the order of an epoch's effects (log entry
30), and the span of TPILOSS (log entry 67), are the model's choices. -/
def Obligations.TimeTicks : Prop :=
  ∀ (obs : EpochObs) (ncal edges sub : Nat) (e : TpiIn) (phases : List Int) (s : State),
    (exec (.deviceEpoch obs) s = .next
      (let t := ((s.rtcAdvance obs.edges).epochTick.loadDue).timEval
       let t := (t.epochMarks.linksEpoch obs.links).each 16 fun c t => t.cluEpoch c
       let t := t.each 16 fun d t => t.dspEpoch d
       ((t.supEpoch obs.io33 obs.core).nwdogEpoch).wakeActed.lateOpen)) ∧
    (s.tim.t % secU = 0 → s.tim.secDone ≠ some (tvSec s.tim.t) →
      exec (.deviceSecond ncal edges phases) s = .next
        (let t := (((s.rtcAdvance edges).rtcLatch (tvSec s.tim.t)).coreSecond ncal).pllEvent fun t => t.clkSecond phases
         let t := (t.each 2 fun n t => t.tpApply (tvSec s.tim.t) n).ptpSecond
         t.aeludSecond.cusSecond.timEval.attnUpdate.lateOpen)) ∧
    (s.tim.t % secU ≠ 0 ∨ s.tim.secDone = some (tvSec s.tim.t) → exec (.deviceSecond ncal edges phases) s = .next s) ∧
    (s.on TIM_TPI_CFG_EN = false ∨ e.falling ≠ s.on TIM_TPI_CFG_EDGE → exec (.tpiEdge sub e) s = .next s) ∧
    (s.on TIM_TPI_CFG_EN = true →
      (e.falling = s.on TIM_TPI_CFG_EDGE →
        (e.width < 50 → exec (.tpiEdge sub e) s = .next (s.set TIM_TPI_STAT_GLITCH 1)) ∧
        (50 ≤ e.width →
          let t := s.tpiStamp (s.now sub)
          let sec := (s.now sub + secU / 2) / secU
          let d := uToPs ((s.now sub : Int) - (sec * secU : Nat))
          (t.tpiMode = 0 ∨ d.natAbs ≤ max 1 (t.get TIM_TPI_CFG_WIN) * 1000000 →
            exec (.tpiEdge sub e) s = .next (t.tpiUse (d - t.getI TIM_TPI_DLY_PS) sec)) ∧
          (t.tpiMode ≠ 0 → max 1 (t.get TIM_TPI_CFG_WIN) * 1000000 < d.natAbs →
            exec (.tpiEdge sub e) s = .next (t.set TIM_TPI_STAT_STRAY 1)))) ∧
      (let lost := s.reached (s.tpi.usedAt.getD s.tpi.enabledAt) (3 * 10 ^ 9)
       (s.tpiMode ≠ 0 → lost = true → exec .tpiloss s = .next (
         let t := s.set TIM_TPI_STAT_TPILOSS 1
         if t.xSource || t.itg.xnote.isNone then t else { t with itg := { t.itg with xnote := none } })) ∧
       (s.tpiMode = 0 ∨ lost = false → exec .tpiloss s = .next s)))

/-- R243, R247–R250: what an accepted write of `PLL_CTL`, `PLL_TRIM` or `CKO_CFG` does. The enables of `PLL_A` to `PLL_C`
stay set and these three do not follow. -/
def Obligations.SynthesiserControl : Prop :=
  ∀ (m : Master) (x : Fin 6) (k : Fin 12) (w : Word) (s : State),
    let ctl : State → State := fun t =>
      let t := if x.val < 3 then (t.set (PLL_CTL_EN x) 1).set (PLL_CTL_FOLLOW x) 0 else t
      let t := if bit w.toNat 30 ∧ 3 ≤ x.val then
          (t.setPll x { t.pll x with staged := some (t.pllRegs x) }).set (PLL_STAT_PEND x) 1 else t
      let t := if !bit w.toNat 29 then t
        else if x.val = 0 ∧ t.get TIM_STAT_STATE = 2 then t.set (PLL_STAT_REFUSED x) 1
        else (t.setPll x { t.pll x with relockDue := true }).set (PLL_STAT_PEND x) 1
      let t := if s.on (PLL_CTL_EN x) && !t.on (PLL_CTL_EN x) then
          let u := (t.pllDown x []).set (PLL_STAT_STATE x) 0
          u.setPll x { u.pll x with noRef := u.tim.refLost && (u.pll x).noRef }
        else t
      let p := t.pll x
      if t.on (PLL_CTL_FOLLOW x) || !p.following then t
      else (t.setPll x { p with follow := 0, following := false }).setB (PLL_STAT_RAMP x)
        (t.on (PLL_STAT_RAMP x) || decide (p.follow ≠ 0))
    Writes (.pllCommit m x w) m (0x40030000 + 0x100 * x.val) w s ctl ∧
    Writes (.pllRelock m x w) m (0x40030000 + 0x100 * x.val) w s ctl ∧
    Writes (.pllEnable m x w) m (0x40030000 + 0x100 * x.val) w s ctl ∧
    Writes (.pllFollow m x w) m (0x40030000 + 0x100 * x.val) w s ctl ∧
    (Writes (.pllTrimWrite m x w) m (0x40030014 + 0x100 * x.val) w s fun t =>
      if maxOffset < (t.getI (PLL_TRIM_TRIM x) * 1024 + (t.pll x).follow).natAbs then
        (t.set (PLL_TRIM_TRIM x) (s.get (PLL_TRIM_TRIM x))).set (PLL_STAT_TRIMERR x) 1
      else if t.get (PLL_STAT_STATE x) = 3 ∧ t.get (PLL_TRIM_TRIM x) ≠ s.get (PLL_TRIM_TRIM x) then
        t.set (PLL_STAT_RAMP x) 1
      else t) ∧
    Writes (.ckoCfgWrite m k w) m (0x40030E00 + 0x20 * k.val) w s fun t =>
      (t.setCko k { t.cko k with due := true }).set (CKO_STAT_PEND k) 1

/-- R244–R246, R248: calibration, lock, alignment and the end of a ramp. -/
def Obligations.SynthesiserLock : Prop :=
  ∀ (x : Fin 6) (s : State),
    let p := s.pll x
    exec (.pllRampDone x) s = .next (s.set (PLL_STAT_RAMP x) 0) ∧
    (s.get (PLL_STAT_STATE x) = 1 →
      exec (.pllCalDone x) s = .next (s.pllEvent fun s => s.set (PLL_STAT_STATE x) 2)) ∧
    (s.get (PLL_STAT_STATE x) = 2 →
      exec (.lock x) s = .next (s.pllEvent fun s => (s.set (PLL_STAT_STATE x) 3).set (PLL_STAT_LOCK x) 1)) ∧
    (s.get (PLL_STAT_STATE x) = 3 → s.on (PLL_STAT_ALIGNED x) = false →
      let up : State → State := fun s =>
        (((s.setPll x { p with lock := p.commit, lossAt := none }).set (PLL_STAT_ALIGNED x) 1).set
          (PLL_STAT_IRCSEL x) 0).bankShow x
      (p.lossAt = none → exec (.aligned x) s = .next (s.pllEvent up)) ∧
      ∀ at0, p.lossAt = some at0 →
        exec (.aligned x) s = .next (s.pllEvent fun s =>
          let t := up s
          let t := t.refOk
          let t := t.note 0x0203 0x07 3 (satN 32 ((t.tim.up - at0) / 1000))
          let t := t.each 16 fun c t => t.setClu c { t.clu c with restarts := (t.clu c).restarts + 1 }
          t.attnUpdate.lateOpen))

/-- R240, R246, R30: losses, returns and retries.
R252, R254: the compliance of a clock output. That COMPL clears in steps of 10 mV (log entry 32) and the retries of PLL_A in
service (log entry 57) are the model's choices. -/
def Obligations.SynthesiserLosses : Prop :=
  (∀ (x : Fin 6) (s : State),
    (∀ runt : List (Fin 4), s.get (PLL_STAT_STATE x) = 3 →
      exec (.lol x runt) s = .next (s.pllEvent fun s =>
        let t := ((s.set (PLL_STAT_LOL x) 1).incSat (PLL_LOLCNT_COUNT x)).pllDown x (runt.map fun r => bankOutput x r)
        t.pllStart x (t.pll x).commit true [])) ∧
    (∀ runt : List (Fin 12), exec (.lor runt) s = .next (s.pllEvent fun s =>
      let s := (s.set PLL_RFI_LOR 1).incSat PLL_RFI_LORCNT
      ({ s with tim := { s.tim with refLost := true } } : State).each 6 fun y t =>
        if t.get (PLL_STAT_STATE y) = 0 then t
        else
          let v := ((t.pllDown y (runt.map Fin.val)).set (PLL_STAT_STATE y) 0).set (PLL_STAT_LOR y) 1
          (v.setPll y { v.pll y with noRef := true }).incSat (PLL_LOLCNT_COUNT y))) ∧
    exec .rfiReturn s = .next (s.pllEvent fun s =>
      ({ s with tim := { s.tim with refLost := false } } : State).each 6 fun y t =>
        let u := t.setPll y { t.pll y with noRef := false }
        if (t.pll y).noRef && u.on (PLL_CTL_EN y) then u.pllStart y (t.pll y).commit true [] else u) ∧
    (∀ (y : Nat) (p : PllTarget) (lost : Bool) (runt : List Nat) (b : Nat × Nat × Nat),
      (s.pllDown y runt).tim.refLost = true → s.pllStartAt y p lost runt (some b) =
        let v := s.pllDown y runt
        let v := v.setPll y { v.pll y with
          commit := p, edges := b.2, table := (List.range 64).map (v.bandEdges y), phofs := v.getI (PLL_PHOFS_PS y), noRef := false }
        let v := (v.set (PLL_STAT_STATE y) 0).set (PLL_STAT_LOR y) 1
        v.setPll y { v.pll y with noRef := true }) ∧
    (∀ count, s.cus.phase = .rfi →
      (∀ k, rfiClass count = some k → exec (.rfiClassifyRetry count) s =
        .next (
          let t := ((s.set PLL_RFI_FREQ k).set PLL_RFI_VALID 1).each 3 fun y t => t.pllShow y (classTarget k y)
          { t with cus := { t.cus with phase := .pllA } })) ∧
      (rfiClass count = none → exec (.rfiClassifyRetry count) s = .next (s.refFail .rfi))) ∧
    (s.cus.phase = .pllA →
      exec (.pllALockRetry true) s = .next (s.pllEvent fun s => s.refOk.pllStartAll.startContinue) ∧
      exec (.pllALockRetry false) s = .next (s.pllEvent fun s => s.refFail .pllA)) ∧
    (s.cus.phase = .run → s.itg.below = true → (s.pll 0).lossAt ≠ none →
      exec (.pllALockRetry false) s = .next (s.pllEvent fun s => s.refFail .run))) ∧
  (∀ (k : Fin 12) (mv10 : Nat) (s : State),
    let o := s.cko k
    let least := fmtSupply o.set.fmt o.set.lvl
    (o.set.en = true → s.on (CKO_STAT_COMPL k) = false →
      let t := ((s.bankMv k mv10).set (CKO_STAT_COMPL k) 1).ckoShow k
      (least ≤ 10 * mv10 → exec (.complSet k mv10) s = .next (s.bankMv k mv10)) ∧
      (10 * mv10 < least → o.episode = true → exec (.complSet k mv10) s = .next t) ∧
      (10 * mv10 < least → o.episode = false → exec (.complSet k mv10) s = .next
        ((((t.setCko k { t.cko k with episode := true }).set (CKO_STAT_COMPLEP k) 1).incSat (CKO_CNT_EPIS k)).note 0x0205 0x07 2
          (k.val * 2 ^ 72 + o.set.fmt * 2 ^ 69 + o.set.lvl * 2 ^ 67 + satN 10 mv10)))) ∧
    (s.on (CKO_STAT_COMPL k) = true →
      exec (.complClear k mv10) s = .next (if least + 10 < 10 * mv10 then
        ((s.bankMv k mv10).set (CKO_STAT_COMPL k) 0).ckoShow k else s.bankMv k mv10)) ∧
    (s.on (CKO_STAT_COMPL k) = false →
      exec (.complEpisodeEnd k) s = .next (s.setCko k { s.cko k with episode := false })))

/-- R258–R260, R264–R266, R268: PTP messages. Where delayAsymmetry enters and the fields that the spec leaves to the standard
(log entry 44, PRESUMED), and that the first Sync makes a port SLAVE (log entry 33), are the model's choices. -/
def Obligations.PtpMessages : Prop :=
  ∀ (p : Fin 8) (k : Fin 2) (sub txSub : Nat) (m : PtpMsg) (s : State),
    let eg := (s.now sub : Int) + psU (s.getI (EPT_LAT_TX_PS p))
    let ing := (s.now sub : Int) - psU (s.getI (EPT_LAT_RX_PS p))
    let mine := fun (ty q : Nat) => s.ptpMsg p k ty q
    let live := s.ptpMay p = true ∧ s.portIn p k = true
    let x := s.pslot p k
    let fresh := fun (a : Nat) => s.tim.up ≤ a + 1000000000
    (live → s.pstate p k = 6 →
      let n := s.seqNext p k 0
      let li := s.getI (EPT_DOM_INT_LSYNC k)
      exec (.syncTx p k sub) s = .next
        (if n.1.on (EPT_DOM_CFG_TWOSTEP k) then
          (n.1.emit (.ptp p { n.1.ptpMsg p k 0 n.2 with twoStep := true, logInt := n.1.getI (EPT_DOM_INT_LSYNC k) })).emit
            (.ptp p { n.1.ptpMsg p k 8 n.2 with ts := to16 (n.1.egress p sub), logInt := n.1.getI (EPT_DOM_INT_LSYNC k) })
        else n.1.emit (.ptp p { n.1.ptpMsg p k 0 n.2 with ts := to16 (n.1.egress p sub), logInt := n.1.getI (EPT_DOM_INT_LSYNC k) }))
      ∧ n.1.egress p sub = eg ∧ n.1.getI (EPT_DOM_INT_LSYNC k) = li) ∧
    (s.ptpMay p = false ∨ s.pstate p k ≠ 6 → exec (.syncTx p k sub) s = .next s) ∧
    (s.get (EPT_CFG_TRANS p) = 0 ∨ s.on (EPT_CFG_PTPEN p) = false ∨ s.clkId = 0 →
      s.ptpMay p = false ∧ (s.ptpRole.get (EPT_CFG_TRANS p) = 0 → s.ptpRole.ptpMay p = false)) ∧
    (s.ptpRole.ptpMay p = false → exec (.announceTx p k) s = .next
      (let t := s.ptpRole
       if t.portIn p k && t.pstate p k == 5 && t.reached (t.pslot p k).qualAt 0 then t.setPstate p k 6 else t)) ∧
    (s.ptpMay p = false → exec (.delayReqTx p k sub) s = .next s ∧
      (s.slotOf m.domain.toNat = some k.val →
        exec (.delayReqRx p sub m) s = .next s ∧ exec (.pdelayReqRx p sub txSub m) s = .next s)) ∧
    (s.ptpRole.ptpMay p = true → s.ptpRole.portIn p k = true → s.ptpRole.pstate p k = 6 →
      let n := s.ptpRole.seqNext p k 0xB
      let t := n.1
      let ds := match (t.slot k).parent with
        | some m => { m with steps := m.steps + 1 }
        | none => t.ownDs
      let b := t.ptpMsg p k 0xB n.2
      exec (.announceTx p k) s = .next ((t.slotShow k).emit (.ptp p { ds with
        trans := b.trans, mtype := b.mtype, domain := b.domain, seq := b.seq, srcId := b.srcId, srcPort := b.srcPort, corr := 0, ts := 0,
        reqId := 0, reqPort := 0, twoStep := false, logInt := t.getI (EPT_DOM_INT_LANN k) }))) ∧
    (s.ptpMay p = true → s.peerOn p k = true → x.preq = none →
      let n := s.seqNext p k 2
      let t := n.1.setPslot p k { n.1.pslot p k with preq := some (n.2, eg, n.1.tim.up), presp := none }
      exec (.delayReqTx p k sub) s = .next (t.emit (.ptp p { t.ptpMsg p k 2 n.2 with
        ts := to16 eg, corr := -(s.asym p / 2 ^ 48), logInt := s.getI (EPT_DOM_INT_LDREQ k) }))) ∧
    (live → s.on (EPT_CFG_P2P p) = false → s.pstate p k = 9 ∨ s.pstate p k = 8 → x.dreq = none →
      let n := s.seqNext p k 1
      let t := n.1.setPslot p k { n.1.pslot p k with dreq := some (n.2, eg, n.1.tim.up) }
      exec (.delayReqTx p k sub) s = .next (t.emit (.ptp p { t.ptpMsg p k 1 n.2 with
        ts := to16 eg, corr := -(s.asym p / 2 ^ 48), logInt := s.getI (EPT_DOM_INT_LDREQ k) }))) ∧
    (s.slotOf m.domain.toNat = some k.val →
      (s.fromParent p k m = true →
        let u := s.setPstate p k 9
        let y := u.pslot p k
        let t := (u.now sub : Int) - psU (u.getI (EPT_LAT_RX_PS p)) - m.corr * 2 ^ 48 - u.asym p
        (m.twoStep = true →
          exec (.syncRx p sub m) s = .next (u.setPslot p k { y with sync := some (m.seq.toNat, t, u.tim.up) })) ∧
        (m.twoStep = false →
          exec (.syncRx p sub m) s = .next ((u.setPslot p k { y with sync := none }).ptpSample p k (t - m.ts * 2 ^ 48))) ∧
        (∀ u a, x.sync = some (m.seq.toNat, u, a) → fresh a → exec (.followUpRx p m) s = .next
          ((s.setPslot p k { x with sync := none }).ptpSample p k (u - m.ts * 2 ^ 48 - m.corr * 2 ^ 48))) ∧
        (∀ t3 a ms, x.dreq = some (m.seq.toNat, t3, a) → x.lastMs = some ms → s.forPort p m = true → fresh a →
          exec (.delayRespRx p m) s = .next ((s.setPslot p k { x with dreq := none }).setI (EPT_MPD_PS p)
            (satI 32 (uToPs ((ms + ((m.ts : Int) * 2 ^ 48 - t3 - m.corr * 2 ^ 48)) / 2)))))) ∧
      (live → s.pstate p k = 6 → s.on (EPT_CFG_P2P p) = false →
        exec (.delayReqRx p sub m) s = .next (s.emit (.ptp p { mine 9 m.seq.toNat with
          ts := to16 ing, corr := m.corr, reqId := m.srcId, reqPort := m.srcPort, logInt := s.getI (EPT_DOM_INT_LDREQ k) }))) ∧
      (s.ptpMay p = true → s.peerOn p k = true →
        let t3 := (s.now txSub : Int) + psU (s.getI (EPT_LAT_TX_PS p))
        let r := { mine 3 m.seq.toNat with reqId := m.srcId, reqPort := m.srcPort }
        exec (.pdelayReqRx p sub txSub m) s = .next
          (if s.on (EPT_DOM_CFG_TWOSTEP k) then
            (s.emit (.ptp p { r with twoStep := true, ts := to16 ing })).emit (.ptp p { mine 0xA m.seq.toNat with
              ts := to16 t3, corr := m.corr, reqId := m.srcId, reqPort := m.srcPort })
          else s.emit (.ptp p { r with corr := m.corr + (t3 - ing) / 2 ^ 48 }))) ∧
      (∀ t1 a, x.preq = some (m.seq.toNat, t1, a) → s.forPort p m = true → fresh a →
        let c := m.corr * 2 ^ 48 + s.asym p
        (m.mtype = 3 → m.twoStep = false → exec (.pdelayRespRx p sub m) s = .next
          ((s.setPslot p k { x with preq := none }).setI (EPT_MPD_PS p) (satI 32 (uToPs ((ing - t1 - c) / 2))))) ∧
        (m.mtype = 3 → m.twoStep = true → exec (.pdelayRespRx p sub m) s = .next
          (s.setPslot p k { x with presp := some (ing, m.ts * 2 ^ 48, c) })) ∧
        (∀ t4 t2 c3, x.presp = some (t4, t2, c3) → m.mtype = 10 → exec (.pdelayRespRx p sub m) s = .next
          ((s.setPslot p k { x with preq := none, presp := none }).setI (EPT_MPD_PS p)
            (satI 32 (uToPs (((t4 - t1) - ((m.ts : Int) * 2 ^ 48 - t2) - c3 - m.corr * 2 ^ 48) / 2)))))))

/-- R255, R257, R262, R266–R268, R271, R272: the ports. That a link going down leaves the PTP states, that a message to the
port's own address is not used, D from the kept histories and the coding of a link's speed (log entry 33), and the service
level below which no link comes up (log entry 57), are the model's choices. -/
def Obligations.PortFrames : Prop :=
  ∀ (p : Fin 8) (k : Fin 2) (f : FrameIn) (m : PtpMsg) (s : State),
    let up := s.on (EPT_CFG_EN p) = true ∧ s.on (EPT_STAT_LINK p) = true
    let good := f.fcsOk = true ∧ 64 ≤ f.octets ∧ (f.vid = none ∨ f.vid = some 0)
    let drop := fun (t : State) => t.incSat (EPT_CNT_DROP_COUNT p)
    let refuse := (s.incSat (EPT_CNT_REFUSE_COUNT p)).orF (EPT_IRQ_IRQ p) 4
    let by_ : PtpMsg := { m with trans := BitVec.ofNat 3 (2 ^ f.trans.val) }
    (s.on (EPT_CFG_EN p) = false ∨ s.on (EPT_STAT_LINK p) = false → exec (.frameReceived p f) s = .next s) ∧
    (up → f.fcsOk = false → exec (.frameReceived p f) s = .next (drop (s.set (EPT_STAT_FCSERR p) 1))) ∧
    (up → f.fcsOk = true → f.octets < 64 → exec (.frameReceived p f) s = .next (drop s)) ∧
    (up → good →
      (f.body = .toPort → exec (.frameReceived p f) s = .next refuse) ∧
      (f.body = .other → exec (.frameReceived p f) s = .next (if f.toMe then refuse else drop s)) ∧
      (f.body = .ptp m → m.mtype = 13 → exec (.frameReceived p f) s = .next refuse) ∧
      (f.body = .ptp m → m.mtype ≠ 13 → s.on (EPT_CFG_PTPEN p) = false ∨ bit (s.get (EPT_CFG_TRANS p)) f.trans = false →
        exec (.frameReceived p f) s = .next (drop s)) ∧
      (f.body = .ptp m → m.mtype ≠ 13 → s.on (EPT_CFG_PTPEN p) = true → bit (s.get (EPT_CFG_TRANS p)) f.trans = true →
        let pd := m.mtype = 2 ∨ m.mtype = 3 ∨ m.mtype = 10
        (s.slotOf m.domain.toNat = some k.val →
          (s.get (EPT_DOM_CFG_TYPE k) = 1 → s.prole p k = 0 → exec (.frameReceived p f) s = .next (drop s)) ∧
          (s.get (EPT_DOM_CFG_TYPE k) = 1 ∧ s.prole p k ≠ 0 ∨
              s.get (EPT_DOM_CFG_TYPE k) ≠ 1 ∧ pd ∧ s.on (EPT_CFG_P2P p) = true →
            (f.toMe = true → exec (.frameReceived p f) s = .next s) ∧
            (f.toMe = false →
              (m.mtype = 0 → exec (.frameReceived p f) s = exec (.syncRx p f.sub by_) s) ∧
              (m.mtype = 1 → exec (.frameReceived p f) s = exec (.delayReqRx p f.sub by_) s) ∧
              (m.mtype = 2 → exec (.frameReceived p f) s = exec (.pdelayReqRx p f.sub f.txSub by_) s) ∧
              (m.mtype = 3 ∨ m.mtype = 10 → exec (.frameReceived p f) s = exec (.pdelayRespRx p f.sub by_) s) ∧
              (m.mtype = 8 → exec (.frameReceived p f) s = exec (.followUpRx p by_) s) ∧
              (m.mtype = 9 → exec (.frameReceived p f) s = exec (.delayRespRx p by_) s) ∧
              (m.mtype = 11 → exec (.frameReceived p f) s = exec (.announceRx p by_) s) ∧
              (m.mtype ∉ ([0, 1, 2, 3, 8, 9, 10, 11] : List (BitVec 4)) →
                exec (.frameReceived p f) s = .next (drop s)))) ∧
          (s.get (EPT_DOM_CFG_TYPE k) ≠ 1 → ¬ (pd ∧ s.on (EPT_CFG_P2P p) = true) →
            exec (.frameReceived p f) s = .next (s.forward p f.sub by_))) ∧
        (s.slotOf m.domain.toNat = none →
          exec (.frameReceived p f) s = .next (if s.on EPT_CLK_FWDOTHER then s.forward p f.sub by_ else drop s))) ∧
      (∀ a, f.body = .arp a →
        (a.toNat = s.get (EPT_IP4_ADDR p) → a ≠ 0 → exec (.frameReceived p f) s = exec (.arpRequest p a) s) ∧
        (a.toNat ≠ s.get (EPT_IP4_ADDR p) ∨ a = 0 → exec (.frameReceived p f) s = .next (if f.toMe then refuse else drop s))) ∧
      (∀ a, f.body = .ns a →
        (a = s.portIp6 p → a ≠ 0 → exec (.frameReceived p f) s = exec (.neighbourSolicitation p a) s) ∧
        (a ≠ s.portIp6 p ∨ a = 0 → exec (.frameReceived p f) s = .next (if f.toMe then refuse else drop s))) ∧
      (∀ v6 dport src sport pay, f.body = .udp v6 dport src sport pay →
        (f.toMe = false → exec (.frameReceived p f) s = .next (drop s)) ∧
        (f.toMe = true → dport.toNat ≠ s.get (EPT_STS_CFG_UPORT p) → exec (.frameReceived p f) s = .next refuse) ∧
        (f.toMe = true → dport.toNat = s.get (EPT_STS_CFG_UPORT p) →
          exec (.frameReceived p f) s = .next (s.statusGet p v6 src sport.toNat pay)))) ∧
    (∀ v, up → f.fcsOk = true → f.vid = some v → v ≠ 0 → exec (.frameReceived p f) s = .next (drop s)) ∧
    (∀ sub c rest, (s.port p).copies = c :: rest →
      let t := (s.setPort p { s.port p with copies := rest }).copyBack p c
      let res := t.egress p sub - c.ingress
      (10 * (msU : Int) < res → exec (.forwardCopySent p sub) s = .next (t.fwdDrop p)) ∧
      (res ≤ 10 * (msU : Int) → exec (.forwardCopySent p sub) s = .next (t.emit (.ptp p
        (if c.msg.mtype.toNat < 4 then
          { c.msg with corr := c.msg.corr + roundDiv res (2 ^ 48) - s.asymOut p c.msg.mtype.toNat } else c.msg))))) ∧
    (∀ c, let t := s.inc (EPT_FWDSTAT_FREE p)
      let left := tblGet t.net.bufs 0 c.buf
      s.copyBack p c =
        if left ≤ 1 then { t with net := { t.net with free := t.net.free + 1, bufs := tblErase t.net.bufs c.buf } }
        else { t with net := { t.net with bufs := tblSet t.net.bufs c.buf (left - 1) } }) ∧
    (let t := s.ptpRole
     let x := t.pslot p k
     let mine := fun (g : Foreign) => g.msg.srcId == m.srcId && g.msg.srcPort == m.srcPort
     s.slotOf m.domain.toNat = some k.val → t.portIn p k = true →
     m.srcId.toNat ≠ t.clkId → m.steps.toNat < 255 → bit m.aflags.toNat 3 = true → bit m.aflags.toNat 6 = false →
       exec (.announceRx p m) s = .next ((t.setPslot p k { x with
         foreign := { msg := m, at1 := t.tim.up, at2 := (x.foreign.find? mine).map fun g => g.at1 } ::
           x.foreign.filter fun g => !mine g }).bmca k)) ∧
    (let t := s.ptpRole
     t.portHas p k = true → t.pstate p k ≠ 6 → t.pstate p k ≠ 1 →
       let u := t.setPslot p k { t.pslot p k with foreign := [] }
       let u := (u.setPstate p k (if !u.portUp p then 1 else if u.slaveOnly k || u.prole p k == 3 then 4 else 6)).bmca k
       exec (.announceTimeout p k) s = .next
         (if t.follows p k && (u.slot k).parent.isNone then (u.set (EPT_DOM_STAT_ANNTO k) 1).slotEval k else u)) ∧
    (exec (.slotSamplesAged k) s = .next (s.slotEval k)) ∧
    (∀ speed, s.on (EPT_STAT_LINK p) = true → exec (.eptLinkChange p false speed) s = .next
      (let t := s.portCut p
       let t := ((t.set (EPT_STAT_LINK p) 0).set (EPT_STAT_LINKCHG p) 1).orF (EPT_IRQ_IRQ p) 1
       t.each 2 fun k t => t.setPslot p k { t.pslot p k with preq := none, presp := none })) ∧
    (∀ speed : Fin 8, s.on (EPT_CFG_EN p) = false ∨ s.on (EPT_STAT_TXSTOP p) = true ∨ s.serves = false →
      exec (.eptLinkChange p true speed) s = .next s) ∧
    (∀ speed : Fin 8, s.on (EPT_CFG_EN p) = true → s.on (EPT_STAT_TXSTOP p) = false → s.serves = true →
      speedOk (s.get (EPT_CFG_MODE p)) speed = false → exec (.eptLinkChange p true speed) s = .next
        ((if s.on (EPT_STAT_LINK p) then
          (let t := s.portCut p
           let t := ((t.set (EPT_STAT_LINK p) 0).set (EPT_STAT_LINKCHG p) 1).orF (EPT_IRQ_IRQ p) 1
           t.each 2 fun k t => t.setPslot p k { t.pslot p k with preq := none, presp := none }) else s).set
          (EPT_STAT_SPDERR p) 1)) ∧
    (∀ speed : Nat, speedOk 0 speed = decide (speed ≤ 3) ∧ speedOk 1 speed = decide (speed = 2) ∧
      speedOk 2 speed = decide (speed = 3) ∧ speedOk 3 speed = decide (speed = 3)) ∧
    (∀ speed : Fin 8, s.on (EPT_CFG_EN p) = true → s.on (EPT_STAT_TXSTOP p) = false → s.serves = true →
      speedOk (s.get (EPT_CFG_MODE p)) speed = true → exec (.eptLinkChange p true speed) s = .next
        (let t := ((s.set (EPT_STAT_LINK p) 1).set (EPT_STAT_SPEED p) speed).set (EPT_STAT_LINKCHG p) 1
         let t := if s.on (EPT_STAT_LINK p) then t else t.each 2 fun k t => t.portFresh p k
         (t.orF (EPT_IRQ_IRQ p) 1).ptpConfig)) ∧
    (∀ (a : Master) (w : Word), Writes (.eptCredWrite a p w) a (0x4010003C + 0x1000 * p.val) w s fun t =>
      let new := t.get (EPT_FWD_CRED p)
      let old := s.get (EPT_FWD_CRED p)
      let sum := ((List.range 8).filter fun q => t.on (EPT_CFG_EN q)).foldl (fun a q => a + t.get (EPT_FWD_CRED q)) 0
      if new = 0 ∨ new < (t.port p).copies.length ∨ 256 < sum then
        (t.set (EPT_FWD_CRED p) old).set (EPT_STAT_CFGERR p) 1
      else t.set (EPT_FWDSTAT_FREE p) (t.get (EPT_FWDSTAT_FREE p) + new - old)) ∧
    (let w := s.wantSlot
     let d := meanI (s.slotDiffs w (1 - w))
     (w = s.selSlot → exec .ptpSourceSwitch s = .next { s with net := { s.net with swRef := false } }) ∧
     (∀ a, w ≠ s.selSlot → (s.slot w).lockAt = some a → a + 16000000000 ≤ s.tim.up → s.tim.step = none →
       (1000000 < d.natAbs → s.net.swRef = false → exec .ptpSourceSwitch s = .next
         (let t := { s with net := { s.net with swRef := true } }
          (t.set EPT_PSEL_DISAGREE 1).note 0x0206 0x08 2 (2 ^ 79 + w * 2 ^ 78 + uns 32 d * 2 ^ 32 + t.get EPT_PSW_BIAS_PS))) ∧
       (d.natAbs ≤ 1000000 → exec .ptpSourceSwitch s = .next
         (let b := d - clampI (-10000) 10000 d
          let t := { s with net := { s.net with swRef := false } }
          let t := ((t.set EPT_PSEL_SELB w).incSat EPT_PSEL_SWCNT).setI EPT_PSW_BIAS_PS b
          t.note 0x0206 0x08 1 (w * 2 ^ 78 + uns 32 d * 2 ^ 32 + uns 32 b)))))

/-- R196, R197, R214, R272–R275, R277: status traffic. That GET answers the latest datagram sent by any port, when MEAS and
UMBER-SUM are sent, and what IDENT's template holds are the model's choices (log entry 33). -/
def Obligations.StatusDatagrams : Prop :=
  ∀ (p : Fin 8) (n : Fin 2) (s : State),
    let sched := fun (t : State) (typ key : Nat) (bs : List (List Byte)) =>
      let v6 := t.on (EPT_STS_CFG_V6 p)
      let dst := if v6 then
          t.addr6 (EPT_STS_DST6_0_ADDR p) (EPT_STS_DST6_1_ADDR p) (EPT_STS_DST6_2_ADDR p) (EPT_STS_DST6_3_ADDR p)
        else BitVec.ofNat 128 (t.get (EPT_STS_DST4_ADDR p))
      let t := { t with net := { t.net with latest := tblSet t.net.latest key bs } }
      bs.foldl (fun t b => t.stsSend p typ b false v6 dst (t.get (EPT_STS_CFG_UPORT p))) t
    let on := fun (typ : Nat) => s.net.stsOpen && s.portUp p && s.on (EPT_CFG_STSEN p) && bit (s.get (EPT_STS_CFG_TYPES p)) (6 - typ)
    (∀ typ (b : List Byte) get v a q,
      let c := tblGet (s.port p).sent 0 typ
      let t := s.setPort p { s.port p with sent := tblSet (s.port p).sent typ ((c + 1) % 2 ^ 32) }
      s.stsSend p typ b get v a q = t.emit (.udp p v a q
        (t.stsHeader typ b.length c (t.soft && (typ == 1 || typ == 4 || typ == 5)) get ++ b))) ∧
    (on 1 = false → exec (.timeDatagram p) s = .next s) ∧
    (on 1 = true → s.soft = true → exec (.timeDatagram p) s = .next (sched s 1 1 [s.timeSoft])) ∧
    (on 1 = true → s.soft = false → exec (.timeDatagram p) s =
      .next (sched { s with net := { s.net with lastTime := s.timeBody } } 1 1 [s.timeBody])) ∧
    (∀ b, (s.tp n).msg = some b → (s.tp n).composed = some (tvSec s.tim.t + 1) → on 2 = true →
      exec (.tpNextDatagram p n) s = .next (sched s 2 (2 * 16 + n) [b])) ∧
    ((s.tp n).msg = none ∨ (s.tp n).composed ≠ some (tvSec s.tim.t + 1) → exec (.tpNextDatagram p n) s = .next s) ∧
    (s.soft = true ∨ s.on SUP_STAT_BRACE = true ∨ s.tracked = false → exec (.measDatagram p () ()) s = .next s) ∧
    (s.soft = false → s.on SUP_STAT_BRACE = false → s.tracked = true → on 3 = true →
      exec (.measDatagram p () ()) s = .next (sched s.measNow 3 3 s.measNow.measBodies)) ∧
    (on 4 = true → exec (.integDatagram p) s = .next (sched s 4 4 [s.integBody])) ∧
    (on 5 = true → exec (.identDatagram p) s = .next (sched s 5 5 [s.identBody])) ∧
    (∀ h, s.soft = true → s.net.ident = some h → s.identBody.drop 24 =
      beBytes 4 h.dig0 ++ (beBytes 4 h.dig1 ++
      ((if s.cus.rec_.sealed_ then beBytes 8 (s.cus.rec_.sdig / 2 ^ 192) else beBytes 8 0) ++
      (((List.range 6).flatMap fun k => beBytes 4 (h.vers / 2 ^ (32 * k))) ++
      (beBytes 1 (s.get EPT_CLK_TDROLE) ++ (beBytes 1 0 ++ beBytes 2 h.retired)))))) ∧
    (s.soft = false → s.on SUP_STAT_BRACE = false → on 6 = true → exec (.umberSumDatagram p) s = .next
      (let t := sched s 6 6 [s.umberSumBody]
       { t with net := { t.net with umbNew := 0, umbSev := 0 } })) ∧
    (∀ (target : Word), (s.portUp p = true → target.toNat = s.get (EPT_IP4_ADDR p) → target ≠ 0 →
        exec (.arpRequest p target) s = .next (s.emit (.arp p target))) ∧
      (target.toNat ≠ s.get (EPT_IP4_ADDR p) → exec (.arpRequest p target) s = .next s)) ∧
    (∀ (target : BitVec 128), (s.portUp p = true → target = s.portIp6 p → target ≠ 0 →
        exec (.neighbourSolicitation p target) s = .next (s.emit (.nadv p target))) ∧
      (target ≠ s.portIp6 p → exec (.neighbourSolicitation p target) s = .next s)) ∧
    (∀ (hdr : List Byte) (typ : Fin 256), hdr.length = 26 →
      getOk ([0xD7, 0x10, 0x01, 0x10, 0x00, 0x04] ++ hdr ++ [BitVec.ofNat 8 typ.val, 0, 0, 0]) =
        (decide (1 ≤ typ.val) && decide (typ.val ≤ 6))) ∧
    (∀ (src : BitVec 128) (sport : BitVec 16) (pay : List Byte),
      let typ := (pay.getD 32 0).toNat
      (s.portUp p = false → exec (.statusGet p src sport pay) s = .next s) ∧
      (s.portUp p = true → getOk pay = false ∨ s.on (EPT_STS_CFG_GETEN p) = false ∨ 16 ≤ (s.port p).gets →
        exec (.statusGet p src sport pay) s = .next ((s.incSat (EPT_CNT_REFUSE_COUNT p)).orF (EPT_IRQ_IRQ p) 4)) ∧
      (∀ bs, s.portUp p = true → getOk pay = true → typ ≠ 2 → s.on (EPT_STS_CFG_GETEN p) = true → (s.port p).gets < 16 →
        s.net.stsOpen = true → s.stsSent typ = true → tblFind s.net.latest typ = some bs → bs ≠ [] →
        exec (.statusGet p src sport pay) s = .next
          (let t := s.setPort p { s.port p with gets := (s.port p).gets + 1 }
           bs.foldl (fun t b => t.stsSend p typ b true (decide (2 ^ 32 ≤ src.toNat)) src sport.toNat)
             (t.incSat (EPT_CNT_GET_COUNT p)))))

/-- R279, R281, R284, R287, R290, R291: writes to the event lines. That their effects come with the command, that DENIED is
judged again and which levels are shown are the model's choices (log entry 34). -/
def Obligations.LineWrites : Prop :=
  ∀ (m : Master) (n : Fin 96) (j : Fin 6) (w : Word) (s : State),
    (Writes (.telCfgWrite m n w) m (0x40200400 + 0x40 * n.val) w s fun t =>
      let new := t.get (TEL_CFG_MODE n)
      let old := s.get (TEL_CFG_MODE n)
      let u := if 5 ≤ new then (t.set (TEL_CFG_MODE n) old).set (TEL_STAT_CFGERR n) 1
        else if new = old then t
        else ((t.set (TEL_CFG_MODE n) old).telModeEnd n 5).set (TEL_CFG_MODE n) new
      let shown := u.get (TEL_CFG_MODE n) ≠ old ∨ u.on (TEL_CFG_POL n) ≠ s.on (TEL_CFG_POL n)
      (if shown ∧ u.telDrives n = true then u.emit (.line n (u.on (TEL_STAT_LEVEL n) != u.on (TEL_CFG_POL n)))
       else u).lateOpen) ∧
    (Writes (.telPtrWrite m n w) m (0x40200408 + 0x40 * n.val) w s fun t =>
      let t := t.set (TEL_PTR_IDLE n) 0
      t.setLine n { t.line n with
        copies := [], fetchAt := some (t.get (TEL_PTR_PTR n)), stopped := false, due1 := none, due2 := none }) ∧
    (Writes (.telInval m w) m 0x40200040 w s fun t =>
      if bit w.toNat 31 then t.each 96 fun k t => t.telFlush k
      else if w.toNat % 128 < 96 then t.telFlush (w.toNat % 128) else t) ∧
    (Writes (.telPermitWrite m j w) m (0x40200020 + 4 * j.val) w s State.winPermit)

/-- R282, R284, R285: one fetch.
R280, R291, R292, R433, R444: what ends, captures, and the banks. The near copy and the entry of an overflow episode (log
entry 34), the span of a pulse (log entry 67) and the time at which an entry comes to the head (log entry 46) are the
model's choices. -/
def Obligations.LineTiming : Prop :=
  (∀ (n : Fin 96) (sub i : Nat) (s : State),
    let l := s.line n
    l.fetchAt = some i → l.copies.length < 2 → s.get (TEL_CFG_MODE n) ≠ 4 →
      let r := s.memReadWords .sched (0x40210000 + i * 16) 4
      let c : EntryCopy := { idx := i, w0 := r.2.1.getD 0 0, w1 := r.2.1.getD 1 0, w2 := r.2.1.getD 2 0,
                             w3 := r.2.1.getD 3 0, bad := !r.2.2 }
      (r.2.2 = true → bit c.w0 31 = false → exec (.telFetch n sub) s = .next r.1) ∧
      (r.2.2 = false ∨ bit c.w0 31 = true →
        let c' := { c with near := l.due2.any fun d => decide (d ≤ c.due) && decide (c.due < d + usU) }
        let t := r.1.setLine n { l with
          copies := l.copies ++ [c'],
          fetchAt := if c'.last || c'.err n (r.1.get (TEL_CFG_MODE n)) then none else some c'.next,
          due1 := some c'.due, due2 := l.due1, headAt := if l.copies = [] then r.1.now sub else l.headAt }
        exec (.telFetch n sub) s = .next (if l.copies = [] then t.telHead n else t))) ∧
  (∀ (n : Fin 96) (b : Fin 4) (sub mv10 width : Nat) (falling : Bool) (s : State),
    let l := s.line n
    (∀ e, l.pulseTo = some e →
      (s.reached e 0 = true → exec (.pulseEnd n) s = .next
        ((s.setLine n { l with pulseTo := none, after := false }).telLevel n l.after)) ∧
      (s.reached e 0 = false → exec (.pulseEnd n) s = .next s)) ∧
    (s.get (TEL_STAT_WSTATE n) = 1 → exec (.windowLimit n) s = .next
      (if s.reached l.openAt (max 1 (s.get (TEL_WMAX_MIN n)) * 60000000000) then s.winClose n 1 0 else s)) ∧
    (s.get (TEL_STAT_WSTATE n) = 2 → exec (.holdend n) s = .next
      (if s.reached l.fallAt 60000000000 then s.winClose n 3 0 else s)) ∧
    (s.get (TEL_CFG_MODE n) = 3 →
      (width < 50 → exec (.captureEdge n sub falling width) s = .next (s.set (TEL_STAT_GLITCH n) 1)) ∧
      (50 ≤ width → (s.get (TEL_CFG_EDGE n) = 0 → falling = false) → (s.get (TEL_CFG_EDGE n) = 1 → falling = true) →
        (s.on (TEL_CFG_GATED n) = true → s.on (TEL_STAT_ARMED n) = true) →
        (l.fifo.length < 256 → exec (.captureEdge n sub falling width) s = .next
          ((((s.setLine n { l with fifo := l.fifo ++ [(tv96 (s.now sub), falling)] }).set (TEL_FILL_FILL n)
            (l.fifo.length + 1)).setTelBit TEL_CAPNE_MAP n true).orF TEL_IRQ_IRQ 2)) ∧
        (256 ≤ l.fifo.length → exec (.captureEdge n sub falling width) s = .next
          ((((s.setLine n { l with lost := some (l.lost.getD 0 + 1) }).incSat (TEL_LOST_COUNT n)).set
            (TEL_STAT_OVF n) 1).orF TEL_IRQ_IRQ 4)))) ∧
    (∀ k, l.lost = some k → l.fifo = [] → exec (.captureOverflowEpisodeEnd n) s = .next
      ((s.setLine n { l with lost := none }).note 0x0606 0x09 2 (n * 2 ^ 73 + min k (2 ^ 32 - 1)))) ∧
    (let nom := if s.on (TEL_BANK_V33 b) then 330 else 180
     let verr := !decide (120 < mv10) || decide (nom < (if mv10 < nom then nom - mv10 else mv10 - nom) * 10)
     let t := ((s.set (TEL_BANK_MV10 b) (satN 10 mv10)).setB (TEL_BANK_PRESENT b) (decide (120 < mv10))).setB
       (TEL_BANK_VERR b) verr
     exec (.bankSupplyMeasure b mv10) s = .next (t.setBank b { t.bank b with
       measured := true, drivers := (t.bank b).drivers && !verr,
       clearAt := if (s.on (TEL_BANK_VERR b) || !(s.bank b).measured) && !verr then t.tim.up else (t.bank b).clearAt })) ∧
    ((s.bank b).measured = true → s.on (TEL_BANK_VERR b) = false → (s.bank b).drivers = false →
      exec (.bankDriverReturn b) s = .next
        ((s.setBank b { s.bank b with drivers := true }).each 24 fun k t => t.telShow (24 * b.val + k))))

/-- R283, R288–R291, R444: every action of a schedule entry. That the next held entry supersedes this one, and OPEN on a
DENIED window (log entry 34), and the head reached after a load or a step (log entry 46), are the model's choices. -/
def Obligations.LineActions : Prop :=
  ∀ (n : Fin 96) (sub : Nat) (c : EntryCopy) (rest : List EntryCopy) (s : State),
    let l := s.line n
    let now := s.now sub
    let x := s.inc (TEL_EXEC_COUNT n)
    let acts := [(0, Instr.telNop n sub), (1, .telSet n sub), (2, .telClear n sub), (3, .telPulse n sub), (4, .telOpen n sub),
      (5, .telClose n sub), (6, .telArm n sub), (7, .telDisarm n sub)]
    (∀ (d : EntryCopy) (at_ : Nat), s.lateHead n d at_ = decide (d.due + s.get (TEL_CFG_LATEMAX n) * msU <
      if d.near then (match s.tim.jump with
        | some (a, b) => if a < d.due ∧ d.due ≤ b then b else d.due
        | none => d.due) else at_)) ∧
    (l.copies = [] → ∀ p ∈ acts, exec p.2 s = .next s) ∧
    (l.copies = c :: rest → ∀ p ∈ acts, c.action ≠ p.1 ∨ now < c.due ∨ l.stopped = true → exec p.2 s = .next s) ∧
    (l.copies = c :: rest → c.due ≤ now → l.stopped = false →
    (s.lateHead n c l.headAt = false →
      ((∀ d r, rest = d :: r → now < d.due ∨ d.err n (x.get (TEL_CFG_MODE n)) = true ∨ x.lateHead n d now = true) →
        (c.action = 0 → exec (.telNop n sub) s = .next (x.telAdvance n sub c)) ∧
        (c.action = 1 → exec (.telSet n sub) s = .next
          ((if x.telWithheld n then x.set (TEL_STAT_WITHHELD n) 1
            else if (x.line n).pulseTo.isSome then x.setLine n { x.line n with after := true }
            else x.telLevel n true).telAdvance n sub c)) ∧
        (c.action = 2 → exec (.telClear n sub) s = .next
          ((if (x.line n).pulseTo.isSome then x.setLine n { x.line n with after := false }
            else x.telLevel n false).telAdvance n sub c)) ∧
        (c.action = 3 → exec (.telPulse n sub) s = .next ((telActPulse n sub c x).telAdvance n sub c)) ∧
        (c.action = 4 → exec (.telOpen n sub) s = .next
          ((if x.get (TEL_STAT_WSTATE n) = 1 ∨ x.get (TEL_STAT_WSTATE n) = 2 then x
            else if x.gateFails n = 0 then (if x.get (TEL_STAT_WSTATE n) = 0 then x.winOpen n c.idx sub else x)
            else
              let t := (x.set (TEL_STAT_WSTATE n) 3).orF TEL_IRQ_IRQ 8
              let t := t.setLine n { t.line n with openIdx := c.idx }
              t.note 0x0604 0x09 2 (n * 2 ^ 73 + x.gateFails n * 2 ^ 69 + c.idx) sub).telAdvance n sub c)) ∧
        (c.action = 5 → exec (.telClose n sub) s = .next ((x.winClose n 0 sub).telAdvance n sub c)) ∧
        (c.action = 6 → exec (.telArm n sub) s = .next
          ((if x.on (TEL_CFG_GATED n) then x.setB (TEL_STAT_ARMED n) true else x).telAdvance n sub c)) ∧
        (c.action = 7 → exec (.telDisarm n sub) s = .next
          ((if x.on (TEL_CFG_GATED n) then x.setB (TEL_STAT_ARMED n) false else x).telAdvance n sub c))) ∧
      (∀ d r, rest = d :: r → d.due ≤ now → d.err n (x.get (TEL_CFG_MODE n)) = false → x.lateHead n d now = false →
        ∀ p ∈ acts, c.action = p.1 → exec p.2 s = .next ((x.set (TEL_STAT_SUPERSEDED n) 1).telAdvance n sub c))) ∧
    (s.lateHead n c l.headAt = true → ∀ p ∈ acts, c.action = p.1 →
      exec p.2 s = .next (((s.set (TEL_STAT_LATE n) 1).incSat (TEL_LATECNT_COUNT n)).telAdvance n sub c)))

/-- R301, R302, R304, R309: writes of the always-on domain. The write of `RTC_WAKE` says which crystal edges were counted
before it (the model's choice, log entry 3); that a write which waits for the tick gives way to a later one of the same
register is the model's choice too (log entry 35). -/
def Obligations.AlwaysOnWrites : Prop :=
  ∀ (m : Master) (w : Word) (s : State),
    let waits := fun (u : State) (a : Nat) => ({ u with rtc := { u.rtc with
      todo := u.rtc.todo.filter (·.1 ≠ a) ++ [(a, w.toNat, u.lockHolds m)] } } : State).dspSteps
    (Writes (.rtcSecStage m w) m 0x4002000C w s fun t => { t with rtc := { t.rtc with secTop := w.toNat % 2 } }) ∧
    (Writes (.rtcSecCommit m w) m 0x40020008 w s fun t =>
      ({ t with rtc := { t.rtc with secVal := some (t.rtc.secTop * 2 ^ 32 + w.toNat) } }).set RTC_STAT_SETPEND 1) ∧
    (Writes (.rtcTrimWrite m w) m 0x40020014 w s fun t => t) ∧
    (∀ edges, writeTaken (s.rtcAdvance edges) m 0x40020018 w.toNat = true →
      exec (.rtcWakeWrite m w edges) s = .next
        (waits (s.rtcAdvance edges) 0x40020018)) ∧
    (writeTaken s m 0x4002001C w.toNat = true → exec (.fswclr m w) s = .next (waits s 0x4002001C)) ∧
    (s.rtc.inReset = false → s.rtc.stopped = false → ∀ (k v : Nat) (held : Bool), 0 < k →
      let t := s.rtcCount 1
      let t := { t with rtc := { t.rtc with todo := [] } }
      (s.rtc.todo = [(0x40020018, v, held)] → s.rtcAdvance k =
        (let u := t.set RTC_WAKE_WAKE (v % 2 ^ 24)
         ({ u with rtc := { u.rtc with wakeBase := u.rtc.run } } : State).rtcCount (k - 1))) ∧
      (s.rtc.todo = [(0x4002001C, v, held)] → s.rtcAdvance k =
        (let u := if held then t else (t.set RTC_CTL_SYNCSET (bits v 31 31)).set RTC_CTL_BOUND (bits v 15 0)
         if bit v 30 then ((((u.set RTC_FSW_H_VALID 0).set2 RTC_FSW_L_TICK RTC_FSW_H_TICK 0).set RTC_SWCNT_SWCNT 0).set
           RTC_SWCNT_WMISS 0).attnUpdate else u).rtcCount (k - 1))) ∧
    (∀ k, (s.rtc.edge + k < 2 ^ 20 → (s.rtcCount k).rtc.trim = s.rtc.trim) ∧
      (0 < k → s.rtc.edge + k = 2 ^ 20 → (s.rtcCount k).rtc.trim = max (-511) (sgn 10 (s.get RTC_TRIM_TRIM))))

/-- R301, R304, R306, R307: the seconds apply, and the periodic wake.
R303, R305, R308, R310: the supplies of the always-on domain. That a tick added past 0 counts as the rollover, that the
correction is owed to the next edge, and the write of RTC_WAKE kept through the lock, are the model's choices (log entry
35). -/
def Obligations.AlwaysOnEvents : Prop :=
  (∀ (edges : Nat) (s : State),
    let u := s.rtcAdvance edges
    (∀ v, u.rtc.secVal = some v → (u.on RTC_CTL_SYNCSET = true →
        u.rtc.tick % 32768 = 0 ∨ (0 < u.rtc.last ∧ u.rtc.tick % 32768 = 1)) →
      exec (.rtcSecApply edges) s = .next
        (let owe : Int := if u.on RTC_CTL_SYNCSET && u.rtc.tick % 32768 == 0 then 0 else u.rtc.last
         let t := ({ u with rtc := { u.rtc with
           tick := v * 32768, run := ((u.rtc.run : Int) - owe).toNat, secVal := none, owe := owe } } : State)
         let t := (t.set RTC_STAT_SETPEND 0).set RTC_STAT_DISC 1
         if u.on RTC_CTL_SYNCSET then t else t.set RTC_STAT_PRELOST 1)) ∧
    (0 < u.get RTC_WAKE_WAKE → u.rtc.wakeBase + u.get RTC_WAKE_WAKE * 128 ≤ u.rtc.run →
      let v := ({ u with rtc := { u.rtc with wakeBase := u.rtc.wakeBase + u.get RTC_WAKE_WAKE * 128 } } : State)
      (u.on RTC_STAT_ONBAT = true → exec (.periodicWake edges) s = .next (v.incSat RTC_SWCNT_WMISS)) ∧
      (u.on RTC_STAT_ONBAT = false → u.itg.burst.active = false →
        exec (.periodicWake edges) s = .next ((v.set RTC_WREASON_PERIODIC 1).set2 RTC_WTICK_L_TICK RTC_WTICK_H_TICK v.rtc.tick)) ∧
      (u.on RTC_STAT_ONBAT = false → u.itg.burst.active = true →
        exec (.periodicWake edges) s = .next
          (((v.set RTC_WREASON_PERIODIC 1).set2 RTC_WTICK_L_TICK RTC_WTICK_H_TICK v.rtc.tick).set RTC_STAT_WOVR 1)))) ∧
  (∀ (edges mv10 : Nat) (s : State),
    let u := s.rtcAdvance edges
    (u.on RTC_STAT_ONBAT = false → u.rtc.inReset = false →
      exec (.hostResume edges) s = .next
        { (u.set RTC_WREASON_HOST 1).set2 RTC_WTICK_L_TICK RTC_WTICK_H_TICK u.rtc.tick with svc := { u.svc with rxOn := true } } ∧
      (let t := (u.set RTC_STAT_ONBAT 1).set2 RTC_LSW_L_TICK RTC_LSW_H_TICK u.rtc.tick
       let t := if t.on RTC_FSW_H_VALID then t
         else (t.set2 RTC_FSW_L_TICK RTC_FSW_H_TICK u.rtc.tick).set RTC_FSW_H_VALID 1
       let t := t.incSat RTC_SWCNT_SWCNT
       exec (.switchToVbat edges) s = .next { t with rtc := { t.rtc with lock := true } }) ∧
      exec (.xofail edges) s = .next
        ((({ u with rtc := { u.rtc with stopped := true } } : State).set RTC_STAT_XOFAIL 1).set RTC_STAT_DISC 1)) ∧
    (u.on RTC_STAT_ONBAT = true → u.rtc.inReset = false →
      exec (.returnFromVbat edges) s = .next
        ((((u.set RTC_STAT_ONBAT 0).set2 RTC_LRET_L_TICK RTC_LRET_H_TICK u.rtc.tick).set RTC_WREASON_BACKUP 1).set2
          RTC_WTICK_L_TICK RTC_WTICK_H_TICK u.rtc.tick)) ∧
    exec .aonReset s = .next
      (let t := (s.clearRegs 0x40020000 0x40030000).clearLatches 0x40020000 0x40030000
       { t with rtc := { inReset := true } }) ∧
    (s.rtc.inReset = true → ∀ vbat, exec (.aonResetRelease vbat) s = .next
      (({ s with rtc := { s.rtc with inReset := false } } : State).setB RTC_STAT_ONBAT vbat)) ∧
    (s.on RTC_STAT_ONBAT = false → s.rtc.inReset = false → exec (.vbatMeasure mv10) s = .next
      ((s.set RTC_VBAT_MV10 (satN 10 mv10)).setB RTC_STAT_VBATLOW (decide (mv10 < 220)))) ∧
    exec .crystalEdgesReturn s = .next { s with rtc := { s.rtc with stopped := false } } ∧
    (s.rtc.lock = true → s.rtc.inReset = false → s.on RTC_STAT_ONBAT = false → s.cus.phase ≠ .off →
      let t := ({ s with rtc := { s.rtc with lock := false } } : State)
      (s.itg.wakePend = none → exec .aonLockRelease s = .next t) ∧
      ∀ n k, s.itg.wakePend = some (n, k) → exec .aonLockRelease s = .next (t.custWake n k)))

/-- R300, R403: what the reads of the always-on domain latch. The two reads of the count say which crystal edges were
counted before (the model's choice, log entry 3). -/
def Obligations.AlwaysOnReads : Prop :=
  ∀ (m : Master) (edges : Nat) (s : State),
    let u := s.rtcAdvance edges
    (u.busAllowed m 0x40020000 false = true →
      exec (.rtcTickRead m edges) s = .next (u.hold m 0x40020004 (u.viewRtc.regValue 0x40020004))) ∧
    (u.busAllowed m 0x40020008 false = true →
      exec (.rtcSecRead m edges) s = .next
        ((u.hold m 0x4002000C (u.viewRtc.regValue 0x4002000C)).hold m 0x40020010 (u.viewRtc.regValue 0x40020010))) ∧
    ∀ k : Fin 4,
      let a := 0x40020028 + 8 * k.val
      s.busAllowed m a false = true →
        exec (.rtcStampRead m k) s = .next (s.hold m (a + 4) (s.viewRtc.regValue (a + 4)))

/-- R306, R312–R314, R320, R413, R433: resets by the supplies and by `RST_N`. That a warning condition is kept through a reset
and that its end, or a level of `VDD_IO33` of 2.95 V or more, releases the start are the model's choices (log entries 36 and
68). -/
def Obligations.SupplyResets : Prop :=
  ∀ (s : State),
    let release : State → State := fun t =>
      let t := t.coldReset.set SUP_RAIL_PRES 0x3F
      let t := { t with cus := { t.cus with phase := .released }, sup := { t.sup with stableAt := some 0 } }
      let t := if t.sup.pfw then (t.set SUP_STAT_PFW 1).set SUP_STAT_PFWSEEN 1 else t
      if t.sup.pfw || t.sup.io33 then
        let t := t.set SUP_STAT_WARN 1
        { t with sup := { t.sup with cPfw := t.sup.pfw, cIo33 := t.sup.io33, stableAt := none } }
      else t
    let lost : State → State := fun t =>
      (({ t with sup := { t.sup with powered := false } }).rtcReason RTC_WREASON_SUPPLY).coldReset
    let locked : State := { s with rtc := { s.rtc with lock := true } }
    let high : State := { s with sup := { s.sup with rstLow := false } }
    let free : State → State := fun t =>
      if t.sup.powered = true ∧ t.sup.rstLow = false ∧ t.sup.core = false ∧ t.sup.ioShort = false then release t else t
    (s.sup.powered = false → s.sup.rstLow = false →
      exec .powerUp s = .next (release { s with sup := { s.sup with powered := true, io33 := false, core := false, ioShort := false } })) ∧
    (s.sup.powered = true → exec .powerUp s = .next s) ∧
    (s.sup.rstLow = false → exec .rstNAssert s =
      .next (({ s with sup := { s.sup with rstLow := true } }).rtcReason RTC_WREASON_RESET).coldReset) ∧
    (s.sup.rstLow = true →
      (s.sup.powered = true → s.sup.core = false → s.sup.ioShort = false → exec .rstNRelease s = .next (release high)) ∧
      (s.sup.powered = false ∨ s.sup.core = true ∨ s.sup.ioShort = true → exec .rstNRelease s = .next high)) ∧
    (s.sup.powered = true →
      exec (.supplyReset true) s = .next ((lost s).set SUP_RAIL_PRES 0x3E) ∧
      exec (.supplyReset false) s = .next (lost locked) ∧
      ∀ rail : Fin 6, exec (.railAbsent rail) s = .next ((lost s).set SUP_RAIL_PRES (0x3F - 2 ^ rail.val))) ∧
    (s.sup.powered = false →
      exec (.supplyReset true) s = .next s ∧ exec (.supplyReset false) s = .next locked ∧
      ∀ rail : Fin 6, exec (.railAbsent rail) s = .next s) ∧
    (∀ (core : Bool) (level : Nat), s.sup.powered = false ∨ s.sup.rstLow = true ∨ s.cus.phase = .off →
      let still := { s with sup := { s.sup with pfw := false, io33 := false, core := false, ioShort := false } }
      exec .pfwN s = .next { s with sup := { s.sup with pfw := true } } ∧
      exec (.supplyWarning core level) s = .next (if core then { s with sup := { s.sup with core := true } }
        else free { s with sup := { s.sup with io33 := true, ioShort := decide (level < 295) } }) ∧
      exec .warningEnd s = .next (free still))

/-- R313–R315, R323: warnings and temperature. Where SUP_MIN begins anew (log entry 36), the end of a hot episode (log entry
67) and what a warning's end puts back (log entry 68) are the model's choices. -/
def Obligations.SupplyWarnings : Prop :=
  ∀ (level : Nat) (q : Int) (s : State),
    (s.sup.powered = true → s.sup.rstLow = false → s.cus.phase ≠ .off →
      (let t := ({ s with sup := { s.sup with pfw := true, cPfw := true } } : State)
       exec .pfwN s = .next (((t.set SUP_STAT_PFW 1).set SUP_STAT_PFWSEEN 1).warned)) ∧
      (let t := ({ s with sup := { s.sup with core := true, cCore := true } } : State)
       let t := if t.on SUP_STAT_BRACE then t.lowest SUP_MIN_CORE level else t.set SUP_MIN_CORE (min level 1023)
       exec (.supplyWarning true level) s = .next (t.clrF SUP_RAIL_PRES 1).warned) ∧
      (let t := ({ s with sup := { s.sup with io33 := true, cIo33 := true, ioShort := decide (level < 295) } } : State)
       let t := if t.on SUP_STAT_BRACE then t.lowest SUP_MIN_IO33 level else t.set SUP_MIN_IO33 (min level 1023)
       exec (.supplyWarning false level) s = .next t.warned) ∧
      (s.on SUP_STAT_WARN = false → exec .warningEnd s = .next s)) ∧
    (s.sup.powered = true → s.sup.rstLow = false → s.cus.phase ≠ .off → s.on SUP_STAT_WARN = true →
      exec .warningEnd s = .next
      (let t := ({ s with sup := { s.sup with pfw := false, io33 := false, core := false, ioShort := false,
                                              stableAt := some s.tim.up, warnEnd := s.tim.up } } : State)
       (((t.set SUP_STAT_WARN 0).set SUP_STAT_PFW 0).orF SUP_RAIL_PRES 1).set SUP_LASTW_SEC 0)) ∧
    exec (.tempMeasure q) s = .next
      (let hot := decide (420 < q)
       let t := ((s.set SUP_TEMP_VALID 1).setI SUP_TEMP_DEGQ (satI 12 q)).setB SUP_STAT_HOT hot
       let t := if hot && !t.sup.hotEp then
           (({ t with sup := { t.sup with hotEp := true, hotMax := q } } : State).set SUP_STAT_HOTEP 1).orF SUP_IRQ_IRQ 4
         else t
       let t := { t with sup := { t.sup with hotMax := max t.sup.hotMax q } }
       if 400 < q then { t with sup := { t.sup with hotAt := t.tim.up } } else t) ∧
    (s.sup.hotEp = true → s.reached s.sup.hotAt 60000000000 = true → exec .hotEpisodeEnd s = .next
      (({ s with sup := { s.sup with hotEp := false } }).note 0x0103 0x05 2 (uns 12 (satI 12 s.sup.hotMax))))

/-- R316–R319: BRACE and the way out of it. The order of the steps at one instant, the spans of stability (log entry 67) and
what a start that waited does again (log entries 57 and 68) are the model's choices. -/
def Obligations.BraceSteps : Prop :=
  ∀ (s : State),
    (s.on SUP_STAT_WARN = true → s.on SUP_STAT_BRACE = false → exec .brace s = .next s.dspFlush.braceBegin) ∧
    (s.on SUP_STAT_WARN = true → s.on SUP_STAT_BRACE = false → s.braceBegin =
      (let t := (s.set SUP_STAT_BRACE 1).set SUP_STAT_LONG 0
       let t := if t.sup.cIo33 then t else t.set SUP_MIN_IO33 1023
       let t := if t.sup.cCore then t else t.set SUP_MIN_CORE 1023
       let t := ({ t with sup := { t.sup with braceAt := t.tim.up } }).braceCauses
       let t := t.umbBrace.mordantAbandon
       let t := t.each 1024 fun e t => if (t.eng e).tokens = 0 then t.migAbort e else t.engCancel e
       let t := t.snapBrace
       let t := t.each 16 fun d t => t.dspStop d
       let t := { t with sup := { t.sup with arrayOff := true } }
       (t.set SUP_STAT_SETTLED 1).burstMiss.startBrace)) ∧
    (s.on SUP_STAT_BRACE = true → s.on SUP_STAT_WARN = false → ∀ a, s.sup.stableAt = some a →
      (s.on SUP_STAT_LONG = false → s.reached a 10000000 = true → exec .braceEndShort s = .next (s.braceOver false)) ∧
      (s.on SUP_STAT_LONG = true → s.reached a 2000000000 = true → exec .braceEndLong s = .next (s.braceOver true))) ∧
    (∀ long, s.braceOver long =
      (let t := s.braceCauses.set SUP_DUR_MS (satN 32 ((s.tim.up - s.sup.braceAt) / 1000000))
       let t := ((((t.set SUP_STAT_BRACE 0).set SUP_STAT_SETTLED 0).set SUP_STAT_LONG 0).set UMB_STAT_LOCKED 0).umbFlush 300
       let t := { t with sup := { t.sup with arrayOff := false, cPfw := false, cIo33 := false, cCore := false } }
       let t := if t.itg.relocSet then t.relocStore else t
       let t := if t.itg.relocClr then
           ({ t with itg := { t.itg with relocClr := false } } : State).itgUnlatch ITG_LATCH_RELOC false
         else t
       let t := t.each 16 fun c t => t.setClu c { t.clu c with restarts := (t.clu c).restarts + 1 }
       let t := (t.each 16 fun d t => t.dspGo d).chansRestart.wakeWaiting
       let t := if long then
           (((t.incSat SUP_BRCNT_LONG).braceNote 0x0102 3).set SUP_STAT_LONGSAG 1).orF SUP_IRQ_IRQ 2
         else (((t.incSat SUP_BRCNT_SHORT).braceNote 0x0101 2).set SUP_STAT_SAGREC 1).orF SUP_IRQ_IRQ 1
       t.startResume))

/-- R325, R327, R329, R331–R333, R335–R337, R340, R428, R439: the umber controller. What the scan counts as damaged, when a
SUMMARY and an MSNAP are due and the order of a snapshot (log entry 37), and what becomes of a slot whose words are found
damaged before its commit ends (log entry 68), are the model's choices. -/
def Obligations.UmberCommits : Prop :=
  ∀ (m : Master) (w : Word) (ms : Nat) (s : State),
    (Writes (.umbCmdGo m w) m 0x40300058 w s fun t => if bit w.toNat 31 then t.umbGo (bit w.toNat 30) else t) ∧
    (Writes (.umbCfgw m w) m 0x4030005C w s fun t =>
      let p := bits w.toNat 31 20
      let i := bits w.toNat 19 9
      let n := bits w.toNat 6 0
      ((t.set UMB_CFG_SUMP (if 1 ≤ p ∧ p ≤ 3600 then p else 60)).set UMB_CFG_SNAPI (if i ≤ 1440 then i else 60)).set
        UMB_CFG_SNAPMAX (if 1 ≤ n ∧ n ≤ 64 then n else 32)) ∧
    (∀ areaS, s.on UMB_STAT_BUSY = true ∨ s.on UMB_STAT_READY = false ∨ s.on UMB_STAT_LOCKED = true → s.umbGo areaS = s) ∧
    (∀ areaS, s.on UMB_STAT_BUSY = false → s.on UMB_STAT_READY = true → s.on UMB_STAT_LOCKED = false →
      let n := s.get UMB_FZ_SNEXT
      let f := s.get UMB_FZ_FNEXT
      let v := (s.set UMB_FZ_SNEXT (s.firstBlank (512 - n) n)).set UMB_FZ_FNEXT (s.firstBlank (4096 - f) f)
      let v := (v.setB UMB_STAT_SFULL (v.get UMB_FZ_SNEXT == 512)).setB UMB_STAT_FFULL (v.get UMB_FZ_FNEXT == 4096)
      let t := (v.umbTake areaS).1
      let e := (v.umbTake areaS).2
      let k := if e.areaS && decide (t.get UMB_FZ_SNEXT < 512) then t.get UMB_FZ_SNEXT
        else if t.get UMB_FZ_FNEXT < 4096 then t.get UMB_FZ_FNEXT else t.get UMB_WP_SLOT
      let q := t.get2 UMB_NEXT_L_SEQ UMB_NEXT_H_SEQ
      let t := if 4096 ≤ k ∧ t.slotCounted k then t.umbLose k else t
      let b := entryBody e ++ leBytes 2 (crc16 (leBytes 8 q ++ entryBody e))
      let a := 0x90000000 + k * 32
      let t := ((t.mramWord (a + 8) (b.take 8)).mramWord (a + 16) (sliceN b 8 8)).mramWord (a + 24) (sliceN b 16 8)
      s.umbGo areaS = { t with umb := { t.umb with commit := some { slot := k, seq := q, e := e } } }.set UMB_STAT_BUSY 1) ∧
    (s.umb.commit = none → exec .umberCommitDone s = .next s) ∧
    (∀ c, s.umb.commit = some c → exec .umberCommitDone s = .next
      (let t := s.mramWord (slotAddr c.slot) (leBytes 8 c.seq)
       let dam := t.umb.bad.contains c.slot && (List.range 3).any fun i => t.eccOf .mram (slotAddr c.slot + 8 + 8 * i) == some true
       let t := { t with
         umb := { t.umb with
           commit := none, bad := if dam then t.umb.bad else t.umb.bad.filter (· ≠ c.slot),
           first := if c.slot < 4096 && !dam then t.umb.first + 1 else t.umb.first,
           newest := if dam then t.umb.newest else some (c.seq, c.e.time, c.e.typ, c.e.sev) },
         net := { t.net with umbNew := t.net.umbNew + 1, umbSev := max t.net.umbSev (c.e.sev % 8) } }
       let t := ((t.set UMB_STAT_BUSY 0).set UMB_LAST_SLOT c.slot).set2 UMB_NEXT_L_SEQ UMB_NEXT_H_SEQ (c.seq + 1)
       let t : State := if c.slot < 512 then t.set UMB_FZ_SNEXT (t.firstBlank (511 - c.slot) (c.slot + 1))
         else if c.slot < 4096 then t.set UMB_FZ_FNEXT (t.firstBlank (4095 - c.slot) (c.slot + 1))
         else if dam then t.set UMB_WP_SLOT (ringNext c.slot)
         else
           let t : State := if t.get UMB_VALID_COUNT = 0 then t.set2 UMB_OLD_L_SEQ UMB_OLD_H_SEQ c.seq else t
           ((t.inc UMB_VALID_COUNT).dec UMB_FREE_COUNT).set UMB_WP_SLOT (ringNext c.slot)
       let t := if t.get UMB_VALID_COUNT = 0 then t.set2 UMB_OLD_L_SEQ UMB_OLD_H_SEQ (c.seq + 1) else t
       (t.umbFull).umbWrapped)) ∧
    (regsRise s = true → s.get UMB_VALID_COUNT + s.get UMB_FREE_COUNT = 126976 →
      (0 < s.get UMB_FREE_COUNT →
        ∃ t, exec .umberCommitDone s = .next t ∧ t.get UMB_VALID_COUNT + t.get UMB_FREE_COUNT = 126976) ∧
      (∀ k, 4096 ≤ k → s.slotCounted k = true →
        (s.umbLose k).get UMB_VALID_COUNT + (s.umbLose k).get UMB_FREE_COUNT = 126976)) ∧
    (s.on UMB_STAT_READY = true → exec (.ready ms) s = .next s) ∧
    (s.cus.testEn = true → exec (.ready ms) s = .next s) ∧
    (s.on UMB_STAT_READY = false → s.cus.testEn = false → exec (.ready ms) s = .next
      (let t := (s.umbScan.set UMB_STAT_READY 1).eccEach (s.eccIn 0x90000000 0x400000)
       t.enqueueFront {
         time := tv64 t.now, typ := 0x0004, src := 0x00, sev := t.quality * 64 + 1,
         pay := t.get UMB_DAMAGED_COUNT * 2 ^ 48 + t.get UMB_VALID_COUNT * 2 ^ 31 + min ms 65535 })) ∧
    (∀ i : Nat, ((List.range 16).find? fun i => s.peek (0x80000600 + 16 * i + 15) 1 == s.umb.reqNext.getD 1 &&
        (List.range 4).all fun w => s.eccOf .nav (0x80000600 + 16 * i + 4 * w) != some true) = some i →
      let a := 0x80000600 + 16 * i
      let typ := s.peek a 2
      let t := if typ = 0x0006 then s.note typ 0x02 1 (s.peek (a + 4) 10)
        else if typ = 0x0007 then s.note typ 0x02 2 (s.peek (a + 4) 10)
        else if 0x0F00 ≤ typ ∧ typ ≤ 0x0FFF ∧ s.peek (a + 2) 1 ≤ 3 then s.note typ 0x02 (s.peek (a + 2) 1) (s.peek (a + 4) 10)
        else s.incSat UMB_NREF_COUNT
      exec .navRequestPoll s =
        .next ({ t with umb := { t.umb with reqNext := some ((s.umb.reqNext.getD 1 + 1) % 256) } }.navPoll 15)) ∧
    (let sec := tvSec s.now
     let p := max 1 (s.get UMB_CFG_SUMP)
     let due := s.umb.sumDue = true ∨ (s.umb.sumAt = none ∧ sec % p = 0) ∨ ∃ a, s.umb.sumAt = some a ∧ a < sec / p * p
     (¬ due → exec .summary s = .next s) ∧
     (due → s.softUnderWay = true → exec .summary s = .next { s with umb := { s.umb with sumDue := true } }) ∧
     (due → s.softUnderWay = false → exec .summary s = .next
       (let t := { s with umb := { s.umb with sumAt := some (sec / p * p), sumDue := false } }
        t.note 0x0001 0x01 0 (t.get ITG_STATE_STATE * 2 ^ 76 + t.get TIM_STAT_STATE * 2 ^ 74 +
          min t.nav.nsv 255 * 2 ^ 64 + t.get TIM_TERR_NS * 2 ^ 32 +
          uns 32 (clampI (-2147483647) 2147483647 t.nav.delta))))) ∧
    (let u := s.measNow
     (u.navOn = false → exec (.msnap ()) s = .next u) ∧
     (u.umb.snapDue = false → u.get UMB_CFG_SNAPI = 0 → exec (.msnap ()) s = .next u) ∧
     (u.umb.snapDue = true → u.umb.snap ≠ [] → u.navOn = true → exec (.msnap ()) s = .next
       { u with umb := { u.umb with snapDue := true, snapAt := some (tvSec u.now / 60) } }) ∧
     (u.umb.snapDue = true → u.umb.snap = [] → u.navOn = true →
      let leads := u.measEntries.filter fun e => bit e.flags.toNat 15 && !bit e.flags.toNat 6
      let p0 := match leads with
        | [] => 0
        | e :: r => r.foldl (fun m x => min m (pr01 x)) (pr01 e)
      let some' := leads.take (u.get UMB_CFG_SNAPMAX)
      let mk := fun t p => ({ time := tv64 u.now, typ := t, src := 0x01, sev := u.quality * 64, pay := p } : UEntry)
      let hd := mk 0x0002 (some'.length * 2 ^ 72 + p0 % 2 ^ 32 * 2 ^ 40 +
        uns 32 (clampI (-2147483647) 2147483647 u.nav.delta) * 2 ^ 8 + u.get ITG_STATE_STATE * 2 ^ 4 +
        b2n (u.nav.posMode == 1) * 8 + b2n u.nav.solved * 4)
      exec (.msnap ()) s = .next (({ u with umb := { u.umb with
        snapDue := false, snapAt := some (tvSec u.now / 60), snap := some'.map fun e => mk 0x0003 (msnapC p0 e) } } :
          State).enqueue hd)))

/-- R348–R351, R358: the walk. That a row of another operation changes nothing, the causes of a CHECK beyond the image and the
records partly outside the processing domains are the model's choices (log entry 39). -/
def Obligations.WalkRecords : Prop :=
  ∀ (s : State) (ws : List Nat) (code : Nat),
    let w := s.cus.walk
    let ofs := recordOfs w.pos
    let fail := fun (c : Nat) => Host.Outcome.next (σ := State) (φ := Fault) (ρ := Refusal) (s.walkFault c ofs)
    let a := ws.getD 1 0
    let go := fun (t : State) (n : Nat) (done : Bool) =>
      let t := { t with cus := { t.cus with walk := { t.cus.walk with pos := t.cus.walk.pos + n, waiting := false } } }
      Host.Outcome.next (σ := State) (φ := Fault) (ρ := Refusal) (if done then t.inc CFL_RECS_COUNT else t)
    let writes := fun (n a len : Nat) (l : List (Nat × Nat)) =>
      let todo := if w.soft then l.filter fun e => procTarget e.1 else l
      if !rangeAllowed a len then fail 0x05
      else if todo.isEmpty then go s n false
      else if (s.walkPut todo).2 then go (s.walkPut todo).1 n true
      else .next ((s.walkPut todo).1.walkFail 0x06)
    (s.cus.phase ≠ .walk → ∀ c ∈ [Instr.walkWr32, .walkFill, .walkLoad, .walkWait, .walkCheck, .walkEnd, .walkWaitExpiry,
      .walkTimeout], exec c s = .next s) ∧
    (s.cus.phase = .walk → exec .walkTimeout s = fail 0x0A) ∧
    (s.cus.phase = .walk → w.waiting = true → exec .walkWaitExpiry s = if w.polls then fail 0x07 else go s 4 true) ∧
    (s.cus.phase = .walk → w.waiting = false →
      (s.walkRecord = .error code → ∀ c ∈ [Instr.walkWr32, .walkFill, .walkLoad, .walkWait, .walkCheck, .walkEnd],
        exec c s = fail code) ∧
      (∀ op, s.walkRecord = .ok (op, ws) →
        ∀ p ∈ [(WalkOp.wr32, Instr.walkWr32), (.fill, .walkFill), (.load, .walkLoad), (.wait, .walkWait), (.check, .walkCheck),
          (.stop, .walkEnd)], p.1 ≠ op → exec p.2 s = .next s) ∧
      (s.walkRecord = .ok (.wr32, ws) → exec .walkWr32 s =
        if a % 4 ≠ 0 then fail 0x04 else writes 3 a 4 [(a, ws.getD 2 0)]) ∧
      (s.walkRecord = .ok (.fill, ws) → exec .walkFill s =
        if !goodRange a (ws.getD 2 0) then fail 0x04
        else writes 4 a (ws.getD 2 0) ((wordRange a (ws.getD 2 0)).map fun x => (x, ws.getD 3 0))) ∧
      (s.walkRecord = .ok (.load, ws) → exec .walkLoad s =
        let o := ws.getD 2 0
        let len := ws.getD 3 0
        if !goodRange a len then fail 0x04
        else if o < w.rblk * 4096 ∨ w.len < o + len then fail 0x09
        else if !s.imageSound w.mirror o len then fail 0x0B
        else writes 4 a len ((wordRange a len).map fun x => (x, leNat (s.imageBytes w.mirror (o + (x - a)) 4)))) ∧
      (s.walkRecord = .ok (.wait, ws) →
        let mask := ws.getD 2 0
        (ws.getD 0 0 % 2 ^ 24 = 0 ∨ a % 4 ≠ 0 → exec .walkWait s = fail 0x04) ∧
        (ws.getD 0 0 % 2 ^ 24 ≠ 0 → a % 4 = 0 → mask ≠ 0 → recordForbidden a = true → exec .walkWait s = fail 0x05) ∧
        (ws.getD 0 0 % 2 ^ 24 ≠ 0 → a % 4 = 0 → mask = 0 ∨ recordForbidden a = false →
          (w.soft = true → exec .walkWait s = go s 4 false) ∧
          (w.soft = false → mask = 0 → exec .walkWait s =
            .next { s with cus := { s.cus with walk := { w with waiting := true, polls := false } } }) ∧
          (∀ t v, w.soft = false → mask ≠ 0 → s.busRead .loader a 4 = (t, some v) → exec .walkWait s =
            if v &&& mask = ws.getD 3 0 then go t 4 true
            else .next { t with cus := { t.cus with walk := { t.cus.walk with waiting := true, polls := true } } }))) ∧
      (s.walkRecord = .ok (.check, ws) →
        ∀ t, (∀ bs, s.walkRange (bit (ws.getD 0 0) 0) a (ws.getD 2 0) = (t, .ok bs) → exec .walkCheck s =
            if sha256 bs = (ws.drop 3).flatMap (leBytes 4) then go t 11 true
            else .next (t.walkFail 0x08)) ∧
          (∀ c, s.walkRange (bit (ws.getD 0 0) 0) a (ws.getD 2 0) = (t, .error c) →
            exec .walkCheck s = .next (t.walkFail c))) ∧
      (s.walkRecord = .ok (.stop, ws) → exec .walkEnd s = .next
        (let t := (s.set CFL_STAT_STATE 4).set CFL_TIME_MS (satN 16 ((s.tim.up - w.at_) / 1000000))
         let t := t.each 8 fun i t => t.set (CFL_DIG_DIG i) (w.digest / 2 ^ (32 * (7 - i)))
         let t := { t with cus := { t.cus with walk := { w with clean := !w.mirror, waiting := false } } }
         t.arrayRelease.mirrorBegin.attnUpdate)))

/-- R30, R345, R347, R352, R354, R357, R359, R428: starts. That a start runs in one command up to the walk (log entry 38), what
a ROM digest that fails leaves at a soft start (log entry 57), and that the watchdog reaches its limit once after each kick
(log entry 68) are the model's choices. -/
def Obligations.Starts : Prop :=
  ∀ (x : ColdIn) (y : SoftIn) (m : Master) (v : Word) (s : State),
    let dead := fun (t : State) =>
      let t := (t.each 2 fun n t => if (t.tp n).pin = false then t
        else (t.setTp n { t.tp n with pin := false }).emit (.tp n false)).walkReset
      Host.Outcome.next (σ := State) (φ := Fault) (ρ := Refusal)
        ({ t with cus := { t.cus with phase := .dead }, itg := { t.itg with below := true }, tps := [] }).attnUpdate
    let unread := fun (t : State) (soft : Bool) =>
      ({ t with cus := { t.cus with walk := { soft := soft, keepMirror := t.cus.walk.keepMirror } },
                svc := { t.svc with jrnl := {} } } : State).walkFault 0x01 0
    let s1 := s.rtcAdvance x.edges
    let s2 := { s1 with cus := { s1.cus with mib := x.mib, blankOk := x.blankOk, copyFail := x.copyFail,
                                             copyAgain := x.copyAgain, testEn := x.testEn },
                        svc := { s1.svc with rxOn := true } }
    let s3 := s2.cusRead.mramRead 0x90708000 20
    (s.cus.phase ≠ .released → exec (.coldStart x) s = .next s) ∧
    (s.cus.phase = .released →
      (x.romOk = false → exec (.coldStart x) s = dead s2) ∧
      (x.romOk = true → s3.idOk = false ∨ x.testEn = true → exec (.coldStart x) s = dead s3) ∧
      (x.romOk = true → s3.idOk = true → x.testEn = false →
        let t := s3.identity.beforeLock
        let t := (if t.cus.rec_.reloc then t.set ITG_LATCH_RELOC 1 else t).backoff.aonNotes.rfiClassify x.rfi
        (t.cus.phase ≠ .pllA → exec (.coldStart x) s = .next t) ∧
        (t.cus.phase = .pllA → x.pllA = false → exec (.coldStart x) s = .next (t.refFail .pllA)) ∧
        (t.cus.phase = .pllA → x.pllA = true → exec (.coldStart x) s = .next t.refOk.pllStartAll.startContinue))) ∧
    (s.on SUP_STAT_BRACE = false →
      let t := (if s.cus.aonDue then s.aonNotes else s).mordantRead.timeLoad
      let u := (t.set CFL_FLASH_MIB (satN 8 t.cus.mib)).set CFL_STAT_STATE 1
      s.startContinue = if u.cus.mib = 32 ∨ u.cus.mib = 64 ∨ u.cus.mib = 128 then
          u.jrnlRecover.activationCold.attnUpdate.walkActive false
        else unread u false) ∧
    (s.sup.softDue = 0 ∨ (s.cus.phase ≠ .run ∧ s.cus.phase ≠ .minimum) ∨ s.on SUP_STAT_BRACE = true →
      exec (.softStart y) s = .next s) ∧
    (s.sup.softDue ≠ 0 → s.cus.phase = .run → s.on SUP_STAT_BRACE = false →
      let t := s.rtcAdvance y.edges
      let t := { t with cus := { t.cus with
        mib := y.mib, blankOk := y.blankOk, copyFail := y.copyFail, copyAgain := y.copyAgain,
        nwdog := if bit t.sup.softDue 2 then t.tim.up :: t.cus.nwdog else t.cus.nwdog } }
      (y.romOk = false → exec (.softStart y) s =
        dead (((t.sessClose 3).jrnlRun).itgHoldover.umbFlush 300).procReset.custClear) ∧
      (y.romOk = true → exec (.softStart y) s = .next (t.softBegin t.sup.softDue))) ∧
    (∀ t : State, t.custClear =
      { t.wipeCust with umb := { t.umb with queue := [], lost := 0, snap := [], snapOn := false } }) ∧
    (∀ cause, let t := ((s.sessClose 3).jrnlRun.itgHoldover.umbFlush 300).procReset.custClear
      let t := { t with fecs := [0, 1, 2, 3].foldl (fun u b => tblSet u b { tblGet u {} b with hold := true }) t.fecs }
      let late := (t.cus.nwdog.filter fun a => decide (t.tim.up < a + 3600 * 10 ^ 9)).length
      let keep := t.cus.walk.keepMirror || (bit cause 2 && late == 3)
      let c := t.cus
      let t := ({ t with
          cus := { rec_ := c.rec_, copyB := c.copyB, nwdog := c.nwdog, mib := c.mib, blankOk := c.blankOk,
                   copyFail := c.copyFail, copyAgain := c.copyAgain, nwDone := c.nwDone, reasonDone := c.reasonDone,
                   lockFails := c.lockFails, walk := { c.walk with keepMirror := keep } },
          sup := { t.sup with softDue := 0 } }).svcRestart.cusRead
      let t := ((((t.set SYS_START_TYPE 1).set SYS_START_CAUSE cause).incSat SYS_START_SOFTCNT).backoff.note 0x0504 0x01 1
        (cause * 2 ^ 72)).aonFlags
      let t := (t.set CFL_FLASH_MIB (satN 8 t.cus.mib)).set CFL_STAT_STATE 1
      let known := t.cus.mib == 32 || t.cus.mib == 64 || t.cus.mib == 128
      let t := if known then t.jrnlRecover else t
      let t := (if known && bit cause 0 then t.activation else t).attnUpdate
      s.softBegin cause = if s.cus.phase == .minimum then t.minimumStay
        else if bit cause 2 && decide (4 ≤ late) then t.minimumFall true
        else if !known then unread t true
        else if keep then t.walkMirror true else t.walkActive true) ∧
    (∀ soft, s.minimumFall soft =
      (let t := if soft then s.telMinimum.procReset.each 8 fun p t => t.linkDown p else s.walkReset
       (t.tpMinimum.itgMinimum.ckoShowAll.each 2 fun n t => t.tpRest n).minimumStay)) ∧
    (s.cus.walk.rewrite = false ∨ s.on SUP_STAT_BRACE = true → exec .mirrorRewriteDone s = .next s) ∧
    (s.cus.walk.rewrite = true → s.on SUP_STAT_BRACE = false →
      let w := s.cus.walk
      let t := (s.each (w.len / 8) fun i t => t.clrEcc .mram (0x90500000 + 8 * i)).pokes 0x90500000
        ((s.each (w.len / 8) fun i t => t.clrEcc .mram (0x90500000 + 8 * i)).imageBytes false 0 w.len)
      let t := { t with cus := { t.cus with walk := { w with rewrite := false } } }
      exec .mirrorRewriteDone s = .next
        (((t.cusStore { t.cus.rec_ with mlen := w.len, mdig := w.digest, mirv := true }).set CFL_STAT_MIRWR 0).sdigUpdate)) ∧
    (s.on SYS_NWDOG_EN = true → s.cus.phase = .run ∨ (s.cus.phase = .walk ∧ s.cus.walk.soft = false) →
      s.cus.nwDone = false → max 1 (s.get SYS_NWDOG_LIMIT) ≤ s.get SYS_NWCNT_COUNT →
      exec .navWatchdogExpiry s = .next ({ s with cus := { s.cus with nwDone := true } }.softCause 2)) ∧
    (s.on SYS_NWDOG_EN = false ∨ s.cus.nwDone = true ∨ s.get SYS_NWCNT_COUNT < max 1 (s.get SYS_NWDOG_LIMIT) →
      exec .navWatchdogExpiry s = .next s) ∧
    (Writes (.navWdogKick m v) m 0x40000020 v s fun t =>
      if bit v.toNat 30 then
        let u := t.set SYS_NWCNT_COUNT 0
        { u with cus := { u.cus with nwDone := false } }
      else t)

/-- R21, R345, R360, R364, R365. That a change of no field writes nothing is the model's choice (log entry 38), as are the
instants of the device between which a time-out is counted, the one on its end included (log entry 67). -/
def Obligations.CustodyTimes : Prop :=
  ∀ (m : Master) (s : State),
    (∀ r : CustodyRec, { r with gen := s.cus.rec_.gen } = s.cus.rec_ →
      s.cusStore r = s.cusRegs ∧ (s.cusStore r).mem = s.mem ∧ (s.cusStore r).cus = s.cus) ∧
    (∀ r : CustodyRec, { r with gen := s.cus.rec_.gen } ≠ s.cus.rec_ →
      let b := !s.cus.copyB
      let r' := { r with gen := s.cus.rec_.gen + 1 }
      let a := custodyAddr b
      let t := s.each 32 fun i t => t.clrEcc .mram (a + 8 * i)
      let u := t.pokes a (r'.body ++ leBytes 4 (crc32 r'.body))
      s.cusStore r = ({ u with cus := { t.cus with rec_ := r', copyB := b } }).cusRegs) ∧
    let halfHour := s.reached s.cus.cmdAt (1800 * 10 ^ 9)
    (s.svcBusy = true ∨ s.cus.reopened = false ∨ halfHour = false → exec .sessionIdleTimeout s = .next s) ∧
    (s.svcBusy = false → s.cus.reopened = true → halfHour = true → exec .sessionIdleTimeout s = .next
      (let t := s.note 0x0707 0x0A 1 (1 * 2 ^ 78 + s.cus.rec_.ctr % 2 ^ 32)
       ((({ t with cus := { t.cus with reopened := false, firstSession := false } }).set CUS_IDLE_S 0).cusRegs).attnUpdate)) ∧
    (exec .challengeExpiry s = .next
      (if s.reached s.cus.chalAt (60 * 10 ^ 9) then ({ s with cus := { s.cus with chal := none } } : State).cusRegs else s)) ∧
    (let counted := (s.cus.waitEdges * 10 ^ 9 + (s.cus.waitNs + 1000000) * 32768) / (32768 * 10 ^ 9)
     exec .backoffExpiry s = .next
      (if counted < backoffS s.cus.rec_.fail then s else (s.set CUS_STAT_BACKOFF 0).set CUS_BOFF_S 0)) ∧
    (∀ (k : MemClass) (a : Nat) (size : AccSize) (w : Word) (up : Option Upset), memClass a = some k →
      k.takes a (AccSize.bytes size) = true →
      let v := s.upsetAt a up
      let u := v.memSettle k
      let n := AccSize.bytes size
      let c := match k with
        | .snap => 0 | .cluster _ => 1 | .dsp _ _ => 2 | .nav => 3 | .cust => 4 | .eth => 5 | .mram => 6
        | .sched => Config.schedMemCode.toNat
      let src := match k with
        | .cluster i => 0x10 + i | .dsp i _ => 0x20 + i | .nav => 2 | .eth => 8 | .sched => 9 | _ => 1
      let double := (if k = .mram then u.umbDamage a else u).note 0x0501 src 3 (c * 2 ^ 72 + a % 2 ^ 32)
      let put := fun t : State => (t.poke a n (w.toNat % 2 ^ (8 * n))).dspSteps
      (v.busAllowed m a false = true →
        (u.eccOf k a = none → exec (.protectedMemoryAccess m a size none up) s = .next u) ∧
        (u.eccOf k a = some false →
          exec (.protectedMemoryAccess m a size none up) s = .next (u.incSat SYS_ECC_CNT_COUNT)) ∧
        (u.eccOf k a = some true →
          exec (.protectedMemoryAccess m a size none up) s = .next (double.busError m a false))) ∧
      (v.busAllowed m a true = true → v.memWritable k a = true →
        (k.unit ≤ n → exec (.protectedMemoryAccess m a size (some w) up) s = .next (put (u.clrEcc k a))) ∧
        (n < k.unit → u.eccOf k a = none →
          exec (.protectedMemoryAccess m a size (some w) up) s = .next (put u)) ∧
        (n < k.unit → u.eccOf k a = some false →
          exec (.protectedMemoryAccess m a size (some w) up) s = .next (put ((u.incSat SYS_ECC_CNT_COUNT).clrEcc k a))) ∧
        (n < k.unit → u.eccOf k a = some true →
          exec (.protectedMemoryAccess m a size (some w) up) s = .next (double.busError m a true))) ∧
      (v.busAllowed m a true = false ∨ v.memWritable k a = false →
        exec (.protectedMemoryAccess m a size (some w) up) s = .next (v.busError m a true)) ∧
      (v.busAllowed m a false = false →
        exec (.protectedMemoryAccess m a size none up) s = .next (v.busError m a false)))

/-- R370–R375, R439: the link and its window. Log entry 48: frames other than `HELLO` on a link that is down are discarded unseen. -/
def Obligations.ServiceLink : Prop :=
  ∀ (bs : List Byte) (f : SvcFrame) (s : State),
    let down := fun (t : State) =>
      ((((t.sessClose 2).svcClear.svcLink 0).set SVC_BAUD_BAUD 115200).incSat SVC_CNT_DOWN_COUNT).attnUpdate
    let e := s.get SVC_SEQ_RXEXP
    let back := (e + 65536 - f.seq) % 65536
    let owing := { s with svc := { s.svc with ackDue := true } }
    let ackNow := fun (t : State) => if f.poll then t.svcAck else t
    (s.svcAlive = false → ∀ c ∈ [Instr.svcFrameRx bs, .svcAckFrame bs, .svcAckDelay, .svcRetransmit, .svcRateTimeout],
      exec c s = .next s) ∧
    (s.svcAlive = true →
      (bs ≠ [] → svcDecode bs = none → exec (.svcFrameRx bs) s = .next (s.incSat SVC_CNT_ERR_COUNT)) ∧
      (bs ≠ [] → svcDecode bs = some f → s.svc.probing = false →
        (f.typ = 1 → exec (.svcFrameRx bs) s = .next
          (let t := (((s.sessClose 0).svcClear).svcLink 1).set SVC_SEQ_RXEXP 1
           ackNow { t with svc := { t.svc with cmds := [(1, f.seq, f.payload)], ackDue := true } }).attnUpdate) ∧
        (f.typ ≠ 1 → s.get SVC_STAT_LINK = 0 → exec (.svcFrameRx bs) s = .next s.attnUpdate) ∧
        (f.typ ≠ 1 → f.typ ≠ 0 → s.get SVC_STAT_LINK ≠ 0 →
          (back = 0 → exec (.svcFrameRx bs) s = .next (ackNow
            (let t := ({ s with svc := { s.svc with cmds := s.svc.cmds ++ [(f.typ, f.seq, f.payload)] } }).set
                SVC_SEQ_RXEXP (e + 1)
             ({ t with svc := { t.svc with ackDue := true } }).svcAckIn f.ack)).attnUpdate) ∧
          (0 < back → back ≤ 8 → exec (.svcFrameRx bs) s = .next (ackNow (owing.svcAckIn f.ack)).attnUpdate) ∧
          (8 < back → exec (.svcFrameRx bs) s = .next s.attnUpdate)) ∧
        (f.typ = 0 → s.get SVC_STAT_LINK ≠ 0 → exec (.svcAckFrame bs) s = .next (ackNow (s.svcAckIn f.ack)).attnUpdate)) ∧
      (exec .svcAckDelay s = .next (if s.svc.ackDue then s.svcSend 0 (s.get SVC_SEQ_TXSEQ) [] else s)) ∧
      (s.svc.unacked = [] → exec .svcRetransmit s = .next s) ∧
      (s.svc.unacked ≠ [] → s.svc.expiries < 25 → exec .svcRetransmit s = .next
        (s.svc.unacked.foldl (fun t x => (t.incSat SVC_CNT_RETX_COUNT).svcSend x.1 x.2.1 x.2.2)
          { s with svc := { s.svc with expiries := s.svc.expiries + 1 } })) ∧
      (s.svc.unacked ≠ [] → 25 ≤ s.svc.expiries → exec .svcRetransmit s = .next (down s)) ∧
      (exec .svcRateTimeout s = .next (if s.svc.probing then down s else s))) ∧
    (let balanced := fun t : State =>
       t.get SVC_STAT_INFLIGHT = t.svc.unacked.length ∧ t.get SVC_STAT_INFLIGHT + t.get SVC_STAT_WFREE = 8
     regsRise s = true →
       (balanced s → ∀ k, balanced (s.svcPump k)) ∧ balanced s.svcClear ∧
       (balanced s → s.svcAlive = true →
         ∃ t, exec .svcAckDelay s = .next t ∧ balanced t))

/-- R362, R376–R378: the checks in common. The order UNKNOWN, BADARG, CLASS, BRACE is log entry 49. -/
def Obligations.ServiceChecks : Prop :=
  ∀ (ok : Bool) (seq : Nat) (p : List Byte) (rest : List (Nat × Nat × List Byte)) (s : State),
    let t := svcBegun s rest
    let n := p.length
    let table : List (Instr × Nat × Bool × Bool × Bool) := [
      (.close, 0x02, decide (n = 0), false, false), (.authChallenge, 0x03, decide (n = 0), false, true),
      (.authResponse, 0x04, decide (n = 32), false, true),
      (.writeReg, 0x11, decide (n = 8 ∧ payN p 0 4 % 4 = 0), true, false),
      (.readUmber, 0x12, decide (n = 9 ∧ 1 ≤ payN p 8 1 ∧ payN p 8 1 ≤ 31), true, true),
      (.putObject ok, 0x20, decide (17 ≤ n ∧ n ≤ 784), true, true), (.queryObject, 0x21, decide (n = 12), true, false),
      (.abandonObject, 0x22, decide (n = 8), true, true), (.commitStaging ok, 0x23, decide (n = 8), true, true),
      (.activate, 0x24, decide (n = 8), true, true),
      (.sealPart, 0x30, decide (n = 36 ∧ payN p 32 1 ≤ 3 ∧ payN p 33 3 = 0), true, true),
      (.unsealPart, 0x31, decide (n = 0), true, true), (.clearFsw, 0x32, decide (n = 0), true, true),
      (.repairCluster, 0x40, decide (n = 2 ∧ payN p 0 1 < 16 ∧ payN p 1 1 ≤ 1), true, true),
      (.repairGroup, 0x41, decide (n = 2 ∧ payN p 0 1 < 4 ∧ payN p 1 1 ≤ 1), true, true),
      (.repairProc, 0x42, decide (n = 0), true, true)]
    (∀ e ∈ table, SvcReady s e.2.1 seq p rest →
      (e.2.2.1 = false → exec e.1 s = svcAnswer t e.2.1 seq 0x03 []) ∧
      (e.2.2.1 = true → e.2.2.2.1 = true → s.sealedNow = true → exec e.1 s = svcAnswer t e.2.1 seq 0x02 []) ∧
      (e.2.2.1 = true → (e.2.2.2.1 = true → s.sealedNow = false) → e.2.2.2.2 = true → s.on SUP_STAT_BRACE = true →
        exec e.1 s = svcAnswer t e.2.1 seq 0x05 [])) ∧
    (SvcReady s 0x01 seq p rest → n ≠ 12 → exec .hello s = svcAnswer t 0x01 seq 0x03 []) ∧
    (∀ code, SvcReady s code seq p rest → code ∉ svcCodes → exec .svcUnknownCommand s = svcAnswer t code seq 0x04 []) ∧
    (∀ c ∈ [Instr.svcUnknownCommand, .hello, .readReg] ++ table.map (fun e => e.1),
      (s.svc.cmds = [] ∨ s.svcAlive = false → exec c s = .next s) ∧
      (s.svcBusy = true → (∀ x ∈ s.svc.cmds, x.1 ≠ 1) → exec c s = .next s))

/-- R309, R360, R361, R364, R365, R373, R374, R377, R380, R381: sessions, custody and the record. The model's
choices: the fields of `HELLO-ACK` and when they are formed (log entry 42), the nonce, a free value (4), and the custody core's
write of `RTC_CTL`, which keeps its other fields and waits for the tick (35). -/
def Obligations.ServiceCustody : Prop :=
  ∀ (seq : Nat) (p : List Byte) (rest : List (Nat × Nat × List Byte)) (s : State),
    let t := svcBegun s rest
    let r := s.cus.rec_
    let open_ := s.sealedNow = false
    let calm := s.on SUP_STAT_BRACE = false
    let n := p.length
    (SvcReady s 0x01 seq p rest → n = 12 → payN p 0 1 = 1 → payN p 8 4 = 0 →
      let b := svcRate (t.aligned 0) (payN p 4 4)
      let fields := leBytes 1 1 ++ leBytes 1 0xB1 ++ leBytes 1 (t.get CUS_STAT_STATE) ++ leBytes 1 8 ++ leBytes 4 b ++
        leBytes 4 t.pcap ++ beBytes 16 t.part.ident ++ leBytes 2 1024
      let u := (t.set SVC_STAT_SESSION 1).orF SVC_IRQ_IRQ 2
      (b = u.get SVC_BAUD_BAUD → exec .hello s = svcAnswer u 0x01 seq 0 fields) ∧
      (b ≠ u.get SVC_BAUD_BAUD →
        exec .hello s = svcAnswer (({ u with svc := { u.svc with newBaud := some b } }).svcLink 2) 0x01 seq 0 fields)) ∧
    (SvcReady s 0x02 seq p rest → n = 0 →
      let u := t.runJournalled
      exec .close s = svcAnswer { u with svc := { u.svc with closeAt := some u.svcNextSeq } } 0x02 seq 0 []) ∧
    (SvcReady s 0x03 seq p rest → n = 0 → calm →
      (r.sealed_ = false → exec .authChallenge s = svcAnswer t 0x03 seq 0x07 []) ∧
      (r.sealed_ = true → s.on CUS_STAT_BACKOFF = true →
        exec .authChallenge s = svcAnswer t 0x03 seq 0x08 (leBytes 2 (t.get CUS_BOFF_S))) ∧
      (r.sealed_ = true → s.on CUS_STAT_BACKOFF = false →
        let u := t.cusStore { r with ctr := r.ctr + 1 }
        let v := (u.draw (2 ^ 128)).1
        let nonce := (u.draw (2 ^ 128)).2
        let w := ({ v with cus := { v.cus with chal := some nonce, chalAt := v.tim.up } }).cusRegs
        exec .authChallenge s = svcAnswer w 0x03 seq 0 (beBytes 16 nonce ++ leBytes 8 w.cus.rec_.ctr))) ∧
    (SvcReady s 0x04 seq p rest → n = 32 → calm →
      (s.cus.chal = none → exec .authResponse s = svcAnswer t 0x04 seq 0x09 []) ∧
      (∀ nonce, s.cus.chal = some nonce →
        let u := { t with cus := { t.cus with chal := none } }
        let right := hmacSha256 (beBytes 32 r.key) (beBytes 16 nonce ++ beBytes 16 s.part.ident ++ beBytes 8 r.ctr)
        (s.cus.chalAt + 60 * 10 ^ 9 < s.tim.up → exec .authResponse s = svcAnswer t 0x04 seq 0x09 []) ∧
        (r.sealed_ = true → s.tim.up ≤ s.cus.chalAt + 60 * 10 ^ 9 → p = right →
          let v := u.cusStore { r with fail := 0 }
          exec .authResponse s = svcAnswer
            ((({ v with cus := { v.cus with reopened := true } }).cusRegs).backoff.noteAuth true) 0x04 seq 0 []) ∧
        (r.sealed_ = true → s.tim.up ≤ s.cus.chalAt + 60 * 10 ^ 9 → p ≠ right →
          exec .authResponse s = svcAnswer ((u.cusStore { r with fail := min 255 (r.fail + 1) }).backoff.noteAuth false)
            0x04 seq 0x0A []))) ∧
    (SvcReady s 0x30 seq p rest → n = 36 → payN p 32 1 ≤ 3 → payN p 33 3 = 0 → open_ → calm →
      let key := beNat (p.take 32)
      let pos := bit (payN p 32 1) 0
      let lock := bit (payN p 32 1) 1
      (key = 0 → exec .sealPart s = svcAnswer t 0x30 seq 0x0B []) ∧
      (key ≠ 0 → s.cus.walk.clean = false → exec .sealPart s = svcAnswer t 0x30 seq 0x0C []) ∧
      (key ≠ 0 → s.cus.walk.clean = true → pos = true → t.sealable = false →
        exec .sealPart s = svcAnswer t 0x30 seq 0x0D []) ∧
      (key ≠ 0 → s.cus.walk.clean = true → (pos = true → t.sealable = true) →
        let u := { t with cus := { t.cus with firstSession := s.cus.firstSession || !r.first, reopened := false } }
        let v := u.cusStore { r with
          sealed_ := true, posv := pos, ulock := lock, pendv := false, first := true, fail := 0, key := key,
          sdig := s.cus.walk.digest, spos := if pos then t.posInUse.getD (0, 0, 0) else (0, 0, 0) }
        let v := v.backoff.note 0x0704 0x01 1 (b2n pos * 2 ^ 79 + digest8 s.cus.walk.digest)
        let v := if s.cus.reopened then ({ v with cus := { v.cus with reopened := true } }).sessEnd 0 else v
        exec .sealPart s = svcAnswer v.winPermit 0x30 seq 0 (beBytes 32 v.winPermit.cus.rec_.sdig))) ∧
    (SvcReady s 0x31 seq p rest → n = 0 → open_ → calm →
      (r.sealed_ = false → exec .unsealPart s = svcAnswer t 0x31 seq 0 []) ∧
      (r.sealed_ = true →
        let u := { t with cus := { t.cus with reopened := false, chal := none } }
        let v := u.cusStore { r with sealed_ := false, posv := false, ulock := false, pendv := false, key := 0, sdig := 0,
                                     pdig := 0, spos := (0, 0, 0) }
        exec .unsealPart s = svcAnswer ((v.set CUS_IDLE_S 0).note 0x0705 0x01 1 (digest8 r.sdig)).winPermit 0x31 seq 0 [])) ∧
    (SvcReady s 0x32 seq p rest → n = 0 → open_ → calm →
      let held := s.get RTC_CTL_SYNCSET * 2 ^ 31 + s.get RTC_CTL_BOUND
      let word := ((s.rtc.todo.find? fun x : Nat × Nat × Bool => x.1 = 0x4002001C).map fun x => x.2.1).getD held ||| 2 ^ 30
      let u := { t with rtc := { t.rtc with todo := t.rtc.todo.filter (fun x : Nat × Nat × Bool => x.1 ≠ 0x4002001C) ++ [(0x4002001C, word, false)] } }
      exec .clearFsw s = svcAnswer (u.note 0x070A 0x0A 1 (s.get2 RTC_FSW_L_TICK RTC_FSW_H_TICK * 2 ^ 32)) 0x32 seq 0
      (leBytes 4 (s.get RTC_FSW_L_TICK) ++ leBytes 4 (s.get RTC_FSW_H_VALID * 2 ^ 31 + s.get RTC_FSW_H_TICK))) ∧
    (SvcReady s 0x12 seq p rest → n = 9 → 1 ≤ payN p 8 1 → payN p 8 1 ≤ 31 → open_ → calm →
      let first := payN p 0 8
      let k := payN p 8 1
      let u := (t.slotsIn first k).foldl (fun v i => v.slotTouch i) t
      let ks := (u.slotsIn first k).filter fun i => u.slotValid i
      exec .readUmber s = svcAnswer u 0x12 seq 0 (leBytes 8 first ++ leBytes 1 k ++ leBytes 3 0 ++
        leBytes 4 ((List.range k).foldl (fun m i => if ks.any fun j => u.slotSeq j == some (first + i) then m else m + 2 ^ i) 0) ++
        ks.flatMap fun i => u.bytesAt (slotAddr i) 32))

/-- R379 (the access rules are those of the bus for the master `svc`, R363): register commands. That a
count of 0 and an unaligned address are answered BADARG is the model's choice (log entry 42). -/
def Obligations.ServiceRegisters : Prop :=
  ∀ (seq : Nat) (p : List Byte) (rest : List (Nat × Nat × List Byte)) (s : State),
    let t := svcBegun s rest
    let a := payN p 0 4
    let n := payN p 4 1
    (SvcReady s 0x10 seq p rest → p.length ≠ 5 ∨ a % 4 ≠ 0 ∨ n = 0 → exec .readReg s = svcAnswer t 0x10 seq 0x03 []) ∧
    (SvcReady s 0x11 seq p rest → p.length ≠ 8 ∨ a % 4 ≠ 0 → exec .writeReg s = svcAnswer t 0x11 seq 0x03 []) ∧
    (SvcReady s 0x10 seq p rest → p.length = 5 → a % 4 = 0 → n ≠ 0 →
      s.sealedNow = false ∨ (∀ i < n, classQ (a + 4 * i) = true) →
      ∀ (st : Nat → State) (v : Nat → Nat), st 0 = t →
        ((∀ i < n, (st i).busRead .svc (a + 4 * i) 4 = (st (i + 1), some (v i))) →
          exec .readReg s = svcAnswer (st n) 0x10 seq 0 ((List.range n).flatMap fun i => leBytes 4 (v i))) ∧
        (∀ k < n, (∀ i < k, (st i).busRead .svc (a + 4 * i) 4 = (st (i + 1), some (v i))) →
          (st k).busRead .svc (a + 4 * k) 4 = (st (k + 1), none) →
          exec .readReg s = svcAnswer (st (k + 1)) 0x10 seq 0x01 [])) ∧
    (SvcReady s 0x11 seq p rest → p.length = 8 → a % 4 = 0 → s.sealedNow = false →
      let r := t.busWrite .svc a 4 (payN p 4 4)
      (r.2 = true → exec .writeReg s = svcAnswer r.1.dspSteps 0x11 seq 0 []) ∧
      (r.2 = false → exec .writeReg s = svcAnswer t 0x11 seq 0x01 []))

/-- R376, R390–R396: updates. The order of `PUT_OBJECT`'s refusals, that it takes its data when it ends, and the programs begun
that a BRACE lets complete (how many is free), are the model's choice (log entry 50), as is when the work on the flash is done (log entry 54). -/
def Obligations.ServiceUpdates : Prop :=
  ∀ (ok : Bool) (seq : Nat) (p : List Byte) (rest : List (Nat × Nat × List Byte)) (s : State),
    let t := svcBegun s rest
    let open_ := s.sealedNow = false
    let calm := s.on SUP_STAT_BRACE = false
    let j := s.svc.jrnl
    let upd := payN p 0 8
    let fails := fun (code stage st : Nat) =>
      svcAnswer (t.note 0x0708 0x01 1 (stage * 2 ^ 72 + st % 256 * 2 ^ 64 + upd)) code seq st []
    let total := payN p 8 4
    let ofs := payN p 12 4
    let data := p.drop 16
    let range := ofs % 256 ≠ 0 ∨ (data.length % 256 ≠ 0 ∧ ofs + data.length ≠ total) ∨ total < 640 ∨
      t.slotSize < total + 2097152 ∨ total < ofs + data.length
    (SvcReady s 0x20 seq p rest → 17 ≤ p.length → p.length ≤ 784 → open_ → calm →
      let goesOn := fun v : State => exec (.putObject ok) s =
        .next ({ v with svc := { v.svc with long := some (0x20, seq, BitVec.ofNat 8 (b2n ok) :: p) } }).attnUpdate
      (t.flashUsable = false → exec (.putObject ok) s = fails 0x20 1 0x1A) ∧
      (t.flashUsable = true →
        (range → exec (.putObject ok) s = fails 0x20 1 0x0F) ∧
        (∀ n, j.open_ = some (upd, n) → n ≠ total → exec (.putObject ok) s = fails 0x20 1 0x0F) ∧
        (¬range → j.open_ = some (upd, total) → j.actreq = true → exec (.putObject ok) s = fails 0x20 1 0x06) ∧
        (¬range → j.open_ = none → upd ∈ j.ended → exec (.putObject ok) s = fails 0x20 1 0x0E) ∧
        (∀ u n, ¬range → j.open_ = some (u, n) → u ≠ upd →
          exec (.putObject ok) s = fails 0x20 1 (if upd ∈ j.ended then 0x0E else 0x06)) ∧
        (¬range → j.open_ = none → upd ∉ j.ended →
          goesOn ((t.jrnlPut 0x03 upd (leBytes 4 total)).each (ceilDiv total 65536) fun i u => u.jrnlErase 3 i)) ∧
        (¬range → j.open_ = some (upd, total) → j.actreq = false → goesOn t))) ∧
    (exec .journalPendingRun s = .next (if s.on SUP_STAT_BRACE then s else s.jrnlRun.attnUpdate)) ∧
    (SvcReady s 0x21 seq p rest → p.length = 12 → open_ →
      (j.open_ = none → exec .queryObject s = svcAnswer t 0x21 seq 0x0E []) ∧
      (∀ u n, j.open_ = some (u, n) → upd ≠ 0 → upd ≠ u → exec .queryObject s = svcAnswer t 0x21 seq 0x0E []) ∧
      (∀ u n, j.open_ = some (u, n) → upd = 0 ∨ upd = u →
        let has := fun k => decide (k < t.updPages) && runsHas j.runs k
        exec .queryObject s = svcAnswer t 0x21 seq 0 (leBytes 8 u ++ leBytes 1 (t.get SVC_UPD_USTATE) ++ leBytes 3 0 ++
          leBytes 4 t.updPages ++ leBytes 4 (runsCount j.runs) ++ leBytes 4 total ++
          (List.range 992).map fun k => BitVec.ofNat 8
            ((List.range 8).foldl (fun m i => m + b2n (has (total + 8 * k + i)) * 2 ^ i) 0)))) ∧
    (SvcReady s 0x22 seq p rest → p.length = 8 → open_ → calm →
      (t.flashUsable = false → exec .abandonObject s = fails 0x22 6 0x1A) ∧
      (t.flashUsable = true → j.open_ = none ∨ t.updId ≠ upd → exec .abandonObject s = fails 0x22 6 0x0E) ∧
      (t.flashUsable = true → j.open_ ≠ none → t.updId = upd → j.actreq = true → exec .abandonObject s = fails 0x22 6 0x06) ∧
      (t.flashUsable = true → j.open_ ≠ none → t.updId = upd → j.actreq = false →
        exec .abandonObject s = svcAnswer (t.jrnlPut 0x06 upd []) 0x22 seq 0 [])) ∧
    (SvcReady s 0x23 seq p rest → p.length = 8 → open_ → calm → t.flashUsable = true →
      (j.open_ = none → exec (.commitStaging ok) s = fails 0x23 2 0x0E) ∧
      (∀ u n, j.open_ = some (u, n) → u ≠ upd → exec (.commitStaging ok) s = fails 0x23 2 0x0E) ∧
      (∀ n, j.open_ = some (upd, n) → j.actreq = true → exec (.commitStaging ok) s = fails 0x23 2 0x06) ∧
      (∀ n, j.open_ = some (upd, n) → j.actreq = false →
        let v := (t.commitBuild upd n ok).1
        let st := (t.commitBuild upd n ok).2
        let v := { v with svc := { v.svc with
          long := some (0x23, seq, [BitVec.ofNat 8 st, BitVec.ofNat 8 (b2n s.cus.reopened)]) } }
        exec (.commitStaging ok) s = .next ((v.set SVC_UPD_USTATE 2).orF SVC_IRQ_IRQ 4).attnUpdate)) ∧
    (s.svc.long = none → exec .commandExecutionEnd s = .next s) ∧
    (∀ q bs, s.svc.long = some (0x23, q, bs) → s.on SUP_STAT_BRACE = true → exec .commandExecutionEnd s = .next s) ∧
    (∀ q bs, s.svc.long = some (0x23, q, bs) → s.on SUP_STAT_BRACE = false →
      let st := leNat (bs.take 1)
      let u := ({ s with svc := { s.svc with long := none } }).updShow
      let len := ({ s with svc := { s.svc with long := none } }).contBytes 16 4
      let dig := ({ s with svc := { s.svc with long := none } }).contBytes 24 32
      let v := u.jrnlPut 0x07 s.updId (len ++ dig.take 8)
      let w := if bs.drop 1 == [1] && v.cus.rec_.sealed_ then v.cusStore { v.cus.rec_ with pdig := beNat dig, pendv := true }
        else v
      (st = 0 → exec .commandExecutionEnd s = .next ((w.noteUpdate 2 0).svcRespondLate 0x23 q 0 (len ++ dig)).attnUpdate) ∧
      (st ≠ 0 → exec .commandExecutionEnd s = .next ((u.noteUpdate 2 st).svcRespondLate 0x23 q st []).attnUpdate)) ∧
    (∀ q b (pd : List Byte), s.svc.long = some (0x20, q, b :: pd) →
      let u := { s with svc := { s.svc with long := none } }
      let pg := payN pd 12 4 / 256
      let d := pd.drop 16
      let k := ceilDiv d.length 256
      let ends := fun (v : State) st => exec .commandExecutionEnd s = .next (v.svcRespondLate 0x20 q st []).attnUpdate
      let entry := fun (v : State) st => v.note 0x0708 0x01 1 (2 ^ 72 + st * 2 ^ 64 + payN pd 0 8)
      (s.on SUP_STAT_BRACE = true →
        ends (({ u with free := s.free + 1 }).pagesCut (Config.freeValue s.free % (k + 1)) pg d) 0x05) ∧
      (s.on SUP_STAT_BRACE = false →
        let differ := u.pagesDiffer (j.runsBefore pg) k pg d
        (differ = true ∨ 512 < j.runsWith pg k → ends (entry u 0x0F) 0x0F) ∧
        (differ = false → j.runsWith pg k ≤ 512 → ∀ v,
          ((u.runFirst pg).pagesPut (b == 1) k pg d = (v, true) → ends v 0) ∧
          ((u.runFirst pg).pagesPut (b == 1) k pg d = (v, false) → ends (entry v 0x1A) 0x1A)))) ∧
    (SvcReady s 0x23 seq p rest → p.length = 8 → open_ → calm → t.flashUsable = false →
      exec (.commitStaging ok) s = fails 0x23 2 0x1A) ∧
    (SvcReady s 0x24 seq p rest → p.length = 8 → open_ → calm → t.flashUsable = false →
      exec .activate s = fails 0x24 3 0x1A) ∧
    (SvcReady s 0x24 seq p rest → p.length = 8 → open_ → calm → t.flashUsable = true →
      (j.staged = none ∨ t.updId ≠ upd → exec .activate s = fails 0x24 3 0x15) ∧
      (∀ x, j.staged = some x → t.updId = upd → s.on SVC_REPAIR_RSTATE = true ∨ j.actreq = true →
        exec .activate s = fails 0x24 3 0x06) ∧
      (∀ x, j.staged = some x → t.updId = upd → s.on SVC_REPAIR_RSTATE = false → j.actreq = false →
        let moving := t.nav.moving || !t.movKnown || t.nav.displaced
        let supply := decide (s.get SUP_LASTW_SEC < 60) || s.on RTC_STAT_ONBAT || s.on SUP_STAT_WARN
        let lock := s.cus.rec_.ulock
        (moving = true ∨ supply = true ∨ lock = true →
          let st := if moving then 0x16 else if supply then 0x17 else 0x18
          let v := t.note 0x0709 0x01 2 (b2n moving * 2 ^ 79 + b2n supply * 2 ^ 78 + b2n lock * 2 ^ 77 + upd)
          exec .activate s = svcAnswer (v.note 0x0708 0x01 1 (3 * 2 ^ 72 + st % 256 * 2 ^ 64 + upd)) 0x24 seq st []) ∧
        (moving = false → supply = false → lock = false →
          let m := !s.cus.rec_.sealed_ || (s.cus.rec_.pendv && s.cus.rec_.pdig == beNat (t.contBytes 24 32))
          let v := t.jrnlPut 0x08 upd []
          exec .activate s =
            svcAnswer { v with svc := { v.svc with startAt := v.svc.startAt ++ [(v.svcNextSeq, 0)] } } 0x24 seq 0 (leBytes 1 (b2n m))))) ∧
    (s.svc.startAt = [] → exec .activationAckWait s = .next s) ∧
    (∀ q k more, s.svc.startAt = (q, k) :: more →
      exec .activationAckWait s = .next (({ s with svc := { s.svc with startAt := more } }).softCause k))

/-- R377, R378, R397, R398: repairs. That an image which no digest permits is walked as at a start, from the mirror, and that a
forced channel's engine goes IDLE, are the model's reading (log entry 42). -/
def Obligations.ServiceRepairs : Prop :=
  ∀ (seq : Nat) (p : List Byte) (rest : List (Nat × Nat × List Byte)) (s : State),
    let t := svcBegun s rest
    let pass := s.sealedNow = false ∧ s.on SUP_STAT_BRACE = false
    let idle := s.cus.phase ≠ .minimum ∧ s.on SVC_REPAIR_RSTATE = false ∧ s.svc.jrnl.actreq = false
    let x := payN p 0 1
    let opt := payN p 1 1
    let begun := fun (group : Bool) =>
      let n := (s.svc.repair.count + 1) % 256
      let u := (((t.memWrite .nav 0x80000700 1 (if group then 2 else 1)).1.memWrite .nav 0x80000701 1 x).1.memWrite .nav
        0x80000703 1 n).1
      let u := { u with svc := { u.svc with repair := { force := bit opt 0, seq := seq, count := n, at_ := u.tim.up } } }
      Host.Outcome.next (σ := State) (φ := Fault) (ρ := Refusal)
        ((((u.set SVC_REPAIR_RSTATE 1).setB SVC_REPAIR_GROUP group).set SVC_REPAIR_TARGET x).orF SVC_IRQ_IRQ 8).attnUpdate
    (SvcReady s 0x40 seq p rest → p.length = 2 → x < 16 → opt ≤ 1 → pass →
      (s.cus.phase = .minimum → exec .repairCluster s = svcAnswer t 0x40 seq 0x1B []) ∧
      (s.cus.phase ≠ .minimum → s.on SVC_REPAIR_RSTATE = true ∨ s.svc.jrnl.actreq = true →
        exec .repairCluster s = svcAnswer t 0x40 seq 0x06 []) ∧
      (idle → exec .repairCluster s = begun false)) ∧
    (SvcReady s 0x41 seq p rest → p.length = 2 → x < 4 → opt ≤ 1 → pass →
      (s.cus.phase = .minimum → exec .repairGroup s = svcAnswer t 0x41 seq 0x1B []) ∧
      (s.cus.phase ≠ .minimum → s.on SVC_REPAIR_RSTATE = true ∨ s.svc.jrnl.actreq = true →
        exec .repairGroup s = svcAnswer t 0x41 seq 0x06 []) ∧
      (idle → exec .repairGroup s = begun true)) ∧
    (SvcReady s 0x42 seq p rest → p.length = 0 → pass →
      exec .repairProc s =
        svcAnswer { t with svc := { t.svc with startAt := t.svc.startAt ++ [(t.svcNextSeq, 1)] } } 0x42 seq 0 []) ∧
    (let held := s.repairClusters.any fun c => decide (0 < s.engCount c 1 + s.engCount c 3)
     let late := s.reached s.svc.repair.at_ (10 * 10 ^ 9)
     let freed := if held then s.repairClusters.foldl (fun u c => u.eachEng c fun e v =>
         if v.engState e = 1 ∨ v.engState e = 3 then
           let w := ((v.engCancel e).assist (v.chan e).cfg true).engEnter e 0
           { w with chans := tblErase w.chans e }
         else v.engCancel e) s else s
     let x := freed.get SVC_REPAIR_TARGET
     let clu := fun a => decide (0x50000000 + x * 0x100000 ≤ a) && decide (a < 0x50000000 + x * 0x100000 + 0x100000)
     let grp := fun a => decide (0x60000000 + x * 0x100000 ≤ a) && decide (a < 0x60000000 + x * 0x100000 + 0x100000)
     let ctl := fun a => a % 0x40000 == 0x00 || a % 0x40000 == 0x40
     let one := ((freed.set SVC_REPAIR_RSTATE 2).cluReset x).repairImage clu
     let all := (((freed.dspFlush.set SVC_REPAIR_RSTATE 2).set (LDSP_GCTL_RST x) 1).dspGroup x).repairImage fun a => grp a && !ctl a
     let last := ((all.1.set (LDSP_GCTL_RST x) 0).dspGroup x).repairImage fun a => grp a && ctl a
     let go := if freed.on SVC_REPAIR_GROUP then
         if all.2 = false then all.1.repairEnd 0x1B 0 0 else last.1.repairEnd (if last.2 then 0 else 0x1B) 0 0
       else if one.2 then one.1.set SVC_REPAIR_RSTATE 3
       else ((one.1.set (CLU_CTL_CKEN x) 0).cluClock x true).repairEnd 0x1B 0 0
     (s.get SVC_REPAIR_RSTATE ≠ 1 →
       exec .repairVacated s = .next s ∧ exec .repairVacateTimeout s = .next (if late then s.attnUpdate else s)) ∧
     (late = false → exec .repairVacateTimeout s = .next s) ∧
     (s.get SVC_REPAIR_RSTATE = 1 →
       (late = true → held = true → s.svc.repair.force = false →
         exec .repairVacateTimeout s = .next (s.repairEnd 0x19 0 0).attnUpdate) ∧
       (late = true → held = false ∨ s.svc.repair.force = true →
         exec .repairVacateTimeout s = .next go.attnUpdate) ∧
       ((s.byteAt 0x80000704).toNat ≠ s.svc.repair.count → exec .repairVacated s = .next s) ∧
       ((s.byteAt 0x80000704).toNat = s.svc.repair.count → exec .repairVacated s = .next s.repairGo.attnUpdate)))

/-- R237, R292, R401–R403, R405–R407, R428. The model's choices: a command that a loop DSP is given as master takes its fault at
once (log entry 51); a write of the always-on domain replaces one that waits for the same register (35); the seal is lifted for
the loader in the walk of a repair too, and the last word read of a latched group releases its words (52); what the test access
port holds and what acts (53). -/
def Obligations.RegisterAccess : Prop :=
  ∀ (m : Master) (a : Nat) (size : AccSize) (w : Word) (x : TapInstr) (s : State),
    let image := 0x50000000 ≤ a ∧ a < 0x51000000 ∧ a / 0x10000 % 16 = 2
    let locked := s.sealedNow = true ∧ ¬(m = .loader ∧ (s.cus.phase = .walk ∨ s.get SVC_REPAIR_RSTATE = 2))
    let late := a = 0x40020018 ∨ a = 0x4002001C ∨ a = 0x40020024
    (memClass a = none →
      (a % 4 = 0 → ¬image → ¬late → Writes (.registerWrite m a .b4 w) m a w s (regHook a w.toNat [] s)) ∧
      (late → writeTaken s m a w.toNat = true → exec (.registerWrite m a .b4 w) s = .next ({ s with rtc := { s.rtc with
        todo := s.rtc.todo.filter (fun x => x.1 ≠ a) ++ [(a, w.toNat, s.lockHolds m)] } } : State).dspSteps) ∧
      (a % 4 = 0 → ¬image → s.busAllowed m a true = true → s.writeError m a w.toNat = false → locked →
        (∀ f ∈ regsAt a, f.2.lockable = true ∨ f.2 = .ro) → exec (.registerWrite m a .b4 w) s = .next s.dspSteps) ∧
      (s.busAllowed m a true = false ∨ size ≠ .b4 ∨ a % 4 ≠ 0 ∨ (¬image ∧ s.writeError m a w.toNat = true) →
        exec (.registerWrite m a size w) s = .next (s.busError m a true))) ∧
    (w.toNat ||| fieldMask (regsAt a) ≠ fieldMask (regsAt a) ∨ (∀ f ∈ regsAt a, f.2 = .ro) ∨
      (locked ∧ ∃ f ∈ regsAt a, f.2.lockable = true ∧ s.fieldHeld f.1 ≠ bits w.toNat f.1.hi f.1.lo) ∨
      (a = 0x4002001C ∧ bit w.toNat 30 = true ∧ m ≠ .cust) → s.writeError m a w.toNat = true) ∧
    (∀ b : NavBoot, memClass a ≠ some .nav → b.fault .fetch a = some 1 ∧ b.fault .atomic a = some 7) ∧
    (∀ (b : NavBoot) (k : NavAccess), b.machine = false → (∀ e ∈ b.pmp, e.mode = .off) → b.fault k a ≠ none) ∧
    (s.nav.boot.fault .store a ≠ none → s.busAllowed .nav a true = false) ∧
    (s.nav.boot.fault .load a ≠ none → s.busAllowed .nav a false = false) ∧
    (∀ write, s.busError .nav a write =
      { s with nav := { s.nav with mcause := some (if write then 7 else 5), mtval := a } }) ∧
    (∀ (d : Fin 16) write, s.busError (.ldsp d) a write =
      if s.dspState d.val = 1 ∨ (s.dspState d.val = 3 ∧ (s.dsp d.val).step = true) then
        s.dspFault d.val 2 a (s.dsp d.val).pc (s.dsp d.val).pc
      else s) ∧
    (∀ (n : Fin 8) (h : Fin 8) (k : Fin 2) (e : Fin 1024) (l : Fin 96) (sub : Nat),
      let latches := fun (c : Instr) (b count sub : Nat) =>
        s.busAllowed m b false = true → exec c s = .next ((List.range count).foldl
          (fun t i => t.hold m (b + 4 * (i + 1)) ((s.busView b sub).regValue (b + 4 * (i + 1)))) s)
      latches (.slkFmtRead m n) (0x40050018 + 0x100 * n.val) 2 0 ∧
      latches (.snpHtimeRead m h) (0x40070118 + 0x40 * h.val) 2 0 ∧
      latches (.timNowRead m sub) 0x40040000 2 sub ∧
      latches (.timEpochRead m) 0x4004000C 1 0 ∧
      latches (.tpNextEdgeRead m k) (0x40040110 + 0x40 * k.val) 2 0 ∧
      latches (.tpiStampRead m) 0x40040208 2 0 ∧
      latches (.engPhaseRead m e) (engAddr e 0x44) 5 0 ∧
      latches (.umbSequenceRead m false) 0x40300004 1 0 ∧
      latches (.umbSequenceRead m true) 0x4030000C 1 0 ∧
      latches (.cusLatchedRead m 0) 0x40310008 1 0 ∧
      latches (.cusLatchedRead m 1) 0x40310030 1 0 ∧
      latches (.cusLatchedRead m 2) 0x40310038 1 0 ∧
      latches (.cusLatchedRead m 3) 0x40310040 1 0 ∧
      latches (.svcUpdidRead m) 0x40320020 1 0 ∧
      (let b := 0x40200420 + 0x40 * l.val
       let y := s.line l.val
       let st := match y.fifo with | [] => 0 | (t, _) :: _ => t
       let fall := match y.fifo with | [] => false | (_, f) :: _ => f
       let t := (s.setLine l.val { y with fifo := y.fifo.tail }).set (TEL_FILL_FILL l.val) y.fifo.tail.length
       let t := if y.fifo.tail = [] then t.setTelBit TEL_CAPNE_MAP l.val false else t
       s.busAllowed m b false = true → exec (.telCapRead m l) s = .next ((((t.hold m b
         (st % 2 ^ 16 * 2 ^ 16 + bits st 95 80)).hold m (b + 4) (bits st 79 48)).hold m (b + 8)
         (b2n fall * 2 ^ 31 + b2n (y.fifo != []) * 2 ^ 30 + bits st 47 16)).release m b))) ∧
    (exec (.jtagTapInstruction x) s = .next { s with tap := x }) ∧
    (s.tapActs = if (s.tap = .extest ∨ s.tap = .clamp ∨ s.tap = .highz) ∧ ¬(s.sup.rstLow = true ∧ s.recordOpen = true) then
      .bypass else s.tap)

/-- R20: no write path (the two ranges of the window that R343 closes to readers are left out of its last sentence). A read
that the navigation core's own physical memory protection stops (R407) never leaves it; its rules are log entry 26. -/
def Obligations.WritePaths : Prop :=
  ∀ (m : Master) (a : Nat) (size : AccSize) (w : Word) (s : State),
    m = .nav ∨ (∃ d, m = .ldsp d) →
    ((0x40310000 ≤ a ∧ a < 0x40320000) ∨ (0x90000000 ≤ a ∧ a < 0x90800000) ∨ (0x40300040 ≤ a ∧ a < 0x40300080) →
      exec (.registerWrite m a size w) s = .next (s.busError m a true)) ∧
    ((0x90000000 ≤ a ∧ a < 0x90700000) ∨ (0x40300000 ≤ a ∧ a < 0x40300040) →
      (m = .nav → s.nav.boot.fault .load a = none) → s.busAllowed m a false = true)

/-- The queue of commands, first in, first out: its order is that in which the sender's commands reach the block. That an
empty queue leaves the state as it is, is log entry 2. Every command completes from every state: it answers a next state,
with the queue, the identity block and what was sent as they were. -/
def Obligations.StepRunsFront : Prop :=
  ∀ (c : Instr) (rest : List Instr) (s : State),
    (s.pending = c :: rest → step s = exec c { s with pending := rest }) ∧
    (s.pending = [] → step s = .next s) ∧
    (∃ t, exec c s = .next t ∧ t.pending = s.pending ∧ t.part = s.part ∧ ∃ l, t.out = l ++ s.out)

/-- Reset: the register tables' reset values; the contents that no rule gives are log entries 8 and 9. The reset domains (R24,
R25): which registers a soft start, a cold start and the loss of both supplies of the always-on domain put back, and which keep
their values, but for the `BUSY` of the clusters, whose self-tests a start begins. -/
def Obligations.ResetState : Prop :=
  Canonical State.reset ∧ State.reset.pending = [] ∧ State.reset.out = [] ∧ State.reset.latch = [] ∧ State.reset.ecc = [] ∧
    State.reset.cus.phase = .off ∧ State.reset.sealedNow = false ∧
    (∀ f : Field, State.reset.get f = f.rst) ∧
    (∀ a : Nat, 0x90000000 ≤ a → a < 0x90800000 → a < 0x90708000 ∨ 0x90708014 ≤ a → State.reset.byteAt a = 0xFF) ∧
    State.reset.bytesAt 0x90708000 20 = beBytes 16 State.reset.part.ident ++ leBytes 4 State.reset.part.idCrc ∧
    State.reset.idOk = true ∧
    (∀ k : Nat, k < 131072 → State.reset.bytesAt (slotAddr k) 32 = List.replicate 32 0xFF) ∧
    (∀ (s : State) (f : Field) (a : Nat), f.lo < 32 →
      let aon := 0x40020000 ≤ f.addr ∧ f.addr < 0x40030000
      let proc := (0x40070000 ≤ f.addr ∧ f.addr < 0x40080000) ∨ (0x50000000 ≤ f.addr ∧ f.addr < 0x70000000)
      let tests := ∃ c < 16, f.key = (CLU_CTL_BUSY c).key
      (¬proc → s.procReset.get f = s.get f) ∧ (proc → ¬tests → s.procReset.get f = f.rst) ∧
      (aon → s.coldReset.get f = s.get f) ∧ (¬aon → ¬tests → s.coldReset.get f = f.rst) ∧
      (¬aon → s.rtcReset.get f = s.get f) ∧ (aon → s.rtcReset.get f = f.rst) ∧
      s.procReset.rtc = s.rtc ∧ s.procReset.tim = s.tim ∧ s.procReset.tps = s.tps ∧ s.procReset.plls = s.plls ∧
      s.procReset.lines = s.lines ∧ s.procReset.itg = s.itg ∧ s.procReset.umb = s.umb ∧ s.coldReset.rtc = s.rtc ∧
      (0x90000000 ≤ a → a < 0x90800000 → s.procReset.byteAt a = s.byteAt a ∧ s.coldReset.byteAt a = s.byteAt a))

/-- The invariant of the memories, which stand in their one canonical form, and of the register file, whose keys rise strictly.
No command stops the machine. -/
def Obligations.StepKeepsCanonical : Prop :=
  ∀ s : State, ∃ t, step s = .next t ∧ (Canonical s → Canonical t)

/-- R344: no command, record or core writes what production wrote into the part: the identity with its CRC, the grade. -/
def Obligations.IdentityNeverWritten : Prop :=
  ∀ (k : Nat) (s t : State), Host.Core.run Sys2Proof.core k s = .next t → t.part = s.part ∧ ∃ l, t.out = l ++ s.out

/-- R370: the frames of the service port; decoding what was encoded gives it back, every field at every value. -/
def Obligations.ServiceFrames : Prop :=
  ∀ f : SvcFrame, f.typ < 2 ^ 8 → f.seq < 2 ^ 16 → f.ack < 2 ^ 16 → f.payload.length ≤ 1024 →
    ∃ bs : List Byte, svcEncode f = bs ++ [0] ∧ (0 : Byte) ∉ bs ∧ bs.length ≤ 1041 ∧ svcDecode bs = some f
end

