-- ==== Sys2Proof/Laws/Table.lean ====
section
/-! SUPPORT. The laws of sparse tables: what a put shows, and that puts, erasures and filters keep the canonical form. -/

namespace Sys2Proof.Machine

theorem tblFind_set {α : Type} (t : Tbl α) (i j : Nat) (v : α) :
    tblFind (tblSet t i v) j = if i = j then some v else tblFind t j := by
  induction t with
  | nil => simp [tblSet, tblFind]
  | cons e t ih =>
    obtain ⟨k, x⟩ := e
    unfold tblSet
    split
    · by_cases h4 : k = j <;> by_cases h5 : i = j <;> simp_all [tblFind]
    · split <;> by_cases h4 : k = j <;> by_cases h5 : i = j <;> simp_all [tblFind]

theorem tblSorted_mono {α : Type} {b : Nat} {t : Tbl α} (h : tblSorted (some b) t = true) : tblSorted none t = true := by
  cases t with
  | nil => rfl
  | cons e t => simp_all [tblSorted]

theorem tblSorted_weaken {α : Type} {a b : Nat} {t : Tbl α} (hab : a ≤ b) (h : tblSorted (some b) t = true) :
    tblSorted (some a) t = true := by
  cases t with
  | nil => rfl
  | cons e t => simp_all [tblSorted]; omega

theorem tblSorted_set {α : Type} (t : Tbl α) (i : Nat) (v : α) (b : Option Nat)
    (hb : ∀ m, b = some m → m < i) (h : tblSorted b t = true) : tblSorted b (tblSet t i v) = true := by
  induction t generalizing b with
  | nil => cases b <;> simp_all [tblSet, tblSorted]
  | cons e t ih =>
    obtain ⟨k, x⟩ := e
    unfold tblSet
    split
    · cases b <;> simp_all [tblSorted]
    split
    · cases b <;> simp_all [tblSorted]
    · have : tblSorted (some k) t = true := by simp_all [tblSorted]
      have := ih (some k) (by intro m hm; cases hm; omega) this
      cases b <;> simp_all [tblSorted]

theorem tblSorted_erase {α : Type} (t : Tbl α) (i : Nat) (b : Option Nat)
    (h : tblSorted b t = true) : tblSorted b (tblErase t i) = true := by
  induction t generalizing b with
  | nil => simp [tblErase, h]
  | cons e t ih =>
    obtain ⟨k, x⟩ := e
    have hk : tblSorted (some k) t = true := by simp_all [tblSorted]
    unfold tblErase
    split
    · exact h
    split
    · cases b with
      | none => exact tblSorted_mono hk
      | some m => exact tblSorted_weaken (by simp [tblSorted] at h; omega) hk
    · have := ih (some k) hk
      cases b <;> simp_all [tblSorted]

theorem tblSorted_put {α : Type} [DecidableEq α] (t : Tbl α) (d : α) (i : Nat) (v : α)
    (h : tblSorted none t = true) : tblSorted none (tblPut t d i v) = true := by
  unfold tblPut
  split
  · exact tblSorted_erase t i none h
  · exact tblSorted_set t i v none (by simp) h

theorem tblSorted_filter {α : Type} (t : Tbl α) (p : Nat × α → Bool) (b : Option Nat)
    (h : tblSorted b t = true) : tblSorted b (t.filter p) = true := by
  induction t generalizing b with
  | nil => simpa using h
  | cons e t ih =>
    obtain ⟨k, x⟩ := e
    have hk : tblSorted (some k) t = true := by simp_all [tblSorted]
    rw [List.filter_cons]
    split
    · have := ih (some k) hk
      cases b <;> simp_all [tblSorted]
    · cases b with
      | none => exact ih none (tblSorted_mono hk)
      | some m => exact ih (some m) (tblSorted_weaken (by simp [tblSorted] at h; omega) hk)

theorem mem_tblSet {α : Type} {t : Tbl α} {i : Nat} {v : α} {e : Nat × α} (h : e ∈ tblSet t i v) :
    e = (i, v) ∨ e ∈ t := by
  induction t with
  | nil => simpa [tblSet] using h
  | cons f t ih =>
    obtain ⟨k, x⟩ := f
    unfold tblSet at h
    split at h
    · simpa using h
    · split at h
      · simp at h ⊢; exact h.imp_right Or.inr
      · simp at h ⊢
        rcases h with h | h
        · exact .inr (.inl h)
        · exact (ih h).imp_right .inr

theorem mem_tblErase {α : Type} {t : Tbl α} {i : Nat} {e : Nat × α} (h : e ∈ tblErase t i) : e ∈ t := by
  induction t with
  | nil => simp [tblErase] at h
  | cons f t ih =>
    obtain ⟨k, x⟩ := f
    unfold tblErase at h
    split at h
    · exact h
    · split at h
      · exact List.mem_cons_of_mem _ h
      · simp at h ⊢; exact h.imp_right ih

/-- A write into a table whose defaults `d` names keeps the canonical form. -/
theorem tblCanon_put {α : Type} [DecidableEq α] (d : Nat → α) (t : Tbl α) (i : Nat) (v : α)
    (h : tblCanon d t = true) : tblCanon d (tblPut t (d i) i v) = true := by
  simp only [tblCanon, Bool.and_eq_true, List.all_eq_true, decide_eq_true_eq] at h ⊢
  refine ⟨tblSorted_put t _ i v h.1, fun e he => ?_⟩
  unfold tblPut at he
  split at he
  · exact h.2 e (mem_tblErase he)
  · rcases mem_tblSet he with rfl | he
    · assumption
    · exact h.2 e he

/-- Taking entries out keeps the canonical form, and the defaults of what stays may change elsewhere. -/
theorem tblCanon_filter {α : Type} [DecidableEq α] (d d' : Nat → α) (t : Tbl α) (p : Nat × α → Bool)
    (hd : ∀ e, p e = true → d' e.1 = d e.1) (h : tblCanon d t = true) : tblCanon d' (t.filter p) = true := by
  simp only [tblCanon, Bool.and_eq_true, List.all_eq_true, decide_eq_true_eq] at h ⊢
  refine ⟨tblSorted_filter t p none h.1, fun e he => ?_⟩
  have := List.mem_filter.mp he
  rw [hd e this.2]
  exact h.2 e this.1

theorem tblFind_erase_ne {α : Type} (t : Tbl α) {i j : Nat} (h : i ≠ j) : tblFind (tblErase t i) j = tblFind t j := by
  induction t with
  | nil => rfl
  | cons e t ih =>
    obtain ⟨k, x⟩ := e
    unfold tblErase
    split
    · rfl
    · split
      · rename_i h1
        simp [tblFind, ← h1, h]
      · by_cases h4 : k = j <;> simp_all [tblFind]

/-- A key below every key of a sorted table is not listed. -/
theorem tblFind_below {α : Type} (t : Tbl α) {b i : Nat} (h : tblSorted (some b) t = true) (hi : i ≤ b) :
    tblFind t i = none := by
  induction t generalizing b with
  | nil => rfl
  | cons e t ih =>
    obtain ⟨k, x⟩ := e
    simp [tblSorted] at h
    have : k ≠ i := by omega
    simp [tblFind, this]
    exact ih h.2 (by omega)

theorem tblFind_erase {α : Type} (t : Tbl α) (i : Nat) (h : tblSorted none t = true) :
    tblFind (tblErase t i) i = none := by
  induction t with
  | nil => rfl
  | cons e t ih =>
    obtain ⟨k, x⟩ := e
    have hk : tblSorted (some k) t = true := by simp_all [tblSorted]
    unfold tblErase
    split
    · rename_i h1
      have : k ≠ i := by omega
      simp [tblFind, this]
      exact tblFind_below t hk (by omega)
    · split
      · rename_i h1
        exact tblFind_below t hk (by omega)
      · rename_i h1 h2
        simp [tblFind, Ne.symm h2, ih (tblSorted_mono hk)]

/-- What a put shows at its own key. -/
theorem tblGet_put {α : Type} [DecidableEq α] (t : Tbl α) (d : α) (i : Nat) (v : α) (h : tblSorted none t = true) :
    tblGet (tblPut t d i v) d i = v := by
  unfold tblPut tblGet
  split
  · rename_i e
    rw [tblFind_erase t i h, e]; rfl
  · rw [tblFind_set]; simp

/-- What a put shows at every other key. -/
theorem tblGet_put_ne {α : Type} [DecidableEq α] (t : Tbl α) (d e : α) {i j : Nat} (v : α) (h : i ≠ j) :
    tblGet (tblPut t d i v) e j = tblGet t e j := by
  unfold tblPut tblGet
  split
  · rw [tblFind_erase_ne t h]
  · rw [tblFind_set]; simp [h]

@[simp] theorem tblGet_set {α : Type} (t : Tbl α) (d : α) (i : Nat) (v : α) : tblGet (tblSet t i v) d i = v := by
  simp [tblGet, tblFind_set]

theorem tblGet_set_ne {α : Type} (t : Tbl α) (d : α) {i j : Nat} (v : α) (h : i ≠ j) :
    tblGet (tblSet t i v) d j = tblGet t d j := by
  simp [tblGet, tblFind_set, h]

end Sys2Proof.Machine
end

