-- ==== Sys2Proof/Laws/State.lean ====
section
/-! SUPPORT. What each update of the state leaves of each field, and what the accessors show after it. -/

namespace Sys2Proof.Machine

/-! ### `set` -/

@[simp] theorem State.set_mem (s : State) (f : Field) (v : Nat) : (s.set f v).mem = s.mem := rfl
@[simp] theorem State.set_flash (s : State) (f : Field) (v : Nat) : (s.set f v).flash = s.flash := rfl
@[simp] theorem State.set_wipes (s : State) (f : Field) (v : Nat) : (s.set f v).wipes = s.wipes := rfl
@[simp] theorem State.set_colds (s : State) (f : Field) (v : Nat) : (s.set f v).colds = s.colds := rfl
@[simp] theorem State.set_ecc (s : State) (f : Field) (v : Nat) : (s.set f v).ecc = s.ecc := rfl
@[simp] theorem State.set_latch (s : State) (f : Field) (v : Nat) : (s.set f v).latch = s.latch := rfl
@[simp] theorem State.set_links (s : State) (f : Field) (v : Nat) : (s.set f v).links = s.links := rfl
@[simp] theorem State.set_fecs (s : State) (f : Field) (v : Nat) : (s.set f v).fecs = s.fecs := rfl
@[simp] theorem State.set_engs (s : State) (f : Field) (v : Nat) : (s.set f v).engs = s.engs := rfl
@[simp] theorem State.set_clus (s : State) (f : Field) (v : Nat) : (s.set f v).clus = s.clus := rfl
@[simp] theorem State.set_handles (s : State) (f : Field) (v : Nat) : (s.set f v).handles = s.handles := rfl
@[simp] theorem State.set_replay (s : State) (f : Field) (v : Nat) : (s.set f v).replay = s.replay := rfl
@[simp] theorem State.set_maps (s : State) (f : Field) (v : Nat) : (s.set f v).maps = s.maps := rfl
@[simp] theorem State.set_chans (s : State) (f : Field) (v : Nat) : (s.set f v).chans = s.chans := rfl
@[simp] theorem State.set_lates (s : State) (f : Field) (v : Nat) : (s.set f v).lates = s.lates := rfl
@[simp] theorem State.set_dsps (s : State) (f : Field) (v : Nat) : (s.set f v).dsps = s.dsps := rfl
@[simp] theorem State.set_nav (s : State) (f : Field) (v : Nat) : (s.set f v).nav = s.nav := rfl
@[simp] theorem State.set_mordant (s : State) (f : Field) (v : Nat) : (s.set f v).mordant = s.mordant := rfl
@[simp] theorem State.set_itg (s : State) (f : Field) (v : Nat) : (s.set f v).itg = s.itg := rfl
@[simp] theorem State.set_tim (s : State) (f : Field) (v : Nat) : (s.set f v).tim = s.tim := rfl
@[simp] theorem State.set_tps (s : State) (f : Field) (v : Nat) : (s.set f v).tps = s.tps := rfl
@[simp] theorem State.set_tpi (s : State) (f : Field) (v : Nat) : (s.set f v).tpi = s.tpi := rfl
@[simp] theorem State.set_plls (s : State) (f : Field) (v : Nat) : (s.set f v).plls = s.plls := rfl
@[simp] theorem State.set_ckos (s : State) (f : Field) (v : Nat) : (s.set f v).ckos = s.ckos := rfl
@[simp] theorem State.set_ports (s : State) (f : Field) (v : Nat) : (s.set f v).ports = s.ports := rfl
@[simp] theorem State.set_slots (s : State) (f : Field) (v : Nat) : (s.set f v).slots = s.slots := rfl
@[simp] theorem State.set_net (s : State) (f : Field) (v : Nat) : (s.set f v).net = s.net := rfl
@[simp] theorem State.set_lines (s : State) (f : Field) (v : Nat) : (s.set f v).lines = s.lines := rfl
@[simp] theorem State.set_banks (s : State) (f : Field) (v : Nat) : (s.set f v).banks = s.banks := rfl
@[simp] theorem State.set_rtc (s : State) (f : Field) (v : Nat) : (s.set f v).rtc = s.rtc := rfl
@[simp] theorem State.set_sup (s : State) (f : Field) (v : Nat) : (s.set f v).sup = s.sup := rfl
@[simp] theorem State.set_umb (s : State) (f : Field) (v : Nat) : (s.set f v).umb = s.umb := rfl
@[simp] theorem State.set_cus (s : State) (f : Field) (v : Nat) : (s.set f v).cus = s.cus := rfl
@[simp] theorem State.set_svc (s : State) (f : Field) (v : Nat) : (s.set f v).svc = s.svc := rfl
@[simp] theorem State.set_tap (s : State) (f : Field) (v : Nat) : (s.set f v).tap = s.tap := rfl
@[simp] theorem State.set_part (s : State) (f : Field) (v : Nat) : (s.set f v).part = s.part := rfl
@[simp] theorem State.set_out (s : State) (f : Field) (v : Nat) : (s.set f v).out = s.out := rfl
@[simp] theorem State.set_free (s : State) (f : Field) (v : Nat) : (s.set f v).free = s.free := rfl
@[simp] theorem State.set_pending (s : State) (f : Field) (v : Nat) : (s.set f v).pending = s.pending := rfl
@[simp] theorem State.set_link_at (s : State) (f : Field) (v : Nat) (i : Nat) : (s.set f v).link i = s.link i := rfl
@[simp] theorem State.set_fec_at (s : State) (f : Field) (v : Nat) (i : Nat) : (s.set f v).fec i = s.fec i := rfl
@[simp] theorem State.set_eng_at (s : State) (f : Field) (v : Nat) (i : Nat) : (s.set f v).eng i = s.eng i := rfl
@[simp] theorem State.set_clu_at (s : State) (f : Field) (v : Nat) (i : Nat) : (s.set f v).clu i = s.clu i := rfl
@[simp] theorem State.set_handle_at (s : State) (f : Field) (v : Nat) (i : Nat) : (s.set f v).handle i = s.handle i := rfl
@[simp] theorem State.set_map_at (s : State) (f : Field) (v : Nat) (i : Nat) : (s.set f v).map i = s.map i := rfl
@[simp] theorem State.set_chan_at (s : State) (f : Field) (v : Nat) (i : Nat) : (s.set f v).chan i = s.chan i := rfl
@[simp] theorem State.set_dsp_at (s : State) (f : Field) (v : Nat) (i : Nat) : (s.set f v).dsp i = s.dsp i := rfl
@[simp] theorem State.set_tp_at (s : State) (f : Field) (v : Nat) (i : Nat) : (s.set f v).tp i = s.tp i := rfl
@[simp] theorem State.set_pll_at (s : State) (f : Field) (v : Nat) (i : Nat) : (s.set f v).pll i = s.pll i := rfl
@[simp] theorem State.set_cko_at (s : State) (f : Field) (v : Nat) (i : Nat) : (s.set f v).cko i = s.cko i := rfl
@[simp] theorem State.set_port_at (s : State) (f : Field) (v : Nat) (i : Nat) : (s.set f v).port i = s.port i := rfl
@[simp] theorem State.set_slot_at (s : State) (f : Field) (v : Nat) (i : Nat) : (s.set f v).slot i = s.slot i := rfl
@[simp] theorem State.set_line_at (s : State) (f : Field) (v : Nat) (i : Nat) : (s.set f v).line i = s.line i := rfl
@[simp] theorem State.set_bank_at (s : State) (f : Field) (v : Nat) (i : Nat) : (s.set f v).bank i = s.bank i := rfl
@[simp] theorem State.set_byteAt (s : State) (f : Field) (v : Nat) (i : Nat) : (s.set f v).byteAt i = s.byteAt i := rfl
@[simp] theorem State.set_flashAt (s : State) (f : Field) (v : Nat) (i : Nat) : (s.set f v).flashAt i = s.flashAt i := rfl

/-! ### `clearRegs` -/

@[simp] theorem State.clearRegs_mem (s : State) (a b : Nat) : (s.clearRegs a b).mem = s.mem := rfl
@[simp] theorem State.clearRegs_flash (s : State) (a b : Nat) : (s.clearRegs a b).flash = s.flash := rfl
@[simp] theorem State.clearRegs_wipes (s : State) (a b : Nat) : (s.clearRegs a b).wipes = s.wipes := rfl
@[simp] theorem State.clearRegs_colds (s : State) (a b : Nat) : (s.clearRegs a b).colds = s.colds := rfl
@[simp] theorem State.clearRegs_ecc (s : State) (a b : Nat) : (s.clearRegs a b).ecc = s.ecc := rfl
@[simp] theorem State.clearRegs_latch (s : State) (a b : Nat) : (s.clearRegs a b).latch = s.latch := rfl
@[simp] theorem State.clearRegs_links (s : State) (a b : Nat) : (s.clearRegs a b).links = s.links := rfl
@[simp] theorem State.clearRegs_fecs (s : State) (a b : Nat) : (s.clearRegs a b).fecs = s.fecs := rfl
@[simp] theorem State.clearRegs_engs (s : State) (a b : Nat) : (s.clearRegs a b).engs = s.engs := rfl
@[simp] theorem State.clearRegs_clus (s : State) (a b : Nat) : (s.clearRegs a b).clus = s.clus := rfl
@[simp] theorem State.clearRegs_handles (s : State) (a b : Nat) : (s.clearRegs a b).handles = s.handles := rfl
@[simp] theorem State.clearRegs_replay (s : State) (a b : Nat) : (s.clearRegs a b).replay = s.replay := rfl
@[simp] theorem State.clearRegs_maps (s : State) (a b : Nat) : (s.clearRegs a b).maps = s.maps := rfl
@[simp] theorem State.clearRegs_chans (s : State) (a b : Nat) : (s.clearRegs a b).chans = s.chans := rfl
@[simp] theorem State.clearRegs_lates (s : State) (a b : Nat) : (s.clearRegs a b).lates = s.lates := rfl
@[simp] theorem State.clearRegs_dsps (s : State) (a b : Nat) : (s.clearRegs a b).dsps = s.dsps := rfl
@[simp] theorem State.clearRegs_nav (s : State) (a b : Nat) : (s.clearRegs a b).nav = s.nav := rfl
@[simp] theorem State.clearRegs_mordant (s : State) (a b : Nat) : (s.clearRegs a b).mordant = s.mordant := rfl
@[simp] theorem State.clearRegs_itg (s : State) (a b : Nat) : (s.clearRegs a b).itg = s.itg := rfl
@[simp] theorem State.clearRegs_tim (s : State) (a b : Nat) : (s.clearRegs a b).tim = s.tim := rfl
@[simp] theorem State.clearRegs_tps (s : State) (a b : Nat) : (s.clearRegs a b).tps = s.tps := rfl
@[simp] theorem State.clearRegs_tpi (s : State) (a b : Nat) : (s.clearRegs a b).tpi = s.tpi := rfl
@[simp] theorem State.clearRegs_plls (s : State) (a b : Nat) : (s.clearRegs a b).plls = s.plls := rfl
@[simp] theorem State.clearRegs_ckos (s : State) (a b : Nat) : (s.clearRegs a b).ckos = s.ckos := rfl
@[simp] theorem State.clearRegs_ports (s : State) (a b : Nat) : (s.clearRegs a b).ports = s.ports := rfl
@[simp] theorem State.clearRegs_slots (s : State) (a b : Nat) : (s.clearRegs a b).slots = s.slots := rfl
@[simp] theorem State.clearRegs_net (s : State) (a b : Nat) : (s.clearRegs a b).net = s.net := rfl
@[simp] theorem State.clearRegs_lines (s : State) (a b : Nat) : (s.clearRegs a b).lines = s.lines := rfl
@[simp] theorem State.clearRegs_banks (s : State) (a b : Nat) : (s.clearRegs a b).banks = s.banks := rfl
@[simp] theorem State.clearRegs_rtc (s : State) (a b : Nat) : (s.clearRegs a b).rtc = s.rtc := rfl
@[simp] theorem State.clearRegs_sup (s : State) (a b : Nat) : (s.clearRegs a b).sup = s.sup := rfl
@[simp] theorem State.clearRegs_umb (s : State) (a b : Nat) : (s.clearRegs a b).umb = s.umb := rfl
@[simp] theorem State.clearRegs_cus (s : State) (a b : Nat) : (s.clearRegs a b).cus = s.cus := rfl
@[simp] theorem State.clearRegs_svc (s : State) (a b : Nat) : (s.clearRegs a b).svc = s.svc := rfl
@[simp] theorem State.clearRegs_tap (s : State) (a b : Nat) : (s.clearRegs a b).tap = s.tap := rfl
@[simp] theorem State.clearRegs_part (s : State) (a b : Nat) : (s.clearRegs a b).part = s.part := rfl
@[simp] theorem State.clearRegs_out (s : State) (a b : Nat) : (s.clearRegs a b).out = s.out := rfl
@[simp] theorem State.clearRegs_free (s : State) (a b : Nat) : (s.clearRegs a b).free = s.free := rfl
@[simp] theorem State.clearRegs_pending (s : State) (a b : Nat) : (s.clearRegs a b).pending = s.pending := rfl
@[simp] theorem State.clearRegs_link_at (s : State) (a b : Nat) (i : Nat) : (s.clearRegs a b).link i = s.link i := rfl
@[simp] theorem State.clearRegs_fec_at (s : State) (a b : Nat) (i : Nat) : (s.clearRegs a b).fec i = s.fec i := rfl
@[simp] theorem State.clearRegs_eng_at (s : State) (a b : Nat) (i : Nat) : (s.clearRegs a b).eng i = s.eng i := rfl
@[simp] theorem State.clearRegs_clu_at (s : State) (a b : Nat) (i : Nat) : (s.clearRegs a b).clu i = s.clu i := rfl
@[simp] theorem State.clearRegs_handle_at (s : State) (a b : Nat) (i : Nat) : (s.clearRegs a b).handle i = s.handle i := rfl
@[simp] theorem State.clearRegs_map_at (s : State) (a b : Nat) (i : Nat) : (s.clearRegs a b).map i = s.map i := rfl
@[simp] theorem State.clearRegs_chan_at (s : State) (a b : Nat) (i : Nat) : (s.clearRegs a b).chan i = s.chan i := rfl
@[simp] theorem State.clearRegs_dsp_at (s : State) (a b : Nat) (i : Nat) : (s.clearRegs a b).dsp i = s.dsp i := rfl
@[simp] theorem State.clearRegs_tp_at (s : State) (a b : Nat) (i : Nat) : (s.clearRegs a b).tp i = s.tp i := rfl
@[simp] theorem State.clearRegs_pll_at (s : State) (a b : Nat) (i : Nat) : (s.clearRegs a b).pll i = s.pll i := rfl
@[simp] theorem State.clearRegs_cko_at (s : State) (a b : Nat) (i : Nat) : (s.clearRegs a b).cko i = s.cko i := rfl
@[simp] theorem State.clearRegs_port_at (s : State) (a b : Nat) (i : Nat) : (s.clearRegs a b).port i = s.port i := rfl
@[simp] theorem State.clearRegs_slot_at (s : State) (a b : Nat) (i : Nat) : (s.clearRegs a b).slot i = s.slot i := rfl
@[simp] theorem State.clearRegs_line_at (s : State) (a b : Nat) (i : Nat) : (s.clearRegs a b).line i = s.line i := rfl
@[simp] theorem State.clearRegs_bank_at (s : State) (a b : Nat) (i : Nat) : (s.clearRegs a b).bank i = s.bank i := rfl
@[simp] theorem State.clearRegs_byteAt (s : State) (a b : Nat) (i : Nat) : (s.clearRegs a b).byteAt i = s.byteAt i := rfl
@[simp] theorem State.clearRegs_flashAt (s : State) (a b : Nat) (i : Nat) : (s.clearRegs a b).flashAt i = s.flashAt i := rfl

/-! ### `emit` -/

@[simp] theorem State.emit_reg (s : State) (o : Out) : (s.emit o).reg = s.reg := rfl
@[simp] theorem State.emit_mem (s : State) (o : Out) : (s.emit o).mem = s.mem := rfl
@[simp] theorem State.emit_flash (s : State) (o : Out) : (s.emit o).flash = s.flash := rfl
@[simp] theorem State.emit_wipes (s : State) (o : Out) : (s.emit o).wipes = s.wipes := rfl
@[simp] theorem State.emit_colds (s : State) (o : Out) : (s.emit o).colds = s.colds := rfl
@[simp] theorem State.emit_ecc (s : State) (o : Out) : (s.emit o).ecc = s.ecc := rfl
@[simp] theorem State.emit_latch (s : State) (o : Out) : (s.emit o).latch = s.latch := rfl
@[simp] theorem State.emit_links (s : State) (o : Out) : (s.emit o).links = s.links := rfl
@[simp] theorem State.emit_fecs (s : State) (o : Out) : (s.emit o).fecs = s.fecs := rfl
@[simp] theorem State.emit_engs (s : State) (o : Out) : (s.emit o).engs = s.engs := rfl
@[simp] theorem State.emit_clus (s : State) (o : Out) : (s.emit o).clus = s.clus := rfl
@[simp] theorem State.emit_handles (s : State) (o : Out) : (s.emit o).handles = s.handles := rfl
@[simp] theorem State.emit_replay (s : State) (o : Out) : (s.emit o).replay = s.replay := rfl
@[simp] theorem State.emit_maps (s : State) (o : Out) : (s.emit o).maps = s.maps := rfl
@[simp] theorem State.emit_chans (s : State) (o : Out) : (s.emit o).chans = s.chans := rfl
@[simp] theorem State.emit_lates (s : State) (o : Out) : (s.emit o).lates = s.lates := rfl
@[simp] theorem State.emit_dsps (s : State) (o : Out) : (s.emit o).dsps = s.dsps := rfl
@[simp] theorem State.emit_nav (s : State) (o : Out) : (s.emit o).nav = s.nav := rfl
@[simp] theorem State.emit_mordant (s : State) (o : Out) : (s.emit o).mordant = s.mordant := rfl
@[simp] theorem State.emit_itg (s : State) (o : Out) : (s.emit o).itg = s.itg := rfl
@[simp] theorem State.emit_tim (s : State) (o : Out) : (s.emit o).tim = s.tim := rfl
@[simp] theorem State.emit_tps (s : State) (o : Out) : (s.emit o).tps = s.tps := rfl
@[simp] theorem State.emit_tpi (s : State) (o : Out) : (s.emit o).tpi = s.tpi := rfl
@[simp] theorem State.emit_plls (s : State) (o : Out) : (s.emit o).plls = s.plls := rfl
@[simp] theorem State.emit_ckos (s : State) (o : Out) : (s.emit o).ckos = s.ckos := rfl
@[simp] theorem State.emit_ports (s : State) (o : Out) : (s.emit o).ports = s.ports := rfl
@[simp] theorem State.emit_slots (s : State) (o : Out) : (s.emit o).slots = s.slots := rfl
@[simp] theorem State.emit_net (s : State) (o : Out) : (s.emit o).net = s.net := rfl
@[simp] theorem State.emit_lines (s : State) (o : Out) : (s.emit o).lines = s.lines := rfl
@[simp] theorem State.emit_banks (s : State) (o : Out) : (s.emit o).banks = s.banks := rfl
@[simp] theorem State.emit_rtc (s : State) (o : Out) : (s.emit o).rtc = s.rtc := rfl
@[simp] theorem State.emit_sup (s : State) (o : Out) : (s.emit o).sup = s.sup := rfl
@[simp] theorem State.emit_umb (s : State) (o : Out) : (s.emit o).umb = s.umb := rfl
@[simp] theorem State.emit_cus (s : State) (o : Out) : (s.emit o).cus = s.cus := rfl
@[simp] theorem State.emit_svc (s : State) (o : Out) : (s.emit o).svc = s.svc := rfl
@[simp] theorem State.emit_tap (s : State) (o : Out) : (s.emit o).tap = s.tap := rfl
@[simp] theorem State.emit_part (s : State) (o : Out) : (s.emit o).part = s.part := rfl
@[simp] theorem State.emit_free (s : State) (o : Out) : (s.emit o).free = s.free := rfl
@[simp] theorem State.emit_pending (s : State) (o : Out) : (s.emit o).pending = s.pending := rfl
@[simp] theorem State.emit_link_at (s : State) (o : Out) (i : Nat) : (s.emit o).link i = s.link i := rfl
@[simp] theorem State.emit_fec_at (s : State) (o : Out) (i : Nat) : (s.emit o).fec i = s.fec i := rfl
@[simp] theorem State.emit_eng_at (s : State) (o : Out) (i : Nat) : (s.emit o).eng i = s.eng i := rfl
@[simp] theorem State.emit_clu_at (s : State) (o : Out) (i : Nat) : (s.emit o).clu i = s.clu i := rfl
@[simp] theorem State.emit_handle_at (s : State) (o : Out) (i : Nat) : (s.emit o).handle i = s.handle i := rfl
@[simp] theorem State.emit_map_at (s : State) (o : Out) (i : Nat) : (s.emit o).map i = s.map i := rfl
@[simp] theorem State.emit_chan_at (s : State) (o : Out) (i : Nat) : (s.emit o).chan i = s.chan i := rfl
@[simp] theorem State.emit_dsp_at (s : State) (o : Out) (i : Nat) : (s.emit o).dsp i = s.dsp i := rfl
@[simp] theorem State.emit_tp_at (s : State) (o : Out) (i : Nat) : (s.emit o).tp i = s.tp i := rfl
@[simp] theorem State.emit_pll_at (s : State) (o : Out) (i : Nat) : (s.emit o).pll i = s.pll i := rfl
@[simp] theorem State.emit_cko_at (s : State) (o : Out) (i : Nat) : (s.emit o).cko i = s.cko i := rfl
@[simp] theorem State.emit_port_at (s : State) (o : Out) (i : Nat) : (s.emit o).port i = s.port i := rfl
@[simp] theorem State.emit_slot_at (s : State) (o : Out) (i : Nat) : (s.emit o).slot i = s.slot i := rfl
@[simp] theorem State.emit_line_at (s : State) (o : Out) (i : Nat) : (s.emit o).line i = s.line i := rfl
@[simp] theorem State.emit_bank_at (s : State) (o : Out) (i : Nat) : (s.emit o).bank i = s.bank i := rfl
@[simp] theorem State.emit_get (s : State) (o : Out) (g : Field) : (s.emit o).get g = s.get g := rfl
@[simp] theorem State.emit_on (s : State) (o : Out) (g : Field) : (s.emit o).on g = s.on g := rfl
@[simp] theorem State.emit_byteAt (s : State) (o : Out) (i : Nat) : (s.emit o).byteAt i = s.byteAt i := rfl
@[simp] theorem State.emit_flashAt (s : State) (o : Out) (i : Nat) : (s.emit o).flashAt i = s.flashAt i := rfl

/-! ### `pokes` -/

@[simp] theorem State.pokes_reg (s : State) (a : Nat) (bs : List Byte) : (s.pokes a bs).reg = s.reg := rfl
@[simp] theorem State.pokes_flash (s : State) (a : Nat) (bs : List Byte) : (s.pokes a bs).flash = s.flash := rfl
@[simp] theorem State.pokes_wipes (s : State) (a : Nat) (bs : List Byte) : (s.pokes a bs).wipes = s.wipes := rfl
@[simp] theorem State.pokes_colds (s : State) (a : Nat) (bs : List Byte) : (s.pokes a bs).colds = s.colds := rfl
@[simp] theorem State.pokes_ecc (s : State) (a : Nat) (bs : List Byte) : (s.pokes a bs).ecc = s.ecc := rfl
@[simp] theorem State.pokes_latch (s : State) (a : Nat) (bs : List Byte) : (s.pokes a bs).latch = s.latch := rfl
@[simp] theorem State.pokes_links (s : State) (a : Nat) (bs : List Byte) : (s.pokes a bs).links = s.links := rfl
@[simp] theorem State.pokes_fecs (s : State) (a : Nat) (bs : List Byte) : (s.pokes a bs).fecs = s.fecs := rfl
@[simp] theorem State.pokes_engs (s : State) (a : Nat) (bs : List Byte) : (s.pokes a bs).engs = s.engs := rfl
@[simp] theorem State.pokes_clus (s : State) (a : Nat) (bs : List Byte) : (s.pokes a bs).clus = s.clus := rfl
@[simp] theorem State.pokes_handles (s : State) (a : Nat) (bs : List Byte) : (s.pokes a bs).handles = s.handles := rfl
@[simp] theorem State.pokes_replay (s : State) (a : Nat) (bs : List Byte) : (s.pokes a bs).replay = s.replay := rfl
@[simp] theorem State.pokes_maps (s : State) (a : Nat) (bs : List Byte) : (s.pokes a bs).maps = s.maps := rfl
@[simp] theorem State.pokes_chans (s : State) (a : Nat) (bs : List Byte) : (s.pokes a bs).chans = s.chans := rfl
@[simp] theorem State.pokes_lates (s : State) (a : Nat) (bs : List Byte) : (s.pokes a bs).lates = s.lates := rfl
@[simp] theorem State.pokes_dsps (s : State) (a : Nat) (bs : List Byte) : (s.pokes a bs).dsps = s.dsps := rfl
@[simp] theorem State.pokes_nav (s : State) (a : Nat) (bs : List Byte) : (s.pokes a bs).nav = s.nav := rfl
@[simp] theorem State.pokes_mordant (s : State) (a : Nat) (bs : List Byte) : (s.pokes a bs).mordant = s.mordant := rfl
@[simp] theorem State.pokes_itg (s : State) (a : Nat) (bs : List Byte) : (s.pokes a bs).itg = s.itg := rfl
@[simp] theorem State.pokes_tim (s : State) (a : Nat) (bs : List Byte) : (s.pokes a bs).tim = s.tim := rfl
@[simp] theorem State.pokes_tps (s : State) (a : Nat) (bs : List Byte) : (s.pokes a bs).tps = s.tps := rfl
@[simp] theorem State.pokes_tpi (s : State) (a : Nat) (bs : List Byte) : (s.pokes a bs).tpi = s.tpi := rfl
@[simp] theorem State.pokes_plls (s : State) (a : Nat) (bs : List Byte) : (s.pokes a bs).plls = s.plls := rfl
@[simp] theorem State.pokes_ckos (s : State) (a : Nat) (bs : List Byte) : (s.pokes a bs).ckos = s.ckos := rfl
@[simp] theorem State.pokes_ports (s : State) (a : Nat) (bs : List Byte) : (s.pokes a bs).ports = s.ports := rfl
@[simp] theorem State.pokes_slots (s : State) (a : Nat) (bs : List Byte) : (s.pokes a bs).slots = s.slots := rfl
@[simp] theorem State.pokes_net (s : State) (a : Nat) (bs : List Byte) : (s.pokes a bs).net = s.net := rfl
@[simp] theorem State.pokes_lines (s : State) (a : Nat) (bs : List Byte) : (s.pokes a bs).lines = s.lines := rfl
@[simp] theorem State.pokes_banks (s : State) (a : Nat) (bs : List Byte) : (s.pokes a bs).banks = s.banks := rfl
@[simp] theorem State.pokes_rtc (s : State) (a : Nat) (bs : List Byte) : (s.pokes a bs).rtc = s.rtc := rfl
@[simp] theorem State.pokes_sup (s : State) (a : Nat) (bs : List Byte) : (s.pokes a bs).sup = s.sup := rfl
@[simp] theorem State.pokes_umb (s : State) (a : Nat) (bs : List Byte) : (s.pokes a bs).umb = s.umb := rfl
@[simp] theorem State.pokes_cus (s : State) (a : Nat) (bs : List Byte) : (s.pokes a bs).cus = s.cus := rfl
@[simp] theorem State.pokes_svc (s : State) (a : Nat) (bs : List Byte) : (s.pokes a bs).svc = s.svc := rfl
@[simp] theorem State.pokes_tap (s : State) (a : Nat) (bs : List Byte) : (s.pokes a bs).tap = s.tap := rfl
@[simp] theorem State.pokes_part (s : State) (a : Nat) (bs : List Byte) : (s.pokes a bs).part = s.part := rfl
@[simp] theorem State.pokes_out (s : State) (a : Nat) (bs : List Byte) : (s.pokes a bs).out = s.out := rfl
@[simp] theorem State.pokes_free (s : State) (a : Nat) (bs : List Byte) : (s.pokes a bs).free = s.free := rfl
@[simp] theorem State.pokes_pending (s : State) (a : Nat) (bs : List Byte) : (s.pokes a bs).pending = s.pending := rfl
@[simp] theorem State.pokes_link_at (s : State) (a : Nat) (bs : List Byte) (i : Nat) : (s.pokes a bs).link i = s.link i := rfl
@[simp] theorem State.pokes_fec_at (s : State) (a : Nat) (bs : List Byte) (i : Nat) : (s.pokes a bs).fec i = s.fec i := rfl
@[simp] theorem State.pokes_eng_at (s : State) (a : Nat) (bs : List Byte) (i : Nat) : (s.pokes a bs).eng i = s.eng i := rfl
@[simp] theorem State.pokes_clu_at (s : State) (a : Nat) (bs : List Byte) (i : Nat) : (s.pokes a bs).clu i = s.clu i := rfl
@[simp] theorem State.pokes_handle_at (s : State) (a : Nat) (bs : List Byte) (i : Nat) : (s.pokes a bs).handle i = s.handle i := rfl
@[simp] theorem State.pokes_map_at (s : State) (a : Nat) (bs : List Byte) (i : Nat) : (s.pokes a bs).map i = s.map i := rfl
@[simp] theorem State.pokes_chan_at (s : State) (a : Nat) (bs : List Byte) (i : Nat) : (s.pokes a bs).chan i = s.chan i := rfl
@[simp] theorem State.pokes_dsp_at (s : State) (a : Nat) (bs : List Byte) (i : Nat) : (s.pokes a bs).dsp i = s.dsp i := rfl
@[simp] theorem State.pokes_tp_at (s : State) (a : Nat) (bs : List Byte) (i : Nat) : (s.pokes a bs).tp i = s.tp i := rfl
@[simp] theorem State.pokes_pll_at (s : State) (a : Nat) (bs : List Byte) (i : Nat) : (s.pokes a bs).pll i = s.pll i := rfl
@[simp] theorem State.pokes_cko_at (s : State) (a : Nat) (bs : List Byte) (i : Nat) : (s.pokes a bs).cko i = s.cko i := rfl
@[simp] theorem State.pokes_port_at (s : State) (a : Nat) (bs : List Byte) (i : Nat) : (s.pokes a bs).port i = s.port i := rfl
@[simp] theorem State.pokes_slot_at (s : State) (a : Nat) (bs : List Byte) (i : Nat) : (s.pokes a bs).slot i = s.slot i := rfl
@[simp] theorem State.pokes_line_at (s : State) (a : Nat) (bs : List Byte) (i : Nat) : (s.pokes a bs).line i = s.line i := rfl
@[simp] theorem State.pokes_bank_at (s : State) (a : Nat) (bs : List Byte) (i : Nat) : (s.pokes a bs).bank i = s.bank i := rfl
@[simp] theorem State.pokes_get (s : State) (a : Nat) (bs : List Byte) (g : Field) : (s.pokes a bs).get g = s.get g := rfl
@[simp] theorem State.pokes_on (s : State) (a : Nat) (bs : List Byte) (g : Field) : (s.pokes a bs).on g = s.on g := rfl
@[simp] theorem State.pokes_flashAt (s : State) (a : Nat) (bs : List Byte) (i : Nat) : (s.pokes a bs).flashAt i = s.flashAt i := rfl

/-! ### `clrEcc` -/

@[simp] theorem State.clrEcc_reg (s : State) (k : MemClass) (a : Nat) : (s.clrEcc k a).reg = s.reg := rfl
@[simp] theorem State.clrEcc_mem (s : State) (k : MemClass) (a : Nat) : (s.clrEcc k a).mem = s.mem := rfl
@[simp] theorem State.clrEcc_flash (s : State) (k : MemClass) (a : Nat) : (s.clrEcc k a).flash = s.flash := rfl
@[simp] theorem State.clrEcc_wipes (s : State) (k : MemClass) (a : Nat) : (s.clrEcc k a).wipes = s.wipes := rfl
@[simp] theorem State.clrEcc_colds (s : State) (k : MemClass) (a : Nat) : (s.clrEcc k a).colds = s.colds := rfl
@[simp] theorem State.clrEcc_latch (s : State) (k : MemClass) (a : Nat) : (s.clrEcc k a).latch = s.latch := rfl
@[simp] theorem State.clrEcc_links (s : State) (k : MemClass) (a : Nat) : (s.clrEcc k a).links = s.links := rfl
@[simp] theorem State.clrEcc_fecs (s : State) (k : MemClass) (a : Nat) : (s.clrEcc k a).fecs = s.fecs := rfl
@[simp] theorem State.clrEcc_engs (s : State) (k : MemClass) (a : Nat) : (s.clrEcc k a).engs = s.engs := rfl
@[simp] theorem State.clrEcc_clus (s : State) (k : MemClass) (a : Nat) : (s.clrEcc k a).clus = s.clus := rfl
@[simp] theorem State.clrEcc_handles (s : State) (k : MemClass) (a : Nat) : (s.clrEcc k a).handles = s.handles := rfl
@[simp] theorem State.clrEcc_replay (s : State) (k : MemClass) (a : Nat) : (s.clrEcc k a).replay = s.replay := rfl
@[simp] theorem State.clrEcc_maps (s : State) (k : MemClass) (a : Nat) : (s.clrEcc k a).maps = s.maps := rfl
@[simp] theorem State.clrEcc_chans (s : State) (k : MemClass) (a : Nat) : (s.clrEcc k a).chans = s.chans := rfl
@[simp] theorem State.clrEcc_lates (s : State) (k : MemClass) (a : Nat) : (s.clrEcc k a).lates = s.lates := rfl
@[simp] theorem State.clrEcc_dsps (s : State) (k : MemClass) (a : Nat) : (s.clrEcc k a).dsps = s.dsps := rfl
@[simp] theorem State.clrEcc_nav (s : State) (k : MemClass) (a : Nat) : (s.clrEcc k a).nav = s.nav := rfl
@[simp] theorem State.clrEcc_mordant (s : State) (k : MemClass) (a : Nat) : (s.clrEcc k a).mordant = s.mordant := rfl
@[simp] theorem State.clrEcc_itg (s : State) (k : MemClass) (a : Nat) : (s.clrEcc k a).itg = s.itg := rfl
@[simp] theorem State.clrEcc_tim (s : State) (k : MemClass) (a : Nat) : (s.clrEcc k a).tim = s.tim := rfl
@[simp] theorem State.clrEcc_tps (s : State) (k : MemClass) (a : Nat) : (s.clrEcc k a).tps = s.tps := rfl
@[simp] theorem State.clrEcc_tpi (s : State) (k : MemClass) (a : Nat) : (s.clrEcc k a).tpi = s.tpi := rfl
@[simp] theorem State.clrEcc_plls (s : State) (k : MemClass) (a : Nat) : (s.clrEcc k a).plls = s.plls := rfl
@[simp] theorem State.clrEcc_ckos (s : State) (k : MemClass) (a : Nat) : (s.clrEcc k a).ckos = s.ckos := rfl
@[simp] theorem State.clrEcc_ports (s : State) (k : MemClass) (a : Nat) : (s.clrEcc k a).ports = s.ports := rfl
@[simp] theorem State.clrEcc_slots (s : State) (k : MemClass) (a : Nat) : (s.clrEcc k a).slots = s.slots := rfl
@[simp] theorem State.clrEcc_net (s : State) (k : MemClass) (a : Nat) : (s.clrEcc k a).net = s.net := rfl
@[simp] theorem State.clrEcc_lines (s : State) (k : MemClass) (a : Nat) : (s.clrEcc k a).lines = s.lines := rfl
@[simp] theorem State.clrEcc_banks (s : State) (k : MemClass) (a : Nat) : (s.clrEcc k a).banks = s.banks := rfl
@[simp] theorem State.clrEcc_rtc (s : State) (k : MemClass) (a : Nat) : (s.clrEcc k a).rtc = s.rtc := rfl
@[simp] theorem State.clrEcc_sup (s : State) (k : MemClass) (a : Nat) : (s.clrEcc k a).sup = s.sup := rfl
@[simp] theorem State.clrEcc_umb (s : State) (k : MemClass) (a : Nat) : (s.clrEcc k a).umb = s.umb := rfl
@[simp] theorem State.clrEcc_cus (s : State) (k : MemClass) (a : Nat) : (s.clrEcc k a).cus = s.cus := rfl
@[simp] theorem State.clrEcc_svc (s : State) (k : MemClass) (a : Nat) : (s.clrEcc k a).svc = s.svc := rfl
@[simp] theorem State.clrEcc_tap (s : State) (k : MemClass) (a : Nat) : (s.clrEcc k a).tap = s.tap := rfl
@[simp] theorem State.clrEcc_part (s : State) (k : MemClass) (a : Nat) : (s.clrEcc k a).part = s.part := rfl
@[simp] theorem State.clrEcc_out (s : State) (k : MemClass) (a : Nat) : (s.clrEcc k a).out = s.out := rfl
@[simp] theorem State.clrEcc_free (s : State) (k : MemClass) (a : Nat) : (s.clrEcc k a).free = s.free := rfl
@[simp] theorem State.clrEcc_pending (s : State) (k : MemClass) (a : Nat) : (s.clrEcc k a).pending = s.pending := rfl
@[simp] theorem State.clrEcc_link_at (s : State) (k : MemClass) (a : Nat) (i : Nat) : (s.clrEcc k a).link i = s.link i := rfl
@[simp] theorem State.clrEcc_fec_at (s : State) (k : MemClass) (a : Nat) (i : Nat) : (s.clrEcc k a).fec i = s.fec i := rfl
@[simp] theorem State.clrEcc_eng_at (s : State) (k : MemClass) (a : Nat) (i : Nat) : (s.clrEcc k a).eng i = s.eng i := rfl
@[simp] theorem State.clrEcc_clu_at (s : State) (k : MemClass) (a : Nat) (i : Nat) : (s.clrEcc k a).clu i = s.clu i := rfl
@[simp] theorem State.clrEcc_handle_at (s : State) (k : MemClass) (a : Nat) (i : Nat) : (s.clrEcc k a).handle i = s.handle i := rfl
@[simp] theorem State.clrEcc_map_at (s : State) (k : MemClass) (a : Nat) (i : Nat) : (s.clrEcc k a).map i = s.map i := rfl
@[simp] theorem State.clrEcc_chan_at (s : State) (k : MemClass) (a : Nat) (i : Nat) : (s.clrEcc k a).chan i = s.chan i := rfl
@[simp] theorem State.clrEcc_dsp_at (s : State) (k : MemClass) (a : Nat) (i : Nat) : (s.clrEcc k a).dsp i = s.dsp i := rfl
@[simp] theorem State.clrEcc_tp_at (s : State) (k : MemClass) (a : Nat) (i : Nat) : (s.clrEcc k a).tp i = s.tp i := rfl
@[simp] theorem State.clrEcc_pll_at (s : State) (k : MemClass) (a : Nat) (i : Nat) : (s.clrEcc k a).pll i = s.pll i := rfl
@[simp] theorem State.clrEcc_cko_at (s : State) (k : MemClass) (a : Nat) (i : Nat) : (s.clrEcc k a).cko i = s.cko i := rfl
@[simp] theorem State.clrEcc_port_at (s : State) (k : MemClass) (a : Nat) (i : Nat) : (s.clrEcc k a).port i = s.port i := rfl
@[simp] theorem State.clrEcc_slot_at (s : State) (k : MemClass) (a : Nat) (i : Nat) : (s.clrEcc k a).slot i = s.slot i := rfl
@[simp] theorem State.clrEcc_line_at (s : State) (k : MemClass) (a : Nat) (i : Nat) : (s.clrEcc k a).line i = s.line i := rfl
@[simp] theorem State.clrEcc_bank_at (s : State) (k : MemClass) (a : Nat) (i : Nat) : (s.clrEcc k a).bank i = s.bank i := rfl
@[simp] theorem State.clrEcc_get (s : State) (k : MemClass) (a : Nat) (g : Field) : (s.clrEcc k a).get g = s.get g := rfl
@[simp] theorem State.clrEcc_on (s : State) (k : MemClass) (a : Nat) (g : Field) : (s.clrEcc k a).on g = s.on g := rfl
@[simp] theorem State.clrEcc_byteAt (s : State) (k : MemClass) (a : Nat) (i : Nat) : (s.clrEcc k a).byteAt i = s.byteAt i := rfl
@[simp] theorem State.clrEcc_flashAt (s : State) (k : MemClass) (a : Nat) (i : Nat) : (s.clrEcc k a).flashAt i = s.flashAt i := rfl

/-! ### `hold` -/

@[simp] theorem State.hold_reg (s : State) (m : Master) (a v : Nat) : (s.hold m a v).reg = s.reg := rfl
@[simp] theorem State.hold_mem (s : State) (m : Master) (a v : Nat) : (s.hold m a v).mem = s.mem := rfl
@[simp] theorem State.hold_flash (s : State) (m : Master) (a v : Nat) : (s.hold m a v).flash = s.flash := rfl
@[simp] theorem State.hold_wipes (s : State) (m : Master) (a v : Nat) : (s.hold m a v).wipes = s.wipes := rfl
@[simp] theorem State.hold_colds (s : State) (m : Master) (a v : Nat) : (s.hold m a v).colds = s.colds := rfl
@[simp] theorem State.hold_ecc (s : State) (m : Master) (a v : Nat) : (s.hold m a v).ecc = s.ecc := rfl
@[simp] theorem State.hold_links (s : State) (m : Master) (a v : Nat) : (s.hold m a v).links = s.links := rfl
@[simp] theorem State.hold_fecs (s : State) (m : Master) (a v : Nat) : (s.hold m a v).fecs = s.fecs := rfl
@[simp] theorem State.hold_engs (s : State) (m : Master) (a v : Nat) : (s.hold m a v).engs = s.engs := rfl
@[simp] theorem State.hold_clus (s : State) (m : Master) (a v : Nat) : (s.hold m a v).clus = s.clus := rfl
@[simp] theorem State.hold_handles (s : State) (m : Master) (a v : Nat) : (s.hold m a v).handles = s.handles := rfl
@[simp] theorem State.hold_replay (s : State) (m : Master) (a v : Nat) : (s.hold m a v).replay = s.replay := rfl
@[simp] theorem State.hold_maps (s : State) (m : Master) (a v : Nat) : (s.hold m a v).maps = s.maps := rfl
@[simp] theorem State.hold_chans (s : State) (m : Master) (a v : Nat) : (s.hold m a v).chans = s.chans := rfl
@[simp] theorem State.hold_lates (s : State) (m : Master) (a v : Nat) : (s.hold m a v).lates = s.lates := rfl
@[simp] theorem State.hold_dsps (s : State) (m : Master) (a v : Nat) : (s.hold m a v).dsps = s.dsps := rfl
@[simp] theorem State.hold_nav (s : State) (m : Master) (a v : Nat) : (s.hold m a v).nav = s.nav := rfl
@[simp] theorem State.hold_mordant (s : State) (m : Master) (a v : Nat) : (s.hold m a v).mordant = s.mordant := rfl
@[simp] theorem State.hold_itg (s : State) (m : Master) (a v : Nat) : (s.hold m a v).itg = s.itg := rfl
@[simp] theorem State.hold_tim (s : State) (m : Master) (a v : Nat) : (s.hold m a v).tim = s.tim := rfl
@[simp] theorem State.hold_tps (s : State) (m : Master) (a v : Nat) : (s.hold m a v).tps = s.tps := rfl
@[simp] theorem State.hold_tpi (s : State) (m : Master) (a v : Nat) : (s.hold m a v).tpi = s.tpi := rfl
@[simp] theorem State.hold_plls (s : State) (m : Master) (a v : Nat) : (s.hold m a v).plls = s.plls := rfl
@[simp] theorem State.hold_ckos (s : State) (m : Master) (a v : Nat) : (s.hold m a v).ckos = s.ckos := rfl
@[simp] theorem State.hold_ports (s : State) (m : Master) (a v : Nat) : (s.hold m a v).ports = s.ports := rfl
@[simp] theorem State.hold_slots (s : State) (m : Master) (a v : Nat) : (s.hold m a v).slots = s.slots := rfl
@[simp] theorem State.hold_net (s : State) (m : Master) (a v : Nat) : (s.hold m a v).net = s.net := rfl
@[simp] theorem State.hold_lines (s : State) (m : Master) (a v : Nat) : (s.hold m a v).lines = s.lines := rfl
@[simp] theorem State.hold_banks (s : State) (m : Master) (a v : Nat) : (s.hold m a v).banks = s.banks := rfl
@[simp] theorem State.hold_rtc (s : State) (m : Master) (a v : Nat) : (s.hold m a v).rtc = s.rtc := rfl
@[simp] theorem State.hold_sup (s : State) (m : Master) (a v : Nat) : (s.hold m a v).sup = s.sup := rfl
@[simp] theorem State.hold_umb (s : State) (m : Master) (a v : Nat) : (s.hold m a v).umb = s.umb := rfl
@[simp] theorem State.hold_cus (s : State) (m : Master) (a v : Nat) : (s.hold m a v).cus = s.cus := rfl
@[simp] theorem State.hold_svc (s : State) (m : Master) (a v : Nat) : (s.hold m a v).svc = s.svc := rfl
@[simp] theorem State.hold_tap (s : State) (m : Master) (a v : Nat) : (s.hold m a v).tap = s.tap := rfl
@[simp] theorem State.hold_part (s : State) (m : Master) (a v : Nat) : (s.hold m a v).part = s.part := rfl
@[simp] theorem State.hold_out (s : State) (m : Master) (a v : Nat) : (s.hold m a v).out = s.out := rfl
@[simp] theorem State.hold_free (s : State) (m : Master) (a v : Nat) : (s.hold m a v).free = s.free := rfl
@[simp] theorem State.hold_pending (s : State) (m : Master) (a v : Nat) : (s.hold m a v).pending = s.pending := rfl
@[simp] theorem State.hold_link_at (s : State) (m : Master) (a v : Nat) (i : Nat) : (s.hold m a v).link i = s.link i := rfl
@[simp] theorem State.hold_fec_at (s : State) (m : Master) (a v : Nat) (i : Nat) : (s.hold m a v).fec i = s.fec i := rfl
@[simp] theorem State.hold_eng_at (s : State) (m : Master) (a v : Nat) (i : Nat) : (s.hold m a v).eng i = s.eng i := rfl
@[simp] theorem State.hold_clu_at (s : State) (m : Master) (a v : Nat) (i : Nat) : (s.hold m a v).clu i = s.clu i := rfl
@[simp] theorem State.hold_handle_at (s : State) (m : Master) (a v : Nat) (i : Nat) : (s.hold m a v).handle i = s.handle i := rfl
@[simp] theorem State.hold_map_at (s : State) (m : Master) (a v : Nat) (i : Nat) : (s.hold m a v).map i = s.map i := rfl
@[simp] theorem State.hold_chan_at (s : State) (m : Master) (a v : Nat) (i : Nat) : (s.hold m a v).chan i = s.chan i := rfl
@[simp] theorem State.hold_dsp_at (s : State) (m : Master) (a v : Nat) (i : Nat) : (s.hold m a v).dsp i = s.dsp i := rfl
@[simp] theorem State.hold_tp_at (s : State) (m : Master) (a v : Nat) (i : Nat) : (s.hold m a v).tp i = s.tp i := rfl
@[simp] theorem State.hold_pll_at (s : State) (m : Master) (a v : Nat) (i : Nat) : (s.hold m a v).pll i = s.pll i := rfl
@[simp] theorem State.hold_cko_at (s : State) (m : Master) (a v : Nat) (i : Nat) : (s.hold m a v).cko i = s.cko i := rfl
@[simp] theorem State.hold_port_at (s : State) (m : Master) (a v : Nat) (i : Nat) : (s.hold m a v).port i = s.port i := rfl
@[simp] theorem State.hold_slot_at (s : State) (m : Master) (a v : Nat) (i : Nat) : (s.hold m a v).slot i = s.slot i := rfl
@[simp] theorem State.hold_line_at (s : State) (m : Master) (a v : Nat) (i : Nat) : (s.hold m a v).line i = s.line i := rfl
@[simp] theorem State.hold_bank_at (s : State) (m : Master) (a v : Nat) (i : Nat) : (s.hold m a v).bank i = s.bank i := rfl
@[simp] theorem State.hold_get (s : State) (m : Master) (a v : Nat) (g : Field) : (s.hold m a v).get g = s.get g := rfl
@[simp] theorem State.hold_on (s : State) (m : Master) (a v : Nat) (g : Field) : (s.hold m a v).on g = s.on g := rfl
@[simp] theorem State.hold_byteAt (s : State) (m : Master) (a v : Nat) (i : Nat) : (s.hold m a v).byteAt i = s.byteAt i := rfl
@[simp] theorem State.hold_flashAt (s : State) (m : Master) (a v : Nat) (i : Nat) : (s.hold m a v).flashAt i = s.flashAt i := rfl

/-! ### `release` -/

@[simp] theorem State.release_reg (s : State) (m : Master) (a : Nat) : (s.release m a).reg = s.reg := rfl
@[simp] theorem State.release_mem (s : State) (m : Master) (a : Nat) : (s.release m a).mem = s.mem := rfl
@[simp] theorem State.release_flash (s : State) (m : Master) (a : Nat) : (s.release m a).flash = s.flash := rfl
@[simp] theorem State.release_wipes (s : State) (m : Master) (a : Nat) : (s.release m a).wipes = s.wipes := rfl
@[simp] theorem State.release_colds (s : State) (m : Master) (a : Nat) : (s.release m a).colds = s.colds := rfl
@[simp] theorem State.release_ecc (s : State) (m : Master) (a : Nat) : (s.release m a).ecc = s.ecc := rfl
@[simp] theorem State.release_links (s : State) (m : Master) (a : Nat) : (s.release m a).links = s.links := rfl
@[simp] theorem State.release_fecs (s : State) (m : Master) (a : Nat) : (s.release m a).fecs = s.fecs := rfl
@[simp] theorem State.release_engs (s : State) (m : Master) (a : Nat) : (s.release m a).engs = s.engs := rfl
@[simp] theorem State.release_clus (s : State) (m : Master) (a : Nat) : (s.release m a).clus = s.clus := rfl
@[simp] theorem State.release_handles (s : State) (m : Master) (a : Nat) : (s.release m a).handles = s.handles := rfl
@[simp] theorem State.release_replay (s : State) (m : Master) (a : Nat) : (s.release m a).replay = s.replay := rfl
@[simp] theorem State.release_maps (s : State) (m : Master) (a : Nat) : (s.release m a).maps = s.maps := rfl
@[simp] theorem State.release_chans (s : State) (m : Master) (a : Nat) : (s.release m a).chans = s.chans := rfl
@[simp] theorem State.release_lates (s : State) (m : Master) (a : Nat) : (s.release m a).lates = s.lates := rfl
@[simp] theorem State.release_dsps (s : State) (m : Master) (a : Nat) : (s.release m a).dsps = s.dsps := rfl
@[simp] theorem State.release_nav (s : State) (m : Master) (a : Nat) : (s.release m a).nav = s.nav := rfl
@[simp] theorem State.release_mordant (s : State) (m : Master) (a : Nat) : (s.release m a).mordant = s.mordant := rfl
@[simp] theorem State.release_itg (s : State) (m : Master) (a : Nat) : (s.release m a).itg = s.itg := rfl
@[simp] theorem State.release_tim (s : State) (m : Master) (a : Nat) : (s.release m a).tim = s.tim := rfl
@[simp] theorem State.release_tps (s : State) (m : Master) (a : Nat) : (s.release m a).tps = s.tps := rfl
@[simp] theorem State.release_tpi (s : State) (m : Master) (a : Nat) : (s.release m a).tpi = s.tpi := rfl
@[simp] theorem State.release_plls (s : State) (m : Master) (a : Nat) : (s.release m a).plls = s.plls := rfl
@[simp] theorem State.release_ckos (s : State) (m : Master) (a : Nat) : (s.release m a).ckos = s.ckos := rfl
@[simp] theorem State.release_ports (s : State) (m : Master) (a : Nat) : (s.release m a).ports = s.ports := rfl
@[simp] theorem State.release_slots (s : State) (m : Master) (a : Nat) : (s.release m a).slots = s.slots := rfl
@[simp] theorem State.release_net (s : State) (m : Master) (a : Nat) : (s.release m a).net = s.net := rfl
@[simp] theorem State.release_lines (s : State) (m : Master) (a : Nat) : (s.release m a).lines = s.lines := rfl
@[simp] theorem State.release_banks (s : State) (m : Master) (a : Nat) : (s.release m a).banks = s.banks := rfl
@[simp] theorem State.release_rtc (s : State) (m : Master) (a : Nat) : (s.release m a).rtc = s.rtc := rfl
@[simp] theorem State.release_sup (s : State) (m : Master) (a : Nat) : (s.release m a).sup = s.sup := rfl
@[simp] theorem State.release_umb (s : State) (m : Master) (a : Nat) : (s.release m a).umb = s.umb := rfl
@[simp] theorem State.release_cus (s : State) (m : Master) (a : Nat) : (s.release m a).cus = s.cus := rfl
@[simp] theorem State.release_svc (s : State) (m : Master) (a : Nat) : (s.release m a).svc = s.svc := rfl
@[simp] theorem State.release_tap (s : State) (m : Master) (a : Nat) : (s.release m a).tap = s.tap := rfl
@[simp] theorem State.release_part (s : State) (m : Master) (a : Nat) : (s.release m a).part = s.part := rfl
@[simp] theorem State.release_out (s : State) (m : Master) (a : Nat) : (s.release m a).out = s.out := rfl
@[simp] theorem State.release_free (s : State) (m : Master) (a : Nat) : (s.release m a).free = s.free := rfl
@[simp] theorem State.release_pending (s : State) (m : Master) (a : Nat) : (s.release m a).pending = s.pending := rfl
@[simp] theorem State.release_link_at (s : State) (m : Master) (a : Nat) (i : Nat) : (s.release m a).link i = s.link i := rfl
@[simp] theorem State.release_fec_at (s : State) (m : Master) (a : Nat) (i : Nat) : (s.release m a).fec i = s.fec i := rfl
@[simp] theorem State.release_eng_at (s : State) (m : Master) (a : Nat) (i : Nat) : (s.release m a).eng i = s.eng i := rfl
@[simp] theorem State.release_clu_at (s : State) (m : Master) (a : Nat) (i : Nat) : (s.release m a).clu i = s.clu i := rfl
@[simp] theorem State.release_handle_at (s : State) (m : Master) (a : Nat) (i : Nat) : (s.release m a).handle i = s.handle i := rfl
@[simp] theorem State.release_map_at (s : State) (m : Master) (a : Nat) (i : Nat) : (s.release m a).map i = s.map i := rfl
@[simp] theorem State.release_chan_at (s : State) (m : Master) (a : Nat) (i : Nat) : (s.release m a).chan i = s.chan i := rfl
@[simp] theorem State.release_dsp_at (s : State) (m : Master) (a : Nat) (i : Nat) : (s.release m a).dsp i = s.dsp i := rfl
@[simp] theorem State.release_tp_at (s : State) (m : Master) (a : Nat) (i : Nat) : (s.release m a).tp i = s.tp i := rfl
@[simp] theorem State.release_pll_at (s : State) (m : Master) (a : Nat) (i : Nat) : (s.release m a).pll i = s.pll i := rfl
@[simp] theorem State.release_cko_at (s : State) (m : Master) (a : Nat) (i : Nat) : (s.release m a).cko i = s.cko i := rfl
@[simp] theorem State.release_port_at (s : State) (m : Master) (a : Nat) (i : Nat) : (s.release m a).port i = s.port i := rfl
@[simp] theorem State.release_slot_at (s : State) (m : Master) (a : Nat) (i : Nat) : (s.release m a).slot i = s.slot i := rfl
@[simp] theorem State.release_line_at (s : State) (m : Master) (a : Nat) (i : Nat) : (s.release m a).line i = s.line i := rfl
@[simp] theorem State.release_bank_at (s : State) (m : Master) (a : Nat) (i : Nat) : (s.release m a).bank i = s.bank i := rfl
@[simp] theorem State.release_get (s : State) (m : Master) (a : Nat) (g : Field) : (s.release m a).get g = s.get g := rfl
@[simp] theorem State.release_on (s : State) (m : Master) (a : Nat) (g : Field) : (s.release m a).on g = s.on g := rfl
@[simp] theorem State.release_byteAt (s : State) (m : Master) (a : Nat) (i : Nat) : (s.release m a).byteAt i = s.byteAt i := rfl
@[simp] theorem State.release_flashAt (s : State) (m : Master) (a : Nat) (i : Nat) : (s.release m a).flashAt i = s.flashAt i := rfl

/-! ### `clearLatches` -/

@[simp] theorem State.clearLatches_reg (s : State) (a b : Nat) : (s.clearLatches a b).reg = s.reg := rfl
@[simp] theorem State.clearLatches_mem (s : State) (a b : Nat) : (s.clearLatches a b).mem = s.mem := rfl
@[simp] theorem State.clearLatches_flash (s : State) (a b : Nat) : (s.clearLatches a b).flash = s.flash := rfl
@[simp] theorem State.clearLatches_wipes (s : State) (a b : Nat) : (s.clearLatches a b).wipes = s.wipes := rfl
@[simp] theorem State.clearLatches_colds (s : State) (a b : Nat) : (s.clearLatches a b).colds = s.colds := rfl
@[simp] theorem State.clearLatches_ecc (s : State) (a b : Nat) : (s.clearLatches a b).ecc = s.ecc := rfl
@[simp] theorem State.clearLatches_links (s : State) (a b : Nat) : (s.clearLatches a b).links = s.links := rfl
@[simp] theorem State.clearLatches_fecs (s : State) (a b : Nat) : (s.clearLatches a b).fecs = s.fecs := rfl
@[simp] theorem State.clearLatches_engs (s : State) (a b : Nat) : (s.clearLatches a b).engs = s.engs := rfl
@[simp] theorem State.clearLatches_clus (s : State) (a b : Nat) : (s.clearLatches a b).clus = s.clus := rfl
@[simp] theorem State.clearLatches_handles (s : State) (a b : Nat) : (s.clearLatches a b).handles = s.handles := rfl
@[simp] theorem State.clearLatches_replay (s : State) (a b : Nat) : (s.clearLatches a b).replay = s.replay := rfl
@[simp] theorem State.clearLatches_maps (s : State) (a b : Nat) : (s.clearLatches a b).maps = s.maps := rfl
@[simp] theorem State.clearLatches_chans (s : State) (a b : Nat) : (s.clearLatches a b).chans = s.chans := rfl
@[simp] theorem State.clearLatches_lates (s : State) (a b : Nat) : (s.clearLatches a b).lates = s.lates := rfl
@[simp] theorem State.clearLatches_dsps (s : State) (a b : Nat) : (s.clearLatches a b).dsps = s.dsps := rfl
@[simp] theorem State.clearLatches_nav (s : State) (a b : Nat) : (s.clearLatches a b).nav = s.nav := rfl
@[simp] theorem State.clearLatches_mordant (s : State) (a b : Nat) : (s.clearLatches a b).mordant = s.mordant := rfl
@[simp] theorem State.clearLatches_itg (s : State) (a b : Nat) : (s.clearLatches a b).itg = s.itg := rfl
@[simp] theorem State.clearLatches_tim (s : State) (a b : Nat) : (s.clearLatches a b).tim = s.tim := rfl
@[simp] theorem State.clearLatches_tps (s : State) (a b : Nat) : (s.clearLatches a b).tps = s.tps := rfl
@[simp] theorem State.clearLatches_tpi (s : State) (a b : Nat) : (s.clearLatches a b).tpi = s.tpi := rfl
@[simp] theorem State.clearLatches_plls (s : State) (a b : Nat) : (s.clearLatches a b).plls = s.plls := rfl
@[simp] theorem State.clearLatches_ckos (s : State) (a b : Nat) : (s.clearLatches a b).ckos = s.ckos := rfl
@[simp] theorem State.clearLatches_ports (s : State) (a b : Nat) : (s.clearLatches a b).ports = s.ports := rfl
@[simp] theorem State.clearLatches_slots (s : State) (a b : Nat) : (s.clearLatches a b).slots = s.slots := rfl
@[simp] theorem State.clearLatches_net (s : State) (a b : Nat) : (s.clearLatches a b).net = s.net := rfl
@[simp] theorem State.clearLatches_lines (s : State) (a b : Nat) : (s.clearLatches a b).lines = s.lines := rfl
@[simp] theorem State.clearLatches_banks (s : State) (a b : Nat) : (s.clearLatches a b).banks = s.banks := rfl
@[simp] theorem State.clearLatches_rtc (s : State) (a b : Nat) : (s.clearLatches a b).rtc = s.rtc := rfl
@[simp] theorem State.clearLatches_sup (s : State) (a b : Nat) : (s.clearLatches a b).sup = s.sup := rfl
@[simp] theorem State.clearLatches_umb (s : State) (a b : Nat) : (s.clearLatches a b).umb = s.umb := rfl
@[simp] theorem State.clearLatches_cus (s : State) (a b : Nat) : (s.clearLatches a b).cus = s.cus := rfl
@[simp] theorem State.clearLatches_svc (s : State) (a b : Nat) : (s.clearLatches a b).svc = s.svc := rfl
@[simp] theorem State.clearLatches_tap (s : State) (a b : Nat) : (s.clearLatches a b).tap = s.tap := rfl
@[simp] theorem State.clearLatches_part (s : State) (a b : Nat) : (s.clearLatches a b).part = s.part := rfl
@[simp] theorem State.clearLatches_out (s : State) (a b : Nat) : (s.clearLatches a b).out = s.out := rfl
@[simp] theorem State.clearLatches_free (s : State) (a b : Nat) : (s.clearLatches a b).free = s.free := rfl
@[simp] theorem State.clearLatches_pending (s : State) (a b : Nat) : (s.clearLatches a b).pending = s.pending := rfl
@[simp] theorem State.clearLatches_link_at (s : State) (a b : Nat) (i : Nat) : (s.clearLatches a b).link i = s.link i := rfl
@[simp] theorem State.clearLatches_fec_at (s : State) (a b : Nat) (i : Nat) : (s.clearLatches a b).fec i = s.fec i := rfl
@[simp] theorem State.clearLatches_eng_at (s : State) (a b : Nat) (i : Nat) : (s.clearLatches a b).eng i = s.eng i := rfl
@[simp] theorem State.clearLatches_clu_at (s : State) (a b : Nat) (i : Nat) : (s.clearLatches a b).clu i = s.clu i := rfl
@[simp] theorem State.clearLatches_handle_at (s : State) (a b : Nat) (i : Nat) : (s.clearLatches a b).handle i = s.handle i := rfl
@[simp] theorem State.clearLatches_map_at (s : State) (a b : Nat) (i : Nat) : (s.clearLatches a b).map i = s.map i := rfl
@[simp] theorem State.clearLatches_chan_at (s : State) (a b : Nat) (i : Nat) : (s.clearLatches a b).chan i = s.chan i := rfl
@[simp] theorem State.clearLatches_dsp_at (s : State) (a b : Nat) (i : Nat) : (s.clearLatches a b).dsp i = s.dsp i := rfl
@[simp] theorem State.clearLatches_tp_at (s : State) (a b : Nat) (i : Nat) : (s.clearLatches a b).tp i = s.tp i := rfl
@[simp] theorem State.clearLatches_pll_at (s : State) (a b : Nat) (i : Nat) : (s.clearLatches a b).pll i = s.pll i := rfl
@[simp] theorem State.clearLatches_cko_at (s : State) (a b : Nat) (i : Nat) : (s.clearLatches a b).cko i = s.cko i := rfl
@[simp] theorem State.clearLatches_port_at (s : State) (a b : Nat) (i : Nat) : (s.clearLatches a b).port i = s.port i := rfl
@[simp] theorem State.clearLatches_slot_at (s : State) (a b : Nat) (i : Nat) : (s.clearLatches a b).slot i = s.slot i := rfl
@[simp] theorem State.clearLatches_line_at (s : State) (a b : Nat) (i : Nat) : (s.clearLatches a b).line i = s.line i := rfl
@[simp] theorem State.clearLatches_bank_at (s : State) (a b : Nat) (i : Nat) : (s.clearLatches a b).bank i = s.bank i := rfl
@[simp] theorem State.clearLatches_get (s : State) (a b : Nat) (g : Field) : (s.clearLatches a b).get g = s.get g := rfl
@[simp] theorem State.clearLatches_on (s : State) (a b : Nat) (g : Field) : (s.clearLatches a b).on g = s.on g := rfl
@[simp] theorem State.clearLatches_byteAt (s : State) (a b : Nat) (i : Nat) : (s.clearLatches a b).byteAt i = s.byteAt i := rfl
@[simp] theorem State.clearLatches_flashAt (s : State) (a b : Nat) (i : Nat) : (s.clearLatches a b).flashAt i = s.flashAt i := rfl

/-! ### `setLink` -/

@[simp] theorem State.setLink_reg (s : State) (n : Nat) (x : LinkSt) : (s.setLink n x).reg = s.reg := rfl
@[simp] theorem State.setLink_mem (s : State) (n : Nat) (x : LinkSt) : (s.setLink n x).mem = s.mem := rfl
@[simp] theorem State.setLink_flash (s : State) (n : Nat) (x : LinkSt) : (s.setLink n x).flash = s.flash := rfl
@[simp] theorem State.setLink_wipes (s : State) (n : Nat) (x : LinkSt) : (s.setLink n x).wipes = s.wipes := rfl
@[simp] theorem State.setLink_colds (s : State) (n : Nat) (x : LinkSt) : (s.setLink n x).colds = s.colds := rfl
@[simp] theorem State.setLink_ecc (s : State) (n : Nat) (x : LinkSt) : (s.setLink n x).ecc = s.ecc := rfl
@[simp] theorem State.setLink_latch (s : State) (n : Nat) (x : LinkSt) : (s.setLink n x).latch = s.latch := rfl
@[simp] theorem State.setLink_fecs (s : State) (n : Nat) (x : LinkSt) : (s.setLink n x).fecs = s.fecs := rfl
@[simp] theorem State.setLink_engs (s : State) (n : Nat) (x : LinkSt) : (s.setLink n x).engs = s.engs := rfl
@[simp] theorem State.setLink_clus (s : State) (n : Nat) (x : LinkSt) : (s.setLink n x).clus = s.clus := rfl
@[simp] theorem State.setLink_handles (s : State) (n : Nat) (x : LinkSt) : (s.setLink n x).handles = s.handles := rfl
@[simp] theorem State.setLink_replay (s : State) (n : Nat) (x : LinkSt) : (s.setLink n x).replay = s.replay := rfl
@[simp] theorem State.setLink_maps (s : State) (n : Nat) (x : LinkSt) : (s.setLink n x).maps = s.maps := rfl
@[simp] theorem State.setLink_chans (s : State) (n : Nat) (x : LinkSt) : (s.setLink n x).chans = s.chans := rfl
@[simp] theorem State.setLink_lates (s : State) (n : Nat) (x : LinkSt) : (s.setLink n x).lates = s.lates := rfl
@[simp] theorem State.setLink_dsps (s : State) (n : Nat) (x : LinkSt) : (s.setLink n x).dsps = s.dsps := rfl
@[simp] theorem State.setLink_nav (s : State) (n : Nat) (x : LinkSt) : (s.setLink n x).nav = s.nav := rfl
@[simp] theorem State.setLink_mordant (s : State) (n : Nat) (x : LinkSt) : (s.setLink n x).mordant = s.mordant := rfl
@[simp] theorem State.setLink_itg (s : State) (n : Nat) (x : LinkSt) : (s.setLink n x).itg = s.itg := rfl
@[simp] theorem State.setLink_tim (s : State) (n : Nat) (x : LinkSt) : (s.setLink n x).tim = s.tim := rfl
@[simp] theorem State.setLink_tps (s : State) (n : Nat) (x : LinkSt) : (s.setLink n x).tps = s.tps := rfl
@[simp] theorem State.setLink_tpi (s : State) (n : Nat) (x : LinkSt) : (s.setLink n x).tpi = s.tpi := rfl
@[simp] theorem State.setLink_plls (s : State) (n : Nat) (x : LinkSt) : (s.setLink n x).plls = s.plls := rfl
@[simp] theorem State.setLink_ckos (s : State) (n : Nat) (x : LinkSt) : (s.setLink n x).ckos = s.ckos := rfl
@[simp] theorem State.setLink_ports (s : State) (n : Nat) (x : LinkSt) : (s.setLink n x).ports = s.ports := rfl
@[simp] theorem State.setLink_slots (s : State) (n : Nat) (x : LinkSt) : (s.setLink n x).slots = s.slots := rfl
@[simp] theorem State.setLink_net (s : State) (n : Nat) (x : LinkSt) : (s.setLink n x).net = s.net := rfl
@[simp] theorem State.setLink_lines (s : State) (n : Nat) (x : LinkSt) : (s.setLink n x).lines = s.lines := rfl
@[simp] theorem State.setLink_banks (s : State) (n : Nat) (x : LinkSt) : (s.setLink n x).banks = s.banks := rfl
@[simp] theorem State.setLink_rtc (s : State) (n : Nat) (x : LinkSt) : (s.setLink n x).rtc = s.rtc := rfl
@[simp] theorem State.setLink_sup (s : State) (n : Nat) (x : LinkSt) : (s.setLink n x).sup = s.sup := rfl
@[simp] theorem State.setLink_umb (s : State) (n : Nat) (x : LinkSt) : (s.setLink n x).umb = s.umb := rfl
@[simp] theorem State.setLink_cus (s : State) (n : Nat) (x : LinkSt) : (s.setLink n x).cus = s.cus := rfl
@[simp] theorem State.setLink_svc (s : State) (n : Nat) (x : LinkSt) : (s.setLink n x).svc = s.svc := rfl
@[simp] theorem State.setLink_tap (s : State) (n : Nat) (x : LinkSt) : (s.setLink n x).tap = s.tap := rfl
@[simp] theorem State.setLink_part (s : State) (n : Nat) (x : LinkSt) : (s.setLink n x).part = s.part := rfl
@[simp] theorem State.setLink_out (s : State) (n : Nat) (x : LinkSt) : (s.setLink n x).out = s.out := rfl
@[simp] theorem State.setLink_free (s : State) (n : Nat) (x : LinkSt) : (s.setLink n x).free = s.free := rfl
@[simp] theorem State.setLink_pending (s : State) (n : Nat) (x : LinkSt) : (s.setLink n x).pending = s.pending := rfl
@[simp] theorem State.setLink_fec_at (s : State) (n : Nat) (x : LinkSt) (i : Nat) : (s.setLink n x).fec i = s.fec i := rfl
@[simp] theorem State.setLink_eng_at (s : State) (n : Nat) (x : LinkSt) (i : Nat) : (s.setLink n x).eng i = s.eng i := rfl
@[simp] theorem State.setLink_clu_at (s : State) (n : Nat) (x : LinkSt) (i : Nat) : (s.setLink n x).clu i = s.clu i := rfl
@[simp] theorem State.setLink_handle_at (s : State) (n : Nat) (x : LinkSt) (i : Nat) : (s.setLink n x).handle i = s.handle i := rfl
@[simp] theorem State.setLink_map_at (s : State) (n : Nat) (x : LinkSt) (i : Nat) : (s.setLink n x).map i = s.map i := rfl
@[simp] theorem State.setLink_chan_at (s : State) (n : Nat) (x : LinkSt) (i : Nat) : (s.setLink n x).chan i = s.chan i := rfl
@[simp] theorem State.setLink_dsp_at (s : State) (n : Nat) (x : LinkSt) (i : Nat) : (s.setLink n x).dsp i = s.dsp i := rfl
@[simp] theorem State.setLink_tp_at (s : State) (n : Nat) (x : LinkSt) (i : Nat) : (s.setLink n x).tp i = s.tp i := rfl
@[simp] theorem State.setLink_pll_at (s : State) (n : Nat) (x : LinkSt) (i : Nat) : (s.setLink n x).pll i = s.pll i := rfl
@[simp] theorem State.setLink_cko_at (s : State) (n : Nat) (x : LinkSt) (i : Nat) : (s.setLink n x).cko i = s.cko i := rfl
@[simp] theorem State.setLink_port_at (s : State) (n : Nat) (x : LinkSt) (i : Nat) : (s.setLink n x).port i = s.port i := rfl
@[simp] theorem State.setLink_slot_at (s : State) (n : Nat) (x : LinkSt) (i : Nat) : (s.setLink n x).slot i = s.slot i := rfl
@[simp] theorem State.setLink_line_at (s : State) (n : Nat) (x : LinkSt) (i : Nat) : (s.setLink n x).line i = s.line i := rfl
@[simp] theorem State.setLink_bank_at (s : State) (n : Nat) (x : LinkSt) (i : Nat) : (s.setLink n x).bank i = s.bank i := rfl
@[simp] theorem State.setLink_get (s : State) (n : Nat) (x : LinkSt) (g : Field) : (s.setLink n x).get g = s.get g := rfl
@[simp] theorem State.setLink_on (s : State) (n : Nat) (x : LinkSt) (g : Field) : (s.setLink n x).on g = s.on g := rfl
@[simp] theorem State.setLink_byteAt (s : State) (n : Nat) (x : LinkSt) (i : Nat) : (s.setLink n x).byteAt i = s.byteAt i := rfl
@[simp] theorem State.setLink_flashAt (s : State) (n : Nat) (x : LinkSt) (i : Nat) : (s.setLink n x).flashAt i = s.flashAt i := rfl

/-! ### `setFec` -/

@[simp] theorem State.setFec_reg (s : State) (n : Nat) (x : FecSt) : (s.setFec n x).reg = s.reg := rfl
@[simp] theorem State.setFec_mem (s : State) (n : Nat) (x : FecSt) : (s.setFec n x).mem = s.mem := rfl
@[simp] theorem State.setFec_flash (s : State) (n : Nat) (x : FecSt) : (s.setFec n x).flash = s.flash := rfl
@[simp] theorem State.setFec_wipes (s : State) (n : Nat) (x : FecSt) : (s.setFec n x).wipes = s.wipes := rfl
@[simp] theorem State.setFec_colds (s : State) (n : Nat) (x : FecSt) : (s.setFec n x).colds = s.colds := rfl
@[simp] theorem State.setFec_ecc (s : State) (n : Nat) (x : FecSt) : (s.setFec n x).ecc = s.ecc := rfl
@[simp] theorem State.setFec_latch (s : State) (n : Nat) (x : FecSt) : (s.setFec n x).latch = s.latch := rfl
@[simp] theorem State.setFec_links (s : State) (n : Nat) (x : FecSt) : (s.setFec n x).links = s.links := rfl
@[simp] theorem State.setFec_engs (s : State) (n : Nat) (x : FecSt) : (s.setFec n x).engs = s.engs := rfl
@[simp] theorem State.setFec_clus (s : State) (n : Nat) (x : FecSt) : (s.setFec n x).clus = s.clus := rfl
@[simp] theorem State.setFec_handles (s : State) (n : Nat) (x : FecSt) : (s.setFec n x).handles = s.handles := rfl
@[simp] theorem State.setFec_replay (s : State) (n : Nat) (x : FecSt) : (s.setFec n x).replay = s.replay := rfl
@[simp] theorem State.setFec_maps (s : State) (n : Nat) (x : FecSt) : (s.setFec n x).maps = s.maps := rfl
@[simp] theorem State.setFec_chans (s : State) (n : Nat) (x : FecSt) : (s.setFec n x).chans = s.chans := rfl
@[simp] theorem State.setFec_lates (s : State) (n : Nat) (x : FecSt) : (s.setFec n x).lates = s.lates := rfl
@[simp] theorem State.setFec_dsps (s : State) (n : Nat) (x : FecSt) : (s.setFec n x).dsps = s.dsps := rfl
@[simp] theorem State.setFec_nav (s : State) (n : Nat) (x : FecSt) : (s.setFec n x).nav = s.nav := rfl
@[simp] theorem State.setFec_mordant (s : State) (n : Nat) (x : FecSt) : (s.setFec n x).mordant = s.mordant := rfl
@[simp] theorem State.setFec_itg (s : State) (n : Nat) (x : FecSt) : (s.setFec n x).itg = s.itg := rfl
@[simp] theorem State.setFec_tim (s : State) (n : Nat) (x : FecSt) : (s.setFec n x).tim = s.tim := rfl
@[simp] theorem State.setFec_tps (s : State) (n : Nat) (x : FecSt) : (s.setFec n x).tps = s.tps := rfl
@[simp] theorem State.setFec_tpi (s : State) (n : Nat) (x : FecSt) : (s.setFec n x).tpi = s.tpi := rfl
@[simp] theorem State.setFec_plls (s : State) (n : Nat) (x : FecSt) : (s.setFec n x).plls = s.plls := rfl
@[simp] theorem State.setFec_ckos (s : State) (n : Nat) (x : FecSt) : (s.setFec n x).ckos = s.ckos := rfl
@[simp] theorem State.setFec_ports (s : State) (n : Nat) (x : FecSt) : (s.setFec n x).ports = s.ports := rfl
@[simp] theorem State.setFec_slots (s : State) (n : Nat) (x : FecSt) : (s.setFec n x).slots = s.slots := rfl
@[simp] theorem State.setFec_net (s : State) (n : Nat) (x : FecSt) : (s.setFec n x).net = s.net := rfl
@[simp] theorem State.setFec_lines (s : State) (n : Nat) (x : FecSt) : (s.setFec n x).lines = s.lines := rfl
@[simp] theorem State.setFec_banks (s : State) (n : Nat) (x : FecSt) : (s.setFec n x).banks = s.banks := rfl
@[simp] theorem State.setFec_rtc (s : State) (n : Nat) (x : FecSt) : (s.setFec n x).rtc = s.rtc := rfl
@[simp] theorem State.setFec_sup (s : State) (n : Nat) (x : FecSt) : (s.setFec n x).sup = s.sup := rfl
@[simp] theorem State.setFec_umb (s : State) (n : Nat) (x : FecSt) : (s.setFec n x).umb = s.umb := rfl
@[simp] theorem State.setFec_cus (s : State) (n : Nat) (x : FecSt) : (s.setFec n x).cus = s.cus := rfl
@[simp] theorem State.setFec_svc (s : State) (n : Nat) (x : FecSt) : (s.setFec n x).svc = s.svc := rfl
@[simp] theorem State.setFec_tap (s : State) (n : Nat) (x : FecSt) : (s.setFec n x).tap = s.tap := rfl
@[simp] theorem State.setFec_part (s : State) (n : Nat) (x : FecSt) : (s.setFec n x).part = s.part := rfl
@[simp] theorem State.setFec_out (s : State) (n : Nat) (x : FecSt) : (s.setFec n x).out = s.out := rfl
@[simp] theorem State.setFec_free (s : State) (n : Nat) (x : FecSt) : (s.setFec n x).free = s.free := rfl
@[simp] theorem State.setFec_pending (s : State) (n : Nat) (x : FecSt) : (s.setFec n x).pending = s.pending := rfl
@[simp] theorem State.setFec_link_at (s : State) (n : Nat) (x : FecSt) (i : Nat) : (s.setFec n x).link i = s.link i := rfl
@[simp] theorem State.setFec_eng_at (s : State) (n : Nat) (x : FecSt) (i : Nat) : (s.setFec n x).eng i = s.eng i := rfl
@[simp] theorem State.setFec_clu_at (s : State) (n : Nat) (x : FecSt) (i : Nat) : (s.setFec n x).clu i = s.clu i := rfl
@[simp] theorem State.setFec_handle_at (s : State) (n : Nat) (x : FecSt) (i : Nat) : (s.setFec n x).handle i = s.handle i := rfl
@[simp] theorem State.setFec_map_at (s : State) (n : Nat) (x : FecSt) (i : Nat) : (s.setFec n x).map i = s.map i := rfl
@[simp] theorem State.setFec_chan_at (s : State) (n : Nat) (x : FecSt) (i : Nat) : (s.setFec n x).chan i = s.chan i := rfl
@[simp] theorem State.setFec_dsp_at (s : State) (n : Nat) (x : FecSt) (i : Nat) : (s.setFec n x).dsp i = s.dsp i := rfl
@[simp] theorem State.setFec_tp_at (s : State) (n : Nat) (x : FecSt) (i : Nat) : (s.setFec n x).tp i = s.tp i := rfl
@[simp] theorem State.setFec_pll_at (s : State) (n : Nat) (x : FecSt) (i : Nat) : (s.setFec n x).pll i = s.pll i := rfl
@[simp] theorem State.setFec_cko_at (s : State) (n : Nat) (x : FecSt) (i : Nat) : (s.setFec n x).cko i = s.cko i := rfl
@[simp] theorem State.setFec_port_at (s : State) (n : Nat) (x : FecSt) (i : Nat) : (s.setFec n x).port i = s.port i := rfl
@[simp] theorem State.setFec_slot_at (s : State) (n : Nat) (x : FecSt) (i : Nat) : (s.setFec n x).slot i = s.slot i := rfl
@[simp] theorem State.setFec_line_at (s : State) (n : Nat) (x : FecSt) (i : Nat) : (s.setFec n x).line i = s.line i := rfl
@[simp] theorem State.setFec_bank_at (s : State) (n : Nat) (x : FecSt) (i : Nat) : (s.setFec n x).bank i = s.bank i := rfl
@[simp] theorem State.setFec_get (s : State) (n : Nat) (x : FecSt) (g : Field) : (s.setFec n x).get g = s.get g := rfl
@[simp] theorem State.setFec_on (s : State) (n : Nat) (x : FecSt) (g : Field) : (s.setFec n x).on g = s.on g := rfl
@[simp] theorem State.setFec_byteAt (s : State) (n : Nat) (x : FecSt) (i : Nat) : (s.setFec n x).byteAt i = s.byteAt i := rfl
@[simp] theorem State.setFec_flashAt (s : State) (n : Nat) (x : FecSt) (i : Nat) : (s.setFec n x).flashAt i = s.flashAt i := rfl

/-! ### `setEng` -/

@[simp] theorem State.setEng_reg (s : State) (n : Nat) (x : EngSt) : (s.setEng n x).reg = s.reg := rfl
@[simp] theorem State.setEng_mem (s : State) (n : Nat) (x : EngSt) : (s.setEng n x).mem = s.mem := rfl
@[simp] theorem State.setEng_flash (s : State) (n : Nat) (x : EngSt) : (s.setEng n x).flash = s.flash := rfl
@[simp] theorem State.setEng_wipes (s : State) (n : Nat) (x : EngSt) : (s.setEng n x).wipes = s.wipes := rfl
@[simp] theorem State.setEng_colds (s : State) (n : Nat) (x : EngSt) : (s.setEng n x).colds = s.colds := rfl
@[simp] theorem State.setEng_ecc (s : State) (n : Nat) (x : EngSt) : (s.setEng n x).ecc = s.ecc := rfl
@[simp] theorem State.setEng_latch (s : State) (n : Nat) (x : EngSt) : (s.setEng n x).latch = s.latch := rfl
@[simp] theorem State.setEng_links (s : State) (n : Nat) (x : EngSt) : (s.setEng n x).links = s.links := rfl
@[simp] theorem State.setEng_fecs (s : State) (n : Nat) (x : EngSt) : (s.setEng n x).fecs = s.fecs := rfl
@[simp] theorem State.setEng_clus (s : State) (n : Nat) (x : EngSt) : (s.setEng n x).clus = s.clus := rfl
@[simp] theorem State.setEng_handles (s : State) (n : Nat) (x : EngSt) : (s.setEng n x).handles = s.handles := rfl
@[simp] theorem State.setEng_replay (s : State) (n : Nat) (x : EngSt) : (s.setEng n x).replay = s.replay := rfl
@[simp] theorem State.setEng_maps (s : State) (n : Nat) (x : EngSt) : (s.setEng n x).maps = s.maps := rfl
@[simp] theorem State.setEng_chans (s : State) (n : Nat) (x : EngSt) : (s.setEng n x).chans = s.chans := rfl
@[simp] theorem State.setEng_lates (s : State) (n : Nat) (x : EngSt) : (s.setEng n x).lates = s.lates := rfl
@[simp] theorem State.setEng_dsps (s : State) (n : Nat) (x : EngSt) : (s.setEng n x).dsps = s.dsps := rfl
@[simp] theorem State.setEng_nav (s : State) (n : Nat) (x : EngSt) : (s.setEng n x).nav = s.nav := rfl
@[simp] theorem State.setEng_mordant (s : State) (n : Nat) (x : EngSt) : (s.setEng n x).mordant = s.mordant := rfl
@[simp] theorem State.setEng_itg (s : State) (n : Nat) (x : EngSt) : (s.setEng n x).itg = s.itg := rfl
@[simp] theorem State.setEng_tim (s : State) (n : Nat) (x : EngSt) : (s.setEng n x).tim = s.tim := rfl
@[simp] theorem State.setEng_tps (s : State) (n : Nat) (x : EngSt) : (s.setEng n x).tps = s.tps := rfl
@[simp] theorem State.setEng_tpi (s : State) (n : Nat) (x : EngSt) : (s.setEng n x).tpi = s.tpi := rfl
@[simp] theorem State.setEng_plls (s : State) (n : Nat) (x : EngSt) : (s.setEng n x).plls = s.plls := rfl
@[simp] theorem State.setEng_ckos (s : State) (n : Nat) (x : EngSt) : (s.setEng n x).ckos = s.ckos := rfl
@[simp] theorem State.setEng_ports (s : State) (n : Nat) (x : EngSt) : (s.setEng n x).ports = s.ports := rfl
@[simp] theorem State.setEng_slots (s : State) (n : Nat) (x : EngSt) : (s.setEng n x).slots = s.slots := rfl
@[simp] theorem State.setEng_net (s : State) (n : Nat) (x : EngSt) : (s.setEng n x).net = s.net := rfl
@[simp] theorem State.setEng_lines (s : State) (n : Nat) (x : EngSt) : (s.setEng n x).lines = s.lines := rfl
@[simp] theorem State.setEng_banks (s : State) (n : Nat) (x : EngSt) : (s.setEng n x).banks = s.banks := rfl
@[simp] theorem State.setEng_rtc (s : State) (n : Nat) (x : EngSt) : (s.setEng n x).rtc = s.rtc := rfl
@[simp] theorem State.setEng_sup (s : State) (n : Nat) (x : EngSt) : (s.setEng n x).sup = s.sup := rfl
@[simp] theorem State.setEng_umb (s : State) (n : Nat) (x : EngSt) : (s.setEng n x).umb = s.umb := rfl
@[simp] theorem State.setEng_cus (s : State) (n : Nat) (x : EngSt) : (s.setEng n x).cus = s.cus := rfl
@[simp] theorem State.setEng_svc (s : State) (n : Nat) (x : EngSt) : (s.setEng n x).svc = s.svc := rfl
@[simp] theorem State.setEng_tap (s : State) (n : Nat) (x : EngSt) : (s.setEng n x).tap = s.tap := rfl
@[simp] theorem State.setEng_part (s : State) (n : Nat) (x : EngSt) : (s.setEng n x).part = s.part := rfl
@[simp] theorem State.setEng_out (s : State) (n : Nat) (x : EngSt) : (s.setEng n x).out = s.out := rfl
@[simp] theorem State.setEng_free (s : State) (n : Nat) (x : EngSt) : (s.setEng n x).free = s.free := rfl
@[simp] theorem State.setEng_pending (s : State) (n : Nat) (x : EngSt) : (s.setEng n x).pending = s.pending := rfl
@[simp] theorem State.setEng_link_at (s : State) (n : Nat) (x : EngSt) (i : Nat) : (s.setEng n x).link i = s.link i := rfl
@[simp] theorem State.setEng_fec_at (s : State) (n : Nat) (x : EngSt) (i : Nat) : (s.setEng n x).fec i = s.fec i := rfl
@[simp] theorem State.setEng_clu_at (s : State) (n : Nat) (x : EngSt) (i : Nat) : (s.setEng n x).clu i = s.clu i := rfl
@[simp] theorem State.setEng_handle_at (s : State) (n : Nat) (x : EngSt) (i : Nat) : (s.setEng n x).handle i = s.handle i := rfl
@[simp] theorem State.setEng_map_at (s : State) (n : Nat) (x : EngSt) (i : Nat) : (s.setEng n x).map i = s.map i := rfl
@[simp] theorem State.setEng_chan_at (s : State) (n : Nat) (x : EngSt) (i : Nat) : (s.setEng n x).chan i = s.chan i := rfl
@[simp] theorem State.setEng_dsp_at (s : State) (n : Nat) (x : EngSt) (i : Nat) : (s.setEng n x).dsp i = s.dsp i := rfl
@[simp] theorem State.setEng_tp_at (s : State) (n : Nat) (x : EngSt) (i : Nat) : (s.setEng n x).tp i = s.tp i := rfl
@[simp] theorem State.setEng_pll_at (s : State) (n : Nat) (x : EngSt) (i : Nat) : (s.setEng n x).pll i = s.pll i := rfl
@[simp] theorem State.setEng_cko_at (s : State) (n : Nat) (x : EngSt) (i : Nat) : (s.setEng n x).cko i = s.cko i := rfl
@[simp] theorem State.setEng_port_at (s : State) (n : Nat) (x : EngSt) (i : Nat) : (s.setEng n x).port i = s.port i := rfl
@[simp] theorem State.setEng_slot_at (s : State) (n : Nat) (x : EngSt) (i : Nat) : (s.setEng n x).slot i = s.slot i := rfl
@[simp] theorem State.setEng_line_at (s : State) (n : Nat) (x : EngSt) (i : Nat) : (s.setEng n x).line i = s.line i := rfl
@[simp] theorem State.setEng_bank_at (s : State) (n : Nat) (x : EngSt) (i : Nat) : (s.setEng n x).bank i = s.bank i := rfl
@[simp] theorem State.setEng_get (s : State) (n : Nat) (x : EngSt) (g : Field) : (s.setEng n x).get g = s.get g := rfl
@[simp] theorem State.setEng_on (s : State) (n : Nat) (x : EngSt) (g : Field) : (s.setEng n x).on g = s.on g := rfl
@[simp] theorem State.setEng_byteAt (s : State) (n : Nat) (x : EngSt) (i : Nat) : (s.setEng n x).byteAt i = s.byteAt i := rfl
@[simp] theorem State.setEng_flashAt (s : State) (n : Nat) (x : EngSt) (i : Nat) : (s.setEng n x).flashAt i = s.flashAt i := rfl

/-! ### `setClu` -/

@[simp] theorem State.setClu_reg (s : State) (n : Nat) (x : CluSt) : (s.setClu n x).reg = s.reg := rfl
@[simp] theorem State.setClu_mem (s : State) (n : Nat) (x : CluSt) : (s.setClu n x).mem = s.mem := rfl
@[simp] theorem State.setClu_flash (s : State) (n : Nat) (x : CluSt) : (s.setClu n x).flash = s.flash := rfl
@[simp] theorem State.setClu_wipes (s : State) (n : Nat) (x : CluSt) : (s.setClu n x).wipes = s.wipes := rfl
@[simp] theorem State.setClu_colds (s : State) (n : Nat) (x : CluSt) : (s.setClu n x).colds = s.colds := rfl
@[simp] theorem State.setClu_ecc (s : State) (n : Nat) (x : CluSt) : (s.setClu n x).ecc = s.ecc := rfl
@[simp] theorem State.setClu_latch (s : State) (n : Nat) (x : CluSt) : (s.setClu n x).latch = s.latch := rfl
@[simp] theorem State.setClu_links (s : State) (n : Nat) (x : CluSt) : (s.setClu n x).links = s.links := rfl
@[simp] theorem State.setClu_fecs (s : State) (n : Nat) (x : CluSt) : (s.setClu n x).fecs = s.fecs := rfl
@[simp] theorem State.setClu_engs (s : State) (n : Nat) (x : CluSt) : (s.setClu n x).engs = s.engs := rfl
@[simp] theorem State.setClu_handles (s : State) (n : Nat) (x : CluSt) : (s.setClu n x).handles = s.handles := rfl
@[simp] theorem State.setClu_replay (s : State) (n : Nat) (x : CluSt) : (s.setClu n x).replay = s.replay := rfl
@[simp] theorem State.setClu_maps (s : State) (n : Nat) (x : CluSt) : (s.setClu n x).maps = s.maps := rfl
@[simp] theorem State.setClu_chans (s : State) (n : Nat) (x : CluSt) : (s.setClu n x).chans = s.chans := rfl
@[simp] theorem State.setClu_lates (s : State) (n : Nat) (x : CluSt) : (s.setClu n x).lates = s.lates := rfl
@[simp] theorem State.setClu_dsps (s : State) (n : Nat) (x : CluSt) : (s.setClu n x).dsps = s.dsps := rfl
@[simp] theorem State.setClu_nav (s : State) (n : Nat) (x : CluSt) : (s.setClu n x).nav = s.nav := rfl
@[simp] theorem State.setClu_mordant (s : State) (n : Nat) (x : CluSt) : (s.setClu n x).mordant = s.mordant := rfl
@[simp] theorem State.setClu_itg (s : State) (n : Nat) (x : CluSt) : (s.setClu n x).itg = s.itg := rfl
@[simp] theorem State.setClu_tim (s : State) (n : Nat) (x : CluSt) : (s.setClu n x).tim = s.tim := rfl
@[simp] theorem State.setClu_tps (s : State) (n : Nat) (x : CluSt) : (s.setClu n x).tps = s.tps := rfl
@[simp] theorem State.setClu_tpi (s : State) (n : Nat) (x : CluSt) : (s.setClu n x).tpi = s.tpi := rfl
@[simp] theorem State.setClu_plls (s : State) (n : Nat) (x : CluSt) : (s.setClu n x).plls = s.plls := rfl
@[simp] theorem State.setClu_ckos (s : State) (n : Nat) (x : CluSt) : (s.setClu n x).ckos = s.ckos := rfl
@[simp] theorem State.setClu_ports (s : State) (n : Nat) (x : CluSt) : (s.setClu n x).ports = s.ports := rfl
@[simp] theorem State.setClu_slots (s : State) (n : Nat) (x : CluSt) : (s.setClu n x).slots = s.slots := rfl
@[simp] theorem State.setClu_net (s : State) (n : Nat) (x : CluSt) : (s.setClu n x).net = s.net := rfl
@[simp] theorem State.setClu_lines (s : State) (n : Nat) (x : CluSt) : (s.setClu n x).lines = s.lines := rfl
@[simp] theorem State.setClu_banks (s : State) (n : Nat) (x : CluSt) : (s.setClu n x).banks = s.banks := rfl
@[simp] theorem State.setClu_rtc (s : State) (n : Nat) (x : CluSt) : (s.setClu n x).rtc = s.rtc := rfl
@[simp] theorem State.setClu_sup (s : State) (n : Nat) (x : CluSt) : (s.setClu n x).sup = s.sup := rfl
@[simp] theorem State.setClu_umb (s : State) (n : Nat) (x : CluSt) : (s.setClu n x).umb = s.umb := rfl
@[simp] theorem State.setClu_cus (s : State) (n : Nat) (x : CluSt) : (s.setClu n x).cus = s.cus := rfl
@[simp] theorem State.setClu_svc (s : State) (n : Nat) (x : CluSt) : (s.setClu n x).svc = s.svc := rfl
@[simp] theorem State.setClu_tap (s : State) (n : Nat) (x : CluSt) : (s.setClu n x).tap = s.tap := rfl
@[simp] theorem State.setClu_part (s : State) (n : Nat) (x : CluSt) : (s.setClu n x).part = s.part := rfl
@[simp] theorem State.setClu_out (s : State) (n : Nat) (x : CluSt) : (s.setClu n x).out = s.out := rfl
@[simp] theorem State.setClu_free (s : State) (n : Nat) (x : CluSt) : (s.setClu n x).free = s.free := rfl
@[simp] theorem State.setClu_pending (s : State) (n : Nat) (x : CluSt) : (s.setClu n x).pending = s.pending := rfl
@[simp] theorem State.setClu_link_at (s : State) (n : Nat) (x : CluSt) (i : Nat) : (s.setClu n x).link i = s.link i := rfl
@[simp] theorem State.setClu_fec_at (s : State) (n : Nat) (x : CluSt) (i : Nat) : (s.setClu n x).fec i = s.fec i := rfl
@[simp] theorem State.setClu_eng_at (s : State) (n : Nat) (x : CluSt) (i : Nat) : (s.setClu n x).eng i = s.eng i := rfl
@[simp] theorem State.setClu_handle_at (s : State) (n : Nat) (x : CluSt) (i : Nat) : (s.setClu n x).handle i = s.handle i := rfl
@[simp] theorem State.setClu_map_at (s : State) (n : Nat) (x : CluSt) (i : Nat) : (s.setClu n x).map i = s.map i := rfl
@[simp] theorem State.setClu_chan_at (s : State) (n : Nat) (x : CluSt) (i : Nat) : (s.setClu n x).chan i = s.chan i := rfl
@[simp] theorem State.setClu_dsp_at (s : State) (n : Nat) (x : CluSt) (i : Nat) : (s.setClu n x).dsp i = s.dsp i := rfl
@[simp] theorem State.setClu_tp_at (s : State) (n : Nat) (x : CluSt) (i : Nat) : (s.setClu n x).tp i = s.tp i := rfl
@[simp] theorem State.setClu_pll_at (s : State) (n : Nat) (x : CluSt) (i : Nat) : (s.setClu n x).pll i = s.pll i := rfl
@[simp] theorem State.setClu_cko_at (s : State) (n : Nat) (x : CluSt) (i : Nat) : (s.setClu n x).cko i = s.cko i := rfl
@[simp] theorem State.setClu_port_at (s : State) (n : Nat) (x : CluSt) (i : Nat) : (s.setClu n x).port i = s.port i := rfl
@[simp] theorem State.setClu_slot_at (s : State) (n : Nat) (x : CluSt) (i : Nat) : (s.setClu n x).slot i = s.slot i := rfl
@[simp] theorem State.setClu_line_at (s : State) (n : Nat) (x : CluSt) (i : Nat) : (s.setClu n x).line i = s.line i := rfl
@[simp] theorem State.setClu_bank_at (s : State) (n : Nat) (x : CluSt) (i : Nat) : (s.setClu n x).bank i = s.bank i := rfl
@[simp] theorem State.setClu_get (s : State) (n : Nat) (x : CluSt) (g : Field) : (s.setClu n x).get g = s.get g := rfl
@[simp] theorem State.setClu_on (s : State) (n : Nat) (x : CluSt) (g : Field) : (s.setClu n x).on g = s.on g := rfl
@[simp] theorem State.setClu_byteAt (s : State) (n : Nat) (x : CluSt) (i : Nat) : (s.setClu n x).byteAt i = s.byteAt i := rfl
@[simp] theorem State.setClu_flashAt (s : State) (n : Nat) (x : CluSt) (i : Nat) : (s.setClu n x).flashAt i = s.flashAt i := rfl

/-! ### `setHandle` -/

@[simp] theorem State.setHandle_reg (s : State) (n : Nat) (x : HandleSt) : (s.setHandle n x).reg = s.reg := rfl
@[simp] theorem State.setHandle_mem (s : State) (n : Nat) (x : HandleSt) : (s.setHandle n x).mem = s.mem := rfl
@[simp] theorem State.setHandle_flash (s : State) (n : Nat) (x : HandleSt) : (s.setHandle n x).flash = s.flash := rfl
@[simp] theorem State.setHandle_wipes (s : State) (n : Nat) (x : HandleSt) : (s.setHandle n x).wipes = s.wipes := rfl
@[simp] theorem State.setHandle_colds (s : State) (n : Nat) (x : HandleSt) : (s.setHandle n x).colds = s.colds := rfl
@[simp] theorem State.setHandle_ecc (s : State) (n : Nat) (x : HandleSt) : (s.setHandle n x).ecc = s.ecc := rfl
@[simp] theorem State.setHandle_latch (s : State) (n : Nat) (x : HandleSt) : (s.setHandle n x).latch = s.latch := rfl
@[simp] theorem State.setHandle_links (s : State) (n : Nat) (x : HandleSt) : (s.setHandle n x).links = s.links := rfl
@[simp] theorem State.setHandle_fecs (s : State) (n : Nat) (x : HandleSt) : (s.setHandle n x).fecs = s.fecs := rfl
@[simp] theorem State.setHandle_engs (s : State) (n : Nat) (x : HandleSt) : (s.setHandle n x).engs = s.engs := rfl
@[simp] theorem State.setHandle_clus (s : State) (n : Nat) (x : HandleSt) : (s.setHandle n x).clus = s.clus := rfl
@[simp] theorem State.setHandle_replay (s : State) (n : Nat) (x : HandleSt) : (s.setHandle n x).replay = s.replay := rfl
@[simp] theorem State.setHandle_maps (s : State) (n : Nat) (x : HandleSt) : (s.setHandle n x).maps = s.maps := rfl
@[simp] theorem State.setHandle_chans (s : State) (n : Nat) (x : HandleSt) : (s.setHandle n x).chans = s.chans := rfl
@[simp] theorem State.setHandle_lates (s : State) (n : Nat) (x : HandleSt) : (s.setHandle n x).lates = s.lates := rfl
@[simp] theorem State.setHandle_dsps (s : State) (n : Nat) (x : HandleSt) : (s.setHandle n x).dsps = s.dsps := rfl
@[simp] theorem State.setHandle_nav (s : State) (n : Nat) (x : HandleSt) : (s.setHandle n x).nav = s.nav := rfl
@[simp] theorem State.setHandle_mordant (s : State) (n : Nat) (x : HandleSt) : (s.setHandle n x).mordant = s.mordant := rfl
@[simp] theorem State.setHandle_itg (s : State) (n : Nat) (x : HandleSt) : (s.setHandle n x).itg = s.itg := rfl
@[simp] theorem State.setHandle_tim (s : State) (n : Nat) (x : HandleSt) : (s.setHandle n x).tim = s.tim := rfl
@[simp] theorem State.setHandle_tps (s : State) (n : Nat) (x : HandleSt) : (s.setHandle n x).tps = s.tps := rfl
@[simp] theorem State.setHandle_tpi (s : State) (n : Nat) (x : HandleSt) : (s.setHandle n x).tpi = s.tpi := rfl
@[simp] theorem State.setHandle_plls (s : State) (n : Nat) (x : HandleSt) : (s.setHandle n x).plls = s.plls := rfl
@[simp] theorem State.setHandle_ckos (s : State) (n : Nat) (x : HandleSt) : (s.setHandle n x).ckos = s.ckos := rfl
@[simp] theorem State.setHandle_ports (s : State) (n : Nat) (x : HandleSt) : (s.setHandle n x).ports = s.ports := rfl
@[simp] theorem State.setHandle_slots (s : State) (n : Nat) (x : HandleSt) : (s.setHandle n x).slots = s.slots := rfl
@[simp] theorem State.setHandle_net (s : State) (n : Nat) (x : HandleSt) : (s.setHandle n x).net = s.net := rfl
@[simp] theorem State.setHandle_lines (s : State) (n : Nat) (x : HandleSt) : (s.setHandle n x).lines = s.lines := rfl
@[simp] theorem State.setHandle_banks (s : State) (n : Nat) (x : HandleSt) : (s.setHandle n x).banks = s.banks := rfl
@[simp] theorem State.setHandle_rtc (s : State) (n : Nat) (x : HandleSt) : (s.setHandle n x).rtc = s.rtc := rfl
@[simp] theorem State.setHandle_sup (s : State) (n : Nat) (x : HandleSt) : (s.setHandle n x).sup = s.sup := rfl
@[simp] theorem State.setHandle_umb (s : State) (n : Nat) (x : HandleSt) : (s.setHandle n x).umb = s.umb := rfl
@[simp] theorem State.setHandle_cus (s : State) (n : Nat) (x : HandleSt) : (s.setHandle n x).cus = s.cus := rfl
@[simp] theorem State.setHandle_svc (s : State) (n : Nat) (x : HandleSt) : (s.setHandle n x).svc = s.svc := rfl
@[simp] theorem State.setHandle_tap (s : State) (n : Nat) (x : HandleSt) : (s.setHandle n x).tap = s.tap := rfl
@[simp] theorem State.setHandle_part (s : State) (n : Nat) (x : HandleSt) : (s.setHandle n x).part = s.part := rfl
@[simp] theorem State.setHandle_out (s : State) (n : Nat) (x : HandleSt) : (s.setHandle n x).out = s.out := rfl
@[simp] theorem State.setHandle_free (s : State) (n : Nat) (x : HandleSt) : (s.setHandle n x).free = s.free := rfl
@[simp] theorem State.setHandle_pending (s : State) (n : Nat) (x : HandleSt) : (s.setHandle n x).pending = s.pending := rfl
@[simp] theorem State.setHandle_link_at (s : State) (n : Nat) (x : HandleSt) (i : Nat) : (s.setHandle n x).link i = s.link i := rfl
@[simp] theorem State.setHandle_fec_at (s : State) (n : Nat) (x : HandleSt) (i : Nat) : (s.setHandle n x).fec i = s.fec i := rfl
@[simp] theorem State.setHandle_eng_at (s : State) (n : Nat) (x : HandleSt) (i : Nat) : (s.setHandle n x).eng i = s.eng i := rfl
@[simp] theorem State.setHandle_clu_at (s : State) (n : Nat) (x : HandleSt) (i : Nat) : (s.setHandle n x).clu i = s.clu i := rfl
@[simp] theorem State.setHandle_map_at (s : State) (n : Nat) (x : HandleSt) (i : Nat) : (s.setHandle n x).map i = s.map i := rfl
@[simp] theorem State.setHandle_chan_at (s : State) (n : Nat) (x : HandleSt) (i : Nat) : (s.setHandle n x).chan i = s.chan i := rfl
@[simp] theorem State.setHandle_dsp_at (s : State) (n : Nat) (x : HandleSt) (i : Nat) : (s.setHandle n x).dsp i = s.dsp i := rfl
@[simp] theorem State.setHandle_tp_at (s : State) (n : Nat) (x : HandleSt) (i : Nat) : (s.setHandle n x).tp i = s.tp i := rfl
@[simp] theorem State.setHandle_pll_at (s : State) (n : Nat) (x : HandleSt) (i : Nat) : (s.setHandle n x).pll i = s.pll i := rfl
@[simp] theorem State.setHandle_cko_at (s : State) (n : Nat) (x : HandleSt) (i : Nat) : (s.setHandle n x).cko i = s.cko i := rfl
@[simp] theorem State.setHandle_port_at (s : State) (n : Nat) (x : HandleSt) (i : Nat) : (s.setHandle n x).port i = s.port i := rfl
@[simp] theorem State.setHandle_slot_at (s : State) (n : Nat) (x : HandleSt) (i : Nat) : (s.setHandle n x).slot i = s.slot i := rfl
@[simp] theorem State.setHandle_line_at (s : State) (n : Nat) (x : HandleSt) (i : Nat) : (s.setHandle n x).line i = s.line i := rfl
@[simp] theorem State.setHandle_bank_at (s : State) (n : Nat) (x : HandleSt) (i : Nat) : (s.setHandle n x).bank i = s.bank i := rfl
@[simp] theorem State.setHandle_get (s : State) (n : Nat) (x : HandleSt) (g : Field) : (s.setHandle n x).get g = s.get g := rfl
@[simp] theorem State.setHandle_on (s : State) (n : Nat) (x : HandleSt) (g : Field) : (s.setHandle n x).on g = s.on g := rfl
@[simp] theorem State.setHandle_byteAt (s : State) (n : Nat) (x : HandleSt) (i : Nat) : (s.setHandle n x).byteAt i = s.byteAt i := rfl
@[simp] theorem State.setHandle_flashAt (s : State) (n : Nat) (x : HandleSt) (i : Nat) : (s.setHandle n x).flashAt i = s.flashAt i := rfl

/-! ### `setMap` -/

@[simp] theorem State.setMap_reg (s : State) (n : Nat) (x : MapSt) : (s.setMap n x).reg = s.reg := rfl
@[simp] theorem State.setMap_mem (s : State) (n : Nat) (x : MapSt) : (s.setMap n x).mem = s.mem := rfl
@[simp] theorem State.setMap_flash (s : State) (n : Nat) (x : MapSt) : (s.setMap n x).flash = s.flash := rfl
@[simp] theorem State.setMap_wipes (s : State) (n : Nat) (x : MapSt) : (s.setMap n x).wipes = s.wipes := rfl
@[simp] theorem State.setMap_colds (s : State) (n : Nat) (x : MapSt) : (s.setMap n x).colds = s.colds := rfl
@[simp] theorem State.setMap_ecc (s : State) (n : Nat) (x : MapSt) : (s.setMap n x).ecc = s.ecc := rfl
@[simp] theorem State.setMap_latch (s : State) (n : Nat) (x : MapSt) : (s.setMap n x).latch = s.latch := rfl
@[simp] theorem State.setMap_links (s : State) (n : Nat) (x : MapSt) : (s.setMap n x).links = s.links := rfl
@[simp] theorem State.setMap_fecs (s : State) (n : Nat) (x : MapSt) : (s.setMap n x).fecs = s.fecs := rfl
@[simp] theorem State.setMap_engs (s : State) (n : Nat) (x : MapSt) : (s.setMap n x).engs = s.engs := rfl
@[simp] theorem State.setMap_clus (s : State) (n : Nat) (x : MapSt) : (s.setMap n x).clus = s.clus := rfl
@[simp] theorem State.setMap_handles (s : State) (n : Nat) (x : MapSt) : (s.setMap n x).handles = s.handles := rfl
@[simp] theorem State.setMap_replay (s : State) (n : Nat) (x : MapSt) : (s.setMap n x).replay = s.replay := rfl
@[simp] theorem State.setMap_chans (s : State) (n : Nat) (x : MapSt) : (s.setMap n x).chans = s.chans := rfl
@[simp] theorem State.setMap_lates (s : State) (n : Nat) (x : MapSt) : (s.setMap n x).lates = s.lates := rfl
@[simp] theorem State.setMap_dsps (s : State) (n : Nat) (x : MapSt) : (s.setMap n x).dsps = s.dsps := rfl
@[simp] theorem State.setMap_nav (s : State) (n : Nat) (x : MapSt) : (s.setMap n x).nav = s.nav := rfl
@[simp] theorem State.setMap_mordant (s : State) (n : Nat) (x : MapSt) : (s.setMap n x).mordant = s.mordant := rfl
@[simp] theorem State.setMap_itg (s : State) (n : Nat) (x : MapSt) : (s.setMap n x).itg = s.itg := rfl
@[simp] theorem State.setMap_tim (s : State) (n : Nat) (x : MapSt) : (s.setMap n x).tim = s.tim := rfl
@[simp] theorem State.setMap_tps (s : State) (n : Nat) (x : MapSt) : (s.setMap n x).tps = s.tps := rfl
@[simp] theorem State.setMap_tpi (s : State) (n : Nat) (x : MapSt) : (s.setMap n x).tpi = s.tpi := rfl
@[simp] theorem State.setMap_plls (s : State) (n : Nat) (x : MapSt) : (s.setMap n x).plls = s.plls := rfl
@[simp] theorem State.setMap_ckos (s : State) (n : Nat) (x : MapSt) : (s.setMap n x).ckos = s.ckos := rfl
@[simp] theorem State.setMap_ports (s : State) (n : Nat) (x : MapSt) : (s.setMap n x).ports = s.ports := rfl
@[simp] theorem State.setMap_slots (s : State) (n : Nat) (x : MapSt) : (s.setMap n x).slots = s.slots := rfl
@[simp] theorem State.setMap_net (s : State) (n : Nat) (x : MapSt) : (s.setMap n x).net = s.net := rfl
@[simp] theorem State.setMap_lines (s : State) (n : Nat) (x : MapSt) : (s.setMap n x).lines = s.lines := rfl
@[simp] theorem State.setMap_banks (s : State) (n : Nat) (x : MapSt) : (s.setMap n x).banks = s.banks := rfl
@[simp] theorem State.setMap_rtc (s : State) (n : Nat) (x : MapSt) : (s.setMap n x).rtc = s.rtc := rfl
@[simp] theorem State.setMap_sup (s : State) (n : Nat) (x : MapSt) : (s.setMap n x).sup = s.sup := rfl
@[simp] theorem State.setMap_umb (s : State) (n : Nat) (x : MapSt) : (s.setMap n x).umb = s.umb := rfl
@[simp] theorem State.setMap_cus (s : State) (n : Nat) (x : MapSt) : (s.setMap n x).cus = s.cus := rfl
@[simp] theorem State.setMap_svc (s : State) (n : Nat) (x : MapSt) : (s.setMap n x).svc = s.svc := rfl
@[simp] theorem State.setMap_tap (s : State) (n : Nat) (x : MapSt) : (s.setMap n x).tap = s.tap := rfl
@[simp] theorem State.setMap_part (s : State) (n : Nat) (x : MapSt) : (s.setMap n x).part = s.part := rfl
@[simp] theorem State.setMap_out (s : State) (n : Nat) (x : MapSt) : (s.setMap n x).out = s.out := rfl
@[simp] theorem State.setMap_free (s : State) (n : Nat) (x : MapSt) : (s.setMap n x).free = s.free := rfl
@[simp] theorem State.setMap_pending (s : State) (n : Nat) (x : MapSt) : (s.setMap n x).pending = s.pending := rfl
@[simp] theorem State.setMap_link_at (s : State) (n : Nat) (x : MapSt) (i : Nat) : (s.setMap n x).link i = s.link i := rfl
@[simp] theorem State.setMap_fec_at (s : State) (n : Nat) (x : MapSt) (i : Nat) : (s.setMap n x).fec i = s.fec i := rfl
@[simp] theorem State.setMap_eng_at (s : State) (n : Nat) (x : MapSt) (i : Nat) : (s.setMap n x).eng i = s.eng i := rfl
@[simp] theorem State.setMap_clu_at (s : State) (n : Nat) (x : MapSt) (i : Nat) : (s.setMap n x).clu i = s.clu i := rfl
@[simp] theorem State.setMap_handle_at (s : State) (n : Nat) (x : MapSt) (i : Nat) : (s.setMap n x).handle i = s.handle i := rfl
@[simp] theorem State.setMap_chan_at (s : State) (n : Nat) (x : MapSt) (i : Nat) : (s.setMap n x).chan i = s.chan i := rfl
@[simp] theorem State.setMap_dsp_at (s : State) (n : Nat) (x : MapSt) (i : Nat) : (s.setMap n x).dsp i = s.dsp i := rfl
@[simp] theorem State.setMap_tp_at (s : State) (n : Nat) (x : MapSt) (i : Nat) : (s.setMap n x).tp i = s.tp i := rfl
@[simp] theorem State.setMap_pll_at (s : State) (n : Nat) (x : MapSt) (i : Nat) : (s.setMap n x).pll i = s.pll i := rfl
@[simp] theorem State.setMap_cko_at (s : State) (n : Nat) (x : MapSt) (i : Nat) : (s.setMap n x).cko i = s.cko i := rfl
@[simp] theorem State.setMap_port_at (s : State) (n : Nat) (x : MapSt) (i : Nat) : (s.setMap n x).port i = s.port i := rfl
@[simp] theorem State.setMap_slot_at (s : State) (n : Nat) (x : MapSt) (i : Nat) : (s.setMap n x).slot i = s.slot i := rfl
@[simp] theorem State.setMap_line_at (s : State) (n : Nat) (x : MapSt) (i : Nat) : (s.setMap n x).line i = s.line i := rfl
@[simp] theorem State.setMap_bank_at (s : State) (n : Nat) (x : MapSt) (i : Nat) : (s.setMap n x).bank i = s.bank i := rfl
@[simp] theorem State.setMap_get (s : State) (n : Nat) (x : MapSt) (g : Field) : (s.setMap n x).get g = s.get g := rfl
@[simp] theorem State.setMap_on (s : State) (n : Nat) (x : MapSt) (g : Field) : (s.setMap n x).on g = s.on g := rfl
@[simp] theorem State.setMap_byteAt (s : State) (n : Nat) (x : MapSt) (i : Nat) : (s.setMap n x).byteAt i = s.byteAt i := rfl
@[simp] theorem State.setMap_flashAt (s : State) (n : Nat) (x : MapSt) (i : Nat) : (s.setMap n x).flashAt i = s.flashAt i := rfl

/-! ### `setChan` -/

@[simp] theorem State.setChan_reg (s : State) (n : Nat) (x : ChanSt) : (s.setChan n x).reg = s.reg := rfl
@[simp] theorem State.setChan_mem (s : State) (n : Nat) (x : ChanSt) : (s.setChan n x).mem = s.mem := rfl
@[simp] theorem State.setChan_flash (s : State) (n : Nat) (x : ChanSt) : (s.setChan n x).flash = s.flash := rfl
@[simp] theorem State.setChan_wipes (s : State) (n : Nat) (x : ChanSt) : (s.setChan n x).wipes = s.wipes := rfl
@[simp] theorem State.setChan_colds (s : State) (n : Nat) (x : ChanSt) : (s.setChan n x).colds = s.colds := rfl
@[simp] theorem State.setChan_ecc (s : State) (n : Nat) (x : ChanSt) : (s.setChan n x).ecc = s.ecc := rfl
@[simp] theorem State.setChan_latch (s : State) (n : Nat) (x : ChanSt) : (s.setChan n x).latch = s.latch := rfl
@[simp] theorem State.setChan_links (s : State) (n : Nat) (x : ChanSt) : (s.setChan n x).links = s.links := rfl
@[simp] theorem State.setChan_fecs (s : State) (n : Nat) (x : ChanSt) : (s.setChan n x).fecs = s.fecs := rfl
@[simp] theorem State.setChan_engs (s : State) (n : Nat) (x : ChanSt) : (s.setChan n x).engs = s.engs := rfl
@[simp] theorem State.setChan_clus (s : State) (n : Nat) (x : ChanSt) : (s.setChan n x).clus = s.clus := rfl
@[simp] theorem State.setChan_handles (s : State) (n : Nat) (x : ChanSt) : (s.setChan n x).handles = s.handles := rfl
@[simp] theorem State.setChan_replay (s : State) (n : Nat) (x : ChanSt) : (s.setChan n x).replay = s.replay := rfl
@[simp] theorem State.setChan_maps (s : State) (n : Nat) (x : ChanSt) : (s.setChan n x).maps = s.maps := rfl
@[simp] theorem State.setChan_lates (s : State) (n : Nat) (x : ChanSt) : (s.setChan n x).lates = s.lates := rfl
@[simp] theorem State.setChan_dsps (s : State) (n : Nat) (x : ChanSt) : (s.setChan n x).dsps = s.dsps := rfl
@[simp] theorem State.setChan_nav (s : State) (n : Nat) (x : ChanSt) : (s.setChan n x).nav = s.nav := rfl
@[simp] theorem State.setChan_mordant (s : State) (n : Nat) (x : ChanSt) : (s.setChan n x).mordant = s.mordant := rfl
@[simp] theorem State.setChan_itg (s : State) (n : Nat) (x : ChanSt) : (s.setChan n x).itg = s.itg := rfl
@[simp] theorem State.setChan_tim (s : State) (n : Nat) (x : ChanSt) : (s.setChan n x).tim = s.tim := rfl
@[simp] theorem State.setChan_tps (s : State) (n : Nat) (x : ChanSt) : (s.setChan n x).tps = s.tps := rfl
@[simp] theorem State.setChan_tpi (s : State) (n : Nat) (x : ChanSt) : (s.setChan n x).tpi = s.tpi := rfl
@[simp] theorem State.setChan_plls (s : State) (n : Nat) (x : ChanSt) : (s.setChan n x).plls = s.plls := rfl
@[simp] theorem State.setChan_ckos (s : State) (n : Nat) (x : ChanSt) : (s.setChan n x).ckos = s.ckos := rfl
@[simp] theorem State.setChan_ports (s : State) (n : Nat) (x : ChanSt) : (s.setChan n x).ports = s.ports := rfl
@[simp] theorem State.setChan_slots (s : State) (n : Nat) (x : ChanSt) : (s.setChan n x).slots = s.slots := rfl
@[simp] theorem State.setChan_net (s : State) (n : Nat) (x : ChanSt) : (s.setChan n x).net = s.net := rfl
@[simp] theorem State.setChan_lines (s : State) (n : Nat) (x : ChanSt) : (s.setChan n x).lines = s.lines := rfl
@[simp] theorem State.setChan_banks (s : State) (n : Nat) (x : ChanSt) : (s.setChan n x).banks = s.banks := rfl
@[simp] theorem State.setChan_rtc (s : State) (n : Nat) (x : ChanSt) : (s.setChan n x).rtc = s.rtc := rfl
@[simp] theorem State.setChan_sup (s : State) (n : Nat) (x : ChanSt) : (s.setChan n x).sup = s.sup := rfl
@[simp] theorem State.setChan_umb (s : State) (n : Nat) (x : ChanSt) : (s.setChan n x).umb = s.umb := rfl
@[simp] theorem State.setChan_cus (s : State) (n : Nat) (x : ChanSt) : (s.setChan n x).cus = s.cus := rfl
@[simp] theorem State.setChan_svc (s : State) (n : Nat) (x : ChanSt) : (s.setChan n x).svc = s.svc := rfl
@[simp] theorem State.setChan_tap (s : State) (n : Nat) (x : ChanSt) : (s.setChan n x).tap = s.tap := rfl
@[simp] theorem State.setChan_part (s : State) (n : Nat) (x : ChanSt) : (s.setChan n x).part = s.part := rfl
@[simp] theorem State.setChan_out (s : State) (n : Nat) (x : ChanSt) : (s.setChan n x).out = s.out := rfl
@[simp] theorem State.setChan_free (s : State) (n : Nat) (x : ChanSt) : (s.setChan n x).free = s.free := rfl
@[simp] theorem State.setChan_pending (s : State) (n : Nat) (x : ChanSt) : (s.setChan n x).pending = s.pending := rfl
@[simp] theorem State.setChan_link_at (s : State) (n : Nat) (x : ChanSt) (i : Nat) : (s.setChan n x).link i = s.link i := rfl
@[simp] theorem State.setChan_fec_at (s : State) (n : Nat) (x : ChanSt) (i : Nat) : (s.setChan n x).fec i = s.fec i := rfl
@[simp] theorem State.setChan_eng_at (s : State) (n : Nat) (x : ChanSt) (i : Nat) : (s.setChan n x).eng i = s.eng i := rfl
@[simp] theorem State.setChan_clu_at (s : State) (n : Nat) (x : ChanSt) (i : Nat) : (s.setChan n x).clu i = s.clu i := rfl
@[simp] theorem State.setChan_handle_at (s : State) (n : Nat) (x : ChanSt) (i : Nat) : (s.setChan n x).handle i = s.handle i := rfl
@[simp] theorem State.setChan_map_at (s : State) (n : Nat) (x : ChanSt) (i : Nat) : (s.setChan n x).map i = s.map i := rfl
@[simp] theorem State.setChan_dsp_at (s : State) (n : Nat) (x : ChanSt) (i : Nat) : (s.setChan n x).dsp i = s.dsp i := rfl
@[simp] theorem State.setChan_tp_at (s : State) (n : Nat) (x : ChanSt) (i : Nat) : (s.setChan n x).tp i = s.tp i := rfl
@[simp] theorem State.setChan_pll_at (s : State) (n : Nat) (x : ChanSt) (i : Nat) : (s.setChan n x).pll i = s.pll i := rfl
@[simp] theorem State.setChan_cko_at (s : State) (n : Nat) (x : ChanSt) (i : Nat) : (s.setChan n x).cko i = s.cko i := rfl
@[simp] theorem State.setChan_port_at (s : State) (n : Nat) (x : ChanSt) (i : Nat) : (s.setChan n x).port i = s.port i := rfl
@[simp] theorem State.setChan_slot_at (s : State) (n : Nat) (x : ChanSt) (i : Nat) : (s.setChan n x).slot i = s.slot i := rfl
@[simp] theorem State.setChan_line_at (s : State) (n : Nat) (x : ChanSt) (i : Nat) : (s.setChan n x).line i = s.line i := rfl
@[simp] theorem State.setChan_bank_at (s : State) (n : Nat) (x : ChanSt) (i : Nat) : (s.setChan n x).bank i = s.bank i := rfl
@[simp] theorem State.setChan_get (s : State) (n : Nat) (x : ChanSt) (g : Field) : (s.setChan n x).get g = s.get g := rfl
@[simp] theorem State.setChan_on (s : State) (n : Nat) (x : ChanSt) (g : Field) : (s.setChan n x).on g = s.on g := rfl
@[simp] theorem State.setChan_byteAt (s : State) (n : Nat) (x : ChanSt) (i : Nat) : (s.setChan n x).byteAt i = s.byteAt i := rfl
@[simp] theorem State.setChan_flashAt (s : State) (n : Nat) (x : ChanSt) (i : Nat) : (s.setChan n x).flashAt i = s.flashAt i := rfl

/-! ### `setDsp` -/

@[simp] theorem State.setDsp_reg (s : State) (n : Nat) (x : DspSt) : (s.setDsp n x).reg = s.reg := rfl
@[simp] theorem State.setDsp_mem (s : State) (n : Nat) (x : DspSt) : (s.setDsp n x).mem = s.mem := rfl
@[simp] theorem State.setDsp_flash (s : State) (n : Nat) (x : DspSt) : (s.setDsp n x).flash = s.flash := rfl
@[simp] theorem State.setDsp_wipes (s : State) (n : Nat) (x : DspSt) : (s.setDsp n x).wipes = s.wipes := rfl
@[simp] theorem State.setDsp_colds (s : State) (n : Nat) (x : DspSt) : (s.setDsp n x).colds = s.colds := rfl
@[simp] theorem State.setDsp_ecc (s : State) (n : Nat) (x : DspSt) : (s.setDsp n x).ecc = s.ecc := rfl
@[simp] theorem State.setDsp_latch (s : State) (n : Nat) (x : DspSt) : (s.setDsp n x).latch = s.latch := rfl
@[simp] theorem State.setDsp_links (s : State) (n : Nat) (x : DspSt) : (s.setDsp n x).links = s.links := rfl
@[simp] theorem State.setDsp_fecs (s : State) (n : Nat) (x : DspSt) : (s.setDsp n x).fecs = s.fecs := rfl
@[simp] theorem State.setDsp_engs (s : State) (n : Nat) (x : DspSt) : (s.setDsp n x).engs = s.engs := rfl
@[simp] theorem State.setDsp_clus (s : State) (n : Nat) (x : DspSt) : (s.setDsp n x).clus = s.clus := rfl
@[simp] theorem State.setDsp_handles (s : State) (n : Nat) (x : DspSt) : (s.setDsp n x).handles = s.handles := rfl
@[simp] theorem State.setDsp_replay (s : State) (n : Nat) (x : DspSt) : (s.setDsp n x).replay = s.replay := rfl
@[simp] theorem State.setDsp_maps (s : State) (n : Nat) (x : DspSt) : (s.setDsp n x).maps = s.maps := rfl
@[simp] theorem State.setDsp_chans (s : State) (n : Nat) (x : DspSt) : (s.setDsp n x).chans = s.chans := rfl
@[simp] theorem State.setDsp_lates (s : State) (n : Nat) (x : DspSt) : (s.setDsp n x).lates = s.lates := rfl
@[simp] theorem State.setDsp_nav (s : State) (n : Nat) (x : DspSt) : (s.setDsp n x).nav = s.nav := rfl
@[simp] theorem State.setDsp_mordant (s : State) (n : Nat) (x : DspSt) : (s.setDsp n x).mordant = s.mordant := rfl
@[simp] theorem State.setDsp_itg (s : State) (n : Nat) (x : DspSt) : (s.setDsp n x).itg = s.itg := rfl
@[simp] theorem State.setDsp_tim (s : State) (n : Nat) (x : DspSt) : (s.setDsp n x).tim = s.tim := rfl
@[simp] theorem State.setDsp_tps (s : State) (n : Nat) (x : DspSt) : (s.setDsp n x).tps = s.tps := rfl
@[simp] theorem State.setDsp_tpi (s : State) (n : Nat) (x : DspSt) : (s.setDsp n x).tpi = s.tpi := rfl
@[simp] theorem State.setDsp_plls (s : State) (n : Nat) (x : DspSt) : (s.setDsp n x).plls = s.plls := rfl
@[simp] theorem State.setDsp_ckos (s : State) (n : Nat) (x : DspSt) : (s.setDsp n x).ckos = s.ckos := rfl
@[simp] theorem State.setDsp_ports (s : State) (n : Nat) (x : DspSt) : (s.setDsp n x).ports = s.ports := rfl
@[simp] theorem State.setDsp_slots (s : State) (n : Nat) (x : DspSt) : (s.setDsp n x).slots = s.slots := rfl
@[simp] theorem State.setDsp_net (s : State) (n : Nat) (x : DspSt) : (s.setDsp n x).net = s.net := rfl
@[simp] theorem State.setDsp_lines (s : State) (n : Nat) (x : DspSt) : (s.setDsp n x).lines = s.lines := rfl
@[simp] theorem State.setDsp_banks (s : State) (n : Nat) (x : DspSt) : (s.setDsp n x).banks = s.banks := rfl
@[simp] theorem State.setDsp_rtc (s : State) (n : Nat) (x : DspSt) : (s.setDsp n x).rtc = s.rtc := rfl
@[simp] theorem State.setDsp_sup (s : State) (n : Nat) (x : DspSt) : (s.setDsp n x).sup = s.sup := rfl
@[simp] theorem State.setDsp_umb (s : State) (n : Nat) (x : DspSt) : (s.setDsp n x).umb = s.umb := rfl
@[simp] theorem State.setDsp_cus (s : State) (n : Nat) (x : DspSt) : (s.setDsp n x).cus = s.cus := rfl
@[simp] theorem State.setDsp_svc (s : State) (n : Nat) (x : DspSt) : (s.setDsp n x).svc = s.svc := rfl
@[simp] theorem State.setDsp_tap (s : State) (n : Nat) (x : DspSt) : (s.setDsp n x).tap = s.tap := rfl
@[simp] theorem State.setDsp_part (s : State) (n : Nat) (x : DspSt) : (s.setDsp n x).part = s.part := rfl
@[simp] theorem State.setDsp_out (s : State) (n : Nat) (x : DspSt) : (s.setDsp n x).out = s.out := rfl
@[simp] theorem State.setDsp_free (s : State) (n : Nat) (x : DspSt) : (s.setDsp n x).free = s.free := rfl
@[simp] theorem State.setDsp_pending (s : State) (n : Nat) (x : DspSt) : (s.setDsp n x).pending = s.pending := rfl
@[simp] theorem State.setDsp_link_at (s : State) (n : Nat) (x : DspSt) (i : Nat) : (s.setDsp n x).link i = s.link i := rfl
@[simp] theorem State.setDsp_fec_at (s : State) (n : Nat) (x : DspSt) (i : Nat) : (s.setDsp n x).fec i = s.fec i := rfl
@[simp] theorem State.setDsp_eng_at (s : State) (n : Nat) (x : DspSt) (i : Nat) : (s.setDsp n x).eng i = s.eng i := rfl
@[simp] theorem State.setDsp_clu_at (s : State) (n : Nat) (x : DspSt) (i : Nat) : (s.setDsp n x).clu i = s.clu i := rfl
@[simp] theorem State.setDsp_handle_at (s : State) (n : Nat) (x : DspSt) (i : Nat) : (s.setDsp n x).handle i = s.handle i := rfl
@[simp] theorem State.setDsp_map_at (s : State) (n : Nat) (x : DspSt) (i : Nat) : (s.setDsp n x).map i = s.map i := rfl
@[simp] theorem State.setDsp_chan_at (s : State) (n : Nat) (x : DspSt) (i : Nat) : (s.setDsp n x).chan i = s.chan i := rfl
@[simp] theorem State.setDsp_tp_at (s : State) (n : Nat) (x : DspSt) (i : Nat) : (s.setDsp n x).tp i = s.tp i := rfl
@[simp] theorem State.setDsp_pll_at (s : State) (n : Nat) (x : DspSt) (i : Nat) : (s.setDsp n x).pll i = s.pll i := rfl
@[simp] theorem State.setDsp_cko_at (s : State) (n : Nat) (x : DspSt) (i : Nat) : (s.setDsp n x).cko i = s.cko i := rfl
@[simp] theorem State.setDsp_port_at (s : State) (n : Nat) (x : DspSt) (i : Nat) : (s.setDsp n x).port i = s.port i := rfl
@[simp] theorem State.setDsp_slot_at (s : State) (n : Nat) (x : DspSt) (i : Nat) : (s.setDsp n x).slot i = s.slot i := rfl
@[simp] theorem State.setDsp_line_at (s : State) (n : Nat) (x : DspSt) (i : Nat) : (s.setDsp n x).line i = s.line i := rfl
@[simp] theorem State.setDsp_bank_at (s : State) (n : Nat) (x : DspSt) (i : Nat) : (s.setDsp n x).bank i = s.bank i := rfl
@[simp] theorem State.setDsp_get (s : State) (n : Nat) (x : DspSt) (g : Field) : (s.setDsp n x).get g = s.get g := rfl
@[simp] theorem State.setDsp_on (s : State) (n : Nat) (x : DspSt) (g : Field) : (s.setDsp n x).on g = s.on g := rfl
@[simp] theorem State.setDsp_byteAt (s : State) (n : Nat) (x : DspSt) (i : Nat) : (s.setDsp n x).byteAt i = s.byteAt i := rfl
@[simp] theorem State.setDsp_flashAt (s : State) (n : Nat) (x : DspSt) (i : Nat) : (s.setDsp n x).flashAt i = s.flashAt i := rfl

/-! ### `setTp` -/

@[simp] theorem State.setTp_reg (s : State) (n : Nat) (x : TpSt) : (s.setTp n x).reg = s.reg := rfl
@[simp] theorem State.setTp_mem (s : State) (n : Nat) (x : TpSt) : (s.setTp n x).mem = s.mem := rfl
@[simp] theorem State.setTp_flash (s : State) (n : Nat) (x : TpSt) : (s.setTp n x).flash = s.flash := rfl
@[simp] theorem State.setTp_wipes (s : State) (n : Nat) (x : TpSt) : (s.setTp n x).wipes = s.wipes := rfl
@[simp] theorem State.setTp_colds (s : State) (n : Nat) (x : TpSt) : (s.setTp n x).colds = s.colds := rfl
@[simp] theorem State.setTp_ecc (s : State) (n : Nat) (x : TpSt) : (s.setTp n x).ecc = s.ecc := rfl
@[simp] theorem State.setTp_latch (s : State) (n : Nat) (x : TpSt) : (s.setTp n x).latch = s.latch := rfl
@[simp] theorem State.setTp_links (s : State) (n : Nat) (x : TpSt) : (s.setTp n x).links = s.links := rfl
@[simp] theorem State.setTp_fecs (s : State) (n : Nat) (x : TpSt) : (s.setTp n x).fecs = s.fecs := rfl
@[simp] theorem State.setTp_engs (s : State) (n : Nat) (x : TpSt) : (s.setTp n x).engs = s.engs := rfl
@[simp] theorem State.setTp_clus (s : State) (n : Nat) (x : TpSt) : (s.setTp n x).clus = s.clus := rfl
@[simp] theorem State.setTp_handles (s : State) (n : Nat) (x : TpSt) : (s.setTp n x).handles = s.handles := rfl
@[simp] theorem State.setTp_replay (s : State) (n : Nat) (x : TpSt) : (s.setTp n x).replay = s.replay := rfl
@[simp] theorem State.setTp_maps (s : State) (n : Nat) (x : TpSt) : (s.setTp n x).maps = s.maps := rfl
@[simp] theorem State.setTp_chans (s : State) (n : Nat) (x : TpSt) : (s.setTp n x).chans = s.chans := rfl
@[simp] theorem State.setTp_lates (s : State) (n : Nat) (x : TpSt) : (s.setTp n x).lates = s.lates := rfl
@[simp] theorem State.setTp_dsps (s : State) (n : Nat) (x : TpSt) : (s.setTp n x).dsps = s.dsps := rfl
@[simp] theorem State.setTp_nav (s : State) (n : Nat) (x : TpSt) : (s.setTp n x).nav = s.nav := rfl
@[simp] theorem State.setTp_mordant (s : State) (n : Nat) (x : TpSt) : (s.setTp n x).mordant = s.mordant := rfl
@[simp] theorem State.setTp_itg (s : State) (n : Nat) (x : TpSt) : (s.setTp n x).itg = s.itg := rfl
@[simp] theorem State.setTp_tim (s : State) (n : Nat) (x : TpSt) : (s.setTp n x).tim = s.tim := rfl
@[simp] theorem State.setTp_tpi (s : State) (n : Nat) (x : TpSt) : (s.setTp n x).tpi = s.tpi := rfl
@[simp] theorem State.setTp_plls (s : State) (n : Nat) (x : TpSt) : (s.setTp n x).plls = s.plls := rfl
@[simp] theorem State.setTp_ckos (s : State) (n : Nat) (x : TpSt) : (s.setTp n x).ckos = s.ckos := rfl
@[simp] theorem State.setTp_ports (s : State) (n : Nat) (x : TpSt) : (s.setTp n x).ports = s.ports := rfl
@[simp] theorem State.setTp_slots (s : State) (n : Nat) (x : TpSt) : (s.setTp n x).slots = s.slots := rfl
@[simp] theorem State.setTp_net (s : State) (n : Nat) (x : TpSt) : (s.setTp n x).net = s.net := rfl
@[simp] theorem State.setTp_lines (s : State) (n : Nat) (x : TpSt) : (s.setTp n x).lines = s.lines := rfl
@[simp] theorem State.setTp_banks (s : State) (n : Nat) (x : TpSt) : (s.setTp n x).banks = s.banks := rfl
@[simp] theorem State.setTp_rtc (s : State) (n : Nat) (x : TpSt) : (s.setTp n x).rtc = s.rtc := rfl
@[simp] theorem State.setTp_sup (s : State) (n : Nat) (x : TpSt) : (s.setTp n x).sup = s.sup := rfl
@[simp] theorem State.setTp_umb (s : State) (n : Nat) (x : TpSt) : (s.setTp n x).umb = s.umb := rfl
@[simp] theorem State.setTp_cus (s : State) (n : Nat) (x : TpSt) : (s.setTp n x).cus = s.cus := rfl
@[simp] theorem State.setTp_svc (s : State) (n : Nat) (x : TpSt) : (s.setTp n x).svc = s.svc := rfl
@[simp] theorem State.setTp_tap (s : State) (n : Nat) (x : TpSt) : (s.setTp n x).tap = s.tap := rfl
@[simp] theorem State.setTp_part (s : State) (n : Nat) (x : TpSt) : (s.setTp n x).part = s.part := rfl
@[simp] theorem State.setTp_out (s : State) (n : Nat) (x : TpSt) : (s.setTp n x).out = s.out := rfl
@[simp] theorem State.setTp_free (s : State) (n : Nat) (x : TpSt) : (s.setTp n x).free = s.free := rfl
@[simp] theorem State.setTp_pending (s : State) (n : Nat) (x : TpSt) : (s.setTp n x).pending = s.pending := rfl
@[simp] theorem State.setTp_link_at (s : State) (n : Nat) (x : TpSt) (i : Nat) : (s.setTp n x).link i = s.link i := rfl
@[simp] theorem State.setTp_fec_at (s : State) (n : Nat) (x : TpSt) (i : Nat) : (s.setTp n x).fec i = s.fec i := rfl
@[simp] theorem State.setTp_eng_at (s : State) (n : Nat) (x : TpSt) (i : Nat) : (s.setTp n x).eng i = s.eng i := rfl
@[simp] theorem State.setTp_clu_at (s : State) (n : Nat) (x : TpSt) (i : Nat) : (s.setTp n x).clu i = s.clu i := rfl
@[simp] theorem State.setTp_handle_at (s : State) (n : Nat) (x : TpSt) (i : Nat) : (s.setTp n x).handle i = s.handle i := rfl
@[simp] theorem State.setTp_map_at (s : State) (n : Nat) (x : TpSt) (i : Nat) : (s.setTp n x).map i = s.map i := rfl
@[simp] theorem State.setTp_chan_at (s : State) (n : Nat) (x : TpSt) (i : Nat) : (s.setTp n x).chan i = s.chan i := rfl
@[simp] theorem State.setTp_dsp_at (s : State) (n : Nat) (x : TpSt) (i : Nat) : (s.setTp n x).dsp i = s.dsp i := rfl
@[simp] theorem State.setTp_pll_at (s : State) (n : Nat) (x : TpSt) (i : Nat) : (s.setTp n x).pll i = s.pll i := rfl
@[simp] theorem State.setTp_cko_at (s : State) (n : Nat) (x : TpSt) (i : Nat) : (s.setTp n x).cko i = s.cko i := rfl
@[simp] theorem State.setTp_port_at (s : State) (n : Nat) (x : TpSt) (i : Nat) : (s.setTp n x).port i = s.port i := rfl
@[simp] theorem State.setTp_slot_at (s : State) (n : Nat) (x : TpSt) (i : Nat) : (s.setTp n x).slot i = s.slot i := rfl
@[simp] theorem State.setTp_line_at (s : State) (n : Nat) (x : TpSt) (i : Nat) : (s.setTp n x).line i = s.line i := rfl
@[simp] theorem State.setTp_bank_at (s : State) (n : Nat) (x : TpSt) (i : Nat) : (s.setTp n x).bank i = s.bank i := rfl
@[simp] theorem State.setTp_get (s : State) (n : Nat) (x : TpSt) (g : Field) : (s.setTp n x).get g = s.get g := rfl
@[simp] theorem State.setTp_on (s : State) (n : Nat) (x : TpSt) (g : Field) : (s.setTp n x).on g = s.on g := rfl
@[simp] theorem State.setTp_byteAt (s : State) (n : Nat) (x : TpSt) (i : Nat) : (s.setTp n x).byteAt i = s.byteAt i := rfl
@[simp] theorem State.setTp_flashAt (s : State) (n : Nat) (x : TpSt) (i : Nat) : (s.setTp n x).flashAt i = s.flashAt i := rfl

/-! ### `setPll` -/

@[simp] theorem State.setPll_reg (s : State) (n : Nat) (x : PllSt) : (s.setPll n x).reg = s.reg := rfl
@[simp] theorem State.setPll_mem (s : State) (n : Nat) (x : PllSt) : (s.setPll n x).mem = s.mem := rfl
@[simp] theorem State.setPll_flash (s : State) (n : Nat) (x : PllSt) : (s.setPll n x).flash = s.flash := rfl
@[simp] theorem State.setPll_wipes (s : State) (n : Nat) (x : PllSt) : (s.setPll n x).wipes = s.wipes := rfl
@[simp] theorem State.setPll_colds (s : State) (n : Nat) (x : PllSt) : (s.setPll n x).colds = s.colds := rfl
@[simp] theorem State.setPll_ecc (s : State) (n : Nat) (x : PllSt) : (s.setPll n x).ecc = s.ecc := rfl
@[simp] theorem State.setPll_latch (s : State) (n : Nat) (x : PllSt) : (s.setPll n x).latch = s.latch := rfl
@[simp] theorem State.setPll_links (s : State) (n : Nat) (x : PllSt) : (s.setPll n x).links = s.links := rfl
@[simp] theorem State.setPll_fecs (s : State) (n : Nat) (x : PllSt) : (s.setPll n x).fecs = s.fecs := rfl
@[simp] theorem State.setPll_engs (s : State) (n : Nat) (x : PllSt) : (s.setPll n x).engs = s.engs := rfl
@[simp] theorem State.setPll_clus (s : State) (n : Nat) (x : PllSt) : (s.setPll n x).clus = s.clus := rfl
@[simp] theorem State.setPll_handles (s : State) (n : Nat) (x : PllSt) : (s.setPll n x).handles = s.handles := rfl
@[simp] theorem State.setPll_replay (s : State) (n : Nat) (x : PllSt) : (s.setPll n x).replay = s.replay := rfl
@[simp] theorem State.setPll_maps (s : State) (n : Nat) (x : PllSt) : (s.setPll n x).maps = s.maps := rfl
@[simp] theorem State.setPll_chans (s : State) (n : Nat) (x : PllSt) : (s.setPll n x).chans = s.chans := rfl
@[simp] theorem State.setPll_lates (s : State) (n : Nat) (x : PllSt) : (s.setPll n x).lates = s.lates := rfl
@[simp] theorem State.setPll_dsps (s : State) (n : Nat) (x : PllSt) : (s.setPll n x).dsps = s.dsps := rfl
@[simp] theorem State.setPll_nav (s : State) (n : Nat) (x : PllSt) : (s.setPll n x).nav = s.nav := rfl
@[simp] theorem State.setPll_mordant (s : State) (n : Nat) (x : PllSt) : (s.setPll n x).mordant = s.mordant := rfl
@[simp] theorem State.setPll_itg (s : State) (n : Nat) (x : PllSt) : (s.setPll n x).itg = s.itg := rfl
@[simp] theorem State.setPll_tim (s : State) (n : Nat) (x : PllSt) : (s.setPll n x).tim = s.tim := rfl
@[simp] theorem State.setPll_tps (s : State) (n : Nat) (x : PllSt) : (s.setPll n x).tps = s.tps := rfl
@[simp] theorem State.setPll_tpi (s : State) (n : Nat) (x : PllSt) : (s.setPll n x).tpi = s.tpi := rfl
@[simp] theorem State.setPll_ckos (s : State) (n : Nat) (x : PllSt) : (s.setPll n x).ckos = s.ckos := rfl
@[simp] theorem State.setPll_ports (s : State) (n : Nat) (x : PllSt) : (s.setPll n x).ports = s.ports := rfl
@[simp] theorem State.setPll_slots (s : State) (n : Nat) (x : PllSt) : (s.setPll n x).slots = s.slots := rfl
@[simp] theorem State.setPll_net (s : State) (n : Nat) (x : PllSt) : (s.setPll n x).net = s.net := rfl
@[simp] theorem State.setPll_lines (s : State) (n : Nat) (x : PllSt) : (s.setPll n x).lines = s.lines := rfl
@[simp] theorem State.setPll_banks (s : State) (n : Nat) (x : PllSt) : (s.setPll n x).banks = s.banks := rfl
@[simp] theorem State.setPll_rtc (s : State) (n : Nat) (x : PllSt) : (s.setPll n x).rtc = s.rtc := rfl
@[simp] theorem State.setPll_sup (s : State) (n : Nat) (x : PllSt) : (s.setPll n x).sup = s.sup := rfl
@[simp] theorem State.setPll_umb (s : State) (n : Nat) (x : PllSt) : (s.setPll n x).umb = s.umb := rfl
@[simp] theorem State.setPll_cus (s : State) (n : Nat) (x : PllSt) : (s.setPll n x).cus = s.cus := rfl
@[simp] theorem State.setPll_svc (s : State) (n : Nat) (x : PllSt) : (s.setPll n x).svc = s.svc := rfl
@[simp] theorem State.setPll_tap (s : State) (n : Nat) (x : PllSt) : (s.setPll n x).tap = s.tap := rfl
@[simp] theorem State.setPll_part (s : State) (n : Nat) (x : PllSt) : (s.setPll n x).part = s.part := rfl
@[simp] theorem State.setPll_out (s : State) (n : Nat) (x : PllSt) : (s.setPll n x).out = s.out := rfl
@[simp] theorem State.setPll_free (s : State) (n : Nat) (x : PllSt) : (s.setPll n x).free = s.free := rfl
@[simp] theorem State.setPll_pending (s : State) (n : Nat) (x : PllSt) : (s.setPll n x).pending = s.pending := rfl
@[simp] theorem State.setPll_link_at (s : State) (n : Nat) (x : PllSt) (i : Nat) : (s.setPll n x).link i = s.link i := rfl
@[simp] theorem State.setPll_fec_at (s : State) (n : Nat) (x : PllSt) (i : Nat) : (s.setPll n x).fec i = s.fec i := rfl
@[simp] theorem State.setPll_eng_at (s : State) (n : Nat) (x : PllSt) (i : Nat) : (s.setPll n x).eng i = s.eng i := rfl
@[simp] theorem State.setPll_clu_at (s : State) (n : Nat) (x : PllSt) (i : Nat) : (s.setPll n x).clu i = s.clu i := rfl
@[simp] theorem State.setPll_handle_at (s : State) (n : Nat) (x : PllSt) (i : Nat) : (s.setPll n x).handle i = s.handle i := rfl
@[simp] theorem State.setPll_map_at (s : State) (n : Nat) (x : PllSt) (i : Nat) : (s.setPll n x).map i = s.map i := rfl
@[simp] theorem State.setPll_chan_at (s : State) (n : Nat) (x : PllSt) (i : Nat) : (s.setPll n x).chan i = s.chan i := rfl
@[simp] theorem State.setPll_dsp_at (s : State) (n : Nat) (x : PllSt) (i : Nat) : (s.setPll n x).dsp i = s.dsp i := rfl
@[simp] theorem State.setPll_tp_at (s : State) (n : Nat) (x : PllSt) (i : Nat) : (s.setPll n x).tp i = s.tp i := rfl
@[simp] theorem State.setPll_cko_at (s : State) (n : Nat) (x : PllSt) (i : Nat) : (s.setPll n x).cko i = s.cko i := rfl
@[simp] theorem State.setPll_port_at (s : State) (n : Nat) (x : PllSt) (i : Nat) : (s.setPll n x).port i = s.port i := rfl
@[simp] theorem State.setPll_slot_at (s : State) (n : Nat) (x : PllSt) (i : Nat) : (s.setPll n x).slot i = s.slot i := rfl
@[simp] theorem State.setPll_line_at (s : State) (n : Nat) (x : PllSt) (i : Nat) : (s.setPll n x).line i = s.line i := rfl
@[simp] theorem State.setPll_bank_at (s : State) (n : Nat) (x : PllSt) (i : Nat) : (s.setPll n x).bank i = s.bank i := rfl
@[simp] theorem State.setPll_get (s : State) (n : Nat) (x : PllSt) (g : Field) : (s.setPll n x).get g = s.get g := rfl
@[simp] theorem State.setPll_on (s : State) (n : Nat) (x : PllSt) (g : Field) : (s.setPll n x).on g = s.on g := rfl
@[simp] theorem State.setPll_byteAt (s : State) (n : Nat) (x : PllSt) (i : Nat) : (s.setPll n x).byteAt i = s.byteAt i := rfl
@[simp] theorem State.setPll_flashAt (s : State) (n : Nat) (x : PllSt) (i : Nat) : (s.setPll n x).flashAt i = s.flashAt i := rfl

/-! ### `setCko` -/

@[simp] theorem State.setCko_reg (s : State) (n : Nat) (x : CkoSt) : (s.setCko n x).reg = s.reg := rfl
@[simp] theorem State.setCko_mem (s : State) (n : Nat) (x : CkoSt) : (s.setCko n x).mem = s.mem := rfl
@[simp] theorem State.setCko_flash (s : State) (n : Nat) (x : CkoSt) : (s.setCko n x).flash = s.flash := rfl
@[simp] theorem State.setCko_wipes (s : State) (n : Nat) (x : CkoSt) : (s.setCko n x).wipes = s.wipes := rfl
@[simp] theorem State.setCko_colds (s : State) (n : Nat) (x : CkoSt) : (s.setCko n x).colds = s.colds := rfl
@[simp] theorem State.setCko_ecc (s : State) (n : Nat) (x : CkoSt) : (s.setCko n x).ecc = s.ecc := rfl
@[simp] theorem State.setCko_latch (s : State) (n : Nat) (x : CkoSt) : (s.setCko n x).latch = s.latch := rfl
@[simp] theorem State.setCko_links (s : State) (n : Nat) (x : CkoSt) : (s.setCko n x).links = s.links := rfl
@[simp] theorem State.setCko_fecs (s : State) (n : Nat) (x : CkoSt) : (s.setCko n x).fecs = s.fecs := rfl
@[simp] theorem State.setCko_engs (s : State) (n : Nat) (x : CkoSt) : (s.setCko n x).engs = s.engs := rfl
@[simp] theorem State.setCko_clus (s : State) (n : Nat) (x : CkoSt) : (s.setCko n x).clus = s.clus := rfl
@[simp] theorem State.setCko_handles (s : State) (n : Nat) (x : CkoSt) : (s.setCko n x).handles = s.handles := rfl
@[simp] theorem State.setCko_replay (s : State) (n : Nat) (x : CkoSt) : (s.setCko n x).replay = s.replay := rfl
@[simp] theorem State.setCko_maps (s : State) (n : Nat) (x : CkoSt) : (s.setCko n x).maps = s.maps := rfl
@[simp] theorem State.setCko_chans (s : State) (n : Nat) (x : CkoSt) : (s.setCko n x).chans = s.chans := rfl
@[simp] theorem State.setCko_lates (s : State) (n : Nat) (x : CkoSt) : (s.setCko n x).lates = s.lates := rfl
@[simp] theorem State.setCko_dsps (s : State) (n : Nat) (x : CkoSt) : (s.setCko n x).dsps = s.dsps := rfl
@[simp] theorem State.setCko_nav (s : State) (n : Nat) (x : CkoSt) : (s.setCko n x).nav = s.nav := rfl
@[simp] theorem State.setCko_mordant (s : State) (n : Nat) (x : CkoSt) : (s.setCko n x).mordant = s.mordant := rfl
@[simp] theorem State.setCko_itg (s : State) (n : Nat) (x : CkoSt) : (s.setCko n x).itg = s.itg := rfl
@[simp] theorem State.setCko_tim (s : State) (n : Nat) (x : CkoSt) : (s.setCko n x).tim = s.tim := rfl
@[simp] theorem State.setCko_tps (s : State) (n : Nat) (x : CkoSt) : (s.setCko n x).tps = s.tps := rfl
@[simp] theorem State.setCko_tpi (s : State) (n : Nat) (x : CkoSt) : (s.setCko n x).tpi = s.tpi := rfl
@[simp] theorem State.setCko_plls (s : State) (n : Nat) (x : CkoSt) : (s.setCko n x).plls = s.plls := rfl
@[simp] theorem State.setCko_ports (s : State) (n : Nat) (x : CkoSt) : (s.setCko n x).ports = s.ports := rfl
@[simp] theorem State.setCko_slots (s : State) (n : Nat) (x : CkoSt) : (s.setCko n x).slots = s.slots := rfl
@[simp] theorem State.setCko_net (s : State) (n : Nat) (x : CkoSt) : (s.setCko n x).net = s.net := rfl
@[simp] theorem State.setCko_lines (s : State) (n : Nat) (x : CkoSt) : (s.setCko n x).lines = s.lines := rfl
@[simp] theorem State.setCko_banks (s : State) (n : Nat) (x : CkoSt) : (s.setCko n x).banks = s.banks := rfl
@[simp] theorem State.setCko_rtc (s : State) (n : Nat) (x : CkoSt) : (s.setCko n x).rtc = s.rtc := rfl
@[simp] theorem State.setCko_sup (s : State) (n : Nat) (x : CkoSt) : (s.setCko n x).sup = s.sup := rfl
@[simp] theorem State.setCko_umb (s : State) (n : Nat) (x : CkoSt) : (s.setCko n x).umb = s.umb := rfl
@[simp] theorem State.setCko_cus (s : State) (n : Nat) (x : CkoSt) : (s.setCko n x).cus = s.cus := rfl
@[simp] theorem State.setCko_svc (s : State) (n : Nat) (x : CkoSt) : (s.setCko n x).svc = s.svc := rfl
@[simp] theorem State.setCko_tap (s : State) (n : Nat) (x : CkoSt) : (s.setCko n x).tap = s.tap := rfl
@[simp] theorem State.setCko_part (s : State) (n : Nat) (x : CkoSt) : (s.setCko n x).part = s.part := rfl
@[simp] theorem State.setCko_out (s : State) (n : Nat) (x : CkoSt) : (s.setCko n x).out = s.out := rfl
@[simp] theorem State.setCko_free (s : State) (n : Nat) (x : CkoSt) : (s.setCko n x).free = s.free := rfl
@[simp] theorem State.setCko_pending (s : State) (n : Nat) (x : CkoSt) : (s.setCko n x).pending = s.pending := rfl
@[simp] theorem State.setCko_link_at (s : State) (n : Nat) (x : CkoSt) (i : Nat) : (s.setCko n x).link i = s.link i := rfl
@[simp] theorem State.setCko_fec_at (s : State) (n : Nat) (x : CkoSt) (i : Nat) : (s.setCko n x).fec i = s.fec i := rfl
@[simp] theorem State.setCko_eng_at (s : State) (n : Nat) (x : CkoSt) (i : Nat) : (s.setCko n x).eng i = s.eng i := rfl
@[simp] theorem State.setCko_clu_at (s : State) (n : Nat) (x : CkoSt) (i : Nat) : (s.setCko n x).clu i = s.clu i := rfl
@[simp] theorem State.setCko_handle_at (s : State) (n : Nat) (x : CkoSt) (i : Nat) : (s.setCko n x).handle i = s.handle i := rfl
@[simp] theorem State.setCko_map_at (s : State) (n : Nat) (x : CkoSt) (i : Nat) : (s.setCko n x).map i = s.map i := rfl
@[simp] theorem State.setCko_chan_at (s : State) (n : Nat) (x : CkoSt) (i : Nat) : (s.setCko n x).chan i = s.chan i := rfl
@[simp] theorem State.setCko_dsp_at (s : State) (n : Nat) (x : CkoSt) (i : Nat) : (s.setCko n x).dsp i = s.dsp i := rfl
@[simp] theorem State.setCko_tp_at (s : State) (n : Nat) (x : CkoSt) (i : Nat) : (s.setCko n x).tp i = s.tp i := rfl
@[simp] theorem State.setCko_pll_at (s : State) (n : Nat) (x : CkoSt) (i : Nat) : (s.setCko n x).pll i = s.pll i := rfl
@[simp] theorem State.setCko_port_at (s : State) (n : Nat) (x : CkoSt) (i : Nat) : (s.setCko n x).port i = s.port i := rfl
@[simp] theorem State.setCko_slot_at (s : State) (n : Nat) (x : CkoSt) (i : Nat) : (s.setCko n x).slot i = s.slot i := rfl
@[simp] theorem State.setCko_line_at (s : State) (n : Nat) (x : CkoSt) (i : Nat) : (s.setCko n x).line i = s.line i := rfl
@[simp] theorem State.setCko_bank_at (s : State) (n : Nat) (x : CkoSt) (i : Nat) : (s.setCko n x).bank i = s.bank i := rfl
@[simp] theorem State.setCko_get (s : State) (n : Nat) (x : CkoSt) (g : Field) : (s.setCko n x).get g = s.get g := rfl
@[simp] theorem State.setCko_on (s : State) (n : Nat) (x : CkoSt) (g : Field) : (s.setCko n x).on g = s.on g := rfl
@[simp] theorem State.setCko_byteAt (s : State) (n : Nat) (x : CkoSt) (i : Nat) : (s.setCko n x).byteAt i = s.byteAt i := rfl
@[simp] theorem State.setCko_flashAt (s : State) (n : Nat) (x : CkoSt) (i : Nat) : (s.setCko n x).flashAt i = s.flashAt i := rfl

/-! ### `setPort` -/

@[simp] theorem State.setPort_reg (s : State) (n : Nat) (x : PortSt) : (s.setPort n x).reg = s.reg := rfl
@[simp] theorem State.setPort_mem (s : State) (n : Nat) (x : PortSt) : (s.setPort n x).mem = s.mem := rfl
@[simp] theorem State.setPort_flash (s : State) (n : Nat) (x : PortSt) : (s.setPort n x).flash = s.flash := rfl
@[simp] theorem State.setPort_wipes (s : State) (n : Nat) (x : PortSt) : (s.setPort n x).wipes = s.wipes := rfl
@[simp] theorem State.setPort_colds (s : State) (n : Nat) (x : PortSt) : (s.setPort n x).colds = s.colds := rfl
@[simp] theorem State.setPort_ecc (s : State) (n : Nat) (x : PortSt) : (s.setPort n x).ecc = s.ecc := rfl
@[simp] theorem State.setPort_latch (s : State) (n : Nat) (x : PortSt) : (s.setPort n x).latch = s.latch := rfl
@[simp] theorem State.setPort_links (s : State) (n : Nat) (x : PortSt) : (s.setPort n x).links = s.links := rfl
@[simp] theorem State.setPort_fecs (s : State) (n : Nat) (x : PortSt) : (s.setPort n x).fecs = s.fecs := rfl
@[simp] theorem State.setPort_engs (s : State) (n : Nat) (x : PortSt) : (s.setPort n x).engs = s.engs := rfl
@[simp] theorem State.setPort_clus (s : State) (n : Nat) (x : PortSt) : (s.setPort n x).clus = s.clus := rfl
@[simp] theorem State.setPort_handles (s : State) (n : Nat) (x : PortSt) : (s.setPort n x).handles = s.handles := rfl
@[simp] theorem State.setPort_replay (s : State) (n : Nat) (x : PortSt) : (s.setPort n x).replay = s.replay := rfl
@[simp] theorem State.setPort_maps (s : State) (n : Nat) (x : PortSt) : (s.setPort n x).maps = s.maps := rfl
@[simp] theorem State.setPort_chans (s : State) (n : Nat) (x : PortSt) : (s.setPort n x).chans = s.chans := rfl
@[simp] theorem State.setPort_lates (s : State) (n : Nat) (x : PortSt) : (s.setPort n x).lates = s.lates := rfl
@[simp] theorem State.setPort_dsps (s : State) (n : Nat) (x : PortSt) : (s.setPort n x).dsps = s.dsps := rfl
@[simp] theorem State.setPort_nav (s : State) (n : Nat) (x : PortSt) : (s.setPort n x).nav = s.nav := rfl
@[simp] theorem State.setPort_mordant (s : State) (n : Nat) (x : PortSt) : (s.setPort n x).mordant = s.mordant := rfl
@[simp] theorem State.setPort_itg (s : State) (n : Nat) (x : PortSt) : (s.setPort n x).itg = s.itg := rfl
@[simp] theorem State.setPort_tim (s : State) (n : Nat) (x : PortSt) : (s.setPort n x).tim = s.tim := rfl
@[simp] theorem State.setPort_tps (s : State) (n : Nat) (x : PortSt) : (s.setPort n x).tps = s.tps := rfl
@[simp] theorem State.setPort_tpi (s : State) (n : Nat) (x : PortSt) : (s.setPort n x).tpi = s.tpi := rfl
@[simp] theorem State.setPort_plls (s : State) (n : Nat) (x : PortSt) : (s.setPort n x).plls = s.plls := rfl
@[simp] theorem State.setPort_ckos (s : State) (n : Nat) (x : PortSt) : (s.setPort n x).ckos = s.ckos := rfl
@[simp] theorem State.setPort_slots (s : State) (n : Nat) (x : PortSt) : (s.setPort n x).slots = s.slots := rfl
@[simp] theorem State.setPort_net (s : State) (n : Nat) (x : PortSt) : (s.setPort n x).net = s.net := rfl
@[simp] theorem State.setPort_lines (s : State) (n : Nat) (x : PortSt) : (s.setPort n x).lines = s.lines := rfl
@[simp] theorem State.setPort_banks (s : State) (n : Nat) (x : PortSt) : (s.setPort n x).banks = s.banks := rfl
@[simp] theorem State.setPort_rtc (s : State) (n : Nat) (x : PortSt) : (s.setPort n x).rtc = s.rtc := rfl
@[simp] theorem State.setPort_sup (s : State) (n : Nat) (x : PortSt) : (s.setPort n x).sup = s.sup := rfl
@[simp] theorem State.setPort_umb (s : State) (n : Nat) (x : PortSt) : (s.setPort n x).umb = s.umb := rfl
@[simp] theorem State.setPort_cus (s : State) (n : Nat) (x : PortSt) : (s.setPort n x).cus = s.cus := rfl
@[simp] theorem State.setPort_svc (s : State) (n : Nat) (x : PortSt) : (s.setPort n x).svc = s.svc := rfl
@[simp] theorem State.setPort_tap (s : State) (n : Nat) (x : PortSt) : (s.setPort n x).tap = s.tap := rfl
@[simp] theorem State.setPort_part (s : State) (n : Nat) (x : PortSt) : (s.setPort n x).part = s.part := rfl
@[simp] theorem State.setPort_out (s : State) (n : Nat) (x : PortSt) : (s.setPort n x).out = s.out := rfl
@[simp] theorem State.setPort_free (s : State) (n : Nat) (x : PortSt) : (s.setPort n x).free = s.free := rfl
@[simp] theorem State.setPort_pending (s : State) (n : Nat) (x : PortSt) : (s.setPort n x).pending = s.pending := rfl
@[simp] theorem State.setPort_link_at (s : State) (n : Nat) (x : PortSt) (i : Nat) : (s.setPort n x).link i = s.link i := rfl
@[simp] theorem State.setPort_fec_at (s : State) (n : Nat) (x : PortSt) (i : Nat) : (s.setPort n x).fec i = s.fec i := rfl
@[simp] theorem State.setPort_eng_at (s : State) (n : Nat) (x : PortSt) (i : Nat) : (s.setPort n x).eng i = s.eng i := rfl
@[simp] theorem State.setPort_clu_at (s : State) (n : Nat) (x : PortSt) (i : Nat) : (s.setPort n x).clu i = s.clu i := rfl
@[simp] theorem State.setPort_handle_at (s : State) (n : Nat) (x : PortSt) (i : Nat) : (s.setPort n x).handle i = s.handle i := rfl
@[simp] theorem State.setPort_map_at (s : State) (n : Nat) (x : PortSt) (i : Nat) : (s.setPort n x).map i = s.map i := rfl
@[simp] theorem State.setPort_chan_at (s : State) (n : Nat) (x : PortSt) (i : Nat) : (s.setPort n x).chan i = s.chan i := rfl
@[simp] theorem State.setPort_dsp_at (s : State) (n : Nat) (x : PortSt) (i : Nat) : (s.setPort n x).dsp i = s.dsp i := rfl
@[simp] theorem State.setPort_tp_at (s : State) (n : Nat) (x : PortSt) (i : Nat) : (s.setPort n x).tp i = s.tp i := rfl
@[simp] theorem State.setPort_pll_at (s : State) (n : Nat) (x : PortSt) (i : Nat) : (s.setPort n x).pll i = s.pll i := rfl
@[simp] theorem State.setPort_cko_at (s : State) (n : Nat) (x : PortSt) (i : Nat) : (s.setPort n x).cko i = s.cko i := rfl
@[simp] theorem State.setPort_slot_at (s : State) (n : Nat) (x : PortSt) (i : Nat) : (s.setPort n x).slot i = s.slot i := rfl
@[simp] theorem State.setPort_line_at (s : State) (n : Nat) (x : PortSt) (i : Nat) : (s.setPort n x).line i = s.line i := rfl
@[simp] theorem State.setPort_bank_at (s : State) (n : Nat) (x : PortSt) (i : Nat) : (s.setPort n x).bank i = s.bank i := rfl
@[simp] theorem State.setPort_get (s : State) (n : Nat) (x : PortSt) (g : Field) : (s.setPort n x).get g = s.get g := rfl
@[simp] theorem State.setPort_on (s : State) (n : Nat) (x : PortSt) (g : Field) : (s.setPort n x).on g = s.on g := rfl
@[simp] theorem State.setPort_byteAt (s : State) (n : Nat) (x : PortSt) (i : Nat) : (s.setPort n x).byteAt i = s.byteAt i := rfl
@[simp] theorem State.setPort_flashAt (s : State) (n : Nat) (x : PortSt) (i : Nat) : (s.setPort n x).flashAt i = s.flashAt i := rfl

/-! ### `setSlot` -/

@[simp] theorem State.setSlot_reg (s : State) (n : Nat) (x : SlotSt) : (s.setSlot n x).reg = s.reg := rfl
@[simp] theorem State.setSlot_mem (s : State) (n : Nat) (x : SlotSt) : (s.setSlot n x).mem = s.mem := rfl
@[simp] theorem State.setSlot_flash (s : State) (n : Nat) (x : SlotSt) : (s.setSlot n x).flash = s.flash := rfl
@[simp] theorem State.setSlot_wipes (s : State) (n : Nat) (x : SlotSt) : (s.setSlot n x).wipes = s.wipes := rfl
@[simp] theorem State.setSlot_colds (s : State) (n : Nat) (x : SlotSt) : (s.setSlot n x).colds = s.colds := rfl
@[simp] theorem State.setSlot_ecc (s : State) (n : Nat) (x : SlotSt) : (s.setSlot n x).ecc = s.ecc := rfl
@[simp] theorem State.setSlot_latch (s : State) (n : Nat) (x : SlotSt) : (s.setSlot n x).latch = s.latch := rfl
@[simp] theorem State.setSlot_links (s : State) (n : Nat) (x : SlotSt) : (s.setSlot n x).links = s.links := rfl
@[simp] theorem State.setSlot_fecs (s : State) (n : Nat) (x : SlotSt) : (s.setSlot n x).fecs = s.fecs := rfl
@[simp] theorem State.setSlot_engs (s : State) (n : Nat) (x : SlotSt) : (s.setSlot n x).engs = s.engs := rfl
@[simp] theorem State.setSlot_clus (s : State) (n : Nat) (x : SlotSt) : (s.setSlot n x).clus = s.clus := rfl
@[simp] theorem State.setSlot_handles (s : State) (n : Nat) (x : SlotSt) : (s.setSlot n x).handles = s.handles := rfl
@[simp] theorem State.setSlot_replay (s : State) (n : Nat) (x : SlotSt) : (s.setSlot n x).replay = s.replay := rfl
@[simp] theorem State.setSlot_maps (s : State) (n : Nat) (x : SlotSt) : (s.setSlot n x).maps = s.maps := rfl
@[simp] theorem State.setSlot_chans (s : State) (n : Nat) (x : SlotSt) : (s.setSlot n x).chans = s.chans := rfl
@[simp] theorem State.setSlot_lates (s : State) (n : Nat) (x : SlotSt) : (s.setSlot n x).lates = s.lates := rfl
@[simp] theorem State.setSlot_dsps (s : State) (n : Nat) (x : SlotSt) : (s.setSlot n x).dsps = s.dsps := rfl
@[simp] theorem State.setSlot_nav (s : State) (n : Nat) (x : SlotSt) : (s.setSlot n x).nav = s.nav := rfl
@[simp] theorem State.setSlot_mordant (s : State) (n : Nat) (x : SlotSt) : (s.setSlot n x).mordant = s.mordant := rfl
@[simp] theorem State.setSlot_itg (s : State) (n : Nat) (x : SlotSt) : (s.setSlot n x).itg = s.itg := rfl
@[simp] theorem State.setSlot_tim (s : State) (n : Nat) (x : SlotSt) : (s.setSlot n x).tim = s.tim := rfl
@[simp] theorem State.setSlot_tps (s : State) (n : Nat) (x : SlotSt) : (s.setSlot n x).tps = s.tps := rfl
@[simp] theorem State.setSlot_tpi (s : State) (n : Nat) (x : SlotSt) : (s.setSlot n x).tpi = s.tpi := rfl
@[simp] theorem State.setSlot_plls (s : State) (n : Nat) (x : SlotSt) : (s.setSlot n x).plls = s.plls := rfl
@[simp] theorem State.setSlot_ckos (s : State) (n : Nat) (x : SlotSt) : (s.setSlot n x).ckos = s.ckos := rfl
@[simp] theorem State.setSlot_ports (s : State) (n : Nat) (x : SlotSt) : (s.setSlot n x).ports = s.ports := rfl
@[simp] theorem State.setSlot_net (s : State) (n : Nat) (x : SlotSt) : (s.setSlot n x).net = s.net := rfl
@[simp] theorem State.setSlot_lines (s : State) (n : Nat) (x : SlotSt) : (s.setSlot n x).lines = s.lines := rfl
@[simp] theorem State.setSlot_banks (s : State) (n : Nat) (x : SlotSt) : (s.setSlot n x).banks = s.banks := rfl
@[simp] theorem State.setSlot_rtc (s : State) (n : Nat) (x : SlotSt) : (s.setSlot n x).rtc = s.rtc := rfl
@[simp] theorem State.setSlot_sup (s : State) (n : Nat) (x : SlotSt) : (s.setSlot n x).sup = s.sup := rfl
@[simp] theorem State.setSlot_umb (s : State) (n : Nat) (x : SlotSt) : (s.setSlot n x).umb = s.umb := rfl
@[simp] theorem State.setSlot_cus (s : State) (n : Nat) (x : SlotSt) : (s.setSlot n x).cus = s.cus := rfl
@[simp] theorem State.setSlot_svc (s : State) (n : Nat) (x : SlotSt) : (s.setSlot n x).svc = s.svc := rfl
@[simp] theorem State.setSlot_tap (s : State) (n : Nat) (x : SlotSt) : (s.setSlot n x).tap = s.tap := rfl
@[simp] theorem State.setSlot_part (s : State) (n : Nat) (x : SlotSt) : (s.setSlot n x).part = s.part := rfl
@[simp] theorem State.setSlot_out (s : State) (n : Nat) (x : SlotSt) : (s.setSlot n x).out = s.out := rfl
@[simp] theorem State.setSlot_free (s : State) (n : Nat) (x : SlotSt) : (s.setSlot n x).free = s.free := rfl
@[simp] theorem State.setSlot_pending (s : State) (n : Nat) (x : SlotSt) : (s.setSlot n x).pending = s.pending := rfl
@[simp] theorem State.setSlot_link_at (s : State) (n : Nat) (x : SlotSt) (i : Nat) : (s.setSlot n x).link i = s.link i := rfl
@[simp] theorem State.setSlot_fec_at (s : State) (n : Nat) (x : SlotSt) (i : Nat) : (s.setSlot n x).fec i = s.fec i := rfl
@[simp] theorem State.setSlot_eng_at (s : State) (n : Nat) (x : SlotSt) (i : Nat) : (s.setSlot n x).eng i = s.eng i := rfl
@[simp] theorem State.setSlot_clu_at (s : State) (n : Nat) (x : SlotSt) (i : Nat) : (s.setSlot n x).clu i = s.clu i := rfl
@[simp] theorem State.setSlot_handle_at (s : State) (n : Nat) (x : SlotSt) (i : Nat) : (s.setSlot n x).handle i = s.handle i := rfl
@[simp] theorem State.setSlot_map_at (s : State) (n : Nat) (x : SlotSt) (i : Nat) : (s.setSlot n x).map i = s.map i := rfl
@[simp] theorem State.setSlot_chan_at (s : State) (n : Nat) (x : SlotSt) (i : Nat) : (s.setSlot n x).chan i = s.chan i := rfl
@[simp] theorem State.setSlot_dsp_at (s : State) (n : Nat) (x : SlotSt) (i : Nat) : (s.setSlot n x).dsp i = s.dsp i := rfl
@[simp] theorem State.setSlot_tp_at (s : State) (n : Nat) (x : SlotSt) (i : Nat) : (s.setSlot n x).tp i = s.tp i := rfl
@[simp] theorem State.setSlot_pll_at (s : State) (n : Nat) (x : SlotSt) (i : Nat) : (s.setSlot n x).pll i = s.pll i := rfl
@[simp] theorem State.setSlot_cko_at (s : State) (n : Nat) (x : SlotSt) (i : Nat) : (s.setSlot n x).cko i = s.cko i := rfl
@[simp] theorem State.setSlot_port_at (s : State) (n : Nat) (x : SlotSt) (i : Nat) : (s.setSlot n x).port i = s.port i := rfl
@[simp] theorem State.setSlot_line_at (s : State) (n : Nat) (x : SlotSt) (i : Nat) : (s.setSlot n x).line i = s.line i := rfl
@[simp] theorem State.setSlot_bank_at (s : State) (n : Nat) (x : SlotSt) (i : Nat) : (s.setSlot n x).bank i = s.bank i := rfl
@[simp] theorem State.setSlot_get (s : State) (n : Nat) (x : SlotSt) (g : Field) : (s.setSlot n x).get g = s.get g := rfl
@[simp] theorem State.setSlot_on (s : State) (n : Nat) (x : SlotSt) (g : Field) : (s.setSlot n x).on g = s.on g := rfl
@[simp] theorem State.setSlot_byteAt (s : State) (n : Nat) (x : SlotSt) (i : Nat) : (s.setSlot n x).byteAt i = s.byteAt i := rfl
@[simp] theorem State.setSlot_flashAt (s : State) (n : Nat) (x : SlotSt) (i : Nat) : (s.setSlot n x).flashAt i = s.flashAt i := rfl

/-! ### `setLine` -/

@[simp] theorem State.setLine_reg (s : State) (n : Nat) (x : LineSt) : (s.setLine n x).reg = s.reg := rfl
@[simp] theorem State.setLine_mem (s : State) (n : Nat) (x : LineSt) : (s.setLine n x).mem = s.mem := rfl
@[simp] theorem State.setLine_flash (s : State) (n : Nat) (x : LineSt) : (s.setLine n x).flash = s.flash := rfl
@[simp] theorem State.setLine_wipes (s : State) (n : Nat) (x : LineSt) : (s.setLine n x).wipes = s.wipes := rfl
@[simp] theorem State.setLine_colds (s : State) (n : Nat) (x : LineSt) : (s.setLine n x).colds = s.colds := rfl
@[simp] theorem State.setLine_ecc (s : State) (n : Nat) (x : LineSt) : (s.setLine n x).ecc = s.ecc := rfl
@[simp] theorem State.setLine_latch (s : State) (n : Nat) (x : LineSt) : (s.setLine n x).latch = s.latch := rfl
@[simp] theorem State.setLine_links (s : State) (n : Nat) (x : LineSt) : (s.setLine n x).links = s.links := rfl
@[simp] theorem State.setLine_fecs (s : State) (n : Nat) (x : LineSt) : (s.setLine n x).fecs = s.fecs := rfl
@[simp] theorem State.setLine_engs (s : State) (n : Nat) (x : LineSt) : (s.setLine n x).engs = s.engs := rfl
@[simp] theorem State.setLine_clus (s : State) (n : Nat) (x : LineSt) : (s.setLine n x).clus = s.clus := rfl
@[simp] theorem State.setLine_handles (s : State) (n : Nat) (x : LineSt) : (s.setLine n x).handles = s.handles := rfl
@[simp] theorem State.setLine_replay (s : State) (n : Nat) (x : LineSt) : (s.setLine n x).replay = s.replay := rfl
@[simp] theorem State.setLine_maps (s : State) (n : Nat) (x : LineSt) : (s.setLine n x).maps = s.maps := rfl
@[simp] theorem State.setLine_chans (s : State) (n : Nat) (x : LineSt) : (s.setLine n x).chans = s.chans := rfl
@[simp] theorem State.setLine_lates (s : State) (n : Nat) (x : LineSt) : (s.setLine n x).lates = s.lates := rfl
@[simp] theorem State.setLine_dsps (s : State) (n : Nat) (x : LineSt) : (s.setLine n x).dsps = s.dsps := rfl
@[simp] theorem State.setLine_nav (s : State) (n : Nat) (x : LineSt) : (s.setLine n x).nav = s.nav := rfl
@[simp] theorem State.setLine_mordant (s : State) (n : Nat) (x : LineSt) : (s.setLine n x).mordant = s.mordant := rfl
@[simp] theorem State.setLine_itg (s : State) (n : Nat) (x : LineSt) : (s.setLine n x).itg = s.itg := rfl
@[simp] theorem State.setLine_tim (s : State) (n : Nat) (x : LineSt) : (s.setLine n x).tim = s.tim := rfl
@[simp] theorem State.setLine_tps (s : State) (n : Nat) (x : LineSt) : (s.setLine n x).tps = s.tps := rfl
@[simp] theorem State.setLine_tpi (s : State) (n : Nat) (x : LineSt) : (s.setLine n x).tpi = s.tpi := rfl
@[simp] theorem State.setLine_plls (s : State) (n : Nat) (x : LineSt) : (s.setLine n x).plls = s.plls := rfl
@[simp] theorem State.setLine_ckos (s : State) (n : Nat) (x : LineSt) : (s.setLine n x).ckos = s.ckos := rfl
@[simp] theorem State.setLine_ports (s : State) (n : Nat) (x : LineSt) : (s.setLine n x).ports = s.ports := rfl
@[simp] theorem State.setLine_slots (s : State) (n : Nat) (x : LineSt) : (s.setLine n x).slots = s.slots := rfl
@[simp] theorem State.setLine_net (s : State) (n : Nat) (x : LineSt) : (s.setLine n x).net = s.net := rfl
@[simp] theorem State.setLine_banks (s : State) (n : Nat) (x : LineSt) : (s.setLine n x).banks = s.banks := rfl
@[simp] theorem State.setLine_rtc (s : State) (n : Nat) (x : LineSt) : (s.setLine n x).rtc = s.rtc := rfl
@[simp] theorem State.setLine_sup (s : State) (n : Nat) (x : LineSt) : (s.setLine n x).sup = s.sup := rfl
@[simp] theorem State.setLine_umb (s : State) (n : Nat) (x : LineSt) : (s.setLine n x).umb = s.umb := rfl
@[simp] theorem State.setLine_cus (s : State) (n : Nat) (x : LineSt) : (s.setLine n x).cus = s.cus := rfl
@[simp] theorem State.setLine_svc (s : State) (n : Nat) (x : LineSt) : (s.setLine n x).svc = s.svc := rfl
@[simp] theorem State.setLine_tap (s : State) (n : Nat) (x : LineSt) : (s.setLine n x).tap = s.tap := rfl
@[simp] theorem State.setLine_part (s : State) (n : Nat) (x : LineSt) : (s.setLine n x).part = s.part := rfl
@[simp] theorem State.setLine_out (s : State) (n : Nat) (x : LineSt) : (s.setLine n x).out = s.out := rfl
@[simp] theorem State.setLine_free (s : State) (n : Nat) (x : LineSt) : (s.setLine n x).free = s.free := rfl
@[simp] theorem State.setLine_pending (s : State) (n : Nat) (x : LineSt) : (s.setLine n x).pending = s.pending := rfl
@[simp] theorem State.setLine_link_at (s : State) (n : Nat) (x : LineSt) (i : Nat) : (s.setLine n x).link i = s.link i := rfl
@[simp] theorem State.setLine_fec_at (s : State) (n : Nat) (x : LineSt) (i : Nat) : (s.setLine n x).fec i = s.fec i := rfl
@[simp] theorem State.setLine_eng_at (s : State) (n : Nat) (x : LineSt) (i : Nat) : (s.setLine n x).eng i = s.eng i := rfl
@[simp] theorem State.setLine_clu_at (s : State) (n : Nat) (x : LineSt) (i : Nat) : (s.setLine n x).clu i = s.clu i := rfl
@[simp] theorem State.setLine_handle_at (s : State) (n : Nat) (x : LineSt) (i : Nat) : (s.setLine n x).handle i = s.handle i := rfl
@[simp] theorem State.setLine_map_at (s : State) (n : Nat) (x : LineSt) (i : Nat) : (s.setLine n x).map i = s.map i := rfl
@[simp] theorem State.setLine_chan_at (s : State) (n : Nat) (x : LineSt) (i : Nat) : (s.setLine n x).chan i = s.chan i := rfl
@[simp] theorem State.setLine_dsp_at (s : State) (n : Nat) (x : LineSt) (i : Nat) : (s.setLine n x).dsp i = s.dsp i := rfl
@[simp] theorem State.setLine_tp_at (s : State) (n : Nat) (x : LineSt) (i : Nat) : (s.setLine n x).tp i = s.tp i := rfl
@[simp] theorem State.setLine_pll_at (s : State) (n : Nat) (x : LineSt) (i : Nat) : (s.setLine n x).pll i = s.pll i := rfl
@[simp] theorem State.setLine_cko_at (s : State) (n : Nat) (x : LineSt) (i : Nat) : (s.setLine n x).cko i = s.cko i := rfl
@[simp] theorem State.setLine_port_at (s : State) (n : Nat) (x : LineSt) (i : Nat) : (s.setLine n x).port i = s.port i := rfl
@[simp] theorem State.setLine_slot_at (s : State) (n : Nat) (x : LineSt) (i : Nat) : (s.setLine n x).slot i = s.slot i := rfl
@[simp] theorem State.setLine_bank_at (s : State) (n : Nat) (x : LineSt) (i : Nat) : (s.setLine n x).bank i = s.bank i := rfl
@[simp] theorem State.setLine_get (s : State) (n : Nat) (x : LineSt) (g : Field) : (s.setLine n x).get g = s.get g := rfl
@[simp] theorem State.setLine_on (s : State) (n : Nat) (x : LineSt) (g : Field) : (s.setLine n x).on g = s.on g := rfl
@[simp] theorem State.setLine_byteAt (s : State) (n : Nat) (x : LineSt) (i : Nat) : (s.setLine n x).byteAt i = s.byteAt i := rfl
@[simp] theorem State.setLine_flashAt (s : State) (n : Nat) (x : LineSt) (i : Nat) : (s.setLine n x).flashAt i = s.flashAt i := rfl

/-! ### `setBank` -/

@[simp] theorem State.setBank_reg (s : State) (n : Nat) (x : BankSt) : (s.setBank n x).reg = s.reg := rfl
@[simp] theorem State.setBank_mem (s : State) (n : Nat) (x : BankSt) : (s.setBank n x).mem = s.mem := rfl
@[simp] theorem State.setBank_flash (s : State) (n : Nat) (x : BankSt) : (s.setBank n x).flash = s.flash := rfl
@[simp] theorem State.setBank_wipes (s : State) (n : Nat) (x : BankSt) : (s.setBank n x).wipes = s.wipes := rfl
@[simp] theorem State.setBank_colds (s : State) (n : Nat) (x : BankSt) : (s.setBank n x).colds = s.colds := rfl
@[simp] theorem State.setBank_ecc (s : State) (n : Nat) (x : BankSt) : (s.setBank n x).ecc = s.ecc := rfl
@[simp] theorem State.setBank_latch (s : State) (n : Nat) (x : BankSt) : (s.setBank n x).latch = s.latch := rfl
@[simp] theorem State.setBank_links (s : State) (n : Nat) (x : BankSt) : (s.setBank n x).links = s.links := rfl
@[simp] theorem State.setBank_fecs (s : State) (n : Nat) (x : BankSt) : (s.setBank n x).fecs = s.fecs := rfl
@[simp] theorem State.setBank_engs (s : State) (n : Nat) (x : BankSt) : (s.setBank n x).engs = s.engs := rfl
@[simp] theorem State.setBank_clus (s : State) (n : Nat) (x : BankSt) : (s.setBank n x).clus = s.clus := rfl
@[simp] theorem State.setBank_handles (s : State) (n : Nat) (x : BankSt) : (s.setBank n x).handles = s.handles := rfl
@[simp] theorem State.setBank_replay (s : State) (n : Nat) (x : BankSt) : (s.setBank n x).replay = s.replay := rfl
@[simp] theorem State.setBank_maps (s : State) (n : Nat) (x : BankSt) : (s.setBank n x).maps = s.maps := rfl
@[simp] theorem State.setBank_chans (s : State) (n : Nat) (x : BankSt) : (s.setBank n x).chans = s.chans := rfl
@[simp] theorem State.setBank_lates (s : State) (n : Nat) (x : BankSt) : (s.setBank n x).lates = s.lates := rfl
@[simp] theorem State.setBank_dsps (s : State) (n : Nat) (x : BankSt) : (s.setBank n x).dsps = s.dsps := rfl
@[simp] theorem State.setBank_nav (s : State) (n : Nat) (x : BankSt) : (s.setBank n x).nav = s.nav := rfl
@[simp] theorem State.setBank_mordant (s : State) (n : Nat) (x : BankSt) : (s.setBank n x).mordant = s.mordant := rfl
@[simp] theorem State.setBank_itg (s : State) (n : Nat) (x : BankSt) : (s.setBank n x).itg = s.itg := rfl
@[simp] theorem State.setBank_tim (s : State) (n : Nat) (x : BankSt) : (s.setBank n x).tim = s.tim := rfl
@[simp] theorem State.setBank_tps (s : State) (n : Nat) (x : BankSt) : (s.setBank n x).tps = s.tps := rfl
@[simp] theorem State.setBank_tpi (s : State) (n : Nat) (x : BankSt) : (s.setBank n x).tpi = s.tpi := rfl
@[simp] theorem State.setBank_plls (s : State) (n : Nat) (x : BankSt) : (s.setBank n x).plls = s.plls := rfl
@[simp] theorem State.setBank_ckos (s : State) (n : Nat) (x : BankSt) : (s.setBank n x).ckos = s.ckos := rfl
@[simp] theorem State.setBank_ports (s : State) (n : Nat) (x : BankSt) : (s.setBank n x).ports = s.ports := rfl
@[simp] theorem State.setBank_slots (s : State) (n : Nat) (x : BankSt) : (s.setBank n x).slots = s.slots := rfl
@[simp] theorem State.setBank_net (s : State) (n : Nat) (x : BankSt) : (s.setBank n x).net = s.net := rfl
@[simp] theorem State.setBank_lines (s : State) (n : Nat) (x : BankSt) : (s.setBank n x).lines = s.lines := rfl
@[simp] theorem State.setBank_rtc (s : State) (n : Nat) (x : BankSt) : (s.setBank n x).rtc = s.rtc := rfl
@[simp] theorem State.setBank_sup (s : State) (n : Nat) (x : BankSt) : (s.setBank n x).sup = s.sup := rfl
@[simp] theorem State.setBank_umb (s : State) (n : Nat) (x : BankSt) : (s.setBank n x).umb = s.umb := rfl
@[simp] theorem State.setBank_cus (s : State) (n : Nat) (x : BankSt) : (s.setBank n x).cus = s.cus := rfl
@[simp] theorem State.setBank_svc (s : State) (n : Nat) (x : BankSt) : (s.setBank n x).svc = s.svc := rfl
@[simp] theorem State.setBank_tap (s : State) (n : Nat) (x : BankSt) : (s.setBank n x).tap = s.tap := rfl
@[simp] theorem State.setBank_part (s : State) (n : Nat) (x : BankSt) : (s.setBank n x).part = s.part := rfl
@[simp] theorem State.setBank_out (s : State) (n : Nat) (x : BankSt) : (s.setBank n x).out = s.out := rfl
@[simp] theorem State.setBank_free (s : State) (n : Nat) (x : BankSt) : (s.setBank n x).free = s.free := rfl
@[simp] theorem State.setBank_pending (s : State) (n : Nat) (x : BankSt) : (s.setBank n x).pending = s.pending := rfl
@[simp] theorem State.setBank_link_at (s : State) (n : Nat) (x : BankSt) (i : Nat) : (s.setBank n x).link i = s.link i := rfl
@[simp] theorem State.setBank_fec_at (s : State) (n : Nat) (x : BankSt) (i : Nat) : (s.setBank n x).fec i = s.fec i := rfl
@[simp] theorem State.setBank_eng_at (s : State) (n : Nat) (x : BankSt) (i : Nat) : (s.setBank n x).eng i = s.eng i := rfl
@[simp] theorem State.setBank_clu_at (s : State) (n : Nat) (x : BankSt) (i : Nat) : (s.setBank n x).clu i = s.clu i := rfl
@[simp] theorem State.setBank_handle_at (s : State) (n : Nat) (x : BankSt) (i : Nat) : (s.setBank n x).handle i = s.handle i := rfl
@[simp] theorem State.setBank_map_at (s : State) (n : Nat) (x : BankSt) (i : Nat) : (s.setBank n x).map i = s.map i := rfl
@[simp] theorem State.setBank_chan_at (s : State) (n : Nat) (x : BankSt) (i : Nat) : (s.setBank n x).chan i = s.chan i := rfl
@[simp] theorem State.setBank_dsp_at (s : State) (n : Nat) (x : BankSt) (i : Nat) : (s.setBank n x).dsp i = s.dsp i := rfl
@[simp] theorem State.setBank_tp_at (s : State) (n : Nat) (x : BankSt) (i : Nat) : (s.setBank n x).tp i = s.tp i := rfl
@[simp] theorem State.setBank_pll_at (s : State) (n : Nat) (x : BankSt) (i : Nat) : (s.setBank n x).pll i = s.pll i := rfl
@[simp] theorem State.setBank_cko_at (s : State) (n : Nat) (x : BankSt) (i : Nat) : (s.setBank n x).cko i = s.cko i := rfl
@[simp] theorem State.setBank_port_at (s : State) (n : Nat) (x : BankSt) (i : Nat) : (s.setBank n x).port i = s.port i := rfl
@[simp] theorem State.setBank_slot_at (s : State) (n : Nat) (x : BankSt) (i : Nat) : (s.setBank n x).slot i = s.slot i := rfl
@[simp] theorem State.setBank_line_at (s : State) (n : Nat) (x : BankSt) (i : Nat) : (s.setBank n x).line i = s.line i := rfl
@[simp] theorem State.setBank_get (s : State) (n : Nat) (x : BankSt) (g : Field) : (s.setBank n x).get g = s.get g := rfl
@[simp] theorem State.setBank_on (s : State) (n : Nat) (x : BankSt) (g : Field) : (s.setBank n x).on g = s.on g := rfl
@[simp] theorem State.setBank_byteAt (s : State) (n : Nat) (x : BankSt) (i : Nat) : (s.setBank n x).byteAt i = s.byteAt i := rfl
@[simp] theorem State.setBank_flashAt (s : State) (n : Nat) (x : BankSt) (i : Nat) : (s.setBank n x).flashAt i = s.flashAt i := rfl

/-! ### `wipeCust` -/

@[simp] theorem State.wipeCust_reg (s : State) : s.wipeCust.reg = s.reg := rfl
@[simp] theorem State.wipeCust_banks (s : State) : s.wipeCust.banks = s.banks := rfl
@[simp] theorem State.wipeCust_flash (s : State) : s.wipeCust.flash = s.flash := rfl
@[simp] theorem State.wipeCust_wipes (s : State) : s.wipeCust.wipes = s.wipes := rfl
@[simp] theorem State.wipeCust_colds (s : State) : s.wipeCust.colds = s.colds := rfl
@[simp] theorem State.wipeCust_latch (s : State) : s.wipeCust.latch = s.latch := rfl
@[simp] theorem State.wipeCust_links (s : State) : s.wipeCust.links = s.links := rfl
@[simp] theorem State.wipeCust_fecs (s : State) : s.wipeCust.fecs = s.fecs := rfl
@[simp] theorem State.wipeCust_engs (s : State) : s.wipeCust.engs = s.engs := rfl
@[simp] theorem State.wipeCust_clus (s : State) : s.wipeCust.clus = s.clus := rfl
@[simp] theorem State.wipeCust_handles (s : State) : s.wipeCust.handles = s.handles := rfl
@[simp] theorem State.wipeCust_replay (s : State) : s.wipeCust.replay = s.replay := rfl
@[simp] theorem State.wipeCust_maps (s : State) : s.wipeCust.maps = s.maps := rfl
@[simp] theorem State.wipeCust_chans (s : State) : s.wipeCust.chans = s.chans := rfl
@[simp] theorem State.wipeCust_lates (s : State) : s.wipeCust.lates = s.lates := rfl
@[simp] theorem State.wipeCust_dsps (s : State) : s.wipeCust.dsps = s.dsps := rfl
@[simp] theorem State.wipeCust_nav (s : State) : s.wipeCust.nav = s.nav := rfl
@[simp] theorem State.wipeCust_mordant (s : State) : s.wipeCust.mordant = s.mordant := rfl
@[simp] theorem State.wipeCust_itg (s : State) : s.wipeCust.itg = s.itg := rfl
@[simp] theorem State.wipeCust_tim (s : State) : s.wipeCust.tim = s.tim := rfl
@[simp] theorem State.wipeCust_tps (s : State) : s.wipeCust.tps = s.tps := rfl
@[simp] theorem State.wipeCust_tpi (s : State) : s.wipeCust.tpi = s.tpi := rfl
@[simp] theorem State.wipeCust_plls (s : State) : s.wipeCust.plls = s.plls := rfl
@[simp] theorem State.wipeCust_ckos (s : State) : s.wipeCust.ckos = s.ckos := rfl
@[simp] theorem State.wipeCust_ports (s : State) : s.wipeCust.ports = s.ports := rfl
@[simp] theorem State.wipeCust_slots (s : State) : s.wipeCust.slots = s.slots := rfl
@[simp] theorem State.wipeCust_net (s : State) : s.wipeCust.net = s.net := rfl
@[simp] theorem State.wipeCust_lines (s : State) : s.wipeCust.lines = s.lines := rfl
@[simp] theorem State.wipeCust_rtc (s : State) : s.wipeCust.rtc = s.rtc := rfl
@[simp] theorem State.wipeCust_sup (s : State) : s.wipeCust.sup = s.sup := rfl
@[simp] theorem State.wipeCust_umb (s : State) : s.wipeCust.umb = s.umb := rfl
@[simp] theorem State.wipeCust_cus (s : State) : s.wipeCust.cus = s.cus := rfl
@[simp] theorem State.wipeCust_svc (s : State) : s.wipeCust.svc = s.svc := rfl
@[simp] theorem State.wipeCust_tap (s : State) : s.wipeCust.tap = s.tap := rfl
@[simp] theorem State.wipeCust_part (s : State) : s.wipeCust.part = s.part := rfl
@[simp] theorem State.wipeCust_out (s : State) : s.wipeCust.out = s.out := rfl
@[simp] theorem State.wipeCust_free (s : State) : s.wipeCust.free = s.free := rfl
@[simp] theorem State.wipeCust_pending (s : State) : s.wipeCust.pending = s.pending := rfl
@[simp] theorem State.wipeCust_link_at (s : State) (i : Nat) : s.wipeCust.link i = s.link i := rfl
@[simp] theorem State.wipeCust_fec_at (s : State) (i : Nat) : s.wipeCust.fec i = s.fec i := rfl
@[simp] theorem State.wipeCust_eng_at (s : State) (i : Nat) : s.wipeCust.eng i = s.eng i := rfl
@[simp] theorem State.wipeCust_clu_at (s : State) (i : Nat) : s.wipeCust.clu i = s.clu i := rfl
@[simp] theorem State.wipeCust_handle_at (s : State) (i : Nat) : s.wipeCust.handle i = s.handle i := rfl
@[simp] theorem State.wipeCust_map_at (s : State) (i : Nat) : s.wipeCust.map i = s.map i := rfl
@[simp] theorem State.wipeCust_chan_at (s : State) (i : Nat) : s.wipeCust.chan i = s.chan i := rfl
@[simp] theorem State.wipeCust_dsp_at (s : State) (i : Nat) : s.wipeCust.dsp i = s.dsp i := rfl
@[simp] theorem State.wipeCust_tp_at (s : State) (i : Nat) : s.wipeCust.tp i = s.tp i := rfl
@[simp] theorem State.wipeCust_pll_at (s : State) (i : Nat) : s.wipeCust.pll i = s.pll i := rfl
@[simp] theorem State.wipeCust_cko_at (s : State) (i : Nat) : s.wipeCust.cko i = s.cko i := rfl
@[simp] theorem State.wipeCust_port_at (s : State) (i : Nat) : s.wipeCust.port i = s.port i := rfl
@[simp] theorem State.wipeCust_slot_at (s : State) (i : Nat) : s.wipeCust.slot i = s.slot i := rfl
@[simp] theorem State.wipeCust_line_at (s : State) (i : Nat) : s.wipeCust.line i = s.line i := rfl
@[simp] theorem State.wipeCust_get (s : State) (g : Field) : s.wipeCust.get g = s.get g := rfl
@[simp] theorem State.wipeCust_on (s : State) (g : Field) : s.wipeCust.on g = s.on g := rfl
@[simp] theorem State.wipeCust_flashAt (s : State) (i : Nat) : s.wipeCust.flashAt i = s.flashAt i := rfl
@[simp] theorem State.wipeCust_bank_at (s : State) (i : Nat) : s.wipeCust.bank i = s.bank i := rfl

/-! ### Read after write -/

@[simp] theorem State.setLink_link (s : State) (n : Nat) (x : LinkSt) : (s.setLink n x).link n = x := tblGet_set _ _ _ _
theorem State.setLink_link_ne (s : State) {n i : Nat} (x : LinkSt) (h : n ≠ i) : (s.setLink n x).link i = s.link i :=
  tblGet_set_ne _ _ _ h
@[simp] theorem State.setFec_fec (s : State) (n : Nat) (x : FecSt) : (s.setFec n x).fec n = x := tblGet_set _ _ _ _
theorem State.setFec_fec_ne (s : State) {n i : Nat} (x : FecSt) (h : n ≠ i) : (s.setFec n x).fec i = s.fec i :=
  tblGet_set_ne _ _ _ h
@[simp] theorem State.setEng_eng (s : State) (n : Nat) (x : EngSt) : (s.setEng n x).eng n = x := tblGet_set _ _ _ _
theorem State.setEng_eng_ne (s : State) {n i : Nat} (x : EngSt) (h : n ≠ i) : (s.setEng n x).eng i = s.eng i :=
  tblGet_set_ne _ _ _ h
@[simp] theorem State.setClu_clu (s : State) (n : Nat) (x : CluSt) : (s.setClu n x).clu n = x := tblGet_set _ _ _ _
theorem State.setClu_clu_ne (s : State) {n i : Nat} (x : CluSt) (h : n ≠ i) : (s.setClu n x).clu i = s.clu i :=
  tblGet_set_ne _ _ _ h
@[simp] theorem State.setHandle_handle (s : State) (n : Nat) (x : HandleSt) : (s.setHandle n x).handle n = x := tblGet_set _ _ _ _
theorem State.setHandle_handle_ne (s : State) {n i : Nat} (x : HandleSt) (h : n ≠ i) : (s.setHandle n x).handle i = s.handle i :=
  tblGet_set_ne _ _ _ h
@[simp] theorem State.setMap_map (s : State) (n : Nat) (x : MapSt) : (s.setMap n x).map n = x := tblGet_set _ _ _ _
theorem State.setMap_map_ne (s : State) {n i : Nat} (x : MapSt) (h : n ≠ i) : (s.setMap n x).map i = s.map i :=
  tblGet_set_ne _ _ _ h
@[simp] theorem State.setChan_chan (s : State) (n : Nat) (x : ChanSt) : (s.setChan n x).chan n = x := tblGet_set _ _ _ _
theorem State.setChan_chan_ne (s : State) {n i : Nat} (x : ChanSt) (h : n ≠ i) : (s.setChan n x).chan i = s.chan i :=
  tblGet_set_ne _ _ _ h
@[simp] theorem State.setDsp_dsp (s : State) (n : Nat) (x : DspSt) : (s.setDsp n x).dsp n = x := tblGet_set _ _ _ _
theorem State.setDsp_dsp_ne (s : State) {n i : Nat} (x : DspSt) (h : n ≠ i) : (s.setDsp n x).dsp i = s.dsp i :=
  tblGet_set_ne _ _ _ h
@[simp] theorem State.setTp_tp (s : State) (n : Nat) (x : TpSt) : (s.setTp n x).tp n = x := tblGet_set _ _ _ _
theorem State.setTp_tp_ne (s : State) {n i : Nat} (x : TpSt) (h : n ≠ i) : (s.setTp n x).tp i = s.tp i :=
  tblGet_set_ne _ _ _ h
@[simp] theorem State.setPll_pll (s : State) (n : Nat) (x : PllSt) : (s.setPll n x).pll n = x := tblGet_set _ _ _ _
theorem State.setPll_pll_ne (s : State) {n i : Nat} (x : PllSt) (h : n ≠ i) : (s.setPll n x).pll i = s.pll i :=
  tblGet_set_ne _ _ _ h
@[simp] theorem State.setCko_cko (s : State) (n : Nat) (x : CkoSt) : (s.setCko n x).cko n = x := tblGet_set _ _ _ _
theorem State.setCko_cko_ne (s : State) {n i : Nat} (x : CkoSt) (h : n ≠ i) : (s.setCko n x).cko i = s.cko i :=
  tblGet_set_ne _ _ _ h
@[simp] theorem State.setPort_port (s : State) (n : Nat) (x : PortSt) : (s.setPort n x).port n = x := tblGet_set _ _ _ _
theorem State.setPort_port_ne (s : State) {n i : Nat} (x : PortSt) (h : n ≠ i) : (s.setPort n x).port i = s.port i :=
  tblGet_set_ne _ _ _ h
@[simp] theorem State.setSlot_slot (s : State) (n : Nat) (x : SlotSt) : (s.setSlot n x).slot n = x := tblGet_set _ _ _ _
theorem State.setSlot_slot_ne (s : State) {n i : Nat} (x : SlotSt) (h : n ≠ i) : (s.setSlot n x).slot i = s.slot i :=
  tblGet_set_ne _ _ _ h
@[simp] theorem State.setLine_line (s : State) (n : Nat) (x : LineSt) : (s.setLine n x).line n = x := tblGet_set _ _ _ _
theorem State.setLine_line_ne (s : State) {n i : Nat} (x : LineSt) (h : n ≠ i) : (s.setLine n x).line i = s.line i :=
  tblGet_set_ne _ _ _ h
@[simp] theorem State.setBank_bank (s : State) (n : Nat) (x : BankSt) : (s.setBank n x).bank n = x := tblGet_set _ _ _ _
theorem State.setBank_bank_ne (s : State) {n i : Nat} (x : BankSt) (h : n ≠ i) : (s.setBank n x).bank i = s.bank i :=
  tblGet_set_ne _ _ _ h

/-- A field set reads as the value, cut to its width, when the register table is in its canonical order. -/
theorem State.set_get (s : State) (f : Field) (v : Nat) (h : tblSorted none s.reg = true) :
    (s.set f v).get f = v % 2 ^ f.width := tblGet_put _ _ _ _ h

/-- Every field at another place reads as before. -/
theorem State.set_get_ne (s : State) {f g : Field} (v : Nat) (h : f.key ≠ g.key) : (s.set f v).get g = s.get g :=
  tblGet_put_ne _ _ _ _ h

theorem State.set_on_ne (s : State) {f g : Field} (v : Nat) (h : f.key ≠ g.key) : (s.set f v).on g = s.on g := by
  simp only [State.on, State.set_get_ne s v h]

/-! ### Notes -/

@[simp] theorem State.enqueue_reg (s : State) (e : UEntry) : (s.enqueue e).reg = s.reg := by
  unfold State.enqueue; dsimp only; split <;> rfl
@[simp] theorem State.enqueue_mem (s : State) (e : UEntry) : (s.enqueue e).mem = s.mem := by
  unfold State.enqueue; dsimp only; split <;> rfl
@[simp] theorem State.enqueue_flash (s : State) (e : UEntry) : (s.enqueue e).flash = s.flash := by
  unfold State.enqueue; dsimp only; split <;> rfl
@[simp] theorem State.enqueue_wipes (s : State) (e : UEntry) : (s.enqueue e).wipes = s.wipes := by
  unfold State.enqueue; dsimp only; split <;> rfl
@[simp] theorem State.enqueue_colds (s : State) (e : UEntry) : (s.enqueue e).colds = s.colds := by
  unfold State.enqueue; dsimp only; split <;> rfl
@[simp] theorem State.enqueue_ecc (s : State) (e : UEntry) : (s.enqueue e).ecc = s.ecc := by
  unfold State.enqueue; dsimp only; split <;> rfl
@[simp] theorem State.enqueue_latch (s : State) (e : UEntry) : (s.enqueue e).latch = s.latch := by
  unfold State.enqueue; dsimp only; split <;> rfl
@[simp] theorem State.enqueue_links (s : State) (e : UEntry) : (s.enqueue e).links = s.links := by
  unfold State.enqueue; dsimp only; split <;> rfl
@[simp] theorem State.enqueue_fecs (s : State) (e : UEntry) : (s.enqueue e).fecs = s.fecs := by
  unfold State.enqueue; dsimp only; split <;> rfl
@[simp] theorem State.enqueue_engs (s : State) (e : UEntry) : (s.enqueue e).engs = s.engs := by
  unfold State.enqueue; dsimp only; split <;> rfl
@[simp] theorem State.enqueue_clus (s : State) (e : UEntry) : (s.enqueue e).clus = s.clus := by
  unfold State.enqueue; dsimp only; split <;> rfl
@[simp] theorem State.enqueue_handles (s : State) (e : UEntry) : (s.enqueue e).handles = s.handles := by
  unfold State.enqueue; dsimp only; split <;> rfl
@[simp] theorem State.enqueue_replay (s : State) (e : UEntry) : (s.enqueue e).replay = s.replay := by
  unfold State.enqueue; dsimp only; split <;> rfl
@[simp] theorem State.enqueue_maps (s : State) (e : UEntry) : (s.enqueue e).maps = s.maps := by
  unfold State.enqueue; dsimp only; split <;> rfl
@[simp] theorem State.enqueue_chans (s : State) (e : UEntry) : (s.enqueue e).chans = s.chans := by
  unfold State.enqueue; dsimp only; split <;> rfl
@[simp] theorem State.enqueue_lates (s : State) (e : UEntry) : (s.enqueue e).lates = s.lates := by
  unfold State.enqueue; dsimp only; split <;> rfl
@[simp] theorem State.enqueue_dsps (s : State) (e : UEntry) : (s.enqueue e).dsps = s.dsps := by
  unfold State.enqueue; dsimp only; split <;> rfl
@[simp] theorem State.enqueue_nav (s : State) (e : UEntry) : (s.enqueue e).nav = s.nav := by
  unfold State.enqueue; dsimp only; split <;> rfl
@[simp] theorem State.enqueue_mordant (s : State) (e : UEntry) : (s.enqueue e).mordant = s.mordant := by
  unfold State.enqueue; dsimp only; split <;> rfl
@[simp] theorem State.enqueue_itg (s : State) (e : UEntry) : (s.enqueue e).itg = s.itg := by
  unfold State.enqueue; dsimp only; split <;> rfl
@[simp] theorem State.enqueue_tim (s : State) (e : UEntry) : (s.enqueue e).tim = s.tim := by
  unfold State.enqueue; dsimp only; split <;> rfl
@[simp] theorem State.enqueue_tps (s : State) (e : UEntry) : (s.enqueue e).tps = s.tps := by
  unfold State.enqueue; dsimp only; split <;> rfl
@[simp] theorem State.enqueue_tpi (s : State) (e : UEntry) : (s.enqueue e).tpi = s.tpi := by
  unfold State.enqueue; dsimp only; split <;> rfl
@[simp] theorem State.enqueue_plls (s : State) (e : UEntry) : (s.enqueue e).plls = s.plls := by
  unfold State.enqueue; dsimp only; split <;> rfl
@[simp] theorem State.enqueue_ckos (s : State) (e : UEntry) : (s.enqueue e).ckos = s.ckos := by
  unfold State.enqueue; dsimp only; split <;> rfl
@[simp] theorem State.enqueue_ports (s : State) (e : UEntry) : (s.enqueue e).ports = s.ports := by
  unfold State.enqueue; dsimp only; split <;> rfl
@[simp] theorem State.enqueue_slots (s : State) (e : UEntry) : (s.enqueue e).slots = s.slots := by
  unfold State.enqueue; dsimp only; split <;> rfl
@[simp] theorem State.enqueue_net (s : State) (e : UEntry) : (s.enqueue e).net = s.net := by
  unfold State.enqueue; dsimp only; split <;> rfl
@[simp] theorem State.enqueue_lines (s : State) (e : UEntry) : (s.enqueue e).lines = s.lines := by
  unfold State.enqueue; dsimp only; split <;> rfl
@[simp] theorem State.enqueue_banks (s : State) (e : UEntry) : (s.enqueue e).banks = s.banks := by
  unfold State.enqueue; dsimp only; split <;> rfl
@[simp] theorem State.enqueue_rtc (s : State) (e : UEntry) : (s.enqueue e).rtc = s.rtc := by
  unfold State.enqueue; dsimp only; split <;> rfl
@[simp] theorem State.enqueue_sup (s : State) (e : UEntry) : (s.enqueue e).sup = s.sup := by
  unfold State.enqueue; dsimp only; split <;> rfl
@[simp] theorem State.enqueue_cus (s : State) (e : UEntry) : (s.enqueue e).cus = s.cus := by
  unfold State.enqueue; dsimp only; split <;> rfl
@[simp] theorem State.enqueue_svc (s : State) (e : UEntry) : (s.enqueue e).svc = s.svc := by
  unfold State.enqueue; dsimp only; split <;> rfl
@[simp] theorem State.enqueue_tap (s : State) (e : UEntry) : (s.enqueue e).tap = s.tap := by
  unfold State.enqueue; dsimp only; split <;> rfl
@[simp] theorem State.enqueue_part (s : State) (e : UEntry) : (s.enqueue e).part = s.part := by
  unfold State.enqueue; dsimp only; split <;> rfl
@[simp] theorem State.enqueue_out (s : State) (e : UEntry) : (s.enqueue e).out = s.out := by
  unfold State.enqueue; dsimp only; split <;> rfl
@[simp] theorem State.enqueue_free (s : State) (e : UEntry) : (s.enqueue e).free = s.free := by
  unfold State.enqueue; dsimp only; split <;> rfl
@[simp] theorem State.enqueue_pending (s : State) (e : UEntry) : (s.enqueue e).pending = s.pending := by
  unfold State.enqueue; dsimp only; split <;> rfl
@[simp] theorem State.note_reg (s : State) (a b c d e : Nat) : (s.note a b c d e).reg = s.reg := State.enqueue_reg s _
@[simp] theorem State.note_mem (s : State) (a b c d e : Nat) : (s.note a b c d e).mem = s.mem := State.enqueue_mem s _
@[simp] theorem State.note_flash (s : State) (a b c d e : Nat) : (s.note a b c d e).flash = s.flash := State.enqueue_flash s _
@[simp] theorem State.note_wipes (s : State) (a b c d e : Nat) : (s.note a b c d e).wipes = s.wipes := State.enqueue_wipes s _
@[simp] theorem State.note_colds (s : State) (a b c d e : Nat) : (s.note a b c d e).colds = s.colds := State.enqueue_colds s _
@[simp] theorem State.note_ecc (s : State) (a b c d e : Nat) : (s.note a b c d e).ecc = s.ecc := State.enqueue_ecc s _
@[simp] theorem State.note_latch (s : State) (a b c d e : Nat) : (s.note a b c d e).latch = s.latch := State.enqueue_latch s _
@[simp] theorem State.note_links (s : State) (a b c d e : Nat) : (s.note a b c d e).links = s.links := State.enqueue_links s _
@[simp] theorem State.note_fecs (s : State) (a b c d e : Nat) : (s.note a b c d e).fecs = s.fecs := State.enqueue_fecs s _
@[simp] theorem State.note_engs (s : State) (a b c d e : Nat) : (s.note a b c d e).engs = s.engs := State.enqueue_engs s _
@[simp] theorem State.note_clus (s : State) (a b c d e : Nat) : (s.note a b c d e).clus = s.clus := State.enqueue_clus s _
@[simp] theorem State.note_handles (s : State) (a b c d e : Nat) : (s.note a b c d e).handles = s.handles := State.enqueue_handles s _
@[simp] theorem State.note_replay (s : State) (a b c d e : Nat) : (s.note a b c d e).replay = s.replay := State.enqueue_replay s _
@[simp] theorem State.note_maps (s : State) (a b c d e : Nat) : (s.note a b c d e).maps = s.maps := State.enqueue_maps s _
@[simp] theorem State.note_chans (s : State) (a b c d e : Nat) : (s.note a b c d e).chans = s.chans := State.enqueue_chans s _
@[simp] theorem State.note_lates (s : State) (a b c d e : Nat) : (s.note a b c d e).lates = s.lates := State.enqueue_lates s _
@[simp] theorem State.note_dsps (s : State) (a b c d e : Nat) : (s.note a b c d e).dsps = s.dsps := State.enqueue_dsps s _
@[simp] theorem State.note_nav (s : State) (a b c d e : Nat) : (s.note a b c d e).nav = s.nav := State.enqueue_nav s _
@[simp] theorem State.note_mordant (s : State) (a b c d e : Nat) : (s.note a b c d e).mordant = s.mordant := State.enqueue_mordant s _
@[simp] theorem State.note_itg (s : State) (a b c d e : Nat) : (s.note a b c d e).itg = s.itg := State.enqueue_itg s _
@[simp] theorem State.note_tim (s : State) (a b c d e : Nat) : (s.note a b c d e).tim = s.tim := State.enqueue_tim s _
@[simp] theorem State.note_tps (s : State) (a b c d e : Nat) : (s.note a b c d e).tps = s.tps := State.enqueue_tps s _
@[simp] theorem State.note_tpi (s : State) (a b c d e : Nat) : (s.note a b c d e).tpi = s.tpi := State.enqueue_tpi s _
@[simp] theorem State.note_plls (s : State) (a b c d e : Nat) : (s.note a b c d e).plls = s.plls := State.enqueue_plls s _
@[simp] theorem State.note_ckos (s : State) (a b c d e : Nat) : (s.note a b c d e).ckos = s.ckos := State.enqueue_ckos s _
@[simp] theorem State.note_ports (s : State) (a b c d e : Nat) : (s.note a b c d e).ports = s.ports := State.enqueue_ports s _
@[simp] theorem State.note_slots (s : State) (a b c d e : Nat) : (s.note a b c d e).slots = s.slots := State.enqueue_slots s _
@[simp] theorem State.note_net (s : State) (a b c d e : Nat) : (s.note a b c d e).net = s.net := State.enqueue_net s _
@[simp] theorem State.note_lines (s : State) (a b c d e : Nat) : (s.note a b c d e).lines = s.lines := State.enqueue_lines s _
@[simp] theorem State.note_banks (s : State) (a b c d e : Nat) : (s.note a b c d e).banks = s.banks := State.enqueue_banks s _
@[simp] theorem State.note_rtc (s : State) (a b c d e : Nat) : (s.note a b c d e).rtc = s.rtc := State.enqueue_rtc s _
@[simp] theorem State.note_sup (s : State) (a b c d e : Nat) : (s.note a b c d e).sup = s.sup := State.enqueue_sup s _
@[simp] theorem State.note_cus (s : State) (a b c d e : Nat) : (s.note a b c d e).cus = s.cus := State.enqueue_cus s _
@[simp] theorem State.note_svc (s : State) (a b c d e : Nat) : (s.note a b c d e).svc = s.svc := State.enqueue_svc s _
@[simp] theorem State.note_tap (s : State) (a b c d e : Nat) : (s.note a b c d e).tap = s.tap := State.enqueue_tap s _
@[simp] theorem State.note_part (s : State) (a b c d e : Nat) : (s.note a b c d e).part = s.part := State.enqueue_part s _
@[simp] theorem State.note_out (s : State) (a b c d e : Nat) : (s.note a b c d e).out = s.out := State.enqueue_out s _
@[simp] theorem State.note_free (s : State) (a b c d e : Nat) : (s.note a b c d e).free = s.free := State.enqueue_free s _
@[simp] theorem State.note_pending (s : State) (a b c d e : Nat) : (s.note a b c d e).pending = s.pending := State.enqueue_pending s _
@[simp] theorem State.note_get (s : State) (a b c d e : Nat) (f : Field) : (s.note a b c d e).get f = s.get f := by
  simp [State.get]

end Sys2Proof.Machine
end

