-- ==== Sys2Proof/Laws/Bus.lean ====
section
/-! SUPPORT. What a register write that is accepted comes to, said once. -/

namespace Sys2Proof.Machine

/-- An accepted write changes its fields and does what it sets in motion; the always-on domain takes some at its next tick. -/
theorem State.regWrite_taken {s : State} {m : Master} {a w : Nat} {eyes : List (Option (Fin 64))}
    (h : writeTaken s m a w = true) : s.regWrite m a w eyes =
      if rtcLateReg a then s.rtcLater a w (s.lockHolds m) else regHook a w eyes s (written s m a w) := by
  unfold writeTaken at h
  simp only [Bool.and_eq_true, Bool.not_eq_true'] at h
  unfold State.regWrite
  simp only [h.2, written]
  rfl

/-- The write as its master makes it: no error is seen. -/
theorem State.busDo_accepted {s : State} {m : Master} {a w : Nat} {eyes : List (Option (Fin 64))}
    (h : writeTaken s m a w = true) (hm : memClass a = none) (h4 : a % 4 = 0)
    (hb : ¬(0x50000000 ≤ a ∧ a < 0x51000000 ∧ a / 0x10000 % 16 = 2)) :
    s.busDo m a 4 w eyes = (s.regWrite m a w eyes).dspSteps := by
  unfold writeTaken at h
  simp only [Bool.and_eq_true, Bool.not_eq_true'] at h
  simp only [State.busDo, State.busWrite, h.1.1, hm, h4, h.1.2, hb]
  rfl

/-- The write of a register that acts with it. -/
theorem State.busDo_taken {s : State} {m : Master} {a w : Nat} {eyes : List (Option (Fin 64))}
    (h : writeTaken s m a w = true) (hm : memClass a = none) (h4 : a % 4 = 0)
    (hb : ¬(0x50000000 ≤ a ∧ a < 0x51000000 ∧ a / 0x10000 % 16 = 2)) (hr : rtcLateReg a = false) :
    s.busDo m a 4 w eyes = (regHook a w eyes s (written s m a w)).dspSteps := by
  rw [State.busDo_accepted h hm h4 hb, State.regWrite_taken h, hr]
  rfl

/-- The write of a register that the always-on domain takes at its next tick. -/
theorem State.busDo_late {s : State} {m : Master} {a w : Nat} {eyes : List (Option (Fin 64))}
    (h : writeTaken s m a w = true) (hm : memClass a = none) (h4 : a % 4 = 0)
    (hb : ¬(0x50000000 ≤ a ∧ a < 0x51000000 ∧ a / 0x10000 % 16 = 2)) (hr : rtcLateReg a = true) :
    s.busDo m a 4 w eyes = (s.rtcLater a w (s.lockHolds m)).dspSteps := by
  rw [State.busDo_accepted h hm h4 hb, State.regWrite_taken h, hr]
  rfl

end Sys2Proof.Machine
end

