-- ==== Sys2Proof/Laws/Dsp.lean ====
section
/-! SUPPORT. The issue of a loop DSP's instruction, said once for every operation. -/

namespace Sys2Proof.Machine

/-- An operation that executes: its effect, and where the DSP goes on. -/
theorem dspIssue_ok {s u v : State} {d : Fin 16} {op : DspOp} {w n back f} (h : DspReady s d op w u back)
  (ha : dspAct op d w u = .ok v f n) : (Host.Outcome.next (s.dspIssue d op) : Host.Outcome State Fault Refusal) = dspDone s d back v f n := by
  obtain ⟨t, h1, h2, h3, h4, h5, h6, h7, hu, hb⟩ := h
  subst hu hb
  unfold State.dspIssue
  simp only [h2, h4, h5]
  rw [if_neg (by rcases h1 with h1 | ⟨h1, h1'⟩ <;> simp [*]), if_neg (by omega)]
  simp only [ne_eq, not_true_eq_false, if_false]
  rw [if_neg (by cases hx : op.external <;> cases hy : (s.dsp d.val).slot <;> simp_all),
    if_neg (by cases hx : op.notInSlot <;> simp_all)]
  simp only [ha, dspDone]

/-- An operation that faults at its effect: the loop-end decision is undone. -/
theorem dspIssue_fault {s u v : State} {d : Fin 16} {op : DspOp} {w code addr back} (h : DspReady s d op w u back)
  (ha : dspAct op d w u = .fault v code addr) (hc : code ≠ 7) : Host.Outcome.next (s.dspIssue d op) =
   dspFaults s d (v.setDsp d.val { v.dsp d.val with
        loops := ((s.memRead (.dsp d.val .p) (dspWord d.val .p (s.dsp d.val).pc) 4).1.dspHold d op |>.dspLand d.val |>.dsp d.val).loops,
        loopWr := ((s.memRead (.dsp d.val .p) (dspWord d.val .p (s.dsp d.val).pc) 4).1.dspHold d op |>.dspLand d.val |>.dsp d.val).loopWr }) code addr := by
  obtain ⟨t, h1, h2, h3, h4, h5, h6, h7, hu, hb⟩ := h
  subst hu hb
  unfold State.dspIssue
  simp only [h2, h4, h5]
  rw [if_neg (by rcases h1 with h1 | ⟨h1, h1'⟩ <;> simp [*]), if_neg (by omega)]
  simp only [ne_eq, not_true_eq_false, if_false]
  rw [if_neg (by cases hx : op.external <;> cases hy : (s.dsp d.val).slot <;> simp_all),
    if_neg (by cases hx : op.notInSlot <;> simp_all)]
  simp only [ha, hc, if_false, dspFaults]

/-- An operation that takes fault 0x7: it counts as executed. -/
theorem dspIssue_trap {s u v : State} {d : Fin 16} {op : DspOp} {w addr back} (h : DspReady s d op w u back)
  (ha : dspAct op d w u = .fault v 7 addr) : (Host.Outcome.next (s.dspIssue d op) : Host.Outcome State Fault Refusal) =
   .next ((v.dspFault d.val 7 addr (s.dsp d.val).pc (back.getD ((s.dsp d.val).pc + 1))).stepEnd d) := by
  obtain ⟨t, h1, h2, h3, h4, h5, h6, h7, hu, hb⟩ := h
  subst hu hb
  unfold State.dspIssue
  simp only [h2, h4, h5]
  rw [if_neg (by rcases h1 with h1 | ⟨h1, h1'⟩ <;> simp [*]), if_neg (by omega)]
  simp only [ne_eq, not_true_eq_false, if_false]
  rw [if_neg (by cases hx : op.external <;> cases hy : (s.dsp d.val).slot <;> simp_all),
    if_neg (by cases hx : op.notInSlot <;> simp_all)]
  simp only [ha, if_true]

end Sys2Proof.Machine
end

