-- ==== Sys2Proof/Laws/Hooks.lean ====
section
/-! SUPPORT. What each register write with an effect of its own sets in motion, and that its register is one: a lemma for
each, so that no proof evaluates the map of the blocks. -/

namespace Sys2Proof.Machine

set_option linter.unusedVariables false

/-- A write that is accepted, to a register whose block does `f`. -/
theorem Writes.of_hook {c : Instr} {m : Master} {a : Nat} {w : Word} {s : State} {f : State → State}
    (he : exec c s = .next (s.busDo m a 4 w.toNat)) (hm : memClass a = none) (h4 : a % 4 = 0)
    (hb : ¬(0x50000000 ≤ a ∧ a < 0x51000000 ∧ a / 0x10000 % 16 = 2)) (hr : rtcLateReg a = false)
    (hk : ∀ t, regHook a w.toNat [] s t = f t) : Writes c m a w s f := by
  intro h; rw [he, State.busDo_taken h hm h4 hb hr, hk]

theorem regHook_navWdog (w : Nat) (eyes : List (Option (Fin 64))) (s t : State) :
    regHook (0x40000020) w eyes s t = hookSys 0x20 w t := by
  simp only [regHook]
  rfl

theorem regHook_rtcSecH (w : Nat) (eyes : List (Option (Fin 64))) (s t : State) :
    regHook (0x4002000C) w eyes s t = { t with rtc := { t.rtc with secTop := w % 2 } } := by
  simp [regHook, hookRtc]

theorem regHook_rtcSecL (w : Nat) (eyes : List (Option (Fin 64))) (s t : State) :
    regHook (0x40020008) w eyes s t = t.rtcCommit w := by
  simp [regHook, hookRtc]

theorem regHook_rtcTrim (w : Nat) (eyes : List (Option (Fin 64))) (s t : State) :
    regHook (0x40020014) w eyes s t = t := by
  simp [regHook, hookRtc]

theorem regHook_pllCtl (x : Fin 6) (w : Nat) (eyes : List (Option (Fin 64))) (s t : State) :
    regHook (0x40030000 + 0x100 * x.val) w eyes s t = (if x.val < 3 then (t.set (PLL_CTL_EN x) 1).set (PLL_CTL_FOLLOW x) 0 else t).pllCtl x (s.on (PLL_CTL_EN x)) w := by
  have h1 : (0x40030000 + 0x100 * x.val) / 0x10000 = 0x4003 := by omega
  have h2 : (0x40030000 + 0x100 * x.val) % 0x10000 = 0x0 + 0x100 * x.val := by omega
  have g0 : (0x0 + 0x100 * x.val) / 0x100 = x.val := by omega
  have g1 : (0x0 + 0x100 * x.val) % 0x100 = 0x0 := by omega
  have g2 : (0x0 + 0x100 * x.val) < 0x600 := by omega
  simp only [regHook, h1, h2]
  simp only [hookPll, g0, g1, g2]
  simp

theorem regHook_pllTrim (x : Fin 6) (w : Nat) (eyes : List (Option (Fin 64))) (s t : State) :
    regHook (0x40030014 + 0x100 * x.val) w eyes s t = t.pllTrim x (s.get (PLL_TRIM_TRIM x)) := by
  have h1 : (0x40030014 + 0x100 * x.val) / 0x10000 = 0x4003 := by omega
  have h2 : (0x40030014 + 0x100 * x.val) % 0x10000 = 0x14 + 0x100 * x.val := by omega
  have g0 : (0x14 + 0x100 * x.val) / 0x100 = x.val := by omega
  have g1 : (0x14 + 0x100 * x.val) % 0x100 = 0x14 := by omega
  have g2 : (0x14 + 0x100 * x.val) < 0x600 := by omega
  simp only [regHook, h1, h2]
  simp only [hookPll, g0, g1, g2]
  simp

theorem regHook_ckoCfg (k : Fin 12) (w : Nat) (eyes : List (Option (Fin 64))) (s t : State) :
    regHook (0x40030E00 + 0x20 * k.val) w eyes s t = t.ckoWritten k := by
  have h1 : (0x40030E00 + 0x20 * k.val) / 0x10000 = 0x4003 := by omega
  have h2 : (0x40030E00 + 0x20 * k.val) % 0x10000 = 0xe00 + 0x20 * k.val := by omega
  have g0 : ¬(0xe00 + 0x20 * k.val < 0x600) := by omega
  have g1 : 0xE00 ≤ 0xe00 + 0x20 * k.val := by omega
  have g2 : 0xe00 + 0x20 * k.val < 0xF80 := by omega
  have g3 : (0xe00 + 0x20 * k.val) % 0x20 = 0 := by omega
  have g4 : (0xe00 + 0x20 * k.val - 0xE00) / 0x20 = k.val := by omega
  simp only [regHook, h1, h2]
  simp only [hookPll, g0, g1, g2, g3, g4]
  simp

theorem regHook_timFix (w : Nat) (eyes : List (Option (Fin 64))) (s t : State) :
    regHook (0x40040044) w eyes s t = t.timFixGo w := by
  simp [regHook, hookTim]

theorem regHook_timStep (w : Nat) (eyes : List (Option (Fin 64))) (s t : State) :
    regHook (0x40040050) w eyes s t = t.timStepGo w := by
  simp [regHook, hookTim]

theorem regHook_timLoad (w : Nat) (eyes : List (Option (Fin 64))) (s t : State) :
    regHook (0x40040068) w eyes s t = t.timLoadGo w := by
  simp [regHook, hookTim]

theorem regHook_timTp (n : Fin 2) (r : Fin 4) (w : Nat) (eyes : List (Option (Fin 64))) (s t : State) :
    regHook (0x40040100 + 0x40 * n.val + 0x4 * r.val) w eyes s t = t.tpWritten n := by
  have h1 : (0x40040100 + 0x40 * n.val + 0x4 * r.val) / 0x10000 = 0x4004 := by omega
  have h2 : (0x40040100 + 0x40 * n.val + 0x4 * r.val) % 0x10000 = 0x100 + 0x40 * n.val + 0x4 * r.val := by omega
  have g0 : 0x100 ≤ 0x100 + 0x40 * n.val + 0x4 * r.val := by omega
  have g1 : 0x100 + 0x40 * n.val + 0x4 * r.val < 0x180 := by omega
  have g2 : (0x100 + 0x40 * n.val + 0x4 * r.val) % 0x40 < 0x10 := by omega
  have g3 : (0x100 + 0x40 * n.val + 0x4 * r.val - 0x100) / 0x40 = n.val := by omega
  simp only [regHook, h1, h2]
  simp only [hookTim, g0, g1, g2, g3]
  simp

theorem regHook_slkCfg (n : Fin 8) (w : Nat) (eyes : List (Option (Fin 64))) (s t : State) :
    regHook (0x40050000 + 0x100 * n.val) w eyes s t = t.slkCfg n (s.on (SLK_CFG_EN n)) eyes := by
  have h1 : (0x40050000 + 0x100 * n.val) / 0x10000 = 0x4005 := by omega
  have h2 : (0x40050000 + 0x100 * n.val) % 0x10000 = 0x0 + 0x100 * n.val := by omega
  have g0 : (0x0 + 0x100 * n.val) / 0x100 = n.val := by omega
  have g1 : (0x0 + 0x100 * n.val) % 0x100 = 0x0 := by omega
  simp only [regHook, h1, h2]
  simp only [hookSlk, g0, g1]
  simp

theorem regHook_slkBase (n : Fin 8) (w : Nat) (eyes : List (Option (Fin 64))) (s t : State) :
    regHook (0x40050028 + 0x100 * n.val) w eyes s t = t.linkBase n := by
  have h1 : (0x40050028 + 0x100 * n.val) / 0x10000 = 0x4005 := by omega
  have h2 : (0x40050028 + 0x100 * n.val) % 0x10000 = 0x28 + 0x100 * n.val := by omega
  have g0 : (0x28 + 0x100 * n.val) / 0x100 = n.val := by omega
  have g1 : (0x28 + 0x100 * n.val) % 0x100 = 0x28 := by omega
  simp only [regHook, h1, h2]
  simp only [hookSlk, g0, g1]
  simp

theorem regHook_fecSeq (b : Fin 4) (w : Nat) (eyes : List (Option (Fin 64))) (s t : State) :
    regHook (0x40060008 + 0x100 * b.val) w eyes s t = t.fecGo b w := by
  have h1 : (0x40060008 + 0x100 * b.val) / 0x10000 = 0x4006 := by omega
  have h2 : (0x40060008 + 0x100 * b.val) % 0x10000 = 0x8 + 0x100 * b.val := by omega
  have g0 : (0x8 + 0x100 * b.val) / 0x100 = b.val := by omega
  have g1 : (0x8 + 0x100 * b.val) % 0x100 = 0x8 := by omega
  simp only [regHook, h1, h2]
  simp only [hookFec, g0, g1]
  simp

theorem regHook_snpRpl (w : Nat) (eyes : List (Option (Fin 64))) (s t : State) :
    regHook (0x40070010) w eyes s t = t.replayWrite w := by
  simp [regHook, hookSnp]

theorem regHook_snpHcfg (h : Fin 8) (w : Nat) (eyes : List (Option (Fin 64))) (s t : State) :
    regHook (0x40070100 + 0x40 * h.val) w eyes s t = t.snapHcfg s h w := by
  have h1 : (0x40070100 + 0x40 * h.val) / 0x10000 = 0x4007 := by omega
  have h2 : (0x40070100 + 0x40 * h.val) % 0x10000 = 0x100 + 0x40 * h.val := by omega
  have g0 : ¬(0x100 + 0x40 * h.val = 0x10) := by omega
  have g1 : 0x100 ≤ 0x100 + 0x40 * h.val := by omega
  have g2 : 0x100 + 0x40 * h.val < 0x300 := by omega
  have g3 : (0x100 + 0x40 * h.val) % 0x40 = 0 := by omega
  have g4 : (0x100 + 0x40 * h.val - 0x100) / 0x40 = h.val := by omega
  simp only [regHook, h1, h2]
  simp only [hookSnp, g0, g1, g2, g3, g4]
  simp

theorem regHook_itgLatch (w : Nat) (eyes : List (Option (Fin 64))) (s t : State) :
    regHook (0x40080008) w eyes s t = (t.itgLatchWrite w).attnUpdate := by
  simp [regHook, hookItg]

theorem regHook_eptCred (p : Fin 8) (w : Nat) (eyes : List (Option (Fin 64))) (s t : State) :
    regHook (0x4010003C + 0x1000 * p.val) w eyes s t = t.credWrite p (s.get (EPT_FWD_CRED p)) := by
  have h1 : (0x4010003C + 0x1000 * p.val) / 0x10000 = 0x4010 := by omega
  have h2 : (0x4010003C + 0x1000 * p.val) % 0x10000 = 0x3c + 0x1000 * p.val := by omega
  have g0 : (0x3c + 0x1000 * p.val) / 0x1000 = p.val := by omega
  have g1 : (0x3c + 0x1000 * p.val) % 0x1000 = 0x3c := by omega
  simp only [regHook, h1, h2]
  simp only [hookEpt, g0, g1]
  simp

theorem regHook_telCfg (n : Fin 96) (w : Nat) (eyes : List (Option (Fin 64))) (s t : State) :
    regHook (0x40200400 + 0x40 * n.val) w eyes s t = ((t.telCfg n (s.get (TEL_CFG_MODE n))).telCfgShow n s).lateOpen := by
  have h1 : (0x40200400 + 0x40 * n.val) / 0x10000 = 0x4020 := by omega
  have h2 : (0x40200400 + 0x40 * n.val) % 0x10000 = 0x400 + 0x40 * n.val := by omega
  have g0 : ¬(0x20 ≤ 0x400 + 0x40 * n.val ∧ 0x400 + 0x40 * n.val < 0x38) := by omega
  have g1 : ¬(0x400 + 0x40 * n.val = 0x40) := by omega
  have g2 : 0x400 ≤ 0x400 + 0x40 * n.val := by omega
  have g3 : 0x400 + 0x40 * n.val < 0x1C00 := by omega
  have g4 : (0x400 + 0x40 * n.val) % 0x40 = 0x0 := by omega
  have g5 : (0x400 + 0x40 * n.val - 0x400) / 0x40 = n.val := by omega
  simp only [regHook, h1, h2]
  simp only [hookTel, g0, g1, g2, g3, g4, g5]
  simp

theorem regHook_telPtr (n : Fin 96) (w : Nat) (eyes : List (Option (Fin 64))) (s t : State) :
    regHook (0x40200408 + 0x40 * n.val) w eyes s t = t.telPtr n := by
  have h1 : (0x40200408 + 0x40 * n.val) / 0x10000 = 0x4020 := by omega
  have h2 : (0x40200408 + 0x40 * n.val) % 0x10000 = 0x408 + 0x40 * n.val := by omega
  have g0 : ¬(0x20 ≤ 0x408 + 0x40 * n.val ∧ 0x408 + 0x40 * n.val < 0x38) := by omega
  have g1 : ¬(0x408 + 0x40 * n.val = 0x40) := by omega
  have g2 : 0x400 ≤ 0x408 + 0x40 * n.val := by omega
  have g3 : 0x408 + 0x40 * n.val < 0x1C00 := by omega
  have g4 : (0x408 + 0x40 * n.val) % 0x40 = 0x8 := by omega
  have g5 : (0x408 + 0x40 * n.val - 0x400) / 0x40 = n.val := by omega
  simp only [regHook, h1, h2]
  simp only [hookTel, g0, g1, g2, g3, g4, g5]
  simp

theorem regHook_telInval (w : Nat) (eyes : List (Option (Fin 64))) (s t : State) :
    regHook (0x40200040) w eyes s t = t.telInval w := by
  simp [regHook, hookTel]

theorem regHook_telPermit (j : Fin 6) (w : Nat) (eyes : List (Option (Fin 64))) (s t : State) :
    regHook (0x40200020 + 0x4 * j.val) w eyes s t = t.winPermit := by
  have h1 : (0x40200020 + 0x4 * j.val) / 0x10000 = 0x4020 := by omega
  have h2 : (0x40200020 + 0x4 * j.val) % 0x10000 = 0x20 + 0x4 * j.val := by omega
  have g0 : 0x20 ≤ 0x20 + 0x4 * j.val := by omega
  have g1 : 0x20 + 0x4 * j.val < 0x38 := by omega
  simp only [regHook, h1, h2]
  simp only [hookTel, g0, g1]
  simp

theorem regHook_umbCmd (w : Nat) (eyes : List (Option (Fin 64))) (s t : State) :
    regHook (0x40300058) w eyes s t = if bit w 31 then t.umbGo (bit w 30) else t := by
  simp [regHook, hookUmb]

theorem regHook_umbCfgw (w : Nat) (eyes : List (Option (Fin 64))) (s t : State) :
    regHook (0x4030005C) w eyes s t = t.umbCfgw w := by
  simp [regHook, hookUmb]

theorem regHook_cluCtl (c : Fin 16) (w : Nat) (eyes : List (Option (Fin 64))) (s t : State) :
    regHook (0x50000000 + 0x100000 * c.val) w eyes s t = t.cluCtl c (s.on (CLU_CTL_CKEN c)) w := by
  have h1 : (0x50000000 + 0x100000 * c.val) / 0x10000 = 0x5000 + 16 * c.val := by omega
  have h2 : (0x50000000 + 0x100000 * c.val) % 0x10000 = 0x0 := by omega
  have h3 : ¬(0x5000 + 16 * c.val < 0x5000) := by omega
  have h4 : 0x5000 + 16 * c.val < 0x5100 := by omega
  have h5 : (0x5000 + 16 * c.val) % 16 = 0 := by omega
  have h6 : (0x5000 + 16 * c.val - 0x5000) / 16 = c.val := by omega
  simp only [regHook, h1, h2, h3, h4, h5, h6]
  simp [hookClu]

theorem regHook_cluGang (c : Fin 16) (w : Nat) (eyes : List (Option (Fin 64))) (s t : State) :
    regHook (0x50000004 + 0x100000 * c.val) w eyes s t = t.setClu c { t.clu c with gangDue := true } := by
  have h1 : (0x50000004 + 0x100000 * c.val) / 0x10000 = 0x5000 + 16 * c.val := by omega
  have h2 : (0x50000004 + 0x100000 * c.val) % 0x10000 = 0x4 := by omega
  have h3 : ¬(0x5000 + 16 * c.val < 0x5000) := by omega
  have h4 : 0x5000 + 16 * c.val < 0x5100 := by omega
  have h5 : (0x5000 + 16 * c.val) % 16 = 0 := by omega
  have h6 : (0x5000 + 16 * c.val - 0x5000) / 16 = c.val := by omega
  simp only [regHook, h1, h2, h3, h4, h5, h6]
  simp [hookClu]

theorem regHook_cluRing (c : Fin 16) (w : Nat) (eyes : List (Option (Fin 64))) (s t : State) :
    regHook (0x5000000C + 0x100000 * c.val) w eyes s t = t.ringReconfigure c := by
  have h1 : (0x5000000C + 0x100000 * c.val) / 0x10000 = 0x5000 + 16 * c.val := by omega
  have h2 : (0x5000000C + 0x100000 * c.val) % 0x10000 = 0xc := by omega
  have h3 : ¬(0x5000 + 16 * c.val < 0x5000) := by omega
  have h4 : 0x5000 + 16 * c.val < 0x5100 := by omega
  have h5 : (0x5000 + 16 * c.val) % 16 = 0 := by omega
  have h6 : (0x5000 + 16 * c.val - 0x5000) / 16 = c.val := by omega
  simp only [regHook, h1, h2, h3, h4, h5, h6]
  simp [hookClu]

theorem regHook_cluRp (c : Fin 16) (w : Nat) (eyes : List (Option (Fin 64))) (s t : State) :
    regHook (0x50000014 + 0x100000 * c.val) w eyes s t = t.ringRelease c (s.get (CLU_RING_RP_RP c)) := by
  have h1 : (0x50000014 + 0x100000 * c.val) / 0x10000 = 0x5000 + 16 * c.val := by omega
  have h2 : (0x50000014 + 0x100000 * c.val) % 0x10000 = 0x14 := by omega
  have h3 : ¬(0x5000 + 16 * c.val < 0x5000) := by omega
  have h4 : 0x5000 + 16 * c.val < 0x5100 := by omega
  have h5 : (0x5000 + 16 * c.val) % 16 = 0 := by omega
  have h6 : (0x5000 + 16 * c.val - 0x5000) / 16 = c.val := by omega
  simp only [regHook, h1, h2, h3, h4, h5, h6]
  simp [hookClu]

theorem regHook_cluCtinv (c : Fin 16) (w : Nat) (eyes : List (Option (Fin 64))) (s t : State) :
    regHook (0x50000020 + 0x100000 * c.val) w eyes s t = t.ctinv c w := by
  have h1 : (0x50000020 + 0x100000 * c.val) / 0x10000 = 0x5000 + 16 * c.val := by omega
  have h2 : (0x50000020 + 0x100000 * c.val) % 0x10000 = 0x20 := by omega
  have h3 : ¬(0x5000 + 16 * c.val < 0x5000) := by omega
  have h4 : 0x5000 + 16 * c.val < 0x5100 := by omega
  have h5 : (0x5000 + 16 * c.val) % 16 = 0 := by omega
  have h6 : (0x5000 + 16 * c.val - 0x5000) / 16 = c.val := by omega
  simp only [regHook, h1, h2, h3, h4, h5, h6]
  simp [hookClu]

theorem regHook_cluGdwq (c : Fin 16) (w : Nat) (eyes : List (Option (Fin 64))) (s t : State) :
    regHook (0x50000028 + 0x100000 * c.val) w eyes s t = t.gangQueue c (w % 4096) := by
  have h1 : (0x50000028 + 0x100000 * c.val) / 0x10000 = 0x5000 + 16 * c.val := by omega
  have h2 : (0x50000028 + 0x100000 * c.val) % 0x10000 = 0x28 := by omega
  have h3 : ¬(0x5000 + 16 * c.val < 0x5000) := by omega
  have h4 : 0x5000 + 16 * c.val < 0x5100 := by omega
  have h5 : (0x5000 + 16 * c.val) % 16 = 0 := by omega
  have h6 : (0x5000 + 16 * c.val - 0x5000) / 16 = c.val := by omega
  simp only [regHook, h1, h2, h3, h4, h5, h6]
  simp [hookClu]

theorem regHook_engTgt (e : Fin 1024) (w : Nat) (eyes : List (Option (Fin 64))) (s t : State) :
    regHook (engAddr e 0x30) w eyes s t = t.engCommit e w := by
  have h1 : engAddr e 0x30 / 0x10000 = 0x5001 + 16 * (e.val / 64) := by unfold engAddr; omega
  have h2 : engAddr e 0x30 % 0x10000 = 0x400 * (e.val % 64) + 0x30 := by unfold engAddr; omega
  have h3 : ¬(0x5001 + 16 * (e.val / 64) < 0x5000) := by omega
  have h4 : 0x5001 + 16 * (e.val / 64) < 0x5100 := by omega
  have h5 : (0x5001 + 16 * (e.val / 64)) % 16 = 1 := by omega
  have h6 : (0x5001 + 16 * (e.val / 64) - 0x5000) / 16 = e.val / 64 := by omega
  have h7 : (0x400 * (e.val % 64) + 0x30) / 0x400 = e.val % 64 := by omega
  have h8 : (0x400 * (e.val % 64) + 0x30) % 0x400 = 0x30 := by omega
  have h9 : 64 * (e.val / 64) + e.val % 64 = e.val := by omega
  simp only [regHook, h1, h2, h3, h4, h5, h6, h7, h8, h9]
  simp [hookEng]

theorem regHook_engDwq (e : Fin 1024) (w : Nat) (eyes : List (Option (Fin 64))) (s t : State) :
    regHook (engAddr e 0x34) w eyes s t = t.engQueue e (w % 4096) := by
  have h1 : engAddr e 0x34 / 0x10000 = 0x5001 + 16 * (e.val / 64) := by unfold engAddr; omega
  have h2 : engAddr e 0x34 % 0x10000 = 0x400 * (e.val % 64) + 0x34 := by unfold engAddr; omega
  have h3 : ¬(0x5001 + 16 * (e.val / 64) < 0x5000) := by omega
  have h4 : 0x5001 + 16 * (e.val / 64) < 0x5100 := by omega
  have h5 : (0x5001 + 16 * (e.val / 64)) % 16 = 1 := by omega
  have h6 : (0x5001 + 16 * (e.val / 64) - 0x5000) / 16 = e.val / 64 := by omega
  have h7 : (0x400 * (e.val % 64) + 0x34) / 0x400 = e.val % 64 := by omega
  have h8 : (0x400 * (e.val % 64) + 0x34) % 0x400 = 0x34 := by omega
  have h9 : 64 * (e.val / 64) + e.val % 64 = e.val := by omega
  simp only [regHook, h1, h2, h3, h4, h5, h6, h7, h8, h9]
  simp [hookEng]

theorem regHook_engCtl (e : Fin 1024) (w : Nat) (eyes : List (Option (Fin 64))) (s t : State) :
    regHook (engAddr e 0x38) w eyes s t = t.engCtl e w := by
  have h1 : engAddr e 0x38 / 0x10000 = 0x5001 + 16 * (e.val / 64) := by unfold engAddr; omega
  have h2 : engAddr e 0x38 % 0x10000 = 0x400 * (e.val % 64) + 0x38 := by unfold engAddr; omega
  have h3 : ¬(0x5001 + 16 * (e.val / 64) < 0x5000) := by omega
  have h4 : 0x5001 + 16 * (e.val / 64) < 0x5100 := by omega
  have h5 : (0x5001 + 16 * (e.val / 64)) % 16 = 1 := by omega
  have h6 : (0x5001 + 16 * (e.val / 64) - 0x5000) / 16 = e.val / 64 := by omega
  have h7 : (0x400 * (e.val % 64) + 0x38) / 0x400 = e.val % 64 := by omega
  have h8 : (0x400 * (e.val % 64) + 0x38) % 0x400 = 0x38 := by omega
  have h9 : 64 * (e.val / 64) + e.val % 64 = e.val := by omega
  simp only [regHook, h1, h2, h3, h4, h5, h6, h7, h8, h9]
  simp [hookEng]

theorem regHook_engMig (e : Fin 1024) (w : Nat) (eyes : List (Option (Fin 64))) (s t : State) :
    regHook (engAddr e 0x5C) w eyes s t = t.migArm e (s.on (ENG_MIG_ARM e)) (s.get (ENG_MIG_FROM e)) := by
  have h1 : engAddr e 0x5c / 0x10000 = 0x5001 + 16 * (e.val / 64) := by unfold engAddr; omega
  have h2 : engAddr e 0x5c % 0x10000 = 0x400 * (e.val % 64) + 0x5c := by unfold engAddr; omega
  have h3 : ¬(0x5001 + 16 * (e.val / 64) < 0x5000) := by omega
  have h4 : 0x5001 + 16 * (e.val / 64) < 0x5100 := by omega
  have h5 : (0x5001 + 16 * (e.val / 64)) % 16 = 1 := by omega
  have h6 : (0x5001 + 16 * (e.val / 64) - 0x5000) / 16 = e.val / 64 := by omega
  have h7 : (0x400 * (e.val % 64) + 0x5c) / 0x400 = e.val % 64 := by omega
  have h8 : (0x400 * (e.val % 64) + 0x5c) % 0x400 = 0x5c := by omega
  have h9 : 64 * (e.val / 64) + e.val % 64 = e.val := by omega
  simp only [regHook, h1, h2, h3, h4, h5, h6, h7, h8, h9]
  simp [hookEng]

theorem regHook_dspCtl (d : Fin 16) (w : Nat) (eyes : List (Option (Fin 64))) (s t : State) :
    regHook (0x60000000 + 0x40000 * d.val) w eyes s t = t.dspCtl d (s.on (LDSP_CTL_SHADOW d)) w := by
  have h1 : (0x60000000 + 0x40000 * d.val) / 0x10000 = 0x6000 + 4 * d.val := by omega
  have h2 : (0x60000000 + 0x40000 * d.val) % 0x10000 = 0x0 := by omega
  have h3 : ¬(0x6000 + 4 * d.val < 0x5000) := by omega
  have h4 : ¬(0x6000 + 4 * d.val < 0x5100) := by omega
  have h5 : (0x6000 + 4 * d.val - 0x6000) / 4 = 1 * d.val := by omega
  simp only [regHook, h1, h2, h3, h4, h5]
  simp [hookDsp]

theorem regHook_dspDbell (d : Fin 16) (w : Nat) (eyes : List (Option (Fin 64))) (s t : State) :
    regHook (0x60000028 + 0x40000 * d.val) w eyes s t = t.set (LDSP_IRQ_DBELL d) 1 := by
  have h1 : (0x60000028 + 0x40000 * d.val) / 0x10000 = 0x6000 + 4 * d.val := by omega
  have h2 : (0x60000028 + 0x40000 * d.val) % 0x10000 = 0x28 := by omega
  have h3 : ¬(0x6000 + 4 * d.val < 0x5000) := by omega
  have h4 : ¬(0x6000 + 4 * d.val < 0x5100) := by omega
  have h5 : (0x6000 + 4 * d.val - 0x6000) / 4 = 1 * d.val := by omega
  simp only [regHook, h1, h2, h3, h4, h5]
  simp [hookDsp]

theorem regHook_dspOutbox (d : Fin 16) (w : Nat) (eyes : List (Option (Fin 64))) (s t : State) :
    regHook (0x6000002C + 0x40000 * d.val) w eyes s t = t.set (LDSP_NIRQ_OUTBOX d) 1 := by
  have h1 : (0x6000002C + 0x40000 * d.val) / 0x10000 = 0x6000 + 4 * d.val := by omega
  have h2 : (0x6000002C + 0x40000 * d.val) % 0x10000 = 0x2c := by omega
  have h3 : ¬(0x6000 + 4 * d.val < 0x5000) := by omega
  have h4 : ¬(0x6000 + 4 * d.val < 0x5100) := by omega
  have h5 : (0x6000 + 4 * d.val - 0x6000) / 4 = 1 * d.val := by omega
  simp only [regHook, h1, h2, h3, h4, h5]
  simp [hookDsp]

theorem regHook_dspWdog (d : Fin 16) (w : Nat) (eyes : List (Option (Fin 64))) (s t : State) :
    regHook (0x60000038 + 0x40000 * d.val) w eyes s t = if bit w 30 then t.set (LDSP_WDOG_COUNT d) 0 else t := by
  have h1 : (0x60000038 + 0x40000 * d.val) / 0x10000 = 0x6000 + 4 * d.val := by omega
  have h2 : (0x60000038 + 0x40000 * d.val) % 0x10000 = 0x38 := by omega
  have h3 : ¬(0x6000 + 4 * d.val < 0x5000) := by omega
  have h4 : ¬(0x6000 + 4 * d.val < 0x5100) := by omega
  have h5 : (0x6000 + 4 * d.val - 0x6000) / 4 = 1 * d.val := by omega
  simp only [regHook, h1, h2, h3, h4, h5]
  simp [hookDsp]

theorem regHook_dspGctl (g : Fin 4) (w : Nat) (eyes : List (Option (Fin 64))) (s t : State) :
    regHook (0x60000040 + 0x100000 * g.val) w eyes s t = t.dspGroup g := by
  have h1 : (0x60000040 + 0x100000 * g.val) / 0x10000 = 0x6000 + 16 * g.val := by omega
  have h2 : (0x60000040 + 0x100000 * g.val) % 0x10000 = 0x40 := by omega
  have h3 : ¬(0x6000 + 16 * g.val < 0x5000) := by omega
  have h4 : ¬(0x6000 + 16 * g.val < 0x5100) := by omega
  have h5 : (0x6000 + 16 * g.val - 0x6000) / 4 = 4 * g.val := by omega
  have h6 : 4 * g.val / 4 = g.val := by omega
  simp only [regHook, h1, h2, h3, h4, h5]
  simp [hookDsp, h6]

theorem memClass_engAddr (e : Fin 1024) {o : Nat} (h : o < 0x400) : memClass (engAddr e o) = none := by
  have h1 : 0x50000000 ≤ engAddr e o ∧ engAddr e o < 0x51000000 := by unfold engAddr; omega
  have h2 : ¬(0x80000 ≤ engAddr e o % 0x100000 ∧ engAddr e o % 0x100000 < 0xC0000) := by unfold engAddr; omega
  simp only [memClass, h1, h2]
  simp

theorem engAddr_image (e : Fin 1024) {o : Nat} (h : o < 0x400) :
    ¬(0x50000000 ≤ engAddr e o ∧ engAddr e o < 0x51000000 ∧ engAddr e o / 0x10000 % 16 = 2) := by
  unfold engAddr; omega

theorem engAddr_word (e : Fin 1024) {o : Nat} (h : o % 4 = 0) : engAddr e o % 4 = 0 := by unfold engAddr; omega

end Sys2Proof.Machine
end

