-- ==== Sys2Proof/Laws/Keeps.lean ====
section
/-! SUPPORT. What every operation keeps: the queue, the part's identity, what was sent, and the canonical form of the
register table and of the memories. Here the relation and the base operations. -/

namespace Sys2Proof.Machine

/-! ### The relation -/

/-- What no operation undoes: the queue and the part stay, what was sent stays sent, and the canonical forms of the
register table and of the memories are kept. -/
structure Keeps (s t : State) : Prop where
  queue  : t.pending = s.pending
  part   : t.part = s.part
  sent   : s.out <:+ t.out
  regs   : tblSorted none s.reg = true → tblSorted none t.reg = true
  memory : Memory.wf s = true → Memory.wf t = true

theorem Keeps.refl (s : State) : Keeps s s := ⟨rfl, rfl, List.suffix_rfl, id, id⟩

theorem Keeps.trans {s t u : State} (h : Keeps s t) (g : Keeps t u) : Keeps s u :=
  ⟨g.queue.trans h.queue, g.part.trans h.part, h.sent.trans g.sent, fun x => g.regs (h.regs x),
   fun x => g.memory (h.memory x)⟩

/-- An update of other fields. -/
theorem Keeps.upd {s t u : State} (h : Keeps s t) (h1 : u.pending = t.pending) (h2 : u.part = t.part)
    (h3 : u.out = t.out) (h4 : u.reg = t.reg) (h5 : u.mem = t.mem) (h6 : u.flash = t.flash)
    (h7 : u.wipes = t.wipes) (h8 : u.colds = t.colds) : Keeps s u := by
  refine h.trans ⟨h1, h2, ?_, ?_, ?_⟩
  · exact h3 ▸ List.suffix_rfl
  · intro x; rw [h4]; exact x
  · intro x; unfold Memory.wf at x ⊢; rw [h5, h6, h7, h8, h2]; exact x

theorem Keeps.lit {s t : State} {v6 v7 v8 v9 v10 v11 v12 v13 v14 v15 v16 v17 v18 v19 v20 v21 v22 v23
    v24 v25 v26 v27 v28 v29 v30 v31 v32 v33 v34 v35 v36 v38} :
    Keeps s (State.mk t.reg t.mem t.flash t.wipes t.colds v6 v7 v8 v9 v10 v11 v12 v13 v14 v15 v16 v17 v18 v19 v20 v21 v22
      v23 v24 v25 v26 v27 v28 v29 v30 v31 v32 v33 v34 v35 v36 t.part t.out v38 t.pending) ↔ Keeps s t :=
  ⟨fun h => h.upd rfl rfl rfl rfl rfl rfl rfl rfl, fun h => h.upd rfl rfl rfl rfl rfl rfl rfl rfl⟩

theorem Keeps.ite {s a b : State} {c : Prop} [Decidable c] (ha : Keeps s a) (hb : Keeps s b) :
    Keeps s (if c then a else b) := by split <;> assumption

/-- The same of an operation that also answers something. A definition of its own, so that the kernel compares such
operations by what they are applied to and does not run them. -/
def KeepsP {α : Type} (s : State) (p : State × α) : Prop := Keeps s p.1

theorem KeepsP.fst {α : Type} {s : State} {p : State × α} (h : KeepsP s p) : Keeps s p.1 := h

theorem KeepsP.pair {α : Type} {s t : State} {v : α} : KeepsP s (t, v) ↔ Keeps s t := Iff.rfl

theorem KeepsP.trans {α : Type} {s t : State} {p : State × α} (h : Keeps s t) (g : KeepsP t p) : KeepsP s p := Keeps.trans h g

theorem KeepsP.ite {α : Type} {s : State} {a b : State × α} {c : Prop} [Decidable c] (ha : KeepsP s a) (hb : KeepsP s b) :
    KeepsP s (if c then a else b) := by split <;> assumption

theorem KeepsP.of_eq {α : Type} {s t : State} {p : State × α} {v : α} (h : KeepsP s p) (e : p = (t, v)) : Keeps s t := by
  subst e; exact h

theorem Keeps.of_next {u t x : State} {α β : Type} (h : Keeps u x) (e : (Host.Outcome.next x : Host.Outcome State α β) = .next t) :
    Keeps u t := by
  injection e with e
  rw [← e]; exact h

/-- The state that an instruction of a loop DSP leaves, whether it completes or faults. -/
def DspRes.state : DspRes → State
  | .ok t _ _ => t
  | .fault t _ _ => t

theorem Keeps.iteR {s : State} {a b : DspRes} {c : Prop} [Decidable c] (ha : Keeps s a.state) (hb : Keeps s b.state) :
    Keeps s (if c then a else b).state := by split <;> assumption

theorem Keeps.resOk {s t : State} (h : Keeps s t) (f : Flow) (n : Nat) : Keeps s (DspRes.ok t f n).state := h
theorem Keeps.resFault {s t : State} (h : Keeps s t) (c a : Nat) : Keeps s (DspRes.fault t c a).state := h

/-- A fold of operations. -/
theorem Keeps.foldl {α : Type} {u s : State} (h : Keeps u s) (f : State → α → State) (l : List α)
    (hf : ∀ s x, Keeps s (f s x)) : Keeps u (l.foldl f s) := by
  induction l generalizing s with
  | nil => exact h
  | cons x l ih => exact ih (h.trans (hf s x))

theorem KeepsP.foldl {α β : Type} {u : State} {p : State × β} (h : KeepsP u p) (f : State × β → α → State × β) (l : List α)
    (hf : ∀ p x, KeepsP p.1 (f p x)) : KeepsP u (l.foldl f p) := by
  induction l generalizing p with
  | nil => exact h
  | cons x l ih => exact ih (Keeps.trans h (hf p x))

/-! ### The base operations -/

theorem State.set_keeps {u s : State} (h : Keeps u s) (f : Field) (v : Nat) : Keeps u (s.set f v) :=
  h.trans ⟨rfl, rfl, List.suffix_rfl, tblSorted_put _ _ _ _, id⟩

theorem State.clearRegs_keeps {u s : State} (h : Keeps u s) (lo hi : Nat) : Keeps u (s.clearRegs lo hi) :=
  h.trans ⟨rfl, rfl, List.suffix_rfl, tblSorted_filter _ _ _, id⟩

theorem State.emit_keeps {u s : State} (h : Keeps u s) (o : Out) : Keeps u (s.emit o) :=
  h.trans ⟨rfl, rfl, ⟨[o], rfl⟩, id, id⟩

theorem cellPuts_canon (d : Nat → Byte) (m : List Host.Cell) (a : Nat) (bs : List Byte) (h : tblCanon d m = true) :
    tblCanon d (cellPuts d m a bs) = true := by
  induction bs generalizing m a with
  | nil => exact h
  | cons b bs ih => exact ih _ _ (tblCanon_put d m a b h)

theorem flashProgram_canon (m : List Host.Cell) (a : Nat) (bs : List Byte) (h : tblCanon flashDefault m = true) :
    tblCanon flashDefault (flashProgram m a bs) = true := by
  induction bs generalizing m a with
  | nil => exact h
  | cons b bs ih => exact ih _ _ (tblCanon_put flashDefault m a _ h)

theorem flashErase_canon (m : List Host.Cell) (a n : Nat) (h : tblCanon flashDefault m = true) :
    tblCanon flashDefault (flashErase m a n) = true := tblCanon_filter _ _ _ _ (fun _ _ => rfl) h

theorem Memory.wf_iff (s : State) : Memory.wf s = true ↔
    tblCanon (memDefault s.part s.wipes s.colds) s.mem = true ∧ tblCanon flashDefault s.flash = true := by
  simp [Memory.wf]

theorem State.pokes_keeps {u s : State} (h : Keeps u s) (a : Nat) (bs : List Byte) : Keeps u (s.pokes a bs) :=
  h.trans ⟨rfl, rfl, List.suffix_rfl, id, fun k => (Memory.wf_iff _).mpr
    ⟨cellPuts_canon _ _ _ _ ((Memory.wf_iff _).mp k).1, ((Memory.wf_iff _).mp k).2⟩⟩

theorem State.wipeCold_keeps {u s : State} (h : Keeps u s) : Keeps u s.wipeCold :=
  h.trans ⟨rfl, rfl, List.suffix_rfl, id, fun k => (Memory.wf_iff _).mpr
    ⟨tblCanon_filter _ _ _ _ (fun e he => by simp at he; simp [memDefault, he, State.wipeCold]) ((Memory.wf_iff _).mp k).1,
     ((Memory.wf_iff _).mp k).2⟩⟩

theorem State.wipeSnap_keeps {u s : State} (h : Keeps u s) : Keeps u s.wipeSnap :=
  h.trans ⟨rfl, rfl, List.suffix_rfl, id, fun k => (Memory.wf_iff _).mpr
    ⟨tblCanon_filter _ _ _ _ (fun e he => by
       simp only [Bool.not_eq_true', Bool.and_eq_false_imp, decide_eq_true_eq, decide_eq_false_iff_not] at he
       have : ¬ (1879048192 ≤ e.1 ∧ e.1 < 1912602624) := fun ⟨a, b⟩ => he a b
       simp [memDefault, this, State.wipeSnap]) ((Memory.wf_iff _).mp k).1,
     ((Memory.wf_iff _).mp k).2⟩⟩

theorem State.wipeCust_keeps {u s : State} (h : Keeps u s) : Keeps u s.wipeCust :=
  h.trans ⟨rfl, rfl, List.suffix_rfl, id, fun k => (Memory.wf_iff _).mpr
    ⟨tblCanon_filter _ _ _ _ (fun _ _ => rfl) ((Memory.wf_iff _).mp k).1, ((Memory.wf_iff _).mp k).2⟩⟩

theorem State.each_keeps {u s : State} (h : Keeps u s) (n : Nat) (f : Nat → State → State)
    (hf : ∀ k s, Keeps s (f k s)) : Keeps u (s.each n f) := Keeps.foldl h _ _ (fun s k => hf k s)

end Sys2Proof.Machine
end

