-- ==== Sys2Proof/Laws/KeepsOps.lean ====
section
/-! SUPPORT. What every operation keeps, one lemma an operation. The named operations, umber, protected memories, the loop DSP and one engine. -/

namespace Sys2Proof.Machine

set_option linter.unusedVariables false
set_option Elab.async false

theorem State.setI_keeps {u s : State} (h : Keeps u s) (a1) (a2) : Keeps u (State.setI s a1 a2) := by
  unfold State.setI
  try dsimp -iota only
  repeat' first
    | with_reducible refine State.set_keeps ?_ _ _
    | with_reducible assumption
    | with_reducible exact Keeps.refl _

theorem State.setB_keeps {u s : State} (h : Keeps u s) (a1) (a2) : Keeps u (State.setB s a1 a2) := by
  unfold State.setB
  try dsimp -iota only
  repeat' first
    | with_reducible refine State.set_keeps ?_ _ _
    | with_reducible assumption
    | with_reducible exact Keeps.refl _

theorem State.inc_keeps {u s : State} (h : Keeps u s) (a1) (a2) : Keeps u (State.inc s a1 a2) := by
  unfold State.inc
  try dsimp -iota only
  repeat' first
    | with_reducible refine State.set_keeps ?_ _ _
    | with_reducible assumption
    | with_reducible exact Keeps.refl _

theorem State.incSat_keeps {u s : State} (h : Keeps u s) (a1) (a2) : Keeps u (State.incSat s a1 a2) := by
  unfold State.incSat
  try dsimp -iota only
  repeat' first
    | with_reducible refine State.set_keeps ?_ _ _
    | with_reducible assumption
    | with_reducible exact Keeps.refl _

theorem State.dec_keeps {u s : State} (h : Keeps u s) (a1) (a2) : Keeps u (State.dec s a1 a2) := by
  unfold State.dec
  try dsimp -iota only
  repeat' first
    | with_reducible refine State.set_keeps ?_ _ _
    | with_reducible assumption
    | with_reducible exact Keeps.refl _

theorem State.orF_keeps {u s : State} (h : Keeps u s) (a1) (a2) : Keeps u (State.orF s a1 a2) := by
  unfold State.orF
  try dsimp -iota only
  repeat' first
    | with_reducible refine State.set_keeps ?_ _ _
    | with_reducible assumption
    | with_reducible exact Keeps.refl _

theorem State.clrF_keeps {u s : State} (h : Keeps u s) (a1) (a2) : Keeps u (State.clrF s a1 a2) := by
  unfold State.clrF
  try dsimp -iota only
  repeat' first
    | with_reducible refine State.set_keeps ?_ _ _
    | with_reducible assumption
    | with_reducible exact Keeps.refl _

theorem State.set2_keeps {u s : State} (h : Keeps u s) (a1) (a2) (a3) : Keeps u (State.set2 s a1 a2 a3) := by
  unfold State.set2
  try dsimp -iota only
  repeat' first
    | with_reducible refine State.set_keeps ?_ _ _
    | with_reducible assumption
    | with_reducible exact Keeps.refl _

theorem State.setI2_keeps {u s : State} (h : Keeps u s) (a1) (a2) (a3) : Keeps u (State.setI2 s a1 a2 a3) := by
  unfold State.setI2
  try dsimp -iota only
  repeat' first
    | with_reducible refine State.set2_keeps ?_ _ _ _
    | with_reducible assumption
    | with_reducible exact Keeps.refl _

theorem State.setLink_keeps {u s : State} (h : Keeps u s) (a1) (a2) : Keeps u (State.setLink s a1 a2) := by
  unfold State.setLink
  try dsimp -iota only
  repeat' first
    | simp only [Keeps.lit]
    | with_reducible assumption
    | with_reducible exact Keeps.refl _

theorem State.setFec_keeps {u s : State} (h : Keeps u s) (a1) (a2) : Keeps u (State.setFec s a1 a2) := by
  unfold State.setFec
  try dsimp -iota only
  repeat' first
    | simp only [Keeps.lit]
    | with_reducible assumption
    | with_reducible exact Keeps.refl _

theorem State.setEng_keeps {u s : State} (h : Keeps u s) (a1) (a2) : Keeps u (State.setEng s a1 a2) := by
  unfold State.setEng
  try dsimp -iota only
  repeat' first
    | simp only [Keeps.lit]
    | with_reducible assumption
    | with_reducible exact Keeps.refl _

theorem State.setClu_keeps {u s : State} (h : Keeps u s) (a1) (a2) : Keeps u (State.setClu s a1 a2) := by
  unfold State.setClu
  try dsimp -iota only
  repeat' first
    | simp only [Keeps.lit]
    | with_reducible assumption
    | with_reducible exact Keeps.refl _

theorem State.setHandle_keeps {u s : State} (h : Keeps u s) (a1) (a2) : Keeps u (State.setHandle s a1 a2) := by
  unfold State.setHandle
  try dsimp -iota only
  repeat' first
    | simp only [Keeps.lit]
    | with_reducible assumption
    | with_reducible exact Keeps.refl _

theorem State.setMap_keeps {u s : State} (h : Keeps u s) (a1) (a2) : Keeps u (State.setMap s a1 a2) := by
  unfold State.setMap
  try dsimp -iota only
  repeat' first
    | simp only [Keeps.lit]
    | with_reducible assumption
    | with_reducible exact Keeps.refl _

theorem State.setChan_keeps {u s : State} (h : Keeps u s) (a1) (a2) : Keeps u (State.setChan s a1 a2) := by
  unfold State.setChan
  try dsimp -iota only
  repeat' first
    | simp only [Keeps.lit]
    | with_reducible assumption
    | with_reducible exact Keeps.refl _

theorem State.setDsp_keeps {u s : State} (h : Keeps u s) (a1) (a2) : Keeps u (State.setDsp s a1 a2) := by
  unfold State.setDsp
  try dsimp -iota only
  repeat' first
    | simp only [Keeps.lit]
    | with_reducible assumption
    | with_reducible exact Keeps.refl _

theorem State.setTp_keeps {u s : State} (h : Keeps u s) (a1) (a2) : Keeps u (State.setTp s a1 a2) := by
  unfold State.setTp
  try dsimp -iota only
  repeat' first
    | simp only [Keeps.lit]
    | with_reducible assumption
    | with_reducible exact Keeps.refl _

theorem State.setPll_keeps {u s : State} (h : Keeps u s) (a1) (a2) : Keeps u (State.setPll s a1 a2) := by
  unfold State.setPll
  try dsimp -iota only
  repeat' first
    | simp only [Keeps.lit]
    | with_reducible assumption
    | with_reducible exact Keeps.refl _

theorem State.setCko_keeps {u s : State} (h : Keeps u s) (a1) (a2) : Keeps u (State.setCko s a1 a2) := by
  unfold State.setCko
  try dsimp -iota only
  repeat' first
    | simp only [Keeps.lit]
    | with_reducible assumption
    | with_reducible exact Keeps.refl _

theorem State.setPort_keeps {u s : State} (h : Keeps u s) (a1) (a2) : Keeps u (State.setPort s a1 a2) := by
  unfold State.setPort
  try dsimp -iota only
  repeat' first
    | simp only [Keeps.lit]
    | with_reducible assumption
    | with_reducible exact Keeps.refl _

theorem State.setSlot_keeps {u s : State} (h : Keeps u s) (a1) (a2) : Keeps u (State.setSlot s a1 a2) := by
  unfold State.setSlot
  try dsimp -iota only
  repeat' first
    | simp only [Keeps.lit]
    | with_reducible assumption
    | with_reducible exact Keeps.refl _

theorem State.setLine_keeps {u s : State} (h : Keeps u s) (a1) (a2) : Keeps u (State.setLine s a1 a2) := by
  unfold State.setLine
  try dsimp -iota only
  repeat' first
    | simp only [Keeps.lit]
    | with_reducible assumption
    | with_reducible exact Keeps.refl _

theorem State.setBank_keeps {u s : State} (h : Keeps u s) (a1) (a2) : Keeps u (State.setBank s a1 a2) := by
  unfold State.setBank
  try dsimp -iota only
  repeat' first
    | simp only [Keeps.lit]
    | with_reducible assumption
    | with_reducible exact Keeps.refl _

theorem State.draw_keeps {u s : State} (h : Keeps u s) (a1) : KeepsP u (State.draw s a1) := by
  unfold State.draw
  try dsimp -iota only
  repeat' first
    | simp -iota -zeta -proj only [KeepsP.pair]
    | simp only [Keeps.lit]
    | with_reducible assumption
    | with_reducible exact Keeps.refl _
theorem State.draw_keepsP {u s t : State} {v} {a1} (e : State.draw s a1 = (t, v)) (h : Keeps u s) : Keeps u t :=
  KeepsP.of_eq (State.draw_keeps h a1) e

theorem State.quotient_keeps {u s : State} (h : Keeps u s) (a1) (a2) : KeepsP u (State.quotient s a1 a2) := by
  unfold State.quotient
  try dsimp -iota only
  repeat' first
    | with_reducible refine State.draw_keeps ?_ _
    | with_reducible refine KeepsP.fst (State.draw_keeps ?_ _)
    | with_reducible refine State.draw_keepsP (by assumption) ?_
    | with_reducible refine Keeps.ite ?_ ?_
    | simp -iota -zeta -proj only [KeepsP.pair]
    | with_reducible refine KeepsP.ite ?_ ?_
    | with_reducible refine KeepsP.fst (KeepsP.ite ?_ ?_)
    | with_reducible assumption
    | with_reducible exact Keeps.refl _
    | split
    | dsimp only
theorem State.quotient_keepsP {u s t : State} {v} {a1} {a2} (e : State.quotient s a1 a2 = (t, v)) (h : Keeps u s) : Keeps u t :=
  KeepsP.of_eq (State.quotient_keeps h a1 a2) e

theorem State.enqueue_keeps {u s : State} (h : Keeps u s) (a1) : Keeps u (State.enqueue s a1) := by
  unfold State.enqueue
  try dsimp -iota only
  repeat' first
    | with_reducible refine Keeps.ite ?_ ?_
    | simp only [Keeps.lit]
    | with_reducible assumption
    | with_reducible exact Keeps.refl _
    | split
    | dsimp only

theorem State.note_keeps {u s : State} (h : Keeps u s) (a1) (a2) (a3) (a4) (a5) : Keeps u (State.note s a1 a2 a3 a4 a5) := by
  unfold State.note
  try dsimp -iota only
  repeat' first
    | with_reducible refine State.enqueue_keeps ?_ _
    | simp only [Keeps.lit]
    | with_reducible assumption
    | with_reducible exact Keeps.refl _

theorem State.attnUpdate_keeps {u s : State} (h : Keeps u s) : Keeps u (State.attnUpdate s) := by
  unfold State.attnUpdate
  try dsimp -iota only
  repeat' first
    | with_reducible refine State.setB_keeps ?_ _ _
    | with_reducible refine State.emit_keeps ?_ _
    | with_reducible refine Keeps.ite ?_ ?_
    | with_reducible assumption
    | with_reducible exact Keeps.refl _
    | split
    | dsimp only

theorem State.tpDrive_keeps {u s : State} (h : Keeps u s) (a1) (a2) : Keeps u (State.tpDrive s a1 a2) := by
  unfold State.tpDrive
  try dsimp -iota only
  repeat' first
    | with_reducible refine State.setTp_keeps ?_ _ _
    | with_reducible refine State.emit_keeps ?_ _
    | with_reducible refine Keeps.ite ?_ ?_
    | simp only [Keeps.lit]
    | with_reducible assumption
    | with_reducible exact Keeps.refl _
    | split
    | dsimp only

theorem State.tpRest_keeps {u s : State} (h : Keeps u s) (a1) : Keeps u (State.tpRest s a1) := by
  unfold State.tpRest
  try dsimp -iota only
  repeat' first
    | with_reducible refine State.tpDrive_keeps ?_ _ _
    | with_reducible refine Keeps.ite ?_ ?_
    | with_reducible assumption
    | with_reducible exact Keeps.refl _
    | split
    | dsimp only

theorem State.poke_keeps {u s : State} (h : Keeps u s) (a1) (a2) (a3) : Keeps u (State.poke s a1 a2 a3) := by
  unfold State.poke
  try dsimp -iota only
  repeat' first
    | with_reducible refine State.pokes_keeps ?_ _ _
    | with_reducible assumption
    | with_reducible exact Keeps.refl _

theorem State.setEcc_keeps {u s : State} (h : Keeps u s) (a1) (a2) (a3) : Keeps u (State.setEcc s a1 a2 a3) := by
  unfold State.setEcc
  try dsimp -iota only
  repeat' first
    | with_reducible refine Keeps.ite ?_ ?_
    | simp only [Keeps.lit]
    | with_reducible assumption
    | with_reducible exact Keeps.refl _
    | split
    | dsimp only

theorem State.clrEcc_keeps {u s : State} (h : Keeps u s) (a1) (a2) : Keeps u (State.clrEcc s a1 a2) := by
  unfold State.clrEcc
  try dsimp -iota only
  repeat' first
    | simp only [Keeps.lit]
    | with_reducible assumption
    | with_reducible exact Keeps.refl _

theorem State.hold_keeps {u s : State} (h : Keeps u s) (a1) (a2) (a3) : Keeps u (State.hold s a1 a2 a3) := by
  unfold State.hold
  try dsimp -iota only
  repeat' first
    | simp only [Keeps.lit]
    | with_reducible assumption
    | with_reducible exact Keeps.refl _

theorem State.release_keeps {u s : State} (h : Keeps u s) (a1) (a2) : Keeps u (State.release s a1 a2) := by
  unfold State.release
  try dsimp -iota only
  repeat' first
    | simp only [Keeps.lit]
    | with_reducible assumption
    | with_reducible exact Keeps.refl _

theorem State.clearLatches_keeps {u s : State} (h : Keeps u s) (a1) (a2) : Keeps u (State.clearLatches s a1 a2) := by
  unfold State.clearLatches
  try dsimp -iota only
  repeat' first
    | with_reducible refine Keeps.ite ?_ ?_
    | simp only [Keeps.lit]
    | with_reducible assumption
    | with_reducible exact Keeps.refl _
    | split
    | dsimp only

theorem State.umbWrapped_keeps {u s : State} (h : Keeps u s) : Keeps u (State.umbWrapped s) := by
  unfold State.umbWrapped
  try dsimp -iota only
  repeat' first
    | with_reducible refine State.set_keeps ?_ _ _
    | with_reducible refine Keeps.ite ?_ ?_
    | with_reducible assumption
    | with_reducible exact Keeps.refl _
    | split
    | dsimp only

theorem State.umbFull_keeps {u s : State} (h : Keeps u s) : Keeps u (State.umbFull s) := by
  unfold State.umbFull
  try dsimp -iota only
  repeat' first
    | with_reducible refine State.setB_keeps ?_ _ _
    | with_reducible assumption
    | with_reducible exact Keeps.refl _

theorem State.umbScan_keeps {u s : State} (h : Keeps u s) : Keeps u (State.umbScan s) := by
  unfold State.umbScan
  try dsimp -iota only
  repeat' first
    | with_reducible refine State.set_keeps ?_ _ _
    | with_reducible refine State.set2_keeps ?_ _ _ _
    | with_reducible refine State.umbWrapped_keeps ?_
    | with_reducible refine State.umbFull_keeps ?_
    | with_reducible refine Keeps.ite ?_ ?_
    | with_reducible refine Keeps.foldl ?_ _ _ (fun _ _ => ?_)
    | simp only [Keeps.lit]
    | with_reducible assumption
    | with_reducible exact Keeps.refl _
    | split
    | dsimp only

theorem State.enqueueFront_keeps {u s : State} (h : Keeps u s) (a1) : Keeps u (State.enqueueFront s a1) := by
  unfold State.enqueueFront
  try dsimp -iota only
  repeat' first
    | with_reducible refine Keeps.ite ?_ ?_
    | simp only [Keeps.lit]
    | with_reducible assumption
    | with_reducible exact Keeps.refl _
    | split
    | dsimp only

theorem State.recoveryNote_keeps {u s : State} (h : Keeps u s) (a1) : Keeps u (State.recoveryNote s a1) := by
  unfold State.recoveryNote
  try dsimp -iota only
  repeat' first
    | with_reducible refine State.enqueueFront_keeps ?_ _
    | simp only [Keeps.lit]
    | with_reducible assumption
    | with_reducible exact Keeps.refl _

theorem State.umbLose_keeps {u s : State} (h : Keeps u s) (a1) : Keeps u (State.umbLose s a1) := by
  unfold State.umbLose
  try dsimp -iota only
  repeat' first
    | with_reducible refine State.inc_keeps ?_ _ _
    | with_reducible refine State.dec_keeps ?_ _ _
    | with_reducible refine State.set2_keeps ?_ _ _ _
    | with_reducible refine Keeps.ite ?_ ?_
    | with_reducible assumption
    | with_reducible exact Keeps.refl _
    | split
    | dsimp only

theorem State.umbStage_keeps {u s : State} (h : Keeps u s) (a1) : Keeps u (State.umbStage s a1) := by
  unfold State.umbStage
  try dsimp -iota only
  repeat' first
    | with_reducible refine State.set_keeps ?_ _ _
    | with_reducible refine Keeps.ite ?_ ?_
    | with_reducible assumption
    | with_reducible exact Keeps.refl _
    | split
    | dsimp only

theorem State.umbBlanks_keeps {u s : State} (h : Keeps u s) : Keeps u (State.umbBlanks s) := by
  unfold State.umbBlanks
  try dsimp -iota only
  repeat' first
    | with_reducible refine State.set_keeps ?_ _ _
    | with_reducible refine State.umbFull_keeps ?_
    | with_reducible refine Keeps.ite ?_ ?_
    | with_reducible assumption
    | with_reducible exact Keeps.refl _
    | split
    | dsimp only

theorem State.mramWord_keeps {u s : State} (h : Keeps u s) (a1) (a2) : Keeps u (State.mramWord s a1 a2) := by
  unfold State.mramWord
  try dsimp -iota only
  repeat' first
    | with_reducible refine State.pokes_keeps ?_ _ _
    | with_reducible refine State.clrEcc_keeps ?_ _ _
    | with_reducible assumption
    | with_reducible exact Keeps.refl _

theorem State.umbTake_keeps {u s : State} (h : Keeps u s) (a1) : KeepsP u (State.umbTake s a1) := by
  unfold State.umbTake
  try dsimp -iota only
  repeat' first
    | with_reducible refine State.umbStage_keeps ?_ _
    | with_reducible refine Keeps.ite ?_ ?_
    | simp -iota -zeta -proj only [KeepsP.pair]
    | with_reducible refine KeepsP.ite ?_ ?_
    | simp only [Keeps.lit]
    | with_reducible assumption
    | with_reducible exact Keeps.refl _
    | split
    | dsimp only
theorem State.umbTake_keepsP {u s t : State} {v} {a1} (e : State.umbTake s a1 = (t, v)) (h : Keeps u s) : Keeps u t :=
  KeepsP.of_eq (State.umbTake_keeps h a1) e

theorem State.umbGo_keeps {u s : State} (h : Keeps u s) (a1) : Keeps u (State.umbGo s a1) := by
  unfold State.umbGo
  try dsimp -iota only
  repeat' first
    | with_reducible refine State.set_keeps ?_ _ _
    | with_reducible refine State.umbLose_keeps ?_ _
    | with_reducible refine State.umbBlanks_keeps ?_
    | with_reducible refine State.mramWord_keeps ?_ _ _
    | with_reducible refine State.umbTake_keeps ?_ _
    | with_reducible refine KeepsP.fst (State.umbTake_keeps ?_ _)
    | with_reducible refine State.umbTake_keepsP (by assumption) ?_
    | with_reducible refine Keeps.ite ?_ ?_
    | simp -iota -zeta -proj only [KeepsP.pair]
    | with_reducible refine KeepsP.ite ?_ ?_
    | with_reducible refine KeepsP.fst (KeepsP.ite ?_ ?_)
    | simp only [Keeps.lit]
    | with_reducible assumption
    | with_reducible exact Keeps.refl _
    | split
    | dsimp only

theorem State.umbDone_keeps {u s : State} (h : Keeps u s) : Keeps u (State.umbDone s) := by
  unfold State.umbDone
  try dsimp -iota only
  repeat' first
    | with_reducible refine State.set_keeps ?_ _ _
    | with_reducible refine State.inc_keeps ?_ _ _
    | with_reducible refine State.dec_keeps ?_ _ _
    | with_reducible refine State.set2_keeps ?_ _ _ _
    | with_reducible refine State.umbWrapped_keeps ?_
    | with_reducible refine State.umbFull_keeps ?_
    | with_reducible refine State.mramWord_keeps ?_ _ _
    | with_reducible refine Keeps.ite ?_ ?_
    | simp only [Keeps.lit]
    | with_reducible assumption
    | with_reducible exact Keeps.refl _
    | split
    | dsimp only

theorem State.umbGone_keeps {u s : State} (h : Keeps u s) (a1) : Keeps u (State.umbGone s a1) := by
  unfold State.umbGone
  try dsimp -iota only
  repeat' first
    | with_reducible refine State.inc_keeps ?_ _ _
    | with_reducible refine State.dec_keeps ?_ _ _
    | with_reducible refine State.set2_keeps ?_ _ _ _
    | with_reducible refine Keeps.ite ?_ ?_
    | simp only [Keeps.lit]
    | with_reducible assumption
    | with_reducible exact Keeps.refl _
    | split
    | dsimp only

theorem State.umbDamage_keeps {u s : State} (h : Keeps u s) (a1) : Keeps u (State.umbDamage s a1) := by
  unfold State.umbDamage
  try dsimp -iota only
  repeat' first
    | with_reducible refine State.incSat_keeps ?_ _ _
    | with_reducible refine State.umbBlanks_keeps ?_
    | with_reducible refine State.umbGone_keeps ?_ _
    | with_reducible refine Keeps.ite ?_ ?_
    | simp only [Keeps.lit]
    | with_reducible assumption
    | with_reducible exact Keeps.refl _
    | split
    | dsimp only

theorem State.umbCfgw_keeps {u s : State} (h : Keeps u s) (a1) : Keeps u (State.umbCfgw s a1) := by
  unfold State.umbCfgw
  try dsimp -iota only
  repeat' first
    | with_reducible refine State.set_keeps ?_ _ _
    | with_reducible refine Keeps.ite ?_ ?_
    | with_reducible assumption
    | with_reducible exact Keeps.refl _
    | split
    | dsimp only

theorem State.umbSummary_keeps {u s : State} (h : Keeps u s) : Keeps u (State.umbSummary s) := by
  unfold State.umbSummary
  try dsimp -iota only
  repeat' first
    | with_reducible refine State.note_keeps ?_ _ _ _ _ _
    | with_reducible refine Keeps.ite ?_ ?_
    | simp only [Keeps.lit]
    | with_reducible assumption
    | with_reducible exact Keeps.refl _
    | split
    | dsimp only

theorem State.sumMoved_keeps {u s : State} (h : Keeps u s) (a1) : Keeps u (State.sumMoved s a1) := by
  unfold State.sumMoved
  try dsimp -iota only
  repeat' first
    | with_reducible refine Keeps.ite ?_ ?_
    | simp only [Keeps.lit]
    | with_reducible assumption
    | with_reducible exact Keeps.refl _
    | split
    | dsimp only

theorem State.umbMsnap_keeps {u s : State} (h : Keeps u s) (a1) : Keeps u (State.umbMsnap s a1) := by
  unfold State.umbMsnap
  try dsimp -iota only
  repeat' first
    | with_reducible refine State.enqueue_keeps ?_ _
    | with_reducible refine Keeps.ite ?_ ?_
    | with_reducible refine Keeps.foldl ?_ _ _ (fun _ _ => ?_)
    | simp only [Keeps.lit]
    | with_reducible assumption
    | with_reducible exact Keeps.refl _
    | split
    | dsimp only

theorem State.noteEcc_keeps {u s : State} (h : Keeps u s) (a1) (a2) : Keeps u (State.noteEcc s a1 a2) := by
  unfold State.noteEcc
  try dsimp -iota only
  repeat' first
    | with_reducible refine State.note_keeps ?_ _ _ _ _ _
    | with_reducible refine State.umbDamage_keeps ?_ _
    | with_reducible refine Keeps.ite ?_ ?_
    | with_reducible assumption
    | with_reducible exact Keeps.refl _
    | split
    | dsimp only

theorem State.memRead_keeps {u s : State} (h : Keeps u s) (a1) (a2) (a3) : KeepsP u (State.memRead s a1 a2 a3) := by
  unfold State.memRead
  try dsimp -iota only
  repeat' first
    | with_reducible refine State.incSat_keeps ?_ _ _
    | with_reducible refine State.noteEcc_keeps ?_ _ _
    | with_reducible refine Keeps.ite ?_ ?_
    | simp -iota -zeta -proj only [KeepsP.pair]
    | with_reducible refine KeepsP.ite ?_ ?_
    | with_reducible assumption
    | with_reducible exact Keeps.refl _
    | split
    | dsimp only
theorem State.memRead_keepsP {u s t : State} {v} {a1} {a2} {a3} (e : State.memRead s a1 a2 a3 = (t, v)) (h : Keeps u s) : Keeps u t :=
  KeepsP.of_eq (State.memRead_keeps h a1 a2 a3) e

theorem State.memWrite_keeps {u s : State} (h : Keeps u s) (a1) (a2) (a3) (a4) : KeepsP u (State.memWrite s a1 a2 a3 a4) := by
  unfold State.memWrite
  try dsimp -iota only
  repeat' first
    | with_reducible refine State.incSat_keeps ?_ _ _
    | with_reducible refine State.poke_keeps ?_ _ _ _
    | with_reducible refine State.clrEcc_keeps ?_ _ _
    | with_reducible refine State.noteEcc_keeps ?_ _ _
    | with_reducible refine Keeps.ite ?_ ?_
    | simp -iota -zeta -proj only [KeepsP.pair]
    | with_reducible refine KeepsP.ite ?_ ?_
    | with_reducible assumption
    | with_reducible exact Keeps.refl _
    | split
    | dsimp only
theorem State.memWrite_keepsP {u s t : State} {v} {a1} {a2} {a3} {a4} (e : State.memWrite s a1 a2 a3 a4 = (t, v)) (h : Keeps u s) : Keeps u t :=
  KeepsP.of_eq (State.memWrite_keeps h a1 a2 a3 a4) e

theorem State.eccUpTo_keeps {u s : State} (h : Keeps u s) (l : List (Nat × Bool)) : Keeps u (s.eccUpTo l) := by
  induction l generalizing s with
  | nil => exact h
  | cons e l ih =>
    obtain ⟨a, b⟩ := e
    cases b with
    | false => exact ih (State.incSat_keeps h _ _)
    | true => exact State.noteEcc_keeps h _ _

theorem State.eccEach_keeps {u s : State} (h : Keeps u s) (l : List (Nat × Bool)) : Keeps u (s.eccEach l) := by
  induction l generalizing s with
  | nil => exact h
  | cons e l ih =>
    obtain ⟨a, b⟩ := e
    cases b with
    | false => exact ih (State.incSat_keeps h _ _)
    | true => exact ih (State.noteEcc_keeps h _ _)

theorem State.mramRead_keeps {u s : State} (h : Keeps u s) (a1) (a2) : Keeps u (State.mramRead s a1 a2) := by
  unfold State.mramRead
  try dsimp -iota only
  repeat' first
    | with_reducible refine State.eccUpTo_keeps ?_ _
    | with_reducible assumption
    | with_reducible exact Keeps.refl _

theorem State.umbRecovered_keeps {u s : State} (h : Keeps u s) (a1) : Keeps u (State.umbRecovered s a1) := by
  unfold State.umbRecovered
  try dsimp -iota only
  repeat' first
    | with_reducible refine State.set_keeps ?_ _ _
    | with_reducible refine State.umbScan_keeps ?_
    | with_reducible refine State.recoveryNote_keeps ?_ _
    | with_reducible refine State.eccEach_keeps ?_ _
    | with_reducible refine Keeps.ite ?_ ?_
    | with_reducible assumption
    | with_reducible exact Keeps.refl _
    | split
    | dsimp only

theorem State.memReadWords_keeps {u s : State} (h : Keeps u s) (a1) (a2) (a3) : KeepsP u (State.memReadWords s a1 a2 a3) := by
  induction a3 generalizing s a1 a2
  · exact h
  · rename_i ih
    have ihP := fun (s t : State) v a1 a2 (h : Keeps u s) (e : State.memReadWords s a1 a2 _ = (t, v)) => KeepsP.of_eq (ih h a1 a2) e
    unfold State.memReadWords
    try dsimp -iota only
    repeat' first
      | with_reducible refine ih ?_ _ _
      | with_reducible refine KeepsP.fst (ih ?_ _ _)
      | with_reducible refine ihP _ _ _ _ _ ?_ (by assumption)
      | with_reducible refine State.memRead_keeps ?_ _ _ _
      | with_reducible refine KeepsP.fst (State.memRead_keeps ?_ _ _ _)
      | with_reducible refine State.memRead_keepsP (by assumption) ?_
      | with_reducible refine Keeps.ite ?_ ?_
      | simp -iota -zeta -proj only [KeepsP.pair]
      | with_reducible refine KeepsP.ite ?_ ?_
      | with_reducible refine KeepsP.fst (KeepsP.ite ?_ ?_)
      | with_reducible assumption
      | with_reducible exact Keeps.refl _
      | split
      | dsimp only
theorem State.memReadWords_keepsP {u s t : State} {v} {a1} {a2} {a3} (e : State.memReadWords s a1 a2 a3 = (t, v)) (h : Keeps u s) : Keeps u t :=
  KeepsP.of_eq (State.memReadWords_keeps h a1 a2 a3) e

theorem State.memWriteWords_keeps {u s : State} (h : Keeps u s) (a1) (a2) (a3) : Keeps u (State.memWriteWords s a1 a2 a3) := by
  induction a3 generalizing s a1 a2
  · exact h
  · rename_i ih
    unfold State.memWriteWords
    try dsimp -iota only
    repeat' first
      | with_reducible refine ih ?_ _ _
      | with_reducible refine State.memWrite_keeps ?_ _ _ _ _
      | with_reducible refine KeepsP.fst (State.memWrite_keeps ?_ _ _ _ _)
      | with_reducible refine State.memWrite_keepsP (by assumption) ?_
      | with_reducible refine Keeps.ite ?_ ?_
      | simp -iota -zeta -proj only [KeepsP.pair]
      | with_reducible refine KeepsP.ite ?_ ?_
      | with_reducible refine KeepsP.fst (KeepsP.ite ?_ ?_)
      | with_reducible assumption
      | with_reducible exact Keeps.refl _
      | split
      | dsimp only

theorem State.dspLandOne_keeps {u s : State} (h : Keeps u s) (a1) (a2) : Keeps u (State.dspLandOne s a1 a2) := by
  unfold State.dspLandOne
  try dsimp -iota only
  repeat' first
    | with_reducible refine State.setDsp_keeps ?_ _ _
    | with_reducible refine State.memWrite_keeps ?_ _ _ _ _
    | with_reducible refine KeepsP.fst (State.memWrite_keeps ?_ _ _ _ _)
    | with_reducible refine State.memWrite_keepsP (by assumption) ?_
    | with_reducible refine Keeps.ite ?_ ?_
    | simp -iota -zeta -proj only [KeepsP.pair]
    | with_reducible refine KeepsP.ite ?_ ?_
    | with_reducible refine KeepsP.fst (KeepsP.ite ?_ ?_)
    | with_reducible assumption
    | with_reducible exact Keeps.refl _
    | split
    | dsimp only

theorem State.dspLandIf_keeps {u s : State} (h : Keeps u s) (a1) (a2) : Keeps u (State.dspLandIf s a1 a2) := by
  unfold State.dspLandIf
  try dsimp -iota only
  repeat' first
    | with_reducible refine State.setDsp_keeps ?_ _ _
    | with_reducible refine State.dspLandOne_keeps ?_ _ _
    | with_reducible refine Keeps.ite ?_ ?_
    | with_reducible refine Keeps.foldl ?_ _ _ (fun _ _ => ?_)
    | simp only [Keeps.lit]
    | with_reducible assumption
    | with_reducible exact Keeps.refl _
    | split
    | dsimp only

theorem State.dspLand_keeps {u s : State} (h : Keeps u s) (a1) : Keeps u (State.dspLand s a1) := by
  unfold State.dspLand
  try dsimp -iota only
  repeat' first
    | with_reducible refine State.setDsp_keeps ?_ _ _
    | with_reducible refine State.dspLandIf_keeps ?_ _ _
    | with_reducible refine Keeps.ite ?_ ?_
    | simp only [Keeps.lit]
    | with_reducible assumption
    | with_reducible exact Keeps.refl _
    | split
    | dsimp only

theorem State.dspDrain_keeps {u s : State} (h : Keeps u s) (a1) : Keeps u (State.dspDrain s a1) := by
  unfold State.dspDrain
  try dsimp -iota only
  repeat' first
    | with_reducible refine State.setDsp_keeps ?_ _ _
    | with_reducible refine State.dspLandIf_keeps ?_ _ _
    | with_reducible refine Keeps.ite ?_ ?_
    | simp only [Keeps.lit]
    | with_reducible assumption
    | with_reducible exact Keeps.refl _
    | split
    | dsimp only

theorem State.dspStoresLand_keeps {u s : State} (h : Keeps u s) (a1) : Keeps u (State.dspStoresLand s a1) := by
  unfold State.dspStoresLand
  try dsimp -iota only
  repeat' first
    | with_reducible refine State.setDsp_keeps ?_ _ _
    | with_reducible refine State.dspLandIf_keeps ?_ _ _
    | with_reducible refine Keeps.ite ?_ ?_
    | with_reducible refine Keeps.foldl ?_ _ _ (fun _ _ => ?_)
    | with_reducible assumption
    | with_reducible exact Keeps.refl _
    | split
    | dsimp only

theorem State.dspEnter_keeps {u s : State} (h : Keeps u s) (a1) (a2) : Keeps u (State.dspEnter s a1 a2) := by
  unfold State.dspEnter
  try dsimp -iota only
  repeat' first
    | with_reducible refine State.set_keeps ?_ _ _
    | with_reducible refine State.setDsp_keeps ?_ _ _
    | with_reducible refine Keeps.ite ?_ ?_
    | simp only [Keeps.lit]
    | with_reducible assumption
    | with_reducible exact Keeps.refl _
    | split
    | dsimp only

theorem State.dspPass_keeps {u s : State} (h : Keeps u s) (a1) (a2) (a3) : Keeps u (State.dspPass s a1 a2 a3) := by
  unfold State.dspPass
  try dsimp -iota only
  repeat' first
    | with_reducible refine State.set_keeps ?_ _ _
    | with_reducible refine State.inc_keeps ?_ _ _
    | with_reducible refine State.setDsp_keeps ?_ _ _
    | with_reducible refine Keeps.ite ?_ ?_
    | simp only [Keeps.lit]
    | with_reducible assumption
    | with_reducible exact Keeps.refl _
    | split
    | dsimp only

theorem State.dspCycles_keeps {u s : State} (h : Keeps u s) (a1) (a2) : Keeps u (State.dspCycles s a1 a2) := by
  unfold State.dspCycles
  try dsimp -iota only
  repeat' first
    | with_reducible refine State.dspPass_keeps ?_ _ _ _
    | with_reducible refine Keeps.ite ?_ ?_
    | with_reducible assumption
    | with_reducible exact Keeps.refl _
    | split
    | dsimp only

theorem State.dspEnterHandler_keeps {u s : State} (h : Keeps u s) (a1) (a2) (a3) (a4) : Keeps u (State.dspEnterHandler s a1 a2 a3 a4) := by
  unfold State.dspEnterHandler
  try dsimp -iota only
  repeat' first
    | with_reducible refine State.setDsp_keeps ?_ _ _
    | with_reducible refine State.dspDrain_keeps ?_ _
    | with_reducible refine State.dspEnter_keeps ?_ _ _
    | with_reducible refine Keeps.ite ?_ ?_
    | simp only [Keeps.lit]
    | with_reducible assumption
    | with_reducible exact Keeps.refl _
    | split
    | dsimp only

theorem State.dspFaultHalt_keeps {u s : State} (h : Keeps u s) (a1) : Keeps u (State.dspFaultHalt s a1) := by
  unfold State.dspFaultHalt
  try dsimp -iota only
  repeat' first
    | with_reducible refine State.set_keeps ?_ _ _
    | with_reducible refine State.setDsp_keeps ?_ _ _
    | with_reducible refine State.note_keeps ?_ _ _ _ _ _
    | with_reducible refine State.dspDrain_keeps ?_ _
    | with_reducible refine State.dspEnter_keeps ?_ _ _
    | with_reducible refine Keeps.ite ?_ ?_
    | simp only [Keeps.lit]
    | with_reducible assumption
    | with_reducible exact Keeps.refl _
    | split
    | dsimp only

theorem State.dspFault_keeps {u s : State} (h : Keeps u s) (a1) (a2) (a3) (a4) (a5) : Keeps u (State.dspFault s a1 a2 a3 a4 a5) := by
  unfold State.dspFault
  try dsimp -iota only
  repeat' first
    | with_reducible refine State.set_keeps ?_ _ _
    | with_reducible refine State.dspEnterHandler_keeps ?_ _ _ _ _
    | with_reducible refine State.dspFaultHalt_keeps ?_ _
    | with_reducible refine Keeps.ite ?_ ?_
    | with_reducible assumption
    | with_reducible exact Keeps.refl _
    | split
    | dsimp only

theorem State.dspReset_keeps {u s : State} (h : Keeps u s) (a1) : Keeps u (State.dspReset s a1) := by
  unfold State.dspReset
  try dsimp -iota only
  repeat' first
    | with_reducible refine State.set_keeps ?_ _ _
    | with_reducible refine State.setDsp_keeps ?_ _ _
    | with_reducible refine State.dspStoresLand_keeps ?_ _
    | with_reducible refine State.dspEnter_keeps ?_ _ _
    | with_reducible refine Keeps.ite ?_ ?_
    | simp only [Keeps.lit]
    | with_reducible assumption
    | with_reducible exact Keeps.refl _
    | split
    | dsimp only

theorem State.dspRunBit_keeps {u s : State} (h : Keeps u s) (a1) (a2) : Keeps u (State.dspRunBit s a1 a2) := by
  unfold State.dspRunBit
  try dsimp -iota only
  repeat' first
    | with_reducible refine State.set_keeps ?_ _ _
    | with_reducible refine State.setDsp_keeps ?_ _ _
    | with_reducible refine State.dspDrain_keeps ?_ _
    | with_reducible refine State.dspEnter_keeps ?_ _ _
    | with_reducible refine Keeps.ite ?_ ?_
    | simp only [Keeps.lit]
    | with_reducible assumption
    | with_reducible exact Keeps.refl _
    | split
    | dsimp only

theorem State.dspCtl_keeps {u s : State} (h : Keeps u s) (a1) (a2) (a3) : Keeps u (State.dspCtl s a1 a2 a3) := by
  unfold State.dspCtl
  try dsimp -iota only
  repeat' first
    | with_reducible refine State.set_keeps ?_ _ _
    | with_reducible refine State.setB_keeps ?_ _ _
    | with_reducible refine State.setDsp_keeps ?_ _ _
    | with_reducible refine State.dspReset_keeps ?_ _
    | with_reducible refine State.dspRunBit_keeps ?_ _ _
    | with_reducible refine Keeps.ite ?_ ?_
    | simp only [Keeps.lit]
    | with_reducible assumption
    | with_reducible exact Keeps.refl _
    | split
    | dsimp only

theorem State.dspStop_keeps {u s : State} (h : Keeps u s) (a1) : Keeps u (State.dspStop s a1) := by
  unfold State.dspStop
  try dsimp -iota only
  repeat' first
    | with_reducible refine State.setDsp_keeps ?_ _ _
    | with_reducible refine State.dspDrain_keeps ?_ _
    | with_reducible refine State.dspEnter_keeps ?_ _ _
    | with_reducible refine Keeps.ite ?_ ?_
    | simp only [Keeps.lit]
    | with_reducible assumption
    | with_reducible exact Keeps.refl _
    | split
    | dsimp only

theorem State.dspGo_keeps {u s : State} (h : Keeps u s) (a1) : Keeps u (State.dspGo s a1) := by
  unfold State.dspGo
  try dsimp -iota only
  repeat' first
    | with_reducible refine State.setDsp_keeps ?_ _ _
    | with_reducible refine State.dspEnter_keeps ?_ _ _
    | with_reducible refine Keeps.ite ?_ ?_
    | simp only [Keeps.lit]
    | with_reducible assumption
    | with_reducible exact Keeps.refl _
    | split
    | dsimp only

theorem State.dspRate_keeps {u s : State} (h : Keeps u s) (a1) : Keeps u (State.dspRate s a1) := by
  unfold State.dspRate
  try dsimp -iota only
  repeat' first
    | with_reducible refine State.setDsp_keeps ?_ _ _
    | with_reducible refine Keeps.ite ?_ ?_
    | simp only [Keeps.lit]
    | with_reducible assumption
    | with_reducible exact Keeps.refl _
    | split
    | dsimp only

theorem State.dspGroup_keeps {u s : State} (h : Keeps u s) (a1) : Keeps u (State.dspGroup s a1) := by
  unfold State.dspGroup
  try dsimp -iota only
  repeat' first
    | with_reducible refine State.each_keeps ?_ _ _ (fun _ _ => ?_)
    | with_reducible refine State.dspReset_keeps ?_ _
    | with_reducible refine State.dspStop_keeps ?_ _
    | with_reducible refine State.dspGo_keeps ?_ _
    | with_reducible refine State.dspRate_keeps ?_ _
    | with_reducible refine Keeps.ite ?_ ?_
    | with_reducible assumption
    | with_reducible exact Keeps.refl _
    | split
    | dsimp only

theorem State.dspWatchdog_keeps {u s : State} (h : Keeps u s) (a1) : Keeps u (State.dspWatchdog s a1) := by
  unfold State.dspWatchdog
  try dsimp -iota only
  repeat' first
    | with_reducible refine State.set_keeps ?_ _ _
    | with_reducible refine State.dspFaultHalt_keeps ?_ _
    | with_reducible refine Keeps.ite ?_ ?_
    | with_reducible assumption
    | with_reducible exact Keeps.refl _
    | split
    | dsimp only

theorem State.dspTimer_keeps {u s : State} (h : Keeps u s) (a1) : Keeps u (State.dspTimer s a1) := by
  unfold State.dspTimer
  try dsimp -iota only
  repeat' first
    | with_reducible refine State.set_keeps ?_ _ _
    | with_reducible refine State.dspCycles_keeps ?_ _ _
    | with_reducible refine Keeps.ite ?_ ?_
    | with_reducible assumption
    | with_reducible exact Keeps.refl _
    | split
    | dsimp only

theorem State.dspRest_keeps {u s : State} (h : Keeps u s) (a1) : Keeps u (State.dspRest s a1) := by
  unfold State.dspRest
  try dsimp -iota only
  repeat' first
    | with_reducible refine State.setDsp_keeps ?_ _ _
    | with_reducible refine State.draw_keeps ?_ _
    | with_reducible refine KeepsP.fst (State.draw_keeps ?_ _)
    | with_reducible refine State.draw_keepsP (by assumption) ?_
    | with_reducible refine State.dspPass_keeps ?_ _ _ _
    | with_reducible refine State.dspRate_keeps ?_ _
    | with_reducible refine Keeps.ite ?_ ?_
    | simp -iota -zeta -proj only [KeepsP.pair]
    | with_reducible refine KeepsP.ite ?_ ?_
    | with_reducible refine KeepsP.fst (KeepsP.ite ?_ ?_)
    | simp only [Keeps.lit]
    | with_reducible assumption
    | with_reducible exact Keeps.refl _
    | split
    | dsimp only

theorem State.dspEpoch_keeps {u s : State} (h : Keeps u s) (a1) : Keeps u (State.dspEpoch s a1) := by
  unfold State.dspEpoch
  try dsimp -iota only
  repeat' first
    | with_reducible refine State.set_keeps ?_ _ _
    | with_reducible refine State.inc_keeps ?_ _ _
    | with_reducible refine State.dspRest_keeps ?_ _
    | with_reducible refine Keeps.ite ?_ ?_
    | with_reducible assumption
    | with_reducible exact Keeps.refl _
    | split
    | dsimp only

theorem State.genBlock_keeps {u s : State} (h : Keeps u s) (a1) (a2) (a3) : KeepsP u (State.genBlock s a1 a2 a3) := by
  unfold State.genBlock
  try dsimp -iota only
  repeat' first
    | with_reducible refine State.memReadWords_keeps ?_ _ _ _
    | with_reducible refine KeepsP.fst (State.memReadWords_keeps ?_ _ _ _)
    | with_reducible refine State.memReadWords_keepsP (by assumption) ?_
    | with_reducible refine Keeps.ite ?_ ?_
    | simp -iota -zeta -proj only [KeepsP.pair]
    | with_reducible refine KeepsP.ite ?_ ?_
    | with_reducible refine KeepsP.fst (KeepsP.ite ?_ ?_)
    | with_reducible assumption
    | with_reducible exact Keeps.refl _
    | split
    | dsimp only
theorem State.genBlock_keepsP {u s t : State} {v} {a1} {a2} {a3} (e : State.genBlock s a1 a2 a3 = (t, v)) (h : Keeps u s) : Keeps u t :=
  KeepsP.of_eq (State.genBlock_keeps h a1 a2 a3) e

theorem State.genBlocks_keeps {u s : State} (h : Keeps u s) (a1) (a2) (a3) : KeepsP u (State.genBlocks s a1 a2 a3) := by
  induction a3 generalizing s a1 a2
  · exact h
  · rename_i ih
    have ihP := fun (s t : State) v a1 a2 (h : Keeps u s) (e : State.genBlocks s a1 a2 _ = (t, v)) => KeepsP.of_eq (ih h a1 a2) e
    unfold State.genBlocks
    try dsimp -iota only
    repeat' first
      | with_reducible refine ih ?_ _ _
      | with_reducible refine KeepsP.fst (ih ?_ _ _)
      | with_reducible refine ihP _ _ _ _ _ ?_ (by assumption)
      | with_reducible refine State.genBlock_keeps ?_ _ _ _
      | with_reducible refine KeepsP.fst (State.genBlock_keeps ?_ _ _ _)
      | with_reducible refine State.genBlock_keepsP (by assumption) ?_
      | with_reducible refine Keeps.ite ?_ ?_
      | simp -iota -zeta -proj only [KeepsP.pair]
      | with_reducible refine KeepsP.ite ?_ ?_
      | with_reducible refine KeepsP.fst (KeepsP.ite ?_ ?_)
      | with_reducible assumption
      | with_reducible exact Keeps.refl _
      | split
      | dsimp only
theorem State.genBlocks_keepsP {u s t : State} {v} {a1} {a2} {a3} (e : State.genBlocks s a1 a2 a3 = (t, v)) (h : Keeps u s) : Keeps u t :=
  KeepsP.of_eq (State.genBlocks_keeps h a1 a2 a3) e

theorem State.genLoad_keeps {u s : State} (h : Keeps u s) (a1) (a2) (a3) (a4) : KeepsP u (State.genLoad s a1 a2 a3 a4) := by
  unfold State.genLoad
  try dsimp -iota only
  repeat' first
    | with_reducible refine State.memReadWords_keeps ?_ _ _ _
    | with_reducible refine KeepsP.fst (State.memReadWords_keeps ?_ _ _ _)
    | with_reducible refine State.memReadWords_keepsP (by assumption) ?_
    | with_reducible refine State.genBlocks_keeps ?_ _ _ _
    | with_reducible refine KeepsP.fst (State.genBlocks_keeps ?_ _ _ _)
    | with_reducible refine State.genBlocks_keepsP (by assumption) ?_
    | with_reducible refine Keeps.ite ?_ ?_
    | simp -iota -zeta -proj only [KeepsP.pair]
    | with_reducible refine KeepsP.ite ?_ ?_
    | with_reducible refine KeepsP.fst (KeepsP.ite ?_ ?_)
    | simp only [Keeps.lit]
    | with_reducible assumption
    | with_reducible exact Keeps.refl _
    | split
    | dsimp only
theorem State.genLoad_keepsP {u s t : State} {v} {a1} {a2} {a3} {a4} (e : State.genLoad s a1 a2 a3 a4 = (t, v)) (h : Keeps u s) : Keeps u t :=
  KeepsP.of_eq (State.genLoad_keeps h a1 a2 a3 a4) e

theorem State.genMove_keeps {u s : State} (h : Keeps u s) (a1) (a2) (a3) (a4) : KeepsP u (State.genMove s a1 a2 a3 a4) := by
  unfold State.genMove
  try dsimp -iota only
  repeat' first
    | with_reducible refine State.genBlock_keeps ?_ _ _ _
    | with_reducible refine KeepsP.fst (State.genBlock_keeps ?_ _ _ _)
    | with_reducible refine State.genBlock_keepsP (by assumption) ?_
    | with_reducible refine Keeps.ite ?_ ?_
    | simp -iota -zeta -proj only [KeepsP.pair]
    | with_reducible refine KeepsP.ite ?_ ?_
    | with_reducible refine KeepsP.fst (KeepsP.ite ?_ ?_)
    | simp only [Keeps.lit]
    | with_reducible assumption
    | with_reducible exact Keeps.refl _
    | split
    | dsimp only
theorem State.genMove_keepsP {u s t : State} {v} {a1} {a2} {a3} {a4} (e : State.genMove s a1 a2 a3 a4 = (t, v)) (h : Keeps u s) : Keeps u t :=
  KeepsP.of_eq (State.genMove_keeps h a1 a2 a3 a4) e

end Sys2Proof.Machine
end

