-- ==== Sys2Proof/Laws/KeepsEng.lean ====
section
/-! SUPPORT. What every operation keeps, one lemma an operation. Engines, clusters, the snapshot memory, event lines and the always-on domain. -/

namespace Sys2Proof.Machine

set_option linter.unusedVariables false
set_option Elab.async false

theorem State.engPut_keeps {u s : State} (h : Keeps u s) (a1) (a2) : Keeps u (State.engPut s a1 a2) := by
  unfold State.engPut
  try dsimp -iota only
  repeat' first
    | with_reducible refine State.set_keeps ?_ _ _
    | with_reducible refine State.setB_keeps ?_ _ _
    | with_reducible refine State.setEng_keeps ?_ _ _
    | with_reducible assumption
    | with_reducible exact Keeps.refl _

theorem State.engEnter_keeps {u s : State} (h : Keeps u s) (a1) (a2) : Keeps u (State.engEnter s a1 a2) := by
  unfold State.engEnter
  try dsimp -iota only
  repeat' first
    | with_reducible refine State.set_keeps ?_ _ _
    | with_reducible assumption
    | with_reducible exact Keeps.refl _

theorem State.eachEng_keeps {u s : State} (h : Keeps u s) (a1) (a2) (h2 : ∀ x0 s, Keeps s (a2 x0 s)) : Keeps u (State.eachEng s a1 a2) := by
  unfold State.eachEng
  try dsimp -iota only
  repeat' first
    | with_reducible refine State.each_keeps ?_ _ _ (fun _ _ => ?_)
    | with_reducible refine Keeps.trans ?_ (h2 _ _)
    | with_reducible refine Keeps.ite ?_ ?_
    | with_reducible assumption
    | with_reducible exact Keeps.refl _
    | split
    | dsimp only

theorem State.tokBack_keeps {u s : State} (h : Keeps u s) (a1) (a2) : Keeps u (State.tokBack s a1 a2) := by
  unfold State.tokBack
  try dsimp -iota only
  repeat' first
    | with_reducible refine State.inc_keeps ?_ _ _
    | with_reducible assumption
    | with_reducible exact Keeps.refl _

theorem State.handBack_keeps {u s : State} (h : Keeps u s) (a1) (a2) : Keeps u (State.handBack s a1 a2) := by
  unfold State.handBack
  try dsimp -iota only
  repeat' first
    | with_reducible refine State.setChan_keeps ?_ _ _
    | with_reducible refine Keeps.ite ?_ ?_
    | simp only [Keeps.lit]
    | with_reducible assumption
    | with_reducible exact Keeps.refl _
    | split
    | dsimp only

theorem State.migAbort_keeps {u s : State} (h : Keeps u s) (a1) : Keeps u (State.migAbort s a1) := by
  unfold State.migAbort
  try dsimp -iota only
  repeat' first
    | with_reducible refine State.set_keeps ?_ _ _
    | with_reducible refine State.setEng_keeps ?_ _ _
    | with_reducible refine State.engPut_keeps ?_ _ _
    | with_reducible refine State.engEnter_keeps ?_ _ _
    | with_reducible refine State.tokBack_keeps ?_ _ _
    | with_reducible refine State.handBack_keeps ?_ _ _
    | with_reducible refine Keeps.ite ?_ ?_
    | simp only [Keeps.lit]
    | with_reducible assumption
    | with_reducible exact Keeps.refl _
    | split
    | dsimp only

theorem State.engCancel_keeps {u s : State} (h : Keeps u s) (a1) : Keeps u (State.engCancel s a1) := by
  unfold State.engCancel
  try dsimp -iota only
  repeat' first
    | with_reducible refine State.set_keeps ?_ _ _
    | with_reducible refine State.engPut_keeps ?_ _ _
    | with_reducible refine State.tokBack_keeps ?_ _ _
    | with_reducible refine State.migAbort_keeps ?_ _
    | with_reducible refine Keeps.ite ?_ ?_
    | simp only [Keeps.lit]
    | with_reducible assumption
    | with_reducible exact Keeps.refl _
    | split
    | dsimp only

theorem State.engFault_keeps {u s : State} (h : Keeps u s) (a1) (a2) : Keeps u (State.engFault s a1 a2) := by
  unfold State.engFault
  try dsimp -iota only
  repeat' first
    | with_reducible refine State.set_keeps ?_ _ _
    | with_reducible refine State.engPut_keeps ?_ _ _
    | with_reducible refine State.tokBack_keeps ?_ _ _
    | with_reducible refine State.migAbort_keeps ?_ _
    | with_reducible refine Keeps.ite ?_ ?_
    | simp only [Keeps.lit]
    | with_reducible assumption
    | with_reducible exact Keeps.refl _
    | split
    | dsimp only

theorem State.engReload_keeps {u s : State} (h : Keeps u s) (a1) : KeepsP u (State.engReload s a1) := by
  unfold State.engReload
  try dsimp -iota only
  repeat' first
    | with_reducible refine State.setEng_keeps ?_ _ _
    | with_reducible refine State.genLoad_keeps ?_ _ _ _ _
    | with_reducible refine KeepsP.fst (State.genLoad_keeps ?_ _ _ _ _)
    | with_reducible refine State.genLoad_keepsP (by assumption) ?_
    | with_reducible refine Keeps.ite ?_ ?_
    | simp -iota -zeta -proj only [KeepsP.pair]
    | with_reducible refine KeepsP.ite ?_ ?_
    | with_reducible refine KeepsP.fst (KeepsP.ite ?_ ?_)
    | simp only [Keeps.lit]
    | with_reducible assumption
    | with_reducible exact Keeps.refl _
    | split
    | dsimp only
theorem State.engReload_keepsP {u s t : State} {v} {a1} (e : State.engReload s a1 = (t, v)) (h : Keeps u s) : Keeps u t :=
  KeepsP.of_eq (State.engReload_keeps h a1) e

theorem State.refillTime_keeps {u s : State} (h : Keeps u s) (a1) (a2) (a3) (a4) : KeepsP u (State.refillTime s a1 a2 a3 a4) := by
  unfold State.refillTime
  try dsimp -iota only
  repeat' first
    | with_reducible refine State.draw_keeps ?_ _
    | with_reducible refine KeepsP.fst (State.draw_keeps ?_ _)
    | with_reducible refine State.draw_keepsP (by assumption) ?_
    | with_reducible refine Keeps.ite ?_ ?_
    | simp -iota -zeta -proj only [KeepsP.pair]
    | with_reducible refine KeepsP.ite ?_ ?_
    | with_reducible refine KeepsP.fst (KeepsP.ite ?_ ?_)
    | with_reducible assumption
    | with_reducible exact Keeps.refl _
    | split
    | dsimp only
theorem State.refillTime_keepsP {u s t : State} {v} {a1} {a2} {a3} {a4} (e : State.refillTime s a1 a2 a3 a4 = (t, v)) (h : Keeps u s) : Keeps u t :=
  KeepsP.of_eq (State.refillTime_keeps h a1 a2 a3 a4) e

theorem State.engRefillIf_keeps {u s : State} (h : Keeps u s) (a1) (a2) (a3) : Keeps u (State.engRefillIf s a1 a2 a3) := by
  unfold State.engRefillIf
  try dsimp -iota only
  repeat' first
    | with_reducible refine State.setEng_keeps ?_ _ _
    | with_reducible refine State.engFault_keeps ?_ _ _
    | with_reducible refine State.engReload_keeps ?_ _
    | with_reducible refine KeepsP.fst (State.engReload_keeps ?_ _)
    | with_reducible refine State.engReload_keepsP (by assumption) ?_
    | with_reducible refine State.refillTime_keeps ?_ _ _ _ _
    | with_reducible refine KeepsP.fst (State.refillTime_keeps ?_ _ _ _ _)
    | with_reducible refine State.refillTime_keepsP (by assumption) ?_
    | with_reducible refine Keeps.ite ?_ ?_
    | simp -iota -zeta -proj only [KeepsP.pair]
    | with_reducible refine KeepsP.ite ?_ ?_
    | with_reducible refine KeepsP.fst (KeepsP.ite ?_ ?_)
    | simp only [Keeps.lit]
    | with_reducible assumption
    | with_reducible exact Keeps.refl _
    | split
    | dsimp only

theorem State.engRefill_keeps {u s : State} (h : Keeps u s) (a1) : Keeps u (State.engRefill s a1) := by
  unfold State.engRefill
  try dsimp -iota only
  repeat' first
    | with_reducible refine State.engRefillIf_keeps ?_ _ _ _
    | with_reducible refine Keeps.ite ?_ ?_
    | with_reducible assumption
    | with_reducible exact Keeps.refl _
    | split
    | dsimp only

theorem State.refillLeft_keeps {u s : State} (h : Keeps u s) (a1) (a2) : Keeps u (State.refillLeft s a1 a2) := by
  unfold State.refillLeft
  try dsimp -iota only
  repeat' first
    | with_reducible refine State.setEng_keeps ?_ _ _
    | with_reducible refine State.draw_keeps ?_ _
    | with_reducible refine KeepsP.fst (State.draw_keeps ?_ _)
    | with_reducible refine State.draw_keepsP (by assumption) ?_
    | with_reducible refine Keeps.ite ?_ ?_
    | simp -iota -zeta -proj only [KeepsP.pair]
    | with_reducible refine KeepsP.ite ?_ ?_
    | with_reducible refine KeepsP.fst (KeepsP.ite ?_ ?_)
    | simp only [Keeps.lit]
    | with_reducible assumption
    | with_reducible exact Keeps.refl _
    | split
    | dsimp only

theorem State.engApplySet_keeps {u s : State} (h : Keeps u s) (a1) (a2) : Keeps u (State.engApplySet s a1 a2) := by
  unfold State.engApplySet
  try dsimp -iota only
  repeat' first
    | with_reducible refine State.engPut_keeps ?_ _ _
    | with_reducible refine State.engRefill_keeps ?_ _
    | with_reducible refine Keeps.ite ?_ ?_
    | simp only [Keeps.lit]
    | with_reducible assumption
    | with_reducible exact Keeps.refl _
    | split
    | dsimp only

theorem State.engCommit_keeps {u s : State} (h : Keeps u s) (a1) (a2) : Keeps u (State.engCommit s a1 a2) := by
  unfold State.engCommit
  try dsimp -iota only
  repeat' first
    | with_reducible refine State.set_keeps ?_ _ _
    | with_reducible refine State.engPut_keeps ?_ _ _
    | with_reducible refine Keeps.ite ?_ ?_
    | simp only [Keeps.lit]
    | with_reducible assumption
    | with_reducible exact Keeps.refl _
    | split
    | dsimp only

theorem State.engApply_keeps {u s : State} (h : Keeps u s) (a1) : Keeps u (State.engApply s a1) := by
  unfold State.engApply
  try dsimp -iota only
  repeat' first
    | with_reducible refine State.engPut_keeps ?_ _ _
    | with_reducible refine State.engApplySet_keeps ?_ _ _
    | with_reducible refine Keeps.ite ?_ ?_
    | simp only [Keeps.lit]
    | with_reducible assumption
    | with_reducible exact Keeps.refl _
    | split
    | dsimp only

theorem State.engSettle_keeps {u s : State} (h : Keeps u s) (a1) : Keeps u (State.engSettle s a1) := by
  unfold State.engSettle
  try dsimp -iota only
  repeat' first
    | with_reducible refine State.engFault_keeps ?_ _ _
    | with_reducible refine Keeps.ite ?_ ?_
    | with_reducible assumption
    | with_reducible exact Keeps.refl _
    | split
    | dsimp only

theorem State.engGoto_keeps {u s : State} (h : Keeps u s) (a1) (a2) : Keeps u (State.engGoto s a1 a2) := by
  unfold State.engGoto
  try dsimp -iota only
  repeat' first
    | with_reducible refine State.setEng_keeps ?_ _ _
    | with_reducible refine State.engSettle_keeps ?_ _
    | with_reducible refine Keeps.ite ?_ ?_
    | simp only [Keeps.lit]
    | with_reducible assumption
    | with_reducible exact Keeps.refl _
    | split
    | dsimp only

theorem State.engNext_keeps {u s : State} (h : Keeps u s) (a1) : Keeps u (State.engNext s a1) := by
  unfold State.engNext
  try dsimp -iota only
  repeat' first
    | with_reducible refine State.engGoto_keeps ?_ _ _
    | with_reducible refine Keeps.ite ?_ ?_
    | with_reducible assumption
    | with_reducible exact Keeps.refl _
    | split
    | dsimp only

theorem State.dwellExec_keeps {u s : State} (h : Keeps u s) (a1) (a2) (a3) (h3 : ∀ x0 s, Keeps s (a3 x0 s)) : Keeps u (State.dwellExec s a1 a2 a3) := by
  unfold State.dwellExec
  try dsimp -iota only
  repeat' first
    | with_reducible refine Keeps.trans ?_ (h3 _ _)
    | with_reducible refine Keeps.ite ?_ ?_
    | with_reducible assumption
    | with_reducible exact Keeps.refl _
    | split
    | dsimp only

theorem State.engQueue_keeps {u s : State} (h : Keeps u s) (a1) (a2) : Keeps u (State.engQueue s a1 a2) := by
  unfold State.engQueue
  try dsimp -iota only
  repeat' first
    | with_reducible refine State.set_keeps ?_ _ _
    | with_reducible refine State.dec_keeps ?_ _ _
    | with_reducible refine State.engPut_keeps ?_ _ _
    | with_reducible refine Keeps.ite ?_ ?_
    | simp only [Keeps.lit]
    | with_reducible assumption
    | with_reducible exact Keeps.refl _
    | split
    | dsimp only

theorem State.dwellLoad_keeps {u s : State} (h : Keeps u s) (a1) (a2) : KeepsP u (State.dwellLoad s a1 a2) := by
  unfold State.dwellLoad
  try dsimp -iota only
  repeat' first
    | with_reducible refine State.memReadWords_keeps ?_ _ _ _
    | with_reducible refine KeepsP.fst (State.memReadWords_keeps ?_ _ _ _)
    | with_reducible refine State.memReadWords_keepsP (by assumption) ?_
    | with_reducible refine Keeps.ite ?_ ?_
    | simp -iota -zeta -proj only [KeepsP.pair]
    | with_reducible refine KeepsP.ite ?_ ?_
    | with_reducible refine KeepsP.fst (KeepsP.ite ?_ ?_)
    | with_reducible assumption
    | with_reducible exact Keeps.refl _
    | split
    | dsimp only
theorem State.dwellLoad_keepsP {u s t : State} {v} {a1} {a2} (e : State.dwellLoad s a1 a2 = (t, v)) (h : Keeps u s) : Keeps u t :=
  KeepsP.of_eq (State.dwellLoad_keeps h a1 a2) e

theorem State.engBegin_keeps {u s : State} (h : Keeps u s) (a1) : Keeps u (State.engBegin s a1) := by
  unfold State.engBegin
  try dsimp -iota only
  repeat' first
    | with_reducible refine State.setEng_keeps ?_ _ _
    | with_reducible refine State.engPut_keeps ?_ _ _
    | with_reducible refine State.engFault_keeps ?_ _ _
    | with_reducible refine State.engReload_keeps ?_ _
    | with_reducible refine KeepsP.fst (State.engReload_keeps ?_ _)
    | with_reducible refine State.engReload_keepsP (by assumption) ?_
    | with_reducible refine State.engSettle_keeps ?_ _
    | with_reducible refine State.dwellLoad_keeps ?_ _ _
    | with_reducible refine KeepsP.fst (State.dwellLoad_keeps ?_ _ _)
    | with_reducible refine State.dwellLoad_keepsP (by assumption) ?_
    | with_reducible refine Keeps.ite ?_ ?_
    | simp -iota -zeta -proj only [KeepsP.pair]
    | with_reducible refine KeepsP.ite ?_ ?_
    | with_reducible refine KeepsP.fst (KeepsP.ite ?_ ?_)
    | simp only [Keeps.lit]
    | with_reducible assumption
    | with_reducible exact Keeps.refl _
    | split
    | dsimp only

theorem State.dwellStart_keeps {u s : State} (h : Keeps u s) (a1) : Keeps u (State.dwellStart s a1) := by
  unfold State.dwellStart
  try dsimp -iota only
  repeat' first
    | with_reducible refine State.engBegin_keeps ?_ _
    | with_reducible refine Keeps.ite ?_ ?_
    | with_reducible assumption
    | with_reducible exact Keeps.refl _
    | split
    | dsimp only

theorem dwellActAbase_keeps {u s : State} (h : Keeps u s) (a0) (a1) : Keeps u (dwellActAbase a0 a1 s) := by
  unfold dwellActAbase
  try dsimp -iota only
  repeat' first
    | with_reducible refine State.setEng_keeps ?_ _ _
    | with_reducible refine State.engNext_keeps ?_ _
    | simp only [Keeps.lit]
    | with_reducible assumption
    | with_reducible exact Keeps.refl _

theorem dwellActAofs_keeps {u s : State} (h : Keeps u s) (a0) (a1) : Keeps u (dwellActAofs a0 a1 s) := by
  unfold dwellActAofs
  try dsimp -iota only
  repeat' first
    | with_reducible refine State.setEng_keeps ?_ _ _
    | with_reducible refine State.engFault_keeps ?_ _ _
    | with_reducible refine State.engNext_keeps ?_ _
    | with_reducible refine Keeps.ite ?_ ?_
    | simp only [Keeps.lit]
    | with_reducible assumption
    | with_reducible exact Keeps.refl _
    | split
    | dsimp only

theorem dwellActAsrc_keeps {u s : State} (h : Keeps u s) (a0) (a1) : Keeps u (dwellActAsrc a0 a1 s) := by
  unfold dwellActAsrc
  try dsimp -iota only
  repeat' first
    | with_reducible refine State.setEng_keeps ?_ _ _
    | with_reducible refine State.engNext_keeps ?_ _
    | with_reducible refine Keeps.ite ?_ ?_
    | simp only [Keeps.lit]
    | with_reducible assumption
    | with_reducible exact Keeps.refl _
    | split
    | dsimp only

theorem State.engTick_keeps {u s : State} (h : Keeps u s) (a1) (a2) : KeepsP u (State.engTick s a1 a2) := by
  unfold State.engTick
  try dsimp -iota only
  repeat' first
    | with_reducible refine State.genMove_keeps ?_ _ _ _ _
    | with_reducible refine KeepsP.fst (State.genMove_keeps ?_ _ _ _ _)
    | with_reducible refine State.genMove_keepsP (by assumption) ?_
    | with_reducible refine Keeps.ite ?_ ?_
    | simp -iota -zeta -proj only [KeepsP.pair]
    | with_reducible refine KeepsP.ite ?_ ?_
    | with_reducible refine KeepsP.fst (KeepsP.ite ?_ ?_)
    | simp only [Keeps.lit]
    | with_reducible assumption
    | with_reducible exact Keeps.refl _
    | split
    | dsimp only
theorem State.engTick_keepsP {u s t : State} {v} {a1} {a2} (e : State.engTick s a1 a2 = (t, v)) (h : Keeps u s) : Keeps u t :=
  KeepsP.of_eq (State.engTick_keeps h a1 a2) e

theorem coastGo_keeps {u s : State} (h : Keeps u s) (a0) (a1) (a3) : KeepsP u (coastGo a0 a1 s a3) := by
  induction a1 generalizing s a0 a3
  · exact h
  · rename_i ih
    have ihP := fun (s t : State) v a0 a3 (h : Keeps u s) (e : coastGo a0 _ s a3 = (t, v)) => KeepsP.of_eq (ih h a0 a3) e
    unfold coastGo
    try dsimp -iota only
    repeat' first
      | with_reducible refine ih ?_ _ _
      | with_reducible refine KeepsP.fst (ih ?_ _ _)
      | with_reducible refine ihP _ _ _ _ _ ?_ (by assumption)
      | with_reducible refine State.engTick_keeps ?_ _ _
      | with_reducible refine KeepsP.fst (State.engTick_keeps ?_ _ _)
      | with_reducible refine State.engTick_keepsP (by assumption) ?_
      | with_reducible refine Keeps.ite ?_ ?_
      | simp -iota -zeta -proj only [KeepsP.pair]
      | with_reducible refine KeepsP.ite ?_ ?_
      | with_reducible refine KeepsP.fst (KeepsP.ite ?_ ?_)
      | with_reducible assumption
      | with_reducible exact Keeps.refl _
      | split
      | dsimp only
theorem coastGo_keepsP {u s t : State} {v} {a0} {a1} {a3} (e : coastGo a0 a1 s a3 = (t, v)) (h : Keeps u s) : Keeps u t :=
  KeepsP.of_eq (coastGo_keeps h a0 a1 a3) e

theorem spanGo_keeps {u s : State} (h : Keeps u s) (a0) (a1) (a2) (a3) (a4) (a5) (a7) : Keeps u (spanGo a0 a1 a2 a3 a4 a5 s a7).s := by
  induction a3 generalizing s a0 a1 a2 a4 a5 a7
  · exact h
  · rename_i ih
    unfold spanGo
    try dsimp -iota only
    repeat' first
      | with_reducible refine ih ?_ _ _ _ _ _ _
      | with_reducible refine State.engTick_keeps ?_ _ _
      | with_reducible refine KeepsP.fst (State.engTick_keeps ?_ _ _)
      | with_reducible refine State.engTick_keepsP (by assumption) ?_
      | with_reducible refine coastGo_keeps ?_ _ _ _
      | with_reducible refine KeepsP.fst (coastGo_keeps ?_ _ _ _)
      | with_reducible refine coastGo_keepsP (by assumption) ?_
      | with_reducible refine Keeps.ite ?_ ?_
      | simp -iota -zeta -proj only [KeepsP.pair]
      | with_reducible refine KeepsP.ite ?_ ?_
      | with_reducible refine KeepsP.fst (KeepsP.ite ?_ ?_)
      | with_reducible assumption
      | with_reducible exact Keeps.refl _
      | split
      | dsimp only

theorem State.engSpanFlags_keeps {u s : State} (h : Keeps u s) (a1) (a2) (a3) : Keeps u (State.engSpanFlags s a1 a2 a3) := by
  unfold State.engSpanFlags
  try dsimp -iota only
  repeat' first
    | with_reducible refine State.set_keeps ?_ _ _
    | with_reducible refine State.setEng_keeps ?_ _ _
    | with_reducible refine Keeps.ite ?_ ?_
    | simp only [Keeps.lit]
    | with_reducible assumption
    | with_reducible exact Keeps.refl _
    | split
    | dsimp only

theorem dwellActSpan_keeps {u s : State} (h : Keeps u s) (a0) (a1) (a2) (a3) : Keeps u (dwellActSpan a0 a1 a2 a3 s) := by
  unfold dwellActSpan
  try dsimp -iota only
  repeat' first
    | with_reducible refine State.engFault_keeps ?_ _ _
    | with_reducible refine State.engNext_keeps ?_ _
    | with_reducible refine spanGo_keeps ?_ _ _ _ _ _ _ _
    | with_reducible refine State.engSpanFlags_keeps ?_ _ _ _
    | with_reducible refine Keeps.ite ?_ ?_
    | simp only [Keeps.lit]
    | with_reducible assumption
    | with_reducible exact Keeps.refl _
    | split
    | dsimp only

theorem State.engCoast_keeps {u s : State} (h : Keeps u s) (a1) (a2) : Keeps u (State.engCoast s a1 a2) := by
  unfold State.engCoast
  try dsimp -iota only
  repeat' first
    | with_reducible refine State.setEng_keeps ?_ _ _
    | with_reducible refine coastGo_keeps ?_ _ _ _
    | with_reducible refine KeepsP.fst (coastGo_keeps ?_ _ _ _)
    | with_reducible refine coastGo_keepsP (by assumption) ?_
    | with_reducible refine Keeps.ite ?_ ?_
    | simp -iota -zeta -proj only [KeepsP.pair]
    | with_reducible refine KeepsP.ite ?_ ?_
    | with_reducible refine KeepsP.fst (KeepsP.ite ?_ ?_)
    | with_reducible assumption
    | with_reducible exact Keeps.refl _
    | split
    | dsimp only

theorem State.dwellAcc_keeps {u s : State} (h : Keeps u s) (a1) (a2) : Keeps u (State.dwellAcc s a1 a2) := by
  unfold State.dwellAcc
  try dsimp -iota only
  repeat' first
    | with_reducible refine State.dwellExec_keeps ?_ _ _ _ (fun _ _ => ?_)
    | with_reducible refine dwellActSpan_keeps ?_ _ _ _ _
    | with_reducible refine State.engCoast_keeps ?_ _ _
    | with_reducible refine Keeps.ite ?_ ?_
    | with_reducible assumption
    | with_reducible exact Keeps.refl _
    | split
    | dsimp only

theorem dwellActNcacc_keeps {u s : State} (h : Keeps u s) (a0) (a1) : Keeps u (dwellActNcacc a0 a1 s) := by
  unfold dwellActNcacc
  try dsimp -iota only
  repeat' first
    | with_reducible refine State.setEng_keeps ?_ _ _
    | with_reducible refine State.engNext_keeps ?_ _
    | with_reducible refine Keeps.ite ?_ ?_
    | with_reducible refine Keeps.foldl ?_ _ _ (fun _ _ => ?_)
    | simp only [Keeps.lit]
    | with_reducible assumption
    | with_reducible exact Keeps.refl _
    | split
    | dsimp only

theorem dwellActSetc_keeps {u s : State} (h : Keeps u s) (a0) (a1) : Keeps u (dwellActSetc a0 a1 s) := by
  unfold dwellActSetc
  try dsimp -iota only
  repeat' first
    | with_reducible refine State.setEng_keeps ?_ _ _
    | with_reducible refine State.engNext_keeps ?_ _
    | with_reducible refine Keeps.ite ?_ ?_
    | simp only [Keeps.lit]
    | with_reducible assumption
    | with_reducible exact Keeps.refl _
    | split
    | dsimp only

theorem dwellActLoop_keeps {u s : State} (h : Keeps u s) (a0) (a1) : Keeps u (dwellActLoop a0 a1 s) := by
  unfold dwellActLoop
  try dsimp -iota only
  repeat' first
    | with_reducible refine State.setEng_keeps ?_ _ _
    | with_reducible refine State.engGoto_keeps ?_ _ _
    | with_reducible refine State.engNext_keeps ?_ _
    | with_reducible refine Keeps.ite ?_ ?_
    | simp only [Keeps.lit]
    | with_reducible assumption
    | with_reducible exact Keeps.refl _
    | split
    | dsimp only

theorem dwellActJmp_keeps {u s : State} (h : Keeps u s) (a0) (a1) : Keeps u (dwellActJmp a0 a1 s) := by
  unfold dwellActJmp
  try dsimp -iota only
  repeat' first
    | with_reducible refine State.engGoto_keeps ?_ _ _
    | with_reducible assumption
    | with_reducible exact Keeps.refl _

theorem dwellActIrq_keeps {u s : State} (h : Keeps u s) (a0) (a1) : Keeps u (dwellActIrq a0 a1 s) := by
  unfold dwellActIrq
  try dsimp -iota only
  repeat' first
    | with_reducible refine State.set_keeps ?_ _ _
    | with_reducible refine State.engNext_keeps ?_ _
    | with_reducible refine Keeps.ite ?_ ?_
    | with_reducible assumption
    | with_reducible exact Keeps.refl _
    | split
    | dsimp only

theorem dwellActEnd_keeps {u s : State} (h : Keeps u s) (a0) (a1) : Keeps u (dwellActEnd a0 a1 s) := by
  unfold dwellActEnd
  try dsimp -iota only
  repeat' first
    | with_reducible refine State.engPut_keeps ?_ _ _
    | with_reducible refine State.tokBack_keeps ?_ _ _
    | simp only [Keeps.lit]
    | with_reducible assumption
    | with_reducible exact Keeps.refl _

theorem dwellActNop_keeps {u s : State} (h : Keeps u s) (a0) (a1) : Keeps u (dwellActNop a0 a1 s) := by
  unfold dwellActNop
  try dsimp -iota only
  repeat' first
    | with_reducible refine State.engNext_keeps ?_ _
    | with_reducible assumption
    | with_reducible exact Keeps.refl _

theorem State.mapRecord_keeps {u s : State} (h : Keeps u s) (a1) (a2) : Keeps u (State.mapRecord s a1 a2) := by
  unfold State.mapRecord
  try dsimp -iota only
  repeat' first
    | with_reducible refine State.setMap_keeps ?_ _ _
    | with_reducible refine Keeps.ite ?_ ?_
    | with_reducible refine Keeps.foldl ?_ _ _ (fun _ _ => ?_)
    | simp only [Keeps.lit]
    | with_reducible assumption
    | with_reducible exact Keeps.refl _
    | split
    | dsimp only

theorem State.migHandover_keeps {u s : State} (h : Keeps u s) (a1) : Keeps u (State.migHandover s a1) := by
  unfold State.migHandover
  try dsimp -iota only
  repeat' first
    | with_reducible refine State.set_keeps ?_ _ _
    | with_reducible refine State.engPut_keeps ?_ _ _
    | with_reducible refine State.engEnter_keeps ?_ _ _
    | with_reducible refine State.tokBack_keeps ?_ _ _
    | with_reducible refine State.engBegin_keeps ?_ _
    | with_reducible refine Keeps.ite ?_ ?_
    | simp only [Keeps.lit]
    | with_reducible assumption
    | with_reducible exact Keeps.refl _
    | split
    | dsimp only

theorem State.recordDone_keeps {u s : State} (h : Keeps u s) (a1) : Keeps u (State.recordDone s a1) := by
  unfold State.recordDone
  try dsimp -iota only
  repeat' first
    | with_reducible refine State.setClu_keeps ?_ _ _
    | with_reducible refine Keeps.ite ?_ ?_
    | simp only [Keeps.lit]
    | with_reducible assumption
    | with_reducible exact Keeps.refl _
    | split
    | dsimp only

theorem dwellActDump_keeps {u s : State} (h : Keeps u s) (a0) (a1) (a2) (a3) : Keeps u (dwellActDump a0 a1 a2 a3 s) := by
  unfold dwellActDump
  try dsimp -iota only
  repeat' first
    | with_reducible refine State.set_keeps ?_ _ _
    | with_reducible refine State.setEng_keeps ?_ _ _
    | with_reducible refine State.engPut_keeps ?_ _ _
    | with_reducible refine State.engApplySet_keeps ?_ _ _
    | with_reducible refine State.engNext_keeps ?_ _
    | with_reducible refine State.mapRecord_keeps ?_ _ _
    | with_reducible refine State.migHandover_keeps ?_ _
    | with_reducible refine State.recordDone_keeps ?_ _
    | with_reducible refine Keeps.ite ?_ ?_
    | simp only [Keeps.lit]
    | with_reducible assumption
    | with_reducible exact Keeps.refl _
    | split
    | dsimp only

theorem State.ringLevel_keeps {u s : State} (h : Keeps u s) (a1) : Keeps u (State.ringLevel s a1) := by
  unfold State.ringLevel
  try dsimp -iota only
  repeat' first
    | with_reducible refine State.set_keeps ?_ _ _
    | with_reducible refine Keeps.ite ?_ ?_
    | with_reducible assumption
    | with_reducible exact Keeps.refl _
    | split
    | dsimp only

theorem State.ringDrop_keeps {u s : State} (h : Keeps u s) (a1) (a2) : Keeps u (State.ringDrop s a1 a2) := by
  unfold State.ringDrop
  try dsimp -iota only
  repeat' first
    | with_reducible refine State.set_keeps ?_ _ _
    | with_reducible refine State.incSat_keeps ?_ _ _
    | with_reducible assumption
    | with_reducible exact Keeps.refl _

theorem State.recordToRing_keeps {u s : State} (h : Keeps u s) (a1) : Keeps u (State.recordToRing s a1) := by
  unfold State.recordToRing
  try dsimp -iota only
  repeat' first
    | with_reducible refine State.set_keeps ?_ _ _
    | with_reducible refine State.setEng_keeps ?_ _ _
    | with_reducible refine State.setClu_keeps ?_ _ _
    | with_reducible refine State.memWriteWords_keeps ?_ _ _ _
    | with_reducible refine State.ringLevel_keeps ?_ _
    | with_reducible refine State.ringDrop_keeps ?_ _ _
    | with_reducible refine Keeps.ite ?_ ?_
    | simp only [Keeps.lit]
    | with_reducible assumption
    | with_reducible exact Keeps.refl _
    | split
    | dsimp only

theorem State.ringRelease_keeps {u s : State} (h : Keeps u s) (a1) (a2) : Keeps u (State.ringRelease s a1 a2) := by
  unfold State.ringRelease
  try dsimp -iota only
  repeat' first
    | with_reducible refine State.set_keeps ?_ _ _
    | with_reducible refine State.setClu_keeps ?_ _ _
    | with_reducible refine State.ringLevel_keeps ?_ _
    | with_reducible refine Keeps.ite ?_ ?_
    | simp only [Keeps.lit]
    | with_reducible assumption
    | with_reducible exact Keeps.refl _
    | split
    | dsimp only

theorem State.cluMap_keeps {u s : State} (h : Keeps u s) (a1) : Keeps u (State.cluMap s a1) := by
  unfold State.cluMap
  try dsimp -iota only
  repeat' first
    | with_reducible refine State.setB_keeps ?_ _ _
    | with_reducible refine Keeps.ite ?_ ?_
    | with_reducible assumption
    | with_reducible exact Keeps.refl _
    | split
    | dsimp only

theorem State.ringReconfigure_keeps {u s : State} (h : Keeps u s) (a1) : Keeps u (State.ringReconfigure s a1) := by
  unfold State.ringReconfigure
  try dsimp -iota only
  repeat' first
    | with_reducible refine State.set_keeps ?_ _ _
    | with_reducible refine State.setEng_keeps ?_ _ _
    | with_reducible refine State.setClu_keeps ?_ _ _
    | with_reducible refine State.ringDrop_keeps ?_ _ _
    | with_reducible refine State.cluMap_keeps ?_ _
    | with_reducible refine Keeps.ite ?_ ?_
    | with_reducible refine Keeps.foldl ?_ _ _ (fun _ _ => ?_)
    | simp only [Keeps.lit]
    | with_reducible assumption
    | with_reducible exact Keeps.refl _
    | split
    | dsimp only

theorem State.engRole_keeps {u s : State} (h : Keeps u s) (a1) (a2) : Keeps u (State.engRole s a1 a2) := by
  unfold State.engRole
  try dsimp -iota only
  repeat' first
    | with_reducible refine State.set_keeps ?_ _ _
    | with_reducible refine State.engEnter_keeps ?_ _ _
    | with_reducible refine State.engCancel_keeps ?_ _
    | with_reducible refine Keeps.ite ?_ ?_
    | with_reducible assumption
    | with_reducible exact Keeps.refl _
    | split
    | dsimp only

theorem State.engCtl_keeps {u s : State} (h : Keeps u s) (a1) (a2) : Keeps u (State.engCtl s a1 a2) := by
  unfold State.engCtl
  try dsimp -iota only
  repeat' first
    | with_reducible refine State.engCancel_keeps ?_ _
    | with_reducible refine State.engApply_keeps ?_ _
    | with_reducible refine State.engRole_keeps ?_ _ _
    | with_reducible refine Keeps.ite ?_ ?_
    | with_reducible assumption
    | with_reducible exact Keeps.refl _
    | split
    | dsimp only

theorem State.cluResume_keeps {u s : State} (h : Keeps u s) (a1) : Keeps u (State.cluResume s a1) := by
  unfold State.cluResume
  try dsimp -iota only
  repeat' first
    | with_reducible refine State.setClu_keeps ?_ _ _
    | simp only [Keeps.lit]
    | with_reducible assumption
    | with_reducible exact Keeps.refl _

theorem State.cluClock_keeps {u s : State} (h : Keeps u s) (a1) (a2) : Keeps u (State.cluClock s a1 a2) := by
  unfold State.cluClock
  try dsimp -iota only
  repeat' first
    | with_reducible refine State.eachEng_keeps ?_ _ _ (fun _ _ => ?_)
    | with_reducible refine State.engCancel_keeps ?_ _
    | with_reducible refine State.cluResume_keeps ?_ _
    | with_reducible refine Keeps.ite ?_ ?_
    | with_reducible assumption
    | with_reducible exact Keeps.refl _
    | split
    | dsimp only

theorem State.cluBist_keeps {u s : State} (h : Keeps u s) (a1) : Keeps u (State.cluBist s a1) := by
  unfold State.cluBist
  try dsimp -iota only
  repeat' first
    | with_reducible refine State.set_keeps ?_ _ _
    | with_reducible refine State.engEnter_keeps ?_ _ _
    | with_reducible refine State.eachEng_keeps ?_ _ _ (fun _ _ => ?_)
    | with_reducible refine Keeps.ite ?_ ?_
    | with_reducible assumption
    | with_reducible exact Keeps.refl _
    | split
    | dsimp only

theorem State.cluCtl_keeps {u s : State} (h : Keeps u s) (a1) (a2) (a3) : Keeps u (State.cluCtl s a1 a2 a3) := by
  unfold State.cluCtl
  try dsimp -iota only
  repeat' first
    | with_reducible refine State.cluClock_keeps ?_ _ _
    | with_reducible refine State.cluBist_keeps ?_ _
    | with_reducible refine Keeps.ite ?_ ?_
    | with_reducible assumption
    | with_reducible exact Keeps.refl _
    | split
    | dsimp only

theorem State.bistDone_keeps {u s : State} (h : Keeps u s) (a1) (a2) : Keeps u (State.bistDone s a1 a2) := by
  unfold State.bistDone
  try dsimp -iota only
  repeat' first
    | with_reducible refine State.set_keeps ?_ _ _
    | with_reducible refine State.note_keeps ?_ _ _ _ _ _
    | with_reducible refine State.engEnter_keeps ?_ _ _
    | with_reducible refine State.eachEng_keeps ?_ _ _ (fun _ _ => ?_)
    | with_reducible refine Keeps.ite ?_ ?_
    | with_reducible assumption
    | with_reducible exact Keeps.refl _
    | split
    | dsimp only

theorem State.gangQueue_keeps {u s : State} (h : Keeps u s) (a1) (a2) : Keeps u (State.gangQueue s a1 a2) := by
  unfold State.gangQueue
  try dsimp -iota only
  repeat' first
    | with_reducible refine State.set_keeps ?_ _ _
    | with_reducible refine State.dec_keeps ?_ _ _
    | with_reducible refine State.engPut_keeps ?_ _ _
    | with_reducible refine Keeps.ite ?_ ?_
    | with_reducible refine Keeps.foldl ?_ _ _ (fun _ _ => ?_)
    | simp only [Keeps.lit]
    | with_reducible assumption
    | with_reducible exact Keeps.refl _
    | split
    | dsimp only

theorem State.gangEpoch_keeps {u s : State} (h : Keeps u s) (a1) : Keeps u (State.gangEpoch s a1) := by
  unfold State.gangEpoch
  try dsimp -iota only
  repeat' first
    | with_reducible refine State.set_keeps ?_ _ _
    | with_reducible refine State.setClu_keeps ?_ _ _
    | with_reducible refine State.engEnter_keeps ?_ _ _
    | with_reducible refine State.eachEng_keeps ?_ _ _ (fun _ _ => ?_)
    | with_reducible refine State.engCancel_keeps ?_ _
    | with_reducible refine Keeps.ite ?_ ?_
    | simp only [Keeps.lit]
    | with_reducible assumption
    | with_reducible exact Keeps.refl _
    | split
    | dsimp only

theorem State.engFlush_keeps {u s : State} (h : Keeps u s) (a1) (a2) : Keeps u (State.engFlush s a1 a2) := by
  unfold State.engFlush
  try dsimp -iota only
  repeat' first
    | with_reducible refine State.setEng_keeps ?_ _ _
    | with_reducible refine State.engRefillIf_keeps ?_ _ _ _
    | with_reducible refine Keeps.ite ?_ ?_
    | with_reducible assumption
    | with_reducible exact Keeps.refl _
    | split
    | dsimp only

theorem State.cluEpoch_keeps {u s : State} (h : Keeps u s) (a1) : Keeps u (State.cluEpoch s a1) := by
  unfold State.cluEpoch
  try dsimp -iota only
  repeat' first
    | with_reducible refine State.setClu_keeps ?_ _ _
    | with_reducible refine State.eachEng_keeps ?_ _ _ (fun _ _ => ?_)
    | with_reducible refine State.gangEpoch_keeps ?_ _
    | with_reducible refine State.engFlush_keeps ?_ _ _
    | with_reducible refine Keeps.ite ?_ ?_
    | simp only [Keeps.lit]
    | with_reducible assumption
    | with_reducible exact Keeps.refl _
    | split
    | dsimp only

theorem State.ctinv_keeps {u s : State} (h : Keeps u s) (a1) (a2) : Keeps u (State.ctinv s a1 a2) := by
  unfold State.ctinv
  try dsimp -iota only
  repeat' first
    | with_reducible refine State.setClu_keeps ?_ _ _
    | with_reducible refine Keeps.ite ?_ ?_
    | simp only [Keeps.lit]
    | with_reducible assumption
    | with_reducible exact Keeps.refl _
    | split
    | dsimp only

theorem State.migArm_keeps {u s : State} (h : Keeps u s) (a1) (a2) (a3) : Keeps u (State.migArm s a1 a2 a3) := by
  unfold State.migArm
  try dsimp -iota only
  repeat' first
    | with_reducible refine State.set_keeps ?_ _ _
    | with_reducible refine State.setEng_keeps ?_ _ _
    | with_reducible refine State.engEnter_keeps ?_ _ _
    | with_reducible refine State.handBack_keeps ?_ _ _
    | with_reducible refine Keeps.ite ?_ ?_
    | simp only [Keeps.lit]
    | with_reducible assumption
    | with_reducible exact Keeps.refl _
    | split
    | dsimp only

theorem State.migTimeout_keeps {u s : State} (h : Keeps u s) (a1) : Keeps u (State.migTimeout s a1) := by
  unfold State.migTimeout
  try dsimp -iota only
  repeat' first
    | with_reducible refine State.migAbort_keeps ?_ _
    | with_reducible refine Keeps.ite ?_ ?_
    | with_reducible assumption
    | with_reducible exact Keeps.refl _
    | split
    | dsimp only

theorem State.handlePut_keeps {u s : State} (h : Keeps u s) (a1) (a2) : Keeps u (State.handlePut s a1 a2) := by
  unfold State.handlePut
  try dsimp -iota only
  repeat' first
    | with_reducible refine State.set_keeps ?_ _ _
    | with_reducible refine State.setHandle_keeps ?_ _ _
    | with_reducible refine Keeps.ite ?_ ?_
    | with_reducible assumption
    | with_reducible exact Keeps.refl _
    | split
    | dsimp only

theorem State.capBits_keeps {u s : State} (h : Keeps u s) : Keeps u (State.capBits s) := by
  unfold State.capBits
  try dsimp -iota only
  repeat' first
    | with_reducible refine State.set_keeps ?_ _ _
    | with_reducible refine Keeps.ite ?_ ?_
    | with_reducible refine Keeps.foldl ?_ _ _ (fun _ _ => ?_)
    | with_reducible assumption
    | with_reducible exact Keeps.refl _
    | split
    | dsimp only

theorem State.handleEnter_keeps {u s : State} (h : Keeps u s) (a1) (a2) : Keeps u (State.handleEnter s a1 a2) := by
  unfold State.handleEnter
  try dsimp -iota only
  repeat' first
    | with_reducible refine State.set_keeps ?_ _ _
    | with_reducible refine State.capBits_keeps ?_
    | with_reducible assumption
    | with_reducible exact Keeps.refl _

theorem State.creditsBack_keeps {u s : State} (h : Keeps u s) (a1) : Keeps u (State.creditsBack s a1) := by
  unfold State.creditsBack
  try dsimp -iota only
  repeat' first
    | with_reducible refine State.inc_keeps ?_ _ _
    | with_reducible refine State.handlePut_keeps ?_ _ _
    | with_reducible refine Keeps.ite ?_ ?_
    | simp only [Keeps.lit]
    | with_reducible assumption
    | with_reducible exact Keeps.refl _
    | split
    | dsimp only

theorem State.snapRefuse_keeps {u s : State} (h : Keeps u s) (a1) : Keeps u (State.snapRefuse s a1) := by
  unfold State.snapRefuse
  try dsimp -iota only
  repeat' first
    | with_reducible refine State.set_keeps ?_ _ _
    | with_reducible assumption
    | with_reducible exact Keeps.refl _

theorem State.snapArm_keeps {u s : State} (h : Keeps u s) (a0 : State) (a2) (k0 : Keeps u a0) : Keeps u (State.snapArm a0 s a2) := by
  unfold State.snapArm
  try dsimp -iota only
  repeat' first
    | with_reducible refine State.set_keeps ?_ _ _
    | with_reducible refine State.dec_keeps ?_ _ _
    | with_reducible refine State.draw_keeps ?_ _
    | with_reducible refine KeepsP.fst (State.draw_keeps ?_ _)
    | with_reducible refine State.draw_keepsP (by assumption) ?_
    | with_reducible refine State.handlePut_keeps ?_ _ _
    | with_reducible refine State.handleEnter_keeps ?_ _ _
    | with_reducible refine State.snapRefuse_keeps ?_ _
    | with_reducible refine Keeps.ite ?_ ?_
    | simp -iota -zeta -proj only [KeepsP.pair]
    | with_reducible refine KeepsP.ite ?_ ?_
    | with_reducible refine KeepsP.fst (KeepsP.ite ?_ ?_)
    | simp only [Keeps.lit]
    | with_reducible assumption
    | with_reducible exact Keeps.refl _
    | split
    | dsimp only

theorem State.snapFree_keeps {u s : State} (h : Keeps u s) (a0 : State) (a2) (k0 : Keeps u a0) : Keeps u (State.snapFree a0 s a2) := by
  unfold State.snapFree
  try dsimp -iota only
  repeat' first
    | with_reducible refine State.handleEnter_keeps ?_ _ _
    | with_reducible refine State.creditsBack_keeps ?_ _
    | with_reducible refine State.snapRefuse_keeps ?_ _
    | with_reducible refine Keeps.ite ?_ ?_
    | with_reducible assumption
    | with_reducible exact Keeps.refl _
    | split
    | dsimp only

theorem State.snapHcfg_keeps {u s : State} (h : Keeps u s) (a0 : State) (a2) (a3) (k0 : Keeps u a0) : Keeps u (State.snapHcfg a0 s a2 a3) := by
  unfold State.snapHcfg
  try dsimp -iota only
  repeat' first
    | with_reducible refine State.snapArm_keeps ?_ _ _ ?_
    | with_reducible refine State.snapFree_keeps ?_ _ _ ?_
    | with_reducible refine Keeps.ite ?_ ?_
    | with_reducible assumption
    | with_reducible exact Keeps.refl _
    | split
    | dsimp only

theorem State.capTrigger_keeps {u s : State} (h : Keeps u s) (a1) (a2) (a3) : Keeps u (State.capTrigger s a1 a2 a3) := by
  unfold State.capTrigger
  try dsimp -iota only
  repeat' first
    | with_reducible refine State.set_keeps ?_ _ _
    | with_reducible refine State.setHandle_keeps ?_ _ _
    | with_reducible refine State.handleEnter_keeps ?_ _ _
    | with_reducible refine Keeps.ite ?_ ?_
    | simp only [Keeps.lit]
    | with_reducible assumption
    | with_reducible exact Keeps.refl _
    | split
    | dsimp only

theorem State.fillCredits_keeps {u s : State} (h : Keeps u s) (a1) (a2) : Keeps u (State.fillCredits s a1 a2) := by
  induction a1 generalizing s a2
  · exact h
  · rename_i ih
    unfold State.fillCredits
    try dsimp -iota only
    repeat' first
      | with_reducible refine ih ?_ _
      | with_reducible refine State.pokes_keeps ?_ _ _
      | with_reducible refine Keeps.ite ?_ ?_
      | with_reducible assumption
      | with_reducible exact Keeps.refl _
      | split
      | dsimp only

theorem State.capDone_keeps {u s : State} (h : Keeps u s) (a1) (a2) : Keeps u (State.capDone s a1 a2) := by
  unfold State.capDone
  try dsimp -iota only
  repeat' first
    | with_reducible refine State.set_keeps ?_ _ _
    | with_reducible refine State.setHandle_keeps ?_ _ _
    | with_reducible refine State.handleEnter_keeps ?_ _ _
    | with_reducible refine State.fillCredits_keeps ?_ _ _
    | with_reducible refine Keeps.ite ?_ ?_
    | simp only [Keeps.lit]
    | with_reducible assumption
    | with_reducible exact Keeps.refl _
    | split
    | dsimp only

theorem State.replayEnd_keeps {u s : State} (h : Keeps u s) : Keeps u (State.replayEnd s) := by
  unfold State.replayEnd
  try dsimp -iota only
  repeat' first
    | with_reducible refine State.set_keeps ?_ _ _
    | with_reducible refine Keeps.ite ?_ ?_
    | simp only [Keeps.lit]
    | with_reducible assumption
    | with_reducible exact Keeps.refl _
    | split
    | dsimp only

theorem State.replayGo_keeps {u s : State} (h : Keeps u s) : Keeps u (State.replayGo s) := by
  unfold State.replayGo
  try dsimp -iota only
  repeat' first
    | with_reducible refine State.set_keeps ?_ _ _
    | with_reducible refine Keeps.ite ?_ ?_
    | simp only [Keeps.lit]
    | with_reducible assumption
    | with_reducible exact Keeps.refl _
    | split
    | dsimp only

theorem State.replayWrite_keeps {u s : State} (h : Keeps u s) (a1) : Keeps u (State.replayWrite s a1) := by
  unfold State.replayWrite
  try dsimp -iota only
  repeat' first
    | with_reducible refine State.replayGo_keeps ?_
    | with_reducible refine Keeps.ite ?_ ?_
    | simp only [Keeps.lit]
    | with_reducible assumption
    | with_reducible exact Keeps.refl _
    | split
    | dsimp only

theorem State.passEngine_keeps {u s : State} (h : Keeps u s) (a1) (a2) : Keeps u (State.passEngine s a1 a2) := by
  unfold State.passEngine
  try dsimp -iota only
  repeat' first
    | with_reducible refine State.setEng_keeps ?_ _ _
    | with_reducible refine State.engRefillIf_keeps ?_ _ _ _
    | with_reducible refine State.engApplySet_keeps ?_ _ _
    | with_reducible refine Keeps.ite ?_ ?_
    | simp only [Keeps.lit]
    | with_reducible assumption
    | with_reducible exact Keeps.refl _
    | split
    | dsimp only

theorem State.passStart_keeps {u s : State} (h : Keeps u s) : Keeps u (State.passStart s) := by
  unfold State.passStart
  try dsimp -iota only
  repeat' first
    | with_reducible refine State.set_keeps ?_ _ _
    | with_reducible refine State.setEng_keeps ?_ _ _
    | with_reducible refine State.setMap_keeps ?_ _ _
    | with_reducible refine State.each_keeps ?_ _ _ (fun _ _ => ?_)
    | with_reducible refine State.eachEng_keeps ?_ _ _ (fun _ _ => ?_)
    | with_reducible refine State.refillLeft_keeps ?_ _ _
    | with_reducible refine State.passEngine_keeps ?_ _ _
    | with_reducible refine Keeps.ite ?_ ?_
    | simp only [Keeps.lit]
    | with_reducible assumption
    | with_reducible exact Keeps.refl _
    | split
    | dsimp only

theorem State.rowWrite_keeps {u s : State} (h : Keeps u s) (a1) (a2) : Keeps u (State.rowWrite s a1 a2) := by
  unfold State.rowWrite
  try dsimp -iota only
  repeat' first
    | with_reducible refine State.set_keeps ?_ _ _
    | with_reducible refine State.setMap_keeps ?_ _ _
    | with_reducible refine State.memWriteWords_keeps ?_ _ _ _
    | with_reducible refine Keeps.ite ?_ ?_
    | simp only [Keeps.lit]
    | with_reducible assumption
    | with_reducible exact Keeps.refl _
    | split
    | dsimp only

theorem State.mapRow_keeps {u s : State} (h : Keeps u s) (a1) : Keeps u (State.mapRow s a1) := by
  unfold State.mapRow
  try dsimp -iota only
  repeat' first
    | with_reducible refine State.set_keeps ?_ _ _
    | with_reducible refine State.setMap_keeps ?_ _ _
    | with_reducible refine State.rowWrite_keeps ?_ _ _
    | with_reducible refine Keeps.ite ?_ ?_
    | with_reducible refine Keeps.foldl ?_ _ _ (fun _ _ => ?_)
    | simp only [Keeps.lit]
    | with_reducible assumption
    | with_reducible exact Keeps.refl _
    | split
    | dsimp only

theorem State.passEnd_keeps {u s : State} (h : Keeps u s) : Keeps u (State.passEnd s) := by
  unfold State.passEnd
  try dsimp -iota only
  repeat' first
    | with_reducible refine State.inc_keeps ?_ _ _
    | with_reducible refine State.each_keeps ?_ _ _ (fun _ _ => ?_)
    | with_reducible refine State.replayEnd_keeps ?_
    | with_reducible refine State.mapRow_keeps ?_ _
    | with_reducible refine Keeps.ite ?_ ?_
    | simp only [Keeps.lit]
    | with_reducible assumption
    | with_reducible exact Keeps.refl _
    | split
    | dsimp only

theorem State.snapBrace_keeps {u s : State} (h : Keeps u s) : Keeps u (State.snapBrace s) := by
  unfold State.snapBrace
  try dsimp -iota only
  repeat' first
    | with_reducible refine State.each_keeps ?_ _ _ (fun _ _ => ?_)
    | with_reducible refine State.handleEnter_keeps ?_ _ _
    | with_reducible refine State.replayEnd_keeps ?_
    | with_reducible refine Keeps.ite ?_ ?_
    | with_reducible assumption
    | with_reducible exact Keeps.refl _
    | split
    | dsimp only

theorem State.setTelBit_keeps {u s : State} (h : Keeps u s) (a1) (a2) (a3) : Keeps u (State.setTelBit s a1 a2 a3) := by
  unfold State.setTelBit
  try dsimp -iota only
  repeat' first
    | with_reducible refine State.orF_keeps ?_ _ _
    | with_reducible refine State.clrF_keeps ?_ _ _
    | with_reducible refine Keeps.ite ?_ ?_
    | with_reducible assumption
    | with_reducible exact Keeps.refl _
    | split
    | dsimp only

theorem State.telShow_keeps {u s : State} (h : Keeps u s) (a1) : Keeps u (State.telShow s a1) := by
  unfold State.telShow
  try dsimp -iota only
  repeat' first
    | with_reducible refine State.emit_keeps ?_ _
    | with_reducible refine Keeps.ite ?_ ?_
    | with_reducible assumption
    | with_reducible exact Keeps.refl _
    | split
    | dsimp only

theorem State.telLevel_keeps {u s : State} (h : Keeps u s) (a1) (a2) : Keeps u (State.telLevel s a1 a2) := by
  unfold State.telLevel
  try dsimp -iota only
  repeat' first
    | with_reducible refine State.setB_keeps ?_ _ _
    | with_reducible refine State.telShow_keeps ?_ _
    | with_reducible refine Keeps.ite ?_ ?_
    | with_reducible assumption
    | with_reducible exact Keeps.refl _
    | split
    | dsimp only

theorem State.winOpen_keeps {u s : State} (h : Keeps u s) (a1) (a2) (a3) : Keeps u (State.winOpen s a1 a2 a3) := by
  unfold State.winOpen
  try dsimp -iota only
  repeat' first
    | with_reducible refine State.set_keeps ?_ _ _
    | with_reducible refine State.setLine_keeps ?_ _ _
    | with_reducible refine State.note_keeps ?_ _ _ _ _ _
    | with_reducible refine State.telLevel_keeps ?_ _ _
    | with_reducible refine Keeps.ite ?_ ?_
    | simp only [Keeps.lit]
    | with_reducible assumption
    | with_reducible exact Keeps.refl _
    | split
    | dsimp only

theorem State.winClose_keeps {u s : State} (h : Keeps u s) (a1) (a2) (a3) : Keeps u (State.winClose s a1 a2 a3) := by
  unfold State.winClose
  try dsimp -iota only
  repeat' first
    | with_reducible refine State.set_keeps ?_ _ _
    | with_reducible refine State.note_keeps ?_ _ _ _ _ _
    | with_reducible refine State.telLevel_keeps ?_ _ _
    | with_reducible refine Keeps.ite ?_ ?_
    | with_reducible assumption
    | with_reducible exact Keeps.refl _
    | split
    | dsimp only

theorem State.winFall_keeps {u s : State} (h : Keeps u s) (a1) (a2) : Keeps u (State.winFall s a1 a2) := by
  unfold State.winFall
  try dsimp -iota only
  repeat' first
    | with_reducible refine State.set_keeps ?_ _ _
    | with_reducible refine State.setLine_keeps ?_ _ _
    | with_reducible refine State.note_keeps ?_ _ _ _ _ _
    | with_reducible refine State.each_keeps ?_ _ _ (fun _ _ => ?_)
    | with_reducible refine State.winClose_keeps ?_ _ _ _
    | with_reducible refine Keeps.ite ?_ ?_
    | simp only [Keeps.lit]
    | with_reducible assumption
    | with_reducible exact Keeps.refl _
    | split
    | dsimp only

theorem State.lateOpen_keeps {u s : State} (h : Keeps u s) : Keeps u (State.lateOpen s) := by
  unfold State.lateOpen
  try dsimp -iota only
  repeat' first
    | with_reducible refine State.each_keeps ?_ _ _ (fun _ _ => ?_)
    | with_reducible refine State.winOpen_keeps ?_ _ _ _
    | with_reducible refine Keeps.ite ?_ ?_
    | with_reducible assumption
    | with_reducible exact Keeps.refl _
    | split
    | dsimp only

theorem State.winPermit_keeps {u s : State} (h : Keeps u s) : Keeps u (State.winPermit s) := by
  unfold State.winPermit
  try dsimp -iota only
  repeat' first
    | with_reducible refine State.each_keeps ?_ _ _ (fun _ _ => ?_)
    | with_reducible refine State.winClose_keeps ?_ _ _ _
    | with_reducible refine State.lateOpen_keeps ?_
    | with_reducible refine Keeps.ite ?_ ?_
    | with_reducible assumption
    | with_reducible exact Keeps.refl _
    | split
    | dsimp only

theorem State.telHead_keeps {u s : State} (h : Keeps u s) (a1) : Keeps u (State.telHead s a1) := by
  unfold State.telHead
  try dsimp -iota only
  repeat' first
    | with_reducible refine State.set_keeps ?_ _ _
    | with_reducible refine State.orF_keeps ?_ _ _
    | with_reducible refine State.setLine_keeps ?_ _ _
    | with_reducible refine State.note_keeps ?_ _ _ _ _ _
    | with_reducible refine Keeps.ite ?_ ?_
    | simp only [Keeps.lit]
    | with_reducible assumption
    | with_reducible exact Keeps.refl _
    | split
    | dsimp only

theorem State.telFetch_keeps {u s : State} (h : Keeps u s) (a1) (a2) : Keeps u (State.telFetch s a1 a2) := by
  unfold State.telFetch
  try dsimp -iota only
  repeat' first
    | with_reducible refine State.setLine_keeps ?_ _ _
    | with_reducible refine State.memReadWords_keeps ?_ _ _ _
    | with_reducible refine KeepsP.fst (State.memReadWords_keeps ?_ _ _ _)
    | with_reducible refine State.memReadWords_keepsP (by assumption) ?_
    | with_reducible refine State.telHead_keeps ?_ _
    | with_reducible refine Keeps.ite ?_ ?_
    | simp -iota -zeta -proj only [KeepsP.pair]
    | with_reducible refine KeepsP.ite ?_ ?_
    | with_reducible refine KeepsP.fst (KeepsP.ite ?_ ?_)
    | simp only [Keeps.lit]
    | with_reducible assumption
    | with_reducible exact Keeps.refl _
    | split
    | dsimp only

theorem State.telAdvance_keeps {u s : State} (h : Keeps u s) (a1) (a2) (a3) : Keeps u (State.telAdvance s a1 a2 a3) := by
  unfold State.telAdvance
  try dsimp -iota only
  repeat' first
    | with_reducible refine State.set_keeps ?_ _ _
    | with_reducible refine State.setLine_keeps ?_ _ _
    | with_reducible refine State.telHead_keeps ?_ _
    | with_reducible refine Keeps.ite ?_ ?_
    | simp only [Keeps.lit]
    | with_reducible assumption
    | with_reducible exact Keeps.refl _
    | split
    | dsimp only

theorem State.telExec_keeps {u s : State} (h : Keeps u s) (a1) (a2) (a3) (a4) (h4 : ∀ x0 s, Keeps s (a4 x0 s)) : Keeps u (State.telExec s a1 a2 a3 a4) := by
  unfold State.telExec
  try dsimp -iota only
  repeat' first
    | with_reducible refine State.set_keeps ?_ _ _
    | with_reducible refine State.inc_keeps ?_ _ _
    | with_reducible refine State.incSat_keeps ?_ _ _
    | with_reducible refine State.telAdvance_keeps ?_ _ _ _
    | with_reducible refine Keeps.trans ?_ (h4 _ _)
    | with_reducible refine Keeps.ite ?_ ?_
    | with_reducible assumption
    | with_reducible exact Keeps.refl _
    | split
    | dsimp only

theorem telActSet_keeps {u s : State} (h : Keeps u s) (a0) (a1) : Keeps u (telActSet a0 a1 s) := by
  unfold telActSet
  try dsimp -iota only
  repeat' first
    | with_reducible refine State.set_keeps ?_ _ _
    | with_reducible refine State.setLine_keeps ?_ _ _
    | with_reducible refine State.telLevel_keeps ?_ _ _
    | with_reducible refine Keeps.ite ?_ ?_
    | simp only [Keeps.lit]
    | with_reducible assumption
    | with_reducible exact Keeps.refl _
    | split
    | dsimp only

theorem telActClear_keeps {u s : State} (h : Keeps u s) (a0) (a1) : Keeps u (telActClear a0 a1 s) := by
  unfold telActClear
  try dsimp -iota only
  repeat' first
    | with_reducible refine State.setLine_keeps ?_ _ _
    | with_reducible refine State.telLevel_keeps ?_ _ _
    | with_reducible refine Keeps.ite ?_ ?_
    | simp only [Keeps.lit]
    | with_reducible assumption
    | with_reducible exact Keeps.refl _
    | split
    | dsimp only

theorem telActPulse_keeps {u s : State} (h : Keeps u s) (a0) (a1) (a2) : Keeps u (telActPulse a0 a1 a2 s) := by
  unfold telActPulse
  try dsimp -iota only
  repeat' first
    | with_reducible refine State.set_keeps ?_ _ _
    | with_reducible refine State.setLine_keeps ?_ _ _
    | with_reducible refine State.telLevel_keeps ?_ _ _
    | with_reducible refine Keeps.ite ?_ ?_
    | simp only [Keeps.lit]
    | with_reducible assumption
    | with_reducible exact Keeps.refl _
    | split
    | dsimp only

theorem telActOpen_keeps {u s : State} (h : Keeps u s) (a0) (a1) (a2) : Keeps u (telActOpen a0 a1 a2 s) := by
  unfold telActOpen
  try dsimp -iota only
  repeat' first
    | with_reducible refine State.set_keeps ?_ _ _
    | with_reducible refine State.orF_keeps ?_ _ _
    | with_reducible refine State.setLine_keeps ?_ _ _
    | with_reducible refine State.note_keeps ?_ _ _ _ _ _
    | with_reducible refine State.winOpen_keeps ?_ _ _ _
    | with_reducible refine Keeps.ite ?_ ?_
    | simp only [Keeps.lit]
    | with_reducible assumption
    | with_reducible exact Keeps.refl _
    | split
    | dsimp only

theorem telActClose_keeps {u s : State} (h : Keeps u s) (a0) (a1) (a2) : Keeps u (telActClose a0 a1 a2 s) := by
  unfold telActClose
  try dsimp -iota only
  repeat' first
    | with_reducible refine State.winClose_keeps ?_ _ _ _
    | with_reducible assumption
    | with_reducible exact Keeps.refl _

theorem telActArm_keeps {u s : State} (h : Keeps u s) (a0) (a1) (a2) : Keeps u (telActArm a0 a1 a2 s) := by
  unfold telActArm
  try dsimp -iota only
  repeat' first
    | with_reducible refine State.setB_keeps ?_ _ _
    | with_reducible refine Keeps.ite ?_ ?_
    | with_reducible assumption
    | with_reducible exact Keeps.refl _
    | split
    | dsimp only

theorem State.telPulseEnd_keeps {u s : State} (h : Keeps u s) (a1) : Keeps u (State.telPulseEnd s a1) := by
  unfold State.telPulseEnd
  try dsimp -iota only
  repeat' first
    | with_reducible refine State.setLine_keeps ?_ _ _
    | with_reducible refine State.telLevel_keeps ?_ _ _
    | with_reducible refine Keeps.ite ?_ ?_
    | simp only [Keeps.lit]
    | with_reducible assumption
    | with_reducible exact Keeps.refl _
    | split
    | dsimp only

theorem State.telModeEnd_keeps {u s : State} (h : Keeps u s) (a1) (a2) : Keeps u (State.telModeEnd s a1 a2) := by
  unfold State.telModeEnd
  try dsimp -iota only
  repeat' first
    | with_reducible refine State.set_keeps ?_ _ _
    | with_reducible refine State.incSat_keeps ?_ _ _
    | with_reducible refine State.setLine_keeps ?_ _ _
    | with_reducible refine State.setTelBit_keeps ?_ _ _ _
    | with_reducible refine State.telLevel_keeps ?_ _ _
    | with_reducible refine State.winClose_keeps ?_ _ _ _
    | with_reducible refine Keeps.ite ?_ ?_
    | simp only [Keeps.lit]
    | with_reducible assumption
    | with_reducible exact Keeps.refl _
    | split
    | dsimp only

theorem State.telCfg_keeps {u s : State} (h : Keeps u s) (a1) (a2) : Keeps u (State.telCfg s a1 a2) := by
  unfold State.telCfg
  try dsimp -iota only
  repeat' first
    | with_reducible refine State.set_keeps ?_ _ _
    | with_reducible refine State.telModeEnd_keeps ?_ _ _
    | with_reducible refine Keeps.ite ?_ ?_
    | with_reducible assumption
    | with_reducible exact Keeps.refl _
    | split
    | dsimp only

theorem State.telCfgShow_keeps {u s : State} (h : Keeps u s) (a0 : State) (a1) (k0 : Keeps u a0) : Keeps u (State.telCfgShow a0 a1 s) := by
  unfold State.telCfgShow
  try dsimp -iota only
  repeat' first
    | with_reducible refine State.telShow_keeps ?_ _
    | with_reducible refine Keeps.ite ?_ ?_
    | with_reducible assumption
    | with_reducible exact Keeps.refl _
    | split
    | dsimp only

theorem State.telPtr_keeps {u s : State} (h : Keeps u s) (a1) : Keeps u (State.telPtr s a1) := by
  unfold State.telPtr
  try dsimp -iota only
  repeat' first
    | with_reducible refine State.set_keeps ?_ _ _
    | with_reducible refine State.setLine_keeps ?_ _ _
    | with_reducible refine Keeps.ite ?_ ?_
    | simp only [Keeps.lit]
    | with_reducible assumption
    | with_reducible exact Keeps.refl _
    | split
    | dsimp only

theorem State.telFlush_keeps {u s : State} (h : Keeps u s) (a1) : Keeps u (State.telFlush s a1) := by
  unfold State.telFlush
  try dsimp -iota only
  repeat' first
    | with_reducible refine State.setLine_keeps ?_ _ _
    | with_reducible refine Keeps.ite ?_ ?_
    | simp only [Keeps.lit]
    | with_reducible assumption
    | with_reducible exact Keeps.refl _
    | split
    | dsimp only

theorem State.telInval_keeps {u s : State} (h : Keeps u s) (a1) : Keeps u (State.telInval s a1) := by
  unfold State.telInval
  try dsimp -iota only
  repeat' first
    | with_reducible refine State.each_keeps ?_ _ _ (fun _ _ => ?_)
    | with_reducible refine State.telFlush_keeps ?_ _
    | with_reducible refine Keeps.ite ?_ ?_
    | with_reducible assumption
    | with_reducible exact Keeps.refl _
    | split
    | dsimp only

theorem State.telEdge_keeps {u s : State} (h : Keeps u s) (a1) (a2) (a3) (a4) : Keeps u (State.telEdge s a1 a2 a3 a4) := by
  unfold State.telEdge
  try dsimp -iota only
  repeat' first
    | with_reducible refine State.set_keeps ?_ _ _
    | with_reducible refine State.incSat_keeps ?_ _ _
    | with_reducible refine State.orF_keeps ?_ _ _
    | with_reducible refine State.setLine_keeps ?_ _ _
    | with_reducible refine State.setTelBit_keeps ?_ _ _ _
    | with_reducible refine Keeps.ite ?_ ?_
    | simp only [Keeps.lit]
    | with_reducible assumption
    | with_reducible exact Keeps.refl _
    | split
    | dsimp only

theorem State.telOvfEnd_keeps {u s : State} (h : Keeps u s) (a1) : Keeps u (State.telOvfEnd s a1) := by
  unfold State.telOvfEnd
  try dsimp -iota only
  repeat' first
    | with_reducible refine State.setLine_keeps ?_ _ _
    | with_reducible refine State.note_keeps ?_ _ _ _ _ _
    | with_reducible refine Keeps.ite ?_ ?_
    | simp only [Keeps.lit]
    | with_reducible assumption
    | with_reducible exact Keeps.refl _
    | split
    | dsimp only

theorem State.telCapRead_keeps {u s : State} (h : Keeps u s) (a1) (a2) : Keeps u (State.telCapRead s a1 a2) := by
  unfold State.telCapRead
  try dsimp -iota only
  repeat' first
    | with_reducible refine State.set_keeps ?_ _ _
    | with_reducible refine State.setLine_keeps ?_ _ _
    | with_reducible refine State.hold_keeps ?_ _ _ _
    | with_reducible refine State.setTelBit_keeps ?_ _ _ _
    | with_reducible refine Keeps.ite ?_ ?_
    | simp only [Keeps.lit]
    | with_reducible assumption
    | with_reducible exact Keeps.refl _
    | split
    | dsimp only

theorem State.bankDrive_keeps {u s : State} (h : Keeps u s) (a1) : Keeps u (State.bankDrive s a1) := by
  unfold State.bankDrive
  try dsimp -iota only
  repeat' first
    | with_reducible refine State.setBank_keeps ?_ _ _
    | with_reducible refine State.each_keeps ?_ _ _ (fun _ _ => ?_)
    | with_reducible refine State.telShow_keeps ?_ _
    | with_reducible refine Keeps.ite ?_ ?_
    | simp only [Keeps.lit]
    | with_reducible assumption
    | with_reducible exact Keeps.refl _
    | split
    | dsimp only

theorem State.bankMeasure_keeps {u s : State} (h : Keeps u s) (a1) (a2) : Keeps u (State.bankMeasure s a1 a2) := by
  unfold State.bankMeasure
  try dsimp -iota only
  repeat' first
    | with_reducible refine State.set_keeps ?_ _ _
    | with_reducible refine State.setB_keeps ?_ _ _
    | with_reducible refine State.setBank_keeps ?_ _ _
    | with_reducible refine Keeps.ite ?_ ?_
    | simp only [Keeps.lit]
    | with_reducible assumption
    | with_reducible exact Keeps.refl _
    | split
    | dsimp only

theorem State.bankReturn_keeps {u s : State} (h : Keeps u s) (a1) : Keeps u (State.bankReturn s a1) := by
  unfold State.bankReturn
  try dsimp -iota only
  repeat' first
    | with_reducible refine State.bankDrive_keeps ?_ _
    | with_reducible refine Keeps.ite ?_ ?_
    | with_reducible assumption
    | with_reducible exact Keeps.refl _
    | split
    | dsimp only

theorem State.aeludSecond_keeps {u s : State} (h : Keeps u s) : Keeps u (State.aeludSecond s) := by
  unfold State.aeludSecond
  try dsimp -iota only
  repeat' first
    | with_reducible refine State.setLine_keeps ?_ _ _
    | with_reducible refine State.emit_keeps ?_ _
    | with_reducible refine State.each_keeps ?_ _ _ (fun _ _ => ?_)
    | with_reducible refine Keeps.ite ?_ ?_
    | simp only [Keeps.lit]
    | with_reducible assumption
    | with_reducible exact Keeps.refl _
    | split
    | dsimp only

theorem State.telMinimum_keeps {u s : State} (h : Keeps u s) : Keeps u (State.telMinimum s) := by
  unfold State.telMinimum
  try dsimp -iota only
  repeat' first
    | with_reducible refine State.set_keeps ?_ _ _
    | with_reducible refine State.each_keeps ?_ _ _ (fun _ _ => ?_)
    | with_reducible refine State.telModeEnd_keeps ?_ _ _
    | with_reducible refine State.telOvfEnd_keeps ?_ _
    | with_reducible refine Keeps.ite ?_ ?_
    | with_reducible assumption
    | with_reducible exact Keeps.refl _
    | split
    | dsimp only

theorem State.backoffCount_keeps {u s : State} (h : Keeps u s) (a1) (a2) : Keeps u (State.backoffCount s a1 a2) := by
  unfold State.backoffCount
  try dsimp -iota only
  repeat' first
    | with_reducible refine Keeps.ite ?_ ?_
    | simp only [Keeps.lit]
    | with_reducible assumption
    | with_reducible exact Keeps.refl _
    | split
    | dsimp only

theorem State.rtcStamp_keeps {u s : State} (h : Keeps u s) (a1) (a2) : Keeps u (State.rtcStamp s a1 a2) := by
  unfold State.rtcStamp
  try dsimp -iota only
  repeat' first
    | with_reducible refine State.set2_keeps ?_ _ _ _
    | with_reducible assumption
    | with_reducible exact Keeps.refl _

theorem State.rtcWakeSet_keeps {u s : State} (h : Keeps u s) (a1) : Keeps u (State.rtcWakeSet s a1) := by
  unfold State.rtcWakeSet
  try dsimp -iota only
  repeat' first
    | with_reducible refine State.set_keeps ?_ _ _
    | with_reducible refine State.rtcStamp_keeps ?_ _ _
    | with_reducible assumption
    | with_reducible exact Keeps.refl _

theorem State.rtcWake_keeps {u s : State} (h : Keeps u s) (a1) : Keeps u (State.rtcWake s a1) := by
  unfold State.rtcWake
  try dsimp -iota only
  repeat' first
    | with_reducible refine State.set_keeps ?_ _ _
    | with_reducible refine Keeps.ite ?_ ?_
    | simp only [Keeps.lit]
    | with_reducible assumption
    | with_reducible exact Keeps.refl _
    | split
    | dsimp only

theorem State.rtcFswClr_keeps {u s : State} (h : Keeps u s) : Keeps u (State.rtcFswClr s) := by
  unfold State.rtcFswClr
  try dsimp -iota only
  repeat' first
    | with_reducible refine State.set_keeps ?_ _ _
    | with_reducible refine State.set2_keeps ?_ _ _ _
    | with_reducible refine Keeps.ite ?_ ?_
    | with_reducible assumption
    | with_reducible exact Keeps.refl _
    | split
    | dsimp only

theorem State.rtcLater_keeps {u s : State} (h : Keeps u s) (a1) (a2) (a3) : Keeps u (State.rtcLater s a1 a2 a3) := by
  unfold State.rtcLater
  try dsimp -iota only
  repeat' first
    | with_reducible refine Keeps.ite ?_ ?_
    | simp only [Keeps.lit]
    | with_reducible assumption
    | with_reducible exact Keeps.refl _
    | split
    | dsimp only

theorem State.rtcTake_keeps {u s : State} (h : Keeps u s) (a1) : Keeps u (State.rtcTake s a1) := by
  unfold State.rtcTake
  try dsimp -iota only
  repeat' first
    | with_reducible refine State.set_keeps ?_ _ _
    | with_reducible refine State.attnUpdate_keeps ?_
    | with_reducible refine State.rtcWake_keeps ?_ _
    | with_reducible refine State.rtcFswClr_keeps ?_
    | with_reducible refine Keeps.ite ?_ ?_
    | with_reducible refine Keeps.foldl ?_ _ _ (fun _ _ => ?_)
    | with_reducible assumption
    | with_reducible exact Keeps.refl _
    | split
    | dsimp only

theorem State.rtcCount_keeps {u s : State} (h : Keeps u s) (a1) : Keeps u (State.rtcCount s a1) := by
  unfold State.rtcCount
  try dsimp -iota only
  repeat' first
    | with_reducible refine State.backoffCount_keeps ?_ _ _
    | simp only [Keeps.lit]
    | with_reducible assumption
    | with_reducible exact Keeps.refl _

theorem State.rtcAdvance_keeps {u s : State} (h : Keeps u s) (a1) : Keeps u (State.rtcAdvance s a1) := by
  unfold State.rtcAdvance
  try dsimp -iota only
  repeat' first
    | with_reducible refine State.rtcTake_keeps ?_ _
    | with_reducible refine State.rtcCount_keeps ?_ _
    | with_reducible refine Keeps.ite ?_ ?_
    | with_reducible refine Keeps.foldl ?_ _ _ (fun _ _ => ?_)
    | simp only [Keeps.lit]
    | with_reducible assumption
    | with_reducible exact Keeps.refl _
    | split
    | dsimp only

theorem State.custWake_keeps {u s : State} (h : Keeps u s) (a1) (a2) : Keeps u (State.custWake s a1 a2) := by
  unfold State.custWake
  try dsimp -iota only
  repeat' first
    | with_reducible refine State.rtcLater_keeps ?_ _ _ _
    | with_reducible refine Keeps.ite ?_ ?_
    | simp only [Keeps.lit]
    | with_reducible assumption
    | with_reducible exact Keeps.refl _
    | split
    | dsimp only

theorem State.wreasonAct_keeps {u s : State} (h : Keeps u s) (a1) : Keeps u (State.wreasonAct s a1) := by
  unfold State.wreasonAct
  try dsimp -iota only
  repeat' first
    | with_reducible refine State.rtcLater_keeps ?_ _ _ _
    | with_reducible refine Keeps.ite ?_ ?_
    | with_reducible assumption
    | with_reducible exact Keeps.refl _
    | split
    | dsimp only

theorem State.custFswClr_keeps {u s : State} (h : Keeps u s) : Keeps u (State.custFswClr s) := by
  unfold State.custFswClr
  try dsimp -iota only
  repeat' first
    | with_reducible refine State.rtcLater_keeps ?_ _ _ _
    | with_reducible refine Keeps.ite ?_ ?_
    | with_reducible assumption
    | with_reducible exact Keeps.refl _
    | split
    | dsimp only

theorem State.rtcCommit_keeps {u s : State} (h : Keeps u s) (a1) : Keeps u (State.rtcCommit s a1) := by
  unfold State.rtcCommit
  try dsimp -iota only
  repeat' first
    | with_reducible refine State.set_keeps ?_ _ _
    | simp only [Keeps.lit]
    | with_reducible assumption
    | with_reducible exact Keeps.refl _

theorem State.rtcSecApply_keeps {u s : State} (h : Keeps u s) (a1) : Keeps u (State.rtcSecApply s a1) := by
  unfold State.rtcSecApply
  try dsimp -iota only
  repeat' first
    | with_reducible refine State.set_keeps ?_ _ _
    | with_reducible refine State.rtcAdvance_keeps ?_ _
    | with_reducible refine Keeps.ite ?_ ?_
    | simp only [Keeps.lit]
    | with_reducible assumption
    | with_reducible exact Keeps.refl _
    | split
    | dsimp only

theorem State.rtcPeriodic_keeps {u s : State} (h : Keeps u s) (a1) : Keeps u (State.rtcPeriodic s a1) := by
  unfold State.rtcPeriodic
  try dsimp -iota only
  repeat' first
    | with_reducible refine State.set_keeps ?_ _ _
    | with_reducible refine State.incSat_keeps ?_ _ _
    | with_reducible refine State.rtcWakeSet_keeps ?_ _
    | with_reducible refine State.rtcAdvance_keeps ?_ _
    | with_reducible refine Keeps.ite ?_ ?_
    | simp only [Keeps.lit]
    | with_reducible assumption
    | with_reducible exact Keeps.refl _
    | split
    | dsimp only

theorem State.rtcHost_keeps {u s : State} (h : Keeps u s) (a1) : Keeps u (State.rtcHost s a1) := by
  unfold State.rtcHost
  try dsimp -iota only
  repeat' first
    | with_reducible refine State.rtcWakeSet_keeps ?_ _
    | with_reducible refine State.rtcAdvance_keeps ?_ _
    | with_reducible refine Keeps.ite ?_ ?_
    | simp only [Keeps.lit]
    | with_reducible assumption
    | with_reducible exact Keeps.refl _
    | split
    | dsimp only

theorem State.rtcToVbat_keeps {u s : State} (h : Keeps u s) (a1) : Keeps u (State.rtcToVbat s a1) := by
  unfold State.rtcToVbat
  try dsimp -iota only
  repeat' first
    | with_reducible refine State.set_keeps ?_ _ _
    | with_reducible refine State.incSat_keeps ?_ _ _
    | with_reducible refine State.rtcStamp_keeps ?_ _ _
    | with_reducible refine State.rtcAdvance_keeps ?_ _
    | with_reducible refine Keeps.ite ?_ ?_
    | simp only [Keeps.lit]
    | with_reducible assumption
    | with_reducible exact Keeps.refl _
    | split
    | dsimp only

theorem State.rtcFromVbat_keeps {u s : State} (h : Keeps u s) (a1) : Keeps u (State.rtcFromVbat s a1) := by
  unfold State.rtcFromVbat
  try dsimp -iota only
  repeat' first
    | with_reducible refine State.set_keeps ?_ _ _
    | with_reducible refine State.rtcStamp_keeps ?_ _ _
    | with_reducible refine State.rtcWakeSet_keeps ?_ _
    | with_reducible refine State.rtcAdvance_keeps ?_ _
    | with_reducible refine Keeps.ite ?_ ?_
    | with_reducible assumption
    | with_reducible exact Keeps.refl _
    | split
    | dsimp only

theorem State.rtcReset_keeps {u s : State} (h : Keeps u s) : Keeps u (State.rtcReset s) := by
  unfold State.rtcReset
  try dsimp -iota only
  repeat' first
    | with_reducible refine State.clearRegs_keeps ?_ _ _
    | with_reducible refine State.clearLatches_keeps ?_ _ _
    | with_reducible refine Keeps.ite ?_ ?_
    | simp only [Keeps.lit]
    | with_reducible assumption
    | with_reducible exact Keeps.refl _
    | split
    | dsimp only

theorem State.rtcLeaveReset_keeps {u s : State} (h : Keeps u s) (a1) : Keeps u (State.rtcLeaveReset s a1) := by
  unfold State.rtcLeaveReset
  try dsimp -iota only
  repeat' first
    | with_reducible refine State.setB_keeps ?_ _ _
    | with_reducible refine Keeps.ite ?_ ?_
    | simp only [Keeps.lit]
    | with_reducible assumption
    | with_reducible exact Keeps.refl _
    | split
    | dsimp only

theorem State.rtcVbat_keeps {u s : State} (h : Keeps u s) (a1) : Keeps u (State.rtcVbat s a1) := by
  unfold State.rtcVbat
  try dsimp -iota only
  repeat' first
    | with_reducible refine State.set_keeps ?_ _ _
    | with_reducible refine State.setB_keeps ?_ _ _
    | with_reducible refine Keeps.ite ?_ ?_
    | with_reducible assumption
    | with_reducible exact Keeps.refl _
    | split
    | dsimp only

theorem State.rtcXofail_keeps {u s : State} (h : Keeps u s) (a1) : Keeps u (State.rtcXofail s a1) := by
  unfold State.rtcXofail
  try dsimp -iota only
  repeat' first
    | with_reducible refine State.set_keeps ?_ _ _
    | with_reducible refine State.rtcAdvance_keeps ?_ _
    | with_reducible refine Keeps.ite ?_ ?_
    | simp only [Keeps.lit]
    | with_reducible assumption
    | with_reducible exact Keeps.refl _
    | split
    | dsimp only

theorem State.rtcEdgesReturn_keeps {u s : State} (h : Keeps u s) : Keeps u (State.rtcEdgesReturn s) := by
  unfold State.rtcEdgesReturn
  try dsimp -iota only
  repeat' first
    | simp only [Keeps.lit]
    | with_reducible assumption
    | with_reducible exact Keeps.refl _

end Sys2Proof.Machine
end

