-- ==== Sys2Proof/Laws/KeepsTime.lean ====
section
/-! SUPPORT. What every operation keeps, one lemma an operation. The time core, synthesisers, tracking, measurements and the custody record. -/

namespace Sys2Proof.Machine

set_option linter.unusedVariables false
set_option Elab.async false

theorem State.timEval_keeps {u s : State} (h : Keeps u s) : Keeps u (State.timEval s) := by
  unfold State.timEval
  try dsimp -iota only
  repeat' first
    | with_reducible refine State.set_keeps ?_ _ _
    | with_reducible refine State.setI_keeps ?_ _ _
    | with_reducible refine Keeps.ite ?_ ?_
    | with_reducible assumption
    | with_reducible exact Keeps.refl _
    | split
    | dsimp only

theorem State.timRelease_keeps {u s : State} (h : Keeps u s) (a1) (a2) (a3) (a4) (a5) (a6) : Keeps u (State.timRelease s a1 a2 a3 a4 a5 a6) := by
  unfold State.timRelease
  try dsimp -iota only
  repeat' first
    | with_reducible refine State.set_keeps ?_ _ _
    | with_reducible refine Keeps.ite ?_ ?_
    | simp only [Keeps.lit]
    | with_reducible assumption
    | with_reducible exact Keeps.refl _
    | split
    | dsimp only

theorem State.timFixGo_keeps {u s : State} (h : Keeps u s) (a1) : Keeps u (State.timFixGo s a1) := by
  unfold State.timFixGo
  try dsimp -iota only
  repeat' first
    | with_reducible refine State.timRelease_keeps ?_ _ _ _ _ _ _
    | with_reducible refine Keeps.ite ?_ ?_
    | with_reducible assumption
    | with_reducible exact Keeps.refl _
    | split
    | dsimp only

theorem State.timStepGo_keeps {u s : State} (h : Keeps u s) (a1) : Keeps u (State.timStepGo s a1) := by
  unfold State.timStepGo
  try dsimp -iota only
  repeat' first
    | with_reducible refine State.set_keeps ?_ _ _
    | with_reducible refine Keeps.ite ?_ ?_
    | simp only [Keeps.lit]
    | with_reducible assumption
    | with_reducible exact Keeps.refl _
    | split
    | dsimp only

theorem State.timLoadGo_keeps {u s : State} (h : Keeps u s) (a1) : Keeps u (State.timLoadGo s a1) := by
  unfold State.timLoadGo
  try dsimp -iota only
  repeat' first
    | with_reducible refine State.set_keeps ?_ _ _
    | with_reducible refine Keeps.ite ?_ ?_
    | simp only [Keeps.lit]
    | with_reducible assumption
    | with_reducible exact Keeps.refl _
    | split
    | dsimp only

theorem State.tpMoved_keeps {u s : State} (h : Keeps u s) (a1) : Keeps u (State.tpMoved s a1) := by
  unfold State.tpMoved
  try dsimp -iota only
  repeat' first
    | with_reducible refine State.setTp_keeps ?_ _ _
    | with_reducible refine State.each_keeps ?_ _ _ (fun _ _ => ?_)
    | with_reducible refine Keeps.ite ?_ ?_
    | simp only [Keeps.lit]
    | with_reducible assumption
    | with_reducible exact Keeps.refl _
    | split
    | dsimp only

theorem State.telMoved_keeps {u s : State} (h : Keeps u s) (a1) : Keeps u (State.telMoved s a1) := by
  unfold State.telMoved
  try dsimp -iota only
  repeat' first
    | with_reducible refine State.setLine_keeps ?_ _ _
    | with_reducible refine State.each_keeps ?_ _ _ (fun _ _ => ?_)
    | with_reducible refine Keeps.ite ?_ ?_
    | simp only [Keeps.lit]
    | with_reducible assumption
    | with_reducible exact Keeps.refl _
    | split
    | dsimp only

theorem State.timLoadApply_keeps {u s : State} (h : Keeps u s) : Keeps u (State.timLoadApply s) := by
  unfold State.timLoadApply
  try dsimp -iota only
  repeat' first
    | with_reducible refine State.set_keeps ?_ _ _
    | with_reducible refine State.sumMoved_keeps ?_ _
    | with_reducible refine State.tpMoved_keeps ?_ _
    | with_reducible refine State.telMoved_keeps ?_ _
    | with_reducible refine Keeps.ite ?_ ?_
    | simp only [Keeps.lit]
    | with_reducible assumption
    | with_reducible exact Keeps.refl _
    | split
    | dsimp only

theorem State.timStepApply_keeps {u s : State} (h : Keeps u s) (a1) : Keeps u (State.timStepApply s a1) := by
  unfold State.timStepApply
  try dsimp -iota only
  repeat' first
    | with_reducible refine State.set_keeps ?_ _ _
    | with_reducible refine State.orF_keeps ?_ _ _
    | with_reducible refine State.setTp_keeps ?_ _ _
    | with_reducible refine State.note_keeps ?_ _ _ _ _ _
    | with_reducible refine State.each_keeps ?_ _ _ (fun _ _ => ?_)
    | with_reducible refine State.sumMoved_keeps ?_ _
    | with_reducible refine State.telMoved_keeps ?_ _
    | with_reducible refine Keeps.ite ?_ ?_
    | with_reducible refine Keeps.foldl ?_ _ _ (fun _ _ => ?_)
    | simp only [Keeps.lit]
    | with_reducible assumption
    | with_reducible exact Keeps.refl _
    | split
    | dsimp only

theorem State.timFixApply_keeps {u s : State} (h : Keeps u s) (a1) : KeepsP u (State.timFixApply s a1) := by
  unfold State.timFixApply
  try dsimp -iota only
  repeat' first
    | with_reducible refine State.set_keeps ?_ _ _
    | with_reducible refine State.orF_keeps ?_ _ _
    | with_reducible refine Keeps.ite ?_ ?_
    | simp -iota -zeta -proj only [KeepsP.pair]
    | with_reducible refine KeepsP.ite ?_ ?_
    | simp only [Keeps.lit]
    | with_reducible assumption
    | with_reducible exact Keeps.refl _
    | split
    | dsimp only
theorem State.timFixApply_keepsP {u s t : State} {v} {a1} (e : State.timFixApply s a1 = (t, v)) (h : Keeps u s) : Keeps u t :=
  KeepsP.of_eq (State.timFixApply_keeps h a1) e

theorem State.timRate_keeps {u s : State} (h : Keeps u s) : Keeps u (State.timRate s) := by
  unfold State.timRate
  try dsimp -iota only
  repeat' first
    | with_reducible refine State.setI_keeps ?_ _ _
    | with_reducible refine State.setB_keeps ?_ _ _
    | with_reducible refine State.setI2_keeps ?_ _ _ _
    | with_reducible refine Keeps.ite ?_ ?_
    | simp only [Keeps.lit]
    | with_reducible assumption
    | with_reducible exact Keeps.refl _
    | split
    | dsimp only

theorem State.timClose_keeps {u s : State} (h : Keeps u s) : Keeps u (State.timClose s) := by
  unfold State.timClose
  try dsimp -iota only
  repeat' first
    | with_reducible refine State.orF_keeps ?_ _ _
    | with_reducible refine Keeps.ite ?_ ?_
    | simp only [Keeps.lit]
    | with_reducible assumption
    | with_reducible exact Keeps.refl _
    | split
    | dsimp only

theorem State.timSettings_keeps {u s : State} (h : Keeps u s) : Keeps u (State.timSettings s) := by
  unfold State.timSettings
  try dsimp -iota only
  repeat' first
    | with_reducible refine Keeps.ite ?_ ?_
    | with_reducible refine Keeps.foldl ?_ _ _ (fun _ _ => ?_)
    | simp only [Keeps.lit]
    | with_reducible assumption
    | with_reducible exact Keeps.refl _
    | split
    | dsimp only

theorem State.timAging_keeps {u s : State} (h : Keeps u s) : Keeps u (State.timAging s) := by
  unfold State.timAging
  try dsimp -iota only
  repeat' first
    | with_reducible refine Keeps.ite ?_ ?_
    | simp only [Keeps.lit]
    | with_reducible assumption
    | with_reducible exact Keeps.refl _
    | split
    | dsimp only

theorem State.timOcompReg_keeps {u s : State} (h : Keeps u s) : Keeps u (State.timOcompReg s) := by
  unfold State.timOcompReg
  try dsimp -iota only
  repeat' first
    | with_reducible refine State.setI2_keeps ?_ _ _ _
    | with_reducible refine Keeps.ite ?_ ?_
    | with_reducible assumption
    | with_reducible exact Keeps.refl _
    | split
    | dsimp only

theorem State.timLeap_keeps {u s : State} (h : Keeps u s) (a1) : Keeps u (State.timLeap s a1) := by
  unfold State.timLeap
  try dsimp -iota only
  repeat' first
    | with_reducible refine State.set_keeps ?_ _ _
    | with_reducible refine State.setI_keeps ?_ _ _
    | with_reducible refine Keeps.ite ?_ ?_
    | simp only [Keeps.lit]
    | with_reducible assumption
    | with_reducible exact Keeps.refl _
    | split
    | dsimp only

theorem State.timCalibrate_keeps {u s : State} (h : Keeps u s) (a1) : Keeps u (State.timCalibrate s a1) := by
  unfold State.timCalibrate
  try dsimp -iota only
  repeat' first
    | with_reducible refine State.set_keeps ?_ _ _
    | with_reducible refine State.setB_keeps ?_ _ _
    | with_reducible refine State.each_keeps ?_ _ _ (fun _ _ => ?_)
    | with_reducible refine Keeps.ite ?_ ?_
    | with_reducible assumption
    | with_reducible exact Keeps.refl _
    | split
    | dsimp only

theorem State.timLeapAt_keeps {u s : State} (h : Keeps u s) (a1) : Keeps u (State.timLeapAt s a1) := by
  unfold State.timLeapAt
  try dsimp -iota only
  repeat' first
    | with_reducible refine State.timLeap_keeps ?_ _
    | with_reducible refine Keeps.ite ?_ ?_
    | with_reducible assumption
    | with_reducible exact Keeps.refl _
    | split
    | dsimp only

theorem State.timSecond_keeps {u s : State} (h : Keeps u s) (a1) : KeepsP u (State.timSecond s a1) := by
  unfold State.timSecond
  try dsimp -iota only
  repeat' first
    | with_reducible refine State.set_keeps ?_ _ _
    | with_reducible refine State.orF_keeps ?_ _ _
    | with_reducible refine State.timStepApply_keeps ?_ _
    | with_reducible refine State.timFixApply_keeps ?_ _
    | with_reducible refine KeepsP.fst (State.timFixApply_keeps ?_ _)
    | with_reducible refine State.timFixApply_keepsP (by assumption) ?_
    | with_reducible refine State.timRate_keeps ?_
    | with_reducible refine State.timClose_keeps ?_
    | with_reducible refine State.timSettings_keeps ?_
    | with_reducible refine State.timAging_keeps ?_
    | with_reducible refine State.timOcompReg_keeps ?_
    | with_reducible refine State.timCalibrate_keeps ?_ _
    | with_reducible refine State.timLeapAt_keeps ?_ _
    | with_reducible refine Keeps.ite ?_ ?_
    | simp -iota -zeta -proj only [KeepsP.pair]
    | with_reducible refine KeepsP.ite ?_ ?_
    | with_reducible refine KeepsP.fst (KeepsP.ite ?_ ?_)
    | simp only [Keeps.lit]
    | with_reducible assumption
    | with_reducible exact Keeps.refl _
    | split
    | dsimp only
theorem State.timSecond_keepsP {u s t : State} {v} {a1} (e : State.timSecond s a1 = (t, v)) (h : Keeps u s) : Keeps u t :=
  KeepsP.of_eq (State.timSecond_keeps h a1) e

theorem State.tpWritten_keeps {u s : State} (h : Keeps u s) (a1) : Keeps u (State.tpWritten s a1) := by
  unfold State.tpWritten
  try dsimp -iota only
  repeat' first
    | with_reducible refine State.set_keeps ?_ _ _
    | with_reducible refine State.setTp_keeps ?_ _ _
    | with_reducible refine Keeps.ite ?_ ?_
    | simp only [Keeps.lit]
    | with_reducible assumption
    | with_reducible exact Keeps.refl _
    | split
    | dsimp only

theorem State.tpApply_keeps {u s : State} (h : Keeps u s) (a1) (a2) : Keeps u (State.tpApply s a1 a2) := by
  unfold State.tpApply
  try dsimp -iota only
  repeat' first
    | with_reducible refine State.set_keeps ?_ _ _
    | with_reducible refine State.setTp_keeps ?_ _ _
    | with_reducible refine State.tpRest_keeps ?_ _
    | with_reducible refine Keeps.ite ?_ ?_
    | simp only [Keeps.lit]
    | with_reducible assumption
    | with_reducible exact Keeps.refl _
    | split
    | dsimp only

theorem State.tpShow_keeps {u s : State} (h : Keeps u s) (a1) : Keeps u (State.tpShow s a1) := by
  unfold State.tpShow
  try dsimp -iota only
  repeat' first
    | with_reducible refine State.set_keeps ?_ _ _
    | with_reducible refine State.setI_keeps ?_ _ _
    | with_reducible refine Keeps.ite ?_ ?_
    | with_reducible assumption
    | with_reducible exact Keeps.refl _
    | split
    | dsimp only

theorem State.tpCompose_keeps {u s : State} (h : Keeps u s) (a1) (a2) : Keeps u (State.tpCompose s a1 a2) := by
  unfold State.tpCompose
  try dsimp -iota only
  repeat' first
    | with_reducible refine State.orF_keeps ?_ _ _
    | with_reducible refine State.setTp_keeps ?_ _ _
    | with_reducible refine State.tpShow_keeps ?_ _
    | with_reducible refine Keeps.ite ?_ ?_
    | simp only [Keeps.lit]
    | with_reducible assumption
    | with_reducible exact Keeps.refl _
    | split
    | dsimp only

theorem State.tpLead_keeps {u s : State} (h : Keeps u s) (a1) : Keeps u (State.tpLead s a1) := by
  unfold State.tpLead
  try dsimp -iota only
  repeat' first
    | with_reducible refine State.set_keeps ?_ _ _
    | with_reducible refine State.inc_keeps ?_ _ _
    | with_reducible refine State.setTp_keeps ?_ _ _
    | with_reducible refine State.tpDrive_keeps ?_ _ _
    | with_reducible refine State.tpShow_keeps ?_ _
    | with_reducible refine Keeps.ite ?_ ?_
    | simp only [Keeps.lit]
    | with_reducible assumption
    | with_reducible exact Keeps.refl _
    | split
    | dsimp only

theorem State.tpEnd_keeps {u s : State} (h : Keeps u s) (a1) : Keeps u (State.tpEnd s a1) := by
  unfold State.tpEnd
  try dsimp -iota only
  repeat' first
    | with_reducible refine State.set_keeps ?_ _ _
    | with_reducible refine State.setTp_keeps ?_ _ _
    | with_reducible refine State.tpRest_keeps ?_ _
    | with_reducible refine Keeps.ite ?_ ?_
    | simp only [Keeps.lit]
    | with_reducible assumption
    | with_reducible exact Keeps.refl _
    | split
    | dsimp only

theorem State.tpTrail_keeps {u s : State} (h : Keeps u s) (a1) : Keeps u (State.tpTrail s a1) := by
  unfold State.tpTrail
  try dsimp -iota only
  repeat' first
    | with_reducible refine State.tpEnd_keeps ?_ _
    | with_reducible refine Keeps.ite ?_ ?_
    | with_reducible assumption
    | with_reducible exact Keeps.refl _
    | split
    | dsimp only

theorem State.tpMinimum_keeps {u s : State} (h : Keeps u s) : Keeps u (State.tpMinimum s) := by
  unfold State.tpMinimum
  try dsimp -iota only
  repeat' first
    | with_reducible refine State.set_keeps ?_ _ _
    | with_reducible refine State.clearRegs_keeps ?_ _ _
    | with_reducible refine State.tpWritten_keeps ?_ _
    | with_reducible refine Keeps.ite ?_ ?_
    | with_reducible assumption
    | with_reducible exact Keeps.refl _
    | split
    | dsimp only

theorem State.tpiStamp_keeps {u s : State} (h : Keeps u s) (a1) : Keeps u (State.tpiStamp s a1) := by
  unfold State.tpiStamp
  try dsimp -iota only
  repeat' first
    | with_reducible refine State.set_keeps ?_ _ _
    | with_reducible refine State.orF_keeps ?_ _ _
    | with_reducible refine Keeps.ite ?_ ?_
    | with_reducible assumption
    | with_reducible exact Keeps.refl _
    | split
    | dsimp only

theorem State.tpiCfg_keeps {u s : State} (h : Keeps u s) (a1) : Keeps u (State.tpiCfg s a1) := by
  unfold State.tpiCfg
  try dsimp -iota only
  repeat' first
    | with_reducible refine Keeps.ite ?_ ?_
    | simp only [Keeps.lit]
    | with_reducible assumption
    | with_reducible exact Keeps.refl _
    | split
    | dsimp only

theorem State.pllShow_keeps {u s : State} (h : Keeps u s) (a1) (a2) : Keeps u (State.pllShow s a1 a2) := by
  unfold State.pllShow
  try dsimp -iota only
  repeat' first
    | with_reducible refine State.set_keeps ?_ _ _
    | with_reducible assumption
    | with_reducible exact Keeps.refl _

theorem State.ckoShow_keeps {u s : State} (h : Keeps u s) (a1) : Keeps u (State.ckoShow s a1) := by
  unfold State.ckoShow
  try dsimp -iota only
  repeat' first
    | with_reducible refine State.set_keeps ?_ _ _
    | with_reducible refine State.setB_keeps ?_ _ _
    | with_reducible refine Keeps.ite ?_ ?_
    | with_reducible assumption
    | with_reducible exact Keeps.refl _
    | split
    | dsimp only

theorem State.ckoShowAll_keeps {u s : State} (h : Keeps u s) : Keeps u (State.ckoShowAll s) := by
  unfold State.ckoShowAll
  try dsimp -iota only
  repeat' first
    | with_reducible refine State.each_keeps ?_ _ _ (fun _ _ => ?_)
    | with_reducible refine State.ckoShow_keeps ?_ _
    | with_reducible refine Keeps.ite ?_ ?_
    | with_reducible assumption
    | with_reducible exact Keeps.refl _
    | split
    | dsimp only

theorem State.bankShow_keeps {u s : State} (h : Keeps u s) (a1) : Keeps u (State.bankShow s a1) := by
  unfold State.bankShow
  try dsimp -iota only
  repeat' first
    | with_reducible refine State.each_keeps ?_ _ _ (fun _ _ => ?_)
    | with_reducible refine State.ckoShow_keeps ?_ _
    | with_reducible refine Keeps.ite ?_ ?_
    | with_reducible assumption
    | with_reducible exact Keeps.refl _
    | split
    | dsimp only

theorem State.ckoWritten_keeps {u s : State} (h : Keeps u s) (a1) : Keeps u (State.ckoWritten s a1) := by
  unfold State.ckoWritten
  try dsimp -iota only
  repeat' first
    | with_reducible refine State.set_keeps ?_ _ _
    | with_reducible refine State.setCko_keeps ?_ _ _
    | simp only [Keeps.lit]
    | with_reducible assumption
    | with_reducible exact Keeps.refl _

theorem State.ckoApply_keeps {u s : State} (h : Keeps u s) (a1) : Keeps u (State.ckoApply s a1) := by
  unfold State.ckoApply
  try dsimp -iota only
  repeat' first
    | with_reducible refine State.set_keeps ?_ _ _
    | with_reducible refine State.setCko_keeps ?_ _ _
    | with_reducible refine State.ckoShow_keeps ?_ _
    | with_reducible refine Keeps.ite ?_ ?_
    | simp only [Keeps.lit]
    | with_reducible assumption
    | with_reducible exact Keeps.refl _
    | split
    | dsimp only

theorem State.ckoPhase_keeps {u s : State} (h : Keeps u s) (a1) (a2) : Keeps u (State.ckoPhase s a1 a2) := by
  unfold State.ckoPhase
  try dsimp -iota only
  repeat' first
    | with_reducible refine State.setI_keeps ?_ _ _
    | with_reducible refine Keeps.ite ?_ ?_
    | with_reducible assumption
    | with_reducible exact Keeps.refl _
    | split
    | dsimp only

theorem State.pllDown_keeps {u s : State} (h : Keeps u s) (a1) (a2) : Keeps u (State.pllDown s a1 a2) := by
  unfold State.pllDown
  try dsimp -iota only
  repeat' first
    | with_reducible refine State.set_keeps ?_ _ _
    | with_reducible refine State.setPll_keeps ?_ _ _
    | with_reducible refine State.attnUpdate_keeps ?_
    | with_reducible refine State.tpRest_keeps ?_ _
    | with_reducible refine State.each_keeps ?_ _ _ (fun _ _ => ?_)
    | with_reducible refine State.migAbort_keeps ?_ _
    | with_reducible refine State.engCancel_keeps ?_ _
    | with_reducible refine State.winClose_keeps ?_ _ _ _
    | with_reducible refine State.tpEnd_keeps ?_ _
    | with_reducible refine State.ckoShowAll_keeps ?_
    | with_reducible refine State.bankShow_keeps ?_ _
    | with_reducible refine Keeps.ite ?_ ?_
    | with_reducible refine Keeps.foldl ?_ _ _ (fun _ _ => ?_)
    | simp only [Keeps.lit]
    | with_reducible assumption
    | with_reducible exact Keeps.refl _
    | split
    | dsimp only

theorem State.noBand_keeps {u s : State} (h : Keeps u s) (a1) (a2) : Keeps u (State.noBand s a1 a2) := by
  unfold State.noBand
  try dsimp -iota only
  repeat' first
    | with_reducible refine State.set_keeps ?_ _ _
    | with_reducible refine State.note_keeps ?_ _ _ _ _ _
    | with_reducible assumption
    | with_reducible exact Keeps.refl _

theorem State.pllWait_keeps {u s : State} (h : Keeps u s) (a1) : Keeps u (State.pllWait s a1) := by
  unfold State.pllWait
  try dsimp -iota only
  repeat' first
    | with_reducible refine State.set_keeps ?_ _ _
    | with_reducible refine State.setPll_keeps ?_ _ _
    | simp only [Keeps.lit]
    | with_reducible assumption
    | with_reducible exact Keeps.refl _

theorem State.pllStartAt_keeps {u s : State} (h : Keeps u s) (x : Nat) (t : PllTarget) (lost : Bool) (runt : List Nat)
    (r : Option (Nat × Nat × Nat)) : Keeps u (s.pllStartAt x t lost runt r) := by
  cases r with
  | none => exact State.noBand_keeps (Keeps.ite (State.set_keeps h _ _) h) _ _
  | some r =>
    obtain ⟨b, m⟩ := r
    have k := State.setPll_keeps (State.pllDown_keeps h x runt) x { (s.pllDown x runt).pll x with
      commit := t, edges := m, table := (List.range 64).map ((s.pllDown x runt).bandEdges x),
      phofs := (s.pllDown x runt).getI (PLL_PHOFS_PS x), noRef := false }
    exact Keeps.ite (State.pllWait_keeps k _) (State.set_keeps (State.set_keeps (State.set_keeps k _ _) _ _) _ _)

theorem State.pllStart_keeps {u s : State} (h : Keeps u s) (x : Nat) (t : PllTarget) (lost : Bool) (runt : List Nat) :
    Keeps u (s.pllStart x t lost runt) := State.pllStartAt_keeps h _ _ _ _ _

theorem State.pllCalDone_keeps {u s : State} (h : Keeps u s) (a1) : Keeps u (State.pllCalDone s a1) := by
  unfold State.pllCalDone
  try dsimp -iota only
  repeat' first
    | with_reducible refine State.set_keeps ?_ _ _
    | with_reducible refine Keeps.ite ?_ ?_
    | with_reducible assumption
    | with_reducible exact Keeps.refl _
    | split
    | dsimp only

theorem State.pllLock_keeps {u s : State} (h : Keeps u s) (a1) : Keeps u (State.pllLock s a1) := by
  unfold State.pllLock
  try dsimp -iota only
  repeat' first
    | with_reducible refine State.set_keeps ?_ _ _
    | with_reducible refine Keeps.ite ?_ ?_
    | with_reducible assumption
    | with_reducible exact Keeps.refl _
    | split
    | dsimp only

theorem State.refOk_keeps {u s : State} (h : Keeps u s) : Keeps u (State.refOk s) := by
  unfold State.refOk
  try dsimp -iota only
  repeat' first
    | with_reducible refine State.note_keeps ?_ _ _ _ _ _
    | with_reducible refine State.attnUpdate_keeps ?_
    | with_reducible refine State.tpRest_keeps ?_ _
    | with_reducible refine State.each_keeps ?_ _ _ (fun _ _ => ?_)
    | with_reducible refine State.ckoShowAll_keeps ?_
    | with_reducible refine Keeps.ite ?_ ?_
    | simp only [Keeps.lit]
    | with_reducible assumption
    | with_reducible exact Keeps.refl _
    | split
    | dsimp only

theorem State.pllAligned_keeps {u s : State} (h : Keeps u s) (a1) : Keeps u (State.pllAligned s a1) := by
  unfold State.pllAligned
  try dsimp -iota only
  repeat' first
    | with_reducible refine State.set_keeps ?_ _ _
    | with_reducible refine State.setPll_keeps ?_ _ _
    | with_reducible refine State.note_keeps ?_ _ _ _ _ _
    | with_reducible refine State.attnUpdate_keeps ?_
    | with_reducible refine State.each_keeps ?_ _ _ (fun _ _ => ?_)
    | with_reducible refine State.cluResume_keeps ?_ _
    | with_reducible refine State.lateOpen_keeps ?_
    | with_reducible refine State.bankShow_keeps ?_ _
    | with_reducible refine State.refOk_keeps ?_
    | with_reducible refine Keeps.ite ?_ ?_
    | simp only [Keeps.lit]
    | with_reducible assumption
    | with_reducible exact Keeps.refl _
    | split
    | dsimp only

theorem State.pllLol_keeps {u s : State} (h : Keeps u s) (a1) (a2) : Keeps u (State.pllLol s a1 a2) := by
  unfold State.pllLol
  try dsimp -iota only
  repeat' first
    | with_reducible refine State.set_keeps ?_ _ _
    | with_reducible refine State.incSat_keeps ?_ _ _
    | with_reducible refine State.pllDown_keeps ?_ _ _
    | with_reducible refine State.pllStart_keeps ?_ _ _ _ _
    | with_reducible refine Keeps.ite ?_ ?_
    | with_reducible assumption
    | with_reducible exact Keeps.refl _
    | split
    | dsimp only

theorem State.pllLor_keeps {u s : State} (h : Keeps u s) (a1) : Keeps u (State.pllLor s a1) := by
  unfold State.pllLor
  try dsimp -iota only
  repeat' first
    | with_reducible refine State.set_keeps ?_ _ _
    | with_reducible refine State.incSat_keeps ?_ _ _
    | with_reducible refine State.each_keeps ?_ _ _ (fun _ _ => ?_)
    | with_reducible refine State.pllDown_keeps ?_ _ _
    | with_reducible refine State.pllWait_keeps ?_ _
    | with_reducible refine Keeps.ite ?_ ?_
    | simp only [Keeps.lit]
    | with_reducible assumption
    | with_reducible exact Keeps.refl _
    | split
    | dsimp only

theorem State.pllReturn_keeps {u s : State} (h : Keeps u s) : Keeps u (State.pllReturn s) := by
  unfold State.pllReturn
  try dsimp -iota only
  repeat' first
    | with_reducible refine State.setPll_keeps ?_ _ _
    | with_reducible refine State.each_keeps ?_ _ _ (fun _ _ => ?_)
    | with_reducible refine State.pllStart_keeps ?_ _ _ _ _
    | with_reducible refine Keeps.ite ?_ ?_
    | simp only [Keeps.lit]
    | with_reducible assumption
    | with_reducible exact Keeps.refl _
    | split
    | dsimp only

theorem State.pllCtl_keeps {u s : State} (h : Keeps u s) (a1) (a2) (a3) : Keeps u (State.pllCtl s a1 a2 a3) := by
  unfold State.pllCtl
  try dsimp -iota only
  repeat' first
    | with_reducible refine State.set_keeps ?_ _ _
    | with_reducible refine State.setB_keeps ?_ _ _
    | with_reducible refine State.setPll_keeps ?_ _ _
    | with_reducible refine State.pllDown_keeps ?_ _ _
    | with_reducible refine Keeps.ite ?_ ?_
    | simp only [Keeps.lit]
    | with_reducible assumption
    | with_reducible exact Keeps.refl _
    | split
    | dsimp only

theorem State.pllTrim_keeps {u s : State} (h : Keeps u s) (a1) (a2) : Keeps u (State.pllTrim s a1 a2) := by
  unfold State.pllTrim
  try dsimp -iota only
  repeat' first
    | with_reducible refine State.set_keeps ?_ _ _
    | with_reducible refine Keeps.ite ?_ ?_
    | with_reducible assumption
    | with_reducible exact Keeps.refl _
    | split
    | dsimp only

theorem State.pllApply_keeps {u s : State} (h : Keeps u s) (a1) : Keeps u (State.pllApply s a1) := by
  unfold State.pllApply
  try dsimp -iota only
  repeat' first
    | with_reducible refine State.set_keeps ?_ _ _
    | with_reducible refine State.setPll_keeps ?_ _ _
    | with_reducible refine State.bankShow_keeps ?_ _
    | with_reducible refine State.noBand_keeps ?_ _ _
    | with_reducible refine State.pllWait_keeps ?_ _
    | with_reducible refine State.pllStart_keeps ?_ _ _ _ _
    | with_reducible refine Keeps.ite ?_ ?_
    | simp only [Keeps.lit]
    | with_reducible assumption
    | with_reducible exact Keeps.refl _
    | split
    | dsimp only

theorem State.pllFollow_keeps {u s : State} (h : Keeps u s) (a1) : Keeps u (State.pllFollow s a1) := by
  unfold State.pllFollow
  try dsimp -iota only
  repeat' first
    | with_reducible refine State.set_keeps ?_ _ _
    | with_reducible refine State.setPll_keeps ?_ _ _
    | with_reducible refine Keeps.ite ?_ ?_
    | simp only [Keeps.lit]
    | with_reducible assumption
    | with_reducible exact Keeps.refl _
    | split
    | dsimp only

theorem State.pllRampDone_keeps {u s : State} (h : Keeps u s) (a1) : Keeps u (State.pllRampDone s a1) := by
  unfold State.pllRampDone
  try dsimp -iota only
  repeat' first
    | with_reducible refine State.set_keeps ?_ _ _
    | with_reducible assumption
    | with_reducible exact Keeps.refl _

theorem State.clkSecond_keeps {u s : State} (h : Keeps u s) (a1) : Keeps u (State.clkSecond s a1) := by
  unfold State.clkSecond
  try dsimp -iota only
  repeat' first
    | with_reducible refine State.each_keeps ?_ _ _ (fun _ _ => ?_)
    | with_reducible refine State.ckoApply_keeps ?_ _
    | with_reducible refine State.ckoPhase_keeps ?_ _ _
    | with_reducible refine State.pllApply_keeps ?_ _
    | with_reducible refine State.pllFollow_keeps ?_ _
    | with_reducible refine Keeps.ite ?_ ?_
    | with_reducible assumption
    | with_reducible exact Keeps.refl _
    | split
    | dsimp only

theorem State.bankMv_keeps {u s : State} (h : Keeps u s) (a1) (a2) : Keeps u (State.bankMv s a1 a2) := by
  unfold State.bankMv
  try dsimp -iota only
  repeat' first
    | with_reducible refine State.set_keeps ?_ _ _
    | with_reducible refine State.setB_keeps ?_ _ _
    | with_reducible assumption
    | with_reducible exact Keeps.refl _

theorem State.complSet_keeps {u s : State} (h : Keeps u s) (a1) (a2) : Keeps u (State.complSet s a1 a2) := by
  unfold State.complSet
  try dsimp -iota only
  repeat' first
    | with_reducible refine State.set_keeps ?_ _ _
    | with_reducible refine State.incSat_keeps ?_ _ _
    | with_reducible refine State.setCko_keeps ?_ _ _
    | with_reducible refine State.note_keeps ?_ _ _ _ _ _
    | with_reducible refine State.ckoShow_keeps ?_ _
    | with_reducible refine State.bankMv_keeps ?_ _ _
    | with_reducible refine Keeps.ite ?_ ?_
    | simp only [Keeps.lit]
    | with_reducible assumption
    | with_reducible exact Keeps.refl _
    | split
    | dsimp only

theorem State.complClear_keeps {u s : State} (h : Keeps u s) (a1) (a2) : Keeps u (State.complClear s a1 a2) := by
  unfold State.complClear
  try dsimp -iota only
  repeat' first
    | with_reducible refine State.set_keeps ?_ _ _
    | with_reducible refine State.ckoShow_keeps ?_ _
    | with_reducible refine State.bankMv_keeps ?_ _ _
    | with_reducible refine Keeps.ite ?_ ?_
    | with_reducible assumption
    | with_reducible exact Keeps.refl _
    | split
    | dsimp only

theorem State.complEnd_keeps {u s : State} (h : Keeps u s) (a1) : Keeps u (State.complEnd s a1) := by
  unfold State.complEnd
  try dsimp -iota only
  repeat' first
    | with_reducible refine State.setCko_keeps ?_ _ _
    | with_reducible refine Keeps.ite ?_ ?_
    | simp only [Keeps.lit]
    | with_reducible assumption
    | with_reducible exact Keeps.refl _
    | split
    | dsimp only

theorem State.parRead_keeps {u s : State} (h : Keeps u s) : Keeps u (State.parRead s) := by
  unfold State.parRead
  try dsimp -iota only
  repeat' first
    | with_reducible refine State.each_keeps ?_ _ _ (fun _ _ => ?_)
    | with_reducible refine State.memRead_keeps ?_ _ _ _
    | with_reducible refine KeepsP.fst (State.memRead_keeps ?_ _ _ _)
    | with_reducible refine State.memRead_keepsP (by assumption) ?_
    | with_reducible refine Keeps.ite ?_ ?_
    | simp -iota -zeta -proj only [KeepsP.pair]
    | with_reducible refine KeepsP.ite ?_ ?_
    | with_reducible refine KeepsP.fst (KeepsP.ite ?_ ?_)
    | simp only [Keeps.lit]
    | with_reducible assumption
    | with_reducible exact Keeps.refl _
    | split
    | dsimp only

theorem State.navParamNote_keeps {u s : State} (h : Keeps u s) (a1) (a2) (a3) : Keeps u (State.navParamNote s a1 a2 a3) := by
  unfold State.navParamNote
  try dsimp -iota only
  repeat' first
    | with_reducible refine State.note_keeps ?_ _ _ _ _ _
    | with_reducible refine Keeps.ite ?_ ?_
    | with_reducible assumption
    | with_reducible exact Keeps.refl _
    | split
    | dsimp only

theorem State.navParams_keeps {u s : State} (h : Keeps u s) : Keeps u (State.navParams s) := by
  unfold State.navParams
  try dsimp -iota only
  repeat' first
    | with_reducible refine State.each_keeps ?_ _ _ (fun _ _ => ?_)
    | with_reducible refine State.navParamNote_keeps ?_ _ _ _
    | with_reducible refine Keeps.ite ?_ ?_
    | with_reducible refine Keeps.foldl ?_ _ _ (fun _ _ => ?_)
    | with_reducible assumption
    | with_reducible exact Keeps.refl _
    | split
    | dsimp only

theorem State.setSat_keeps {u s : State} (h : Keeps u s) (a1) (a2) : Keeps u (State.setSat s a1 a2) := by
  unfold State.setSat
  try dsimp -iota only
  repeat' first
    | simp only [Keeps.lit]
    | with_reducible assumption
    | with_reducible exact Keeps.refl _

theorem lenPs_keeps {u s : State} (h : Keeps u s) (a1) (a2) : KeepsP u (lenPs s a1 a2) := by
  unfold lenPs
  try dsimp -iota only
  repeat' first
    | with_reducible refine State.quotient_keeps ?_ _ _
    | with_reducible refine KeepsP.fst (State.quotient_keeps ?_ _ _)
    | with_reducible refine State.quotient_keepsP (by assumption) ?_
    | simp -iota -zeta -proj only [KeepsP.pair]
    | with_reducible assumption
    | with_reducible exact Keeps.refl _
theorem lenPs_keepsP {u s t : State} {v} {a1} {a2} (e : lenPs s a1 a2 = (t, v)) (h : Keeps u s) : Keeps u t :=
  KeepsP.of_eq (lenPs_keeps h a1 a2) e

theorem State.root_keeps {u s : State} (h : Keeps u s) (a1) (a2) : KeepsP u (State.root s a1 a2) := by
  unfold State.root
  try dsimp -iota only
  repeat' first
    | with_reducible refine State.draw_keeps ?_ _
    | with_reducible refine KeepsP.fst (State.draw_keeps ?_ _)
    | with_reducible refine State.draw_keepsP (by assumption) ?_
    | with_reducible refine Keeps.ite ?_ ?_
    | simp -iota -zeta -proj only [KeepsP.pair]
    | with_reducible refine KeepsP.ite ?_ ?_
    | with_reducible refine KeepsP.fst (KeepsP.ite ?_ ?_)
    | with_reducible assumption
    | with_reducible exact Keeps.refl _
    | split
    | dsimp only
theorem State.root_keepsP {u s t : State} {v} {a1} {a2} (e : State.root s a1 a2 = (t, v)) (h : Keeps u s) : Keeps u t :=
  KeepsP.of_eq (State.root_keeps h a1 a2) e

theorem State.ratio_keeps {u s : State} (h : Keeps u s) (a1) (a2) : KeepsP u (State.ratio s a1 a2) := by
  unfold State.ratio
  try dsimp -iota only
  repeat' first
    | with_reducible refine State.draw_keeps ?_ _
    | with_reducible refine KeepsP.fst (State.draw_keeps ?_ _)
    | with_reducible refine State.draw_keepsP (by assumption) ?_
    | with_reducible refine State.quotient_keeps ?_ _ _
    | with_reducible refine KeepsP.fst (State.quotient_keeps ?_ _ _)
    | with_reducible refine State.quotient_keepsP (by assumption) ?_
    | with_reducible refine Keeps.ite ?_ ?_
    | simp -iota -zeta -proj only [KeepsP.pair]
    | with_reducible refine KeepsP.ite ?_ ?_
    | with_reducible refine KeepsP.fst (KeepsP.ite ?_ ?_)
    | with_reducible assumption
    | with_reducible exact Keeps.refl _
    | split
    | dsimp only
theorem State.ratio_keepsP {u s t : State} {v} {a1} {a2} (e : State.ratio s a1 a2 = (t, v)) (h : Keeps u s) : Keeps u t :=
  KeepsP.of_eq (State.ratio_keeps h a1 a2) e

theorem State.turn_keeps {u s : State} (h : Keeps u s) (a1) (a2) : KeepsP u (State.turn s a1 a2) := by
  unfold State.turn
  try dsimp -iota only
  repeat' first
    | with_reducible refine State.draw_keeps ?_ _
    | with_reducible refine KeepsP.fst (State.draw_keeps ?_ _)
    | with_reducible refine State.draw_keepsP (by assumption) ?_
    | with_reducible refine Keeps.ite ?_ ?_
    | simp -iota -zeta -proj only [KeepsP.pair]
    | with_reducible refine KeepsP.ite ?_ ?_
    | with_reducible refine KeepsP.fst (KeepsP.ite ?_ ?_)
    | with_reducible assumption
    | with_reducible exact Keeps.refl _
    | split
    | dsimp only
theorem State.turn_keepsP {u s t : State} {v} {a1} {a2} (e : State.turn s a1 a2 = (t, v)) (h : Keeps u s) : Keeps u t :=
  KeepsP.of_eq (State.turn_keeps h a1 a2) e

theorem State.pllDisc_keeps {u s : State} (h : Keeps u s) (a1) (a2) : KeepsP u (State.pllDisc s a1 a2) := by
  unfold State.pllDisc
  try dsimp -iota only
  repeat' first
    | with_reducible refine State.turn_keeps ?_ _ _
    | with_reducible refine KeepsP.fst (State.turn_keeps ?_ _ _)
    | with_reducible refine State.turn_keepsP (by assumption) ?_
    | with_reducible refine Keeps.ite ?_ ?_
    | simp -iota -zeta -proj only [KeepsP.pair]
    | with_reducible refine KeepsP.ite ?_ ?_
    | with_reducible refine KeepsP.fst (KeepsP.ite ?_ ?_)
    | with_reducible assumption
    | with_reducible exact Keeps.refl _
    | split
    | dsimp only
theorem State.pllDisc_keepsP {u s t : State} {v} {a1} {a2} (e : State.pllDisc s a1 a2 = (t, v)) (h : Keeps u s) : Keeps u t :=
  KeepsP.of_eq (State.pllDisc_keeps h a1 a2) e

theorem State.fllDisc_keeps {u s : State} (h : Keeps u s) (a1) (a2) (a3) : KeepsP u (State.fllDisc s a1 a2 a3) := by
  unfold State.fllDisc
  try dsimp -iota only
  repeat' first
    | with_reducible refine State.ratio_keeps ?_ _ _
    | with_reducible refine KeepsP.fst (State.ratio_keeps ?_ _ _)
    | with_reducible refine State.ratio_keepsP (by assumption) ?_
    | with_reducible refine State.turn_keeps ?_ _ _
    | with_reducible refine KeepsP.fst (State.turn_keeps ?_ _ _)
    | with_reducible refine State.turn_keepsP (by assumption) ?_
    | with_reducible refine Keeps.ite ?_ ?_
    | simp -iota -zeta -proj only [KeepsP.pair]
    | with_reducible refine KeepsP.ite ?_ ?_
    | with_reducible refine KeepsP.fst (KeepsP.ite ?_ ?_)
    | with_reducible assumption
    | with_reducible exact Keeps.refl _
    | split
    | dsimp only
theorem State.fllDisc_keepsP {u s t : State} {v} {a1} {a2} {a3} (e : State.fllDisc s a1 a2 a3 = (t, v)) (h : Keeps u s) : Keeps u t :=
  KeepsP.of_eq (State.fllDisc_keeps h a1 a2 a3) e

theorem State.dllDisc_keeps {u s : State} (h : Keeps u s) (a1) (a2) (a3) : KeepsP u (State.dllDisc s a1 a2 a3) := by
  unfold State.dllDisc
  try dsimp -iota only
  repeat' first
    | with_reducible refine State.ratio_keeps ?_ _ _
    | with_reducible refine KeepsP.fst (State.ratio_keeps ?_ _ _)
    | with_reducible refine State.ratio_keepsP (by assumption) ?_
    | simp -iota -zeta -proj only [KeepsP.pair]
    | with_reducible assumption
    | with_reducible exact Keeps.refl _
theorem State.dllDisc_keepsP {u s t : State} {v} {a1} {a2} {a3} (e : State.dllDisc s a1 a2 a3 = (t, v)) (h : Keeps u s) : Keeps u t :=
  KeepsP.of_eq (State.dllDisc_keeps h a1 a2 a3) e

theorem State.deltaDisc_keeps {u s : State} (h : Keeps u s) (a1) (a2) (a3) (a4) (a5) : KeepsP u (State.deltaDisc s a1 a2 a3 a4 a5) := by
  unfold State.deltaDisc
  try dsimp -iota only
  repeat' first
    | with_reducible refine State.ratio_keeps ?_ _ _
    | with_reducible refine KeepsP.fst (State.ratio_keeps ?_ _ _)
    | with_reducible refine State.ratio_keepsP (by assumption) ?_
    | simp -iota -zeta -proj only [KeepsP.pair]
    | with_reducible assumption
    | with_reducible exact Keeps.refl _
theorem State.deltaDisc_keepsP {u s t : State} {v} {a1} {a2} {a3} {a4} {a5} (e : State.deltaDisc s a1 a2 a3 a4 a5 = (t, v)) (h : Keeps u s) : Keeps u t :=
  KeepsP.of_eq (State.deltaDisc_keeps h a1 a2 a3 a4 a5) e

theorem State.spanFll_keeps {u s : State} (h : Keeps u s) (a1) (a2) : KeepsP u (State.spanFll s a1 a2) := by
  unfold State.spanFll
  try dsimp -iota only
  repeat' first
    | with_reducible refine State.fllDisc_keeps ?_ _ _ _
    | with_reducible refine KeepsP.fst (State.fllDisc_keeps ?_ _ _ _)
    | with_reducible refine State.fllDisc_keepsP (by assumption) ?_
    | with_reducible refine Keeps.ite ?_ ?_
    | simp -iota -zeta -proj only [KeepsP.pair]
    | with_reducible refine KeepsP.ite ?_ ?_
    | with_reducible refine KeepsP.fst (KeepsP.ite ?_ ?_)
    | with_reducible assumption
    | with_reducible exact Keeps.refl _
    | split
    | dsimp only
theorem State.spanFll_keepsP {u s t : State} {v} {a1} {a2} (e : State.spanFll s a1 a2 = (t, v)) (h : Keeps u s) : Keeps u t :=
  KeepsP.of_eq (State.spanFll_keeps h a1 a2) e

theorem State.spanDll_keeps {u s : State} (h : Keeps u s) (a1) : KeepsP u (State.spanDll s a1) := by
  unfold State.spanDll
  try dsimp -iota only
  repeat' first
    | with_reducible refine State.dllDisc_keeps ?_ _ _ _
    | with_reducible refine KeepsP.fst (State.dllDisc_keeps ?_ _ _ _)
    | with_reducible refine State.dllDisc_keepsP (by assumption) ?_
    | with_reducible refine Keeps.ite ?_ ?_
    | simp -iota -zeta -proj only [KeepsP.pair]
    | with_reducible refine KeepsP.ite ?_ ?_
    | with_reducible refine KeepsP.fst (KeepsP.ite ?_ ?_)
    | with_reducible assumption
    | with_reducible exact Keeps.refl _
    | split
    | dsimp only
theorem State.spanDll_keepsP {u s t : State} {v} {a1} (e : State.spanDll s a1 = (t, v)) (h : Keeps u s) : Keeps u t :=
  KeepsP.of_eq (State.spanDll_keeps h a1) e

theorem State.spanDelta_keeps {u s : State} (h : Keeps u s) (a1) (a2) : KeepsP u (State.spanDelta s a1 a2) := by
  unfold State.spanDelta
  try dsimp -iota only
  repeat' first
    | with_reducible refine State.deltaDisc_keeps ?_ _ _ _ _ _
    | with_reducible refine KeepsP.fst (State.deltaDisc_keeps ?_ _ _ _ _ _)
    | with_reducible refine State.deltaDisc_keepsP (by assumption) ?_
    | with_reducible refine Keeps.ite ?_ ?_
    | simp -iota -zeta -proj only [KeepsP.pair]
    | with_reducible refine KeepsP.ite ?_ ?_
    | with_reducible refine KeepsP.fst (KeepsP.ite ?_ ?_)
    | with_reducible assumption
    | with_reducible exact Keeps.refl _
    | split
    | dsimp only
theorem State.spanDelta_keepsP {u s t : State} {v} {a1} {a2} (e : State.spanDelta s a1 a2 = (t, v)) (h : Keeps u s) : Keeps u t :=
  KeepsP.of_eq (State.spanDelta_keeps h a1 a2) e

theorem State.spanDiscs_keeps {u s : State} (h : Keeps u s) (a1) : KeepsP u (State.spanDiscs s a1) := by
  unfold State.spanDiscs
  try dsimp -iota only
  repeat' first
    | with_reducible refine State.pllDisc_keeps ?_ _ _
    | with_reducible refine KeepsP.fst (State.pllDisc_keeps ?_ _ _)
    | with_reducible refine State.pllDisc_keepsP (by assumption) ?_
    | with_reducible refine State.spanFll_keeps ?_ _ _
    | with_reducible refine KeepsP.fst (State.spanFll_keeps ?_ _ _)
    | with_reducible refine State.spanFll_keepsP (by assumption) ?_
    | with_reducible refine State.spanDll_keeps ?_ _
    | with_reducible refine KeepsP.fst (State.spanDll_keeps ?_ _)
    | with_reducible refine State.spanDll_keepsP (by assumption) ?_
    | with_reducible refine State.spanDelta_keeps ?_ _ _
    | with_reducible refine KeepsP.fst (State.spanDelta_keeps ?_ _ _)
    | with_reducible refine State.spanDelta_keepsP (by assumption) ?_
    | with_reducible refine Keeps.ite ?_ ?_
    | simp -iota -zeta -proj only [KeepsP.pair]
    | with_reducible refine KeepsP.ite ?_ ?_
    | with_reducible refine KeepsP.fst (KeepsP.ite ?_ ?_)
    | with_reducible assumption
    | with_reducible exact Keeps.refl _
    | split
    | dsimp only
theorem State.spanDiscs_keepsP {u s t : State} {v} {a1} (e : State.spanDiscs s a1 = (t, v)) (h : Keeps u s) : Keeps u t :=
  KeepsP.of_eq (State.spanDiscs_keeps h a1) e

theorem State.cn0Word_keeps {u s : State} (h : Keeps u s) (a1) : KeepsP u (State.cn0Word s a1) := by
  unfold State.cn0Word
  try dsimp -iota only
  repeat' first
    | with_reducible refine State.draw_keeps ?_ _
    | with_reducible refine KeepsP.fst (State.draw_keeps ?_ _)
    | with_reducible refine State.draw_keepsP (by assumption) ?_
    | with_reducible refine Keeps.ite ?_ ?_
    | simp -iota -zeta -proj only [KeepsP.pair]
    | with_reducible refine KeepsP.ite ?_ ?_
    | with_reducible refine KeepsP.fst (KeepsP.ite ?_ ?_)
    | with_reducible assumption
    | with_reducible exact Keeps.refl _
    | split
    | dsimp only
theorem State.cn0Word_keepsP {u s t : State} {v} {a1} (e : State.cn0Word s a1 = (t, v)) (h : Keeps u s) : Keeps u t :=
  KeepsP.of_eq (State.cn0Word_keeps h a1) e

theorem State.fllMean_keeps {u s : State} (h : Keeps u s) (a1) : KeepsP u (State.fllMean s a1) := by
  unfold State.fllMean
  try dsimp -iota only
  repeat' first
    | with_reducible refine State.quotient_keeps ?_ _ _
    | with_reducible refine KeepsP.fst (State.quotient_keeps ?_ _ _)
    | with_reducible refine State.quotient_keepsP (by assumption) ?_
    | with_reducible refine Keeps.ite ?_ ?_
    | simp -iota -zeta -proj only [KeepsP.pair]
    | with_reducible refine KeepsP.ite ?_ ?_
    | with_reducible refine KeepsP.fst (KeepsP.ite ?_ ?_)
    | with_reducible assumption
    | with_reducible exact Keeps.refl _
    | split
    | dsimp only
theorem State.fllMean_keepsP {u s t : State} {v} {a1} (e : State.fllMean s a1 = (t, v)) (h : Keeps u s) : Keeps u t :=
  KeepsP.of_eq (State.fllMean_keeps h a1) e

theorem State.loopFilter_keeps {u s : State} (h : Keeps u s) (a1) : KeepsP u (State.loopFilter s a1) := by
  unfold State.loopFilter
  try dsimp -iota only
  repeat' first
    | with_reducible refine State.quotient_keeps ?_ _ _
    | with_reducible refine KeepsP.fst (State.quotient_keeps ?_ _ _)
    | with_reducible refine State.quotient_keepsP (by assumption) ?_
    | with_reducible refine State.fllMean_keeps ?_ _
    | with_reducible refine KeepsP.fst (State.fllMean_keeps ?_ _)
    | with_reducible refine State.fllMean_keepsP (by assumption) ?_
    | with_reducible refine Keeps.ite ?_ ?_
    | simp -iota -zeta -proj only [KeepsP.pair]
    | with_reducible refine KeepsP.ite ?_ ?_
    | with_reducible refine KeepsP.fst (KeepsP.ite ?_ ?_)
    | simp only [Keeps.lit]
    | with_reducible assumption
    | with_reducible exact Keeps.refl _
    | split
    | dsimp only
theorem State.loopFilter_keepsP {u s t : State} {v} {a1} (e : State.loopFilter s a1 = (t, v)) (h : Keeps u s) : Keeps u t :=
  KeepsP.of_eq (State.loopFilter_keeps h a1) e

theorem State.setLate_keeps {u s : State} (h : Keeps u s) (a1) (a2) : Keeps u (State.setLate s a1 a2) := by
  unfold State.setLate
  try dsimp -iota only
  repeat' first
    | simp only [Keeps.lit]
    | with_reducible assumption
    | with_reducible exact Keeps.refl _

theorem State.lateRecord_keeps {u s : State} (h : Keeps u s) (a1) : Keeps u (State.lateRecord s a1) := by
  unfold State.lateRecord
  try dsimp -iota only
  repeat' first
    | with_reducible refine State.setLate_keeps ?_ _ _
    | with_reducible refine Keeps.ite ?_ ?_
    | simp only [Keeps.lit]
    | with_reducible assumption
    | with_reducible exact Keeps.refl _
    | split
    | dsimp only

theorem State.lateOvld_keeps {u s : State} (h : Keeps u s) (a1) : KeepsP u (State.lateOvld s a1) := by
  unfold State.lateOvld
  try dsimp -iota only
  repeat' first
    | with_reducible refine State.setLate_keeps ?_ _ _
    | with_reducible refine Keeps.ite ?_ ?_
    | simp -iota -zeta -proj only [KeepsP.pair]
    | with_reducible refine KeepsP.ite ?_ ?_
    | simp only [Keeps.lit]
    | with_reducible assumption
    | with_reducible exact Keeps.refl _
    | split
    | dsimp only
theorem State.lateOvld_keepsP {u s t : State} {v} {a1} (e : State.lateOvld s a1 = (t, v)) (h : Keeps u s) : Keeps u t :=
  KeepsP.of_eq (State.lateOvld_keeps h a1) e

theorem State.assist_keeps {u s : State} (h : Keeps u s) (a1) (a2) : Keeps u (State.assist s a1 a2) := by
  unfold State.assist
  try dsimp -iota only
  repeat' first
    | with_reducible refine Keeps.ite ?_ ?_
    | simp only [Keeps.lit]
    | with_reducible assumption
    | with_reducible exact Keeps.refl _
    | split
    | dsimp only

theorem State.spanEnd_keeps {u s : State} (h : Keeps u s) (a1) : KeepsP u (State.spanEnd s a1) := by
  unfold State.spanEnd
  try dsimp -iota only
  repeat' first
    | with_reducible refine State.spanDiscs_keeps ?_ _
    | with_reducible refine KeepsP.fst (State.spanDiscs_keeps ?_ _)
    | with_reducible refine State.spanDiscs_keepsP (by assumption) ?_
    | with_reducible refine Keeps.ite ?_ ?_
    | simp -iota -zeta -proj only [KeepsP.pair]
    | with_reducible refine KeepsP.ite ?_ ?_
    | with_reducible refine KeepsP.fst (KeepsP.ite ?_ ?_)
    | simp only [Keeps.lit]
    | with_reducible assumption
    | with_reducible exact Keeps.refl _
    | split
    | dsimp only
theorem State.spanEnd_keepsP {u s t : State} {v} {a1} (e : State.spanEnd s a1 = (t, v)) (h : Keeps u s) : Keeps u t :=
  KeepsP.of_eq (State.spanEnd_keeps h a1) e

theorem State.skipSubs_keeps {u s : State} (h : Keeps u s) (a0) (a2) : KeepsP u (State.skipSubs a0 s a2) := by
  induction a0 generalizing s a2
  · exact h
  · rename_i ih
    have ihP := fun (s t : State) v a2 (h : Keeps u s) (e : State.skipSubs _ s a2 = (t, v)) => KeepsP.of_eq (ih h a2) e
    unfold State.skipSubs
    try dsimp -iota only
    repeat' first
      | with_reducible refine ih ?_ _
      | with_reducible refine KeepsP.fst (ih ?_ _)
      | with_reducible refine ihP _ _ _ _ ?_ (by assumption)
      | with_reducible refine State.spanEnd_keeps ?_ _
      | with_reducible refine KeepsP.fst (State.spanEnd_keeps ?_ _)
      | with_reducible refine State.spanEnd_keepsP (by assumption) ?_
      | with_reducible refine Keeps.ite ?_ ?_
      | simp -iota -zeta -proj only [KeepsP.pair]
      | with_reducible refine KeepsP.ite ?_ ?_
      | with_reducible refine KeepsP.fst (KeepsP.ite ?_ ?_)
      | simp only [Keeps.lit]
      | with_reducible assumption
      | with_reducible exact Keeps.refl _
      | split
      | dsimp only
theorem State.skipSubs_keepsP {u s t : State} {v} {a0} {a2} (e : State.skipSubs a0 s a2 = (t, v)) (h : Keeps u s) : Keeps u t :=
  KeepsP.of_eq (State.skipSubs_keeps h a0 a2) e

theorem State.steerRead_keeps {u s : State} (h : Keeps u s) (a1) (a2) : KeepsP u (State.steerRead s a1 a2) := by
  unfold State.steerRead
  try dsimp -iota only
  repeat' first
    | with_reducible refine State.memReadWords_keeps ?_ _ _ _
    | with_reducible refine KeepsP.fst (State.memReadWords_keeps ?_ _ _ _)
    | with_reducible refine State.memReadWords_keepsP (by assumption) ?_
    | with_reducible refine Keeps.ite ?_ ?_
    | simp -iota -zeta -proj only [KeepsP.pair]
    | with_reducible refine KeepsP.ite ?_ ?_
    | with_reducible refine KeepsP.fst (KeepsP.ite ?_ ?_)
    | simp only [Keeps.lit]
    | with_reducible assumption
    | with_reducible exact Keeps.refl _
    | split
    | dsimp only
theorem State.steerRead_keepsP {u s t : State} {v} {a1} {a2} (e : State.steerRead s a1 a2 = (t, v)) (h : Keeps u s) : Keeps u t :=
  KeepsP.of_eq (State.steerRead_keeps h a1 a2) e

theorem State.commitRates_keeps {u s : State} (h : Keeps u s) (a1) (a2) (a3) (a4) : Keeps u (State.commitRates s a1 a2 a3 a4) := by
  unfold State.commitRates
  try dsimp -iota only
  repeat' first
    | with_reducible refine State.set2_keeps ?_ _ _ _
    | with_reducible refine State.engCommit_keeps ?_ _ _
    | with_reducible refine Keeps.ite ?_ ?_
    | with_reducible assumption
    | with_reducible exact Keeps.refl _
    | split
    | dsimp only

theorem State.stageCode_keeps {u s : State} (h : Keeps u s) (a1) (a2) (a3) (a4) : Keeps u (State.stageCode s a1 a2 a3 a4) := by
  unfold State.stageCode
  try dsimp -iota only
  repeat' first
    | with_reducible refine State.set_keeps ?_ _ _
    | with_reducible refine State.set2_keeps ?_ _ _ _
    | with_reducible refine Keeps.ite ?_ ?_
    | with_reducible assumption
    | with_reducible exact Keeps.refl _
    | split
    | dsimp only

theorem State.chanCommit_keeps {u s : State} (h : Keeps u s) (a1) (a2) (a3) : Keeps u (State.chanCommit s a1 a2 a3) := by
  unfold State.chanCommit
  try dsimp -iota only
  repeat' first
    | with_reducible refine State.setChan_keeps ?_ _ _
    | with_reducible refine State.commitRates_keeps ?_ _ _ _ _
    | with_reducible refine State.stageCode_keeps ?_ _ _ _ _
    | with_reducible refine Keeps.ite ?_ ?_
    | with_reducible refine Keeps.foldl ?_ _ _ (fun _ _ => ?_)
    | simp only [Keeps.lit]
    | with_reducible assumption
    | with_reducible exact Keeps.refl _
    | split
    | dsimp only

theorem State.followStart_keeps {u s : State} (h : Keeps u s) (a1) : Keeps u (State.followStart s a1) := by
  unfold State.followStart
  try dsimp -iota only
  repeat' first
    | with_reducible refine State.setChan_keeps ?_ _ _
    | with_reducible refine State.commitRates_keeps ?_ _ _ _ _
    | with_reducible refine State.stageCode_keeps ?_ _ _ _ _
    | with_reducible refine Keeps.ite ?_ ?_
    | simp only [Keeps.lit]
    | with_reducible assumption
    | with_reducible exact Keeps.refl _
    | split
    | dsimp only

theorem State.diffRaw_keeps {u s : State} (h : Keeps u s) (a1) (a2) : KeepsP u (State.diffRaw s a1 a2) := by
  unfold State.diffRaw
  try dsimp -iota only
  repeat' first
    | with_reducible refine State.turn_keeps ?_ _ _
    | with_reducible refine KeepsP.fst (State.turn_keeps ?_ _ _)
    | with_reducible refine State.turn_keepsP (by assumption) ?_
    | with_reducible refine Keeps.ite ?_ ?_
    | simp -iota -zeta -proj only [KeepsP.pair]
    | with_reducible refine KeepsP.ite ?_ ?_
    | with_reducible refine KeepsP.fst (KeepsP.ite ?_ ?_)
    | with_reducible assumption
    | with_reducible exact Keeps.refl _
    | split
    | dsimp only
theorem State.diffRaw_keepsP {u s t : State} {v} {a1} {a2} (e : State.diffRaw s a1 a2 = (t, v)) (h : Keeps u s) : Keeps u t :=
  KeepsP.of_eq (State.diffRaw_keeps h a1 a2) e

theorem State.chanDiffs_keeps {u s : State} (h : Keeps u s) (a1) : Keeps u (State.chanDiffs s a1) := by
  unfold State.chanDiffs
  try dsimp -iota only
  repeat' first
    | with_reducible refine State.setChan_keeps ?_ _ _
    | with_reducible refine State.diffRaw_keeps ?_ _ _
    | with_reducible refine KeepsP.fst (State.diffRaw_keeps ?_ _ _)
    | with_reducible refine State.diffRaw_keepsP (by assumption) ?_
    | with_reducible refine Keeps.ite ?_ ?_
    | simp -iota -zeta -proj only [KeepsP.pair]
    | with_reducible refine KeepsP.ite ?_ ?_
    | with_reducible refine KeepsP.fst (KeepsP.ite ?_ ?_)
    | with_reducible refine Keeps.foldl ?_ _ _ (fun _ _ => ?_)
    | simp only [Keeps.lit]
    | with_reducible assumption
    | with_reducible exact Keeps.refl _
    | split
    | dsimp only

theorem State.chanLost_keeps {u s : State} (h : Keeps u s) (a1) : Keeps u (State.chanLost s a1) := by
  unfold State.chanLost
  try dsimp -iota only
  repeat' first
    | with_reducible refine State.engEnter_keeps ?_ _ _
    | with_reducible refine State.engCancel_keeps ?_ _
    | with_reducible refine State.assist_keeps ?_ _ _
    | with_reducible refine Keeps.ite ?_ ?_
    | with_reducible assumption
    | with_reducible exact Keeps.refl _
    | split
    | dsimp only

theorem State.chanClose_keeps {u s : State} (h : Keeps u s) (a1) (a2) (a3) (a4) (a5) : Keeps u (State.chanClose s a1 a2 a3 a4 a5) := by
  unfold State.chanClose
  try dsimp -iota only
  repeat' first
    | with_reducible refine State.setChan_keeps ?_ _ _
    | with_reducible refine State.loopFilter_keeps ?_ _
    | with_reducible refine KeepsP.fst (State.loopFilter_keeps ?_ _)
    | with_reducible refine State.loopFilter_keepsP (by assumption) ?_
    | with_reducible refine State.steerRead_keeps ?_ _ _
    | with_reducible refine KeepsP.fst (State.steerRead_keeps ?_ _ _)
    | with_reducible refine State.steerRead_keepsP (by assumption) ?_
    | with_reducible refine State.chanCommit_keeps ?_ _ _ _
    | with_reducible refine State.chanDiffs_keeps ?_ _
    | with_reducible refine Keeps.ite ?_ ?_
    | simp -iota -zeta -proj only [KeepsP.pair]
    | with_reducible refine KeepsP.ite ?_ ?_
    | with_reducible refine KeepsP.fst (KeepsP.ite ?_ ?_)
    | simp only [Keeps.lit]
    | with_reducible assumption
    | with_reducible exact Keeps.refl _
    | split
    | dsimp only

theorem State.chanRecord_keeps {u s : State} (h : Keeps u s) (a1) (a2) (a3) (a4) (a5) : Keeps u (State.chanRecord s a1 a2 a3 a4 a5) := by
  unfold State.chanRecord
  try dsimp -iota only
  repeat' first
    | with_reducible refine State.setChan_keeps ?_ _ _
    | with_reducible refine State.lateRecord_keeps ?_ _
    | with_reducible refine State.spanEnd_keeps ?_ _
    | with_reducible refine KeepsP.fst (State.spanEnd_keeps ?_ _)
    | with_reducible refine State.spanEnd_keepsP (by assumption) ?_
    | with_reducible refine State.skipSubs_keeps ?_ _ _
    | with_reducible refine KeepsP.fst (State.skipSubs_keeps ?_ _ _)
    | with_reducible refine State.skipSubs_keepsP (by assumption) ?_
    | with_reducible refine State.chanCommit_keeps ?_ _ _ _
    | with_reducible refine State.followStart_keeps ?_ _
    | with_reducible refine State.chanLost_keeps ?_ _
    | with_reducible refine State.chanClose_keeps ?_ _ _ _ _ _
    | with_reducible refine Keeps.ite ?_ ?_
    | simp -iota -zeta -proj only [KeepsP.pair]
    | with_reducible refine KeepsP.ite ?_ ?_
    | with_reducible refine KeepsP.fst (KeepsP.ite ?_ ?_)
    | simp only [Keeps.lit]
    | with_reducible assumption
    | with_reducible exact Keeps.refl _
    | split
    | dsimp only

theorem State.loopUpdate_keeps {u s : State} (h : Keeps u s) (a1) (a2) : Keeps u (State.loopUpdate s a1 a2) := by
  unfold State.loopUpdate
  try dsimp -iota only
  repeat' first
    | with_reducible refine State.setChan_keeps ?_ _ _
    | with_reducible refine State.assist_keeps ?_ _ _
    | with_reducible refine State.chanRecord_keeps ?_ _ _ _ _ _
    | with_reducible refine Keeps.ite ?_ ?_
    | simp only [Keeps.lit]
    | with_reducible assumption
    | with_reducible exact Keeps.refl _
    | split
    | dsimp only

theorem State.steerWrite_keeps {u s : State} (h : Keeps u s) (a1) (a2) (a3) (a4) (a5) (a6) (a7) : Keeps u (State.steerWrite s a1 a2 a3 a4 a5 a6 a7) := by
  unfold State.steerWrite
  try dsimp -iota only
  repeat' first
    | with_reducible refine State.memWriteWords_keeps ?_ _ _ _
    | with_reducible refine Keeps.ite ?_ ?_
    | with_reducible assumption
    | with_reducible exact Keeps.refl _
    | split
    | dsimp only

theorem State.diffWords_keeps {u s : State} (h : Keeps u s) (a1) : KeepsP u (State.diffWords s a1) := by
  induction a1 generalizing s
  · exact h
  · rename_i ih
    have ihP := fun (s t : State) v (h : Keeps u s) (e : State.diffWords s _ = (t, v)) => KeepsP.of_eq (ih h) e
    unfold State.diffWords
    try dsimp -iota only
    repeat' first
      | with_reducible refine ih ?_
      | with_reducible refine KeepsP.fst (ih ?_ )
      | with_reducible refine ihP _ _ _ ?_ (by assumption)
      | with_reducible refine State.quotient_keeps ?_ _ _
      | with_reducible refine KeepsP.fst (State.quotient_keeps ?_ _ _)
      | with_reducible refine State.quotient_keepsP (by assumption) ?_
      | with_reducible refine Keeps.ite ?_ ?_
      | simp -iota -zeta -proj only [KeepsP.pair]
      | with_reducible refine KeepsP.ite ?_ ?_
      | with_reducible refine KeepsP.fst (KeepsP.ite ?_ ?_)
      | with_reducible assumption
      | with_reducible exact Keeps.refl _
      | split
      | dsimp only
theorem State.diffWords_keepsP {u s t : State} {v} {a1} (e : State.diffWords s a1 = (t, v)) (h : Keeps u s) : Keeps u t :=
  KeepsP.of_eq (State.diffWords_keeps h a1) e

theorem State.shapeWord_keeps {u s : State} (h : Keeps u s) (a1) : KeepsP u (State.shapeWord s a1) := by
  unfold State.shapeWord
  try dsimp -iota only
  repeat' first
    | with_reducible refine State.draw_keeps ?_ _
    | with_reducible refine KeepsP.fst (State.draw_keeps ?_ _)
    | with_reducible refine State.draw_keepsP (by assumption) ?_
    | with_reducible refine State.quotient_keeps ?_ _ _
    | with_reducible refine KeepsP.fst (State.quotient_keeps ?_ _ _)
    | with_reducible refine State.quotient_keepsP (by assumption) ?_
    | with_reducible refine Keeps.ite ?_ ?_
    | simp -iota -zeta -proj only [KeepsP.pair]
    | with_reducible refine KeepsP.ite ?_ ?_
    | with_reducible refine KeepsP.fst (KeepsP.ite ?_ ?_)
    | with_reducible assumption
    | with_reducible exact Keeps.refl _
    | split
    | dsimp only
theorem State.shapeWord_keepsP {u s t : State} {v} {a1} (e : State.shapeWord s a1 = (t, v)) (h : Keeps u s) : Keeps u t :=
  KeepsP.of_eq (State.shapeWord_keeps h a1) e

theorem State.mpeWord_keeps {u s : State} (h : Keeps u s) (a1) : KeepsP u (State.mpeWord s a1) := by
  unfold State.mpeWord
  try dsimp -iota only
  repeat' first
    | with_reducible refine State.draw_keeps ?_ _
    | with_reducible refine KeepsP.fst (State.draw_keeps ?_ _)
    | with_reducible refine State.draw_keepsP (by assumption) ?_
    | with_reducible refine State.quotient_keeps ?_ _ _
    | with_reducible refine KeepsP.fst (State.quotient_keeps ?_ _ _)
    | with_reducible refine State.quotient_keepsP (by assumption) ?_
    | with_reducible refine Keeps.ite ?_ ?_
    | simp -iota -zeta -proj only [KeepsP.pair]
    | with_reducible refine KeepsP.ite ?_ ?_
    | with_reducible refine KeepsP.fst (KeepsP.ite ?_ ?_)
    | with_reducible assumption
    | with_reducible exact Keeps.refl _
    | split
    | dsimp only
theorem State.mpeWord_keepsP {u s t : State} {v} {a1} (e : State.mpeWord s a1 = (t, v)) (h : Keeps u s) : Keeps u t :=
  KeepsP.of_eq (State.mpeWord_keeps h a1) e

theorem State.accWord_keeps {u s : State} (h : Keeps u s) (a1) (a2) (a3) : KeepsP u (State.accWord s a1 a2 a3) := by
  unfold State.accWord
  try dsimp -iota only
  repeat' first
    | with_reducible refine State.quotient_keeps ?_ _ _
    | with_reducible refine KeepsP.fst (State.quotient_keeps ?_ _ _)
    | with_reducible refine State.quotient_keepsP (by assumption) ?_
    | with_reducible refine Keeps.ite ?_ ?_
    | simp -iota -zeta -proj only [KeepsP.pair]
    | with_reducible refine KeepsP.ite ?_ ?_
    | with_reducible refine KeepsP.fst (KeepsP.ite ?_ ?_)
    | with_reducible assumption
    | with_reducible exact Keeps.refl _
    | split
    | dsimp only
theorem State.accWord_keepsP {u s t : State} {v} {a1} {a2} {a3} (e : State.accWord s a1 a2 a3 = (t, v)) (h : Keeps u s) : Keeps u t :=
  KeepsP.of_eq (State.accWord_keeps h a1 a2 a3) e

theorem State.chanReport_keeps {u s : State} (h : Keeps u s) (a1) (a2) : Keeps u (State.chanReport s a1 a2) := by
  unfold State.chanReport
  try dsimp -iota only
  repeat' first
    | with_reducible refine State.setChan_keeps ?_ _ _
    | with_reducible refine State.quotient_keeps ?_ _ _
    | with_reducible refine KeepsP.fst (State.quotient_keeps ?_ _ _)
    | with_reducible refine State.quotient_keepsP (by assumption) ?_
    | with_reducible refine State.memWriteWords_keeps ?_ _ _ _
    | with_reducible refine State.cn0Word_keeps ?_ _
    | with_reducible refine KeepsP.fst (State.cn0Word_keeps ?_ _)
    | with_reducible refine State.cn0Word_keepsP (by assumption) ?_
    | with_reducible refine State.setLate_keeps ?_ _ _
    | with_reducible refine State.diffWords_keeps ?_ _
    | with_reducible refine KeepsP.fst (State.diffWords_keeps ?_ _)
    | with_reducible refine State.diffWords_keepsP (by assumption) ?_
    | with_reducible refine State.shapeWord_keeps ?_ _
    | with_reducible refine KeepsP.fst (State.shapeWord_keeps ?_ _)
    | with_reducible refine State.shapeWord_keepsP (by assumption) ?_
    | with_reducible refine State.mpeWord_keeps ?_ _
    | with_reducible refine KeepsP.fst (State.mpeWord_keeps ?_ _)
    | with_reducible refine State.mpeWord_keepsP (by assumption) ?_
    | with_reducible refine State.accWord_keeps ?_ _ _ _
    | with_reducible refine KeepsP.fst (State.accWord_keeps ?_ _ _ _)
    | with_reducible refine State.accWord_keepsP (by assumption) ?_
    | with_reducible refine Keeps.ite ?_ ?_
    | simp -iota -zeta -proj only [KeepsP.pair]
    | with_reducible refine KeepsP.ite ?_ ?_
    | with_reducible refine KeepsP.fst (KeepsP.ite ?_ ?_)
    | simp only [Keeps.lit]
    | with_reducible assumption
    | with_reducible exact Keeps.refl _
    | split
    | dsimp only

theorem State.trackReports_keeps {u s : State} (h : Keeps u s) (a1) : Keeps u (State.trackReports s a1) := by
  unfold State.trackReports
  try dsimp -iota only
  repeat' first
    | with_reducible refine State.eachEng_keeps ?_ _ _ (fun _ _ => ?_)
    | with_reducible refine State.lateOvld_keeps ?_ _
    | with_reducible refine KeepsP.fst (State.lateOvld_keeps ?_ _)
    | with_reducible refine State.lateOvld_keepsP (by assumption) ?_
    | with_reducible refine State.chanReport_keeps ?_ _ _
    | with_reducible refine Keeps.ite ?_ ?_
    | simp -iota -zeta -proj only [KeepsP.pair]
    | with_reducible refine KeepsP.ite ?_ ?_
    | with_reducible refine KeepsP.fst (KeepsP.ite ?_ ?_)
    | simp only [Keeps.lit]
    | with_reducible assumption
    | with_reducible exact Keeps.refl _
    | split
    | dsimp only

theorem State.chanHandoff_keeps {u s : State} (h : Keeps u s) (a1) (a2) (a3) : Keeps u (State.chanHandoff s a1 a2 a3) := by
  unfold State.chanHandoff
  try dsimp -iota only
  repeat' first
    | with_reducible refine State.setChan_keeps ?_ _ _
    | with_reducible refine State.memWriteWords_keeps ?_ _ _ _
    | with_reducible refine State.accWord_keeps ?_ _ _ _
    | with_reducible refine KeepsP.fst (State.accWord_keeps ?_ _ _ _)
    | with_reducible refine State.accWord_keepsP (by assumption) ?_
    | with_reducible refine Keeps.ite ?_ ?_
    | simp -iota -zeta -proj only [KeepsP.pair]
    | with_reducible refine KeepsP.ite ?_ ?_
    | with_reducible refine KeepsP.fst (KeepsP.ite ?_ ?_)
    | simp only [Keeps.lit]
    | with_reducible assumption
    | with_reducible exact Keeps.refl _
    | split
    | dsimp only

theorem State.chansEnd_keeps {u s : State} (h : Keeps u s) : Keeps u (State.chansEnd s) := by
  unfold State.chansEnd
  try dsimp -iota only
  repeat' first
    | with_reducible refine State.each_keeps ?_ _ _ (fun _ _ => ?_)
    | with_reducible refine State.engEnter_keeps ?_ _ _
    | with_reducible refine State.engCancel_keeps ?_ _
    | with_reducible refine State.assist_keeps ?_ _ _
    | with_reducible refine Keeps.ite ?_ ?_
    | with_reducible refine Keeps.foldl ?_ _ _ (fun _ _ => ?_)
    | simp only [Keeps.lit]
    | with_reducible assumption
    | with_reducible exact Keeps.refl _
    | split
    | dsimp only

theorem State.chanRephase_keeps {u s : State} (h : Keeps u s) (a1) : Keeps u (State.chanRephase s a1) := by
  unfold State.chanRephase
  try dsimp -iota only
  repeat' first
    | with_reducible refine State.set_keeps ?_ _ _
    | with_reducible refine State.set2_keeps ?_ _ _ _
    | with_reducible refine State.engCommit_keeps ?_ _ _
    | with_reducible refine State.engApply_keeps ?_ _
    | with_reducible refine State.stageCode_keeps ?_ _ _ _ _
    | with_reducible refine Keeps.ite ?_ ?_
    | simp only [Keeps.lit]
    | with_reducible assumption
    | with_reducible exact Keeps.refl _
    | split
    | dsimp only

theorem State.chansRestart_keeps {u s : State} (h : Keeps u s) : Keeps u (State.chansRestart s) := by
  unfold State.chansRestart
  try dsimp -iota only
  repeat' first
    | with_reducible refine State.setChan_keeps ?_ _ _
    | with_reducible refine State.chanRephase_keeps ?_ _
    | with_reducible refine Keeps.ite ?_ ?_
    | with_reducible refine Keeps.foldl ?_ _ _ (fun _ _ => ?_)
    | simp only [Keeps.lit]
    | with_reducible assumption
    | with_reducible exact Keeps.refl _
    | split
    | dsimp only

theorem State.anchorsNow_keeps {u s : State} (h : Keeps u s) (a1) : Keeps u (State.anchorsNow s a1) := by
  unfold State.anchorsNow
  try dsimp -iota only
  repeat' first
    | with_reducible refine Keeps.ite ?_ ?_
    | with_reducible refine Keeps.foldl ?_ _ _ (fun _ _ => ?_)
    | simp only [Keeps.lit]
    | with_reducible assumption
    | with_reducible exact Keeps.refl _
    | split
    | dsimp only

theorem State.rxofsFor_keeps {u s : State} (h : Keeps u s) (a1) : KeepsP u (State.rxofsFor s a1) := by
  unfold State.rxofsFor
  try dsimp -iota only
  repeat' first
    | with_reducible refine State.draw_keeps ?_ _
    | with_reducible refine KeepsP.fst (State.draw_keeps ?_ _)
    | with_reducible refine State.draw_keepsP (by assumption) ?_
    | with_reducible refine Keeps.ite ?_ ?_
    | simp -iota -zeta -proj only [KeepsP.pair]
    | with_reducible refine KeepsP.ite ?_ ?_
    | with_reducible refine KeepsP.fst (KeepsP.ite ?_ ?_)
    | with_reducible refine Keeps.foldl ?_ _ _ (fun _ _ => ?_)
    | with_reducible refine KeepsP.foldl ?_ _ _ (fun _ _ => ?_)
    | with_reducible assumption
    | with_reducible exact Keeps.refl _
    | split
    | dsimp only
theorem State.rxofsFor_keepsP {u s t : State} {v} {a1} (e : State.rxofsFor s a1 = (t, v)) (h : Keeps u s) : Keeps u t :=
  KeepsP.of_eq (State.rxofsFor_keeps h a1) e

theorem State.measOne_keeps {u s : State} (h : Keeps u s) (a1) (a2) (a3) : Keeps u (State.measOne s a1 a2 a3) := by
  unfold State.measOne
  try dsimp -iota only
  repeat' first
    | with_reducible refine State.quotient_keeps ?_ _ _
    | with_reducible refine KeepsP.fst (State.quotient_keeps ?_ _ _)
    | with_reducible refine State.quotient_keepsP (by assumption) ?_
    | with_reducible refine Keeps.ite ?_ ?_
    | simp -iota -zeta -proj only [KeepsP.pair]
    | with_reducible refine KeepsP.ite ?_ ?_
    | with_reducible refine KeepsP.fst (KeepsP.ite ?_ ?_)
    | simp only [Keeps.lit]
    | with_reducible assumption
    | with_reducible exact Keeps.refl _
    | split
    | dsimp only

theorem State.measEpoch_keeps {u s : State} (h : Keeps u s) : Keeps u (State.measEpoch s) := by
  unfold State.measEpoch
  try dsimp -iota only
  repeat' first
    | with_reducible refine State.anchorsNow_keeps ?_ _
    | with_reducible refine State.rxofsFor_keeps ?_ _
    | with_reducible refine KeepsP.fst (State.rxofsFor_keeps ?_ _)
    | with_reducible refine State.rxofsFor_keepsP (by assumption) ?_
    | with_reducible refine State.measOne_keeps ?_ _ _ _
    | with_reducible refine Keeps.ite ?_ ?_
    | simp -iota -zeta -proj only [KeepsP.pair]
    | with_reducible refine KeepsP.ite ?_ ?_
    | with_reducible refine KeepsP.fst (KeepsP.ite ?_ ?_)
    | with_reducible refine Keeps.foldl ?_ _ _ (fun _ _ => ?_)
    | simp only [Keeps.lit]
    | with_reducible assumption
    | with_reducible exact Keeps.refl _
    | split
    | dsimp only

theorem State.measNow_keeps {u s : State} (h : Keeps u s) : Keeps u (State.measNow s) := by
  unfold State.measNow
  try dsimp -iota only
  repeat' first
    | with_reducible refine State.measEpoch_keeps ?_
    | with_reducible refine Keeps.ite ?_ ?_
    | with_reducible assumption
    | with_reducible exact Keeps.refl _
    | split
    | dsimp only

theorem State.reportInstant_keeps {u s : State} (h : Keeps u s) (a1) : Keeps u (State.reportInstant s a1) := by
  unfold State.reportInstant
  try dsimp -iota only
  repeat' first
    | with_reducible refine State.trackReports_keeps ?_ _
    | with_reducible refine State.measNow_keeps ?_
    | with_reducible refine Keeps.ite ?_ ?_
    | with_reducible assumption
    | with_reducible exact Keeps.refl _
    | split
    | dsimp only

theorem State.cusRegs_keeps {u s : State} (h : Keeps u s) : Keeps u (State.cusRegs s) := by
  unfold State.cusRegs
  try dsimp -iota only
  repeat' first
    | with_reducible refine State.set_keeps ?_ _ _
    | with_reducible refine State.setB_keeps ?_ _ _
    | with_reducible refine State.set2_keeps ?_ _ _ _
    | with_reducible refine State.setI2_keeps ?_ _ _ _
    | with_reducible refine State.each_keeps ?_ _ _ (fun _ _ => ?_)
    | with_reducible refine Keeps.ite ?_ ?_
    | with_reducible assumption
    | with_reducible exact Keeps.refl _
    | split
    | dsimp only

theorem State.cusRead_keeps {u s : State} (h : Keeps u s) : Keeps u (State.cusRead s) := by
  unfold State.cusRead
  try dsimp -iota only
  repeat' first
    | with_reducible refine State.mramRead_keeps ?_ _ _
    | with_reducible refine State.cusRegs_keeps ?_
    | with_reducible refine Keeps.ite ?_ ?_
    | simp only [Keeps.lit]
    | with_reducible assumption
    | with_reducible exact Keeps.refl _
    | split
    | dsimp only

theorem State.cusStore_keeps {u s : State} (h : Keeps u s) (a1) : Keeps u (State.cusStore s a1) := by
  unfold State.cusStore
  try dsimp -iota only
  repeat' first
    | with_reducible refine State.pokes_keeps ?_ _ _
    | with_reducible refine State.clrEcc_keeps ?_ _ _
    | with_reducible refine State.each_keeps ?_ _ _ (fun _ _ => ?_)
    | with_reducible refine State.cusRegs_keeps ?_
    | with_reducible refine Keeps.ite ?_ ?_
    | simp only [Keeps.lit]
    | with_reducible assumption
    | with_reducible exact Keeps.refl _
    | split
    | dsimp only

end Sys2Proof.Machine
end

