-- ==== Sys2Proof/Laws/KeepsNav.lean ====
section
/-! SUPPORT. What every operation keeps, one lemma an operation. Links, integrity, navigation and the journal. -/

namespace Sys2Proof.Machine

set_option linter.unusedVariables false
set_option Elab.async false

theorem State.snapMark_keeps {u s : State} (h : Keeps u s) (a1) (a2) (a3) : Keeps u (State.snapMark s a1 a2 a3) := by
  unfold State.snapMark
  try dsimp -iota only
  repeat' first
    | with_reducible refine State.set_keeps ?_ _ _
    | with_reducible refine State.each_keeps ?_ _ _ (fun _ _ => ?_)
    | with_reducible refine Keeps.ite ?_ ?_
    | with_reducible assumption
    | with_reducible exact Keeps.refl _
    | split
    | dsimp only

theorem State.linkEngs_keeps {u s : State} (h : Keeps u s) (a1) (a2) : Keeps u (State.linkEngs s a1 a2) := by
  unfold State.linkEngs
  try dsimp -iota only
  repeat' first
    | with_reducible refine Keeps.ite ?_ ?_
    | simp only [Keeps.lit]
    | with_reducible assumption
    | with_reducible exact Keeps.refl _
    | split
    | dsimp only

theorem State.linkChans_keeps {u s : State} (h : Keeps u s) (a1) (a2) : Keeps u (State.linkChans s a1 a2) := by
  unfold State.linkChans
  try dsimp -iota only
  repeat' first
    | with_reducible refine Keeps.ite ?_ ?_
    | simp only [Keeps.lit]
    | with_reducible assumption
    | with_reducible exact Keeps.refl _
    | split
    | dsimp only

theorem State.fecMarks_keeps {u s : State} (h : Keeps u s) (a1) : Keeps u (State.fecMarks s a1) := by
  unfold State.fecMarks
  try dsimp -iota only
  repeat' first
    | with_reducible refine State.setLink_keeps ?_ _ _
    | with_reducible refine State.snapMark_keeps ?_ _ _ _
    | with_reducible refine State.linkEngs_keeps ?_ _ _
    | simp only [Keeps.lit]
    | with_reducible assumption
    | with_reducible exact Keeps.refl _

theorem State.linkFault_keeps {u s : State} (h : Keeps u s) (a1) (a2) : Keeps u (State.linkFault s a1 a2) := by
  unfold State.linkFault
  try dsimp -iota only
  repeat' first
    | with_reducible refine State.orF_keeps ?_ _ _
    | with_reducible refine State.setLink_keeps ?_ _ _
    | with_reducible refine State.snapMark_keeps ?_ _ _ _
    | with_reducible refine State.linkEngs_keeps ?_ _ _
    | with_reducible refine State.linkChans_keeps ?_ _ _
    | with_reducible refine Keeps.ite ?_ ?_
    | simp only [Keeps.lit]
    | with_reducible assumption
    | with_reducible exact Keeps.refl _
    | split
    | dsimp only

theorem State.epochMarks_keeps {u s : State} (h : Keeps u s) : Keeps u (State.epochMarks s) := by
  unfold State.epochMarks
  try dsimp -iota only
  repeat' first
    | with_reducible refine Keeps.ite ?_ ?_
    | simp only [Keeps.lit]
    | with_reducible assumption
    | with_reducible exact Keeps.refl _
    | split
    | dsimp only

theorem State.linkFrame_keeps {u s : State} (h : Keeps u s) (a1) : Keeps u (State.linkFrame s a1) := by
  unfold State.linkFrame
  try dsimp -iota only
  repeat' first
    | with_reducible refine State.setLink_keeps ?_ _ _
    | with_reducible refine State.setHandle_keeps ?_ _ _
    | with_reducible refine State.each_keeps ?_ _ _ (fun _ _ => ?_)
    | with_reducible refine State.linkEngs_keeps ?_ _ _
    | with_reducible refine Keeps.ite ?_ ?_
    | simp only [Keeps.lit]
    | with_reducible assumption
    | with_reducible exact Keeps.refl _
    | split
    | dsimp only

theorem State.linkClear_keeps {u s : State} (h : Keeps u s) (a1) (a2) : Keeps u (State.linkClear s a1 a2) := by
  unfold State.linkClear
  try dsimp -iota only
  repeat' first
    | with_reducible refine State.clrF_keeps ?_ _ _
    | with_reducible refine State.setLink_keeps ?_ _ _
    | with_reducible refine Keeps.ite ?_ ?_
    | simp only [Keeps.lit]
    | with_reducible assumption
    | with_reducible exact Keeps.refl _
    | split
    | dsimp only

theorem State.linkTrain_keeps {u s : State} (h : Keeps u s) (a1) (a2) : Keeps u (State.linkTrain s a1 a2) := by
  unfold State.linkTrain
  try dsimp -iota only
  repeat' first
    | with_reducible refine State.setLink_keeps ?_ _ _
    | with_reducible refine State.linkFault_keeps ?_ _ _
    | with_reducible refine State.linkClear_keeps ?_ _ _
    | with_reducible refine Keeps.ite ?_ ?_
    | simp only [Keeps.lit]
    | with_reducible assumption
    | with_reducible exact Keeps.refl _
    | split
    | dsimp only

theorem State.linkStart_keeps {u s : State} (h : Keeps u s) (a1) : Keeps u (State.linkStart s a1) := by
  unfold State.linkStart
  try dsimp -iota only
  repeat' first
    | with_reducible refine State.set_keeps ?_ _ _
    | with_reducible refine State.setLink_keeps ?_ _ _
    | with_reducible refine Keeps.ite ?_ ?_
    | simp only [Keeps.lit]
    | with_reducible assumption
    | with_reducible exact Keeps.refl _
    | split
    | dsimp only

theorem State.linkStop_keeps {u s : State} (h : Keeps u s) (a1) : Keeps u (State.linkStop s a1) := by
  unfold State.linkStop
  try dsimp -iota only
  repeat' first
    | with_reducible refine State.set_keeps ?_ _ _
    | with_reducible refine State.setLink_keeps ?_ _ _
    | with_reducible refine Keeps.ite ?_ ?_
    | simp only [Keeps.lit]
    | with_reducible assumption
    | with_reducible exact Keeps.refl _
    | split
    | dsimp only

theorem State.linkBegin_keeps {u s : State} (h : Keeps u s) (a1) : Keeps u (State.linkBegin s a1) := by
  unfold State.linkBegin
  try dsimp -iota only
  repeat' first
    | with_reducible refine State.set_keeps ?_ _ _
    | with_reducible refine State.linkStart_keeps ?_ _
    | with_reducible refine State.linkStop_keeps ?_ _
    | with_reducible refine Keeps.ite ?_ ?_
    | with_reducible assumption
    | with_reducible exact Keeps.refl _
    | split
    | dsimp only

theorem State.linkMapOne_keeps {u s : State} (h : Keeps u s) (a0) : Keeps u (State.linkMapOne a0 s) := by
  unfold State.linkMapOne
  try dsimp -iota only
  repeat' first
    | with_reducible refine State.set_keeps ?_ _ _
    | with_reducible refine State.linkStop_keeps ?_ _
    | with_reducible refine State.linkBegin_keeps ?_ _
    | with_reducible refine Keeps.ite ?_ ?_
    | with_reducible assumption
    | with_reducible exact Keeps.refl _
    | split
    | dsimp only

theorem State.linkMap_keeps {u s : State} (h : Keeps u s) : Keeps u (State.linkMap s) := by
  unfold State.linkMap
  try dsimp -iota only
  repeat' first
    | with_reducible refine State.each_keeps ?_ _ _ (fun _ _ => ?_)
    | with_reducible refine State.linkMapOne_keeps ?_ _
    | with_reducible assumption
    | with_reducible exact Keeps.refl _

theorem State.slkCfg_keeps {u s : State} (h : Keeps u s) (a1) (a2) (a3) : Keeps u (State.slkCfg s a1 a2 a3) := by
  unfold State.slkCfg
  try dsimp -iota only
  repeat' first
    | with_reducible refine State.set_keeps ?_ _ _
    | with_reducible refine State.setLink_keeps ?_ _ _
    | with_reducible refine State.linkTrain_keeps ?_ _ _
    | with_reducible refine State.linkStop_keeps ?_ _
    | with_reducible refine State.linkBegin_keeps ?_ _
    | with_reducible refine State.linkMap_keeps ?_
    | with_reducible refine Keeps.ite ?_ ?_
    | simp only [Keeps.lit]
    | with_reducible assumption
    | with_reducible exact Keeps.refl _
    | split
    | dsimp only

theorem State.linkMarker_keeps {u s : State} (h : Keeps u s) (a1) (a2) (a3) (a4) : Keeps u (State.linkMarker s a1 a2 a3 a4) := by
  unfold State.linkMarker
  try dsimp -iota only
  repeat' first
    | with_reducible refine State.set_keeps ?_ _ _
    | with_reducible refine State.setLink_keeps ?_ _ _
    | with_reducible refine State.linkFault_keeps ?_ _ _
    | with_reducible refine State.linkFrame_keeps ?_ _
    | with_reducible refine State.linkClear_keeps ?_ _ _
    | with_reducible refine State.linkTrain_keeps ?_ _ _
    | with_reducible refine Keeps.ite ?_ ?_
    | simp only [Keeps.lit]
    | with_reducible assumption
    | with_reducible exact Keeps.refl _
    | split
    | dsimp only

theorem State.linkBadWord_keeps {u s : State} (h : Keeps u s) (a1) : Keeps u (State.linkBadWord s a1) := by
  unfold State.linkBadWord
  try dsimp -iota only
  repeat' first
    | with_reducible refine State.incSat_keeps ?_ _ _
    | with_reducible refine State.setLink_keeps ?_ _ _
    | with_reducible refine State.linkFault_keeps ?_ _ _
    | with_reducible refine Keeps.ite ?_ ?_
    | simp only [Keeps.lit]
    | with_reducible assumption
    | with_reducible exact Keeps.refl _
    | split
    | dsimp only

theorem State.linkGain_keeps {u s : State} (h : Keeps u s) (a1) (a2) : Keeps u (State.linkGain s a1 a2) := by
  unfold State.linkGain
  try dsimp -iota only
  repeat' first
    | with_reducible refine State.set_keeps ?_ _ _
    | with_reducible refine Keeps.ite ?_ ?_
    | with_reducible assumption
    | with_reducible exact Keeps.refl _
    | split
    | dsimp only

theorem State.linkWord_keeps {u s : State} (h : Keeps u s) (a1) (a2) : Keeps u (State.linkWord s a1 a2) := by
  unfold State.linkWord
  try dsimp -iota only
  repeat' first
    | with_reducible refine State.incSat_keeps ?_ _ _
    | with_reducible refine State.setLink_keeps ?_ _ _
    | with_reducible refine State.snapMark_keeps ?_ _ _ _
    | with_reducible refine State.linkFault_keeps ?_ _ _
    | with_reducible refine State.linkBadWord_keeps ?_ _
    | with_reducible refine State.linkGain_keeps ?_ _ _
    | with_reducible refine Keeps.ite ?_ ?_
    | simp only [Keeps.lit]
    | with_reducible assumption
    | with_reducible exact Keeps.refl _
    | split
    | dsimp only

theorem State.linkClk_keeps {u s : State} (h : Keeps u s) (a1) : Keeps u (State.linkClk s a1) := by
  unfold State.linkClk
  try dsimp -iota only
  repeat' first
    | with_reducible refine State.set_keeps ?_ _ _
    | with_reducible refine State.linkFault_keeps ?_ _ _
    | with_reducible refine Keeps.ite ?_ ?_
    | with_reducible assumption
    | with_reducible exact Keeps.refl _
    | split
    | dsimp only

theorem State.linkClkReturn_keeps {u s : State} (h : Keeps u s) (a1) (a2) : Keeps u (State.linkClkReturn s a1 a2) := by
  unfold State.linkClkReturn
  try dsimp -iota only
  repeat' first
    | with_reducible refine State.linkTrain_keeps ?_ _ _
    | with_reducible refine State.linkStart_keeps ?_ _
    | with_reducible refine Keeps.ite ?_ ?_
    | with_reducible assumption
    | with_reducible exact Keeps.refl _
    | split
    | dsimp only

theorem State.linkMark_keeps {u s : State} (h : Keeps u s) (a1) : Keeps u (State.linkMark s a1) := by
  unfold State.linkMark
  try dsimp -iota only
  repeat' first
    | with_reducible refine State.setLink_keeps ?_ _ _
    | with_reducible refine State.linkFault_keeps ?_ _ _
    | with_reducible refine Keeps.ite ?_ ?_
    | simp only [Keeps.lit]
    | with_reducible assumption
    | with_reducible exact Keeps.refl _
    | split
    | dsimp only

theorem State.linkStuck_keeps {u s : State} (h : Keeps u s) (a1) (a2) : Keeps u (State.linkStuck s a1 a2) := by
  unfold State.linkStuck
  try dsimp -iota only
  repeat' first
    | with_reducible refine State.setLink_keeps ?_ _ _
    | with_reducible refine State.linkFault_keeps ?_ _ _
    | with_reducible refine Keeps.ite ?_ ?_
    | simp only [Keeps.lit]
    | with_reducible assumption
    | with_reducible exact Keeps.refl _
    | split
    | dsimp only

theorem State.linkToggle_keeps {u s : State} (h : Keeps u s) (a1) (a2) : Keeps u (State.linkToggle s a1 a2) := by
  unfold State.linkToggle
  try dsimp -iota only
  repeat' first
    | with_reducible refine State.setLink_keeps ?_ _ _
    | with_reducible refine State.linkClear_keeps ?_ _ _
    | with_reducible refine Keeps.ite ?_ ?_
    | simp only [Keeps.lit]
    | with_reducible assumption
    | with_reducible exact Keeps.refl _
    | split
    | dsimp only

theorem State.linkSlip_keeps {u s : State} (h : Keeps u s) (a1) (a2) : Keeps u (State.linkSlip s a1 a2) := by
  unfold State.linkSlip
  try dsimp -iota only
  repeat' first
    | with_reducible refine State.incSat_keeps ?_ _ _
    | with_reducible refine State.linkFault_keeps ?_ _ _
    | with_reducible refine Keeps.ite ?_ ?_
    | with_reducible assumption
    | with_reducible exact Keeps.refl _
    | split
    | dsimp only

theorem State.linkEpisodeEnd_keeps {u s : State} (h : Keeps u s) (a1) : Keeps u (State.linkEpisodeEnd s a1) := by
  unfold State.linkEpisodeEnd
  try dsimp -iota only
  repeat' first
    | with_reducible refine State.setLink_keeps ?_ _ _
    | with_reducible refine State.note_keeps ?_ _ _ _ _ _
    | with_reducible refine Keeps.ite ?_ ?_
    | simp only [Keeps.lit]
    | with_reducible assumption
    | with_reducible exact Keeps.refl _
    | split
    | dsimp only

theorem State.linkAgc_keeps {u s : State} (h : Keeps u s) (a1) : Keeps u (State.linkAgc s a1) := by
  unfold State.linkAgc
  try dsimp -iota only
  repeat' first
    | with_reducible refine State.set_keeps ?_ _ _
    | with_reducible refine State.setLink_keeps ?_ _ _
    | with_reducible refine Keeps.ite ?_ ?_
    | simp only [Keeps.lit]
    | with_reducible assumption
    | with_reducible exact Keeps.refl _
    | split
    | dsimp only

theorem State.linkBase_keeps {u s : State} (h : Keeps u s) (a1) : Keeps u (State.linkBase s a1) := by
  unfold State.linkBase
  try dsimp -iota only
  repeat' first
    | with_reducible refine State.set_keeps ?_ _ _
    | with_reducible refine State.setLink_keeps ?_ _ _
    | with_reducible refine Keeps.ite ?_ ?_
    | simp only [Keeps.lit]
    | with_reducible assumption
    | with_reducible exact Keeps.refl _
    | split
    | dsimp only

theorem State.linkLearned_keeps {u s : State} (h : Keeps u s) (a1) : Keeps u (State.linkLearned s a1) := by
  unfold State.linkLearned
  try dsimp -iota only
  repeat' first
    | with_reducible refine State.set_keeps ?_ _ _
    | with_reducible refine Keeps.ite ?_ ?_
    | with_reducible assumption
    | with_reducible exact Keeps.refl _
    | split
    | dsimp only

theorem State.linkInterference_keeps {u s : State} (h : Keeps u s) (a1) : Keeps u (State.linkInterference s a1) := by
  unfold State.linkInterference
  try dsimp -iota only
  repeat' first
    | with_reducible refine State.set_keeps ?_ _ _
    | with_reducible refine State.setB_keeps ?_ _ _
    | with_reducible refine Keeps.ite ?_ ?_
    | with_reducible assumption
    | with_reducible exact Keeps.refl _
    | split
    | dsimp only

theorem State.linkIfer_keeps {u s : State} (h : Keeps u s) (a1) : Keeps u (State.linkIfer s a1) := by
  unfold State.linkIfer
  try dsimp -iota only
  repeat' first
    | with_reducible refine Keeps.ite ?_ ?_
    | simp only [Keeps.lit]
    | with_reducible assumption
    | with_reducible exact Keeps.refl _
    | split
    | dsimp only

theorem State.linkEpoch_keeps {u s : State} (h : Keeps u s) (a1) (a2) : Keeps u (State.linkEpoch s a1 a2) := by
  unfold State.linkEpoch
  try dsimp -iota only
  repeat' first
    | with_reducible refine State.set_keeps ?_ _ _
    | with_reducible refine State.incSat_keeps ?_ _ _
    | with_reducible refine State.setLink_keeps ?_ _ _
    | with_reducible refine State.linkFault_keeps ?_ _ _
    | with_reducible refine State.linkClear_keeps ?_ _ _
    | with_reducible refine State.linkInterference_keeps ?_ _
    | with_reducible refine State.linkIfer_keeps ?_ _
    | with_reducible refine Keeps.ite ?_ ?_
    | simp only [Keeps.lit]
    | with_reducible assumption
    | with_reducible exact Keeps.refl _
    | split
    | dsimp only

theorem State.fecSend_keeps {u s : State} (h : Keeps u s) (a1) (a2) (a3) : Keeps u (State.fecSend s a1 a2 a3) := by
  unfold State.fecSend
  try dsimp -iota only
  repeat' first
    | with_reducible refine State.emit_keeps ?_ _
    | with_reducible assumption
    | with_reducible exact Keeps.refl _

theorem State.fecGain_keeps {u s : State} (h : Keeps u s) (a1) (a2) : Keeps u (State.fecGain s a1 a2) := by
  unfold State.fecGain
  try dsimp -iota only
  repeat' first
    | with_reducible refine State.setLink_keeps ?_ _ _
    | with_reducible refine State.fecMarks_keeps ?_ _
    | with_reducible refine State.fecSend_keeps ?_ _ _ _
    | with_reducible refine Keeps.ite ?_ ?_
    | simp only [Keeps.lit]
    | with_reducible assumption
    | with_reducible exact Keeps.refl _
    | split
    | dsimp only

theorem State.fecStart_keeps {u s : State} (h : Keeps u s) (a1) (a2) (a3) : Keeps u (State.fecStart s a1 a2 a3) := by
  unfold State.fecStart
  try dsimp -iota only
  repeat' first
    | with_reducible refine State.set_keeps ?_ _ _
    | with_reducible refine State.setFec_keeps ?_ _ _
    | with_reducible refine Keeps.ite ?_ ?_
    | simp only [Keeps.lit]
    | with_reducible assumption
    | with_reducible exact Keeps.refl _
    | split
    | dsimp only

theorem State.fecSlot_keeps {u s : State} (h : Keeps u s) (a1) : Keeps u (State.fecSlot s a1) := by
  unfold State.fecSlot
  try dsimp -iota only
  repeat' first
    | with_reducible refine State.setFec_keeps ?_ _ _
    | with_reducible refine State.fecGain_keeps ?_ _ _
    | with_reducible refine State.fecStart_keeps ?_ _ _ _
    | with_reducible refine Keeps.ite ?_ ?_
    | simp only [Keeps.lit]
    | with_reducible assumption
    | with_reducible exact Keeps.refl _
    | split
    | dsimp only

theorem State.fecGo_keeps {u s : State} (h : Keeps u s) (a1) (a2) : Keeps u (State.fecGo s a1 a2) := by
  unfold State.fecGo
  try dsimp -iota only
  repeat' first
    | with_reducible refine State.set_keeps ?_ _ _
    | with_reducible refine State.setFec_keeps ?_ _ _
    | with_reducible refine Keeps.ite ?_ ?_
    | simp only [Keeps.lit]
    | with_reducible assumption
    | with_reducible exact Keeps.refl _
    | split
    | dsimp only

theorem State.fecCal_keeps {u s : State} (h : Keeps u s) (a1) : Keeps u (State.fecCal s a1) := by
  unfold State.fecCal
  try dsimp -iota only
  repeat' first
    | with_reducible refine State.setFec_keeps ?_ _ _
    | with_reducible refine Keeps.ite ?_ ?_
    | simp only [Keeps.lit]
    | with_reducible assumption
    | with_reducible exact Keeps.refl _
    | split
    | dsimp only

theorem State.fecFail_keeps {u s : State} (h : Keeps u s) (a1) (a2) : Keeps u (State.fecFail s a1 a2) := by
  unfold State.fecFail
  try dsimp -iota only
  repeat' first
    | with_reducible refine State.set_keeps ?_ _ _
    | with_reducible refine State.setFec_keeps ?_ _ _
    | with_reducible refine State.note_keeps ?_ _ _ _ _ _
    | with_reducible refine Keeps.ite ?_ ?_
    | simp only [Keeps.lit]
    | with_reducible assumption
    | with_reducible exact Keeps.refl _
    | split
    | dsimp only

theorem State.fecEntry_keeps {u s : State} (h : Keeps u s) (a1) (a2) : KeepsP u (State.fecEntry s a1 a2) := by
  unfold State.fecEntry
  try dsimp -iota only
  repeat' first
    | with_reducible refine State.memRead_keeps ?_ _ _ _
    | with_reducible refine KeepsP.fst (State.memRead_keeps ?_ _ _ _)
    | with_reducible refine State.memRead_keepsP (by assumption) ?_
    | simp -iota -zeta -proj only [KeepsP.pair]
    | with_reducible assumption
    | with_reducible exact Keeps.refl _
theorem State.fecEntry_keepsP {u s t : State} {v} {a1} {a2} (e : State.fecEntry s a1 a2 = (t, v)) (h : Keeps u s) : Keeps u t :=
  KeepsP.of_eq (State.fecEntry_keeps h a1 a2) e

theorem State.fecStep_keeps {u s : State} (h : Keeps u s) (a1) (a2) (a3) (a4) (h4 : ∀ x0 s, Keeps s (a4 x0 s)) : Keeps u (State.fecStep s a1 a2 a3 a4) := by
  unfold State.fecStep
  try dsimp -iota only
  repeat' first
    | with_reducible refine State.set_keeps ?_ _ _
    | with_reducible refine State.fecFail_keeps ?_ _ _
    | with_reducible refine State.fecEntry_keeps ?_ _ _
    | with_reducible refine KeepsP.fst (State.fecEntry_keeps ?_ _ _)
    | with_reducible refine State.fecEntry_keepsP (by assumption) ?_
    | with_reducible refine Keeps.trans ?_ (h4 _ _)
    | with_reducible refine Keeps.ite ?_ ?_
    | simp -iota -zeta -proj only [KeepsP.pair]
    | with_reducible refine KeepsP.ite ?_ ?_
    | with_reducible refine KeepsP.fst (KeepsP.ite ?_ ?_)
    | with_reducible assumption
    | with_reducible exact Keeps.refl _
    | split
    | dsimp only

theorem State.fecNext_keeps {u s : State} (h : Keeps u s) (a1) (a2) : Keeps u (State.fecNext s a1 a2) := by
  unfold State.fecNext
  try dsimp -iota only
  repeat' first
    | with_reducible refine State.inc_keeps ?_ _ _
    | with_reducible assumption
    | with_reducible exact Keeps.refl _

theorem State.fecFrame_keeps {u s : State} (h : Keeps u s) (a1) (a2) (a3) : Keeps u (State.fecFrame s a1 a2 a3) := by
  unfold State.fecFrame
  try dsimp -iota only
  repeat' first
    | with_reducible refine State.set_keeps ?_ _ _
    | with_reducible refine State.fecMarks_keeps ?_ _
    | with_reducible refine State.fecSend_keeps ?_ _ _ _
    | with_reducible refine Keeps.ite ?_ ?_
    | with_reducible assumption
    | with_reducible exact Keeps.refl _
    | split
    | dsimp only

theorem fecActWrite_keeps {u s : State} (h : Keeps u s) (a0) (a1) (a2) : Keeps u (fecActWrite a0 a1 a2 s) := by
  unfold fecActWrite
  try dsimp -iota only
  repeat' first
    | with_reducible refine State.fecNext_keeps ?_ _ _
    | with_reducible refine State.fecFrame_keeps ?_ _ _ _
    | with_reducible assumption
    | with_reducible exact Keeps.refl _

theorem fecActCheck_keeps {u s : State} (h : Keeps u s) (a0) (a1) (a2) : Keeps u (fecActCheck a0 a1 a2 s) := by
  unfold fecActCheck
  try dsimp -iota only
  repeat' first
    | with_reducible refine State.fecFail_keeps ?_ _ _
    | with_reducible refine State.fecEntry_keeps ?_ _ _
    | with_reducible refine KeepsP.fst (State.fecEntry_keeps ?_ _ _)
    | with_reducible refine State.fecEntry_keepsP (by assumption) ?_
    | with_reducible refine State.fecNext_keeps ?_ _ _
    | with_reducible refine State.fecFrame_keeps ?_ _ _ _
    | with_reducible refine Keeps.ite ?_ ?_
    | simp -iota -zeta -proj only [KeepsP.pair]
    | with_reducible refine KeepsP.ite ?_ ?_
    | with_reducible refine KeepsP.fst (KeepsP.ite ?_ ?_)
    | with_reducible assumption
    | with_reducible exact Keeps.refl _
    | split
    | dsimp only

theorem fecActWait_keeps {u s : State} (h : Keeps u s) (a0) (a1) (a2) : Keeps u (fecActWait a0 a1 a2 s) := by
  unfold fecActWait
  try dsimp -iota only
  repeat' first
    | with_reducible refine State.setFec_keeps ?_ _ _
    | simp only [Keeps.lit]
    | with_reducible assumption
    | with_reducible exact Keeps.refl _

theorem State.fecWaitEnd_keeps {u s : State} (h : Keeps u s) (a1) : Keeps u (State.fecWaitEnd s a1) := by
  unfold State.fecWaitEnd
  try dsimp -iota only
  repeat' first
    | with_reducible refine State.setFec_keeps ?_ _ _
    | with_reducible refine State.fecNext_keeps ?_ _ _
    | with_reducible refine Keeps.ite ?_ ?_
    | simp only [Keeps.lit]
    | with_reducible assumption
    | with_reducible exact Keeps.refl _
    | split
    | dsimp only

theorem fecActEnd_keeps {u s : State} (h : Keeps u s) (a0) (a1) : Keeps u (fecActEnd a0 a1 s) := by
  unfold fecActEnd
  try dsimp -iota only
  repeat' first
    | with_reducible refine State.set_keeps ?_ _ _
    | with_reducible refine State.setFec_keeps ?_ _ _
    | simp only [Keeps.lit]
    | with_reducible assumption
    | with_reducible exact Keeps.refl _

theorem State.fecWake_keeps {u s : State} (h : Keeps u s) : Keeps u (State.fecWake s) := by
  unfold State.fecWake
  try dsimp -iota only
  repeat' first
    | with_reducible refine State.setFec_keeps ?_ _ _
    | with_reducible refine State.each_keeps ?_ _ _ (fun _ _ => ?_)
    | with_reducible refine Keeps.ite ?_ ?_
    | simp only [Keeps.lit]
    | with_reducible assumption
    | with_reducible exact Keeps.refl _
    | split
    | dsimp only

theorem State.fecPwr_keeps {u s : State} (h : Keeps u s) (a1) : Keeps u (State.fecPwr s a1) := by
  unfold State.fecPwr
  try dsimp -iota only
  repeat' first
    | with_reducible refine State.set_keeps ?_ _ _
    | with_reducible refine State.linkStart_keeps ?_ _
    | with_reducible refine State.linkStop_keeps ?_ _
    | with_reducible refine Keeps.ite ?_ ?_
    | with_reducible refine Keeps.foldl ?_ _ _ (fun _ _ => ?_)
    | with_reducible assumption
    | with_reducible exact Keeps.refl _
    | split
    | dsimp only

theorem State.linksWake_keeps {u s : State} (h : Keeps u s) : Keeps u (State.linksWake s) := by
  unfold State.linksWake
  try dsimp -iota only
  repeat' first
    | with_reducible refine State.each_keeps ?_ _ _ (fun _ _ => ?_)
    | with_reducible refine State.linkStart_keeps ?_ _
    | with_reducible refine Keeps.ite ?_ ?_
    | with_reducible assumption
    | with_reducible exact Keeps.refl _
    | split
    | dsimp only

theorem State.fecSleep_keeps {u s : State} (h : Keeps u s) : Keeps u (State.fecSleep s) := by
  unfold State.fecSleep
  try dsimp -iota only
  repeat' first
    | with_reducible refine State.set_keeps ?_ _ _
    | with_reducible refine State.setFec_keeps ?_ _ _
    | with_reducible refine State.each_keeps ?_ _ _ (fun _ _ => ?_)
    | with_reducible refine State.linkStop_keeps ?_ _
    | with_reducible refine Keeps.ite ?_ ?_
    | simp only [Keeps.lit]
    | with_reducible assumption
    | with_reducible exact Keeps.refl _
    | split
    | dsimp only

theorem State.mordantAsk_keeps {u s : State} (h : Keeps u s) : Keeps u (State.mordantAsk s) := by
  unfold State.mordantAsk
  try dsimp -iota only
  repeat' first
    | with_reducible refine Keeps.ite ?_ ?_
    | simp only [Keeps.lit]
    | with_reducible assumption
    | with_reducible exact Keeps.refl _
    | split
    | dsimp only

theorem State.burstDrop_keeps {u s : State} (h : Keeps u s) : Keeps u (State.burstDrop s) := by
  unfold State.burstDrop
  try dsimp -iota only
  repeat' first
    | simp only [Keeps.lit]
    | with_reducible assumption
    | with_reducible exact Keeps.refl _

theorem State.itgMode_keeps {u s : State} (h : Keeps u s) : Keeps u (State.itgMode s) := by
  unfold State.itgMode
  try dsimp -iota only
  repeat' first
    | with_reducible refine State.set_keeps ?_ _ _
    | with_reducible refine State.custWake_keeps ?_ _ _
    | with_reducible refine State.chansEnd_keeps ?_
    | with_reducible refine State.fecWake_keeps ?_
    | with_reducible refine State.linksWake_keeps ?_
    | with_reducible refine State.fecSleep_keeps ?_
    | with_reducible refine State.mordantAsk_keeps ?_
    | with_reducible refine State.burstDrop_keeps ?_
    | with_reducible refine Keeps.ite ?_ ?_
    | simp only [Keeps.lit]
    | with_reducible assumption
    | with_reducible exact Keeps.refl _
    | split
    | dsimp only

theorem State.askStep_keeps {u s : State} (h : Keeps u s) : Keeps u (State.askStep s) := by
  unfold State.askStep
  try dsimp -iota only
  repeat' first
    | with_reducible refine State.set_keeps ?_ _ _
    | with_reducible refine State.setI2_keeps ?_ _ _ _
    | with_reducible refine State.timStepGo_keeps ?_ _
    | with_reducible refine Keeps.ite ?_ ?_
    | with_reducible assumption
    | with_reducible exact Keeps.refl _
    | split
    | dsimp only

theorem State.itgChange_keeps {u s : State} (h : Keeps u s) (a1) (a2) : Keeps u (State.itgChange s a1 a2) := by
  unfold State.itgChange
  try dsimp -iota only
  repeat' first
    | with_reducible refine State.set_keeps ?_ _ _
    | with_reducible refine State.incSat_keeps ?_ _ _
    | with_reducible refine State.note_keeps ?_ _ _ _ _ _
    | with_reducible refine State.itgMode_keeps ?_
    | with_reducible refine State.askStep_keeps ?_
    | with_reducible refine Keeps.ite ?_ ?_
    | simp only [Keeps.lit]
    | with_reducible assumption
    | with_reducible exact Keeps.refl _
    | split
    | dsimp only

theorem State.itgEnter_keeps {u s : State} (h : Keeps u s) (a1) : Keeps u (State.itgEnter s a1) := by
  unfold State.itgEnter
  try dsimp -iota only
  repeat' first
    | with_reducible refine State.set_keeps ?_ _ _
    | with_reducible refine State.winFall_keeps ?_ _ _
    | with_reducible refine State.lateOpen_keeps ?_
    | with_reducible refine State.itgChange_keeps ?_ _ _
    | with_reducible refine Keeps.ite ?_ ?_
    | simp only [Keeps.lit]
    | with_reducible assumption
    | with_reducible exact Keeps.refl _
    | split
    | dsimp only

theorem State.relocStore_keeps {u s : State} (h : Keeps u s) : Keeps u (State.relocStore s) := by
  unfold State.relocStore
  try dsimp -iota only
  repeat' first
    | with_reducible refine State.cusStore_keeps ?_ _
    | with_reducible refine Keeps.ite ?_ ?_
    | simp only [Keeps.lit]
    | with_reducible assumption
    | with_reducible exact Keeps.refl _
    | split
    | dsimp only

theorem State.itgLatch_keeps {u s : State} (h : Keeps u s) (a1) : Keeps u (State.itgLatch s a1) := by
  unfold State.itgLatch
  try dsimp -iota only
  repeat' first
    | with_reducible refine State.set_keeps ?_ _ _
    | with_reducible refine State.note_keeps ?_ _ _ _ _ _
    | with_reducible refine State.itgEnter_keeps ?_ _
    | with_reducible refine State.relocStore_keeps ?_
    | with_reducible refine Keeps.ite ?_ ?_
    | with_reducible assumption
    | with_reducible exact Keeps.refl _
    | split
    | dsimp only

theorem State.itgUnlatch_keeps {u s : State} (h : Keeps u s) (a1) (a2) : Keeps u (State.itgUnlatch s a1 a2) := by
  unfold State.itgUnlatch
  try dsimp -iota only
  repeat' first
    | with_reducible refine State.set_keeps ?_ _ _
    | with_reducible refine State.note_keeps ?_ _ _ _ _ _
    | with_reducible refine State.cusStore_keeps ?_ _
    | with_reducible refine Keeps.ite ?_ ?_
    | simp only [Keeps.lit]
    | with_reducible assumption
    | with_reducible exact Keeps.refl _
    | split
    | dsimp only

theorem State.itgLatchWrite_keeps {u s : State} (h : Keeps u s) (a1) : Keeps u (State.itgLatchWrite s a1) := by
  unfold State.itgLatchWrite
  try dsimp -iota only
  repeat' first
    | with_reducible refine State.itgUnlatch_keeps ?_ _ _
    | with_reducible refine Keeps.ite ?_ ?_
    | simp only [Keeps.lit]
    | with_reducible assumption
    | with_reducible exact Keeps.refl _
    | split
    | dsimp only

theorem State.woadExpiry_keeps {u s : State} (h : Keeps u s) : Keeps u (State.woadExpiry s) := by
  unfold State.woadExpiry
  try dsimp -iota only
  repeat' first
    | with_reducible refine State.itgUnlatch_keeps ?_ _ _
    | with_reducible refine Keeps.ite ?_ ?_
    | with_reducible assumption
    | with_reducible exact Keeps.refl _
    | split
    | dsimp only

theorem State.itgBlock_keeps {u s : State} (h : Keeps u s) (a1) : Keeps u (State.itgBlock s a1) := by
  unfold State.itgBlock
  try dsimp -iota only
  repeat' first
    | with_reducible refine State.itgEnter_keeps ?_ _
    | with_reducible refine Keeps.ite ?_ ?_
    | simp only [Keeps.lit]
    | with_reducible assumption
    | with_reducible exact Keeps.refl _
    | split
    | dsimp only

theorem State.itgFix_keeps {u s : State} (h : Keeps u s) (a1) : Keeps u (State.itgFix s a1) := by
  unfold State.itgFix
  try dsimp -iota only
  repeat' first
    | with_reducible refine State.itgEnter_keeps ?_ _
    | with_reducible refine Keeps.ite ?_ ?_
    | with_reducible assumption
    | with_reducible exact Keeps.refl _
    | split
    | dsimp only

theorem State.itgTerr_keeps {u s : State} (h : Keeps u s) : Keeps u (State.itgTerr s) := by
  unfold State.itgTerr
  try dsimp -iota only
  repeat' first
    | with_reducible refine State.itgBlock_keeps ?_ _
    | with_reducible refine Keeps.ite ?_ ?_
    | with_reducible assumption
    | with_reducible exact Keeps.refl _
    | split
    | dsimp only

theorem State.itgHoldover_keeps {u s : State} (h : Keeps u s) : Keeps u (State.itgHoldover s) := by
  unfold State.itgHoldover
  try dsimp -iota only
  repeat' first
    | with_reducible refine State.itgEnter_keeps ?_ _
    | with_reducible refine Keeps.ite ?_ ?_
    | with_reducible assumption
    | with_reducible exact Keeps.refl _
    | split
    | dsimp only

theorem State.itgAge_keeps {u s : State} (h : Keeps u s) : Keeps u (State.itgAge s) := by
  unfold State.itgAge
  try dsimp -iota only
  repeat' first
    | with_reducible refine State.itgBlock_keeps ?_ _
    | with_reducible refine Keeps.ite ?_ ?_
    | with_reducible assumption
    | with_reducible exact Keeps.refl _
    | split
    | dsimp only

theorem State.itgNoFix_keeps {u s : State} (h : Keeps u s) : Keeps u (State.itgNoFix s) := by
  unfold State.itgNoFix
  try dsimp -iota only
  repeat' first
    | with_reducible refine State.itgHoldover_keeps ?_
    | with_reducible refine Keeps.ite ?_ ?_
    | with_reducible assumption
    | with_reducible exact Keeps.refl _
    | split
    | dsimp only

theorem State.itgMinimum_keeps {u s : State} (h : Keeps u s) : Keeps u (State.itgMinimum s) := by
  unfold State.itgMinimum
  try dsimp -iota only
  repeat' first
    | with_reducible refine State.itgEnter_keeps ?_ _
    | simp only [Keeps.lit]
    | with_reducible assumption
    | with_reducible exact Keeps.refl _

theorem State.evidRead_keeps {u s : State} (h : Keeps u s) : KeepsP u (State.evidRead s) := by
  unfold State.evidRead
  try dsimp -iota only
  repeat' first
    | with_reducible refine State.memReadWords_keeps ?_ _ _ _
    | with_reducible refine KeepsP.fst (State.memReadWords_keeps ?_ _ _ _)
    | with_reducible refine State.memReadWords_keepsP (by assumption) ?_
    | with_reducible refine Keeps.ite ?_ ?_
    | simp -iota -zeta -proj only [KeepsP.pair]
    | with_reducible refine KeepsP.ite ?_ ?_
    | with_reducible refine KeepsP.fst (KeepsP.ite ?_ ?_)
    | with_reducible assumption
    | with_reducible exact Keeps.refl _
    | split
    | dsimp only
theorem State.evidRead_keepsP {u s t : State} {v} (e : State.evidRead s = (t, v)) (h : Keeps u s) : Keeps u t :=
  KeepsP.of_eq (State.evidRead_keeps h) e

theorem State.driftStep_keeps {u s : State} (h : Keeps u s) (a1) : KeepsP u (State.driftStep s a1) := by
  unfold State.driftStep
  try dsimp -iota only
  repeat' first
    | with_reducible refine Keeps.ite ?_ ?_
    | simp -iota -zeta -proj only [KeepsP.pair]
    | with_reducible refine KeepsP.ite ?_ ?_
    | simp only [Keeps.lit]
    | with_reducible assumption
    | with_reducible exact Keeps.refl _
    | split
    | dsimp only
theorem State.driftStep_keepsP {u s t : State} {v} {a1} (e : State.driftStep s a1 = (t, v)) (h : Keeps u s) : Keeps u t :=
  KeepsP.of_eq (State.driftStep_keeps h a1) e

theorem State.xTidy_keeps {u s : State} (h : Keeps u s) : Keeps u (State.xTidy s) := by
  unfold State.xTidy
  try dsimp -iota only
  repeat' first
    | with_reducible refine Keeps.ite ?_ ?_
    | simp only [Keeps.lit]
    | with_reducible assumption
    | with_reducible exact Keeps.refl _
    | split
    | dsimp only

theorem State.xLead_keeps {u s : State} (h : Keeps u s) : Keeps u (State.xLead s) := by
  unfold State.xLead
  try dsimp -iota only
  repeat' first
    | with_reducible refine State.set_keeps ?_ _ _
    | with_reducible refine Keeps.ite ?_ ?_
    | simp only [Keeps.lit]
    | with_reducible assumption
    | with_reducible exact Keeps.refl _
    | split
    | dsimp only

theorem State.xdif_keeps {u s : State} (h : Keeps u s) (a1) : Keeps u (State.xdif s a1) := by
  unfold State.xdif
  try dsimp -iota only
  repeat' first
    | with_reducible refine State.setI_keeps ?_ _ _
    | with_reducible refine State.xLead_keeps ?_
    | with_reducible refine Keeps.ite ?_ ?_
    | simp only [Keeps.lit]
    | with_reducible assumption
    | with_reducible exact Keeps.refl _
    | split
    | dsimp only

theorem State.woadBand_keeps {u s : State} (h : Keeps u s) (a1) (a2) : KeepsP u (State.woadBand s a1 a2) := by
  unfold State.woadBand
  try dsimp -iota only
  repeat' first
    | with_reducible refine State.note_keeps ?_ _ _ _ _ _
    | with_reducible refine Keeps.ite ?_ ?_
    | simp -iota -zeta -proj only [KeepsP.pair]
    | with_reducible refine KeepsP.ite ?_ ?_
    | simp only [Keeps.lit]
    | with_reducible assumption
    | with_reducible exact Keeps.refl _
    | split
    | dsimp only
theorem State.woadBand_keepsP {u s t : State} {v} {a1} {a2} (e : State.woadBand s a1 a2 = (t, v)) (h : Keeps u s) : Keeps u t :=
  KeepsP.of_eq (State.woadBand_keeps h a1 a2) e

theorem State.woadPair_keeps {u s : State} (h : Keeps u s) (a1) (a2) : KeepsP u (State.woadPair s a1 a2) := by
  unfold State.woadPair
  try dsimp -iota only
  repeat' first
    | with_reducible refine State.woadBand_keeps ?_ _ _
    | with_reducible refine KeepsP.fst (State.woadBand_keeps ?_ _ _)
    | with_reducible refine State.woadBand_keepsP (by assumption) ?_
    | with_reducible refine Keeps.ite ?_ ?_
    | simp -iota -zeta -proj only [KeepsP.pair]
    | with_reducible refine KeepsP.ite ?_ ?_
    | with_reducible refine KeepsP.fst (KeepsP.ite ?_ ?_)
    | with_reducible refine Keeps.foldl ?_ _ _ (fun _ _ => ?_)
    | with_reducible refine KeepsP.foldl ?_ _ _ (fun _ _ => ?_)
    | with_reducible assumption
    | with_reducible exact Keeps.refl _
    | split
    | dsimp only
theorem State.woadPair_keepsP {u s t : State} {v} {a1} {a2} (e : State.woadPair s a1 a2 = (t, v)) (h : Keeps u s) : Keeps u t :=
  KeepsP.of_eq (State.woadPair_keeps h a1 a2) e

theorem State.woadAll_keeps {u s : State} (h : Keeps u s) (a1) (a2) : KeepsP u (State.woadAll s a1 a2) := by
  induction a2 generalizing s a1
  · exact h
  · rename_i ih
    have ihP := fun (s t : State) v a1 (h : Keeps u s) (e : State.woadAll s a1 _ = (t, v)) => KeepsP.of_eq (ih h a1) e
    unfold State.woadAll
    try dsimp -iota only
    repeat' first
      | with_reducible refine ih ?_ _
      | with_reducible refine KeepsP.fst (ih ?_ _)
      | with_reducible refine ihP _ _ _ _ ?_ (by assumption)
      | with_reducible refine State.woadPair_keeps ?_ _ _
      | with_reducible refine KeepsP.fst (State.woadPair_keeps ?_ _ _)
      | with_reducible refine State.woadPair_keepsP (by assumption) ?_
      | with_reducible refine Keeps.ite ?_ ?_
      | simp -iota -zeta -proj only [KeepsP.pair]
      | with_reducible refine KeepsP.ite ?_ ?_
      | with_reducible refine KeepsP.fst (KeepsP.ite ?_ ?_)
      | with_reducible assumption
      | with_reducible exact Keeps.refl _
      | split
      | dsimp only
theorem State.woadAll_keepsP {u s t : State} {v} {a1} {a2} (e : State.woadAll s a1 a2 = (t, v)) (h : Keeps u s) : Keeps u t :=
  KeepsP.of_eq (State.woadAll_keeps h a1 a2) e

theorem State.verdicts_keeps {u s : State} (h : Keeps u s) (a1) (a2) : Keeps u (State.verdicts s a1 a2) := by
  unfold State.verdicts
  try dsimp -iota only
  repeat' first
    | with_reducible refine State.set_keeps ?_ _ _
    | with_reducible refine State.driftStep_keeps ?_ _
    | with_reducible refine KeepsP.fst (State.driftStep_keeps ?_ _)
    | with_reducible refine State.driftStep_keepsP (by assumption) ?_
    | with_reducible refine State.xTidy_keeps ?_
    | with_reducible refine State.woadAll_keeps ?_ _ _
    | with_reducible refine KeepsP.fst (State.woadAll_keeps ?_ _ _)
    | with_reducible refine State.woadAll_keepsP (by assumption) ?_
    | with_reducible refine Keeps.ite ?_ ?_
    | simp -iota -zeta -proj only [KeepsP.pair]
    | with_reducible refine KeepsP.ite ?_ ?_
    | with_reducible refine KeepsP.fst (KeepsP.ite ?_ ?_)
    | with_reducible refine Keeps.foldl ?_ _ _ (fun _ _ => ?_)
    | simp only [Keeps.lit]
    | with_reducible assumption
    | with_reducible exact Keeps.refl _
    | split
    | dsimp only

theorem State.fixOffer_keeps {u s : State} (h : Keeps u s) (a1) (a2) (a3) (a4) : Keeps u (State.fixOffer s a1 a2 a3 a4) := by
  unfold State.fixOffer
  try dsimp -iota only
  repeat' first
    | with_reducible refine State.set_keeps ?_ _ _
    | with_reducible refine State.setI_keeps ?_ _ _
    | with_reducible refine State.timFixGo_keeps ?_ _
    | with_reducible refine Keeps.ite ?_ ?_
    | with_reducible assumption
    | with_reducible exact Keeps.refl _
    | split
    | dsimp only

theorem State.fixRelease_keeps {u s : State} (h : Keeps u s) : Keeps u (State.fixRelease s) := by
  unfold State.fixRelease
  try dsimp -iota only
  repeat' first
    | with_reducible refine State.fixOffer_keeps ?_ _ _ _ _
    | with_reducible refine Keeps.ite ?_ ?_
    | simp only [Keeps.lit]
    | with_reducible assumption
    | with_reducible exact Keeps.refl _
    | split
    | dsimp only

theorem State.fixTransition_keeps {u s : State} (h : Keeps u s) (a1) (a2) : Keeps u (State.fixTransition s a1 a2) := by
  unfold State.fixTransition
  try dsimp -iota only
  repeat' first
    | with_reducible refine State.itgEnter_keeps ?_ _
    | with_reducible refine State.itgFix_keeps ?_ _
    | with_reducible refine Keeps.ite ?_ ?_
    | simp only [Keeps.lit]
    | with_reducible assumption
    | with_reducible exact Keeps.refl _
    | split
    | dsimp only

theorem State.burstNote_keeps {u s : State} (h : Keeps u s) (a1) (a2) : Keeps u (State.burstNote s a1 a2) := by
  unfold State.burstNote
  try dsimp -iota only
  repeat' first
    | with_reducible refine Keeps.ite ?_ ?_
    | simp only [Keeps.lit]
    | with_reducible assumption
    | with_reducible exact Keeps.refl _
    | split
    | dsimp only

theorem State.fixJudged_keeps {u s : State} (h : Keeps u s) : Keeps u (State.fixJudged s) := by
  unfold State.fixJudged
  try dsimp -iota only
  repeat' first
    | with_reducible refine State.itgEnter_keeps ?_ _
    | with_reducible refine State.itgLatch_keeps ?_ _
    | with_reducible refine State.fixRelease_keeps ?_
    | with_reducible refine State.fixTransition_keeps ?_ _ _
    | with_reducible refine State.burstNote_keeps ?_ _ _
    | with_reducible refine Keeps.ite ?_ ?_
    | simp only [Keeps.lit]
    | with_reducible assumption
    | with_reducible exact Keeps.refl _
    | split
    | dsimp only

theorem State.evidence_keeps {u s : State} (h : Keeps u s) (a1) : Keeps u (State.evidence s a1) := by
  unfold State.evidence
  try dsimp -iota only
  repeat' first
    | with_reducible refine State.evidRead_keeps ?_
    | with_reducible refine KeepsP.fst (State.evidRead_keeps ?_)
    | with_reducible refine State.evidRead_keepsP (by assumption) ?_
    | with_reducible refine State.verdicts_keeps ?_ _ _
    | with_reducible refine State.fixJudged_keeps ?_
    | with_reducible refine Keeps.ite ?_ ?_
    | simp -iota -zeta -proj only [KeepsP.pair]
    | with_reducible refine KeepsP.ite ?_ ?_
    | with_reducible refine KeepsP.fst (KeepsP.ite ?_ ?_)
    | simp only [Keeps.lit]
    | with_reducible assumption
    | with_reducible exact Keeps.refl _
    | split
    | dsimp only

theorem State.burstStart_keeps {u s : State} (h : Keeps u s) : Keeps u (State.burstStart s) := by
  unfold State.burstStart
  try dsimp -iota only
  repeat' first
    | with_reducible refine State.wreasonAct_keeps ?_ _
    | with_reducible refine State.fecWake_keeps ?_
    | with_reducible refine Keeps.ite ?_ ?_
    | simp only [Keeps.lit]
    | with_reducible assumption
    | with_reducible exact Keeps.refl _
    | split
    | dsimp only

theorem State.burstRelease_keeps {u s : State} (h : Keeps u s) : Keeps u (State.burstRelease s) := by
  unfold State.burstRelease
  try dsimp -iota only
  repeat' first
    | with_reducible refine State.linksWake_keeps ?_
    | with_reducible refine Keeps.ite ?_ ?_
    | simp only [Keeps.lit]
    | with_reducible assumption
    | with_reducible exact Keeps.refl _
    | split
    | dsimp only

theorem State.burstClose_keeps {u s : State} (h : Keeps u s) (a1) : Keeps u (State.burstClose s a1) := by
  unfold State.burstClose
  try dsimp -iota only
  repeat' first
    | with_reducible refine State.set_keeps ?_ _ _
    | with_reducible refine State.incSat_keeps ?_ _ _
    | with_reducible refine State.custWake_keeps ?_ _ _
    | with_reducible refine State.chansEnd_keeps ?_
    | with_reducible refine State.fecSleep_keeps ?_
    | with_reducible refine State.mordantAsk_keeps ?_
    | with_reducible refine State.burstDrop_keeps ?_
    | with_reducible refine State.itgHoldover_keeps ?_
    | with_reducible refine Keeps.ite ?_ ?_
    | simp only [Keeps.lit]
    | with_reducible assumption
    | with_reducible exact Keeps.refl _
    | split
    | dsimp only

theorem State.burstEnd_keeps {u s : State} (h : Keeps u s) : Keeps u (State.burstEnd s) := by
  unfold State.burstEnd
  try dsimp -iota only
  repeat' first
    | with_reducible refine State.fixOffer_keeps ?_ _ _ _ _
    | with_reducible refine State.burstClose_keeps ?_ _
    | with_reducible refine Keeps.ite ?_ ?_
    | with_reducible assumption
    | with_reducible exact Keeps.refl _
    | split
    | dsimp only

theorem State.burstMiss_keeps {u s : State} (h : Keeps u s) : Keeps u (State.burstMiss s) := by
  unfold State.burstMiss
  try dsimp -iota only
  repeat' first
    | with_reducible refine State.burstClose_keeps ?_ _
    | with_reducible refine State.burstEnd_keeps ?_
    | with_reducible refine Keeps.ite ?_ ?_
    | with_reducible assumption
    | with_reducible exact Keeps.refl _
    | split
    | dsimp only

theorem State.burstMax_keeps {u s : State} (h : Keeps u s) : Keeps u (State.burstMax s) := by
  unfold State.burstMax
  try dsimp -iota only
  repeat' first
    | with_reducible refine State.burstMiss_keeps ?_
    | with_reducible refine Keeps.ite ?_ ?_
    | with_reducible assumption
    | with_reducible exact Keeps.refl _
    | split
    | dsimp only

theorem State.mramPut_keeps {u s : State} (h : Keeps u s) (a1) (a2) : Keeps u (State.mramPut s a1 a2) := by
  unfold State.mramPut
  try dsimp -iota only
  repeat' first
    | with_reducible refine State.pokes_keeps ?_ _ _
    | with_reducible refine Keeps.ite ?_ ?_
    | simp only [Keeps.lit]
    | with_reducible assumption
    | with_reducible exact Keeps.refl _
    | split
    | dsimp only

theorem State.mordantRead_keeps {u s : State} (h : Keeps u s) : Keeps u (State.mordantRead s) := by
  unfold State.mordantRead
  try dsimp -iota only
  repeat' first
    | with_reducible refine State.each_keeps ?_ _ _ (fun _ _ => ?_)
    | with_reducible refine State.mramRead_keeps ?_ _ _
    | with_reducible refine Keeps.ite ?_ ?_
    | with_reducible assumption
    | with_reducible exact Keeps.refl _
    | split
    | dsimp only

theorem State.mordantPut_keeps {u s : State} (h : Keeps u s) (a1) (a2) (a3) : Keeps u (State.mordantPut s a1 a2 a3) := by
  unfold State.mordantPut
  try dsimp -iota only
  repeat' first
    | with_reducible refine State.mramPut_keeps ?_ _ _
    | with_reducible refine Keeps.ite ?_ ?_
    | with_reducible assumption
    | with_reducible exact Keeps.refl _
    | split
    | dsimp only

theorem State.mordantWrite_keeps {u s : State} (h : Keeps u s) (a1) (a2) : Keeps u (State.mordantWrite s a1 a2) := by
  unfold State.mordantWrite
  try dsimp -iota only
  repeat' first
    | with_reducible refine State.set_keeps ?_ _ _
    | with_reducible refine State.each_keeps ?_ _ _ (fun _ _ => ?_)
    | with_reducible refine State.mordantPut_keeps ?_ _ _ _
    | with_reducible refine Keeps.ite ?_ ?_
    | simp only [Keeps.lit]
    | with_reducible assumption
    | with_reducible exact Keeps.refl _
    | split
    | dsimp only

theorem State.mordantDone_keeps {u s : State} (h : Keeps u s) : Keeps u (State.mordantDone s) := by
  unfold State.mordantDone
  try dsimp -iota only
  repeat' first
    | with_reducible refine State.mramPut_keeps ?_ _ _
    | with_reducible refine Keeps.ite ?_ ?_
    | simp only [Keeps.lit]
    | with_reducible assumption
    | with_reducible exact Keeps.refl _
    | split
    | dsimp only

theorem State.mordantPeriod_keeps {u s : State} (h : Keeps u s) : Keeps u (State.mordantPeriod s) := by
  unfold State.mordantPeriod
  try dsimp -iota only
  repeat' first
    | with_reducible refine State.mordantAsk_keeps ?_
    | with_reducible refine Keeps.ite ?_ ?_
    | with_reducible assumption
    | with_reducible exact Keeps.refl _
    | split
    | dsimp only

theorem State.mordantAbandon_keeps {u s : State} (h : Keeps u s) : Keeps u (State.mordantAbandon s) := by
  unfold State.mordantAbandon
  try dsimp -iota only
  repeat' first
    | simp only [Keeps.lit]
    | with_reducible assumption
    | with_reducible exact Keeps.refl _

theorem State.loadEph_keeps {u s : State} (h : Keeps u s) (a1) : Keeps u (State.loadEph s a1) := by
  unfold State.loadEph
  try dsimp -iota only
  repeat' first
    | with_reducible refine State.setSat_keeps ?_ _ _
    | with_reducible refine Keeps.ite ?_ ?_
    | with_reducible refine Keeps.foldl ?_ _ _ (fun _ _ => ?_)
    | simp only [Keeps.lit]
    | with_reducible assumption
    | with_reducible exact Keeps.refl _
    | split
    | dsimp only

theorem State.loadAlm_keeps {u s : State} (h : Keeps u s) (a1) : Keeps u (State.loadAlm s a1) := by
  unfold State.loadAlm
  try dsimp -iota only
  repeat' first
    | with_reducible refine State.setSat_keeps ?_ _ _
    | with_reducible refine Keeps.ite ?_ ?_
    | with_reducible refine Keeps.foldl ?_ _ _ (fun _ _ => ?_)
    | simp only [Keeps.lit]
    | with_reducible assumption
    | with_reducible exact Keeps.refl _
    | split
    | dsimp only

theorem State.leapRestore_keeps {u s : State} (h : Keeps u s) : Keeps u (State.leapRestore s) := by
  unfold State.leapRestore
  try dsimp -iota only
  repeat' first
    | with_reducible refine State.set_keeps ?_ _ _
    | with_reducible refine State.setI_keeps ?_ _ _
    | with_reducible refine State.set2_keeps ?_ _ _ _
    | with_reducible refine Keeps.ite ?_ ?_
    | simp only [Keeps.lit]
    | with_reducible assumption
    | with_reducible exact Keeps.refl _
    | split
    | dsimp only

theorem State.loadUtc_keeps {u s : State} (h : Keeps u s) (a1) : Keeps u (State.loadUtc s a1) := by
  unfold State.loadUtc
  try dsimp -iota only
  repeat' first
    | with_reducible refine State.setI_keeps ?_ _ _
    | with_reducible refine State.leapRestore_keeps ?_
    | with_reducible refine Keeps.ite ?_ ?_
    | with_reducible refine Keeps.foldl ?_ _ _ (fun _ _ => ?_)
    | simp only [Keeps.lit]
    | with_reducible assumption
    | with_reducible exact Keeps.refl _
    | split
    | dsimp only

theorem State.loadIono_keeps {u s : State} (h : Keeps u s) (a1) : Keeps u (State.loadIono s a1) := by
  unfold State.loadIono
  try dsimp -iota only
  repeat' first
    | with_reducible refine Keeps.ite ?_ ?_
    | with_reducible refine Keeps.foldl ?_ _ _ (fun _ _ => ?_)
    | simp only [Keeps.lit]
    | with_reducible assumption
    | with_reducible exact Keeps.refl _
    | split
    | dsimp only

theorem State.loadPos_keeps {u s : State} (h : Keeps u s) (a1) : Keeps u (State.loadPos s a1) := by
  unfold State.loadPos
  try dsimp -iota only
  repeat' first
    | with_reducible refine Keeps.ite ?_ ?_
    | simp only [Keeps.lit]
    | with_reducible assumption
    | with_reducible exact Keeps.refl _
    | split
    | dsimp only

theorem State.loadBase_keeps {u s : State} (h : Keeps u s) (a1) : Keeps u (State.loadBase s a1) := by
  unfold State.loadBase
  try dsimp -iota only
  repeat' first
    | with_reducible refine State.set_keeps ?_ _ _
    | with_reducible refine State.each_keeps ?_ _ _ (fun _ _ => ?_)
    | with_reducible refine Keeps.ite ?_ ?_
    | simp only [Keeps.lit]
    | with_reducible assumption
    | with_reducible exact Keeps.refl _
    | split
    | dsimp only

theorem State.loadKeys_keeps {u s : State} (h : Keeps u s) (a1) : Keeps u (State.loadKeys s a1) := by
  unfold State.loadKeys
  try dsimp -iota only
  repeat' first
    | with_reducible refine Keeps.ite ?_ ?_
    | simp only [Keeps.lit]
    | with_reducible assumption
    | with_reducible exact Keeps.refl _
    | split
    | dsimp only

theorem State.aidLoad_keeps {u s : State} (h : Keeps u s) : Keeps u (State.aidLoad s) := by
  unfold State.aidLoad
  try dsimp -iota only
  repeat' first
    | with_reducible refine Keeps.ite ?_ ?_
    | simp only [Keeps.lit]
    | with_reducible assumption
    | with_reducible exact Keeps.refl _
    | split
    | dsimp only

theorem State.loadItem_keeps {u s : State} (h : Keeps u s) (a1) (a2) (h2 : ∀ s x1, Keeps s (a2 s x1)) : Keeps u (State.loadItem s a1 a2) := by
  unfold State.loadItem
  try dsimp -iota only
  repeat' first
    | with_reducible refine Keeps.trans ?_ (h2 _ _)
    | with_reducible refine Keeps.ite ?_ ?_
    | with_reducible assumption
    | with_reducible exact Keeps.refl _
    | split
    | dsimp only

theorem State.mordantLoad_keeps {u s : State} (h : Keeps u s) : Keeps u (State.mordantLoad s) := by
  unfold State.mordantLoad
  try dsimp -iota only
  repeat' first
    | with_reducible refine State.loadEph_keeps ?_ _
    | with_reducible refine State.loadAlm_keeps ?_ _
    | with_reducible refine State.loadUtc_keeps ?_ _
    | with_reducible refine State.loadIono_keeps ?_ _
    | with_reducible refine State.loadPos_keeps ?_ _
    | with_reducible refine State.loadBase_keeps ?_ _
    | with_reducible refine State.loadKeys_keeps ?_ _
    | with_reducible refine State.aidLoad_keeps ?_
    | with_reducible refine State.loadItem_keeps ?_ _ _ (fun _ _ => ?_)
    | with_reducible refine Keeps.ite ?_ ?_
    | with_reducible assumption
    | with_reducible exact Keeps.refl _
    | split
    | dsimp only

theorem State.navEph_keeps {u s : State} (h : Keeps u s) (a1) (a2) : Keeps u (State.navEph s a1 a2) := by
  unfold State.navEph
  try dsimp -iota only
  repeat' first
    | with_reducible refine State.setSat_keeps ?_ _ _
    | with_reducible refine Keeps.ite ?_ ?_
    | with_reducible refine Keeps.foldl ?_ _ _ (fun _ _ => ?_)
    | simp only [Keeps.lit]
    | with_reducible assumption
    | with_reducible exact Keeps.refl _
    | split
    | dsimp only

theorem State.leapCompare_keeps {u s : State} (h : Keeps u s) : Keeps u (State.leapCompare s) := by
  unfold State.leapCompare
  try dsimp -iota only
  repeat' first
    | with_reducible refine Keeps.ite ?_ ?_
    | simp only [Keeps.lit]
    | with_reducible assumption
    | with_reducible exact Keeps.refl _
    | split
    | dsimp only

theorem State.navUtc_keeps {u s : State} (h : Keeps u s) (a1) (a2) : Keeps u (State.navUtc s a1 a2) := by
  unfold State.navUtc
  try dsimp -iota only
  repeat' first
    | with_reducible refine State.setI_keeps ?_ _ _
    | with_reducible refine Keeps.ite ?_ ?_
    | simp only [Keeps.lit]
    | with_reducible assumption
    | with_reducible exact Keeps.refl _
    | split
    | dsimp only

theorem State.navLeap_keeps {u s : State} (h : Keeps u s) (a1) (a2) (a3) : Keeps u (State.navLeap s a1 a2 a3) := by
  unfold State.navLeap
  try dsimp -iota only
  repeat' first
    | with_reducible refine State.set_keeps ?_ _ _
    | with_reducible refine State.set2_keeps ?_ _ _ _
    | with_reducible refine State.mordantAsk_keeps ?_
    | with_reducible refine State.leapCompare_keeps ?_
    | with_reducible refine Keeps.ite ?_ ?_
    | simp only [Keeps.lit]
    | with_reducible assumption
    | with_reducible exact Keeps.refl _
    | split
    | dsimp only

theorem State.navWeek_keeps {u s : State} (h : Keeps u s) (a1) (a2) (a3) : Keeps u (State.navWeek s a1 a2 a3) := by
  unfold State.navWeek
  try dsimp -iota only
  repeat' first
    | with_reducible refine Keeps.ite ?_ ?_
    | simp only [Keeps.lit]
    | with_reducible assumption
    | with_reducible exact Keeps.refl _
    | split
    | dsimp only

theorem State.navTow_keeps {u s : State} (h : Keeps u s) (a1) (a2) (a3) (a4) : Keeps u (State.navTow s a1 a2 a3 a4) := by
  unfold State.navTow
  try dsimp -iota only
  repeat' first
    | with_reducible refine State.setSat_keeps ?_ _ _
    | with_reducible refine Keeps.ite ?_ ?_
    | simp only [Keeps.lit]
    | with_reducible assumption
    | with_reducible exact Keeps.refl _
    | split
    | dsimp only

theorem State.navInv_keeps {u s : State} (h : Keeps u s) (a1) (a2) (a3) : Keeps u (State.navInv s a1 a2 a3) := by
  unfold State.navInv
  try dsimp -iota only
  repeat' first
    | with_reducible refine Keeps.ite ?_ ?_
    | simp only [Keeps.lit]
    | with_reducible assumption
    | with_reducible exact Keeps.refl _
    | split
    | dsimp only

theorem State.item_keeps {α : Type} {u s : State} (h : Keeps u s) (a2 : Option α) (f : State → α → State)
    (hf : ∀ s x, Keeps s (f s x)) : Keeps u (s.item a2 f) := by
  cases a2 with
  | none => exact h
  | some a => exact h.trans (hf s a)

theorem State.navAiding_keeps {u s : State} (h : Keeps u s) (a1) : Keeps u (State.navAiding s a1) := by
  unfold State.navAiding
  try dsimp -iota only
  repeat' first
    | with_reducible refine State.setSat_keeps ?_ _ _
    | with_reducible refine State.item_keeps ?_ _ _ (fun _ _ => ?_)
    | with_reducible refine Keeps.ite ?_ ?_
    | simp only [Keeps.lit]
    | with_reducible assumption
    | with_reducible exact Keeps.refl _
    | split
    | dsimp only

theorem State.navMessage_keeps {u s : State} (h : Keeps u s) (a1) : Keeps u (State.navMessage s a1) := by
  unfold State.navMessage
  try dsimp -iota only
  repeat' first
    | with_reducible refine State.setSat_keeps ?_ _ _
    | with_reducible refine State.navEph_keeps ?_ _ _
    | with_reducible refine State.navUtc_keeps ?_ _ _
    | with_reducible refine State.navLeap_keeps ?_ _ _ _
    | with_reducible refine State.navWeek_keeps ?_ _ _ _
    | with_reducible refine State.navTow_keeps ?_ _ _ _ _
    | with_reducible refine State.navInv_keeps ?_ _ _ _
    | with_reducible refine State.item_keeps ?_ _ _ (fun _ _ => ?_)
    | with_reducible refine State.navAiding_keeps ?_ _
    | with_reducible refine Keeps.ite ?_ ?_
    | with_reducible refine Keeps.foldl ?_ _ _ (fun _ _ => ?_)
    | simp only [Keeps.lit]
    | with_reducible assumption
    | with_reducible exact Keeps.refl _
    | split
    | dsimp only

theorem State.osnmaKeys_keeps {u s : State} (h : Keeps u s) (a1) : KeepsP u (State.osnmaKeys s a1) := by
  unfold State.osnmaKeys
  try dsimp -iota only
  repeat' first
    | with_reducible refine State.item_keeps ?_ _ _ (fun _ _ => ?_)
    | with_reducible refine Keeps.ite ?_ ?_
    | simp -iota -zeta -proj only [KeepsP.pair]
    | with_reducible refine KeepsP.ite ?_ ?_
    | simp only [Keeps.lit]
    | with_reducible assumption
    | with_reducible exact Keeps.refl _
    | split
    | dsimp only
theorem State.osnmaKeys_keepsP {u s t : State} {v} {a1} (e : State.osnmaKeys s a1 = (t, v)) (h : Keeps u s) : Keeps u t :=
  KeepsP.of_eq (State.osnmaKeys_keeps h a1) e

theorem State.osnmaTag_keeps {u s : State} (h : Keeps u s) (a1) : Keeps u (State.osnmaTag s a1) := by
  unfold State.osnmaTag
  try dsimp -iota only
  repeat' first
    | with_reducible refine State.setSat_keeps ?_ _ _
    | with_reducible refine State.osnmaKeys_keeps ?_ _
    | with_reducible refine KeepsP.fst (State.osnmaKeys_keeps ?_ _)
    | with_reducible refine State.osnmaKeys_keepsP (by assumption) ?_
    | with_reducible refine Keeps.ite ?_ ?_
    | simp -iota -zeta -proj only [KeepsP.pair]
    | with_reducible refine KeepsP.ite ?_ ?_
    | with_reducible refine KeepsP.fst (KeepsP.ite ?_ ?_)
    | simp only [Keeps.lit]
    | with_reducible assumption
    | with_reducible exact Keeps.refl _
    | split
    | dsimp only

theorem State.surveyNext_keeps {u s : State} (h : Keeps u s) (a1) (a2) (a3) (a4) : KeepsP u (State.surveyNext s a1 a2 a3 a4) := by
  unfold State.surveyNext
  try dsimp -iota only
  repeat' first
    | with_reducible refine State.set_keeps ?_ _ _
    | with_reducible refine Keeps.ite ?_ ?_
    | simp -iota -zeta -proj only [KeepsP.pair]
    | with_reducible refine KeepsP.ite ?_ ?_
    | simp only [Keeps.lit]
    | with_reducible assumption
    | with_reducible exact Keeps.refl _
    | split
    | dsimp only
theorem State.surveyNext_keepsP {u s t : State} {v} {a1} {a2} {a3} {a4} (e : State.surveyNext s a1 a2 a3 a4 = (t, v)) (h : Keeps u s) : Keeps u t :=
  KeepsP.of_eq (State.surveyNext_keeps h a1 a2 a3 a4) e

theorem State.surveyBase_keeps {u s : State} (h : Keeps u s) (a1) (a2) : KeepsP u (State.surveyBase s a1 a2) := by
  unfold State.surveyBase
  try dsimp -iota only
  repeat' first
    | with_reducible refine State.set_keeps ?_ _ _
    | with_reducible refine State.surveyNext_keeps ?_ _ _ _ _
    | with_reducible refine KeepsP.fst (State.surveyNext_keeps ?_ _ _ _ _)
    | with_reducible refine State.surveyNext_keepsP (by assumption) ?_
    | with_reducible refine Keeps.ite ?_ ?_
    | simp -iota -zeta -proj only [KeepsP.pair]
    | with_reducible refine KeepsP.ite ?_ ?_
    | with_reducible refine KeepsP.fst (KeepsP.ite ?_ ?_)
    | simp only [Keeps.lit]
    | with_reducible assumption
    | with_reducible exact Keeps.refl _
    | split
    | dsimp only
theorem State.surveyBase_keepsP {u s t : State} {v} {a1} {a2} (e : State.surveyBase s a1 a2 = (t, v)) (h : Keeps u s) : Keeps u t :=
  KeepsP.of_eq (State.surveyBase_keeps h a1 a2) e

theorem State.survRestart_keeps {u s : State} (h : Keeps u s) : Keeps u (State.survRestart s) := by
  unfold State.survRestart
  try dsimp -iota only
  repeat' first
    | with_reducible refine State.set_keeps ?_ _ _
    | with_reducible refine State.each_keeps ?_ _ _ (fun _ _ => ?_)
    | with_reducible refine Keeps.ite ?_ ?_
    | simp only [Keeps.lit]
    | with_reducible assumption
    | with_reducible exact Keeps.refl _
    | split
    | dsimp only

theorem State.navBaselines_keeps {u s : State} (h : Keeps u s) (a1) : Keeps u (State.navBaselines s a1) := by
  unfold State.navBaselines
  try dsimp -iota only
  repeat' first
    | with_reducible refine State.surveyBase_keeps ?_ _ _
    | with_reducible refine KeepsP.fst (State.surveyBase_keeps ?_ _ _)
    | with_reducible refine State.surveyBase_keepsP (by assumption) ?_
    | with_reducible refine Keeps.ite ?_ ?_
    | simp -iota -zeta -proj only [KeepsP.pair]
    | with_reducible refine KeepsP.ite ?_ ?_
    | with_reducible refine KeepsP.fst (KeepsP.ite ?_ ?_)
    | with_reducible refine Keeps.foldl ?_ _ _ (fun _ _ => ?_)
    | simp only [Keeps.lit]
    | with_reducible assumption
    | with_reducible exact Keeps.refl _
    | split
    | dsimp only

theorem State.navStart_keeps {u s : State} (h : Keeps u s) : Keeps u (State.navStart s) := by
  unfold State.navStart
  try dsimp -iota only
  repeat' first
    | with_reducible refine State.note_keeps ?_ _ _ _ _ _
    | with_reducible refine State.memRead_keeps ?_ _ _ _
    | with_reducible refine KeepsP.fst (State.memRead_keeps ?_ _ _ _)
    | with_reducible refine State.memRead_keepsP (by assumption) ?_
    | with_reducible refine State.parRead_keeps ?_
    | with_reducible refine State.navParams_keeps ?_
    | with_reducible refine State.mordantRead_keeps ?_
    | with_reducible refine State.mordantLoad_keeps ?_
    | with_reducible refine Keeps.ite ?_ ?_
    | simp -iota -zeta -proj only [KeepsP.pair]
    | with_reducible refine KeepsP.ite ?_ ?_
    | with_reducible refine KeepsP.fst (KeepsP.ite ?_ ?_)
    | simp only [Keeps.lit]
    | with_reducible assumption
    | with_reducible exact Keeps.refl _
    | split
    | dsimp only

theorem State.mordantSave_keeps {u s : State} (h : Keeps u s) (a1) : Keeps u (State.mordantSave s a1) := by
  unfold State.mordantSave
  try dsimp -iota only
  repeat' first
    | with_reducible refine State.mordantWrite_keeps ?_ _ _
    | with_reducible assumption
    | with_reducible exact Keeps.refl _

theorem State.navMotion_keeps {u s : State} (h : Keeps u s) (a1) : Keeps u (State.navMotion s a1) := by
  unfold State.navMotion
  try dsimp -iota only
  repeat' first
    | with_reducible refine Keeps.ite ?_ ?_
    | with_reducible refine Keeps.foldl ?_ _ _ (fun _ _ => ?_)
    | simp only [Keeps.lit]
    | with_reducible assumption
    | with_reducible exact Keeps.refl _
    | split
    | dsimp only

theorem State.chiOf_keeps {u s : State} (h : Keeps u s) (a1) : KeepsP u (State.chiOf s a1) := by
  unfold State.chiOf
  try dsimp -iota only
  repeat' first
    | with_reducible refine State.quotient_keeps ?_ _ _
    | with_reducible refine KeepsP.fst (State.quotient_keeps ?_ _ _)
    | with_reducible refine State.quotient_keepsP (by assumption) ?_
    | with_reducible refine Keeps.ite ?_ ?_
    | simp -iota -zeta -proj only [KeepsP.pair]
    | with_reducible refine KeepsP.ite ?_ ?_
    | with_reducible refine KeepsP.fst (KeepsP.ite ?_ ?_)
    | with_reducible refine Keeps.foldl ?_ _ _ (fun _ _ => ?_)
    | with_reducible refine KeepsP.foldl ?_ _ _ (fun _ _ => ?_)
    | with_reducible assumption
    | with_reducible exact Keeps.refl _
    | split
    | dsimp only
theorem State.chiOf_keepsP {u s t : State} {v} {a1} (e : State.chiOf s a1 = (t, v)) (h : Keeps u s) : Keeps u t :=
  KeepsP.of_eq (State.chiOf_keeps h a1) e

theorem State.solExclude_keeps {u s : State} (h : Keeps u s) (a1) (a2) : KeepsP u (State.solExclude s a1 a2) := by
  unfold State.solExclude
  try dsimp -iota only
  repeat' first
    | with_reducible refine State.chiOf_keeps ?_ _
    | with_reducible refine KeepsP.fst (State.chiOf_keeps ?_ _)
    | with_reducible refine State.chiOf_keepsP (by assumption) ?_
    | with_reducible refine Keeps.ite ?_ ?_
    | simp -iota -zeta -proj only [KeepsP.pair]
    | with_reducible refine KeepsP.ite ?_ ?_
    | with_reducible refine KeepsP.fst (KeepsP.ite ?_ ?_)
    | with_reducible assumption
    | with_reducible exact Keeps.refl _
    | split
    | dsimp only
theorem State.solExclude_keepsP {u s t : State} {v} {a1} {a2} (e : State.solExclude s a1 a2 = (t, v)) (h : Keeps u s) : Keeps u t :=
  KeepsP.of_eq (State.solExclude_keeps h a1 a2) e

theorem State.fitDelta_keeps {u s : State} (h : Keeps u s) (a1) : KeepsP u (State.fitDelta s a1) := by
  unfold State.fitDelta
  try dsimp -iota only
  repeat' first
    | with_reducible refine State.quotient_keeps ?_ _ _
    | with_reducible refine KeepsP.fst (State.quotient_keeps ?_ _ _)
    | with_reducible refine State.quotient_keepsP (by assumption) ?_
    | with_reducible refine lenPs_keeps ?_ _ _
    | with_reducible refine KeepsP.fst (lenPs_keeps ?_ _ _)
    | with_reducible refine lenPs_keepsP (by assumption) ?_
    | with_reducible refine Keeps.ite ?_ ?_
    | simp -iota -zeta -proj only [KeepsP.pair]
    | with_reducible refine KeepsP.ite ?_ ?_
    | with_reducible refine KeepsP.fst (KeepsP.ite ?_ ?_)
    | with_reducible assumption
    | with_reducible exact Keeps.refl _
    | split
    | dsimp only
theorem State.fitDelta_keepsP {u s t : State} {v} {a1} (e : State.fitDelta s a1 = (t, v)) (h : Keeps u s) : Keeps u t :=
  KeepsP.of_eq (State.fitDelta_keeps h a1) e

theorem State.fitSigma_keeps {u s : State} (h : Keeps u s) (a1) : KeepsP u (State.fitSigma s a1) := by
  unfold State.fitSigma
  try dsimp -iota only
  repeat' first
    | with_reducible refine State.root_keeps ?_ _ _
    | with_reducible refine KeepsP.fst (State.root_keeps ?_ _ _)
    | with_reducible refine State.root_keepsP (by assumption) ?_
    | simp -iota -zeta -proj only [KeepsP.pair]
    | with_reducible assumption
    | with_reducible exact Keeps.refl _
theorem State.fitSigma_keepsP {u s t : State} {v} {a1} (e : State.fitSigma s a1 = (t, v)) (h : Keeps u s) : Keeps u t :=
  KeepsP.of_eq (State.fitSigma_keeps h a1) e

theorem State.fitTdop_keeps {u s : State} (h : Keeps u s) (a1) (a2) : KeepsP u (State.fitTdop s a1 a2) := by
  unfold State.fitTdop
  try dsimp -iota only
  repeat' first
    | with_reducible refine State.draw_keeps ?_ _
    | with_reducible refine KeepsP.fst (State.draw_keeps ?_ _)
    | with_reducible refine State.draw_keepsP (by assumption) ?_
    | with_reducible refine State.root_keeps ?_ _ _
    | with_reducible refine KeepsP.fst (State.root_keeps ?_ _ _)
    | with_reducible refine State.root_keepsP (by assumption) ?_
    | with_reducible refine Keeps.ite ?_ ?_
    | simp -iota -zeta -proj only [KeepsP.pair]
    | with_reducible refine KeepsP.ite ?_ ?_
    | with_reducible refine KeepsP.fst (KeepsP.ite ?_ ?_)
    | with_reducible assumption
    | with_reducible exact Keeps.refl _
    | split
    | dsimp only
theorem State.fitTdop_keepsP {u s t : State} {v} {a1} {a2} (e : State.fitTdop s a1 a2 = (t, v)) (h : Keeps u s) : Keeps u t :=
  KeepsP.of_eq (State.fitTdop_keeps h a1 a2) e

theorem State.fitRate_keeps {u s : State} (h : Keeps u s) (a1) : KeepsP u (State.fitRate s a1) := by
  unfold State.fitRate
  try dsimp -iota only
  repeat' first
    | with_reducible refine State.quotient_keeps ?_ _ _
    | with_reducible refine KeepsP.fst (State.quotient_keeps ?_ _ _)
    | with_reducible refine State.quotient_keepsP (by assumption) ?_
    | with_reducible refine Keeps.ite ?_ ?_
    | simp -iota -zeta -proj only [KeepsP.pair]
    | with_reducible refine KeepsP.ite ?_ ?_
    | with_reducible refine KeepsP.fst (KeepsP.ite ?_ ?_)
    | with_reducible refine Keeps.foldl ?_ _ _ (fun _ _ => ?_)
    | with_reducible refine KeepsP.foldl ?_ _ _ (fun _ _ => ?_)
    | with_reducible assumption
    | with_reducible exact Keeps.refl _
    | split
    | dsimp only
theorem State.fitRate_keepsP {u s t : State} {v} {a1} (e : State.fitRate s a1 = (t, v)) (h : Keeps u s) : Keeps u t :=
  KeepsP.of_eq (State.fitRate_keeps h a1) e

theorem State.navSurvey_keeps {u s : State} (h : Keeps u s) (a1) (a2) : Keeps u (State.navSurvey s a1 a2) := by
  unfold State.navSurvey
  try dsimp -iota only
  repeat' first
    | with_reducible refine State.mordantAsk_keeps ?_
    | with_reducible refine Keeps.ite ?_ ?_
    | simp only [Keeps.lit]
    | with_reducible assumption
    | with_reducible exact Keeps.refl _
    | split
    | dsimp only

theorem State.evidOut_keeps {u s : State} (h : Keeps u s) (a1) (a2) (a3) (a4) : KeepsP u (State.evidOut s a1 a2 a3 a4) := by
  unfold State.evidOut
  try dsimp -iota only
  repeat' first
    | with_reducible refine State.quotient_keeps ?_ _ _
    | with_reducible refine KeepsP.fst (State.quotient_keeps ?_ _ _)
    | with_reducible refine State.quotient_keepsP (by assumption) ?_
    | with_reducible refine Keeps.ite ?_ ?_
    | simp -iota -zeta -proj only [KeepsP.pair]
    | with_reducible refine KeepsP.ite ?_ ?_
    | with_reducible refine KeepsP.fst (KeepsP.ite ?_ ?_)
    | simp only [Keeps.lit]
    | with_reducible assumption
    | with_reducible exact Keeps.refl _
    | split
    | dsimp only
theorem State.evidOut_keepsP {u s t : State} {v} {a1} {a2} {a3} {a4} (e : State.evidOut s a1 a2 a3 a4 = (t, v)) (h : Keeps u s) : Keeps u t :=
  KeepsP.of_eq (State.evidOut_keeps h a1 a2 a3 a4) e

theorem State.markMeas_keeps {u s : State} (h : Keeps u s) (a1) (a2) : Keeps u (State.markMeas s a1 a2) := by
  unfold State.markMeas
  try dsimp -iota only
  repeat' first
    | with_reducible refine Keeps.ite ?_ ?_
    | simp only [Keeps.lit]
    | with_reducible assumption
    | with_reducible exact Keeps.refl _
    | split
    | dsimp only

theorem State.solvedOffset_keeps {u s : State} (h : Keeps u s) (a1) (a2) : KeepsP u (State.solvedOffset s a1 a2) := by
  unfold State.solvedOffset
  try dsimp -iota only
  repeat' first
    | with_reducible refine lenPs_keeps ?_ _ _
    | with_reducible refine KeepsP.fst (lenPs_keeps ?_ _ _)
    | with_reducible refine lenPs_keepsP (by assumption) ?_
    | with_reducible refine Keeps.ite ?_ ?_
    | simp -iota -zeta -proj only [KeepsP.pair]
    | with_reducible refine KeepsP.ite ?_ ?_
    | with_reducible refine KeepsP.fst (KeepsP.ite ?_ ?_)
    | with_reducible refine Keeps.foldl ?_ _ _ (fun _ _ => ?_)
    | with_reducible refine KeepsP.foldl ?_ _ _ (fun _ _ => ?_)
    | with_reducible assumption
    | with_reducible exact Keeps.refl _
    | split
    | dsimp only
theorem State.solvedOffset_keepsP {u s t : State} {v} {a1} {a2} (e : State.solvedOffset s a1 a2 = (t, v)) (h : Keeps u s) : Keeps u t :=
  KeepsP.of_eq (State.solvedOffset_keeps h a1 a2) e

theorem State.scaleWrite_keeps {u s : State} (h : Keeps u s) (a1) : Keeps u (State.scaleWrite s a1) := by
  unfold State.scaleWrite
  try dsimp -iota only
  repeat' first
    | with_reducible refine State.set_keeps ?_ _ _
    | with_reducible refine State.quotient_keeps ?_ _ _
    | with_reducible refine KeepsP.fst (State.quotient_keeps ?_ _ _)
    | with_reducible refine State.quotient_keepsP (by assumption) ?_
    | with_reducible refine State.each_keeps ?_ _ _ (fun _ _ => ?_)
    | with_reducible refine State.solvedOffset_keeps ?_ _ _
    | with_reducible refine KeepsP.fst (State.solvedOffset_keeps ?_ _ _)
    | with_reducible refine State.solvedOffset_keepsP (by assumption) ?_
    | with_reducible refine Keeps.ite ?_ ?_
    | simp -iota -zeta -proj only [KeepsP.pair]
    | with_reducible refine KeepsP.ite ?_ ?_
    | with_reducible refine KeepsP.fst (KeepsP.ite ?_ ?_)
    | with_reducible assumption
    | with_reducible exact Keeps.refl _
    | split
    | dsimp only

theorem State.solResults_keeps {u s : State} (h : Keeps u s) (a1) (a2) : Keeps u (State.solResults s a1 a2) := by
  unfold State.solResults
  try dsimp -iota only
  repeat' first
    | with_reducible refine State.navMotion_keeps ?_ _
    | with_reducible refine State.fitDelta_keeps ?_ _
    | with_reducible refine KeepsP.fst (State.fitDelta_keeps ?_ _)
    | with_reducible refine State.fitDelta_keepsP (by assumption) ?_
    | with_reducible refine State.fitSigma_keeps ?_ _
    | with_reducible refine KeepsP.fst (State.fitSigma_keeps ?_ _)
    | with_reducible refine State.fitSigma_keepsP (by assumption) ?_
    | with_reducible refine State.fitTdop_keeps ?_ _ _
    | with_reducible refine KeepsP.fst (State.fitTdop_keeps ?_ _ _)
    | with_reducible refine State.fitTdop_keepsP (by assumption) ?_
    | with_reducible refine State.fitRate_keeps ?_ _
    | with_reducible refine KeepsP.fst (State.fitRate_keeps ?_ _)
    | with_reducible refine State.fitRate_keepsP (by assumption) ?_
    | with_reducible refine State.navSurvey_keeps ?_ _ _
    | with_reducible refine State.scaleWrite_keeps ?_ _
    | with_reducible refine Keeps.ite ?_ ?_
    | simp -iota -zeta -proj only [KeepsP.pair]
    | with_reducible refine KeepsP.ite ?_ ?_
    | with_reducible refine KeepsP.fst (KeepsP.ite ?_ ?_)
    | simp only [Keeps.lit]
    | with_reducible assumption
    | with_reducible exact Keeps.refl _
    | split
    | dsimp only

theorem State.solBegin_keeps {u s : State} (h : Keeps u s) : Keeps u (State.solBegin s) := by
  unfold State.solBegin
  try dsimp -iota only
  repeat' first
    | with_reducible refine State.measEpoch_keeps ?_
    | with_reducible refine Keeps.ite ?_ ?_
    | simp only [Keeps.lit]
    | with_reducible assumption
    | with_reducible exact Keeps.refl _
    | split
    | dsimp only

theorem State.solAccept_keeps {u s : State} (h : Keeps u s) (a1) : Keeps u (State.solAccept s a1) := by
  unfold State.solAccept
  try dsimp -iota only
  repeat' first
    | with_reducible refine State.memRead_keeps ?_ _ _ _
    | with_reducible refine KeepsP.fst (State.memRead_keeps ?_ _ _ _)
    | with_reducible refine State.memRead_keepsP (by assumption) ?_
    | with_reducible refine State.memWriteWords_keeps ?_ _ _ _
    | with_reducible refine State.navBaselines_keeps ?_ _
    | with_reducible refine State.solExclude_keeps ?_ _ _
    | with_reducible refine KeepsP.fst (State.solExclude_keeps ?_ _ _)
    | with_reducible refine State.solExclude_keepsP (by assumption) ?_
    | with_reducible refine State.evidOut_keeps ?_ _ _ _ _
    | with_reducible refine KeepsP.fst (State.evidOut_keeps ?_ _ _ _ _)
    | with_reducible refine State.evidOut_keepsP (by assumption) ?_
    | with_reducible refine State.markMeas_keeps ?_ _ _
    | with_reducible refine State.solResults_keeps ?_ _ _
    | with_reducible refine Keeps.ite ?_ ?_
    | simp -iota -zeta -proj only [KeepsP.pair]
    | with_reducible refine KeepsP.ite ?_ ?_
    | with_reducible refine KeepsP.fst (KeepsP.ite ?_ ?_)
    | simp only [Keeps.lit]
    | with_reducible assumption
    | with_reducible exact Keeps.refl _
    | split
    | dsimp only

theorem State.solution_keeps {u s : State} (h : Keeps u s) : Keeps u (State.solution s) := by
  unfold State.solution
  try dsimp -iota only
  repeat' first
    | with_reducible refine State.solBegin_keeps ?_
    | with_reducible refine State.solAccept_keeps ?_ _
    | with_reducible refine Keeps.ite ?_ ?_
    | with_reducible assumption
    | with_reducible exact Keeps.refl _
    | split
    | dsimp only

theorem State.navRequest_keeps {u s : State} (h : Keeps u s) (a1) : Keeps u (State.navRequest s a1) := by
  unfold State.navRequest
  try dsimp -iota only
  repeat' first
    | with_reducible refine State.incSat_keeps ?_ _ _
    | with_reducible refine State.note_keeps ?_ _ _ _ _ _
    | with_reducible refine Keeps.ite ?_ ?_
    | with_reducible assumption
    | with_reducible exact Keeps.refl _
    | split
    | dsimp only

theorem State.navSlots_keeps {u s : State} (h : Keeps u s) : KeepsP u (State.navSlots s) := by
  unfold State.navSlots
  try dsimp -iota only
  repeat' first
    | with_reducible refine State.memReadWords_keeps ?_ _ _ _
    | with_reducible refine KeepsP.fst (State.memReadWords_keeps ?_ _ _ _)
    | with_reducible refine State.memReadWords_keepsP (by assumption) ?_
    | with_reducible refine Keeps.ite ?_ ?_
    | simp -iota -zeta -proj only [KeepsP.pair]
    | with_reducible refine KeepsP.ite ?_ ?_
    | with_reducible refine KeepsP.fst (KeepsP.ite ?_ ?_)
    | with_reducible refine Keeps.foldl ?_ _ _ (fun _ _ => ?_)
    | with_reducible refine KeepsP.foldl ?_ _ _ (fun _ _ => ?_)
    | with_reducible assumption
    | with_reducible exact Keeps.refl _
    | split
    | dsimp only
theorem State.navSlots_keepsP {u s t : State} {v} (e : State.navSlots s = (t, v)) (h : Keeps u s) : Keeps u t :=
  KeepsP.of_eq (State.navSlots_keeps h) e

theorem State.navTake_keeps {u s : State} (h : Keeps u s) (a1) (a2) : Keeps u (State.navTake s a1 a2) := by
  induction a2 generalizing s a1
  · exact h
  · rename_i ih
    unfold State.navTake
    try dsimp -iota only
    repeat' first
      | with_reducible refine ih ?_ _
      | with_reducible refine State.navRequest_keeps ?_ _
      | with_reducible refine Keeps.ite ?_ ?_
      | simp only [Keeps.lit]
      | with_reducible assumption
      | with_reducible exact Keeps.refl _
      | split
      | dsimp only

theorem State.navPoll_keeps {u s : State} (h : Keeps u s) (a1) : Keeps u (State.navPoll s a1) := by
  unfold State.navPoll
  try dsimp -iota only
  repeat' first
    | with_reducible refine State.navSlots_keeps ?_
    | with_reducible refine KeepsP.fst (State.navSlots_keeps ?_)
    | with_reducible refine State.navSlots_keepsP (by assumption) ?_
    | with_reducible refine State.navTake_keeps ?_ _ _
    | with_reducible refine Keeps.ite ?_ ?_
    | simp -iota -zeta -proj only [KeepsP.pair]
    | with_reducible refine KeepsP.ite ?_ ?_
    | with_reducible refine KeepsP.fst (KeepsP.ite ?_ ?_)
    | with_reducible assumption
    | with_reducible exact Keeps.refl _
    | split
    | dsimp only

theorem State.flashPut_keeps {u s : State} (h : Keeps u s) (a1 : Nat) (a2 : List Byte) : Keeps u (s.flashPut a1 a2) :=
  h.trans ⟨rfl, rfl, List.suffix_rfl, id, fun k => (Memory.wf_iff _).mpr
    ⟨((Memory.wf_iff _).mp k).1, flashProgram_canon _ _ _ ((Memory.wf_iff _).mp k).2⟩⟩

theorem State.flashClear_keeps {u s : State} (h : Keeps u s) (a1 a2 : Nat) : Keeps u (s.flashClear a1 a2) :=
  h.trans ⟨rfl, rfl, List.suffix_rfl, id, fun k => (Memory.wf_iff _).mpr
    ⟨((Memory.wf_iff _).mp k).1, flashErase_canon _ _ _ ((Memory.wf_iff _).mp k).2⟩⟩

theorem State.updShow_keeps {u s : State} (h : Keeps u s) : Keeps u (State.updShow s) := by
  unfold State.updShow
  try dsimp -iota only
  repeat' first
    | with_reducible refine State.set_keeps ?_ _ _
    | with_reducible refine State.orF_keeps ?_ _ _
    | with_reducible refine State.set2_keeps ?_ _ _ _
    | with_reducible refine Keeps.ite ?_ ?_
    | with_reducible assumption
    | with_reducible exact Keeps.refl _
    | split
    | dsimp only

theorem State.jrnlRaw_keeps {u s : State} (h : Keeps u s) (a1) (a2) (a3) : Keeps u (State.jrnlRaw s a1 a2 a3) := by
  unfold State.jrnlRaw
  try dsimp -iota only
  repeat' first
    | with_reducible refine State.flashPut_keeps ?_ _ _
    | with_reducible refine State.updShow_keeps ?_
    | with_reducible refine Keeps.ite ?_ ?_
    | simp only [Keeps.lit]
    | with_reducible assumption
    | with_reducible exact Keeps.refl _
    | split
    | dsimp only

theorem State.jrnlCopy_keeps {u s : State} (h : Keeps u s) (a1) (a2) : Keeps u (State.jrnlCopy s a1 a2) := by
  induction a2 generalizing s a1
  · exact h
  · rename_i ih
    unfold State.jrnlCopy
    try dsimp -iota only
    repeat' first
      | with_reducible refine ih ?_ _
      | with_reducible refine State.flashPut_keeps ?_ _ _
      | with_reducible refine Keeps.ite ?_ ?_
      | simp only [Keeps.lit]
      | with_reducible assumption
      | with_reducible exact Keeps.refl _
      | split
      | dsimp only

theorem State.jrnlCkpt_keeps {u s : State} (h : Keeps u s) (a1) (a2) : Keeps u (State.jrnlCkpt s a1 a2) := by
  unfold State.jrnlCkpt
  try dsimp -iota only
  repeat' first
    | with_reducible refine State.flashPut_keeps ?_ _ _
    | with_reducible refine State.updShow_keeps ?_
    | with_reducible refine State.jrnlCopy_keeps ?_ _ _
    | with_reducible refine Keeps.ite ?_ ?_
    | simp only [Keeps.lit]
    | with_reducible assumption
    | with_reducible exact Keeps.refl _
    | split
    | dsimp only

theorem State.jrnlMove_keeps {u s : State} (h : Keeps u s) : Keeps u (State.jrnlMove s) := by
  unfold State.jrnlMove
  try dsimp -iota only
  repeat' first
    | with_reducible refine State.flashClear_keeps ?_ _ _
    | with_reducible refine State.jrnlRaw_keeps ?_ _ _ _
    | with_reducible refine State.jrnlCkpt_keeps ?_ _ _
    | with_reducible refine Keeps.ite ?_ ?_
    | simp only [Keeps.lit]
    | with_reducible assumption
    | with_reducible exact Keeps.refl _
    | split
    | dsimp only

theorem State.jrnlMoveFull_keeps {u s : State} (h : Keeps u s) : Keeps u (State.jrnlMoveFull s) := by
  unfold State.jrnlMoveFull
  try dsimp -iota only
  repeat' first
    | with_reducible refine State.jrnlMove_keeps ?_
    | with_reducible refine Keeps.ite ?_ ?_
    | with_reducible assumption
    | with_reducible exact Keeps.refl _
    | split
    | dsimp only

theorem State.jrnlPut_keeps {u s : State} (h : Keeps u s) (a1) (a2) (a3) : Keeps u (State.jrnlPut s a1 a2 a3) := by
  unfold State.jrnlPut
  try dsimp -iota only
  repeat' first
    | with_reducible refine State.jrnlRaw_keeps ?_ _ _ _
    | with_reducible refine State.jrnlMoveFull_keeps ?_
    | with_reducible assumption
    | with_reducible exact Keeps.refl _

theorem State.jrnlErase_keeps {u s : State} (h : Keeps u s) (a1) (a2) : Keeps u (State.jrnlErase s a1 a2) := by
  unfold State.jrnlErase
  try dsimp -iota only
  repeat' first
    | with_reducible refine State.flashClear_keeps ?_ _ _
    | with_reducible refine State.jrnlPut_keeps ?_ _ _ _
    | with_reducible refine Keeps.ite ?_ ?_
    | with_reducible assumption
    | with_reducible exact Keeps.refl _
    | split
    | dsimp only

theorem State.jrnlRun_keeps {u s : State} (h : Keeps u s) : Keeps u (State.jrnlRun s) := by
  unfold State.jrnlRun
  try dsimp -iota only
  repeat' first
    | with_reducible refine State.jrnlPut_keeps ?_ _ _ _
    | with_reducible refine Keeps.ite ?_ ?_
    | simp only [Keeps.lit]
    | with_reducible assumption
    | with_reducible exact Keeps.refl _
    | split
    | dsimp only

theorem State.eraseAgain_keeps {u s : State} (h : Keeps u s) (a1) : Keeps u (State.eraseAgain s a1) := by
  unfold State.eraseAgain
  try dsimp -iota only
  repeat' first
    | with_reducible refine State.jrnlErase_keeps ?_ _ _
    | with_reducible refine Keeps.ite ?_ ?_
    | with_reducible refine Keeps.foldl ?_ _ _ (fun _ _ => ?_)
    | with_reducible assumption
    | with_reducible exact Keeps.refl _
    | split
    | dsimp only

theorem State.jrnlRecover_keeps {u s : State} (h : Keeps u s) : Keeps u s.jrnlRecover := by
  unfold State.jrnlRecover
  split
  · exact Keeps.ite (State.eraseAgain_keeps (State.jrnlCkpt_keeps (Keeps.lit.mpr (Keeps.ite (State.flashClear_keeps h _ _)
      h)) _ _) _) (State.set_keeps (State.eraseAgain_keeps (State.jrnlCkpt_keeps (Keeps.lit.mpr (Keeps.ite
      (State.flashClear_keeps h _ _) h)) _ _) _) _ _)
  · exact Keeps.ite (State.eraseAgain_keeps (State.jrnlMoveFull_keeps (State.updShow_keeps (Keeps.lit.mpr h))) _)
      (State.set_keeps (State.eraseAgain_keeps (State.jrnlMoveFull_keeps (State.updShow_keeps (Keeps.lit.mpr h))) _) _ _)

theorem State.noteUpdate_keeps {u s : State} (h : Keeps u s) (a1) (a2) : Keeps u (State.noteUpdate s a1 a2) := by
  unfold State.noteUpdate
  try dsimp -iota only
  repeat' first
    | with_reducible refine State.note_keeps ?_ _ _ _ _ _
    | with_reducible assumption
    | with_reducible exact Keeps.refl _

theorem State.copyMiss_keeps {u s : State} (h : Keeps u s) (a1) : Keeps u (State.copyMiss s a1) := by
  unfold State.copyMiss
  try dsimp -iota only
  repeat' first
    | with_reducible refine State.flashPut_keeps ?_ _ _
    | with_reducible refine Keeps.ite ?_ ?_
    | simp only [Keeps.lit]
    | with_reducible assumption
    | with_reducible exact Keeps.refl _
    | split
    | dsimp only

theorem State.copySector_keeps {u s : State} (h : Keeps u s) (a1) (a2) : Keeps u (State.copySector s a1 a2) := by
  unfold State.copySector
  try dsimp -iota only
  repeat' first
    | with_reducible refine State.flashPut_keeps ?_ _ _
    | with_reducible refine State.jrnlPut_keeps ?_ _ _ _
    | with_reducible refine State.jrnlErase_keeps ?_ _ _
    | with_reducible refine State.copyMiss_keeps ?_ _
    | with_reducible refine Keeps.ite ?_ ?_
    | with_reducible assumption
    | with_reducible exact Keeps.refl _
    | split
    | dsimp only

theorem State.copyGo_keeps {u s : State} (h : Keeps u s) : Keeps u (State.copyGo s) := by
  unfold State.copyGo
  try dsimp -iota only
  repeat' first
    | with_reducible refine State.jrnlPut_keeps ?_ _ _ _
    | with_reducible refine State.noteUpdate_keeps ?_ _ _
    | with_reducible refine State.copySector_keeps ?_ _ _
    | with_reducible refine Keeps.ite ?_ ?_
    | with_reducible refine Keeps.foldl ?_ _ _ (fun _ _ => ?_)
    | with_reducible assumption
    | with_reducible exact Keeps.refl _
    | split
    | dsimp only

theorem State.activation_keeps {u s : State} (h : Keeps u s) : Keeps u (State.activation s) := by
  unfold State.activation
  try dsimp -iota only
  repeat' first
    | with_reducible refine State.jrnlPut_keeps ?_ _ _ _
    | with_reducible refine State.noteUpdate_keeps ?_ _ _
    | with_reducible refine State.copyGo_keeps ?_
    | with_reducible refine Keeps.ite ?_ ?_
    | with_reducible assumption
    | with_reducible exact Keeps.refl _
    | split
    | dsimp only

theorem State.activationCold_keeps {u s : State} (h : Keeps u s) : Keeps u (State.activationCold s) := by
  unfold State.activationCold
  try dsimp -iota only
  repeat' first
    | with_reducible refine State.note_keeps ?_ _ _ _ _ _
    | with_reducible refine State.jrnlPut_keeps ?_ _ _ _
    | with_reducible refine State.noteUpdate_keeps ?_ _ _
    | with_reducible refine State.copyGo_keeps ?_
    | with_reducible refine Keeps.ite ?_ ?_
    | with_reducible assumption
    | with_reducible exact Keeps.refl _
    | split
    | dsimp only

end Sys2Proof.Machine
end

