-- ==== Sys2Proof/Laws/KeepsStart.lean ====
section
/-! SUPPORT. What every operation keeps, one lemma an operation. Network time, starts, supplies, the bus and the loop DSP instructions. -/

namespace Sys2Proof.Machine

set_option linter.unusedVariables false
set_option Elab.async false

theorem State.setPslot_keeps {u s : State} (h : Keeps u s) (a1) (a2) (a3) : Keeps u (State.setPslot s a1 a2 a3) := by
  unfold State.setPslot
  try dsimp -iota only
  repeat' first
    | with_reducible refine State.setPort_keeps ?_ _ _
    | with_reducible refine Keeps.ite ?_ ?_
    | simp only [Keeps.lit]
    | with_reducible assumption
    | with_reducible exact Keeps.refl _
    | split
    | dsimp only

theorem State.setPstate_keeps {u s : State} (h : Keeps u s) (a1) (a2) (a3) : Keeps u (State.setPstate s a1 a2 a3) := by
  unfold State.setPstate
  try dsimp -iota only
  repeat' first
    | with_reducible refine State.set_keeps ?_ _ _
    | with_reducible refine State.orF_keeps ?_ _ _
    | with_reducible refine Keeps.ite ?_ ?_
    | with_reducible assumption
    | with_reducible exact Keeps.refl _
    | split
    | dsimp only

theorem State.recommend_keeps {u s : State} (h : Keeps u s) (a1) (a2) (a3) (a4) : Keeps u (State.recommend s a1 a2 a3 a4) := by
  unfold State.recommend
  try dsimp -iota only
  repeat' first
    | with_reducible refine State.setPslot_keeps ?_ _ _ _
    | with_reducible refine State.setPstate_keeps ?_ _ _ _
    | with_reducible refine Keeps.ite ?_ ?_
    | simp only [Keeps.lit]
    | with_reducible assumption
    | with_reducible exact Keeps.refl _
    | split
    | dsimp only

theorem State.slotShow_keeps {u s : State} (h : Keeps u s) (a1) : Keeps u (State.slotShow s a1) := by
  unfold State.slotShow
  try dsimp -iota only
  repeat' first
    | with_reducible refine State.set_keeps ?_ _ _
    | with_reducible refine Keeps.ite ?_ ?_
    | with_reducible assumption
    | with_reducible exact Keeps.refl _
    | split
    | dsimp only

theorem State.slotEval_keeps {u s : State} (h : Keeps u s) (a1) : Keeps u (State.slotEval s a1) := by
  unfold State.slotEval
  try dsimp -iota only
  repeat' first
    | with_reducible refine State.set_keeps ?_ _ _
    | with_reducible refine State.setI_keeps ?_ _ _
    | with_reducible refine State.setB_keeps ?_ _ _
    | with_reducible refine State.setSlot_keeps ?_ _ _
    | with_reducible refine State.xTidy_keeps ?_
    | with_reducible refine Keeps.ite ?_ ?_
    | simp only [Keeps.lit]
    | with_reducible assumption
    | with_reducible exact Keeps.refl _
    | split
    | dsimp only

theorem State.slotClear_keeps {u s : State} (h : Keeps u s) (a1) : Keeps u (State.slotClear s a1) := by
  unfold State.slotClear
  try dsimp -iota only
  repeat' first
    | with_reducible refine State.setSlot_keeps ?_ _ _
    | with_reducible refine State.slotEval_keeps ?_ _
    | simp only [Keeps.lit]
    | with_reducible assumption
    | with_reducible exact Keeps.refl _

theorem State.slotAged_keeps {u s : State} (h : Keeps u s) (a1) : Keeps u (State.slotAged s a1) := by
  unfold State.slotAged
  try dsimp -iota only
  repeat' first
    | with_reducible refine State.slotEval_keeps ?_ _
    | with_reducible assumption
    | with_reducible exact Keeps.refl _

theorem State.bmca_keeps {u s : State} (h : Keeps u s) (a1) : Keeps u (State.bmca s a1) := by
  unfold State.bmca
  try dsimp -iota only
  repeat' first
    | with_reducible refine State.set_keeps ?_ _ _
    | with_reducible refine State.setSlot_keeps ?_ _ _
    | with_reducible refine State.each_keeps ?_ _ _ (fun _ _ => ?_)
    | with_reducible refine State.recommend_keeps ?_ _ _ _ _
    | with_reducible refine State.slotShow_keeps ?_ _
    | with_reducible refine State.slotEval_keeps ?_ _
    | with_reducible refine State.slotClear_keeps ?_ _
    | with_reducible refine Keeps.ite ?_ ?_
    | simp only [Keeps.lit]
    | with_reducible assumption
    | with_reducible exact Keeps.refl _
    | split
    | dsimp only

theorem State.portFresh_keeps {u s : State} (h : Keeps u s) (a1) (a2) : Keeps u (State.portFresh s a1 a2) := by
  unfold State.portFresh
  try dsimp -iota only
  repeat' first
    | with_reducible refine State.setPslot_keeps ?_ _ _ _
    | with_reducible refine State.setPstate_keeps ?_ _ _ _
    | simp only [Keeps.lit]
    | with_reducible assumption
    | with_reducible exact Keeps.refl _

theorem State.ptpConfig_keeps {u s : State} (h : Keeps u s) : Keeps u (State.ptpConfig s) := by
  unfold State.ptpConfig
  try dsimp -iota only
  repeat' first
    | with_reducible refine State.each_keeps ?_ _ _ (fun _ _ => ?_)
    | with_reducible refine State.setPstate_keeps ?_ _ _ _
    | with_reducible refine State.bmca_keeps ?_ _
    | with_reducible refine State.portFresh_keeps ?_ _ _
    | with_reducible refine Keeps.ite ?_ ?_
    | with_reducible assumption
    | with_reducible exact Keeps.refl _
    | split
    | dsimp only

theorem State.ptpMoved_keeps {u s : State} (h : Keeps u s) : Keeps u (State.ptpMoved s) := by
  unfold State.ptpMoved
  try dsimp -iota only
  repeat' first
    | with_reducible refine State.setSlot_keeps ?_ _ _
    | with_reducible refine State.each_keeps ?_ _ _ (fun _ _ => ?_)
    | with_reducible refine State.slotClear_keeps ?_ _
    | with_reducible refine Keeps.ite ?_ ?_
    | simp only [Keeps.lit]
    | with_reducible assumption
    | with_reducible exact Keeps.refl _
    | split
    | dsimp only

theorem State.seqNext_keeps {u s : State} (h : Keeps u s) (a1) (a2) (a3) : KeepsP u (State.seqNext s a1 a2 a3) := by
  unfold State.seqNext
  try dsimp -iota only
  repeat' first
    | with_reducible refine State.setPslot_keeps ?_ _ _ _
    | with_reducible refine Keeps.ite ?_ ?_
    | simp -iota -zeta -proj only [KeepsP.pair]
    | with_reducible refine KeepsP.ite ?_ ?_
    | simp only [Keeps.lit]
    | with_reducible assumption
    | with_reducible exact Keeps.refl _
    | split
    | dsimp only
theorem State.seqNext_keepsP {u s t : State} {v} {a1} {a2} {a3} (e : State.seqNext s a1 a2 a3 = (t, v)) (h : Keeps u s) : Keeps u t :=
  KeepsP.of_eq (State.seqNext_keeps h a1 a2 a3) e

theorem State.syncTx_keeps {u s : State} (h : Keeps u s) (a1) (a2) (a3) : Keeps u (State.syncTx s a1 a2 a3) := by
  unfold State.syncTx
  try dsimp -iota only
  repeat' first
    | with_reducible refine State.emit_keeps ?_ _
    | with_reducible refine State.seqNext_keeps ?_ _ _ _
    | with_reducible refine KeepsP.fst (State.seqNext_keeps ?_ _ _ _)
    | with_reducible refine State.seqNext_keepsP (by assumption) ?_
    | with_reducible refine Keeps.ite ?_ ?_
    | simp -iota -zeta -proj only [KeepsP.pair]
    | with_reducible refine KeepsP.ite ?_ ?_
    | with_reducible refine KeepsP.fst (KeepsP.ite ?_ ?_)
    | simp only [Keeps.lit]
    | with_reducible assumption
    | with_reducible exact Keeps.refl _
    | split
    | dsimp only

theorem State.ptpRole_keeps {u s : State} (h : Keeps u s) : Keeps u (State.ptpRole s) := by
  unfold State.ptpRole
  try dsimp -iota only
  repeat' first
    | with_reducible refine State.ptpConfig_keeps ?_
    | with_reducible refine Keeps.ite ?_ ?_
    | simp only [Keeps.lit]
    | with_reducible assumption
    | with_reducible exact Keeps.refl _
    | split
    | dsimp only

theorem State.announceTx_keeps {u s : State} (h : Keeps u s) (a1) (a2) : Keeps u (State.announceTx s a1 a2) := by
  unfold State.announceTx
  try dsimp -iota only
  repeat' first
    | with_reducible refine State.emit_keeps ?_ _
    | with_reducible refine State.setPstate_keeps ?_ _ _ _
    | with_reducible refine State.slotShow_keeps ?_ _
    | with_reducible refine State.seqNext_keeps ?_ _ _ _
    | with_reducible refine KeepsP.fst (State.seqNext_keeps ?_ _ _ _)
    | with_reducible refine State.seqNext_keepsP (by assumption) ?_
    | with_reducible refine State.ptpRole_keeps ?_
    | with_reducible refine Keeps.ite ?_ ?_
    | simp -iota -zeta -proj only [KeepsP.pair]
    | with_reducible refine KeepsP.ite ?_ ?_
    | with_reducible refine KeepsP.fst (KeepsP.ite ?_ ?_)
    | simp only [Keeps.lit]
    | with_reducible assumption
    | with_reducible exact Keeps.refl _
    | split
    | dsimp only

theorem State.delayReqTx_keeps {u s : State} (h : Keeps u s) (a1) (a2) (a3) : Keeps u (State.delayReqTx s a1 a2 a3) := by
  unfold State.delayReqTx
  try dsimp -iota only
  repeat' first
    | with_reducible refine State.emit_keeps ?_ _
    | with_reducible refine State.setPslot_keeps ?_ _ _ _
    | with_reducible refine State.seqNext_keeps ?_ _ _ _
    | with_reducible refine KeepsP.fst (State.seqNext_keeps ?_ _ _ _)
    | with_reducible refine State.seqNext_keepsP (by assumption) ?_
    | with_reducible refine Keeps.ite ?_ ?_
    | simp -iota -zeta -proj only [KeepsP.pair]
    | with_reducible refine KeepsP.ite ?_ ?_
    | with_reducible refine KeepsP.fst (KeepsP.ite ?_ ?_)
    | simp only [Keeps.lit]
    | with_reducible assumption
    | with_reducible exact Keeps.refl _
    | split
    | dsimp only

theorem State.ptpSample_keeps {u s : State} (h : Keeps u s) (a1) (a2) (a3) : Keeps u (State.ptpSample s a1 a2 a3) := by
  unfold State.ptpSample
  try dsimp -iota only
  repeat' first
    | with_reducible refine State.setSlot_keeps ?_ _ _
    | with_reducible refine State.xdif_keeps ?_ _
    | with_reducible refine State.setPslot_keeps ?_ _ _ _
    | with_reducible refine State.slotEval_keeps ?_ _
    | with_reducible refine Keeps.ite ?_ ?_
    | simp only [Keeps.lit]
    | with_reducible assumption
    | with_reducible exact Keeps.refl _
    | split
    | dsimp only

theorem State.syncRx_keeps {u s : State} (h : Keeps u s) (a1) (a2) (a3) : Keeps u (State.syncRx s a1 a2 a3) := by
  unfold State.syncRx
  try dsimp -iota only
  repeat' first
    | with_reducible refine State.setPslot_keeps ?_ _ _ _
    | with_reducible refine State.setPstate_keeps ?_ _ _ _
    | with_reducible refine State.ptpSample_keeps ?_ _ _ _
    | with_reducible refine Keeps.ite ?_ ?_
    | simp only [Keeps.lit]
    | with_reducible assumption
    | with_reducible exact Keeps.refl _
    | split
    | dsimp only

theorem State.followUpRx_keeps {u s : State} (h : Keeps u s) (a1) (a2) : Keeps u (State.followUpRx s a1 a2) := by
  unfold State.followUpRx
  try dsimp -iota only
  repeat' first
    | with_reducible refine State.setPslot_keeps ?_ _ _ _
    | with_reducible refine State.ptpSample_keeps ?_ _ _ _
    | with_reducible refine Keeps.ite ?_ ?_
    | simp only [Keeps.lit]
    | with_reducible assumption
    | with_reducible exact Keeps.refl _
    | split
    | dsimp only

theorem State.announceRx_keeps {u s : State} (h : Keeps u s) (a1) (a2) : Keeps u (State.announceRx s a1 a2) := by
  unfold State.announceRx
  try dsimp -iota only
  repeat' first
    | with_reducible refine State.setPslot_keeps ?_ _ _ _
    | with_reducible refine State.bmca_keeps ?_ _
    | with_reducible refine State.ptpRole_keeps ?_
    | with_reducible refine Keeps.ite ?_ ?_
    | simp only [Keeps.lit]
    | with_reducible assumption
    | with_reducible exact Keeps.refl _
    | split
    | dsimp only

theorem State.announceTimeout_keeps {u s : State} (h : Keeps u s) (a1) (a2) : Keeps u (State.announceTimeout s a1 a2) := by
  unfold State.announceTimeout
  try dsimp -iota only
  repeat' first
    | with_reducible refine State.set_keeps ?_ _ _
    | with_reducible refine State.setPslot_keeps ?_ _ _ _
    | with_reducible refine State.setPstate_keeps ?_ _ _ _
    | with_reducible refine State.slotEval_keeps ?_ _
    | with_reducible refine State.bmca_keeps ?_ _
    | with_reducible refine State.ptpRole_keeps ?_
    | with_reducible refine Keeps.ite ?_ ?_
    | simp only [Keeps.lit]
    | with_reducible assumption
    | with_reducible exact Keeps.refl _
    | split
    | dsimp only

theorem State.delayReqRx_keeps {u s : State} (h : Keeps u s) (a1) (a2) (a3) : Keeps u (State.delayReqRx s a1 a2 a3) := by
  unfold State.delayReqRx
  try dsimp -iota only
  repeat' first
    | with_reducible refine State.emit_keeps ?_ _
    | with_reducible refine Keeps.ite ?_ ?_
    | simp only [Keeps.lit]
    | with_reducible assumption
    | with_reducible exact Keeps.refl _
    | split
    | dsimp only

theorem State.delayRespRx_keeps {u s : State} (h : Keeps u s) (a1) (a2) : Keeps u (State.delayRespRx s a1 a2) := by
  unfold State.delayRespRx
  try dsimp -iota only
  repeat' first
    | with_reducible refine State.setI_keeps ?_ _ _
    | with_reducible refine State.setPslot_keeps ?_ _ _ _
    | with_reducible refine Keeps.ite ?_ ?_
    | simp only [Keeps.lit]
    | with_reducible assumption
    | with_reducible exact Keeps.refl _
    | split
    | dsimp only

theorem State.pdelayReqRx_keeps {u s : State} (h : Keeps u s) (a1) (a2) (a3) (a4) : Keeps u (State.pdelayReqRx s a1 a2 a3 a4) := by
  unfold State.pdelayReqRx
  try dsimp -iota only
  repeat' first
    | with_reducible refine State.emit_keeps ?_ _
    | with_reducible refine Keeps.ite ?_ ?_
    | simp only [Keeps.lit]
    | with_reducible assumption
    | with_reducible exact Keeps.refl _
    | split
    | dsimp only

theorem State.pdelayRespRx_keeps {u s : State} (h : Keeps u s) (a1) (a2) (a3) : Keeps u (State.pdelayRespRx s a1 a2 a3) := by
  unfold State.pdelayRespRx
  try dsimp -iota only
  repeat' first
    | with_reducible refine State.setI_keeps ?_ _ _
    | with_reducible refine State.setPslot_keeps ?_ _ _ _
    | with_reducible refine Keeps.ite ?_ ?_
    | simp only [Keeps.lit]
    | with_reducible assumption
    | with_reducible exact Keeps.refl _
    | split
    | dsimp only

theorem State.fwdDrop_keeps {u s : State} (h : Keeps u s) (a1) : Keeps u (State.fwdDrop s a1) := by
  unfold State.fwdDrop
  try dsimp -iota only
  repeat' first
    | with_reducible refine State.incSat_keeps ?_ _ _
    | with_reducible refine State.orF_keeps ?_ _ _
    | with_reducible assumption
    | with_reducible exact Keeps.refl _

theorem State.forward_keeps {u s : State} (h : Keeps u s) (a1) (a2) (a3) : Keeps u (State.forward s a1 a2 a3) := by
  unfold State.forward
  try dsimp -iota only
  repeat' first
    | with_reducible refine State.dec_keeps ?_ _ _
    | with_reducible refine State.setPort_keeps ?_ _ _
    | with_reducible refine State.fwdDrop_keeps ?_ _
    | with_reducible refine Keeps.ite ?_ ?_
    | with_reducible refine Keeps.foldl ?_ _ _ (fun _ _ => ?_)
    | simp only [Keeps.lit]
    | with_reducible assumption
    | with_reducible exact Keeps.refl _
    | split
    | dsimp only

theorem State.copyBack_keeps {u s : State} (h : Keeps u s) (a1) (a2) : Keeps u (State.copyBack s a1 a2) := by
  unfold State.copyBack
  try dsimp -iota only
  repeat' first
    | with_reducible refine State.inc_keeps ?_ _ _
    | with_reducible refine Keeps.ite ?_ ?_
    | simp only [Keeps.lit]
    | with_reducible assumption
    | with_reducible exact Keeps.refl _
    | split
    | dsimp only

theorem State.copySent_keeps {u s : State} (h : Keeps u s) (a1) (a2) : Keeps u (State.copySent s a1 a2) := by
  unfold State.copySent
  try dsimp -iota only
  repeat' first
    | with_reducible refine State.setPort_keeps ?_ _ _
    | with_reducible refine State.emit_keeps ?_ _
    | with_reducible refine State.fwdDrop_keeps ?_ _
    | with_reducible refine State.copyBack_keeps ?_ _ _
    | with_reducible refine Keeps.ite ?_ ?_
    | simp only [Keeps.lit]
    | with_reducible assumption
    | with_reducible exact Keeps.refl _
    | split
    | dsimp only

theorem State.portCut_keeps {u s : State} (h : Keeps u s) (a1) : Keeps u (State.portCut s a1) := by
  unfold State.portCut
  try dsimp -iota only
  repeat' first
    | with_reducible refine State.setPort_keeps ?_ _ _
    | with_reducible refine State.copyBack_keeps ?_ _ _
    | with_reducible refine Keeps.ite ?_ ?_
    | with_reducible refine Keeps.foldl ?_ _ _ (fun _ _ => ?_)
    | simp only [Keeps.lit]
    | with_reducible assumption
    | with_reducible exact Keeps.refl _
    | split
    | dsimp only

theorem State.credWrite_keeps {u s : State} (h : Keeps u s) (a1) (a2) : Keeps u (State.credWrite s a1 a2) := by
  unfold State.credWrite
  try dsimp -iota only
  repeat' first
    | with_reducible refine State.set_keeps ?_ _ _
    | with_reducible refine Keeps.ite ?_ ?_
    | with_reducible assumption
    | with_reducible exact Keeps.refl _
    | split
    | dsimp only

theorem State.linkDown_keeps {u s : State} (h : Keeps u s) (a1) : Keeps u (State.linkDown s a1) := by
  unfold State.linkDown
  try dsimp -iota only
  repeat' first
    | with_reducible refine State.set_keeps ?_ _ _
    | with_reducible refine State.orF_keeps ?_ _ _
    | with_reducible refine State.each_keeps ?_ _ _ (fun _ _ => ?_)
    | with_reducible refine State.setPslot_keeps ?_ _ _ _
    | with_reducible refine State.portCut_keeps ?_ _
    | with_reducible refine Keeps.ite ?_ ?_
    | simp only [Keeps.lit]
    | with_reducible assumption
    | with_reducible exact Keeps.refl _
    | split
    | dsimp only

theorem State.linkChange_keeps {u s : State} (h : Keeps u s) (a1) (a2) (a3) : Keeps u (State.linkChange s a1 a2 a3) := by
  unfold State.linkChange
  try dsimp -iota only
  repeat' first
    | with_reducible refine State.set_keeps ?_ _ _
    | with_reducible refine State.orF_keeps ?_ _ _
    | with_reducible refine State.each_keeps ?_ _ _ (fun _ _ => ?_)
    | with_reducible refine State.portFresh_keeps ?_ _ _
    | with_reducible refine State.ptpConfig_keeps ?_
    | with_reducible refine State.linkDown_keeps ?_ _
    | with_reducible refine Keeps.ite ?_ ?_
    | with_reducible assumption
    | with_reducible exact Keeps.refl _
    | split
    | dsimp only

theorem State.eptCfg_keeps {u s : State} (h : Keeps u s) (a1) (a2) : Keeps u (State.eptCfg s a1 a2) := by
  unfold State.eptCfg
  try dsimp -iota only
  repeat' first
    | with_reducible refine State.set_keeps ?_ _ _
    | with_reducible refine State.ptpConfig_keeps ?_
    | with_reducible refine State.linkDown_keeps ?_ _
    | with_reducible refine Keeps.ite ?_ ?_
    | with_reducible assumption
    | with_reducible exact Keeps.refl _
    | split
    | dsimp only

theorem State.ethStop_keeps {u s : State} (h : Keeps u s) : Keeps u (State.ethStop s) := by
  unfold State.ethStop
  try dsimp -iota only
  repeat' first
    | with_reducible refine State.set_keeps ?_ _ _
    | with_reducible refine State.each_keeps ?_ _ _ (fun _ _ => ?_)
    | with_reducible refine State.linkDown_keeps ?_ _
    | with_reducible refine Keeps.ite ?_ ?_
    | with_reducible assumption
    | with_reducible exact Keeps.refl _
    | split
    | dsimp only

theorem State.ethGo_keeps {u s : State} (h : Keeps u s) : Keeps u (State.ethGo s) := by
  unfold State.ethGo
  try dsimp -iota only
  repeat' first
    | with_reducible refine State.set_keeps ?_ _ _
    | with_reducible refine State.each_keeps ?_ _ _ (fun _ _ => ?_)
    | with_reducible refine Keeps.ite ?_ ?_
    | with_reducible assumption
    | with_reducible exact Keeps.refl _
    | split
    | dsimp only

theorem State.ptpSwitch_keeps {u s : State} (h : Keeps u s) : Keeps u (State.ptpSwitch s) := by
  unfold State.ptpSwitch
  try dsimp -iota only
  repeat' first
    | with_reducible refine State.set_keeps ?_ _ _
    | with_reducible refine State.setI_keeps ?_ _ _
    | with_reducible refine State.incSat_keeps ?_ _ _
    | with_reducible refine State.note_keeps ?_ _ _ _ _ _
    | with_reducible refine Keeps.ite ?_ ?_
    | simp only [Keeps.lit]
    | with_reducible assumption
    | with_reducible exact Keeps.refl _
    | split
    | dsimp only

theorem State.ptpOffer_keeps {u s : State} (h : Keeps u s) : Keeps u (State.ptpOffer s) := by
  unfold State.ptpOffer
  try dsimp -iota only
  repeat' first
    | with_reducible refine State.set_keeps ?_ _ _
    | with_reducible refine State.timRelease_keeps ?_ _ _ _ _ _ _
    | with_reducible refine State.timLoadGo_keeps ?_ _
    | with_reducible refine Keeps.ite ?_ ?_
    | simp only [Keeps.lit]
    | with_reducible assumption
    | with_reducible exact Keeps.refl _
    | split
    | dsimp only

theorem State.ptpSecond_keeps {u s : State} (h : Keeps u s) : Keeps u (State.ptpSecond s) := by
  unfold State.ptpSecond
  try dsimp -iota only
  repeat' first
    | with_reducible refine State.setPort_keeps ?_ _ _
    | with_reducible refine State.setSlot_keeps ?_ _ _
    | with_reducible refine State.each_keeps ?_ _ _ (fun _ _ => ?_)
    | with_reducible refine State.slotEval_keeps ?_ _
    | with_reducible refine State.ptpOffer_keeps ?_
    | with_reducible refine Keeps.ite ?_ ?_
    | simp only [Keeps.lit]
    | with_reducible assumption
    | with_reducible exact Keeps.refl _
    | split
    | dsimp only

theorem State.eptClk_keeps {u s : State} (h : Keeps u s) (a1) : Keeps u (State.eptClk s a1) := by
  unfold State.eptClk
  try dsimp -iota only
  repeat' first
    | with_reducible refine State.note_keeps ?_ _ _ _ _ _
    | with_reducible refine State.xLead_keeps ?_
    | with_reducible refine State.ptpConfig_keeps ?_
    | with_reducible refine Keeps.ite ?_ ?_
    | with_reducible assumption
    | with_reducible exact Keeps.refl _
    | split
    | dsimp only

theorem State.eptDom_keeps {u s : State} (h : Keeps u s) (a1) (a2) (a3) : Keeps u (State.eptDom s a1 a2 a3) := by
  unfold State.eptDom
  try dsimp -iota only
  repeat' first
    | with_reducible refine State.set_keeps ?_ _ _
    | with_reducible refine State.ptpConfig_keeps ?_
    | with_reducible refine Keeps.ite ?_ ?_
    | with_reducible assumption
    | with_reducible exact Keeps.refl _
    | split
    | dsimp only

theorem State.eptInt_keeps {u s : State} (h : Keeps u s) (a1) (a2) (a3) (a4) (a5) : Keeps u (State.eptInt s a1 a2 a3 a4 a5) := by
  unfold State.eptInt
  try dsimp -iota only
  repeat' first
    | with_reducible refine State.set_keeps ?_ _ _
    | with_reducible refine Keeps.ite ?_ ?_
    | with_reducible assumption
    | with_reducible exact Keeps.refl _
    | split
    | dsimp only

theorem State.sessEnd_keeps {u s : State} (h : Keeps u s) (a1) : Keeps u (State.sessEnd s a1) := by
  unfold State.sessEnd
  try dsimp -iota only
  repeat' first
    | with_reducible refine State.set_keeps ?_ _ _
    | with_reducible refine State.note_keeps ?_ _ _ _ _ _
    | with_reducible refine State.cusRegs_keeps ?_
    | with_reducible refine Keeps.ite ?_ ?_
    | simp only [Keeps.lit]
    | with_reducible assumption
    | with_reducible exact Keeps.refl _
    | split
    | dsimp only

theorem State.sessClose_keeps {u s : State} (h : Keeps u s) (a1) : Keeps u (State.sessClose s a1) := by
  unfold State.sessClose
  try dsimp -iota only
  repeat' first
    | with_reducible refine State.set_keeps ?_ _ _
    | with_reducible refine State.orF_keeps ?_ _ _
    | with_reducible refine State.attnUpdate_keeps ?_
    | with_reducible refine State.sessEnd_keeps ?_ _
    | with_reducible refine Keeps.ite ?_ ?_
    | with_reducible assumption
    | with_reducible exact Keeps.refl _
    | split
    | dsimp only

theorem State.svcLink_keeps {u s : State} (h : Keeps u s) (a1) : Keeps u (State.svcLink s a1) := by
  unfold State.svcLink
  try dsimp -iota only
  repeat' first
    | with_reducible refine State.set_keeps ?_ _ _
    | with_reducible refine State.orF_keeps ?_ _ _
    | with_reducible refine Keeps.ite ?_ ?_
    | with_reducible assumption
    | with_reducible exact Keeps.refl _
    | split
    | dsimp only

theorem State.svcClear_keeps {u s : State} (h : Keeps u s) : Keeps u (State.svcClear s) := by
  unfold State.svcClear
  try dsimp -iota only
  repeat' first
    | with_reducible refine State.set_keeps ?_ _ _
    | with_reducible refine Keeps.ite ?_ ?_
    | simp only [Keeps.lit]
    | with_reducible assumption
    | with_reducible exact Keeps.refl _
    | split
    | dsimp only

theorem State.svcRestart_keeps {u s : State} (h : Keeps u s) : Keeps u (State.svcRestart s) := by
  unfold State.svcRestart
  try dsimp -iota only
  repeat' first
    | with_reducible refine State.set_keeps ?_ _ _
    | with_reducible refine State.svcLink_keeps ?_ _
    | with_reducible refine State.svcClear_keeps ?_
    | with_reducible refine Keeps.ite ?_ ?_
    | simp only [Keeps.lit]
    | with_reducible assumption
    | with_reducible exact Keeps.refl _
    | split
    | dsimp only

theorem State.backoff_keeps {u s : State} (h : Keeps u s) : Keeps u (State.backoff s) := by
  unfold State.backoff
  try dsimp -iota only
  repeat' first
    | with_reducible refine State.set_keeps ?_ _ _
    | with_reducible refine State.setB_keeps ?_ _ _
    | with_reducible refine Keeps.ite ?_ ?_
    | simp only [Keeps.lit]
    | with_reducible assumption
    | with_reducible exact Keeps.refl _
    | split
    | dsimp only

theorem State.cusSecond_keeps {u s : State} (h : Keeps u s) : Keeps u (State.cusSecond s) := by
  unfold State.cusSecond
  try dsimp -iota only
  repeat' first
    | with_reducible refine State.set_keeps ?_ _ _
    | with_reducible refine Keeps.ite ?_ ?_
    | with_reducible assumption
    | with_reducible exact Keeps.refl _
    | split
    | dsimp only

theorem State.procReset_keeps {u s : State} (h : Keeps u s) : Keeps u (State.procReset s) := by
  unfold State.procReset
  try dsimp -iota only
  repeat' first
    | with_reducible refine State.set_keeps ?_ _ _
    | with_reducible refine State.clearRegs_keeps ?_ _ _
    | with_reducible refine State.wipeSnap_keeps ?_
    | with_reducible refine State.clearLatches_keeps ?_ _ _
    | with_reducible refine State.each_keeps ?_ _ _ (fun _ _ => ?_)
    | with_reducible refine Keeps.ite ?_ ?_
    | simp only [Keeps.lit]
    | with_reducible assumption
    | with_reducible exact Keeps.refl _
    | split
    | dsimp only

theorem State.pulsesRest_keeps {u s : State} (h : Keeps u s) : Keeps u (State.pulsesRest s) := by
  unfold State.pulsesRest
  try dsimp -iota only
  repeat' first
    | with_reducible refine State.tpDrive_keeps ?_ _ _
    | with_reducible refine State.each_keeps ?_ _ _ (fun _ _ => ?_)
    | with_reducible refine Keeps.ite ?_ ?_
    | with_reducible assumption
    | with_reducible exact Keeps.refl _
    | split
    | dsimp only

theorem State.outputsRest_keeps {u s : State} (h : Keeps u s) : Keeps u (State.outputsRest s) := by
  unfold State.outputsRest
  try dsimp -iota only
  repeat' first
    | with_reducible refine State.emit_keeps ?_ _
    | with_reducible refine State.pulsesRest_keeps ?_
    | with_reducible refine Keeps.ite ?_ ?_
    | with_reducible assumption
    | with_reducible exact Keeps.refl _
    | split
    | dsimp only

theorem State.coldReset_keeps {u s : State} (h : Keeps u s) : Keeps u s.coldReset := by
  have k := State.wipeCold_keeps (State.outputsRest_keeps h)
  unfold State.coldReset
  refine State.each_keeps ?_ _ _ (fun c s => State.set_keeps (.refl s) _ _)
  exact k.trans ⟨rfl, rfl, List.suffix_rfl, tblSorted_filter _ _ _, id⟩

theorem State.clearWritable_keeps {u s : State} (h : Keeps u s) (a1 a2 : Nat) (a3 : Bool) : Keeps u (s.clearWritable a1 a2 a3) :=
  h.trans ⟨rfl, rfl, List.suffix_rfl, tblSorted_filter _ _ _, id⟩

theorem State.timReset_keeps {u s : State} (h : Keeps u s) : Keeps u (State.timReset s) := by
  unfold State.timReset
  try dsimp -iota only
  repeat' first
    | with_reducible refine State.set_keeps ?_ _ _
    | with_reducible refine State.clearRegs_keeps ?_ _ _
    | with_reducible refine State.each_keeps ?_ _ _ (fun _ _ => ?_)
    | with_reducible refine State.clearWritable_keeps ?_ _ _ _
    | with_reducible refine Keeps.ite ?_ ?_
    | with_reducible assumption
    | with_reducible exact Keeps.refl _
    | split
    | dsimp only

theorem State.lockedReset_keeps {u s : State} (h : Keeps u s) : Keeps u (State.lockedReset s) := by
  unfold State.lockedReset
  try dsimp -iota only
  repeat' first
    | with_reducible refine State.set_keeps ?_ _ _
    | with_reducible refine State.each_keeps ?_ _ _ (fun _ _ => ?_)
    | with_reducible refine State.clearWritable_keeps ?_ _ _ _
    | with_reducible refine Keeps.ite ?_ ?_
    | with_reducible assumption
    | with_reducible exact Keeps.refl _
    | split
    | dsimp only

theorem Keeps.dropSched {u s : State} (h : Keeps u s) (p : Host.Cell → Bool) {v6 v7 v8 v9 v10 v11 v12 v13 v14 v15 v16
    v17 v18 v19 v20 v21 v22 v23 v24 v25 v26 v27 v28 v29 v30 v31 v32 v33 v34 v35 v36 v38} :
    Keeps u (State.mk s.reg (s.mem.filter p) s.flash s.wipes s.colds v6 v7 v8 v9 v10 v11 v12 v13 v14 v15 v16 v17 v18 v19
      v20 v21 v22 v23 v24 v25 v26 v27 v28 v29 v30 v31 v32 v33 v34 v35 v36 s.part s.out v38 s.pending) :=
  h.trans ⟨rfl, rfl, List.suffix_rfl, id, fun k => (Memory.wf_iff _).mpr
    ⟨tblCanon_filter _ _ _ _ (fun _ _ => rfl) ((Memory.wf_iff _).mp k).1, ((Memory.wf_iff _).mp k).2⟩⟩

theorem State.walkReset_keeps {u s : State} (h : Keeps u s) : Keeps u s.walkReset := by
  unfold State.walkReset
  dsimp only
  have k := State.clearRegs_keeps (State.clearRegs_keeps (State.clearWritable_keeps (State.clearRegs_keeps
    (State.clearRegs_keeps (State.clearRegs_keeps (State.clearRegs_keeps (State.clearRegs_keeps (State.clearRegs_keeps
    (State.clearRegs_keeps (State.lockedReset_keeps (State.timReset_keeps (State.clearWritable_keeps
    (State.clearLatches_keeps (State.clearLatches_keeps (State.procReset_keeps (State.telMinimum_keeps h)) 0x40000000
    0x40020000) 0x40030000 0x40220000) 0x40000000 0x40020000 false))) 0x40080004 0x40080008) 0x4008000C 0x40090000)
    0x40030300 0x40030600) 0x40030E00 0x40030F80) 0x40031000 0x40032000) 0x40050000 0x40070000) 0x40100000 0x40108000)
    0x40200000 0x40200020 false) 0x40200020 0x40200044) 0x40200048 0x40210000
  refine Keeps.ite (State.each_keeps (Keeps.dropSched k _) 2 _ fun n s => State.tpRest_keeps (.refl s) _)
    (State.each_keeps (State.each_keeps (Keeps.dropSched k _) 2 _ fun n s => State.tpRest_keeps (.refl s) _) 8 _
      fun p s => State.set_keeps (.refl s) _ _)

theorem State.wreasonClear_keeps {u s : State} (h : Keeps u s) : Keeps u (State.wreasonClear s) := by
  unfold State.wreasonClear
  try dsimp -iota only
  repeat' first
    | with_reducible refine State.wreasonAct_keeps ?_ _
    | with_reducible refine Keeps.ite ?_ ?_
    | simp only [Keeps.lit]
    | with_reducible assumption
    | with_reducible exact Keeps.refl _
    | split
    | dsimp only

theorem State.minimumStay_keeps {u s : State} (h : Keeps u s) : Keeps u (State.minimumStay s) := by
  unfold State.minimumStay
  try dsimp -iota only
  repeat' first
    | with_reducible refine State.set_keeps ?_ _ _
    | with_reducible refine State.attnUpdate_keeps ?_
    | with_reducible refine State.wreasonClear_keeps ?_
    | with_reducible refine Keeps.ite ?_ ?_
    | simp only [Keeps.lit]
    | with_reducible assumption
    | with_reducible exact Keeps.refl _
    | split
    | dsimp only

theorem State.minimumFall_keeps {u s : State} (h : Keeps u s) (a1) : Keeps u (State.minimumFall s a1) := by
  unfold State.minimumFall
  try dsimp -iota only
  repeat' first
    | with_reducible refine State.tpRest_keeps ?_ _
    | with_reducible refine State.each_keeps ?_ _ _ (fun _ _ => ?_)
    | with_reducible refine State.telMinimum_keeps ?_
    | with_reducible refine State.tpMinimum_keeps ?_
    | with_reducible refine State.ckoShowAll_keeps ?_
    | with_reducible refine State.itgMinimum_keeps ?_
    | with_reducible refine State.linkDown_keeps ?_ _
    | with_reducible refine State.procReset_keeps ?_
    | with_reducible refine State.walkReset_keeps ?_
    | with_reducible refine State.minimumStay_keeps ?_
    | with_reducible refine Keeps.ite ?_ ?_
    | with_reducible assumption
    | with_reducible exact Keeps.refl _
    | split
    | dsimp only

theorem State.walkNote_keeps {u s : State} (h : Keeps u s) (a1) (a2) (a3) : Keeps u (State.walkNote s a1 a2 a3) := by
  unfold State.walkNote
  try dsimp -iota only
  repeat' first
    | with_reducible refine State.set_keeps ?_ _ _
    | with_reducible refine State.setB_keeps ?_ _ _
    | with_reducible refine State.note_keeps ?_ _ _ _ _ _
    | with_reducible refine Keeps.ite ?_ ?_
    | with_reducible assumption
    | with_reducible exact Keeps.refl _
    | split
    | dsimp only

theorem State.imageRead_keeps {u s : State} (h : Keeps u s) (a1) : Keeps u (State.imageRead s a1) := by
  unfold State.imageRead
  try dsimp -iota only
  repeat' first
    | with_reducible refine State.mramRead_keeps ?_ _ _
    | with_reducible refine Keeps.ite ?_ ?_
    | with_reducible assumption
    | with_reducible exact Keeps.refl _
    | split
    | dsimp only

theorem State.walkOpen_keeps {u s : State} (h : Keeps u s) (a1) (a2) : KeepsP u (State.walkOpen s a1 a2) := by
  unfold State.walkOpen
  try dsimp -iota only
  repeat' first
    | with_reducible refine State.set_keeps ?_ _ _
    | with_reducible refine State.setB_keeps ?_ _ _
    | with_reducible refine State.imageRead_keeps ?_ _
    | with_reducible refine Keeps.ite ?_ ?_
    | simp -iota -zeta -proj only [KeepsP.pair]
    | with_reducible refine KeepsP.ite ?_ ?_
    | simp only [Keeps.lit]
    | with_reducible assumption
    | with_reducible exact Keeps.refl _
    | split
    | dsimp only
theorem State.walkOpen_keepsP {u s t : State} {v} {a1} {a2} (e : State.walkOpen s a1 a2 = (t, v)) (h : Keeps u s) : Keeps u t :=
  KeepsP.of_eq (State.walkOpen_keeps h a1 a2) e

theorem State.walkMirror_keeps {u s : State} (h : Keeps u s) (a1) : Keeps u (State.walkMirror s a1) := by
  unfold State.walkMirror
  try dsimp -iota only
  repeat' first
    | with_reducible refine State.minimumFall_keeps ?_ _
    | with_reducible refine State.walkNote_keeps ?_ _ _ _
    | with_reducible refine State.walkOpen_keeps ?_ _ _
    | with_reducible refine KeepsP.fst (State.walkOpen_keeps ?_ _ _)
    | with_reducible refine State.walkOpen_keepsP (by assumption) ?_
    | with_reducible refine Keeps.ite ?_ ?_
    | simp -iota -zeta -proj only [KeepsP.pair]
    | with_reducible refine KeepsP.ite ?_ ?_
    | with_reducible refine KeepsP.fst (KeepsP.ite ?_ ?_)
    | with_reducible assumption
    | with_reducible exact Keeps.refl _
    | split
    | dsimp only

theorem State.walkFault_keeps {u s : State} (h : Keeps u s) (a1) (a2) : Keeps u (State.walkFault s a1 a2) := by
  unfold State.walkFault
  try dsimp -iota only
  repeat' first
    | with_reducible refine State.procReset_keeps ?_
    | with_reducible refine State.walkReset_keeps ?_
    | with_reducible refine State.minimumFall_keeps ?_ _
    | with_reducible refine State.walkNote_keeps ?_ _ _ _
    | with_reducible refine State.walkMirror_keeps ?_ _
    | with_reducible refine Keeps.ite ?_ ?_
    | with_reducible assumption
    | with_reducible exact Keeps.refl _
    | split
    | dsimp only

theorem State.walkActive_keeps {u s : State} (h : Keeps u s) (a1) : Keeps u (State.walkActive s a1) := by
  unfold State.walkActive
  try dsimp -iota only
  repeat' first
    | with_reducible refine State.set_keeps ?_ _ _
    | with_reducible refine State.note_keeps ?_ _ _ _ _ _
    | with_reducible refine State.walkOpen_keeps ?_ _ _
    | with_reducible refine KeepsP.fst (State.walkOpen_keeps ?_ _ _)
    | with_reducible refine State.walkOpen_keepsP (by assumption) ?_
    | with_reducible refine State.walkMirror_keeps ?_ _
    | with_reducible refine State.walkFault_keeps ?_ _ _
    | with_reducible refine Keeps.ite ?_ ?_
    | simp -iota -zeta -proj only [KeepsP.pair]
    | with_reducible refine KeepsP.ite ?_ ?_
    | with_reducible refine KeepsP.fst (KeepsP.ite ?_ ?_)
    | simp only [Keeps.lit]
    | with_reducible assumption
    | with_reducible exact Keeps.refl _
    | split
    | dsimp only

theorem State.sdigUpdate_keeps {u s : State} (h : Keeps u s) : Keeps u (State.sdigUpdate s) := by
  unfold State.sdigUpdate
  try dsimp -iota only
  repeat' first
    | with_reducible refine State.cusStore_keeps ?_ _
    | with_reducible refine Keeps.ite ?_ ?_
    | simp only [Keeps.lit]
    | with_reducible assumption
    | with_reducible exact Keeps.refl _
    | split
    | dsimp only

theorem State.mirrorBegin_keeps {u s : State} (h : Keeps u s) : Keeps u (State.mirrorBegin s) := by
  unfold State.mirrorBegin
  try dsimp -iota only
  repeat' first
    | with_reducible refine State.set_keeps ?_ _ _
    | with_reducible refine State.cusStore_keeps ?_ _
    | with_reducible refine State.sdigUpdate_keeps ?_
    | with_reducible refine Keeps.ite ?_ ?_
    | simp only [Keeps.lit]
    | with_reducible assumption
    | with_reducible exact Keeps.refl _
    | split
    | dsimp only

theorem State.mirrorDone_keeps {u s : State} (h : Keeps u s) : Keeps u (State.mirrorDone s) := by
  unfold State.mirrorDone
  try dsimp -iota only
  repeat' first
    | with_reducible refine State.set_keeps ?_ _ _
    | with_reducible refine State.pokes_keeps ?_ _ _
    | with_reducible refine State.clrEcc_keeps ?_ _ _
    | with_reducible refine State.each_keeps ?_ _ _ (fun _ _ => ?_)
    | with_reducible refine State.cusStore_keeps ?_ _
    | with_reducible refine State.sdigUpdate_keeps ?_
    | with_reducible refine Keeps.ite ?_ ?_
    | simp only [Keeps.lit]
    | with_reducible assumption
    | with_reducible exact Keeps.refl _
    | split
    | dsimp only

theorem State.arrayRelease_keeps {u s : State} (h : Keeps u s) : Keeps u (State.arrayRelease s) := by
  unfold State.arrayRelease
  try dsimp -iota only
  repeat' first
    | with_reducible refine State.note_keeps ?_ _ _ _ _ _
    | with_reducible refine State.navStart_keeps ?_
    | with_reducible refine State.wreasonClear_keeps ?_
    | with_reducible refine Keeps.ite ?_ ?_
    | simp only [Keeps.lit]
    | with_reducible assumption
    | with_reducible exact Keeps.refl _
    | split
    | dsimp only

theorem State.walkDone_keeps {u s : State} (h : Keeps u s) : Keeps u (State.walkDone s) := by
  unfold State.walkDone
  try dsimp -iota only
  repeat' first
    | with_reducible refine State.set_keeps ?_ _ _
    | with_reducible refine State.attnUpdate_keeps ?_
    | with_reducible refine State.each_keeps ?_ _ _ (fun _ _ => ?_)
    | with_reducible refine State.mirrorBegin_keeps ?_
    | with_reducible refine State.arrayRelease_keeps ?_
    | with_reducible refine Keeps.ite ?_ ?_
    | simp only [Keeps.lit]
    | with_reducible assumption
    | with_reducible exact Keeps.refl _
    | split
    | dsimp only

theorem State.startDead_keeps {u s : State} (h : Keeps u s) : Keeps u (State.startDead s) := by
  unfold State.startDead
  try dsimp -iota only
  repeat' first
    | with_reducible refine State.attnUpdate_keeps ?_
    | with_reducible refine State.pulsesRest_keeps ?_
    | with_reducible refine State.walkReset_keeps ?_
    | with_reducible refine Keeps.ite ?_ ?_
    | simp only [Keeps.lit]
    | with_reducible assumption
    | with_reducible exact Keeps.refl _
    | split
    | dsimp only

theorem State.refFail_keeps {u s : State} (h : Keeps u s) (a1) : Keeps u (State.refFail s a1) := by
  unfold State.refFail
  try dsimp -iota only
  repeat' first
    | with_reducible refine State.note_keeps ?_ _ _ _ _ _
    | with_reducible refine State.attnUpdate_keeps ?_
    | with_reducible refine Keeps.ite ?_ ?_
    | simp only [Keeps.lit]
    | with_reducible assumption
    | with_reducible exact Keeps.refl _
    | split
    | dsimp only

theorem State.rfiClassify_keeps {u s : State} (h : Keeps u s) (a1) : Keeps u (State.rfiClassify s a1) := by
  unfold State.rfiClassify
  try dsimp -iota only
  repeat' first
    | with_reducible refine State.set_keeps ?_ _ _
    | with_reducible refine State.each_keeps ?_ _ _ (fun _ _ => ?_)
    | with_reducible refine State.pllShow_keeps ?_ _ _
    | with_reducible refine State.refFail_keeps ?_ _
    | with_reducible refine Keeps.ite ?_ ?_
    | simp only [Keeps.lit]
    | with_reducible assumption
    | with_reducible exact Keeps.refl _
    | split
    | dsimp only

theorem State.pllStartAll_keeps {u s : State} (h : Keeps u s) : Keeps u (State.pllStartAll s) := by
  unfold State.pllStartAll
  try dsimp -iota only
  repeat' first
    | with_reducible refine State.each_keeps ?_ _ _ (fun _ _ => ?_)
    | with_reducible refine State.pllStart_keeps ?_ _ _ _ _
    | with_reducible refine State.pllCalDone_keeps ?_ _
    | with_reducible refine State.pllLock_keeps ?_ _
    | with_reducible refine State.pllAligned_keeps ?_ _
    | with_reducible refine State.ethGo_keeps ?_
    | with_reducible refine Keeps.ite ?_ ?_
    | with_reducible assumption
    | with_reducible exact Keeps.refl _
    | split
    | dsimp only

theorem State.timeLoad_keeps {u s : State} (h : Keeps u s) : Keeps u (State.timeLoad s) := by
  unfold State.timeLoad
  try dsimp -iota only
  repeat' first
    | with_reducible refine State.set_keeps ?_ _ _
    | with_reducible refine State.timLoadGo_keeps ?_ _
    | with_reducible refine Keeps.ite ?_ ?_
    | with_reducible assumption
    | with_reducible exact Keeps.refl _
    | split
    | dsimp only

theorem State.backupNote_keeps {u s : State} (h : Keeps u s) : Keeps u (State.backupNote s) := by
  unfold State.backupNote
  try dsimp -iota only
  repeat' first
    | with_reducible refine State.note_keeps ?_ _ _ _ _ _
    | with_reducible refine Keeps.ite ?_ ?_
    | with_reducible assumption
    | with_reducible exact Keeps.refl _
    | split
    | dsimp only

theorem State.aonFlags_keeps {u s : State} (h : Keeps u s) : Keeps u (State.aonFlags s) := by
  unfold State.aonFlags
  try dsimp -iota only
  repeat' first
    | with_reducible refine State.note_keeps ?_ _ _ _ _ _
    | with_reducible refine Keeps.ite ?_ ?_
    | with_reducible assumption
    | with_reducible exact Keeps.refl _
    | split
    | dsimp only

theorem State.aonNotes_keeps {u s : State} (h : Keeps u s) : Keeps u (State.aonNotes s) := by
  unfold State.aonNotes
  try dsimp -iota only
  repeat' first
    | with_reducible refine State.backupNote_keeps ?_
    | with_reducible refine State.aonFlags_keeps ?_
    | with_reducible refine Keeps.ite ?_ ?_
    | simp only [Keeps.lit]
    | with_reducible assumption
    | with_reducible exact Keeps.refl _
    | split
    | dsimp only

theorem State.sfdp_keeps {u s : State} (h : Keeps u s) : Keeps u (State.sfdp s) := by
  unfold State.sfdp
  try dsimp -iota only
  repeat' first
    | with_reducible refine State.set_keeps ?_ _ _
    | with_reducible assumption
    | with_reducible exact Keeps.refl _

theorem State.flashFault_keeps {u s : State} (h : Keeps u s) (a1) : Keeps u (State.flashFault s a1) := by
  unfold State.flashFault
  try dsimp -iota only
  repeat' first
    | with_reducible refine State.walkFault_keeps ?_ _ _
    | with_reducible refine Keeps.ite ?_ ?_
    | simp only [Keeps.lit]
    | with_reducible assumption
    | with_reducible exact Keeps.refl _
    | split
    | dsimp only

theorem State.startContinue_keeps {u s : State} (h : Keeps u s) : Keeps u (State.startContinue s) := by
  unfold State.startContinue
  try dsimp -iota only
  repeat' first
    | with_reducible refine State.attnUpdate_keeps ?_
    | with_reducible refine State.mordantRead_keeps ?_
    | with_reducible refine State.jrnlRecover_keeps ?_
    | with_reducible refine State.activationCold_keeps ?_
    | with_reducible refine State.walkActive_keeps ?_ _
    | with_reducible refine State.timeLoad_keeps ?_
    | with_reducible refine State.aonNotes_keeps ?_
    | with_reducible refine State.sfdp_keeps ?_
    | with_reducible refine State.flashFault_keeps ?_ _
    | with_reducible refine Keeps.ite ?_ ?_
    | simp only [Keeps.lit]
    | with_reducible assumption
    | with_reducible exact Keeps.refl _
    | split
    | dsimp only

theorem State.identity_keeps {u s : State} (h : Keeps u s) : Keeps u (State.identity s) := by
  unfold State.identity
  try dsimp -iota only
  repeat' first
    | with_reducible refine State.set_keeps ?_ _ _
    | with_reducible refine Keeps.ite ?_ ?_
    | with_reducible refine Keeps.foldl ?_ _ _ (fun _ _ => ?_)
    | with_reducible assumption
    | with_reducible exact Keeps.refl _
    | split
    | dsimp only

theorem State.beforeLock_keeps {u s : State} (h : Keeps u s) : Keeps u (State.beforeLock s) := by
  unfold State.beforeLock
  try dsimp -iota only
  repeat' first
    | with_reducible refine State.set_keeps ?_ _ _
    | with_reducible refine State.ethStop_keeps ?_
    | with_reducible assumption
    | with_reducible exact Keeps.refl _

theorem State.coldStart_keeps {u s : State} (h : Keeps u s) (a1) : Keeps u (State.coldStart s a1) := by
  unfold State.coldStart
  try dsimp -iota only
  repeat' first
    | with_reducible refine State.set_keeps ?_ _ _
    | with_reducible refine State.mramRead_keeps ?_ _ _
    | with_reducible refine State.rtcAdvance_keeps ?_ _
    | with_reducible refine State.refOk_keeps ?_
    | with_reducible refine State.cusRead_keeps ?_
    | with_reducible refine State.backoff_keeps ?_
    | with_reducible refine State.startDead_keeps ?_
    | with_reducible refine State.refFail_keeps ?_ _
    | with_reducible refine State.rfiClassify_keeps ?_ _
    | with_reducible refine State.pllStartAll_keeps ?_
    | with_reducible refine State.aonNotes_keeps ?_
    | with_reducible refine State.startContinue_keeps ?_
    | with_reducible refine State.identity_keeps ?_
    | with_reducible refine State.beforeLock_keeps ?_
    | with_reducible refine Keeps.ite ?_ ?_
    | simp only [Keeps.lit]
    | with_reducible assumption
    | with_reducible exact Keeps.refl _
    | split
    | dsimp only

theorem State.rfiRetry_keeps {u s : State} (h : Keeps u s) (a1) : Keeps u (State.rfiRetry s a1) := by
  unfold State.rfiRetry
  try dsimp -iota only
  repeat' first
    | with_reducible refine State.rfiClassify_keeps ?_ _
    | with_reducible refine Keeps.ite ?_ ?_
    | with_reducible assumption
    | with_reducible exact Keeps.refl _
    | split
    | dsimp only

theorem State.pllARetry_keeps {u s : State} (h : Keeps u s) (a1) : Keeps u (State.pllARetry s a1) := by
  unfold State.pllARetry
  try dsimp -iota only
  repeat' first
    | with_reducible refine State.pllStart_keeps ?_ _ _ _ _
    | with_reducible refine State.pllCalDone_keeps ?_ _
    | with_reducible refine State.pllLock_keeps ?_ _
    | with_reducible refine State.refOk_keeps ?_
    | with_reducible refine State.pllAligned_keeps ?_ _
    | with_reducible refine State.refFail_keeps ?_ _
    | with_reducible refine State.pllStartAll_keeps ?_
    | with_reducible refine State.startContinue_keeps ?_
    | with_reducible refine Keeps.ite ?_ ?_
    | with_reducible assumption
    | with_reducible exact Keeps.refl _
    | split
    | dsimp only

theorem State.umbFlush_keeps {u s : State} (h : Keeps u s) (a1) : Keeps u (State.umbFlush s a1) := by
  induction a1 generalizing s
  · exact h
  · rename_i ih
    unfold State.umbFlush
    try dsimp -iota only
    repeat' first
      | with_reducible refine ih ?_
      | with_reducible refine State.umbGo_keeps ?_ _
      | with_reducible refine State.umbDone_keeps ?_
      | with_reducible refine Keeps.ite ?_ ?_
      | with_reducible assumption
      | with_reducible exact Keeps.refl _
      | split
      | dsimp only

theorem State.custClear_keeps {u s : State} (h : Keeps u s) : Keeps u (State.custClear s) := by
  unfold State.custClear
  try dsimp -iota only
  repeat' first
    | with_reducible refine State.wipeCust_keeps ?_
    | simp only [Keeps.lit]
    | with_reducible assumption
    | with_reducible exact Keeps.refl _

theorem State.softBegin_keeps {u s : State} (h : Keeps u s) (a1) : Keeps u (State.softBegin s a1) := by
  unfold State.softBegin
  try dsimp -iota only
  repeat' first
    | with_reducible refine State.set_keeps ?_ _ _
    | with_reducible refine State.incSat_keeps ?_ _ _
    | with_reducible refine State.note_keeps ?_ _ _ _ _ _
    | with_reducible refine State.attnUpdate_keeps ?_
    | with_reducible refine State.cusRead_keeps ?_
    | with_reducible refine State.itgHoldover_keeps ?_
    | with_reducible refine State.jrnlRun_keeps ?_
    | with_reducible refine State.jrnlRecover_keeps ?_
    | with_reducible refine State.activation_keeps ?_
    | with_reducible refine State.sessClose_keeps ?_ _
    | with_reducible refine State.svcRestart_keeps ?_
    | with_reducible refine State.backoff_keeps ?_
    | with_reducible refine State.procReset_keeps ?_
    | with_reducible refine State.minimumStay_keeps ?_
    | with_reducible refine State.minimumFall_keeps ?_ _
    | with_reducible refine State.walkMirror_keeps ?_ _
    | with_reducible refine State.walkActive_keeps ?_ _
    | with_reducible refine State.aonFlags_keeps ?_
    | with_reducible refine State.sfdp_keeps ?_
    | with_reducible refine State.flashFault_keeps ?_ _
    | with_reducible refine State.umbFlush_keeps ?_ _
    | with_reducible refine State.custClear_keeps ?_
    | with_reducible refine Keeps.ite ?_ ?_
    | with_reducible refine Keeps.foldl ?_ _ _ (fun _ _ => ?_)
    | simp only [Keeps.lit]
    | with_reducible assumption
    | with_reducible exact Keeps.refl _
    | split
    | dsimp only

theorem State.softCause_keeps {u s : State} (h : Keeps u s) (a1) : Keeps u (State.softCause s a1) := by
  unfold State.softCause
  try dsimp -iota only
  repeat' first
    | with_reducible refine State.orF_keeps ?_ _ _
    | with_reducible refine Keeps.ite ?_ ?_
    | simp only [Keeps.lit]
    | with_reducible assumption
    | with_reducible exact Keeps.refl _
    | split
    | dsimp only

theorem State.softStart_keeps {u s : State} (h : Keeps u s) (a1) : Keeps u (State.softStart s a1) := by
  unfold State.softStart
  try dsimp -iota only
  repeat' first
    | with_reducible refine State.rtcAdvance_keeps ?_ _
    | with_reducible refine State.itgHoldover_keeps ?_
    | with_reducible refine State.jrnlRun_keeps ?_
    | with_reducible refine State.sessClose_keeps ?_ _
    | with_reducible refine State.procReset_keeps ?_
    | with_reducible refine State.startDead_keeps ?_
    | with_reducible refine State.umbFlush_keeps ?_ _
    | with_reducible refine State.custClear_keeps ?_
    | with_reducible refine State.softBegin_keeps ?_ _
    | with_reducible refine Keeps.ite ?_ ?_
    | simp only [Keeps.lit]
    | with_reducible assumption
    | with_reducible exact Keeps.refl _
    | split
    | dsimp only

theorem State.nwdogEpoch_keeps {u s : State} (h : Keeps u s) : Keeps u (State.nwdogEpoch s) := by
  unfold State.nwdogEpoch
  try dsimp -iota only
  repeat' first
    | with_reducible refine State.incSat_keeps ?_ _ _
    | with_reducible refine Keeps.ite ?_ ?_
    | with_reducible assumption
    | with_reducible exact Keeps.refl _
    | split
    | dsimp only

theorem State.nwdogExpiry_keeps {u s : State} (h : Keeps u s) : Keeps u (State.nwdogExpiry s) := by
  unfold State.nwdogExpiry
  try dsimp -iota only
  repeat' first
    | with_reducible refine State.softCause_keeps ?_ _
    | with_reducible refine Keeps.ite ?_ ?_
    | simp only [Keeps.lit]
    | with_reducible assumption
    | with_reducible exact Keeps.refl _
    | split
    | dsimp only

theorem State.rtcReason_keeps {u s : State} (h : Keeps u s) (a1) : Keeps u (State.rtcReason s a1) := by
  unfold State.rtcReason
  try dsimp -iota only
  repeat' first
    | with_reducible refine State.rtcWakeSet_keeps ?_ _
    | with_reducible refine Keeps.ite ?_ ?_
    | with_reducible assumption
    | with_reducible exact Keeps.refl _
    | split
    | dsimp only

theorem State.enterReset_keeps {u s : State} (h : Keeps u s) : Keeps u (State.enterReset s) := by
  unfold State.enterReset
  try dsimp -iota only
  repeat' first
    | with_reducible refine State.coldReset_keeps ?_
    | with_reducible assumption
    | with_reducible exact Keeps.refl _

theorem State.coldRelease_keeps {u s : State} (h : Keeps u s) : Keeps u (State.coldRelease s) := by
  unfold State.coldRelease
  try dsimp -iota only
  repeat' first
    | with_reducible refine State.set_keeps ?_ _ _
    | with_reducible refine State.coldReset_keeps ?_
    | with_reducible refine Keeps.ite ?_ ?_
    | simp only [Keeps.lit]
    | with_reducible assumption
    | with_reducible exact Keeps.refl _
    | split
    | dsimp only

theorem State.powerUp_keeps {u s : State} (h : Keeps u s) : Keeps u (State.powerUp s) := by
  unfold State.powerUp
  try dsimp -iota only
  repeat' first
    | with_reducible refine State.coldRelease_keeps ?_
    | with_reducible refine Keeps.ite ?_ ?_
    | simp only [Keeps.lit]
    | with_reducible assumption
    | with_reducible exact Keeps.refl _
    | split
    | dsimp only

theorem State.rstAssert_keeps {u s : State} (h : Keeps u s) : Keeps u (State.rstAssert s) := by
  unfold State.rstAssert
  try dsimp -iota only
  repeat' first
    | with_reducible refine State.rtcReason_keeps ?_ _
    | with_reducible refine State.enterReset_keeps ?_
    | with_reducible refine Keeps.ite ?_ ?_
    | simp only [Keeps.lit]
    | with_reducible assumption
    | with_reducible exact Keeps.refl _
    | split
    | dsimp only

theorem State.rstRelease_keeps {u s : State} (h : Keeps u s) : Keeps u (State.rstRelease s) := by
  unfold State.rstRelease
  try dsimp -iota only
  repeat' first
    | with_reducible refine State.coldRelease_keeps ?_
    | with_reducible refine Keeps.ite ?_ ?_
    | simp only [Keeps.lit]
    | with_reducible assumption
    | with_reducible exact Keeps.refl _
    | split
    | dsimp only

theorem State.supplyLost_keeps {u s : State} (h : Keeps u s) : Keeps u (State.supplyLost s) := by
  unfold State.supplyLost
  try dsimp -iota only
  repeat' first
    | with_reducible refine State.rtcReason_keeps ?_ _
    | with_reducible refine State.enterReset_keeps ?_
    | with_reducible refine Keeps.ite ?_ ?_
    | simp only [Keeps.lit]
    | with_reducible assumption
    | with_reducible exact Keeps.refl _
    | split
    | dsimp only

theorem State.supplyReset_keeps {u s : State} (h : Keeps u s) (a1) : Keeps u (State.supplyReset s a1) := by
  unfold State.supplyReset
  try dsimp -iota only
  repeat' first
    | with_reducible refine State.set_keeps ?_ _ _
    | with_reducible refine State.supplyLost_keeps ?_
    | with_reducible refine Keeps.ite ?_ ?_
    | simp only [Keeps.lit]
    | with_reducible assumption
    | with_reducible exact Keeps.refl _
    | split
    | dsimp only

theorem State.railAbsent_keeps {u s : State} (h : Keeps u s) (a1) : Keeps u (State.railAbsent s a1) := by
  unfold State.railAbsent
  try dsimp -iota only
  repeat' first
    | with_reducible refine State.set_keeps ?_ _ _
    | with_reducible refine State.supplyLost_keeps ?_
    | with_reducible refine Keeps.ite ?_ ?_
    | with_reducible assumption
    | with_reducible exact Keeps.refl _
    | split
    | dsimp only

theorem State.wakeWaiting_keeps {u s : State} (h : Keeps u s) : Keeps u (State.wakeWaiting s) := by
  unfold State.wakeWaiting
  try dsimp -iota only
  repeat' first
    | with_reducible refine State.custWake_keeps ?_ _ _
    | with_reducible refine Keeps.ite ?_ ?_
    | with_reducible assumption
    | with_reducible exact Keeps.refl _
    | split
    | dsimp only

theorem State.rtcLockEnd_keeps {u s : State} (h : Keeps u s) : Keeps u (State.rtcLockEnd s) := by
  unfold State.rtcLockEnd
  try dsimp -iota only
  repeat' first
    | with_reducible refine State.wakeWaiting_keeps ?_
    | with_reducible refine Keeps.ite ?_ ?_
    | simp only [Keeps.lit]
    | with_reducible assumption
    | with_reducible exact Keeps.refl _
    | split
    | dsimp only

theorem State.warned_keeps {u s : State} (h : Keeps u s) : Keeps u (State.warned s) := by
  unfold State.warned
  try dsimp -iota only
  repeat' first
    | with_reducible refine State.set_keeps ?_ _ _
    | simp only [Keeps.lit]
    | with_reducible assumption
    | with_reducible exact Keeps.refl _

theorem State.pfwLow_keeps {u s : State} (h : Keeps u s) : Keeps u (State.pfwLow s) := by
  unfold State.pfwLow
  try dsimp -iota only
  repeat' first
    | with_reducible refine State.set_keeps ?_ _ _
    | with_reducible refine State.warned_keeps ?_
    | with_reducible refine Keeps.ite ?_ ?_
    | simp only [Keeps.lit]
    | with_reducible assumption
    | with_reducible exact Keeps.refl _
    | split
    | dsimp only

theorem State.lowest_keeps {u s : State} (h : Keeps u s) (a1) (a2) : Keeps u (State.lowest s a1 a2) := by
  unfold State.lowest
  try dsimp -iota only
  repeat' first
    | with_reducible refine State.set_keeps ?_ _ _
    | with_reducible assumption
    | with_reducible exact Keeps.refl _

theorem State.supplyWarning_keeps {u s : State} (h : Keeps u s) (a1) (a2) : Keeps u (State.supplyWarning s a1 a2) := by
  unfold State.supplyWarning
  try dsimp -iota only
  repeat' first
    | with_reducible refine State.set_keeps ?_ _ _
    | with_reducible refine State.clrF_keeps ?_ _ _
    | with_reducible refine State.coldRelease_keeps ?_
    | with_reducible refine State.warned_keeps ?_
    | with_reducible refine State.lowest_keeps ?_ _ _
    | with_reducible refine Keeps.ite ?_ ?_
    | simp only [Keeps.lit]
    | with_reducible assumption
    | with_reducible exact Keeps.refl _
    | split
    | dsimp only

theorem State.braceCauses_keeps {u s : State} (h : Keeps u s) : Keeps u (State.braceCauses s) := by
  unfold State.braceCauses
  try dsimp -iota only
  repeat' first
    | with_reducible refine State.setB_keeps ?_ _ _
    | with_reducible assumption
    | with_reducible exact Keeps.refl _

theorem State.warningEnd_keeps {u s : State} (h : Keeps u s) : Keeps u (State.warningEnd s) := by
  unfold State.warningEnd
  try dsimp -iota only
  repeat' first
    | with_reducible refine State.set_keeps ?_ _ _
    | with_reducible refine State.orF_keeps ?_ _ _
    | with_reducible refine State.coldRelease_keeps ?_
    | with_reducible refine Keeps.ite ?_ ?_
    | simp only [Keeps.lit]
    | with_reducible assumption
    | with_reducible exact Keeps.refl _
    | split
    | dsimp only

theorem State.umbBrace_keeps {u s : State} (h : Keeps u s) : Keeps u (State.umbBrace s) := by
  unfold State.umbBrace
  try dsimp -iota only
  repeat' first
    | with_reducible refine State.set_keeps ?_ _ _
    | with_reducible refine State.umbDone_keeps ?_
    | with_reducible refine Keeps.ite ?_ ?_
    | simp only [Keeps.lit]
    | with_reducible assumption
    | with_reducible exact Keeps.refl _
    | split
    | dsimp only

theorem State.startBrace_keeps {u s : State} (h : Keeps u s) : Keeps u (State.startBrace s) := by
  unfold State.startBrace
  try dsimp -iota only
  repeat' first
    | with_reducible refine Keeps.ite ?_ ?_
    | simp only [Keeps.lit]
    | with_reducible assumption
    | with_reducible exact Keeps.refl _
    | split
    | dsimp only

theorem State.braceBegin_keeps {u s : State} (h : Keeps u s) : Keeps u (State.braceBegin s) := by
  unfold State.braceBegin
  try dsimp -iota only
  repeat' first
    | with_reducible refine State.set_keeps ?_ _ _
    | with_reducible refine State.each_keeps ?_ _ _ (fun _ _ => ?_)
    | with_reducible refine State.dspStop_keeps ?_ _
    | with_reducible refine State.migAbort_keeps ?_ _
    | with_reducible refine State.engCancel_keeps ?_ _
    | with_reducible refine State.snapBrace_keeps ?_
    | with_reducible refine State.burstMiss_keeps ?_
    | with_reducible refine State.mordantAbandon_keeps ?_
    | with_reducible refine State.braceCauses_keeps ?_
    | with_reducible refine State.umbBrace_keeps ?_
    | with_reducible refine State.startBrace_keeps ?_
    | with_reducible refine Keeps.ite ?_ ?_
    | simp only [Keeps.lit]
    | with_reducible assumption
    | with_reducible exact Keeps.refl _
    | split
    | dsimp only

theorem State.braceNote_keeps {u s : State} (h : Keeps u s) (a1) (a2) : Keeps u (State.braceNote s a1 a2) := by
  unfold State.braceNote
  try dsimp -iota only
  repeat' first
    | with_reducible refine State.note_keeps ?_ _ _ _ _ _
    | with_reducible refine Keeps.ite ?_ ?_
    | with_reducible assumption
    | with_reducible exact Keeps.refl _
    | split
    | dsimp only

theorem State.walkAgain_keeps {u s : State} (h : Keeps u s) : Keeps u (State.walkAgain s) := by
  unfold State.walkAgain
  try dsimp -iota only
  repeat' first
    | with_reducible refine State.set_keeps ?_ _ _
    | with_reducible refine Keeps.ite ?_ ?_
    | simp only [Keeps.lit]
    | with_reducible assumption
    | with_reducible exact Keeps.refl _
    | split
    | dsimp only

theorem State.startResume_keeps {u s : State} (h : Keeps u s) : Keeps u (State.startResume s) := by
  unfold State.startResume
  try dsimp -iota only
  repeat' first
    | with_reducible refine State.startContinue_keeps ?_
    | with_reducible refine State.softBegin_keeps ?_ _
    | with_reducible refine State.walkAgain_keeps ?_
    | with_reducible refine Keeps.ite ?_ ?_
    | simp only [Keeps.lit]
    | with_reducible assumption
    | with_reducible exact Keeps.refl _
    | split
    | dsimp only

theorem State.braceOver_keeps {u s : State} (h : Keeps u s) (a1) : Keeps u (State.braceOver s a1) := by
  unfold State.braceOver
  try dsimp -iota only
  repeat' first
    | with_reducible refine State.set_keeps ?_ _ _
    | with_reducible refine State.incSat_keeps ?_ _ _
    | with_reducible refine State.orF_keeps ?_ _ _
    | with_reducible refine State.each_keeps ?_ _ _ (fun _ _ => ?_)
    | with_reducible refine State.dspGo_keeps ?_ _
    | with_reducible refine State.cluResume_keeps ?_ _
    | with_reducible refine State.chansRestart_keeps ?_
    | with_reducible refine State.relocStore_keeps ?_
    | with_reducible refine State.itgUnlatch_keeps ?_ _ _
    | with_reducible refine State.umbFlush_keeps ?_ _
    | with_reducible refine State.wakeWaiting_keeps ?_
    | with_reducible refine State.braceCauses_keeps ?_
    | with_reducible refine State.braceNote_keeps ?_ _ _
    | with_reducible refine State.startResume_keeps ?_
    | with_reducible refine Keeps.ite ?_ ?_
    | simp only [Keeps.lit]
    | with_reducible assumption
    | with_reducible exact Keeps.refl _
    | split
    | dsimp only

theorem State.braceShort_keeps {u s : State} (h : Keeps u s) : Keeps u (State.braceShort s) := by
  unfold State.braceShort
  try dsimp -iota only
  repeat' first
    | with_reducible refine State.braceOver_keeps ?_ _
    | with_reducible refine Keeps.ite ?_ ?_
    | with_reducible assumption
    | with_reducible exact Keeps.refl _
    | split
    | dsimp only

theorem State.braceLong_keeps {u s : State} (h : Keeps u s) : Keeps u (State.braceLong s) := by
  unfold State.braceLong
  try dsimp -iota only
  repeat' first
    | with_reducible refine State.braceOver_keeps ?_ _
    | with_reducible refine Keeps.ite ?_ ?_
    | with_reducible assumption
    | with_reducible exact Keeps.refl _
    | split
    | dsimp only

theorem State.supEpoch_keeps {u s : State} (h : Keeps u s) (a1) (a2) : Keeps u (State.supEpoch s a1 a2) := by
  unfold State.supEpoch
  try dsimp -iota only
  repeat' first
    | with_reducible refine State.set_keeps ?_ _ _
    | with_reducible refine State.setB_keeps ?_ _ _
    | with_reducible refine State.lowest_keeps ?_ _ _
    | with_reducible refine State.braceCauses_keeps ?_
    | with_reducible refine Keeps.ite ?_ ?_
    | simp only [Keeps.lit]
    | with_reducible assumption
    | with_reducible exact Keeps.refl _
    | split
    | dsimp only

theorem State.tempMeasure_keeps {u s : State} (h : Keeps u s) (a1) : Keeps u (State.tempMeasure s a1) := by
  unfold State.tempMeasure
  try dsimp -iota only
  repeat' first
    | with_reducible refine State.set_keeps ?_ _ _
    | with_reducible refine State.setI_keeps ?_ _ _
    | with_reducible refine State.setB_keeps ?_ _ _
    | with_reducible refine State.orF_keeps ?_ _ _
    | with_reducible refine Keeps.ite ?_ ?_
    | simp only [Keeps.lit]
    | with_reducible assumption
    | with_reducible exact Keeps.refl _
    | split
    | dsimp only

theorem State.hotEnd_keeps {u s : State} (h : Keeps u s) : Keeps u (State.hotEnd s) := by
  unfold State.hotEnd
  try dsimp -iota only
  repeat' first
    | with_reducible refine State.note_keeps ?_ _ _ _ _ _
    | with_reducible refine Keeps.ite ?_ ?_
    | simp only [Keeps.lit]
    | with_reducible assumption
    | with_reducible exact Keeps.refl _
    | split
    | dsimp only

theorem State.viewNirq_keeps {u s : State} (h : Keeps u s) : Keeps u (State.viewNirq s) := by
  unfold State.viewNirq
  try dsimp -iota only
  repeat' first
    | with_reducible refine State.setB_keeps ?_ _ _
    | with_reducible refine Keeps.ite ?_ ?_
    | with_reducible assumption
    | with_reducible exact Keeps.refl _
    | split
    | dsimp only

theorem State.viewRtc_keeps {u s : State} (h : Keeps u s) : Keeps u (State.viewRtc s) := by
  unfold State.viewRtc
  try dsimp -iota only
  repeat' first
    | with_reducible refine State.set_keeps ?_ _ _
    | with_reducible refine State.set2_keeps ?_ _ _ _
    | with_reducible refine Keeps.ite ?_ ?_
    | with_reducible assumption
    | with_reducible exact Keeps.refl _
    | split
    | dsimp only

theorem State.viewNow_keeps {u s : State} (h : Keeps u s) (a1) : Keeps u (State.viewNow s a1) := by
  unfold State.viewNow
  try dsimp -iota only
  repeat' first
    | with_reducible refine State.set_keeps ?_ _ _
    | with_reducible refine Keeps.ite ?_ ?_
    | with_reducible assumption
    | with_reducible exact Keeps.refl _
    | split
    | dsimp only

theorem State.viewItg_keeps {u s : State} (h : Keeps u s) : Keeps u (State.viewItg s) := by
  unfold State.viewItg
  try dsimp -iota only
  repeat' first
    | with_reducible refine State.set_keeps ?_ _ _
    | with_reducible refine State.setI_keeps ?_ _ _
    | with_reducible refine State.setB_keeps ?_ _ _
    | with_reducible refine State.each_keeps ?_ _ _ (fun _ _ => ?_)
    | with_reducible refine Keeps.ite ?_ ?_
    | with_reducible assumption
    | with_reducible exact Keeps.refl _
    | split
    | dsimp only

theorem State.viewClu_keeps {u s : State} (h : Keeps u s) (a1) : Keeps u (State.viewClu s a1) := by
  unfold State.viewClu
  try dsimp -iota only
  repeat' first
    | with_reducible refine State.set_keeps ?_ _ _
    | with_reducible refine State.set2_keeps ?_ _ _ _
    | with_reducible refine Keeps.ite ?_ ?_
    | with_reducible assumption
    | with_reducible exact Keeps.refl _
    | split
    | dsimp only

theorem State.viewEng_keeps {u s : State} (h : Keeps u s) (a1) : Keeps u (State.viewEng s a1) := by
  unfold State.viewEng
  try dsimp -iota only
  repeat' first
    | with_reducible refine State.set_keeps ?_ _ _
    | with_reducible refine State.set2_keeps ?_ _ _ _
    | with_reducible refine Keeps.ite ?_ ?_
    | with_reducible assumption
    | with_reducible exact Keeps.refl _
    | split
    | dsimp only

theorem State.viewDsp_keeps {u s : State} (h : Keeps u s) (a1) : Keeps u (State.viewDsp s a1) := by
  unfold State.viewDsp
  try dsimp -iota only
  repeat' first
    | with_reducible refine State.set_keeps ?_ _ _
    | with_reducible refine State.setB_keeps ?_ _ _
    | with_reducible refine Keeps.ite ?_ ?_
    | with_reducible assumption
    | with_reducible exact Keeps.refl _
    | split
    | dsimp only

theorem State.busView_keeps {u s : State} (h : Keeps u s) (a1) (a2) : Keeps u (State.busView s a1 a2) := by
  unfold State.busView
  try dsimp -iota only
  repeat' first
    | with_reducible refine State.set_keeps ?_ _ _
    | with_reducible refine State.setB_keeps ?_ _ _
    | with_reducible refine State.each_keeps ?_ _ _ (fun _ _ => ?_)
    | with_reducible refine State.viewNirq_keeps ?_
    | with_reducible refine State.viewRtc_keeps ?_
    | with_reducible refine State.viewNow_keeps ?_ _
    | with_reducible refine State.viewItg_keeps ?_
    | with_reducible refine State.viewClu_keeps ?_ _
    | with_reducible refine State.viewEng_keeps ?_ _
    | with_reducible refine State.viewDsp_keeps ?_ _
    | with_reducible refine Keeps.ite ?_ ?_
    | with_reducible assumption
    | with_reducible exact Keeps.refl _
    | split
    | dsimp only

theorem State.regRead_keeps {u s : State} (h : Keeps u s) (a1) (a2) (a3) : KeepsP u (State.regRead s a1 a2 a3) := by
  unfold State.regRead
  try dsimp -iota only
  repeat' first
    | with_reducible refine State.set_keeps ?_ _ _
    | with_reducible refine State.hold_keeps ?_ _ _ _
    | with_reducible refine State.release_keeps ?_ _ _
    | with_reducible refine State.telCapRead_keeps ?_ _ _
    | with_reducible refine State.busView_keeps ?_ _ _
    | with_reducible refine Keeps.ite ?_ ?_
    | simp -iota -zeta -proj only [KeepsP.pair]
    | with_reducible refine KeepsP.ite ?_ ?_
    | with_reducible refine Keeps.foldl ?_ _ _ (fun _ _ => ?_)
    | with_reducible refine KeepsP.foldl ?_ _ _ (fun _ _ => ?_)
    | with_reducible assumption
    | with_reducible exact Keeps.refl _
    | split
    | dsimp only
theorem State.regRead_keepsP {u s t : State} {v} {a1} {a2} {a3} (e : State.regRead s a1 a2 a3 = (t, v)) (h : Keeps u s) : Keeps u t :=
  KeepsP.of_eq (State.regRead_keeps h a1 a2 a3) e

theorem State.fieldWrite_keeps {u s : State} (h : Keeps u s) (a1) (a2) (a3) : Keeps u (State.fieldWrite s a1 a2 a3) := by
  unfold State.fieldWrite
  try dsimp -iota only
  repeat' first
    | with_reducible refine State.set_keeps ?_ _ _
    | with_reducible refine State.clrF_keeps ?_ _ _
    | with_reducible refine Keeps.ite ?_ ?_
    | with_reducible assumption
    | with_reducible exact Keeps.refl _
    | split
    | dsimp only

theorem hookSys_keeps {u s : State} (h : Keeps u s) (a0) (a1) : Keeps u (hookSys a0 a1 s) := by
  unfold hookSys
  try dsimp -iota only
  repeat' first
    | with_reducible refine State.set_keeps ?_ _ _
    | with_reducible refine Keeps.ite ?_ ?_
    | simp only [Keeps.lit]
    | with_reducible assumption
    | with_reducible exact Keeps.refl _
    | split
    | dsimp only

theorem hookRtc_keeps {u s : State} (h : Keeps u s) (a0) (a1) : Keeps u (hookRtc a0 a1 s) := by
  unfold hookRtc
  try dsimp -iota only
  repeat' first
    | with_reducible refine State.rtcCommit_keeps ?_ _
    | with_reducible refine Keeps.ite ?_ ?_
    | simp only [Keeps.lit]
    | with_reducible assumption
    | with_reducible exact Keeps.refl _
    | split
    | dsimp only

theorem hookPll_keeps {u s : State} (h : Keeps u s) (a0) (a1) (a2 : State) (k2 : Keeps u a2) : Keeps u (hookPll a0 a1 a2 s) := by
  unfold hookPll
  try dsimp -iota only
  repeat' first
    | with_reducible refine State.set_keeps ?_ _ _
    | with_reducible refine State.ckoWritten_keeps ?_ _
    | with_reducible refine State.pllCtl_keeps ?_ _ _ _
    | with_reducible refine State.pllTrim_keeps ?_ _ _
    | with_reducible refine Keeps.ite ?_ ?_
    | with_reducible assumption
    | with_reducible exact Keeps.refl _
    | split
    | dsimp only

theorem hookTim_keeps {u s : State} (h : Keeps u s) (a0) (a1) (a2 : State) (k2 : Keeps u a2) : Keeps u (hookTim a0 a1 a2 s) := by
  unfold hookTim
  try dsimp -iota only
  repeat' first
    | with_reducible refine State.timEval_keeps ?_
    | with_reducible refine State.timFixGo_keeps ?_ _
    | with_reducible refine State.timStepGo_keeps ?_ _
    | with_reducible refine State.timLoadGo_keeps ?_ _
    | with_reducible refine State.tpWritten_keeps ?_ _
    | with_reducible refine State.tpiCfg_keeps ?_ _
    | with_reducible refine State.xTidy_keeps ?_
    | with_reducible refine Keeps.ite ?_ ?_
    | simp only [Keeps.lit]
    | with_reducible assumption
    | with_reducible exact Keeps.refl _
    | split
    | dsimp only

theorem hookSlk_keeps {u s : State} (h : Keeps u s) (a0) (a1) (a2 : State) (k2 : Keeps u a2) : Keeps u (hookSlk a0 a1 a2 s) := by
  unfold hookSlk
  try dsimp -iota only
  repeat' first
    | with_reducible refine State.slkCfg_keeps ?_ _ _ _
    | with_reducible refine State.linkBase_keeps ?_ _
    | with_reducible refine Keeps.ite ?_ ?_
    | with_reducible assumption
    | with_reducible exact Keeps.refl _
    | split
    | dsimp only

theorem hookFec_keeps {u s : State} (h : Keeps u s) (a0) (a1) : Keeps u (hookFec a0 a1 s) := by
  unfold hookFec
  try dsimp -iota only
  repeat' first
    | with_reducible refine State.fecGo_keeps ?_ _ _
    | with_reducible refine State.fecPwr_keeps ?_ _
    | with_reducible refine Keeps.ite ?_ ?_
    | with_reducible assumption
    | with_reducible exact Keeps.refl _
    | split
    | dsimp only

theorem hookSnp_keeps {u s : State} (h : Keeps u s) (a0) (a1) (a2 : State) (k2 : Keeps u a2) : Keeps u (hookSnp a0 a1 a2 s) := by
  unfold hookSnp
  try dsimp -iota only
  repeat' first
    | with_reducible refine State.set_keeps ?_ _ _
    | with_reducible refine State.cluMap_keeps ?_ _
    | with_reducible refine State.snapHcfg_keeps ?_ _ _ _ ?_
    | with_reducible refine State.replayWrite_keeps ?_ _
    | with_reducible refine Keeps.ite ?_ ?_
    | with_reducible assumption
    | with_reducible exact Keeps.refl _
    | split
    | dsimp only

theorem hookItg_keeps {u s : State} (h : Keeps u s) (a0) (a1) (a2 : State) (k2 : Keeps u a2) : Keeps u (hookItg a0 a1 a2 s) := by
  unfold hookItg
  try dsimp -iota only
  repeat' first
    | with_reducible refine State.attnUpdate_keeps ?_
    | with_reducible refine State.timEval_keeps ?_
    | with_reducible refine State.itgMode_keeps ?_
    | with_reducible refine State.itgLatchWrite_keeps ?_ _
    | with_reducible refine State.itgTerr_keeps ?_
    | with_reducible refine State.survRestart_keeps ?_
    | with_reducible refine Keeps.ite ?_ ?_
    | with_reducible assumption
    | with_reducible exact Keeps.refl _
    | split
    | dsimp only

theorem hookEpt_keeps {u s : State} (h : Keeps u s) (a0) (a1 : State) (k1 : Keeps u a1) : Keeps u (hookEpt a0 a1 s) := by
  unfold hookEpt
  try dsimp -iota only
  repeat' first
    | with_reducible refine State.xTidy_keeps ?_
    | with_reducible refine State.ptpConfig_keeps ?_
    | with_reducible refine State.credWrite_keeps ?_ _ _
    | with_reducible refine State.eptCfg_keeps ?_ _ _
    | with_reducible refine State.eptClk_keeps ?_ _
    | with_reducible refine State.eptDom_keeps ?_ _ _ _
    | with_reducible refine State.eptInt_keeps ?_ _ _ _ _ _
    | with_reducible refine Keeps.ite ?_ ?_
    | with_reducible assumption
    | with_reducible exact Keeps.refl _
    | split
    | dsimp only

theorem hookTel_keeps {u s : State} (h : Keeps u s) (a0) (a1) (a2 : State) (k2 : Keeps u a2) : Keeps u (hookTel a0 a1 a2 s) := by
  unfold hookTel
  try dsimp -iota only
  repeat' first
    | with_reducible refine State.lateOpen_keeps ?_
    | with_reducible refine State.winPermit_keeps ?_
    | with_reducible refine State.telCfg_keeps ?_ _ _
    | with_reducible refine State.telCfgShow_keeps ?_ _ _ ?_
    | with_reducible refine State.telPtr_keeps ?_ _
    | with_reducible refine State.telInval_keeps ?_ _
    | with_reducible refine Keeps.ite ?_ ?_
    | with_reducible assumption
    | with_reducible exact Keeps.refl _
    | split
    | dsimp only

theorem hookUmb_keeps {u s : State} (h : Keeps u s) (a0) (a1) : Keeps u (hookUmb a0 a1 s) := by
  unfold hookUmb
  try dsimp -iota only
  repeat' first
    | with_reducible refine State.umbGo_keeps ?_ _
    | with_reducible refine State.umbCfgw_keeps ?_ _
    | with_reducible refine Keeps.ite ?_ ?_
    | with_reducible assumption
    | with_reducible exact Keeps.refl _
    | split
    | dsimp only

theorem hookClu_keeps {u s : State} (h : Keeps u s) (a0) (a1) (a2) (a3 : State) (k3 : Keeps u a3) : Keeps u (hookClu a0 a1 a2 a3 s) := by
  unfold hookClu
  try dsimp -iota only
  repeat' first
    | with_reducible refine State.setClu_keeps ?_ _ _
    | with_reducible refine State.ringLevel_keeps ?_ _
    | with_reducible refine State.ringRelease_keeps ?_ _ _
    | with_reducible refine State.cluMap_keeps ?_ _
    | with_reducible refine State.ringReconfigure_keeps ?_ _
    | with_reducible refine State.cluCtl_keeps ?_ _ _ _
    | with_reducible refine State.gangQueue_keeps ?_ _ _
    | with_reducible refine State.ctinv_keeps ?_ _ _
    | with_reducible refine Keeps.ite ?_ ?_
    | simp only [Keeps.lit]
    | with_reducible assumption
    | with_reducible exact Keeps.refl _
    | split
    | dsimp only

theorem hookEng_keeps {u s : State} (h : Keeps u s) (a0) (a1) (a2) (a3 : State) (k3 : Keeps u a3) : Keeps u (hookEng a0 a1 a2 a3 s) := by
  unfold hookEng
  try dsimp -iota only
  repeat' first
    | with_reducible refine State.engCommit_keeps ?_ _ _
    | with_reducible refine State.engQueue_keeps ?_ _ _
    | with_reducible refine State.engCtl_keeps ?_ _ _
    | with_reducible refine State.migArm_keeps ?_ _ _ _
    | with_reducible refine Keeps.ite ?_ ?_
    | with_reducible assumption
    | with_reducible exact Keeps.refl _
    | split
    | dsimp only

theorem hookDsp_keeps {u s : State} (h : Keeps u s) (a0) (a1) (a2) (a3 : State) (k3 : Keeps u a3) : Keeps u (hookDsp a0 a1 a2 a3 s) := by
  unfold hookDsp
  try dsimp -iota only
  repeat' first
    | with_reducible refine State.set_keeps ?_ _ _
    | with_reducible refine State.dspCtl_keeps ?_ _ _ _
    | with_reducible refine State.dspGroup_keeps ?_ _
    | with_reducible refine Keeps.ite ?_ ?_
    | with_reducible assumption
    | with_reducible exact Keeps.refl _
    | split
    | dsimp only

theorem regHook_keeps {u s : State} (h : Keeps u s) (a0) (a1) (a2) (a3 : State) (k3 : Keeps u a3) : Keeps u (regHook a0 a1 a2 a3 s) := by
  unfold regHook
  try dsimp -iota only
  repeat' first
    | with_reducible refine hookSys_keeps ?_ _ _
    | with_reducible refine hookRtc_keeps ?_ _ _
    | with_reducible refine hookPll_keeps ?_ _ _ _ ?_
    | with_reducible refine hookTim_keeps ?_ _ _ _ ?_
    | with_reducible refine hookSlk_keeps ?_ _ _ _ ?_
    | with_reducible refine hookFec_keeps ?_ _ _
    | with_reducible refine hookSnp_keeps ?_ _ _ _ ?_
    | with_reducible refine hookItg_keeps ?_ _ _ _ ?_
    | with_reducible refine hookEpt_keeps ?_ _ _ ?_
    | with_reducible refine hookTel_keeps ?_ _ _ _ ?_
    | with_reducible refine hookUmb_keeps ?_ _ _
    | with_reducible refine hookClu_keeps ?_ _ _ _ _ ?_
    | with_reducible refine hookEng_keeps ?_ _ _ _ _ ?_
    | with_reducible refine hookDsp_keeps ?_ _ _ _ _ ?_
    | with_reducible refine Keeps.ite ?_ ?_
    | with_reducible assumption
    | with_reducible exact Keeps.refl _
    | split
    | dsimp only

theorem State.regWrite_keeps {u s : State} (h : Keeps u s) (a1) (a2) (a3) (a4) : Keeps u (State.regWrite s a1 a2 a3 a4) := by
  unfold State.regWrite
  try dsimp -iota only
  repeat' first
    | with_reducible refine State.rtcLater_keeps ?_ _ _ _
    | with_reducible refine State.fieldWrite_keeps ?_ _ _ _
    | with_reducible refine regHook_keeps ?_ _ _ _ _ ?_
    | with_reducible refine Keeps.ite ?_ ?_
    | with_reducible refine Keeps.foldl ?_ _ _ (fun _ _ => ?_)
    | with_reducible assumption
    | with_reducible exact Keeps.refl _
    | split
    | dsimp only

theorem State.broadcast_keeps {u s : State} (h : Keeps u s) (a1) (a2) (a3) (a4) : KeepsP u (State.broadcast s a1 a2 a3 a4) := by
  unfold State.broadcast
  try dsimp -iota only
  repeat' first
    | with_reducible refine State.eachEng_keeps ?_ _ _ (fun _ _ => ?_)
    | with_reducible refine State.regWrite_keeps ?_ _ _ _ _
    | with_reducible refine Keeps.ite ?_ ?_
    | simp -iota -zeta -proj only [KeepsP.pair]
    | with_reducible refine KeepsP.ite ?_ ?_
    | with_reducible assumption
    | with_reducible exact Keeps.refl _
    | split
    | dsimp only
theorem State.broadcast_keepsP {u s t : State} {v} {a1} {a2} {a3} {a4} (e : State.broadcast s a1 a2 a3 a4 = (t, v)) (h : Keeps u s) : Keeps u t :=
  KeepsP.of_eq (State.broadcast_keeps h a1 a2 a3 a4) e

theorem State.memSettle_keeps {u s : State} (h : Keeps u s) (a1) : Keeps u (State.memSettle s a1) := by
  unfold State.memSettle
  try dsimp -iota only
  repeat' first
    | with_reducible refine State.dspStoresLand_keeps ?_ _
    | with_reducible refine Keeps.ite ?_ ?_
    | with_reducible assumption
    | with_reducible exact Keeps.refl _
    | split
    | dsimp only

theorem State.busRead_keeps {u s : State} (h : Keeps u s) (a1) (a2) (a3) (a4) : KeepsP u (State.busRead s a1 a2 a3 a4) := by
  unfold State.busRead
  try dsimp -iota only
  repeat' first
    | with_reducible refine State.memRead_keeps ?_ _ _ _
    | with_reducible refine KeepsP.fst (State.memRead_keeps ?_ _ _ _)
    | with_reducible refine State.memRead_keepsP (by assumption) ?_
    | with_reducible refine State.regRead_keeps ?_ _ _ _
    | with_reducible refine KeepsP.fst (State.regRead_keeps ?_ _ _ _)
    | with_reducible refine State.regRead_keepsP (by assumption) ?_
    | with_reducible refine State.memSettle_keeps ?_ _
    | with_reducible refine Keeps.ite ?_ ?_
    | simp -iota -zeta -proj only [KeepsP.pair]
    | with_reducible refine KeepsP.ite ?_ ?_
    | with_reducible refine KeepsP.fst (KeepsP.ite ?_ ?_)
    | with_reducible assumption
    | with_reducible exact Keeps.refl _
    | split
    | dsimp only
theorem State.busRead_keepsP {u s t : State} {v} {a1} {a2} {a3} {a4} (e : State.busRead s a1 a2 a3 a4 = (t, v)) (h : Keeps u s) : Keeps u t :=
  KeepsP.of_eq (State.busRead_keeps h a1 a2 a3 a4) e

theorem State.busWrite_keeps {u s : State} (h : Keeps u s) (a1) (a2) (a3) (a4) (a5) : KeepsP u (State.busWrite s a1 a2 a3 a4 a5) := by
  unfold State.busWrite
  try dsimp -iota only
  repeat' first
    | with_reducible refine State.memWrite_keeps ?_ _ _ _ _
    | with_reducible refine KeepsP.fst (State.memWrite_keeps ?_ _ _ _ _)
    | with_reducible refine State.memWrite_keepsP (by assumption) ?_
    | with_reducible refine State.regWrite_keeps ?_ _ _ _ _
    | with_reducible refine State.broadcast_keeps ?_ _ _ _ _
    | with_reducible refine KeepsP.fst (State.broadcast_keeps ?_ _ _ _ _)
    | with_reducible refine State.broadcast_keepsP (by assumption) ?_
    | with_reducible refine State.memSettle_keeps ?_ _
    | with_reducible refine Keeps.ite ?_ ?_
    | simp -iota -zeta -proj only [KeepsP.pair]
    | with_reducible refine KeepsP.ite ?_ ?_
    | with_reducible refine KeepsP.fst (KeepsP.ite ?_ ?_)
    | with_reducible assumption
    | with_reducible exact Keeps.refl _
    | split
    | dsimp only
theorem State.busWrite_keepsP {u s t : State} {v} {a1} {a2} {a3} {a4} {a5} (e : State.busWrite s a1 a2 a3 a4 a5 = (t, v)) (h : Keeps u s) : Keeps u t :=
  KeepsP.of_eq (State.busWrite_keeps h a1 a2 a3 a4 a5) e

theorem State.busError_keeps {u s : State} (h : Keeps u s) (a1) (a2) (a3) : Keeps u (State.busError s a1 a2 a3) := by
  unfold State.busError
  try dsimp -iota only
  repeat' first
    | with_reducible refine State.dspFault_keeps ?_ _ _ _ _ _
    | with_reducible refine Keeps.ite ?_ ?_
    | simp only [Keeps.lit]
    | with_reducible assumption
    | with_reducible exact Keeps.refl _
    | split
    | dsimp only

theorem State.dspOk_keeps {u s : State} (h : Keeps u s) (a1) (a2) : Keeps u (State.dspOk s a1 a2).state := by
  unfold State.dspOk
  try dsimp -iota only
  repeat' first
    | with_reducible refine State.setDsp_keeps ?_ _ _
    | with_reducible refine Keeps.iteR ?_ ?_
    | with_reducible refine Keeps.resOk ?_ _ _
    | with_reducible refine Keeps.resFault ?_ _ _
    | with_reducible assumption
    | with_reducible exact Keeps.refl _

theorem State.flagOr_keeps {u s : State} (h : Keeps u s) (a1) : KeepsP u (State.flagOr s a1) := by
  unfold State.flagOr
  try dsimp -iota only
  repeat' first
    | with_reducible refine State.draw_keeps ?_ _
    | with_reducible refine KeepsP.fst (State.draw_keeps ?_ _)
    | with_reducible refine State.draw_keepsP (by assumption) ?_
    | with_reducible refine Keeps.ite ?_ ?_
    | simp -iota -zeta -proj only [KeepsP.pair]
    | with_reducible refine KeepsP.ite ?_ ?_
    | with_reducible refine KeepsP.fst (KeepsP.ite ?_ ?_)
    | with_reducible assumption
    | with_reducible exact Keeps.refl _
    | split
    | dsimp only
theorem State.flagOr_keepsP {u s t : State} {v} {a1} (e : State.flagOr s a1 = (t, v)) (h : Keeps u s) : Keeps u t :=
  KeepsP.of_eq (State.flagOr_keeps h a1) e

theorem State.dspFlags_keeps {u s : State} (h : Keeps u s) (a1) (a2) (a3) (a4) (a5) : Keeps u (State.dspFlags s a1 a2 a3 a4 a5) := by
  unfold State.dspFlags
  try dsimp -iota only
  repeat' first
    | with_reducible refine State.setDsp_keeps ?_ _ _
    | with_reducible refine State.flagOr_keeps ?_ _
    | with_reducible refine KeepsP.fst (State.flagOr_keeps ?_ _)
    | with_reducible refine State.flagOr_keepsP (by assumption) ?_
    | with_reducible refine Keeps.ite ?_ ?_
    | simp -iota -zeta -proj only [KeepsP.pair]
    | with_reducible refine KeepsP.ite ?_ ?_
    | with_reducible refine KeepsP.fst (KeepsP.ite ?_ ?_)
    | with_reducible assumption
    | with_reducible exact Keeps.refl _
    | split
    | dsimp only

theorem dspAlu_keeps {u s : State} (h : Keeps u s) (a0) (a1) (a2) : Keeps u (dspAlu a0 a1 a2 s).state := by
  unfold dspAlu
  try dsimp -iota only
  repeat' first
    | with_reducible refine State.setDsp_keeps ?_ _ _
    | with_reducible refine State.draw_keeps ?_ _
    | with_reducible refine KeepsP.fst (State.draw_keeps ?_ _)
    | with_reducible refine State.draw_keepsP (by assumption) ?_
    | with_reducible refine State.dspFlags_keeps ?_ _ _ _ _ _
    | with_reducible refine Keeps.ite ?_ ?_
    | simp -iota -zeta -proj only [KeepsP.pair]
    | with_reducible refine KeepsP.ite ?_ ?_
    | with_reducible refine KeepsP.fst (KeepsP.ite ?_ ?_)
    | with_reducible refine Keeps.iteR ?_ ?_
    | with_reducible refine Keeps.resOk ?_ _ _
    | with_reducible refine Keeps.resFault ?_ _ _
    | with_reducible assumption
    | with_reducible exact Keeps.refl _
    | split
    | dsimp only

theorem dspMovOp_keeps {u s : State} (h : Keeps u s) (a0) (a1) : Keeps u (dspMovOp a0 a1 s).state := by
  unfold dspMovOp
  try dsimp -iota only
  repeat' first
    | with_reducible refine State.dspOk_keeps ?_ _ _
    | with_reducible refine Keeps.ite ?_ ?_
    | with_reducible refine Keeps.iteR ?_ ?_
    | with_reducible refine Keeps.resOk ?_ _ _
    | with_reducible refine Keeps.resFault ?_ _ _
    | with_reducible assumption
    | with_reducible exact Keeps.refl _
    | split
    | dsimp only

theorem dspNopOp_keeps {u s : State} (h : Keeps u s) (a0) (a1) : Keeps u (dspNopOp a0 a1 s).state := by
  unfold dspNopOp
  try dsimp -iota only
  repeat' first
    | with_reducible refine Keeps.iteR ?_ ?_
    | with_reducible refine Keeps.resOk ?_ _ _
    | with_reducible refine Keeps.resFault ?_ _ _
    | with_reducible assumption
    | with_reducible exact Keeps.refl _

theorem State.dspLoad_keeps {u s : State} (h : Keeps u s) (a1) (a2) (a3) : KeepsP u (State.dspLoad s a1 a2 a3) := by
  unfold State.dspLoad
  try dsimp -iota only
  repeat' first
    | with_reducible refine State.memRead_keeps ?_ _ _ _
    | with_reducible refine KeepsP.fst (State.memRead_keeps ?_ _ _ _)
    | with_reducible refine State.memRead_keepsP (by assumption) ?_
    | with_reducible refine Keeps.ite ?_ ?_
    | simp -iota -zeta -proj only [KeepsP.pair]
    | with_reducible refine KeepsP.ite ?_ ?_
    | with_reducible refine KeepsP.fst (KeepsP.ite ?_ ?_)
    | with_reducible assumption
    | with_reducible exact Keeps.refl _
    | split
    | dsimp only
theorem State.dspLoad_keepsP {u s t : State} {v} {a1} {a2} {a3} (e : State.dspLoad s a1 a2 a3 = (t, v)) (h : Keeps u s) : Keeps u t :=
  KeepsP.of_eq (State.dspLoad_keeps h a1 a2 a3) e

theorem dspLdOp_keeps {u s : State} (h : Keeps u s) (a0) (a1) : Keeps u (dspLdOp a0 a1 s).state := by
  unfold dspLdOp
  try dsimp -iota only
  repeat' first
    | with_reducible refine State.dspOk_keeps ?_ _ _
    | with_reducible refine State.dspLoad_keeps ?_ _ _ _
    | with_reducible refine KeepsP.fst (State.dspLoad_keeps ?_ _ _ _)
    | with_reducible refine State.dspLoad_keepsP (by assumption) ?_
    | with_reducible refine Keeps.ite ?_ ?_
    | simp -iota -zeta -proj only [KeepsP.pair]
    | with_reducible refine KeepsP.ite ?_ ?_
    | with_reducible refine KeepsP.fst (KeepsP.ite ?_ ?_)
    | with_reducible refine Keeps.iteR ?_ ?_
    | with_reducible refine Keeps.resOk ?_ _ _
    | with_reducible refine Keeps.resFault ?_ _ _
    | with_reducible assumption
    | with_reducible exact Keeps.refl _
    | split
    | dsimp only

theorem dspStOp_keeps {u s : State} (h : Keeps u s) (a0) (a1) : Keeps u (dspStOp a0 a1 s).state := by
  unfold dspStOp
  try dsimp -iota only
  repeat' first
    | with_reducible refine State.dspOk_keeps ?_ _ _
    | with_reducible refine Keeps.ite ?_ ?_
    | with_reducible refine Keeps.iteR ?_ ?_
    | with_reducible refine Keeps.resOk ?_ _ _
    | with_reducible refine Keeps.resFault ?_ _ _
    | with_reducible assumption
    | with_reducible exact Keeps.refl _
    | split
    | dsimp only

theorem dspMulOp_keeps {u s : State} (h : Keeps u s) (a0) (a1) (a2) : Keeps u (dspMulOp a0 a1 a2 s).state := by
  unfold dspMulOp
  try dsimp -iota only
  repeat' first
    | with_reducible refine State.dspOk_keeps ?_ _ _
    | with_reducible refine Keeps.ite ?_ ?_
    | with_reducible refine Keeps.iteR ?_ ?_
    | with_reducible refine Keeps.resOk ?_ _ _
    | with_reducible refine Keeps.resFault ?_ _ _
    | with_reducible assumption
    | with_reducible exact Keeps.refl _
    | split
    | dsimp only

theorem dspTapOp_keeps {u s : State} (h : Keeps u s) (a0) (a1) (a2) : Keeps u (dspTapOp a0 a1 a2 s).state := by
  unfold dspTapOp
  try dsimp -iota only
  repeat' first
    | with_reducible refine State.dspOk_keeps ?_ _ _
    | with_reducible refine State.dspLoad_keeps ?_ _ _ _
    | with_reducible refine KeepsP.fst (State.dspLoad_keeps ?_ _ _ _)
    | with_reducible refine State.dspLoad_keepsP (by assumption) ?_
    | with_reducible refine Keeps.ite ?_ ?_
    | simp -iota -zeta -proj only [KeepsP.pair]
    | with_reducible refine KeepsP.ite ?_ ?_
    | with_reducible refine KeepsP.fst (KeepsP.ite ?_ ?_)
    | with_reducible refine Keeps.iteR ?_ ?_
    | with_reducible refine Keeps.resOk ?_ _ _
    | with_reducible refine Keeps.resFault ?_ _ _
    | with_reducible assumption
    | with_reducible exact Keeps.refl _
    | split
    | dsimp only

theorem dspImmOp_keeps {u s : State} (h : Keeps u s) (a0) (a1) (a2) : Keeps u (dspImmOp a0 a1 a2 s).state := by
  unfold dspImmOp
  try dsimp -iota only
  repeat' first
    | with_reducible refine State.dspOk_keeps ?_ _ _
    | with_reducible refine Keeps.ite ?_ ?_
    | with_reducible refine Keeps.iteR ?_ ?_
    | with_reducible refine Keeps.resOk ?_ _ _
    | with_reducible refine Keeps.resFault ?_ _ _
    | with_reducible assumption
    | with_reducible exact Keeps.refl _
    | split
    | dsimp only

theorem dspCmpiOp_keeps {u s : State} (h : Keeps u s) (a0) (a1) : Keeps u (dspCmpiOp a0 a1 s).state := by
  unfold dspCmpiOp
  try dsimp -iota only
  repeat' first
    | with_reducible refine State.dspFlags_keeps ?_ _ _ _ _ _
    | with_reducible refine Keeps.ite ?_ ?_
    | with_reducible refine Keeps.iteR ?_ ?_
    | with_reducible refine Keeps.resOk ?_ _ _
    | with_reducible refine Keeps.resFault ?_ _ _
    | with_reducible assumption
    | with_reducible exact Keeps.refl _
    | split
    | dsimp only

theorem dspAccOp_keeps {u s : State} (h : Keeps u s) (a0) (a1) (a2) : Keeps u (dspAccOp a0 a1 a2 s).state := by
  unfold dspAccOp
  try dsimp -iota only
  repeat' first
    | with_reducible refine State.setDsp_keeps ?_ _ _
    | with_reducible refine State.draw_keeps ?_ _
    | with_reducible refine KeepsP.fst (State.draw_keeps ?_ _)
    | with_reducible refine State.draw_keepsP (by assumption) ?_
    | with_reducible refine State.dspFlags_keeps ?_ _ _ _ _ _
    | with_reducible refine Keeps.ite ?_ ?_
    | simp -iota -zeta -proj only [KeepsP.pair]
    | with_reducible refine KeepsP.ite ?_ ?_
    | with_reducible refine KeepsP.fst (KeepsP.ite ?_ ?_)
    | with_reducible refine Keeps.iteR ?_ ?_
    | with_reducible refine Keeps.resOk ?_ _ _
    | with_reducible refine Keeps.resFault ?_ _ _
    | with_reducible assumption
    | with_reducible exact Keeps.refl _
    | split
    | dsimp only

theorem dspXfrOp_keeps {u s : State} (h : Keeps u s) (a0) (a1) : Keeps u (dspXfrOp a0 a1 s).state := by
  unfold dspXfrOp
  try dsimp -iota only
  repeat' first
    | with_reducible refine State.dspOk_keeps ?_ _ _
    | with_reducible refine Keeps.ite ?_ ?_
    | with_reducible refine Keeps.iteR ?_ ?_
    | with_reducible refine Keeps.resOk ?_ _ _
    | with_reducible refine Keeps.resFault ?_ _ _
    | with_reducible assumption
    | with_reducible exact Keeps.refl _
    | split
    | dsimp only

theorem dspXfwOp_keeps {u s : State} (h : Keeps u s) (a0) (a1) : Keeps u (dspXfwOp a0 a1 s).state := by
  unfold dspXfwOp
  try dsimp -iota only
  repeat' first
    | with_reducible refine State.dspOk_keeps ?_ _ _
    | with_reducible refine Keeps.ite ?_ ?_
    | with_reducible refine Keeps.iteR ?_ ?_
    | with_reducible refine Keeps.resOk ?_ _ _
    | with_reducible refine Keeps.resFault ?_ _ _
    | with_reducible assumption
    | with_reducible exact Keeps.refl _
    | split
    | dsimp only

theorem dspBraOp_keeps {u s : State} (h : Keeps u s) (a0) (a1) : Keeps u (dspBraOp a0 a1 s).state := by
  unfold dspBraOp
  try dsimp -iota only
  repeat' first
    | with_reducible refine Keeps.iteR ?_ ?_
    | with_reducible refine Keeps.resOk ?_ _ _
    | with_reducible refine Keeps.resFault ?_ _ _
    | with_reducible assumption
    | with_reducible exact Keeps.refl _

theorem dspBccOp_keeps {u s : State} (h : Keeps u s) (a0) (a1) : Keeps u (dspBccOp a0 a1 s).state := by
  unfold dspBccOp
  try dsimp -iota only
  repeat' first
    | with_reducible refine Keeps.ite ?_ ?_
    | with_reducible refine Keeps.iteR ?_ ?_
    | with_reducible refine Keeps.resOk ?_ _ _
    | with_reducible refine Keeps.resFault ?_ _ _
    | with_reducible assumption
    | with_reducible exact Keeps.refl _
    | split
    | dsimp only

theorem dspCallOp_keeps {u s : State} (h : Keeps u s) (a0) (a1) : Keeps u (dspCallOp a0 a1 s).state := by
  unfold dspCallOp
  try dsimp -iota only
  repeat' first
    | with_reducible refine State.setDsp_keeps ?_ _ _
    | with_reducible refine Keeps.ite ?_ ?_
    | with_reducible refine Keeps.iteR ?_ ?_
    | with_reducible refine Keeps.resOk ?_ _ _
    | with_reducible refine Keeps.resFault ?_ _ _
    | with_reducible assumption
    | with_reducible exact Keeps.refl _
    | split
    | dsimp only

theorem dspRetOp_keeps {u s : State} (h : Keeps u s) (a0) (a1) : Keeps u (dspRetOp a0 a1 s).state := by
  unfold dspRetOp
  try dsimp -iota only
  repeat' first
    | with_reducible refine Keeps.iteR ?_ ?_
    | with_reducible refine Keeps.resOk ?_ _ _
    | with_reducible refine Keeps.resFault ?_ _ _
    | with_reducible assumption
    | with_reducible exact Keeps.refl _

theorem dspRtiOp_keeps {u s : State} (h : Keeps u s) (a0) (a1) : Keeps u (dspRtiOp a0 a1 s).state := by
  unfold dspRtiOp
  try dsimp -iota only
  repeat' first
    | with_reducible refine State.setDsp_keeps ?_ _ _
    | with_reducible refine Keeps.ite ?_ ?_
    | with_reducible refine Keeps.iteR ?_ ?_
    | with_reducible refine Keeps.resOk ?_ _ _
    | with_reducible refine Keeps.resFault ?_ _ _
    | simp only [Keeps.lit]
    | with_reducible assumption
    | with_reducible exact Keeps.refl _
    | split
    | dsimp only

theorem dspLoopOp_keeps {u s : State} (h : Keeps u s) (a0) (a1) (a2) : Keeps u (dspLoopOp a0 a1 a2 s).state := by
  unfold dspLoopOp
  try dsimp -iota only
  repeat' first
    | with_reducible refine State.dspOk_keeps ?_ _ _
    | with_reducible refine Keeps.ite ?_ ?_
    | with_reducible refine Keeps.iteR ?_ ?_
    | with_reducible refine Keeps.resOk ?_ _ _
    | with_reducible refine Keeps.resFault ?_ _ _
    | simp only [Keeps.lit]
    | with_reducible assumption
    | with_reducible exact Keeps.refl _
    | split
    | dsimp only

theorem dspLpsOp_keeps {u s : State} (h : Keeps u s) (a0) (a1) : Keeps u (dspLpsOp a0 a1 s).state := by
  unfold dspLpsOp
  try dsimp -iota only
  repeat' first
    | with_reducible refine dspLoopOp_keeps ?_ _ _ _
    | with_reducible refine Keeps.iteR ?_ ?_
    | with_reducible refine Keeps.resOk ?_ _ _
    | with_reducible refine Keeps.resFault ?_ _ _
    | with_reducible assumption
    | with_reducible exact Keeps.refl _

theorem dspLprOp_keeps {u s : State} (h : Keeps u s) (a0) (a1) : Keeps u (dspLprOp a0 a1 s).state := by
  unfold dspLprOp
  try dsimp -iota only
  repeat' first
    | with_reducible refine dspLoopOp_keeps ?_ _ _ _
    | with_reducible refine Keeps.iteR ?_ ?_
    | with_reducible refine Keeps.resOk ?_ _ _
    | with_reducible refine Keeps.resFault ?_ _ _
    | with_reducible assumption
    | with_reducible exact Keeps.refl _

theorem dspLpxOp_keeps {u s : State} (h : Keeps u s) (a0) (a1) : Keeps u (dspLpxOp a0 a1 s).state := by
  unfold dspLpxOp
  try dsimp -iota only
  repeat' first
    | with_reducible refine State.dspOk_keeps ?_ _ _
    | with_reducible refine Keeps.ite ?_ ?_
    | with_reducible refine Keeps.iteR ?_ ?_
    | with_reducible refine Keeps.resOk ?_ _ _
    | with_reducible refine Keeps.resFault ?_ _ _
    | simp only [Keeps.lit]
    | with_reducible assumption
    | with_reducible exact Keeps.refl _
    | split
    | dsimp only

theorem dspWaitOp_keeps {u s : State} (h : Keeps u s) (a0) (a1) : Keeps u (dspWaitOp a0 a1 s).state := by
  unfold dspWaitOp
  try dsimp -iota only
  repeat' first
    | with_reducible refine Keeps.iteR ?_ ?_
    | with_reducible refine Keeps.resOk ?_ _ _
    | with_reducible refine Keeps.resFault ?_ _ _
    | with_reducible assumption
    | with_reducible exact Keeps.refl _

theorem dspTrapOp_keeps {u s : State} (h : Keeps u s) (a0) (a1) : Keeps u (dspTrapOp a0 a1 s).state := by
  unfold dspTrapOp
  try dsimp -iota only
  repeat' first
    | with_reducible refine Keeps.iteR ?_ ?_
    | with_reducible refine Keeps.resOk ?_ _ _
    | with_reducible refine Keeps.resFault ?_ _ _
    | with_reducible assumption
    | with_reducible exact Keeps.refl _

theorem State.dspSpecial_keeps {u s : State} (h : Keeps u s) (a1) (a2) (a3) (a4) : Keeps u (State.dspSpecial s a1 a2 a3 a4).state := by
  unfold State.dspSpecial
  try dsimp -iota only
  repeat' first
    | with_reducible refine State.setDsp_keeps ?_ _ _
    | with_reducible refine Keeps.ite ?_ ?_
    | with_reducible refine Keeps.iteR ?_ ?_
    | with_reducible refine Keeps.resOk ?_ _ _
    | with_reducible refine Keeps.resFault ?_ _ _
    | simp only [Keeps.lit]
    | with_reducible assumption
    | with_reducible exact Keeps.refl _
    | split
    | dsimp only

theorem dspAngOp_keeps {u s : State} (h : Keeps u s) (a0) (a1) : Keeps u (dspAngOp a0 a1 s).state := by
  unfold dspAngOp
  try dsimp -iota only
  repeat' first
    | with_reducible refine State.draw_keeps ?_ _
    | with_reducible refine KeepsP.fst (State.draw_keeps ?_ _)
    | with_reducible refine State.draw_keepsP (by assumption) ?_
    | with_reducible refine State.dspSpecial_keeps ?_ _ _ _ _
    | with_reducible refine Keeps.ite ?_ ?_
    | simp -iota -zeta -proj only [KeepsP.pair]
    | with_reducible refine KeepsP.ite ?_ ?_
    | with_reducible refine KeepsP.fst (KeepsP.ite ?_ ?_)
    | with_reducible refine Keeps.iteR ?_ ?_
    | with_reducible refine Keeps.resOk ?_ _ _
    | with_reducible refine Keeps.resFault ?_ _ _
    | with_reducible assumption
    | with_reducible exact Keeps.refl _
    | split
    | dsimp only

theorem dspMagOp_keeps {u s : State} (h : Keeps u s) (a0) (a1) : Keeps u (dspMagOp a0 a1 s).state := by
  unfold dspMagOp
  try dsimp -iota only
  repeat' first
    | with_reducible refine State.draw_keeps ?_ _
    | with_reducible refine KeepsP.fst (State.draw_keeps ?_ _)
    | with_reducible refine State.draw_keepsP (by assumption) ?_
    | with_reducible refine State.dspSpecial_keeps ?_ _ _ _ _
    | with_reducible refine Keeps.ite ?_ ?_
    | simp -iota -zeta -proj only [KeepsP.pair]
    | with_reducible refine KeepsP.ite ?_ ?_
    | with_reducible refine KeepsP.fst (KeepsP.ite ?_ ?_)
    | with_reducible refine Keeps.iteR ?_ ?_
    | with_reducible refine Keeps.resOk ?_ _ _
    | with_reducible refine Keeps.resFault ?_ _ _
    | with_reducible assumption
    | with_reducible exact Keeps.refl _
    | split
    | dsimp only

theorem dspDivfOp_keeps {u s : State} (h : Keeps u s) (a0) (a1) : Keeps u (dspDivfOp a0 a1 s).state := by
  unfold dspDivfOp
  try dsimp -iota only
  repeat' first
    | with_reducible refine State.setDsp_keeps ?_ _ _
    | with_reducible refine State.draw_keeps ?_ _
    | with_reducible refine KeepsP.fst (State.draw_keeps ?_ _)
    | with_reducible refine State.draw_keepsP (by assumption) ?_
    | with_reducible refine State.dspSpecial_keeps ?_ _ _ _ _
    | with_reducible refine Keeps.ite ?_ ?_
    | simp -iota -zeta -proj only [KeepsP.pair]
    | with_reducible refine KeepsP.ite ?_ ?_
    | with_reducible refine KeepsP.fst (KeepsP.ite ?_ ?_)
    | with_reducible refine Keeps.iteR ?_ ?_
    | with_reducible refine Keeps.resOk ?_ _ _
    | with_reducible refine Keeps.resFault ?_ _ _
    | with_reducible assumption
    | with_reducible exact Keeps.refl _
    | split
    | dsimp only

theorem State.blkWord_keeps {u s : State} (h : Keeps u s) (d : Fin 16) (b : BlkSt) : Keeps u (s.blkWord d b) := by
  have k := State.busRead_keeps h (.ldsp d) b.src 4 0
  unfold State.blkWord
  generalize s.busRead (.ldsp d) b.src 4 = r at k ⊢
  obtain ⟨t, v⟩ := r
  cases v with
  | none => exact State.setDsp_keeps k _ _
  | some v => exact State.setDsp_keeps (State.memWrite_keeps k _ _ _ _) _ _

theorem State.blkRun_keeps {u s : State} (h : Keeps u s) (a1) (a2) (a3) : Keeps u (State.blkRun s a1 a2 a3) := by
  induction a2 generalizing s a1 a3
  · exact h
  · rename_i ih
    unfold State.blkRun
    try dsimp -iota only
    repeat' first
      | with_reducible refine ih ?_ _ _
      | with_reducible refine State.setDsp_keeps ?_ _ _
      | with_reducible refine State.blkWord_keeps ?_ _ _
      | with_reducible refine Keeps.ite ?_ ?_
      | simp only [Keeps.lit]
      | with_reducible assumption
      | with_reducible exact Keeps.refl _
      | split
      | dsimp only

theorem State.blkDone_keeps {u s : State} (h : Keeps u s) (a1) : Keeps u (State.blkDone s a1) := by
  unfold State.blkDone
  try dsimp -iota only
  repeat' first
    | with_reducible refine State.blkRun_keeps ?_ _ _ _
    | with_reducible assumption
    | with_reducible exact Keeps.refl _

theorem State.stqPut_keeps {u s : State} (h : Keeps u s) (a1) (a2) : Keeps u (State.stqPut s a1 a2) := by
  unfold State.stqPut
  try dsimp -iota only
  repeat' first
    | with_reducible refine State.setDsp_keeps ?_ _ _
    | with_reducible refine State.busWrite_keeps ?_ _ _ _ _ _
    | with_reducible refine KeepsP.fst (State.busWrite_keeps ?_ _ _ _ _ _)
    | with_reducible refine State.busWrite_keepsP (by assumption) ?_
    | with_reducible refine Keeps.ite ?_ ?_
    | simp -iota -zeta -proj only [KeepsP.pair]
    | with_reducible refine KeepsP.ite ?_ ?_
    | with_reducible refine KeepsP.fst (KeepsP.ite ?_ ?_)
    | simp only [Keeps.lit]
    | with_reducible assumption
    | with_reducible exact Keeps.refl _
    | split
    | dsimp only

theorem State.stqRun_keeps {u s : State} (h : Keeps u s) (a1) (a2) : Keeps u (State.stqRun s a1 a2) := by
  unfold State.stqRun
  try dsimp -iota only
  repeat' first
    | with_reducible refine State.setDsp_keeps ?_ _ _
    | with_reducible refine State.stqPut_keeps ?_ _ _
    | with_reducible refine Keeps.ite ?_ ?_
    | with_reducible refine Keeps.foldl ?_ _ _ (fun _ _ => ?_)
    | simp only [Keeps.lit]
    | with_reducible assumption
    | with_reducible exact Keeps.refl _
    | split
    | dsimp only

theorem State.stqDone_keeps {u s : State} (h : Keeps u s) (a1) : Keeps u (State.stqDone s a1) := by
  unfold State.stqDone
  try dsimp -iota only
  repeat' first
    | with_reducible refine State.stqRun_keeps ?_ _ _
    | with_reducible assumption
    | with_reducible exact Keeps.refl _

theorem State.dspBeside_keeps {u s : State} (h : Keeps u s) (a1) (a2) : Keeps u (State.dspBeside s a1 a2) := by
  unfold State.dspBeside
  try dsimp -iota only
  repeat' first
    | with_reducible refine State.blkRun_keeps ?_ _ _ _
    | with_reducible refine State.stqRun_keeps ?_ _ _
    | with_reducible assumption
    | with_reducible exact Keeps.refl _

theorem State.dspStall_keeps {u s : State} (h : Keeps u s) (a1) (a2) : Keeps u (State.dspStall s a1 a2) := by
  unfold State.dspStall
  try dsimp -iota only
  repeat' first
    | with_reducible refine State.dspCycles_keeps ?_ _ _
    | with_reducible refine State.dspBeside_keeps ?_ _ _
    | with_reducible assumption
    | with_reducible exact Keeps.refl _

theorem State.dspFlush_keeps {u s : State} (h : Keeps u s) : Keeps u (State.dspFlush s) := by
  unfold State.dspFlush
  try dsimp -iota only
  repeat' first
    | with_reducible refine State.each_keeps ?_ _ _ (fun _ _ => ?_)
    | with_reducible refine State.stqDone_keeps ?_ _
    | with_reducible refine Keeps.ite ?_ ?_
    | with_reducible assumption
    | with_reducible exact Keeps.refl _
    | split
    | dsimp only

theorem State.dspSettle_keeps {u s : State} (h : Keeps u s) (a1) : Keeps u (State.dspSettle s a1) := by
  unfold State.dspSettle
  try dsimp -iota only
  repeat' first
    | with_reducible refine State.stqDone_keeps ?_ _
    | with_reducible refine Keeps.ite ?_ ?_
    | with_reducible assumption
    | with_reducible exact Keeps.refl _
    | split
    | dsimp only

theorem dspEldOp_keeps {u s : State} (h : Keeps u s) (a0) (a1) : Keeps u (dspEldOp a0 a1 s).state := by
  unfold dspEldOp
  try dsimp -iota only
  repeat' first
    | with_reducible refine State.setDsp_keeps ?_ _ _
    | with_reducible refine State.busRead_keeps ?_ _ _ _ _
    | with_reducible refine KeepsP.fst (State.busRead_keeps ?_ _ _ _ _)
    | with_reducible refine State.busRead_keepsP (by assumption) ?_
    | with_reducible refine Keeps.ite ?_ ?_
    | simp -iota -zeta -proj only [KeepsP.pair]
    | with_reducible refine KeepsP.ite ?_ ?_
    | with_reducible refine KeepsP.fst (KeepsP.ite ?_ ?_)
    | with_reducible refine Keeps.iteR ?_ ?_
    | with_reducible refine Keeps.resOk ?_ _ _
    | with_reducible refine Keeps.resFault ?_ _ _
    | with_reducible assumption
    | with_reducible exact Keeps.refl _
    | split
    | dsimp only

theorem State.postTime_keeps {u s : State} (h : Keeps u s) (a1) : KeepsP u (State.postTime s a1) := by
  unfold State.postTime
  try dsimp -iota only
  repeat' first
    | with_reducible refine State.draw_keeps ?_ _
    | with_reducible refine KeepsP.fst (State.draw_keeps ?_ _)
    | with_reducible refine State.draw_keepsP (by assumption) ?_
    | with_reducible refine Keeps.ite ?_ ?_
    | simp -iota -zeta -proj only [KeepsP.pair]
    | with_reducible refine KeepsP.ite ?_ ?_
    | with_reducible refine KeepsP.fst (KeepsP.ite ?_ ?_)
    | with_reducible assumption
    | with_reducible exact Keeps.refl _
    | split
    | dsimp only
theorem State.postTime_keepsP {u s t : State} {v} {a1} (e : State.postTime s a1 = (t, v)) (h : Keeps u s) : Keeps u t :=
  KeepsP.of_eq (State.postTime_keeps h a1) e

theorem dspEstOp_keeps {u s : State} (h : Keeps u s) (a0) (a1) : Keeps u (dspEstOp a0 a1 s).state := by
  unfold dspEstOp
  try dsimp -iota only
  repeat' first
    | with_reducible refine State.setDsp_keeps ?_ _ _
    | with_reducible refine State.postTime_keeps ?_ _
    | with_reducible refine KeepsP.fst (State.postTime_keeps ?_ _)
    | with_reducible refine State.postTime_keepsP (by assumption) ?_
    | with_reducible refine Keeps.ite ?_ ?_
    | simp -iota -zeta -proj only [KeepsP.pair]
    | with_reducible refine KeepsP.ite ?_ ?_
    | with_reducible refine KeepsP.fst (KeepsP.ite ?_ ?_)
    | with_reducible refine Keeps.iteR ?_ ?_
    | with_reducible refine Keeps.resOk ?_ _ _
    | with_reducible refine Keeps.resFault ?_ _ _
    | simp only [Keeps.lit]
    | with_reducible assumption
    | with_reducible exact Keeps.refl _
    | split
    | dsimp only

theorem dspBlkOp_keeps {u s : State} (h : Keeps u s) (a0) (a1) (a2) : Keeps u (dspBlkOp a0 a1 a2 s).state := by
  unfold dspBlkOp
  try dsimp -iota only
  repeat' first
    | with_reducible refine State.setDsp_keeps ?_ _ _
    | with_reducible refine Keeps.ite ?_ ?_
    | with_reducible refine Keeps.iteR ?_ ?_
    | with_reducible refine Keeps.resOk ?_ _ _
    | with_reducible refine Keeps.resFault ?_ _ _
    | simp only [Keeps.lit]
    | with_reducible assumption
    | with_reducible exact Keeps.refl _
    | split
    | dsimp only

theorem dspSyncOp_keeps {u s : State} (h : Keeps u s) (a0) (a1) : Keeps u (dspSyncOp a0 a1 s).state := by
  unfold dspSyncOp
  try dsimp -iota only
  repeat' first
    | with_reducible refine Keeps.iteR ?_ ?_
    | with_reducible refine Keeps.resOk ?_ _ _
    | with_reducible refine Keeps.resFault ?_ _ _
    | with_reducible assumption
    | with_reducible exact Keeps.refl _

theorem State.dspHold_keeps {u s : State} (h : Keeps u s) (a1) (a2) : Keeps u (State.dspHold s a1 a2) := by
  unfold State.dspHold
  try dsimp -iota only
  repeat' first
    | with_reducible refine State.dspStall_keeps ?_ _ _
    | with_reducible refine Keeps.ite ?_ ?_
    | with_reducible assumption
    | with_reducible exact Keeps.refl _
    | split
    | dsimp only

theorem State.dspRefused_keeps {u s : State} (h : Keeps u s) (a1) : Keeps u (State.dspRefused s a1) := by
  unfold State.dspRefused
  try dsimp -iota only
  repeat' first
    | with_reducible refine State.setDsp_keeps ?_ _ _
    | with_reducible refine State.dspFault_keeps ?_ _ _ _ _ _
    | with_reducible refine Keeps.ite ?_ ?_
    | simp only [Keeps.lit]
    | with_reducible assumption
    | with_reducible exact Keeps.refl _
    | split
    | dsimp only

theorem State.dspPosted_keeps {u s : State} (h : Keeps u s) (a1) : Keeps u (State.dspPosted s a1) := by
  unfold State.dspPosted
  try dsimp -iota only
  repeat' first
    | with_reducible refine State.stqDone_keeps ?_ _
    | with_reducible refine State.dspSettle_keeps ?_ _
    | with_reducible refine State.dspRefused_keeps ?_ _
    | with_reducible refine Keeps.ite ?_ ?_
    | with_reducible assumption
    | with_reducible exact Keeps.refl _
    | split
    | dsimp only

theorem State.dspInterrupt_keeps {u s : State} (h : Keeps u s) (a1) : Keeps u (State.dspInterrupt s a1) := by
  unfold State.dspInterrupt
  try dsimp -iota only
  repeat' first
    | with_reducible refine State.dspEnterHandler_keeps ?_ _ _ _ _
    | with_reducible refine State.dspStall_keeps ?_ _ _
    | with_reducible refine Keeps.ite ?_ ?_
    | with_reducible assumption
    | with_reducible exact Keeps.refl _
    | split
    | dsimp only

theorem dspAct_keeps {u s : State} (h : Keeps u s) (a0) (a1) (a2) : Keeps u (dspAct a0 a1 a2 s).state := by
  unfold dspAct
  try dsimp -iota only
  repeat' first
    | with_reducible refine dspAlu_keeps ?_ _ _ _
    | with_reducible refine dspMovOp_keeps ?_ _ _
    | with_reducible refine dspNopOp_keeps ?_ _ _
    | with_reducible refine dspLdOp_keeps ?_ _ _
    | with_reducible refine dspStOp_keeps ?_ _ _
    | with_reducible refine dspMulOp_keeps ?_ _ _ _
    | with_reducible refine dspTapOp_keeps ?_ _ _ _
    | with_reducible refine dspImmOp_keeps ?_ _ _ _
    | with_reducible refine dspCmpiOp_keeps ?_ _ _
    | with_reducible refine dspAccOp_keeps ?_ _ _ _
    | with_reducible refine dspXfrOp_keeps ?_ _ _
    | with_reducible refine dspXfwOp_keeps ?_ _ _
    | with_reducible refine dspBraOp_keeps ?_ _ _
    | with_reducible refine dspBccOp_keeps ?_ _ _
    | with_reducible refine dspCallOp_keeps ?_ _ _
    | with_reducible refine dspRetOp_keeps ?_ _ _
    | with_reducible refine dspRtiOp_keeps ?_ _ _
    | with_reducible refine dspLpsOp_keeps ?_ _ _
    | with_reducible refine dspLprOp_keeps ?_ _ _
    | with_reducible refine dspLpxOp_keeps ?_ _ _
    | with_reducible refine dspWaitOp_keeps ?_ _ _
    | with_reducible refine dspTrapOp_keeps ?_ _ _
    | with_reducible refine dspAngOp_keeps ?_ _ _
    | with_reducible refine dspMagOp_keeps ?_ _ _
    | with_reducible refine dspDivfOp_keeps ?_ _ _
    | with_reducible refine dspEldOp_keeps ?_ _ _
    | with_reducible refine dspEstOp_keeps ?_ _ _
    | with_reducible refine dspBlkOp_keeps ?_ _ _ _
    | with_reducible refine dspSyncOp_keeps ?_ _ _
    | with_reducible refine Keeps.ite ?_ ?_
    | with_reducible refine Keeps.iteR ?_ ?_
    | with_reducible refine Keeps.resOk ?_ _ _
    | with_reducible refine Keeps.resFault ?_ _ _
    | with_reducible assumption
    | with_reducible exact Keeps.refl _
    | split
    | dsimp only

theorem dspAct_ok {u s t : State} {op : DspOp} {d : Fin 16} {w n : Nat} {f : Flow} (e : dspAct op d w s = .ok t f n)
    (h : Keeps u s) : Keeps u t := by
  have k := dspAct_keeps h op d w
  rw [e] at k; exact k

theorem dspAct_fault {u s t : State} {op : DspOp} {d : Fin 16} {w c a : Nat} (e : dspAct op d w s = .fault t c a)
    (h : Keeps u s) : Keeps u t := by
  have k := dspAct_keeps h op d w
  rw [e] at k; exact k

theorem State.stepEnd_keeps {u s : State} (h : Keeps u s) (a1) : Keeps u (State.stepEnd s a1) := by
  unfold State.stepEnd
  try dsimp -iota only
  repeat' first
    | with_reducible refine State.setDsp_keeps ?_ _ _
    | with_reducible refine State.dspSettle_keeps ?_ _
    | with_reducible refine Keeps.ite ?_ ?_
    | simp only [Keeps.lit]
    | with_reducible assumption
    | with_reducible exact Keeps.refl _
    | split
    | dsimp only

theorem State.dspAfter_keeps {u s : State} (h : Keeps u s) (a1) (a2) (a3) (a4) (a5) (a6) : Keeps u (State.dspAfter s a1 a2 a3 a4 a5 a6) := by
  unfold State.dspAfter
  try dsimp -iota only
  repeat' first
    | with_reducible refine State.setDsp_keeps ?_ _ _
    | with_reducible refine State.dspEnter_keeps ?_ _ _
    | with_reducible refine State.stqDone_keeps ?_ _
    | with_reducible refine State.dspStall_keeps ?_ _ _
    | with_reducible refine Keeps.ite ?_ ?_
    | simp only [Keeps.lit]
    | with_reducible assumption
    | with_reducible exact Keeps.refl _
    | split
    | dsimp only

theorem State.dspIssue_keeps {u s : State} (h : Keeps u s) (a1) (a2) : Keeps u (State.dspIssue s a1 a2) := by
  unfold State.dspIssue
  try dsimp -iota only
  repeat' first
    | with_reducible refine State.setDsp_keeps ?_ _ _
    | with_reducible refine State.memRead_keeps ?_ _ _ _
    | with_reducible refine KeepsP.fst (State.memRead_keeps ?_ _ _ _)
    | with_reducible refine State.memRead_keepsP (by assumption) ?_
    | with_reducible refine State.dspLand_keeps ?_ _
    | with_reducible refine State.dspFault_keeps ?_ _ _ _ _ _
    | with_reducible refine State.dspHold_keeps ?_ _ _
    | with_reducible refine State.dspRefused_keeps ?_ _
    | with_reducible refine dspAct_keeps ?_ _ _ _
    | with_reducible refine dspAct_ok (by assumption) ?_
    | with_reducible refine dspAct_fault (by assumption) ?_
    | with_reducible refine State.stepEnd_keeps ?_ _
    | with_reducible refine State.dspAfter_keeps ?_ _ _ _ _ _ _
    | with_reducible refine Keeps.ite ?_ ?_
    | simp -iota -zeta -proj only [KeepsP.pair]
    | with_reducible refine KeepsP.ite ?_ ?_
    | with_reducible refine KeepsP.fst (KeepsP.ite ?_ ?_)
    | simp only [Keeps.lit]
    | with_reducible assumption
    | with_reducible exact Keeps.refl _
    | split
    | dsimp only

theorem State.dspOne_keeps {u s : State} (h : Keeps u s) (a1) : Keeps u (State.dspOne s a1) := by
  unfold State.dspOne
  try dsimp -iota only
  repeat' first
    | with_reducible refine State.dspIssue_keeps ?_ _ _
    | with_reducible refine Keeps.ite ?_ ?_
    | with_reducible assumption
    | with_reducible exact Keeps.refl _
    | split
    | dsimp only

theorem State.dspSteps_keeps {u s : State} (h : Keeps u s) : Keeps u (State.dspSteps s) := by
  unfold State.dspSteps
  try dsimp -iota only
  repeat' first
    | with_reducible refine State.each_keeps ?_ _ _ (fun _ _ => ?_)
    | with_reducible refine State.dspSettle_keeps ?_ _
    | with_reducible refine State.dspOne_keeps ?_ _
    | with_reducible refine Keeps.ite ?_ ?_
    | with_reducible assumption
    | with_reducible exact Keeps.refl _
    | split
    | dsimp only

theorem State.busDo_keeps {u s : State} (h : Keeps u s) (a1) (a2) (a3) (a4) (a5) : Keeps u (State.busDo s a1 a2 a3 a4 a5) := by
  unfold State.busDo
  try dsimp -iota only
  repeat' first
    | with_reducible refine State.busWrite_keeps ?_ _ _ _ _ _
    | with_reducible refine KeepsP.fst (State.busWrite_keeps ?_ _ _ _ _ _)
    | with_reducible refine State.busWrite_keepsP (by assumption) ?_
    | with_reducible refine State.busError_keeps ?_ _ _ _
    | with_reducible refine State.dspSteps_keeps ?_
    | with_reducible refine Keeps.ite ?_ ?_
    | simp -iota -zeta -proj only [KeepsP.pair]
    | with_reducible refine KeepsP.ite ?_ ?_
    | with_reducible refine KeepsP.fst (KeepsP.ite ?_ ?_)
    | with_reducible assumption
    | with_reducible exact Keeps.refl _
    | split
    | dsimp only

theorem State.busGet_keeps {u s : State} (h : Keeps u s) (a1) (a2) (a3) (a4) : Keeps u (State.busGet s a1 a2 a3 a4) := by
  unfold State.busGet
  try dsimp -iota only
  repeat' first
    | with_reducible refine State.busRead_keeps ?_ _ _ _ _
    | with_reducible refine KeepsP.fst (State.busRead_keeps ?_ _ _ _ _)
    | with_reducible refine State.busRead_keepsP (by assumption) ?_
    | with_reducible refine State.busError_keeps ?_ _ _ _
    | with_reducible refine Keeps.ite ?_ ?_
    | simp -iota -zeta -proj only [KeepsP.pair]
    | with_reducible refine KeepsP.ite ?_ ?_
    | with_reducible refine KeepsP.fst (KeepsP.ite ?_ ?_)
    | with_reducible assumption
    | with_reducible exact Keeps.refl _
    | split
    | dsimp only

theorem State.busAccess_keeps {u s : State} (h : Keeps u s) (a1) (a2) (a3) (a4) : Keeps u (State.busAccess s a1 a2 a3 a4) := by
  unfold State.busAccess
  try dsimp -iota only
  repeat' first
    | with_reducible refine State.busDo_keeps ?_ _ _ _ _ _
    | with_reducible refine State.busGet_keeps ?_ _ _ _ _
    | with_reducible refine Keeps.ite ?_ ?_
    | with_reducible assumption
    | with_reducible exact Keeps.refl _
    | split
    | dsimp only

end Sys2Proof.Machine
end

