-- ==== Sys2Proof/Laws/KeepsSvc.lean ====
section
/-! SUPPORT. What every operation keeps, one lemma an operation. The service port, updates, the walk, status datagrams and the epoch. -/

namespace Sys2Proof.Machine

set_option linter.unusedVariables false
set_option Elab.async false

theorem State.svcSend_keeps {u s : State} (h : Keeps u s) (a1) (a2) (a3) : Keeps u (State.svcSend s a1 a2 a3) := by
  unfold State.svcSend
  try dsimp -iota only
  repeat' first
    | with_reducible refine State.emit_keeps ?_ _
    | with_reducible refine Keeps.ite ?_ ?_
    | simp only [Keeps.lit]
    | with_reducible assumption
    | with_reducible exact Keeps.refl _
    | split
    | dsimp only

theorem State.svcAck_keeps {u s : State} (h : Keeps u s) : Keeps u (State.svcAck s) := by
  unfold State.svcAck
  try dsimp -iota only
  repeat' first
    | with_reducible refine State.svcSend_keeps ?_ _ _ _
    | with_reducible assumption
    | with_reducible exact Keeps.refl _

theorem State.svcPump_keeps {u s : State} (h : Keeps u s) (a1) : Keeps u (State.svcPump s a1) := by
  induction a1 generalizing s
  · exact h
  · rename_i ih
    unfold State.svcPump
    try dsimp -iota only
    repeat' first
      | with_reducible refine ih ?_
      | with_reducible refine State.set_keeps ?_ _ _
      | with_reducible refine State.svcSend_keeps ?_ _ _ _
      | with_reducible refine Keeps.ite ?_ ?_
      | simp only [Keeps.lit]
      | with_reducible assumption
      | with_reducible exact Keeps.refl _
      | split
      | dsimp only

theorem State.svcRespond_keeps {u s : State} (h : Keeps u s) (a1) (a2) (a3) (a4) : Keeps u (State.svcRespond s a1 a2 a3 a4) := by
  unfold State.svcRespond
  try dsimp -iota only
  repeat' first
    | with_reducible refine State.inc_keeps ?_ _ _
    | with_reducible refine State.svcPump_keeps ?_ _
    | with_reducible refine Keeps.ite ?_ ?_
    | simp only [Keeps.lit]
    | with_reducible assumption
    | with_reducible exact Keeps.refl _
    | split
    | dsimp only

theorem State.svcRespondLate_keeps {u s : State} (h : Keeps u s) (a1) (a2) (a3) (a4) : Keeps u (State.svcRespondLate s a1 a2 a3 a4) := by
  unfold State.svcRespondLate
  try dsimp -iota only
  repeat' first
    | with_reducible refine State.inc_keeps ?_ _ _
    | with_reducible refine State.svcRespond_keeps ?_ _ _ _ _
    | with_reducible refine Keeps.ite ?_ ?_
    | simp only [Keeps.lit]
    | with_reducible assumption
    | with_reducible exact Keeps.refl _
    | split
    | dsimp only

theorem State.svcDown_keeps {u s : State} (h : Keeps u s) : Keeps u (State.svcDown s) := by
  unfold State.svcDown
  try dsimp -iota only
  repeat' first
    | with_reducible refine State.set_keeps ?_ _ _
    | with_reducible refine State.incSat_keeps ?_ _ _
    | with_reducible refine State.sessClose_keeps ?_ _
    | with_reducible refine State.svcLink_keeps ?_ _
    | with_reducible refine State.svcClear_keeps ?_
    | with_reducible refine Keeps.ite ?_ ?_
    | with_reducible assumption
    | with_reducible exact Keeps.refl _
    | split
    | dsimp only

theorem State.svcAcked_keeps {u s : State} (h : Keeps u s) (a1) : Keeps u (State.svcAcked s a1) := by
  unfold State.svcAcked
  try dsimp -iota only
  repeat' first
    | with_reducible refine State.set_keeps ?_ _ _
    | with_reducible refine State.sessClose_keeps ?_ _
    | with_reducible refine State.softCause_keeps ?_ _
    | with_reducible refine Keeps.ite ?_ ?_
    | with_reducible refine Keeps.foldl ?_ _ _ (fun _ _ => ?_)
    | simp only [Keeps.lit]
    | with_reducible assumption
    | with_reducible exact Keeps.refl _
    | split
    | dsimp only

theorem State.svcAckIn_keeps {u s : State} (h : Keeps u s) (a1) : Keeps u (State.svcAckIn s a1) := by
  unfold State.svcAckIn
  try dsimp -iota only
  repeat' first
    | with_reducible refine State.set_keeps ?_ _ _
    | with_reducible refine State.svcPump_keeps ?_ _
    | with_reducible refine State.svcAcked_keeps ?_ _
    | with_reducible refine Keeps.ite ?_ ?_
    | simp only [Keeps.lit]
    | with_reducible assumption
    | with_reducible exact Keeps.refl _
    | split
    | dsimp only

theorem State.svcHelloIn_keeps {u s : State} (h : Keeps u s) (a1) : Keeps u (State.svcHelloIn s a1) := by
  unfold State.svcHelloIn
  try dsimp -iota only
  repeat' first
    | with_reducible refine State.set_keeps ?_ _ _
    | with_reducible refine State.sessClose_keeps ?_ _
    | with_reducible refine State.svcLink_keeps ?_ _
    | with_reducible refine State.svcClear_keeps ?_
    | with_reducible refine State.svcAck_keeps ?_
    | with_reducible refine Keeps.ite ?_ ?_
    | simp only [Keeps.lit]
    | with_reducible assumption
    | with_reducible exact Keeps.refl _
    | split
    | dsimp only

theorem State.svcDataIn_keeps {u s : State} (h : Keeps u s) (a1) : Keeps u (State.svcDataIn s a1) := by
  unfold State.svcDataIn
  try dsimp -iota only
  repeat' first
    | with_reducible refine State.set_keeps ?_ _ _
    | with_reducible refine State.svcAck_keeps ?_
    | with_reducible refine State.svcAckIn_keeps ?_ _
    | with_reducible refine Keeps.ite ?_ ?_
    | simp only [Keeps.lit]
    | with_reducible assumption
    | with_reducible exact Keeps.refl _
    | split
    | dsimp only

theorem State.svcAckOnly_keeps {u s : State} (h : Keeps u s) (a1) : Keeps u (State.svcAckOnly s a1) := by
  unfold State.svcAckOnly
  try dsimp -iota only
  repeat' first
    | with_reducible refine State.svcAck_keeps ?_
    | with_reducible refine State.svcAckIn_keeps ?_ _
    | with_reducible refine Keeps.ite ?_ ?_
    | with_reducible assumption
    | with_reducible exact Keeps.refl _
    | split
    | dsimp only

theorem State.svcFrameIn_keeps {u s : State} (h : Keeps u s) (a1) : Keeps u (State.svcFrameIn s a1) := by
  unfold State.svcFrameIn
  try dsimp -iota only
  repeat' first
    | with_reducible refine State.svcLink_keeps ?_ _
    | with_reducible refine State.svcHelloIn_keeps ?_ _
    | with_reducible refine State.svcDataIn_keeps ?_ _
    | with_reducible refine State.svcAckOnly_keeps ?_ _
    | with_reducible refine Keeps.ite ?_ ?_
    | simp only [Keeps.lit]
    | with_reducible assumption
    | with_reducible exact Keeps.refl _
    | split
    | dsimp only

theorem State.svcReceive_keeps {u s : State} (h : Keeps u s) (a1) (a2) : Keeps u (State.svcReceive s a1 a2) := by
  unfold State.svcReceive
  try dsimp -iota only
  repeat' first
    | with_reducible refine State.incSat_keeps ?_ _ _
    | with_reducible refine State.attnUpdate_keeps ?_
    | with_reducible refine State.svcFrameIn_keeps ?_ _
    | with_reducible refine Keeps.ite ?_ ?_
    | with_reducible assumption
    | with_reducible exact Keeps.refl _
    | split
    | dsimp only

theorem State.svcAckDelay_keeps {u s : State} (h : Keeps u s) : Keeps u (State.svcAckDelay s) := by
  unfold State.svcAckDelay
  try dsimp -iota only
  repeat' first
    | with_reducible refine State.svcAck_keeps ?_
    | with_reducible refine Keeps.ite ?_ ?_
    | with_reducible assumption
    | with_reducible exact Keeps.refl _
    | split
    | dsimp only

theorem State.svcResend_keeps {u s : State} (h : Keeps u s) (a1) : Keeps u (State.svcResend s a1) := by
  induction a1 generalizing s
  · exact h
  · rename_i ih
    unfold State.svcResend
    try dsimp -iota only
    repeat' first
      | with_reducible refine ih ?_
      | with_reducible refine State.incSat_keeps ?_ _ _
      | with_reducible refine State.svcSend_keeps ?_ _ _ _
      | with_reducible refine Keeps.ite ?_ ?_
      | with_reducible assumption
      | with_reducible exact Keeps.refl _
      | split
      | dsimp only

theorem State.svcExpiry_keeps {u s : State} (h : Keeps u s) : Keeps u (State.svcExpiry s) := by
  unfold State.svcExpiry
  try dsimp -iota only
  repeat' first
    | with_reducible refine State.attnUpdate_keeps ?_
    | with_reducible refine State.svcDown_keeps ?_
    | with_reducible refine State.svcResend_keeps ?_ _
    | with_reducible refine Keeps.ite ?_ ?_
    | simp only [Keeps.lit]
    | with_reducible assumption
    | with_reducible exact Keeps.refl _
    | split
    | dsimp only

theorem State.svcRateOut_keeps {u s : State} (h : Keeps u s) : Keeps u (State.svcRateOut s) := by
  unfold State.svcRateOut
  try dsimp -iota only
  repeat' first
    | with_reducible refine State.attnUpdate_keeps ?_
    | with_reducible refine State.svcDown_keeps ?_
    | with_reducible refine Keeps.ite ?_ ?_
    | with_reducible assumption
    | with_reducible exact Keeps.refl _
    | split
    | dsimp only

theorem State.setJrnl_keeps {u s : State} (h : Keeps u s) (a1) : Keeps u (State.setJrnl s a1) := by
  unfold State.setJrnl
  try dsimp -iota only
  repeat' first
    | simp only [Keeps.lit]
    | with_reducible assumption
    | with_reducible exact Keeps.refl _

theorem State.runFirst_keeps {u s : State} (h : Keeps u s) (a1) : Keeps u (State.runFirst s a1) := by
  unfold State.runFirst
  try dsimp -iota only
  repeat' first
    | with_reducible refine State.jrnlRun_keeps ?_
    | with_reducible refine Keeps.ite ?_ ?_
    | with_reducible assumption
    | with_reducible exact Keeps.refl _
    | split
    | dsimp only

theorem State.pageTaken_keeps {u s : State} (h : Keeps u s) (a1) : Keeps u (State.pageTaken s a1) := by
  unfold State.pageTaken
  try dsimp -iota only
  repeat' first
    | with_reducible refine State.jrnlRun_keeps ?_
    | with_reducible refine State.setJrnl_keeps ?_ _
    | with_reducible refine State.runFirst_keeps ?_ _
    | with_reducible refine Keeps.ite ?_ ?_
    | simp only [Keeps.lit]
    | with_reducible assumption
    | with_reducible exact Keeps.refl _
    | split
    | dsimp only

theorem State.pageFail_keeps {u s : State} (h : Keeps u s) (a1) : Keeps u (State.pageFail s a1) := by
  unfold State.pageFail
  try dsimp -iota only
  repeat' first
    | with_reducible refine State.jrnlPut_keeps ?_ _ _ _
    | with_reducible refine State.jrnlErase_keeps ?_ _ _
    | with_reducible refine State.setJrnl_keeps ?_ _
    | with_reducible refine Keeps.ite ?_ ?_
    | simp only [Keeps.lit]
    | with_reducible assumption
    | with_reducible exact Keeps.refl _
    | split
    | dsimp only

theorem State.pagesPut_keeps {u s : State} (h : Keeps u s) (a1) (a2) (a3) (a4) : KeepsP u (State.pagesPut s a1 a2 a3 a4) := by
  induction a2 generalizing s a1 a3 a4
  · exact h
  · rename_i ih
    have ihP := fun (s t : State) v a1 a3 a4 (h : Keeps u s) (e : State.pagesPut s a1 _ a3 a4 = (t, v)) => KeepsP.of_eq (ih h a1 a3 a4) e
    unfold State.pagesPut
    try dsimp -iota only
    repeat' first
      | with_reducible refine ih ?_ _ _ _
      | with_reducible refine KeepsP.fst (ih ?_ _ _ _)
      | with_reducible refine ihP _ _ _ _ _ _ ?_ (by assumption)
      | with_reducible refine State.flashPut_keeps ?_ _ _
      | with_reducible refine State.pageTaken_keeps ?_ _
      | with_reducible refine State.pageFail_keeps ?_ _
      | with_reducible refine Keeps.ite ?_ ?_
      | simp -iota -zeta -proj only [KeepsP.pair]
      | with_reducible refine KeepsP.ite ?_ ?_
      | with_reducible assumption
      | with_reducible exact Keeps.refl _
      | split
      | dsimp only
theorem State.pagesPut_keepsP {u s t : State} {v} {a1} {a2} {a3} {a4} (e : State.pagesPut s a1 a2 a3 a4 = (t, v)) (h : Keeps u s) : Keeps u t :=
  KeepsP.of_eq (State.pagesPut_keeps h a1 a2 a3 a4) e

theorem State.pagesCut_keeps {u s : State} (h : Keeps u s) (a1) (a2) (a3) : Keeps u (State.pagesCut s a1 a2 a3) := by
  induction a1 generalizing s a2 a3
  · exact h
  · rename_i ih
    unfold State.pagesCut
    try dsimp -iota only
    repeat' first
      | with_reducible refine ih ?_ _ _
      | with_reducible refine State.flashPut_keeps ?_ _ _
      | with_reducible refine Keeps.ite ?_ ?_
      | with_reducible assumption
      | with_reducible exact Keeps.refl _
      | split
      | dsimp only

theorem State.buildParts_keeps {u s : State} (h : Keeps u s) (a1) : KeepsP u (State.buildParts s a1) := by
  induction a1 generalizing s
  · exact h
  · rename_i ih
    have ihP := fun (s t : State) v (h : Keeps u s) (e : State.buildParts s _ = (t, v)) => KeepsP.of_eq (ih h) e
    unfold State.buildParts
    try dsimp -iota only
    repeat' first
      | with_reducible refine ih ?_
      | with_reducible refine KeepsP.fst (ih ?_ )
      | with_reducible refine ihP _ _ _ ?_ (by assumption)
      | with_reducible refine State.flashPut_keeps ?_ _ _
      | with_reducible refine Keeps.ite ?_ ?_
      | simp -iota -zeta -proj only [KeepsP.pair]
      | with_reducible refine KeepsP.ite ?_ ?_
      | with_reducible assumption
      | with_reducible exact Keeps.refl _
      | split
      | dsimp only
theorem State.buildParts_keepsP {u s t : State} {v} {a1} (e : State.buildParts s a1 = (t, v)) (h : Keeps u s) : Keeps u t :=
  KeepsP.of_eq (State.buildParts_keeps h a1) e

theorem State.unstage_keeps {u s : State} (h : Keeps u s) (a1) (a2) : Keeps u (State.unstage s a1 a2) := by
  unfold State.unstage
  try dsimp -iota only
  repeat' first
    | with_reducible refine State.jrnlPut_keeps ?_ _ _ _
    | with_reducible refine Keeps.ite ?_ ?_
    | with_reducible refine Keeps.foldl ?_ _ _ (fun _ _ => ?_)
    | with_reducible assumption
    | with_reducible exact Keeps.refl _
    | split
    | dsimp only

theorem State.commitBuild_keeps {u s : State} (h : Keeps u s) (a1) (a2) (a3) : KeepsP u (State.commitBuild s a1 a2 a3) := by
  unfold State.commitBuild
  try dsimp -iota only
  repeat' first
    | with_reducible refine State.each_keeps ?_ _ _ (fun _ _ => ?_)
    | with_reducible refine State.jrnlErase_keeps ?_ _ _
    | with_reducible refine State.jrnlRun_keeps ?_
    | with_reducible refine State.buildParts_keeps ?_ _
    | with_reducible refine KeepsP.fst (State.buildParts_keeps ?_ _)
    | with_reducible refine State.buildParts_keepsP (by assumption) ?_
    | with_reducible refine State.unstage_keeps ?_ _ _
    | with_reducible refine Keeps.ite ?_ ?_
    | simp -iota -zeta -proj only [KeepsP.pair]
    | with_reducible refine KeepsP.ite ?_ ?_
    | with_reducible refine KeepsP.fst (KeepsP.ite ?_ ?_)
    | with_reducible assumption
    | with_reducible exact Keeps.refl _
    | split
    | dsimp only
theorem State.commitBuild_keepsP {u s t : State} {v} {a1} {a2} {a3} (e : State.commitBuild s a1 a2 a3 = (t, v)) (h : Keeps u s) : Keeps u t :=
  KeepsP.of_eq (State.commitBuild_keeps h a1 a2 a3) e

theorem State.walkFail_keeps {u s : State} (h : Keeps u s) (a1) : Keeps u (State.walkFail s a1) := by
  unfold State.walkFail
  try dsimp -iota only
  repeat' first
    | with_reducible refine State.walkFault_keeps ?_ _ _
    | with_reducible assumption
    | with_reducible exact Keeps.refl _

theorem State.walkNext_keeps {u s : State} (h : Keeps u s) (a1) (a2) : Keeps u (State.walkNext s a1 a2) := by
  unfold State.walkNext
  try dsimp -iota only
  repeat' first
    | with_reducible refine State.inc_keeps ?_ _ _
    | with_reducible refine Keeps.ite ?_ ?_
    | simp only [Keeps.lit]
    | with_reducible assumption
    | with_reducible exact Keeps.refl _
    | split
    | dsimp only

theorem State.walkPut_keeps {u s : State} (h : Keeps u s) (a1) : KeepsP u (State.walkPut s a1) := by
  induction a1 generalizing s
  · exact h
  · rename_i ih
    have ihP := fun (s t : State) v (h : Keeps u s) (e : State.walkPut s _ = (t, v)) => KeepsP.of_eq (ih h) e
    unfold State.walkPut
    try dsimp -iota only
    repeat' first
      | with_reducible refine ih ?_
      | with_reducible refine KeepsP.fst (ih ?_ )
      | with_reducible refine ihP _ _ _ ?_ (by assumption)
      | with_reducible refine State.busWrite_keeps ?_ _ _ _ _ _
      | with_reducible refine KeepsP.fst (State.busWrite_keeps ?_ _ _ _ _ _)
      | with_reducible refine State.busWrite_keepsP (by assumption) ?_
      | with_reducible refine State.dspSteps_keeps ?_
      | with_reducible refine Keeps.ite ?_ ?_
      | simp -iota -zeta -proj only [KeepsP.pair]
      | with_reducible refine KeepsP.ite ?_ ?_
      | with_reducible refine KeepsP.fst (KeepsP.ite ?_ ?_)
      | with_reducible assumption
      | with_reducible exact Keeps.refl _
      | split
      | dsimp only
theorem State.walkPut_keepsP {u s t : State} {v} {a1} (e : State.walkPut s a1 = (t, v)) (h : Keeps u s) : Keeps u t :=
  KeepsP.of_eq (State.walkPut_keeps h a1) e

theorem State.walkWrites_keeps {u s : State} (h : Keeps u s) (a1) (a2) (a3) (a4) : Keeps u (State.walkWrites s a1 a2 a3 a4) := by
  unfold State.walkWrites
  try dsimp -iota only
  repeat' first
    | with_reducible refine State.walkFail_keeps ?_ _
    | with_reducible refine State.walkNext_keeps ?_ _ _
    | with_reducible refine State.walkPut_keeps ?_ _
    | with_reducible refine KeepsP.fst (State.walkPut_keeps ?_ _)
    | with_reducible refine State.walkPut_keepsP (by assumption) ?_
    | with_reducible refine Keeps.ite ?_ ?_
    | simp -iota -zeta -proj only [KeepsP.pair]
    | with_reducible refine KeepsP.ite ?_ ?_
    | with_reducible refine KeepsP.fst (KeepsP.ite ?_ ?_)
    | with_reducible assumption
    | with_reducible exact Keeps.refl _
    | split
    | dsimp only

theorem walkActWr32_keeps {u s : State} (h : Keeps u s) (a0) : Keeps u (walkActWr32 a0 s) := by
  unfold walkActWr32
  try dsimp -iota only
  repeat' first
    | with_reducible refine State.walkFail_keeps ?_ _
    | with_reducible refine State.walkWrites_keeps ?_ _ _ _ _
    | with_reducible refine Keeps.ite ?_ ?_
    | with_reducible assumption
    | with_reducible exact Keeps.refl _
    | split
    | dsimp only

theorem walkActFill_keeps {u s : State} (h : Keeps u s) (a0) : Keeps u (walkActFill a0 s) := by
  unfold walkActFill
  try dsimp -iota only
  repeat' first
    | with_reducible refine State.walkFail_keeps ?_ _
    | with_reducible refine State.walkWrites_keeps ?_ _ _ _ _
    | with_reducible refine Keeps.ite ?_ ?_
    | with_reducible assumption
    | with_reducible exact Keeps.refl _
    | split
    | dsimp only

theorem walkActLoad_keeps {u s : State} (h : Keeps u s) (a0) : Keeps u (walkActLoad a0 s) := by
  unfold walkActLoad
  try dsimp -iota only
  repeat' first
    | with_reducible refine State.walkFail_keeps ?_ _
    | with_reducible refine State.walkWrites_keeps ?_ _ _ _ _
    | with_reducible refine Keeps.ite ?_ ?_
    | with_reducible assumption
    | with_reducible exact Keeps.refl _
    | split
    | dsimp only

theorem walkActWait_keeps {u s : State} (h : Keeps u s) (a0) : Keeps u (walkActWait a0 s) := by
  unfold walkActWait
  try dsimp -iota only
  repeat' first
    | with_reducible refine State.busRead_keeps ?_ _ _ _ _
    | with_reducible refine KeepsP.fst (State.busRead_keeps ?_ _ _ _ _)
    | with_reducible refine State.busRead_keepsP (by assumption) ?_
    | with_reducible refine State.walkFail_keeps ?_ _
    | with_reducible refine State.walkNext_keeps ?_ _ _
    | with_reducible refine Keeps.ite ?_ ?_
    | simp -iota -zeta -proj only [KeepsP.pair]
    | with_reducible refine KeepsP.ite ?_ ?_
    | with_reducible refine KeepsP.fst (KeepsP.ite ?_ ?_)
    | simp only [Keeps.lit]
    | with_reducible assumption
    | with_reducible exact Keeps.refl _
    | split
    | dsimp only

theorem State.walkGet_keeps {u s : State} (h : Keeps u s) (a1) : KeepsP u (State.walkGet s a1) := by
  induction a1 generalizing s
  · exact h
  · rename_i ih
    have ihP := fun (s t : State) v (h : Keeps u s) (e : State.walkGet s _ = (t, v)) => KeepsP.of_eq (ih h) e
    unfold State.walkGet
    try dsimp -iota only
    repeat' first
      | with_reducible refine ih ?_
      | with_reducible refine KeepsP.fst (ih ?_ )
      | with_reducible refine ihP _ _ _ ?_ (by assumption)
      | with_reducible refine State.busRead_keeps ?_ _ _ _ _
      | with_reducible refine KeepsP.fst (State.busRead_keeps ?_ _ _ _ _)
      | with_reducible refine State.busRead_keepsP (by assumption) ?_
      | with_reducible refine Keeps.ite ?_ ?_
      | simp -iota -zeta -proj only [KeepsP.pair]
      | with_reducible refine KeepsP.ite ?_ ?_
      | with_reducible refine KeepsP.fst (KeepsP.ite ?_ ?_)
      | with_reducible assumption
      | with_reducible exact Keeps.refl _
      | split
      | dsimp only
theorem State.walkGet_keepsP {u s t : State} {v} {a1} (e : State.walkGet s a1 = (t, v)) (h : Keeps u s) : Keeps u t :=
  KeepsP.of_eq (State.walkGet_keeps h a1) e

theorem State.walkRange_keeps {u s : State} (h : Keeps u s) (a1) (a2) (a3) : KeepsP u (State.walkRange s a1 a2 a3) := by
  unfold State.walkRange
  try dsimp -iota only
  repeat' first
    | with_reducible refine State.walkGet_keeps ?_ _
    | with_reducible refine KeepsP.fst (State.walkGet_keeps ?_ _)
    | with_reducible refine State.walkGet_keepsP (by assumption) ?_
    | with_reducible refine Keeps.ite ?_ ?_
    | simp -iota -zeta -proj only [KeepsP.pair]
    | with_reducible refine KeepsP.ite ?_ ?_
    | with_reducible refine KeepsP.fst (KeepsP.ite ?_ ?_)
    | with_reducible assumption
    | with_reducible exact Keeps.refl _
    | split
    | dsimp only
theorem State.walkRange_keepsP {u s t : State} {v} {a1} {a2} {a3} (e : State.walkRange s a1 a2 a3 = (t, v)) (h : Keeps u s) : Keeps u t :=
  KeepsP.of_eq (State.walkRange_keeps h a1 a2 a3) e

theorem walkActCheck_keeps {u s : State} (h : Keeps u s) (a0) : Keeps u (walkActCheck a0 s) := by
  unfold walkActCheck
  try dsimp -iota only
  repeat' first
    | with_reducible refine State.walkFail_keeps ?_ _
    | with_reducible refine State.walkNext_keeps ?_ _ _
    | with_reducible refine State.walkRange_keeps ?_ _ _ _
    | with_reducible refine KeepsP.fst (State.walkRange_keeps ?_ _ _ _)
    | with_reducible refine State.walkRange_keepsP (by assumption) ?_
    | with_reducible refine Keeps.ite ?_ ?_
    | simp -iota -zeta -proj only [KeepsP.pair]
    | with_reducible refine KeepsP.ite ?_ ?_
    | with_reducible refine KeepsP.fst (KeepsP.ite ?_ ?_)
    | with_reducible assumption
    | with_reducible exact Keeps.refl _
    | split
    | dsimp only

theorem walkActEnd_keeps {u s : State} (h : Keeps u s) (a0) : Keeps u (walkActEnd a0 s) := by
  unfold walkActEnd
  try dsimp -iota only
  repeat' first
    | with_reducible refine State.walkDone_keeps ?_
    | with_reducible assumption
    | with_reducible exact Keeps.refl _

theorem State.walkStep_keeps {u s : State} (h : Keeps u s) (a1) (a2) (h2 : ∀ x0 s, Keeps s (a2 x0 s)) : Keeps u (State.walkStep s a1 a2) := by
  unfold State.walkStep
  try dsimp -iota only
  repeat' first
    | with_reducible refine State.walkFail_keeps ?_ _
    | with_reducible refine Keeps.trans ?_ (h2 _ _)
    | with_reducible refine Keeps.ite ?_ ?_
    | with_reducible assumption
    | with_reducible exact Keeps.refl _
    | split
    | dsimp only

theorem State.walkWaitEnd_keeps {u s : State} (h : Keeps u s) : Keeps u (State.walkWaitEnd s) := by
  unfold State.walkWaitEnd
  try dsimp -iota only
  repeat' first
    | with_reducible refine State.walkFail_keeps ?_ _
    | with_reducible refine State.walkNext_keeps ?_ _ _
    | with_reducible refine Keeps.ite ?_ ?_
    | with_reducible assumption
    | with_reducible exact Keeps.refl _
    | split
    | dsimp only

theorem State.walkTimeout_keeps {u s : State} (h : Keeps u s) : Keeps u (State.walkTimeout s) := by
  unfold State.walkTimeout
  try dsimp -iota only
  repeat' first
    | with_reducible refine State.walkFail_keeps ?_ _
    | with_reducible refine Keeps.ite ?_ ?_
    | with_reducible assumption
    | with_reducible exact Keeps.refl _
    | split
    | dsimp only

theorem State.svcTake_keeps {u s : State} (h : Keeps u s) (a1) (a2) (h2 : ∀ x0 x1 s, KeepsP s (a2 x0 x1 s)) : Keeps u (State.svcTake s a1 a2) := by
  unfold State.svcTake
  try dsimp -iota only
  repeat' first
    | with_reducible refine State.attnUpdate_keeps ?_
    | with_reducible refine State.svcRespond_keeps ?_ _ _ _ _
    | with_reducible refine KeepsP.trans ?_ (h2 _ _ _)
    | with_reducible refine Keeps.trans ?_ (KeepsP.of_eq (h2 _ _ _) (by assumption))
    | with_reducible refine Keeps.ite ?_ ?_
    | simp only [Keeps.lit]
    | with_reducible assumption
    | with_reducible exact Keeps.refl _
    | split
    | dsimp only

theorem State.says_keeps {u s : State} (h : Keeps u s) (a1) : KeepsP u (State.says s a1) := by
  unfold State.says
  try dsimp -iota only
  repeat' first
    | simp -iota -zeta -proj only [KeepsP.pair]
    | with_reducible assumption
    | with_reducible exact Keeps.refl _
theorem State.says_keepsP {u s t : State} {v} {a1} (e : State.says s a1 = (t, v)) (h : Keeps u s) : Keeps u t :=
  KeepsP.of_eq (State.says_keeps h a1) e

theorem State.svcGate_keeps {u s : State} (h : Keeps u s) (a1) (a2) (a3) (a4) (h4 : ∀ s, KeepsP s (a4 s)) : KeepsP u (State.svcGate s a1 a2 a3 a4) := by
  unfold State.svcGate
  try dsimp -iota only
  repeat' first
    | with_reducible refine State.says_keeps ?_ _
    | with_reducible refine KeepsP.fst (State.says_keeps ?_ _)
    | with_reducible refine State.says_keepsP (by assumption) ?_
    | with_reducible refine KeepsP.trans ?_ (h4 _)
    | with_reducible refine Keeps.trans ?_ (KeepsP.of_eq (h4 _) (by assumption))
    | with_reducible refine Keeps.ite ?_ ?_
    | simp -iota -zeta -proj only [KeepsP.pair]
    | with_reducible refine KeepsP.ite ?_ ?_
    | with_reducible refine KeepsP.fst (KeepsP.ite ?_ ?_)
    | with_reducible assumption
    | with_reducible exact Keeps.refl _
    | split
    | dsimp only
theorem State.svcGate_keepsP {u s t : State} {v} {a1} {a2} {a3} {a4} (e : State.svcGate s a1 a2 a3 a4 = (t, v)) (h : Keeps u s) (h4 : ∀ s, KeepsP s (a4 s)) : Keeps u t :=
  KeepsP.of_eq (State.svcGate_keeps h a1 a2 a3 a4 h4) e

theorem svcActHello_keeps {u s : State} (h : Keeps u s) (a0) (a1) : KeepsP u (svcActHello a0 a1 s) := by
  unfold svcActHello
  try dsimp -iota only
  repeat' first
    | with_reducible refine State.set_keeps ?_ _ _
    | with_reducible refine State.orF_keeps ?_ _ _
    | with_reducible refine State.svcLink_keeps ?_ _
    | with_reducible refine State.says_keeps ?_ _
    | with_reducible refine KeepsP.fst (State.says_keeps ?_ _)
    | with_reducible refine State.says_keepsP (by assumption) ?_
    | with_reducible refine Keeps.ite ?_ ?_
    | simp -iota -zeta -proj only [KeepsP.pair]
    | with_reducible refine KeepsP.ite ?_ ?_
    | with_reducible refine KeepsP.fst (KeepsP.ite ?_ ?_)
    | simp only [Keeps.lit]
    | with_reducible assumption
    | with_reducible exact Keeps.refl _
    | split
    | dsimp only
theorem svcActHello_keepsP {u s t : State} {v} {a0} {a1} (e : svcActHello a0 a1 s = (t, v)) (h : Keeps u s) : Keeps u t :=
  KeepsP.of_eq (svcActHello_keeps h a0 a1) e

theorem State.runJournalled_keeps {u s : State} (h : Keeps u s) : Keeps u (State.runJournalled s) := by
  unfold State.runJournalled
  try dsimp -iota only
  repeat' first
    | with_reducible refine State.attnUpdate_keeps ?_
    | with_reducible refine State.jrnlRun_keeps ?_
    | with_reducible refine Keeps.ite ?_ ?_
    | with_reducible assumption
    | with_reducible exact Keeps.refl _
    | split
    | dsimp only

theorem svcActClose_keeps {u s : State} (h : Keeps u s) (a0) (a1) : KeepsP u (svcActClose a0 a1 s) := by
  unfold svcActClose
  try dsimp -iota only
  repeat' first
    | with_reducible refine State.says_keeps ?_ _
    | with_reducible refine KeepsP.fst (State.says_keeps ?_ _)
    | with_reducible refine State.says_keepsP (by assumption) ?_
    | with_reducible refine State.svcGate_keeps ?_ _ _ _ _ (fun _ => ?_)
    | with_reducible refine KeepsP.fst (State.svcGate_keeps ?_ _ _ _ _ (fun _ => ?_))
    | with_reducible refine State.svcGate_keepsP (by assumption) ?_ (fun _ => ?_)
    | with_reducible refine State.runJournalled_keeps ?_
    | with_reducible refine Keeps.ite ?_ ?_
    | simp -iota -zeta -proj only [KeepsP.pair]
    | with_reducible refine KeepsP.ite ?_ ?_
    | with_reducible refine KeepsP.fst (KeepsP.ite ?_ ?_)
    | simp only [Keeps.lit]
    | with_reducible assumption
    | with_reducible exact Keeps.refl _
    | split
    | dsimp only
theorem svcActClose_keepsP {u s t : State} {v} {a0} {a1} (e : svcActClose a0 a1 s = (t, v)) (h : Keeps u s) : Keeps u t :=
  KeepsP.of_eq (svcActClose_keeps h a0 a1) e

theorem svcActChallenge_keeps {u s : State} (h : Keeps u s) (a0) (a1) : KeepsP u (svcActChallenge a0 a1 s) := by
  unfold svcActChallenge
  try dsimp -iota only
  repeat' first
    | with_reducible refine State.draw_keeps ?_ _
    | with_reducible refine KeepsP.fst (State.draw_keeps ?_ _)
    | with_reducible refine State.draw_keepsP (by assumption) ?_
    | with_reducible refine State.cusRegs_keeps ?_
    | with_reducible refine State.cusStore_keeps ?_ _
    | with_reducible refine State.says_keeps ?_ _
    | with_reducible refine KeepsP.fst (State.says_keeps ?_ _)
    | with_reducible refine State.says_keepsP (by assumption) ?_
    | with_reducible refine State.svcGate_keeps ?_ _ _ _ _ (fun _ => ?_)
    | with_reducible refine KeepsP.fst (State.svcGate_keeps ?_ _ _ _ _ (fun _ => ?_))
    | with_reducible refine State.svcGate_keepsP (by assumption) ?_ (fun _ => ?_)
    | with_reducible refine Keeps.ite ?_ ?_
    | simp -iota -zeta -proj only [KeepsP.pair]
    | with_reducible refine KeepsP.ite ?_ ?_
    | with_reducible refine KeepsP.fst (KeepsP.ite ?_ ?_)
    | simp only [Keeps.lit]
    | with_reducible assumption
    | with_reducible exact Keeps.refl _
    | split
    | dsimp only
theorem svcActChallenge_keepsP {u s t : State} {v} {a0} {a1} (e : svcActChallenge a0 a1 s = (t, v)) (h : Keeps u s) : Keeps u t :=
  KeepsP.of_eq (svcActChallenge_keeps h a0 a1) e

theorem State.noteAuth_keeps {u s : State} (h : Keeps u s) (a1) : Keeps u (State.noteAuth s a1) := by
  unfold State.noteAuth
  try dsimp -iota only
  repeat' first
    | with_reducible refine State.note_keeps ?_ _ _ _ _ _
    | with_reducible refine Keeps.ite ?_ ?_
    | with_reducible assumption
    | with_reducible exact Keeps.refl _
    | split
    | dsimp only

theorem State.authTry_keeps {u s : State} (h : Keeps u s) (a1) (a2) : KeepsP u (State.authTry s a1 a2) := by
  unfold State.authTry
  try dsimp -iota only
  repeat' first
    | with_reducible refine State.cusRegs_keeps ?_
    | with_reducible refine State.cusStore_keeps ?_ _
    | with_reducible refine State.backoff_keeps ?_
    | with_reducible refine State.says_keeps ?_ _
    | with_reducible refine KeepsP.fst (State.says_keeps ?_ _)
    | with_reducible refine State.says_keepsP (by assumption) ?_
    | with_reducible refine State.noteAuth_keeps ?_ _
    | with_reducible refine Keeps.ite ?_ ?_
    | simp -iota -zeta -proj only [KeepsP.pair]
    | with_reducible refine KeepsP.ite ?_ ?_
    | with_reducible refine KeepsP.fst (KeepsP.ite ?_ ?_)
    | simp only [Keeps.lit]
    | with_reducible assumption
    | with_reducible exact Keeps.refl _
    | split
    | dsimp only
theorem State.authTry_keepsP {u s t : State} {v} {a1} {a2} (e : State.authTry s a1 a2 = (t, v)) (h : Keeps u s) : Keeps u t :=
  KeepsP.of_eq (State.authTry_keeps h a1 a2) e

theorem svcActAuth_keeps {u s : State} (h : Keeps u s) (a0) (a1) : KeepsP u (svcActAuth a0 a1 s) := by
  unfold svcActAuth
  try dsimp -iota only
  repeat' first
    | with_reducible refine State.says_keeps ?_ _
    | with_reducible refine KeepsP.fst (State.says_keeps ?_ _)
    | with_reducible refine State.says_keepsP (by assumption) ?_
    | with_reducible refine State.svcGate_keeps ?_ _ _ _ _ (fun _ => ?_)
    | with_reducible refine KeepsP.fst (State.svcGate_keeps ?_ _ _ _ _ (fun _ => ?_))
    | with_reducible refine State.svcGate_keepsP (by assumption) ?_ (fun _ => ?_)
    | with_reducible refine State.authTry_keeps ?_ _ _
    | with_reducible refine KeepsP.fst (State.authTry_keeps ?_ _ _)
    | with_reducible refine State.authTry_keepsP (by assumption) ?_
    | with_reducible refine Keeps.ite ?_ ?_
    | simp -iota -zeta -proj only [KeepsP.pair]
    | with_reducible refine KeepsP.ite ?_ ?_
    | with_reducible refine KeepsP.fst (KeepsP.ite ?_ ?_)
    | with_reducible assumption
    | with_reducible exact Keeps.refl _
    | split
    | dsimp only
theorem svcActAuth_keepsP {u s t : State} {v} {a0} {a1} (e : svcActAuth a0 a1 s = (t, v)) (h : Keeps u s) : Keeps u t :=
  KeepsP.of_eq (svcActAuth_keeps h a0 a1) e

theorem State.sealGo_keeps {u s : State} (h : Keeps u s) (a1) (a2) (a3) : Keeps u (State.sealGo s a1 a2 a3) := by
  unfold State.sealGo
  try dsimp -iota only
  repeat' first
    | with_reducible refine State.note_keeps ?_ _ _ _ _ _
    | with_reducible refine State.winPermit_keeps ?_
    | with_reducible refine State.cusStore_keeps ?_ _
    | with_reducible refine State.sessEnd_keeps ?_ _
    | with_reducible refine State.backoff_keeps ?_
    | with_reducible refine Keeps.ite ?_ ?_
    | simp only [Keeps.lit]
    | with_reducible assumption
    | with_reducible exact Keeps.refl _
    | split
    | dsimp only

theorem svcActSeal_keeps {u s : State} (h : Keeps u s) (a0) (a1) : KeepsP u (svcActSeal a0 a1 s) := by
  unfold svcActSeal
  try dsimp -iota only
  repeat' first
    | with_reducible refine State.says_keeps ?_ _
    | with_reducible refine KeepsP.fst (State.says_keeps ?_ _)
    | with_reducible refine State.says_keepsP (by assumption) ?_
    | with_reducible refine State.svcGate_keeps ?_ _ _ _ _ (fun _ => ?_)
    | with_reducible refine KeepsP.fst (State.svcGate_keeps ?_ _ _ _ _ (fun _ => ?_))
    | with_reducible refine State.svcGate_keepsP (by assumption) ?_ (fun _ => ?_)
    | with_reducible refine State.sealGo_keeps ?_ _ _ _
    | with_reducible refine Keeps.ite ?_ ?_
    | simp -iota -zeta -proj only [KeepsP.pair]
    | with_reducible refine KeepsP.ite ?_ ?_
    | with_reducible refine KeepsP.fst (KeepsP.ite ?_ ?_)
    | with_reducible assumption
    | with_reducible exact Keeps.refl _
    | split
    | dsimp only
theorem svcActSeal_keepsP {u s t : State} {v} {a0} {a1} (e : svcActSeal a0 a1 s = (t, v)) (h : Keeps u s) : Keeps u t :=
  KeepsP.of_eq (svcActSeal_keeps h a0 a1) e

theorem svcActUnseal_keeps {u s : State} (h : Keeps u s) (a0) (a1) : KeepsP u (svcActUnseal a0 a1 s) := by
  unfold svcActUnseal
  try dsimp -iota only
  repeat' first
    | with_reducible refine State.set_keeps ?_ _ _
    | with_reducible refine State.note_keeps ?_ _ _ _ _ _
    | with_reducible refine State.winPermit_keeps ?_
    | with_reducible refine State.cusStore_keeps ?_ _
    | with_reducible refine State.says_keeps ?_ _
    | with_reducible refine KeepsP.fst (State.says_keeps ?_ _)
    | with_reducible refine State.says_keepsP (by assumption) ?_
    | with_reducible refine State.svcGate_keeps ?_ _ _ _ _ (fun _ => ?_)
    | with_reducible refine KeepsP.fst (State.svcGate_keeps ?_ _ _ _ _ (fun _ => ?_))
    | with_reducible refine State.svcGate_keepsP (by assumption) ?_ (fun _ => ?_)
    | with_reducible refine Keeps.ite ?_ ?_
    | simp -iota -zeta -proj only [KeepsP.pair]
    | with_reducible refine KeepsP.ite ?_ ?_
    | with_reducible refine KeepsP.fst (KeepsP.ite ?_ ?_)
    | simp only [Keeps.lit]
    | with_reducible assumption
    | with_reducible exact Keeps.refl _
    | split
    | dsimp only
theorem svcActUnseal_keepsP {u s t : State} {v} {a0} {a1} (e : svcActUnseal a0 a1 s = (t, v)) (h : Keeps u s) : Keeps u t :=
  KeepsP.of_eq (svcActUnseal_keeps h a0 a1) e

theorem svcActClearFsw_keeps {u s : State} (h : Keeps u s) (a0) (a1) : KeepsP u (svcActClearFsw a0 a1 s) := by
  unfold svcActClearFsw
  try dsimp -iota only
  repeat' first
    | with_reducible refine State.note_keeps ?_ _ _ _ _ _
    | with_reducible refine State.custFswClr_keeps ?_
    | with_reducible refine State.svcGate_keeps ?_ _ _ _ _ (fun _ => ?_)
    | with_reducible refine KeepsP.fst (State.svcGate_keeps ?_ _ _ _ _ (fun _ => ?_))
    | with_reducible refine State.svcGate_keepsP (by assumption) ?_ (fun _ => ?_)
    | with_reducible refine Keeps.ite ?_ ?_
    | simp -iota -zeta -proj only [KeepsP.pair]
    | with_reducible refine KeepsP.ite ?_ ?_
    | with_reducible refine KeepsP.fst (KeepsP.ite ?_ ?_)
    | with_reducible assumption
    | with_reducible exact Keeps.refl _
    | split
    | dsimp only
theorem svcActClearFsw_keepsP {u s t : State} {v} {a0} {a1} (e : svcActClearFsw a0 a1 s = (t, v)) (h : Keeps u s) : Keeps u t :=
  KeepsP.of_eq (svcActClearFsw_keeps h a0 a1) e

theorem State.svcWords_keeps {u s : State} (h : Keeps u s) (a1) (a2) : KeepsP u (State.svcWords s a1 a2) := by
  induction a1 generalizing s a2
  · exact h
  · rename_i ih
    have ihP := fun (s t : State) v a2 (h : Keeps u s) (e : State.svcWords s _ a2 = (t, v)) => KeepsP.of_eq (ih h a2) e
    unfold State.svcWords
    try dsimp -iota only
    repeat' first
      | with_reducible refine ih ?_ _
      | with_reducible refine KeepsP.fst (ih ?_ _)
      | with_reducible refine ihP _ _ _ _ ?_ (by assumption)
      | with_reducible refine State.busRead_keeps ?_ _ _ _ _
      | with_reducible refine KeepsP.fst (State.busRead_keeps ?_ _ _ _ _)
      | with_reducible refine State.busRead_keepsP (by assumption) ?_
      | with_reducible refine Keeps.ite ?_ ?_
      | simp -iota -zeta -proj only [KeepsP.pair]
      | with_reducible refine KeepsP.ite ?_ ?_
      | with_reducible refine KeepsP.fst (KeepsP.ite ?_ ?_)
      | with_reducible assumption
      | with_reducible exact Keeps.refl _
      | split
      | dsimp only
theorem State.svcWords_keepsP {u s t : State} {v} {a1} {a2} (e : State.svcWords s a1 a2 = (t, v)) (h : Keeps u s) : Keeps u t :=
  KeepsP.of_eq (State.svcWords_keeps h a1 a2) e

theorem svcActReadReg_keeps {u s : State} (h : Keeps u s) (a0) (a1) : KeepsP u (svcActReadReg a0 a1 s) := by
  unfold svcActReadReg
  try dsimp -iota only
  repeat' first
    | with_reducible refine State.says_keeps ?_ _
    | with_reducible refine KeepsP.fst (State.says_keeps ?_ _)
    | with_reducible refine State.says_keepsP (by assumption) ?_
    | with_reducible refine State.svcGate_keeps ?_ _ _ _ _ (fun _ => ?_)
    | with_reducible refine KeepsP.fst (State.svcGate_keeps ?_ _ _ _ _ (fun _ => ?_))
    | with_reducible refine State.svcGate_keepsP (by assumption) ?_ (fun _ => ?_)
    | with_reducible refine State.svcWords_keeps ?_ _ _
    | with_reducible refine KeepsP.fst (State.svcWords_keeps ?_ _ _)
    | with_reducible refine State.svcWords_keepsP (by assumption) ?_
    | with_reducible refine Keeps.ite ?_ ?_
    | simp -iota -zeta -proj only [KeepsP.pair]
    | with_reducible refine KeepsP.ite ?_ ?_
    | with_reducible refine KeepsP.fst (KeepsP.ite ?_ ?_)
    | with_reducible assumption
    | with_reducible exact Keeps.refl _
    | split
    | dsimp only
theorem svcActReadReg_keepsP {u s t : State} {v} {a0} {a1} (e : svcActReadReg a0 a1 s = (t, v)) (h : Keeps u s) : Keeps u t :=
  KeepsP.of_eq (svcActReadReg_keeps h a0 a1) e

theorem svcActWriteReg_keeps {u s : State} (h : Keeps u s) (a0) (a1) : KeepsP u (svcActWriteReg a0 a1 s) := by
  unfold svcActWriteReg
  try dsimp -iota only
  repeat' first
    | with_reducible refine State.busWrite_keeps ?_ _ _ _ _ _
    | with_reducible refine KeepsP.fst (State.busWrite_keeps ?_ _ _ _ _ _)
    | with_reducible refine State.busWrite_keepsP (by assumption) ?_
    | with_reducible refine State.dspSteps_keeps ?_
    | with_reducible refine State.says_keeps ?_ _
    | with_reducible refine KeepsP.fst (State.says_keeps ?_ _)
    | with_reducible refine State.says_keepsP (by assumption) ?_
    | with_reducible refine State.svcGate_keeps ?_ _ _ _ _ (fun _ => ?_)
    | with_reducible refine KeepsP.fst (State.svcGate_keeps ?_ _ _ _ _ (fun _ => ?_))
    | with_reducible refine State.svcGate_keepsP (by assumption) ?_ (fun _ => ?_)
    | with_reducible refine Keeps.ite ?_ ?_
    | simp -iota -zeta -proj only [KeepsP.pair]
    | with_reducible refine KeepsP.ite ?_ ?_
    | with_reducible refine KeepsP.fst (KeepsP.ite ?_ ?_)
    | with_reducible assumption
    | with_reducible exact Keeps.refl _
    | split
    | dsimp only
theorem svcActWriteReg_keepsP {u s t : State} {v} {a0} {a1} (e : svcActWriteReg a0 a1 s = (t, v)) (h : Keeps u s) : Keeps u t :=
  KeepsP.of_eq (svcActWriteReg_keeps h a0 a1) e

theorem State.slotTouch_keeps {u s : State} (h : Keeps u s) (a1) : Keeps u (State.slotTouch s a1) := by
  unfold State.slotTouch
  try dsimp -iota only
  repeat' first
    | with_reducible refine State.each_keeps ?_ _ _ (fun _ _ => ?_)
    | with_reducible refine State.memRead_keeps ?_ _ _ _
    | with_reducible refine KeepsP.fst (State.memRead_keeps ?_ _ _ _)
    | with_reducible refine State.memRead_keepsP (by assumption) ?_
    | with_reducible refine Keeps.ite ?_ ?_
    | simp -iota -zeta -proj only [KeepsP.pair]
    | with_reducible refine KeepsP.ite ?_ ?_
    | with_reducible refine KeepsP.fst (KeepsP.ite ?_ ?_)
    | with_reducible assumption
    | with_reducible exact Keeps.refl _
    | split
    | dsimp only

theorem svcActReadUmber_keeps {u s : State} (h : Keeps u s) (a0) (a1) : KeepsP u (svcActReadUmber a0 a1 s) := by
  unfold svcActReadUmber
  try dsimp -iota only
  repeat' first
    | with_reducible refine State.svcGate_keeps ?_ _ _ _ _ (fun _ => ?_)
    | with_reducible refine KeepsP.fst (State.svcGate_keeps ?_ _ _ _ _ (fun _ => ?_))
    | with_reducible refine State.svcGate_keepsP (by assumption) ?_ (fun _ => ?_)
    | with_reducible refine State.slotTouch_keeps ?_ _
    | with_reducible refine Keeps.ite ?_ ?_
    | simp -iota -zeta -proj only [KeepsP.pair]
    | with_reducible refine KeepsP.ite ?_ ?_
    | with_reducible refine KeepsP.fst (KeepsP.ite ?_ ?_)
    | with_reducible refine Keeps.foldl ?_ _ _ (fun _ _ => ?_)
    | with_reducible refine KeepsP.foldl ?_ _ _ (fun _ _ => ?_)
    | with_reducible assumption
    | with_reducible exact Keeps.refl _
    | split
    | dsimp only
theorem svcActReadUmber_keepsP {u s t : State} {v} {a0} {a1} (e : svcActReadUmber a0 a1 s = (t, v)) (h : Keeps u s) : Keeps u t :=
  KeepsP.of_eq (svcActReadUmber_keeps h a0 a1) e

theorem State.updFails_keeps {u s : State} (h : Keeps u s) (a1) (a2) (a3) : KeepsP u (State.updFails s a1 a2 a3) := by
  unfold State.updFails
  try dsimp -iota only
  repeat' first
    | with_reducible refine State.note_keeps ?_ _ _ _ _ _
    | with_reducible refine State.says_keeps ?_ _
    | with_reducible refine KeepsP.fst (State.says_keeps ?_ _)
    | with_reducible refine State.says_keepsP (by assumption) ?_
    | simp -iota -zeta -proj only [KeepsP.pair]
    | with_reducible assumption
    | with_reducible exact Keeps.refl _
theorem State.updFails_keepsP {u s t : State} {v} {a1} {a2} {a3} (e : State.updFails s a1 a2 a3 = (t, v)) (h : Keeps u s) : Keeps u t :=
  KeepsP.of_eq (State.updFails_keeps h a1 a2 a3) e

theorem State.putPages_keeps {u s : State} (h : Keeps u s) (a1) (a2) (a3) : KeepsP u (State.putPages s a1 a2 a3) := by
  unfold State.putPages
  try dsimp -iota only
  repeat' first
    | with_reducible refine State.runFirst_keeps ?_ _
    | with_reducible refine State.pagesPut_keeps ?_ _ _ _ _
    | with_reducible refine KeepsP.fst (State.pagesPut_keeps ?_ _ _ _ _)
    | with_reducible refine State.pagesPut_keepsP (by assumption) ?_
    | with_reducible refine Keeps.ite ?_ ?_
    | simp -iota -zeta -proj only [KeepsP.pair]
    | with_reducible refine KeepsP.ite ?_ ?_
    | with_reducible refine KeepsP.fst (KeepsP.ite ?_ ?_)
    | with_reducible assumption
    | with_reducible exact Keeps.refl _
    | split
    | dsimp only
theorem State.putPages_keepsP {u s t : State} {v} {a1} {a2} {a3} (e : State.putPages s a1 a2 a3 = (t, v)) (h : Keeps u s) : Keeps u t :=
  KeepsP.of_eq (State.putPages_keeps h a1 a2 a3) e

theorem State.putOpen_keeps {u s : State} (h : Keeps u s) (a1) (a2) : Keeps u (State.putOpen s a1 a2) := by
  unfold State.putOpen
  try dsimp -iota only
  repeat' first
    | with_reducible refine State.each_keeps ?_ _ _ (fun _ _ => ?_)
    | with_reducible refine State.jrnlPut_keeps ?_ _ _ _
    | with_reducible refine State.jrnlErase_keeps ?_ _ _
    | with_reducible refine Keeps.ite ?_ ?_
    | with_reducible assumption
    | with_reducible exact Keeps.refl _
    | split
    | dsimp only

theorem svcActPut_keeps {u s : State} (h : Keeps u s) (a0) (a1) (a2) : KeepsP u (svcActPut a0 a1 a2 s) := by
  unfold svcActPut
  try dsimp -iota only
  repeat' first
    | with_reducible refine State.svcGate_keeps ?_ _ _ _ _ (fun _ => ?_)
    | with_reducible refine KeepsP.fst (State.svcGate_keeps ?_ _ _ _ _ (fun _ => ?_))
    | with_reducible refine State.svcGate_keepsP (by assumption) ?_ (fun _ => ?_)
    | with_reducible refine State.updFails_keeps ?_ _ _ _
    | with_reducible refine KeepsP.fst (State.updFails_keeps ?_ _ _ _)
    | with_reducible refine State.updFails_keepsP (by assumption) ?_
    | with_reducible refine State.putOpen_keeps ?_ _ _
    | with_reducible refine Keeps.ite ?_ ?_
    | simp -iota -zeta -proj only [KeepsP.pair]
    | with_reducible refine KeepsP.ite ?_ ?_
    | with_reducible refine KeepsP.fst (KeepsP.ite ?_ ?_)
    | simp only [Keeps.lit]
    | with_reducible assumption
    | with_reducible exact Keeps.refl _
    | split
    | dsimp only
theorem svcActPut_keepsP {u s t : State} {v} {a0} {a1} {a2} (e : svcActPut a0 a1 a2 s = (t, v)) (h : Keeps u s) : Keeps u t :=
  KeepsP.of_eq (svcActPut_keeps h a0 a1 a2) e

theorem State.putRest_keeps {u s : State} (h : Keeps u s) (a1) (a2) : Keeps u (State.putRest s a1 a2) := by
  unfold State.putRest
  try dsimp -iota only
  repeat' first
    | with_reducible refine State.note_keeps ?_ _ _ _ _ _
    | with_reducible refine State.svcRespondLate_keeps ?_ _ _ _ _
    | with_reducible refine State.pagesCut_keeps ?_ _ _ _
    | with_reducible refine State.putPages_keeps ?_ _ _ _
    | with_reducible refine KeepsP.fst (State.putPages_keeps ?_ _ _ _)
    | with_reducible refine State.putPages_keepsP (by assumption) ?_
    | with_reducible refine Keeps.ite ?_ ?_
    | simp -iota -zeta -proj only [KeepsP.pair]
    | with_reducible refine KeepsP.ite ?_ ?_
    | with_reducible refine KeepsP.fst (KeepsP.ite ?_ ?_)
    | simp only [Keeps.lit]
    | with_reducible assumption
    | with_reducible exact Keeps.refl _
    | split
    | dsimp only

theorem svcActQuery_keeps {u s : State} (h : Keeps u s) (a0) (a1) : KeepsP u (svcActQuery a0 a1 s) := by
  unfold svcActQuery
  try dsimp -iota only
  repeat' first
    | with_reducible refine State.says_keeps ?_ _
    | with_reducible refine KeepsP.fst (State.says_keeps ?_ _)
    | with_reducible refine State.says_keepsP (by assumption) ?_
    | with_reducible refine State.svcGate_keeps ?_ _ _ _ _ (fun _ => ?_)
    | with_reducible refine KeepsP.fst (State.svcGate_keeps ?_ _ _ _ _ (fun _ => ?_))
    | with_reducible refine State.svcGate_keepsP (by assumption) ?_ (fun _ => ?_)
    | with_reducible refine Keeps.ite ?_ ?_
    | simp -iota -zeta -proj only [KeepsP.pair]
    | with_reducible refine KeepsP.ite ?_ ?_
    | with_reducible refine KeepsP.fst (KeepsP.ite ?_ ?_)
    | with_reducible refine Keeps.foldl ?_ _ _ (fun _ _ => ?_)
    | with_reducible refine KeepsP.foldl ?_ _ _ (fun _ _ => ?_)
    | with_reducible assumption
    | with_reducible exact Keeps.refl _
    | split
    | dsimp only
theorem svcActQuery_keepsP {u s t : State} {v} {a0} {a1} (e : svcActQuery a0 a1 s = (t, v)) (h : Keeps u s) : Keeps u t :=
  KeepsP.of_eq (svcActQuery_keeps h a0 a1) e

theorem svcActAbandon_keeps {u s : State} (h : Keeps u s) (a0) (a1) : KeepsP u (svcActAbandon a0 a1 s) := by
  unfold svcActAbandon
  try dsimp -iota only
  repeat' first
    | with_reducible refine State.jrnlPut_keeps ?_ _ _ _
    | with_reducible refine State.says_keeps ?_ _
    | with_reducible refine KeepsP.fst (State.says_keeps ?_ _)
    | with_reducible refine State.says_keepsP (by assumption) ?_
    | with_reducible refine State.svcGate_keeps ?_ _ _ _ _ (fun _ => ?_)
    | with_reducible refine KeepsP.fst (State.svcGate_keeps ?_ _ _ _ _ (fun _ => ?_))
    | with_reducible refine State.svcGate_keepsP (by assumption) ?_ (fun _ => ?_)
    | with_reducible refine State.updFails_keeps ?_ _ _ _
    | with_reducible refine KeepsP.fst (State.updFails_keeps ?_ _ _ _)
    | with_reducible refine State.updFails_keepsP (by assumption) ?_
    | with_reducible refine Keeps.ite ?_ ?_
    | simp -iota -zeta -proj only [KeepsP.pair]
    | with_reducible refine KeepsP.ite ?_ ?_
    | with_reducible refine KeepsP.fst (KeepsP.ite ?_ ?_)
    | with_reducible assumption
    | with_reducible exact Keeps.refl _
    | split
    | dsimp only
theorem svcActAbandon_keepsP {u s t : State} {v} {a0} {a1} (e : svcActAbandon a0 a1 s = (t, v)) (h : Keeps u s) : Keeps u t :=
  KeepsP.of_eq (svcActAbandon_keeps h a0 a1) e

theorem svcActCommit_keeps {u s : State} (h : Keeps u s) (a0) (a1) (a2) : KeepsP u (svcActCommit a0 a1 a2 s) := by
  unfold svcActCommit
  try dsimp -iota only
  repeat' first
    | with_reducible refine State.set_keeps ?_ _ _
    | with_reducible refine State.orF_keeps ?_ _ _
    | with_reducible refine State.commitBuild_keeps ?_ _ _ _
    | with_reducible refine KeepsP.fst (State.commitBuild_keeps ?_ _ _ _)
    | with_reducible refine State.commitBuild_keepsP (by assumption) ?_
    | with_reducible refine State.svcGate_keeps ?_ _ _ _ _ (fun _ => ?_)
    | with_reducible refine KeepsP.fst (State.svcGate_keeps ?_ _ _ _ _ (fun _ => ?_))
    | with_reducible refine State.svcGate_keepsP (by assumption) ?_ (fun _ => ?_)
    | with_reducible refine State.updFails_keeps ?_ _ _ _
    | with_reducible refine KeepsP.fst (State.updFails_keeps ?_ _ _ _)
    | with_reducible refine State.updFails_keepsP (by assumption) ?_
    | with_reducible refine Keeps.ite ?_ ?_
    | simp -iota -zeta -proj only [KeepsP.pair]
    | with_reducible refine KeepsP.ite ?_ ?_
    | with_reducible refine KeepsP.fst (KeepsP.ite ?_ ?_)
    | simp only [Keeps.lit]
    | with_reducible assumption
    | with_reducible exact Keeps.refl _
    | split
    | dsimp only
theorem svcActCommit_keepsP {u s t : State} {v} {a0} {a1} {a2} (e : svcActCommit a0 a1 a2 s = (t, v)) (h : Keeps u s) : Keeps u t :=
  KeepsP.of_eq (svcActCommit_keeps h a0 a1 a2) e

theorem State.commitRest_keeps {u s : State} (h : Keeps u s) (a1) (a2) : Keeps u (State.commitRest s a1 a2) := by
  unfold State.commitRest
  try dsimp -iota only
  repeat' first
    | with_reducible refine State.cusStore_keeps ?_ _
    | with_reducible refine State.updShow_keeps ?_
    | with_reducible refine State.jrnlPut_keeps ?_ _ _ _
    | with_reducible refine State.noteUpdate_keeps ?_ _ _
    | with_reducible refine State.svcRespondLate_keeps ?_ _ _ _ _
    | with_reducible refine Keeps.ite ?_ ?_
    | simp only [Keeps.lit]
    | with_reducible assumption
    | with_reducible exact Keeps.refl _
    | split
    | dsimp only

theorem svcActActivate_keeps {u s : State} (h : Keeps u s) (a0) (a1) : KeepsP u (svcActActivate a0 a1 s) := by
  unfold svcActActivate
  try dsimp -iota only
  repeat' first
    | with_reducible refine State.note_keeps ?_ _ _ _ _ _
    | with_reducible refine State.jrnlPut_keeps ?_ _ _ _
    | with_reducible refine State.svcGate_keeps ?_ _ _ _ _ (fun _ => ?_)
    | with_reducible refine KeepsP.fst (State.svcGate_keeps ?_ _ _ _ _ (fun _ => ?_))
    | with_reducible refine State.svcGate_keepsP (by assumption) ?_ (fun _ => ?_)
    | with_reducible refine State.updFails_keeps ?_ _ _ _
    | with_reducible refine KeepsP.fst (State.updFails_keeps ?_ _ _ _)
    | with_reducible refine State.updFails_keepsP (by assumption) ?_
    | with_reducible refine Keeps.ite ?_ ?_
    | simp -iota -zeta -proj only [KeepsP.pair]
    | with_reducible refine KeepsP.ite ?_ ?_
    | with_reducible refine KeepsP.fst (KeepsP.ite ?_ ?_)
    | simp only [Keeps.lit]
    | with_reducible assumption
    | with_reducible exact Keeps.refl _
    | split
    | dsimp only
theorem svcActActivate_keepsP {u s t : State} {v} {a0} {a1} (e : svcActActivate a0 a1 s = (t, v)) (h : Keeps u s) : Keeps u t :=
  KeepsP.of_eq (svcActActivate_keeps h a0 a1) e

theorem State.startWaitEnd_keeps {u s : State} (h : Keeps u s) : Keeps u (State.startWaitEnd s) := by
  unfold State.startWaitEnd
  try dsimp -iota only
  repeat' first
    | with_reducible refine State.softCause_keeps ?_ _
    | with_reducible refine Keeps.ite ?_ ?_
    | simp only [Keeps.lit]
    | with_reducible assumption
    | with_reducible exact Keeps.refl _
    | split
    | dsimp only

theorem State.repairBegin_keeps {u s : State} (h : Keeps u s) (a1) (a2) (a3) (a4) : Keeps u (State.repairBegin s a1 a2 a3 a4) := by
  unfold State.repairBegin
  try dsimp -iota only
  repeat' first
    | with_reducible refine State.set_keeps ?_ _ _
    | with_reducible refine State.setB_keeps ?_ _ _
    | with_reducible refine State.orF_keeps ?_ _ _
    | with_reducible refine State.memWrite_keeps ?_ _ _ _ _
    | with_reducible refine KeepsP.fst (State.memWrite_keeps ?_ _ _ _ _)
    | with_reducible refine State.memWrite_keepsP (by assumption) ?_
    | with_reducible refine Keeps.ite ?_ ?_
    | simp -iota -zeta -proj only [KeepsP.pair]
    | with_reducible refine KeepsP.ite ?_ ?_
    | with_reducible refine KeepsP.fst (KeepsP.ite ?_ ?_)
    | simp only [Keeps.lit]
    | with_reducible assumption
    | with_reducible exact Keeps.refl _
    | split
    | dsimp only

theorem svcActRepair_keeps {u s : State} (h : Keeps u s) (a0) (a1) (a2) : KeepsP u (svcActRepair a0 a1 a2 s) := by
  unfold svcActRepair
  try dsimp -iota only
  repeat' first
    | with_reducible refine State.says_keeps ?_ _
    | with_reducible refine KeepsP.fst (State.says_keeps ?_ _)
    | with_reducible refine State.says_keepsP (by assumption) ?_
    | with_reducible refine State.svcGate_keeps ?_ _ _ _ _ (fun _ => ?_)
    | with_reducible refine KeepsP.fst (State.svcGate_keeps ?_ _ _ _ _ (fun _ => ?_))
    | with_reducible refine State.svcGate_keepsP (by assumption) ?_ (fun _ => ?_)
    | with_reducible refine State.repairBegin_keeps ?_ _ _ _ _
    | with_reducible refine Keeps.ite ?_ ?_
    | simp -iota -zeta -proj only [KeepsP.pair]
    | with_reducible refine KeepsP.ite ?_ ?_
    | with_reducible refine KeepsP.fst (KeepsP.ite ?_ ?_)
    | with_reducible assumption
    | with_reducible exact Keeps.refl _
    | split
    | dsimp only
theorem svcActRepair_keepsP {u s t : State} {v} {a0} {a1} {a2} (e : svcActRepair a0 a1 a2 s = (t, v)) (h : Keeps u s) : Keeps u t :=
  KeepsP.of_eq (svcActRepair_keeps h a0 a1 a2) e

theorem svcActRepairProc_keeps {u s : State} (h : Keeps u s) (a0) (a1) : KeepsP u (svcActRepairProc a0 a1 s) := by
  unfold svcActRepairProc
  try dsimp -iota only
  repeat' first
    | with_reducible refine State.says_keeps ?_ _
    | with_reducible refine KeepsP.fst (State.says_keeps ?_ _)
    | with_reducible refine State.says_keepsP (by assumption) ?_
    | with_reducible refine State.svcGate_keeps ?_ _ _ _ _ (fun _ => ?_)
    | with_reducible refine KeepsP.fst (State.svcGate_keeps ?_ _ _ _ _ (fun _ => ?_))
    | with_reducible refine State.svcGate_keepsP (by assumption) ?_ (fun _ => ?_)
    | with_reducible refine Keeps.ite ?_ ?_
    | simp -iota -zeta -proj only [KeepsP.pair]
    | with_reducible refine KeepsP.ite ?_ ?_
    | with_reducible refine KeepsP.fst (KeepsP.ite ?_ ?_)
    | simp only [Keeps.lit]
    | with_reducible assumption
    | with_reducible exact Keeps.refl _
    | split
    | dsimp only
theorem svcActRepairProc_keepsP {u s t : State} {v} {a0} {a1} (e : svcActRepairProc a0 a1 s = (t, v)) (h : Keeps u s) : Keeps u t :=
  KeepsP.of_eq (svcActRepairProc_keeps h a0 a1) e

theorem State.repairEnd_keeps {u s : State} (h : Keeps u s) (a1) (a2) (a3) : Keeps u (State.repairEnd s a1 a2 a3) := by
  unfold State.repairEnd
  try dsimp -iota only
  repeat' first
    | with_reducible refine State.set_keeps ?_ _ _
    | with_reducible refine State.note_keeps ?_ _ _ _ _ _
    | with_reducible refine State.svcRespondLate_keeps ?_ _ _ _ _
    | with_reducible refine Keeps.ite ?_ ?_
    | with_reducible assumption
    | with_reducible exact Keeps.refl _
    | split
    | dsimp only

theorem State.repairWalk_keeps {u s : State} (h : Keeps u s) (a1) (a2) : KeepsP u (State.repairWalk s a1 a2) := by
  induction a2 generalizing s a1
  · exact h
  · rename_i ih
    have ihP := fun (s t : State) v a1 (h : Keeps u s) (e : State.repairWalk s a1 _ = (t, v)) => KeepsP.of_eq (ih h a1) e
    unfold State.repairWalk
    try dsimp -iota only
    repeat' first
      | with_reducible refine ih ?_ _
      | with_reducible refine KeepsP.fst (ih ?_ _)
      | with_reducible refine ihP _ _ _ _ ?_ (by assumption)
      | with_reducible refine State.walkPut_keeps ?_ _
      | with_reducible refine KeepsP.fst (State.walkPut_keeps ?_ _)
      | with_reducible refine State.walkPut_keepsP (by assumption) ?_
      | with_reducible refine Keeps.ite ?_ ?_
      | simp -iota -zeta -proj only [KeepsP.pair]
      | with_reducible refine KeepsP.ite ?_ ?_
      | with_reducible refine KeepsP.fst (KeepsP.ite ?_ ?_)
      | simp only [Keeps.lit]
      | with_reducible assumption
      | with_reducible exact Keeps.refl _
      | split
      | dsimp only
theorem State.repairWalk_keepsP {u s t : State} {v} {a1} {a2} (e : State.repairWalk s a1 a2 = (t, v)) (h : Keeps u s) : Keeps u t :=
  KeepsP.of_eq (State.repairWalk_keeps h a1 a2) e

theorem State.repairRun_keeps {u s : State} (h : Keeps u s) (a1) (a2) (a3) (a4) : KeepsP u (State.repairRun s a1 a2 a3 a4) := by
  unfold State.repairRun
  try dsimp -iota only
  repeat' first
    | with_reducible refine State.repairWalk_keeps ?_ _ _
    | with_reducible refine KeepsP.fst (State.repairWalk_keeps ?_ _ _)
    | with_reducible refine State.repairWalk_keepsP (by assumption) ?_
    | with_reducible refine Keeps.ite ?_ ?_
    | simp -iota -zeta -proj only [KeepsP.pair]
    | with_reducible refine KeepsP.ite ?_ ?_
    | with_reducible refine KeepsP.fst (KeepsP.ite ?_ ?_)
    | simp only [Keeps.lit]
    | with_reducible assumption
    | with_reducible exact Keeps.refl _
    | split
    | dsimp only
theorem State.repairRun_keepsP {u s t : State} {v} {a1} {a2} {a3} {a4} (e : State.repairRun s a1 a2 a3 a4 = (t, v)) (h : Keeps u s) : Keeps u t :=
  KeepsP.of_eq (State.repairRun_keeps h a1 a2 a3 a4) e

theorem State.repairFrom_keeps {u s : State} (h : Keeps u s) (a1) (a2) : KeepsP u (State.repairFrom s a1 a2) := by
  unfold State.repairFrom
  try dsimp -iota only
  repeat' first
    | with_reducible refine State.imageRead_keeps ?_ _
    | with_reducible refine State.repairRun_keeps ?_ _ _ _ _
    | with_reducible refine KeepsP.fst (State.repairRun_keeps ?_ _ _ _ _)
    | with_reducible refine State.repairRun_keepsP (by assumption) ?_
    | with_reducible refine Keeps.ite ?_ ?_
    | simp -iota -zeta -proj only [KeepsP.pair]
    | with_reducible refine KeepsP.ite ?_ ?_
    | with_reducible refine KeepsP.fst (KeepsP.ite ?_ ?_)
    | with_reducible assumption
    | with_reducible exact Keeps.refl _
    | split
    | dsimp only
theorem State.repairFrom_keepsP {u s t : State} {v} {a1} {a2} (e : State.repairFrom s a1 a2 = (t, v)) (h : Keeps u s) : Keeps u t :=
  KeepsP.of_eq (State.repairFrom_keeps h a1 a2) e

theorem State.repairImage_keeps {u s : State} (h : Keeps u s) (a1) : KeepsP u (State.repairImage s a1) := by
  unfold State.repairImage
  try dsimp -iota only
  repeat' first
    | with_reducible refine State.note_keeps ?_ _ _ _ _ _
    | with_reducible refine State.walkNote_keeps ?_ _ _ _
    | with_reducible refine State.repairFrom_keeps ?_ _ _
    | with_reducible refine KeepsP.fst (State.repairFrom_keeps ?_ _ _)
    | with_reducible refine State.repairFrom_keepsP (by assumption) ?_
    | with_reducible refine Keeps.ite ?_ ?_
    | simp -iota -zeta -proj only [KeepsP.pair]
    | with_reducible refine KeepsP.ite ?_ ?_
    | with_reducible refine KeepsP.fst (KeepsP.ite ?_ ?_)
    | with_reducible assumption
    | with_reducible exact Keeps.refl _
    | split
    | dsimp only
theorem State.repairImage_keepsP {u s t : State} {v} {a1} (e : State.repairImage s a1 = (t, v)) (h : Keeps u s) : Keeps u t :=
  KeepsP.of_eq (State.repairImage_keeps h a1) e

theorem State.cluReset_keeps {u s : State} (h : Keeps u s) (a1) : Keeps u (State.cluReset s a1) := by
  unfold State.cluReset
  try dsimp -iota only
  repeat' first
    | with_reducible refine State.set_keeps ?_ _ _
    | with_reducible refine State.clearRegs_keeps ?_ _ _
    | with_reducible refine State.clearLatches_keeps ?_ _ _
    | with_reducible refine State.eachEng_keeps ?_ _ _ (fun _ _ => ?_)
    | with_reducible refine State.engCancel_keeps ?_ _
    | with_reducible refine State.migTimeout_keeps ?_ _
    | with_reducible refine Keeps.ite ?_ ?_
    | simp only [Keeps.lit]
    | with_reducible assumption
    | with_reducible exact Keeps.refl _
    | split
    | dsimp only

theorem State.repairCluster_keeps {u s : State} (h : Keeps u s) (a1) : Keeps u (State.repairCluster s a1) := by
  unfold State.repairCluster
  try dsimp -iota only
  repeat' first
    | with_reducible refine State.set_keeps ?_ _ _
    | with_reducible refine State.cluClock_keeps ?_ _ _
    | with_reducible refine State.repairEnd_keeps ?_ _ _ _
    | with_reducible refine State.repairImage_keeps ?_ _
    | with_reducible refine KeepsP.fst (State.repairImage_keeps ?_ _)
    | with_reducible refine State.repairImage_keepsP (by assumption) ?_
    | with_reducible refine State.cluReset_keeps ?_ _
    | with_reducible refine Keeps.ite ?_ ?_
    | simp -iota -zeta -proj only [KeepsP.pair]
    | with_reducible refine KeepsP.ite ?_ ?_
    | with_reducible refine KeepsP.fst (KeepsP.ite ?_ ?_)
    | with_reducible assumption
    | with_reducible exact Keeps.refl _
    | split
    | dsimp only

theorem State.repairGroup_keeps {u s : State} (h : Keeps u s) (a1) : Keeps u (State.repairGroup s a1) := by
  unfold State.repairGroup
  try dsimp -iota only
  repeat' first
    | with_reducible refine State.set_keeps ?_ _ _
    | with_reducible refine State.dspGroup_keeps ?_ _
    | with_reducible refine State.dspFlush_keeps ?_
    | with_reducible refine State.repairEnd_keeps ?_ _ _ _
    | with_reducible refine State.repairImage_keeps ?_ _
    | with_reducible refine KeepsP.fst (State.repairImage_keeps ?_ _)
    | with_reducible refine State.repairImage_keepsP (by assumption) ?_
    | with_reducible refine Keeps.ite ?_ ?_
    | simp -iota -zeta -proj only [KeepsP.pair]
    | with_reducible refine KeepsP.ite ?_ ?_
    | with_reducible refine KeepsP.fst (KeepsP.ite ?_ ?_)
    | with_reducible assumption
    | with_reducible exact Keeps.refl _
    | split
    | dsimp only

theorem State.chanForced_keeps {u s : State} (h : Keeps u s) (a1) : Keeps u (State.chanForced s a1) := by
  unfold State.chanForced
  try dsimp -iota only
  repeat' first
    | with_reducible refine State.engEnter_keeps ?_ _ _
    | with_reducible refine State.engCancel_keeps ?_ _
    | with_reducible refine State.assist_keeps ?_ _ _
    | with_reducible refine Keeps.ite ?_ ?_
    | simp only [Keeps.lit]
    | with_reducible assumption
    | with_reducible exact Keeps.refl _
    | split
    | dsimp only

theorem State.repairGo_keeps {u s : State} (h : Keeps u s) : Keeps u (State.repairGo s) := by
  unfold State.repairGo
  try dsimp -iota only
  repeat' first
    | with_reducible refine State.eachEng_keeps ?_ _ _ (fun _ _ => ?_)
    | with_reducible refine State.repairEnd_keeps ?_ _ _ _
    | with_reducible refine State.repairCluster_keeps ?_ _
    | with_reducible refine State.repairGroup_keeps ?_ _
    | with_reducible refine State.chanForced_keeps ?_ _
    | with_reducible refine Keeps.ite ?_ ?_
    | with_reducible refine Keeps.foldl ?_ _ _ (fun _ _ => ?_)
    | with_reducible assumption
    | with_reducible exact Keeps.refl _
    | split
    | dsimp only

theorem State.repairLate_keeps {u s : State} (h : Keeps u s) : Keeps u (State.repairLate s) := by
  unfold State.repairLate
  try dsimp -iota only
  repeat' first
    | with_reducible refine State.attnUpdate_keeps ?_
    | with_reducible refine State.repairGo_keeps ?_
    | with_reducible refine Keeps.ite ?_ ?_
    | with_reducible assumption
    | with_reducible exact Keeps.refl _
    | split
    | dsimp only

theorem State.repairAnswered_keeps {u s : State} (h : Keeps u s) : Keeps u (State.repairAnswered s) := by
  unfold State.repairAnswered
  try dsimp -iota only
  repeat' first
    | with_reducible refine State.attnUpdate_keeps ?_
    | with_reducible refine State.repairGo_keeps ?_
    | with_reducible refine Keeps.ite ?_ ?_
    | with_reducible assumption
    | with_reducible exact Keeps.refl _
    | split
    | dsimp only

theorem State.repairTested_keeps {u s : State} (h : Keeps u s) (a1) : Keeps u (State.repairTested s a1) := by
  unfold State.repairTested
  try dsimp -iota only
  repeat' first
    | with_reducible refine State.repairEnd_keeps ?_ _ _ _
    | with_reducible refine Keeps.ite ?_ ?_
    | with_reducible assumption
    | with_reducible exact Keeps.refl _
    | split
    | dsimp only

theorem State.longEnd_keeps {u s : State} (h : Keeps u s) : Keeps u (State.longEnd s) := by
  unfold State.longEnd
  try dsimp -iota only
  repeat' first
    | with_reducible refine State.attnUpdate_keeps ?_
    | with_reducible refine State.putRest_keeps ?_ _ _
    | with_reducible refine State.commitRest_keeps ?_ _ _
    | with_reducible refine Keeps.ite ?_ ?_
    | simp only [Keeps.lit]
    | with_reducible assumption
    | with_reducible exact Keeps.refl _
    | split
    | dsimp only

theorem State.stsSend_keeps {u s : State} (h : Keeps u s) (a1) (a2) (a3) (a4) (a5) (a6) (a7) : Keeps u (State.stsSend s a1 a2 a3 a4 a5 a6 a7) := by
  unfold State.stsSend
  try dsimp -iota only
  repeat' first
    | with_reducible refine State.setPort_keeps ?_ _ _
    | with_reducible refine State.emit_keeps ?_ _
    | with_reducible refine Keeps.ite ?_ ?_
    | simp only [Keeps.lit]
    | with_reducible assumption
    | with_reducible exact Keeps.refl _
    | split
    | dsimp only

theorem State.stsScheduled_keeps {u s : State} (h : Keeps u s) (a1) (a2) (a3) (a4) : Keeps u (State.stsScheduled s a1 a2 a3 a4) := by
  unfold State.stsScheduled
  try dsimp -iota only
  repeat' first
    | with_reducible refine State.stsSend_keeps ?_ _ _ _ _ _ _ _
    | with_reducible refine Keeps.ite ?_ ?_
    | with_reducible refine Keeps.foldl ?_ _ _ (fun _ _ => ?_)
    | simp only [Keeps.lit]
    | with_reducible assumption
    | with_reducible exact Keeps.refl _
    | split
    | dsimp only

theorem State.timeDatagram_keeps {u s : State} (h : Keeps u s) (a1) : Keeps u (State.timeDatagram s a1) := by
  unfold State.timeDatagram
  try dsimp -iota only
  repeat' first
    | with_reducible refine State.stsScheduled_keeps ?_ _ _ _ _
    | with_reducible refine Keeps.ite ?_ ?_
    | simp only [Keeps.lit]
    | with_reducible assumption
    | with_reducible exact Keeps.refl _
    | split
    | dsimp only

theorem State.tpNextDatagram_keeps {u s : State} (h : Keeps u s) (a1) (a2) : Keeps u (State.tpNextDatagram s a1 a2) := by
  unfold State.tpNextDatagram
  try dsimp -iota only
  repeat' first
    | with_reducible refine State.stsScheduled_keeps ?_ _ _ _ _
    | with_reducible refine Keeps.ite ?_ ?_
    | with_reducible assumption
    | with_reducible exact Keeps.refl _
    | split
    | dsimp only

theorem State.measDatagram_keeps {u s : State} (h : Keeps u s) (a1) : Keeps u (State.measDatagram s a1) := by
  unfold State.measDatagram
  try dsimp -iota only
  repeat' first
    | with_reducible refine State.measNow_keeps ?_
    | with_reducible refine State.stsScheduled_keeps ?_ _ _ _ _
    | with_reducible refine Keeps.ite ?_ ?_
    | with_reducible assumption
    | with_reducible exact Keeps.refl _
    | split
    | dsimp only

theorem State.integDatagram_keeps {u s : State} (h : Keeps u s) (a1) : Keeps u (State.integDatagram s a1) := by
  unfold State.integDatagram
  try dsimp -iota only
  repeat' first
    | with_reducible refine State.stsScheduled_keeps ?_ _ _ _ _
    | with_reducible refine Keeps.ite ?_ ?_
    | with_reducible assumption
    | with_reducible exact Keeps.refl _
    | split
    | dsimp only

theorem State.identDatagram_keeps {u s : State} (h : Keeps u s) (a1) : Keeps u (State.identDatagram s a1) := by
  unfold State.identDatagram
  try dsimp -iota only
  repeat' first
    | with_reducible refine State.stsScheduled_keeps ?_ _ _ _ _
    | with_reducible refine Keeps.ite ?_ ?_
    | with_reducible assumption
    | with_reducible exact Keeps.refl _
    | split
    | dsimp only

theorem State.umberSumDatagram_keeps {u s : State} (h : Keeps u s) (a1) : Keeps u (State.umberSumDatagram s a1) := by
  unfold State.umberSumDatagram
  try dsimp -iota only
  repeat' first
    | with_reducible refine State.stsScheduled_keeps ?_ _ _ _ _
    | with_reducible refine Keeps.ite ?_ ?_
    | simp only [Keeps.lit]
    | with_reducible assumption
    | with_reducible exact Keeps.refl _
    | split
    | dsimp only

theorem State.frameRefuse_keeps {u s : State} (h : Keeps u s) (a1) : Keeps u (State.frameRefuse s a1) := by
  unfold State.frameRefuse
  try dsimp -iota only
  repeat' first
    | with_reducible refine State.incSat_keeps ?_ _ _
    | with_reducible refine State.orF_keeps ?_ _ _
    | with_reducible assumption
    | with_reducible exact Keeps.refl _

theorem State.frameDrop_keeps {u s : State} (h : Keeps u s) (a1) : Keeps u (State.frameDrop s a1) := by
  unfold State.frameDrop
  try dsimp -iota only
  repeat' first
    | with_reducible refine State.incSat_keeps ?_ _ _
    | with_reducible assumption
    | with_reducible exact Keeps.refl _

theorem State.arpRx_keeps {u s : State} (h : Keeps u s) (a1) (a2) : Keeps u (State.arpRx s a1 a2) := by
  unfold State.arpRx
  try dsimp -iota only
  repeat' first
    | with_reducible refine State.emit_keeps ?_ _
    | with_reducible refine Keeps.ite ?_ ?_
    | with_reducible assumption
    | with_reducible exact Keeps.refl _
    | split
    | dsimp only

theorem State.nsRx_keeps {u s : State} (h : Keeps u s) (a1) (a2) : Keeps u (State.nsRx s a1 a2) := by
  unfold State.nsRx
  try dsimp -iota only
  repeat' first
    | with_reducible refine State.emit_keeps ?_ _
    | with_reducible refine Keeps.ite ?_ ?_
    | with_reducible assumption
    | with_reducible exact Keeps.refl _
    | split
    | dsimp only

theorem State.statusGet_keeps {u s : State} (h : Keeps u s) (a1) (a2) (a3) (a4) (a5) : Keeps u (State.statusGet s a1 a2 a3 a4 a5) := by
  unfold State.statusGet
  try dsimp -iota only
  repeat' first
    | with_reducible refine State.incSat_keeps ?_ _ _
    | with_reducible refine State.setPort_keeps ?_ _ _
    | with_reducible refine State.stsSend_keeps ?_ _ _ _ _ _ _ _
    | with_reducible refine State.frameRefuse_keeps ?_ _
    | with_reducible refine Keeps.ite ?_ ?_
    | with_reducible refine Keeps.foldl ?_ _ _ (fun _ _ => ?_)
    | simp only [Keeps.lit]
    | with_reducible assumption
    | with_reducible exact Keeps.refl _
    | split
    | dsimp only

theorem State.ptpTerminate_keeps {u s : State} (h : Keeps u s) (a1) (a2) (a3) (a4) : Keeps u (State.ptpTerminate s a1 a2 a3 a4) := by
  unfold State.ptpTerminate
  try dsimp -iota only
  repeat' first
    | with_reducible refine State.syncRx_keeps ?_ _ _ _
    | with_reducible refine State.followUpRx_keeps ?_ _ _
    | with_reducible refine State.announceRx_keeps ?_ _ _
    | with_reducible refine State.delayReqRx_keeps ?_ _ _ _
    | with_reducible refine State.delayRespRx_keeps ?_ _ _
    | with_reducible refine State.pdelayReqRx_keeps ?_ _ _ _ _
    | with_reducible refine State.pdelayRespRx_keeps ?_ _ _ _
    | with_reducible refine State.frameDrop_keeps ?_ _
    | with_reducible refine Keeps.ite ?_ ?_
    | with_reducible assumption
    | with_reducible exact Keeps.refl _
    | split
    | dsimp only

theorem State.framePtp_keeps {u s : State} (h : Keeps u s) (a1) (a2) (a3) (a4) (a5) (a6) : Keeps u (State.framePtp s a1 a2 a3 a4 a5 a6) := by
  unfold State.framePtp
  try dsimp -iota only
  repeat' first
    | with_reducible refine State.forward_keeps ?_ _ _ _
    | with_reducible refine State.frameRefuse_keeps ?_ _
    | with_reducible refine State.frameDrop_keeps ?_ _
    | with_reducible refine State.ptpTerminate_keeps ?_ _ _ _ _
    | with_reducible refine Keeps.ite ?_ ?_
    | simp only [Keeps.lit]
    | with_reducible assumption
    | with_reducible exact Keeps.refl _
    | split
    | dsimp only

theorem State.frameElse_keeps {u s : State} (h : Keeps u s) (a1) (a2) : Keeps u (State.frameElse s a1 a2) := by
  unfold State.frameElse
  try dsimp -iota only
  repeat' first
    | with_reducible refine State.frameRefuse_keeps ?_ _
    | with_reducible refine State.frameDrop_keeps ?_ _
    | with_reducible refine Keeps.ite ?_ ?_
    | with_reducible assumption
    | with_reducible exact Keeps.refl _
    | split
    | dsimp only

theorem State.frameRx_keeps {u s : State} (h : Keeps u s) (a1) (a2) : Keeps u (State.frameRx s a1 a2) := by
  unfold State.frameRx
  try dsimp -iota only
  repeat' first
    | with_reducible refine State.set_keeps ?_ _ _
    | with_reducible refine State.frameRefuse_keeps ?_ _
    | with_reducible refine State.frameDrop_keeps ?_ _
    | with_reducible refine State.arpRx_keeps ?_ _ _
    | with_reducible refine State.nsRx_keeps ?_ _ _
    | with_reducible refine State.statusGet_keeps ?_ _ _ _ _ _
    | with_reducible refine State.framePtp_keeps ?_ _ _ _ _ _ _
    | with_reducible refine State.frameElse_keeps ?_ _ _
    | with_reducible refine Keeps.ite ?_ ?_
    | with_reducible assumption
    | with_reducible exact Keeps.refl _
    | split
    | dsimp only

theorem State.pllEvent_keeps {u s : State} (h : Keeps u s) (a1) (h1 : ∀ s, Keeps s (a1 s)) : Keeps u (State.pllEvent s a1) := by
  unfold State.pllEvent
  try dsimp -iota only
  repeat' first
    | with_reducible refine State.each_keeps ?_ _ _ (fun _ _ => ?_)
    | with_reducible refine State.ptpConfig_keeps ?_
    | with_reducible refine State.portCut_keeps ?_ _
    | with_reducible refine State.ethStop_keeps ?_
    | with_reducible refine State.ethGo_keeps ?_
    | with_reducible refine Keeps.trans ?_ (h1 _)
    | with_reducible refine Keeps.ite ?_ ?_
    | with_reducible assumption
    | with_reducible exact Keeps.refl _
    | split
    | dsimp only

theorem State.loadDue_keeps {u s : State} (h : Keeps u s) : Keeps u (State.loadDue s) := by
  unfold State.loadDue
  try dsimp -iota only
  repeat' first
    | with_reducible refine State.timLoadApply_keeps ?_
    | with_reducible refine State.ptpMoved_keeps ?_
    | with_reducible refine Keeps.ite ?_ ?_
    | with_reducible assumption
    | with_reducible exact Keeps.refl _
    | split
    | dsimp only

theorem State.epochTick_keeps {u s : State} (h : Keeps u s) : Keeps u (State.epochTick s) := by
  unfold State.epochTick
  try dsimp -iota only
  repeat' first
    | with_reducible refine State.set2_keeps ?_ _ _ _
    | with_reducible refine State.backoffCount_keeps ?_ _ _
    | with_reducible refine Keeps.ite ?_ ?_
    | simp only [Keeps.lit]
    | with_reducible assumption
    | with_reducible exact Keeps.refl _
    | split
    | dsimp only

theorem State.linksEpoch_keeps {u s : State} (h : Keeps u s) (a1) : Keeps u (State.linksEpoch s a1) := by
  unfold State.linksEpoch
  try dsimp -iota only
  repeat' first
    | with_reducible refine State.each_keeps ?_ _ _ (fun _ _ => ?_)
    | with_reducible refine State.linkEpoch_keeps ?_ _ _
    | with_reducible refine Keeps.ite ?_ ?_
    | with_reducible assumption
    | with_reducible exact Keeps.refl _
    | split
    | dsimp only

theorem State.wakeActed_keeps {u s : State} (h : Keeps u s) : Keeps u (State.wakeActed s) := by
  unfold State.wakeActed
  try dsimp -iota only
  repeat' first
    | with_reducible refine State.wreasonAct_keeps ?_ _
    | with_reducible refine State.wreasonClear_keeps ?_
    | with_reducible refine Keeps.ite ?_ ?_
    | with_reducible assumption
    | with_reducible exact Keeps.refl _
    | split
    | dsimp only

theorem State.deviceEpoch_keeps {u s : State} (h : Keeps u s) (a1) : Keeps u (State.deviceEpoch s a1) := by
  unfold State.deviceEpoch
  try dsimp -iota only
  repeat' first
    | with_reducible refine State.each_keeps ?_ _ _ (fun _ _ => ?_)
    | with_reducible refine State.dspEpoch_keeps ?_ _
    | with_reducible refine State.cluEpoch_keeps ?_ _
    | with_reducible refine State.lateOpen_keeps ?_
    | with_reducible refine State.rtcAdvance_keeps ?_ _
    | with_reducible refine State.timEval_keeps ?_
    | with_reducible refine State.epochMarks_keeps ?_
    | with_reducible refine State.nwdogEpoch_keeps ?_
    | with_reducible refine State.supEpoch_keeps ?_ _ _
    | with_reducible refine State.loadDue_keeps ?_
    | with_reducible refine State.epochTick_keeps ?_
    | with_reducible refine State.linksEpoch_keeps ?_ _
    | with_reducible refine State.wakeActed_keeps ?_
    | with_reducible refine Keeps.ite ?_ ?_
    | with_reducible assumption
    | with_reducible exact Keeps.refl _
    | split
    | dsimp only

theorem State.rtcLatch_keeps {u s : State} (h : Keeps u s) (a1) : Keeps u (State.rtcLatch s a1) := by
  unfold State.rtcLatch
  try dsimp -iota only
  repeat' first
    | with_reducible refine State.set_keeps ?_ _ _
    | with_reducible refine State.set2_keeps ?_ _ _ _
    | with_reducible refine Keeps.ite ?_ ?_
    | simp only [Keeps.lit]
    | with_reducible assumption
    | with_reducible exact Keeps.refl _
    | split
    | dsimp only

theorem State.coreSecond_keeps {u s : State} (h : Keeps u s) (a1) : Keeps u (State.coreSecond s a1) := by
  unfold State.coreSecond
  try dsimp -iota only
  repeat' first
    | with_reducible refine State.timSecond_keeps ?_ _
    | with_reducible refine KeepsP.fst (State.timSecond_keeps ?_ _)
    | with_reducible refine State.timSecond_keepsP (by assumption) ?_
    | with_reducible refine State.itgLatch_keeps ?_ _
    | with_reducible refine State.ptpMoved_keeps ?_
    | with_reducible refine Keeps.ite ?_ ?_
    | simp -iota -zeta -proj only [KeepsP.pair]
    | with_reducible refine KeepsP.ite ?_ ?_
    | with_reducible refine KeepsP.fst (KeepsP.ite ?_ ?_)
    | with_reducible assumption
    | with_reducible exact Keeps.refl _
    | split
    | dsimp only

theorem State.deviceSecond_keeps {u s : State} (h : Keeps u s) (a1) (a2) (a3) : Keeps u (State.deviceSecond s a1 a2 a3) := by
  unfold State.deviceSecond
  try dsimp -iota only
  repeat' first
    | with_reducible refine State.attnUpdate_keeps ?_
    | with_reducible refine State.each_keeps ?_ _ _ (fun _ _ => ?_)
    | with_reducible refine State.lateOpen_keeps ?_
    | with_reducible refine State.aeludSecond_keeps ?_
    | with_reducible refine State.rtcAdvance_keeps ?_ _
    | with_reducible refine State.timEval_keeps ?_
    | with_reducible refine State.tpApply_keeps ?_ _ _
    | with_reducible refine State.clkSecond_keeps ?_ _
    | with_reducible refine State.ptpSecond_keeps ?_
    | with_reducible refine State.cusSecond_keeps ?_
    | with_reducible refine State.pllEvent_keeps ?_ _ (fun _ => ?_)
    | with_reducible refine State.rtcLatch_keeps ?_ _
    | with_reducible refine State.coreSecond_keeps ?_ _
    | with_reducible refine Keeps.ite ?_ ?_
    | with_reducible assumption
    | with_reducible exact Keeps.refl _
    | split
    | dsimp only

theorem State.tpiUse_keeps {u s : State} (h : Keeps u s) (a1) (a2) : Keeps u (State.tpiUse s a1 a2) := by
  unfold State.tpiUse
  try dsimp -iota only
  repeat' first
    | with_reducible refine State.set_keeps ?_ _ _
    | with_reducible refine State.setI_keeps ?_ _ _
    | with_reducible refine State.inc_keeps ?_ _ _
    | with_reducible refine State.timRelease_keeps ?_ _ _ _ _ _ _
    | with_reducible refine State.xdif_keeps ?_ _
    | with_reducible refine Keeps.ite ?_ ?_
    | simp only [Keeps.lit]
    | with_reducible assumption
    | with_reducible exact Keeps.refl _
    | split
    | dsimp only

theorem State.tpiEdge_keeps {u s : State} (h : Keeps u s) (a1) (a2) : Keeps u (State.tpiEdge s a1 a2) := by
  unfold State.tpiEdge
  try dsimp -iota only
  repeat' first
    | with_reducible refine State.set_keeps ?_ _ _
    | with_reducible refine State.tpiStamp_keeps ?_ _
    | with_reducible refine State.tpiUse_keeps ?_ _ _
    | with_reducible refine Keeps.ite ?_ ?_
    | with_reducible assumption
    | with_reducible exact Keeps.refl _
    | split
    | dsimp only

theorem State.tpiLoss_keeps {u s : State} (h : Keeps u s) : Keeps u (State.tpiLoss s) := by
  unfold State.tpiLoss
  try dsimp -iota only
  repeat' first
    | with_reducible refine State.set_keeps ?_ _ _
    | with_reducible refine State.xTidy_keeps ?_
    | with_reducible refine Keeps.ite ?_ ?_
    | with_reducible assumption
    | with_reducible exact Keeps.refl _
    | split
    | dsimp only

theorem State.idleOut_keeps {u s : State} (h : Keeps u s) : Keeps u (State.idleOut s) := by
  unfold State.idleOut
  try dsimp -iota only
  repeat' first
    | with_reducible refine State.attnUpdate_keeps ?_
    | with_reducible refine State.sessEnd_keeps ?_ _
    | with_reducible refine Keeps.ite ?_ ?_
    | with_reducible assumption
    | with_reducible exact Keeps.refl _
    | split
    | dsimp only

theorem State.chalOut_keeps {u s : State} (h : Keeps u s) : Keeps u (State.chalOut s) := by
  unfold State.chalOut
  try dsimp -iota only
  repeat' first
    | with_reducible refine State.cusRegs_keeps ?_
    | with_reducible refine Keeps.ite ?_ ?_
    | simp only [Keeps.lit]
    | with_reducible assumption
    | with_reducible exact Keeps.refl _
    | split
    | dsimp only

theorem State.backoffOut_keeps {u s : State} (h : Keeps u s) : Keeps u (State.backoffOut s) := by
  unfold State.backoffOut
  try dsimp -iota only
  repeat' first
    | with_reducible refine State.set_keeps ?_ _ _
    | with_reducible refine Keeps.ite ?_ ?_
    | simp only [Keeps.lit]
    | with_reducible assumption
    | with_reducible exact Keeps.refl _
    | split
    | dsimp only

theorem State.tapTake_keeps {u s : State} (h : Keeps u s) (a1) : Keeps u (State.tapTake s a1) := by
  unfold State.tapTake
  try dsimp -iota only
  repeat' first
    | simp only [Keeps.lit]
    | with_reducible assumption
    | with_reducible exact Keeps.refl _

end Sys2Proof.Machine
end

