-- ==== Sys2Proof/Laws/KeepsExec.lean ====
section
/-! SUPPORT. What every command keeps, one lemma a command. -/

namespace Sys2Proof.Machine

set_option linter.unusedVariables false
set_option Elab.async false

theorem execSlkEnable_keeps {u s t : State} {a0} {a1} {a2} {a3} (h : Keeps u s) (e : execSlkEnable a0 a1 a2 a3 s = .next t) : Keeps u t := by
  unfold execSlkEnable at e
  refine Keeps.of_next ?_ e
  repeat' first
    | with_reducible refine State.busDo_keeps ?_ _ _ _ _ _
    | with_reducible assumption
    | with_reducible exact Keeps.refl _

theorem execMarkerReceived_keeps {u s t : State} {a0} {a1} {a2} {a3} (h : Keeps u s) (e : execMarkerReceived a0 a1 a2 a3 s = .next t) : Keeps u t := by
  unfold execMarkerReceived at e
  refine Keeps.of_next ?_ e
  repeat' first
    | with_reducible refine State.linkMarker_keeps ?_ _ _ _ _
    | with_reducible assumption
    | with_reducible exact Keeps.refl _

theorem execControlWord_keeps {u s t : State} {a0} {a1} (h : Keeps u s) (e : execControlWord a0 a1 s = .next t) : Keeps u t := by
  unfold execControlWord at e
  refine Keeps.of_next ?_ e
  repeat' first
    | with_reducible refine State.linkWord_keeps ?_ _ _
    | with_reducible assumption
    | with_reducible exact Keeps.refl _

theorem execClkFault_keeps {u s t : State} {a0} (h : Keeps u s) (e : execClkFault a0 s = .next t) : Keeps u t := by
  unfold execClkFault at e
  refine Keeps.of_next ?_ e
  repeat' first
    | with_reducible refine State.linkClk_keeps ?_ _
    | with_reducible assumption
    | with_reducible exact Keeps.refl _

theorem execMarkFault_keeps {u s t : State} {a0} (h : Keeps u s) (e : execMarkFault a0 s = .next t) : Keeps u t := by
  unfold execMarkFault at e
  refine Keeps.of_next ?_ e
  repeat' first
    | with_reducible refine State.linkMark_keeps ?_ _
    | with_reducible assumption
    | with_reducible exact Keeps.refl _

theorem execStuckFault_keeps {u s t : State} {a0} {a1} (h : Keeps u s) (e : execStuckFault a0 a1 s = .next t) : Keeps u t := by
  unfold execStuckFault at e
  refine Keeps.of_next ?_ e
  repeat' first
    | with_reducible refine State.linkStuck_keeps ?_ _ _
    | with_reducible assumption
    | with_reducible exact Keeps.refl _

theorem execSlipFault_keeps {u s t : State} {a0} {a1} (h : Keeps u s) (e : execSlipFault a0 a1 s = .next t) : Keeps u t := by
  unfold execSlipFault at e
  refine Keeps.of_next ?_ e
  repeat' first
    | with_reducible refine State.linkSlip_keeps ?_ _ _
    | with_reducible assumption
    | with_reducible exact Keeps.refl _

theorem execFaultEpisodeEnd_keeps {u s t : State} {a0} (h : Keeps u s) (e : execFaultEpisodeEnd a0 s = .next t) : Keeps u t := by
  unfold execFaultEpisodeEnd at e
  refine Keeps.of_next ?_ e
  repeat' first
    | with_reducible refine State.linkEpisodeEnd_keeps ?_ _
    | with_reducible assumption
    | with_reducible exact Keeps.refl _

theorem execAgcUpdate_keeps {u s t : State} {a0} (h : Keeps u s) (e : execAgcUpdate a0 s = .next t) : Keeps u t := by
  unfold execAgcUpdate at e
  refine Keeps.of_next ?_ e
  repeat' first
    | with_reducible refine State.linkAgc_keeps ?_ _
    | with_reducible assumption
    | with_reducible exact Keeps.refl _

theorem execGbaseWrite_keeps {u s t : State} {a0} {a1} {a2} (h : Keeps u s) (e : execGbaseWrite a0 a1 a2 s = .next t) : Keeps u t := by
  unfold execGbaseWrite at e
  refine Keeps.of_next ?_ e
  repeat' first
    | with_reducible refine State.busDo_keeps ?_ _ _ _ _ _
    | with_reducible assumption
    | with_reducible exact Keeps.refl _

theorem execGbaseValidTimer_keeps {u s t : State} {a0} (h : Keeps u s) (e : execGbaseValidTimer a0 s = .next t) : Keeps u t := by
  unfold execGbaseValidTimer at e
  refine Keeps.of_next ?_ e
  repeat' first
    | with_reducible refine State.linkLearned_keeps ?_ _
    | with_reducible assumption
    | with_reducible exact Keeps.refl _

theorem execFecSlot_keeps {u s t : State} {a0} (h : Keeps u s) (e : execFecSlot a0 s = .next t) : Keeps u t := by
  unfold execFecSlot at e
  refine Keeps.of_next ?_ e
  repeat' first
    | with_reducible refine State.fecSlot_keeps ?_ _
    | with_reducible assumption
    | with_reducible exact Keeps.refl _

theorem execFecSeqGo_keeps {u s t : State} {a0} {a1} {a2} (h : Keeps u s) (e : execFecSeqGo a0 a1 a2 s = .next t) : Keeps u t := by
  unfold execFecSeqGo at e
  refine Keeps.of_next ?_ e
  repeat' first
    | with_reducible refine State.busDo_keeps ?_ _ _ _ _ _
    | with_reducible assumption
    | with_reducible exact Keeps.refl _

theorem execFecCalDue_keeps {u s t : State} {a0} (h : Keeps u s) (e : execFecCalDue a0 s = .next t) : Keeps u t := by
  unfold execFecCalDue at e
  refine Keeps.of_next ?_ e
  repeat' first
    | with_reducible refine State.fecCal_keeps ?_ _
    | with_reducible assumption
    | with_reducible exact Keeps.refl _

theorem execFecWrite_keeps {u s t : State} {a0} {a1} {a2} (h : Keeps u s) (e : execFecWrite a0 a1 a2 s = .next t) : Keeps u t := by
  unfold execFecWrite at e
  refine Keeps.of_next ?_ e
  repeat' first
    | with_reducible refine State.fecStep_keeps ?_ _ _ _ _ (fun _ _ => ?_)
    | with_reducible refine fecActWrite_keeps ?_ _ _ _
    | with_reducible assumption
    | with_reducible exact Keeps.refl _

theorem execFecCheck_keeps {u s t : State} {a0} {a1} {a2} (h : Keeps u s) (e : execFecCheck a0 a1 a2 s = .next t) : Keeps u t := by
  unfold execFecCheck at e
  refine Keeps.of_next ?_ e
  repeat' first
    | with_reducible refine State.fecStep_keeps ?_ _ _ _ _ (fun _ _ => ?_)
    | with_reducible refine fecActCheck_keeps ?_ _ _ _
    | with_reducible assumption
    | with_reducible exact Keeps.refl _

theorem execFecWait_keeps {u s t : State} {a0} {a1} (h : Keeps u s) (e : execFecWait a0 a1 s = .next t) : Keeps u t := by
  unfold execFecWait at e
  refine Keeps.of_next ?_ e
  repeat' first
    | with_reducible refine State.fecStep_keeps ?_ _ _ _ _ (fun _ _ => ?_)
    | with_reducible refine fecActWait_keeps ?_ _ _ _
    | with_reducible assumption
    | with_reducible exact Keeps.refl _

theorem execFecWaitExpiry_keeps {u s t : State} {a0} (h : Keeps u s) (e : execFecWaitExpiry a0 s = .next t) : Keeps u t := by
  unfold execFecWaitExpiry at e
  refine Keeps.of_next ?_ e
  repeat' first
    | with_reducible refine State.fecWaitEnd_keeps ?_ _
    | with_reducible assumption
    | with_reducible exact Keeps.refl _

theorem execFecEnd_keeps {u s t : State} {a0} {a1} (h : Keeps u s) (e : execFecEnd a0 a1 s = .next t) : Keeps u t := by
  unfold execFecEnd at e
  refine Keeps.of_next ?_ e
  repeat' first
    | with_reducible refine State.fecStep_keeps ?_ _ _ _ _ (fun _ _ => ?_)
    | with_reducible refine fecActEnd_keeps ?_ _ _
    | with_reducible assumption
    | with_reducible exact Keeps.refl _

theorem execLinkClockReturn_keeps {u s t : State} {a0} {a1} (h : Keeps u s) (e : execLinkClockReturn a0 a1 s = .next t) : Keeps u t := by
  unfold execLinkClockReturn at e
  refine Keeps.of_next ?_ e
  repeat' first
    | with_reducible refine State.linkClkReturn_keeps ?_ _ _
    | with_reducible assumption
    | with_reducible exact Keeps.refl _

theorem execStuckLaneToggle_keeps {u s t : State} {a0} {a1} (h : Keeps u s) (e : execStuckLaneToggle a0 a1 s = .next t) : Keeps u t := by
  unfold execStuckLaneToggle at e
  refine Keeps.of_next ?_ e
  repeat' first
    | with_reducible refine State.linkToggle_keeps ?_ _ _
    | with_reducible assumption
    | with_reducible exact Keeps.refl _

theorem execDwellQueue_keeps {u s t : State} {a0} {a1} {a2} (h : Keeps u s) (e : execDwellQueue a0 a1 a2 s = .next t) : Keeps u t := by
  unfold execDwellQueue at e
  refine Keeps.of_next ?_ e
  repeat' first
    | with_reducible refine State.busDo_keeps ?_ _ _ _ _ _
    | with_reducible assumption
    | with_reducible exact Keeps.refl _

theorem execDwellStart_keeps {u s t : State} {a0} (h : Keeps u s) (e : execDwellStart a0 s = .next t) : Keeps u t := by
  unfold execDwellStart at e
  refine Keeps.of_next ?_ e
  repeat' first
    | with_reducible refine State.dwellStart_keeps ?_ _
    | with_reducible assumption
    | with_reducible exact Keeps.refl _

theorem execDwellNop_keeps {u s t : State} {a0} (h : Keeps u s) (e : execDwellNop a0 s = .next t) : Keeps u t := by
  unfold execDwellNop at e
  refine Keeps.of_next ?_ e
  repeat' first
    | with_reducible refine State.dwellExec_keeps ?_ _ _ _ (fun _ _ => ?_)
    | with_reducible refine dwellActNop_keeps ?_ _ _
    | with_reducible assumption
    | with_reducible exact Keeps.refl _

theorem execDwellAbase_keeps {u s t : State} {a0} (h : Keeps u s) (e : execDwellAbase a0 s = .next t) : Keeps u t := by
  unfold execDwellAbase at e
  refine Keeps.of_next ?_ e
  repeat' first
    | with_reducible refine State.dwellExec_keeps ?_ _ _ _ (fun _ _ => ?_)
    | with_reducible refine dwellActAbase_keeps ?_ _ _
    | with_reducible assumption
    | with_reducible exact Keeps.refl _

theorem execDwellAofs_keeps {u s t : State} {a0} (h : Keeps u s) (e : execDwellAofs a0 s = .next t) : Keeps u t := by
  unfold execDwellAofs at e
  refine Keeps.of_next ?_ e
  repeat' first
    | with_reducible refine State.dwellExec_keeps ?_ _ _ _ (fun _ _ => ?_)
    | with_reducible refine dwellActAofs_keeps ?_ _ _
    | with_reducible assumption
    | with_reducible exact Keeps.refl _

theorem execDwellAsrc_keeps {u s t : State} {a0} (h : Keeps u s) (e : execDwellAsrc a0 s = .next t) : Keeps u t := by
  unfold execDwellAsrc at e
  refine Keeps.of_next ?_ e
  repeat' first
    | with_reducible refine State.dwellExec_keeps ?_ _ _ _ (fun _ _ => ?_)
    | with_reducible refine dwellActAsrc_keeps ?_ _ _
    | with_reducible assumption
    | with_reducible exact Keeps.refl _

theorem execDwellAcc_keeps {u s t : State} {a0} {a1} (h : Keeps u s) (e : execDwellAcc a0 a1 s = .next t) : Keeps u t := by
  unfold execDwellAcc at e
  refine Keeps.of_next ?_ e
  repeat' first
    | with_reducible refine State.dwellAcc_keeps ?_ _ _
    | with_reducible assumption
    | with_reducible exact Keeps.refl _

theorem execDwellSkip_keeps {u s t : State} {a0} {a1} (h : Keeps u s) (e : execDwellSkip a0 a1 s = .next t) : Keeps u t := by
  unfold execDwellSkip at e
  refine Keeps.of_next ?_ e
  repeat' first
    | with_reducible refine State.dwellExec_keeps ?_ _ _ _ (fun _ _ => ?_)
    | with_reducible refine dwellActSpan_keeps ?_ _ _ _ _
    | with_reducible assumption
    | with_reducible exact Keeps.refl _

theorem execDwellDump_keeps {u s t : State} {a0} {a1} (h : Keeps u s) (e : execDwellDump a0 a1 s = .next t) : Keeps u t := by
  unfold execDwellDump at e
  refine Keeps.of_next ?_ e
  repeat' first
    | with_reducible refine State.dwellExec_keeps ?_ _ _ _ (fun _ _ => ?_)
    | with_reducible refine dwellActDump_keeps ?_ _ _ _ _
    | with_reducible assumption
    | with_reducible exact Keeps.refl _

theorem execDwellNcacc_keeps {u s t : State} {a0} (h : Keeps u s) (e : execDwellNcacc a0 s = .next t) : Keeps u t := by
  unfold execDwellNcacc at e
  refine Keeps.of_next ?_ e
  repeat' first
    | with_reducible refine State.dwellExec_keeps ?_ _ _ _ (fun _ _ => ?_)
    | with_reducible refine dwellActNcacc_keeps ?_ _ _
    | with_reducible assumption
    | with_reducible exact Keeps.refl _

theorem execDwellNcdump_keeps {u s t : State} {a0} {a1} (h : Keeps u s) (e : execDwellNcdump a0 a1 s = .next t) : Keeps u t := by
  unfold execDwellNcdump at e
  refine Keeps.of_next ?_ e
  repeat' first
    | with_reducible refine State.dwellExec_keeps ?_ _ _ _ (fun _ _ => ?_)
    | with_reducible refine dwellActDump_keeps ?_ _ _ _ _
    | with_reducible assumption
    | with_reducible exact Keeps.refl _

theorem execDwellSetc_keeps {u s t : State} {a0} (h : Keeps u s) (e : execDwellSetc a0 s = .next t) : Keeps u t := by
  unfold execDwellSetc at e
  refine Keeps.of_next ?_ e
  repeat' first
    | with_reducible refine State.dwellExec_keeps ?_ _ _ _ (fun _ _ => ?_)
    | with_reducible refine dwellActSetc_keeps ?_ _ _
    | with_reducible assumption
    | with_reducible exact Keeps.refl _

theorem execDwellLoop_keeps {u s t : State} {a0} (h : Keeps u s) (e : execDwellLoop a0 s = .next t) : Keeps u t := by
  unfold execDwellLoop at e
  refine Keeps.of_next ?_ e
  repeat' first
    | with_reducible refine State.dwellExec_keeps ?_ _ _ _ (fun _ _ => ?_)
    | with_reducible refine dwellActLoop_keeps ?_ _ _
    | with_reducible assumption
    | with_reducible exact Keeps.refl _

theorem execDwellJmp_keeps {u s t : State} {a0} (h : Keeps u s) (e : execDwellJmp a0 s = .next t) : Keeps u t := by
  unfold execDwellJmp at e
  refine Keeps.of_next ?_ e
  repeat' first
    | with_reducible refine State.dwellExec_keeps ?_ _ _ _ (fun _ _ => ?_)
    | with_reducible refine dwellActJmp_keeps ?_ _ _
    | with_reducible assumption
    | with_reducible exact Keeps.refl _

theorem execDwellIrq_keeps {u s t : State} {a0} (h : Keeps u s) (e : execDwellIrq a0 s = .next t) : Keeps u t := by
  unfold execDwellIrq at e
  refine Keeps.of_next ?_ e
  repeat' first
    | with_reducible refine State.dwellExec_keeps ?_ _ _ _ (fun _ _ => ?_)
    | with_reducible refine dwellActIrq_keeps ?_ _ _
    | with_reducible assumption
    | with_reducible exact Keeps.refl _

theorem execDwellEnd_keeps {u s t : State} {a0} (h : Keeps u s) (e : execDwellEnd a0 s = .next t) : Keeps u t := by
  unfold execDwellEnd at e
  refine Keeps.of_next ?_ e
  repeat' first
    | with_reducible refine State.dwellExec_keeps ?_ _ _ _ (fun _ _ => ?_)
    | with_reducible refine dwellActEnd_keeps ?_ _ _
    | with_reducible assumption
    | with_reducible exact Keeps.refl _

theorem execRecordToRing_keeps {u s t : State} {a0} (h : Keeps u s) (e : execRecordToRing a0 s = .next t) : Keeps u t := by
  unfold execRecordToRing at e
  refine Keeps.of_next ?_ e
  repeat' first
    | with_reducible refine State.recordToRing_keeps ?_ _
    | with_reducible assumption
    | with_reducible exact Keeps.refl _

theorem execEngCommit_keeps {u s t : State} {a0} {a1} {a2} (h : Keeps u s) (e : execEngCommit a0 a1 a2 s = .next t) : Keeps u t := by
  unfold execEngCommit at e
  refine Keeps.of_next ?_ e
  repeat' first
    | with_reducible refine State.busDo_keeps ?_ _ _ _ _ _
    | with_reducible assumption
    | with_reducible exact Keeps.refl _

theorem execEngCancel_keeps {u s t : State} {a0} {a1} {a2} (h : Keeps u s) (e : execEngCancel a0 a1 a2 s = .next t) : Keeps u t := by
  unfold execEngCancel at e
  refine Keeps.of_next ?_ e
  repeat' first
    | with_reducible refine State.busDo_keeps ?_ _ _ _ _ _
    | with_reducible assumption
    | with_reducible exact Keeps.refl _

theorem execEngApply_keeps {u s t : State} {a0} {a1} {a2} (h : Keeps u s) (e : execEngApply a0 a1 a2 s = .next t) : Keeps u t := by
  unfold execEngApply at e
  refine Keeps.of_next ?_ e
  repeat' first
    | with_reducible refine State.busDo_keeps ?_ _ _ _ _ _
    | with_reducible assumption
    | with_reducible exact Keeps.refl _

theorem execEngSetrole_keeps {u s t : State} {a0} {a1} {a2} (h : Keeps u s) (e : execEngSetrole a0 a1 a2 s = .next t) : Keeps u t := by
  unfold execEngSetrole at e
  refine Keeps.of_next ?_ e
  repeat' first
    | with_reducible refine State.busDo_keeps ?_ _ _ _ _ _
    | with_reducible assumption
    | with_reducible exact Keeps.refl _

theorem execRingRelease_keeps {u s t : State} {a0} {a1} {a2} (h : Keeps u s) (e : execRingRelease a0 a1 a2 s = .next t) : Keeps u t := by
  unfold execRingRelease at e
  refine Keeps.of_next ?_ e
  repeat' first
    | with_reducible refine State.busDo_keeps ?_ _ _ _ _ _
    | with_reducible assumption
    | with_reducible exact Keeps.refl _

theorem execRingReconfigure_keeps {u s t : State} {a0} {a1} {a2} (h : Keeps u s) (e : execRingReconfigure a0 a1 a2 s = .next t) : Keeps u t := by
  unfold execRingReconfigure at e
  refine Keeps.of_next ?_ e
  repeat' first
    | with_reducible refine State.busDo_keeps ?_ _ _ _ _ _
    | with_reducible assumption
    | with_reducible exact Keeps.refl _

theorem execCtinvWrite_keeps {u s t : State} {a0} {a1} {a2} (h : Keeps u s) (e : execCtinvWrite a0 a1 a2 s = .next t) : Keeps u t := by
  unfold execCtinvWrite at e
  refine Keeps.of_next ?_ e
  repeat' first
    | with_reducible refine State.busDo_keeps ?_ _ _ _ _ _
    | with_reducible assumption
    | with_reducible exact Keeps.refl _

theorem execCluCkenWrite_keeps {u s t : State} {a0} {a1} {a2} (h : Keeps u s) (e : execCluCkenWrite a0 a1 a2 s = .next t) : Keeps u t := by
  unfold execCluCkenWrite at e
  refine Keeps.of_next ?_ e
  repeat' first
    | with_reducible refine State.busDo_keeps ?_ _ _ _ _ _
    | with_reducible assumption
    | with_reducible exact Keeps.refl _

theorem execCluBist_keeps {u s t : State} {a0} {a1} {a2} (h : Keeps u s) (e : execCluBist a0 a1 a2 s = .next t) : Keeps u t := by
  unfold execCluBist at e
  refine Keeps.of_next ?_ e
  repeat' first
    | with_reducible refine State.busDo_keeps ?_ _ _ _ _ _
    | with_reducible assumption
    | with_reducible exact Keeps.refl _

theorem execBistdone_keeps {u s t : State} {a0} {a1} (h : Keeps u s) (e : execBistdone a0 a1 s = .next t) : Keeps u t := by
  unfold execBistdone at e
  refine Keeps.of_next ?_ e
  repeat' first
    | with_reducible refine State.attnUpdate_keeps ?_
    | with_reducible refine State.bistDone_keeps ?_ _ _
    | with_reducible refine State.repairTested_keeps ?_ _
    | with_reducible assumption
    | with_reducible exact Keeps.refl _

theorem execCluGangWrite_keeps {u s t : State} {a0} {a1} {a2} (h : Keeps u s) (e : execCluGangWrite a0 a1 a2 s = .next t) : Keeps u t := by
  unfold execCluGangWrite at e
  refine Keeps.of_next ?_ e
  repeat' first
    | with_reducible refine State.busDo_keeps ?_ _ _ _ _ _
    | with_reducible assumption
    | with_reducible exact Keeps.refl _

theorem execGangDwellQueue_keeps {u s t : State} {a0} {a1} {a2} (h : Keeps u s) (e : execGangDwellQueue a0 a1 a2 s = .next t) : Keeps u t := by
  unfold execGangDwellQueue at e
  refine Keeps.of_next ?_ e
  repeat' first
    | with_reducible refine State.busDo_keeps ?_ _ _ _ _ _
    | with_reducible assumption
    | with_reducible exact Keeps.refl _

theorem execMigArm_keeps {u s t : State} {a0} {a1} {a2} (h : Keeps u s) (e : execMigArm a0 a1 a2 s = .next t) : Keeps u t := by
  unfold execMigArm at e
  refine Keeps.of_next ?_ e
  repeat' first
    | with_reducible refine State.busDo_keeps ?_ _ _ _ _ _
    | with_reducible assumption
    | with_reducible exact Keeps.refl _

theorem execMigTimeout_keeps {u s t : State} {a0} (h : Keeps u s) (e : execMigTimeout a0 s = .next t) : Keeps u t := by
  unfold execMigTimeout at e
  refine Keeps.of_next ?_ e
  repeat' first
    | with_reducible refine State.migTimeout_keeps ?_ _
    | with_reducible assumption
    | with_reducible exact Keeps.refl _

theorem execSnpArm_keeps {u s t : State} {a0} {a1} {a2} (h : Keeps u s) (e : execSnpArm a0 a1 a2 s = .next t) : Keeps u t := by
  unfold execSnpArm at e
  refine Keeps.of_next ?_ e
  repeat' first
    | with_reducible refine State.busDo_keeps ?_ _ _ _ _ _
    | with_reducible assumption
    | with_reducible exact Keeps.refl _

theorem execSnpFree_keeps {u s t : State} {a0} {a1} {a2} (h : Keeps u s) (e : execSnpFree a0 a1 a2 s = .next t) : Keeps u t := by
  unfold execSnpFree at e
  refine Keeps.of_next ?_ e
  repeat' first
    | with_reducible refine State.busDo_keeps ?_ _ _ _ _ _
    | with_reducible assumption
    | with_reducible exact Keeps.refl _

theorem execCaptureTrigger_keeps {u s t : State} {a0} {a1} {a2} (h : Keeps u s) (e : execCaptureTrigger a0 a1 a2 s = .next t) : Keeps u t := by
  unfold execCaptureTrigger at e
  refine Keeps.of_next ?_ e
  repeat' first
    | with_reducible refine State.capTrigger_keeps ?_ _ _ _
    | with_reducible assumption
    | with_reducible exact Keeps.refl _

theorem execCapdone_keeps {u s t : State} {a0} {a1} (h : Keeps u s) (e : execCapdone a0 a1 s = .next t) : Keeps u t := by
  unfold execCapdone at e
  refine Keeps.of_next ?_ e
  repeat' first
    | with_reducible refine State.capDone_keeps ?_ _ _
    | with_reducible assumption
    | with_reducible exact Keeps.refl _

theorem execReplayGo_keeps {u s t : State} {a0} {a1} (h : Keeps u s) (e : execReplayGo a0 a1 s = .next t) : Keeps u t := by
  unfold execReplayGo at e
  refine Keeps.of_next ?_ e
  repeat' first
    | with_reducible refine State.busDo_keeps ?_ _ _ _ _ _
    | with_reducible assumption
    | with_reducible exact Keeps.refl _

theorem execReplayStop_keeps {u s t : State} {a0} {a1} (h : Keeps u s) (e : execReplayStop a0 a1 s = .next t) : Keeps u t := by
  unfold execReplayStop at e
  refine Keeps.of_next ?_ e
  repeat' first
    | with_reducible refine State.busDo_keeps ?_ _ _ _ _ _
    | with_reducible assumption
    | with_reducible exact Keeps.refl _

theorem execReplayPassStart_keeps {u s t : State} (h : Keeps u s) (e : execReplayPassStart s = .next t) : Keeps u t := by
  unfold execReplayPassStart at e
  refine Keeps.of_next ?_ e
  repeat' first
    | with_reducible refine State.passStart_keeps ?_
    | with_reducible assumption
    | with_reducible exact Keeps.refl _

theorem execReplayPassEnd_keeps {u s t : State} (h : Keeps u s) (e : execReplayPassEnd s = .next t) : Keeps u t := by
  unfold execReplayPassEnd at e
  refine Keeps.of_next ?_ e
  repeat' first
    | with_reducible refine State.passEnd_keeps ?_
    | with_reducible assumption
    | with_reducible exact Keeps.refl _

theorem execBroadcastWrite_keeps {u s t : State} {a0} {a1} {a2} {a3} (h : Keeps u s) (e : execBroadcastWrite a0 a1 a2 a3 s = .next t) : Keeps u t := by
  unfold execBroadcastWrite at e
  refine Keeps.of_next ?_ e
  repeat' first
    | with_reducible refine State.busDo_keeps ?_ _ _ _ _ _
    | with_reducible assumption
    | with_reducible exact Keeps.refl _

theorem execLoopUpdate_keeps {u s t : State} {a0} {a1} (h : Keeps u s) (e : execLoopUpdate a0 a1 s = .next t) : Keeps u t := by
  unfold execLoopUpdate at e
  refine Keeps.of_next ?_ e
  repeat' first
    | with_reducible refine State.loopUpdate_keeps ?_ _ _
    | with_reducible assumption
    | with_reducible exact Keeps.refl _

theorem execSteerEntryWrite_keeps {u s t : State} {a0} {a1} {a2} {a3} {a4} {a5} {a6} (h : Keeps u s) (e : execSteerEntryWrite a0 a1 a2 a3 a4 a5 a6 s = .next t) : Keeps u t := by
  unfold execSteerEntryWrite at e
  refine Keeps.of_next ?_ e
  repeat' first
    | with_reducible refine State.steerWrite_keeps ?_ _ _ _ _ _ _ _
    | with_reducible assumption
    | with_reducible exact Keeps.refl _

theorem execTrackingReport_keeps {u s t : State} {a0} (h : Keeps u s) (e : execTrackingReport a0 s = .next t) : Keeps u t := by
  unfold execTrackingReport at e
  refine Keeps.of_next ?_ e
  repeat' first
    | with_reducible refine State.reportInstant_keeps ?_ _
    | with_reducible assumption
    | with_reducible exact Keeps.refl _

theorem execMigrationHandoff_keeps {u s t : State} {a0} {a1} {a2} {a3} (h : Keeps u s) (e : execMigrationHandoff a0 a1 a2 a3 s = .next t) : Keeps u t := by
  unfold execMigrationHandoff at e
  refine Keeps.of_next ?_ e
  repeat' first
    | with_reducible refine State.chanHandoff_keeps ?_ _ _ _
    | with_reducible refine State.busDo_keeps ?_ _ _ _ _ _
    | with_reducible refine Keeps.ite ?_ ?_
    | with_reducible assumption
    | with_reducible exact Keeps.refl _
    | split
    | dsimp only

theorem execDspNop_keeps {u s t : State} {a0} (h : Keeps u s) (e : execDspNop a0 s = .next t) : Keeps u t := by
  unfold execDspNop at e
  refine Keeps.of_next ?_ e
  repeat' first
    | with_reducible refine State.dspIssue_keeps ?_ _ _
    | with_reducible assumption
    | with_reducible exact Keeps.refl _

theorem execDspMov_keeps {u s t : State} {a0} (h : Keeps u s) (e : execDspMov a0 s = .next t) : Keeps u t := by
  unfold execDspMov at e
  refine Keeps.of_next ?_ e
  repeat' first
    | with_reducible refine State.dspIssue_keeps ?_ _ _
    | with_reducible assumption
    | with_reducible exact Keeps.refl _

theorem execDspAdd_keeps {u s t : State} {a0} (h : Keeps u s) (e : execDspAdd a0 s = .next t) : Keeps u t := by
  unfold execDspAdd at e
  refine Keeps.of_next ?_ e
  repeat' first
    | with_reducible refine State.dspIssue_keeps ?_ _ _
    | with_reducible assumption
    | with_reducible exact Keeps.refl _

theorem execDspAdds_keeps {u s t : State} {a0} (h : Keeps u s) (e : execDspAdds a0 s = .next t) : Keeps u t := by
  unfold execDspAdds at e
  refine Keeps.of_next ?_ e
  repeat' first
    | with_reducible refine State.dspIssue_keeps ?_ _ _
    | with_reducible assumption
    | with_reducible exact Keeps.refl _

theorem execDspSub_keeps {u s t : State} {a0} (h : Keeps u s) (e : execDspSub a0 s = .next t) : Keeps u t := by
  unfold execDspSub at e
  refine Keeps.of_next ?_ e
  repeat' first
    | with_reducible refine State.dspIssue_keeps ?_ _ _
    | with_reducible assumption
    | with_reducible exact Keeps.refl _

theorem execDspSubs_keeps {u s t : State} {a0} (h : Keeps u s) (e : execDspSubs a0 s = .next t) : Keeps u t := by
  unfold execDspSubs at e
  refine Keeps.of_next ?_ e
  repeat' first
    | with_reducible refine State.dspIssue_keeps ?_ _ _
    | with_reducible assumption
    | with_reducible exact Keeps.refl _

theorem execDspAnd_keeps {u s t : State} {a0} (h : Keeps u s) (e : execDspAnd a0 s = .next t) : Keeps u t := by
  unfold execDspAnd at e
  refine Keeps.of_next ?_ e
  repeat' first
    | with_reducible refine State.dspIssue_keeps ?_ _ _
    | with_reducible assumption
    | with_reducible exact Keeps.refl _

theorem execDspOr_keeps {u s t : State} {a0} (h : Keeps u s) (e : execDspOr a0 s = .next t) : Keeps u t := by
  unfold execDspOr at e
  refine Keeps.of_next ?_ e
  repeat' first
    | with_reducible refine State.dspIssue_keeps ?_ _ _
    | with_reducible assumption
    | with_reducible exact Keeps.refl _

theorem execDspXor_keeps {u s t : State} {a0} (h : Keeps u s) (e : execDspXor a0 s = .next t) : Keeps u t := by
  unfold execDspXor at e
  refine Keeps.of_next ?_ e
  repeat' first
    | with_reducible refine State.dspIssue_keeps ?_ _ _
    | with_reducible assumption
    | with_reducible exact Keeps.refl _

theorem execDspNeg_keeps {u s t : State} {a0} (h : Keeps u s) (e : execDspNeg a0 s = .next t) : Keeps u t := by
  unfold execDspNeg at e
  refine Keeps.of_next ?_ e
  repeat' first
    | with_reducible refine State.dspIssue_keeps ?_ _ _
    | with_reducible assumption
    | with_reducible exact Keeps.refl _

theorem execDspAbs_keeps {u s t : State} {a0} (h : Keeps u s) (e : execDspAbs a0 s = .next t) : Keeps u t := by
  unfold execDspAbs at e
  refine Keeps.of_next ?_ e
  repeat' first
    | with_reducible refine State.dspIssue_keeps ?_ _ _
    | with_reducible assumption
    | with_reducible exact Keeps.refl _

theorem execDspMin_keeps {u s t : State} {a0} (h : Keeps u s) (e : execDspMin a0 s = .next t) : Keeps u t := by
  unfold execDspMin at e
  refine Keeps.of_next ?_ e
  repeat' first
    | with_reducible refine State.dspIssue_keeps ?_ _ _
    | with_reducible assumption
    | with_reducible exact Keeps.refl _

theorem execDspMax_keeps {u s t : State} {a0} (h : Keeps u s) (e : execDspMax a0 s = .next t) : Keeps u t := by
  unfold execDspMax at e
  refine Keeps.of_next ?_ e
  repeat' first
    | with_reducible refine State.dspIssue_keeps ?_ _ _
    | with_reducible assumption
    | with_reducible exact Keeps.refl _

theorem execDspCmp_keeps {u s t : State} {a0} (h : Keeps u s) (e : execDspCmp a0 s = .next t) : Keeps u t := by
  unfold execDspCmp at e
  refine Keeps.of_next ?_ e
  repeat' first
    | with_reducible refine State.dspIssue_keeps ?_ _ _
    | with_reducible assumption
    | with_reducible exact Keeps.refl _

theorem execDspShl_keeps {u s t : State} {a0} (h : Keeps u s) (e : execDspShl a0 s = .next t) : Keeps u t := by
  unfold execDspShl at e
  refine Keeps.of_next ?_ e
  repeat' first
    | with_reducible refine State.dspIssue_keeps ?_ _ _
    | with_reducible assumption
    | with_reducible exact Keeps.refl _

theorem execDspShr_keeps {u s t : State} {a0} (h : Keeps u s) (e : execDspShr a0 s = .next t) : Keeps u t := by
  unfold execDspShr at e
  refine Keeps.of_next ?_ e
  repeat' first
    | with_reducible refine State.dspIssue_keeps ?_ _ _
    | with_reducible assumption
    | with_reducible exact Keeps.refl _

theorem execDspAsr_keeps {u s t : State} {a0} (h : Keeps u s) (e : execDspAsr a0 s = .next t) : Keeps u t := by
  unfold execDspAsr at e
  refine Keeps.of_next ?_ e
  repeat' first
    | with_reducible refine State.dspIssue_keeps ?_ _ _
    | with_reducible assumption
    | with_reducible exact Keeps.refl _

theorem execDspShlv_keeps {u s t : State} {a0} (h : Keeps u s) (e : execDspShlv a0 s = .next t) : Keeps u t := by
  unfold execDspShlv at e
  refine Keeps.of_next ?_ e
  repeat' first
    | with_reducible refine State.dspIssue_keeps ?_ _ _
    | with_reducible assumption
    | with_reducible exact Keeps.refl _

theorem execDspAsrv_keeps {u s t : State} {a0} (h : Keeps u s) (e : execDspAsrv a0 s = .next t) : Keeps u t := by
  unfold execDspAsrv at e
  refine Keeps.of_next ?_ e
  repeat' first
    | with_reducible refine State.dspIssue_keeps ?_ _ _
    | with_reducible assumption
    | with_reducible exact Keeps.refl _

theorem execDspMpy_keeps {u s t : State} {a0} (h : Keeps u s) (e : execDspMpy a0 s = .next t) : Keeps u t := by
  unfold execDspMpy at e
  refine Keeps.of_next ?_ e
  repeat' first
    | with_reducible refine State.dspIssue_keeps ?_ _ _
    | with_reducible assumption
    | with_reducible exact Keeps.refl _

theorem execDspMac_keeps {u s t : State} {a0} (h : Keeps u s) (e : execDspMac a0 s = .next t) : Keeps u t := by
  unfold execDspMac at e
  refine Keeps.of_next ?_ e
  repeat' first
    | with_reducible refine State.dspIssue_keeps ?_ _ _
    | with_reducible assumption
    | with_reducible exact Keeps.refl _

theorem execDspMsu_keeps {u s t : State} {a0} (h : Keeps u s) (e : execDspMsu a0 s = .next t) : Keeps u t := by
  unfold execDspMsu at e
  refine Keeps.of_next ?_ e
  repeat' first
    | with_reducible refine State.dspIssue_keeps ?_ _ _
    | with_reducible assumption
    | with_reducible exact Keeps.refl _

theorem execDspMpyu_keeps {u s t : State} {a0} (h : Keeps u s) (e : execDspMpyu a0 s = .next t) : Keeps u t := by
  unfold execDspMpyu at e
  refine Keeps.of_next ?_ e
  repeat' first
    | with_reducible refine State.dspIssue_keeps ?_ _ _
    | with_reducible assumption
    | with_reducible exact Keeps.refl _

theorem execDspFtap_keeps {u s t : State} {a0} (h : Keeps u s) (e : execDspFtap a0 s = .next t) : Keeps u t := by
  unfold execDspFtap at e
  refine Keeps.of_next ?_ e
  repeat' first
    | with_reducible refine State.dspIssue_keeps ?_ _ _
    | with_reducible assumption
    | with_reducible exact Keeps.refl _

theorem execDspFtaps_keeps {u s t : State} {a0} (h : Keeps u s) (e : execDspFtaps a0 s = .next t) : Keeps u t := by
  unfold execDspFtaps at e
  refine Keeps.of_next ?_ e
  repeat' first
    | with_reducible refine State.dspIssue_keeps ?_ _ _
    | with_reducible assumption
    | with_reducible exact Keeps.refl _

theorem execDspLd_keeps {u s t : State} {a0} (h : Keeps u s) (e : execDspLd a0 s = .next t) : Keeps u t := by
  unfold execDspLd at e
  refine Keeps.of_next ?_ e
  repeat' first
    | with_reducible refine State.dspIssue_keeps ?_ _ _
    | with_reducible assumption
    | with_reducible exact Keeps.refl _

theorem execDspSt_keeps {u s t : State} {a0} (h : Keeps u s) (e : execDspSt a0 s = .next t) : Keeps u t := by
  unfold execDspSt at e
  refine Keeps.of_next ?_ e
  repeat' first
    | with_reducible refine State.dspIssue_keeps ?_ _ _
    | with_reducible assumption
    | with_reducible exact Keeps.refl _

theorem execDspLdil_keeps {u s t : State} {a0} (h : Keeps u s) (e : execDspLdil a0 s = .next t) : Keeps u t := by
  unfold execDspLdil at e
  refine Keeps.of_next ?_ e
  repeat' first
    | with_reducible refine State.dspIssue_keeps ?_ _ _
    | with_reducible assumption
    | with_reducible exact Keeps.refl _

theorem execDspLdih_keeps {u s t : State} {a0} (h : Keeps u s) (e : execDspLdih a0 s = .next t) : Keeps u t := by
  unfold execDspLdih at e
  refine Keeps.of_next ?_ e
  repeat' first
    | with_reducible refine State.dspIssue_keeps ?_ _ _
    | with_reducible assumption
    | with_reducible exact Keeps.refl _

theorem execDspAddi_keeps {u s t : State} {a0} (h : Keeps u s) (e : execDspAddi a0 s = .next t) : Keeps u t := by
  unfold execDspAddi at e
  refine Keeps.of_next ?_ e
  repeat' first
    | with_reducible refine State.dspIssue_keeps ?_ _ _
    | with_reducible assumption
    | with_reducible exact Keeps.refl _

theorem execDspCmpi_keeps {u s t : State} {a0} (h : Keeps u s) (e : execDspCmpi a0 s = .next t) : Keeps u t := by
  unfold execDspCmpi at e
  refine Keeps.of_next ?_ e
  repeat' first
    | with_reducible refine State.dspIssue_keeps ?_ _ _
    | with_reducible assumption
    | with_reducible exact Keeps.refl _

theorem execDspClra_keeps {u s t : State} {a0} (h : Keeps u s) (e : execDspClra a0 s = .next t) : Keeps u t := by
  unfold execDspClra at e
  refine Keeps.of_next ?_ e
  repeat' first
    | with_reducible refine State.dspIssue_keeps ?_ _ _
    | with_reducible assumption
    | with_reducible exact Keeps.refl _

theorem execDspAdda_keeps {u s t : State} {a0} (h : Keeps u s) (e : execDspAdda a0 s = .next t) : Keeps u t := by
  unfold execDspAdda at e
  refine Keeps.of_next ?_ e
  repeat' first
    | with_reducible refine State.dspIssue_keeps ?_ _ _
    | with_reducible assumption
    | with_reducible exact Keeps.refl _

theorem execDspSuba_keeps {u s t : State} {a0} (h : Keeps u s) (e : execDspSuba a0 s = .next t) : Keeps u t := by
  unfold execDspSuba at e
  refine Keeps.of_next ?_ e
  repeat' first
    | with_reducible refine State.dspIssue_keeps ?_ _ _
    | with_reducible assumption
    | with_reducible exact Keeps.refl _

theorem execDspNega_keeps {u s t : State} {a0} (h : Keeps u s) (e : execDspNega a0 s = .next t) : Keeps u t := by
  unfold execDspNega at e
  refine Keeps.of_next ?_ e
  repeat' first
    | with_reducible refine State.dspIssue_keeps ?_ _ _
    | with_reducible assumption
    | with_reducible exact Keeps.refl _

theorem execDspAbsa_keeps {u s t : State} {a0} (h : Keeps u s) (e : execDspAbsa a0 s = .next t) : Keeps u t := by
  unfold execDspAbsa at e
  refine Keeps.of_next ?_ e
  repeat' first
    | with_reducible refine State.dspIssue_keeps ?_ _ _
    | with_reducible assumption
    | with_reducible exact Keeps.refl _

theorem execDspSha_keeps {u s t : State} {a0} (h : Keeps u s) (e : execDspSha a0 s = .next t) : Keeps u t := by
  unfold execDspSha at e
  refine Keeps.of_next ?_ e
  repeat' first
    | with_reducible refine State.dspIssue_keeps ?_ _ _
    | with_reducible assumption
    | with_reducible exact Keeps.refl _

theorem execDspShar_keeps {u s t : State} {a0} (h : Keeps u s) (e : execDspShar a0 s = .next t) : Keeps u t := by
  unfold execDspShar at e
  refine Keeps.of_next ?_ e
  repeat' first
    | with_reducible refine State.dspIssue_keeps ?_ _ _
    | with_reducible assumption
    | with_reducible exact Keeps.refl _

theorem execDspXfr_keeps {u s t : State} {a0} (h : Keeps u s) (e : execDspXfr a0 s = .next t) : Keeps u t := by
  unfold execDspXfr at e
  refine Keeps.of_next ?_ e
  repeat' first
    | with_reducible refine State.dspIssue_keeps ?_ _ _
    | with_reducible assumption
    | with_reducible exact Keeps.refl _

theorem execDspXfw_keeps {u s t : State} {a0} (h : Keeps u s) (e : execDspXfw a0 s = .next t) : Keeps u t := by
  unfold execDspXfw at e
  refine Keeps.of_next ?_ e
  repeat' first
    | with_reducible refine State.dspIssue_keeps ?_ _ _
    | with_reducible assumption
    | with_reducible exact Keeps.refl _

theorem execDspBra_keeps {u s t : State} {a0} (h : Keeps u s) (e : execDspBra a0 s = .next t) : Keeps u t := by
  unfold execDspBra at e
  refine Keeps.of_next ?_ e
  repeat' first
    | with_reducible refine State.dspIssue_keeps ?_ _ _
    | with_reducible assumption
    | with_reducible exact Keeps.refl _

theorem execDspBcc_keeps {u s t : State} {a0} (h : Keeps u s) (e : execDspBcc a0 s = .next t) : Keeps u t := by
  unfold execDspBcc at e
  refine Keeps.of_next ?_ e
  repeat' first
    | with_reducible refine State.dspIssue_keeps ?_ _ _
    | with_reducible assumption
    | with_reducible exact Keeps.refl _

theorem execDspCall_keeps {u s t : State} {a0} (h : Keeps u s) (e : execDspCall a0 s = .next t) : Keeps u t := by
  unfold execDspCall at e
  refine Keeps.of_next ?_ e
  repeat' first
    | with_reducible refine State.dspIssue_keeps ?_ _ _
    | with_reducible assumption
    | with_reducible exact Keeps.refl _

theorem execDspRet_keeps {u s t : State} {a0} (h : Keeps u s) (e : execDspRet a0 s = .next t) : Keeps u t := by
  unfold execDspRet at e
  refine Keeps.of_next ?_ e
  repeat' first
    | with_reducible refine State.dspIssue_keeps ?_ _ _
    | with_reducible assumption
    | with_reducible exact Keeps.refl _

theorem execDspRti_keeps {u s t : State} {a0} (h : Keeps u s) (e : execDspRti a0 s = .next t) : Keeps u t := by
  unfold execDspRti at e
  refine Keeps.of_next ?_ e
  repeat' first
    | with_reducible refine State.dspIssue_keeps ?_ _ _
    | with_reducible assumption
    | with_reducible exact Keeps.refl _

theorem execDspLps_keeps {u s t : State} {a0} (h : Keeps u s) (e : execDspLps a0 s = .next t) : Keeps u t := by
  unfold execDspLps at e
  refine Keeps.of_next ?_ e
  repeat' first
    | with_reducible refine State.dspIssue_keeps ?_ _ _
    | with_reducible assumption
    | with_reducible exact Keeps.refl _

theorem execDspLpr_keeps {u s t : State} {a0} (h : Keeps u s) (e : execDspLpr a0 s = .next t) : Keeps u t := by
  unfold execDspLpr at e
  refine Keeps.of_next ?_ e
  repeat' first
    | with_reducible refine State.dspIssue_keeps ?_ _ _
    | with_reducible assumption
    | with_reducible exact Keeps.refl _

theorem execDspLpx_keeps {u s t : State} {a0} (h : Keeps u s) (e : execDspLpx a0 s = .next t) : Keeps u t := by
  unfold execDspLpx at e
  refine Keeps.of_next ?_ e
  repeat' first
    | with_reducible refine State.dspIssue_keeps ?_ _ _
    | with_reducible assumption
    | with_reducible exact Keeps.refl _

theorem execDspWait_keeps {u s t : State} {a0} (h : Keeps u s) (e : execDspWait a0 s = .next t) : Keeps u t := by
  unfold execDspWait at e
  refine Keeps.of_next ?_ e
  repeat' first
    | with_reducible refine State.dspIssue_keeps ?_ _ _
    | with_reducible assumption
    | with_reducible exact Keeps.refl _

theorem execDspTrap_keeps {u s t : State} {a0} (h : Keeps u s) (e : execDspTrap a0 s = .next t) : Keeps u t := by
  unfold execDspTrap at e
  refine Keeps.of_next ?_ e
  repeat' first
    | with_reducible refine State.dspIssue_keeps ?_ _ _
    | with_reducible assumption
    | with_reducible exact Keeps.refl _

theorem execDspSync_keeps {u s t : State} {a0} (h : Keeps u s) (e : execDspSync a0 s = .next t) : Keeps u t := by
  unfold execDspSync at e
  refine Keeps.of_next ?_ e
  repeat' first
    | with_reducible refine State.dspIssue_keeps ?_ _ _
    | with_reducible assumption
    | with_reducible exact Keeps.refl _

theorem execDspEld_keeps {u s t : State} {a0} (h : Keeps u s) (e : execDspEld a0 s = .next t) : Keeps u t := by
  unfold execDspEld at e
  refine Keeps.of_next ?_ e
  repeat' first
    | with_reducible refine State.dspIssue_keeps ?_ _ _
    | with_reducible assumption
    | with_reducible exact Keeps.refl _

theorem execDspEst_keeps {u s t : State} {a0} (h : Keeps u s) (e : execDspEst a0 s = .next t) : Keeps u t := by
  unfold execDspEst at e
  refine Keeps.of_next ?_ e
  repeat' first
    | with_reducible refine State.dspIssue_keeps ?_ _ _
    | with_reducible assumption
    | with_reducible exact Keeps.refl _

theorem execDspBlkx_keeps {u s t : State} {a0} (h : Keeps u s) (e : execDspBlkx a0 s = .next t) : Keeps u t := by
  unfold execDspBlkx at e
  refine Keeps.of_next ?_ e
  repeat' first
    | with_reducible refine State.dspIssue_keeps ?_ _ _
    | with_reducible assumption
    | with_reducible exact Keeps.refl _

theorem execDspBlky_keeps {u s t : State} {a0} (h : Keeps u s) (e : execDspBlky a0 s = .next t) : Keeps u t := by
  unfold execDspBlky at e
  refine Keeps.of_next ?_ e
  repeat' first
    | with_reducible refine State.dspIssue_keeps ?_ _ _
    | with_reducible assumption
    | with_reducible exact Keeps.refl _

theorem execDspAng_keeps {u s t : State} {a0} (h : Keeps u s) (e : execDspAng a0 s = .next t) : Keeps u t := by
  unfold execDspAng at e
  refine Keeps.of_next ?_ e
  repeat' first
    | with_reducible refine State.dspIssue_keeps ?_ _ _
    | with_reducible assumption
    | with_reducible exact Keeps.refl _

theorem execDspMag_keeps {u s t : State} {a0} (h : Keeps u s) (e : execDspMag a0 s = .next t) : Keeps u t := by
  unfold execDspMag at e
  refine Keeps.of_next ?_ e
  repeat' first
    | with_reducible refine State.dspIssue_keeps ?_ _ _
    | with_reducible assumption
    | with_reducible exact Keeps.refl _

theorem execDspDivf_keeps {u s t : State} {a0} (h : Keeps u s) (e : execDspDivf a0 s = .next t) : Keeps u t := by
  unfold execDspDivf at e
  refine Keeps.of_next ?_ e
  repeat' first
    | with_reducible refine State.dspIssue_keeps ?_ _ _
    | with_reducible assumption
    | with_reducible exact Keeps.refl _

theorem execDspBlockCopyDone_keeps {u s t : State} {a0} (h : Keeps u s) (e : execDspBlockCopyDone a0 s = .next t) : Keeps u t := by
  unfold execDspBlockCopyDone at e
  refine Keeps.of_next ?_ e
  repeat' first
    | with_reducible refine State.blkDone_keeps ?_ _
    | with_reducible assumption
    | with_reducible exact Keeps.refl _

theorem execDspPostedBusError_keeps {u s t : State} {a0} (h : Keeps u s) (e : execDspPostedBusError a0 s = .next t) : Keeps u t := by
  unfold execDspPostedBusError at e
  refine Keeps.of_next ?_ e
  repeat' first
    | with_reducible refine State.dspPosted_keeps ?_ _
    | with_reducible assumption
    | with_reducible exact Keeps.refl _

theorem execDspInterruptEntry_keeps {u s t : State} {a0} (h : Keeps u s) (e : execDspInterruptEntry a0 s = .next t) : Keeps u t := by
  unfold execDspInterruptEntry at e
  refine Keeps.of_next ?_ e
  repeat' first
    | with_reducible refine State.dspInterrupt_keeps ?_ _
    | with_reducible assumption
    | with_reducible exact Keeps.refl _

theorem execDspTimerMatch_keeps {u s t : State} {a0} (h : Keeps u s) (e : execDspTimerMatch a0 s = .next t) : Keeps u t := by
  unfold execDspTimerMatch at e
  refine Keeps.of_next ?_ e
  repeat' first
    | with_reducible refine State.dspTimer_keeps ?_ _
    | with_reducible assumption
    | with_reducible exact Keeps.refl _

theorem execDspWatchdogExpiry_keeps {u s t : State} {a0} (h : Keeps u s) (e : execDspWatchdogExpiry a0 s = .next t) : Keeps u t := by
  unfold execDspWatchdogExpiry at e
  refine Keeps.of_next ?_ e
  repeat' first
    | with_reducible refine State.dspWatchdog_keeps ?_ _
    | with_reducible assumption
    | with_reducible exact Keeps.refl _

theorem execDspWdogKick_keeps {u s t : State} {a0} {a1} {a2} (h : Keeps u s) (e : execDspWdogKick a0 a1 a2 s = .next t) : Keeps u t := by
  unfold execDspWdogKick at e
  refine Keeps.of_next ?_ e
  repeat' first
    | with_reducible refine State.busDo_keeps ?_ _ _ _ _ _
    | with_reducible assumption
    | with_reducible exact Keeps.refl _

theorem execDspRun_keeps {u s t : State} {a0} {a1} {a2} (h : Keeps u s) (e : execDspRun a0 a1 a2 s = .next t) : Keeps u t := by
  unfold execDspRun at e
  refine Keeps.of_next ?_ e
  repeat' first
    | with_reducible refine State.busDo_keeps ?_ _ _ _ _ _
    | with_reducible assumption
    | with_reducible exact Keeps.refl _

theorem execDspHalt_keeps {u s t : State} {a0} {a1} {a2} (h : Keeps u s) (e : execDspHalt a0 a1 a2 s = .next t) : Keeps u t := by
  unfold execDspHalt at e
  refine Keeps.of_next ?_ e
  repeat' first
    | with_reducible refine State.busDo_keeps ?_ _ _ _ _ _
    | with_reducible assumption
    | with_reducible exact Keeps.refl _

theorem execDspReset_keeps {u s t : State} {a0} {a1} {a2} (h : Keeps u s) (e : execDspReset a0 a1 a2 s = .next t) : Keeps u t := by
  unfold execDspReset at e
  refine Keeps.of_next ?_ e
  repeat' first
    | with_reducible refine State.busDo_keeps ?_ _ _ _ _ _
    | with_reducible assumption
    | with_reducible exact Keeps.refl _

theorem execDspSingleStep_keeps {u s t : State} {a0} {a1} {a2} (h : Keeps u s) (e : execDspSingleStep a0 a1 a2 s = .next t) : Keeps u t := by
  unfold execDspSingleStep at e
  refine Keeps.of_next ?_ e
  repeat' first
    | with_reducible refine State.busDo_keeps ?_ _ _ _ _ _
    | with_reducible assumption
    | with_reducible exact Keeps.refl _

theorem execDspShadowSelect_keeps {u s t : State} {a0} {a1} {a2} (h : Keeps u s) (e : execDspShadowSelect a0 a1 a2 s = .next t) : Keeps u t := by
  unfold execDspShadowSelect at e
  refine Keeps.of_next ?_ e
  repeat' first
    | with_reducible refine State.busDo_keeps ?_ _ _ _ _ _
    | with_reducible assumption
    | with_reducible exact Keeps.refl _

theorem execDspGroupClock_keeps {u s t : State} {a0} {a1} {a2} (h : Keeps u s) (e : execDspGroupClock a0 a1 a2 s = .next t) : Keeps u t := by
  unfold execDspGroupClock at e
  refine Keeps.of_next ?_ e
  repeat' first
    | with_reducible refine State.busDo_keeps ?_ _ _ _ _ _
    | with_reducible assumption
    | with_reducible exact Keeps.refl _

theorem execDspGroupReset_keeps {u s t : State} {a0} {a1} {a2} (h : Keeps u s) (e : execDspGroupReset a0 a1 a2 s = .next t) : Keeps u t := by
  unfold execDspGroupReset at e
  refine Keeps.of_next ?_ e
  repeat' first
    | with_reducible refine State.busDo_keeps ?_ _ _ _ _ _
    | with_reducible assumption
    | with_reducible exact Keeps.refl _

theorem execDspDoorbell_keeps {u s t : State} {a0} {a1} {a2} (h : Keeps u s) (e : execDspDoorbell a0 a1 a2 s = .next t) : Keeps u t := by
  unfold execDspDoorbell at e
  refine Keeps.of_next ?_ e
  repeat' first
    | with_reducible refine State.busDo_keeps ?_ _ _ _ _ _
    | with_reducible assumption
    | with_reducible exact Keeps.refl _

theorem execDspOutbox_keeps {u s t : State} {a0} {a1} {a2} (h : Keeps u s) (e : execDspOutbox a0 a1 a2 s = .next t) : Keeps u t := by
  unfold execDspOutbox at e
  refine Keeps.of_next ?_ e
  repeat' first
    | with_reducible refine State.busDo_keeps ?_ _ _ _ _ _
    | with_reducible assumption
    | with_reducible exact Keeps.refl _

theorem execDspMemoryAccess_keeps {u s t : State} {a0} {a1} {a2} {a3} {a4} {a5} (h : Keeps u s) (e : execDspMemoryAccess a0 a1 a2 a3 a4 a5 s = .next t) : Keeps u t := by
  unfold execDspMemoryAccess at e
  refine Keeps.of_next ?_ e
  repeat' first
    | with_reducible refine State.busAccess_keeps ?_ _ _ _ _
    | with_reducible assumption
    | with_reducible exact Keeps.refl _

theorem execSolutionEpoch_keeps {u s t : State} {a0} (h : Keeps u s) (e : execSolutionEpoch a0 s = .next t) : Keeps u t := by
  unfold execSolutionEpoch at e
  refine Keeps.of_next ?_ e
  repeat' first
    | with_reducible refine State.solution_keeps ?_
    | with_reducible assumption
    | with_reducible exact Keeps.refl _

theorem execNavMessage_keeps {u s t : State} {a0} (h : Keeps u s) (e : execNavMessage a0 s = .next t) : Keeps u t := by
  unfold execNavMessage at e
  refine Keeps.of_next ?_ e
  repeat' first
    | with_reducible refine State.navMessage_keeps ?_ _
    | with_reducible assumption
    | with_reducible exact Keeps.refl _

theorem execOsnmaTag_keeps {u s t : State} {a0} (h : Keeps u s) (e : execOsnmaTag a0 s = .next t) : Keeps u t := by
  unfold execOsnmaTag at e
  refine Keeps.of_next ?_ e
  repeat' first
    | with_reducible refine State.osnmaTag_keeps ?_ _
    | with_reducible assumption
    | with_reducible exact Keeps.refl _

theorem execMordantWrite_keeps {u s t : State} {a0} (h : Keeps u s) (e : execMordantWrite a0 s = .next t) : Keeps u t := by
  unfold execMordantWrite at e
  refine Keeps.of_next ?_ e
  repeat' first
    | with_reducible refine State.mordantSave_keeps ?_ _
    | with_reducible refine Keeps.ite ?_ ?_
    | with_reducible assumption
    | with_reducible exact Keeps.refl _
    | split
    | dsimp only

theorem execMordantWriteDone_keeps {u s t : State} (h : Keeps u s) (e : execMordantWriteDone s = .next t) : Keeps u t := by
  unfold execMordantWriteDone at e
  refine Keeps.of_next ?_ e
  repeat' first
    | with_reducible refine State.mordantDone_keeps ?_
    | with_reducible assumption
    | with_reducible exact Keeps.refl _

theorem execMordantPeriod_keeps {u s t : State} (h : Keeps u s) (e : execMordantPeriod s = .next t) : Keeps u t := by
  unfold execMordantPeriod at e
  refine Keeps.of_next ?_ e
  repeat' first
    | with_reducible refine State.mordantPeriod_keeps ?_
    | with_reducible assumption
    | with_reducible exact Keeps.refl _

theorem execEvidenceRecord_keeps {u s t : State} {a0} (h : Keeps u s) (e : execEvidenceRecord a0 s = .next t) : Keeps u t := by
  unfold execEvidenceRecord at e
  refine Keeps.of_next ?_ e
  repeat' first
    | with_reducible refine State.attnUpdate_keeps ?_
    | with_reducible refine State.evidence_keeps ?_ _
    | with_reducible assumption
    | with_reducible exact Keeps.refl _

theorem execTerrBoundCross_keeps {u s t : State} (h : Keeps u s) (e : execTerrBoundCross s = .next t) : Keeps u t := by
  unfold execTerrBoundCross at e
  refine Keeps.of_next ?_ e
  repeat' first
    | with_reducible refine State.attnUpdate_keeps ?_
    | with_reducible refine State.itgTerr_keeps ?_
    | with_reducible assumption
    | with_reducible exact Keeps.refl _

theorem execHoldoverAgeLimit_keeps {u s t : State} (h : Keeps u s) (e : execHoldoverAgeLimit s = .next t) : Keeps u t := by
  unfold execHoldoverAgeLimit at e
  refine Keeps.of_next ?_ e
  repeat' first
    | with_reducible refine State.attnUpdate_keeps ?_
    | with_reducible refine State.itgAge_keeps ?_
    | with_reducible assumption
    | with_reducible exact Keeps.refl _

theorem execHoldinTimeout_keeps {u s t : State} (h : Keeps u s) (e : execHoldinTimeout s = .next t) : Keeps u t := by
  unfold execHoldinTimeout at e
  refine Keeps.of_next ?_ e
  repeat' first
    | with_reducible refine State.attnUpdate_keeps ?_
    | with_reducible refine State.itgNoFix_keeps ?_
    | with_reducible assumption
    | with_reducible exact Keeps.refl _

theorem execWoadLatchExpiry_keeps {u s t : State} (h : Keeps u s) (e : execWoadLatchExpiry s = .next t) : Keeps u t := by
  unfold execWoadLatchExpiry at e
  refine Keeps.of_next ?_ e
  repeat' first
    | with_reducible refine State.attnUpdate_keeps ?_
    | with_reducible refine State.woadExpiry_keeps ?_
    | with_reducible assumption
    | with_reducible exact Keeps.refl _

theorem execItgLatchWrite_keeps {u s t : State} {a0} {a1} (h : Keeps u s) (e : execItgLatchWrite a0 a1 s = .next t) : Keeps u t := by
  unfold execItgLatchWrite at e
  refine Keeps.of_next ?_ e
  repeat' first
    | with_reducible refine State.busDo_keeps ?_ _ _ _ _ _
    | with_reducible assumption
    | with_reducible exact Keeps.refl _

theorem execBurstStart_keeps {u s t : State} (h : Keeps u s) (e : execBurstStart s = .next t) : Keeps u t := by
  unfold execBurstStart at e
  refine Keeps.of_next ?_ e
  repeat' first
    | with_reducible refine State.burstStart_keeps ?_
    | with_reducible assumption
    | with_reducible exact Keeps.refl _

theorem execBurstEnd_keeps {u s t : State} (h : Keeps u s) (e : execBurstEnd s = .next t) : Keeps u t := by
  unfold execBurstEnd at e
  refine Keeps.of_next ?_ e
  repeat' first
    | with_reducible refine State.attnUpdate_keeps ?_
    | with_reducible refine State.burstEnd_keeps ?_
    | with_reducible assumption
    | with_reducible exact Keeps.refl _

theorem execBmax_keeps {u s t : State} (h : Keeps u s) (e : execBmax s = .next t) : Keeps u t := by
  unfold execBmax at e
  refine Keeps.of_next ?_ e
  repeat' first
    | with_reducible refine State.attnUpdate_keeps ?_
    | with_reducible refine State.burstMax_keeps ?_
    | with_reducible assumption
    | with_reducible exact Keeps.refl _

theorem execBurstArrayRelease_keeps {u s t : State} (h : Keeps u s) (e : execBurstArrayRelease s = .next t) : Keeps u t := by
  unfold execBurstArrayRelease at e
  refine Keeps.of_next ?_ e
  repeat' first
    | with_reducible refine State.burstRelease_keeps ?_
    | with_reducible assumption
    | with_reducible exact Keeps.refl _

theorem execDeviceEpoch_keeps {u s t : State} {a0} (h : Keeps u s) (e : execDeviceEpoch a0 s = .next t) : Keeps u t := by
  unfold execDeviceEpoch at e
  refine Keeps.of_next ?_ e
  repeat' first
    | with_reducible refine State.deviceEpoch_keeps ?_ _
    | with_reducible assumption
    | with_reducible exact Keeps.refl _

theorem execDeviceSecond_keeps {u s t : State} {a0} {a1} {a2} (h : Keeps u s) (e : execDeviceSecond a0 a1 a2 s = .next t) : Keeps u t := by
  unfold execDeviceSecond at e
  refine Keeps.of_next ?_ e
  repeat' first
    | with_reducible refine State.deviceSecond_keeps ?_ _ _ _
    | with_reducible assumption
    | with_reducible exact Keeps.refl _

theorem execFixRelease_keeps {u s t : State} {a0} {a1} (h : Keeps u s) (e : execFixRelease a0 a1 s = .next t) : Keeps u t := by
  unfold execFixRelease at e
  refine Keeps.of_next ?_ e
  repeat' first
    | with_reducible refine State.busDo_keeps ?_ _ _ _ _ _
    | with_reducible assumption
    | with_reducible exact Keeps.refl _

theorem execStepRequest_keeps {u s t : State} {a0} {a1} (h : Keeps u s) (e : execStepRequest a0 a1 s = .next t) : Keeps u t := by
  unfold execStepRequest at e
  refine Keeps.of_next ?_ e
  repeat' first
    | with_reducible refine State.busDo_keeps ?_ _ _ _ _ _
    | with_reducible assumption
    | with_reducible exact Keeps.refl _

theorem execLoadRequest_keeps {u s t : State} {a0} {a1} (h : Keeps u s) (e : execLoadRequest a0 a1 s = .next t) : Keeps u t := by
  unfold execLoadRequest at e
  refine Keeps.of_next ?_ e
  repeat' first
    | with_reducible refine State.busDo_keeps ?_ _ _ _ _ _
    | with_reducible assumption
    | with_reducible exact Keeps.refl _

theorem execTpSettingWrite_keeps {u s t : State} {a0} {a1} {a2} {a3} (h : Keeps u s) (e : execTpSettingWrite a0 a1 a2 a3 s = .next t) : Keeps u t := by
  unfold execTpSettingWrite at e
  refine Keeps.of_next ?_ e
  repeat' first
    | with_reducible refine State.busDo_keeps ?_ _ _ _ _ _
    | with_reducible assumption
    | with_reducible exact Keeps.refl _

theorem execTpCompose_keeps {u s t : State} {a0} {a1} (h : Keeps u s) (e : execTpCompose a0 a1 s = .next t) : Keeps u t := by
  unfold execTpCompose at e
  refine Keeps.of_next ?_ e
  repeat' first
    | with_reducible refine State.tpCompose_keeps ?_ _ _
    | with_reducible assumption
    | with_reducible exact Keeps.refl _

theorem execTpLeadingEdge_keeps {u s t : State} {a0} (h : Keeps u s) (e : execTpLeadingEdge a0 s = .next t) : Keeps u t := by
  unfold execTpLeadingEdge at e
  refine Keeps.of_next ?_ e
  repeat' first
    | with_reducible refine State.tpLead_keeps ?_ _
    | with_reducible assumption
    | with_reducible exact Keeps.refl _

theorem execTpTrailingEdge_keeps {u s t : State} {a0} (h : Keeps u s) (e : execTpTrailingEdge a0 s = .next t) : Keeps u t := by
  unfold execTpTrailingEdge at e
  refine Keeps.of_next ?_ e
  repeat' first
    | with_reducible refine State.tpTrail_keeps ?_ _
    | with_reducible assumption
    | with_reducible exact Keeps.refl _

theorem execTpiEdge_keeps {u s t : State} {a0} {a1} (h : Keeps u s) (e : execTpiEdge a0 a1 s = .next t) : Keeps u t := by
  unfold execTpiEdge at e
  refine Keeps.of_next ?_ e
  repeat' first
    | with_reducible refine State.tpiEdge_keeps ?_ _ _
    | with_reducible assumption
    | with_reducible exact Keeps.refl _

theorem execTpiloss_keeps {u s t : State} (h : Keeps u s) (e : execTpiloss s = .next t) : Keeps u t := by
  unfold execTpiloss at e
  refine Keeps.of_next ?_ e
  repeat' first
    | with_reducible refine State.tpiLoss_keeps ?_
    | with_reducible assumption
    | with_reducible exact Keeps.refl _

theorem execRfiClassifyRetry_keeps {u s t : State} {a0} (h : Keeps u s) (e : execRfiClassifyRetry a0 s = .next t) : Keeps u t := by
  unfold execRfiClassifyRetry at e
  refine Keeps.of_next ?_ e
  repeat' first
    | with_reducible refine State.rfiRetry_keeps ?_ _
    | with_reducible assumption
    | with_reducible exact Keeps.refl _

theorem execPllALockRetry_keeps {u s t : State} {a0} (h : Keeps u s) (e : execPllALockRetry a0 s = .next t) : Keeps u t := by
  unfold execPllALockRetry at e
  refine Keeps.of_next ?_ e
  repeat' first
    | with_reducible refine State.pllARetry_keeps ?_ _
    | with_reducible refine State.pllEvent_keeps ?_ _ (fun _ => ?_)
    | with_reducible refine Keeps.ite ?_ ?_
    | with_reducible assumption
    | with_reducible exact Keeps.refl _
    | split
    | dsimp only

theorem execPllCommit_keeps {u s t : State} {a0} {a1} {a2} (h : Keeps u s) (e : execPllCommit a0 a1 a2 s = .next t) : Keeps u t := by
  unfold execPllCommit at e
  refine Keeps.of_next ?_ e
  repeat' first
    | with_reducible refine State.busDo_keeps ?_ _ _ _ _ _
    | with_reducible assumption
    | with_reducible exact Keeps.refl _

theorem execPllRelock_keeps {u s t : State} {a0} {a1} {a2} (h : Keeps u s) (e : execPllRelock a0 a1 a2 s = .next t) : Keeps u t := by
  unfold execPllRelock at e
  refine Keeps.of_next ?_ e
  repeat' first
    | with_reducible refine State.busDo_keeps ?_ _ _ _ _ _
    | with_reducible assumption
    | with_reducible exact Keeps.refl _

theorem execPllEnable_keeps {u s t : State} {a0} {a1} {a2} (h : Keeps u s) (e : execPllEnable a0 a1 a2 s = .next t) : Keeps u t := by
  unfold execPllEnable at e
  refine Keeps.of_next ?_ e
  repeat' first
    | with_reducible refine State.busDo_keeps ?_ _ _ _ _ _
    | with_reducible assumption
    | with_reducible exact Keeps.refl _

theorem execPllFollow_keeps {u s t : State} {a0} {a1} {a2} (h : Keeps u s) (e : execPllFollow a0 a1 a2 s = .next t) : Keeps u t := by
  unfold execPllFollow at e
  refine Keeps.of_next ?_ e
  repeat' first
    | with_reducible refine State.busDo_keeps ?_ _ _ _ _ _
    | with_reducible assumption
    | with_reducible exact Keeps.refl _

theorem execPllTrimWrite_keeps {u s t : State} {a0} {a1} {a2} (h : Keeps u s) (e : execPllTrimWrite a0 a1 a2 s = .next t) : Keeps u t := by
  unfold execPllTrimWrite at e
  refine Keeps.of_next ?_ e
  repeat' first
    | with_reducible refine State.busDo_keeps ?_ _ _ _ _ _
    | with_reducible assumption
    | with_reducible exact Keeps.refl _

theorem execPllRampDone_keeps {u s t : State} {a0} (h : Keeps u s) (e : execPllRampDone a0 s = .next t) : Keeps u t := by
  unfold execPllRampDone at e
  refine Keeps.of_next ?_ e
  repeat' first
    | with_reducible refine State.pllRampDone_keeps ?_ _
    | with_reducible assumption
    | with_reducible exact Keeps.refl _

theorem execPllCalDone_keeps {u s t : State} {a0} (h : Keeps u s) (e : execPllCalDone a0 s = .next t) : Keeps u t := by
  unfold execPllCalDone at e
  refine Keeps.of_next ?_ e
  repeat' first
    | with_reducible refine State.pllCalDone_keeps ?_ _
    | with_reducible refine State.pllEvent_keeps ?_ _ (fun _ => ?_)
    | with_reducible refine Keeps.ite ?_ ?_
    | with_reducible assumption
    | with_reducible exact Keeps.refl _
    | split
    | dsimp only

theorem execLock_keeps {u s t : State} {a0} (h : Keeps u s) (e : execLock a0 s = .next t) : Keeps u t := by
  unfold execLock at e
  refine Keeps.of_next ?_ e
  repeat' first
    | with_reducible refine State.pllLock_keeps ?_ _
    | with_reducible refine State.pllEvent_keeps ?_ _ (fun _ => ?_)
    | with_reducible refine Keeps.ite ?_ ?_
    | with_reducible assumption
    | with_reducible exact Keeps.refl _
    | split
    | dsimp only

theorem execAligned_keeps {u s t : State} {a0} (h : Keeps u s) (e : execAligned a0 s = .next t) : Keeps u t := by
  unfold execAligned at e
  refine Keeps.of_next ?_ e
  repeat' first
    | with_reducible refine State.pllAligned_keeps ?_ _
    | with_reducible refine State.pllEvent_keeps ?_ _ (fun _ => ?_)
    | with_reducible refine Keeps.ite ?_ ?_
    | with_reducible assumption
    | with_reducible exact Keeps.refl _
    | split
    | dsimp only

theorem execLol_keeps {u s t : State} {a0} {a1} (h : Keeps u s) (e : execLol a0 a1 s = .next t) : Keeps u t := by
  unfold execLol at e
  refine Keeps.of_next ?_ e
  repeat' first
    | with_reducible refine State.pllLol_keeps ?_ _ _
    | with_reducible refine State.pllEvent_keeps ?_ _ (fun _ => ?_)
    | with_reducible refine Keeps.ite ?_ ?_
    | with_reducible assumption
    | with_reducible exact Keeps.refl _
    | split
    | dsimp only

theorem execLor_keeps {u s t : State} {a0} (h : Keeps u s) (e : execLor a0 s = .next t) : Keeps u t := by
  unfold execLor at e
  refine Keeps.of_next ?_ e
  repeat' first
    | with_reducible refine State.pllLor_keeps ?_ _
    | with_reducible refine State.pllEvent_keeps ?_ _ (fun _ => ?_)
    | with_reducible refine Keeps.ite ?_ ?_
    | with_reducible assumption
    | with_reducible exact Keeps.refl _
    | split
    | dsimp only

theorem execRfiReturn_keeps {u s t : State} (h : Keeps u s) (e : execRfiReturn s = .next t) : Keeps u t := by
  unfold execRfiReturn at e
  refine Keeps.of_next ?_ e
  repeat' first
    | with_reducible refine State.pllReturn_keeps ?_
    | with_reducible refine State.pllEvent_keeps ?_ _ (fun _ => ?_)
    | with_reducible assumption
    | with_reducible exact Keeps.refl _

theorem execCkoCfgWrite_keeps {u s t : State} {a0} {a1} {a2} (h : Keeps u s) (e : execCkoCfgWrite a0 a1 a2 s = .next t) : Keeps u t := by
  unfold execCkoCfgWrite at e
  refine Keeps.of_next ?_ e
  repeat' first
    | with_reducible refine State.busDo_keeps ?_ _ _ _ _ _
    | with_reducible assumption
    | with_reducible exact Keeps.refl _

theorem execComplSet_keeps {u s t : State} {a0} {a1} (h : Keeps u s) (e : execComplSet a0 a1 s = .next t) : Keeps u t := by
  unfold execComplSet at e
  refine Keeps.of_next ?_ e
  repeat' first
    | with_reducible refine State.complSet_keeps ?_ _ _
    | with_reducible assumption
    | with_reducible exact Keeps.refl _

theorem execComplClear_keeps {u s t : State} {a0} {a1} (h : Keeps u s) (e : execComplClear a0 a1 s = .next t) : Keeps u t := by
  unfold execComplClear at e
  refine Keeps.of_next ?_ e
  repeat' first
    | with_reducible refine State.complClear_keeps ?_ _ _
    | with_reducible assumption
    | with_reducible exact Keeps.refl _

theorem execComplEpisodeEnd_keeps {u s t : State} {a0} (h : Keeps u s) (e : execComplEpisodeEnd a0 s = .next t) : Keeps u t := by
  unfold execComplEpisodeEnd at e
  refine Keeps.of_next ?_ e
  repeat' first
    | with_reducible refine State.complEnd_keeps ?_ _
    | with_reducible assumption
    | with_reducible exact Keeps.refl _

theorem execFrameReceived_keeps {u s t : State} {a0} {a1} (h : Keeps u s) (e : execFrameReceived a0 a1 s = .next t) : Keeps u t := by
  unfold execFrameReceived at e
  refine Keeps.of_next ?_ e
  repeat' first
    | with_reducible refine State.frameRx_keeps ?_ _ _
    | with_reducible assumption
    | with_reducible exact Keeps.refl _

theorem execForwardCopySent_keeps {u s t : State} {a0} {a1} (h : Keeps u s) (e : execForwardCopySent a0 a1 s = .next t) : Keeps u t := by
  unfold execForwardCopySent at e
  refine Keeps.of_next ?_ e
  repeat' first
    | with_reducible refine State.copySent_keeps ?_ _ _
    | with_reducible assumption
    | with_reducible exact Keeps.refl _

theorem execSyncRx_keeps {u s t : State} {a0} {a1} {a2} (h : Keeps u s) (e : execSyncRx a0 a1 a2 s = .next t) : Keeps u t := by
  unfold execSyncRx at e
  refine Keeps.of_next ?_ e
  repeat' first
    | with_reducible refine State.syncRx_keeps ?_ _ _ _
    | with_reducible assumption
    | with_reducible exact Keeps.refl _

theorem execFollowUpRx_keeps {u s t : State} {a0} {a1} (h : Keeps u s) (e : execFollowUpRx a0 a1 s = .next t) : Keeps u t := by
  unfold execFollowUpRx at e
  refine Keeps.of_next ?_ e
  repeat' first
    | with_reducible refine State.followUpRx_keeps ?_ _ _
    | with_reducible assumption
    | with_reducible exact Keeps.refl _

theorem execAnnounceRx_keeps {u s t : State} {a0} {a1} (h : Keeps u s) (e : execAnnounceRx a0 a1 s = .next t) : Keeps u t := by
  unfold execAnnounceRx at e
  refine Keeps.of_next ?_ e
  repeat' first
    | with_reducible refine State.announceRx_keeps ?_ _ _
    | with_reducible assumption
    | with_reducible exact Keeps.refl _

theorem execDelayReqRx_keeps {u s t : State} {a0} {a1} {a2} (h : Keeps u s) (e : execDelayReqRx a0 a1 a2 s = .next t) : Keeps u t := by
  unfold execDelayReqRx at e
  refine Keeps.of_next ?_ e
  repeat' first
    | with_reducible refine State.delayReqRx_keeps ?_ _ _ _
    | with_reducible assumption
    | with_reducible exact Keeps.refl _

theorem execDelayRespRx_keeps {u s t : State} {a0} {a1} (h : Keeps u s) (e : execDelayRespRx a0 a1 s = .next t) : Keeps u t := by
  unfold execDelayRespRx at e
  refine Keeps.of_next ?_ e
  repeat' first
    | with_reducible refine State.delayRespRx_keeps ?_ _ _
    | with_reducible assumption
    | with_reducible exact Keeps.refl _

theorem execPdelayReqRx_keeps {u s t : State} {a0} {a1} {a2} {a3} (h : Keeps u s) (e : execPdelayReqRx a0 a1 a2 a3 s = .next t) : Keeps u t := by
  unfold execPdelayReqRx at e
  refine Keeps.of_next ?_ e
  repeat' first
    | with_reducible refine State.pdelayReqRx_keeps ?_ _ _ _ _
    | with_reducible assumption
    | with_reducible exact Keeps.refl _

theorem execPdelayRespRx_keeps {u s t : State} {a0} {a1} {a2} (h : Keeps u s) (e : execPdelayRespRx a0 a1 a2 s = .next t) : Keeps u t := by
  unfold execPdelayRespRx at e
  refine Keeps.of_next ?_ e
  repeat' first
    | with_reducible refine State.pdelayRespRx_keeps ?_ _ _ _
    | with_reducible assumption
    | with_reducible exact Keeps.refl _

theorem execSyncTx_keeps {u s t : State} {a0} {a1} {a2} (h : Keeps u s) (e : execSyncTx a0 a1 a2 s = .next t) : Keeps u t := by
  unfold execSyncTx at e
  refine Keeps.of_next ?_ e
  repeat' first
    | with_reducible refine State.syncTx_keeps ?_ _ _ _
    | with_reducible assumption
    | with_reducible exact Keeps.refl _

theorem execAnnounceTx_keeps {u s t : State} {a0} {a1} (h : Keeps u s) (e : execAnnounceTx a0 a1 s = .next t) : Keeps u t := by
  unfold execAnnounceTx at e
  refine Keeps.of_next ?_ e
  repeat' first
    | with_reducible refine State.announceTx_keeps ?_ _ _
    | with_reducible assumption
    | with_reducible exact Keeps.refl _

theorem execDelayReqTx_keeps {u s t : State} {a0} {a1} {a2} (h : Keeps u s) (e : execDelayReqTx a0 a1 a2 s = .next t) : Keeps u t := by
  unfold execDelayReqTx at e
  refine Keeps.of_next ?_ e
  repeat' first
    | with_reducible refine State.delayReqTx_keeps ?_ _ _ _
    | with_reducible assumption
    | with_reducible exact Keeps.refl _

theorem execAnnounceTimeout_keeps {u s t : State} {a0} {a1} (h : Keeps u s) (e : execAnnounceTimeout a0 a1 s = .next t) : Keeps u t := by
  unfold execAnnounceTimeout at e
  refine Keeps.of_next ?_ e
  repeat' first
    | with_reducible refine State.announceTimeout_keeps ?_ _ _
    | with_reducible assumption
    | with_reducible exact Keeps.refl _

theorem execPtpSourceSwitch_keeps {u s t : State} (h : Keeps u s) (e : execPtpSourceSwitch s = .next t) : Keeps u t := by
  unfold execPtpSourceSwitch at e
  refine Keeps.of_next ?_ e
  repeat' first
    | with_reducible refine State.ptpSwitch_keeps ?_
    | with_reducible assumption
    | with_reducible exact Keeps.refl _

theorem execArpRequest_keeps {u s t : State} {a0} {a1} (h : Keeps u s) (e : execArpRequest a0 a1 s = .next t) : Keeps u t := by
  unfold execArpRequest at e
  refine Keeps.of_next ?_ e
  repeat' first
    | with_reducible refine State.arpRx_keeps ?_ _ _
    | with_reducible assumption
    | with_reducible exact Keeps.refl _

theorem execNeighbourSolicitation_keeps {u s t : State} {a0} {a1} (h : Keeps u s) (e : execNeighbourSolicitation a0 a1 s = .next t) : Keeps u t := by
  unfold execNeighbourSolicitation at e
  refine Keeps.of_next ?_ e
  repeat' first
    | with_reducible refine State.nsRx_keeps ?_ _ _
    | with_reducible assumption
    | with_reducible exact Keeps.refl _

theorem execStatusGet_keeps {u s t : State} {a0} {a1} {a2} {a3} (h : Keeps u s) (e : execStatusGet a0 a1 a2 a3 s = .next t) : Keeps u t := by
  unfold execStatusGet at e
  refine Keeps.of_next ?_ e
  repeat' first
    | with_reducible refine State.statusGet_keeps ?_ _ _ _ _ _
    | with_reducible assumption
    | with_reducible exact Keeps.refl _

theorem execTimeDatagram_keeps {u s t : State} {a0} (h : Keeps u s) (e : execTimeDatagram a0 s = .next t) : Keeps u t := by
  unfold execTimeDatagram at e
  refine Keeps.of_next ?_ e
  repeat' first
    | with_reducible refine State.timeDatagram_keeps ?_ _
    | with_reducible assumption
    | with_reducible exact Keeps.refl _

theorem execTpNextDatagram_keeps {u s t : State} {a0} {a1} (h : Keeps u s) (e : execTpNextDatagram a0 a1 s = .next t) : Keeps u t := by
  unfold execTpNextDatagram at e
  refine Keeps.of_next ?_ e
  repeat' first
    | with_reducible refine State.tpNextDatagram_keeps ?_ _ _
    | with_reducible assumption
    | with_reducible exact Keeps.refl _

theorem execMeasDatagram_keeps {u s t : State} {a0} {a1} {a2} (h : Keeps u s) (e : execMeasDatagram a0 a1 a2 s = .next t) : Keeps u t := by
  unfold execMeasDatagram at e
  refine Keeps.of_next ?_ e
  repeat' first
    | with_reducible refine State.measDatagram_keeps ?_ _
    | with_reducible assumption
    | with_reducible exact Keeps.refl _

theorem execIntegDatagram_keeps {u s t : State} {a0} (h : Keeps u s) (e : execIntegDatagram a0 s = .next t) : Keeps u t := by
  unfold execIntegDatagram at e
  refine Keeps.of_next ?_ e
  repeat' first
    | with_reducible refine State.integDatagram_keeps ?_ _
    | with_reducible assumption
    | with_reducible exact Keeps.refl _

theorem execIdentDatagram_keeps {u s t : State} {a0} (h : Keeps u s) (e : execIdentDatagram a0 s = .next t) : Keeps u t := by
  unfold execIdentDatagram at e
  refine Keeps.of_next ?_ e
  repeat' first
    | with_reducible refine State.identDatagram_keeps ?_ _
    | with_reducible assumption
    | with_reducible exact Keeps.refl _

theorem execUmberSumDatagram_keeps {u s t : State} {a0} (h : Keeps u s) (e : execUmberSumDatagram a0 s = .next t) : Keeps u t := by
  unfold execUmberSumDatagram at e
  refine Keeps.of_next ?_ e
  repeat' first
    | with_reducible refine State.umberSumDatagram_keeps ?_ _
    | with_reducible assumption
    | with_reducible exact Keeps.refl _

theorem execEptLinkChange_keeps {u s t : State} {a0} {a1} {a2} (h : Keeps u s) (e : execEptLinkChange a0 a1 a2 s = .next t) : Keeps u t := by
  unfold execEptLinkChange at e
  refine Keeps.of_next ?_ e
  repeat' first
    | with_reducible refine State.linkChange_keeps ?_ _ _ _
    | with_reducible assumption
    | with_reducible exact Keeps.refl _

theorem execEptCredWrite_keeps {u s t : State} {a0} {a1} {a2} (h : Keeps u s) (e : execEptCredWrite a0 a1 a2 s = .next t) : Keeps u t := by
  unfold execEptCredWrite at e
  refine Keeps.of_next ?_ e
  repeat' first
    | with_reducible refine State.busDo_keeps ?_ _ _ _ _ _
    | with_reducible assumption
    | with_reducible exact Keeps.refl _

theorem execSlotSamplesAged_keeps {u s t : State} {a0} (h : Keeps u s) (e : execSlotSamplesAged a0 s = .next t) : Keeps u t := by
  unfold execSlotSamplesAged at e
  refine Keeps.of_next ?_ e
  repeat' first
    | with_reducible refine State.slotAged_keeps ?_ _
    | with_reducible assumption
    | with_reducible exact Keeps.refl _

theorem State.winLimit_keeps {u s : State} (h : Keeps u s) (a1) : Keeps u (State.winLimit s a1) := by
  unfold State.winLimit
  try dsimp -iota only
  repeat' first
    | with_reducible refine State.winClose_keeps ?_ _ _ _
    | with_reducible refine Keeps.ite ?_ ?_
    | with_reducible assumption
    | with_reducible exact Keeps.refl _
    | split
    | dsimp only

theorem State.winHoldEnd_keeps {u s : State} (h : Keeps u s) (a1) : Keeps u (State.winHoldEnd s a1) := by
  unfold State.winHoldEnd
  try dsimp -iota only
  repeat' first
    | with_reducible refine State.winClose_keeps ?_ _ _ _
    | with_reducible refine Keeps.ite ?_ ?_
    | with_reducible assumption
    | with_reducible exact Keeps.refl _
    | split
    | dsimp only

theorem execTelCfgWrite_keeps {u s t : State} {a0} {a1} {a2} (h : Keeps u s) (e : execTelCfgWrite a0 a1 a2 s = .next t) : Keeps u t := by
  unfold execTelCfgWrite at e
  refine Keeps.of_next ?_ e
  repeat' first
    | with_reducible refine State.busDo_keeps ?_ _ _ _ _ _
    | with_reducible assumption
    | with_reducible exact Keeps.refl _

theorem execTelPtrWrite_keeps {u s t : State} {a0} {a1} {a2} (h : Keeps u s) (e : execTelPtrWrite a0 a1 a2 s = .next t) : Keeps u t := by
  unfold execTelPtrWrite at e
  refine Keeps.of_next ?_ e
  repeat' first
    | with_reducible refine State.busDo_keeps ?_ _ _ _ _ _
    | with_reducible assumption
    | with_reducible exact Keeps.refl _

theorem execTelInval_keeps {u s t : State} {a0} {a1} (h : Keeps u s) (e : execTelInval a0 a1 s = .next t) : Keeps u t := by
  unfold execTelInval at e
  refine Keeps.of_next ?_ e
  repeat' first
    | with_reducible refine State.busDo_keeps ?_ _ _ _ _ _
    | with_reducible assumption
    | with_reducible exact Keeps.refl _

theorem execTelFetch_keeps {u s t : State} {a0} {a1} (h : Keeps u s) (e : execTelFetch a0 a1 s = .next t) : Keeps u t := by
  unfold execTelFetch at e
  refine Keeps.of_next ?_ e
  repeat' first
    | with_reducible refine State.telFetch_keeps ?_ _ _
    | with_reducible assumption
    | with_reducible exact Keeps.refl _

theorem execTelNop_keeps {u s t : State} {a0} {a1} (h : Keeps u s) (e : execTelNop a0 a1 s = .next t) : Keeps u t := by
  unfold execTelNop at e
  refine Keeps.of_next ?_ e
  repeat' first
    | with_reducible refine State.telExec_keeps ?_ _ _ _ _ (fun _ _ => ?_)
    | with_reducible refine Keeps.ite ?_ ?_
    | with_reducible assumption
    | with_reducible exact Keeps.refl _
    | split
    | dsimp only

theorem execTelSet_keeps {u s t : State} {a0} {a1} (h : Keeps u s) (e : execTelSet a0 a1 s = .next t) : Keeps u t := by
  unfold execTelSet at e
  refine Keeps.of_next ?_ e
  repeat' first
    | with_reducible refine State.telExec_keeps ?_ _ _ _ _ (fun _ _ => ?_)
    | with_reducible refine telActSet_keeps ?_ _ _
    | with_reducible assumption
    | with_reducible exact Keeps.refl _

theorem execTelClear_keeps {u s t : State} {a0} {a1} (h : Keeps u s) (e : execTelClear a0 a1 s = .next t) : Keeps u t := by
  unfold execTelClear at e
  refine Keeps.of_next ?_ e
  repeat' first
    | with_reducible refine State.telExec_keeps ?_ _ _ _ _ (fun _ _ => ?_)
    | with_reducible refine telActClear_keeps ?_ _ _
    | with_reducible assumption
    | with_reducible exact Keeps.refl _

theorem execTelPulse_keeps {u s t : State} {a0} {a1} (h : Keeps u s) (e : execTelPulse a0 a1 s = .next t) : Keeps u t := by
  unfold execTelPulse at e
  refine Keeps.of_next ?_ e
  repeat' first
    | with_reducible refine State.telExec_keeps ?_ _ _ _ _ (fun _ _ => ?_)
    | with_reducible refine telActPulse_keeps ?_ _ _ _
    | with_reducible assumption
    | with_reducible exact Keeps.refl _

theorem execTelOpen_keeps {u s t : State} {a0} {a1} (h : Keeps u s) (e : execTelOpen a0 a1 s = .next t) : Keeps u t := by
  unfold execTelOpen at e
  refine Keeps.of_next ?_ e
  repeat' first
    | with_reducible refine State.telExec_keeps ?_ _ _ _ _ (fun _ _ => ?_)
    | with_reducible refine telActOpen_keeps ?_ _ _ _
    | with_reducible assumption
    | with_reducible exact Keeps.refl _

theorem execTelClose_keeps {u s t : State} {a0} {a1} (h : Keeps u s) (e : execTelClose a0 a1 s = .next t) : Keeps u t := by
  unfold execTelClose at e
  refine Keeps.of_next ?_ e
  repeat' first
    | with_reducible refine State.telExec_keeps ?_ _ _ _ _ (fun _ _ => ?_)
    | with_reducible refine telActClose_keeps ?_ _ _ _
    | with_reducible assumption
    | with_reducible exact Keeps.refl _

theorem execTelArm_keeps {u s t : State} {a0} {a1} (h : Keeps u s) (e : execTelArm a0 a1 s = .next t) : Keeps u t := by
  unfold execTelArm at e
  refine Keeps.of_next ?_ e
  repeat' first
    | with_reducible refine State.telExec_keeps ?_ _ _ _ _ (fun _ _ => ?_)
    | with_reducible refine telActArm_keeps ?_ _ _ _
    | with_reducible assumption
    | with_reducible exact Keeps.refl _

theorem execTelDisarm_keeps {u s t : State} {a0} {a1} (h : Keeps u s) (e : execTelDisarm a0 a1 s = .next t) : Keeps u t := by
  unfold execTelDisarm at e
  refine Keeps.of_next ?_ e
  repeat' first
    | with_reducible refine State.telExec_keeps ?_ _ _ _ _ (fun _ _ => ?_)
    | with_reducible refine telActArm_keeps ?_ _ _ _
    | with_reducible assumption
    | with_reducible exact Keeps.refl _

theorem execPulseEnd_keeps {u s t : State} {a0} (h : Keeps u s) (e : execPulseEnd a0 s = .next t) : Keeps u t := by
  unfold execPulseEnd at e
  refine Keeps.of_next ?_ e
  repeat' first
    | with_reducible refine State.telPulseEnd_keeps ?_ _
    | with_reducible assumption
    | with_reducible exact Keeps.refl _

theorem execWindowLimit_keeps {u s t : State} {a0} (h : Keeps u s) (e : execWindowLimit a0 s = .next t) : Keeps u t := by
  unfold execWindowLimit at e
  refine Keeps.of_next ?_ e
  repeat' first
    | with_reducible refine State.winLimit_keeps ?_ _
    | with_reducible assumption
    | with_reducible exact Keeps.refl _

theorem execHoldend_keeps {u s t : State} {a0} (h : Keeps u s) (e : execHoldend a0 s = .next t) : Keeps u t := by
  unfold execHoldend at e
  refine Keeps.of_next ?_ e
  repeat' first
    | with_reducible refine State.winHoldEnd_keeps ?_ _
    | with_reducible assumption
    | with_reducible exact Keeps.refl _

theorem execTelPermitWrite_keeps {u s t : State} {a0} {a1} {a2} (h : Keeps u s) (e : execTelPermitWrite a0 a1 a2 s = .next t) : Keeps u t := by
  unfold execTelPermitWrite at e
  refine Keeps.of_next ?_ e
  repeat' first
    | with_reducible refine State.busDo_keeps ?_ _ _ _ _ _
    | with_reducible assumption
    | with_reducible exact Keeps.refl _

theorem execCaptureEdge_keeps {u s t : State} {a0} {a1} {a2} {a3} (h : Keeps u s) (e : execCaptureEdge a0 a1 a2 a3 s = .next t) : Keeps u t := by
  unfold execCaptureEdge at e
  refine Keeps.of_next ?_ e
  repeat' first
    | with_reducible refine State.telEdge_keeps ?_ _ _ _ _
    | with_reducible assumption
    | with_reducible exact Keeps.refl _

theorem execCaptureOverflowEpisodeEnd_keeps {u s t : State} {a0} (h : Keeps u s) (e : execCaptureOverflowEpisodeEnd a0 s = .next t) : Keeps u t := by
  unfold execCaptureOverflowEpisodeEnd at e
  refine Keeps.of_next ?_ e
  repeat' first
    | with_reducible refine State.telOvfEnd_keeps ?_ _
    | with_reducible assumption
    | with_reducible exact Keeps.refl _

theorem execTelCapRead_keeps {u s t : State} {a0} {a1} (h : Keeps u s) (e : execTelCapRead a0 a1 s = .next t) : Keeps u t := by
  unfold execTelCapRead at e
  refine Keeps.of_next ?_ e
  repeat' first
    | with_reducible refine State.busGet_keeps ?_ _ _ _ _
    | with_reducible assumption
    | with_reducible exact Keeps.refl _

theorem execBankSupplyMeasure_keeps {u s t : State} {a0} {a1} (h : Keeps u s) (e : execBankSupplyMeasure a0 a1 s = .next t) : Keeps u t := by
  unfold execBankSupplyMeasure at e
  refine Keeps.of_next ?_ e
  repeat' first
    | with_reducible refine State.bankMeasure_keeps ?_ _ _
    | with_reducible assumption
    | with_reducible exact Keeps.refl _

theorem execBankDriverReturn_keeps {u s t : State} {a0} (h : Keeps u s) (e : execBankDriverReturn a0 s = .next t) : Keeps u t := by
  unfold execBankDriverReturn at e
  refine Keeps.of_next ?_ e
  repeat' first
    | with_reducible refine State.bankReturn_keeps ?_ _
    | with_reducible assumption
    | with_reducible exact Keeps.refl _

theorem execRtcSecStage_keeps {u s t : State} {a0} {a1} (h : Keeps u s) (e : execRtcSecStage a0 a1 s = .next t) : Keeps u t := by
  unfold execRtcSecStage at e
  refine Keeps.of_next ?_ e
  repeat' first
    | with_reducible refine State.busDo_keeps ?_ _ _ _ _ _
    | with_reducible assumption
    | with_reducible exact Keeps.refl _

theorem execRtcSecCommit_keeps {u s t : State} {a0} {a1} (h : Keeps u s) (e : execRtcSecCommit a0 a1 s = .next t) : Keeps u t := by
  unfold execRtcSecCommit at e
  refine Keeps.of_next ?_ e
  repeat' first
    | with_reducible refine State.busDo_keeps ?_ _ _ _ _ _
    | with_reducible assumption
    | with_reducible exact Keeps.refl _

theorem execRtcSecApply_keeps {u s t : State} {a0} (h : Keeps u s) (e : execRtcSecApply a0 s = .next t) : Keeps u t := by
  unfold execRtcSecApply at e
  refine Keeps.of_next ?_ e
  repeat' first
    | with_reducible refine State.rtcSecApply_keeps ?_ _
    | with_reducible assumption
    | with_reducible exact Keeps.refl _

theorem execRtcTrimWrite_keeps {u s t : State} {a0} {a1} (h : Keeps u s) (e : execRtcTrimWrite a0 a1 s = .next t) : Keeps u t := by
  unfold execRtcTrimWrite at e
  refine Keeps.of_next ?_ e
  repeat' first
    | with_reducible refine State.busDo_keeps ?_ _ _ _ _ _
    | with_reducible assumption
    | with_reducible exact Keeps.refl _

theorem execRtcWakeWrite_keeps {u s t : State} {a0} {a1} {a2} (h : Keeps u s) (e : execRtcWakeWrite a0 a1 a2 s = .next t) : Keeps u t := by
  unfold execRtcWakeWrite at e
  refine Keeps.of_next ?_ e
  repeat' first
    | with_reducible refine State.rtcAdvance_keeps ?_ _
    | with_reducible refine State.busDo_keeps ?_ _ _ _ _ _
    | with_reducible assumption
    | with_reducible exact Keeps.refl _

theorem execPeriodicWake_keeps {u s t : State} {a0} (h : Keeps u s) (e : execPeriodicWake a0 s = .next t) : Keeps u t := by
  unfold execPeriodicWake at e
  refine Keeps.of_next ?_ e
  repeat' first
    | with_reducible refine State.rtcPeriodic_keeps ?_ _
    | with_reducible assumption
    | with_reducible exact Keeps.refl _

theorem execHostResume_keeps {u s t : State} {a0} (h : Keeps u s) (e : execHostResume a0 s = .next t) : Keeps u t := by
  unfold execHostResume at e
  refine Keeps.of_next ?_ e
  repeat' first
    | with_reducible refine State.rtcHost_keeps ?_ _
    | with_reducible assumption
    | with_reducible exact Keeps.refl _

theorem execFswclr_keeps {u s t : State} {a0} {a1} (h : Keeps u s) (e : execFswclr a0 a1 s = .next t) : Keeps u t := by
  unfold execFswclr at e
  refine Keeps.of_next ?_ e
  repeat' first
    | with_reducible refine State.busDo_keeps ?_ _ _ _ _ _
    | with_reducible assumption
    | with_reducible exact Keeps.refl _

theorem execSwitchToVbat_keeps {u s t : State} {a0} (h : Keeps u s) (e : execSwitchToVbat a0 s = .next t) : Keeps u t := by
  unfold execSwitchToVbat at e
  refine Keeps.of_next ?_ e
  repeat' first
    | with_reducible refine State.rtcToVbat_keeps ?_ _
    | with_reducible assumption
    | with_reducible exact Keeps.refl _

theorem execReturnFromVbat_keeps {u s t : State} {a0} (h : Keeps u s) (e : execReturnFromVbat a0 s = .next t) : Keeps u t := by
  unfold execReturnFromVbat at e
  refine Keeps.of_next ?_ e
  repeat' first
    | with_reducible refine State.rtcFromVbat_keeps ?_ _
    | with_reducible assumption
    | with_reducible exact Keeps.refl _

theorem execAonLockRelease_keeps {u s t : State} (h : Keeps u s) (e : execAonLockRelease s = .next t) : Keeps u t := by
  unfold execAonLockRelease at e
  refine Keeps.of_next ?_ e
  repeat' first
    | with_reducible refine State.rtcLockEnd_keeps ?_
    | with_reducible assumption
    | with_reducible exact Keeps.refl _

theorem execAonReset_keeps {u s t : State} (h : Keeps u s) (e : execAonReset s = .next t) : Keeps u t := by
  unfold execAonReset at e
  refine Keeps.of_next ?_ e
  repeat' first
    | with_reducible refine State.rtcReset_keeps ?_
    | with_reducible assumption
    | with_reducible exact Keeps.refl _

theorem execAonResetRelease_keeps {u s t : State} {a0} (h : Keeps u s) (e : execAonResetRelease a0 s = .next t) : Keeps u t := by
  unfold execAonResetRelease at e
  refine Keeps.of_next ?_ e
  repeat' first
    | with_reducible refine State.rtcLeaveReset_keeps ?_ _
    | with_reducible assumption
    | with_reducible exact Keeps.refl _

theorem execVbatMeasure_keeps {u s t : State} {a0} (h : Keeps u s) (e : execVbatMeasure a0 s = .next t) : Keeps u t := by
  unfold execVbatMeasure at e
  refine Keeps.of_next ?_ e
  repeat' first
    | with_reducible refine State.rtcVbat_keeps ?_ _
    | with_reducible assumption
    | with_reducible exact Keeps.refl _

theorem execXofail_keeps {u s t : State} {a0} (h : Keeps u s) (e : execXofail a0 s = .next t) : Keeps u t := by
  unfold execXofail at e
  refine Keeps.of_next ?_ e
  repeat' first
    | with_reducible refine State.rtcXofail_keeps ?_ _
    | with_reducible assumption
    | with_reducible exact Keeps.refl _

theorem execCrystalEdgesReturn_keeps {u s t : State} (h : Keeps u s) (e : execCrystalEdgesReturn s = .next t) : Keeps u t := by
  unfold execCrystalEdgesReturn at e
  refine Keeps.of_next ?_ e
  repeat' first
    | with_reducible refine State.rtcEdgesReturn_keeps ?_
    | with_reducible assumption
    | with_reducible exact Keeps.refl _

theorem execRtcTickRead_keeps {u s t : State} {a0} {a1} (h : Keeps u s) (e : execRtcTickRead a0 a1 s = .next t) : Keeps u t := by
  unfold execRtcTickRead at e
  refine Keeps.of_next ?_ e
  repeat' first
    | with_reducible refine State.rtcAdvance_keeps ?_ _
    | with_reducible refine State.busGet_keeps ?_ _ _ _ _
    | with_reducible assumption
    | with_reducible exact Keeps.refl _

theorem execRtcSecRead_keeps {u s t : State} {a0} {a1} (h : Keeps u s) (e : execRtcSecRead a0 a1 s = .next t) : Keeps u t := by
  unfold execRtcSecRead at e
  refine Keeps.of_next ?_ e
  repeat' first
    | with_reducible refine State.rtcAdvance_keeps ?_ _
    | with_reducible refine State.busGet_keeps ?_ _ _ _ _
    | with_reducible assumption
    | with_reducible exact Keeps.refl _

theorem execRtcStampRead_keeps {u s t : State} {a0} {a1} (h : Keeps u s) (e : execRtcStampRead a0 a1 s = .next t) : Keeps u t := by
  unfold execRtcStampRead at e
  refine Keeps.of_next ?_ e
  repeat' first
    | with_reducible refine State.busGet_keeps ?_ _ _ _ _
    | with_reducible assumption
    | with_reducible exact Keeps.refl _

theorem execPowerUp_keeps {u s t : State} (h : Keeps u s) (e : execPowerUp s = .next t) : Keeps u t := by
  unfold execPowerUp at e
  refine Keeps.of_next ?_ e
  repeat' first
    | with_reducible refine State.powerUp_keeps ?_
    | with_reducible assumption
    | with_reducible exact Keeps.refl _

theorem execRstNAssert_keeps {u s t : State} (h : Keeps u s) (e : execRstNAssert s = .next t) : Keeps u t := by
  unfold execRstNAssert at e
  refine Keeps.of_next ?_ e
  repeat' first
    | with_reducible refine State.rstAssert_keeps ?_
    | with_reducible assumption
    | with_reducible exact Keeps.refl _

theorem execRstNRelease_keeps {u s t : State} (h : Keeps u s) (e : execRstNRelease s = .next t) : Keeps u t := by
  unfold execRstNRelease at e
  refine Keeps.of_next ?_ e
  repeat' first
    | with_reducible refine State.rstRelease_keeps ?_
    | with_reducible assumption
    | with_reducible exact Keeps.refl _

theorem execPfwN_keeps {u s t : State} (h : Keeps u s) (e : execPfwN s = .next t) : Keeps u t := by
  unfold execPfwN at e
  refine Keeps.of_next ?_ e
  repeat' first
    | with_reducible refine State.pfwLow_keeps ?_
    | with_reducible assumption
    | with_reducible exact Keeps.refl _

theorem execSupplyWarning_keeps {u s t : State} {a0} {a1} (h : Keeps u s) (e : execSupplyWarning a0 a1 s = .next t) : Keeps u t := by
  unfold execSupplyWarning at e
  refine Keeps.of_next ?_ e
  repeat' first
    | with_reducible refine State.supplyWarning_keeps ?_ _ _
    | with_reducible assumption
    | with_reducible exact Keeps.refl _

theorem execSupplyReset_keeps {u s t : State} {a0} (h : Keeps u s) (e : execSupplyReset a0 s = .next t) : Keeps u t := by
  unfold execSupplyReset at e
  refine Keeps.of_next ?_ e
  repeat' first
    | with_reducible refine State.supplyReset_keeps ?_ _
    | with_reducible assumption
    | with_reducible exact Keeps.refl _

theorem execRailAbsent_keeps {u s t : State} {a0} (h : Keeps u s) (e : execRailAbsent a0 s = .next t) : Keeps u t := by
  unfold execRailAbsent at e
  refine Keeps.of_next ?_ e
  repeat' first
    | with_reducible refine State.railAbsent_keeps ?_ _
    | with_reducible assumption
    | with_reducible exact Keeps.refl _

theorem execBrace_keeps {u s t : State} (h : Keeps u s) (e : execBrace s = .next t) : Keeps u t := by
  unfold execBrace at e
  refine Keeps.of_next ?_ e
  repeat' first
    | with_reducible refine State.braceBegin_keeps ?_
    | with_reducible refine State.dspFlush_keeps ?_
    | with_reducible refine Keeps.ite ?_ ?_
    | with_reducible assumption
    | with_reducible exact Keeps.refl _
    | split
    | dsimp only

theorem execWarningEnd_keeps {u s t : State} (h : Keeps u s) (e : execWarningEnd s = .next t) : Keeps u t := by
  unfold execWarningEnd at e
  refine Keeps.of_next ?_ e
  repeat' first
    | with_reducible refine State.warningEnd_keeps ?_
    | with_reducible assumption
    | with_reducible exact Keeps.refl _

theorem execBraceEndShort_keeps {u s t : State} (h : Keeps u s) (e : execBraceEndShort s = .next t) : Keeps u t := by
  unfold execBraceEndShort at e
  refine Keeps.of_next ?_ e
  repeat' first
    | with_reducible refine State.braceShort_keeps ?_
    | with_reducible assumption
    | with_reducible exact Keeps.refl _

theorem execBraceEndLong_keeps {u s t : State} (h : Keeps u s) (e : execBraceEndLong s = .next t) : Keeps u t := by
  unfold execBraceEndLong at e
  refine Keeps.of_next ?_ e
  repeat' first
    | with_reducible refine State.braceLong_keeps ?_
    | with_reducible assumption
    | with_reducible exact Keeps.refl _

theorem execTempMeasure_keeps {u s t : State} {a0} (h : Keeps u s) (e : execTempMeasure a0 s = .next t) : Keeps u t := by
  unfold execTempMeasure at e
  refine Keeps.of_next ?_ e
  repeat' first
    | with_reducible refine State.tempMeasure_keeps ?_ _
    | with_reducible assumption
    | with_reducible exact Keeps.refl _

theorem execHotEpisodeEnd_keeps {u s t : State} (h : Keeps u s) (e : execHotEpisodeEnd s = .next t) : Keeps u t := by
  unfold execHotEpisodeEnd at e
  refine Keeps.of_next ?_ e
  repeat' first
    | with_reducible refine State.hotEnd_keeps ?_
    | with_reducible assumption
    | with_reducible exact Keeps.refl _

theorem execUmbCmdGo_keeps {u s t : State} {a0} {a1} (h : Keeps u s) (e : execUmbCmdGo a0 a1 s = .next t) : Keeps u t := by
  unfold execUmbCmdGo at e
  refine Keeps.of_next ?_ e
  repeat' first
    | with_reducible refine State.busDo_keeps ?_ _ _ _ _ _
    | with_reducible assumption
    | with_reducible exact Keeps.refl _

theorem execUmberCommitDone_keeps {u s t : State} (h : Keeps u s) (e : execUmberCommitDone s = .next t) : Keeps u t := by
  unfold execUmberCommitDone at e
  refine Keeps.of_next ?_ e
  repeat' first
    | with_reducible refine State.umbDone_keeps ?_
    | with_reducible assumption
    | with_reducible exact Keeps.refl _

theorem execReady_keeps {u s t : State} {a0} (h : Keeps u s) (e : execReady a0 s = .next t) : Keeps u t := by
  unfold execReady at e
  refine Keeps.of_next ?_ e
  repeat' first
    | with_reducible refine State.umbRecovered_keeps ?_ _
    | with_reducible assumption
    | with_reducible exact Keeps.refl _

theorem execNavRequestPoll_keeps {u s t : State} (h : Keeps u s) (e : execNavRequestPoll s = .next t) : Keeps u t := by
  unfold execNavRequestPoll at e
  refine Keeps.of_next ?_ e
  repeat' first
    | with_reducible refine State.navPoll_keeps ?_ _
    | with_reducible assumption
    | with_reducible exact Keeps.refl _

theorem execSummary_keeps {u s t : State} (h : Keeps u s) (e : execSummary s = .next t) : Keeps u t := by
  unfold execSummary at e
  refine Keeps.of_next ?_ e
  repeat' first
    | with_reducible refine State.umbSummary_keeps ?_
    | with_reducible assumption
    | with_reducible exact Keeps.refl _

theorem execMsnap_keeps {u s t : State} {a0} (h : Keeps u s) (e : execMsnap a0 s = .next t) : Keeps u t := by
  unfold execMsnap at e
  refine Keeps.of_next ?_ e
  repeat' first
    | with_reducible refine State.umbMsnap_keeps ?_ _
    | with_reducible refine State.measNow_keeps ?_
    | with_reducible assumption
    | with_reducible exact Keeps.refl _

theorem execUmbCfgw_keeps {u s t : State} {a0} {a1} (h : Keeps u s) (e : execUmbCfgw a0 a1 s = .next t) : Keeps u t := by
  unfold execUmbCfgw at e
  refine Keeps.of_next ?_ e
  repeat' first
    | with_reducible refine State.busDo_keeps ?_ _ _ _ _ _
    | with_reducible assumption
    | with_reducible exact Keeps.refl _

theorem State.upsetAt_keeps {u s : State} (h : Keeps u s) (a1) (a2) : Keeps u (State.upsetAt s a1 a2) := by
  unfold State.upsetAt
  try dsimp -iota only
  repeat' first
    | with_reducible refine State.setEcc_keeps ?_ _ _ _
    | with_reducible refine Keeps.ite ?_ ?_
    | with_reducible assumption
    | with_reducible exact Keeps.refl _
    | split
    | dsimp only

theorem execColdStart_keeps {u s t : State} {a0} (h : Keeps u s) (e : execColdStart a0 s = .next t) : Keeps u t := by
  unfold execColdStart at e
  refine Keeps.of_next ?_ e
  repeat' first
    | with_reducible refine State.coldStart_keeps ?_ _
    | with_reducible assumption
    | with_reducible exact Keeps.refl _

theorem execSoftStart_keeps {u s t : State} {a0} (h : Keeps u s) (e : execSoftStart a0 s = .next t) : Keeps u t := by
  unfold execSoftStart at e
  refine Keeps.of_next ?_ e
  repeat' first
    | with_reducible refine State.softStart_keeps ?_ _
    | with_reducible assumption
    | with_reducible exact Keeps.refl _

theorem execProtectedMemoryAccess_keeps {u s t : State} {a0} {a1} {a2} {a3} {a4} (h : Keeps u s) (e : execProtectedMemoryAccess a0 a1 a2 a3 a4 s = .next t) : Keeps u t := by
  unfold execProtectedMemoryAccess at e
  refine Keeps.of_next ?_ e
  repeat' first
    | with_reducible refine State.busAccess_keeps ?_ _ _ _ _
    | with_reducible refine State.upsetAt_keeps ?_ _ _
    | with_reducible assumption
    | with_reducible exact Keeps.refl _

theorem execWalkWr32_keeps {u s t : State} (h : Keeps u s) (e : execWalkWr32 s = .next t) : Keeps u t := by
  unfold execWalkWr32 at e
  refine Keeps.of_next ?_ e
  repeat' first
    | with_reducible refine walkActWr32_keeps ?_ _
    | with_reducible refine State.walkStep_keeps ?_ _ _ (fun _ _ => ?_)
    | with_reducible assumption
    | with_reducible exact Keeps.refl _

theorem execWalkFill_keeps {u s t : State} (h : Keeps u s) (e : execWalkFill s = .next t) : Keeps u t := by
  unfold execWalkFill at e
  refine Keeps.of_next ?_ e
  repeat' first
    | with_reducible refine walkActFill_keeps ?_ _
    | with_reducible refine State.walkStep_keeps ?_ _ _ (fun _ _ => ?_)
    | with_reducible assumption
    | with_reducible exact Keeps.refl _

theorem execWalkLoad_keeps {u s t : State} (h : Keeps u s) (e : execWalkLoad s = .next t) : Keeps u t := by
  unfold execWalkLoad at e
  refine Keeps.of_next ?_ e
  repeat' first
    | with_reducible refine walkActLoad_keeps ?_ _
    | with_reducible refine State.walkStep_keeps ?_ _ _ (fun _ _ => ?_)
    | with_reducible assumption
    | with_reducible exact Keeps.refl _

theorem execWalkWait_keeps {u s t : State} (h : Keeps u s) (e : execWalkWait s = .next t) : Keeps u t := by
  unfold execWalkWait at e
  refine Keeps.of_next ?_ e
  repeat' first
    | with_reducible refine walkActWait_keeps ?_ _
    | with_reducible refine State.walkStep_keeps ?_ _ _ (fun _ _ => ?_)
    | with_reducible assumption
    | with_reducible exact Keeps.refl _

theorem execWalkWaitExpiry_keeps {u s t : State} (h : Keeps u s) (e : execWalkWaitExpiry s = .next t) : Keeps u t := by
  unfold execWalkWaitExpiry at e
  refine Keeps.of_next ?_ e
  repeat' first
    | with_reducible refine State.walkWaitEnd_keeps ?_
    | with_reducible assumption
    | with_reducible exact Keeps.refl _

theorem execWalkCheck_keeps {u s t : State} (h : Keeps u s) (e : execWalkCheck s = .next t) : Keeps u t := by
  unfold execWalkCheck at e
  refine Keeps.of_next ?_ e
  repeat' first
    | with_reducible refine walkActCheck_keeps ?_ _
    | with_reducible refine State.walkStep_keeps ?_ _ _ (fun _ _ => ?_)
    | with_reducible assumption
    | with_reducible exact Keeps.refl _

theorem execWalkEnd_keeps {u s t : State} (h : Keeps u s) (e : execWalkEnd s = .next t) : Keeps u t := by
  unfold execWalkEnd at e
  refine Keeps.of_next ?_ e
  repeat' first
    | with_reducible refine walkActEnd_keeps ?_ _
    | with_reducible refine State.walkStep_keeps ?_ _ _ (fun _ _ => ?_)
    | with_reducible assumption
    | with_reducible exact Keeps.refl _

theorem execWalkTimeout_keeps {u s t : State} (h : Keeps u s) (e : execWalkTimeout s = .next t) : Keeps u t := by
  unfold execWalkTimeout at e
  refine Keeps.of_next ?_ e
  repeat' first
    | with_reducible refine State.walkTimeout_keeps ?_
    | with_reducible assumption
    | with_reducible exact Keeps.refl _

theorem execMirrorRewriteDone_keeps {u s t : State} (h : Keeps u s) (e : execMirrorRewriteDone s = .next t) : Keeps u t := by
  unfold execMirrorRewriteDone at e
  refine Keeps.of_next ?_ e
  repeat' first
    | with_reducible refine State.mirrorDone_keeps ?_
    | with_reducible assumption
    | with_reducible exact Keeps.refl _

theorem execNavWatchdogExpiry_keeps {u s t : State} (h : Keeps u s) (e : execNavWatchdogExpiry s = .next t) : Keeps u t := by
  unfold execNavWatchdogExpiry at e
  refine Keeps.of_next ?_ e
  repeat' first
    | with_reducible refine State.nwdogExpiry_keeps ?_
    | with_reducible assumption
    | with_reducible exact Keeps.refl _

theorem execNavWdogKick_keeps {u s t : State} {a0} {a1} (h : Keeps u s) (e : execNavWdogKick a0 a1 s = .next t) : Keeps u t := by
  unfold execNavWdogKick at e
  refine Keeps.of_next ?_ e
  repeat' first
    | with_reducible refine State.busDo_keeps ?_ _ _ _ _ _
    | with_reducible assumption
    | with_reducible exact Keeps.refl _

theorem execSessionIdleTimeout_keeps {u s t : State} (h : Keeps u s) (e : execSessionIdleTimeout s = .next t) : Keeps u t := by
  unfold execSessionIdleTimeout at e
  refine Keeps.of_next ?_ e
  repeat' first
    | with_reducible refine State.idleOut_keeps ?_
    | with_reducible assumption
    | with_reducible exact Keeps.refl _

theorem execChallengeExpiry_keeps {u s t : State} (h : Keeps u s) (e : execChallengeExpiry s = .next t) : Keeps u t := by
  unfold execChallengeExpiry at e
  refine Keeps.of_next ?_ e
  repeat' first
    | with_reducible refine State.chalOut_keeps ?_
    | with_reducible assumption
    | with_reducible exact Keeps.refl _

theorem execBackoffExpiry_keeps {u s t : State} (h : Keeps u s) (e : execBackoffExpiry s = .next t) : Keeps u t := by
  unfold execBackoffExpiry at e
  refine Keeps.of_next ?_ e
  repeat' first
    | with_reducible refine State.backoffOut_keeps ?_
    | with_reducible assumption
    | with_reducible exact Keeps.refl _

theorem execSvcFrameRx_keeps {u s t : State} {a0} (h : Keeps u s) (e : execSvcFrameRx a0 s = .next t) : Keeps u t := by
  unfold execSvcFrameRx at e
  refine Keeps.of_next ?_ e
  repeat' first
    | with_reducible refine State.svcReceive_keeps ?_ _ _
    | with_reducible assumption
    | with_reducible exact Keeps.refl _

theorem execSvcAckFrame_keeps {u s t : State} {a0} (h : Keeps u s) (e : execSvcAckFrame a0 s = .next t) : Keeps u t := by
  unfold execSvcAckFrame at e
  refine Keeps.of_next ?_ e
  repeat' first
    | with_reducible refine State.svcReceive_keeps ?_ _ _
    | with_reducible assumption
    | with_reducible exact Keeps.refl _

theorem execSvcAckDelay_keeps {u s t : State} (h : Keeps u s) (e : execSvcAckDelay s = .next t) : Keeps u t := by
  unfold execSvcAckDelay at e
  refine Keeps.of_next ?_ e
  repeat' first
    | with_reducible refine State.svcAckDelay_keeps ?_
    | with_reducible assumption
    | with_reducible exact Keeps.refl _

theorem execSvcRetransmit_keeps {u s t : State} (h : Keeps u s) (e : execSvcRetransmit s = .next t) : Keeps u t := by
  unfold execSvcRetransmit at e
  refine Keeps.of_next ?_ e
  repeat' first
    | with_reducible refine State.svcExpiry_keeps ?_
    | with_reducible assumption
    | with_reducible exact Keeps.refl _

theorem execSvcRateTimeout_keeps {u s t : State} (h : Keeps u s) (e : execSvcRateTimeout s = .next t) : Keeps u t := by
  unfold execSvcRateTimeout at e
  refine Keeps.of_next ?_ e
  repeat' first
    | with_reducible refine State.svcRateOut_keeps ?_
    | with_reducible assumption
    | with_reducible exact Keeps.refl _

theorem execSvcUnknownCommand_keeps {u s t : State} (h : Keeps u s) (e : execSvcUnknownCommand s = .next t) : Keeps u t := by
  unfold execSvcUnknownCommand at e
  refine Keeps.of_next ?_ e
  repeat' first
    | with_reducible refine State.svcTake_keeps ?_ _ _ (fun _ _ _ => ?_)
    | with_reducible refine State.says_keeps ?_ _
    | with_reducible refine KeepsP.fst (State.says_keeps ?_ _)
    | with_reducible refine State.says_keepsP (by assumption) ?_
    | with_reducible refine Keeps.ite ?_ ?_
    | simp -iota -zeta -proj only [KeepsP.pair]
    | with_reducible refine KeepsP.ite ?_ ?_
    | with_reducible refine KeepsP.fst (KeepsP.ite ?_ ?_)
    | with_reducible assumption
    | with_reducible exact Keeps.refl _
    | split
    | dsimp only

theorem execHello_keeps {u s t : State} (h : Keeps u s) (e : execHello s = .next t) : Keeps u t := by
  unfold execHello at e
  refine Keeps.of_next ?_ e
  repeat' first
    | with_reducible refine State.svcTake_keeps ?_ _ _ (fun _ _ _ => ?_)
    | with_reducible refine svcActHello_keeps ?_ _ _
    | with_reducible refine KeepsP.fst (svcActHello_keeps ?_ _ _)
    | with_reducible refine svcActHello_keepsP (by assumption) ?_
    | with_reducible refine Keeps.ite ?_ ?_
    | simp -iota -zeta -proj only [KeepsP.pair]
    | with_reducible refine KeepsP.ite ?_ ?_
    | with_reducible refine KeepsP.fst (KeepsP.ite ?_ ?_)
    | with_reducible assumption
    | with_reducible exact Keeps.refl _
    | split
    | dsimp only

theorem execClose_keeps {u s t : State} (h : Keeps u s) (e : execClose s = .next t) : Keeps u t := by
  unfold execClose at e
  refine Keeps.of_next ?_ e
  repeat' first
    | with_reducible refine State.svcTake_keeps ?_ _ _ (fun _ _ _ => ?_)
    | with_reducible refine svcActClose_keeps ?_ _ _
    | with_reducible refine KeepsP.fst (svcActClose_keeps ?_ _ _)
    | with_reducible refine svcActClose_keepsP (by assumption) ?_
    | with_reducible refine Keeps.ite ?_ ?_
    | simp -iota -zeta -proj only [KeepsP.pair]
    | with_reducible refine KeepsP.ite ?_ ?_
    | with_reducible refine KeepsP.fst (KeepsP.ite ?_ ?_)
    | with_reducible assumption
    | with_reducible exact Keeps.refl _
    | split
    | dsimp only

theorem execAuthChallenge_keeps {u s t : State} (h : Keeps u s) (e : execAuthChallenge s = .next t) : Keeps u t := by
  unfold execAuthChallenge at e
  refine Keeps.of_next ?_ e
  repeat' first
    | with_reducible refine State.svcTake_keeps ?_ _ _ (fun _ _ _ => ?_)
    | with_reducible refine svcActChallenge_keeps ?_ _ _
    | with_reducible refine KeepsP.fst (svcActChallenge_keeps ?_ _ _)
    | with_reducible refine svcActChallenge_keepsP (by assumption) ?_
    | with_reducible refine Keeps.ite ?_ ?_
    | simp -iota -zeta -proj only [KeepsP.pair]
    | with_reducible refine KeepsP.ite ?_ ?_
    | with_reducible refine KeepsP.fst (KeepsP.ite ?_ ?_)
    | with_reducible assumption
    | with_reducible exact Keeps.refl _
    | split
    | dsimp only

theorem execAuthResponse_keeps {u s t : State} (h : Keeps u s) (e : execAuthResponse s = .next t) : Keeps u t := by
  unfold execAuthResponse at e
  refine Keeps.of_next ?_ e
  repeat' first
    | with_reducible refine State.svcTake_keeps ?_ _ _ (fun _ _ _ => ?_)
    | with_reducible refine svcActAuth_keeps ?_ _ _
    | with_reducible refine KeepsP.fst (svcActAuth_keeps ?_ _ _)
    | with_reducible refine svcActAuth_keepsP (by assumption) ?_
    | with_reducible refine Keeps.ite ?_ ?_
    | simp -iota -zeta -proj only [KeepsP.pair]
    | with_reducible refine KeepsP.ite ?_ ?_
    | with_reducible refine KeepsP.fst (KeepsP.ite ?_ ?_)
    | with_reducible assumption
    | with_reducible exact Keeps.refl _
    | split
    | dsimp only

theorem execReadReg_keeps {u s t : State} (h : Keeps u s) (e : execReadReg s = .next t) : Keeps u t := by
  unfold execReadReg at e
  refine Keeps.of_next ?_ e
  repeat' first
    | with_reducible refine State.svcTake_keeps ?_ _ _ (fun _ _ _ => ?_)
    | with_reducible refine svcActReadReg_keeps ?_ _ _
    | with_reducible refine KeepsP.fst (svcActReadReg_keeps ?_ _ _)
    | with_reducible refine svcActReadReg_keepsP (by assumption) ?_
    | with_reducible refine Keeps.ite ?_ ?_
    | simp -iota -zeta -proj only [KeepsP.pair]
    | with_reducible refine KeepsP.ite ?_ ?_
    | with_reducible refine KeepsP.fst (KeepsP.ite ?_ ?_)
    | with_reducible assumption
    | with_reducible exact Keeps.refl _
    | split
    | dsimp only

theorem execWriteReg_keeps {u s t : State} (h : Keeps u s) (e : execWriteReg s = .next t) : Keeps u t := by
  unfold execWriteReg at e
  refine Keeps.of_next ?_ e
  repeat' first
    | with_reducible refine State.svcTake_keeps ?_ _ _ (fun _ _ _ => ?_)
    | with_reducible refine svcActWriteReg_keeps ?_ _ _
    | with_reducible refine KeepsP.fst (svcActWriteReg_keeps ?_ _ _)
    | with_reducible refine svcActWriteReg_keepsP (by assumption) ?_
    | with_reducible refine Keeps.ite ?_ ?_
    | simp -iota -zeta -proj only [KeepsP.pair]
    | with_reducible refine KeepsP.ite ?_ ?_
    | with_reducible refine KeepsP.fst (KeepsP.ite ?_ ?_)
    | with_reducible assumption
    | with_reducible exact Keeps.refl _
    | split
    | dsimp only

theorem execReadUmber_keeps {u s t : State} (h : Keeps u s) (e : execReadUmber s = .next t) : Keeps u t := by
  unfold execReadUmber at e
  refine Keeps.of_next ?_ e
  repeat' first
    | with_reducible refine State.svcTake_keeps ?_ _ _ (fun _ _ _ => ?_)
    | with_reducible refine svcActReadUmber_keeps ?_ _ _
    | with_reducible refine KeepsP.fst (svcActReadUmber_keeps ?_ _ _)
    | with_reducible refine svcActReadUmber_keepsP (by assumption) ?_
    | with_reducible refine Keeps.ite ?_ ?_
    | simp -iota -zeta -proj only [KeepsP.pair]
    | with_reducible refine KeepsP.ite ?_ ?_
    | with_reducible refine KeepsP.fst (KeepsP.ite ?_ ?_)
    | with_reducible assumption
    | with_reducible exact Keeps.refl _
    | split
    | dsimp only

theorem execPutObject_keeps {u s t : State} {a0} (h : Keeps u s) (e : execPutObject a0 s = .next t) : Keeps u t := by
  unfold execPutObject at e
  refine Keeps.of_next ?_ e
  repeat' first
    | with_reducible refine State.svcTake_keeps ?_ _ _ (fun _ _ _ => ?_)
    | with_reducible refine svcActPut_keeps ?_ _ _ _
    | with_reducible refine KeepsP.fst (svcActPut_keeps ?_ _ _ _)
    | with_reducible refine svcActPut_keepsP (by assumption) ?_
    | with_reducible refine Keeps.ite ?_ ?_
    | simp -iota -zeta -proj only [KeepsP.pair]
    | with_reducible refine KeepsP.ite ?_ ?_
    | with_reducible refine KeepsP.fst (KeepsP.ite ?_ ?_)
    | with_reducible assumption
    | with_reducible exact Keeps.refl _
    | split
    | dsimp only

theorem execJournalPendingRun_keeps {u s t : State} (h : Keeps u s) (e : execJournalPendingRun s = .next t) : Keeps u t := by
  unfold execJournalPendingRun at e
  refine Keeps.of_next ?_ e
  repeat' first
    | with_reducible refine State.runJournalled_keeps ?_
    | with_reducible assumption
    | with_reducible exact Keeps.refl _

theorem execQueryObject_keeps {u s t : State} (h : Keeps u s) (e : execQueryObject s = .next t) : Keeps u t := by
  unfold execQueryObject at e
  refine Keeps.of_next ?_ e
  repeat' first
    | with_reducible refine State.svcTake_keeps ?_ _ _ (fun _ _ _ => ?_)
    | with_reducible refine svcActQuery_keeps ?_ _ _
    | with_reducible refine KeepsP.fst (svcActQuery_keeps ?_ _ _)
    | with_reducible refine svcActQuery_keepsP (by assumption) ?_
    | with_reducible refine Keeps.ite ?_ ?_
    | simp -iota -zeta -proj only [KeepsP.pair]
    | with_reducible refine KeepsP.ite ?_ ?_
    | with_reducible refine KeepsP.fst (KeepsP.ite ?_ ?_)
    | with_reducible assumption
    | with_reducible exact Keeps.refl _
    | split
    | dsimp only

theorem execAbandonObject_keeps {u s t : State} (h : Keeps u s) (e : execAbandonObject s = .next t) : Keeps u t := by
  unfold execAbandonObject at e
  refine Keeps.of_next ?_ e
  repeat' first
    | with_reducible refine State.svcTake_keeps ?_ _ _ (fun _ _ _ => ?_)
    | with_reducible refine svcActAbandon_keeps ?_ _ _
    | with_reducible refine KeepsP.fst (svcActAbandon_keeps ?_ _ _)
    | with_reducible refine svcActAbandon_keepsP (by assumption) ?_
    | with_reducible refine Keeps.ite ?_ ?_
    | simp -iota -zeta -proj only [KeepsP.pair]
    | with_reducible refine KeepsP.ite ?_ ?_
    | with_reducible refine KeepsP.fst (KeepsP.ite ?_ ?_)
    | with_reducible assumption
    | with_reducible exact Keeps.refl _
    | split
    | dsimp only

theorem execCommitStaging_keeps {u s t : State} {a0} (h : Keeps u s) (e : execCommitStaging a0 s = .next t) : Keeps u t := by
  unfold execCommitStaging at e
  refine Keeps.of_next ?_ e
  repeat' first
    | with_reducible refine State.svcTake_keeps ?_ _ _ (fun _ _ _ => ?_)
    | with_reducible refine svcActCommit_keeps ?_ _ _ _
    | with_reducible refine KeepsP.fst (svcActCommit_keeps ?_ _ _ _)
    | with_reducible refine svcActCommit_keepsP (by assumption) ?_
    | with_reducible refine Keeps.ite ?_ ?_
    | simp -iota -zeta -proj only [KeepsP.pair]
    | with_reducible refine KeepsP.ite ?_ ?_
    | with_reducible refine KeepsP.fst (KeepsP.ite ?_ ?_)
    | with_reducible assumption
    | with_reducible exact Keeps.refl _
    | split
    | dsimp only

theorem execActivate_keeps {u s t : State} (h : Keeps u s) (e : execActivate s = .next t) : Keeps u t := by
  unfold execActivate at e
  refine Keeps.of_next ?_ e
  repeat' first
    | with_reducible refine State.svcTake_keeps ?_ _ _ (fun _ _ _ => ?_)
    | with_reducible refine svcActActivate_keeps ?_ _ _
    | with_reducible refine KeepsP.fst (svcActActivate_keeps ?_ _ _)
    | with_reducible refine svcActActivate_keepsP (by assumption) ?_
    | with_reducible refine Keeps.ite ?_ ?_
    | simp -iota -zeta -proj only [KeepsP.pair]
    | with_reducible refine KeepsP.ite ?_ ?_
    | with_reducible refine KeepsP.fst (KeepsP.ite ?_ ?_)
    | with_reducible assumption
    | with_reducible exact Keeps.refl _
    | split
    | dsimp only

theorem execActivationAckWait_keeps {u s t : State} (h : Keeps u s) (e : execActivationAckWait s = .next t) : Keeps u t := by
  unfold execActivationAckWait at e
  refine Keeps.of_next ?_ e
  repeat' first
    | with_reducible refine State.startWaitEnd_keeps ?_
    | with_reducible assumption
    | with_reducible exact Keeps.refl _

theorem execSealPart_keeps {u s t : State} (h : Keeps u s) (e : execSealPart s = .next t) : Keeps u t := by
  unfold execSealPart at e
  refine Keeps.of_next ?_ e
  repeat' first
    | with_reducible refine State.svcTake_keeps ?_ _ _ (fun _ _ _ => ?_)
    | with_reducible refine svcActSeal_keeps ?_ _ _
    | with_reducible refine KeepsP.fst (svcActSeal_keeps ?_ _ _)
    | with_reducible refine svcActSeal_keepsP (by assumption) ?_
    | with_reducible refine Keeps.ite ?_ ?_
    | simp -iota -zeta -proj only [KeepsP.pair]
    | with_reducible refine KeepsP.ite ?_ ?_
    | with_reducible refine KeepsP.fst (KeepsP.ite ?_ ?_)
    | with_reducible assumption
    | with_reducible exact Keeps.refl _
    | split
    | dsimp only

theorem execUnsealPart_keeps {u s t : State} (h : Keeps u s) (e : execUnsealPart s = .next t) : Keeps u t := by
  unfold execUnsealPart at e
  refine Keeps.of_next ?_ e
  repeat' first
    | with_reducible refine State.svcTake_keeps ?_ _ _ (fun _ _ _ => ?_)
    | with_reducible refine svcActUnseal_keeps ?_ _ _
    | with_reducible refine KeepsP.fst (svcActUnseal_keeps ?_ _ _)
    | with_reducible refine svcActUnseal_keepsP (by assumption) ?_
    | with_reducible refine Keeps.ite ?_ ?_
    | simp -iota -zeta -proj only [KeepsP.pair]
    | with_reducible refine KeepsP.ite ?_ ?_
    | with_reducible refine KeepsP.fst (KeepsP.ite ?_ ?_)
    | with_reducible assumption
    | with_reducible exact Keeps.refl _
    | split
    | dsimp only

theorem execClearFsw_keeps {u s t : State} (h : Keeps u s) (e : execClearFsw s = .next t) : Keeps u t := by
  unfold execClearFsw at e
  refine Keeps.of_next ?_ e
  repeat' first
    | with_reducible refine State.svcTake_keeps ?_ _ _ (fun _ _ _ => ?_)
    | with_reducible refine svcActClearFsw_keeps ?_ _ _
    | with_reducible refine KeepsP.fst (svcActClearFsw_keeps ?_ _ _)
    | with_reducible refine svcActClearFsw_keepsP (by assumption) ?_
    | with_reducible refine Keeps.ite ?_ ?_
    | simp -iota -zeta -proj only [KeepsP.pair]
    | with_reducible refine KeepsP.ite ?_ ?_
    | with_reducible refine KeepsP.fst (KeepsP.ite ?_ ?_)
    | with_reducible assumption
    | with_reducible exact Keeps.refl _
    | split
    | dsimp only

theorem execRepairCluster_keeps {u s t : State} (h : Keeps u s) (e : execRepairCluster s = .next t) : Keeps u t := by
  unfold execRepairCluster at e
  refine Keeps.of_next ?_ e
  repeat' first
    | with_reducible refine State.svcTake_keeps ?_ _ _ (fun _ _ _ => ?_)
    | with_reducible refine svcActRepair_keeps ?_ _ _ _
    | with_reducible refine KeepsP.fst (svcActRepair_keeps ?_ _ _ _)
    | with_reducible refine svcActRepair_keepsP (by assumption) ?_
    | with_reducible refine Keeps.ite ?_ ?_
    | simp -iota -zeta -proj only [KeepsP.pair]
    | with_reducible refine KeepsP.ite ?_ ?_
    | with_reducible refine KeepsP.fst (KeepsP.ite ?_ ?_)
    | with_reducible assumption
    | with_reducible exact Keeps.refl _
    | split
    | dsimp only

theorem execRepairGroup_keeps {u s t : State} (h : Keeps u s) (e : execRepairGroup s = .next t) : Keeps u t := by
  unfold execRepairGroup at e
  refine Keeps.of_next ?_ e
  repeat' first
    | with_reducible refine State.svcTake_keeps ?_ _ _ (fun _ _ _ => ?_)
    | with_reducible refine svcActRepair_keeps ?_ _ _ _
    | with_reducible refine KeepsP.fst (svcActRepair_keeps ?_ _ _ _)
    | with_reducible refine svcActRepair_keepsP (by assumption) ?_
    | with_reducible refine Keeps.ite ?_ ?_
    | simp -iota -zeta -proj only [KeepsP.pair]
    | with_reducible refine KeepsP.ite ?_ ?_
    | with_reducible refine KeepsP.fst (KeepsP.ite ?_ ?_)
    | with_reducible assumption
    | with_reducible exact Keeps.refl _
    | split
    | dsimp only

theorem execRepairProc_keeps {u s t : State} (h : Keeps u s) (e : execRepairProc s = .next t) : Keeps u t := by
  unfold execRepairProc at e
  refine Keeps.of_next ?_ e
  repeat' first
    | with_reducible refine State.svcTake_keeps ?_ _ _ (fun _ _ _ => ?_)
    | with_reducible refine svcActRepairProc_keeps ?_ _ _
    | with_reducible refine KeepsP.fst (svcActRepairProc_keeps ?_ _ _)
    | with_reducible refine svcActRepairProc_keepsP (by assumption) ?_
    | with_reducible refine Keeps.ite ?_ ?_
    | simp -iota -zeta -proj only [KeepsP.pair]
    | with_reducible refine KeepsP.ite ?_ ?_
    | with_reducible refine KeepsP.fst (KeepsP.ite ?_ ?_)
    | with_reducible assumption
    | with_reducible exact Keeps.refl _
    | split
    | dsimp only

theorem execRepairVacated_keeps {u s t : State} (h : Keeps u s) (e : execRepairVacated s = .next t) : Keeps u t := by
  unfold execRepairVacated at e
  refine Keeps.of_next ?_ e
  repeat' first
    | with_reducible refine State.repairAnswered_keeps ?_
    | with_reducible assumption
    | with_reducible exact Keeps.refl _

theorem execRepairVacateTimeout_keeps {u s t : State} (h : Keeps u s) (e : execRepairVacateTimeout s = .next t) : Keeps u t := by
  unfold execRepairVacateTimeout at e
  refine Keeps.of_next ?_ e
  repeat' first
    | with_reducible refine State.repairLate_keeps ?_
    | with_reducible assumption
    | with_reducible exact Keeps.refl _

theorem execCommandExecutionEnd_keeps {u s t : State} (h : Keeps u s) (e : execCommandExecutionEnd s = .next t) : Keeps u t := by
  unfold execCommandExecutionEnd at e
  refine Keeps.of_next ?_ e
  repeat' first
    | with_reducible refine State.longEnd_keeps ?_
    | with_reducible assumption
    | with_reducible exact Keeps.refl _

theorem execRegisterWrite_keeps {u s t : State} {a0} {a1} {a2} {a3} (h : Keeps u s) (e : execRegisterWrite a0 a1 a2 a3 s = .next t) : Keeps u t := by
  unfold execRegisterWrite at e
  refine Keeps.of_next ?_ e
  repeat' first
    | with_reducible refine State.busDo_keeps ?_ _ _ _ _ _
    | with_reducible assumption
    | with_reducible exact Keeps.refl _

theorem execSlkFmtRead_keeps {u s t : State} {a0} {a1} (h : Keeps u s) (e : execSlkFmtRead a0 a1 s = .next t) : Keeps u t := by
  unfold execSlkFmtRead at e
  refine Keeps.of_next ?_ e
  repeat' first
    | with_reducible refine State.busGet_keeps ?_ _ _ _ _
    | with_reducible assumption
    | with_reducible exact Keeps.refl _

theorem execSnpHtimeRead_keeps {u s t : State} {a0} {a1} (h : Keeps u s) (e : execSnpHtimeRead a0 a1 s = .next t) : Keeps u t := by
  unfold execSnpHtimeRead at e
  refine Keeps.of_next ?_ e
  repeat' first
    | with_reducible refine State.busGet_keeps ?_ _ _ _ _
    | with_reducible assumption
    | with_reducible exact Keeps.refl _

theorem execTimNowRead_keeps {u s t : State} {a0} {a1} (h : Keeps u s) (e : execTimNowRead a0 a1 s = .next t) : Keeps u t := by
  unfold execTimNowRead at e
  refine Keeps.of_next ?_ e
  repeat' first
    | with_reducible refine State.busGet_keeps ?_ _ _ _ _
    | with_reducible assumption
    | with_reducible exact Keeps.refl _

theorem execTimEpochRead_keeps {u s t : State} {a0} (h : Keeps u s) (e : execTimEpochRead a0 s = .next t) : Keeps u t := by
  unfold execTimEpochRead at e
  refine Keeps.of_next ?_ e
  repeat' first
    | with_reducible refine State.busGet_keeps ?_ _ _ _ _
    | with_reducible assumption
    | with_reducible exact Keeps.refl _

theorem execTpNextEdgeRead_keeps {u s t : State} {a0} {a1} (h : Keeps u s) (e : execTpNextEdgeRead a0 a1 s = .next t) : Keeps u t := by
  unfold execTpNextEdgeRead at e
  refine Keeps.of_next ?_ e
  repeat' first
    | with_reducible refine State.busGet_keeps ?_ _ _ _ _
    | with_reducible assumption
    | with_reducible exact Keeps.refl _

theorem execTpiStampRead_keeps {u s t : State} {a0} (h : Keeps u s) (e : execTpiStampRead a0 s = .next t) : Keeps u t := by
  unfold execTpiStampRead at e
  refine Keeps.of_next ?_ e
  repeat' first
    | with_reducible refine State.busGet_keeps ?_ _ _ _ _
    | with_reducible assumption
    | with_reducible exact Keeps.refl _

theorem execEngPhaseRead_keeps {u s t : State} {a0} {a1} (h : Keeps u s) (e : execEngPhaseRead a0 a1 s = .next t) : Keeps u t := by
  unfold execEngPhaseRead at e
  refine Keeps.of_next ?_ e
  repeat' first
    | with_reducible refine State.busGet_keeps ?_ _ _ _ _
    | with_reducible assumption
    | with_reducible exact Keeps.refl _

theorem execUmbSequenceRead_keeps {u s t : State} {a0} {a1} (h : Keeps u s) (e : execUmbSequenceRead a0 a1 s = .next t) : Keeps u t := by
  unfold execUmbSequenceRead at e
  refine Keeps.of_next ?_ e
  repeat' first
    | with_reducible refine State.busGet_keeps ?_ _ _ _ _
    | with_reducible refine Keeps.ite ?_ ?_
    | with_reducible assumption
    | with_reducible exact Keeps.refl _
    | split
    | dsimp only

theorem execCusLatchedRead_keeps {u s t : State} {a0} {a1} (h : Keeps u s) (e : execCusLatchedRead a0 a1 s = .next t) : Keeps u t := by
  unfold execCusLatchedRead at e
  refine Keeps.of_next ?_ e
  repeat' first
    | with_reducible refine State.busGet_keeps ?_ _ _ _ _
    | with_reducible assumption
    | with_reducible exact Keeps.refl _

theorem execSvcUpdidRead_keeps {u s t : State} {a0} (h : Keeps u s) (e : execSvcUpdidRead a0 s = .next t) : Keeps u t := by
  unfold execSvcUpdidRead at e
  refine Keeps.of_next ?_ e
  repeat' first
    | with_reducible refine State.busGet_keeps ?_ _ _ _ _
    | with_reducible assumption
    | with_reducible exact Keeps.refl _

theorem execJtagTapInstruction_keeps {u s t : State} {a0} (h : Keeps u s) (e : execJtagTapInstruction a0 s = .next t) : Keeps u t := by
  unfold execJtagTapInstruction at e
  refine Keeps.of_next ?_ e
  repeat' first
    | with_reducible refine State.tapTake_keeps ?_ _
    | with_reducible assumption
    | with_reducible exact Keeps.refl _

/-- What every command keeps: the queue, the identity, what was sent, and the canonical forms. -/
theorem exec_keeps {s t : State} (c : Instr) (h : exec c s = .next t) : Keeps s t := by
  cases c with
  | slkEnable _ _ _ _ => exact execSlkEnable_keeps (Keeps.refl s) h
  | markerReceived _ _ _ _ => exact execMarkerReceived_keeps (Keeps.refl s) h
  | controlWord _ _ => exact execControlWord_keeps (Keeps.refl s) h
  | clkFault _ => exact execClkFault_keeps (Keeps.refl s) h
  | markFault _ => exact execMarkFault_keeps (Keeps.refl s) h
  | stuckFault _ _ => exact execStuckFault_keeps (Keeps.refl s) h
  | slipFault _ _ => exact execSlipFault_keeps (Keeps.refl s) h
  | faultEpisodeEnd _ => exact execFaultEpisodeEnd_keeps (Keeps.refl s) h
  | agcUpdate _ => exact execAgcUpdate_keeps (Keeps.refl s) h
  | gbaseWrite _ _ _ => exact execGbaseWrite_keeps (Keeps.refl s) h
  | gbaseValidTimer _ => exact execGbaseValidTimer_keeps (Keeps.refl s) h
  | fecSlot _ => exact execFecSlot_keeps (Keeps.refl s) h
  | fecSeqGo _ _ _ => exact execFecSeqGo_keeps (Keeps.refl s) h
  | fecCalDue _ => exact execFecCalDue_keeps (Keeps.refl s) h
  | fecWrite _ _ _ => exact execFecWrite_keeps (Keeps.refl s) h
  | fecCheck _ _ _ => exact execFecCheck_keeps (Keeps.refl s) h
  | fecWait _ _ => exact execFecWait_keeps (Keeps.refl s) h
  | fecWaitExpiry _ => exact execFecWaitExpiry_keeps (Keeps.refl s) h
  | fecEnd _ _ => exact execFecEnd_keeps (Keeps.refl s) h
  | linkClockReturn _ _ => exact execLinkClockReturn_keeps (Keeps.refl s) h
  | stuckLaneToggle _ _ => exact execStuckLaneToggle_keeps (Keeps.refl s) h
  | dwellQueue _ _ _ => exact execDwellQueue_keeps (Keeps.refl s) h
  | dwellStart _ => exact execDwellStart_keeps (Keeps.refl s) h
  | dwellNop _ => exact execDwellNop_keeps (Keeps.refl s) h
  | dwellAbase _ => exact execDwellAbase_keeps (Keeps.refl s) h
  | dwellAofs _ => exact execDwellAofs_keeps (Keeps.refl s) h
  | dwellAsrc _ => exact execDwellAsrc_keeps (Keeps.refl s) h
  | dwellAcc _ _ => exact execDwellAcc_keeps (Keeps.refl s) h
  | dwellSkip _ _ => exact execDwellSkip_keeps (Keeps.refl s) h
  | dwellDump _ _ => exact execDwellDump_keeps (Keeps.refl s) h
  | dwellNcacc _ => exact execDwellNcacc_keeps (Keeps.refl s) h
  | dwellNcdump _ _ => exact execDwellNcdump_keeps (Keeps.refl s) h
  | dwellSetc _ => exact execDwellSetc_keeps (Keeps.refl s) h
  | dwellLoop _ => exact execDwellLoop_keeps (Keeps.refl s) h
  | dwellJmp _ => exact execDwellJmp_keeps (Keeps.refl s) h
  | dwellIrq _ => exact execDwellIrq_keeps (Keeps.refl s) h
  | dwellEnd _ => exact execDwellEnd_keeps (Keeps.refl s) h
  | recordToRing _ => exact execRecordToRing_keeps (Keeps.refl s) h
  | engCommit _ _ _ => exact execEngCommit_keeps (Keeps.refl s) h
  | engCancel _ _ _ => exact execEngCancel_keeps (Keeps.refl s) h
  | engApply _ _ _ => exact execEngApply_keeps (Keeps.refl s) h
  | engSetrole _ _ _ => exact execEngSetrole_keeps (Keeps.refl s) h
  | ringRelease _ _ _ => exact execRingRelease_keeps (Keeps.refl s) h
  | ringReconfigure _ _ _ => exact execRingReconfigure_keeps (Keeps.refl s) h
  | ctinvWrite _ _ _ => exact execCtinvWrite_keeps (Keeps.refl s) h
  | cluCkenWrite _ _ _ => exact execCluCkenWrite_keeps (Keeps.refl s) h
  | cluBist _ _ _ => exact execCluBist_keeps (Keeps.refl s) h
  | bistdone _ _ => exact execBistdone_keeps (Keeps.refl s) h
  | cluGangWrite _ _ _ => exact execCluGangWrite_keeps (Keeps.refl s) h
  | gangDwellQueue _ _ _ => exact execGangDwellQueue_keeps (Keeps.refl s) h
  | migArm _ _ _ => exact execMigArm_keeps (Keeps.refl s) h
  | migTimeout _ => exact execMigTimeout_keeps (Keeps.refl s) h
  | snpArm _ _ _ => exact execSnpArm_keeps (Keeps.refl s) h
  | snpFree _ _ _ => exact execSnpFree_keeps (Keeps.refl s) h
  | captureTrigger _ _ _ => exact execCaptureTrigger_keeps (Keeps.refl s) h
  | capdone _ _ => exact execCapdone_keeps (Keeps.refl s) h
  | replayGo _ _ => exact execReplayGo_keeps (Keeps.refl s) h
  | replayStop _ _ => exact execReplayStop_keeps (Keeps.refl s) h
  | replayPassStart => exact execReplayPassStart_keeps (Keeps.refl s) h
  | replayPassEnd => exact execReplayPassEnd_keeps (Keeps.refl s) h
  | broadcastWrite _ _ _ _ => exact execBroadcastWrite_keeps (Keeps.refl s) h
  | loopUpdate _ _ => exact execLoopUpdate_keeps (Keeps.refl s) h
  | steerEntryWrite _ _ _ _ _ _ _ => exact execSteerEntryWrite_keeps (Keeps.refl s) h
  | trackingReport _ => exact execTrackingReport_keeps (Keeps.refl s) h
  | migrationHandoff _ _ _ _ => exact execMigrationHandoff_keeps (Keeps.refl s) h
  | dspNop _ => exact execDspNop_keeps (Keeps.refl s) h
  | dspMov _ => exact execDspMov_keeps (Keeps.refl s) h
  | dspAdd _ => exact execDspAdd_keeps (Keeps.refl s) h
  | dspAdds _ => exact execDspAdds_keeps (Keeps.refl s) h
  | dspSub _ => exact execDspSub_keeps (Keeps.refl s) h
  | dspSubs _ => exact execDspSubs_keeps (Keeps.refl s) h
  | dspAnd _ => exact execDspAnd_keeps (Keeps.refl s) h
  | dspOr _ => exact execDspOr_keeps (Keeps.refl s) h
  | dspXor _ => exact execDspXor_keeps (Keeps.refl s) h
  | dspNeg _ => exact execDspNeg_keeps (Keeps.refl s) h
  | dspAbs _ => exact execDspAbs_keeps (Keeps.refl s) h
  | dspMin _ => exact execDspMin_keeps (Keeps.refl s) h
  | dspMax _ => exact execDspMax_keeps (Keeps.refl s) h
  | dspCmp _ => exact execDspCmp_keeps (Keeps.refl s) h
  | dspShl _ => exact execDspShl_keeps (Keeps.refl s) h
  | dspShr _ => exact execDspShr_keeps (Keeps.refl s) h
  | dspAsr _ => exact execDspAsr_keeps (Keeps.refl s) h
  | dspShlv _ => exact execDspShlv_keeps (Keeps.refl s) h
  | dspAsrv _ => exact execDspAsrv_keeps (Keeps.refl s) h
  | dspMpy _ => exact execDspMpy_keeps (Keeps.refl s) h
  | dspMac _ => exact execDspMac_keeps (Keeps.refl s) h
  | dspMsu _ => exact execDspMsu_keeps (Keeps.refl s) h
  | dspMpyu _ => exact execDspMpyu_keeps (Keeps.refl s) h
  | dspFtap _ => exact execDspFtap_keeps (Keeps.refl s) h
  | dspFtaps _ => exact execDspFtaps_keeps (Keeps.refl s) h
  | dspLd _ => exact execDspLd_keeps (Keeps.refl s) h
  | dspSt _ => exact execDspSt_keeps (Keeps.refl s) h
  | dspLdil _ => exact execDspLdil_keeps (Keeps.refl s) h
  | dspLdih _ => exact execDspLdih_keeps (Keeps.refl s) h
  | dspAddi _ => exact execDspAddi_keeps (Keeps.refl s) h
  | dspCmpi _ => exact execDspCmpi_keeps (Keeps.refl s) h
  | dspClra _ => exact execDspClra_keeps (Keeps.refl s) h
  | dspAdda _ => exact execDspAdda_keeps (Keeps.refl s) h
  | dspSuba _ => exact execDspSuba_keeps (Keeps.refl s) h
  | dspNega _ => exact execDspNega_keeps (Keeps.refl s) h
  | dspAbsa _ => exact execDspAbsa_keeps (Keeps.refl s) h
  | dspSha _ => exact execDspSha_keeps (Keeps.refl s) h
  | dspShar _ => exact execDspShar_keeps (Keeps.refl s) h
  | dspXfr _ => exact execDspXfr_keeps (Keeps.refl s) h
  | dspXfw _ => exact execDspXfw_keeps (Keeps.refl s) h
  | dspBra _ => exact execDspBra_keeps (Keeps.refl s) h
  | dspBcc _ => exact execDspBcc_keeps (Keeps.refl s) h
  | dspCall _ => exact execDspCall_keeps (Keeps.refl s) h
  | dspRet _ => exact execDspRet_keeps (Keeps.refl s) h
  | dspRti _ => exact execDspRti_keeps (Keeps.refl s) h
  | dspLps _ => exact execDspLps_keeps (Keeps.refl s) h
  | dspLpr _ => exact execDspLpr_keeps (Keeps.refl s) h
  | dspLpx _ => exact execDspLpx_keeps (Keeps.refl s) h
  | dspWait _ => exact execDspWait_keeps (Keeps.refl s) h
  | dspTrap _ => exact execDspTrap_keeps (Keeps.refl s) h
  | dspSync _ => exact execDspSync_keeps (Keeps.refl s) h
  | dspEld _ => exact execDspEld_keeps (Keeps.refl s) h
  | dspEst _ => exact execDspEst_keeps (Keeps.refl s) h
  | dspBlkx _ => exact execDspBlkx_keeps (Keeps.refl s) h
  | dspBlky _ => exact execDspBlky_keeps (Keeps.refl s) h
  | dspAng _ => exact execDspAng_keeps (Keeps.refl s) h
  | dspMag _ => exact execDspMag_keeps (Keeps.refl s) h
  | dspDivf _ => exact execDspDivf_keeps (Keeps.refl s) h
  | dspBlockCopyDone _ => exact execDspBlockCopyDone_keeps (Keeps.refl s) h
  | dspPostedBusError _ => exact execDspPostedBusError_keeps (Keeps.refl s) h
  | dspInterruptEntry _ => exact execDspInterruptEntry_keeps (Keeps.refl s) h
  | dspTimerMatch _ => exact execDspTimerMatch_keeps (Keeps.refl s) h
  | dspWatchdogExpiry _ => exact execDspWatchdogExpiry_keeps (Keeps.refl s) h
  | dspWdogKick _ _ _ => exact execDspWdogKick_keeps (Keeps.refl s) h
  | dspRun _ _ _ => exact execDspRun_keeps (Keeps.refl s) h
  | dspHalt _ _ _ => exact execDspHalt_keeps (Keeps.refl s) h
  | dspReset _ _ _ => exact execDspReset_keeps (Keeps.refl s) h
  | dspSingleStep _ _ _ => exact execDspSingleStep_keeps (Keeps.refl s) h
  | dspShadowSelect _ _ _ => exact execDspShadowSelect_keeps (Keeps.refl s) h
  | dspGroupClock _ _ _ => exact execDspGroupClock_keeps (Keeps.refl s) h
  | dspGroupReset _ _ _ => exact execDspGroupReset_keeps (Keeps.refl s) h
  | dspDoorbell _ _ _ => exact execDspDoorbell_keeps (Keeps.refl s) h
  | dspOutbox _ _ _ => exact execDspOutbox_keeps (Keeps.refl s) h
  | dspMemoryAccess _ _ _ _ _ _ => exact execDspMemoryAccess_keeps (Keeps.refl s) h
  | solutionEpoch x => exact execSolutionEpoch_keeps (a0 := x) (Keeps.refl s) h
  | navMessage _ => exact execNavMessage_keeps (Keeps.refl s) h
  | osnmaTag _ => exact execOsnmaTag_keeps (Keeps.refl s) h
  | mordantWrite _ => exact execMordantWrite_keeps (Keeps.refl s) h
  | mordantWriteDone => exact execMordantWriteDone_keeps (Keeps.refl s) h
  | mordantPeriod => exact execMordantPeriod_keeps (Keeps.refl s) h
  | evidenceRecord _ => exact execEvidenceRecord_keeps (Keeps.refl s) h
  | terrBoundCross => exact execTerrBoundCross_keeps (Keeps.refl s) h
  | holdoverAgeLimit => exact execHoldoverAgeLimit_keeps (Keeps.refl s) h
  | holdinTimeout => exact execHoldinTimeout_keeps (Keeps.refl s) h
  | woadLatchExpiry => exact execWoadLatchExpiry_keeps (Keeps.refl s) h
  | itgLatchWrite _ _ => exact execItgLatchWrite_keeps (Keeps.refl s) h
  | burstStart => exact execBurstStart_keeps (Keeps.refl s) h
  | burstEnd => exact execBurstEnd_keeps (Keeps.refl s) h
  | bmax => exact execBmax_keeps (Keeps.refl s) h
  | burstArrayRelease => exact execBurstArrayRelease_keeps (Keeps.refl s) h
  | deviceEpoch _ => exact execDeviceEpoch_keeps (Keeps.refl s) h
  | deviceSecond _ _ _ => exact execDeviceSecond_keeps (Keeps.refl s) h
  | fixRelease _ _ => exact execFixRelease_keeps (Keeps.refl s) h
  | stepRequest _ _ => exact execStepRequest_keeps (Keeps.refl s) h
  | loadRequest _ _ => exact execLoadRequest_keeps (Keeps.refl s) h
  | tpSettingWrite _ _ _ _ => exact execTpSettingWrite_keeps (Keeps.refl s) h
  | tpCompose _ _ => exact execTpCompose_keeps (Keeps.refl s) h
  | tpLeadingEdge _ => exact execTpLeadingEdge_keeps (Keeps.refl s) h
  | tpTrailingEdge _ => exact execTpTrailingEdge_keeps (Keeps.refl s) h
  | tpiEdge _ _ => exact execTpiEdge_keeps (Keeps.refl s) h
  | tpiloss => exact execTpiloss_keeps (Keeps.refl s) h
  | rfiClassifyRetry _ => exact execRfiClassifyRetry_keeps (Keeps.refl s) h
  | pllALockRetry _ => exact execPllALockRetry_keeps (Keeps.refl s) h
  | pllCommit _ _ _ => exact execPllCommit_keeps (Keeps.refl s) h
  | pllRelock _ _ _ => exact execPllRelock_keeps (Keeps.refl s) h
  | pllEnable _ _ _ => exact execPllEnable_keeps (Keeps.refl s) h
  | pllFollow _ _ _ => exact execPllFollow_keeps (Keeps.refl s) h
  | pllTrimWrite _ _ _ => exact execPllTrimWrite_keeps (Keeps.refl s) h
  | pllRampDone _ => exact execPllRampDone_keeps (Keeps.refl s) h
  | pllCalDone _ => exact execPllCalDone_keeps (Keeps.refl s) h
  | lock _ => exact execLock_keeps (Keeps.refl s) h
  | aligned _ => exact execAligned_keeps (Keeps.refl s) h
  | lol _ _ => exact execLol_keeps (Keeps.refl s) h
  | lor _ => exact execLor_keeps (Keeps.refl s) h
  | rfiReturn => exact execRfiReturn_keeps (Keeps.refl s) h
  | ckoCfgWrite _ _ _ => exact execCkoCfgWrite_keeps (Keeps.refl s) h
  | complSet _ _ => exact execComplSet_keeps (Keeps.refl s) h
  | complClear _ _ => exact execComplClear_keeps (Keeps.refl s) h
  | complEpisodeEnd _ => exact execComplEpisodeEnd_keeps (Keeps.refl s) h
  | frameReceived _ _ => exact execFrameReceived_keeps (Keeps.refl s) h
  | forwardCopySent _ _ => exact execForwardCopySent_keeps (Keeps.refl s) h
  | syncRx _ _ _ => exact execSyncRx_keeps (Keeps.refl s) h
  | followUpRx _ _ => exact execFollowUpRx_keeps (Keeps.refl s) h
  | announceRx _ _ => exact execAnnounceRx_keeps (Keeps.refl s) h
  | delayReqRx _ _ _ => exact execDelayReqRx_keeps (Keeps.refl s) h
  | delayRespRx _ _ => exact execDelayRespRx_keeps (Keeps.refl s) h
  | pdelayReqRx _ _ _ _ => exact execPdelayReqRx_keeps (Keeps.refl s) h
  | pdelayRespRx _ _ _ => exact execPdelayRespRx_keeps (Keeps.refl s) h
  | syncTx _ _ _ => exact execSyncTx_keeps (Keeps.refl s) h
  | announceTx _ _ => exact execAnnounceTx_keeps (Keeps.refl s) h
  | delayReqTx _ _ _ => exact execDelayReqTx_keeps (Keeps.refl s) h
  | announceTimeout _ _ => exact execAnnounceTimeout_keeps (Keeps.refl s) h
  | ptpSourceSwitch => exact execPtpSourceSwitch_keeps (Keeps.refl s) h
  | arpRequest _ _ => exact execArpRequest_keeps (Keeps.refl s) h
  | neighbourSolicitation _ _ => exact execNeighbourSolicitation_keeps (Keeps.refl s) h
  | statusGet _ _ _ _ => exact execStatusGet_keeps (Keeps.refl s) h
  | timeDatagram _ => exact execTimeDatagram_keeps (Keeps.refl s) h
  | tpNextDatagram _ _ => exact execTpNextDatagram_keeps (Keeps.refl s) h
  | measDatagram _ x y => exact execMeasDatagram_keeps (a1 := x) (a2 := y) (Keeps.refl s) h
  | integDatagram _ => exact execIntegDatagram_keeps (Keeps.refl s) h
  | identDatagram _ => exact execIdentDatagram_keeps (Keeps.refl s) h
  | umberSumDatagram _ => exact execUmberSumDatagram_keeps (Keeps.refl s) h
  | eptLinkChange _ _ _ => exact execEptLinkChange_keeps (Keeps.refl s) h
  | eptCredWrite _ _ _ => exact execEptCredWrite_keeps (Keeps.refl s) h
  | slotSamplesAged _ => exact execSlotSamplesAged_keeps (Keeps.refl s) h
  | telCfgWrite _ _ _ => exact execTelCfgWrite_keeps (Keeps.refl s) h
  | telPtrWrite _ _ _ => exact execTelPtrWrite_keeps (Keeps.refl s) h
  | telInval _ _ => exact execTelInval_keeps (Keeps.refl s) h
  | telFetch _ _ => exact execTelFetch_keeps (Keeps.refl s) h
  | telNop _ _ => exact execTelNop_keeps (Keeps.refl s) h
  | telSet _ _ => exact execTelSet_keeps (Keeps.refl s) h
  | telClear _ _ => exact execTelClear_keeps (Keeps.refl s) h
  | telPulse _ _ => exact execTelPulse_keeps (Keeps.refl s) h
  | telOpen _ _ => exact execTelOpen_keeps (Keeps.refl s) h
  | telClose _ _ => exact execTelClose_keeps (Keeps.refl s) h
  | telArm _ _ => exact execTelArm_keeps (Keeps.refl s) h
  | telDisarm _ _ => exact execTelDisarm_keeps (Keeps.refl s) h
  | pulseEnd _ => exact execPulseEnd_keeps (Keeps.refl s) h
  | windowLimit _ => exact execWindowLimit_keeps (Keeps.refl s) h
  | holdend _ => exact execHoldend_keeps (Keeps.refl s) h
  | telPermitWrite _ _ _ => exact execTelPermitWrite_keeps (Keeps.refl s) h
  | captureEdge _ _ _ _ => exact execCaptureEdge_keeps (Keeps.refl s) h
  | captureOverflowEpisodeEnd _ => exact execCaptureOverflowEpisodeEnd_keeps (Keeps.refl s) h
  | telCapRead _ _ => exact execTelCapRead_keeps (Keeps.refl s) h
  | bankSupplyMeasure _ _ => exact execBankSupplyMeasure_keeps (Keeps.refl s) h
  | bankDriverReturn _ => exact execBankDriverReturn_keeps (Keeps.refl s) h
  | rtcSecStage _ _ => exact execRtcSecStage_keeps (Keeps.refl s) h
  | rtcSecCommit _ _ => exact execRtcSecCommit_keeps (Keeps.refl s) h
  | rtcSecApply _ => exact execRtcSecApply_keeps (Keeps.refl s) h
  | rtcTrimWrite _ _ => exact execRtcTrimWrite_keeps (Keeps.refl s) h
  | rtcWakeWrite _ _ _ => exact execRtcWakeWrite_keeps (Keeps.refl s) h
  | periodicWake _ => exact execPeriodicWake_keeps (Keeps.refl s) h
  | hostResume _ => exact execHostResume_keeps (Keeps.refl s) h
  | fswclr _ _ => exact execFswclr_keeps (Keeps.refl s) h
  | switchToVbat _ => exact execSwitchToVbat_keeps (Keeps.refl s) h
  | returnFromVbat _ => exact execReturnFromVbat_keeps (Keeps.refl s) h
  | aonLockRelease => exact execAonLockRelease_keeps (Keeps.refl s) h
  | aonReset => exact execAonReset_keeps (Keeps.refl s) h
  | aonResetRelease _ => exact execAonResetRelease_keeps (Keeps.refl s) h
  | vbatMeasure _ => exact execVbatMeasure_keeps (Keeps.refl s) h
  | xofail _ => exact execXofail_keeps (Keeps.refl s) h
  | crystalEdgesReturn => exact execCrystalEdgesReturn_keeps (Keeps.refl s) h
  | rtcTickRead _ _ => exact execRtcTickRead_keeps (Keeps.refl s) h
  | rtcSecRead _ _ => exact execRtcSecRead_keeps (Keeps.refl s) h
  | rtcStampRead _ _ => exact execRtcStampRead_keeps (Keeps.refl s) h
  | powerUp => exact execPowerUp_keeps (Keeps.refl s) h
  | rstNAssert => exact execRstNAssert_keeps (Keeps.refl s) h
  | rstNRelease => exact execRstNRelease_keeps (Keeps.refl s) h
  | pfwN => exact execPfwN_keeps (Keeps.refl s) h
  | supplyWarning _ _ => exact execSupplyWarning_keeps (Keeps.refl s) h
  | supplyReset _ => exact execSupplyReset_keeps (Keeps.refl s) h
  | railAbsent _ => exact execRailAbsent_keeps (Keeps.refl s) h
  | brace => exact execBrace_keeps (Keeps.refl s) h
  | warningEnd => exact execWarningEnd_keeps (Keeps.refl s) h
  | braceEndShort => exact execBraceEndShort_keeps (Keeps.refl s) h
  | braceEndLong => exact execBraceEndLong_keeps (Keeps.refl s) h
  | tempMeasure _ => exact execTempMeasure_keeps (Keeps.refl s) h
  | hotEpisodeEnd => exact execHotEpisodeEnd_keeps (Keeps.refl s) h
  | umbCmdGo _ _ => exact execUmbCmdGo_keeps (Keeps.refl s) h
  | umberCommitDone => exact execUmberCommitDone_keeps (Keeps.refl s) h
  | ready _ => exact execReady_keeps (Keeps.refl s) h
  | navRequestPoll => exact execNavRequestPoll_keeps (Keeps.refl s) h
  | summary => exact execSummary_keeps (Keeps.refl s) h
  | msnap x => exact execMsnap_keeps (a0 := x) (Keeps.refl s) h
  | umbCfgw _ _ => exact execUmbCfgw_keeps (Keeps.refl s) h
  | coldStart _ => exact execColdStart_keeps (Keeps.refl s) h
  | softStart _ => exact execSoftStart_keeps (Keeps.refl s) h
  | protectedMemoryAccess _ _ _ _ _ => exact execProtectedMemoryAccess_keeps (Keeps.refl s) h
  | walkWr32 => exact execWalkWr32_keeps (Keeps.refl s) h
  | walkFill => exact execWalkFill_keeps (Keeps.refl s) h
  | walkLoad => exact execWalkLoad_keeps (Keeps.refl s) h
  | walkWait => exact execWalkWait_keeps (Keeps.refl s) h
  | walkWaitExpiry => exact execWalkWaitExpiry_keeps (Keeps.refl s) h
  | walkCheck => exact execWalkCheck_keeps (Keeps.refl s) h
  | walkEnd => exact execWalkEnd_keeps (Keeps.refl s) h
  | walkTimeout => exact execWalkTimeout_keeps (Keeps.refl s) h
  | mirrorRewriteDone => exact execMirrorRewriteDone_keeps (Keeps.refl s) h
  | navWatchdogExpiry => exact execNavWatchdogExpiry_keeps (Keeps.refl s) h
  | navWdogKick _ _ => exact execNavWdogKick_keeps (Keeps.refl s) h
  | sessionIdleTimeout => exact execSessionIdleTimeout_keeps (Keeps.refl s) h
  | challengeExpiry => exact execChallengeExpiry_keeps (Keeps.refl s) h
  | backoffExpiry => exact execBackoffExpiry_keeps (Keeps.refl s) h
  | svcFrameRx _ => exact execSvcFrameRx_keeps (Keeps.refl s) h
  | svcAckFrame _ => exact execSvcAckFrame_keeps (Keeps.refl s) h
  | svcAckDelay => exact execSvcAckDelay_keeps (Keeps.refl s) h
  | svcRetransmit => exact execSvcRetransmit_keeps (Keeps.refl s) h
  | svcRateTimeout => exact execSvcRateTimeout_keeps (Keeps.refl s) h
  | svcUnknownCommand => exact execSvcUnknownCommand_keeps (Keeps.refl s) h
  | hello => exact execHello_keeps (Keeps.refl s) h
  | close => exact execClose_keeps (Keeps.refl s) h
  | authChallenge => exact execAuthChallenge_keeps (Keeps.refl s) h
  | authResponse => exact execAuthResponse_keeps (Keeps.refl s) h
  | readReg => exact execReadReg_keeps (Keeps.refl s) h
  | writeReg => exact execWriteReg_keeps (Keeps.refl s) h
  | readUmber => exact execReadUmber_keeps (Keeps.refl s) h
  | putObject _ => exact execPutObject_keeps (Keeps.refl s) h
  | journalPendingRun => exact execJournalPendingRun_keeps (Keeps.refl s) h
  | queryObject => exact execQueryObject_keeps (Keeps.refl s) h
  | abandonObject => exact execAbandonObject_keeps (Keeps.refl s) h
  | commitStaging _ => exact execCommitStaging_keeps (Keeps.refl s) h
  | activate => exact execActivate_keeps (Keeps.refl s) h
  | activationAckWait => exact execActivationAckWait_keeps (Keeps.refl s) h
  | sealPart => exact execSealPart_keeps (Keeps.refl s) h
  | unsealPart => exact execUnsealPart_keeps (Keeps.refl s) h
  | clearFsw => exact execClearFsw_keeps (Keeps.refl s) h
  | repairCluster => exact execRepairCluster_keeps (Keeps.refl s) h
  | repairGroup => exact execRepairGroup_keeps (Keeps.refl s) h
  | repairProc => exact execRepairProc_keeps (Keeps.refl s) h
  | repairVacated => exact execRepairVacated_keeps (Keeps.refl s) h
  | repairVacateTimeout => exact execRepairVacateTimeout_keeps (Keeps.refl s) h
  | commandExecutionEnd => exact execCommandExecutionEnd_keeps (Keeps.refl s) h
  | registerWrite _ _ _ _ => exact execRegisterWrite_keeps (Keeps.refl s) h
  | slkFmtRead _ _ => exact execSlkFmtRead_keeps (Keeps.refl s) h
  | snpHtimeRead _ _ => exact execSnpHtimeRead_keeps (Keeps.refl s) h
  | timNowRead _ _ => exact execTimNowRead_keeps (Keeps.refl s) h
  | timEpochRead _ => exact execTimEpochRead_keeps (Keeps.refl s) h
  | tpNextEdgeRead _ _ => exact execTpNextEdgeRead_keeps (Keeps.refl s) h
  | tpiStampRead _ => exact execTpiStampRead_keeps (Keeps.refl s) h
  | engPhaseRead _ _ => exact execEngPhaseRead_keeps (Keeps.refl s) h
  | umbSequenceRead _ _ => exact execUmbSequenceRead_keeps (Keeps.refl s) h
  | cusLatchedRead _ _ => exact execCusLatchedRead_keeps (Keeps.refl s) h
  | svcUpdidRead _ => exact execSvcUpdidRead_keeps (Keeps.refl s) h
  | jtagTapInstruction _ => exact execJtagTapInstruction_keeps (Keeps.refl s) h

end Sys2Proof.Machine
end

