-- ==== Sys2Proof/Laws/Memory.lean ====
section
/-! SUPPORT. The laws of the memories: what a read shows after a write, at the octets written and at every other, and
that a stored value is read back. -/

namespace Sys2Proof.Machine

@[simp] theorem leBytes_length (n v : Nat) : (leBytes n v).length = n := by
  induction n generalizing v with
  | zero => rfl
  | succ n ih => simp [leBytes, ih]

/-- A number that is stored in `n` octets, read back. -/
theorem leNat_leBytes (n v : Nat) : leNat (leBytes n v) = v % 256 ^ n := by
  induction n generalizing v with
  | zero => simp [leBytes, leNat, Nat.mod_one]
  | succ n ih =>
    have e : 256 ^ (n + 1) = 256 * 256 ^ n := by rw [Nat.pow_succ, Nat.mul_comm]
    rw [leBytes, leNat, ih, BitVec.toNat_ofNat, e, Nat.mod_mul]

theorem cellPuts_sorted (d : Nat → Byte) (bs : List Byte) (m : List Host.Cell) (a : Nat) (h : tblSorted none m = true) :
    tblSorted none (cellPuts d m a bs) = true := by
  induction bs generalizing m a with
  | nil => exact h
  | cons b bs ih => exact ih _ _ (tblSorted_put m _ a b h)

/-- Octets outside those written read as before. -/
theorem cellGet_puts_out (d e : Nat → Byte) (bs : List Byte) (m : List Host.Cell) (a b : Nat)
    (h : b < a ∨ a + bs.length ≤ b) : cellGet e (cellPuts d m a bs) b = cellGet e m b := by
  induction bs generalizing m a with
  | nil => rfl
  | cons x bs ih =>
    simp only [List.length_cons] at h
    rw [cellPuts, ih _ _ (by omega)]
    exact tblGet_put_ne m (d a) (e b) x (by omega)

/-- An octet written reads as it was written. -/
theorem cellGet_puts_in (d : Nat → Byte) (bs : List Byte) (m : List Host.Cell) (a i : Nat) (hs : tblSorted none m = true)
    (h : i < bs.length) : cellGet d (cellPuts d m a bs) (a + i) = bs[i] := by
  induction bs generalizing m a i with
  | nil => simp at h
  | cons x bs ih =>
    cases i with
    | zero =>
      rw [cellPuts, cellGet_puts_out _ _ _ _ _ _ (by omega)]
      exact tblGet_put m (d a) a x hs
    | succ i =>
      rw [cellPuts, show a + (i + 1) = a + 1 + i by omega, ih (cellPut d m a x) _ _ (tblSorted_put m _ a x hs) (by simpa using h)]
      rfl

theorem State.byteAt_pokes_out (s : State) (a b : Nat) (bs : List Byte) (h : b < a ∨ a + bs.length ≤ b) :
    (s.pokes a bs).byteAt b = s.byteAt b := cellGet_puts_out _ _ bs s.mem a b h

theorem State.byteAt_pokes_in (s : State) (a i : Nat) (bs : List Byte) (hs : tblSorted none s.mem = true)
    (h : i < bs.length) : (s.pokes a bs).byteAt (a + i) = bs[i] := cellGet_puts_in _ bs s.mem a i hs h

/-- Octets written are read back. -/
theorem State.bytesAt_pokes (s : State) (a : Nat) (bs : List Byte) (hs : tblSorted none s.mem = true) :
    (s.pokes a bs).bytesAt a bs.length = bs := by
  apply List.ext_getElem
  · simp [State.bytesAt]
  · intro i h1 h2
    simp only [State.bytesAt, List.getElem_map, List.getElem_range]
    exact s.byteAt_pokes_in a i bs hs h2

/-- A value stored in `n` octets is read back, as much of it as they hold. -/
theorem State.peek_poke (s : State) (a n v : Nat) (hs : tblSorted none s.mem = true) :
    (s.poke a n v).peek a n = v % 256 ^ n := by
  have h := s.bytesAt_pokes a (leBytes n v) hs
  rw [leBytes_length] at h
  rw [State.peek, State.poke, h, leNat_leBytes]

/-- Octets put beside those read leave them. -/
theorem State.bytesAt_pokes_out (s : State) (a b n : Nat) (bs : List Byte) (h : b + n ≤ a ∨ a + bs.length ≤ b) :
    (s.pokes a bs).bytesAt b n = s.bytesAt b n := by
  apply List.map_congr_left
  intro i hi
  have := List.mem_range.mp hi
  exact s.byteAt_pokes_out a (b + i) bs (by omega)

end Sys2Proof.Machine
end

