-- ==== Sys2Proof/Laws/Nav.lean ====
section
/-! SUPPORT. What an update of a satellite's record leaves of each field, and what the accessors show after it. -/

namespace Sys2Proof.Machine

@[simp] theorem State.setSat_reg (s : State) (n : Nat) (x : SatSt) : (s.setSat n x).reg = s.reg := rfl
@[simp] theorem State.setSat_mem (s : State) (n : Nat) (x : SatSt) : (s.setSat n x).mem = s.mem := rfl
@[simp] theorem State.setSat_flash (s : State) (n : Nat) (x : SatSt) : (s.setSat n x).flash = s.flash := rfl
@[simp] theorem State.setSat_wipes (s : State) (n : Nat) (x : SatSt) : (s.setSat n x).wipes = s.wipes := rfl
@[simp] theorem State.setSat_colds (s : State) (n : Nat) (x : SatSt) : (s.setSat n x).colds = s.colds := rfl
@[simp] theorem State.setSat_ecc (s : State) (n : Nat) (x : SatSt) : (s.setSat n x).ecc = s.ecc := rfl
@[simp] theorem State.setSat_latch (s : State) (n : Nat) (x : SatSt) : (s.setSat n x).latch = s.latch := rfl
@[simp] theorem State.setSat_links (s : State) (n : Nat) (x : SatSt) : (s.setSat n x).links = s.links := rfl
@[simp] theorem State.setSat_fecs (s : State) (n : Nat) (x : SatSt) : (s.setSat n x).fecs = s.fecs := rfl
@[simp] theorem State.setSat_engs (s : State) (n : Nat) (x : SatSt) : (s.setSat n x).engs = s.engs := rfl
@[simp] theorem State.setSat_clus (s : State) (n : Nat) (x : SatSt) : (s.setSat n x).clus = s.clus := rfl
@[simp] theorem State.setSat_handles (s : State) (n : Nat) (x : SatSt) : (s.setSat n x).handles = s.handles := rfl
@[simp] theorem State.setSat_replay (s : State) (n : Nat) (x : SatSt) : (s.setSat n x).replay = s.replay := rfl
@[simp] theorem State.setSat_maps (s : State) (n : Nat) (x : SatSt) : (s.setSat n x).maps = s.maps := rfl
@[simp] theorem State.setSat_chans (s : State) (n : Nat) (x : SatSt) : (s.setSat n x).chans = s.chans := rfl
@[simp] theorem State.setSat_lates (s : State) (n : Nat) (x : SatSt) : (s.setSat n x).lates = s.lates := rfl
@[simp] theorem State.setSat_dsps (s : State) (n : Nat) (x : SatSt) : (s.setSat n x).dsps = s.dsps := rfl
@[simp] theorem State.setSat_mordant (s : State) (n : Nat) (x : SatSt) : (s.setSat n x).mordant = s.mordant := rfl
@[simp] theorem State.setSat_itg (s : State) (n : Nat) (x : SatSt) : (s.setSat n x).itg = s.itg := rfl
@[simp] theorem State.setSat_tim (s : State) (n : Nat) (x : SatSt) : (s.setSat n x).tim = s.tim := rfl
@[simp] theorem State.setSat_tps (s : State) (n : Nat) (x : SatSt) : (s.setSat n x).tps = s.tps := rfl
@[simp] theorem State.setSat_tpi (s : State) (n : Nat) (x : SatSt) : (s.setSat n x).tpi = s.tpi := rfl
@[simp] theorem State.setSat_plls (s : State) (n : Nat) (x : SatSt) : (s.setSat n x).plls = s.plls := rfl
@[simp] theorem State.setSat_ckos (s : State) (n : Nat) (x : SatSt) : (s.setSat n x).ckos = s.ckos := rfl
@[simp] theorem State.setSat_ports (s : State) (n : Nat) (x : SatSt) : (s.setSat n x).ports = s.ports := rfl
@[simp] theorem State.setSat_slots (s : State) (n : Nat) (x : SatSt) : (s.setSat n x).slots = s.slots := rfl
@[simp] theorem State.setSat_net (s : State) (n : Nat) (x : SatSt) : (s.setSat n x).net = s.net := rfl
@[simp] theorem State.setSat_lines (s : State) (n : Nat) (x : SatSt) : (s.setSat n x).lines = s.lines := rfl
@[simp] theorem State.setSat_rtc (s : State) (n : Nat) (x : SatSt) : (s.setSat n x).rtc = s.rtc := rfl
@[simp] theorem State.setSat_sup (s : State) (n : Nat) (x : SatSt) : (s.setSat n x).sup = s.sup := rfl
@[simp] theorem State.setSat_umb (s : State) (n : Nat) (x : SatSt) : (s.setSat n x).umb = s.umb := rfl
@[simp] theorem State.setSat_cus (s : State) (n : Nat) (x : SatSt) : (s.setSat n x).cus = s.cus := rfl
@[simp] theorem State.setSat_svc (s : State) (n : Nat) (x : SatSt) : (s.setSat n x).svc = s.svc := rfl
@[simp] theorem State.setSat_tap (s : State) (n : Nat) (x : SatSt) : (s.setSat n x).tap = s.tap := rfl
@[simp] theorem State.setSat_part (s : State) (n : Nat) (x : SatSt) : (s.setSat n x).part = s.part := rfl
@[simp] theorem State.setSat_out (s : State) (n : Nat) (x : SatSt) : (s.setSat n x).out = s.out := rfl
@[simp] theorem State.setSat_free (s : State) (n : Nat) (x : SatSt) : (s.setSat n x).free = s.free := rfl
@[simp] theorem State.setSat_pending (s : State) (n : Nat) (x : SatSt) : (s.setSat n x).pending = s.pending := rfl
@[simp] theorem State.setSat_link_at (s : State) (n : Nat) (x : SatSt) (i : Nat) : (s.setSat n x).link i = s.link i := rfl
@[simp] theorem State.setSat_fec_at (s : State) (n : Nat) (x : SatSt) (i : Nat) : (s.setSat n x).fec i = s.fec i := rfl
@[simp] theorem State.setSat_eng_at (s : State) (n : Nat) (x : SatSt) (i : Nat) : (s.setSat n x).eng i = s.eng i := rfl
@[simp] theorem State.setSat_clu_at (s : State) (n : Nat) (x : SatSt) (i : Nat) : (s.setSat n x).clu i = s.clu i := rfl
@[simp] theorem State.setSat_handle_at (s : State) (n : Nat) (x : SatSt) (i : Nat) : (s.setSat n x).handle i = s.handle i := rfl
@[simp] theorem State.setSat_map_at (s : State) (n : Nat) (x : SatSt) (i : Nat) : (s.setSat n x).map i = s.map i := rfl
@[simp] theorem State.setSat_chan_at (s : State) (n : Nat) (x : SatSt) (i : Nat) : (s.setSat n x).chan i = s.chan i := rfl
@[simp] theorem State.setSat_dsp_at (s : State) (n : Nat) (x : SatSt) (i : Nat) : (s.setSat n x).dsp i = s.dsp i := rfl
@[simp] theorem State.setSat_tp_at (s : State) (n : Nat) (x : SatSt) (i : Nat) : (s.setSat n x).tp i = s.tp i := rfl
@[simp] theorem State.setSat_pll_at (s : State) (n : Nat) (x : SatSt) (i : Nat) : (s.setSat n x).pll i = s.pll i := rfl
@[simp] theorem State.setSat_cko_at (s : State) (n : Nat) (x : SatSt) (i : Nat) : (s.setSat n x).cko i = s.cko i := rfl
@[simp] theorem State.setSat_port_at (s : State) (n : Nat) (x : SatSt) (i : Nat) : (s.setSat n x).port i = s.port i := rfl
@[simp] theorem State.setSat_slot_at (s : State) (n : Nat) (x : SatSt) (i : Nat) : (s.setSat n x).slot i = s.slot i := rfl
@[simp] theorem State.setSat_line_at (s : State) (n : Nat) (x : SatSt) (i : Nat) : (s.setSat n x).line i = s.line i := rfl
@[simp] theorem State.setSat_get (s : State) (n : Nat) (x : SatSt) (g : Field) : (s.setSat n x).get g = s.get g := rfl
@[simp] theorem State.setSat_on (s : State) (n : Nat) (x : SatSt) (g : Field) : (s.setSat n x).on g = s.on g := rfl
@[simp] theorem State.setSat_byteAt (s : State) (n : Nat) (x : SatSt) (i : Nat) : (s.setSat n x).byteAt i = s.byteAt i := rfl
@[simp] theorem State.setSat_flashAt (s : State) (n : Nat) (x : SatSt) (i : Nat) : (s.setSat n x).flashAt i = s.flashAt i := rfl
@[simp] theorem State.setSat_banks (s : State) (n : Nat) (x : SatSt) : (s.setSat n x).banks = s.banks := rfl
@[simp] theorem State.setSat_bank_at (s : State) (n : Nat) (x : SatSt) (i : Nat) : (s.setSat n x).bank i = s.bank i := rfl
@[simp] theorem State.setSat_navOn (s : State) (n : Nat) (x : SatSt) : (s.setSat n x).navOn = s.navOn := rfl
@[simp] theorem State.setSat_sat (s : State) (n : Nat) (x : SatSt) : (s.setSat n x).sat n = x := tblGet_set _ _ _ _
theorem State.setSat_sat_ne (s : State) {n i : Nat} (x : SatSt) (h : n ≠ i) : (s.setSat n x).sat i = s.sat i :=
  tblGet_set_ne _ _ _ h

end Sys2Proof.Machine
end

