-- ==== Sys2Proof/WellFormed.lean ====
section
/-! DEFINITION. What makes a command's operands well formed: instants within their device epoch, addresses within the map,
lists of the length the hardware gives them. -/

namespace Sys2Proof

/-- The instant lies within a device epoch of 1 ms, in 2^-16 ns (R219). -/
def subOk (sub : Nat) : Bool := decide (sub < 65536000000)

/-- The address lies in the 32-bit map (R400). -/
def addrOk (addr : Nat) : Bool := decide (addr < 2 ^ 32)

/-- The offset lies in a window of 64 KiB (R145, R400). -/
def ofsOk (ofs : Nat) : Bool := decide (ofs < 2 ^ 16)

/-- A result of training names its five lanes, or none is given (R41). -/
def eyesOk (eyes : List (Option (Fin 64))) : Bool := eyes.length == 0 || eyes.length == 5

/-- A hand-over block holds 32 words (R138). -/
def blockOk (block : List Word) : Bool := block.length == 32

/-- The measurements of an epoch name eight links (ch. 2). -/
def obsOk (obs : EpochObs) : Bool := obs.links.length == 8

/-- A second's phases name twelve outputs (R249). -/
def phasesOk (phases : List Int) : Bool := phases.length == 12

/-- The operands of a command lie within the ranges of the hardware. -/
def Instr.wf : Instr → Bool
  | .slkEnable _ _ _ eyes | .linkClockReturn _ eyes => eyesOk eyes
  | .markerReceived _ sub _ eyes => subOk sub && eyesOk eyes
  | .captureTrigger _ sub _ | .tpiEdge sub _ | .forwardCopySent _ sub | .syncRx _ sub _ | .delayReqRx _ sub _
  | .pdelayRespRx _ sub _ | .syncTx _ _ sub | .delayReqTx _ _ sub | .captureEdge _ sub _ _ | .timNowRead _ sub => subOk sub
  | .telFetch _ sub | .telNop _ sub | .telSet _ sub | .telClear _ sub | .telPulse _ sub | .telOpen _ sub
  | .telClose _ sub | .telArm _ sub | .telDisarm _ sub => subOk sub
  | .pdelayReqRx _ sub txSub _ => subOk sub && subOk txSub
  | .frameReceived _ f => subOk f.sub && subOk f.txSub
  | .broadcastWrite _ _ ofs _ | .dspMemoryAccess _ _ _ ofs _ _ => ofsOk ofs
  | .migrationHandoff _ _ block _ => blockOk block
  | .deviceEpoch obs => obsOk obs
  | .deviceSecond _ _ phases => phasesOk phases
  | .protectedMemoryAccess _ addr _ _ _ | .registerWrite _ addr _ _ => addrOk addr
  | _ => true

end Sys2Proof
end

