-- ==== Sys2Proof/Tests/Slice0.lean ====
section
/-! SUPPORT. The smoke test of well-formedness, and for each statement states and operands that meet its hypotheses,
each clause's at a boundary of its range. -/

set_option linter.all false
set_option Elab.async false

namespace Sys2Proof.Tests

open Sys2Proof.Machine

/-! ### Well-formedness: one ill-formed term for each check -/

theorem test_wf_sub : (Instr.telSet 0 65536000000).wf = false := by decide
theorem test_wf_sub_ok : (Instr.telSet 0 65535999999).wf = true := by decide
theorem test_wf_addr : (Instr.registerWrite .nav (2 ^ 32) .b4 0).wf = false := by decide
theorem test_wf_ofs : (Instr.broadcastWrite .nav 0 65536 0).wf = false := by decide
theorem test_wf_eyes : (Instr.linkClockReturn 0 [some 3]).wf = false := by decide
theorem test_wf_block : (Instr.migrationHandoff 0 64 [0] 0).wf = false := by decide
theorem test_wf_obs : (Instr.deviceEpoch { links := [], io33 := 330, core := 900, edges := 33 }).wf = false := by decide
theorem test_wf_phases : (Instr.deviceSecond 0 32768 [0]).wf = false := by decide

/-- The opcode table gives no row bits: no word spells a command. -/
theorem test_decode_none (n w : Nat) : decodeTableWord n w = none := rfl

/-! ### States that meet the hypotheses of the statements, one theorem a statement -/

/-- The state after reset with some register fields set. -/
def st (l : List (Field × Nat)) : State := l.foldl (fun s f => s.set f.1 f.2) State.reset

/-- Sixteen bits of a control word with their check. -/
def ctrl (x : Nat) : Nat := x * 256 + crc8 (beBytes 2 x)

theorem test_hyp_LinkWords_writes :
    writeTaken State.reset .cust 0x40050000 0 = true ∧ writeTaken State.reset .cust 0x40050700 0x80000000 = true ∧
    writeTaken State.reset .cust 0x40050028 0 = true ∧ writeTaken State.reset .nav 0x40050728 0 = true := by decide +kernel

theorem test_hyp_LinkWords_words :
    let s := (st [(SLK_CFG_EN 7, 1)]).setLink 7 { aligned := true, cfg := { agcm := 1 } }
    let ok := fun x => crc8 (beBytes 2 (ctrl x / 256)) = ctrl x % 256
    s.linkLive 7 = true ∧ (s.link 7).aligned = true ∧ (s.link 7).cfg.agcm = 1 ∧
    crc8 (beBytes 2 (1 / 256)) ≠ 1 % 256 ∧
    (ok 0x4000 ∧ bits (ctrl 0x4000) 22 20 = 4) ∧ (ok 0x7000 ∧ bits (ctrl 0x7000) 22 20 = 7) ∧
    (ok 0x1000 ∧ bits (ctrl 0x1000) 22 20 = 1) ∧ (ok 0x2000 ∧ bits (ctrl 0x2000) 22 20 = 2) ∧
    (ok 0 ∧ bits (ctrl 0) 22 20 = 0) ∧ (ok 0x3000 ∧ bits (ctrl 0x3000) 22 20 = 3) := by decide +kernel

theorem test_hyp_LinkFaults :
    let s := (st [(SLK_CFG_EN 0, 1), (SLK_STAT_FAULTS 0, 1)]).setLink 0 { cfg := { agcm := 2 }, upfrN := 16, learnMs := 600000 }
    let u := ({ State.reset with tim := { up := 999000001 } } : State).setLink 7 { episode := true }
    s.linkLive 0 = true ∧ s.on SUP_STAT_BRACE = false ∧ laneUsed 0 2 = true ∧ laneUsed 2 0 = true ∧ bit (s.get (SLK_STAT_FAULTS 0)) 0 = true ∧
    (u.link 7).episode = true ∧ u.get (SLK_STAT_FAULTS 7) = 0 ∧
    u.reached (u.link 7).freeAt 1000000000 = true ∧
    (s.link 0).cfg.agcm = 2 ∧ 16 ≤ (s.link 0).upfrN ∧ 600000 ≤ (s.link 0).learnMs := by decide +kernel

theorem test_hyp_FrontEndBus_off :
    let s := State.reset
    s.on (FEC_CAL_EN 0) = false ∧ s.on (FEC_CFG_EN 0) = false ∧ (st [(SUP_STAT_BRACE, 1)]).on SUP_STAT_BRACE = true ∧
    ({ s with itg := { below := true } } : State).itg.below = true ∧
    ({ s with itg := { minSet := true } } : State).itg.minSet = true ∧ (s.fec 3).running = none ∧
    ((s.setFec 3 { hold := true }).fec 3).hold = true ∧ (s.fec 0).waiting = false := by decide +kernel

theorem test_hyp_FrontEndBus_slot :
    let s := st [(FEC_CFG_EN 3, 1), (FEC_CAL_EN 3, 1)]
    let g := fun (f : FecSt) => let s := s.setFec 3 f; ((s.fecGain 3 0).fecGain 3 1).fec 3
    writeTaken State.reset .nav 0x40060308 0x80000000 = true ∧ writeTaken State.reset .cust 0x40060008 0 = true ∧
    s.on (FEC_CAL_EN 3) = true ∧ s.on (FEC_CFG_EN 3) = true ∧ s.on SUP_STAT_BRACE = false ∧
    s.itg.below = false ∧ s.itg.minSet = false ∧
    (g { running := some .go }).running.isSome = true ∧ (g { hold := true }).hold = true ∧
    ((g { pendWake := true }).running = none ∧ (g { pendWake := true }).hold = false ∧ (g { pendWake := true }).pendWake = true) ∧
    ((g { pendSlp := true }).pendWake = false ∧ (g { pendSlp := true }).pendSlp = true) ∧
    ((g { pendGo := some 0 }).pendSlp = false ∧ (g { pendGo := some 0 }).pendGo = some 0) ∧
    ((g {}).pendWake = false ∧ (g {}).pendSlp = false ∧ (g {}).pendGo = none) := by decide +kernel

theorem test_hyp_FrontEndBus_entries :
    let s := ((st [(FEC_CFG_EN 0, 1), (FEC_TBASE_ADDR 0, 0x20000000)]).setFec 0 { running := some .go })
    let rd := fun (s : State) => (s.memRead .nav (s.get (FEC_TBASE_ADDR 0) * 4 + s.get (FEC_SEQ_PC 0) % 1024 * 4) 4).2
    let op := fun (k : Nat) => (rd (s.poke 0x80000000 4 (k * 2 ^ 29))).map fun v => bits v 31 29
    let u := s.poke 0x80000000 4 (2 * 2 ^ 29)
    let f := (u.memRead .nav 0x80000000 4).1.fecFrame 0 (2 * 2 ^ 29) 0
    let g := ((u.setEcc .nav 0x80000004 true).memRead .nav 0x80000000 4).1.fecFrame 0 (2 * 2 ^ 29) 0
    s.on (FEC_CFG_EN 0) = true ∧ s.on SUP_STAT_BRACE = false ∧ s.itg.below = false ∧ s.itg.minSet = false ∧
    op 4 = some 4 ∧ op 7 = some 7 ∧ rd (s.setEcc .nav 0x80000000 true) = none ∧ (s.fec 0).running ≠ none ∧
    (f.fecEntry 0 (f.get (FEC_SEQ_PC 0) + 1)).2 = some 0 ∧ (g.fecEntry 0 (g.get (FEC_SEQ_PC 0) + 1)).2 = none ∧
    (s.fec 0).running.isSome = true ∧ (s.fec 0).waiting = false ∧ (s.fec 0).hold = false ∧
    op 0 = some 0 ∧ op 1 = some 1 ∧ op 2 = some 2 ∧ op 3 = some 3 ∧
    (let w := fun (n : Nat) => s.setFec 0 { waiting := true, waitTill := n }
     ((w 0).fec 0).waiting = true ∧ (w 0).reached ((w 999999).fec 0).waitTill 0 = true ∧
       (w 0).reached ((w 1000000).fec 0).waitTill 0 = false) := by decide +kernel

/-- The state in which engine `e`'s cluster runs its clock. -/
def clocked (e : Nat) : State := st [(CLU_CTL_CKEN (e / 64), 1), (PLL_STAT_ALIGNED 0, 1)]

/-- A dwell that stands at one word. -/
def atWord (e w : Nat) : State := (clocked e).setEng e { run := some { prog := [w] } }

theorem test_hyp_EngineWrites :
    writeTaken State.reset .nav (engAddr 0 0x34) 0 = true ∧ writeTaken State.reset (.ldsp 15) (engAddr 1023 0x34) 0 = true ∧
    writeTaken State.reset .nav (engAddr 1023 0x30) 0 = true ∧ writeTaken State.reset .nav (engAddr 1023 0x38) 0xA0000001 = true ∧
    writeTaken State.reset .nav (engAddr 0 0x38) 0x40000000 = true ∧
    writeTaken State.reset .nav (engAddr 1023 0x5C) 0x80000000 = true ∧
    (let s := (st [(CLU_TOK_FREE 15, 255)]).setEng 1023 { run := some {} }
     regsRise s = true ∧ s.get (CLU_TOK_FREE 15) + (s.eng 1023).tokens ≤ 256 ∧ (s.eng 1023).run.isSome = true) := by
  decide +kernel

theorem test_hyp_ClusterWrites :
    writeTaken State.reset .nav 0x50F00000 0x40000000 = true ∧ writeTaken State.reset .nav 0x50000000 0x80000000 = true ∧
    writeTaken State.reset .nav 0x50F00004 0 = true ∧ writeTaken State.reset .nav 0x50F0000C 0 = true ∧
    writeTaken State.reset .nav 0x50F00014 0 = true ∧ writeTaken State.reset .nav 0x50F00020 0 = true ∧
    writeTaken State.reset .nav 0x50F00028 0 = true := by decide +kernel

theorem test_hyp_DwellInstructions :
    (clocked 1023).cluOn 15 = true ∧ (atWord 0 0).cluOn 0 = true ∧
    (∀ k ∈ [0x0, 0x1, 0x2, 0x3, 0x7, 0x9, 0xA, 0xB, 0xC, 0xD], ((atWord 1023 (k * 2 ^ 28)).eng 1023).run =
      some { prog := [k * 2 ^ 28] } ∧ bits (k * 2 ^ 28) 31 28 = k) := by decide +kernel

theorem test_hyp_DwellSpans :
    ((clocked 1023).eng 1023).run = none ∧ ((atWord 0 (6 * 2 ^ 28)).eng 0).recs.length < 2 ∧
    ((atWord 0 (6 * 2 ^ 28)).eng 0).pend = none ∧
    (∀ k ∈ [4, 5, 6, 8], ((atWord 1023 (k * 2 ^ 28)).eng 1023).run = some { prog := [k * 2 ^ 28] } ∧
      bits (k * 2 ^ 28) 31 28 = k) ∧
    2 ≤ (((atWord 0 0).setEng 0 { recs := [(false, []), (false, [])] }).eng 0).recs.length := by decide +kernel

theorem test_hyp_DwellSpans_samples :
    let y : EngSt := {}
    let e : Sample := { i := 0, q := 0, epoch := true }
    (∃ t v wrap, State.reset.engTick 0 y = (t, v, wrap, false)) ∧ (e.epoch = true ∧ { e with epoch := false }.epoch = false) ∧
    y.cfrac + y.use.crate < 2 ^ 48 ∧
    (let z : EngSt := { cfrac := 2 ^ 48 - 1, use := { crate := 1 } }; 2 ^ 48 ≤ z.cfrac + z.use.crate) ∧
    { e with gap := true }.gap = true ∧ { y with refill := 1 }.refill ≠ 0 ∧ e.gap = false ∧ y.refill = 0 :=
  ⟨⟨_, _, _, rfl⟩, by decide, by decide, by decide, by decide, by decide, by decide, by decide⟩

theorem test_hyp_EngineEvents :
    let s := (clocked 1023).set (CLU_CTL_BUSY 15) 1
    let r := ((s.set (CLU_RING_LEN 15) 2).setEng 1023 { recs := [(true, [0, 0])] }).setClu 15 { done := [1023, 960] }
    let g := (s.set (ENG_MIG_ARM 1023) 1).setEng 0 { migTo := some 1023 }
    (s.eng 1023).run = none ∧ s.cluOn 15 = true ∧ (s.engEnter 1023 1).engState 1023 = 1 ∧ (s.engEnter 1023 2).engState 1023 = 2 ∧
    ((s.setEng 1023 { migTo := some 0 }).engEnter 1023 3).engState 1023 = 3 ∧
    (r.eng 1023).recs = [(true, [0, 0])] ∧ (r.clu 15).done.head? = some 1023 ∧
    (r.setClu 15 { done := [960] } |>.clu 15).done.head? ≠ some 1023 ∧ r.get (CLU_RING_LVL_FILL 15) < r.get (CLU_RING_LEN 15) ∧
    (r.sup.arrayOff = false ∧ { r with sup := { arrayOff := true } }.sup.arrayOff = true) ∧
    (let q := r.set (CLU_RING_LVL_FILL 15) 2; q.get (CLU_RING_LEN 15) ≤ q.get (CLU_RING_LVL_FILL 15)) ∧
    s.on (CLU_CTL_BUSY 15) = true ∧ g.on (ENG_MIG_ARM 1023) = true ∧ (g.eng (g.get (ENG_MIG_FROM 1023))).migTo = some 1023 ∧
    s.on (ENG_MIG_ARM 0) = false := by decide +kernel

theorem test_hyp_SnapshotWrites :
    writeTaken State.reset .nav 0x400702C0 0x80000000 = true ∧ writeTaken State.reset .nav 0x40070100 0x40000000 = true ∧
    writeTaken State.reset .nav 0x40070010 0x80000000 = true ∧ writeTaken State.reset .cust 0x40070010 0x40000000 = true ∧
    (let s := State.reset.setClu 15 { gang := true }
     s.busAllowed .nav 0x50F20000 true = true ∧ (s.clu 15).gang = true ∧ s.writeError .nav 0x50F10030 0 = false ∧
       s.writeError .nav 0x50F10038 0x40000000 = false ∧ s.writeError .nav 0x50F10000 0 = false) ∧
    (let s := (st [(SNP_CRED_FREE, 0)]).setHandle 7 { cred := List.range 64 }
     regsRise s = true ∧ s.get SNP_CRED_FREE + (s.handle 7).cred.length ≤ 64) := by decide +kernel

theorem test_hyp_SnapshotCaptures :
    let s := (st [(SNP_HSTAT_STATE 7, 1), (TIM_EPOCH_L_COUNT, 5)]).setHandle 7 { rate := 5, armedAt := 4 }
    let u := s.setHandle 7 { rate := 0, trig := true, epoch := 6, armedAt := 5 }
    s.get (SNP_HSTAT_STATE 7) = 1 ∧ 4096 * decimation (s.handle 7).rate ≤ (List.replicate 4096 ({ i := 0, q := 0 } : LinkSample)).length ∧
    (s.handle 7).armedAt < s.epochCount ∧ 0 * storedRate (s.handle 7).rate < 65536000000000 ∧ (s.handle 7).trig = false ∧
    ((s.setHandle 7 { trig := true, late := true }).handle 7).late = true ∧
    (s.epochCount % 65536 == 5) = true ∧ s.epochPassed 32774 = true ∧
    (u.handle 7).trig = true ∧ (u.epochCount % 65536 == (u.handle 7).epoch) = false ∧ u.epochPassed 6 = false ∧
    ¬ (u.handle 7).armedAt < u.epochCount ∧ ¬ 4096 * decimation (u.handle 7).rate ≤ 4096 * 50 - 1 ∧
    (st [(SNP_HSTAT_STATE 0, 2)]).get (SNP_HSTAT_STATE 0) = 2 := by decide +kernel

theorem test_hyp_ReplayPasses :
    let s := st [(SNP_STAT_RPLRUN, 1)]
    s.on SNP_STAT_RPLRUN = true ∧ s.replay.inPass = false ∧ s.replay.later = false ∧
    ({ s with replay := { inPass := true } } : State).replay.inPass = true ∧
    (let x : EngSt := { refill := 2048, refillIn := true }
     x.refill ≠ 0 ∧ x.refillIn = true ∧ { x with refillIn := false }.refillIn = false ∧ ({} : EngSt).refill = 0 ∧
       x.refillAt + 2000000 ≤ ({ s with tim := { up := 2000000 } } : State).tim.up) := by decide +kernel

/-- A loop update with a record of the flags `fl` (R77) and a set-up. -/
def loop0 (fl : Nat) (c : Option ChanCfg) : LoopIn :=
  { setup := c, rec_ := [0, BitVec.ofNat 32 fl] ++ List.replicate 40 0 }

theorem test_hyp_TrackingSteps :
    let s := (st [(ENG_STAT_STATE 1023, 1), (LDSP_STAT_STATE 15, 2), (LDSP_GCTL_CKEN 3, 1), (LDSP_STAT_STATE 0, 1),
      (LDSP_GCTL_CKEN 0, 1), (ENG_STAT_STATE 0, 0)]).setChan 1023 { live := true, seen := true }
    let u := (st [(ENG_STAT_STATE 0, 1), (LDSP_STAT_STATE 0, 1), (LDSP_GCTL_CKEN 0, 1)]).setLink 0 { cfg := { bands := 7 } }
    let r := fun (fl : Nat) (c : Option ChanCfg) => dumpRec (loop0 fl c).rec_
    let y : ChanSt := { cfg := { group := 255 } }
    (r 0x80 none).tracks = false ∧ (r 0x100 none).tracks = false ∧ State.reset.engState 0 ≠ 1 ∧ State.reset.engState 0 ≠ 3 ∧
    (r 0 none).tracks = true ∧ bit (r 0 none).flags 6 = false ∧ s.engState 1023 = 1 ∧ (s.chan 1023).live = true ∧
    (s.chan 1023).st ≠ .lost ∧
    u.engState 0 = 1 ∧ (u.chan 0).live = false ∧ (loop0 0 (some {})).setup = some {} ∧ u.setupOk 0 {} = true ∧
    y.cfg.follow = false ∧ y.handed = false ∧ y.st ≠ .lost ∧ y.st ≠ .coast ∧ y.cfg.group = 255 ∧
    (s.chan 1023).handed = false ∧ s.on (ENG_MIG_ARM 1023) = false ∧
    (s.setChan 0 { live := true, cfg := { group := (s.chan 1023).cfg.group } }).groupWhole 15 (s.chan 1023).cfg.group = false ∧
    (s.loopRuns 15 = true ∧ u.loopRuns 0 = true ∧ State.reset.loopRuns 15 = false) ∧
    (State.reset.navOn = false ∧ ({ s with nav := { running := true } } : State).navOn = true) ∧
    (State.reset.nav.repEp = State.reset.epochCount ∧ (State.reset.measNow.loopRuns 0 = false)) ∧
    s.handsOver 1023 0 = true ∧ s.handsOver 1023 960 = false ∧
    writeTaken (s.chanHandoff 1023 0 []) (.ldsp (clusterOf 0)) (engAddr 0 0x5C) 0x80000000 = true := by
  refine ⟨?_, ?_, ?_, ?_, ?_, ?_, ?_, ?_, ?_, ?_, ?_, ?_, ?_, ?_, ?_, ?_, ?_, ?_, ?_, ?_, ?_, ?_, ?_, ?_, ?_, ?_, ?_⟩ <;> decide +kernel

/-- A loop DSP that runs with its clock, the word `w` at its PC. -/
def dspAt (d : Fin 16) (w : Nat) : State :=
  (st [(LDSP_STAT_STATE d.val, 1), (LDSP_GCTL_CKEN (d.val / 4), 1)]).poke (dspWord d.val .p 0) 4 w

/-- What `DspReady` asks, as a check. -/
def readyNow (s : State) (d : Fin 16) (op : DspOp) (w : Nat) : Bool :=
  let x := s.dsp d.val
  let t := s.memRead (.dsp d.val .p) (dspWord d.val .p x.pc) 4
  decide (s.dspState d.val = 1) && s.dspClock d.val && decide (x.pc < 0x4000) && decide (t.2 = some w) &&
    decide (dspDecode w = some op) &&
    (!op.external || decide (((t.1.dspHold d op).dsp d.val).refused = [])) && (!op.notInSlot || decide (x.slot = none))

theorem dspReady_of_readyNow {s : State} {d : Fin 16} {op : DspOp} {w : Nat} (h : readyNow s d op w = true) :
    ∃ u back, DspReady s d op w u back := by
  simp only [readyNow, Bool.and_eq_true, decide_eq_true_eq, Bool.or_eq_true, Bool.not_eq_true'] at h
  obtain ⟨⟨⟨⟨⟨⟨h1, h2⟩, h3⟩, h4⟩, h5⟩, h6⟩, h7⟩ := h
  refine ⟨_, _, (s.memRead (.dsp d.val .p) (dspWord d.val .p (s.dsp d.val).pc) 4).1, .inl h1, h2, h3, Prod.ext rfl h4, h5, ?_, ?_,
    rfl, rfl⟩
  · intro q _; rcases h6 with h6 | h6
    · rw [q] at h6; cases h6
    · exact h6
  · intro q; rcases h7 with h7 | h7
    · rw [q] at h7; cases h7
    · exact h7

/-- A word of each operation. -/
def dspWords : List (DspOp × Nat) :=
  (([.nop, .mov, .add, .adds, .sub, .subs, .and, .or, .xor, .neg, .abs, .min, .max, .cmp, .shl, .shr, .asr, .shlv,
     .asrv] : List DspOp).zipIdx.map fun p => (p.1, p.2 * 2 ^ 24)) ++
  (([.mpy, .mac, .msu, .mpyu, .ftap, .ftaps] : List DspOp).zipIdx.map fun p => (p.1, 2 ^ 29 + p.2 * 2 ^ 26)) ++
  [(.ld, 2 * 2 ^ 29), (.st, 2 * 2 ^ 29 + 2 ^ 28)] ++
  (([.ldil, .ldih, .addi, .cmpi] : List DspOp).zipIdx.map fun p => (p.1, 3 * 2 ^ 29 + p.2 * 2 ^ 27)) ++
  (([.clra, .adda, .suba, .nega, .absa, .sha, .shar, .xfr, .xfw] : List DspOp).zipIdx.map fun p =>
    (p.1, 4 * 2 ^ 29 + p.2 * 2 ^ 25)) ++
  (([.bra, .bcc, .call, .ret, .rti, .lps, .lpr, .lpx, .wait, .trap, .sync] : List DspOp).zipIdx.map fun p =>
    (p.1, 5 * 2 ^ 29 + p.2 * 2 ^ 25 + if p.1 = .lps ∨ p.1 = .lpr then 1 else 0)) ++
  (([.eld, .est, .blkx, .blky] : List DspOp).zipIdx.map fun p => (p.1, 6 * 2 ^ 29 + p.2 * 2 ^ 26)) ++
  (([.ang, .mag, .divf] : List DspOp).zipIdx.map fun p => (p.1, 7 * 2 ^ 29 + p.2 * 2 ^ 26))

theorem test_hyp_Dsp_first : ∀ p ∈ dspWords, readyNow (dspAt 0 p.2) 0 p.1 p.2 = true := by decide +kernel

theorem test_hyp_Dsp_last : ∀ p ∈ dspWords, readyNow (dspAt 15 p.2) 15 p.1 p.2 = true := by decide +kernel

theorem test_hyp_Dsp_ready : ∃ u back, DspReady (dspAt 15 0) 15 .nop 0 u back :=
  dspReady_of_readyNow (by decide +kernel)

theorem test_hyp_DspMoves :
    let x := ({} : DspSt)
    let far := ({ x with regs := tblSet x.regs 0x10 0x4000 } : DspSt)
    let s := dspAt 15 0
    bits (2 ^ 30 + 0x2E * 2 ^ 21) 26 21 = 0x2E ∧ bits (2 ^ 30) 26 21 ≠ 0x2E ∧ (x.address 0).1 < 0x4000 ∧
    0x4000 ≤ (far.address 0).1 ∧ 0x4000 ≤ far.ptr 0x10 ∧ far.ptr 0x11 < 0x4000 ∧
    (s.memRead (.dsp 15 .x) (dspWord 15 .x 0) 4).2 = some 0 ∧
    ((s.setEcc (.dsp 15 .x) (dspWord 15 .x 0) true).memRead (.dsp 15 .x) (dspWord 15 .x 0) 4).2 = none := by decide +kernel

theorem test_hyp_DspExternals :
    dspWindow 15 0x7FFFFFFF false = false ∧ dspWindow 15 0x50F00000 false = true ∧ dspWindow 15 0x40040000 true = false ∧
    dspWindow 15 0x803FFFFC true = true ∧
    (State.reset.busRead (.ldsp 15) 0x80000000 4).2 = some 0 ∧ (State.reset.busRead (.ldsp 15) 0x50F00FFC 4).2 = none ∧
    (State.reset.busWrite (.ldsp 15) 0x80000000 4 0).2 = true ∧ (State.reset.busWrite (.ldsp 15) 0x50F00FFC 4 0).2 = false ∧
    ((List.range 1).find? fun i => !dspWindow 15 ((0x7FFFFFFC + 4 * i) % 2 ^ 32) false) = some 0 := by decide +kernel

theorem test_hyp_DspTraps :
    let s := dspAt 15 (5 * 2 ^ 29)
    let q := fun (f : DspSt) => s.setDsp 15 f
    let op := fun (k : Nat) => dspDecode (5 * 2 ^ 29 + k * 2 ^ 25 + if k = 5 then 1 else 0)
    s.dspState 15 = 1 ∧ s.dspClock 15 = true ∧ ((q { pc := 0x4000 }).dsp 15).pc = 0x4000 ∧
    (let h := (q { step := true }).set (LDSP_STAT_STATE 15) 3
     h.dspState 15 = 3 ∧ (h.dsp 15).step = true ∧ (s.set (LDSP_STAT_STATE 15) 3).dspState 15 ≠ 1 ∧ (s.dsp 15).step = false) ∧
    (∀ p ∈ dspRows 15, dspWords.any (fun x => x.1 == p.1) = true) ∧
    (∀ p ∈ dspRows 15, p.1.external = true ∨ p.1 ∉ ([.eld, .est, .blkx, .blky, .sync] : List DspOp)) ∧
    ((s.setEcc (.dsp 15 .p) (dspWord 15 .p 0) true).memRead (.dsp 15 .p) (dspWord 15 .p 0) 4).2 = none ∧
    dspDecode 0xFFFFFFFF = none ∧ ((q { slot := some 0 }).dsp 15).slot.isSome = true ∧
    op 0 = some .bra ∧ op 2 = some .call ∧ op 5 = some .lps ∧ op 8 = some .wait ∧ op 9 = some .trap ∧ op 10 = some .sync ∧
    (let t := (q { refused := [(0, 0)] }).memRead (.dsp 15 .p) (dspWord 15 .p 0) 4
     ((t.1.dspHold 15 .sync).dsp 15).refused = [(0, 0)]) ∧
    (∀ w ∈ dspWords, w.1.external = true →
      let u := (dspAt 15 w.2).setDsp 15 { refused := [(0, 0)] }
      let t := u.memRead (.dsp 15 .p) (dspWord 15 .p 0) 4
      ((t.1.dspHold 15 w.1).dsp 15).refused = [(0, 0)] ∧ t.2 = some w.2) := by decide +kernel

theorem test_hyp_DspControl :
    writeTaken State.reset .nav (LDSP_CTL_RUN 15).addr 0x80000000 = true ∧
    writeTaken State.reset .cust (LDSP_CTL_RUN 0).addr 0x40000000 = true ∧
    writeTaken State.reset .nav (LDSP_GCTL_CKEN 3).addr 0x80000000 = true ∧
    writeTaken State.reset .nav (LDSP_GCTL_CKEN 0).addr 0 = true ∧
    writeTaken State.reset .nav (LDSP_DBELL_MSG 15).addr 0xFFFFFFFF = true ∧
    writeTaken State.reset (.ldsp 15) (LDSP_OUTBOX_MSG 15).addr 0 = true ∧
    writeTaken State.reset (.ldsp 0) (LDSP_WDOG_KICK 0).addr 0x40000000 = true := by decide +kernel

theorem test_hyp_DspEvents :
    let s := (dspAt 15 0).setDsp 15 { sr := 0x80000000 }
    let on := fun (a b : Field) => let t := (s.set a 1).set b 1; t.on a && t.on b
    let w := (s.set (LDSP_WDOG_EN 15) 1).set (LDSP_WDOG_COUNT 15) 10
    ((s.setDsp 15 { blk := some { toY := false, dst := 0, src := 0, left := 1, wait := 0, gap := 1, pc := 0 } }).dsp
      15).blk.isSome = true ∧
    bit (s.dsp 15).srSeen 31 = true ∧ bit (s.dsp 15).sr 30 = false ∧ (s.dsp 15).slot = none ∧ s.cluIrq 15 = false ∧
    on (LDSP_IRQ_EPOCH 15) (LDSP_IRQEN_EPOCH 15) = true ∧ on (LDSP_IRQ_DBELL 15) (LDSP_IRQEN_DBELL 15) = true ∧
    on (LDSP_IRQ_TIMER 15) (LDSP_IRQEN_TIMER 15) = true ∧ bit ((dspAt 15 0).dsp 15).srSeen 31 = false ∧
    (regsRise s = true ∧ s.get (LDSP_CYC_COUNT 15) < 2 ^ 32 ∧ s.get (LDSP_TCMP_CMP 15) < 2 ^ 32) ∧
    (s.dspClock 15 = true ∧ s.dspState 15 ≠ 0 ∧ (s.set (LDSP_GCTL_CKEN 3) 0).dspClock 15 = false) ∧
    w.on (LDSP_WDOG_EN 15) = true ∧ max 1 (w.get (LDSP_WDOG_LIMIT 15)) ≤ w.get (LDSP_WDOG_COUNT 15) ∧
    (let r := s.setDsp 15 { refused := [(4, 8)] }
     ((s.stqRun 15 (s.dsp 15).stqLeft).dsp 15).refused = [] ∧ ((r.stqRun 15 (r.dsp 15).stqLeft).dsp 15).refused = [(4, 8)]) ∧
    State.reset.busAllowed .nav (dspWord 15 .p 0x3FFF) true = true ∧ State.reset.dspState 15 = 0 ∧
    State.reset.busAllowed .nav (dspWord 0 .x 0) false = true ∧
    (State.reset.memRead (.dsp 15 .y) (dspWord 15 .y 0x3FFF) 4).2 = some 0 := by decide +kernel

/-- The navigation core runs. -/
def navUp (n : NavSt) : State := { State.reset with nav := { n with running := true } }

theorem test_hyp_NavigationData :
    let s := navUp {}
    let t := (navUp { osKey := some ([], 0) }).set ITG_STATE_STATE 4
    let at_ := fun (n : NavSt) => ({ navUp n with tim := { t := 30 * secU } } : State)
    let m : NavMsg := { kind := .cnav, sys := 0, sv := 1, ok := false, crc := true }
    State.reset.navOn = false ∧ s.navOn = true ∧ m.ok = false ∧
    (m.crc = true ∧ m.kind ≠ .lnav ∧ m.kind ≠ .glonass) ∧ ({ m with kind := .lnav } : NavMsg).kind = .lnav ∧
    (s.sat (satKey 0 1)).heard ≠ some [] ∧ (s.sat (satKey 0 1)).used ≠ some [] ∧ (s.sat (satKey 0 1)).next ≠ some [] ∧
    ((s.setSat (satKey 0 1) { heard := some [], used := some [] }).sat (satKey 0 1)).used = some [] ∧
    (let v := at_ { utcHeard := some (37, 0) }
     v.nav.utcHeard = some (37, 0) ∧ 0 + 30 ≤ tvSec v.now ∧ s.nav.utcHeard ≠ some (37, 0)) ∧
    m.sys.val = s.navField 0x01 ∧ s.nav.leapHeard = none ∧ s.nav.leapOther = none ∧
    (let v := at_ { leapHeard := some (1, 0, 0) }
     v.nav.leapHeard = some (1, 0, 0) ∧ 0 + 30 ≤ tvSec v.now ∧ v.nav.leapAcc ≠ some (1, 0)) ∧
    ({ m with sys := 6 } : NavMsg).sys.val ≠ s.navField 0x01 ∧
    (navUp { leapAcc := some (1, 0) }).nav.leapAcc = some (1, 0) ∧ s.nav.week13 = false ∧
    (navUp { week13 := true }).nav.week13 = true ∧
    State.reset.osnmaTime = false ∧ t.osnmaTime = true ∧ t.navOn = true ∧ t.nav.osKey = some ([], 0) ∧
    (t.poke 0x80000405 1 1).navField 0x05 = 1 := by decide +kernel

theorem test_hyp_SolutionEpochs :
    let s := { State.reset with mordant := { req := true } }
    let h := fun (g : Nat) => leBytes 2 0x4D44 ++ leBytes 2 1 ++ leBytes 4 0 ++ leBytes 8 g ++ leBytes 4 89072 ++ leBytes 40 0
    let p := fun (s : State) c g => s.mramPut (mordantAddr c) (h g ++ leBytes 4 (crc32 (h g)))
    State.reset.navOn = false ∧ (navUp {}).navOn = true ∧ s.mordant.req = true ∧ s.mordant.busy = none ∧ s.on SUP_STAT_BRACE = false ∧
    s.mordantGen 0 = none ∧ (p s 0 1).mordantGen 0 = some 1 ∧ (p s 0 1).mordantGen 1 = none ∧
    (p (p s 0 1) 1 2).mordantGen 1 = some 2 ∧ (p (p s 0 3) 1 2).mordantGen 0 = some 3 ∧
    (let b := { p s 0 1 with mordant := { busy := some 1 } }
     b.mordant.busy = some 1 ∧ b.mordantGen (1 - 1) = some 1 ∧
       ({ s with mordant := { busy := some 1 } } : State).mordantGen (1 - 1) = none) ∧
    State.reset.continuous = true ∧ (st [(ITG_INTV_INTV, 60)]).continuous = false := by decide +kernel

theorem test_hyp_EvidenceVerdicts :
    let s := navUp {}
    let e : State → Option (Nat × Nat × Nat) := fun s => s.evidRead.2.map fun e => (e.seq, e.dof, bits e.flags 6 5)
    let u := s.poke 0x8000053C 4 1
    let v := u.poke 0x80000509 1 2
    State.reset.nav.running = false ∧ s.nav.running = true ∧
    (s.evidRead.2.map fun e => decide (e.time + 3 * s.solPeriod * 2 ^ 24 / 1000 < tv64 s.now)) = some false ∧
    (({ s with tim := { s.tim with t := 3600 * secU } } : State).evidRead.2.map fun e =>
      decide (e.time + 3 * s.solPeriod * 2 ^ 24 / 1000 < 3600 * 2 ^ 24)) = some true ∧
    (s.setEcc .nav 0x80000500 true).evidRead.2 = none ∧ e s = some (0, 0, 0) ∧ s.itg.lastSeq = 0 ∧ e u = some (1, 0, 0) ∧
    e v = some (1, 2, 0) ∧ e (v.poke 0x8000050B 1 0x60) = some (1, 2, 3) ∧ regsRise s = true ∧
    s.code = 0 ∧ ITG_VERD_RESID ∈ verdFields ∧ (st [(ITG_VERD_RESID, 3)]).get ITG_VERD_RESID = 3 ∧
    (st [(ITG_STATE_STATE, 1)]).code = 1 ∧ (st [(ITG_STATE_STATE, 2)]).code = 2 ∧ (st [(ITG_STATE_STATE, 3)]).code = 3 ∧
    (st [(ITG_STATE_STATE, 4)]).code = 4 ∧ (st [(ITG_STATE_STATE, 2)]).terrAfter = true ∧
    (st [(ITG_STATE_STATE, 3)]).terrAfter = true := by decide +kernel

/-- The time core in STEPPED with an error of `e` ps, the integrity code at `c`. -/
def timed (c e : Nat) : State :=
  let s := st [(TIM_STAT_STATE, 2), (ITG_STATE_STATE, c), (TIM_HM_UY_UY, 0), (TIM_HM_AG_AG, 0), (TIM_HM_WN_WN, 0)]
  { s with tim := { s.tim with e0 := some e } }

theorem test_hyp_IntegrityEvents :
    let ns := 1000
    State.reset.get TIM_STAT_STATE ≠ 2 ∧ (timed 0 0).get TIM_STAT_STATE = 2 ∧ (timed 0 0).code = 0 ∧
    1000000 < (timed 4 (2000000 * ns)).terrNow ∧
    (let s := timed 4 (900000 * ns); s.terrNow ≤ 1000000 ∧ s.code = 4 ∧ s.trBound < s.terrNow) ∧
    ((timed 4 0).terrNow ≤ (timed 4 0).trBound ∧ (timed 4 0).terrNow ≤ 1000000) ∧
    (let s := timed 2 (999990 * ns); s.terrNow ≤ 1000000 ∧ s.dgBound < s.terrNow) ∧
    (let s := timed 3 0; s.terrNow ≤ s.dgBound ∧ s.code = 3) ∧ (timed 2 0).code = 2 ∧
    (let s := ({ timed 4 (900000 * ns) with itg := { chgUp := 0, chgFrom := 2 } } : State)
     s.wasHoldover = true ∧ s.dgBound < s.terrNow ∧ s.terrNow ≤ 1000000 ∧ 1 < s.code) ∧
    (let s := ({ (timed 4 (900 * ns)).set ITG_DGBND_NS 1000000 |>.set ITG_HBND_NS 10 with itg := { chgUp := 0, chgFrom := 3 } } : State)
     s.code = 4 ∧ s.codeBefore = 3 ∧ s.hBound < s.terrNow ∧ s.terrNow ≤ s.dgBound) ∧
    (timed 4 (900000 * ns)).wasHoldover = false ∧ ({ timed 4 (900000 * ns) with itg := { cleanAt := 1 } } : State).cleanNow = false ∧
    ({ timed 2 0 with itg := { cleanAt := 0 } } : State).cleanNow = true ∧
    (let aged := fun (s : State) => s.reached s.agedFrom (min (max (s.get ITG_HOLD_HOLDMAX) 1) 720 * 3600 * 10 ^ 9)
     let h := (timed 2 0).set ITG_HOLD_HOLDMAX 0
     aged { h with tim := { h.tim with up := 3600 * 10 ^ 9 - 999999 } } = true ∧
       aged { h with tim := { h.tim with up := 3600 * 10 ^ 9 - 1000000 } } = false) ∧
    (let quiet := fun (s : State) => s.reached (max s.itg.fixAt s.itg.contAt) (max 1 (s.get ITG_HOLD_HOLDIN) * 10 ^ 9)
     let h := (timed 4 0).set ITG_HOLD_HOLDIN 0
     quiet { h with tim := { h.tim with up := 10 ^ 9 - 999999 } } = true ∧
       quiet { h with tim := { h.tim with up := 10 ^ 9 - 1000000 } } = false ∧
       ({ h with tim := { h.tim with up := 10 ^ 9 } } : State).continuous = true) ∧
    (timed 4 0).continuous = true ∧ (st [(ITG_INTV_INTV, 60)]).continuous = false ∧
    (let s := { st [(ITG_LATCH_WOAD, 1)] with itg := { woadPass := true } }
     s.itg.woadPass = true ∧ s.on ITG_LATCH_WOAD = true ∧ s.woadQuiet = true ∧
       ({ s with itg := { s.itg with woadFail := some 0 } } : State).woadQuiet = false) ∧ State.reset.itg.woadPass = false ∧
    writeTaken State.reset .svc 0x40080008 3 = true ∧ State.reset.itg.minSet = false ∧
    ({ State.reset with itg := { minSet := true } } : State).itg.minSet = true := by decide +kernel

theorem test_hyp_FixBursts :
    let s := st [(ITG_INTV_INTV, 60), (RTC_WREASON_PERIODIC, 1)]
    let b := fun (x : BurstSt) (n : NavSt) => ({ s with itg := { s.itg with burst := x }, nav := n } : State)
    s.continuous = false ∧ s.itg.burst.active = false ∧ s.on SUP_STAT_BRACE = false ∧ s.on RTC_WREASON_PERIODIC = true ∧
    (s.set RTC_WREASON_PERIODIC 0).on RTC_WREASON_PERIODIC = false ∧ (s.set SUP_STAT_BRACE 1).on SUP_STAT_BRACE = true ∧
    (b { active := true, released := true } {}).itg.burst.released = true ∧
    State.reset.continuous = true ∧ (b { active := true } {}).itg.burst.released = false ∧
    (let at_ := fun (n : Nat) => ({ b { active := true } {} with tim := { s.tim with up := n } } : State)
     let lead := fun (s : State) => s.reached s.itg.burst.startAt (s.fecLead * 1000000)
     let late := fun (s : State) => s.reached s.itg.burst.startAt (max s.blen (s.get ITG_BURST2_BMAX) * 10 ^ 9)
     let end_ := max s.blen (s.get ITG_BURST2_BMAX) * 10 ^ 9
     lead (at_ 0) = true ∧ late (at_ 0) = false ∧ late (at_ (end_ - 999999)) = true ∧ late (at_ (end_ - 1000000)) = false ∧
       (let g := ({ st [(FEC_PWR_EN 3, 1), (FEC_PWR_LEAD 3, 5)] with itg := { burst := { active := true } } } : State)
        lead g = false ∧ lead { g with tim := { up := 4000001 } } = true ∧ lead { g with tim := { up := 4000000 } } = false)) ∧
    (b { active := true, qualified := true } {}).nav.fixes = [] ∧
    burstMean (b { active := true, qualified := true } { fixes := [(0, 1, 0, 0)] }).nav.fixes = some (0, 1, 0, 0) ∧
    (b { active := true } {}).itg.burst.active = true ∧ s.itg.burst.qualified = false := by decide +kernel

theorem test_hyp_TimeRequests :
    bit 0x80000000 31 = true ∧ writeTaken State.reset .cust 0x40040044 0x80000000 = true ∧
    writeTaken State.reset .cust 0x40040050 0x80000000 = true ∧
    writeTaken State.reset .loader 0x40040068 0x80000000 = false ∧
    writeTaken State.reset .ptp 0x40040068 0x80000000 = true ∧
    (st [(TIM_STAT_STATE, 2)]).get TIM_STAT_STATE = 2 ∧ State.reset.get TIM_STAT_STATE ≠ 2 := by decide +kernel

theorem test_hyp_Pulses :
    let e : TpEdge := {}
    let s := State.reset.setTp 1 { edges := [e] }
    let far := State.reset.setTp 1 { edges := [{ t := secU }], trailAt := some 0 }
    let en := fun (p : TpSt) => State.reset.setTp 0 { p with set := { en := true } }
    let half := fun (p : TpSt) => { State.reset.setTp 1 p with tim := { t := secU / 2 } }
    writeTaken State.reset .nav 0x40040100 0 = true ∧ writeTaken State.reset .nav (0x40040100 + 0x40 * 1 + 4 * 3) 0 = true ∧
    (s.tp 1).edges = [e] ∧ (s.tp 1).set.qual ≤ s.code ∧ s.itg.below = false ∧ { s with itg := { below := true } }.itg.below = true ∧
    s.due e.t = true ∧ far.due secU = false ∧ far.due 0 = true ∧ s.itg.minSet = false ∧
    ({ s with itg := { minSet := true } } : State).itg.minSet = true ∧
    (State.reset.tp 0).edges = [] ∧ ((State.reset.setTp 0 { set := { en := true } }).tp 0).set.en = true ∧
    (tvSec (en { first := 1 }).tim.t < ((en { first := 1 }).tp 0).first ∧ ((en {}).tp 0).composed = none ∧
      ((en { composed := some 0 }).tp 0).composed = some 0 ∧
      (let u := ({ en { composed := some 0 } with tim := { t := secU } } : State); 0 < tvSec u.tim.t)) ∧
    ((State.reset.setTp 1 { trailAt := some 0 }).tp 1).trailAt = some 0 ∧
    (let u := half {}
     500 ≤ u.msOfSec ∧ (u.tp 1).composed ≠ some (tvSec u.tim.t + 1) ∧ (u.tp 1).first ≤ tvSec u.tim.t + 1 ∧
       (u.tpRegs 1).en = false ∧ (u.tp 1).set.en = false) ∧
    (let u := half { set := { en := true }, edges := [e] }
     500 ≤ u.msOfSec ∧ (u.tp 1).composed ≠ some (tvSec u.tim.t + 1) ∧ (u.tp 1).set.en = true ∧ (u.tp 1).due = none ∧
       u.tim.step = none ∧ (u.tp 1).newSet = false ∧ (u.tp 1).first ≤ tvSec u.tim.t + 1 ∧
       (u.tp 1).edges.getLast? = some e) := by decide +kernel

theorem test_hyp_TimeTicks :
    let s := st [(TIM_TPI_CFG_EN, 1)]
    let m := s.set TIM_TPI_CFG_MODE 1
    State.reset.tim.t % secU = 0 ∧ State.reset.tim.secDone ≠ some (tvSec State.reset.tim.t) ∧ s.on TIM_TPI_CFG_EN = true ∧
    (s.on TIM_TPI_CFG_EDGE = false ∧ (s.set TIM_TPI_CFG_EDGE 1).on TIM_TPI_CFG_EDGE = true ∧ State.reset.on TIM_TPI_CFG_EN = false) ∧
    (let lost := fun (s : State) => s.reached (s.tpi.usedAt.getD s.tpi.enabledAt) (3 * 10 ^ 9)
     lost { m with tim := { m.tim with up := 3 * 10 ^ 9 - 999999 } } = true ∧
       lost { m with tim := { m.tim with up := 3 * 10 ^ 9 - 1000000 } } = false) ∧
    (s.tpiStamp (s.now 0)).tpiMode = 0 ∧ m.tpiMode ≠ 0 ∧
    max 1 ((m.tpiStamp (m.now 0)).get TIM_TPI_CFG_WIN) * 1000000 <
      (uToPs (((secU / 4 : Nat) : Int) - ((0 : Nat) : Int))).natAbs := by decide +kernel

theorem test_hyp_SynthesiserControl :
    writeTaken State.reset .nav 0x40030000 0xE0000000 = true ∧ writeTaken State.reset .cust 0x40030500 0x80000000 = true ∧
    writeTaken State.reset .nav 0x40030314 0 = true ∧ writeTaken State.reset .nav 0x40030514 0 = true ∧
    writeTaken State.reset .nav 0x40030E00 0 = true ∧ writeTaken State.reset .nav (0x40030E00 + 0x20 * 11) 0 = true := by
  decide +kernel

theorem test_hyp_SynthesiserLock :
    let s := fun k => st [(PLL_STAT_STATE 0, k), (PLL_STAT_STATE 5, k)]
    (s 1).get (PLL_STAT_STATE 5) = 1 ∧ (s 2).get (PLL_STAT_STATE 5) = 2 ∧ (s 3).get (PLL_STAT_STATE 5) = 3 ∧
    (s 3).on (PLL_STAT_ALIGNED 5) = false ∧ ((s 3).pll 5).lossAt = none ∧ (s 3).on (PLL_STAT_ALIGNED 0) = false ∧
    (((s 3).setPll 0 { lossAt := some 0 }).pll 0).lossAt = some 0 := by decide +kernel

theorem test_hyp_SynthesiserLosses :
    let s := { State.reset with cus := { phase := .rfi } }
    let o := State.reset.setCko 11 { set := { en := true } }
    let l := { State.reset with cus := { phase := .run }, itg := { below := true } }.setPll 0 { lossAt := some 0 }
    (l.cus.phase = .run ∧ l.itg.below = true ∧ (l.pll 0).lossAt ≠ none) ∧
    fmtSupply (o.cko 11).set.fmt (o.cko 11).set.lvl ≤ 10 * 171 ∧ 10 * 170 < fmtSupply (o.cko 11).set.fmt (o.cko 11).set.lvl ∧
    (st [(PLL_STAT_STATE 5, 3)]).get (PLL_STAT_STATE 5) = 3 ∧ s.cus.phase = .rfi ∧ rfiClass 0 = none ∧
    rfiClass 78125 = some 0 ∧ rfiClass 159844 = some 3 ∧
    (({ State.reset with tim := { refLost := true } } : State).pllDown 5 []).tim.refLost = true ∧
    ({ State.reset with cus := { phase := .pllA } } : State).cus.phase = .pllA ∧ (o.cko 11).set.en = true ∧
    o.on (CKO_STAT_COMPL 11) = false ∧ (o.cko 11).episode = false ∧
    ((State.reset.setCko 0 { set := { en := true }, episode := true }).cko 0).episode = true ∧
    (o.set (CKO_STAT_COMPL 11) 1).on (CKO_STAT_COMPL 11) = true := by decide +kernel

/-- Port 7 is up and takes part in slot 1 with PTP state `v`. -/
def netUp (v : Nat) : State :=
  (st [(EPT_CFG_EN 7, 1), (EPT_CFG_PTPEN 7, 1), (EPT_STAT_LINK 7, 1), (EPT_PROLE_ROLEB 7, 1), (EPT_DOM_CFG_TYPE 1, 1),
    (EPT_DOM_CFG_DOMAIN 1, 24), (EPT_CLKID_L_ID, 1), (EPT_CFG_TRANS 7, 1)]).set (pstateF 7 1) v

/-- A PTP message of slot 1's domain with nothing in it. -/
def ptp0 : PtpMsg :=
  { mtype := 0, domain := 24, twoStep := false, seq := 0, corr := 0, srcId := 2, srcPort := 1, ts := 0, reqId := 1, reqPort := 8,
    logInt := 0, prio1 := 0, gmClass := 0, gmAcc := 0, gmVar := 0, prio2 := 0, gmId := 2, steps := 0, tsrc := 0, utcOfs := 0,
    aflags := 8 }

theorem test_hyp_PtpMessages :
    let s := netUp 6
    let c := (netUp 9).setSlot 1 { parent := some ptp0 }
    let p := s.set (EPT_CFG_P2P 7) 1
    let ps := fun (x : PortSlot) => c.setPslot 7 1 x
    (s.ptpMay 7 = true ∧ s.portIn 7 1 = true ∧ s.pstate 7 1 = 6) ∧ State.reset.ptpMay 0 = false ∧
    (let z := s.set (EPT_CFG_TRANS 7) 0
     z.get (EPT_CFG_TRANS 7) = 0 ∧ z.ptpRole.get (EPT_CFG_TRANS 7) = 0 ∧ z.ptpMay 7 = false ∧ z.ptpRole.ptpMay 7 = false ∧
       z.slotOf ptp0.domain.toNat = some 1) ∧ State.reset.clkId = 0 ∧
    (s.ptpRole.ptpMay 7 = true ∧ s.ptpRole.portIn 7 1 = true ∧ s.ptpRole.pstate 7 1 = 6) ∧
    (p.ptpMay 7 = true ∧ p.portIn 7 1 = true ∧ p.peerOn 7 1 = true ∧ (p.pslot 7 1).preq = none) ∧
    (c.ptpMay 7 = true ∧ c.portIn 7 1 = true ∧ c.on (EPT_CFG_P2P 7) = false ∧ c.pstate 7 1 = 9 ∧ (c.pslot 7 1).dreq = none) ∧
    (c.slotOf ptp0.domain.toNat = some 1 ∧ c.fromParent 7 1 ptp0 = true ∧ ptp0.twoStep = false) ∧
    { ptp0 with twoStep := true }.twoStep = true ∧
    (let u := ps { sync := some (0, 0, 0) }
     u.fromParent 7 1 ptp0 = true ∧ (u.pslot 7 1).sync = some (ptp0.seq.toNat, 0, 0) ∧ u.tim.up ≤ 0 + 1000000000) ∧
    (let u := ps { dreq := some (0, 0, 0), lastMs := some 0 }
     (u.pslot 7 1).dreq = some (ptp0.seq.toNat, 0, 0) ∧ (u.pslot 7 1).lastMs = some 0 ∧ u.forPort 7 ptp0 = true) ∧
    (s.slotOf ptp0.domain.toNat = some 1 ∧ s.on (EPT_CFG_P2P 7) = false) ∧ p.slotOf ptp0.domain.toNat = some 1 ∧
    (let u := s.setPslot 7 1 { preq := some (0, 0, 0), presp := some (0, 0, 0) }
     (u.pslot 7 1).preq = some (ptp0.seq.toNat, 0, 0) ∧ (u.pslot 7 1).presp = some (0, 0, 0) ∧ u.forPort 7 ptp0 = true ∧
       { ptp0 with mtype := 3 }.mtype = 3 ∧ { ptp0 with mtype := 10 }.mtype = 10) := by
  decide +kernel

/-- A good frame of 64 octets. -/
def frame0 (b : FrameBody) : FrameIn := { fcsOk := true, octets := 64, vid := none, sub := 0, txSub := 0, toMe := false, body := b }

theorem test_hyp_PortFrames :
    let s := netUp 9
    let f := frame0 (.ptp ptp0)
    let c : Copy := { buf := 0, msg := ptp0, ingress := 0 }
    State.reset.on (EPT_CFG_EN 0) = false ∧ (s.on (EPT_CFG_EN 7) = true ∧ s.on (EPT_STAT_LINK 7) = true) ∧
    { f with fcsOk := false }.fcsOk = false ∧ { f with octets := 63 }.octets < 64 ∧
    (f.fcsOk = true ∧ 64 ≤ f.octets ∧ f.vid = none) ∧ (frame0 .toPort).body = .toPort ∧ (frame0 .other).body = .other ∧
    { ptp0 with mtype := 13 }.mtype = 13 ∧ ptp0.mtype = 0 ∧ (s.set (EPT_CFG_PTPEN 7) 0).on (EPT_CFG_PTPEN 7) = false ∧
    s.on (EPT_CFG_PTPEN 7) = true ∧ bit (s.get (EPT_CFG_TRANS 7)) f.trans = true ∧
    bit (s.get (EPT_CFG_TRANS 7)) ({ f with trans := 2 } : FrameIn).trans = false ∧
    (s.slotOf ptp0.domain.toNat = some 1 ∧ s.get (EPT_DOM_CFG_TYPE 1) = 1 ∧ s.prole 7 1 ≠ 0) ∧
    (s.set (EPT_DOM_CFG_TYPE 1) 2).get (EPT_DOM_CFG_TYPE 1) = 2 ∧
    (s.set (EPT_DOM_CFG_TYPE 1) 2).slotOf ptp0.domain.toNat = some 1 ∧ s.slotOf 0 = none ∧
    ((s.setPort 7 { copies := [c] }).port 7).copies = [c] ∧
    (let u := ({ s with tim := { t := 11 * msU } } : State).setPort 7 { copies := [c] }
     10 * (msU : Int) < ((u.setPort 7 { u.port 7 with copies := [] }).copyBack 7 c).egress 7 0 - c.ingress) ∧
    (((s.setPort 7 { s.port 7 with copies := [] }).copyBack 7 c).egress 7 0 - c.ingress ≤ 10 * (msU : Int)) ∧
    (s.ptpRole.portIn 7 1 = true ∧ ptp0.srcId.toNat ≠ s.ptpRole.clkId ∧ ptp0.steps.toNat < 255 ∧ s.ptpRole.pstate 7 1 ≠ 6 ∧
      bit ptp0.aflags.toNat 3 = true ∧ bit ptp0.aflags.toNat 6 = false ∧ s.ptpRole.portHas 7 1 = true ∧ s.ptpRole.pstate 7 1 ≠ 1) ∧
    f.toMe = false ∧ ({ f with toMe := true } : FrameIn).toMe = true ∧
    s.on (EPT_STAT_LINK 7) = true ∧
    (s.on (EPT_STAT_TXSTOP 7) = false ∧ speedOk (s.get (EPT_CFG_MODE 7)) 3 = true) ∧
    writeTaken s .nav (0x4010003C + 0x1000 * 7) 0 = true ∧ writeTaken s .nav 0x4010003C 1 = true ∧
    s.wantSlot = s.selSlot ∧
    (let u := ((s.set EPT_PSEL_MODE 1).setSlot 1 { lockAt := some 0, hist := [(0, 0)] }).setSlot 0 { hist := [(0, 0)] }
     let u := { u with tim := { u.tim with up := 16000000000 } }
     let v := u.setSlot 0 { hist := [(0, 2000000)] }
     let d := fun (s : State) => (meanI (s.slotDiffs s.wantSlot (1 - s.wantSlot))).natAbs
     u.wantSlot ≠ u.selSlot ∧ (u.slot u.wantSlot).lockAt = some 0 ∧ 0 + 16000000000 ≤ u.tim.up ∧ u.tim.step = none ∧
       d u ≤ 1000000 ∧ 1000000 < d v ∧ v.net.swRef = false ∧ v.wantSlot ≠ v.selSlot) := by decide +kernel

theorem test_hyp_PortFrames_classes :
    let s := netUp 9
    let f := frame0 (.ptp ptp0)
    (∀ k ∈ ([0, 1, 2, 3, 8, 9, 10, 11, 4, 15] : List (BitVec 4)), { ptp0 with mtype := k }.mtype = k) ∧
    (({ f with vid := some 0 } : FrameIn).vid = some 0 ∧ ({ f with vid := some 1 } : FrameIn).vid = some 1) ∧
    (let g := (s.set (EPT_IP4_ADDR 7) 1).set (EPT_IP6_3_ADDR 7) 1
     (1 : Word).toNat = g.get (EPT_IP4_ADDR 7) ∧ (2 : Word).toNat ≠ g.get (EPT_IP4_ADDR 7) ∧ (1 : BitVec 128) = g.portIp6 7 ∧
       (2 : BitVec 128) ≠ g.portIp6 7 ∧ (frame0 (.arp 1)).body = .arp 1 ∧ (frame0 (.ns 1)).body = .ns 1 ∧
       (frame0 (.udp false 320 0 0 [])).body = .udp false 320 0 0 []) ∧
    ((320 : BitVec 16).toNat ≠ (s.set (EPT_STS_CFG_UPORT 7) 321).get (EPT_STS_CFG_UPORT 7) ∧
      (321 : BitVec 16).toNat = (s.set (EPT_STS_CFG_UPORT 7) 321).get (EPT_STS_CFG_UPORT 7)) ∧
    (s.set (EPT_CFG_P2P 7) 1).on (EPT_CFG_P2P 7) = true ∧ State.reset.prole 7 1 = 0 ∧
    (State.reset.on (EPT_CFG_EN 7) = false ∧ (s.set (EPT_STAT_TXSTOP 7) 1).on (EPT_STAT_TXSTOP 7) = true ∧
      ({ s with itg := { below := true } } : State).serves = false ∧ s.serves = true) ∧
    (speedOk (s.get (EPT_CFG_MODE 7)) 4 = false ∧ speedOk ((s.set (EPT_CFG_MODE 7) 1).get (EPT_CFG_MODE 7)) 0 = false ∧
      (State.reset.on (EPT_STAT_LINK 7) = false)) := by decide +kernel

theorem test_hyp_StatusDatagrams :
    let s := ((netUp 9).set (EPT_CFG_STSEN 7) 1).set (EPT_STS_CFG_TYPES 7) 0x3F
    let s := { s with net := { s.net with stsOpen := true } }
    let n := { s with nav := { running := true, firstEp := some 0, repEp := 1 } }
    let on := fun (s : State) (typ : Nat) => s.net.stsOpen && s.portUp 7 && s.on (EPT_CFG_STSEN 7) && bit (s.get (EPT_STS_CFG_TYPES 7)) (6 - typ)
    let g := ({ s with net := { stsOpen := true, latest := [(4, [[0]])] } }).set (EPT_STS_CFG_GETEN 7) 1
    let a := s.set (EPT_IP4_ADDR 7) 1
    let b := s.set (EPT_IP6_3_ADDR 7) 1
    (s.soft = true ∧ ({ s with net := { ident := some {} } } : State).net.ident = some {}) ∧
    on State.reset 1 = false ∧ (∀ t ∈ [1, 2, 3, 4, 5, 6], on s t = true ∧ on n t = true) ∧ s.soft = true ∧ n.soft = false ∧
    n.tracked = true ∧ s.tracked = false ∧ n.on SUP_STAT_BRACE = false ∧ (let u := s.setTp 1 { msg := some [], composed := some 1 }
     (u.tp 1).msg = some [] ∧ (u.tp 1).composed = some (tvSec u.tim.t + 1)) ∧ (s.tp 1).msg = none ∧
    (a.portUp 7 = true ∧ (1 : Word).toNat = a.get (EPT_IP4_ADDR 7) ∧ (0 : Word).toNat ≠ a.get (EPT_IP4_ADDR 7)) ∧
    (b.portUp 7 = true ∧ b.portIp6 7 ≠ 0) ∧ (0 : BitVec 128) ≠ b.portIp6 7 ∧
    ((s.set (EPT_STS_CFG_GETEN 7) 0).on (EPT_STS_CFG_GETEN 7) = false ∧ 16 ≤ ((s.setPort 7 { gets := 16 }).port 7).gets) ∧
    (g.portUp 7 = true ∧ g.on (EPT_STS_CFG_GETEN 7) = true ∧ (g.port 7).gets < 16 ∧ g.stsSent 4 = true ∧
      tblFind g.net.latest 4 = some [[0]]) ∧
    (let q := fun (typ : Nat) => [0xD7, 0x10, 0x01, 0x10, 0x00, 0x04] ++ List.replicate 26 0 ++ [BitVec.ofNat 8 typ, 0, 0, 0]
     getOk (q 1) = true ∧ getOk (q 6) = true ∧ getOk (q 0) = false ∧ getOk (q 7) = false ∧ getOk [] = false ∧
       ((q 4).getD 32 0).toNat = 4 ∧ (List.replicate 26 (0 : Byte)).length = 26) := by decide +kernel

theorem test_hyp_LineWrites :
    writeTaken State.reset .nav 0x40200400 0 = true ∧ writeTaken State.reset .nav (0x40200400 + 0x40 * 95) 0 = true ∧
    writeTaken State.reset .nav (0x40200408 + 0x40 * 95) 0 = true ∧ writeTaken State.reset .nav 0x40200040 0x80000000 = true ∧
    writeTaken State.reset .cust 0x40200020 0 = true ∧ writeTaken State.reset .cust (0x40200020 + 4 * 5) 0 = true := by
  decide +kernel

theorem test_hyp_LineTiming :
    let s := State.reset.setLine 95 { fetchAt := some 4095 }
    let v := s.poke 0x4021FFF0 4 0x80000000
    let l := fun (x : LineSt) => State.reset.setLine 95 x
    let c := st [(TEL_CFG_MODE 95, 3), (TEL_STAT_ARMED 95, 1)]
    ((s.line 95).fetchAt = some 4095 ∧ (s.line 95).copies.length < 2 ∧ s.get (TEL_CFG_MODE 95) ≠ 4) ∧
    ((s.memReadWords .sched (0x40210000 + 4095 * 16) 4).2.2 = true ∧
      bit ((s.memReadWords .sched (0x40210000 + 4095 * 16) 4).2.1.getD 0 0) 31 = false) ∧
    bit ((v.memReadWords .sched (0x40210000 + 4095 * 16) 4).2.1.getD 0 0) 31 = true ∧
    ((l { pulseTo := some 0 }).line 95).pulseTo = some 0 ∧ State.reset.reached 999999 0 = true ∧ State.reset.reached 1000000 0 = false ∧ (st [(TEL_STAT_WSTATE 95, 1)]).get (TEL_STAT_WSTATE 95) = 1 ∧
    (st [(TEL_STAT_WSTATE 95, 2)]).get (TEL_STAT_WSTATE 95) = 2 ∧ c.get (TEL_CFG_MODE 95) = 3 ∧
    (c.get (TEL_CFG_EDGE 95) = 0 ∧ c.on (TEL_CFG_GATED 95) = false) ∧ (c.line 95).fifo.length < 256 ∧
    256 ≤ ((c.setLine 95 { fifo := List.replicate 256 (0, false) }).line 95).fifo.length ∧
    (((l { lost := some 1 }).line 95).lost = some 1 ∧ ((l { lost := some 1 }).line 95).fifo = []) ∧
    (let b := (st [(TEL_BANK_VERR 3, 0)]).setBank 3 { measured := true }
     (b.bank 3).measured = true ∧ b.on (TEL_BANK_VERR 3) = false ∧ (b.bank 3).drivers = false) := by decide +kernel

/-- Line 95 with an entry of action `a` at its head, the entries `l` behind it. -/
def headed (a : Nat) (l : List EntryCopy) : State :=
  (st [(TEL_CFG_MODE 95, 1)]).setLine 95 { copies := { w0 := 0x80000000 + 95 * 2 ^ 24 + a * 2 ^ 20 } :: l }

theorem test_hyp_LineActions :
    let d : EntryCopy := { w0 := 0x80000000 + 95 * 2 ^ 24 }
    (∀ a ∈ List.range 8,
      let s := headed a []
      let c : EntryCopy := { w0 := 0x80000000 + 95 * 2 ^ 24 + a * 2 ^ 20 }
      (s.line 95).copies = [c] ∧ c.due ≤ s.now 0 ∧ (s.line 95).stopped = false ∧ c.action = a ∧
        s.lateHead 95 c (s.line 95).headAt = false ∧
        ((headed a [d]).line 95).copies = [c, d] ∧ s.lateHead 95 c (2 ^ 128) = true) ∧
    ((State.reset.line 95).copies = [] ∧ (0 : Nat) < ({ w2 := 1 } : EntryCopy).due ∧ ({ stopped := true } : LineSt).stopped = true) ∧
    (let s := headed 1 [d]
     ((s.line 95).copies.drop 1 = [d] ∧ d.due ≤ s.now 0 ∧
       d.err 95 ((s.inc (TEL_EXEC_COUNT 95)).get (TEL_CFG_MODE 95)) = false ∧
       (s.inc (TEL_EXEC_COUNT 95)).lateHead 95 d (s.now 0) = false) ∧ s.lateHead 95 d (2 ^ 128) = true ∧
       { d with bad := true }.err 95 1 = true) ∧
    (let s := { headed 1 [] with tim := { t := 2 * secU, jump := some (0, 2 * secU) } }
     let c : EntryCopy := { w2 := 1, near := true }
     s.tim.jump = some (0, 2 * secU) ∧ 0 < c.due ∧ c.due ≤ 2 * secU ∧ c.due ≤ s.now 0 ∧
       s.lateHead 95 c 0 = true) := by decide +kernel

theorem test_hyp_AlwaysOnWrites :
    let u := { State.reset with rtc := { lock := false } }
    writeTaken u .cust 0x4002000C 1 = true ∧ writeTaken u .cust 0x40020008 0xFFFFFFFF = true ∧
    writeTaken u .cust 0x40020014 0 = true ∧ writeTaken (u.rtcAdvance 0) .cust 0x40020018 0xFFFFFF = true ∧
    writeTaken u .cust 0x4002001C 0x40000000 = true ∧
    (let h := fun (a : Nat) => ({ u with rtc := { todo := [(a, 5, false)] } } : State)
     (h 0).rtc.inReset = false ∧ (h 0).rtc.stopped = false ∧ (h 0x40020018).rtc.todo = [(0x40020018, 5, false)] ∧
       (h 0x4002001C).rtc.todo = [(0x4002001C, 5, false)]) ∧
    (u.rtc.edge + 1 < 2 ^ 20 ∧ ({ u with rtc := { edge := 2 ^ 20 - 1 } } : State).rtc.edge + 1 = 2 ^ 20) := by decide +kernel

theorem test_hyp_AlwaysOnEvents :
    let s := State.reset
    let r := fun (x : RtcSt) => { s with rtc := x }
    let b := st [(RTC_STAT_ONBAT, 1)]
    let w := (st [(RTC_WAKE_WAKE, 1)])
    let w := { w with rtc := { w.rtc with run := 128 } }
    ((r { secVal := some 0 }).rtcAdvance 0).rtc.secVal = some 0 ∧ ((r { secVal := some 0 }).rtcAdvance 0).rtc.tick % 32768 = 0 ∧
    (let u := ({ s with rtc := { secVal := some 0, tick := 1, last := 1 } } : State).set RTC_CTL_SYNCSET 1
     (u.rtcAdvance 0).on RTC_CTL_SYNCSET = true ∧ 0 < (u.rtcAdvance 0).rtc.last ∧ (u.rtcAdvance 0).rtc.tick % 32768 = 1) ∧
    (0 < (w.rtcAdvance 0).get RTC_WAKE_WAKE ∧
      (w.rtcAdvance 0).rtc.wakeBase + (w.rtcAdvance 0).get RTC_WAKE_WAKE * 128 ≤ (w.rtcAdvance 0).rtc.run) ∧
    (w.rtcAdvance 0).on RTC_STAT_ONBAT = false ∧ ((w.set RTC_STAT_ONBAT 1).rtcAdvance 0).on RTC_STAT_ONBAT = true ∧
    (w.rtcAdvance 0).itg.burst.active = false ∧
    ({ w with itg := { burst := { active := true } } }.rtcAdvance 0).itg.burst.active = true ∧
    ((s.rtcAdvance 0).on RTC_STAT_ONBAT = false ∧ (s.rtcAdvance 0).rtc.inReset = false) ∧
    (b.rtcAdvance 0).on RTC_STAT_ONBAT = true ∧ (r { inReset := true }).rtc.inReset = true ∧
    (let c := { s with cus := { phase := .released } }
     c.rtc.lock = true ∧ c.rtc.inReset = false ∧ c.on RTC_STAT_ONBAT = false ∧ c.cus.phase ≠ .off ∧ c.itg.wakePend = none ∧
       { c with itg := { wakePend := some (60, none) } }.itg.wakePend = some (60, none)) := by decide +kernel

theorem test_hyp_AlwaysOnReads :
    let s := { State.reset with rtc := { lock := false } }
    (s.rtcAdvance 0).busAllowed .nav 0x40020000 false = true ∧ (s.rtcAdvance 0).busAllowed .nav 0x40020008 false = true ∧
    s.busAllowed .nav 0x40020028 false = true ∧ s.busAllowed .cust (0x40020028 + 8 * 3) false = true := by decide +kernel

theorem test_hyp_SupplyResets :
    let u := fun (x : SupSt) => { State.reset with sup := x }
    (State.reset.sup.powered = false ∧ State.reset.sup.rstLow = false) ∧
    (let v := u { rstLow := true, powered := true }
     v.sup.rstLow = true ∧ v.sup.powered = true ∧ v.sup.core = false ∧ (u { rstLow := true, core := true }).sup.core = true) ∧
    (u { io33 := true }).sup.io33 = true ∧ State.reset.cus.phase = .off ∧
    (u { ioShort := true }).sup.ioShort = true ∧ (u { powered := true }).sup.powered = true ∧
    (u { pfw := true }).sup.pfw = true := by decide +kernel

theorem test_hyp_SupplyWarnings :
    let s := { State.reset with sup := { powered := true }, cus := { phase := .released } }
    (s.sup.powered = true ∧ s.sup.rstLow = false ∧ s.cus.phase ≠ .off ∧ s.on SUP_STAT_WARN = false) ∧ (s.set SUP_STAT_WARN 1).on SUP_STAT_WARN = true ∧
    (let h := { s with sup := { hotEp := true }, tim := { s.tim with up := 60000000000 } }
     h.sup.hotEp = true ∧ h.reached h.sup.hotAt 60000000000 = true) := by decide +kernel

theorem test_hyp_BraceSteps :
    let s := st [(SUP_STAT_WARN, 1)]
    let b := st [(SUP_STAT_BRACE, 1)]
    (s.on SUP_STAT_WARN = true ∧ s.on SUP_STAT_BRACE = false) ∧
    (b.on SUP_STAT_BRACE = true ∧ b.on SUP_STAT_WARN = false ∧ b.on SUP_STAT_LONG = false) ∧
    (b.set SUP_STAT_LONG 1).on SUP_STAT_LONG = true ∧
    (let u := { b with sup := { b.sup with stableAt := some 0 }, tim := { b.tim with up := 10000000 } }
     u.sup.stableAt = some 0 ∧ u.reached 0 10000000 = true ∧ u.reached 0 2000000000 = false) ∧
    ({ b with tim := { b.tim with up := 2000000000 } } : State).reached 0 2000000000 = true := by decide +kernel

theorem test_hyp_UmberCommits :
    let s := st [(UMB_STAT_READY, 1)]
    let c := fun (x : Commit) => { s with umb := { commit := some x } }
    let find := fun (s : State) => (List.range 16).find? fun i => s.peek (0x80000600 + 16 * i + 15) 1 == s.umb.reqNext.getD 1 &&
      (List.range 4).all fun w => s.eccOf .nav (0x80000600 + 16 * i + 4 * w) != some true
    writeTaken s .cust 0x40300058 0xC0000000 = true ∧ writeTaken s .cust 0x4030005C 0 = true ∧
    (s.on UMB_STAT_READY = true ∧ s.on UMB_STAT_BUSY = false ∧ s.on UMB_STAT_LOCKED = false) ∧
    State.reset.on UMB_STAT_READY = false ∧ s.cus.testEn = false ∧ { s with cus := { testEn := true } }.cus.testEn = true ∧ s.umb.commit = none ∧
    (∀ k ∈ [256, 511, 512, 4095, 4096, 131071], (c { slot := k }).umb.commit = some { slot := k }) ∧
    find (s.poke 0x8000060F 1 1) = some 0 ∧ find (s.poke 0x800006FF 1 1) = some 15 ∧
    (let u := { s with umb := { sumAt := some 0 } }
     let v := { u with tim := { t := 3600 * secU } }
     u.umb.sumAt = some (tvSec u.now / max 1 (u.get UMB_CFG_SUMP) * max 1 (u.get UMB_CFG_SUMP)) ∧
       0 < tvSec v.now / max 1 (v.get UMB_CFG_SUMP) * max 1 (v.get UMB_CFG_SUMP) ∧ v.softUnderWay = false) ∧
    ({ s with cus := { phase := .walk, walk := { soft := true } } } : State).softUnderWay = true ∧
    (regsRise s = true ∧ s.get UMB_VALID_COUNT + s.get UMB_FREE_COUNT = 126976 ∧ 0 < s.get UMB_FREE_COUNT) ∧
    (let bs := List.replicate 30 (0 : Byte)
     let u := (st [(UMB_VALID_COUNT, 1), (UMB_FREE_COUNT, 126975), (UMB_NEXT_L_SEQ, 1)]).pokes (slotAddr 131071) (bs ++ leBytes 2 (crc16 bs))
     regsRise u = true ∧ u.get UMB_VALID_COUNT + u.get UMB_FREE_COUNT = 126976 ∧ u.slotCounted 131071 = true) ∧
    ({ s with umb := { sumDue := true } } : State).umb.sumDue = true ∧
    s.measNow.navOn = false ∧ s.measNow.umb.snapDue = false ∧
    (s.umb.snapDue = false ∧ (s.set UMB_CFG_SNAPI 0).get UMB_CFG_SNAPI = 0) ∧
    (let u := ({ s with umb := { snapDue := true }, nav := { running := true } } : State).measNow
     let v := ({ s with umb := { snapDue := true, snap := [{}] }, nav := { running := true } } : State).measNow
     u.umb.snapDue = true ∧ u.umb.snap = [] ∧ u.navOn = true ∧ v.umb.snap ≠ []) := by decide +kernel

/-! #### An image with one record of each kind, in the mirror; its block's CRC is put behind it -/

/-- The image before its CRC. -/
def imgBase : State :=
  { State.reset with mem := ((([0x01000000, 0x80000000, 0] ++ [0x02000000, 0x80000000, 4, 0] ++
    [0x03000000, 0x80000000, 0x1000, 4] ++ [0x04000001, 0x80000000, 1, 0] ++ [0x04000001, 0x80000000, 0, 0] ++
    [0x05000001, 0, 64] ++ List.replicate 8 0 ++ [0x0F000000]).flatMap (leBytes 4)).zipIdx.map fun (p : Byte × Nat) =>
      (0x90500040 + p.2, p.1)) }

/-- A record word of the image that `b` holds. -/
def imgWord (b : State) (p : Nat) : Nat := leNat (b.bytesAt (0x90500040 + 4 * p) 4)

/-- The walk of the image that `b` holds, at its record word `p`; the octets `c` are put behind its one block. -/
def walkingOf (b : State) (c : List Byte) (p : Nat) (soft : Bool) : State :=
  { b.pokes 0x90500FFC c with
    cus := { phase := .walk, walk := { mirror := true, soft := soft, len := 8192, rblk := 1, pos := p } }, ecc := [] }

theorem crc32Bits_lt (k c : Nat) (h : c < 2 ^ 32) : crc32Bits k c < 2 ^ 32 := by
  induction k generalizing c with
  | zero => exact h
  | succ k ih =>
    refine ih _ ?_
    split
    · exact Nat.xor_lt_two_pow (by omega) (by decide)
    · omega

theorem crc32_lt (bs : List Byte) : crc32 bs < 2 ^ 32 := by
  have : ∀ (bs : List Byte) (c : Nat), c < 2 ^ 32 → bs.foldl (fun c b => crc32Bits 8 (c ^^^ b.toNat)) c < 2 ^ 32 := by
    intro bs
    induction bs with
    | nil => intro c h; exact h
    | cons b bs ih => intro c h; exact ih _ (crc32Bits_lt 8 _ (Nat.xor_lt_two_pow h (by have := b.isLt; omega)))
  exact Nat.xor_lt_two_pow (this bs _ (by decide)) (by decide)

theorem imageBytes_mirror (s : State) (o n : Nat) : s.imageBytes true o n = s.bytesAt (0x90500000 + o) n := by
  simp [State.imageBytes, State.bytesAt, State.imageAt, Nat.add_assoc]

theorem imageBytes_add (s : State) (m : Bool) (o a b : Nat) :
    s.imageBytes m o (a + b) = s.imageBytes m o a ++ s.imageBytes m (o + a) b := by
  simp only [State.imageBytes, List.range_add, List.map_append, List.map_map]
  congr 1
  apply List.map_congr_left
  intro i _
  simp [Nat.add_assoc]

theorem imageBytes_length (s : State) (m : Bool) (o n : Nat) : (s.imageBytes m o n).length = n := by simp [State.imageBytes]

/-- The CRC of the block that `b` holds, as four octets. -/
def blockCrc (b : State) : List Byte := leBytes 4 (crc32 (b.bytesAt 0x90500000 4092))

theorem bytesAt_walkingOf (b : State) (c : List Byte) (p : Nat) (soft : Bool) (a n : Nat) :
    (walkingOf b c p soft).bytesAt a n = (b.pokes 0x90500FFC c).bytesAt a n := rfl

theorem walking_bytes (b : State) (c : List Byte) (p : Nat) (soft : Bool) (o n : Nat) (h : o + n ≤ 4092) :
    (walkingOf b c p soft).imageBytes true o n = b.bytesAt (0x90500000 + o) n := by
  rw [imageBytes_mirror, bytesAt_walkingOf]
  exact b.bytesAt_pokes_out _ _ _ _ (by omega)

theorem walking_crc (b : State) (c : List Byte) (hl : c.length = 4) (p : Nat) (soft : Bool) (hs : tblSorted none b.mem = true) :
    (walkingOf b c p soft).imageBytes true 4092 4 = c := by
  rw [imageBytes_mirror, bytesAt_walkingOf]
  have := b.bytesAt_pokes 0x90500FFC c hs
  rwa [hl] at this

theorem walking_block (b : State) (c : List Byte) (hc : c = blockCrc b) (p : Nat) (soft : Bool)
    (hs : tblSorted none b.mem = true) : (walkingOf b c p soft).blockOk true 0 = true := by
  have e := imageBytes_add (walkingOf b c p soft) true 0 4092 4
  have l := imageBytes_length (walkingOf b c p soft) true 0 4092
  have w := walking_bytes b c p soft 0 4092 (by decide)
  have k := walking_crc b c (by rw [hc, blockCrc, leBytes_length]) p soft hs
  unfold State.blockOk
  simp only [Nat.mul_zero]
  rw [show (4096 : Nat) = 4092 + 4 from rfl, e, List.take_left' l, List.drop_left' l, w, Nat.zero_add, k, hc, blockCrc,
    leNat_leBytes]
  generalize b.bytesAt 0x90500000 4092 = x
  rw [Nat.mod_eq_of_lt (show crc32 x < 256 ^ 4 from crc32_lt x)]
  exact beq_self_eq_true _

theorem walking_word (b : State) (c : List Byte) (hc : c = blockCrc b) (p : Nat) (soft : Bool) (q : Nat) (h : q < 100) :
    (walkingOf b c p soft).walkWord q = imgWord b q := by
  have e : recordOfs q = 0x40 + 4 * q := if_pos (by omega)
  show leNat ((walkingOf b c p soft).imageBytes true (recordOfs q) 4) = _
  rw [e, walking_bytes _ _ _ _ _ _ (by omega), imgWord, show 0x90500000 + (0x40 + 4 * q) = 0x90500040 + 4 * q by omega]

theorem walking_blocks (b : State) (c : List Byte) (hc : c = blockCrc b) (p : Nat) (soft : Bool) (n : Nat) (hs : tblSorted none b.mem = true) (h : p + n ≤ 100)
    (hn : 0 < n) : (walkingOf b c p soft).walkBlocks p n = none := by
  have e : recordOfs p / 4096 = 0 := by unfold recordOfs; rw [if_pos (by omega)]; omega
  have e' : recordOfs (p + n - 1) / 4096 = 0 := by unfold recordOfs; rw [if_pos (by omega)]; omega
  have m : (walkingOf b c p soft).cus.walk.mirror = true := rfl
  have k : (walkingOf b c p soft).imageSound true 0 4096 = true := rfl
  simp [State.walkBlocks, e, e', m, k, walking_block _ _ hc _ _ hs]

theorem walking_record (b : State) (c : List Byte) (hc : c = blockCrc b) (p : Nat) (soft : Bool) (op : WalkOp) (n : Nat) (ws : List Nat)
    (hs : tblSorted none b.mem = true) (h : p + n ≤ 100) (hn : 0 < n)
    (ho : walkOpOf (imgWord b p) = some (op, n)) (hw : (imgWord b p % 2 ^ 24) ||| op.used = op.used)
    (hl : (List.range n).map (fun i => imgWord b (p + i)) = ws) :
    (walkingOf b c p soft).walkRecord = .ok (op, ws) := by
  have p' : (walkingOf b c p soft).cus.walk.pos = p := rfl
  have r : recordWords (walkingOf b c p soft).cus.walk.rblk = 1007 := rfl
  simp only [State.walkRecord, p', r]
  rw [if_neg (by omega), walking_blocks _ _ hc _ _ _ hs (by omega) (by decide), walking_word _ _ hc _ _ _ (by omega)]
  simp only [ho]
  rw [if_neg (by omega), walking_blocks _ _ hc _ _ _ hs h hn]
  simp only [hw, bne_self_eq_false, Bool.false_eq_true, if_false]
  have : (List.range n).map (fun i => (walkingOf b c p soft).walkWord (p + i)) = (List.range n).map fun i => imgWord b (p + i) :=
    List.map_congr_left fun i hi => walking_word _ _ hc _ _ _ (by have := List.mem_range.mp hi; omega)
  rw [this, hl]

theorem imgBase_sorted : tblSorted none imgBase.mem = true := by decide +kernel

/-- The walk of `imgBase` at its record word `p`. -/
def walking (p : Nat) (soft : Bool) : State := walkingOf imgBase (blockCrc imgBase) p soft

theorem test_hyp_WalkRecords_kinds (soft : Bool) :
    (walking 0 soft).walkRecord = .ok (.wr32, [0x01000000, 0x80000000, 0]) ∧
    (walking 3 soft).walkRecord = .ok (.fill, [0x02000000, 0x80000000, 4, 0]) ∧
    (walking 7 soft).walkRecord = .ok (.load, [0x03000000, 0x80000000, 0x1000, 4]) ∧
    (walking 11 soft).walkRecord = .ok (.wait, [0x04000001, 0x80000000, 1, 0]) ∧
    (walking 15 soft).walkRecord = .ok (.wait, [0x04000001, 0x80000000, 0, 0]) ∧
    (walking 19 soft).walkRecord = .ok (.check, [0x05000001, 0, 64] ++ List.replicate 8 0) ∧
    (walking 30 soft).walkRecord = .ok (.stop, [0x0F000000]) := by
  refine ⟨?_, ?_, ?_, ?_, ?_, ?_, ?_⟩
  · exact walking_record imgBase _ rfl 0 soft .wr32 3 _ imgBase_sorted (by decide) (by decide) (by decide +kernel) (by decide +kernel) (by decide +kernel)
  · exact walking_record imgBase _ rfl 3 soft .fill 4 _ imgBase_sorted (by decide) (by decide) (by decide +kernel) (by decide +kernel) (by decide +kernel)
  · exact walking_record imgBase _ rfl 7 soft .load 4 _ imgBase_sorted (by decide) (by decide) (by decide +kernel) (by decide +kernel) (by decide +kernel)
  · exact walking_record imgBase _ rfl 11 soft .wait 4 _ imgBase_sorted (by decide) (by decide) (by decide +kernel) (by decide +kernel) (by decide +kernel)
  · exact walking_record imgBase _ rfl 15 soft .wait 4 _ imgBase_sorted (by decide) (by decide) (by decide +kernel) (by decide +kernel) (by decide +kernel)
  · exact walking_record imgBase _ rfl 19 soft .check 11 _ imgBase_sorted (by decide) (by decide) (by decide +kernel) (by decide +kernel) (by decide +kernel)
  · exact walking_record imgBase _ rfl 30 soft .stop 1 _ imgBase_sorted (by decide) (by decide) (by decide +kernel) (by decide +kernel) (by decide +kernel)

theorem test_hyp_WalkRecords :
    let s := walking 0 false
    State.reset.cus.phase ≠ .walk ∧ s.cus.phase = .walk ∧ s.cus.walk.waiting = false ∧ s.cus.walk.soft = false ∧
    (walking 11 true).cus.walk.soft = true ∧
    ({ s with cus := { s.cus with walk := { s.cus.walk with waiting := true } } } : State).cus.walk.waiting = true ∧
    ({ s with cus := { s.cus with walk := { s.cus.walk with rblk := 0 } } } : State).walkRecord = .error 0x0A ∧
    recordForbidden 0x80000000 = false ∧ recordForbidden 0x90000000 = true ∧
    (State.reset.busRead .loader 0x80000000 4).2 = some 0 ∧
    (State.reset.walkRange false 0 3).2 = .error 0x04 := by
  refine ⟨by decide, rfl, rfl, rfl, rfl, rfl, rfl, by decide, by decide, by decide +kernel, rfl⟩

/-- A cold start that finds everything well. -/
def cold0 : ColdIn := { romOk := true, rfi := 78125, pllA := true, mib := 64, edges := 0, blankOk := true, copyFail := none,
                        testEn := false, copyAgain := [] }

theorem test_hyp_Starts :
    let r := { State.reset with cus := { phase := .released } }
    let t := fun (rfi : Nat) =>
      let s1 := r.rtcAdvance 0
      let u := (({ s1 with svc := { s1.svc with rxOn := true } } : State).cusRead.mramRead 0x90708000 20).identity.beforeLock
      (u.backoff.aonNotes.rfiClassify rfi).cus.phase
    let w := { State.reset with sup := { softDue := 1 }, cus := { phase := .run } }
    let m := { State.reset with cus := { walk := { rewrite := true } } }
    let n := { (st [(SYS_NWDOG_EN, 1), (SYS_NWDOG_LIMIT, 0), (SYS_NWCNT_COUNT, 1)]) with cus := { phase := .run } }
    let ok := fun (s : State) => (s.cusRead.mramRead 0x90708000 20).idOk
    State.reset.cus.phase ≠ .released ∧ r.cus.phase = .released ∧ cold0.romOk = true ∧ { cold0 with romOk := false }.romOk = false ∧
    ok r = true ∧ ok { r with part := { idCrc := 0 } } = false ∧ ok (r.setEcc .mram 0x90708000 true) = false ∧ cold0.testEn = false ∧
    { cold0 with testEn := true }.testEn = true ∧
    t 78125 = .pllA ∧ t 0 ≠ .pllA ∧ cold0.pllA = true ∧ State.reset.on SUP_STAT_BRACE = false ∧ State.reset.sup.softDue = 0 ∧
    (w.sup.softDue ≠ 0 ∧ w.cus.phase = .run ∧ w.on SUP_STAT_BRACE = false) ∧ State.reset.cus.walk.rewrite = false ∧
    (m.cus.walk.rewrite = true ∧ m.on SUP_STAT_BRACE = false) ∧
    (n.on SYS_NWDOG_EN = true ∧ n.cus.phase = .run ∧ n.cus.nwDone = false ∧
      max 1 (n.get SYS_NWDOG_LIMIT) ≤ n.get SYS_NWCNT_COUNT ∧ (n.set SYS_NWCNT_COUNT 0).get SYS_NWCNT_COUNT < 1) ∧
    ({ n with cus := { nwDone := true } } : State).cus.nwDone = true ∧
    (({ n with cus := { phase := .walk } } : State).cus.phase = .walk ∧ n.cus.walk.soft = false) ∧
    State.reset.on SYS_NWDOG_EN = false ∧ writeTaken State.reset .nav 0x40000020 0x40000000 = true := by decide +kernel

theorem test_hyp_CustodyTimes :
    let s := State.reset
    { ({ sealed_ := true } : CustodyRec) with gen := s.cus.rec_.gen } ≠ s.cus.rec_ ∧
    (st [(SVC_REPAIR_RSTATE, 1)]).svcBusy = true ∧ s.svcBusy = false ∧
    (let u := ({ s with cus := { reopened := true }, tim := { s.tim with up := 1800 * 10 ^ 9 } } : State)
     u.cus.reopened = true ∧ u.reached u.cus.cmdAt (1800 * 10 ^ 9) = true) ∧ s.reached s.cus.cmdAt (1800 * 10 ^ 9) = false ∧
    (s.busAllowed .nav 0x80000000 false = true ∧ (s.setEcc .nav 0x80000000 false).eccOf .nav 0x80000000 = some false) ∧
    (s.setEcc .nav 0x803FFFFC true).eccOf .nav 0x803FFFFC = some true ∧ s.busAllowed .nav 0x803FFFFC true = true ∧
    { s.cus.rec_ with gen := s.cus.rec_.gen } = s.cus.rec_ := by
  decide +kernel

theorem test_hyp_CustodyTimes_memories :
    let s := State.reset
    let ok := fun (k : MemClass) (a : Nat) (z : AccSize) (m : Master) => memClass a = some k ∧ k.takes a (AccSize.bytes z) = true ∧
      s.busAllowed m a false = true ∧ s.busAllowed m a true = true ∧ s.memWritable k a = true
    let bad := fun (k : MemClass) (a : Nat) (u : Upset) => ((s.upsetAt a (some u)).memSettle k).eccOf k a
    ok (.cluster 15) 0x50FBFFFF .b1 .nav ∧ ok (.dsp 0 .x) 0x60010002 .b2 .nav ∧ ok (.dsp 15 .p) 0x603FFFFF .b1 .nav ∧
    ok .nav 0x80000001 .b1 .nav ∧ ok .snap 0x71FFFFFC .b4 .nav ∧ ok .sched 0x4021FFFC .b4 .nav ∧
    ok .cust 0x10003FFFF .b1 .cust ∧ ok .eth 0x1001FFFFF .b1 .ptp ∧
    (memClass 0x90000000 = some .mram ∧ s.busAllowed .nav 0x90000000 false = true ∧ s.memWritable .mram 0x90000000 = false) ∧
    (s.busAllowed .nav 0x100000000 false = false) ∧
    (∀ p ∈ [(MemClass.cluster 15, 0x50FBFFFF), (.dsp 15 .p, 0x603FFFFF), (.nav, 0x80000001), (.sched, 0x4021FFFC),
        (.cust, 0x10003FFFF), (.mram, 0x90000007)],
      s.eccOf p.1 p.2 = none ∧ bad p.1 p.2 .single = some false ∧ bad p.1 p.2 .double = some true) ∧
    (s.eccOf .eth 0x1001FFFFF = none ∧ bad .eth 0x1001FFFFF .single = some true) ∧
    (AccSize.bytes .b2 < MemClass.nav.unit ∧ MemClass.eth.unit ≤ AccSize.bytes .b1) := by decide +kernel

/-! #### The service port -/

/-- `s` with a command of code `c` and payload `p` waiting at a port that runs. -/
def svcAt (s : State) (c : Nat) (p : List Byte) : State :=
  { s with svc := { s.svc with cmds := [(c, 0, p)], rxOn := true } }

/-- What `SvcReady` asks, as a check. -/
def svcNow (s : State) (c : Nat) (p : List Byte) : Bool :=
  decide (s.svc.cmds = [(c, 0, p)]) && s.svcAlive && (!s.svcBusy || c == 1)

theorem svcReady_of_svcNow {s : State} {c : Nat} {p : List Byte} (h : svcNow s c p = true) : SvcReady s c 0 p [] := by
  simp only [svcNow, Bool.and_eq_true, decide_eq_true_eq, Bool.or_eq_true, Bool.not_eq_true', beq_iff_eq] at h
  exact ⟨h.1.1, h.1.2, h.2⟩

/-- The part with a sealed custody record. -/
def sealedPart : State := { State.reset with cus := { rec_ := { sealed_ := true } } }

theorem test_hyp_Service_ready : SvcReady (svcAt State.reset 0x02 []) 0x02 0 [] [] := svcReady_of_svcNow (by decide +kernel)

theorem test_hyp_Service_codes :
    (∀ c ∈ (0xFF :: svcCodes), ∀ s ∈ [State.reset, sealedPart, st [(SUP_STAT_BRACE, 1)]], svcNow (svcAt s c []) c [] = true) ∧
    0xFF ∉ svcCodes ∧ sealedPart.sealedNow = true ∧ State.reset.sealedNow = false ∧ State.reset.on SUP_STAT_BRACE = false ∧
    (st [(SUP_STAT_BRACE, 1)]).on SUP_STAT_BRACE = true := by decide +kernel

theorem test_hyp_ServiceLink :
    let s := svcAt State.reset 0x02 []
    let u := s.set SVC_STAT_LINK 1
    let fr := fun (typ seq : Nat) => (svcEncode { typ := typ, seq := seq }).dropLast
    let got := fun (typ seq : Nat) => (svcDecode (fr typ seq)).map fun f => (f.typ, f.seq)
    State.reset.svcAlive = false ∧ s.svcAlive = true ∧ svcDecode [1] = none ∧ s.svc.probing = false ∧
    got 1 0 = some (1, 0) ∧ got 2 0 = some (2, 0) ∧ got 2 65535 = some (2, 65535) ∧ got 0 0 = some (0, 0) ∧
    s.get SVC_STAT_LINK = 0 ∧ u.get SVC_STAT_LINK ≠ 0 ∧
    (let e := u.get SVC_SEQ_RXEXP; (e + 65536 - 0) % 65536 = 0 ∧ (e + 65536 - 65535) % 65536 = 1 ∧
      (e + 65536 - 65528) % 65536 = 8 ∧ 8 < (e + 65536 - 65527) % 65536) ∧
    (regsRise s = true ∧ s.get SVC_STAT_INFLIGHT = s.svc.unacked.length ∧ s.get SVC_STAT_INFLIGHT + s.get SVC_STAT_WFREE = 8) ∧
    s.svc.unacked = [] ∧ ({ s with svc := { s.svc with unacked := [(2, 0, [])], expiries := 24 } } : State).svc.expiries < 25 ∧
    ({ s with svc := { s.svc with unacked := [(2, 0, [])], expiries := 25 } } : State).svc.unacked ≠ [] := by decide +kernel

theorem test_hyp_ServiceChecks :
    payN (List.replicate 8 0) 0 4 % 4 = 0 ∧ (1 ≤ payN (List.replicate 9 1) 8 1 ∧ payN (List.replicate 9 1) 8 1 ≤ 31) ∧
    (payN (List.replicate 36 0) 32 1 ≤ 3 ∧ payN (List.replicate 36 0) 33 3 = 0) ∧
    (payN [15, 1] 0 1 < 16 ∧ payN [15, 1] 1 1 ≤ 1) ∧ (payN [3, 1] 0 1 < 4 ∧ payN [3, 1] 1 1 ≤ 1) ∧
    (∀ p ∈ [[], [0]], svcNow (svcAt State.reset 0x02 p) 0x02 p = true) ∧
    (st [(SVC_REPAIR_RSTATE, 1)]).svcBusy = true ∧ (svcAt State.reset 0x02 []).svc.cmds.all (fun x => x.1 != 1) = true ∧
    State.reset.svc.cmds = [] := by decide +kernel

theorem test_hyp_ServiceCustody :
    let hi := leBytes 4 1 ++ leBytes 4 115200 ++ leBytes 4 0
    let s := svcAt State.reset 0x01 hi
    let c := svcAt (sealedPart.setPll 0 {}) 0x03 []
    let a := { c with cus := { c.cus with chal := some 5 } }
    let k := List.replicate 31 0 ++ [1] ++ leBytes 4 0
    let w := { State.reset with cus := { walk := { clean := true } } }
    (svcNow s 0x01 hi = true ∧ hi.length = 12 ∧ payN hi 0 1 = 1 ∧ payN hi 8 4 = 0) ∧
    svcRate (s.aligned 0) (payN hi 4 4) = s.get SVC_BAUD_BAUD ∧
    (let u := s.set SVC_BAUD_BAUD 921600; svcRate (u.aligned 0) (payN hi 4 4) ≠ u.get SVC_BAUD_BAUD) ∧
    (svcAt State.reset 3 []).cus.rec_.sealed_ = false ∧ c.cus.rec_.sealed_ = true ∧
    (c.set CUS_STAT_BACKOFF 1).on CUS_STAT_BACKOFF = true ∧ c.on CUS_STAT_BACKOFF = false ∧ c.cus.chal = none ∧
    a.cus.chal = some 5 ∧ a.tim.up ≤ a.cus.chalAt + 60 * 10 ^ 9 ∧
    ({ a with tim := { a.tim with up := 60 * 10 ^ 9 + 1 } } : State).cus.chalAt + 60 * 10 ^ 9 < 60 * 10 ^ 9 + 1 ∧
    (hmacSha256 (beBytes 32 a.cus.rec_.key) (beBytes 16 5 ++ beBytes 16 a.part.ident ++ beBytes 8 a.cus.rec_.ctr)).length = 32 ∧
    (k.length = 36 ∧ beNat (k.take 32) ≠ 0 ∧ payN k 32 1 ≤ 3 ∧ payN k 33 3 = 0 ∧ svcNow (svcAt w 0x30 k) 0x30 k = true) ∧
    beNat ((List.replicate 36 (0 : Byte)).take 32) = 0 ∧ State.reset.cus.walk.clean = false ∧ w.cus.walk.clean = true ∧
    bit (payN (List.replicate 32 1 ++ leBytes 4 3) 32 1) 0 = true ∧ State.reset.sealable = false ∧
    ({ State.reset with nav := { posMode := 1, metAcc := true } } : State).sealable = true ∧
    (let o := { sealedPart with cus := { sealedPart.cus with reopened := true } }
     o.sealedNow = false ∧ o.cus.rec_.sealed_ = true) ∧
    (let r := leBytes 8 0 ++ leBytes 1 31
     r.length = 9 ∧ payN r 8 1 ≤ 31 ∧ svcNow (svcAt State.reset 0x12 r) 0x12 r = true) := by decide +kernel

theorem test_hyp_ServiceRegisters :
    let rd := leBytes 4 0x40000000 ++ leBytes 1 2
    let wr := leBytes 4 0x80000000 ++ leBytes 4 7
    let s := svcAt State.reset 0x10 rd
    (svcNow s 0x10 rd = true ∧ rd.length = 5 ∧ payN rd 0 4 % 4 = 0 ∧ payN rd 4 1 ≠ 0) ∧
    (∀ i < 2, classQ (0x40000000 + 4 * i) = true) ∧ (svcNow (svcAt State.reset 0x11 wr) 0x11 wr = true ∧ wr.length = 8) ∧
    ((svcBegun s []).busRead .svc 0x40000000 4).2.isSome = true ∧ ((svcBegun s []).busRead .svc 0x00000000 4).2 = none ∧
    (let r := (svcBegun s []).busRead .svc 0x40000000 4; (r.1.busRead .svc 0x40000004 4).2.isSome = true) ∧
    (∃ a ∈ [0x40050000, 0x80000000], ((svcBegun s []).busWrite .svc a 4 7).2 = true) ∧
    ((svcBegun s []).busWrite .svc 0x00000000 4 7).2 = false := by decide +kernel

/-- The payload of a `PUT_OBJECT`. -/
def putPay (upd total ofs : Nat) (data : List Byte) : List Byte := leBytes 8 upd ++ leBytes 4 total ++ leBytes 4 ofs ++ data

theorem test_hyp_ServiceUpdates :
    let put := putPay 7 641 512 (List.replicate 129 0)
    let at_ := fun (j : JrnlSt) (c : Nat) (p : List Byte) =>
      svcAt { st [(CFL_FLASH_MIB, 64)] with svc := { jrnl := { j with ok := true } } } c p
    let a := at_ {} 0x20 put
    let o := at_ { open_ := some (7, 641) } 0x20 put
    let range := fun (s : State) (p : List Byte) =>
      decide (payN p 12 4 % 256 ≠ 0 ∨ ((p.drop 16).length % 256 ≠ 0 ∧ payN p 12 4 + (p.drop 16).length ≠ payN p 8 4) ∨
        payN p 8 4 < 640 ∨ s.slotSize < payN p 8 4 + 2097152 ∨ payN p 8 4 < payN p 12 4 + (p.drop 16).length)
    let held : JrnlSt := { open_ := some (7, 641), runs := (List.range 512).map fun i => (10 + 2 * i, 1) }
    let id8 := leBytes 8 7
    (svcNow a 0x20 put = true ∧ 17 ≤ put.length ∧ put.length ≤ 784 ∧ a.flashUsable = true ∧ range a put = false) ∧
    (svcAt State.reset 0x20 put).flashUsable = false ∧ range a (putPay 7 641 1 [0]) = true ∧
    range a (putPay 7 639 512 (List.replicate 127 0)) = true ∧ range a (putPay 7 640 512 (List.replicate 128 0)) = false ∧
    payN put 0 8 ∈ (at_ { ended := [7] } 0x20 put).svc.jrnl.ended ∧ o.svc.jrnl.open_ = some (7, payN put 8 4) ∧
    (at_ { open_ := some (8, 641) } 0x20 put).svc.jrnl.open_ ≠ some (7, 641) ∧ o.svc.jrnl.actreq = false ∧
    o.pagesDiffer (o.svc.jrnl.runsBefore 2) 1 2 (put.drop 16) = false ∧ o.svc.jrnl.runsWith 2 1 ≤ 512 ∧ 512 < held.runsWith 2 1 ∧
    (at_ { open_ := some (7, 641), runs := [(2, 1)] } 0x20 put).pagesDiffer [(2, 1)] 1 2 (put.drop 16) = true ∧
    (o.pagesPut true 1 2 (put.drop 16)).2 = true ∧ (o.pagesPut false 1 2 (put.drop 16)).2 = false ∧
    (let q := leBytes 12 7; svcNow (at_ {} 0x21 q) 0x21 q = true ∧ q.length = 12 ∧ payN q 0 8 = 7) ∧
    (id8.length = 8 ∧ svcNow (at_ {} 0x22 id8) 0x22 id8 = true ∧ svcNow (at_ {} 0x23 id8) 0x23 id8 = true) ∧
    o.updId = payN id8 0 8 ∧ (at_ { open_ := some (7, 641), actreq := true } 0x22 id8).svc.jrnl.actreq = true := by
  decide +kernel

theorem test_hyp_ServiceUpdates_ends :
    let put := putPay 7 641 512 (List.replicate 129 0)
    let at_ := fun (j : JrnlSt) (c : Nat) (p : List Byte) =>
      svcAt { st [(CFL_FLASH_MIB, 64)] with svc := { jrnl := { j with ok := true } } } c p
    let id8 := leBytes 8 7
    let v := at_ { open_ := some (7, 641), staged := some (641, 0) } 0x24 id8
    let d := ({ v with svc := { v.svc with long := some (0x20, 0, 1 :: put) } } : State)
    (svcNow v 0x24 id8 = true ∧ v.svc.jrnl.staged = some (641, 0) ∧ v.updId = 7 ∧ v.on SVC_REPAIR_RSTATE = false) ∧
    (v.nav.moving || !v.movKnown || v.nav.displaced) = true ∧
    (let u := { v with nav := { moving := false, movAt := some 0 } }
     let u := u.set SUP_LASTW_SEC 60
     (u.nav.moving || !u.movKnown || u.nav.displaced) = false ∧
       (decide (u.get SUP_LASTW_SEC < 60) || u.on RTC_STAT_ONBAT || u.on SUP_STAT_WARN) = false ∧
       u.cus.rec_.ulock = false) ∧
    ({ v with svc := { v.svc with startAt := [(1, 0)] } } : State).svc.startAt = [(1, 0)] ∧ State.reset.svc.startAt = [] ∧
    (d.svc.long = some (0x20, 0, 1 :: put) ∧ d.on SUP_STAT_BRACE = false ∧ (d.set SUP_STAT_BRACE 1).on SUP_STAT_BRACE = true) ∧
    (∀ c ∈ [0x23, 0x24], svcNow (svcAt State.reset c id8) c id8 = true ∧ (svcAt State.reset c id8).flashUsable = false) ∧
    ((at_ { open_ := some (7, 642) } 0x20 put).svc.jrnl.open_ = some (7, 642) ∧ 642 ≠ payN put 8 4) ∧
    ({ v with svc := { v.svc with long := some (0x23, 0, [0, 1]) } } : State).svc.long = some (0x23, 0, [0, 1]) := by
  decide +kernel

theorem test_hyp_ServiceRepairs :
    let s := fun c p => svcAt { State.reset with cus := { phase := .run } } c p
    let r := st [(SVC_REPAIR_RSTATE, 1), (SVC_REPAIR_TARGET, 15)]
    let held := fun (s : State) => s.repairClusters.any fun c => decide (0 < s.engCount c 1 + s.engCount c 3)
    svcNow (s 0x40 [15, 1]) 0x40 [15, 1] = true ∧ svcNow (s 0x41 [3, 0]) 0x41 [3, 0] = true ∧ svcNow (s 0x42 []) 0x42 [] = true ∧
    (s 0x40 []).cus.phase ≠ .minimum ∧ (s 0x40 []).on SVC_REPAIR_RSTATE = false ∧ (s 0x40 []).svc.jrnl.actreq = false ∧
        (let m := svcAt { State.reset with cus := { phase := .minimum } } 0x42 []
     m.cus.phase = .minimum ∧ svcNow m 0x42 [] = true) ∧
    r.reached r.svc.repair.at_ (10 * 10 ^ 9) = false ∧
    ({ r with tim := { r.tim with up := 10 * 10 ^ 9 } } : State).reached r.svc.repair.at_ (10 * 10 ^ 9) = true ∧
    ({ r with svc := { r.svc with repair := { force := true } } } : State).svc.repair.force = true ∧
    State.reset.get SVC_REPAIR_RSTATE ≠ 1 ∧ r.get SVC_REPAIR_RSTATE = 1 ∧ held r = false ∧
    held (r.set (ENG_STAT_STATE 1023) 1) = true ∧ r.svc.repair.force = false ∧
    (r.byteAt 0x80000704).toNat = r.svc.repair.count ∧
    ((r.poke 0x80000704 1 1).byteAt 0x80000704).toNat ≠ (r.poke 0x80000704 1 1).svc.repair.count := by decide +kernel

theorem test_hyp_RegisterAccess :
    let s := State.reset
    (memClass 0x40050000 = none ∧ writeTaken s .nav 0x40050000 0 = true) ∧
    (sealedPart.sealedNow = true ∧ memClass 0x40020008 = none ∧
      (∀ f ∈ regsAt 0x40020008, f.2.lockable = true ∨ f.2 = .ro)) ∧
    (let u := { sealedPart with rtc := { lock := false } }
     u.busAllowed .cust 0x40020008 true = true ∧ u.writeError .cust 0x40020008 (u.fieldHeld RTC_SEC_L_SEC) = false ∧
       (∃ f ∈ regsAt 0x40020008, f.2.lockable = true ∧ u.fieldHeld f.1 ≠ bits (u.fieldHeld RTC_SEC_L_SEC + 1) f.1.hi f.1.lo)) ∧
    (let u := { s with rtc := { lock := false } }
     writeTaken u .cust 0x40020018 0 = true ∧ writeTaken u .cust 0x4002001C 0 = true ∧ writeTaken u .cust 0x40020024 0 = true ∧
       u.writeError .nav 0x4002001C 0x40000000 = true) ∧
    (let k := { sealedPart with cus := { sealedPart.cus with phase := .run } }
     k.sealedNow = true ∧ k.cus.phase ≠ .walk ∧ k.get SVC_REPAIR_RSTATE ≠ 2) ∧
    (memClass 0x40000000 ≠ some .nav ∧ (∀ e ∈ ({ machine := false } : NavBoot).pmp, e.mode = .off) ∧
      ({ machine := false } : NavBoot).fault .store 0x80000000 ≠ none ∧ ({ machine := false } : NavBoot).fault .load 0x80000000 ≠ none) ∧
    s.busAllowed .nav 0x40040044 true = false ∧ s.writeError .nav 0x40310000 0 = true ∧ s.writeError .nav 0x40040000 0 = true ∧
    (∀ f ∈ regsAt 0x40040000, f.2 = .ro) ∧
    (0xFFFFFFFF ||| fieldMask (regsAt 0x40030000) ≠ fieldMask (regsAt 0x40030000)) ∧
    (∀ b ∈ [0x40050018, 0x40050018 + 0x700, 0x40070118, 0x40070118 + 0x1C0, 0x40040000, 0x4004000C, 0x40040110, 0x40040150,
        0x40040208, engAddr 0 0x44, engAddr 1023 0x44, 0x40300004, 0x4030000C, 0x40200420, 0x40200420 + 0x40 * 95],
      s.busAllowed .nav b false = true) ∧
    (∀ b ∈ [0x40310008, 0x40310030, 0x40310038, 0x40310040, 0x40320020], s.busAllowed .cust b false = true) := by
  decide +kernel

theorem test_hyp_WritePaths :
    (Master.nav = .nav ∨ ∃ d, Master.nav = .ldsp d) ∧ (∃ d, Master.ldsp 15 = .ldsp d) ∧ (0x40310000 : Nat) < 0x40320000 ∧
    State.reset.nav.boot.fault .load 0x90000000 = none :=
  ⟨.inl rfl, ⟨15, rfl⟩, by decide, by decide⟩

theorem test_hyp_StepRunsFront :
    let s := { State.reset with pending := [.xofail 0, .summary] }
    s.pending = [.xofail 0, .summary] ∧ State.reset.pending = [] ∧ ∃ t, exec (.xofail 0) s = .next t :=
  ⟨rfl, rfl, ⟨_, rfl⟩⟩

theorem test_hyp_IdentityNeverWritten : ∃ t, Host.Core.run Sys2Proof.core 2 State.reset = .next t := by
  have h : Sys2Proof.core.step State.reset = .next State.reset := rfl
  exact ⟨State.reset, by simp only [Host.Core.run, h]⟩

theorem test_hyp_ServiceFrames :
    let f : SvcFrame := { typ := 255, seq := 65535, ack := 65535, payload := List.replicate 1024 0 }
    f.typ < 2 ^ 8 ∧ f.seq < 2 ^ 16 ∧ f.ack < 2 ^ 16 ∧ f.payload.length ≤ 1024 := by decide +kernel

theorem test_hyp_ResetState :
    (RTC_WREASON_POWER.lo < 32 ∧ 0x40020000 ≤ RTC_WREASON_POWER.addr ∧ RTC_WREASON_POWER.addr < 0x40030000) ∧
    (∀ f ∈ [SNP_CRED_FREE, ENG_STAT_STATE 1023, LDSP_STAT_STATE 15], f.lo < 32 ∧
      ((0x40070000 ≤ f.addr ∧ f.addr < 0x40080000) ∨ (0x50000000 ≤ f.addr ∧ f.addr < 0x70000000)) ∧
      ∀ c ∈ List.range 16, f.key ≠ (CLU_CTL_BUSY c).key) ∧
    (TIM_UTC_UTCOFS.lo < 32 ∧ TIM_UTC_UTCOFS.addr < 0x40070000 ∧ 0x40030000 ≤ TIM_UTC_UTCOFS.addr) := by decide +kernel

theorem test_hyp_StepKeepsCanonical : Canonical State.reset := ⟨by decide +kernel, by decide +kernel⟩

end Sys2Proof.Tests
end

/-! SUPPORT. The block as a whole (ch. 1): every step goes on and keeps the canonical form (O58), and no write of the
navigation core or of a loop DSP reaches custody or the record (O55). -/

namespace Sys2Proof.Machine

/-! ### Every step goes on, in canonical form -/

theorem step_of_pending_nil {s : State} (h : s.pending = []) : step s = .next s := by rw [step, h]

theorem step_of_pending_cons {s : State} {c : Instr} {rest : List Instr} (h : s.pending = c :: rest) :
    step s = exec c { s with pending := rest } := by rw [step, h]

/-- Every command answers a next state: no row of the table ends in a fault or a refusal. -/
theorem exec_goes (c : Instr) (s : State) : ∃ t, exec c s = .next t := by
  cases c <;> exact ⟨_, rfl⟩

/-- The canonical form does not look at the queue of commands. -/
theorem canonical_pending (s : State) (q : List Instr) : Canonical { s with pending := q } ↔ Canonical s := Iff.rfl

theorem Keeps.canonical {s t : State} (h : Keeps s t) : Canonical s → Canonical t :=
  fun ⟨hmem, hreg⟩ => ⟨h.memory hmem, h.regs hreg⟩

/-- Settles O58: the front command goes on (`exec_goes`), and the canonical form is among what it keeps (`exec_keeps`). -/
theorem stepKeepsCanonical : Obligations.StepKeepsCanonical := by
  intro s
  cases hq : s.pending with
  | nil => exact ⟨s, step_of_pending_nil hq, id⟩
  | cons c rest =>
    obtain ⟨t, ht⟩ := exec_goes c { s with pending := rest }
    exact ⟨t, (step_of_pending_cons hq).trans ht,
      fun h => (exec_keeps c ht).canonical ((canonical_pending s rest).mpr h)⟩

/-! ### Writes that the bus refuses -/

/-- A write that is refused shows as the bus error its master sees (R406). -/
theorem State.busDo_refused {s : State} {m : Master} {a n w : Nat} (h : s.busWrite m a n w = (s, false)) :
    s.busDo m a n w = s.busError m a true := by
  rw [State.busDo, h]

theorem State.busWrite_of_not_allowed {s : State} {m : Master} {a : Nat} (h : s.busAllowed m a true = false) (n w : Nat) :
    s.busWrite m a n w = (s, false) := by
  simp [State.busWrite, h]

/-- Every field of custody's registers is read-only, and where no register is there is no field. -/
theorem regsAt_cus_readOnly {a : Nat} (h : 0x40310000 ≤ a ∧ a < 0x40320000) : (regsAt a).all (·.2 == .ro) = true := by
  have hpage : a / 0x10000 = 0x4031 := by omega
  have hregs : regsAt a = cusBlockRegs (a % 0x10000) := by simp [regsAt, hpage]
  rw [hregs, cusBlockRegs]
  split
  · unfold cusDigRegs; split <;> rfl
  · unfold cusRegs; split <;> rfl

/-- R402 refuses a write of a register without a writable field. -/
theorem State.writeError_of_readOnly {a : Nat} (h : (regsAt a).all (·.2 == .ro) = true) (s : State) (m : Master) (w : Nat) :
    s.writeError m a w = true := by
  simp [State.writeError, h]

theorem memClass_cus {a : Nat} (h : 0x40310000 ≤ a ∧ a < 0x40320000) : memClass a = none := by
  unfold memClass
  repeat rw [if_neg (by omega)]

theorem memClass_mram {a : Nat} (h : 0x90000000 ≤ a ∧ a < 0x90800000) : memClass a = some .mram := by
  unfold memClass
  iterate 4 rw [if_neg (by omega)]
  rw [if_pos h]

/-- No master writes custody's registers. -/
theorem State.busWrite_cus (s : State) (m : Master) {a : Nat} (h : 0x40310000 ≤ a ∧ a < 0x40320000) (n w : Nat) :
    s.busWrite m a n w = (s, false) := by
  have hb : ¬(0x50000000 ≤ a ∧ a < 0x51000000 ∧ a / 0x10000 % 16 = 2) := by omega
  simp [State.busWrite, memClass_cus h, State.writeError_of_readOnly (regsAt_cus_readOnly h), hb]

/-- No master writes the MRAM through its window. -/
theorem State.busWrite_mram (s : State) (m : Master) {a : Nat} (h : 0x90000000 ≤ a ∧ a < 0x90800000) (n w : Nat) :
    s.busWrite m a n w = (s, false) := by
  simp [State.busWrite, memClass_mram h, State.memWritable]

/-- The registers of the record that take writes are the custody core's alone. -/
theorem State.busAllowed_umb_write (s : State) {m : Master} {a : Nat} (hm : m ≠ .cust)
    (h : 0x40300040 ≤ a ∧ a < 0x40300080) : s.busAllowed m a true = false := by
  have hpage : a / 0x10000 = 0x4030 := by omega
  have hofs : ¬ a % 0x10000 < 0x40 := by omega
  simp [State.busAllowed, hpage, hofs, hm]

/-! ### Reads that the bus lets through -/

/-- A loop DSP's windows show it the MRAM and the record's read registers (R141). -/
theorem dspWindow_read {a : Nat} (d : Fin 16)
    (h : (0x90000000 ≤ a ∧ a < 0x90700000) ∨ (0x40300000 ≤ a ∧ a < 0x40300040)) : dspWindow d.val a false = true := by
  have hclu : ¬(0x50000000 + d.val * 0x100000 ≤ a ∧ a < 0x50000000 + (d.val + 1) * 0x100000) := by omega
  have hown : ¬(0x60000000 + d.val * 0x40000 ≤ a ∧ a < 0x60000000 + d.val * 0x40000 + 0x100) := by omega
  have hnav : ¬(0x80000000 ≤ a ∧ a < 0x80400000) := by omega
  simp only [dspWindow, if_neg hclu, if_neg hown, if_neg hnav, Bool.not_false, Bool.true_and, Bool.or_eq_true,
    Bool.and_eq_true, decide_eq_true_eq]
  omega

/-- On the MRAM below what R343 takes out, and on the record's read registers, no rule of the map stops a read: a loop DSP's
windows or the navigation core's own protection decide. -/
theorem State.busAllowed_open_read (s : State) {a : Nat}
    (h : (0x90000000 ≤ a ∧ a < 0x90700000) ∨ (0x40300000 ≤ a ∧ a < 0x40300040)) :
    (∀ d, s.busAllowed (.ldsp d) a false = dspWindow d.val a false) ∧
      s.busAllowed .nav a false = (s.nav.boot.fault .load a).isNone := by
  rcases h with hmram | humb
  · have hblock : a / 0x10000 ≠ 0x4002 ∧ a / 0x10000 ≠ 0x4004 ∧ a / 0x10000 ≠ 0x4008 ∧ a / 0x10000 ≠ 0x4030 ∧
        a / 0x10000 ≠ 0x4032 := by omega
    have hclosed : ¬(0x9070 ≤ a / 0x10000 ∧ a / 0x10000 < 0x9080) := by omega
    have hbus : ¬0x10000 ≤ a / 0x10000 := by omega
    simp [State.busAllowed, hblock, hclosed, hbus]
  · have hpage : a / 0x10000 = 0x4030 := by omega
    have hofs : a % 0x10000 < 0x40 := by omega
    simp [State.busAllowed, hpage, hofs]

/-- Settles O55: a write meets registers without a writable field, a window that takes no write, or registers that are the
custody core's alone; a read is a matter of the loop DSP's windows and of the navigation core's own protection. -/
theorem writePaths : Obligations.WritePaths := by
  intro m a size w s hm
  have hcust : m ≠ .cust := by rintro rfl; simp at hm
  constructor
  · intro h
    refine congrArg _ (State.busDo_refused ?_)
    rcases h with hcus | hmram | humb
    · exact s.busWrite_cus m hcus _ _
    · exact s.busWrite_mram m hmram _ _
    · exact State.busWrite_of_not_allowed (s.busAllowed_umb_write hcust humb) _ _
  · intro h hpmp
    obtain ⟨hdsp, hnav⟩ := s.busAllowed_open_read h
    rcases hm with rfl | ⟨d, rfl⟩
    · rw [hnav, hpmp rfl]; rfl
    · rw [hdsp, dspWindow_read d h]

end Sys2Proof.Machine

/-! SUPPORT. Sample links and front-end buses (ch. 2): what each of their operations comes to, case by case, and the
statements about them (O1, O2, O3). -/

namespace Sys2Proof.Machine

/-! ### The registers of links and front-end buses -/

/-- The register blocks below the event lines' schedule hold no memory. -/
theorem memClass_blocks {a : Nat} (h : 0x40000000 ≤ a ∧ a < 0x40210000) : memClass a = none := by
  unfold memClass
  repeat rw [if_neg (by omega)]

/-- The always-on domain has no register in the blocks of the links and front-end buses. -/
theorem rtcLateReg_link_fec {a : Nat} (h : 0x40050000 ≤ a ∧ a < 0x40070000) : rtcLateReg a = false := by
  simp only [rtcLateReg, Bool.or_eq_false_iff, beq_eq_false_iff_ne]
  omega

/-- A write that is accepted, to a register of a link or of a front-end bus that does `f` beside. -/
theorem Writes.of_link_fec_hook {c : Instr} {m : Master} {a : Nat} {w : Word} {s : State} {f : State → State}
    (ha : 0x40050000 ≤ a ∧ a < 0x40070000) (h4 : a % 4 = 0) (he : exec c s = .next (s.busDo m a 4 w.toNat))
    (hk : ∀ t, regHook a w.toNat [] s t = f t) : Writes c m a w s f :=
  Writes.of_hook he (memClass_blocks (by omega)) h4 (by omega) (rtcLateReg_link_fec ha) hk

theorem slkCfg_addr (n : Nat) : (SLK_CFG_EN n).addr = 0x40050000 + 0x100 * n := by simp [SLK_CFG_EN, Nat.mul_comm]

theorem slkGbase_addr (n : Nat) : (SLK_GBASE_BASE n).addr = 0x40050028 + 0x100 * n := by
  simp only [SLK_GBASE_BASE]; omega

theorem fecSeq_addr (b : Nat) : (FEC_SEQ_GO b).addr = 0x40060008 + 0x100 * b := by
  simp only [FEC_SEQ_GO]; omega

/-- A write of `SLK_CFG` that is accepted acts by the change of `EN` (R41). -/
theorem exec_slkEnable_taken {m : Master} {n : Fin 8} {w : Word} {eyes : List (Option (Fin 64))} {s : State}
    (h : writeTaken s m (0x40050000 + 0x100 * n.val) w.toNat = true) : exec (.slkEnable m n w eyes) s =
      .next ((written s m (0x40050000 + 0x100 * n.val) w.toNat).slkCfg n (s.on (SLK_CFG_EN n)) eyes).dspSteps := by
  rw [← regHook_slkCfg n w.toNat eyes,
    ← State.busDo_taken h (memClass_blocks (by omega)) (by omega) (by omega) (rtcLateReg_link_fec (by omega)), ← slkCfg_addr]
  rfl

/-! ### Control words (R40, R42, R45) -/

section ControlWord
variable {s : State} {n w : Nat}

theorem State.linkGain_eq (s : State) (n g : Nat) : s.linkGain n g =
    if (s.link n).cfg.agcm = 1 ∧ s.on SUP_STAT_BRACE = false then s.set (SLK_AGC_GAIN n) g else s := by
  simp [State.linkGain]

/-- A control word counted, before it is judged. -/
def State.wordCounted (s : State) (n : Nat) : State := s.setLink n { s.link n with words := (s.link n).words + 1 }

/-- The `OVF` bit of a control word that passed its check: it marks the captures and raises the fault. -/
def State.wordOvf (s : State) (n w : Nat) : State :=
  if bit w 23 then ((s.setLink n { s.link n with ovfSeen := true }).snapMark n SNP_HSTAT_OVF).linkFault n 5 else s

variable (hlive : s.linkLive n = true) (hal : (s.link n).aligned = true)
include hlive hal

theorem State.linkWord_failed (hc : crc8 (beBytes 2 (w / 256)) ≠ w % 256) :
    s.linkWord n w = (s.wordCounted n).linkBadWord n := by
  simp [State.linkWord, hlive, hal, hc, State.wordCounted]

variable (hc : crc8 (beBytes 2 (w / 256)) = w % 256)
include hc

theorem State.linkWord_reserved (ht : 4 ≤ bits w 22 20) :
    s.linkWord n w = (s.wordCounted n).incSat (SLK_CTRLERR_COUNT n) := by
  simp [State.linkWord, hlive, hal, hc, ht, State.wordCounted]

theorem State.linkWord_gain (ht : bits w 22 20 = 1) :
    s.linkWord n w = ((s.wordCounted n).wordOvf n w).linkGain n (bits w 15 8) := by
  simp [State.linkWord, hlive, hal, hc, ht, State.wordCounted, State.wordOvf]

theorem State.linkWord_status (ht : bits w 22 20 = 2) : s.linkWord n w =
    if bit w 9 then ((s.wordCounted n).wordOvf n w).linkFault n 8 else (s.wordCounted n).wordOvf n w := by
  simp [State.linkWord, hlive, hal, hc, ht, State.wordCounted, State.wordOvf]

/-- `IDLE` and `TEMP` words do nothing beside their `OVF`. -/
theorem State.linkWord_idle_temp (ht : bits w 22 20 = 0 ∨ bits w 22 20 = 3) :
    s.linkWord n w = (s.wordCounted n).wordOvf n w := by
  rcases ht with ht | ht <;> simp [State.linkWord, hlive, hal, hc, ht, State.wordCounted, State.wordOvf]

end ControlWord

/-- Settles O1: writes by what their register sets in motion, control words by check and type. What a marker does on a live
link is stated update by update, as `State.linkMarker` has it: its chain of states is compared unexpanded (`-zeta`). -/
theorem linkWords : Obligations.LinkWords := by
  intro m n w cw sub gap eyes s
  refine ⟨exec_slkEnable_taken, ?gbase, fun hlive => ?marker, fun hlive hal => ⟨?failed, ?reserved, ?typed⟩⟩
  case gbase =>
    exact Writes.of_link_fec_hook (by omega) (by omega) (by rw [← slkGbase_addr]; rfl) (regHook_slkBase n w.toNat [] s)
  case marker =>
    change Host.Outcome.next (s.linkMarker n sub gap eyes) = _
    simp -zeta only [State.linkMarker, hlive, Bool.not_true, Bool.false_eq_true, if_false]
  case failed => exact fun hc => congrArg _ (State.linkWord_failed hlive hal hc)
  case reserved => exact fun hc ht => congrArg _ (State.linkWord_reserved hlive hal hc ht)
  case typed =>
    intro hc _
    refine ⟨fun ht => ?_, fun ht => congrArg _ (State.linkWord_status hlive hal hc ht),
      fun ht => congrArg _ (State.linkWord_idle_temp hlive hal hc ht)⟩
    exact congrArg _ ((State.linkWord_gain hlive hal hc ht).trans (State.linkGain_eq _ _ _))

/-! ### Link faults, episodes, gain (R42, R44, R45, R47) -/

section LinkFaults
variable {s : State} {n : Nat} {eyes : List (Option (Fin 64))}

theorem State.linkClk_live (h : s.linkLive n = true) : s.linkClk n = (s.linkFault n 0).set (SLK_STAT_UP n) 0 := if_pos h

theorem State.linkMark_live (h : s.linkLive n = true) :
    s.linkMark n = (s.linkFault n 3).setLink n { (s.linkFault n 3).link n with aligned := false } := if_pos h

theorem State.linkStuck_used {lane : Nat} (h : s.linkLive n = true) (hu : laneUsed (s.link n).cfg.code lane = true) :
    s.linkStuck n lane = (s.linkFault n 6).setLink n
      { (s.linkFault n 6).link n with stuck := ((s.linkFault n 6).link n).stuck ||| 2 ^ lane } := if_pos ⟨h, hu⟩

theorem State.linkSlip_live {k : Nat} (h : s.linkLive n = true) :
    s.linkSlip n k = (s.linkFault n 2).incSat (SLK_SUBCNT_COUNT n) k := if_pos h

theorem State.linkClkReturn_lost (h : s.linkLive n = true) (hf : bit (s.get (SLK_STAT_FAULTS n)) 0 = true) :
    s.linkClkReturn n eyes = (s.linkStart n).linkTrain n eyes := if_pos ⟨h, hf⟩

/-- An episode that has been free of faults for 1 s ends with one umber entry. -/
theorem State.linkEpisodeEnd_due (he : (s.link n).episode = true) (hf : s.get (SLK_STAT_FAULTS n) = 0)
    (hr : s.reached (s.link n).freeAt 1000000000 = true) : s.linkEpisodeEnd n =
      (s.setLink n { s.link n with episode := false, seen := 0 }).note 0x0401 0x0C 2
        (n * 2 ^ 77 + (s.link n).seen * 2 ^ 68 +
          min (((s.link n).freeAt - (s.link n).epAt) / 1000000) (2 ^ 32 - 1)) :=
  if_neg (by simp [he, hf, hr])

/-- The comparison of the gain step is made: PART mode, 16 epochs summed, no BRACE. -/
theorem State.linkAgc_not_skipped (hm : (s.link n).cfg.agcm = 2) (hn : 16 ≤ (s.link n).upfrN)
    (hb : s.on SUP_STAT_BRACE = false) :
    ¬((s.link n).cfg.agcm ≠ 2 ∨ (s.link n).upfrN < 16 ∨ s.on SUP_STAT_BRACE) := by
  simp [hm, hb, Nat.not_lt.mpr hn]

theorem State.linkLearned_done (h : 600000 ≤ (s.link n).learnMs) : s.linkLearned n = s.set (SLK_GBASE_VALID n) 1 := if_pos h

end LinkFaults

/-- Settles O2: each event in the case where it acts. -/
theorem linkFaults : Obligations.LinkFaults := by
  intro n lane slipped eyes s
  refine ⟨fun hlive => ?live, rfl, fun he hf hr => congrArg _ (State.linkEpisodeEnd_due he hf hr),
    fun hm hn hb => congrArg _ (if_neg (State.linkAgc_not_skipped hm hn hb)),
    fun h => congrArg _ (State.linkLearned_done h)⟩
  case live =>
    exact ⟨congrArg _ (State.linkClk_live hlive), congrArg _ (State.linkMark_live hlive),
      fun hu => congrArg _ (State.linkStuck_used hlive hu), congrArg _ (State.linkSlip_live hlive),
      fun hf => congrArg _ (State.linkClkReturn_lost hlive hf)⟩

/-! ### Slots of a front-end bus (R48, R51) -/

/-- A bus sends under `EN`, outside BRACE, with the reference present and more than the minimum service set at work. -/
theorem State.fecOn_eq_true {s : State} {b : Nat} : s.fecOn b = true ↔
    s.on (FEC_CFG_EN b) = true ∧ s.on SUP_STAT_BRACE = false ∧ s.itg.below = false ∧ s.itg.minSet = false := by
  simp [State.fecOn, State.serves, and_assoc]

theorem State.fecOn_eq_false {s : State} {b : Nat} : s.fecOn b = false ↔
    s.on (FEC_CFG_EN b) = false ∨ s.on SUP_STAT_BRACE = true ∨ s.itg.below = true ∨ s.itg.minSet = true := by
  simp only [State.fecOn, State.serves, Bool.and_eq_false_iff, Bool.not_eq_false', or_assoc]

/-- The gain writes that a slot begins with. -/
def State.fecGains (s : State) (b : Nat) : State := (s.fecGain b 0).fecGain b 1

section Slot
variable {s : State} {b : Nat}

theorem State.fecSlot_off (h : s.fecOn b = false) : s.fecSlot b = s := by simp [State.fecSlot, h]

variable (hon : s.fecOn b = true)
include hon

/-- No sequence starts while one runs or the bus is held. -/
theorem State.fecSlot_taken (h : ((s.fecGains b).fec b).running.isSome = true ∨ ((s.fecGains b).fec b).hold = true) :
    s.fecSlot b = s.fecGains b := by
  unfold State.fecGains at h
  simp [State.fecSlot, hon, h, State.fecGains]

variable (hrun : ((s.fecGains b).fec b).running = none) (hhold : ((s.fecGains b).fec b).hold = false)
include hrun hhold

theorem State.fecSlot_wake (hw : ((s.fecGains b).fec b).pendWake = true) : s.fecSlot b =
    ((s.fecGains b).setFec b { (s.fecGains b).fec b with pendWake := false }).fecStart b .wake
      ((s.fecGains b).get (FEC_PWR_WAKE b)) := by
  unfold State.fecGains at *
  simp [State.fecSlot, hon, hrun, hhold, hw]

variable (hw : ((s.fecGains b).fec b).pendWake = false)
include hw

theorem State.fecSlot_sleep (hs : ((s.fecGains b).fec b).pendSlp = true) : s.fecSlot b =
    ((s.fecGains b).setFec b { (s.fecGains b).fec b with pendSlp := false }).fecStart b .sleep
      ((s.fecGains b).get (FEC_PWR_SLEEP b)) := by
  unfold State.fecGains at *
  simp [State.fecSlot, hon, hrun, hhold, hw, hs]

variable (hs : ((s.fecGains b).fec b).pendSlp = false)
include hs

theorem State.fecSlot_go {i : Nat} (hg : ((s.fecGains b).fec b).pendGo = some i) : s.fecSlot b =
    ((s.fecGains b).setFec b { (s.fecGains b).fec b with pendGo := none }).fecStart b .go i := by
  unfold State.fecGains at *
  simp [State.fecSlot, hon, hrun, hhold, hw, hs, hg]

theorem State.fecSlot_cal (hg : ((s.fecGains b).fec b).pendGo = none) : s.fecSlot b =
    if ((s.fecGains b).fec b).pendCal then
      ((s.fecGains b).setFec b { (s.fecGains b).fec b with pendCal := false }).fecStart b .cal
        ((s.fecGains b).get (FEC_CAL_START b))
    else s.fecGains b := by
  unfold State.fecGains at *
  simp [State.fecSlot, hon, hrun, hhold, hw, hs, hg]

end Slot

theorem State.fecCal_on {s : State} {b : Nat} (h : s.on (FEC_CAL_EN b) = true) :
    s.fecCal b = s.setFec b { s.fec b with pendCal := true } := if_pos h

theorem State.fecCal_off {s : State} {b : Nat} (h : s.on (FEC_CAL_EN b) = false) : s.fecCal b = s := by
  simp [State.fecCal, h]

/-! ### Entries of a sequence (R49) -/

/-- The commands of the four kinds of table entry. -/
def fecEntries (b : Fin 4) (us : Nat) (rx : BitVec 24) : List Instr :=
  [.fecWrite b us rx, .fecCheck b us rx, .fecWait b us, .fecEnd b us]

/-- What holds of the entry at `PC` whichever kind it is asked to be, holds of all four commands. -/
theorem exec_fecEntries {b : Fin 4} {us : Nat} {s t : State} (h : ∀ op act, s.fecStep b us op act = t) (rx : BitVec 24) :
    ∀ c ∈ fecEntries b us rx, exec c s = .next t := by
  simp only [fecEntries, List.forall_mem_cons]
  exact ⟨congrArg _ (h _ _), congrArg _ (h _ _), congrArg _ (h _ _), congrArg _ (h _ _), by simp⟩

section Entry
variable {s : State} {b us op : Nat} {act : Nat → State → State}

theorem State.fecStep_off (h : s.fecOn b = false) : s.fecStep b us op act = s := if_pos (by simp [h])

/-- No entry runs without a sequence, while one waits, or while the bus is held. -/
theorem State.fecStep_idle (h : (s.fec b).running = none ∨ (s.fec b).waiting = true ∨ (s.fec b).hold = true) :
    s.fecStep b us op act = s := by
  refine if_pos ?_
  rcases h with h | h | h <;> simp [h]

/-- An entry can run now: the bus sends, its sequence runs, and neither a wait nor a hold stops it. -/
def State.FecRuns (s : State) (b : Nat) : Prop :=
  s.fecOn b = true ∧ (s.fec b).running ≠ none ∧ (s.fec b).waiting = false ∧ (s.fec b).hold = false

theorem State.FecRuns.not_stopped (h : s.FecRuns b) :
    ¬((s.fec b).running.isNone ∨ (s.fec b).waiting ∨ (s.fec b).hold ∨ !s.fecOn b) := by
  obtain ⟨hon, hrun, hwait, hhold⟩ := h
  simp [hon, hrun, hwait, hhold]

variable (hr : s.FecRuns b)
include hr

theorem State.fecStep_late (h : 900 < us) : s.fecStep b us op act = s.set (FEC_STAT_DEFER b) 1 :=
  (if_neg hr.not_stopped).trans (if_pos h)

variable (hus : us ≤ 900)
include hus

theorem State.fecStep_unread {t : State} (h : s.fecEntry b (s.get (FEC_SEQ_PC b)) = (t, none)) :
    s.fecStep b us op act = t.fecFail b false := by
  rw [State.fecStep, if_neg hr.not_stopped, if_neg (Nat.not_lt.mpr hus), h]

variable {t : State} {v : Nat} (hv : s.fecEntry b (s.get (FEC_SEQ_PC b)) = (t, some v))
include hv

theorem State.fecStep_reserved (h : 4 ≤ bits v 31 29) : s.fecStep b us op act = t.fecFail b false := by
  rw [State.fecStep, if_neg hr.not_stopped, if_neg (Nat.not_lt.mpr hus), hv]
  exact if_pos h

/-- An entry of the operation asked for acts on the state that its reading left. -/
theorem State.fecStep_acts (h : bits v 31 29 = op) (h4 : op < 4) : s.fecStep b us op act = act v t := by
  rw [State.fecStep, if_neg hr.not_stopped, if_neg (Nat.not_lt.mpr hus), hv]
  exact (if_neg (by omega)).trans (if_pos h)

end Entry

section Check
variable {s t : State} {b rx w : Nat}

/-- The mask and value of a `CHECK` cannot be read. -/
theorem fecActCheck_unread
    (h : (s.fecFrame b w rx).fecEntry b ((s.fecFrame b w rx).get (FEC_SEQ_PC b) + 1) = (t, none)) :
    fecActCheck b rx w s = t.fecFail b false := by
  rw [fecActCheck, h]

/-- The received frame agrees under the mask, or the sequence stops with `CHKFAIL`. -/
theorem fecActCheck_read {e : Nat}
    (h : (s.fecFrame b w rx).fecEntry b ((s.fecFrame b w rx).get (FEC_SEQ_PC b) + 1) = (t, some e)) :
    fecActCheck b rx w s =
      if (t.get (FEC_RDATA_DATA b) &&& bits e 31 16) = (bits e 15 0 &&& bits e 31 16) then t.inc (FEC_SEQ_PC b) 2
      else t.fecFail b true := by
  rw [fecActCheck, h]
  rfl

end Check

theorem State.fecWaitEnd_over {s : State} {b : Nat} (hw : (s.fec b).waiting = true)
    (hr : s.reached (s.fec b).waitTill 0 = true) :
    s.fecWaitEnd b = (s.setFec b { s.fec b with waiting := false }).inc (FEC_SEQ_PC b) 1 := by
  simp [State.fecWaitEnd, hw, hr, State.fecNext]

theorem State.fecWaitEnd_not_over {s : State} {b : Nat}
    (h : (s.fec b).waiting = false ∨ s.reached (s.fec b).waitTill 0 = false) : s.fecWaitEnd b = s := by
  rcases h with h | h <;> simp [State.fecWaitEnd, h]

/-- A sequence that stops shows its cause, its place and one umber entry. -/
theorem State.fecFail_eq (s : State) (b : Nat) (chk : Bool) : s.fecFail b chk =
    let pc := s.get (FEC_SEQ_PC b)
    let t := (s.set (FEC_STAT_FAILPC b) pc).set (if chk then FEC_STAT_CHKFAIL b else FEC_STAT_OPERR b) 1
    ((t.setFec b { t.fec b with running := none, waiting := false }).set (FEC_SEQ_BUSY b) 0).note
      0x0402 0x0C 2 (b * 2 ^ 78 + b2n chk * 2 ^ 77 + b2n (!chk) * 2 ^ 76 + pc) := by
  cases chk <;> rfl

/-- Settles O3: the writes and timers of a bus, its slot by what is pending, its entries by what is read at `PC`. -/
theorem frontEndBus : Obligations.FrontEndBus := by
  intro m b w us rx s
  refine ⟨?go, fun h => congrArg _ (State.fecCal_on h), fun h => congrArg _ (State.fecCal_off h), fun h => ?off,
    fun h => exec_fecEntries (fun _ _ => State.fecStep_idle h) rx,
    fun hen hbr hbe hmin => ⟨?slot, fun hrun hwait hhold => ?entries⟩,
    fun hw hr => congrArg _ (State.fecWaitEnd_over hw hr), fun h => congrArg _ (State.fecWaitEnd_not_over h),
    fun chk => State.fecFail_eq s b chk⟩
  case go =>
    exact Writes.of_link_fec_hook (by omega) (by omega) (by rw [← fecSeq_addr]; rfl) (regHook_fecSeq b w.toNat [] s)
  case off =>
    have hoff := State.fecOn_eq_false.mpr h
    exact ⟨congrArg _ (State.fecSlot_off hoff), exec_fecEntries (fun _ _ => State.fecStep_off hoff) rx⟩
  case slot =>
    have hon := State.fecOn_eq_true.mpr ⟨hen, hbr, hbe, hmin⟩
    refine ⟨fun h => congrArg _ (State.fecSlot_taken hon h), fun hrun hhold => ⟨?_, ?_, ?_, ?_⟩⟩
    · exact fun hw => congrArg _ (State.fecSlot_wake hon hrun hhold hw)
    · exact fun hw hs => congrArg _ (State.fecSlot_sleep hon hrun hhold hw hs)
    · exact fun hw hs i hg => congrArg _ (State.fecSlot_go hon hrun hhold hw hs hg)
    · exact fun hw hs hg => congrArg _ (State.fecSlot_cal hon hrun hhold hw hs hg)
  case entries =>
    have hr : s.FecRuns b := ⟨State.fecOn_eq_true.mpr ⟨hen, hbr, hbe, hmin⟩, hrun, hwait, hhold⟩
    refine ⟨fun h => exec_fecEntries (fun _ _ => State.fecStep_late hr h) rx, fun hus => ⟨fun h => ?_, fun v hv => ?_⟩⟩
    · exact exec_fecEntries (fun _ _ => State.fecStep_unread hr hus (Prod.ext rfl h)) rx
    · have hread : s.fecEntry b (s.get (FEC_SEQ_PC b)) = (_, some v) := Prod.ext rfl hv
      refine ⟨fun h => exec_fecEntries (fun _ _ => State.fecStep_reserved hr hus hread h) rx, fun h => ?write,
        fun h => ⟨fun hq => ?unread, fun e he => ?check⟩, fun h => ?wait, fun h => ?stop⟩
      case unread =>
        exact congrArg _ ((State.fecStep_acts hr hus hread h (by decide)).trans (fecActCheck_unread (Prod.ext rfl hq)))
      case check =>
        exact congrArg _ ((State.fecStep_acts hr hus hread h (by decide)).trans (fecActCheck_read (Prod.ext rfl he)))
      all_goals exact congrArg _ (State.fecStep_acts hr hus hread h (by decide))

end Sys2Proof.Machine

/-! SUPPORT. Channel engines (ch. 3): what a write to an engine or a cluster sets in motion, what a dwell's instruction does
where it stands, and what samples, boundaries and records come to, with the statements about them (O4, O5, O6, O7, O8). -/

namespace Sys2Proof.Machine

/-! ### The registers of engines and clusters -/

/-- The pages of a cluster's and of its engines' registers hold no memory. -/
theorem memClass_cluster_regs {a : Nat} (h : 0x50000000 ≤ a ∧ a < 0x51000000) (ho : a % 0x100000 < 0x20000) :
    memClass a = none := by
  unfold memClass
  rw [if_pos h]
  exact if_neg (by omega)

/-- The always-on domain has no register in the clusters. -/
theorem rtcLateReg_cluster {a : Nat} (h : 0x50000000 ≤ a) : rtcLateReg a = false := by
  simp only [rtcLateReg, Bool.or_eq_false_iff, beq_eq_false_iff_ne]
  omega

/-- A write that is accepted, to a register of a cluster or of one of its engines that does `f` beside. -/
theorem Writes.of_cluster_hook {c : Instr} {m : Master} {a : Nat} {w : Word} {s : State} {f : State → State}
    (ha : 0x50000000 ≤ a ∧ a < 0x51000000) (ho : a % 0x100000 < 0x20000) (h4 : a % 4 = 0)
    (he : exec c s = .next (s.busDo m a 4 w.toNat)) (hk : ∀ t, regHook a w.toNat [] s t = f t) : Writes c m a w s f :=
  Writes.of_hook he (memClass_cluster_regs ha ho) h4 (by omega) (rtcLateReg_cluster ha.1) hk

/-- A write that is accepted, to an engine's register at the offset `o` that does `f` beside. -/
theorem Writes.of_engine_hook {c : Instr} {m : Master} {e : Fin 1024} {o a : Nat} {w : Word} {s : State}
    {f : State → State} (ha : a = 0x50010000 + e.val / 64 * 0x100000 + e.val % 64 * 0x400 + o)
    (he : exec c s = .next (s.busDo m a 4 w.toNat)) (hk : ∀ t, regHook (engAddr e o) w.toNat [] s t = f t)
    (ho : o < 0x400 := by decide) (h4 : o % 4 = 0 := by decide) : Writes c m (engAddr e o) w s f := by
  have haddr : a = engAddr e o := by unfold engAddr; omega
  exact Writes.of_cluster_hook (by omega) (by omega) (by omega) (haddr ▸ he) hk

/-- A write that is accepted, to a cluster's register at the offset `o`, in cluster 0 at `b`, that does `f` beside. -/
theorem Writes.of_cluster_reg_hook {i : Instr} {m : Master} {c : Fin 16} {b o a : Nat} {w : Word} {s : State}
    {f : State → State} (ha : a = 0x50000000 + c.val * 0x100000 + o) (hb : b = 0x50000000 + o)
    (he : exec i s = .next (s.busDo m a 4 w.toNat)) (hk : ∀ t, regHook (b + 0x100000 * c.val) w.toNat [] s t = f t)
    (ho : o < 0x10000 := by decide) (h4 : o % 4 = 0 := by decide) : Writes i m (b + 0x100000 * c.val) w s f := by
  have haddr : a = b + 0x100000 * c.val := by omega
  exact Writes.of_cluster_hook (by omega) (by omega) (by omega) (haddr ▸ he) hk

/-! ### Tokens (R68, R439) -/

/-- A cluster's free tokens and those that one of its engines holds. -/
def State.books (s : State) (c e : Nat) : Nat :=
  s.get (CLU_TOK_FREE c) + (s.eng e).queue.length + b2n (s.eng e).run.isSome

theorem State.books_eq (s : State) (c e : Nat) : s.books c e = s.get (CLU_TOK_FREE c) + (s.eng e).tokens := Nat.add_assoc ..

theorem Field.key_ne {f g : Field} (hf : f.lo < 32) (hg : g.lo < 32) (h : f.addr ≠ g.addr) : f.key ≠ g.key := by
  unfold Field.key; omega

/-- A field of an engine's `ENG_STAT` keeps its place apart from every cluster's `CLU_TOK`. -/
theorem State.set_engStat_tokFree (s : State) {f : Field} {e : Nat} (c v : Nat) (hlo : f.lo < 32)
    (h : f.addr = (ENG_STAT_RUN e).addr) : (s.set f v).get (CLU_TOK_FREE c) = s.get (CLU_TOK_FREE c) := by
  refine State.set_get_ne s v (Field.key_ne hlo (by decide : 0 < 32) ?_)
  simp only [h, ENG_STAT_RUN, CLU_TOK_FREE]
  omega

theorem State.set_notok_tokFree (s : State) (c v : Nat) :
    (s.set (CLU_STAT_NOTOK c) v).get (CLU_TOK_FREE c) = s.get (CLU_TOK_FREE c) := by
  refine State.set_get_ne s v (Field.key_ne (by decide : 4 < 32) (by decide : 0 < 32) ?_)
  simp only [CLU_STAT_NOTOK, CLU_TOK_FREE]
  omega

theorem State.engPut_tokFree (s : State) (c e : Nat) (x : EngSt) :
    (s.engPut e x).get (CLU_TOK_FREE c) = s.get (CLU_TOK_FREE c) := by
  simp only [State.engPut, State.setB]
  rw [State.set_engStat_tokFree (f := ENG_STAT_PEND e) _ _ _ (by decide : 24 < 32) rfl,
    State.set_engStat_tokFree (f := ENG_STAT_QDEPTH e) _ _ _ (by decide : 25 < 32) rfl,
    State.set_engStat_tokFree (f := ENG_STAT_RUN e) _ _ _ (by decide : 28 < 32) rfl]
  rfl

@[simp] theorem State.engPut_eng (s : State) (e : Nat) (x : EngSt) : (s.engPut e x).eng e = x := State.setEng_eng s e x

theorem State.books_engPut (s : State) (c e : Nat) (x : EngSt) :
    (s.engPut e x).books c e = s.get (CLU_TOK_FREE c) + x.tokens := by
  rw [State.books_eq, State.engPut_tokFree, State.engPut_eng]

/-- A flag of `ENG_STAT` raised moves no token. -/
theorem State.books_set_engStat (s : State) {f : Field} {e : Nat} (c v : Nat) (hlo : f.lo < 32)
    (h : f.addr = (ENG_STAT_RUN e).addr) : (s.set f v).books c e = s.books c e := by
  rw [State.books_eq, State.books_eq, State.set_engStat_tokFree s c v hlo h]
  rfl

theorem State.books_set_notok (s : State) (c e v : Nat) : (s.set (CLU_STAT_NOTOK c) v).books c e = s.books c e := by
  rw [State.books_eq, State.books_eq, State.set_notok_tokFree]
  rfl

/-- A write of `ENG_DWQ` moves a token from the pool to the engine, or moves none. -/
theorem State.books_engQueue {s : State} {e : Nat} (hs : regsRise s = true) (h : s.books (e / 64) e ≤ 256) (start : Nat) :
    (s.engQueue e start).books (e / 64) e = s.books (e / 64) e := by
  unfold State.engQueue
  dsimp only
  split
  · exact s.books_set_engStat _ _ (by decide : 8 < 32) rfl
  split
  · exact s.books_set_engStat _ _ (by decide : 5 < 32) rfl
  split
  · rw [State.books_set_notok]
    exact s.books_set_engStat _ _ (by decide : 5 < 32) rfl
  next hfree =>
    split
    · exact s.books_set_engStat _ _ (by decide : 5 < 32) rfl
    · have hget : (s.dec (CLU_TOK_FREE (e / 64))).get (CLU_TOK_FREE (e / 64)) =
          (s.get (CLU_TOK_FREE (e / 64)) - 1) % 2 ^ 9 := State.set_get s _ _ hs
      rw [State.books_engPut, hget]
      simp only [State.books, EngSt.tokens, List.length_append, List.length_singleton] at h ⊢
      omega

/-- `END` gives the running dwell's token back. -/
theorem books_dwellActEnd {s : State} {e : Nat} (hs : regsRise s = true) (h : s.books (e / 64) e ≤ 256)
    (hr : (s.eng e).run.isSome = true) (w : Nat) : (dwellActEnd e w s).books (e / 64) e = s.books (e / 64) e := by
  have hget : (s.tokBack (e / 64) 1).get (CLU_TOK_FREE (e / 64)) = (s.get (CLU_TOK_FREE (e / 64)) + 1) % 2 ^ 9 :=
    State.set_get s _ _ hs
  rw [dwellActEnd, State.books_engPut, hget]
  simp only [State.books, EngSt.tokens, hr, b2n, if_true, Option.isSome_none, Bool.false_eq_true, if_false] at h ⊢
  omega

/-! ### Writes to an engine (R68, R73, R81–R84, R88) -/

/-- Settles O4: each register by what its write sets in motion, and the tokens by the pool and the engine that hold them. -/
theorem engineWrites : Obligations.EngineWrites := by
  intro m e w s
  have hctl : ∀ {i : Instr}, exec i s = .next (s.busDo m (ENG_CTL_CANCEL e).addr 4 w.toNat) →
      Writes i m (engAddr e 0x38) w s (·.engCtl e w.toNat) :=
    fun he => Writes.of_engine_hook rfl he (regHook_engCtl e w.toNat [] s)
  refine ⟨?queue, ?commit, hctl rfl, hctl rfl, hctl rfl, ?mig, fun start hs hle => ⟨?token, fun hr => ?tokenBack⟩⟩
  case queue => exact Writes.of_engine_hook rfl rfl (regHook_engDwq e w.toNat [] s)
  case commit => exact Writes.of_engine_hook rfl rfl (regHook_engTgt e w.toNat [] s)
  case mig =>
    refine Writes.of_engine_hook rfl rfl fun t => ?_
    rw [regHook_engMig]
    simp only [State.migArm, Option.isNone_iff_eq_none]
  case token => exact State.books_engQueue hs (s.books_eq _ _ ▸ hle) start
  case tokenBack => exact books_dwellActEnd hs (s.books_eq _ _ ▸ hle) hr w.toNat

/-! ### Writes to a cluster (R65, R73, R80, R86, R87) -/

/-- Settles O5: each register by what its write sets in motion. -/
theorem clusterWrites : Obligations.ClusterWrites := by
  intro m c w s
  refine ⟨?clock, ?selfTest, ?gang, ?ring, ?release, ?flush, ?gangDwell⟩
  case clock => exact Writes.of_cluster_reg_hook rfl rfl rfl (regHook_cluCtl c w.toNat [] s)
  case selfTest => exact Writes.of_cluster_reg_hook rfl rfl rfl (regHook_cluCtl c w.toNat [] s)
  case gang => exact Writes.of_cluster_reg_hook rfl rfl rfl (regHook_cluGang c w.toNat [] s)
  case ring => exact Writes.of_cluster_reg_hook rfl rfl rfl (regHook_cluRing c w.toNat [] s)
  case release => exact Writes.of_cluster_reg_hook rfl rfl rfl (regHook_cluRp c w.toNat [] s)
  case flush => exact Writes.of_cluster_reg_hook rfl rfl rfl (regHook_cluCtinv c w.toNat [] s)
  case gangDwell => exact Writes.of_cluster_reg_hook rfl rfl rfl (regHook_cluGdwq c w.toNat [] s)

/-! ### Dwell instructions where a dwell stands at them (R70, R71, R79) -/

section Dwell
variable {s : State} {e w : Nat} {r : Run}

theorem State.dwellWord_eq (hclu : s.cluOn (e / 64) = true) (hrun : (s.eng e).run = some r)
    (hw : r.prog[r.pc]? = some w) : s.dwellWord e = some w := by
  simp [State.dwellWord, hclu, hrun, hw]

/-- An instruction of the opcode at which the dwell stands acts. -/
theorem State.dwellExec_acts {op : Nat} (hword : s.dwellWord e = some w) (hop : bits w 31 28 = op)
    (act : Nat → State → State) : s.dwellExec e op act = act w s := by
  simp [State.dwellExec, hword, hop]

/-- With a dwell running, `ACC` is an instruction of it. -/
theorem State.dwellAcc_running (hrun : (s.eng e).run = some r) (ms : List LinkSample) :
    s.dwellAcc e ms = s.dwellExec e 4 (dwellActSpan e true ms) := by
  simp [State.dwellAcc, hrun]

/-- Without a dwell the oscillators take the samples. -/
theorem State.dwellAcc_idle (hclu : s.cluOn (e / 64) = true) (hrun : (s.eng e).run = none) (ms : List LinkSample) :
    s.dwellAcc e ms = s.engCoast e ms := by
  simp [State.dwellAcc, hrun, hclu]

variable (hrun : (s.eng e).run = some r)
include hrun

theorem dwellActSetc_running : dwellActSetc e w s = (s.setEng e { s.eng e with
    run := some (if bit w 27 then { r with ctr1 := bits w 19 0 } else { r with ctr0 := bits w 19 0 }) }).engNext e := by
  simp only [dwellActSetc, hrun]

theorem dwellActLoop_running : dwellActLoop e w s =
    let n := ((if bit w 27 then r.ctr1 else r.ctr0) + (2 ^ 20 - 1)) % 2 ^ 20
    let t := s.setEng e { s.eng e with run := some (if bit w 27 then { r with ctr1 := n } else { r with ctr0 := n }) }
    if n = 0 then t.engNext e else t.engGoto e (bits w 5 0) := by
  simp only [dwellActLoop, hrun]

/-- A span taken up where it stands, or begun: what `spanGo` leaves, its flags shown, then the next instruction, the rest of
the span, or a fault of cause 5. -/
theorem dwellActSpan_running (acc : Bool) (ms : List LinkSample) : dwellActSpan e acc ms w s =
    let y := if acc && r.left.isNone && bit w 25 then (s.eng e).clear else s.eng e
    let z := { y with fl := y.fl &&& 0xEFFF, ncFl := y.ncFl &&& 0xEFFF }
    let o := spanGo (e / 64) acc (bits w 27 26) (s.engStream y ms) (r.left.getD (bits w 19 0)) (r.left.isNone || r.first) s z
    let t := o.s.engSpanFlags e y
      (if o.fault then o.x else { o.x with run := some { r with left := o.left, first := o.first } })
    if o.fault then t.engFault e 5 else if o.left = none then t.engNext e else t := by
  simp only [dwellActSpan, hrun, Option.isNone_iff_eq_none]

end Dwell

/-- Settles O6: each instruction at which the dwell stands acts as its opcode has it. -/
theorem dwellInstructions : Obligations.DwellInstructions := by
  intro e w r s x hclu hrun hw
  have hacts : ∀ {op : Nat} (act : Nat → State → State), bits w 31 28 = op → s.dwellExec e op act = act w s :=
    fun act hop => State.dwellExec_acts (State.dwellWord_eq hclu hrun hw) hop act
  refine ⟨?nop, ?abase, ?aofs, ?asrc, ?ncacc, ?setc, ?loop, ?jmp, ?irq, ?stop⟩
  case setc => exact fun hop => congrArg _ ((hacts _ hop).trans (dwellActSetc_running hrun))
  case loop =>
    intro hop
    change Host.Outcome.next (s.dwellExec e 0xA (dwellActLoop e)) = _
    rw [hacts _ hop, dwellActLoop_running hrun]
  all_goals exact fun hop => congrArg _ (hacts _ hop)

/-! ### Samples (R52–R56, R71) -/

section Samples
variable {c unit left : Nat} {acc first : Bool} {m : Sample} {rest : List Sample} {s : State} {y : EngSt}

/-- A span of epochs ends before the sample of its last boundary. -/
theorem spanGo_last_edge (hedge : unit = 2 ∧ m.epoch = true ∧ first = false) (hleft : left = 1) :
    spanGo c acc unit (m :: rest) left first s y = ⟨s, y, none, false, false⟩ := by
  obtain ⟨hunit, hep, hfirst⟩ := hedge
  simp [spanGo, hunit, hep, hfirst, hleft]

/-- Any other sample is taken, and the span goes on with what is left of it. -/
theorem spanGo_takes {t : State} {v : EngSt} {wrap : Bool}
    (hedge : ¬((unit = 2 ∧ m.epoch = true ∧ first = false) ∧ left = 1))
    (htick : s.engTick c (if acc then y.addSample m else y) = (t, v, wrap, false)) :
    spanGo c acc unit (m :: rest) left first s y =
      let k := left - (if (unit = 2 ∧ m.epoch = true ∧ first = false) ∨ unit = 0 ∨ (unit = 1 ∧ wrap = true) then 1 else 0)
      if k = 0 then ⟨t, v, none, false, false⟩ else spanGo c acc unit rest k false t v := by
  have hno : (unit == 2 && m.epoch && !first && left == 1) = false := by
    simpa [and_assoc] using hedge
  simp [spanGo, hno, htick, b2n, and_assoc, or_assoc]

/-- The code phase moves by the code rate, without a carry. -/
theorem EngSt.advance_no_carry (h : y.cfrac + y.use.crate < 2 ^ 48) : y.advance.1.cfrac = y.cfrac + y.use.crate ∧
    y.advance.1.chip = y.chip := by
  simp only [EngSt.advance, if_pos h, and_self]

/-- The code phase moves by the code rate, with a carry to the next chip of the period. -/
theorem EngSt.advance_carry (h : 2 ^ 48 ≤ y.cfrac + y.use.crate) :
    y.advance.1.cfrac = y.cfrac + y.use.crate - 2 ^ 48 ∧ y.advance.1.chip = (y.chip + 1) % y.ne := by
  simp only [EngSt.advance, if_neg (Nat.not_lt.mpr h), and_self]

/-- The oscillators move the carrier phase, and no accumulator or count. -/
theorem EngSt.advance_keeps (y : EngSt) : y.advance.1.kph = (y.kph + y.use.krate) % 2 ^ 40 ∧
    y.advance.1.accI = y.accI ∧ y.advance.1.accQ = y.accQ ∧ y.advance.1.nsamp = y.nsamp := by
  unfold EngSt.advance
  dsimp only
  split <;> simp

/-- A passing sample moves the phases as `advance` does; the windows that follow change generators alone. -/
theorem State.engTick_phases (s : State) (c : Nat) (y : EngSt) : ∃ a b : Gen, (s.engTick c y).2.1 =
    { y.advance.1 with rpos := y.advance.1.rpos + 1, refill := y.advance.1.refill - 1, genA := a, genB := b } := ⟨_, _, rfl⟩

/-- The flags and counts of a sample before its sums. -/
def EngSt.counted (y : EngSt) (m : Sample) : EngSt :=
  let f := b2n m.linkF * 0x4000 + b2n m.fecw * 0x2000
  { y with nsamp := y.nsamp + 1, ncSamp := y.ncSamp + 1, fl := y.fl ||| f, ncFl := y.ncFl ||| f, fresh := false,
           inFrame := true, ncInFrame := true, inEpoch := true, ncInEpoch := true }

theorem EngSt.addSample_gap (h : m.gap = true ∨ y.refill ≠ 0) : y.addSample m =
    { y.counted m with gapn := y.gapn + 1, ncGap := y.ncGap + 1 } := by
  refine if_pos ?_
  simpa using h

theorem EngSt.addSample_sums (hgap : m.gap = false) (hrefill : y.refill = 0) : y.addSample m =
    (List.range 32).foldl (fun x k => x.addArm (m.i * carrierC (y.kph / 2 ^ 36) + m.q * carrierS (y.kph / 2 ^ 36))
      (m.q * carrierC (y.kph / 2 ^ 36) - m.i * carrierS (y.kph / 2 ^ 36)) k) (y.counted m) := by
  refine if_neg ?_
  simp [hgap, hrefill]

/-- The sums `p` of every arm with arm `k` of `y` added, when it is enabled. -/
def EngSt.armSums (y : EngSt) (yI yQ : Int) (p : Tbl Int × Tbl Int) (k : Nat) : Tbl Int × Tbl Int :=
  let a := tblGet y.arms {} k
  if a.en then
    (tblPut p.1 0 k (satI 24 (tblGet p.1 0 k + y.replica a * yI)), tblPut p.2 0 k (satI 24 (tblGet p.2 0 k + y.replica a * yQ)))
  else p

/-- An engine that differs from `y` in sums and saturation marks only. -/
def EngSt.SameArms (x y : EngSt) : Prop := ∃ i q f g, x = { y with accI := i, accQ := q, fl := f, ncFl := g }

theorem EngSt.SameArms.trans {x z : EngSt} (h : x.SameArms z) (h' : z.SameArms y) : x.SameArms y := by
  obtain ⟨i, q, f, g, rfl⟩ := h
  obtain ⟨i', q', f', g', rfl⟩ := h'
  exact ⟨i, q, f, g, rfl⟩

theorem EngSt.SameArms.armSums {x : EngSt} (h : x.SameArms y) (yI yQ : Int) : x.armSums yI yQ = y.armSums yI yQ := by
  obtain ⟨i, q, f, g, rfl⟩ := h
  rfl

theorem EngSt.addArm_sameArms (x : EngSt) (yI yQ : Int) (k : Nat) : (x.addArm yI yQ k).SameArms x := by
  unfold EngSt.addArm
  dsimp only
  split
  · exact ⟨_, _, _, _, rfl⟩
  · split <;> exact ⟨_, _, _, _, rfl⟩

/-- An arm that is enabled adds to its two sums, whether or not they are held at the end of their range. -/
theorem EngSt.addArm_sums (x : EngSt) (yI yQ : Int) (k : Nat) :
    ((x.addArm yI yQ k).accI, (x.addArm yI yQ k).accQ) = x.armSums yI yQ (x.accI, x.accQ) k := by
  unfold EngSt.addArm EngSt.armSums
  dsimp only [acc24]
  cases (tblGet x.arms {} k).en with
  | false => rfl
  | true =>
    simp only [Bool.not_true, Bool.false_eq_true, if_false, if_true]
    split <;> rfl

/-- Arm after arm, the sums are those that the phases before the sample give. -/
theorem EngSt.foldl_addArm (ks : List Nat) (yI yQ : Int) (x : EngSt) :
    let v := ks.foldl (fun x k => x.addArm yI yQ k) x
    v.SameArms x ∧ (v.accI, v.accQ) = ks.foldl (x.armSums yI yQ) (x.accI, x.accQ) := by
  induction ks generalizing x with
  | nil => exact ⟨⟨_, _, _, _, rfl⟩, rfl⟩
  | cons k ks ih =>
    have hk := x.addArm_sameArms yI yQ k
    obtain ⟨hsame, hsums⟩ := ih (x.addArm yI yQ k)
    refine ⟨hsame.trans hk, ?_⟩
    rw [List.foldl_cons, List.foldl_cons, hsums, x.addArm_sums, hk.armSums]

end Samples

/-- Of a sample that is a gap, or during a refill, only the counts remain. -/
theorem EngSt.addSample_not_summed {y : EngSt} {m : Sample} (h : m.gap = true ∨ y.refill ≠ 0) :
    let v := y.addSample m
    v.accI = y.accI ∧ v.accQ = y.accQ ∧ v.nsamp = y.nsamp + 1 ∧ v.gapn = y.gapn + 1 ∧ v.kph = y.kph ∧ v.chip = y.chip := by
  rw [EngSt.addSample_gap h]
  exact ⟨rfl, rfl, rfl, rfl, rfl, rfl⟩

/-- Any other sample is counted and added, turned by the carrier, to the sums of each enabled arm. -/
theorem EngSt.addSample_summed {y : EngSt} {m : Sample} (hgap : m.gap = false) (hrefill : y.refill = 0) :
    let cs := carrierC (y.kph / 2 ^ 36)
    let sn := carrierS (y.kph / 2 ^ 36)
    let v := y.addSample m
    v.nsamp = y.nsamp + 1 ∧ v.gapn = y.gapn ∧
      (v.accI, v.accQ) = (List.range 32).foldl (y.armSums (m.i * cs + m.q * sn) (m.q * cs - m.i * sn)) (y.accI, y.accQ) := by
  intro cs sn v
  have hv : v = _ := EngSt.addSample_sums hgap hrefill
  obtain ⟨hsame, hsums⟩ := EngSt.foldl_addArm (List.range 32) (m.i * cs + m.q * sn) (m.q * cs - m.i * sn) (y.counted m)
  rw [← hv] at hsame hsums
  obtain ⟨i, q, f, g, hsame⟩ := hsame
  refine ⟨?_, ?_, hsums⟩ <;> rw [hsame] <;> rfl

/-! ### Boundaries (R75–R79, R82, R102) -/

/-- The third boundary waits while two records wait. -/
theorem dwellActDump_waits {s : State} {e : Nat} (h : 2 ≤ (s.eng e).recs.length) (sidx : Nat) (nc : Bool) (w : Nat) :
    dwellActDump e sidx nc w s = s := if_pos h

/-- A boundary with no pending set: `DSEQ` rises, the record is formed, the spans clear when asked. -/
theorem dwellActDump_no_pend {s : State} {e : Nat} (hrecs : (s.eng e).recs.length < 2) (hpend : (s.eng e).pend = none)
    (sidx : Nat) (nc : Bool) (w : Nat) : dwellActDump e sidx nc w s =
      let x := s.eng e
      let dseq := (s.get (ENG_DSEQ_DSEQ e) + 1) % 65536
      let t := s.set (ENG_DSEQ_DSEQ e) dseq
      let b := t.boundaryAt x sidx
      let toMap := nc && (s.clu (e / 64)).gang
      let n := (s.clu (e / 64)).restarts
      let y := if toMap then x
        else { x with recs := x.recs ++ [(bit w 26, x.record e dseq b.1 (bits w 7 0) b.2 (x.firstFlags n) nc)],
                      restarts := n, migd := false }
      let y := if bit w 27 then (if nc then y.clearNc else y.clear) else y
      let t := if toMap then t.mapRecord e x else t.recordDone e
      let t := (t.engPut e y).setEng e { y with atPass := none }
      if (t.eng e).migTo.isSome then t.migHandover e else t.engNext e := by
  refine (if_neg (Nat.not_le.mpr hrecs)).trans ?_
  simp only [hpend, b2n, Bool.false_eq_true, if_false, Nat.zero_mul, Nat.zero_or]
  rfl

/-- Settles O7: samples by whether a dwell takes them, spans and boundaries where the dwell stands at them, and one sample by
the oscillators, the span and the sums. -/
theorem dwellSpans : Obligations.DwellSpans := by
  intro e w sidx ms r s x hclu
  refine ⟨fun hrun => congrArg _ (State.dwellAcc_idle hclu hrun ms), fun hrun hw => ?stands,
    fun c unit left acc first m y => ⟨⟨?lastEdge, ?takes⟩, ?oscillators, EngSt.addSample_not_summed, EngSt.addSample_summed⟩⟩
  case stands =>
    have hword := State.dwellWord_eq hclu hrun hw
    refine ⟨fun acc hop => ?span, fun hop => congrArg _ (State.dwellExec_acts hword hop _),
      fun hop => congrArg _ (State.dwellExec_acts hword hop _), fun h nc => dwellActDump_waits h sidx nc w,
      fun hrecs hpend nc => dwellActDump_no_pend hrecs hpend sidx nc w⟩
    cases acc with
    | true =>
      exact congrArg _ ((State.dwellAcc_running hrun ms).trans
        ((State.dwellExec_acts hword hop _).trans (dwellActSpan_running hrun true ms)))
    | false => exact congrArg _ ((State.dwellExec_acts hword hop _).trans (dwellActSpan_running hrun false ms))
  case lastEdge => exact fun ⟨hedge, hleft⟩ rest => spanGo_last_edge hedge hleft
  case takes => exact fun hedge t v wrap rest htick => spanGo_takes hedge htick
  case oscillators =>
    obtain ⟨a, b, hv⟩ := s.engTick_phases c y
    obtain ⟨hkph, hI, hQ, hn⟩ := y.advance_keeps
    rw [hv]
    exact ⟨hkph, EngSt.advance_no_carry, EngSt.advance_carry, hI, hQ, hn⟩

/-! ### Dwells that start, records, self-test and migration (R69, R80, R84, R86, R88) -/

section Events
variable {s : State} {e : Nat}

theorem State.dwellStart_starts (hrun : (s.eng e).run = none)
    (hst : s.engState e = 1 ∨ s.engState e = 2 ∨ (s.engState e = 3 ∧ (s.eng e).migTo.isSome = true))
    (hclu : s.cluOn (e / 64) = true) : s.dwellStart e = s.engBegin e := by
  refine if_pos ?_
  simpa [hrun, hclu, or_assoc] using hst

/-- The record next in the cluster's order is taken from that order. -/
def State.recordTaken (s : State) (e : Nat) : State :=
  s.setClu (e / 64) { s.clu (e / 64) with done := (s.clu (e / 64)).done.tail }

/-- The oldest record of an engine dropped, with `rest` behind it. -/
def State.recordDropped (s : State) (e : Nat) (rest : List (Bool × List Nat)) : State :=
  ((s.recordTaken e).setEng e { s.eng e with recs := rest, lost := true }).ringDrop (e / 64) 1

/-- The oldest record of an engine, `ws`, written at the write pointer, with `rest` behind it. -/
def State.recordWritten (s : State) (e : Nat) (irq : Bool) (ws : List Nat) (rest : List (Bool × List Nat)) : State :=
  let k := e / 64
  let x := s.eng e
  let wp := s.get (CLU_RING_WP_WP k)
  let t := (s.recordTaken e).setEng e { x with recs := rest, lost := false }
  let t := t.memWriteWords (.cluster k) (cluWord k (t.get (CLU_RING_ADDR k) + wp * 42))
    (if x.lost then ws.take 1 ++ [ws.getD 1 0 ||| 0x400] ++ ws.drop 2 else ws)
  let t := (t.set (CLU_RING_WP_WP k) ((wp + 1) % s.get (CLU_RING_LEN k))).set (CLU_RING_LVL_FILL k)
    (s.get (CLU_RING_LVL_FILL k) + 1)
  let t := t.setClu k { t.clu k with held := (t.clu k).held ++ [e] }
  (if irq then t.set (CLU_IRQ_DUMP k) 1 else t).ringLevel k

/-- A record waits for those before it in its cluster and for the array's power; then a full ring drops it. -/
theorem State.recordToRing_eq {irq : Bool} {ws : List Nat} {rest : List (Bool × List Nat)}
    (hrecs : (s.eng e).recs = (irq, ws) :: rest) : s.recordToRing e =
      if (s.clu (e / 64)).done.head? ≠ some e ∨ s.sup.arrayOff = true then s
      else if s.get (CLU_RING_LEN (e / 64)) ≤ s.get (CLU_RING_LVL_FILL (e / 64)) then s.recordDropped e rest
      else s.recordWritten e irq ws rest := by
  unfold State.recordToRing
  dsimp only
  rw [hrecs]
  rfl

theorem State.bistDone_off {c : Nat} (h : s.sup.arrayOff = true) (failed : List Nat) : s.bistDone c failed = s :=
  if_pos (by simp [h])

theorem State.bistDone_tested {c : Nat} (hbusy : s.on (CLU_CTL_BUSY c) = true) (h : s.sup.arrayOff = false)
    (failed : List Nat) : s.bistDone c failed =
      ((s.eachEng c fun e s =>
        if s.engState e ≠ 4 then s
        else if failed.contains (e % 64) then (s.engEnter e 5).note 0x0502 (0x10 + c) 2 e
        else s.engEnter e 0).set (CLU_CTL_BUSY c) 0).set (CLU_STAT_BISTDONE c) 1 :=
  if_neg (by simp [hbusy, h])

theorem State.migTimeout_target (harm : s.on (ENG_MIG_ARM e) = true)
    (hsrc : (s.eng (s.get (ENG_MIG_FROM e))).migTo = some e) : s.migTimeout e = s.migAbort (s.get (ENG_MIG_FROM e)) :=
  (if_pos harm).trans (if_pos hsrc)

theorem State.migTimeout_source (harm : s.on (ENG_MIG_ARM e) = false) : s.migTimeout e = s.migAbort e :=
  if_neg (by simp [harm])

end Events

/-- Settles O8: each event in the case where it acts, and a record also where it waits. -/
theorem engineEvents : Obligations.EngineEvents := by
  intro e c failed s
  refine ⟨fun hrun hst hclu => congrArg _ (State.dwellStart_starts hrun hst hclu),
    fun irq ws rest hrecs h => congrArg _ ((State.recordToRing_eq hrecs).trans (if_pos h)),
    fun irq ws rest hrecs hhead hpower => ?next,
    fun h => ?unpowered, fun hbusy h => ?tested,
    fun harm hsrc => congrArg _ (State.migTimeout_target harm hsrc), fun harm => congrArg _ (State.migTimeout_source harm)⟩
  case next =>
    have hgoes : s.recordToRing e = _ := (State.recordToRing_eq hrecs).trans (if_neg (by simp [hhead, hpower]))
    exact ⟨fun hfull => congrArg _ (hgoes.trans (if_pos hfull)),
      fun hroom => congrArg _ (hgoes.trans (if_neg (Nat.not_le.mpr hroom)))⟩
  case unpowered =>
    exact congrArg (fun t => Host.Outcome.next (t.repairTested c).attnUpdate) (State.bistDone_off h _)
  case tested =>
    exact congrArg (fun t => Host.Outcome.next (t.repairTested c).attnUpdate) (State.bistDone_tested hbusy h _)

end Sys2Proof.Machine

/-! SUPPORT. Snapshots and acquisition (ch. 4): what writes to handles, to the replay run and to the broadcast image come to,
how a capture triggers and ends, and what a pass does at its first and last sample, with the statements about them (O9, O10,
O11). -/

namespace Sys2Proof.Machine

/-! ### Writes to handles and to the replay run (R95–R98) -/

/-- The always-on domain has no register in the block of the snapshots. -/
theorem rtcLateReg_snap {a : Nat} (h : 0x40070000 ≤ a) : rtcLateReg a = false := by
  simp only [rtcLateReg, Bool.or_eq_false_iff, beq_eq_false_iff_ne]
  omega

/-- A write that is accepted, to a register of the snapshot block that does `f` beside. -/
theorem Writes.of_snap_hook {i : Instr} {m : Master} {a : Nat} {w : Word} {s : State} {f : State → State}
    (ha : 0x40070000 ≤ a ∧ a < 0x40080000) (h4 : a % 4 = 0) (he : exec i s = .next (s.busDo m a 4 w.toNat))
    (hk : ∀ t, regHook a w.toNat [] s t = f t) : Writes i m a w s f :=
  Writes.of_hook he (memClass_blocks (by omega)) h4 (by omega) (rtcLateReg_snap ha.1) hk

theorem snpHcfg_addr (h : Nat) : (SNP_HCFG_ARM h).addr = 0x40070100 + 0x40 * h := by
  simp only [SNP_HCFG_ARM]; omega

/-- A write that is accepted, to the `SNP_HCFG` of a handle. -/
theorem Writes.of_snpHcfg {i : Instr} {m : Master} {h : Fin 8} {w : Word} {s : State} {f : State → State}
    (he : exec i s = .next (s.busDo m (SNP_HCFG_ARM h).addr 4 w.toNat)) (hf : ∀ t, t.snapHcfg s h w.toNat = f t) :
    Writes i m (0x40070100 + 0x40 * h.val) w s f :=
  Writes.of_snap_hook (by omega) (by omega) (snpHcfg_addr h ▸ he) fun t => (regHook_snpHcfg h w.toNat [] s t).trans (hf t)

/-- A write that is accepted, to `SNP_RPL`. -/
theorem Writes.of_snpRpl {i : Instr} {m : Master} {w : Word} {s : State} {f : State → State}
    (he : exec i s = .next (s.busDo m SNP_RPL_GO.addr 4 w.toNat)) (hf : ∀ t, t.replayWrite w.toNat = f t) :
    Writes i m 0x40070010 w s f :=
  Writes.of_snap_hook (by omega) (by omega) he fun t => (regHook_snpRpl w.toNat [] s t).trans (hf t)

section Words
variable {w : Nat}

theorem State.snapHcfg_free (hfree : bit w 30 = true) (t s : State) (h : Nat) : t.snapHcfg s h w = t.snapFree s h :=
  if_pos hfree

theorem State.snapHcfg_arm (hfree : bit w 30 = false) (harm : bit w 31 = true) (t s : State) (h : Nat) :
    t.snapHcfg s h w = t.snapArm s h := by
  simp [State.snapHcfg, hfree, harm]

theorem State.replayWrite_go (hgo : bit w 31 = true) (hstop : bit w 30 = false) (t : State) :
    t.replayWrite w = t.replayGo := by
  simp [State.replayWrite, hgo, hstop]

theorem State.replayWrite_stop (hstop : bit w 30 = true) (hgo : bit w 31 = false) (t : State) : t.replayWrite w =
    if t.on SNP_STAT_RPLRUN then { t with replay := { t.replay with stop := true } } else t := by
  simp [State.replayWrite, hgo, hstop]

end Words

/-! ### The broadcast image (R101) -/

/-- What the image of a ganged cluster takes, the settings of a slot and a control word of `CANCEL` and `APPLY` alone, every
ACQUIRING engine gets. -/
theorem State.broadcast_accepted {s : State} {m : Master} {c o w : Nat} (hgang : (s.clu c).gang = true) (h4 : o % 4 = 0)
    (ho : o ≤ 0x30 ∨ (o = 0x38 ∧ bit w 29 = false ∧ w % 8 = 0 ∧ (bit w 31 = true ∨ bit w 30 = true)))
    (hw : s.writeError m (0x50010000 + c * 0x100000 + o) w = false) : s.broadcast m c o w =
      (s.eachEng c fun e t =>
        if t.engState e = 2 then t.regWrite m (0x50010000 + c * 0x100000 + e % 64 * 0x400 + o) w [] else t, true) := by
  have hok : (decide (o ≤ 0x30) || (o == 0x38 && !bit w 29 && w % 8 == 0 && (bit w 31 || bit w 30))) = true := by
    simpa [and_assoc] using ho
  simp [State.broadcast, hgang, hok, h4, hw]

/-- A write of a word to a cluster's image that no rule of the map stops is a broadcast. -/
theorem State.busWrite_image {s : State} {m : Master} {c o : Nat} (hc : c < 16) (ho : o < 0x10000) (h4 : o % 4 = 0)
    (hallowed : s.busAllowed m (0x50020000 + c * 0x100000 + o) true = true) (w : Nat) :
    s.busWrite m (0x50020000 + c * 0x100000 + o) 4 w = s.broadcast m c o w := by
  have hmem : memClass (0x50020000 + c * 0x100000 + o) = none := by
    unfold memClass
    rw [if_pos (by omega)]
    exact if_neg (by omega)
  have haligned : ¬(4 ≠ 4 ∨ (0x50020000 + c * 0x100000 + o) % 4 ≠ 0) := by omega
  have himage : 0x50000000 ≤ 0x50020000 + c * 0x100000 + o ∧ 0x50020000 + c * 0x100000 + o < 0x51000000 ∧
      (0x50020000 + c * 0x100000 + o) / 0x10000 % 16 = 2 := by omega
  have hcluster : (0x50020000 + c * 0x100000 + o - 0x50000000) / 0x100000 = c := by omega
  have hofs : (0x50020000 + c * 0x100000 + o) % 0x10000 = o := by omega
  rw [State.busWrite, hallowed, hmem]
  simp only [Bool.not_true, Bool.false_eq_true, if_false, if_neg haligned, if_pos himage, hcluster, hofs]

/-- A write that is accepted goes on with the steps of the loop DSPs. -/
theorem State.busDo_of_busWrite {s t : State} {m : Master} {a n w : Nat} (h : s.busWrite m a n w = (t, true)) :
    s.busDo m a n w = t.dspSteps := by
  rw [State.busDo, h]

/-! ### Credits (R95, R439) -/

/-- The registers that show a handle's credits stand apart from the count of free ones. -/
theorem State.handlePut_credFree (s : State) (h : Nat) (x : HandleSt) :
    (s.handlePut h x).get SNP_CRED_FREE = s.get SNP_CRED_FREE := by
  have hshown : ∀ f ∈ [SNP_HSTAT_NCRED h, SNP_HMASK_L_MAP h, SNP_HMASK_H_MAP h], f.key ≠ SNP_CRED_FREE.key := by
    simp only [List.forall_mem_cons, Field.key, SNP_HSTAT_NCRED, SNP_HMASK_L_MAP, SNP_HMASK_H_MAP, SNP_CRED_FREE]
    exact ⟨by omega, by omega, by omega, by simp⟩
  simp only [State.handlePut]
  rw [State.set_get_ne _ _ (hshown _ (by simp)), State.set_get_ne _ _ (hshown _ (by simp)),
    State.set_get_ne _ _ (hshown _ (by simp))]
  rfl

@[simp] theorem State.handlePut_handle (s : State) (h : Nat) (x : HandleSt) : (s.handlePut h x).handle h = x :=
  State.setHandle_handle s h x

theorem State.handlePut_handle_ne (s : State) {h k : Nat} (x : HandleSt) (hk : h ≠ k) :
    (s.handlePut h x).handle k = s.handle k :=
  State.setHandle_handle_ne s x hk

/-- A handle's credits all return to the pool, which has room for 64. -/
theorem State.creditsBack_credFree {s : State} {h : Nat} (hs : regsRise s = true)
    (hle : s.get SNP_CRED_FREE + (s.handle h).cred.length ≤ 64) :
    (s.creditsBack h).get SNP_CRED_FREE = s.get SNP_CRED_FREE + (s.handle h).cred.length := by
  have hinc : (s.inc SNP_CRED_FREE (s.handle h).cred.length).get SNP_CRED_FREE =
      (s.get SNP_CRED_FREE + (s.handle h).cred.length) % 2 ^ 7 := State.set_get s _ _ hs
  rw [State.creditsBack, State.handlePut_credFree, hinc]
  omega

/-- Settles O9: each write by what its register sets in motion, the image by the broadcast, and the credits by the handle that
held them and the pool. -/
theorem snapshotWrites : Obligations.SnapshotWrites := by
  intro m h c ofs w s a refuse
  refine ⟨fun hfree harm => ?arm, fun hfree => ?free, fun hgo hstop => ?go, fun hstop hgo => ?stop, ?image,
    fun hs hle => ?credits⟩
  case arm => exact Writes.of_snpHcfg rfl fun t => State.snapHcfg_arm hfree harm t s h
  case free => exact Writes.of_snpHcfg rfl fun t => State.snapHcfg_free hfree t s h
  case go => exact Writes.of_snpRpl rfl (State.replayWrite_go hgo hstop)
  case stop => exact Writes.of_snpRpl rfl (State.replayWrite_stop hstop hgo)
  case image =>
    intro o image hallowed hgang h4 ho hw
    change Host.Outcome.next (s.busDo m (0x50020000 + c.val * 0x100000 + ofs % 0x10000) 4 w.toNat) = _
    have himage := State.busWrite_image c.isLt (Nat.mod_lt ofs (by decide)) h4 hallowed w.toNat
    rw [State.busDo_of_busWrite (himage.trans (State.broadcast_accepted hgang h4 ho hw))]
  case credits =>
    exact ⟨State.creditsBack_credFree hs hle, congrArg HandleSt.cred (State.handlePut_handle _ _ _),
      fun k hk => State.handlePut_handle_ne _ _ (Ne.symm hk)⟩

/-! ### Captures (R90–R94, R96) -/

/-- When a trigger is due (R93). -/
theorem State.capDue_eq_true {s : State} {h sub : Nat} {pre : List LinkSample} : s.capDue h sub pre = true ↔
    s.get (SNP_HSTAT_STATE h) = 1 ∧ 4096 * decimation (s.handle h).rate ≤ pre.length ∧
      (s.handle h).armedAt < s.epochCount ∧ sub * storedRate (s.handle h).rate < 65536000000000 ∧
      ((s.handle h).trig = false ∨ (s.handle h).late = true ∨ (s.epochCount % 65536 == (s.handle h).epoch) = true ∨
        s.epochPassed (s.handle h).epoch = true) := by
  simp [State.capDue, and_assoc, or_assoc]

theorem State.capTrigger_waits {s : State} {h sub : Nat} {pre : List LinkSample} (hnot : s.capDue h sub pre = false) :
    s.capTrigger h sub pre = s :=
  if_pos (by simp [hnot])

/-- Settles O10: the trigger by whether it is due, the last sample of a capture that runs. What a due trigger and a last sample
do is stated update by update, as `State.capTrigger` and `State.capDone` have it: the chains are compared unexpanded
(`-zeta`). -/
theorem snapshotCaptures : Obligations.SnapshotCaptures := by
  intro h sub pre raw s x here due
  refine ⟨fun hdue => ?triggers, fun hdue => ?waits, fun hst => ?ends⟩
  case triggers =>
    change Host.Outcome.next (s.capTrigger h sub pre) = _
    simp -zeta only [State.capTrigger, State.capDue_eq_true.mpr hdue, Bool.not_true, Bool.false_eq_true, if_false]
    rfl
  case waits =>
    have hnot : s.capDue h sub pre = false := Bool.eq_false_iff.mpr (mt State.capDue_eq_true.mp hdue)
    exact congrArg Host.Outcome.next (State.capTrigger_waits hnot)
  case ends =>
    change Host.Outcome.next (s.capDone h raw) = _
    simp -zeta only [State.capDone, hst, ne_eq, not_true_eq_false, if_false]
    rfl

/-! ### Passes of a replay run (R98, R100, R102, R103) -/

section Refill
variable {s : State} {later : Bool} {e : Nat}

theorem State.refillLeft_none (h : (s.eng e).refill = 0) : s.refillLeft later e = s := if_pos h

variable (h : (s.eng e).refill ≠ 0)
include h

/-- A refill of the pass before has gone on through the gap. -/
theorem State.refillLeft_gap (hlater : later = true) (hin : (s.eng e).refillIn = true) :
    s.refillLeft later e = s.setEng e { s.eng e with refill := (s.eng e).refill - 4 * 1637 } :=
  (if_neg h).trans (if_pos (by simp [hlater, hin]))

/-- A refill from outside a pass is over after 2 ms. -/
theorem State.refillLeft_over (hout : later = false ∨ (s.eng e).refillIn = false)
    (hup : (s.eng e).refillAt + 2000000 ≤ s.tim.up) : s.refillLeft later e = s.setEng e { s.eng e with refill := 0 } := by
  have hgap : ¬(later && (s.eng e).refillIn) = true := by rcases hout with hlater | hin <;> simp [*]
  exact (if_neg h).trans ((if_neg hgap).trans (if_pos hup))

end Refill

/-- Settles O11: the first sample of a pass in the gap between passes, its last sample inside it, and a refill by when and where
it began. What a pass does at its two ends is stated update by update, as `State.passStart` and `State.passEnd` have it. -/
theorem replayPasses : Obligations.ReplayPasses := by
  intro s hrun
  refine ⟨fun hout => ?first, fun later e => ?refill, fun hin => ?last⟩
  case first =>
    change Host.Outcome.next s.passStart = _
    simp -zeta only [State.passStart, hrun, hout, Bool.not_true, Bool.false_eq_true, or_self, if_false]
    rfl
  case refill => exact ⟨State.refillLeft_none, State.refillLeft_gap, State.refillLeft_over⟩
  case last =>
    change Host.Outcome.next s.passEnd = _
    simp -zeta only [State.passEnd, hrun, hin, Bool.not_true, Bool.false_eq_true, or_self, if_false]
    rfl

end Sys2Proof.Machine

/-! SUPPORT. Tracking (ch. 5): what a record, a set-up, a steer entry, a report instant and a hand-over come to, with the
statement about them (O12). -/

namespace Sys2Proof.Machine

/-! ### Records that reach loop code (R112, R123, R125, R138) -/

section Records
variable {s : State} {e : Nat} {u : LoopIn}

/-- The loop DSP does not execute, the record is none of tracking, or the engine tracks nothing. -/
theorem State.loopUpdate_ignores
    (h : s.loopRuns (e / 64) = false ∨ (dumpRec u.rec_).tracks = false ∨ s.engState e ≠ 1 ∧ s.engState e ≠ 3) :
    s.loopUpdate e u = s :=
  if_pos (by simpa [or_assoc] using h)

variable (hruns : s.loopRuns (e / 64) = true) (htracks : (dumpRec u.rec_).tracks = true) (hst : s.engState e = 1)
include hruns htracks hst

/-- A live channel whose engine is in no migration answers the record; only the first record of a target would end another
engine's copy. -/
theorem State.loopUpdate_record (hlive : (s.chan e).live = true) (hlost : (s.chan e).st ≠ .lost)
    (hfirst : bit (dumpRec u.rec_).flags 6 = false) :
    s.loopUpdate e u = s.chanRecord e { s.chan e with handed := false } (dumpRec u.rec_) u false := by
  simp [State.loopUpdate, hruns, htracks, hst, hlive, hlost, hfirst]

theorem State.loopUpdate_setup {c : ChanCfg} (hlive : (s.chan e).live = false) (hsetup : u.setup = some c)
    (hok : s.setupOk e c = true) :
    s.loopUpdate e u = (s.assist c false).chanRecord e (s.chanStart e c) (dumpRec u.rec_) u true := by
  simp [State.loopUpdate, hruns, htracks, hst, hlive, hsetup, hok]

end Records

/-! ### Commits (R112, R121) -/

/-- A lead without a group commits its own rates alone. -/
theorem State.chanCommit_alone {s : State} {e : Nat} {y : ChanSt} (hfollow : y.cfg.follow = false)
    (hhanded : y.handed = false) (hlost : y.st ≠ .lost) (hcoast : y.st ≠ .coast) (hgroup : y.cfg.group = 255) :
    let kr := krateOf y.cfg.fRf (s.get (SLK_LOF_LOF (s.eng e).use.src)) y.loop.est
    s.chanCommit e y 0 =
      (s.setChan e { s.chan e with krate := kr, ownSet := y.ownSet, cseq := (y.dseq + 1) % 65536 }).commitRates e kr
        (crateOf y.cfg.fRf y.cfg.comp.chip y.loop.est y.loop.v) (y.dseq + 1) := by
  have hnone : ∀ t : State, t.followers e y = [] := fun t => if_pos (.inl hgroup)
  simp [State.chanCommit, hfollow, hhanded, hlost, hcoast, hnone]

/-! ### Steer entries (R130) -/

section Steer
variable {s : State} (e chid epoch chip frac dop cdiv : Nat)

theorem State.steerWrite_off (hnav : s.navOn = false) : s.steerWrite e chid epoch chip frac dop cdiv = s :=
  if_pos (by simp [hnav])

theorem State.steerWrite_on (hnav : s.navOn = true) : s.steerWrite e chid epoch chip frac dop cdiv =
    s.memWriteWords (.cluster (e / 64)) (steerAddr e)
      [((s.peek (steerAddr e + 2) 2 + 1) / 2 * 2 + 2) % 2 ^ 16 * 2 ^ 16 + chid, epoch, chip, frac, dop, cdiv, 0, 0] :=
  if_neg (by simp [hnav])

end Steer

/-! ### States that differ in the free values drawn -/

/-- From `s` on, free values have been drawn and nothing else has happened. -/
def Drew (s t : State) : Prop := ∃ n, t = { s with free := n }

section Drew
variable {u s t : State}

theorem Drew.refl (s : State) : Drew s s := ⟨s.free, rfl⟩

theorem Drew.get_eq (h : Drew s t) (f : Field) : t.get f = s.get f := by
  obtain ⟨n, rfl⟩ := h; rfl

theorem Drew.epochCount_eq (h : Drew s t) : t.epochCount = s.epochCount := by
  obtain ⟨n, rfl⟩ := h; rfl

theorem Drew.groupWhole_eq (h : Drew s t) (c group : Nat) : t.groupWhole c group = s.groupWhole c group := by
  obtain ⟨n, rfl⟩ := h; rfl

theorem Drew.draw (h : Drew u s) (bound : Nat) : Drew u (s.draw bound).1 := by
  obtain ⟨n, rfl⟩ := h
  exact ⟨n + 1, rfl⟩

theorem Drew.quotient (h : Drew u s) (a : Int) (b : Nat) : Drew u (s.quotient a b).1 := by
  unfold State.quotient
  dsimp only
  split
  · exact h
  · exact h.draw 2

theorem Drew.accWord (h : Drew u s) (e : Nat) (x : ChanSt) (m : Int) : Drew u (s.accWord e x m).1 := h.quotient _ _

theorem Drew.cn0Word (h : Drew u s) (x : ChanSt) : Drew u (s.cn0Word x).1 := by
  unfold State.cn0Word
  dsimp only
  split
  · exact h
  split
  · exact h.draw 65536
  · exact h.draw 2

theorem Drew.shapeWord (h : Drew u s) (x : ChanSt) : Drew u (s.shapeWord x).1 := by
  unfold State.shapeWord
  dsimp only
  split
  · exact h.draw 65536
  · apply h.quotient

theorem Drew.mpeWord (h : Drew u s) (x : ChanSt) : Drew u (s.mpeWord x).1 := by
  unfold State.mpeWord
  dsimp only
  split
  · exact h.draw 65536
  · exact h.quotient _ _

theorem Drew.diffWords (h : Drew u s) (ds : List DiffSt) : Drew u (s.diffWords ds).1 := by
  induction ds generalizing s with
  | nil => exact h
  | cons d ds ih => exact ih (h.quotient d.sum d.n)

/-- The words for differences are left out, or their quotients draw. -/
theorem Drew.diffsUnless (h : Drew u s) (skip : Prop) [Decidable skip] (ds : List DiffSt) :
    Drew u (if skip then (s, []) else s.diffWords ds).1 := by
  split
  · exact h
  · exact h.diffWords ds

end Drew

/-! ### Words written to a memory -/

/-- Words put into a memory whose unit is no wider than a word leave the channels. -/
theorem State.memWriteWords_chans {k : MemClass} (hk : k.unit ≤ 4) (s : State) (a : Nat) (ws : List Nat) :
    (s.memWriteWords k a ws).chans = s.chans := by
  induction ws generalizing s a with
  | nil => rfl
  | cons w ws ih =>
    have hword : (s.memWrite k a 4 w).1 = (s.clrEcc k a).poke a 4 w := congrArg Prod.fst (if_pos hk)
    rw [State.memWriteWords, ih, hword]
    rfl

theorem State.memWriteWords_nav_chan (s : State) (a : Nat) (ws : List Nat) (e : Nat) :
    (s.memWriteWords .nav a ws).chan e = s.chan e :=
  congrArg (fun t : Tbl ChanSt => tblGet t {} e) (s.memWriteWords_chans (by decide) a ws)

/-! ### Report instants (R132, R137) -/

theorem State.trackReports_off {s : State} {d : Nat} (h : s.loopRuns d = false) : s.trackReports d = s :=
  if_pos (by simp [h])

/-- Each channel of the loop DSP reports, with the overload that stands and the period as it was before. -/
theorem State.trackReports_on {s : State} {d : Nat} (h : s.loopRuns d = true) :
    let b := s.lateOvld d
    let t := b.1.eachEng d fun e t => t.chanReport e b.2
    let live := t.nav.running && t.chans.any fun p => p.2.live
    s.trackReports d = { t with nav := { t.nav with
      repEp := t.epochCount, repT := t.tim.t, repPer := b.1.reportPeriod d, measEp := none,
      firstEp := if t.nav.firstEp.isNone && live then some t.epochCount else t.nav.firstEp } } := by
  simp -zeta only [State.trackReports, h, Bool.not_true, Bool.false_eq_true, if_false]
  rfl

/-- The words of a report of the channel `x` at epoch `ep`, whose differences are `ds`: eleven before them and two after. -/
def ReportWords (x : ChanSt) (ep : Nat) (ds ws : List Nat) : Prop :=
  ∃ id body g, body.length = 9 ∧
    ws = id :: ep % 2 ^ 32 :: body ++ (ds ++ [0, 0, 0]).take 3 ++ [g, (x.rseq + 1) % 2 ^ 32]

section ReportWords
variable {x : ChanSt} {ep : Nat} {ds ws : List Nat}

/-- Sixteen words, the epoch second and the sequence number last. -/
theorem ReportWords.shape (h : ReportWords x ep ds ws) :
    ws.length = 16 ∧ ws.getD 1 0 = ep % 2 ^ 32 ∧ ws.getD 15 0 = (x.rseq + 1) % 2 ^ 32 := by
  obtain ⟨id, body, g, hbody, rfl⟩ := h
  exact ⟨by simp [hbody], rfl, by simp [hbody]⟩

theorem ReportWords.no_diffs (h : ReportWords x ep [] ws) :
    ws.getD 11 0 = 0 ∧ ws.getD 12 0 = 0 ∧ ws.getD 13 0 = 0 := by
  obtain ⟨id, body, g, hbody, rfl⟩ := h
  simp [hbody]

end ReportWords

@[simp] theorem State.setLate_chan_at (s : State) (d : Nat) (l : LateSt) (e : Nat) : (s.setLate d l).chan e = s.chan e := rfl

/-- What a report leaves of its channel, and its words, without differences while a member of the group is missing. In the
proof `t` is the state that the quotients before the differences lead to. -/
theorem State.chanReport_chan {s : State} {e : Nat} {ovld : Bool} (hlive : (s.chan e).live = true)
    (hmig : s.on (ENG_MIG_ARM e) = false) (hhanded : (s.chan e).handed = false) :
    let y := (s.chanReport e ovld).chan e
    y.rseq = ((s.chan e).rseq + 1) % 2 ^ 32 ∧ y.late = 0 ∧ y.st = (s.chan e).st ∧
      ∃ ds, ReportWords (s.chan e) s.epochCount ds y.report ∧
        (s.groupWhole (e / 64) (s.chan e).cfg.group = false → ds = []) := by
  have hsends : ¬(!(s.chan e).live || s.on (ENG_MIG_ARM e) || ((s.chan e).handed && s.engState e != 3)) = true := by
    simp [hlive, hmig, hhanded]
  unfold State.chanReport
  dsimp only
  rw [if_neg hsends, State.memWriteWords_nav_chan, State.setLate_chan_at, State.setChan_chan]
  generalize ht : (State.mpeWord _ (s.chan e)).1 = t
  have hdrew : Drew s t :=
    ht ▸ (((((((Drew.refl s).accWord _ _ _).quotient _ _).quotient _ _).cn0Word _).quotient _ _).shapeWord _).mpeWord _
  rw [(hdrew.diffsUnless _ _).epochCount_eq]
  refine ⟨rfl, rfl, rfl, _, ⟨_, _, _, rfl, rfl⟩, fun hpart => congrArg Prod.snd (if_pos ?skipped)⟩
  case skipped => simp [hdrew.groupWhole_eq, hpart]

/-! ### Hand-overs (R138, R139) -/

theorem ChanSt.blockWords_length (x : ChanSt) (chid : Nat) (acc : Int) (free : List Nat) :
    (x.blockWords chid acc free).length = 32 := by
  simp [ChanSt.blockWords]

section Handoff
variable {s : State} {src tgt : Nat}

/-- A channel goes to another cluster, so to another engine. -/
theorem State.handsOver_ne (h : s.handsOver src tgt = true) : src ≠ tgt := by
  rintro rfl
  simp [State.handsOver] at h

/-- The target imports the source's channel and its block; a coupled one waits for a steer entry there. -/
theorem State.chanHandoff_target (free : List Nat) :
    let y := (s.chanHandoff src tgt free).chan tgt
    y.handed = false ∧ y.st = (s.chan src).st ∧ y.steer = none ∧ y.stale = (s.chan src).coup ∧
      y.block = (s.chan src).blockWords (s.get (ENG_CFG_CHID src)) (s.accWord src (s.chan src) 0).2 free := by
  unfold State.chanHandoff
  dsimp only
  rw [State.setChan_chan, ((Drew.refl s).accWord src (s.chan src) 0).get_eq]
  exact ⟨rfl, rfl, rfl, rfl, rfl⟩

/-- The source's channel is marked. -/
theorem State.chanHandoff_source (h : src ≠ tgt) (free : List Nat) :
    ((s.chanHandoff src tgt free).chan src).handed = true := by
  unfold State.chanHandoff
  dsimp only
  rw [State.setChan_chan_ne _ _ h.symm, State.memWriteWords_nav_chan, State.setChan_chan]

end Handoff

/-- A write that is accepted, to the `ENG_MIG` of an engine (R88). -/
theorem Writes.of_engMig (m : Master) (e : Fin 1024) (w : Word) (s : State) :
    Writes (.migArm m e w) m (engAddr e 0x5C) w s fun t =>
      t.migArm e (s.on (ENG_MIG_ARM e)) (s.get (ENG_MIG_FROM e)) :=
  Writes.of_engine_hook rfl rfl (regHook_engMig e w.toNat [] s)

/-- Settles O12: a record by the channel it finds, a commit by what a lead without a group follows, a steer entry by the
navigation core, a report instant by the loop DSP, one report by its words, and a hand-over by whether it fits. -/
theorem trackingSteps : Obligations.TrackingSteps := by
  intro e u s x r runs
  refine ⟨?ignores, ?record, ?setup, fun y => State.chanCommit_alone, ?steerOff, ?steerOn, ?instant, ?report,
    ?handover⟩
  case ignores => exact fun h => congrArg Host.Outcome.next (State.loopUpdate_ignores h)
  case record =>
    intro hruns htracks hst hlive hlost hfirst
    exact congrArg Host.Outcome.next (State.loopUpdate_record hruns htracks hst hlive hlost hfirst)
  case setup =>
    intro c hruns htracks hst hlive hsetup hok
    exact ⟨congrArg Host.Outcome.next (State.loopUpdate_setup hruns htracks hst hlive hsetup hok), rfl, rfl⟩
  case steerOff =>
    intro chid epoch chip frac dop cdiv hnav
    exact congrArg Host.Outcome.next (State.steerWrite_off _ _ _ _ _ _ _ hnav)
  case steerOn =>
    intro chid epoch chip frac dop cdiv hnav
    change Host.Outcome.next (s.steerWrite e _ _ _ _ _ _) = _
    rw [State.steerWrite_on _ _ _ _ _ _ _ hnav]
  case instant =>
    intro d a b t live
    change (_ → Host.Outcome.next (a.trackReports d) = _) ∧ (_ → Host.Outcome.next (a.trackReports d) = _)
    exact ⟨fun h => by rw [State.trackReports_off h], fun h => by rw [State.trackReports_on h]⟩
  case report =>
    intro ovld hlive hmig hhanded
    obtain ⟨hrseq, hlate, hst, ds, hwords, hpart⟩ := State.chanReport_chan (ovld := ovld) hlive hmig hhanded
    obtain ⟨hlength, hepoch, hlast⟩ := hwords.shape
    refine ⟨hrseq, hlate, hst, hlength, hepoch, hlast.trans hrseq.symm, fun h => ?_⟩
    obtain rfl := hpart h
    exact hwords.no_diffs
  case handover =>
    intro tgt block w b t c
    refine ⟨fun hfits htaken => ?arms, fun hfits => ?moves, fun hfits => ?stays⟩
    case arms =>
      have hbus : exec (.migrationHandoff e tgt block w) s = exec (.migArm (.ldsp c) tgt w) t :=
        congrArg Host.Outcome.next (if_pos hfits)
      exact hbus.trans (Writes.of_engMig _ tgt w t htaken)
    case moves =>
      obtain ⟨hhanded, hst, hsteer, hstale, hblock⟩ := State.chanHandoff_target (s := s) (src := e) (tgt := tgt)
        (block.map BitVec.toNat)
      exact ⟨State.chanHandoff_source (State.handsOver_ne hfits) _, hhanded, hst, hsteer, hstale,
        ChanSt.blockWords_length _ _ _ _, hblock⟩
    case stays => exact congrArg Host.Outcome.next (if_neg (by simp [hfits]))

end Sys2Proof.Machine

/-! SUPPORT. The loop DSP (ch. 6): what each instruction of R152 comes to where it stands, where it faults, and what control
registers, events and other masters do to a DSP (O13, O14, O15, O16, O17, O18, O19, O20). -/

namespace Sys2Proof.Machine

/-! ### Class A (R147, R152) -/

section ClassA
variable {s u : State} {d : Fin 16} {op : DspOp} {w : Nat} {back : Option Nat}

/-- The result of class A for the operands that a word names. -/
def DspSt.alu (x : DspSt) (op : DspOp) (w : Nat) : AluOut :=
  aluOp op (bit x.srSeen 22) (x.reg (bits w 19 16)) (x.reg (bits w 15 12)) (bits w 4 0)

/-- An operation of class A that writes the result which the rules state. -/
theorem dspAlu_writes (hcmp : op ≠ .cmp) (habs : op = .abs → (u.dsp d.val).reg (bits w 19 16) ≠ 2 ^ 31) :
    dspAlu op d.val w u =
      let r := (u.dsp d.val).alu op w
      .ok ((u.setDsp d.val (((u.dsp d.val).limited r.lim).write (bits w 23 20) r.val)).dspFlags d.val (bit r.val 31)
        (r.val == 0) r.v r.c) .next 1 := by
  have hfree : ¬(op = .abs ∧ (u.dsp d.val).reg (bits w 19 16) = 2 ^ 31) := fun ⟨hop, ha⟩ => habs hop ha
  simp only [dspAlu, if_neg hcmp, if_neg hfree]
  rfl

/-- The absolute value of the most negative number: the result is free. -/
theorem dspAlu_abs_free (ha : (u.dsp d.val).reg (bits w 19 16) = 2 ^ 31) :
    dspAlu .abs d.val w u =
      let f := u.draw (2 ^ 32)
      .ok ((f.1.setDsp d.val ((u.dsp d.val).write (bits w 23 20) f.2)).dspFlags d.val (bit f.2 31) (f.2 == 0)
        (some true) none) .next 1 := by
  simp [dspAlu, ha, aluOp]

/-- `CMP` sets the flags of a difference and writes no register. -/
theorem dspAlu_cmp : dspAlu .cmp d.val w u =
    let r := (u.dsp d.val).alu .cmp w
    .ok ((u.setDsp d.val (u.dsp d.val)).dspFlags d.val (bit r.val 31) (r.val == 0) r.v none) .next 1 := rfl

/-- An operation of class A issued: it writes the result which the rules state. -/
theorem dspIssue_alu (h : DspReady s d op w u back) (hact : dspAct op d w u = dspAlu op d.val w u) (hcmp : op ≠ .cmp)
    (habs : op = .abs → (u.dsp d.val).reg (bits w 19 16) ≠ 2 ^ 31) :
    (.next (s.dspIssue d op) : Host.Outcome State Fault Refusal) =
      let r := (u.dsp d.val).alu op w
      dspDone s d back ((u.setDsp d.val (((u.dsp d.val).limited r.lim).write (bits w 23 20) r.val)).dspFlags d.val
        (bit r.val 31) (r.val == 0) r.v r.c) .next 1 :=
  dspIssue_ok h (hact.trans (dspAlu_writes hcmp habs))

/-- A result that is limited keeps the flags of the one that is not, and sets `LV` (R147). -/
theorem aluSat_eq (satm : Bool) (e : Int) {r : AluOut} (hr : r.lim = false) :
    aluSat satm e r =
      let lim := satm && e != satI 32 e
      { r with val := if lim then uns 32 (satI 32 e) else r.val, lim := lim } := by
  obtain ⟨val, v, c, lim⟩ := r
  obtain rfl : lim = false := hr
  unfold aluSat
  cases satm && e != satI 32 e <;> rfl

end ClassA

/-- Settles O13: an operation of class A writes the result of `aluOp` with its flags (`dspIssue_alu`); the saturating ones by
what a limit does to a result, and the absolute value by whether the rules state one. -/
theorem dspArithmetic : Obligations.DspArithmetic := by
  intro d w s u back
  refine ⟨fun h => dspIssue_ok h rfl, fun h => dspIssue_ok h rfl,
    fun h => dspIssue_alu h rfl nofun nofun, fun h => ?adds, fun h => dspIssue_alu h rfl nofun nofun, fun h => ?subs,
    fun h => dspIssue_ok h dspAlu_cmp,
    fun h => dspIssue_alu h rfl nofun nofun, fun h => dspIssue_alu h rfl nofun nofun,
    fun h => dspIssue_alu h rfl nofun nofun, fun h => dspIssue_alu h rfl nofun nofun, fun h => ?abs,
    fun h => dspIssue_alu h rfl nofun nofun, fun h => dspIssue_alu h rfl nofun nofun,
    fun h => dspIssue_alu h rfl nofun nofun, fun h => dspIssue_alu h rfl nofun nofun,
    fun h => dspIssue_alu h rfl nofun nofun, fun h => dspIssue_alu h rfl nofun nofun,
    fun h => dspIssue_alu h rfl nofun nofun⟩
  case adds | subs =>
    have hissue := dspIssue_alu h rfl nofun nofun
    rw [DspSt.alu, aluOp, aluSat_eq _ _ rfl] at hissue
    exact hissue
  case abs =>
    split
    next ha => exact dspIssue_ok h (dspAlu_abs_free ha)
    next ha =>
      have hissue := dspIssue_alu h rfl nofun fun _ => ha
      simp only [DspSt.alu, aluOp, beq_eq_false_iff_ne.mpr ha] at hissue
      exact hissue

/-! ### Classes M and X (R147–R149) -/

section Accumulators
variable {s u : State} {d : Fin 16} {op : DspOp} {w : Nat} {back : Option Nat}

/-- The exact result of class X for the accumulators and the count that a word names. -/
def DspSt.accExact (x : DspSt) (op : DspOp) (w : Nat) : Int :=
  let k := bits w 24 23
  let j := bits w 22 21
  accOp op (sgn 72 (x.acc k)) (sgn 72 (x.seen (.acc k) (x.acc k))) (sgn 72 (x.seen (.acc j) (x.acc j))) (sgn 7 (bits w 6 0))

/-- An operation of class X leaves the 72 bits of its exact result, unless the rules state none. -/
theorem dspAccOp_states
    (h : op = .absa → (u.dsp d.val).seen (.acc (bits w 24 23)) ((u.dsp d.val).acc (bits w 24 23)) ≠ 2 ^ 71) :
    dspAccOp op d.val w u =
      let v := (u.dsp d.val).accExact op w
      .ok ((u.setDsp d.val ((u.dsp d.val).writeAcc (bits w 24 23) (uns 72 v))).dspFlags d.val (bit (uns 72 v) 71)
        (uns 72 v == 0) (some (v != sgn 72 (uns 72 v))) none) .next 1 := by
  have hfree : ¬(op = .absa ∧ (u.dsp d.val).seen (.acc (bits w 24 23)) ((u.dsp d.val).acc (bits w 24 23)) = 2 ^ 71) :=
    fun ⟨hop, ha⟩ => h hop ha
  simp only [dspAccOp, if_neg hfree]
  rfl

/-- The absolute value of the most negative accumulator: the result is free. -/
theorem dspAccOp_absa_free (ha : (u.dsp d.val).seen (.acc (bits w 24 23)) ((u.dsp d.val).acc (bits w 24 23)) = 2 ^ 71) :
    dspAccOp .absa d.val w u =
      let v := (u.dsp d.val).accExact .absa w
      let f := u.draw (2 ^ 72)
      .ok ((f.1.setDsp d.val ((u.dsp d.val).writeAcc (bits w 24 23) f.2)).dspFlags d.val (bit f.2 71)
        (f.2 == 0) (some (v != sgn 72 (uns 72 v))) none) .next 1 := by
  simp only [dspAccOp, true_and, if_pos ha]
  rfl

/-- An operation of class X issued: it leaves the 72 bits of its exact result. -/
theorem dspIssue_acc (h : DspReady s d op w u back) (hact : dspAct op d w u = dspAccOp op d.val w u)
    (habs : op = .absa → (u.dsp d.val).seen (.acc (bits w 24 23)) ((u.dsp d.val).acc (bits w 24 23)) ≠ 2 ^ 71) :
    (.next (s.dspIssue d op) : Host.Outcome State Fault Refusal) =
      let v := (u.dsp d.val).accExact op w
      dspDone s d back ((u.setDsp d.val ((u.dsp d.val).writeAcc (bits w 24 23) (uns 72 v))).dspFlags d.val
        (bit (uns 72 v) 71) (uns 72 v == 0) (some (v != sgn 72 (uns 72 v))) none) .next 1 :=
  dspIssue_ok h (hact.trans (dspAccOp_states habs))

end Accumulators

/-- Settles O14: class M by the 72 bits of its product or sum, class X by its exact result (`dspIssue_acc`), and the absolute
value by whether the rules state one. -/
theorem dspAccumulators : Obligations.DspAccumulators := by
  intro d w s u back
  refine ⟨fun h => dspIssue_ok h rfl, fun h => dspIssue_ok h rfl, fun h => dspIssue_ok h rfl, fun h => dspIssue_ok h rfl,
    fun h => dspIssue_acc h rfl nofun, fun h => dspIssue_acc h rfl nofun, fun h => dspIssue_acc h rfl nofun,
    fun h => dspIssue_acc h rfl nofun, fun h => ?absa, fun h => dspIssue_acc h rfl nofun,
    fun h => dspIssue_acc h rfl nofun⟩
  case absa =>
    split
    next ha => exact dspIssue_ok h (dspAccOp_absa_free ha)
    next ha => exact dspIssue_acc h rfl fun _ => ha

/-! ### Loads, stores, immediates, transfers and taps (R146, R150–R154) -/

section Moves
variable {s t t' : State} {d : Fin 16} {w a v va vb : Nat} {sp : DspSpace}

theorem State.dspLoad_some (h : s.memRead (.dsp d.val sp) (dspWord d.val sp a) 4 = (t, some v)) :
    s.dspLoad d.val sp a = (t, some ((s.dsp d.val).seen (.mem sp a) v)) := by
  simp [State.dspLoad, h]

theorem State.dspLoad_none (h : s.memRead (.dsp d.val sp) (dspWord d.val sp a) 4 = (t, none)) :
    s.dspLoad d.val sp a = (t, none) := by
  simp [State.dspLoad, h]

/-- The memory that a load or a store names (R151). -/
def dspMoveSpace (w : Nat) : DspSpace := if bit w 27 then .y else .x

/-- The cycle counter takes no load (R146). -/
theorem dspLdOp_cyc (hn : bits w 26 21 = 0x2E) : dspLdOp d.val w s = .fault s 1 0 := by
  simp [dspLdOp, hn]

section Ld
variable (hn : bits w 26 21 ≠ 0x2E)
include hn

theorem dspLdOp_far (ha : 0x4000 ≤ ((s.dsp d.val).address w).1) :
    dspLdOp d.val w s = .fault s 3 ((s.dsp d.val).address w).1 := by
  simp only [dspLdOp, if_neg hn, if_pos ha]

variable (ha : ((s.dsp d.val).address w).1 < 0x4000)
include ha

theorem dspLdOp_reads (hread : s.memRead (.dsp d.val (dspMoveSpace w))
      (dspWord d.val (dspMoveSpace w) ((s.dsp d.val).address w).1) 4 = (t, some v)) :
    dspLdOp d.val w s = t.dspOk d.val (((s.dsp d.val).address w).2.writeLater (bits w 26 21)
      ((s.dsp d.val).seen (.mem (dspMoveSpace w) ((s.dsp d.val).address w).1) v) 2) := by
  have hload := State.dspLoad_some hread
  rw [dspMoveSpace] at hload
  simp only [dspLdOp, if_neg hn, if_neg (Nat.not_le.mpr ha), hload]
  rfl

theorem dspLdOp_bad (hread : s.memRead (.dsp d.val (dspMoveSpace w))
      (dspWord d.val (dspMoveSpace w) ((s.dsp d.val).address w).1) 4 = (t, none)) :
    dspLdOp d.val w s = .fault t 5 ((s.dsp d.val).address w).1 := by
  have hload := State.dspLoad_none hread
  rw [dspMoveSpace] at hload
  simp only [dspLdOp, if_neg hn, if_neg (Nat.not_le.mpr ha), hload]

end Ld

theorem dspStOp_far (ha : 0x4000 ≤ ((s.dsp d.val).address w).1) :
    dspStOp d.val w s = .fault s 3 ((s.dsp d.val).address w).1 := if_pos ha

theorem dspStOp_near (ha : ((s.dsp d.val).address w).1 < 0x4000) :
    dspStOp d.val w s =
      let x := s.dsp d.val
      let r := x.read (s.get (LDSP_CYC_COUNT d.val)) (bits w 26 21)
      s.dspOk d.val (((x.address w).2.limited r.2).storeLater (dspMoveSpace w) (x.address w).1 r.1) :=
  if_neg (Nat.not_le.mpr ha)

theorem dspXfwOp_eq : dspXfwOp d.val w s =
    if bits w 20 15 = 0x2E then .fault s 1 0
    else s.dspOk d.val ((s.dsp d.val).write (bits w 20 15) ((s.dsp d.val).reg (bits w 14 11))) := rfl

section Taps
variable {op : DspOp}

/-- Where a tap reads X (R154). -/
def DspSt.tapX (x : DspSt) (w : Nat) : Nat := x.ptr (0x10 + bits w 15 13)

/-- Where a tap reads Y (R154). -/
def DspSt.tapY (x : DspSt) (w : Nat) : Nat := x.ptr (0x10 + bits w 10 8)

theorem dspTapOp_farX (ha : 0x4000 ≤ (s.dsp d.val).tapX w) :
    dspTapOp op d.val w s = .fault s 3 ((s.dsp d.val).tapX w) := if_pos ha

theorem dspTapOp_farY (ha : (s.dsp d.val).tapX w < 0x4000) (hb : 0x4000 ≤ (s.dsp d.val).tapY w) :
    dspTapOp op d.val w s = .fault s 3 ((s.dsp d.val).tapY w) :=
  (if_neg (Nat.not_le.mpr ha)).trans (if_pos hb)

theorem dspTapOp_reads (ha : (s.dsp d.val).tapX w < 0x4000) (hb : (s.dsp d.val).tapY w < 0x4000)
    (hx : s.memRead (.dsp d.val .x) (dspWord d.val .x ((s.dsp d.val).tapX w)) 4 = (t, some va))
    (hy : t.memRead (.dsp d.val .y) (dspWord d.val .y ((s.dsp d.val).tapY w)) 4 = (t', some vb)) :
    dspTapOp op d.val w s =
      let x := s.dsp d.val
      t'.dspOk d.val
        (((((x.writeAcc (bits w 25 24) (x.mulAcc op w)).writeLater (bits w 23 20) (x.seen (.mem .x (x.tapX w)) va)
          2).writeLater (bits w 19 16) ((t.dsp d.val).seen (.mem .y (x.tapY w)) vb) 2).upd (bits w 15 13) (bits w 12 11)).upd
          (bits w 10 8) (bits w 7 6)) := by
  have hloadX := State.dspLoad_some hx
  have hloadY := State.dspLoad_some hy
  unfold DspSt.tapX at ha hloadX
  unfold DspSt.tapY at hb hloadY
  simp only [dspTapOp, if_neg (Nat.not_le.mpr ha), if_neg (Nat.not_le.mpr hb), hloadX, hloadY]
  rfl

end Taps
end Moves

/-- Settles O15: each instruction by its address and by what the memory answers, a fault by `dspIssue_fault`. -/
theorem dspMoves : Obligations.DspMoves := by
  intro d w s u back
  refine ⟨fun h => ⟨?ldCyc, ?ldFar, ?ldReads, ?ldBad⟩, fun h => ⟨?stFar, ?stNear⟩, fun h => dspIssue_ok h rfl,
    fun h => dspIssue_ok h rfl, fun h => dspIssue_ok h rfl, fun h => dspIssue_ok h rfl, fun h => dspIssue_ok h rfl,
    fun h => ?xfw, fun h => ⟨?ftapX, ?ftapY, ?ftap⟩, fun h => ⟨?ftapsX, ?ftapsY, ?ftaps⟩⟩
  case ldCyc => exact fun hn => dspIssue_fault h (dspLdOp_cyc hn) (by decide)
  case ldFar => exact fun hn ha => dspIssue_fault h (dspLdOp_far hn ha) (by decide)
  case ldReads => exact fun t v hn ha hread => dspIssue_ok h (dspLdOp_reads hn ha hread)
  case ldBad => exact fun t hn ha hread => dspIssue_fault h (dspLdOp_bad hn ha hread) (by decide)
  case stFar => exact fun ha => dspIssue_fault h (dspStOp_far ha) (by decide)
  case stNear => exact fun ha => dspIssue_ok h (dspStOp_near ha)
  case xfw =>
    split
    next hn => exact dspIssue_fault h (dspXfwOp_eq.trans (if_pos hn)) (by decide)
    next hn => exact dspIssue_ok h (dspXfwOp_eq.trans (if_neg hn))
  case ftapX | ftapsX => exact fun ha => dspIssue_fault h (dspTapOp_farX ha) (by decide)
  case ftapY | ftapsY => exact fun ha hb => dspIssue_fault h (dspTapOp_farY ha hb) (by decide)
  case ftap | ftaps => exact fun t t' va vb ha hb hx hy => dspIssue_ok h (dspTapOp_reads ha hb hx hy)

/-! ### Loops (R158) -/

section Loops
variable {u : State} {d : Fin 16} {op : DspOp} {w n : Nat}

theorem dspLoopOp_armed (hc : (tblGet (u.dsp d.val).hwLoops {} (bits w 24 23)).armed = true) :
    dspLoopOp d.val w n u = .fault u 4 0 := if_pos hc

theorem dspLoopOp_none (hc : (tblGet (u.dsp d.val).hwLoops {} (bits w 24 23)).armed ≠ true) :
    dspLoopOp d.val w 0 u = .ok u (.jump (((u.dsp d.val).pc + bits w 12 0) % 2 ^ 14 + 1)) 1 := if_neg hc

theorem dspLoopOp_arms (hc : (tblGet (u.dsp d.val).hwLoops {} (bits w 24 23)).armed ≠ true) (hn : n ≠ 0) :
    dspLoopOp d.val w n u =
      let x := u.dsp d.val
      u.dspOk d.val (x.arm (bits w 24 23)
        { armed := true, hc := n, hs := (x.pc + 1) % 2 ^ 14, he := (x.pc + bits w 12 0) % 2 ^ 14 }) :=
  (if_neg hc).trans (if_neg hn)

/-- Only operations of E space, and `SYNC`, stall before they issue (R142, R143). -/
theorem State.dspHold_internal (s : State) (d : Fin 16) (h : op.external = false) : s.dspHold d op = s := by
  simp [State.dspHold, h]

end Loops

/-- Settles O16: a branch, a return or `WAIT` by where it goes on, `LPS` and `LPR` alike by their context and count, `TRAP` by
its fault. -/
theorem dspFlow : Obligations.DspFlow := by
  intro d w s u back x y stop t k c he arms
  have hloop : ∀ {op : DspOp} {n : Nat}, op.external = false → DspReady s d op w u back →
      dspAct op d w u = dspLoopOp d.val w n u → Host.Outcome.next (s.dspIssue d op) = arms n := by
    intro op n hext h hact
    simp only [arms]
    split
    next hc =>
      have hfault := dspIssue_fault h (hact.trans (dspLoopOp_armed hc)) (by decide)
      rwa [State.dspHold_internal _ d hext] at hfault
    next hc =>
    split
    next hn =>
      subst hn
      exact dspIssue_ok h (hact.trans (dspLoopOp_none hc))
    next hn => exact dspIssue_ok h (hact.trans (dspLoopOp_arms hc hn))
  refine ⟨fun h => dspIssue_ok h rfl, fun h => dspIssue_ok h rfl, fun h => dspIssue_ok h rfl, fun h => dspIssue_ok h rfl,
    fun h => dspIssue_ok h rfl, fun h => hloop rfl h rfl, fun h => hloop rfl h rfl, fun h => ?lpx,
    fun h => dspIssue_ok h rfl, fun h => dspIssue_trap h rfl⟩
  case lpx =>
    split
    next hc => exact dspIssue_ok h (if_pos hc)
    next hc => exact dspIssue_fault h (if_neg hc) (by decide)

/-! ### E space and the special unit (R141–R144, R155) -/

/-! The fields of a record apart (`cases`), for the comparison of the values put would not end. -/

theorem DspSt.setReg_special (x : DspSt) (n v : Nat) : (x.setReg n v).special = x.special := by cases x; rfl

theorem DspSt.setAcc_special (x : DspSt) (k v : Nat) : (x.setAcc k v).special = x.special := by cases x; rfl

theorem DspSt.loopLater_special (x : DspSt) (k n v hw : Nat) : (x.loopLater k n v hw).special = x.special := by
  cases x; rfl

theorem DspSt.put_special (x : DspSt) (n v hw sr k : Nat) : (x.put n v hw sr k).special = x.special := by
  simp only [DspSt.put, apply_ite DspSt.special, DspSt.setReg_special, DspSt.setAcc_special, DspSt.loopLater_special,
    ite_self]

/-- What lands in a register leaves the special unit's time. -/
theorem DspSt.landFor_special (x : DspSt) (n : Nat) : (x.landFor n).special = x.special := by
  unfold DspSt.landFor
  refine List.foldlRecOn (motive := fun y : DspSt => y.special = x.special) _ _ rfl fun y hy l _ => ?_
  split
  · exact (DspSt.put_special ..).trans hy
  · exact hy

theorem DspSt.sticky_special (x : DspSt) (m : Nat) : (x.sticky m).special = x.special := DspSt.landFor_special x 0x28

section Externals
variable {u t : State} {d : Fin 16} {w val i : Nat}

theorem dspEldOp_outside (ha : dspWindow d.val ((u.dsp d.val).eAddr w) false = false) :
    dspEldOp d w u = .fault u 2 ((u.dsp d.val).eAddr w) := by
  simp [dspEldOp, ha]

theorem dspEldOp_reads (ha : dspWindow d.val ((u.dsp d.val).eAddr w) false = true)
    (hread : u.busRead (.ldsp d) ((u.dsp d.val).eAddr w) 4 = (t, some val)) :
    dspEldOp d w u = .ok (t.setDsp d.val ((t.dsp d.val).write (bits w 25 22) val)) .next
      (eldLatency ((u.dsp d.val).eAddr w)) := by
  simp [dspEldOp, ha, hread]

theorem dspEldOp_refused (ha : dspWindow d.val ((u.dsp d.val).eAddr w) false = true)
    (hread : u.busRead (.ldsp d) ((u.dsp d.val).eAddr w) 4 = (t, none)) :
    dspEldOp d w u = .fault t 2 ((u.dsp d.val).eAddr w) := by
  simp [dspEldOp, ha, hread]

theorem dspEstOp_outside (ha : dspWindow d.val ((u.dsp d.val).eAddr w) true = false) :
    dspEstOp d w u = .fault u 2 ((u.dsp d.val).eAddr w) := by
  simp [dspEstOp, ha]

theorem dspEstOp_posts (ha : dspWindow d.val ((u.dsp d.val).eAddr w) true = true) :
    dspEstOp d w u =
      let x := u.dsp d.val
      let q := u.postTime (x.eAddr w)
      .ok (q.1.setDsp d.val { x with
        stq := x.stq ++ [{ addr := x.eAddr w, val := x.reg (bits w 25 22), pc := x.pc, left := q.2 }] }) .next 1 := by
  simp [dspEstOp, ha]

/-- The first word of a block copy that its windows refuse, if any. -/
def DspSt.blkRefused (x : DspSt) (d w : Nat) : Option Nat :=
  (List.range (bits w 17 12 + 1)).find? fun i => !dspWindow d ((x.eAddr w + 4 * i) % 2 ^ 32) false

theorem dspBlkOp_outside {toY : Bool} (hi : (u.dsp d.val).blkRefused d.val w = some i) :
    dspBlkOp toY d w u = .fault u 2 (((u.dsp d.val).eAddr w + 4 * i) % 2 ^ 32) := by
  unfold DspSt.blkRefused at hi
  simp only [dspBlkOp, hi]

theorem dspBlkOp_inside {toY : Bool} (hi : (u.dsp d.val).blkRefused d.val w = none) :
    dspBlkOp toY d w u =
      let x := u.dsp d.val
      let n := bits w 17 12 + 1
      let a := x.eAddr w
      let dst := x.ptr (0x10 + bits w 24 22)
      if 0x4000 < dst + n then .fault u 3 (max dst 0x4000)
      else .ok (u.setDsp d.val { x with blk := some {
              toY := toY, dst := dst, src := a, left := n, wait := eldLatency a,
              gap := if 0x50000000 ≤ a && a < 0x51000000 then 1 else 4, pc := x.pc } }) .next 1 := by
  unfold DspSt.blkRefused at hi
  simp only [dspBlkOp, hi]

theorem DspSt.blkRefused_none {x : DspSt}
    (h : ∀ i, i < bits w 17 12 + 1 → dspWindow d ((x.eAddr w + 4 * i) % 2 ^ 32) false = true) :
    x.blkRefused d w = none := by
  simp only [DspSt.blkRefused, List.find?_eq_none, List.mem_range]
  exact fun i hi => by rw [h i hi]; decide

/-- A result of the special unit of a DSP whose record has just been put. -/
theorem dspSpecial_setDsp (x : DspSt) (dd v lat : Nat) : (u.setDsp d.val x).dspSpecial d.val dd v lat =
    .ok ((u.setDsp d.val x).setDsp d.val { x.writeLater dd v lat with special := x.special + lat }) .next
      (1 + x.special) := by
  rw [State.dspSpecial, State.setDsp_dsp]

theorem dspDivfOp_zero (hb : sgn 32 ((u.dsp d.val).reg (bits w 15 12)) = 0) :
    dspDivfOp d.val w u =
      (u.setDsp d.val ((u.dsp d.val).sticky 0x40000)).dspSpecial d.val (bits w 23 20)
        (if sgn 32 ((u.dsp d.val).reg (bits w 19 16)) < 0 then 0x80000000 else 0x7FFFFFFF) 16 := by
  simp only [dspDivfOp, if_pos hb, decide_eq_true_eq]

/-- The numerator of `DIVF`, with the sign of the quotient (R155). -/
def DspSt.divNum (x : DspSt) (w : Nat) : Int :=
  let Y := sgn 32 (x.reg (bits w 19 16))
  if sgn 32 (x.reg (bits w 15 12)) < 0 then -(Y * 2 ^ 31) else Y * 2 ^ 31

/-- The denominator of `DIVF`, without a sign. -/
def DspSt.divDen (x : DspSt) (w : Nat) : Nat := (sgn 32 (x.reg (bits w 15 12))).natAbs

theorem dspDivfOp_limited (hb : sgn 32 ((u.dsp d.val).reg (bits w 15 12)) ≠ 0)
    (h : 2 ^ 31 * ((u.dsp d.val).divDen w : Int) - (u.dsp d.val).divDen w < (u.dsp d.val).divNum w ∨
      (u.dsp d.val).divNum w < -(2 ^ 31) * ((u.dsp d.val).divDen w : Int)) :
    dspDivfOp d.val w u =
      (u.setDsp d.val ((u.dsp d.val).sticky 0x80000)).dspSpecial d.val (bits w 23 20)
        (if (u.dsp d.val).divNum w < 0 then 0x80000000 else 0x7FFFFFFF) 16 := by
  unfold DspSt.divDen DspSt.divNum at h
  simp only [dspDivfOp, if_neg hb, if_pos h, decide_eq_true_eq]
  rfl

theorem dspDivfOp_free (hb : sgn 32 ((u.dsp d.val).reg (bits w 15 12)) ≠ 0)
    (h : ¬(2 ^ 31 * ((u.dsp d.val).divDen w : Int) - (u.dsp d.val).divDen w < (u.dsp d.val).divNum w ∨
      (u.dsp d.val).divNum w < -(2 ^ 31) * ((u.dsp d.val).divDen w : Int))) :
    dspDivfOp d.val w u =
      let x := u.dsp d.val
      let q := x.divNum w / (x.divDen w : Int)
      let lo := if x.divNum w % (x.divDen w : Int) = 0 then q - 1 else q
      let f := u.draw (q + 1 - lo + 1).toNat
      f.1.dspSpecial d.val (bits w 23 20) (uns 32 (satI 32 (lo + f.2))) 16 := by
  unfold DspSt.divDen DspSt.divNum at h
  simp only [dspDivfOp, if_neg hb, if_neg h]
  rfl

end Externals

/-- Settles O17: E space by its windows and by what the bus answers, a block copy by the first word that a window refuses
(`DspSt.blkRefused`), the special unit by the result it has under way. -/
theorem dspExternals : Obligations.DspExternals := by
  intro d w s u back x stop a r Y X put copy
  have hstop : ∀ {op : DspOp} {t : State} {code addr : Nat}, code ≠ 7 → DspReady s d op w u back →
      dspAct op d w u = .fault t code addr → Host.Outcome.next (s.dspIssue d op) = stop op t code addr :=
    fun hc h hact => dspIssue_fault h hact hc
  have hcopy : ∀ {op : DspOp} {c : Instr} {toY : Bool}, exec c s = .next (s.dspIssue d op) →
      dspAct op d w u = dspBlkOp toY d w u → DspReady s d op w u back → copy op c toY := by
    intro op c toY hexec hact h
    refine ⟨fun i hi => ?_, fun hin => ?_⟩
    · exact hexec.trans (hstop (by decide) h (hact.trans (dspBlkOp_outside hi)))
    · have hact := hact.trans (dspBlkOp_inside (DspSt.blkRefused_none hin))
      rw [hexec]
      split
      next hfar => exact hstop (by decide) h (hact.trans (if_pos hfar))
      next hfar => exact dspIssue_ok h (hact.trans (if_neg hfar))
  have hsticky : ∀ {m v lat : Nat} {op : DspOp}, DspReady s d op w u back →
      dspAct op d w u = (u.setDsp d.val (x.sticky m)).dspSpecial d.val (bits w 23 20) v lat →
      Host.Outcome.next (s.dspIssue d op) = put (u.setDsp d.val (x.sticky m)) (x.sticky m) v lat := by
    intro m v lat op h hact
    rw [dspIssue_ok h (hact.trans (dspSpecial_setDsp ..)), DspSt.sticky_special]
  refine ⟨fun h => ⟨?eldOut, ?eld, ?eldRefused⟩, fun h => ⟨?estOut, ?est⟩, hcopy rfl rfl, hcopy rfl rfl,
    fun h => dspIssue_ok h rfl, fun h => ?ang, fun h => dspIssue_ok h rfl, fun h => ⟨?zero, ?limited, ?free⟩⟩
  case eldOut => exact fun ha => hstop (by decide) h (dspEldOp_outside ha)
  case eld => exact fun t val ha hread => dspIssue_ok h (dspEldOp_reads ha hread)
  case eldRefused => exact fun t ha hread => hstop (by decide) h (dspEldOp_refused ha hread)
  case estOut => exact fun ha => hstop (by decide) h (dspEstOp_outside ha)
  case est => exact fun ha => dspIssue_ok h (dspEstOp_posts ha)
  case ang =>
    split
    next h0 => exact dspIssue_ok h (if_pos h0)
    next h0 => exact dspIssue_ok h (if_neg h0)
  case zero => exact fun hb => hsticky h (dspDivfOp_zero hb)
  case limited => exact fun hb hlim => hsticky h (dspDivfOp_limited hb hlim)
  case free =>
    exact fun hb hle hge => dspIssue_ok h (dspDivfOp_free hb (not_or.mpr ⟨Int.not_lt.mpr hle, Int.not_lt.mpr hge⟩))

/-! ### Faults at issue (R144, R152, R157, R164) -/

/-- Each row of R152 issues its operation. -/
theorem exec_dspRow {d : Fin 16} {p : DspOp × Instr} (hp : p ∈ dspRows d) (s : State) :
    exec p.2 s = .next (s.dspIssue d p.1) := by
  have hrows : (dspRows d).map (fun p => exec p.2 s) = (dspRows d).map fun p => .next (s.dspIssue d p.1) := rfl
  exact List.map_inj_left.mp hrows p hp

theorem State.dspRefused_nil {s : State} {d : Nat} (h : (s.dsp d).refused = []) : s.dspRefused d = s := by
  simp [State.dspRefused, h]

theorem State.dspRefused_cons {s : State} {d pc a : Nat} {rest : List (Nat × Nat)}
    (h : (s.dsp d).refused = (pc, a) :: rest) :
    s.dspRefused d = (s.setDsp d { s.dsp d with refused := rest }).dspFault d 2 a pc (s.dsp d).pc := by
  simp [State.dspRefused, h]

section Issue
variable {s t : State} {d : Fin 16} {op : DspOp} {w : Nat}

/-- The DSP can issue an instruction: in RUN, or in the single step of a HALT, under its clock. -/
def State.dspIssues (s : State) (d : Fin 16) : Bool :=
  (s.dspState d.val == 1 || (s.dspState d.val == 3 && (s.dsp d.val).step)) && s.dspClock d.val

theorem State.dspIssues_of (h : s.dspState d.val = 1 ∨ s.dspState d.val = 3 ∧ (s.dsp d.val).step = true)
    (hclk : s.dspClock d.val = true) : s.dspIssues d = true := by
  simpa [State.dspIssues, hclk] using h

theorem State.dspIssues_eq_false (h : s.dspState d.val ≠ 1 ∧ (s.dspState d.val ≠ 3 ∨ (s.dsp d.val).step = false) ∨
    s.dspClock d.val = false) : s.dspIssues d = false := by
  rcases h with ⟨h1, h3⟩ | hclk
  · rcases h3 with h3 | h3 <;> simp [State.dspIssues, h1, h3]
  · simp [State.dspIssues, hclk]

theorem State.dspIssue_idle (h : s.dspIssues d = false) : s.dspIssue d op = s := by
  unfold State.dspIssues at h
  simp [State.dspIssue, h]

variable (hgo : s.dspIssues d = true)
include hgo

theorem State.dspIssue_past (hpc : 0x4000 ≤ (s.dsp d.val).pc) :
    s.dspIssue d op = (s.dspFault d.val 8 0 (s.dsp d.val).pc (s.dsp d.val).pc).stepEnd d := by
  unfold State.dspIssues at hgo
  simp [State.dspIssue, hgo, hpc]

variable (hpc : (s.dsp d.val).pc < 0x4000)
include hpc

theorem State.dspIssue_unread (hread : s.memRead (.dsp d.val .p) (dspWord d.val .p (s.dsp d.val).pc) 4 = (t, none)) :
    s.dspIssue d op = (t.dspFault d.val 5 (s.dsp d.val).pc (s.dsp d.val).pc (s.dsp d.val).pc).stepEnd d := by
  unfold State.dspIssues at hgo
  simp [State.dspIssue, hgo, Nat.not_le.mpr hpc, hread]

variable (hread : s.memRead (.dsp d.val .p) (dspWord d.val .p (s.dsp d.val).pc) 4 = (t, some w))
include hread

theorem State.dspIssue_reserved (hw : dspDecode w = none) :
    s.dspIssue d op = (t.dspFault d.val 1 0 (s.dsp d.val).pc (s.dsp d.val).pc).stepEnd d := by
  unfold State.dspIssues at hgo
  simp [State.dspIssue, hgo, Nat.not_le.mpr hpc, hread, hw]

variable (hw : dspDecode w = some op)
include hw

/-- What may not stand in a delay slot stands in one (R157). -/
theorem State.dspIssue_slot (hop : op.notInSlot = true) (hslot : (s.dsp d.val).slot.isSome = true) :
    s.dspIssue d op = (t.dspFault d.val 1 0 (s.dsp d.val).pc (s.dsp d.val).pc).stepEnd d := by
  unfold State.dspIssues at hgo
  obtain ⟨x, hx⟩ := Option.isSome_iff_exists.mp hslot
  simp [State.dspIssue, hgo, Nat.not_le.mpr hpc, hread, hw, hop, hx]

/-- A refusal waits for an operation of E space, outside a delay slot (R144). -/
theorem State.dspIssue_refused {pc a : Nat} {rest : List (Nat × Nat)} (hop : op.external = true)
    (hslot : (s.dsp d.val).slot = none) (href : ((t.dspHold d op).dsp d.val).refused = (pc, a) :: rest) :
    s.dspIssue d op =
      (((t.dspHold d op).setDsp d.val { (t.dspHold d op).dsp d.val with refused := rest }).dspFault d.val 2 a pc
        ((t.dspHold d op).dsp d.val).pc).stepEnd d := by
  unfold State.dspIssues at hgo
  simp [State.dspIssue, hgo, Nat.not_le.mpr hpc, hread, hw, hop, hslot, href, State.dspRefused_cons href]

end Issue

/-- A fault without an address (R164). -/
theorem State.dspFault_plain {s : State} {d code : Nat} (addr fpc ipc : Nat) (h2 : code ≠ 2) (h3 : code ≠ 3)
    (h5 : code ≠ 5) :
    s.dspFault d code addr fpc ipc =
      let u := ((s.set (LDSP_FPC_PC d) fpc).set (LDSP_STAT_FCODE d) code).set (LDSP_FLAG_FAULT d) 1
      if bit (s.dsp d).sr 29 || bit (s.dsp d).sr 30 then (u.set (LDSP_FLAG_DFAULT d) 1).dspFaultHalt d
      else u.dspEnterHandler d ipc 0x0004 true := by
  simp [State.dspFault, h2, h3, h5]

/-- Settles O18: every row issues its operation (`exec_dspRow`), and what stands at the PC decides what the issue comes to. -/
theorem dspTraps : Obligations.DspTraps := by
  intro d s t w x rd
  refine ⟨fun hrun hclk p hp => ?_, fun p hp h => ?_, fun code addr fpc ipc => State.dspFault_plain addr fpc ipc⟩
  · have hgo := State.dspIssues_of hrun hclk
    rw [exec_dspRow hp]
    refine ⟨fun hpc => ?past, fun hpc hread => ?unread, fun hpc hread hw => ?reserved, fun hpc hread hw hop hslot => ?slot,
      fun pc a rest hpc hread hw hop hslot href => ?refused⟩
    case past => exact congrArg Host.Outcome.next (State.dspIssue_past hgo hpc)
    case unread => exact congrArg Host.Outcome.next (State.dspIssue_unread hgo hpc hread)
    case reserved => exact congrArg Host.Outcome.next (State.dspIssue_reserved hgo hpc hread hw)
    case slot => exact congrArg Host.Outcome.next (State.dspIssue_slot hgo hpc hread hw hop hslot)
    case refused => exact congrArg Host.Outcome.next (State.dspIssue_refused hgo hpc hread hw hop hslot href)
  · rw [exec_dspRow hp, State.dspIssue_idle (State.dspIssues_eq_false h)]

/-! ### Control registers (R159, R161, R165–R167) -/

/-- The page of a loop DSP's registers holds no memory. -/
theorem memClass_dsp_regs {a : Nat} (h : 0x60000000 ≤ a ∧ a < 0x60400000) (ho : a % 0x40000 < 0x10000) :
    memClass a = none := by
  have hpage : a % 0x40000 / 0x10000 = 0 := by omega
  unfold memClass
  rw [if_neg (by omega), if_pos h, hpage]
  rfl

/-- A write that is accepted, to the register at the offset `o` of the loop DSP `n` that does `f` beside. -/
theorem Writes.of_dsp_hook {c : Instr} {m : Master} {n : Fin 16} {o a : Nat} {w : Word} {s : State} {f : State → State}
    (ha : a = 0x60000000 + n.val * 0x40000 + o) (he : exec c s = .next (s.busDo m a 4 w.toNat))
    (hk : ∀ t, regHook (0x60000000 + o + 0x40000 * n.val) w.toNat [] s t = f t) (ho : o < 0x10000 := by decide)
    (h4 : o % 4 = 0 := by decide) : Writes c m a w s f := by
  have haddr : a = 0x60000000 + o + 0x40000 * n.val := by omega
  have hlate : rtcLateReg a = false := by
    simp only [rtcLateReg, Bool.or_eq_false_iff, beq_eq_false_iff_ne]
    omega
  exact Writes.of_hook he (memClass_dsp_regs (by omega) (by omega)) (by omega) (by omega) hlate (haddr ▸ hk)

/-- Settles O19: each register by what its write sets in motion. -/
theorem dspControl : Obligations.DspControl := by
  intro m d g w s ctl group
  have hctl : ∀ {c : Instr}, exec c s = .next (s.busDo m (LDSP_CTL_RUN d.val).addr 4 w.toNat) →
      Writes c m (LDSP_CTL_RUN d.val).addr w s ctl :=
    fun he => Writes.of_dsp_hook rfl he (regHook_dspCtl d w.toNat [] s)
  have hgroup : ∀ {c : Instr}, exec c s = .next (s.busDo m (LDSP_GCTL_CKEN g.val).addr 4 w.toNat) →
      Writes c m (LDSP_GCTL_CKEN g.val).addr w s group := by
    intro c he
    refine Writes.of_dsp_hook (n := ⟨4 * g.val, by omega⟩) (o := 0x40) ?_ he fun t => ?_
    · simp only [LDSP_GCTL_CKEN]; omega
    · rw [show 0x60000000 + 0x40 + 0x40000 * (4 * g.val) = 0x60000040 + 0x100000 * g.val by omega]
      exact regHook_dspGctl g w.toNat [] s t
  exact ⟨hctl rfl, hctl rfl, hctl rfl, hctl rfl, hctl rfl, hgroup rfl, hgroup rfl,
    Writes.of_dsp_hook rfl rfl (regHook_dspDbell d w.toNat [] s),
    Writes.of_dsp_hook rfl rfl (regHook_dspOutbox d w.toNat [] s),
    Writes.of_dsp_hook rfl rfl (regHook_dspWdog d w.toNat [] s)⟩

/-! ### Events (R143, R144, R159, R160) -/

section Events
variable {s : State} {d : Fin 16}

theorem State.blkDone_of_blk {b : BlkSt} (h : (s.dsp d.val).blk = some b) :
    s.blkDone d = s.blkRun d 64 (b.wait + (b.left - 1) * b.gap) := by
  rw [State.blkDone, DspSt.blkLeft, h]

section Active
variable (hst : s.dspState d.val = 1 ∨ s.dspState d.val = 2) (hclk : s.dspClock d.val = true)
  (hslot : (s.dsp d.val).slot = none)
include hst hclk hslot

theorem State.dspPosted_active :
    s.dspPosted d = ((s.stqDone d).dspRefused d.val).dspSettle d := by
  have hact : (s.dspState d.val == 1 || s.dspState d.val == 2) = true := by simpa using hst
  simp [State.dspPosted, hact, hclk, hslot]

theorem State.dspInterrupt_enters (hie : bit (s.dsp d.val).srSeen 31 = true)
    (hsh : bit (s.dsp d.val).sr 30 = false) {v : Nat} (hv : s.dspVector d.val = some v) :
    s.dspInterrupt d = (s.dspEnterHandler d.val (s.dsp d.val).pc v false).dspStall d (8 + (s.dsp d.val).special) := by
  have hact : (s.dspState d.val == 1 || s.dspState d.val == 2) = true := by simpa using hst
  simp [State.dspInterrupt, hact, hclk, hslot, hie, hsh, hv]

end Active

theorem State.dspInterrupt_disabled (hie : bit (s.dsp d.val).srSeen 31 = false) : s.dspInterrupt d = s := by
  simp [State.dspInterrupt, hie]

/-- The pending enabled source of the highest priority names the vector (R159). -/
theorem State.dspVector_eq_some {d v : Nat}
    (h : if s.cluIrq d && s.on (LDSP_IRQEN_CLU d) then v = 0x0008
      else if s.on (LDSP_IRQ_EPOCH d) && s.on (LDSP_IRQEN_EPOCH d) then v = 0x000C
      else if s.on (LDSP_IRQ_DBELL d) && s.on (LDSP_IRQEN_DBELL d) then v = 0x0010
      else (s.on (LDSP_IRQ_TIMER d) && s.on (LDSP_IRQEN_TIMER d)) = true ∧ v = 0x0014) : s.dspVector d = some v := by
  unfold State.dspVector
  split at h
  next hclu => rw [if_pos hclu, h]
  next hclu =>
  rw [if_neg hclu]
  split at h
  next hepoch => rw [if_pos hepoch, h]
  next hepoch =>
  rw [if_neg hepoch]
  split at h
  next hbell => rw [if_pos hbell, h]
  next hbell => rw [if_neg hbell, if_pos h.1, h.2]

/-- Entry to an interrupt's handler sets no `FX` (R160). -/
theorem State.dspEnterHandler_interrupt (s : State) (d ipc v : Nat) : s.dspEnterHandler d ipc v false =
    let p := s.dspDrain d
    let y := p.dsp d
    let sr := y.sr &&& 0x7FFFFFFF
    let z : DspSt := { y with
      ipc := ipc % 2 ^ 14, isr := y.sr, sr := sr, pc := v, slot := none, inWait := false,
      resume := y.resume.map fun r => if r = 2 then 1 else r }
    let q := p.setDsp d (if p.on (LDSP_CTL_SHADOW d) then { z.swap with sr := sr ||| 0x40000000 } else z)
    if q.dspState d = 2 then q.dspEnter d 1 else q := by
  simp only [State.dspEnterHandler, b2n, Bool.false_eq_true, if_false, Nat.zero_mul, Nat.or_zero]

/-! ### The timer (R159, R168) -/

theorem State.dspTimer_idle {d : Nat} (h : s.dspState d = 0 ∨ s.dspClock d = false) : s.dspTimer d = s := by
  rcases h with h | h <;> simp [State.dspTimer, h]

/-- Cycles until the cycle counter reads the compared value. -/
def State.dspToMatch (s : State) (d : Nat) : Nat :=
  (s.get (LDSP_TCMP_CMP d) + 2 ^ 32 - s.get (LDSP_CYC_COUNT d)) % 2 ^ 32

/-- The timer finds its match among `n` cycles. -/
def State.dspFinds (s : State) (d n : Nat) : State :=
  if 0 < s.dspToMatch d ∧ s.dspToMatch d ≤ n then s.set (LDSP_IRQ_TIMER d) 1 else s

/-- The counters of cycles after some more have passed. -/
def State.dspCounted (s : State) (d n act : Nat) : State :=
  ((s.dspFinds d n).inc (LDSP_CYC_COUNT d) n).inc (LDSP_ACT_COUNT d) act

theorem State.dspPass_eq (s : State) (d n act : Nat) : s.dspPass d n act =
    let t := s.dspCounted d n act
    t.setDsp d { t.dsp d with cycles := (t.dsp d).cycles + n, special := (t.dsp d).special - n } := rfl

theorem State.dspFinds_toMatch (s : State) (d : Nat) : s.dspFinds d (s.dspToMatch d) =
    if 0 < s.dspToMatch d then s.set (LDSP_IRQ_TIMER d) 1 else s := by
  simp only [State.dspFinds, Nat.le_refl, and_true]

theorem State.set_regsRise (f : Field) (v : Nat) (h : regsRise s = true) : regsRise (s.set f v) = true :=
  tblSorted_put _ _ _ _ h

theorem State.dspFinds_regsRise (h : regsRise s = true) (d n : Nat) : regsRise (s.dspFinds d n) = true := by
  unfold State.dspFinds
  split
  · exact State.set_regsRise _ _ h
  · exact h

theorem State.dspFinds_get_cyc (s : State) (d n : Nat) :
    (s.dspFinds d n).get (LDSP_CYC_COUNT d) = s.get (LDSP_CYC_COUNT d) := by
  unfold State.dspFinds
  split
  · exact State.set_get_ne _ _ (by simp only [Field.key, LDSP_IRQ_TIMER, LDSP_CYC_COUNT]; omega)
  · rfl

theorem State.dspCounted_regsRise (h : regsRise s = true) (d n act : Nat) : regsRise (s.dspCounted d n act) = true :=
  State.set_regsRise _ _ (State.set_regsRise _ _ (State.dspFinds_regsRise h d n))

theorem State.inc_cyc_get (h : regsRise s = true) (d n : Nat) :
    (s.inc (LDSP_CYC_COUNT d) n).get (LDSP_CYC_COUNT d) = (s.get (LDSP_CYC_COUNT d) + n) % 2 ^ 32 :=
  State.set_get s _ _ h

theorem State.dspCounted_get_cyc (s : State) (d n act : Nat) : (s.dspCounted d n act).get (LDSP_CYC_COUNT d) =
    ((s.dspFinds d n).inc (LDSP_CYC_COUNT d) n).get (LDSP_CYC_COUNT d) :=
  State.set_get_ne _ _ (by simp only [Field.key, LDSP_ACT_COUNT, LDSP_CYC_COUNT]; omega)

/-- The counters stand at the match, `act` of the cycles to it in RUN. -/
def State.dspMatched (s : State) (d act : Nat) : State :=
  let n := s.dspToMatch d
  let t := if 0 < n then s.set (LDSP_IRQ_TIMER d) 1 else s
  let t := (t.inc (LDSP_CYC_COUNT d) n).inc (LDSP_ACT_COUNT d) act
  (t.setDsp d { t.dsp d with cycles := (t.dsp d).cycles + n, special := (t.dsp d).special - n }).set (LDSP_IRQ_TIMER d) 1

theorem State.dspMatched_eq (s : State) (d act : Nat) : s.dspMatched d act =
    (s.dspPass d (s.dspToMatch d) act).set (LDSP_IRQ_TIMER d) 1 := by
  rw [State.dspMatched, State.dspPass_eq, State.dspCounted, State.dspFinds_toMatch]

theorem State.dspTimer_runs {d : Nat} (hst : s.dspState d ≠ 0) (hclk : s.dspClock d = true) :
    s.dspTimer d = s.dspMatched d (if s.dspState d = 1 then s.dspToMatch d else 0) := by
  simp [State.dspTimer, hst, hclk, State.dspMatched_eq, State.dspCycles, State.dspToMatch]

theorem State.dspPass_regsRise (h : regsRise s = true) (d n act : Nat) : regsRise (s.dspPass d n act) = true := by
  rw [State.dspPass_eq, regsRise, State.setDsp_reg]
  exact State.dspCounted_regsRise h d n act

theorem State.set_timer_cyc (s : State) (d : Nat) :
    (s.set (LDSP_IRQ_TIMER d) 1).get (LDSP_CYC_COUNT d) = s.get (LDSP_CYC_COUNT d) :=
  State.set_get_ne _ _ (by simp only [Field.key, LDSP_IRQ_TIMER, LDSP_CYC_COUNT]; omega)

theorem State.set_timer_on (h : regsRise s = true) (d : Nat) :
    (s.set (LDSP_IRQ_TIMER d) 1).on (LDSP_IRQ_TIMER d) = true := by
  rw [State.on, State.set_get _ _ _ h]
  rfl

/-- At the match the counter reads the compared value. -/
theorem State.dspMatched_cyc (h : regsRise s = true) (d act : Nat)
    (hcyc : s.get (LDSP_CYC_COUNT d) < 2 ^ 32) (hcmp : s.get (LDSP_TCMP_CMP d) < 2 ^ 32) :
    (s.dspMatched d act).get (LDSP_CYC_COUNT d) = s.get (LDSP_TCMP_CMP d) := by
  rw [State.dspMatched_eq, State.set_timer_cyc, State.dspPass_eq, State.setDsp_get, State.dspCounted_get_cyc,
    State.inc_cyc_get (State.dspFinds_regsRise h d _), State.dspFinds_get_cyc, State.dspToMatch]
  omega

theorem State.dspMatched_timer (h : regsRise s = true) (d act : Nat) :
    (s.dspMatched d act).on (LDSP_IRQ_TIMER d) = true := by
  rw [State.dspMatched_eq]
  exact State.set_timer_on (State.dspPass_regsRise h d _ act) d

/-- The watchdog at its limit (R167). -/
theorem State.dspWatchdog_expires {d : Nat} (hen : s.on (LDSP_WDOG_EN d) = true)
    (hlimit : max 1 (s.get (LDSP_WDOG_LIMIT d)) ≤ s.get (LDSP_WDOG_COUNT d)) (h0 : s.dspState d ≠ 0)
    (h4 : s.dspState d ≠ 4) :
    s.dspWatchdog d =
      let t := (s.set (LDSP_STAT_FCODE d) 6).set (LDSP_FLAG_WDOG d) 1
      (t.set (LDSP_FPC_PC d) (t.dsp d).pc).dspFaultHalt d := by
  have hdue : s.dspLimit d ≤ s.get (LDSP_WDOG_COUNT d) := hlimit
  simp only [State.dspWatchdog, hen, hdue, h0, h4, decide_true, Bool.and_self, bne_iff_ne, ne_eq, not_false_eq_true,
    Bool.true_and, Bool.and_eq_true, and_self, if_true]

end Events

/-! ### Another master at the memories (R145) -/

section MemoryAccess
variable {s t : State} {m : Master} {d : Fin 16} {sp : DspSpace} {k : Nat}

/-- The place of a memory among the pages of its DSP (R400). -/
def dspPage : DspSpace → Nat
  | .x => 1
  | .y => 2
  | .p => 3

theorem dspPage_bounds (sp : DspSpace) : 1 ≤ dspPage sp ∧ dspPage sp ≤ 3 := by cases sp <;> decide

theorem dspWord_eq (d : Nat) (sp : DspSpace) (k : Nat) :
    dspWord d sp k = 0x60000000 + d * 0x40000 + dspPage sp * 0x10000 + k * 4 := by cases sp <;> rfl

theorem dspSpaceAddr_word (hk : k < 0x4000) : dspSpaceAddr d sp (4 * k) = dspWord d.val sp k := by
  cases sp <;> simp only [dspSpaceAddr, dspWord] <;> omega

theorem memClass_dspWord (hk : k < 0x4000) : memClass (dspWord d.val sp k) = some (.dsp d.val sp) := by
  have hword := dspWord_eq d.val sp k
  have hsp := dspPage_bounds sp
  have hd : (dspWord d.val sp k - 0x60000000) / 0x40000 = d.val := by omega
  have hpage : dspWord d.val sp k % 0x40000 / 0x10000 = dspPage sp := by omega
  unfold memClass
  rw [if_neg (by omega), if_pos (by omega), hd, hpage]
  cases sp <;> rfl

theorem dsp_takes_word : MemClass.takes (.dsp d.val sp) (dspWord d.val sp k) 4 = true := by
  have hword := dspWord_eq d.val sp k
  have h4 : dspWord d.val sp k % 4 = 0 := by omega
  simp [MemClass.takes, h4]

theorem State.memWrite_dsp_accepts (s : State) (d : Nat) (sp : DspSpace) (a v : Nat) :
    (s.memWrite (.dsp d sp) a 4 v).2 = true := by
  simp [State.memWrite, MemClass.unit]

theorem State.memWritable_dsp {a : Nat}
    (h : sp = .p → s.dspState d.val = 0 ∨ s.dspState d.val = 3 ∨ s.dspState d.val = 4) :
    s.memWritable (.dsp d.val sp) a = true := by
  cases sp with
  | x => rfl
  | y => rfl
  | p => simpa [State.memWritable, or_assoc] using h rfl

/-- P is closed to other masters while the DSP runs, waits or is stopped (R145). -/
theorem State.memWritable_dsp_busy {a : Nat} (h : s.dspState d.val = 1 ∨ s.dspState d.val = 2 ∨ s.dspState d.val = 5) :
    s.memWritable (.dsp d.val .p) a = false := by
  rcases h with h | h | h <;> simp [State.memWritable, h]

theorem exec_dspMemoryAccess (hk : k < 0x4000) (wr : Option Word) (s : State) :
    exec (.dspMemoryAccess m d sp (4 * k) .b4 wr) s = .next (s.busAccess m (dspWord d.val sp k) 4 wr) := by
  rw [← dspSpaceAddr_word hk]
  rfl

theorem State.busWrite_dsp_word (hk : k < 0x4000) (hok : s.busAllowed m (dspWord d.val sp k) true = true)
    (hw : s.memWritable (.dsp d.val sp) (dspWord d.val sp k) = true) (v : Word) :
    s.busWrite m (dspWord d.val sp k) 4 v.toNat =
      (((s.dspStoresLand d.val).memWrite (.dsp d.val sp) (dspWord d.val sp k) 4 v.toNat).1, true) := by
  have hv : v.toNat % 2 ^ (8 * 4) = v.toNat := Nat.mod_eq_of_lt v.isLt
  have hbus : s.busWrite m (dspWord d.val sp k) 4 v.toNat =
      (s.dspStoresLand d.val).memWrite (.dsp d.val sp) (dspWord d.val sp k) 4 (v.toNat % 2 ^ (8 * 4)) := by
    simp only [State.busWrite, hok, memClass_dspWord hk, dsp_takes_word, hw, State.memSettle, Bool.not_true,
      Bool.and_self, Bool.false_eq_true, if_false, if_true]
  rw [hbus, hv]
  exact Prod.ext rfl (State.memWrite_dsp_accepts _ _ _ _ _)

theorem State.busWrite_dsp_busy (hk : k < 0x4000)
    (h : s.dspState d.val = 1 ∨ s.dspState d.val = 2 ∨ s.dspState d.val = 5) (v : Word) :
    s.busWrite m (dspWord d.val .p k) 4 v.toNat = (s, false) := by
  simp [State.busWrite, memClass_dspWord hk, State.memWritable_dsp_busy h]

theorem State.busRead_dsp_word {r : Nat} (hk : k < 0x4000) (hok : s.busAllowed m (dspWord d.val sp k) false = true)
    (hread : (s.dspStoresLand d.val).memRead (.dsp d.val sp) (dspWord d.val sp k) 4 = (t, some r)) :
    s.busRead m (dspWord d.val sp k) 4 = (t, some r) := by
  simp [State.busRead, hok, memClass_dspWord hk, dsp_takes_word, State.memSettle, hread]

end MemoryAccess

/-- Settles O20: each event by the operation that it is, case by case, the timer by its state at the match
(`State.dspMatched`), an access by the memory its address lies in. -/
theorem dspEvents : Obligations.DspEvents := by
  intro d s x st irq
  refine ⟨fun b hb => ?copy, fun hst hclk hslot => ?posted, fun hst hclk hie hsh hslot v hv => ?enters,
    fun hie => ?disabled, fun h => ?idle, fun hst hclk => ?timer, fun hen hlimit h0 h4 => ?watchdog, fun m sp k v hk => ?access⟩
  case copy => exact congrArg Host.Outcome.next (State.blkDone_of_blk hb)
  case posted =>
    have hexec : exec (.dspPostedBusError d) s = .next (((s.stqRun d x.stqLeft).dspRefused d.val).dspSettle d) :=
      congrArg Host.Outcome.next (State.dspPosted_active hst hclk hslot)
    exact ⟨fun href => by rw [hexec, State.dspRefused_nil href],
      fun pc a rest href => by rw [hexec, State.dspRefused_cons href]⟩
  case enters =>
    have hexec : exec (.dspInterruptEntry d) s =
        .next ((s.dspEnterHandler d.val x.pc v false).dspStall d (8 + x.special)) :=
      congrArg Host.Outcome.next (State.dspInterrupt_enters hst hclk hslot hie hsh (State.dspVector_eq_some hv))
    rw [hexec, State.dspEnterHandler_interrupt]
  case disabled => exact congrArg Host.Outcome.next (State.dspInterrupt_disabled hie)
  case idle => exact congrArg Host.Outcome.next (State.dspTimer_idle h)
  case timer =>
    intro cmp n t₁ t₂ t
    have ht : t = s.dspMatched d.val (if st = 1 then n else 0) := rfl
    rw [ht]
    exact ⟨congrArg Host.Outcome.next (State.dspTimer_runs hst hclk), fun hs hcyc hcmp =>
      ⟨State.dspMatched_cyc hs d.val _ hcyc hcmp, State.dspMatched_timer hs d.val _⟩⟩
  case watchdog => exact congrArg Host.Outcome.next (State.dspWatchdog_expires hen hlimit h0 h4)
  case access =>
    refine ⟨fun hok hp => ?write, fun hp hbusy => ?refused, fun t r hok hread => ?read⟩
    all_goals rw [exec_dspMemoryAccess hk]
    case write =>
      rw [State.busAccess, State.busDo, State.busWrite_dsp_word hk hok (State.memWritable_dsp hp)]
    case refused =>
      subst hp
      rw [State.busAccess, State.busDo_refused (State.busWrite_dsp_busy hk hbusy v)]
    case read => rw [State.busAccess, State.busGet, State.busRead_dsp_word hk hok hread]

end Sys2Proof.Machine

/-! SUPPORT. Navigation data, solutions and the mordant set (ch. 7): what a message's item, a tag and a solution epoch come to,
case by case, and the statements about them (O21, O22). -/

namespace Sys2Proof.Machine

/-! ### An item of a message alone (R176) -/

@[simp] theorem State.item_none {α : Type} (s : State) (f : State → α → State) : s.item none f = s := rfl
@[simp] theorem State.item_some {α : Type} (s : State) (a : α) (f : State → α → State) : s.item (some a) f = f s a := rfl

/-- A message that no core takes, or whose check fails, is discarded whole. -/
theorem State.navMessage_discarded {s : State} {x : NavMsg} (h : s.navOn = false ∨ x.ok = false) : s.navMessage x = s := by
  rcases h with h | h <;> simp [State.navMessage, h]

section Message

variable {s : State} {kd : MsgKind} {p : Fin 7} {v : Fin 256} {crc : Bool} (hon : s.navOn = true) (hp : p.val ≠ 6)
include hon hp

theorem State.navMessage_eph (e : EphIn) :
    let x : NavMsg := { kind := kd, sys := p, sv := v, ok := true, crc := crc, eph := some e }
    s.navMessage x = s.navEph x e := by
  simp [State.navMessage, State.navAiding, hon, hp]

theorem State.navMessage_utcofs (u : Int) :
    s.navMessage { kind := kd, sys := p, sv := v, ok := true, crc := crc, utcofs := some u } = s.navUtc p.val u := by
  simp [State.navMessage, State.navAiding, hon, hp]

theorem State.navMessage_leap (kind sec : Nat) :
    s.navMessage { kind := kd, sys := p, sv := v, ok := true, crc := crc, leap := some (kind, sec) } =
      s.navLeap p.val kind sec := by
  simp [State.navMessage, State.navAiding, hon, hp]

theorem State.navMessage_week (w b : Nat) :
    s.navMessage { kind := kd, sys := p, sv := v, ok := true, crc := crc, week := some (w, b) } = s.navWeek p.val w b := by
  simp [State.navMessage, State.navAiding, hon, hp]

end Message

/-! ### Ephemeris sets (R177) -/

theorem atOnce_iff (x : NavMsg) : atOnce x = true ↔ x.crc = true ∧ x.kind ≠ .lnav ∧ x.kind ≠ .glonass := by
  simp [atOnce, and_assoc]

section Ephemeris

variable {s : State} {x : NavMsg} {e : EphIn}

/-- A set that needs two equal receptions, at its first: it is heard, no more. -/
theorem State.navEph_first (hx : ¬ atOnce x = true)
    (hy : (s.sat (setKey x.sys.val x.sv.val (x.kind == .fnav))).heard ≠ some e.set) :
    s.navEph x e = s.setSat (setKey x.sys.val x.sv.val (x.kind == .fnav))
      { s.sat (setKey x.sys.val x.sv.val (x.kind == .fnav)) with heard := some e.set } := by
  simp [State.navEph, hx, hy]

/-- A set received well enough is held already, or is refused, or waits for its use. -/
theorem State.navEph_received
    (h : atOnce x = true ∨ (s.sat (setKey x.sys.val x.sv.val (x.kind == .fnav))).heard = some e.set) :
    s.navEph x e =
      let j := setKey x.sys.val x.sv.val (x.kind == .fnav)
      let y := s.sat j
      if y.used = some e.set ∨ y.next = some e.set then s
      else if s.ephFar x.sys.val y (s.sat (satKey x.sys.val x.sv.val)).alm e.set then
        { s with nav := { s.nav with refused := s.nav.refused + 1, ephrefAt := some s.tim.up } }
      else s.setSat j { y with
        heard := some e.set, next := some e.set, nextT := e.t, nextAuth := false, nextFit := Machine.fitOf x.sys.val e.fit,
        nextTerms := e.terms.foldl (fun t q => tblSet t q.1 q.2) [], nextHealthy := e.healthy, nextUra := e.ura } := by
  rcases h with h | h <;> simp [State.navEph, h]

end Ephemeris

/-! ### UTC and leap seconds (R181, R230) -/

section Utc

variable {s : State} {p : Nat}

theorem State.navUtc_other (h : p ≠ s.navField 0x01) (u : Int) : s.navUtc p u = s := by simp [State.navUtc, h]

theorem State.navUtc_first {u : Int} (hp : p = s.navField 0x01) (h : ∀ a, s.nav.utcHeard ≠ some (u, a)) :
    s.navUtc p u = { s with nav := { s.nav with utcHeard := some (u, tvSec s.now) } } := by
  simp only [State.navUtc, hp, ne_eq, not_true_eq_false, if_false]
  split
  next w a hw =>
    have hwu : w ≠ u := fun hwu => h a (hwu ▸ hw)
    rw [if_neg hwu]
  next => rfl

theorem State.navUtc_again {u : Int} {a : Nat} (hp : p = s.navField 0x01) (h : s.nav.utcHeard = some (u, a)) :
    s.navUtc p u = if a + 30 ≤ tvSec s.now then s.setI TIM_UTC_UTCOFS u else s := by
  simp only [State.navUtc, hp, h, ne_eq, not_true_eq_false, if_false, if_true, ← Nat.not_le, ite_not]

/-- Nothing is compared while no other system has announced an event. -/
theorem State.leapCompare_alone (h : s.nav.leapOther = none) : s.leapCompare = s := by simp [State.leapCompare, h]

/-- Another system's event beside the one accepted. -/
theorem State.leapCompare_accepted {a b : Nat × Nat} (ha : s.nav.leapAcc = some a) (hb : s.nav.leapOther = some b) :
    s.leapCompare = if a = b then s else { s with nav := { s.nav with leapdisAt := some s.tim.up } } := by
  simp [State.leapCompare, ha, hb]

theorem State.navLeap_first (ho : s.nav.leapOther = none) (hp : p = s.navField 0x01) (h : s.nav.leapHeard = none)
    (kind sec : Nat) :
    s.navLeap p kind sec = { s with nav := { s.nav with leapHeard := some (kind, sec, tvSec s.now) } } := by
  simp only [State.navLeap, if_pos hp, h]
  exact State.leapCompare_alone ho

theorem State.navLeap_accepted {kind sec a : Nat} (ho : s.nav.leapOther = none) (hp : p = s.navField 0x01)
    (h : s.nav.leapHeard = some (kind, sec, a)) (ha : a + 30 ≤ tvSec s.now) (hacc : s.nav.leapAcc ≠ some (kind, sec)) :
    s.navLeap p kind sec =
      ((({ s with nav := { s.nav with leapAcc := some (kind, sec) } }.set TIM_UTC_LEAP kind).set2 TIM_LEAPT_L_SEC
        TIM_LEAPT_H_SEC sec).mordantAsk) := by
  have hwait : ¬(tvSec s.now < a + 30 ∨ s.nav.leapAcc = some (kind, sec)) := not_or.mpr ⟨Nat.not_lt.mpr ha, hacc⟩
  simp only [State.navLeap, if_pos hp, h, and_self, if_true, if_neg hwait]
  exact State.leapCompare_alone ho

theorem State.navLeap_other {kind sec : Nat} {a : Nat × Nat} (hp : p ≠ s.navField 0x01) (h : s.nav.leapAcc = some a) :
    s.navLeap p kind sec = { s with nav := { s.nav with
      leapOther := some (kind, sec), leapdisAt := if a = (kind, sec) then s.nav.leapdisAt else some s.tim.up } } := by
  refine (if_neg hp).trans ((State.leapCompare_accepted
    (s := { s with nav := { s.nav with leapOther := some (kind, sec) } }) h rfl).trans ?_)
  split <;> rfl

end Utc

/-! ### Weeks (R180) -/

section Week

variable {s : State} {p w b : Nat} (h1 : p ≠ 1) (h2 : p ≠ 2)
include h1 h2

theorem State.navWeek_taken (h : s.nav.week13 = true → b = 0 ∨ 13 ≤ b) :
    s.navWeek p w b = { s with nav := { s.nav with
      week := weekNear (if s.dayKnown then s.devWeek else s.nav.week) w b, week13 := s.nav.week13 || b == 13 } } := by
  have hwide : (s.nav.week13 && decide (0 < b) && decide (b < 13)) = false := by
    cases hw : s.nav.week13 with
    | false => rfl
    | true =>
      have := h hw
      simp only [Bool.true_and, Bool.and_eq_false_iff, decide_eq_false_iff_not]
      omega
  simp [State.navWeek, h1, h2, hwide]

/-- A week shorter than 13 bits gives way to a 13-bit one. -/
theorem State.navWeek_short (hw : s.nav.week13 = true) (h0 : 0 < b) (h13 : b < 13) : s.navWeek p w b = s := by
  simp [State.navWeek, h1, h2, hw, h0, h13]

end Week

/-! ### OSNMA (R179) -/

theorem State.osnmaTag_off {s : State} (h : s.navOn = false) (x : TagIn) : s.osnmaTag x = s := by
  simp [State.osnmaTag, h]

theorem State.osnmaTag_noTime {s : State} (hon : s.navOn = true) (h : s.osnmaTime = false) (x : TagIn) :
    s.osnmaTag x = { s with nav := { s.nav with notime := true } } := by
  simp [State.osnmaTag, hon, h]

/-- A tag that comes while OSNMA has time finds the core past NOTIME. -/
def State.withTime (s : State) : State := { s with nav := { s.nav with notime := false } }

theorem State.withTime_of_osnmaTime {s : State} (h : s.osnmaTime = true) :
    ({ s with nav := { s.nav with notime := !s.osnmaTime } } : State) = s.withTime := by rw [h]; rfl

theorem State.withTime_navOn (s : State) : s.withTime.navOn = s.navOn := rfl

theorem State.withTime_notime (s : State) : s.withTime.nav.notime = false := rfl

section Tag

variable {s : State} {x : TagIn} (hpub : x.pub = none) (hroot : x.root = none)

section Keys
include hpub hroot

/-- A tag that brings no key verifies none. -/
theorem State.osnmaKeys_none (hk : x.key = none) : s.osnmaKeys x = (s, false) := by
  simp [State.osnmaKeys, hpub, hroot, hk]

/-- The key verified last needs no other. -/
theorem State.osnmaKeys_verified {key : List Byte × Nat} (hk : x.key = some key) (hv : s.nav.osKey = some key) :
    s.osnmaKeys x = (s, true) := by
  simp [State.osnmaKeys, hpub, hroot, hk, hv]

end Keys

variable (hon : s.navOn = true) (hpar : s.withTime.navField 0x05 = 1) (htime : s.osnmaTime = true)
  (hadkd : x.adkd = 0 ∨ x.adkd = 4 ∨ x.adkd = 12)
include hpub hroot hon hpar htime hadkd

theorem State.osnmaTag_waits (hk : x.key = none) :
    s.osnmaTag x = s.withTime.setSat (satKey 1 x.sv.val)
      { s.withTime.sat (satKey 1 x.sv.val) with tags := (s.withTime.sat (satKey 1 x.sv.val)).tags + 1 } := by
  have hknown : ¬(x.adkd ≠ 0 ∧ x.adkd ≠ 4 ∧ x.adkd ≠ 12) := by omega
  simp only [State.osnmaTag, hon, State.withTime_of_osnmaTime htime, State.withTime_navOn, State.withTime_notime, hpar,
    State.osnmaKeys_none hpub hroot hk, hk, if_neg hknown, Bool.not_true, bne_self_eq_false, Bool.or_self,
    Bool.false_eq_true, if_true, if_false]

theorem State.osnmaTag_judged {key : List Byte × Nat} (hk : x.key = some key) (hv : s.withTime.nav.osKey = some key) :
    s.osnmaTag x =
      let y := { s.withTime.sat (satKey 1 x.sv.val) with tags := 0 }
      s.withTime.setSat (satKey 1 x.sv.val)
        (if Config.osnmaMac key.1 x.adkd x.sv.val x.data x.tag then y.tagHolds x.adkd x.data (tvSec s.withTime.now)
          else { y with failAt := some (tvSec s.withTime.now) }) := by
  have hknown : ¬(x.adkd ≠ 0 ∧ x.adkd ≠ 4 ∧ x.adkd ≠ 12) := by omega
  simp only [State.osnmaTag, hon, State.withTime_of_osnmaTime htime, State.withTime_navOn, State.withTime_notime, hpar,
    State.osnmaKeys_verified hpub hroot hk hv, hk, if_neg hknown, Bool.not_true, bne_self_eq_false, Bool.or_self,
    Bool.false_eq_true, if_true, if_false]

end Tag

/-- A tag judged, on the satellite's record (R179): a mismatch, the time parameters, the slow MAC, the set it covers. -/
theorem SatSt.judged_eq (z : SatSt) (good : Bool) {adkd : Nat} (hadkd : adkd = 0 ∨ adkd = 4 ∨ adkd = 12) (data : List Byte)
    (now : Nat) :
    (if good then { z with tags := 0 }.tagHolds adkd data now else { z with tags := 0, failAt := some now }) =
      if good = false then { z with tags := 0, failAt := some now }
      else if adkd = 4 then { z with tags := 0, adkd4 := some now }
      else if adkd = 12 then { z with tags := 0 }
      else if z.next = some data then { z with tags := 0, nextAuth := true }
      else if z.used = some data then { z with tags := 0, auth := true, adkd0 := true }
      else { z with tags := 0 } := by
  cases good with
  | false => rfl
  | true => rcases hadkd with rfl | rfl | rfl <;> rfl

/-- Settles O21: a message by the item it brings, a tag by whether OSNMA has time and by its key. -/
theorem navigationData : Obligations.NavigationData := by
  intro m kd p v crc s k once n now
  refine ⟨fun h => ?discarded, fun hon hp => ⟨
      fun e => ⟨fun hx hy => ?first, fun hx hheld => ?held, fun hx hu hn => ?judged⟩,
      fun u => ⟨fun hs => ?utcOther, fun hs h => ?utcFirst, fun a hs h => ?utcAgain⟩,
      fun kind sec ho hs => ⟨fun h => ?leapFirst, fun a h ha hacc => ?leapAccepted⟩, fun kind sec a hs h => ?leapOther,
      fun w b h1 h2 h => ?week, fun w b h1 h2 hw h0 h13 => ?weekShort⟩,
    fun x h => ?tagOff, fun x hon h => ?noTime, fun x key hon hpar htime hpub hroot hadkd => ⟨fun hk => ?waits,
      fun hk hv => ?tagJudged⟩⟩
  all_goals refine congrArg Host.Outcome.next ?_
  case discarded => exact State.navMessage_discarded h
  case first => exact (State.navMessage_eph hon hp e).trans (State.navEph_first (mt (atOnce_iff _).mp hx) hy)
  case held =>
    exact (State.navMessage_eph hon hp e).trans
      ((State.navEph_received (hx.imp_left (atOnce_iff _).mpr)).trans (if_pos hheld))
  case judged =>
    exact (State.navMessage_eph hon hp e).trans
      ((State.navEph_received (hx.imp_left (atOnce_iff _).mpr)).trans (if_neg (not_or.mpr ⟨hu, hn⟩)))
  case utcOther => exact (State.navMessage_utcofs hon hp u).trans (State.navUtc_other hs u)
  case utcFirst => exact (State.navMessage_utcofs hon hp u).trans (State.navUtc_first hs h)
  case utcAgain => exact (State.navMessage_utcofs hon hp u).trans (State.navUtc_again hs h)
  case leapFirst => exact (State.navMessage_leap hon hp kind sec).trans (State.navLeap_first ho hs h kind sec)
  case leapAccepted => exact (State.navMessage_leap hon hp kind sec).trans (State.navLeap_accepted ho hs h ha hacc)
  case leapOther => exact (State.navMessage_leap hon hp kind sec).trans (State.navLeap_other hs h)
  case week => exact (State.navMessage_week hon hp w b).trans (State.navWeek_taken h1 h2 h)
  case weekShort => exact (State.navMessage_week hon hp w b).trans (State.navWeek_short h1 h2 hw h0 h13)
  case tagOff => exact State.osnmaTag_off h x
  case noTime => exact State.osnmaTag_noTime hon h x
  case waits => exact State.osnmaTag_waits hpub hroot hon hpar htime hadkd hk
  case tagJudged =>
    exact (State.osnmaTag_judged (s := s) hpub hroot hon hpar htime hadkd hk hv).trans
      (congrArg (s.withTime.setSat _) (SatSt.judged_eq _ _ hadkd x.data _))

/-! ### Solution epochs (R184, R186, R200, R202) -/

section Solution

variable {s : State}

theorem State.solution_off (h : s.navOn = false) : s.solution = s := by simp [State.solution, h]

section Begun

variable {b : State} (hon : s.navOn = true) (hb : s.solBegin = b)
include hon hb

theorem State.solution_unsolved (h : b.solve b.measSats b.posFree = none) : s.solution = b := by
  simp [State.solution, hon, hb, h]

/-- A solution with a degree of freedom below 2 is not accepted. -/
theorem State.solution_solved {y : Sol} (h : b.solve b.measSats b.posFree = some y) :
    s.solution = if y.fit.dof < 2 then b else b.solAccept y := by
  simp [State.solution, hon, hb, h]

end Begun

/-- The degree of freedom: observations less the states of time, of biases and of a free position. -/
theorem State.fitOf_dof {os : List SatObs} {free : Bool} {f : Fit} (h : s.fitOf os free = some f) :
    f.dof = (os.length : Int) - (1 + (biasKeys s.refSys os).length + (if free then 3 else 0) : Nat) := by
  obtain ⟨r, -, rfl⟩ := Option.map_eq_some_iff.mp h
  rfl

/-- A solution is the fit of the satellites as they are observed from its position, masks applied. -/
theorem State.solve_fit {sats : List (Nat × Nat)} {free : Bool} {y : Sol} (h : s.solve sats free = some y) :
    s.fitOf (sats.filterMap (s.satObs y.pos true)) free = some y.fit := by
  obtain ⟨f, hf, rfl⟩ := Option.map_eq_some_iff.mp h
  exact hf

/-- The degree of freedom of a solution: its satellites less the states estimated. -/
theorem State.solve_dof {sats : List (Nat × Nat)} {free : Bool} {y : Sol} (h : s.solve sats free = some y) :
    let os := sats.filterMap (s.satObs y.pos true)
    y.fit.dof = (os.length : Int) - (1 + (biasKeys s.refSys os).length + (if free then 3 else 0) : Nat) :=
  State.fitOf_dof (State.solve_fit h)

end Solution

/-! ### The mordant set (R192–R194) -/

section Mordant

variable {s : State}

theorem State.mordantSave_withheld {items : List (Nat × List Byte)}
    (h : s.mordant.req = false ∨ s.mordant.busy.isSome = true ∨ s.on SUP_STAT_BRACE = true) : s.mordantSave items = s := by
  rcases h with h | h | h <;> simp [State.mordantSave, State.mordantWrite, h]

/-- The copy that a write goes to: of two valid ones the older, else the one that is not valid, A first. -/
def State.mordantOlder (s : State) : Nat :=
  match s.mordantGen 0, s.mordantGen 1 with
  | some a, some b => if a < b then 0 else 1
  | some _, none => 1
  | none, _ => 0

theorem State.mordantOlder_eq {c : Nat}
    (hboth : ∀ a, s.mordantGen 0 = some a → (∀ b, s.mordantGen 1 = some b → c = if a < b then 0 else 1) ∧
      (s.mordantGen 1 = none → c = 1))
    (hnone : s.mordantGen 0 = none → c = 0) : c = s.mordantOlder := by
  unfold State.mordantOlder
  cases ha : s.mordantGen 0 with
  | none => exact hnone ha
  | some a =>
    cases hb : s.mordantGen 1 with
    | none => exact (hboth a ha).2 hb
    | some b => exact (hboth a ha).1 b hb

theorem State.mordantSave_writes (hreq : s.mordant.req = true) (hbusy : s.mordant.busy = none)
    (hbrace : s.on SUP_STAT_BRACE = false) (items : List (Nat × List Byte)) :
    s.mordantSave items =
      let t := { s with mordant := { s.mordant with busy := some s.mordantOlder, req := false } }
      (t.each 10 fun i t => t.mordantPut s.mordantOlder (i + 1) (t.mordantBody s.posInUse items (i + 1))).set
        RTC_STAT_DISC 0 := by
  simp only [State.mordantSave, State.mordantWrite, hreq, hbusy, hbrace, Bool.not_true, Option.isSome_none, Bool.or_self,
    Bool.false_eq_true, if_false]
  rfl

theorem State.mordantDone_idle (h : s.mordant.busy = none) : s.mordantDone = s := by simp [State.mordantDone, h]

/-- The header that ends a write of generation `g` (R192), without its CRC. -/
def mordantHead (g : Nat) : List Byte :=
  leBytes 2 0x4D44 ++ leBytes 2 1 ++ leBytes 4 0 ++ leBytes 8 g ++ leBytes 4 89072 ++ leBytes 40 0

theorem State.mordantDone_ends {c g : Nat} (hbusy : s.mordant.busy = some c)
    (hvalid : ∀ o, s.mordantGen (1 - c) = some o → g = o + 1) (hnone : s.mordantGen (1 - c) = none → g = 1) :
    s.mordantDone =
      let t := s.mramPut (mordantAddr c) (mordantHead g ++ leBytes 4 (crc32 (mordantHead g)))
      { t with mordant := { busy := none, again := false, req := t.mordant.req || t.mordant.again } } := by
  cases ho : s.mordantGen (1 - c) with
  | none => simp only [State.mordantDone, mordantHead, hbusy, ho, hnone ho]
  | some o => simp only [State.mordantDone, mordantHead, hbusy, ho, hvalid o ho]

end Mordant

/-- Settles O22: a solution epoch by what the least squares give at its beginning (`State.solBegin`), a write of the mordant
set by its request, its copy and its end. -/
theorem solutionEpochs : Obligations.SolutionEpochs := by
  intro items s begun
  have hbegun : s.solBegin = begun := rfl
  clear_value begun
  intro free sol
  refine ⟨fun h => ?off, fun hon => ?epoch, fun h => ?withheld, fun hreq hbusy hbrace c hboth hnone => ?writes,
    fun h => ?idle, fun c g hbusy hvalid hnone => ?ends, fun h => ?period, fun h => ?bursts⟩
  case off => exact congrArg Host.Outcome.next (State.solution_off h)
  case epoch =>
    cases h : sol with
    | none => exact congrArg Host.Outcome.next (State.solution_unsolved hon hbegun h)
    | some y =>
      refine ⟨State.solve_dof h, congrArg Host.Outcome.next ((State.solution_solved hon hbegun h).trans ?_)⟩
      simp only [State.solAccept, free]
  case withheld => exact congrArg Host.Outcome.next (State.mordantSave_withheld h)
  case writes =>
    obtain rfl := State.mordantOlder_eq hboth hnone
    exact congrArg Host.Outcome.next (State.mordantSave_writes hreq hbusy hbrace _)
  case idle => exact congrArg Host.Outcome.next (State.mordantDone_idle h)
  case ends => exact congrArg Host.Outcome.next (State.mordantDone_ends hbusy hvalid hnone)
  case period => exact congrArg Host.Outcome.next (if_pos h)
  case bursts => exact congrArg Host.Outcome.next (if_neg (ne_true_of_eq_false h))

end Sys2Proof.Machine

/-! SUPPORT. Time integrity (ch. 8): what an evidence record comes to, verdict by verdict and code by code, the integrity
block's own transitions, latches, and the events of a fix burst, with the statements about them (O23, O24, O25). -/

namespace Sys2Proof.Machine

/-- Commands that end with `SVC_ATTN_N` brought up to date, from equal states. -/
theorem next_attnUpdate_congr {s t : State} (h : s = t) :
    (Host.Outcome.next s.attnUpdate : Host.Outcome State Fault Refusal) = .next t.attnUpdate := by rw [h]

/-! ### What decides whether RELOC latches (R205)

A fix whose woad check FAILs enters UNTRUSTED before its relocation verdict is looked at; nothing of that touches the verdict
or the custody record. -/

/-- `t` has the relocation verdict of `s`, and a position in its custody record where `s` has one. -/
structure RelocSame (s t : State) : Prop where
  verd : t.get ITG_VERD_RELOC = s.get ITG_VERD_RELOC
  posv : t.cus.rec_.posv = s.cus.rec_.posv

section Reloc
variable {u s t : State}

theorem RelocSame.refl (s : State) : RelocSame s s := ⟨rfl, rfl⟩

theorem RelocSame.trans (h : RelocSame u s) (g : RelocSame s t) : RelocSame u t :=
  ⟨g.verd.trans h.verd, g.posv.trans h.posv⟩

theorem RelocSame.ite {p : Prop} [Decidable p] (hs : RelocSame u s) (ht : RelocSame u t) :
    RelocSame u (if p then s else t) := by
  split
  · exact hs
  · exact ht

theorem RelocSame.foldl {α : Type} {l : List α} {f : State → α → State} (h : RelocSame u s)
    (hf : ∀ t x, RelocSame t (f t x)) : RelocSame u (l.foldl f s) :=
  List.foldlRecOn (motive := RelocSame u) l f h fun t ht x _ => ht.trans (hf t x)

theorem RelocSame.each {n : Nat} {f : Nat → State → State} (h : RelocSame u s) (hf : ∀ i t, RelocSame t (f i t)) :
    RelocSame u (s.each n f) := h.foldl fun t i => hf i t

/-! The end of every channel in its three parts (R109): engines, assistance, records. -/

def State.chansFreed (s : State) : State :=
  s.each 1024 fun e s => if s.engState e = 1 then (s.engCancel e).engEnter e 0 else s

def State.chansAssisted (s : State) : State :=
  s.chans.foldl (fun s p => if p.2.live then s.assist p.2.cfg true else s) s

def State.chansOver (s : State) : State := { s with chans := s.chans.map fun p => (p.1, { p.2 with live := false }) }

theorem State.chansEnd_eq (s : State) : s.chansEnd = s.chansFreed.chansAssisted.chansOver := rfl

section Operations
variable {f : Field} {x : EngSt} {tick : Option Nat} {lvl fall : Bool} {n v a b c d e : Nat} (h : RelocSame u s)
include h

/-- An update of other parts of the state. -/
theorem RelocSame.of_eq (hreg : t.reg = s.reg) (hcus : t.cus = s.cus) : RelocSame u t :=
  ⟨Eq.trans (by rw [State.get, State.get, hreg]) h.verd, by rw [hcus, h.posv]⟩

theorem RelocSame.set (hf : f.key ≠ ITG_VERD_RELOC.key) : RelocSame u (s.set f v) :=
  ⟨(State.set_get_ne s v hf).trans h.verd, h.posv⟩

/-- The event lines, the clusters and the engines have their registers above the integrity block's. -/
theorem RelocSame.set_above (hf : ITG_VERD_RELOC.addr < f.addr) : RelocSame u (s.set f v) := by
  refine h.set ?_
  simp only [Field.key, ITG_VERD_RELOC] at hf ⊢
  omega

theorem RelocSame.set_slkStat (hlo : f.lo < 32) (hf : f.addr = (SLK_STAT_UP n).addr) : RelocSame u (s.set f v) := by
  refine h.set (Field.key_ne hlo (by decide) ?_)
  simp only [hf, SLK_STAT_UP, ITG_VERD_RELOC]
  omega

theorem RelocSame.set_engStat (hf : f.addr = (ENG_STAT_RUN e).addr) : RelocSame u (s.set f v) := by
  refine h.set_above ?_
  simp only [hf, ENG_STAT_RUN, ITG_VERD_RELOC]
  omega

theorem RelocSame.set_telStat (hf : f.addr = (TEL_STAT_WSTATE n).addr) : RelocSame u (s.set f v) := by
  refine h.set_above ?_
  simp only [hf, TEL_STAT_WSTATE, ITG_VERD_RELOC]
  omega

theorem RelocSame.note : RelocSame u (s.note a b c d e) :=
  h.of_eq (State.note_reg s a b c d e) (State.note_cus s a b c d e)

/-! Links, front-end buses and channels. -/

theorem RelocSame.linkStart : RelocSame u (s.linkStart n) := by
  unfold State.linkStart
  extract_lets _ cleared
  have hcleared : RelocSame u cleared := h.of_eq rfl rfl
  exact .set_slkStat (.set_slkStat (.set_slkStat hcleared (by decide : 29 < 32) rfl) (by decide : 30 < 32) rfl)
    (by decide : 31 < 32) rfl

theorem RelocSame.linkStop : RelocSame u (s.linkStop n) := by
  unfold State.linkStop
  extract_lets down _ free _ rest
  have hdown : RelocSame u down := .set_slkStat (.set_slkStat h (by decide : 31 < 32) rfl) (by decide : 30 < 32) rfl
  have hfree : RelocSame u free := .ite hdown (hdown.of_eq rfl rfl)
  have hrest : RelocSame u rest := hfree.of_eq rfl rfl
  exact .set_slkStat (.set_slkStat (.set_slkStat hrest (by decide : 0 < 32) rfl) (by decide : 9 < 32) rfl)
    (by decide : 10 < 32) rfl

theorem RelocSame.linksWake : RelocSame u s.linksWake := by
  unfold State.linksWake
  exact h.each fun n t => .ite (.linkStart (.refl t)) (.refl t)

theorem RelocSame.fecWake : RelocSame u s.fecWake := by
  unfold State.fecWake
  exact h.each fun n t => .ite ((RelocSame.refl t).of_eq rfl rfl) (.refl t)

theorem RelocSame.fecSleep : RelocSame u s.fecSleep := by
  unfold State.fecSleep
  refine .each (h.each fun n t => .ite ((RelocSame.refl t).of_eq rfl rfl) (.refl t)) fun n t => .ite ?_ (.refl t)
  exact .set_slkStat (.linkStop (.refl t)) (by decide : 29 < 32) rfl

theorem RelocSame.tokBack : RelocSame u (s.tokBack c a) := by
  refine h.set_above ?_
  simp only [CLU_TOK_FREE, ITG_VERD_RELOC]
  omega

theorem RelocSame.engPut : RelocSame u (s.engPut e x) := by
  unfold State.engPut State.setB
  have hset : RelocSame u (s.setEng e x) := h.of_eq rfl rfl
  exact .set_engStat (e := e) (.set_engStat (e := e) (.set_engStat (e := e) hset rfl) rfl) rfl

theorem RelocSame.engEnter : RelocSame u (s.engEnter e a) := h.set_engStat (e := e) rfl

theorem RelocSame.handBack : RelocSame u (s.handBack a b) := .ite (h.of_eq rfl rfl) h

theorem RelocSame.migAbort : RelocSame u (s.migAbort e) := by
  unfold State.migAbort
  split
  · exact h
  next tgt _ =>
    extract_lets _ back _ idle
    have hback : RelocSame u back := .engEnter ((h.handBack (a := e) (b := tgt)).of_eq rfl rfl)
    have hidle : RelocSame u idle := .engPut hback.tokBack
    refine .set_engStat (e := tgt) (.set_above hidle.engEnter ?_) rfl
    simp only [ENG_MIG_ARM, ITG_VERD_RELOC]
    omega

theorem RelocSame.engCancel : RelocSame u (s.engCancel e) := by
  unfold State.engCancel
  extract_lets _ idle
  have hidle : RelocSame u idle := .engPut h.tokBack
  exact .migAbort (hidle.set_engStat (e := e) rfl)

theorem RelocSame.chansOver : RelocSame u s.chansOver := h.of_eq rfl rfl

theorem RelocSame.chansEnd : RelocSame u s.chansEnd := by
  have hfreed : RelocSame u s.chansFreed := h.each fun e t => .ite (.engEnter (.engCancel (.refl t))) (.refl t)
  rw [State.chansEnd_eq]
  exact .chansOver (hfreed.foldl fun t p => .ite ((RelocSame.refl t).of_eq rfl rfl) (.refl t))

/-! The mode of tracking, event lines and the code itself. -/

theorem RelocSame.custWake : RelocSame u (s.custWake n tick) :=
  .ite (h.of_eq rfl rfl) (h.of_eq rfl rfl)

theorem RelocSame.mordantAsk : RelocSame u s.mordantAsk := h.of_eq rfl rfl

theorem RelocSame.burstDrop : RelocSame u s.burstDrop := h.of_eq rfl rfl

theorem RelocSame.itgMode : RelocSame u s.itgMode := by
  unfold State.itgMode
  extract_lets cont _ t woken _ entered
  have ht : RelocSame u t := .ite h (h.of_eq rfl rfl)
  have hwoken : RelocSame u woken := .burstDrop (.linksWake (.ite ht.mordantAsk ht.fecWake))
  clear_value woken
  have hentered : RelocSame u entered := hwoken.of_eq rfl rfl
  exact .ite (.ite ht (.custWake (.set hentered (by decide))))
    (.ite (.fecSleep (.custWake (.set ht.chansEnd (by decide)))) ht)

theorem RelocSame.timStepGo : RelocSame u (s.timStepGo a) :=
  .ite h (.ite (h.set (by decide)) (h.of_eq rfl rfl))

theorem RelocSame.askStep : RelocSame u s.askStep := by
  unfold State.askStep
  extract_lets delta stamp
  have hdelta : RelocSame u delta := .set (.set h (by decide)) (by decide)
  have hstamp : RelocSame u stamp := hdelta.set (by decide)
  exact .ite h (.timStepGo (hstamp.set (by decide)))

theorem RelocSame.itgChange : RelocSame u (s.itgChange a b) := by
  unfold State.itgChange
  extract_lets _ shown _ _ entered sourced _
  have hshown : RelocSame u shown := .set (.set (h.set (by decide)) (by decide)) (by decide)
  have hentered : RelocSame u entered := hshown.note.of_eq rfl rfl
  have hsourced : RelocSame u sourced := .ite (hentered.set (by decide)) hentered
  exact .itgMode (.ite hsourced.askStep hsourced)

theorem RelocSame.telLevel : RelocSame u (s.telLevel n lvl) := by
  have hset : RelocSame u (s.setB (TEL_STAT_LEVEL n) lvl) := h.set_telStat (n := n) rfl
  exact .ite h (.ite (hset.of_eq rfl rfl) hset)

theorem RelocSame.winClose : RelocSame u (s.winClose n a b) := by
  unfold State.winClose
  extract_lets _ shut
  have hshut : RelocSame u shut := .telLevel (h.set_telStat (n := n) rfl)
  exact .ite hshut.note hshut

theorem RelocSame.winOpen : RelocSame u (s.winOpen n a b) := by
  unfold State.winOpen
  extract_lets opened _ timed
  have hopened : RelocSame u opened := .telLevel (h.set_telStat (n := n) rfl)
  clear_value opened
  have htimed : RelocSame u timed := hopened.of_eq rfl rfl
  exact .ite h htimed.note

theorem RelocSame.winFall : RelocSame u (s.winFall fall a) := by
  unfold State.winFall
  refine h.each fun n t => ?_
  extract_lets _ held _ timed
  have ht := RelocSame.refl t
  have hheld : RelocSame t held := ht.set_telStat (n := n) rfl
  have htimed : RelocSame t timed := hheld.of_eq rfl rfl
  exact .ite ht.winClose (.ite (.ite htimed.note ht.winClose) ht)

theorem RelocSame.lateOpen : RelocSame u s.lateOpen := by
  unfold State.lateOpen
  exact h.each fun n t => .ite (.winOpen (.refl t)) (.refl t)

theorem RelocSame.itgEnter : RelocSame u (s.itgEnter a) := by
  unfold State.itgEnter
  extract_lets _ _ marked coded _ changed _ fallen
  have hmarked : RelocSame u marked := h.of_eq rfl rfl
  have hcoded : RelocSame u coded := hmarked.set (by decide)
  have hchanged : RelocSame u changed := .ite hcoded hcoded.itgChange
  have hfallen : RelocSame u fallen := .ite (hchanged.of_eq rfl rfl) hchanged
  exact .ite h hfallen.winFall.lateOpen

theorem RelocSame.itgLatch_woad : RelocSame u (s.itgLatch ITG_LATCH_WOAD) := by
  unfold State.itgLatch
  extract_lets latched _ noted stored
  have hlatched : RelocSame u latched := .set (h.set (by decide)) (by decide)
  have hstored : stored = noted := if_neg (by decide)
  exact .ite h (hstored ▸ hlatched.note.itgEnter)

end Operations
end Reloc

/-! ### A fix judged (R204–R206) -/

/-- A fix with its instants, and `WOAD` latched where the woad check FAILs: the state in which `RELOC` is decided. -/
def State.fixWoad (s : State) : State :=
  let woad := s.get ITG_VERD_WOAD
  let u := { s with itg := { s.itg with
    fixAt := s.tim.up,
    woadFail := if woad = 3 then some s.tim.up else s.itg.woadFail,
    woadPass := if woad = 3 then false else s.itg.woadPass || woad == 1 } }
  if woad = 3 then ({ u with umb := { u.umb with snapDue := true } }).itgLatch ITG_LATCH_WOAD else u

theorem RelocSame.fixWoad {u s : State} (h : RelocSame u s) : RelocSame u s.fixWoad :=
  .ite (.itgLatch_woad (h.of_eq rfl rfl)) (h.of_eq rfl rfl)

/-- A fix judged from there on, by whether a verdict FAILs and whether one warns. -/
def State.fixSettled (u : State) (fail warn : Bool) : State :=
  let u := if u.get ITG_VERD_RELOC = 3 ∧ u.cus.rec_.posv then u.itgLatch ITG_LATCH_RELOC else u
  let clean := u.clean
  let u := if clean then { u with itg := { u.itg with cleanAt := u.tim.up, cleanOld := u.agedFrom } } else u
  let u := if fail ∨ warn ∨ u.latched then u else u.fixRelease
  let u := u.burstNote clean warn
  if fail ∨ u.latched then ({ u with itg := { u.itg with recovN := 0, cleanN := 0 } }).itgEnter 0
  else u.fixTransition clean warn

theorem State.fixJudged_eq (s : State) : s.fixJudged =
    s.fixWoad.fixSettled (verdFields.any fun f => s.get f == 3) (verdFields.any fun f => s.get f == 2) := rfl

/-- A fix with a FAIL: nothing is released, and the state is UNTRUSTED. -/
theorem State.fixSettled_fail (u : State) (warn : Bool) :
    u.fixSettled true warn =
      let u := if u.get ITG_VERD_RELOC = 3 ∧ u.cus.rec_.posv = true then u.itgLatch ITG_LATCH_RELOC else u
      let clean := u.clean
      let u := if clean then { u with itg := { u.itg with cleanAt := u.tim.up, cleanOld := u.agedFrom } } else u
      let u := u.burstNote clean warn
      ({ u with itg := { u.itg with recovN := 0, cleanN := 0 } }).itgEnter 0 := by
  simp -zeta only [State.fixSettled, true_or, if_true]
  rfl

theorem State.fixJudged_fail {s : State} (h : ∃ f ∈ verdFields, s.get f = 3) :
    s.fixJudged =
      let u := s.fixWoad
      let u := if s.get ITG_VERD_RELOC = 3 ∧ s.cus.rec_.posv = true then u.itgLatch ITG_LATCH_RELOC else u
      let clean := u.clean
      let u := if clean then { u with itg := { u.itg with cleanAt := u.tim.up, cleanOld := u.agedFrom } } else u
      let u := u.burstNote clean (verdFields.any fun f => s.get f == 2)
      ({ u with itg := { u.itg with recovN := 0, cleanN := 0 } }).itgEnter 0 := by
  have hfail : (verdFields.any fun f => s.get f == 3) = true := by simpa using h
  have hsame := (RelocSame.refl s).fixWoad
  rw [State.fixJudged_eq, hfail, State.fixSettled_fail, hsame.verd, hsame.posv]

section Transition
variable {s : State} {k : Nat} {clean : Bool}

theorem State.itgFix_free (h : s.itg.blk = none) : s.itgFix k = s.itgEnter k := by
  simp only [State.itgFix, h]

/-- A fix's change of code, where the integrity block's last change was to `b` and took effect at `a` (R207). -/
theorem State.itgFix_against {a b : Nat} (h : s.itg.blk = some (a, b)) :
    s.itgFix k = if a = s.tim.up ∧ b < k ∧ (s.codeBefore = 4 → b < 2) then s.itgEnter b else s.itgEnter k := by
  have himp : (s.codeBefore ≠ 4 ∨ b < 2) ↔ (s.codeBefore = 4 → b < 2) := Decidable.imp_iff_not_or.symm
  simp only [State.itgFix, h, himp]

theorem State.fixTransition_warn (h : s.code = 2 ∨ s.code = 3 ∨ s.code = 4) :
    s.fixTransition clean true = s.itgEnter 1 := by
  have h0 : s.code ≠ 0 := by omega
  have h1 : s.code ≠ 1 := by omega
  simp only [State.fixTransition, h0, h1, if_false, if_true]

theorem State.fixTransition_holdover (h : s.code = 2 ∨ s.code = 3) (hok : s.terrAfter = true) :
    s.fixTransition true false = s.itgFix 4 := by
  rcases h with h | h <;> simp [State.fixTransition, h, hok]

end Transition

/-! ### A record and its verdicts (R200–R202) -/

section Record
variable {s t : State} {e : Evid} (x : EvidIn)

theorem State.evidence_off (h : s.nav.running = false) : s.evidence x = s := by simp [State.evidence, h]

variable (hon : s.nav.running = true)
include hon

theorem State.evidence_unread (h : s.evidRead = (t, none)) : s.evidence x = t := by simp [State.evidence, hon, h]

theorem State.evidence_read (h : s.evidRead = (t, some e)) :
    s.evidence x =
      if e.seq = t.itg.lastSeq ∨ e.time + 3 * t.solPeriod * 2 ^ 24 / 1000 < tv64 t.now then t
      else
        let u := { t with itg := { t.itg with lastSeq := e.seq } }
        if e.dof < 2 ∨ bits e.flags 6 5 = 3 then u else (u.verdicts e x).fixJudged := by
  simp -zeta only [State.evidence, hon, h, Bool.not_true, Bool.false_eq_true, if_false]

end Record

/-- `t` differs from `s` in the integrity block's own records and in notes alone, and `turned` is as in `s`. -/
structure JudgeSame (s t : State) : Prop where
  rest : t = { s with itg := t.itg, umb := t.umb }
  turned : t.itg.turned = s.itg.turned

theorem JudgeSame.refl (s : State) : JudgeSame s s := ⟨rfl, rfl⟩

theorem JudgeSame.trans {s t u : State} (h : JudgeSame s t) (g : JudgeSame t u) : JudgeSame s u :=
  ⟨g.rest.trans (by rw [h.rest]), g.turned.trans h.turned⟩

theorem JudgeSame.navField {s t : State} (h : JudgeSame s t) (ofs : Nat) : t.navField ofs = s.navField ofs := by
  rw [h.rest]; rfl

/-- An update of the block's own records. -/
theorem JudgeSame.itg (s : State) (i : ItgSt) (h : i.turned = s.itg.turned) : JudgeSame s { s with itg := i } := ⟨rfl, h⟩

theorem JudgeSame.note (s : State) (a b c d e : Nat) : JudgeSame s (s.note a b c d e) := by
  unfold State.note State.enqueue
  dsimp only
  split
  · exact ⟨rfl, rfl⟩
  · exact ⟨rfl, rfl⟩

theorem State.driftStep_judge (s : State) (off : Bool) : JudgeSame s (s.driftStep off).1 := by
  unfold State.driftStep
  dsimp only
  split
  · exact .itg s _ rfl
  · split <;> exact .itg s _ rfl

theorem State.woadBand_judge (s : State) (p : Nat) (w : List Nat) : JudgeSame s (s.woadBand p w).1 := by
  unfold State.woadBand
  extract_lets n band k lead a valid
  split
  · exact .refl s
  · split
    extract_lets u
    have hcount : JudgeSame s u := .itg s _ rfl
    split
    · exact hcount.trans (.note ..)
    · exact hcount

theorem State.woadPair_judge (s : State) (p : Nat) (w : List Nat) : JudgeSame s (s.woadPair p w).1 :=
  List.foldlRecOn (motive := fun r : State × Nat => JudgeSame s r.1) _ _ (s.woadBand_judge p w)
    fun r hr o _ => hr.trans (r.1.woadBand_judge p o)

theorem State.woadAll_judge (s : State) (p : Nat) (ws : List (List Nat)) : JudgeSame s (s.woadAll p ws).1 := by
  induction ws generalizing s p with
  | nil => exact .refl s
  | cons w ws ih => exact (s.woadPair_judge p w).trans (ih _ (p + 1))

theorem State.xTidy_judge (s : State) : JudgeSame s s.xTidy := by
  unfold State.xTidy
  split
  · exact .refl s
  · exact .itg s _ rfl

/-- The verdicts as they go into `ITG_VERD`: those that follow from the record and the state before it, and four others. -/
def State.verdictPuts (s : State) (e : Evid) (woad osc ifer xchk : Nat) : List (Field × Nat) :=
  verdFields.zip [woad, e.resid, e.osnma (s.navField 0x05 == 0) s.nav.notime, osc,
    e.reloc s.cus.rec_.posv s.itg.turned, e.posn, e.level, ifer, if bit e.flags 3 || bit e.flags 4 then 2 else 1, xchk]

theorem State.verdicts_puts (s : State) (e : Evid) (x : EvidIn) :
    ∃ u woad osc ifer xchk, JudgeSame s u ∧
      s.verdicts e x = (s.verdictPuts e woad osc ifer xchk).foldl (fun s f => s.set f.1 f.2) u := by
  have hdrift := s.driftStep_judge (decide (2000 < (e.drift - x.model).natAbs))
  unfold State.verdicts
  generalize s.driftStep _ = r at hdrift ⊢
  obtain ⟨t, drift⟩ := r
  have hnav := hdrift.navField 0x05
  dsimp -zeta only at hdrift hnav ⊢
  have hall := hdrift.trans (t.woadAll_judge 1 e.woad)
  generalize t.woadAll 1 e.woad = r at hall ⊢
  obtain ⟨v, wv⟩ := r
  dsimp -zeta only
  extract_lets off _ _ u vs
  have hu : JudgeSame s u := (hall.trans v.xTidy_judge).trans (.itg _ _ rfl)
  refine ⟨u, wv.foldl max 0, u.osc e drift, u.iferVerdict, u.xchk, hu, ?_⟩
  have hvs : verdFields.zip vs = s.verdictPuts e (wv.foldl max 0) (u.osc e drift) u.iferVerdict u.xchk := by
    have hnt : u.nav.notime = s.nav.notime := by rw [hu.rest]
    have hpos : u.cus.rec_.posv = s.cus.rec_.posv := by rw [hu.rest]
    simp only [vs, off, State.verdictPuts, hnav, hnt, hpos, hu.turned]
  rw [hvs]

/-! Fields set one after the other. -/

theorem State.puts_get_ne (l : List (Field × Nat)) (s : State) {f : Field} (h : ∀ x ∈ l, x.1.key ≠ f.key) :
    (l.foldl (fun s x => s.set x.1 x.2) s).get f = s.get f :=
  List.foldlRecOn (motive := fun t : State => t.get f = s.get f) l _ rfl
    fun t ht x hx => (State.set_get_ne t x.2 (h x hx)).trans ht

theorem State.puts_get (l : List (Field × Nat)) (hl : (l.map fun x => x.1.key).Nodup) (s : State)
    (hs : regsRise s = true) {f : Field} {v : Nat} (h : (f, v) ∈ l) :
    (l.foldl (fun s x => s.set x.1 x.2) s).get f = v % 2 ^ f.width := by
  induction l generalizing s with
  | nil => cases h
  | cons x l ih =>
    obtain ⟨hx, hl⟩ := List.nodup_cons.mp hl
    rcases List.mem_cons.mp h with rfl | h
    · have hne : ∀ y ∈ l, y.1.key ≠ f.key := fun y hy heq => hx (List.mem_map.mpr ⟨y, hy, heq⟩)
      exact (State.puts_get_ne l _ hne).trans (State.set_get s f v hs)
    · exact ih hl _ (State.set_regsRise _ _ hs) h

theorem verdFields_width {f : Field} (h : f ∈ verdFields) : f.width = 2 :=
  (by decide : ∀ f ∈ verdFields, f.width = 2) f h

/-- A verdict that every choice of the four others puts into `f` stands there. -/
theorem State.verdicts_get {s : State} (hs : regsRise s = true) {e : Evid} (x : EvidIn) {f : Field} {v : Nat}
    (i : Nat) (h : ∀ a b c d, (s.verdictPuts e a b c d)[i]? = some (f, v)) (hv : v < 4) : (s.verdicts e x).get f = v := by
  obtain ⟨u, a, b, c, d, hu, heq⟩ := s.verdicts_puts e x
  have hrise : regsRise u = true := by rw [hu.rest]; exact hs
  have hkeys : ((s.verdictPuts e a b c d).map fun x => x.1.key).Nodup :=
    (by decide : (verdFields.map Field.key).Nodup)
  have hmem := List.mem_of_getElem? (h a b c d)
  rw [heq, State.puts_get _ hkeys u hrise hmem, verdFields_width (List.of_mem_zip hmem).1]
  exact Nat.mod_eq_of_lt hv

theorem ite_lt_four {p : Prop} [Decidable p] {a b : Nat} (ha : a < 4) (hb : b < 4) : (if p then a else b) < 4 := by
  split
  · exact ha
  · exact hb

theorem Evid.resid_lt (e : Evid) : e.resid < 4 :=
  ite_lt_four (by decide) (ite_lt_four (by decide) (by decide))

theorem Evid.osnma_lt (e : Evid) (off notime : Bool) : e.osnma off notime < 4 :=
  ite_lt_four (by decide) (ite_lt_four (by decide) (ite_lt_four (by decide) (by decide)))

theorem Evid.osnma_eq (e : Evid) (p : Nat) (notime : Bool) :
    e.osnma (p == 0) notime =
      if 2 ≤ e.osfail then 3 else if e.osfail = 1 then 2 else if p = 0 ∨ notime = true ∨ e.osok < 4 then 0 else 1 := by
  simp only [Evid.osnma, Bool.or_eq_true, beq_iff_eq, decide_eq_true_eq, or_assoc]

theorem Evid.reloc_lt (e : Evid) (posv turned : Bool) : e.reloc posv turned < 4 :=
  ite_lt_four (by decide) (ite_lt_four (by decide) (ite_lt_four (by decide) (by decide)))

theorem Evid.reloc_eq (e : Evid) (posv turned : Bool) :
    e.reloc posv turned =
      if bit e.flags 2 = true ∧ (bit e.flags 0 = true ∨ (bit e.flags 1 = true ∧ posv = true)) then 3
      else if (bit e.flags 2 = true ∧ bit e.flags 1 = true ∧ posv = false) ∨ turned = true then 2
      else if bit e.flags 2 = true then 1 else 0 := by
  cases h : bit e.flags 2 <;>
    simp only [Evid.reloc, h, Bool.and_eq_true, Bool.or_eq_true, Bool.not_eq_true', Bool.true_and, Bool.false_and,
      Bool.not_true, Bool.not_false, Bool.false_or, Bool.false_eq_true, true_and, false_and, false_or, if_true, if_false]

theorem Evid.posn_eq (e : Evid) :
    e.posn = if bits e.flags 6 5 = 0 then 0 else if bits e.flags 6 5 = 1 then 1 else 2 := by
  unfold Evid.posn
  split
  next h => rw [if_pos h]
  next h => rw [if_neg (by omega), if_pos h]
  next h0 h1 => rw [if_neg h0, if_neg h1]

theorem Evid.posn_lt (e : Evid) : e.posn < 4 := by
  rw [Evid.posn_eq]
  exact ite_lt_four (by decide) (ite_lt_four (by decide) (by decide))

theorem Evid.level_lt (e : Evid) : e.level < 4 :=
  ite_lt_four (by decide) (ite_lt_four (by decide) (by decide))

/-- Settles O23: absence and judging by the record, the verdicts as they stand in `ITG_VERD`, and a fix by its FAIL, its WARN
and the code it finds. -/
theorem evidenceVerdicts : Obligations.EvidenceVerdicts := by
  intro x s t e fin seen old f
  refine ⟨fun h => ?off, fun hon h => ?unread,
    fun hon h => ⟨fun habs => ?stale, fun hseq hold hun => ?unfit, fun hseq hold hdof hmode => ?judged⟩,
    fun hrise => ⟨?resid, ?pos, ?level, ?navd, ?osnma, ?reloc⟩, by decide, State.fixJudged_fail, fun k => ?fix,
    fun clean warn h => if_pos h, fun clean warn h => ?degraded, fun clean => State.fixTransition_warn,
    State.fixTransition_holdover⟩
  case off => exact next_attnUpdate_congr (State.evidence_off x h)
  case unread => exact next_attnUpdate_congr (State.evidence_unread x hon h)
  case stale => exact next_attnUpdate_congr ((State.evidence_read x hon h).trans (if_pos habs))
  case unfit =>
    exact next_attnUpdate_congr
      ((State.evidence_read x hon h).trans ((if_neg (not_or.mpr ⟨hseq, hold⟩)).trans (if_pos hun)))
  case judged =>
    exact next_attnUpdate_congr
      ((State.evidence_read x hon h).trans ((if_neg (not_or.mpr ⟨hseq, hold⟩)).trans
        (if_neg (not_or.mpr ⟨Nat.not_lt.mpr hdof, hmode⟩))))
  case resid => exact State.verdicts_get hrise x 1 (fun _ _ _ _ => rfl) e.resid_lt
  case pos => exact (State.verdicts_get hrise x 5 (fun _ _ _ _ => rfl) e.posn_lt).trans e.posn_eq
  case level => exact State.verdicts_get hrise x 6 (fun _ _ _ _ => rfl) e.level_lt
  case navd => exact State.verdicts_get hrise x 8 (fun _ _ _ _ => rfl) (ite_lt_four (by decide) (by decide))
  case osnma =>
    exact (State.verdicts_get hrise x 2 (fun _ _ _ _ => rfl) (e.osnma_lt _ _)).trans (e.osnma_eq _ _)
  case reloc =>
    exact (State.verdicts_get hrise x 4 (fun _ _ _ _ => rfl) (e.reloc_lt _ _)).trans (e.reloc_eq _ _)
  case fix =>
    cases hb : s.itg.blk with
    | none => exact State.itgFix_free hb
    | some p => exact State.itgFix_against hb
  case degraded =>
    have h0 : s.code ≠ 0 := by omega
    exact (if_neg h0).trans (if_pos h)

/-! ### A code takes effect (R198, R204) -/

section Enter
variable {s : State} {k : Nat}

theorem State.itgEnter_held (h : s.code = k ∨ s.itg.minSet = true ∧ k ≠ 0) : s.itgEnter k = s := if_pos h

/-- A code that differs and that the minimum service set does not hold off: its effects in their order. -/
theorem State.itgEnter_changes (hc : s.code ≠ k) (hm : s.itg.minSet = false ∨ k = 0) :
    s.itgEnter k =
      let u := { s with itg := { s.itg with chgUp := s.tim.up, chgFrom := s.codeBefore } }.set ITG_STATE_STATE k
      let u := if sameState s.code k then u else u.itgChange s.code k
      let u := if 3 ≤ s.code ∧ k ≤ 2 then { u with umb := { u.umb with snapDue := true } } else u
      (u.winFall (decide (3 ≤ s.code) && decide (k ≤ 2)) k).lateOpen := by
  have hfree : ¬(s.code = k ∨ s.itg.minSet = true ∧ k ≠ 0) := by
    rintro (h | ⟨hmin, hk⟩)
    · exact hc h
    · exact hm.elim (fun hm => Bool.false_ne_true (hm.symm.trans hmin)) hk
  have hfall : (decide (3 ≤ s.code) && decide (k ≤ 2)) = true ↔ 3 ≤ s.code ∧ k ≤ 2 := by simp
  exact (if_neg hfree).trans
    (congrArg (fun u => (State.winFall u (decide (3 ≤ s.code) && decide (k ≤ 2)) k).lateOpen)
      (ite_congr (propext hfall) (fun _ => rfl) fun _ => rfl))

end Enter

/-! ### The integrity block's own transitions (R204, R207) -/

section Terr
variable {s : State}

theorem State.itgTerr_unstepped (h : s.get TIM_STAT_STATE ≠ 2) : s.itgTerr = s := if_pos h

variable (hst : s.get TIM_STAT_STATE = 2)
include hst

theorem State.itgTerr_beyond_ms (ht : 1000000 < s.terrNow) : s.itgTerr = s.itgBlock 0 := by
  simp [State.itgTerr, hst, ht]

variable (ht : s.terrNow ≤ 1000000)
include ht

/-- A code that was HOLDOVER's before this clock, TRUSTED by now or not, beyond `ITG_DGBND`. -/
theorem State.itgTerr_wasHoldover (hc : 1 < s.code) (hw : s.wasHoldover = true) (hd : s.dgBound < s.terrNow) :
    s.itgTerr = s.itgBlock 1 := by
  simp [State.itgTerr, hst, Nat.not_lt.mpr ht, hc, hw, hd]

/-- The TRUSTED that a fix of this clock reached from 0x3, beyond `ITG_HBND`. -/
theorem State.itgTerr_split (hc : s.code = 4) (hb : s.codeBefore = 3) (hh : s.hBound < s.terrNow)
    (hd : s.terrNow ≤ s.dgBound) : s.itgTerr = s.itgBlock 2 := by
  simp [State.itgTerr, hst, Nat.not_lt.mpr ht, Nat.not_lt.mpr hd, hc, hb, hh]

theorem State.itgTerr_trusted (hc : s.code = 4) (hd : ¬(s.wasHoldover = true ∧ s.dgBound < s.terrNow))
    (hh : ¬(s.codeBefore = 3 ∧ s.hBound < s.terrNow)) :
    s.itgTerr = if s.trBound < s.terrNow ∧ s.cleanNow = false then s.itgBlock s.holdCode else s := by
  simp [State.itgTerr, hst, Nat.not_lt.mpr ht, hc, hd, hh]

theorem State.itgTerr_holdover (hc : s.code = 2 ∨ s.code = 3) :
    s.itgTerr = if s.dgBound < s.terrNow then s.itgBlock 1 else s.itgBlock s.holdCode := by
  have hup : 1 < s.code := by omega
  have h4 : s.code ≠ 4 := by omega
  by_cases hd : s.dgBound < s.terrNow
  · simp [State.itgTerr, hst, Nat.not_lt.mpr ht, hup, h4, hc.symm, hd]
  · simp [State.itgTerr, hst, Nat.not_lt.mpr ht, h4, hc.symm, hd]

theorem State.itgTerr_low (hc : s.code < 2) : s.itgTerr = s := by
  have hup : ¬1 < s.code := by omega
  have h4 : s.code ≠ 4 := by omega
  have h3 : s.code ≠ 3 := by omega
  have h2 : s.code ≠ 2 := by omega
  simp [State.itgTerr, hst, Nat.not_lt.mpr ht, hup, h4, h3, h2]

end Terr

section Age
variable {s : State}

theorem State.itgAge_passed (ha : s.reached s.agedFrom (s.holdMax * 3600 * 10 ^ 9) = true)
    (hc : s.code = 2 ∨ s.code = 3 ∨ s.code = 4 ∧ s.wasHoldover = true) : s.itgAge = s.itgBlock 1 := by
  refine if_pos ⟨?_, ?_, ha⟩
  · omega
  · rcases hc with hc | hc | ⟨-, hw⟩
    · exact .inr (by omega)
    · exact .inr (by omega)
    · exact .inl hw

theorem State.itgAge_none (h : s.reached s.agedFrom (s.holdMax * 3600 * 10 ^ 9) = false ∨ s.code < 2 ∨
    s.code = 4 ∧ s.wasHoldover = false) : s.itgAge = s := by
  refine if_neg fun ⟨hup, hwas, ha⟩ => ?_
  rcases h with h | h | ⟨h4, hw⟩
  · exact Bool.false_ne_true (h.symm.trans ha)
  · omega
  · exact hwas.elim (fun h => Bool.false_ne_true (hw.symm.trans h)) (fun h => h h4)

theorem State.itgNoFix_trusted (hcont : s.continuous = true)
    (hq : s.reached (max s.itg.fixAt s.itg.contAt) (s.holdIn * 10 ^ 9) = true) (hc : s.code = 4) :
    s.itgNoFix = s.itgEnter s.holdCode :=
  (if_pos ⟨hcont, hq⟩).trans (if_pos hc)

theorem State.itgNoFix_none (h : s.continuous = false ∨
    s.reached (max s.itg.fixAt s.itg.contAt) (s.holdIn * 10 ^ 9) = false ∨ s.code ≠ 4) : s.itgNoFix = s := by
  by_cases h4 : s.code = 4
  · refine if_neg fun ⟨hcont, hq⟩ => ?_
    rcases h with h | h | h
    · exact Bool.false_ne_true (h.symm.trans hcont)
    · exact Bool.false_ne_true (h.symm.trans hq)
    · exact h h4
  · simp [State.itgNoFix, State.itgHoldover, h4]

end Age

/-! ### Latches (R205) -/

section Latch
variable {s : State}

theorem State.itgUnlatch_woad (hon : s.on ITG_LATCH_WOAD = true) (own : Bool) :
    s.itgUnlatch ITG_LATCH_WOAD own =
      let u := s.set ITG_LATCH_WOAD 0
      let l := u.get ITG_LATCH_STEPERR * 4 + u.get ITG_LATCH_WOAD * 2 + u.get ITG_LATCH_RELOC
      let u := u.note 0x0302 0x03 1 (l * 2 ^ 77 + b2n own * 2 ^ 75)
      { u with itg := { u.itg with woadFail := none, woadPass := false } } := by
  have hf : ITG_LATCH_WOAD ≠ ITG_LATCH_RELOC := by decide
  simp -zeta only [State.itgUnlatch, hon, hf, Bool.not_true, Bool.false_eq_true, if_false, if_true]

theorem State.woadExpiry_due (hp : s.itg.woadPass = true) (hq : s.woadQuiet = true) :
    s.woadExpiry = s.itgUnlatch ITG_LATCH_WOAD true := if_pos (by rw [hp, hq]; rfl)

theorem State.woadExpiry_waits (h : s.itg.woadPass = false ∨ s.woadQuiet = false) : s.woadExpiry = s :=
  if_neg (by rcases h with h | h <;> simp [h])

theorem State.woadQuiet_since {a : Nat} (h : s.itg.woadFail = some a) : s.woadQuiet = s.reached a (1800 * 10 ^ 9) := by
  simp only [State.woadQuiet, h]

end Latch

/-- Settles O24: transitions by `TERR` rung by rung, by age and by the time without a fix, the latches' clearing, and a
code's own effects (`State.itgEnter_changes`). -/
theorem integrityEvents : Obligations.IntegrityEvents := by
  intro m w s c t goes hold
  refine ⟨fun h => ?unstepped, fun hst => ⟨fun ht => ?ms, fun ht hc hw hd => ?was, fun ht hc hb hh hd => ?split,
      fun ht hc hd hh => ⟨fun hr hn => ?leaves, fun h => ?stays⟩, fun ht hc hd => ?degraded, fun ht hc hd => ?code,
      fun ht hc => ?low⟩,
    ⟨fun ha hc => ?aged, fun h => ?young⟩, ⟨fun hcont hq hc => ?noFix, fun h => ?fixed⟩,
    fun hp hq hon => ?expires, fun a => State.woadQuiet_since, fun h => ?waits, ?write,
    fun k _ => ⟨State.itgEnter_changes, State.itgEnter_held⟩⟩
  case unstepped => exact next_attnUpdate_congr (State.itgTerr_unstepped h)
  case ms => exact next_attnUpdate_congr (State.itgTerr_beyond_ms hst ht)
  case was => exact next_attnUpdate_congr (State.itgTerr_wasHoldover hst ht hc hw hd)
  case split => exact next_attnUpdate_congr (State.itgTerr_split hst ht hc hb hh hd)
  case leaves =>
    exact next_attnUpdate_congr ((State.itgTerr_trusted hst ht hc hd hh).trans (if_pos ⟨hr, hn⟩))
  case stays =>
    refine next_attnUpdate_congr ((State.itgTerr_trusted hst ht hc hd hh).trans (if_neg ?_))
    rintro ⟨hr, hn⟩
    exact h.elim (Nat.not_le.mpr hr) (fun h => Bool.false_ne_true (hn.symm.trans h))
  case degraded => exact next_attnUpdate_congr ((State.itgTerr_holdover hst ht hc).trans (if_pos hd))
  case code =>
    exact next_attnUpdate_congr
      ((State.itgTerr_holdover hst ht hc).trans (if_neg (Nat.not_lt.mpr hd)))
  case low => exact next_attnUpdate_congr (State.itgTerr_low hst ht hc)
  case aged => exact next_attnUpdate_congr (State.itgAge_passed ha hc)
  case young => exact next_attnUpdate_congr (State.itgAge_none h)
  case noFix => exact next_attnUpdate_congr (State.itgNoFix_trusted hcont hq hc)
  case fixed => exact next_attnUpdate_congr (State.itgNoFix_none h)
  case expires =>
    exact next_attnUpdate_congr
      ((State.woadExpiry_due hp hq).trans (State.itgUnlatch_woad hon true))
  case waits => exact next_attnUpdate_congr (State.woadExpiry_waits h)
  case write =>
    exact Writes.of_hook rfl (memClass_blocks (by omega)) (by omega) (by omega) rfl (regHook_itgLatch w.toNat [] s)

/-! ### Fix bursts (R186, R215, R216, R306) -/

section Bursts
variable {s : State}

theorem State.burstStart_begins (hc : s.continuous = false) (ha : s.itg.burst.active = false)
    (hb : s.on SUP_STAT_BRACE = false) (hw : s.on RTC_WREASON_PERIODIC = true) :
    s.burstStart = ({ s with
      itg := { s.itg with burst := {
        active := true, startAt := s.tim.up, wakeTick := s.get2 RTC_WTICK_L_TICK RTC_WTICK_H_TICK } },
      nav := { s.nav with fixes := [] } }.rtcLater 0x40020024 (1 ||| (s.rtcWaits 0x40020024).getD 0) false).fecWake :=
  if_neg (by simp [hc, ha, hb, hw])

theorem State.burstStart_none (h : s.continuous = true ∨ s.itg.burst.active = true ∨ s.on SUP_STAT_BRACE = true ∨
    s.on RTC_WREASON_PERIODIC = false) : s.burstStart = s :=
  if_pos (by rcases h with h | h | h | h <;> simp [h])

theorem State.burstRelease_due (ha : s.itg.burst.active = true) (hr : s.itg.burst.released = false)
    (hb : s.on SUP_STAT_BRACE = false) (hd : s.reached s.itg.burst.startAt (s.fecLead * 1000000) = true) :
    s.burstRelease = ({ s with itg := { s.itg with burst := { s.itg.burst with released := true } } }).linksWake :=
  if_neg (by simp [ha, hr, hb, hd])

theorem State.burstRelease_none (h : s.itg.burst.active = false ∨ s.itg.burst.released = true ∨
    s.on SUP_STAT_BRACE = true ∨ s.reached s.itg.burst.startAt (s.fecLead * 1000000) = false) : s.burstRelease = s :=
  if_pos (by rcases h with h | h | h | h <;> simp [h])

theorem State.burstEnd_none (h : s.itg.burst.active = false ∨ s.itg.burst.qualified = false) : s.burstEnd = s :=
  if_pos (by rcases h with h | h <;> simp [h])

/-- A burst that a qualifying fix has ended offers the mean of its fixes, if it has any (R186). -/
def State.burstOffer (s : State) : State :=
  match burstMean s.nav.fixes with
  | some f => s.fixOffer f.1 f.2.1 f.2.2.1 f.2.2.2
  | none => s

theorem State.burstEnd_qualified (ha : s.itg.burst.active = true) (hq : s.itg.burst.qualified = true) :
    s.burstEnd = s.burstOffer.burstClose false := by
  refine (if_neg (by simp [ha, hq])).trans ?_
  unfold State.burstOffer
  cases burstMean s.nav.fixes <;> rfl

theorem State.burstOffer_no_fix (h : s.nav.fixes = []) : s.burstOffer = s := by
  simp [State.burstOffer, h, burstMean]

theorem State.burstOffer_mean {f : Int × Nat × Int × Nat} (h : burstMean s.nav.fixes = some f) :
    s.burstOffer = s.fixOffer f.1 f.2.1 f.2.2.1 f.2.2.2 := by
  simp only [State.burstOffer, h]

theorem State.burstMax_early (h : s.reached s.itg.burst.startAt (s.bmax * 10 ^ 9) = false) : s.burstMax = s :=
  if_neg fun hl => Bool.false_ne_true (h.symm.trans hl)

theorem State.burstMax_idle (h : s.itg.burst.active = false) : s.burstMax = s := by
  simp [State.burstMax, State.burstMiss, State.burstEnd_none (.inl h), h]

section Late
variable (hl : s.reached s.itg.burst.startAt (s.bmax * 10 ^ 9) = true)
include hl

theorem State.burstMax_missed (ha : s.itg.burst.active = true) (hq : s.itg.burst.qualified = false) :
    s.burstMax = s.burstClose true :=
  (if_pos hl).trans (by simp [State.burstMiss, ha, hq])

theorem State.burstMax_qualified (hq : s.itg.burst.qualified = true) : s.burstMax = s.burstEnd :=
  (if_pos hl).trans (if_pos hq)

end Late
end Bursts

/-- Settles O25: a burst's begin, release, end and miss, each where its conditions hold and where one fails; the close is
`State.burstClose` as the model has it. -/
theorem fixBursts : Obligations.FixBursts := by
  intro s b close fin
  refine ⟨fun hc ha hb hw => ?begins, fun h => ?none, fun ha hr hb hd => ?release, fun h => ?held,
    fun ha hq hf => ?bare, fun f ha hq hf => ?mean, fun h => ?unqualified,
    fun ha hq hl => ?missed, fun ha hq hl => ?ended, fun h => ?early⟩
  case begins => exact congrArg Host.Outcome.next (State.burstStart_begins hc ha hb hw)
  case none => exact congrArg Host.Outcome.next (State.burstStart_none h)
  case release => exact congrArg Host.Outcome.next (State.burstRelease_due ha hr hb hd)
  case held => exact congrArg Host.Outcome.next (State.burstRelease_none h)
  case bare =>
    exact next_attnUpdate_congr
      ((State.burstEnd_qualified ha hq).trans (congrArg (State.burstClose · false) (State.burstOffer_no_fix hf)))
  case mean =>
    exact next_attnUpdate_congr
      ((State.burstEnd_qualified ha hq).trans (congrArg (State.burstClose · false) (State.burstOffer_mean hf)))
  case unqualified => exact next_attnUpdate_congr (State.burstEnd_none (.inr h))
  case missed => exact next_attnUpdate_congr (State.burstMax_missed hl ha hq)
  case ended => exact next_attnUpdate_congr (State.burstMax_qualified hl hq)
  case early => exact next_attnUpdate_congr (h.elim State.burstMax_idle State.burstMax_early)

end Sys2Proof.Machine

/-! SUPPORT. The time core (ch. 9): what its requests, the pulse outputs, their composition, the pulse input and the ticks of
device time come to, case by case, and the statements about them (O26, O27, O28). -/

namespace Sys2Proof.Machine

/-! ### The registers of the time core -/

/-- A write that is accepted, to a register of the time core that does `f` beside; the always-on domain has none there. -/
theorem Writes.of_tim_hook {c : Instr} {m : Master} {a : Nat} {w : Word} {s : State} {f : State → State}
    (ha : 0x40040000 ≤ a ∧ a < 0x40050000) (h4 : a % 4 = 0) (he : exec c s = .next (s.busDo m a 4 w.toNat))
    (hk : ∀ t, regHook a w.toNat [] s t = f t) : Writes c m a w s f := by
  refine Writes.of_hook he (memClass_blocks (by omega)) h4 (by omega) ?_ hk
  simp only [rtcLateReg, Bool.or_eq_false_iff, beq_eq_false_iff_ne]
  omega

theorem timTp_addr (n r : Nat) : (TIM_TP_CFG_EN n).addr + 4 * r = 0x40040100 + 0x40 * n + 4 * r := by
  simp only [TIM_TP_CFG_EN]; omega

/-- Settles O26: with `GO` set, each register's hook passes its first test and comes to the request. -/
theorem timeRequests : Obligations.TimeRequests := by
  intro m w s hgo
  have hgo' : ¬(!bit w.toNat 31) = true := by rw [hgo]; decide
  refine ⟨?fix, ?step, ?load⟩
  case fix =>
    exact Writes.of_tim_hook (by omega) (by omega) rfl fun t => (regHook_timFix _ [] s t).trans (if_pos hgo)
  case step =>
    exact Writes.of_tim_hook (by omega) (by omega) rfl fun t => (regHook_timStep _ [] s t).trans (if_neg hgo')
  case load =>
    exact Writes.of_tim_hook (by omega) (by omega) rfl fun t => (regHook_timLoad _ [] s t).trans (if_neg hgo')

/-! ### Edges of a time pulse (R231, R234, R236) -/

/-- The leading edge of output `n` that is due, counted and off its list, where `rest` stays; the next one is shown. -/
def State.tpTaken (s : State) (n : Nat) (rest : List TpEdge) : State :=
  ((s.inc (TIM_TP_CNT_COUNT n)).setTp n { s.tp n with edges := rest }).tpShow n

section Edges
variable {s : State} {n : Nat}

theorem State.tpBlank_iff {p : TpSt} : s.tpBlank p = true ↔
    tvSec s.tim.t < p.first ∨ p.composed = none ∨ ∃ c, p.composed = some c ∧ c < tvSec s.tim.t := by
  cases hc : p.composed <;> simp [State.tpBlank, hc]

section Leading
variable {e : TpEdge} {rest : List TpEdge} (he : (s.tp n).edges = e :: rest) (hd : s.due e.t = true)
include he hd

theorem State.tpLead_withheld (h : (s.tpTaken n rest).code < (s.tp n).set.qual ∨ (s.tpTaken n rest).itg.below = true ∨
    (s.tpTaken n rest).itg.minSet = true ∧ n ≠ 0) :
    s.tpLead n = (s.tpTaken n rest).set (TIM_TP_STAT_WITHHELD n) 1 := by
  simp only [State.tpLead, he, hd]
  refine (if_neg (by decide)).trans (if_pos ?_)
  simp only [Bool.or_eq_true, Bool.and_eq_true, decide_eq_true_eq, bne_iff_ne, or_assoc]
  exact h

theorem State.tpLead_produced (hq : (s.tp n).set.qual ≤ (s.tpTaken n rest).code)
    (hb : (s.tpTaken n rest).itg.below = false) (hm : (s.tpTaken n rest).itg.minSet = false ∨ n = 0) :
    s.tpLead n =
      ((((s.tpTaken n rest).setTp n
        { (s.tpTaken n rest).tp n with trailAt := some (e.t + (s.tp n).set.wid * usU) }).set
          (TIM_TP_STAT_ACTIVE n) 1).tpDrive n (!(s.tp n).set.pol)) := by
  simp only [State.tpLead, he, hd]
  refine (if_neg (by decide)).trans (if_neg ?_)
  have hout : ((s.tpTaken n rest).itg.minSet && n != 0) = false := by
    rcases hm with hm | rfl
    · rw [hm, Bool.false_and]
    · exact Bool.and_false _
  have hcode : decide ((s.tpTaken n rest).code < (s.tp n).set.qual) = false := decide_eq_false (Nat.not_lt.mpr hq)
  exact ne_true_of_eq_false (Bool.or_eq_false_iff.mpr ⟨Bool.or_eq_false_iff.mpr ⟨hcode, hb⟩, hout⟩)

end Leading

section NoneDue
variable (h : ∀ e rest, (s.tp n).edges = e :: rest → s.due e.t = false)
include h

/-- Where no composed edge is due, only a second that was not composed has an effect. -/
theorem State.tpLead_not_due : s.tpLead n =
    if (s.tp n).set.en = true ∧ s.tpBlank (s.tp n) = true then
      (s.inc (TIM_TP_CNT_COUNT n)).set (TIM_TP_STAT_WITHHELD n) 1
    else s := by
  cases he : (s.tp n).edges with
  | nil => simp only [State.tpLead, he]
  | cons e rest => simp only [State.tpLead, he, h e rest he, Bool.not_false, if_true]

theorem State.tpLead_blank (hen : (s.tp n).set.en = true) (hb : s.tpBlank (s.tp n) = true) :
    s.tpLead n = (s.inc (TIM_TP_CNT_COUNT n)).set (TIM_TP_STAT_WITHHELD n) 1 :=
  (State.tpLead_not_due h).trans (if_pos ⟨hen, hb⟩)

theorem State.tpLead_none (hn : (s.tp n).set.en = false ∨ ¬ s.tpBlank (s.tp n) = true) : s.tpLead n = s :=
  (State.tpLead_not_due h).trans (if_neg fun ⟨hen, hb⟩ => hn.elim (fun hn => Bool.false_ne_true (hn.symm.trans hen)) (· hb))

end NoneDue

/-- The trailing edge that is due: the output goes to its level between pulses. -/
theorem State.tpTrail_due {t : Nat} (ht : (s.tp n).trailAt = some t) (hd : s.due t = true) :
    s.tpTrail n = ((s.setTp n { s.tp n with trailAt := none, lastTrail := t }).set (TIM_TP_STAT_ACTIVE n) 0).tpDrive n
      ((s.tp n).set.pol && !s.itg.below && (!s.itg.minSet || n == 0)) := by
  simp [State.tpTrail, State.tpEnd, State.tpRest, State.tpIdle, ht, hd]

end Edges

/-! ### Composition (R231, R234, R235, R236) -/

/-- The first edges of the next second must keep their distance from the last trailing edge: a move backwards or a step asks
for it, or a leap that does not move the edges by whole periods. -/
def State.tpAligns (s : State) (n : Nat) : Bool :=
  (s.tp n).align || (((s.tp n).set.scale == 1 || (s.tp n).set.scale == 5) &&
    decide ((s.utcofsAt (tvSec s.tim.t + 1) - s.getI TIM_UTC_UTCOFS) * 1000 % (s.tp n).set.per ≠ 0))

/-- The leading edges of the next second under the setting in force. -/
def State.tpAhead (s : State) (n : Nat) (gaps : List Nat) : List TpEdge :=
  s.tpNext n (s.tp n).set (tvSec s.tim.t + 1) ((s.tp n).newSet || s.tpAligns n) gaps

/-- An output for whose next second `es` has been composed, its message not yet made. -/
def State.tpAdded (s : State) (n : Nat) (es : List TpEdge) : TpSt :=
  { s.tp n with
    composed := some (tvSec s.tim.t + 1), msg := none, edges := (s.tp n).edges ++ es,
    newSet := (s.tp n).newSet && es.isEmpty, align := s.tpAligns n && es.isEmpty }

/-- The second that holds `es` composed, with its message made and announced (R235). -/
def State.tpTell (s : State) (n : Nat) (es : List TpEdge) : State :=
  (s.setTp n { s.tpAdded n es with
    msg := some (s.tpPayload n (tvSec s.tim.t + 1) (s.tp n).set es (s.tp n).stepped
      (decide (s.code < (s.tp n).set.qual)) ((s.tp n).newSet && !es.isEmpty)
      (decide (s.utcofsAt (tvSec s.tim.t + 1) - s.getI TIM_UTC_UTCOFS ≠ 0))),
    stepped := (s.tp n).stepped && es.isEmpty }).orF TIM_IRQ_IRQ 16

/-- Under a setting that stays, edges are measured from the last one composed. -/
theorem State.tpAhead_of_last {s : State} {n : Nat} {l : TpEdge} (gaps : List Nat)
    (hl : (s.tp n).edges.getLast? = some l) : s.tpAhead n gaps =
      s.tpEdges s.tpRate (s.tp n).set.per ((tvSec s.tim.t + 1) * secU) none
        ((s.tpIdeal (s.tp n).set (tvSec s.tim.t + 1)).filter fun e => decide
          (max (s.tp n).notBefore
            (if ((s.tp n).newSet || s.tpAligns n) = true then
              l.t + (s.tp n).set.wid * usU + ((s.tp n).set.wid + 1) * usU else 0) ≤
            tpAt ((tvSec s.tim.t + 1) * secU) e)) gaps := by
  simp only [State.tpAhead, State.tpNext, hl]

section Compose
variable {s : State} {n : Nat} {gaps : List Nat} {es : List TpEdge} (hms : 500 ≤ s.msOfSec)
  (hc : (s.tp n).composed ≠ some (tvSec s.tim.t + 1)) (hf : (s.tp n).first ≤ tvSec s.tim.t + 1)
include hms hc hf

theorem State.tpCompose_disabled (hw : (s.tpRegs n).en = false) (hx : (s.tp n).set.en = false) :
    s.tpCompose n gaps = s.setTp n { s.tp n with composed := some (tvSec s.tim.t + 1), msg := none } := by
  refine (if_neg (not_or.mpr ⟨Nat.not_lt.mpr hms, not_or.mpr ⟨hc, Nat.not_lt.mpr hf⟩⟩)).trans (if_pos ?_)
  split
  · rw [hw, Bool.not_false]
  · rw [hx, Bool.not_false]

section Stays
variable (hen : (s.tp n).set.en = true) (hdue : (s.tp n).due = none) (hstep : s.tim.step = none)
include hen hdue hstep

/-- Composition of an enabled output whose setting stays, with no step due. -/
theorem State.tpCompose_stays : s.tpCompose n gaps =
    if (s.tpAhead n gaps).isEmpty = true then s.setTp n (s.tpAdded n (s.tpAhead n gaps))
    else if (s.tp n).edges = [] then (s.tpTell n (s.tpAhead n gaps)).tpShow n else s.tpTell n (s.tpAhead n gaps) := by
  have hkept : ¬((s.tp n).due.any (fun d => decide (d ≤ tvSec s.tim.t + 1)) = true ∧ (s.tpRegs n).ok = true) := by
    simp only [hdue, Option.any_none, Bool.false_eq_true, false_and, not_false_eq_true]
  refine (if_neg (not_or.mpr ⟨Nat.not_lt.mpr hms, not_or.mpr ⟨hc, Nat.not_lt.mpr hf⟩⟩)).trans ?_
  simp only [hkept, hstep, hen, Bool.not_true, Bool.false_eq_true, if_false, decide_false, Bool.false_or]
  rfl

theorem State.tpCompose_quiet (hes : s.tpAhead n gaps = es) (h : es = []) :
    s.tpCompose n gaps = s.setTp n (s.tpAdded n es) := by
  subst hes
  exact (State.tpCompose_stays hms hc hf hen hdue hstep).trans (if_pos (List.isEmpty_iff.mpr h))

theorem State.tpCompose_message (hes : s.tpAhead n gaps = es) (h : es ≠ []) (he : (s.tp n).edges ≠ []) :
    s.tpCompose n gaps =
      (s.setTp n { s.tpAdded n es with
        msg := some (s.tpPayload n (tvSec s.tim.t + 1) (s.tp n).set es (s.tp n).stepped
          (decide (s.code < (s.tp n).set.qual)) (s.tp n).newSet
          (decide (s.utcofsAt (tvSec s.tim.t + 1) - s.getI TIM_UTC_UTCOFS ≠ 0))),
        stepped := false }).orF TIM_IRQ_IRQ 16 := by
  subst hes
  have hne := List.isEmpty_eq_false_iff.mpr h
  refine (State.tpCompose_stays hms hc hf hen hdue hstep).trans
    ((if_neg (ne_true_of_eq_false hne)).trans ((if_neg he).trans ?_))
  simp only [State.tpTell, hne, Bool.not_false, Bool.and_true, Bool.and_false]

end Stays
end Compose

/-- Settles O27: a setting write by its hook, the edges by where the one that is due stands, composition by whether the
second holds an edge. -/
theorem pulses : Obligations.Pulses := by
  refine ⟨fun m n r w gaps s => ⟨?setting, fun e rest he hd => ⟨fun h => ?withheld, fun hq hb hm => ?produced⟩,
      fun h => ⟨fun hen hb => ?blank, fun hn => ?none⟩, fun t ht hd => ?trailing, fun hms hc hf hw hx => ?disabled⟩,
    fun n gaps s hms hc hf hen hdue hstep l hl => ?composes⟩
  case setting =>
    exact Writes.of_tim_hook (by omega) (by omega) (by rw [← timTp_addr]; rfl) fun t => regHook_timTp n r _ [] s t
  case withheld => exact congrArg Host.Outcome.next (State.tpLead_withheld he hd h)
  case produced => exact congrArg Host.Outcome.next (State.tpLead_produced he hd hq hb hm)
  case blank => exact congrArg Host.Outcome.next (State.tpLead_blank h hen (State.tpBlank_iff.mpr hb))
  case none => exact congrArg Host.Outcome.next (State.tpLead_none h (hn.imp_right (mt State.tpBlank_iff.mp)))
  case trailing => exact congrArg Host.Outcome.next (State.tpTrail_due ht hd)
  case disabled => exact congrArg Host.Outcome.next (State.tpCompose_disabled hms hc hf hw hx)
  case composes =>
    have hes := State.tpAhead_of_last gaps hl
    have he : (s.tp n).edges ≠ [] := by
      rintro he
      rw [he] at hl
      exact Option.some_ne_none l hl.symm
    exact ⟨fun h => congrArg Host.Outcome.next (State.tpCompose_quiet hms hc hf hen hdue hstep hes h),
      fun h => congrArg Host.Outcome.next (State.tpCompose_message hms hc hf hen hdue hstep hes h he)⟩

/-! ### Device time's ticks (R219, R220) -/

section Second
variable {s : State} {ncal edges : Nat} {phases : List Int}

theorem State.deviceSecond_acts (h0 : s.tim.t % secU = 0) (hd : s.tim.secDone ≠ some (tvSec s.tim.t)) :
    s.deviceSecond ncal edges phases =
      (((((((s.rtcAdvance edges).rtcLatch (tvSec s.tim.t)).coreSecond ncal).pllEvent fun t => t.clkSecond phases).each 2
        fun n t => t.tpApply (tvSec s.tim.t) n).ptpSecond).aeludSecond.cusSecond.timEval.attnUpdate.lateOpen) :=
  if_neg (not_or.mpr ⟨not_not_intro h0, hd⟩)

theorem State.deviceSecond_none (h : s.tim.t % secU ≠ 0 ∨ s.tim.secDone = some (tvSec s.tim.t)) :
    s.deviceSecond ncal edges phases = s := if_pos h

end Second

/-! ### The pulse input (R237, R238, R443) -/

/-- The device second nearest to an instant `sub` after the epoch boundary. -/
def State.nearSecond (s : State) (sub : Nat) : Nat := (s.now sub + secU / 2) / secU

/-- How far, in ps, that instant lies from its nearest second. -/
def State.offSecond (s : State) (sub : Nat) : Int :=
  uToPs ((s.now sub : Int) - (s.nearSecond sub * secU : Nat))

section PulseInput
variable {s : State} {sub : Nat} {e : TpiIn}

theorem State.tpiEdge_none (h : s.on TIM_TPI_CFG_EN = false ∨ e.falling ≠ s.on TIM_TPI_CFG_EDGE) :
    s.tpiEdge sub e = s := if_pos (by simpa using h)

section Selected
variable (hen : s.on TIM_TPI_CFG_EN = true) (hedge : e.falling = s.on TIM_TPI_CFG_EDGE)
include hen hedge

theorem State.tpiEdge_glitch (hw : e.width < 50) : s.tpiEdge sub e = s.set TIM_TPI_STAT_GLITCH 1 :=
  (if_neg (by simp [hen, hedge])).trans (if_pos hw)

/-- An edge of a pulse that is long enough is stamped, and then the window decides. -/
theorem State.tpiEdge_stamped (hw : 50 ≤ e.width) : s.tpiEdge sub e =
    let t := s.tpiStamp (s.now sub)
    if t.tpiMode ≠ 0 ∧ max 1 (t.get TIM_TPI_CFG_WIN) * 1000000 < (s.offSecond sub).natAbs then t.set TIM_TPI_STAT_STRAY 1
    else t.tpiUse (s.offSecond sub - t.getI TIM_TPI_DLY_PS) (s.nearSecond sub) :=
  (if_neg (by simp [hen, hedge])).trans (if_neg (by omega))

theorem State.tpiEdge_used (hw : 50 ≤ e.width) (h : (s.tpiStamp (s.now sub)).tpiMode = 0 ∨
    (s.offSecond sub).natAbs ≤ max 1 ((s.tpiStamp (s.now sub)).get TIM_TPI_CFG_WIN) * 1000000) :
    s.tpiEdge sub e = (s.tpiStamp (s.now sub)).tpiUse
      (s.offSecond sub - (s.tpiStamp (s.now sub)).getI TIM_TPI_DLY_PS) (s.nearSecond sub) :=
  (State.tpiEdge_stamped hen hedge hw).trans (if_neg fun ⟨hm, hd⟩ => h.elim hm (Nat.not_le_of_lt hd))

theorem State.tpiEdge_stray (hw : 50 ≤ e.width) (hm : (s.tpiStamp (s.now sub)).tpiMode ≠ 0)
    (hd : max 1 ((s.tpiStamp (s.now sub)).get TIM_TPI_CFG_WIN) * 1000000 < (s.offSecond sub).natAbs) :
    s.tpiEdge sub e = (s.tpiStamp (s.now sub)).set TIM_TPI_STAT_STRAY 1 :=
  (State.tpiEdge_stamped hen hedge hw).trans (if_pos ⟨hm, hd⟩)

end Selected

theorem State.tpiLoss_lost (hen : s.on TIM_TPI_CFG_EN = true) (hm : s.tpiMode ≠ 0)
    (hl : s.reached (s.tpi.usedAt.getD s.tpi.enabledAt) (3 * 10 ^ 9) = true) :
    s.tpiLoss = (s.set TIM_TPI_STAT_TPILOSS 1).xTidy := if_pos (by simpa [hen, hm] using hl)

theorem State.tpiLoss_none
    (h : s.tpiMode = 0 ∨ s.reached (s.tpi.usedAt.getD s.tpi.enabledAt) (3 * 10 ^ 9) = false) : s.tpiLoss = s :=
  if_neg (by simpa using fun _ hm => h.resolve_left hm)

end PulseInput

/-- Settles O28: the epoch is its operation as it stands; the second, the edge and the loss go by their conditions. -/
theorem timeTicks : Obligations.TimeTicks := by
  intro obs ncal edges sub e phases s
  refine ⟨rfl, fun h0 hd => ?second, fun h => ?done, fun h => ?ignored, fun hen =>
    ⟨fun hedge => ⟨fun hw => ?glitch, fun hw => ⟨fun h => ?used, fun hm hd => ?stray⟩⟩,
      fun hm hl => ?lost, fun h => ?kept⟩⟩
  case second => exact congrArg Host.Outcome.next (State.deviceSecond_acts h0 hd)
  case done => exact congrArg Host.Outcome.next (State.deviceSecond_none h)
  case ignored => exact congrArg Host.Outcome.next (State.tpiEdge_none h)
  case glitch => exact congrArg Host.Outcome.next (State.tpiEdge_glitch hen hedge hw)
  case used => exact congrArg Host.Outcome.next (State.tpiEdge_used hen hedge hw h)
  case stray => exact congrArg Host.Outcome.next (State.tpiEdge_stray hen hedge hw hm hd)
  case lost => exact congrArg Host.Outcome.next (State.tpiLoss_lost hen hm hl)
  case kept => exact congrArg Host.Outcome.next (State.tpiLoss_none h)

end Sys2Proof.Machine

/-! SUPPORT. The synthesisers and the clock outputs (ch. 10): what the writes of their control registers, the way to lock and
alignment, the losses and the measured supply come to, case by case, and the statements about them (O29, O30, O31). -/

namespace Sys2Proof.Machine

/-! ### Control registers (R243, R247–R250) -/

/-- A write that is accepted, to a register of the synthesisers or of the clock outputs that does `f` beside. -/
theorem Writes.of_pll_hook {c : Instr} {m : Master} {a : Nat} {w : Word} {s : State} {f : State → State}
    (ha : 0x40030000 ≤ a ∧ a < 0x40040000) (h4 : a % 4 = 0) (he : exec c s = .next (s.busDo m a 4 w.toNat))
    (hk : ∀ t, regHook a w.toNat [] s t = f t) : Writes c m a w s f := by
  refine Writes.of_hook he (memClass_blocks (by omega)) h4 (by omega) ?_ hk
  simp only [rtcLateReg, Bool.or_eq_false_iff, beq_eq_false_iff_ne]
  omega

theorem pllCtl_addr (x : Nat) : (PLL_CTL_GO x).addr = 0x40030000 + 0x100 * x := by
  simp only [PLL_CTL_GO]; omega

theorem pllTrim_addr (x : Nat) : (PLL_TRIM_TRIM x).addr = 0x40030014 + 0x100 * x := by
  simp only [PLL_TRIM_TRIM]; omega

theorem ckoCfg_addr (k : Nat) : (CKO_CFG_EN k).addr = 0x40030E00 + 0x20 * k := by
  simp only [CKO_CFG_EN]; omega

/-- `GO` of `PLL_D` to `PLL_F` stages the written target for the next second (R248). -/
def State.pllGo (s : State) (x w : Nat) : State :=
  if bit w 30 ∧ 3 ≤ x then
    (s.setPll x { s.pll x with staged := some (s.pllRegs x) }).set (PLL_STAT_PEND x) 1 else s

/-- `RELOCK` waits for the next second; `PLL_A` in STEPPED refuses it (R244). -/
def State.pllAsk (s : State) (x w : Nat) : State :=
  if !bit w 29 then s
  else if x = 0 ∧ s.get TIM_STAT_STATE = 2 then s.set (PLL_STAT_REFUSED x) 1
  else (s.setPll x { s.pll x with relockDue := true }).set (PLL_STAT_PEND x) 1

/-- `EN` cleared takes the synthesiser to OFF, which still waits for an absent reference (R243, R246). -/
def State.pllOff (s : State) (x : Nat) (was : Bool) : State :=
  if was && !s.on (PLL_CTL_EN x) then
    let u := (s.pllDown x []).set (PLL_STAT_STATE x) 0
    u.setPll x { u.pll x with noRef := u.tim.refLost && (u.pll x).noRef }
  else s

/-- `FOLLOW` cleared ends the follow term by a ramp (R249). -/
def State.pllUnfollow (s : State) (x : Nat) : State :=
  let p := s.pll x
  if s.on (PLL_CTL_FOLLOW x) || !p.following then s
  else (s.setPll x { p with follow := 0, following := false }).setB (PLL_STAT_RAMP x)
    (s.on (PLL_STAT_RAMP x) || decide (p.follow ≠ 0))

theorem State.pllGo_eq (s : State) (x w : Nat) : s.pllGo x w =
    if bit w 30 && decide (3 ≤ x) then
      (s.setPll x { s.pll x with staged := some (s.pllRegs x) }).set (PLL_STAT_PEND x) 1 else s :=
  ite_congr (by simp only [Bool.and_eq_true, decide_eq_true_eq]) (fun _ => rfl) fun _ => rfl

theorem State.pllAsk_eq (s : State) (x w : Nat) : s.pllAsk x w =
    if !bit w 29 then s
    else if x = 0 && s.get TIM_STAT_STATE == 2 then s.set (PLL_STAT_REFUSED x) 1
    else (s.setPll x { s.pll x with relockDue := true }).set (PLL_STAT_PEND x) 1 :=
  ite_congr rfl (fun _ => rfl) fun _ =>
    ite_congr (by simp only [Bool.and_eq_true, decide_eq_true_eq, beq_iff_eq]) (fun _ => rfl) fun _ => rfl

/-- A write of `PLL_CTL` acts by its four fields in turn. -/
theorem State.pllCtl_eq (s : State) (x : Nat) (was : Bool) (w : Nat) :
    s.pllCtl x was w = (((s.pllGo x w).pllAsk x w).pllOff x was).pllUnfollow x := by
  rw [State.pllAsk_eq, State.pllGo_eq]
  rfl

/-- Settles O29: the four rows of `PLL_CTL` are one write with one hook; `PLL_TRIM` and `CKO_CFG` have theirs. -/
theorem synthesiserControl : Obligations.SynthesiserControl := by
  intro m x k w s ctl
  have hctl : ∀ {c : Instr}, exec c s = .next (s.busDo m (PLL_CTL_GO x).addr 4 w.toNat) →
      Writes c m (0x40030000 + 0x100 * x.val) w s ctl := by
    intro c he
    exact Writes.of_pll_hook (by omega) (by omega) (pllCtl_addr x ▸ he) fun t =>
      (regHook_pllCtl x _ [] s t).trans (State.pllCtl_eq ..)
  refine ⟨hctl rfl, hctl rfl, hctl rfl, hctl rfl, ?trim, ?output⟩
  case trim =>
    exact Writes.of_pll_hook (by omega) (by omega) (by rw [← pllTrim_addr]; rfl) fun t => regHook_pllTrim x _ [] s t
  case output =>
    exact Writes.of_pll_hook (by omega) (by omega) (by rw [← ckoCfg_addr]; rfl) fun t => regHook_ckoCfg k _ [] s t

/-! ### Lock and alignment (R244–R246) -/

/-- What depends on the synthesisers follows from the state before an event and from the event's outcome alone. -/
theorem State.pllEvent_congr {s : State} {f g : State → State} (h : f s = g s) : s.pllEvent f = s.pllEvent g := by
  simp only [State.pllEvent, h]

/-- An event of the synthesisers whose operation comes to that of `g`. -/
theorem next_pllEvent_congr {s : State} {f g : State → State} (h : f s = g s) :
    (Host.Outcome.next (s.pllEvent f) : Host.Outcome State Fault Refusal) = .next (s.pllEvent g) :=
  congrArg Host.Outcome.next (State.pllEvent_congr h)

/-- A synthesiser aligned, its logic back on it, and the outputs of its bank shown. -/
def State.pllUp (s : State) (x : Nat) : State :=
  (((s.setPll x { s.pll x with lock := (s.pll x).commit, lossAt := none }).set (PLL_STAT_ALIGNED x) 1).set
    (PLL_STAT_IRCSEL x) 0).bankShow x

/-- The state below the minimum service set that a loss of `PLL_A` at the instant `a` began ends (R246). -/
def State.pllLossEnd (s : State) (a : Nat) : State :=
  ((s.refOk.note 0x0203 0x07 3 (satN 32 ((s.refOk.tim.up - a) / 1000))).each 16 fun c t => t.cluResume c).attnUpdate.lateOpen

section Lock
variable {s : State} {x : Nat}

theorem State.pllCalDone_cal (h : s.get (PLL_STAT_STATE x) = 1) : s.pllCalDone x = s.set (PLL_STAT_STATE x) 2 := if_pos h

theorem State.pllLock_acq (h : s.get (PLL_STAT_STATE x) = 2) :
    s.pllLock x = (s.set (PLL_STAT_STATE x) 3).set (PLL_STAT_LOCK x) 1 := if_pos h

section Aligns
variable (hst : s.get (PLL_STAT_STATE x) = 3) (hal : s.on (PLL_STAT_ALIGNED x) = false)
include hst hal

theorem State.pllAligned_plain (h : (s.pll x).lossAt = none) : s.pllAligned x = s.pllUp x := by
  refine (if_neg (by simp [hst, hal])).trans ?_
  simp only [h]
  rfl

theorem State.pllAligned_after_loss {a : Nat} (h : (s.pll x).lossAt = some a) :
    s.pllAligned x = (s.pllUp x).pllLossEnd a := by
  refine (if_neg (by simp [hst, hal])).trans ?_
  simp only [h, State.pllLossEnd, State.pllUp]

end Aligns
end Lock

/-- Settles O30: each event in the state of the synthesiser where it acts, the alignment by whether it ends a loss. -/
theorem synthesiserLock : Obligations.SynthesiserLock := by
  intro x s
  refine ⟨rfl, fun hst => ?calibrated, fun hst => ?locked, fun hst hal => ⟨fun hno => ?plain, fun a ha => ?afterLoss⟩⟩
  case calibrated => exact next_pllEvent_congr (State.pllCalDone_cal hst)
  case locked => exact next_pllEvent_congr (State.pllLock_acq hst)
  case plain => exact next_pllEvent_congr (State.pllAligned_plain hst hal hno)
  case afterLoss =>
    refine next_pllEvent_congr ((State.pllAligned_after_loss hst hal ha).trans ?_)
    simp only [State.pllLossEnd, State.pllUp, State.cluResume]

/-! ### Losses, returns and retries (R30, R240, R246) -/

section Losses
variable {s : State}

theorem State.pllLol_locked {x : Nat} {runt : List Nat} (h : s.get (PLL_STAT_STATE x) = 3) : s.pllLol x runt =
    let t := ((s.set (PLL_STAT_LOL x) 1).incSat (PLL_LOLCNT_COUNT x)).pllDown x runt
    t.pllStart x (t.pll x).commit true [] := if_neg (not_not_intro h)

/-- A synthesiser stopped towards a new target that a band takes, what its lock will use latched (R242, R244). -/
def State.pllLatched (s : State) (x : Nat) (t : PllTarget) (runt : List Nat) (edges : Nat × Nat) : State :=
  let v := s.pllDown x runt
  v.setPll x { v.pll x with
    commit := t, edges := edges, table := (List.range 64).map (v.bandEdges x), phofs := v.getI (PLL_PHOFS_PS x), noRef := false }

theorem State.pllStartAt_refLost {x : Nat} {t : PllTarget} {lost : Bool} {runt : List Nat} {b : Nat × Nat × Nat}
    (h : (s.pllDown x runt).tim.refLost = true) :
    s.pllStartAt x t lost runt (some b) = (s.pllLatched x t runt b.2).pllWait x := if_pos h

section Retry
variable {count : Nat} (h : s.cus.phase = .rfi)
include h

theorem State.rfiRetry_class {k : Nat} (hk : rfiClass count = some k) : s.rfiRetry count =
    let t := ((s.set PLL_RFI_FREQ k).set PLL_RFI_VALID 1).each 3 fun y t => t.pllShow y (classTarget k y)
    { t with cus := { t.cus with phase := .pllA } } := by
  refine (if_pos h).trans ?_
  simp only [State.rfiClassify, hk]

theorem State.rfiRetry_none (hk : rfiClass count = none) : s.rfiRetry count = s.refFail .rfi := by
  refine (if_pos h).trans ?_
  simp only [State.rfiClassify, hk]

end Retry

/-- An attempt to lock `PLL_A` while a start waits for it. -/
theorem State.pllARetry_start (h : s.cus.phase = .pllA) (ok : Bool) :
    s.pllARetry ok = if ok then s.refOk.pllStartAll.startContinue else s.refFail .pllA := if_pos h

/-- A failed attempt to lock `PLL_A` again after a loss in service: the part goes on as it was. -/
theorem State.pllARetry_service_fails (h : s.cus.phase = .run) (hb : s.itg.below = true)
    (hl : (s.pll 0).lossAt ≠ none) : s.pllARetry false = s.refFail .run := by
  have hstart : s.cus.phase ≠ .pllA := by simp [h]
  have hloss : ¬(!s.itg.below || (s.pll 0).lossAt.isNone || s.cus.phase == .dead) = true := by simp [h, hb, hl]
  exact (if_neg hstart).trans ((if_neg hloss).trans (congrArg s.refFail h))

end Losses

/-! ### Compliance of a clock output (R252, R254) -/

section Compliance
variable {s : State} {k mv10 : Nat}

/-- The measured supply recorded and `COMPL` put to `v`, the output shown again. -/
def State.complPut (s : State) (k mv10 v : Nat) : State := ((s.bankMv k mv10).set (CKO_STAT_COMPL k) v).ckoShow k

/-- A compliance episode of an output under the setting `c` begins (R252). -/
def State.complBegin (s : State) (k mv10 : Nat) (c : CkoSet) : State :=
  (((s.setCko k { s.cko k with episode := true }).set (CKO_STAT_COMPLEP k) 1).incSat (CKO_CNT_EPIS k)).note 0x0205 0x07 2
    (k * 2 ^ 72 + c.fmt * 2 ^ 69 + c.lvl * 2 ^ 67 + satN 10 mv10)

section Sets
variable (hen : (s.cko k).set.en = true) (hc : s.on (CKO_STAT_COMPL k) = false)
include hen hc

theorem State.complSet_enough (hm : fmtSupply (s.cko k).set.fmt (s.cko k).set.lvl ≤ 10 * mv10) :
    s.complSet k mv10 = s.bankMv k mv10 :=
  (if_neg (by simp [hen, hc])).trans (if_pos (by simp [CkoSet.short, hm]))

/-- Below the least supply `COMPL` sets, and unless an episode runs one begins. -/
theorem State.complSet_short (hm : 10 * mv10 < fmtSupply (s.cko k).set.fmt (s.cko k).set.lvl) :
    s.complSet k mv10 = if (s.cko k).episode = true then s.complPut k mv10 1
      else (s.complPut k mv10 1).complBegin k mv10 (s.cko k).set :=
  (if_neg (by simp [hen, hc])).trans (if_neg (by simp [CkoSet.short, hm]))

end Sets

theorem State.complClear_set (hc : s.on (CKO_STAT_COMPL k) = true) : s.complClear k mv10 =
    if fmtSupply (s.cko k).set.fmt (s.cko k).set.lvl + 10 < 10 * mv10 then s.complPut k mv10 0 else s.bankMv k mv10 := by
  refine (if_neg (by simp [hc])).trans ?_
  by_cases hm : fmtSupply (s.cko k).set.fmt (s.cko k).set.lvl + 10 < 10 * mv10
  · exact (if_neg (by simp [CkoSet.ample, hm])).trans (if_pos hm).symm
  · exact (if_pos (by simpa [CkoSet.ample] using hm)).trans (if_neg hm).symm

theorem State.complEnd_clear (hc : s.on (CKO_STAT_COMPL k) = false) :
    s.complEnd k = s.setCko k { s.cko k with episode := false } := if_neg (ne_true_of_eq_false hc)

end Compliance

/-- Settles O31: losses and returns by the synthesisers that they find, retries by what waits for them, and compliance by the
measured supply. -/
theorem synthesiserLosses : Obligations.SynthesiserLosses := by
  refine ⟨fun x s => ⟨fun runt hst => ?lol, fun runt => ?lor, ?returns, fun y p lost runt b hlost => ?waits,
      fun count hp => ⟨fun k hk => ?classified, fun hk => ?unclassified⟩,
      fun hp => ⟨?locks, ?fails⟩, fun hp hb hl => ?service⟩,
    fun k mv10 s => ⟨fun hen hc => ⟨fun hm => ?enough, fun hm he => ?runs, fun hm he => ?begins⟩,
      fun hc => ?clears, fun hc => ?ends⟩⟩
  case lol => exact next_pllEvent_congr (State.pllLol_locked hst)
  case lor => rfl
  case returns => rfl
  case waits => exact State.pllStartAt_refLost hlost
  case classified => exact congrArg Host.Outcome.next (State.rfiRetry_class hp hk)
  case unclassified => exact congrArg Host.Outcome.next (State.rfiRetry_none hp hk)
  case locks => exact next_pllEvent_congr ((State.pllARetry_start hp true).trans (if_pos rfl))
  case fails => exact next_pllEvent_congr ((State.pllARetry_start hp false).trans (if_neg Bool.false_ne_true))
  case service => exact next_pllEvent_congr (State.pllARetry_service_fails hp hb hl)
  case enough => exact congrArg Host.Outcome.next (State.complSet_enough hen hc hm)
  case runs => exact congrArg Host.Outcome.next ((State.complSet_short hen hc hm).trans (if_pos he))
  case begins =>
    exact congrArg Host.Outcome.next ((State.complSet_short hen hc hm).trans (if_neg (ne_true_of_eq_false he)))
  case clears => exact congrArg Host.Outcome.next (State.complClear_set hc)
  case ends => exact congrArg Host.Outcome.next (State.complEnd_clear hc)

end Sys2Proof.Machine

/-! SUPPORT. Ethernet ports (ch. 11): what the PTP messages sent and received, the received frames, the links, the credits, the
switch of the source and the status datagrams come to, case by case, and the statements about them (O32, O33, O34). -/

namespace Sys2Proof.Machine

/-- Operations that come to the same state give one outcome. -/
theorem outcome_next_congr {t u : State} (h : t = u) :
    (Host.Outcome.next t : Host.Outcome State Fault Refusal) = .next u := congrArg Host.Outcome.next h

/-! ### The right to send (R260, R264) -/

section MaySend
variable {s : State} {p : Nat}

/-- A port's state shown in a slot leaves every register but `EPT_PSTATE` and `EPT_IRQ` of the port. -/
theorem State.setPstate_get_ne (s : State) (p k v : Nat) {f : Field} (hlo : f.lo < 32)
    (hst : f.addr ≠ (EPT_PSTATE_STATEA p).addr) (hirq : f.addr ≠ (EPT_IRQ_IRQ p).addr) :
    (s.setPstate p k v).get f = s.get f := by
  have hkey : (pstateF p k).key ≠ f.key := by
    unfold pstateF
    split
    · exact Field.key_ne (by decide : 4 < 32) hlo hst.symm
    · exact Field.key_ne (by decide : 0 < 32) hlo hst.symm
  unfold State.setPstate
  split
  · rfl
  · exact (State.set_get_ne _ _ (Field.key_ne (by decide : 0 < 32) hlo hirq.symm)).trans (State.set_get_ne _ _ hkey)

@[simp] theorem State.setPstate_itg (s : State) (p k v : Nat) : (s.setPstate p k v).itg = s.itg := by
  unfold State.setPstate; split <;> rfl

@[simp] theorem State.setPstate_clkId (s : State) (p k v : Nat) : (s.setPstate p k v).clkId = s.clkId := by
  have hid : ∀ {f : Field}, f.lo < 32 → f.addr = 0x40100804 ∨ f.addr = 0x40100808 →
      (s.setPstate p k v).get f = s.get f := fun hlo ha =>
    State.setPstate_get_ne s p k v hlo (by simp only [EPT_PSTATE_STATEA]; omega) (by simp only [EPT_IRQ_IRQ]; omega)
  unfold State.clkId
  rw [hid (f := EPT_CLKID_H_ID) (by decide) (.inl rfl), hid (f := EPT_CLKID_L_ID) (by decide) (.inr rfl)]

/-- A PTP state leaves the registers of the port before it: its configuration and its link. -/
theorem State.setPstate_get_config (s : State) {p o hi lo rst : Nat} (k v : Nat) (ho : o < 0x34) (hlo : lo < 32) :
    (s.setPstate p k v).get ⟨0x40100000 + p * 0x1000 + o, hi, lo, rst⟩ = s.get ⟨0x40100000 + p * 0x1000 + o, hi, lo, rst⟩ :=
  State.setPstate_get_ne s p k v hlo (by simp only [EPT_PSTATE_STATEA]; omega) (by simp only [EPT_IRQ_IRQ]; omega)

/-- The right to send does not depend on the PTP states. -/
@[simp] theorem State.ptpMay_setPstate (s : State) (p k v : Nat) : (s.setPstate p k v).ptpMay p = s.ptpMay p := by
  simp (disch := decide) only [State.ptpMay, State.portUp, State.on, State.serves, State.setPstate_itg, State.setPstate_clkId,
    EPT_CFG_EN, EPT_STAT_LINK, EPT_STAT_TXSTOP, EPT_CFG_PTPEN, EPT_CFG_TRANS, State.setPstate_get_config]

theorem State.ptpMay_trans (h : s.get (EPT_CFG_TRANS p) = 0) : s.ptpMay p = false := by simp [State.ptpMay, h]

theorem State.ptpMay_off (h : s.get (EPT_CFG_TRANS p) = 0 ∨ s.on (EPT_CFG_PTPEN p) = false ∨ s.clkId = 0) :
    s.ptpMay p = false := by
  rcases h with h | h | h
  · exact State.ptpMay_trans h
  · simp [State.ptpMay, h]
  · simp [State.ptpMay, h]

end MaySend

/-! ### Messages sent (R259, R264, R265) -/

/-- Sync number `q` sent at the stamp `sub`, with its time or with a Follow_Up that has it (R259). -/
def State.syncSent (s : State) (p k sub q : Nat) : State :=
  let li := s.getI (EPT_DOM_INT_LSYNC k)
  let t := to16 (s.egress p sub)
  if s.on (EPT_DOM_CFG_TWOSTEP k) then
    (s.emit (.ptp p { s.ptpMsg p k 0 q with twoStep := true, logInt := li })).emit
      (.ptp p { s.ptpMsg p k 8 q with ts := t, logInt := li })
  else s.emit (.ptp p { s.ptpMsg p k 0 q with ts := t, logInt := li })

/-- PRE_MASTER ends at an announce interval once its intervals have passed (R260). -/
def State.preMasterEnd (s : State) (p k : Nat) : State :=
  if s.portIn p k && s.pstate p k == 5 && s.reached (s.pslot p k).qualAt 0 then s.setPstate p k 6 else s

/-- The dataset that a master announces in a slot: its parent's one step further, or the part's own (R264). -/
def State.announced (s : State) (k : Nat) : PtpMsg :=
  match (s.slot k).parent with
  | some m => { m with steps := m.steps + 1 }
  | none => s.ownDs

/-- Announce number `q` sent with that dataset (R264). -/
def State.announceSent (s : State) (p k q : Nat) : State :=
  let b := s.ptpMsg p k 0xB q
  (s.slotShow k).emit (.ptp p { s.announced k with
    trans := b.trans, mtype := b.mtype, domain := b.domain, seq := b.seq, srcId := b.srcId, srcPort := b.srcPort,
    corr := 0, ts := 0, reqId := 0, reqPort := 0, twoStep := false, logInt := s.getI (EPT_DOM_INT_LANN k) })

/-- What a port announces in a slot, as a master with the right to send. -/
def State.announceNow (s : State) (p k : Nat) : State :=
  if !s.ptpMay p || !s.portIn p k || s.pstate p k != 6 then s
  else (s.seqNext p k 0xB).1.announceSent p k (s.seqNext p k 0xB).2

/-- Delay_Req or Pdelay_Req number `q` sent at the stamp `sub` (R265). -/
def State.requestSent (s : State) (p k sub ty q : Nat) : State :=
  s.emit (.ptp p { s.ptpMsg p k ty q with
    ts := to16 (s.egress p sub), corr := -(s.asym p / 2 ^ 48), logInt := s.getI (EPT_DOM_INT_LDREQ k) })

section Send
variable {s : State} {p k sub : Nat}

theorem State.syncTx_master (hmay : s.ptpMay p = true) (hin : s.portIn p k = true) (hst : s.pstate p k = 6) :
    s.syncTx p k sub = (s.seqNext p k 0).1.syncSent p k sub (s.seqNext p k 0).2 :=
  if_neg (by simp [hmay, hin, hst])

theorem State.syncTx_silent (h : s.ptpMay p = false ∨ s.pstate p k ≠ 6) : s.syncTx p k sub = s :=
  if_pos (by rcases h with h | h <;> simp [h])

theorem State.announceTx_eq (s : State) (p k : Nat) : s.announceTx p k = (s.ptpRole.preMasterEnd p k).announceNow p k := by
  unfold State.announceTx State.announceNow
  rfl

@[simp] theorem State.ptpMay_preMasterEnd (s : State) (p k : Nat) : (s.preMasterEnd p k).ptpMay p = s.ptpMay p := by
  unfold State.preMasterEnd
  split
  · exact State.ptpMay_setPstate ..
  · rfl

theorem State.announceTx_silent (h : s.ptpRole.ptpMay p = false) : s.announceTx p k = s.ptpRole.preMasterEnd p k :=
  (State.announceTx_eq s p k).trans (if_pos (by simp [h]))

theorem State.preMasterEnd_master (hst : s.pstate p k = 6) : s.preMasterEnd p k = s := if_neg (by simp [hst])

theorem State.announceTx_master (hmay : s.ptpRole.ptpMay p = true) (hin : s.ptpRole.portIn p k = true)
    (hst : s.ptpRole.pstate p k = 6) :
    s.announceTx p k = (s.ptpRole.seqNext p k 0xB).1.announceSent p k (s.ptpRole.seqNext p k 0xB).2 := by
  rw [State.announceTx_eq, State.preMasterEnd_master hst]
  exact if_neg (by simp [hmay, hin, hst])

theorem State.delayReqTx_silent (h : s.ptpMay p = false) : s.delayReqTx p k sub = s := if_pos (by simp [h])

/-- A port that measures its link delay, with no request outstanding, asks for it and waits for the answer. -/
theorem State.delayReqTx_peer (hmay : s.ptpMay p = true) (hpeer : s.peerOn p k = true) (hnone : (s.pslot p k).preq = none) :
    s.delayReqTx p k sub =
      let n := s.seqNext p k 2
      (n.1.setPslot p k { n.1.pslot p k with preq := some (n.2, s.egress p sub, n.1.tim.up), presp := none }).requestSent
        p k sub 2 n.2 := by
  have hp2p : s.on (EPT_CFG_P2P p) = true := by
    simp only [State.peerOn, Bool.and_eq_true] at hpeer
    obtain ⟨⟨-, hp2p⟩, -⟩ := hpeer
    exact hp2p
  exact (if_neg (by simp [hmay, hpeer])).trans ((if_pos hp2p).trans (if_neg (by simp [hnone])))

/-- A client with no request outstanding asks its master. -/
theorem State.delayReqTx_client (hmay : s.ptpMay p = true) (hin : s.portIn p k = true) (hp2p : s.on (EPT_CFG_P2P p) = false)
    (hst : s.follows p k = true) (hnone : (s.pslot p k).dreq = none) : s.delayReqTx p k sub =
      let n := s.seqNext p k 1
      (n.1.setPslot p k { n.1.pslot p k with dreq := some (n.2, s.egress p sub, n.1.tim.up) }).requestSent p k sub 1 n.2 :=
  (if_neg (by simp [hmay, hin])).trans ((if_neg (by simp [hp2p])).trans (if_neg (by simp [hst, hnone])))

end Send

/-! ### Messages received (R260, R265, R266, R268) -/

/-- A Sync of the parent taken: one that is two-step waits for its Follow_Up, one that is not gives a sample (R268). -/
def State.syncTaken (s : State) (p k sub : Nat) (m : PtpMsg) : State :=
  let t := s.ingress p sub - m.corr * 2 ^ 48 - s.asym p
  if m.twoStep then s.setPslot p k { s.pslot p k with sync := some (m.seq.toNat, t, s.tim.up) }
  else (s.setPslot p k { s.pslot p k with sync := none }).ptpSample p k (t - m.ts * 2 ^ 48)

/-- A Pdelay_Req answered, in two steps or in one (R266). -/
def State.peerAnswered (s : State) (p k sub txSub : Nat) (m : PtpMsg) : State :=
  let r := { s.ptpMsg p k 3 m.seq.toNat with reqId := m.srcId, reqPort := m.srcPort }
  if s.on (EPT_DOM_CFG_TWOSTEP k) then
    (s.emit (.ptp p { r with twoStep := true, ts := to16 (s.ingress p sub) })).emit
      (.ptp p { s.ptpMsg p k 0xA m.seq.toNat with
        ts := to16 (s.egress p txSub), corr := m.corr, reqId := m.srcId, reqPort := m.srcPort })
  else s.emit (.ptp p { r with corr := m.corr + (s.egress p txSub - s.ingress p sub) / 2 ^ 48 })

/-- A response to the outstanding Pdelay_Req, sent at `t1` (R265). -/
def State.peerResponse (s : State) (p k sub : Nat) (t1 : Int) (m : PtpMsg) : State :=
  let x := s.pslot p k
  let t4 := s.ingress p sub
  let c := m.corr * 2 ^ 48 + s.asym p
  if m.twoStep then s.setPslot p k { x with presp := some (t4, m.ts * 2 ^ 48, c) }
  else (s.setPslot p k { x with preq := none }).setI (EPT_MPD_PS p) (satI 32 (uToPs ((t4 - t1 - c) / 2)))

section Receive
variable {s : State} {p k sub a : Nat} {m : PtpMsg} (hslot : s.slotOf m.domain.toNat = some k)
include hslot

theorem State.syncRx_parent (hpar : s.fromParent p k m = true) :
    s.syncRx p sub m = (s.setPstate p k 9).syncTaken p k sub m := by
  simp only [State.syncRx, hslot]
  exact if_neg (by simp [hpar])

theorem State.followUpRx_matched {t : Int} (hpar : s.fromParent p k m = true)
    (hsync : (s.pslot p k).sync = some (m.seq.toNat, t, a)) (hfresh : s.tim.up ≤ a + 1000000000) :
    s.followUpRx p m =
      (s.setPslot p k { s.pslot p k with sync := none }).ptpSample p k (t - m.ts * 2 ^ 48 - m.corr * 2 ^ 48) := by
  simp only [State.followUpRx, hslot, hsync]
  exact if_neg (by simp [hpar, hfresh])

theorem State.delayRespRx_matched {t3 ms : Int} (hpar : s.fromParent p k m = true)
    (hreq : (s.pslot p k).dreq = some (m.seq.toNat, t3, a)) (hms : (s.pslot p k).lastMs = some ms)
    (hport : s.forPort p m = true) (hfresh : s.tim.up ≤ a + 1000000000) :
    s.delayRespRx p m = (s.setPslot p k { s.pslot p k with dreq := none }).setI (EPT_MPD_PS p)
      (satI 32 (uToPs ((ms + ((m.ts : Int) * 2 ^ 48 - t3 - m.corr * 2 ^ 48)) / 2))) := by
  simp only [State.delayRespRx, hslot, hreq, hms]
  exact if_neg (by simp [hpar, hport, hfresh])

theorem State.delayReqRx_silent (h : s.ptpMay p = false) : s.delayReqRx p sub m = s := by
  simp only [State.delayReqRx, hslot]
  exact if_pos (by simp [h])

theorem State.delayReqRx_master (hmay : s.ptpMay p = true) (hin : s.portIn p k = true) (hst : s.pstate p k = 6)
    (hp2p : s.on (EPT_CFG_P2P p) = false) : s.delayReqRx p sub m =
      s.emit (.ptp p { s.ptpMsg p k 9 m.seq.toNat with
        ts := to16 (s.ingress p sub), corr := m.corr, reqId := m.srcId, reqPort := m.srcPort,
        logInt := s.getI (EPT_DOM_INT_LDREQ k) }) := by
  simp only [State.delayReqRx, hslot]
  exact if_neg (by simp [hmay, hin, hst, hp2p])

theorem State.pdelayReqRx_silent {txSub : Nat} (h : s.ptpMay p = false) : s.pdelayReqRx p sub txSub m = s := by
  simp only [State.pdelayReqRx, hslot]
  exact if_pos (by simp [h])

theorem State.pdelayReqRx_peer {txSub : Nat} (hmay : s.ptpMay p = true) (hpeer : s.peerOn p k = true) :
    s.pdelayReqRx p sub txSub m = s.peerAnswered p k sub txSub m := by
  simp only [State.pdelayReqRx, hslot]
  exact if_neg (by simp [hmay, hpeer])

section Matched
variable {t1 : Int} (hreq : (s.pslot p k).preq = some (m.seq.toNat, t1, a)) (hport : s.forPort p m = true)
  (hfresh : s.tim.up ≤ a + 1000000000)
include hreq hport hfresh

theorem State.pdelayRespRx_response (hty : m.mtype = 3) : s.pdelayRespRx p sub m = s.peerResponse p k sub t1 m := by
  simp only [State.pdelayRespRx, State.peerResponse, hslot, hreq]
  exact (if_neg (by simp [hport, hfresh])).trans (if_pos hty)

theorem State.pdelayRespRx_followUp {t4 t2 c : Int} (hresp : (s.pslot p k).presp = some (t4, t2, c)) (hty : m.mtype = 10) :
    s.pdelayRespRx p sub m = (s.setPslot p k { s.pslot p k with preq := none, presp := none }).setI (EPT_MPD_PS p)
      (satI 32 (uToPs (((t4 - t1) - ((m.ts : Int) * 2 ^ 48 - t2) - c - m.corr * 2 ^ 48) / 2))) := by
  simp only [State.pdelayRespRx, hslot, hreq, hresp]
  exact (if_neg (by simp [hport, hfresh])).trans (if_neg (by simp [hty]))

end Matched
end Receive

/-- Settles O32: what a port sends by its right to send and its state, what it receives by the slot of the message's domain and by
the Sync or the request that the message names. -/
theorem ptpMessages : Obligations.PtpMessages := by
  intro p k sub txSub m s
  refine ⟨fun ⟨hmay, hin⟩ hst => ⟨?sync, rfl, rfl⟩, fun h => ?noSync,
    fun h => ⟨State.ptpMay_off h, State.ptpMay_trans⟩, fun h => ?noAnnounce,
    fun h => ⟨?noRequest, fun hslot => ⟨?noAnswer, ?noPeerAnswer⟩⟩, fun hmay hin hst => ?announce,
    fun hmay hpeer hnone => ?peerRequest, fun ⟨hmay, hin⟩ hp2p hst hnone => ?request,
    fun hslot => ⟨fun hpar => ⟨fun htwo => ?twoStep, fun hone => ?oneStep, fun t a hsync hfresh => ?followUp,
        fun t3 a ms hreq hms hport hfresh => ?delayResp⟩,
      fun ⟨hmay, hin⟩ hst hp2p => ?answer, fun hmay hpeer => ?peerAnswer,
      fun t1 a hreq hport hfresh => ⟨fun hty hone => ?peerOneStep, fun hty htwo => ?peerTwoStep,
        fun t4 t2 c3 hresp hty => ?peerFollowUp⟩⟩⟩
  case sync => exact outcome_next_congr (State.syncTx_master hmay hin hst)
  case noSync => exact outcome_next_congr (State.syncTx_silent h)
  case noAnnounce => exact outcome_next_congr (State.announceTx_silent h)
  case noRequest => exact outcome_next_congr (State.delayReqTx_silent h)
  case noAnswer => exact outcome_next_congr (State.delayReqRx_silent hslot h)
  case noPeerAnswer => exact outcome_next_congr (State.pdelayReqRx_silent hslot h)
  case announce => exact outcome_next_congr (State.announceTx_master hmay hin hst)
  case peerRequest => exact outcome_next_congr (State.delayReqTx_peer hmay hpeer hnone)
  case request => exact outcome_next_congr (State.delayReqTx_client hmay hin hp2p (by simpa [State.follows] using hst) hnone)
  case twoStep => exact outcome_next_congr ((State.syncRx_parent hslot hpar).trans (if_pos htwo))
  case oneStep => exact outcome_next_congr ((State.syncRx_parent hslot hpar).trans (if_neg (by simp [hone])))
  case followUp => exact outcome_next_congr (State.followUpRx_matched hslot hpar hsync hfresh)
  case delayResp => exact outcome_next_congr (State.delayRespRx_matched hslot hpar hreq hms hport hfresh)
  case answer => exact outcome_next_congr (State.delayReqRx_master hslot hmay hin hst hp2p)
  case peerAnswer => exact outcome_next_congr (State.pdelayReqRx_peer hslot hmay hpeer)
  case peerOneStep =>
    exact outcome_next_congr ((State.pdelayRespRx_response hslot hreq hport hfresh hty).trans (if_neg (by simp [hone])))
  case peerTwoStep => exact outcome_next_congr ((State.pdelayRespRx_response hslot hreq hport hfresh hty).trans (if_pos htwo))
  case peerFollowUp => exact outcome_next_congr (State.pdelayRespRx_followUp hslot hreq hport hfresh hresp hty)

/-! ### Received frames (R261, R266, R272) -/

/-- A frame is tagged with an identifier other than 0. -/
def frameTagged (f : FrameIn) : Bool :=
  match f.vid with
  | some v => v != 0
  | none => false

/-- A frame of an accepted form, by the body that it carries (R272). -/
def State.frameByBody (s : State) (p : Nat) (f : FrameIn) (body : FrameBody) : State :=
  match body with
  | .ptp m => s.framePtp p f.sub f.txSub f.trans f.toMe m
  | .arp t => if t.toNat = s.get (EPT_IP4_ADDR p) ∧ t ≠ 0 then s.arpRx p t else s.frameElse p f.toMe
  | .ns t => if t = s.portIp6 p ∧ t ≠ 0 then s.nsRx p t else s.frameElse p f.toMe
  | .udp v6 dport src sport payload =>
    if !f.toMe then s.frameDrop p
    else if dport.toNat = s.get (EPT_STS_CFG_UPORT p) then s.statusGet p v6 src sport.toNat payload
    else s.frameRefuse p
  | .toPort => s.frameRefuse p
  | .other => s.frameElse p f.toMe

/-- A PTP message as the engine has it: with the transport that it came by. -/
def ptpVia (m : PtpMsg) (trans : Nat) : PtpMsg := { m with trans := BitVec.ofNat 3 (2 ^ trans) }

/-- A message of peer delay (R266). -/
def ptpPeer (m : PtpMsg) : Prop := m.mtype = 2 ∨ m.mtype = 3 ∨ m.mtype = 10

/-- What the engine does with a message of type `ty` that it terminates. -/
def State.ptpTake (s : State) (ty p sub txSub : Nat) (m : PtpMsg) : State :=
  match ty with
  | 0 => s.syncRx p sub m
  | 1 => s.delayReqRx p sub m
  | 2 => s.pdelayReqRx p sub txSub m
  | 3 => s.pdelayRespRx p sub m
  | 8 => s.followUpRx p m
  | 9 => s.delayRespRx p m
  | 10 => s.pdelayRespRx p sub m
  | 11 => s.announceRx p m
  | _ => s.frameDrop p

section Frames
variable {s : State} {p : Nat} {f : FrameIn}

theorem State.frameRx_down (h : s.on (EPT_CFG_EN p) = false ∨ s.on (EPT_STAT_LINK p) = false) : s.frameRx p f = s :=
  if_pos (by rcases h with h | h <;> simp [h])

section Up
variable (hup : s.on (EPT_CFG_EN p) = true ∧ s.on (EPT_STAT_LINK p) = true)
include hup

theorem State.frameRx_badFcs (hf : f.fcsOk = false) : s.frameRx p f = (s.set (EPT_STAT_FCSERR p) 1).frameDrop p :=
  (if_neg (by simp [hup])).trans (if_pos (by simp [hf]))

theorem State.frameRx_form (hf : f.fcsOk = true) :
    s.frameRx p f = if f.octets < 64 || frameTagged f then s.frameDrop p else s.frameByBody p f f.body :=
  (if_neg (by simp [hup])).trans (if_neg (by simp [hf]))

theorem State.frameRx_short (hf : f.fcsOk = true) (h : f.octets < 64) : s.frameRx p f = s.frameDrop p :=
  (State.frameRx_form hup hf).trans (if_pos (by simp [h]))

theorem State.frameRx_tagged {v : Nat} (hf : f.fcsOk = true) (hv : f.vid = some v) (h : v ≠ 0) :
    s.frameRx p f = s.frameDrop p :=
  (State.frameRx_form hup hf).trans (if_pos (by simp [frameTagged, hv, h]))

theorem State.frameRx_good {body : FrameBody} (hf : f.fcsOk = true) (h : 64 ≤ f.octets) (hv : f.vid = none ∨ f.vid = some 0)
    (hb : f.body = body) : s.frameRx p f = s.frameByBody p f body :=
  hb ▸ (State.frameRx_form hup hf).trans (if_neg (by rcases hv with hv | hv <;> simp [frameTagged, hv, h]))

end Up

end Frames

section PtpFrames
variable {s : State} {p sub txSub trans : Nat} {toMe : Bool} {m : PtpMsg}

theorem State.ptpTerminate_type {ty : BitVec 4} (h : m.mtype = ty) :
    s.ptpTerminate p sub txSub m = s.ptpTake ty.toNat p sub txSub m := h ▸ rfl

/-- A type that the engine does not terminate is dropped. -/
theorem State.ptpTerminate_other (h : m.mtype ∉ ([0, 1, 2, 3, 8, 9, 10, 11] : List (BitVec 4))) :
    s.ptpTerminate p sub txSub m = s.frameDrop p := by
  have hne : ∀ ty ∈ ([0, 1, 2, 3, 8, 9, 10, 11] : List (BitVec 4)), m.mtype.toNat ≠ ty.toNat := fun ty hty heq =>
    h (BitVec.eq_of_toNat_eq heq ▸ hty)
  unfold State.ptpTerminate
  split
  case h_9 => rfl
  case h_1 heq => exact absurd heq (hne 0 (by decide))
  case h_2 heq => exact absurd heq (hne 1 (by decide))
  case h_3 heq => exact absurd heq (hne 2 (by decide))
  case h_4 heq => exact absurd heq (hne 3 (by decide))
  case h_5 heq => exact absurd heq (hne 8 (by decide))
  case h_6 heq => exact absurd heq (hne 9 (by decide))
  case h_7 heq => exact absurd heq (hne 10 (by decide))
  case h_8 heq => exact absurd heq (hne 11 (by decide))

theorem State.framePtp_management (h : m.mtype = 13) : s.framePtp p sub txSub trans toMe m = s.frameRefuse p :=
  if_pos (by simp [h])

section Message
variable (hty : m.mtype ≠ 13)
include hty

theorem mtype_toNat_ne_management : m.mtype.toNat ≠ 13 := fun h => hty (BitVec.eq_of_toNat_eq h)

theorem State.framePtp_disabled (h : s.on (EPT_CFG_PTPEN p) = false ∨ bit (s.get (EPT_CFG_TRANS p)) trans = false) :
    s.framePtp p sub txSub trans toMe m = s.frameDrop p :=
  (if_neg (mtype_toNat_ne_management hty)).trans (if_pos (by rcases h with h | h <;> simp [h]))

section Enabled
variable (hen : s.on (EPT_CFG_PTPEN p) = true) (htr : bit (s.get (EPT_CFG_TRANS p)) trans = true)
include hen htr

/-- A message of a domain that no slot has. -/
theorem State.framePtp_elsewhere (hslot : s.slotOf m.domain.toNat = none) : s.framePtp p sub txSub trans toMe m =
    if s.on EPT_CLK_FWDOTHER then s.forward p sub (ptpVia m trans) else s.frameDrop p := by
  refine (if_neg (mtype_toNat_ne_management hty)).trans ((if_neg (by simp [hen, htr])).trans ?_)
  simp only [hslot]
  rfl

section Slot
variable {k : Nat} (hslot : s.slotOf m.domain.toNat = some k)
include hslot

/-- A message of a slot's domain, by the slot's type. -/
theorem State.framePtp_slot : s.framePtp p sub txSub trans toMe m =
    if s.get (EPT_DOM_CFG_TYPE k) = 1 then
      if s.prole p k = 0 then s.frameDrop p else if toMe then s else s.ptpTerminate p sub txSub (ptpVia m trans)
    else if (m.mtype.toNat == 2 || m.mtype.toNat == 3 || m.mtype.toNat == 10) && s.on (EPT_CFG_P2P p) then
      (if toMe then s else s.ptpTerminate p sub txSub (ptpVia m trans))
    else s.forward p sub (ptpVia m trans) := by
  refine (if_neg (mtype_toNat_ne_management hty)).trans ((if_neg (by simp [hen, htr])).trans ?_)
  simp only [hslot]
  rfl

theorem State.framePtp_no_role (hclk : s.get (EPT_DOM_CFG_TYPE k) = 1) (hrole : s.prole p k = 0) :
    s.framePtp p sub txSub trans toMe m = s.frameDrop p :=
  (State.framePtp_slot hty hen htr hslot).trans ((if_pos hclk).trans (if_pos hrole))

/-- A message that the engine terminates, by a role in the slot or as one of the port's own peer messages; it uses none that is
sent to the port's own address (R261). -/
theorem State.framePtp_terminated (h : s.get (EPT_DOM_CFG_TYPE k) = 1 ∧ s.prole p k ≠ 0 ∨
      s.get (EPT_DOM_CFG_TYPE k) ≠ 1 ∧ ptpPeer m ∧ s.on (EPT_CFG_P2P p) = true) :
    s.framePtp p sub txSub trans toMe m = if toMe then s else s.ptpTerminate p sub txSub (ptpVia m trans) := by
  refine (State.framePtp_slot hty hen htr hslot).trans ?_
  rcases h with ⟨hclk, hrole⟩ | ⟨htc, hpeer, hp2p⟩
  · exact (if_pos hclk).trans (if_neg hrole)
  · exact (if_neg htc).trans (if_pos (by rcases hpeer with h | h | h <;> simp [h, hp2p]))

theorem State.framePtp_forwarded (htc : s.get (EPT_DOM_CFG_TYPE k) ≠ 1) (h : ¬(ptpPeer m ∧ s.on (EPT_CFG_P2P p) = true)) :
    s.framePtp p sub txSub trans toMe m = s.forward p sub (ptpVia m trans) := by
  refine (State.framePtp_slot hty hen htr hslot).trans ((if_neg htc).trans (if_neg fun hown => h ?_))
  simp only [Bool.and_eq_true, Bool.or_eq_true, beq_iff_eq, or_assoc] at hown
  exact ⟨hown.1.imp BitVec.eq_of_toNat_eq (Or.imp BitVec.eq_of_toNat_eq BitVec.eq_of_toNat_eq), hown.2⟩

end Slot
end Enabled
end Message
end PtpFrames

/-! ### Copies, credits and links (R255, R257, R266, R267) -/

/-- The state once a port's oldest copy has left, its credit and its buffer returned. -/
def State.copyOff (s : State) (q : Nat) (c : Copy) (rest : List Copy) : State :=
  (s.setPort q { s.port q with copies := rest }).copyBack q c

/-- A link that was up goes down: the port's traffic is cut and its requests are dropped (R257). -/
def State.linkCut (s : State) (p : Nat) : State :=
  let s := s.portCut p
  let s := ((s.set (EPT_STAT_LINK p) 0).set (EPT_STAT_LINKCHG p) 1).orF (EPT_IRQ_IRQ p) 1
  s.each 2 fun k s => s.setPslot p k { s.pslot p k with preq := none, presp := none }

section Links
variable {s : State} {p q sub speed : Nat}

theorem State.copyBack_get_ne (s : State) (q : Nat) (c : Copy) {f : Field} (h : (EPT_FWDSTAT_FREE q).key ≠ f.key) :
    (s.copyBack q c).get f = s.get f := by
  unfold State.copyBack
  dsimp only
  split <;> exact State.set_get_ne _ _ h

/-- The correction for an egress port does not depend on its copies and credits. -/
@[simp] theorem State.asymOut_copyOff (s : State) (q : Nat) (c : Copy) (rest : List Copy) (ty : Nat) :
    (s.copyOff q c rest).asymOut q ty = s.asymOut q ty := by
  have hkey : (EPT_FWDSTAT_FREE q).key ≠ (EPT_ASYM_PS q).key :=
    Field.key_ne (by decide : 0 < 32) (by decide : 0 < 32) (by simp [EPT_FWDSTAT_FREE, EPT_ASYM_PS])
  simp only [State.asymOut, State.asym, State.getI, State.copyOff, State.copyBack_get_ne _ q c hkey, State.setPort_get]

section Copies
variable {c : Copy} {rest : List Copy} (hc : (s.port q).copies = c :: rest)
include hc

theorem State.copySent_late (h : 10 * (msU : Int) < (s.copyOff q c rest).egress q sub - c.ingress) :
    s.copySent q sub = (s.copyOff q c rest).fwdDrop q := by
  simp only [State.copySent, hc]
  exact if_pos h

theorem State.copySent_sent (h : (s.copyOff q c rest).egress q sub - c.ingress ≤ 10 * (msU : Int)) :
    s.copySent q sub = (s.copyOff q c rest).emit (.ptp q (if c.msg.mtype.toNat < 4 then
      { c.msg with corr := c.msg.corr + roundDiv ((s.copyOff q c rest).egress q sub - c.ingress) (2 ^ 48) -
          s.asymOut q c.msg.mtype.toNat }
      else c.msg)) := by
  rw [← State.asymOut_copyOff s q c rest]
  simp only [State.copySent, hc]
  exact if_neg (Int.not_lt.mpr h)

end Copies

theorem State.linkDown_eq (s : State) (p : Nat) : s.linkDown p = if s.on (EPT_STAT_LINK p) then s.linkCut p else s := by
  cases h : s.on (EPT_STAT_LINK p)
  · exact if_pos (by simp [h])
  · exact if_neg (by simp [h])

theorem State.linkChange_off (h : s.on (EPT_CFG_EN p) = false ∨ s.on (EPT_STAT_TXSTOP p) = true ∨ s.serves = false) :
    s.linkChange p true speed = s :=
  (if_neg (by decide)).trans (if_pos (by rcases h with h | h | h <;> simp [h]))

section Rises
variable (hen : s.on (EPT_CFG_EN p) = true) (htx : s.on (EPT_STAT_TXSTOP p) = false) (hsv : s.serves = true)
include hen htx hsv

theorem State.linkChange_badSpeed (h : speedOk (s.get (EPT_CFG_MODE p)) speed = false) :
    s.linkChange p true speed = (s.linkDown p).set (EPT_STAT_SPDERR p) 1 :=
  (if_neg (by decide)).trans ((if_neg (by simp [hen, htx, hsv])).trans (if_pos (by simp [h])))

/-- A link comes up: shown, and its slots begin anew where it was down. -/
theorem State.linkChange_up (h : speedOk (s.get (EPT_CFG_MODE p)) speed = true) : s.linkChange p true speed =
    let t := ((s.set (EPT_STAT_LINK p) 1).set (EPT_STAT_SPEED p) speed).set (EPT_STAT_LINKCHG p) 1
    let t := if s.on (EPT_STAT_LINK p) then t else t.each 2 fun k t => t.portFresh p k
    (t.orF (EPT_IRQ_IRQ p) 1).ptpConfig :=
  (if_neg (by decide)).trans ((if_neg (by simp [hen, htx, hsv])).trans (if_neg (by simp [h])))

end Rises

theorem speedOk_by_mode (speed : Nat) : speedOk 0 speed = decide (speed ≤ 3) ∧ speedOk 1 speed = decide (speed = 2) ∧
    speedOk 2 speed = decide (speed = 3) ∧ speedOk 3 speed = decide (speed = 3) := ⟨rfl, rfl, rfl, rfl⟩

/-- The credits of the enabled ports together (R267). -/
def State.credSum (s : State) : Nat :=
  ((List.range 8).filter fun q => s.on (EPT_CFG_EN q)).foldl (fun a q => a + s.get (EPT_FWD_CRED q)) 0

theorem State.credWrite_eq (s : State) (p old : Nat) : s.credWrite p old =
    let new := s.get (EPT_FWD_CRED p)
    if new = 0 ∨ new < (s.port p).copies.length ∨ 256 < s.credSum then
      (s.set (EPT_FWD_CRED p) old).set (EPT_STAT_CFGERR p) 1
    else s.set (EPT_FWDSTAT_FREE p) (s.get (EPT_FWDSTAT_FREE p) + new - old) := by
  have hsum : (!s.credOk) = true ↔ 256 < s.credSum := by simp [State.credOk, State.credSum]
  simp only [State.credWrite, hsum]

theorem eptFwd_addr (p : Nat) : (EPT_FWD_CRED p).addr = 0x4010003C + 0x1000 * p := by
  simp only [EPT_FWD_CRED]; omega

/-- A write that is accepted, to `EPT_FWD`. -/
theorem Writes.of_eptFwd (a : Master) (p : Fin 8) (w : Word) (s : State) :
    Writes (.eptCredWrite a p w) a (0x4010003C + 0x1000 * p.val) w s fun t => t.credWrite p (s.get (EPT_FWD_CRED p)) := by
  refine Writes.of_hook (eptFwd_addr p ▸ rfl) (memClass_blocks (by omega)) (by omega) (by omega) ?_
    (regHook_eptCred p w.toNat [] s)
  simp only [rtcLateReg, Bool.or_eq_false_iff, beq_eq_false_iff_ne]
  omega

end Links

/-! ### Announce and the source slot (R262, R268, R271) -/

/-- An Announce heard on a port put in front of those of its sender, the last of which it keeps (R260). -/
def State.announceHeard (s : State) (p k : Nat) (m : PtpMsg) : State :=
  let x := s.pslot p k
  let mine := fun (g : Foreign) => g.msg.srcId == m.srcId && g.msg.srcPort == m.srcPort
  s.setPslot p k { x with
    foreign := { msg := m, at1 := s.tim.up, at2 := (x.foreign.find? mine).map fun g => g.at1 } ::
      x.foreign.filter fun g => !mine g }

/-- A port whose announce receipt timeout has ended forgets its masters, and the states are decided (R257, R263, R268). -/
def State.mastersForgotten (s : State) (p k : Nat) : State :=
  let s := s.setPslot p k { s.pslot p k with foreign := [] }
  (s.setPstate p k (if !s.portUp p then 1 else if s.slaveOnly k || s.prole p k == 3 then 4 else 6)).bmca k

/-- The difference of the two slots that a switch is judged by (R271). -/
def State.switchDiff (s : State) : Int := meanI (s.slotDiffs s.wantSlot (1 - s.wantSlot))

/-- A switch refused above 1 µs, once until another is wanted (R271). -/
def State.switchRefused (s : State) : State :=
  let t := { s with net := { s.net with swRef := true } }
  (t.set EPT_PSEL_DISAGREE 1).note 0x0206 0x08 2
    (2 ^ 79 + s.wantSlot * 2 ^ 78 + uns 32 s.switchDiff * 2 ^ 32 + t.get EPT_PSW_BIAS_PS)

/-- A switch made, with the bias that keeps the offset (R271). -/
def State.switchMade (s : State) : State :=
  let b := s.switchDiff - clampI (-10000) 10000 s.switchDiff
  let t := { s with net := { s.net with swRef := false } }
  let t := ((t.set EPT_PSEL_SELB s.wantSlot).incSat EPT_PSEL_SWCNT).setI EPT_PSW_BIAS_PS b
  t.note 0x0206 0x08 1 (s.wantSlot * 2 ^ 78 + uns 32 s.switchDiff * 2 ^ 32 + uns 32 b)

section Selection
variable {s : State} {p k : Nat} {m : PtpMsg}

theorem State.announceVoid_false (hid : m.srcId.toNat ≠ s.clkId) (hsteps : m.steps.toNat < 255)
    (hscale : bit m.aflags.toNat 3 = true) (halt : bit m.aflags.toNat 6 = false) : s.announceVoid m = false := by
  simp [State.announceVoid, hid, hsteps, hscale, halt]

theorem State.announceRx_used (hslot : s.slotOf m.domain.toNat = some k) (hin : s.ptpRole.portIn p k = true)
    (hvoid : s.ptpRole.announceVoid m = false) : s.announceRx p m = (s.ptpRole.announceHeard p k m).bmca k := by
  simp only [State.announceRx, hslot]
  exact if_neg (by simp [hin, hvoid])

theorem State.announceTimeout_ends (hhas : s.ptpRole.portHas p k = true) (hm : s.ptpRole.pstate p k ≠ 6)
    (hi : s.ptpRole.pstate p k ≠ 1) : s.announceTimeout p k =
      let u := s.ptpRole.mastersForgotten p k
      if s.ptpRole.follows p k && (u.slot k).parent.isNone then (u.set (EPT_DOM_STAT_ANNTO k) 1).slotEval k else u :=
  if_neg (by simp [hhas, hm, hi])

theorem State.ptpSwitch_none (h : s.wantSlot = s.selSlot) :
    s.ptpSwitch = { s with net := { s.net with swRef := false } } := if_pos h

section Ready
variable {a : Nat} (hw : s.wantSlot ≠ s.selSlot) (hlock : (s.slot s.wantSlot).lockAt = some a)
  (hheld : a + 16000000000 ≤ s.tim.up) (hstep : s.tim.step = none)
include hw hlock hheld hstep

theorem State.ptpSwitch_ready : s.ptpSwitch =
    if 1000000 < s.switchDiff.natAbs then (if s.net.swRef then s else s.switchRefused) else s.switchMade :=
  (if_neg hw).trans (if_neg (by simp [hlock, hheld, hstep]))

theorem State.ptpSwitch_refused (hd : 1000000 < s.switchDiff.natAbs) (hr : s.net.swRef = false) :
    s.ptpSwitch = s.switchRefused :=
  (State.ptpSwitch_ready hw hlock hheld hstep).trans ((if_pos hd).trans (if_neg (by simp [hr])))

theorem State.ptpSwitch_made (hd : s.switchDiff.natAbs ≤ 1000000) : s.ptpSwitch = s.switchMade :=
  (State.ptpSwitch_ready hw hlock hheld hstep).trans (if_neg (Nat.not_lt.mpr hd))

end Ready
end Selection

/-- Settles O33: a frame by its form, its body and, for a PTP message, by the slot of its domain; copies, credits, links and the
choice of the source by what they find. -/
theorem portFrames : Obligations.PortFrames := by
  intro p k f m s up good drop refuse by_
  refine ⟨fun h => ?down, fun hup hf => ?badFcs, fun hup hf h => ?short, fun hup ⟨hf, h64, hv⟩ => ?classes,
    fun v hup hf hv h => ?tagged, fun sub c rest hc => ⟨fun h => ?copyLate, fun h => ?copySent⟩, fun c => rfl,
    fun hslot hin hid hsteps hscale halt => ?announce, fun hhas hm hi => ?timeout, rfl, fun speed hl => ?linkDown,
    fun speed h => ?linkOff, fun speed hen htx hsv h => ?badSpeed, speedOk_by_mode, fun speed hen htx hsv h => ?linkUp,
    fun a w => ?credits,
    fun h => ?noSwitch, fun a hw hlock hheld hstep => ⟨fun hd hr => ?switchRefused, fun hd => ?switchMade⟩⟩
  case down => exact outcome_next_congr (State.frameRx_down h)
  case badFcs => exact outcome_next_congr (State.frameRx_badFcs hup hf)
  case short => exact outcome_next_congr (State.frameRx_short hup hf h)
  case tagged => exact outcome_next_congr (State.frameRx_tagged hup hf hv h)
  case copyLate => exact outcome_next_congr (State.copySent_late hc h)
  case copySent => exact outcome_next_congr (State.copySent_sent hc h)
  case announce => exact outcome_next_congr (State.announceRx_used hslot hin (State.announceVoid_false hid hsteps hscale halt))
  case timeout => exact outcome_next_congr (State.announceTimeout_ends hhas hm hi)
  case linkDown => exact outcome_next_congr ((State.linkDown_eq s p).trans (if_pos hl))
  case linkOff => exact outcome_next_congr (State.linkChange_off h)
  case badSpeed =>
    exact outcome_next_congr ((State.linkChange_badSpeed hen htx hsv h).trans
      (congrArg (fun t => State.set t (EPT_STAT_SPDERR p) 1) (State.linkDown_eq s p)))
  case linkUp => exact outcome_next_congr (State.linkChange_up hen htx hsv h)
  case credits =>
    intro h
    exact (Writes.of_eptFwd a p w s h).trans (outcome_next_congr (congrArg State.dspSteps (State.credWrite_eq ..)))
  case noSwitch => exact outcome_next_congr (State.ptpSwitch_none h)
  case switchRefused => exact outcome_next_congr (State.ptpSwitch_refused hw hlock hheld hstep hd hr)
  case switchMade => exact outcome_next_congr (State.ptpSwitch_made hw hlock hheld hstep hd)
  case classes =>
    have byBody : ∀ {body : FrameBody} {t : State}, f.body = body → s.frameByBody p f body = t →
        exec (.frameReceived p f) s = .next t := fun hb h =>
          outcome_next_congr ((State.frameRx_good hup hf h64 hv hb).trans h)
    refine ⟨fun hb => ?toPort, fun hb => ?other, fun hb hty => ?management, fun hb hty h => ?disabled,
      fun hb hty hen htr => ⟨fun hslot => ⟨fun hclk hrole => ?noRole, fun h => ⟨fun hme => ?toMe, fun hme => ?taken⟩,
        fun htc h => ?forwarded⟩, fun hslot => ?elsewhere⟩,
      fun a hb => ⟨fun ha h0 => ?arp, fun h => ?arpElse⟩, fun a hb => ⟨fun ha h0 => ?ns, fun h => ?nsElse⟩,
      fun v6 dport src sport pay hb => ⟨fun hme => ?udpDrop, fun hme hport => ?udpRefuse, fun hme hport => ?get⟩⟩
    case toPort => exact byBody hb rfl
    case other => exact byBody hb rfl
    case management => exact byBody hb (State.framePtp_management hty)
    case disabled => exact byBody hb (State.framePtp_disabled hty h)
    case noRole => exact byBody hb (State.framePtp_no_role hty hen htr hslot hclk hrole)
    case toMe => exact byBody hb ((State.framePtp_terminated hty hen htr hslot h).trans (if_pos hme))
    case taken =>
      have hterm : s.frameByBody p f (.ptp m) = s.ptpTerminate p f.sub f.txSub by_ :=
        (State.framePtp_terminated hty hen htr hslot h).trans (if_neg (by simp [hme]))
      have byType : ∀ {ty : BitVec 4}, m.mtype = ty →
          exec (.frameReceived p f) s = .next (s.ptpTake ty.toNat p f.sub f.txSub by_) := fun h =>
        byBody hb (hterm.trans (State.ptpTerminate_type h))
      exact ⟨byType, byType, byType, fun h => h.elim byType byType, byType, byType, byType, fun h =>
        byBody hb (hterm.trans (State.ptpTerminate_other h))⟩
    case forwarded => exact byBody hb (State.framePtp_forwarded hty hen htr hslot htc h)
    case elsewhere => exact byBody hb (State.framePtp_elsewhere hty hen htr hslot)
    case arp => exact byBody hb (if_pos ⟨ha, h0⟩)
    case arpElse => exact byBody hb (if_neg fun ⟨ha, h0⟩ => h.elim (absurd ha) (absurd · h0))
    case ns => exact byBody hb (if_pos ⟨ha, h0⟩)
    case nsElse => exact byBody hb (if_neg fun ⟨ha, h0⟩ => h.elim (absurd ha) (absurd · h0))
    case udpDrop => exact byBody hb (if_pos (by simp [hme]))
    case udpRefuse => exact byBody hb ((if_neg (by simp [hme])).trans (if_neg hport))
    case get => exact byBody hb ((if_neg (by simp [hme])).trans (if_pos hport))

/-! ### Octets of a payload -/

@[simp] theorem beBytes_length (n v : Nat) : (beBytes n v).length = n := by simp [beBytes]

/-- Octets taken behind a front of known length. -/
theorem sliceN_append_right {front : List Byte} {m : Nat} (h : front.length = m) (back : List Byte) (i n : Nat) :
    sliceN (front ++ back) (m + i) n = sliceN back i n := by
  subst h
  refine List.map_congr_left fun j _ => ?_
  rw [Nat.add_assoc, List.getD_eq_getElem?_getD, List.getD_eq_getElem?_getD,
    List.getElem?_append_right (Nat.le_add_right ..), Nat.add_sub_cancel_left]

/-! ### Status datagrams (R196, R197, R273, R274, R277) -/

/-- `IDENT` up to its uptime: the identity and what is current in either state of the part (R276). -/
def State.identFront (s : State) : List Byte :=
  beBytes 16 s.part.ident ++ beBytes 1 0xB1 ++ beBytes 1 s.part.grade ++ beBytes 1 (s.get CUS_STAT_STATE) ++
    beBytes 1 (s.get SYS_START_TYPE) ++ beBytes 4 (satN 32 (s.tim.up / 1000000000))

/-- `IDENT` behind its uptime, with what it says of the configuration and the engines (R276). -/
def State.identRest (s : State) (h : IdentHeld) : List Byte :=
  beBytes 4 h.dig0 ++ (beBytes 4 h.dig1 ++
  ((if s.cus.rec_.sealed_ then beBytes 8 (s.cus.rec_.sdig / 2 ^ 192) else beBytes 8 0) ++
  (((List.range 6).flatMap fun k => beBytes 4 (h.vers / 2 ^ (32 * k))) ++
  (beBytes 1 (s.get EPT_CLK_TDROLE) ++ (beBytes 1 0 ++ beBytes 2 h.retired)))))

section Status
variable {s : State} {p n : Nat}

theorem State.timeDatagram_off (h : s.stsOn p 1 = false) : s.timeDatagram p = s := if_pos (by simp [h])

theorem State.timeDatagram_on (h : s.stsOn p 1 = true) : s.timeDatagram p =
    if s.soft then s.stsScheduled p 1 1 [s.timeSoft]
    else ({ s with net := { s.net with lastTime := s.timeBody } } : State).stsScheduled p 1 1 [s.timeBody] :=
  if_neg (by simp [h])

theorem State.tpNextDatagram_composed {b : List Byte} (hmsg : (s.tp n).msg = some b)
    (hnext : (s.tp n).composed = some (tvSec s.tim.t + 1)) (hon : s.stsOn p 2 = true) :
    s.tpNextDatagram p n = s.stsScheduled p 2 (2 * 16 + n) [b] := by
  simp only [State.tpNextDatagram, hmsg]
  exact if_pos (by simp [hon, hnext])

theorem State.tpNextDatagram_none (h : (s.tp n).msg = none ∨ (s.tp n).composed ≠ some (tvSec s.tim.t + 1)) :
    s.tpNextDatagram p n = s := by
  unfold State.tpNextDatagram
  split
  · rfl
  next b hb =>
    have hnot : (s.tp n).composed ≠ some (tvSec s.tim.t + 1) := h.resolve_left (by simp [hb])
    exact if_neg (by simp [hnot])

theorem State.measDatagram_none (h : s.soft = true ∨ s.on SUP_STAT_BRACE = true ∨ s.tracked = false) :
    s.measDatagram p = s :=
  if_pos (by rcases h with h | h | h <;> simp [h])

section Runs
variable (hrun : s.soft = false) (hbr : s.on SUP_STAT_BRACE = false)
include hrun hbr

theorem State.measDatagram_on (ht : s.tracked = true) (hon : s.stsOn p 3 = true) :
    s.measDatagram p = s.measNow.stsScheduled p 3 3 s.measNow.measBodies := if_neg (by simp [hrun, hbr, ht, hon])

theorem State.umberSumDatagram_on (hon : s.stsOn p 6 = true) : s.umberSumDatagram p =
    let t := s.stsScheduled p 6 6 [s.umberSumBody]
    { t with net := { t.net with umbNew := 0, umbSev := 0 } } := if_neg (by simp [hrun, hbr, hon])

end Runs

theorem State.identBody_eq (s : State) : s.identBody = s.identFront ++ s.identRest s.identHeld := by
  simp only [State.identBody, State.identFront, State.identRest, List.append_assoc]

theorem State.identFront_length (s : State) : s.identFront.length = 24 := by
  simp only [State.identFront, List.length_append, beBytes_length]

theorem State.identHeld_template {h : IdentHeld} (hsoft : s.soft = true) (hheld : s.net.ident = some h) : s.identHeld = h :=
  (if_pos hsoft).trans (congrArg (·.getD s.identNow) hheld)

theorem State.identBody_drop {h : IdentHeld} (hsoft : s.soft = true) (hheld : s.net.ident = some h) :
    s.identBody.drop 24 = s.identRest h := by
  rw [State.identBody_eq, State.identHeld_template hsoft hheld]
  exact List.drop_left' s.identFront_length

end Status

/-! ### Answers (R272, R275) -/

/-- The latest payloads that a `GET` of a type asks for (R275). -/
def State.getBodies (s : State) (typ : Nat) : List (List Byte) :=
  ((if typ = 2 then [32, 33] else [typ]).filter fun k => typ != 2 || (s.tp (k - 32)).set.en).flatMap fun k =>
    (tblFind s.net.latest k).getD []

/-- A `GET` answered with payloads of its type (R275). -/
def State.getAnswered (s : State) (p : Nat) (v6 : Bool) (src : BitVec 128) (sport typ : Nat) (bodies : List (List Byte)) : State :=
  let s := s.setPort p { s.port p with gets := (s.port p).gets + 1 }
  bodies.foldl (fun s b => s.stsSend p typ b true v6 src sport) (s.incSat (EPT_CNT_GET_COUNT p))

section Answers
variable {s : State} {p : Nat}

section Arp
variable {target : Word}

theorem State.arpRx_own (hup : s.portUp p = true) (ht : target.toNat = s.get (EPT_IP4_ADDR p)) (h0 : target ≠ 0) :
    s.arpRx p target = s.emit (.arp p target) := if_pos (by simpa [hup, ht] using h0)

theorem State.arpRx_other (ht : target.toNat ≠ s.get (EPT_IP4_ADDR p)) : s.arpRx p target = s := if_neg (by simp [ht])

end Arp

section Neighbour
variable {target : BitVec 128}

theorem State.nsRx_own (hup : s.portUp p = true) (ht : target = s.portIp6 p) (h0 : target ≠ 0) :
    s.nsRx p target = s.emit (.nadv p target) := if_pos (by simpa [hup, ← ht] using h0)

theorem State.nsRx_other (ht : target ≠ s.portIp6 p) : s.nsRx p target = s := if_neg (by simp [ht])

end Neighbour

/-- A request of 36 octets with the header of a `GET` is well formed for the six types (R273, R275). -/
theorem getOk_request {hdr : List Byte} (hlen : hdr.length = 26) (typ : Byte) :
    getOk ([0xD7, 0x10, 0x01, 0x10, 0x00, 0x04] ++ hdr ++ [typ, 0, 0, 0]) =
      (decide (1 ≤ typ.toNat) && decide (typ.toNat ≤ 6)) := by
  let octets := [0xD7, 0x10, 0x01, 0x10, 0x00, 0x04] ++ hdr ++ [typ, 0, 0, 0]
  have hfront : (([0xD7, 0x10, 0x01, 0x10, 0x00, 0x04] : List Byte) ++ hdr).length = 32 := by simp [hlen]
  have hmagic : sliceN octets 0 2 = [0xD7, 0x10] := rfl
  have hver : sliceN octets 2 1 = [0x01] := rfl
  have hget : sliceN octets 3 1 = [0x10] := rfl
  have hlen4 : sliceN octets 4 2 = [0x00, 0x04] := rfl
  have htyp : sliceN octets 32 1 = [typ] := sliceN_append_right hfront _ 0 1
  have hzero : sliceN octets 33 3 = [0, 0, 0] := sliceN_append_right hfront _ 1 3
  have hall : octets.length = 36 := by simp [octets, hlen]
  have hone : beNat [typ] = typ.toNat := by simp [beNat, leNat]
  change getOk octets = _
  simp only [getOk, hmagic, hver, hget, hlen4, htyp, hzero, hall, hone]
  simp [beNat, leNat]

section Get
variable {v6 : Bool} {src : BitVec 128} {sport : Nat} {pay : List Byte}

theorem State.statusGet_eq (s : State) (p : Nat) (v6 : Bool) (src : BitVec 128) (sport : Nat) (pay : List Byte) :
    s.statusGet p v6 src sport pay =
      let typ := (pay.getD 32 0).toNat
      if !s.portUp p then s
      else if !getOk pay || !s.on (EPT_STS_CFG_GETEN p) || decide (16 ≤ (s.port p).gets) then s.frameRefuse p
      else if !s.net.stsOpen || !s.stsSent typ || s.getBodies typ = [] then s
      else s.getAnswered p v6 src sport typ (s.getBodies typ) := rfl

theorem State.statusGet_down (hup : s.portUp p = false) : s.statusGet p v6 src sport pay = s := if_pos (by simp [hup])

theorem State.statusGet_refused (hup : s.portUp p = true)
    (h : getOk pay = false ∨ s.on (EPT_STS_CFG_GETEN p) = false ∨ 16 ≤ (s.port p).gets) :
    s.statusGet p v6 src sport pay = s.frameRefuse p :=
  (if_neg (by simp [hup])).trans (if_pos (by rcases h with h | h | h <;> simp [h]))

/-- A type with one payload list, that last sent by any port. -/
theorem State.getBodies_latest {typ : Nat} {bs : List (List Byte)} (htyp : typ ≠ 2) (h : tblFind s.net.latest typ = some bs) :
    s.getBodies typ = bs := by
  simp [State.getBodies, htyp, h]

theorem State.statusGet_answered {typ : Nat} (htyp : (pay.getD 32 0).toNat = typ) (hup : s.portUp p = true)
    (hok : getOk pay = true) (hen : s.on (EPT_STS_CFG_GETEN p) = true) (hn : (s.port p).gets < 16)
    (hopen : s.net.stsOpen = true) (hsent : s.stsSent typ = true) (hb : s.getBodies typ ≠ []) :
    s.statusGet p v6 src sport pay = s.getAnswered p v6 src sport typ (s.getBodies typ) := by
  rw [State.statusGet_eq]
  simp only [htyp]
  exact (if_neg (by simp [hup])).trans ((if_neg (by simp [hok, hen, hn])).trans (if_neg (by simp [hopen, hsent, hb])))

end Get
end Answers

/-- Settles O34: a datagram of each type by what lets it be sent, `IDENT` in its two parts, and the answers by what is asked. -/
theorem statusDatagrams : Obligations.StatusDatagrams := by
  intro p n s sched on
  refine ⟨fun typ b get v a q => rfl, fun hon => ?timeOff, fun hon hsoft => ?timeSoft, fun hon hrun => ?time,
    fun b hmsg hnext hon => ?tpNext, fun h => ?noTpNext, fun h => ?noMeas, fun hrun hbr ht hon => ?meas, fun hon => ?integ,
    fun hon => ?ident, fun h hsoft hheld => ?identHeld, fun hrun hbr hon => ?umberSum,
    fun target => ⟨fun hup ht h0 => ?arp, fun ht => ?noArp⟩, fun target => ⟨fun hup ht h0 => ?ns, fun ht => ?noNs⟩,
    fun hdr typ hlen => ?request,
    fun src sport pay => ⟨fun hup => ?down, fun hup h => ?refused,
      fun bs hup hok htyp hen hn hopen hsent hl hb => ?answered⟩⟩
  case timeOff => exact outcome_next_congr (State.timeDatagram_off hon)
  case timeSoft => exact outcome_next_congr ((State.timeDatagram_on hon).trans (if_pos hsoft))
  case time => exact outcome_next_congr ((State.timeDatagram_on hon).trans (if_neg (by simp [hrun])))
  case tpNext => exact outcome_next_congr (State.tpNextDatagram_composed hmsg hnext hon)
  case noTpNext => exact outcome_next_congr (State.tpNextDatagram_none h)
  case noMeas => exact outcome_next_congr (State.measDatagram_none h)
  case meas => exact outcome_next_congr (State.measDatagram_on hrun hbr ht hon)
  case integ => exact outcome_next_congr (if_pos hon)
  case ident => exact outcome_next_congr (if_pos hon)
  case identHeld => exact State.identBody_drop hsoft hheld
  case umberSum => exact outcome_next_congr (State.umberSumDatagram_on hrun hbr hon)
  case arp => exact outcome_next_congr (State.arpRx_own hup ht h0)
  case noArp => exact outcome_next_congr (State.arpRx_other ht)
  case ns => exact outcome_next_congr (State.nsRx_own hup ht h0)
  case noNs => exact outcome_next_congr (State.nsRx_other ht)
  case request =>
    have hval : (BitVec.ofNat 8 typ.val).toNat = typ.val := by simp
    exact (getOk_request hlen _).trans (by rw [hval])
  case down => exact outcome_next_congr (State.statusGet_down hup)
  case refused => exact outcome_next_congr (State.statusGet_refused hup h)
  case answered =>
    have hbs := State.getBodies_latest htyp hl
    exact outcome_next_congr ((State.statusGet_answered rfl hup hok hen hn hopen hsent (hbs ▸ hb)).trans (by rw [hbs]; rfl))

end Sys2Proof.Machine

/-! SUPPORT. The frames of the service port (ch. 17): stuffing and check of a frame that was encoded, and what decoding
makes of it (O60). -/

namespace Sys2Proof.Machine

/-! ### Consistent overhead byte stuffing (R370) -/

/-- A block with its code in front; `run` is the block, newest octet first. -/
def cobsBlock (run : List Byte) : List Byte := BitVec.ofNat 8 (run.length + 1) :: run.reverse

theorem cobsEncode_zero (bs run : List Byte) : cobsEncode (0 :: bs) run = cobsBlock run ++ cobsEncode bs [] := rfl

theorem cobsEncode_full_last {b : Byte} {run : List Byte} (hb : b ≠ 0) (h : run.length = 253) :
    cobsEncode [b] run = cobsBlock (b :: run) := by
  rw [cobsEncode, if_neg hb, if_pos h, cobsBlock, List.length_cons, h]
  rfl

theorem cobsEncode_full {b : Byte} {bs run : List Byte} (hb : b ≠ 0) (h : run.length = 253) (hbs : bs ≠ []) :
    cobsEncode (b :: bs) run = cobsBlock (b :: run) ++ cobsEncode bs [] := by
  cases bs with
  | nil => exact absurd rfl hbs
  | cons c bs =>
    rw [cobsEncode.eq_3 _ _ _ (by simp), if_neg hb, if_pos h, cobsBlock, List.length_cons, h]
    rfl

theorem cobsEncode_longer {b : Byte} {run : List Byte} (hb : b ≠ 0) (h : run.length ≠ 253) (bs : List Byte) :
    cobsEncode (b :: bs) run = cobsEncode bs (b :: run) := by
  cases bs <;> rw [cobsEncode.eq_def] <;> simp only [if_neg hb, if_neg h]

/-- Induction along the encoder, over the block under way, which holds no zero and is not full: the end of the octets, a
zero, a block that fills up at the end or before it, and a block that grows. -/
theorem cobsEncode_induct {P : List Byte → List Byte → List Byte → Prop}
    (last : ∀ run, (∀ b ∈ run, b ≠ 0) → run.length ≤ 254 → P run [] (cobsBlock run))
    (zero : ∀ run bs e, (∀ b ∈ run, b ≠ 0) → run.length ≤ 253 → P [] bs e → P run (0 :: bs) (cobsBlock run ++ e))
    (full : ∀ run bs e, (∀ b ∈ run, b ≠ 0) → run.length = 254 → P [] bs e → P run bs (cobsBlock run ++ e))
    (grow : ∀ b run bs e, P (b :: run) bs e → P run (b :: bs) e)
    (bs run : List Byte) (hrun : ∀ b ∈ run, b ≠ 0) (hlen : run.length ≤ 253) : P run bs (cobsEncode bs run) := by
  induction bs generalizing run with
  | nil => exact last run hrun (by omega)
  | cons b bs ih =>
    have hstart := ih [] (by simp) (by simp)
    by_cases hb : b = 0
    · subst hb
      exact cobsEncode_zero bs run ▸ zero run bs _ hrun hlen hstart
    have hrun' : ∀ x ∈ b :: run, x ≠ 0 := List.forall_mem_cons.mpr ⟨hb, hrun⟩
    by_cases hfull : run.length = 253
    · refine grow b run bs _ ?_
      by_cases hbs : bs = []
      · subst hbs
        exact cobsEncode_full_last hb hfull ▸ last _ hrun' (by simp [hfull])
      · exact cobsEncode_full hb hfull hbs ▸ full _ bs _ hrun' (by simp [hfull]) hstart
    · rw [cobsEncode_longer hb hfull]
      exact grow b run bs _ (ih _ hrun' (by simp only [List.length_cons]; omega))

/-- The rest of a block that holds no zero is taken as it stands. -/
theorem cobsDecode_run (run rest : List Byte) (full : Bool) (h : ∀ b ∈ run, b ≠ 0) :
    cobsDecode (run ++ rest) run.length full = (cobsDecode rest 0 full).map (run ++ ·) := by
  induction run with
  | nil => simp
  | cons b run ih =>
    obtain ⟨hb, hrun⟩ := List.forall_mem_cons.mp h
    simp only [List.cons_append, List.length_cons, cobsDecode, if_neg hb, ih hrun]
    cases cobsDecode rest 0 full <;> rfl

theorem cobsCode_toNat {run : List Byte} (hlen : run.length ≤ 254) :
    (BitVec.ofNat 8 (run.length + 1) : Byte).toNat = run.length + 1 := by
  rw [BitVec.toNat_ofNat, Nat.mod_eq_of_lt (by omega)]

theorem cobsCode_ne_zero {run : List Byte} (hlen : run.length ≤ 254) : (BitVec.ofNat 8 (run.length + 1) : Byte) ≠ 0 :=
  fun h => by simpa [h] using cobsCode_toNat hlen

/-- A block decoded: a zero stands before it unless the block before was full. -/
theorem cobsDecode_cobsBlock (run rest : List Byte) (full : Bool) (h : ∀ b ∈ run, b ≠ 0) (hlen : run.length ≤ 254) :
    cobsDecode (cobsBlock run ++ rest) 0 full = (cobsDecode rest 0 (decide (run.length = 254))).map fun r =>
      if full then run.reverse ++ r else 0 :: (run.reverse ++ r) := by
  have hcode := cobsCode_toNat hlen
  have hfull : ((BitVec.ofNat 8 (run.length + 1) : Byte) == 0xFF) = decide (run.length = 254) := by
    rw [beq_eq_decide, decide_eq_decide, ← BitVec.toNat_inj, hcode]
    simp
  have hrun := cobsDecode_run run.reverse rest (decide (run.length = 254)) fun b hb => h b (List.mem_reverse.mp hb)
  rw [List.length_reverse] at hrun
  simp only [cobsBlock, List.cons_append, cobsDecode, if_neg (cobsCode_ne_zero hlen), hcode, hfull, Nat.add_sub_cancel, hrun]
  cases cobsDecode rest 0 (decide (run.length = 254)) <;> rfl

/-- Decoding what was encoded loses nothing. -/
theorem cobsDecode_encode (bs run : List Byte) (hrun : ∀ b ∈ run, b ≠ 0) (hlen : run.length ≤ 253) (full : Bool) :
    cobsDecode (cobsEncode bs run) 0 full = some (if full then run.reverse ++ bs else 0 :: (run.reverse ++ bs)) := by
  refine cobsEncode_induct
    (P := fun run bs e => ∀ full, cobsDecode e 0 full = some (if full then run.reverse ++ bs else 0 :: (run.reverse ++ bs)))
    ?_ ?_ ?_ ?_ bs run hrun hlen full
  · intro run hrun hlen full
    simpa [cobsDecode] using cobsDecode_cobsBlock run [] full hrun hlen
  · intro run bs e hrun hlen ih full
    rw [cobsDecode_cobsBlock run e full hrun (by omega), decide_eq_false (by omega), ih]
    rfl
  · intro run bs e hrun hlen ih full
    rw [cobsDecode_cobsBlock run e full hrun (by omega), decide_eq_true hlen, ih]
    rfl
  · intro b run bs e ih full
    rw [ih, List.reverse_cons, List.append_assoc]
    rfl

theorem cobsBlock_ne_zero {run : List Byte} (hrun : ∀ b ∈ run, b ≠ 0) (hlen : run.length ≤ 254) :
    ∀ b ∈ cobsBlock run, b ≠ 0 :=
  List.forall_mem_cons.mpr ⟨cobsCode_ne_zero hlen, fun b hb => hrun b (List.mem_reverse.mp hb)⟩

/-- What is encoded holds no zero. -/
theorem cobsEncode_ne_zero (bs run : List Byte) (hrun : ∀ b ∈ run, b ≠ 0) (hlen : run.length ≤ 253) :
    ∀ b ∈ cobsEncode bs run, b ≠ 0 := by
  refine cobsEncode_induct (P := fun _ _ e => ∀ b ∈ e, b ≠ 0) ?_ ?_ ?_ (fun _ _ _ _ h => h) bs run hrun hlen
  · exact fun run hrun hlen => cobsBlock_ne_zero hrun hlen
  · exact fun run bs e hrun hlen ih => List.forall_mem_append.mpr ⟨cobsBlock_ne_zero hrun (by omega), ih⟩
  · exact fun run bs e hrun hlen ih => List.forall_mem_append.mpr ⟨cobsBlock_ne_zero hrun (by omega), ih⟩

/-- Stuffing adds an octet, and one more for each 254. -/
theorem cobsEncode_length_le (bs run : List Byte) (hrun : ∀ b ∈ run, b ≠ 0) (hlen : run.length ≤ 253) :
    (cobsEncode bs run).length ≤ run.length + bs.length + 1 + (run.length + bs.length) / 254 := by
  refine cobsEncode_induct (P := fun run bs e => e.length ≤ run.length + bs.length + 1 + (run.length + bs.length) / 254)
    ?_ ?_ ?_ ?_ bs run hrun hlen
  · intro run _ _
    simp only [cobsBlock, List.length_cons, List.length_reverse, List.length_nil]
    omega
  · intro run bs e _ _ ih
    simp only [cobsBlock, List.length_append, List.length_cons, List.length_reverse, List.length_nil] at ih ⊢
    omega
  · intro run bs e _ _ ih
    simp only [cobsBlock, List.length_append, List.length_cons, List.length_reverse, List.length_nil] at ih ⊢
    omega
  · intro b run bs e ih
    simp only [List.length_cons] at ih ⊢
    omega

theorem cobsUnstuff_cobsStuff (bs : List Byte) : cobsUnstuff (cobsStuff bs) = some bs := by
  have h := cobsDecode_encode bs [] (by simp) (by simp) true
  have hne : cobsStuff bs ≠ [] := fun h0 => by
    have := cobsDecode_encode bs [] (by simp) (by simp) false
    rw [show cobsEncode bs [] = [] from h0] at this
    simp [cobsDecode] at this
  rw [cobsUnstuff, if_neg hne]
  exact h

/-! ### The check and the fields of a frame (R348, R370) -/

theorem crc32Bits_lt {c : Nat} (h : c < 2 ^ 32) : ∀ k, crc32Bits k c < 2 ^ 32
  | 0 => h
  | k + 1 => by
    rw [crc32Bits]
    split
    · exact crc32Bits_lt (Nat.xor_lt_two_pow (by omega) (by decide)) k
    · exact crc32Bits_lt (by omega) k

theorem crc32_lt (bs : List Byte) : crc32 bs < 2 ^ 32 :=
  Nat.xor_lt_two_pow (List.foldlRecOn bs _ (motive := fun c => c < 2 ^ 32) (by decide) fun _ hc b _ =>
    crc32Bits_lt (Nat.xor_lt_two_pow hc (by have := b.isLt; omega)) 8) (by decide)

/-- The octets in front. -/
theorem sliceN_append_left (xs ys : List Byte) : sliceN (xs ++ ys) 0 xs.length = xs := by
  refine List.ext_getElem (by simp [sliceN]) fun i _ hi => ?_
  simp [sliceN, List.getD_eq_getElem?_getD, List.getElem?_append_left hi, List.getElem?_eq_getElem hi]

/-- A number stored behind a front of known length is read back. -/
theorem leNat_sliceN_leBytes {front : List Byte} {m : Nat} (hm : front.length = m) {n v : Nat} (hv : v < 256 ^ n)
    (back : List Byte) : leNat (sliceN (front ++ (leBytes n v ++ back)) m n) = v := by
  have h := sliceN_append_left (leBytes n v) back
  rw [leBytes_length] at h
  rw [show m = m + 0 from rfl, sliceN_append_right hm, h, leNat_leBytes, Nat.mod_eq_of_lt hv]

/-- A frame's header and payload, as its check covers them (R370). -/
def SvcFrame.body (f : SvcFrame) : List Byte :=
  leBytes 1 f.typ ++ (leBytes 1 (b2n f.poll) ++ (leBytes 2 f.seq ++ (leBytes 2 f.ack ++
    (leBytes 2 f.payload.length ++ f.payload))))

theorem svcEncode_eq (f : SvcFrame) : svcEncode f = cobsStuff (f.body ++ leBytes 4 (crc32 f.body)) ++ [0] := by
  simp only [svcEncode, SvcFrame.body, List.append_assoc]

theorem SvcFrame.body_length (f : SvcFrame) : f.body.length = f.payload.length + 8 := by
  simp only [SvcFrame.body, List.length_append, leBytes_length]
  omega

/-- The fields of a frame, read back from its octets with any octets behind them. -/
theorem SvcFrame.body_fields {f : SvcFrame} (htyp : f.typ < 2 ^ 8) (hseq : f.seq < 2 ^ 16) (hack : f.ack < 2 ^ 16)
    (hlen : f.payload.length ≤ 1024) (back : List Byte) :
    leNat (sliceN (f.body ++ back) 0 1) = f.typ ∧ leNat (sliceN (f.body ++ back) 1 1) = b2n f.poll ∧
      leNat (sliceN (f.body ++ back) 2 2) = f.seq ∧ leNat (sliceN (f.body ++ back) 4 2) = f.ack ∧
      leNat (sliceN (f.body ++ back) 6 2) = f.payload.length ∧
      sliceN (f.body ++ back) 8 f.payload.length = f.payload := by
  have hpoll : b2n f.poll < 256 ^ 1 := by cases f.poll <;> decide
  simp only [SvcFrame.body, List.append_assoc]
  refine ⟨leNat_sliceN_leBytes (front := []) (n := 1) (v := f.typ) rfl (by omega) _, leNat_sliceN_leBytes (by simp) hpoll _, ?_, ?_, ?_, ?_⟩
  · rw [← List.append_assoc (leBytes 1 _)]
    exact leNat_sliceN_leBytes (by simp) (by omega) _
  · rw [← List.append_assoc (leBytes 1 _), ← List.append_assoc _ (leBytes 2 f.seq)]
    exact leNat_sliceN_leBytes (by simp) (by omega) _
  · rw [← List.append_assoc (leBytes 1 _), ← List.append_assoc _ (leBytes 2 f.seq), ← List.append_assoc _ (leBytes 2 f.ack)]
    exact leNat_sliceN_leBytes (by simp) (by omega) _
  · rw [← List.append_assoc (leBytes 1 _), ← List.append_assoc _ (leBytes 2 f.seq), ← List.append_assoc _ (leBytes 2 f.ack),
      ← List.append_assoc _ (leBytes 2 f.payload.length), show 8 = 8 + 0 from rfl, sliceN_append_right (by simp)]
    exact sliceN_append_left _ _

/-- A frame whose octets are not too many is the one whose checked octets are stuffed there. -/
theorem svcDecode_cobsStuff {f : SvcFrame} (htyp : f.typ < 2 ^ 8) (hseq : f.seq < 2 ^ 16) (hack : f.ack < 2 ^ 16)
    (hlen : f.payload.length ≤ 1024) (h : (cobsStuff (f.body ++ leBytes 4 (crc32 f.body))).length ≤ 1041) :
    svcDecode (cobsStuff (f.body ++ leBytes 4 (crc32 f.body))) = some f := by
  obtain ⟨ftyp, fpoll, fseq, fack, flen, fpay⟩ := SvcFrame.body_fields htyp hseq hack hlen (leBytes 4 (crc32 f.body))
  have hn : (f.body ++ leBytes 4 (crc32 f.body)).length = f.payload.length + 12 := by
    rw [List.length_append, leBytes_length, f.body_length]
  have htake : (f.body ++ leBytes 4 (crc32 f.body)).take (f.payload.length + 12 - 4) = f.body :=
    List.take_left' (by rw [f.body_length]; omega)
  have hdrop : (f.body ++ leBytes 4 (crc32 f.body)).drop (f.payload.length + 12 - 4) = leBytes 4 (crc32 f.body) :=
    List.drop_left' (by rw [f.body_length]; omega)
  have hcrc : leNat (leBytes 4 (crc32 f.body)) = crc32 f.body := by
    rw [leNat_leBytes, Nat.mod_eq_of_lt (by simpa using crc32_lt f.body)]
  have hpoll : (b2n f.poll == 1) = f.poll ∧ b2n f.poll ≤ 1 := by cases f.poll <;> decide
  have hok : ¬(f.payload.length + 12 < 12 ∨ crc32 f.body ≠ crc32 f.body ∨ f.payload.length + 12 ≠ f.payload.length + 12 ∨
      1 < b2n f.poll) := by
    have := hpoll.2
    omega
  rw [svcDecode, if_neg (by omega), cobsUnstuff_cobsStuff]
  simp only [ftyp, fpoll, fseq, fack, flen, fpay, hn, htake, hdrop, hcrc, hpoll.1, if_neg hok]

/-- Settles O60: stuffing keeps the frame's octets apart from the delimiter, unstuffing gives them back, and each field is
read where it was written. -/
theorem serviceFrames : Obligations.ServiceFrames := by
  intro f htyp hseq hack hlen
  have hstuff := cobsEncode_length_le (f.body ++ leBytes 4 (crc32 f.body)) [] (by simp) (by simp)
  have hbound : (cobsStuff (f.body ++ leBytes 4 (crc32 f.body))).length ≤ 1041 := by
    simp only [List.length_append, leBytes_length, f.body_length, List.length_nil] at hstuff
    rw [cobsStuff]
    omega
  exact ⟨_, svcEncode_eq f, fun h0 => cobsEncode_ne_zero _ [] (by simp) (by simp) _ h0 rfl, hbound,
    svcDecode_cobsStuff htyp hseq hack hlen hbound⟩

end Sys2Proof.Machine

/-! SUPPORT. Timed event lines (ch. 12): what the writes of their registers, the fetch, the events of a line and of a bank and
the actions of schedule entries come to, case by case, and the statements about them (O35, O36, O37). -/

namespace Sys2Proof.Machine

/-! ### The registers of the event lines -/

/-- A write that is accepted, to a register of the event lines that does `f` beside; the always-on domain has none there. -/
theorem Writes.of_tel_hook {c : Instr} {m : Master} {a : Nat} {w : Word} {s : State} {f : State → State}
    (ha : 0x40200000 ≤ a ∧ a < 0x40210000) (h4 : a % 4 = 0) (he : exec c s = .next (s.busDo m a 4 w.toNat))
    (hk : ∀ t, regHook a w.toNat [] s t = f t) : Writes c m a w s f := by
  refine Writes.of_hook he (memClass_blocks (by omega)) h4 (by omega) ?_ hk
  simp only [rtcLateReg, Bool.or_eq_false_iff, beq_eq_false_iff_ne]
  omega

theorem telCfg_addr (n : Nat) : (TEL_CFG_MODE n).addr = 0x40200400 + 0x40 * n := by simp only [TEL_CFG_MODE]; omega

theorem telPtr_addr (n : Nat) : (TEL_PTR_PTR n).addr = 0x40200408 + 0x40 * n := by simp only [TEL_PTR_PTR]; omega

/-- The line's level is shown when its mode or its polarity has changed, and its driver drives (R281). -/
theorem State.telCfgShow_eq (s : State) (n : Nat) (old : State) : s.telCfgShow n old =
    if (s.get (TEL_CFG_MODE n) ≠ old.get (TEL_CFG_MODE n) ∨ s.on (TEL_CFG_POL n) ≠ old.on (TEL_CFG_POL n)) ∧
      s.telDrives n = true then s.emit (.line n (s.on (TEL_STAT_LEVEL n) != s.on (TEL_CFG_POL n))) else s :=
  (ite_and ..).symm

/-- Settles O35: each register by what its write sets in motion. -/
theorem lineWrites : Obligations.LineWrites := by
  intro m n j w s
  refine ⟨?cfg, ?ptr, ?inval, ?permit⟩
  case cfg =>
    refine Writes.of_tel_hook (by omega) (by omega) (by rw [← telCfg_addr]; rfl) fun t => ?_
    rw [regHook_telCfg, State.telCfgShow_eq]
    rfl
  case ptr =>
    exact Writes.of_tel_hook (by omega) (by omega) (by rw [← telPtr_addr]; rfl) fun t => regHook_telPtr n _ [] s t
  case inval => exact Writes.of_tel_hook (by omega) (by omega) rfl fun t => regHook_telInval _ [] s t
  case permit => exact Writes.of_tel_hook (by omega) (by omega) rfl fun t => regHook_telPermit j _ [] s t

/-! ### Fetching (R282, R284, R285) -/

section Fetch
variable {s : State} {n i : Nat} (hf : (s.line n).fetchAt = some i) (hc : (s.line n).copies.length < 2)
  (hm : s.get (TEL_CFG_MODE n) ≠ 4)

/-- The entry that a line reads, with whether it holds a double-bit error. -/
def State.telRead (s : State) (i : Nat) : EntryCopy :=
  let r := s.memReadWords .sched (0x40210000 + i * 16) 4
  { idx := i, w0 := r.2.1.getD 0 0, w1 := r.2.1.getD 1 0, w2 := r.2.1.getD 2 0, w3 := r.2.1.getD 3 0, bad := !r.2.2 }

include hf hc hm

theorem State.telFetch_eq (sub : Nat) : s.telFetch n sub =
    let r := s.memReadWords .sched (0x40210000 + i * 16) 4
    let c := s.telRead i
    if r.2.2 && !bit c.w0 31 then r.1
    else
      let c' := { c with near := (s.line n).due2.any fun d => decide (d ≤ c.due) && decide (c.due < d + usU) }
      let t := r.1.setLine n { s.line n with
        copies := (s.line n).copies ++ [c'],
        fetchAt := if c'.last || c'.err n (r.1.get (TEL_CFG_MODE n)) then none else some c'.next,
        due1 := some c'.due, due2 := (s.line n).due1,
        headAt := if (s.line n).copies = [] then r.1.now sub else (s.line n).headAt }
      if (s.line n).copies = [] then t.telHead n else t := by
  have h : ¬(2 ≤ (s.line n).copies.length ∨ s.get (TEL_CFG_MODE n) = 4) := by omega
  simp only [State.telFetch, hf, if_neg h]
  rfl

theorem State.telFetch_invalid {sub : Nat} (hok : (s.memReadWords .sched (0x40210000 + i * 16) 4).2.2 = true)
    (hv : bit (s.telRead i).w0 31 = false) :
    s.telFetch n sub = (s.memReadWords .sched (0x40210000 + i * 16) 4).1 :=
  (State.telFetch_eq hf hc hm sub).trans (if_pos (by rw [hok, hv]; rfl))

theorem State.telFetch_taken {sub : Nat}
    (h : (s.memReadWords .sched (0x40210000 + i * 16) 4).2.2 = false ∨ bit (s.telRead i).w0 31 = true) :
    s.telFetch n sub =
      let r := s.memReadWords .sched (0x40210000 + i * 16) 4
      let c := s.telRead i
      let c' := { c with near := (s.line n).due2.any fun d => decide (d ≤ c.due) && decide (c.due < d + usU) }
      let t := r.1.setLine n { s.line n with
        copies := (s.line n).copies ++ [c'],
        fetchAt := if c'.last || c'.err n (r.1.get (TEL_CFG_MODE n)) then none else some c'.next,
        due1 := some c'.due, due2 := (s.line n).due1,
        headAt := if (s.line n).copies = [] then r.1.now sub else (s.line n).headAt }
      if (s.line n).copies = [] then t.telHead n else t :=
  (State.telFetch_eq hf hc hm sub).trans (if_neg (by rcases h with h | h <;> simp [h]))

end Fetch

/-! ### Events of a line and of a bank (R280, R291, R292, R433, R444) -/

section LineEvents
variable {s : State} {n : Nat}

theorem State.telPulseEnd_running {e : Nat} (h : (s.line n).pulseTo = some e) : s.telPulseEnd n =
    if s.reached e 0 then (s.setLine n { s.line n with pulseTo := none, after := false }).telLevel n (s.line n).after
    else s := by
  simp only [State.telPulseEnd, h]

theorem State.winLimit_open (h : s.get (TEL_STAT_WSTATE n) = 1) : s.winLimit n =
    if s.reached (s.line n).openAt (max 1 (s.get (TEL_WMAX_MIN n)) * 60000000000) then s.winClose n 1 0 else s := by
  simp only [State.winLimit, h, true_and]

theorem State.winHoldEnd_held (h : s.get (TEL_STAT_WSTATE n) = 2) : s.winHoldEnd n =
    if s.reached (s.line n).fallAt 60000000000 then s.winClose n 3 0 else s := by
  simp only [State.winHoldEnd, h, true_and]

theorem State.telOvfEnd_drained {k : Nat} (hl : (s.line n).lost = some k) (hf : (s.line n).fifo = []) : s.telOvfEnd n =
    (s.setLine n { s.line n with lost := none }).note 0x0606 0x09 2 (n * 2 ^ 73 + min k (2 ^ 32 - 1)) := by
  simp only [State.telOvfEnd, hl]
  exact if_neg (not_not_intro hf)

/-- Whether a capture line stamps an edge: `EDGE` selects it, and a gated line is armed (R292). -/
def State.telStamps (s : State) (n : Nat) (falling : Bool) : Prop :=
  (s.get (TEL_CFG_EDGE n) = 0 → falling = false) ∧ (s.get (TEL_CFG_EDGE n) = 1 → falling = true) ∧
    (s.on (TEL_CFG_GATED n) = true → s.on (TEL_STAT_ARMED n) = true)

variable {sub width : Nat} {falling : Bool} (hm : s.get (TEL_CFG_MODE n) = 3)
include hm

theorem State.telEdge_short (hw : width < 50) : s.telEdge n sub falling width = s.set (TEL_STAT_GLITCH n) 1 :=
  (if_neg (not_not_intro hm)).trans (if_pos hw)

/-- An edge that a capture line stamps is put into its FIFO, or lost. -/
theorem State.telEdge_stamps (hw : 50 ≤ width) (h : s.telStamps n falling) : s.telEdge n sub falling width =
    if (s.line n).fifo.length < 256 then
      (((s.setLine n { s.line n with fifo := (s.line n).fifo ++ [(tv96 (s.now sub), falling)] }).set (TEL_FILL_FILL n)
        ((s.line n).fifo.length + 1)).setTelBit TEL_CAPNE_MAP n true).orF TEL_IRQ_IRQ 2
    else
      (((s.setLine n { s.line n with lost := some ((s.line n).lost.getD 0 + 1) }).incSat (TEL_LOST_COUNT n)).set
        (TEL_STAT_OVF n) 1).orF TEL_IRQ_IRQ 4 := by
  obtain ⟨hrise, hfall, hgate⟩ := h
  refine (if_neg (not_not_intro hm)).trans ((if_neg (by omega)).trans (if_neg ?_))
  have hsel : (match s.get (TEL_CFG_EDGE n) with | 0 => !falling | 1 => falling | _ => true) = true := by
    split
    · next he => rw [hrise he]; rfl
    · next he => exact hfall he
    · rfl
  have harm : (s.on (TEL_CFG_GATED n) && !s.on (TEL_STAT_ARMED n)) = false := by
    cases hg : s.on (TEL_CFG_GATED n)
    · rfl
    · rw [hgate hg]; rfl
  rw [harm, Bool.or_false, Bool.not_eq_true', Bool.not_eq_false]
  exact hsel

end LineEvents

theorem State.bankReturn_clear {s : State} {b : Nat} (hm : (s.bank b).measured = true) (hv : s.on (TEL_BANK_VERR b) = false)
    (hd : (s.bank b).drivers = false) : s.bankReturn b = s.bankDrive b :=
  if_neg (by simp [hm, hv, hd])

/-- Settles O36: a fetch by what it reads, each event of a line where the line is in its state, a bank by its measurement. -/
theorem lineTiming : Obligations.LineTiming := by
  refine ⟨fun n sub i s hf hc hm => ⟨fun hok hv => ?invalid, fun h => ?taken⟩,
    fun n b sub mv10 width falling s => ⟨fun e he => ⟨fun h => ?pulseEnds, fun h => ?pulseRuns⟩, fun hw => ?limit,
      fun hw => ?held, fun hm => ⟨fun hw => ?glitch, fun hw hrise hfall hgate => ⟨fun hl => ?stamped, fun hl => ?lost⟩⟩,
      fun k hl hf => ?drained, ?measured, fun hm hv hd => ?returns⟩⟩
  case invalid => exact outcome_next_congr (State.telFetch_invalid hf hc hm hok hv)
  case taken => exact outcome_next_congr (State.telFetch_taken hf hc hm h)
  case pulseEnds => exact outcome_next_congr ((State.telPulseEnd_running he).trans (if_pos h))
  case pulseRuns => exact outcome_next_congr ((State.telPulseEnd_running he).trans (if_neg (ne_true_of_eq_false h)))
  case limit => exact outcome_next_congr (State.winLimit_open hw)
  case held => exact outcome_next_congr (State.winHoldEnd_held hw)
  case glitch => exact outcome_next_congr (State.telEdge_short hm hw)
  case stamped => exact outcome_next_congr ((State.telEdge_stamps hm hw ⟨hrise, hfall, hgate⟩).trans (if_pos hl))
  case lost =>
    exact outcome_next_congr ((State.telEdge_stamps hm hw ⟨hrise, hfall, hgate⟩).trans (if_neg (Nat.not_lt.mpr hl)))
  case drained => exact outcome_next_congr (State.telOvfEnd_drained hl hf)
  case measured => rfl
  case returns => exact outcome_next_congr (State.bankReturn_clear hm hv hd)

/-! ### The actions of schedule entries (R283, R288–R291, R444) -/

section Actions
variable {s : State} {n sub action : Nat} {act : EntryCopy → State → State} {c : EntryCopy} {rest : List EntryCopy}

theorem State.lateHead_eq (s : State) (n : Nat) (d : EntryCopy) (at_ : Nat) : s.lateHead n d at_ =
    decide (d.due + s.get (TEL_CFG_LATEMAX n) * msU <
      if d.near then (match s.tim.jump with
        | some (a, b) => if a < d.due ∧ d.due ≤ b then b else d.due
        | none => d.due) else at_) := by
  simp only [State.lateHead, State.fellDue, Bool.and_eq_true, decide_eq_true_eq] <;> rfl

/-- The entry behind the head takes its place in the same clock: it is due, valid and not late (R288). -/
def State.nextActs (s : State) (n now : Nat) : List EntryCopy → Bool
  | [] => false
  | d :: _ => decide (d.due ≤ now) && !d.err n (s.get (TEL_CFG_MODE n)) && !s.lateHead n d now

theorem State.telExec_empty (h : (s.line n).copies = []) : s.telExec n sub action act = s := by
  simp only [State.telExec, h]

variable (hc : (s.line n).copies = c :: rest)
include hc

theorem State.telExec_not_due (h : c.action ≠ action ∨ s.now sub < c.due ∨ (s.line n).stopped = true) :
    s.telExec n sub action act = s := by
  simp only [State.telExec, hc, if_pos h]

variable (ha : c.action = action) (hd : c.due ≤ s.now sub) (hs : (s.line n).stopped = false)
include ha hd hs

theorem State.telExec_late (hl : s.lateHead n c (s.line n).headAt = true) : s.telExec n sub action act =
    ((s.set (TEL_STAT_LATE n) 1).incSat (TEL_LATECNT_COUNT n)).telAdvance n sub c := by
  have h : ¬(c.action ≠ action ∨ s.now sub < c.due ∨ (s.line n).stopped = true) := by simp [ha, hs]; omega
  simp only [State.telExec, hc, if_neg h, if_pos hl]

variable (hl : s.lateHead n c (s.line n).headAt = false)
include hl

theorem State.telExec_on_time : s.telExec n sub action act =
    let x := s.inc (TEL_EXEC_COUNT n)
    (if x.nextActs n (s.now sub) rest then x.set (TEL_STAT_SUPERSEDED n) 1 else act c x).telAdvance n sub c := by
  have h : ¬(c.action ≠ action ∨ s.now sub < c.due ∨ (s.line n).stopped = true) := by simp [ha, hs]; omega
  simp only [State.telExec, hc, if_neg h, if_neg (ne_true_of_eq_false hl)]
  cases rest <;> rfl

theorem State.telExec_acts (h : ∀ d r, rest = d :: r → s.now sub < d.due ∨
      d.err n ((s.inc (TEL_EXEC_COUNT n)).get (TEL_CFG_MODE n)) = true ∨
      (s.inc (TEL_EXEC_COUNT n)).lateHead n d (s.now sub) = true) :
    s.telExec n sub action act = (act c (s.inc (TEL_EXEC_COUNT n))).telAdvance n sub c := by
  refine (State.telExec_on_time hc ha hd hs hl).trans (congrArg (State.telAdvance · n sub c) (if_neg ?_))
  cases rest with
  | nil => exact Bool.false_ne_true
  | cons d r => rcases h d r rfl with h | h | h <;> simp [State.nextActs, h]

theorem State.telExec_superseded {d : EntryCopy} {r : List EntryCopy} (hr : rest = d :: r) (hdue : d.due ≤ s.now sub)
    (herr : d.err n ((s.inc (TEL_EXEC_COUNT n)).get (TEL_CFG_MODE n)) = false)
    (hlate : (s.inc (TEL_EXEC_COUNT n)).lateHead n d (s.now sub) = false) :
    s.telExec n sub action act = ((s.inc (TEL_EXEC_COUNT n)).set (TEL_STAT_SUPERSEDED n) 1).telAdvance n sub c := by
  subst hr
  exact (State.telExec_on_time hc ha hd hs hl).trans (congrArg (State.telAdvance · n sub c) 
    (if_pos (by simp [State.nextActs, hdue, herr, hlate])))

end Actions

/-- The commands of a line's actions, each an execution of the head entry. -/
theorem exec_telActs (n : Fin 96) (sub : Nat) (s : State) :
    ∀ p ∈ [(0, Instr.telNop n sub), (1, .telSet n sub), (2, .telClear n sub), (3, .telPulse n sub), (4, .telOpen n sub),
      (5, .telClose n sub), (6, .telArm n sub), (7, .telDisarm n sub)],
    ∃ act, exec p.2 s = .next (s.telExec n sub p.1 act) := by
  simp only [List.forall_mem_cons]
  exact ⟨⟨fun _ s => s, rfl⟩, ⟨telActSet n, rfl⟩, ⟨telActClear n, rfl⟩, ⟨telActPulse n sub, rfl⟩, ⟨telActOpen n sub, rfl⟩,
    ⟨telActClose n sub, rfl⟩, ⟨telActArm n true, rfl⟩, ⟨telActArm n false, rfl⟩, List.forall_mem_nil _⟩

/-- Settles O37: each command executes the head entry (`exec_telActs`), which is not its own or not due, late, superseded, or
acts. -/
theorem lineActions : Obligations.LineActions := by
  intro n sub c rest s l now x acts
  refine ⟨s.lateHead_eq n, fun hc p hp => ?empty, fun hc p hp h => ?notDue, fun hc hd hs =>
    ⟨fun hl => ⟨fun hr => ?acts, fun d r hr hdue herr hlate p hp ha => ?superseded⟩, fun hl p hp ha => ?late⟩⟩
  case empty =>
    obtain ⟨act, he⟩ := exec_telActs n sub s p hp
    exact he.trans (outcome_next_congr (State.telExec_empty hc))
  case notDue =>
    obtain ⟨act, he⟩ := exec_telActs n sub s p hp
    exact he.trans (outcome_next_congr (State.telExec_not_due hc h))
  case acts =>
    have acts : ∀ {action : Nat} (act : EntryCopy → State → State), c.action = action →
        (Host.Outcome.next (s.telExec n sub action act) : Host.Outcome State Fault Refusal) =
          .next ((act c x).telAdvance n sub c) :=
      fun act ha => outcome_next_congr (State.telExec_acts hc ha hd hs hl hr)
    exact ⟨acts fun _ s => s, acts (telActSet n), acts (telActClear n), acts (telActPulse n sub), acts (telActOpen n sub),
      acts (telActClose n sub), acts (telActArm n true), acts (telActArm n false)⟩
  case superseded =>
    obtain ⟨act, he⟩ := exec_telActs n sub s p hp
    exact he.trans (outcome_next_congr (State.telExec_superseded hc ha hd hs hl hr hdue herr hlate))
  case late =>
    obtain ⟨act, he⟩ := exec_telActs n sub s p hp
    exact he.trans (outcome_next_congr (State.telExec_late hc ha hd hs hl))

end Sys2Proof.Machine

/-! SUPPORT. Reads that latch (R403), and the always-on domain (ch. 13): what the writes of its registers, its count and its
events come to, case by case, and the statements about them (O38, O39, O40). -/

namespace Sys2Proof.Machine

/-! ### Reads that latch a group (R403) -/

/-- No group of registers ends at an address when none that begins before it is as long. -/
theorem latchBack_none {a : Nat} (h : ∀ i < 5, latchCount (a - 4 * (i + 1)) ≠ i + 1) : latchBack a = 0 := by
  have hnone : ((List.range 5).find? fun i => latchCount (a - 4 * (i + 1)) == i + 1) = none :=
    List.find?_eq_none.mpr fun i hi => by simpa using h i (List.mem_range.mp hi)
  simp only [latchBack, hnone]

/-- A read of the first register of a group latches the `k` others for its master, and changes nothing else. -/
theorem State.busGet_latches {s : State} {m : Master} {a k : Nat} (sub : Nat) (hallow : s.busAllowed m a false = true)
    (hmem : memClass a = none) (h4 : a % 4 = 0) (hreg : regsAt a ≠ [])
    (hcap : ¬(0x40200400 ≤ a ∧ a < 0x40201C00 ∧ a % 0x40 = 0x20)) (hk : latchCount a = k) (hback : latchBack a = 0)
    (hnew : a ≠ 0x40040210) : s.busGet m a 4 sub =
      (List.range k).foldl (fun t i => t.hold m (a + 4 * (i + 1)) ((s.busView a sub).regValue (a + 4 * (i + 1)))) s := by
  subst hk
  have hbad : ¬((4 : Nat) ≠ 4 ∨ a % 4 ≠ 0 ∨ regsAt a = []) := by simp [h4, hreg]
  simp only [State.busGet, State.busRead, hallow, hmem, if_neg hbad, State.regRead, if_neg hcap, hback, if_neg hnew]
  rfl

/-! ### Writes of the always-on domain (R301, R302, R304, R309) -/

/-- The always-on domain lies in one block. -/
theorem memClass_rtc {a : Nat} (h : 0x40020000 ≤ a ∧ a < 0x40030000) : memClass a = none := memClass_blocks (by omega)

/-- A write that is accepted, to a register of the always-on domain whose write waits for the next tick (R303, R405). -/
theorem State.busDo_rtcLater {s : State} {m : Master} {a w : Nat} (h : writeTaken s m a w = true)
    (ha : 0x40020000 ≤ a ∧ a < 0x40030000) (h4 : a % 4 = 0) (hr : rtcLateReg a = true) :
    s.busDo m a 4 w = (s.rtcLater a w (s.lockHolds m)).dspSteps :=
  State.busDo_late h (memClass_rtc ha) h4 (by omega) hr

theorem State.rtcAdvance_waiting {s : State} (hr : s.rtc.inReset = false) (hs : s.rtc.stopped = false) {k : Nat} (hk : 0 < k)
    {x : Nat × Nat × Bool} (ht : s.rtc.todo = [x]) : s.rtcAdvance k =
      let t := s.rtcCount 1
      (({ t with rtc := { t.rtc with todo := [] } } : State).rtcTake x).rtcCount (k - 1) := by
  have hrun : ¬(s.rtc.inReset || s.rtc.stopped) = true := by simp [hr, hs]
  have hwait : ¬(k = 0 ∨ s.rtc.todo = []) := by simp [ht]; omega
  exact (if_neg hrun).trans ((if_neg hwait).trans (by rw [ht]; rfl))

theorem State.rtcTake_wake (s : State) (v : Nat) (held : Bool) :
    s.rtcTake (0x40020018, v, held) = s.rtcWake (v % 2 ^ 24) := by
  simp only [State.rtcTake, if_true]

theorem State.rtcTake_ctl (s : State) (v : Nat) (held : Bool) : s.rtcTake (0x4002001C, v, held) =
    let u := if held then s else (s.set RTC_CTL_SYNCSET (bits v 31 31)).set RTC_CTL_BOUND (bits v 15 0)
    if bit v 30 then u.rtcFswClr.attnUpdate else u := by
  simp only [State.rtcTake, if_neg (by decide : ¬(0x4002001C : Nat) = 0x40020018), if_true]

/-- Within a window the edges are counted in one step. -/
theorem rtcEdges_window (written : Int) (fuel k : Nat) (r : RtcSt) (hk : 0 < k) (h : r.edge + k ≤ 2 ^ 20) :
    (rtcEdges written (fuel + 2) k r).trim = if r.edge + k = 2 ^ 20 then written else r.trim := by
  have hmin : min k (2 ^ 20 - r.edge) = k := by omega
  simp only [rtcEdges, if_neg (Nat.ne_of_gt hk), hmin, Nat.sub_self, if_true]

theorem State.rtcCount_trim_within {s : State} {k : Nat} (h : s.rtc.edge + k < 2 ^ 20) :
    (s.rtcCount k).rtc.trim = s.rtc.trim := by
  rcases Nat.eq_zero_or_pos k with rfl | hk
  · rfl
  · exact (rtcEdges_window _ _ _ _ hk (by omega)).trans (if_neg (by omega))

theorem State.rtcCount_trim_end {s : State} {k : Nat} (hk : 0 < k) (h : s.rtc.edge + k = 2 ^ 20) :
    (s.rtcCount k).rtc.trim = max (-511) (sgn 10 (s.get RTC_TRIM_TRIM)) :=
  (rtcEdges_window _ _ _ _ hk (by omega)).trans (if_pos h)

/-- Settles O38: each register by what its write sets in motion or by the tick that it waits for, and the trim by its window. -/
theorem alwaysOnWrites : Obligations.AlwaysOnWrites := by
  intro m w s
  refine ⟨?stage, ?commit, ?trim, fun edges h => ?wake, fun h => ?fswclr, fun hr hs k v held hk =>
    ⟨fun ht => ?wakeTaken, fun ht => ?ctlTaken⟩, fun k => ⟨State.rtcCount_trim_within, State.rtcCount_trim_end⟩⟩
  case stage =>
    exact Writes.of_hook rfl (memClass_rtc (by omega)) (by omega) (by omega) rfl (regHook_rtcSecH _ [] s)
  case commit =>
    exact Writes.of_hook rfl (memClass_rtc (by omega)) (by omega) (by omega) rfl (regHook_rtcSecL _ [] s)
  case trim =>
    exact Writes.of_hook rfl (memClass_rtc (by omega)) (by omega) (by omega) rfl (regHook_rtcTrim _ [] s)
  case wake => exact outcome_next_congr (State.busDo_rtcLater (a := 0x40020018) h (by omega) (by omega) rfl)
  case fswclr => exact outcome_next_congr (State.busDo_rtcLater (a := 0x4002001C) h (by omega) (by omega) rfl)
  case wakeTaken =>
    exact (State.rtcAdvance_waiting hr hs hk ht).trans (congrArg (State.rtcCount · (k - 1)) (State.rtcTake_wake _ v held))
  case ctlTaken =>
    exact (State.rtcAdvance_waiting hr hs hk ht).trans (congrArg (State.rtcCount · (k - 1)) (State.rtcTake_ctl _ v held))

/-! ### Events of the always-on domain (R301, R303–R308, R310) -/

section RtcEvents
variable {s : State} {edges : Nat}

theorem State.rtcSecApply_commits {v : Nat} (hv : (s.rtcAdvance edges).rtc.secVal = some v)
    (hroll : (s.rtcAdvance edges).on RTC_CTL_SYNCSET = true → (s.rtcAdvance edges).rtc.tick % 32768 = 0 ∨
      (0 < (s.rtcAdvance edges).rtc.last ∧ (s.rtcAdvance edges).rtc.tick % 32768 = 1)) :
    s.rtcSecApply edges =
      let u := s.rtcAdvance edges
      let owe := u.rtc.moved (u.on RTC_CTL_SYNCSET)
      let t := ({ u with rtc := { u.rtc with
        tick := v * 32768, run := ((u.rtc.run : Int) - owe).toNat, secVal := none, owe := owe } } : State)
      let t := (t.set RTC_STAT_SETPEND 0).set RTC_STAT_DISC 1
      if u.on RTC_CTL_SYNCSET then t else t.set RTC_STAT_PRELOST 1 := by
  have hgo : ¬((s.rtcAdvance edges).on RTC_CTL_SYNCSET && !(s.rtcAdvance edges).rtc.rolled) = true := by
    cases hs : (s.rtcAdvance edges).on RTC_CTL_SYNCSET
    · exact Bool.false_ne_true
    · simpa [RtcSt.rolled, Decidable.or_iff_not_imp_left] using hroll hs
  simp only [State.rtcSecApply, hv, if_neg hgo]

/-- The wake period restarts at its end, and keeps its phase (R304). -/
def State.wakeNext (s : State) : State :=
  { s with rtc := { s.rtc with wakeBase := s.rtc.wakeBase + s.get RTC_WAKE_WAKE * 128 } }

theorem State.rtcPeriodic_due (hp : 0 < (s.rtcAdvance edges).get RTC_WAKE_WAKE)
    (hd : (s.rtcAdvance edges).rtc.wakeBase + (s.rtcAdvance edges).get RTC_WAKE_WAKE * 128 ≤ (s.rtcAdvance edges).rtc.run) :
    s.rtcPeriodic edges =
      let u := s.rtcAdvance edges
      if u.on RTC_STAT_ONBAT then u.wakeNext.incSat RTC_SWCNT_WMISS
      else
        let t := u.wakeNext.rtcWakeSet RTC_WREASON_PERIODIC
        if u.itg.burst.active then t.set RTC_STAT_WOVR 1 else t := by
  refine if_neg ?_
  simp only [Bool.or_eq_true, decide_eq_true_eq]
  omega

variable (hr : (s.rtcAdvance edges).rtc.inReset = false)
include hr

section OnIo33
variable (hb : (s.rtcAdvance edges).on RTC_STAT_ONBAT = false)
include hb

theorem rtc_in_service : ¬((s.rtcAdvance edges).on RTC_STAT_ONBAT || (s.rtcAdvance edges).rtc.inReset) = true := by
  rw [hb, hr]; exact Bool.false_ne_true

theorem State.rtcHost_wakes : s.rtcHost edges =
    let u := s.rtcAdvance edges
    { u.rtcWakeSet RTC_WREASON_HOST with svc := { u.svc with rxOn := true } } := if_neg (rtc_in_service hr hb)

theorem State.rtcToVbat_switches : s.rtcToVbat edges =
    let u := s.rtcAdvance edges
    let t := (u.set RTC_STAT_ONBAT 1).rtcStamp RTC_LSW_L_TICK RTC_LSW_H_TICK
    let t := if t.on RTC_FSW_H_VALID then t else (t.rtcStamp RTC_FSW_L_TICK RTC_FSW_H_TICK).set RTC_FSW_H_VALID 1
    let t := t.incSat RTC_SWCNT_SWCNT
    { t with rtc := { t.rtc with lock := true } } := if_neg (rtc_in_service hr hb)

theorem State.rtcXofail_stops : s.rtcXofail edges =
    ((({ s.rtcAdvance edges with rtc := { (s.rtcAdvance edges).rtc with stopped := true } } : State).set
      RTC_STAT_XOFAIL 1).set RTC_STAT_DISC 1) := if_neg (rtc_in_service hr hb)

end OnIo33

theorem State.rtcFromVbat_returns (hb : (s.rtcAdvance edges).on RTC_STAT_ONBAT = true) : s.rtcFromVbat edges =
    ((((s.rtcAdvance edges).set RTC_STAT_ONBAT 0).rtcStamp RTC_LRET_L_TICK RTC_LRET_H_TICK).rtcWakeSet RTC_WREASON_BACKUP) :=
  if_neg (by simp [hb, hr])

end RtcEvents

section RtcSupplies
variable {s : State}

theorem State.rtcLeaveReset_held (h : s.rtc.inReset = true) (vbat : Bool) : s.rtcLeaveReset vbat =
    ({ s with rtc := { s.rtc with inReset := false } } : State).setB RTC_STAT_ONBAT vbat := if_neg (by simp [h])

theorem State.rtcVbat_measured (hb : s.on RTC_STAT_ONBAT = false) (hr : s.rtc.inReset = false) (mv10 : Nat) :
    s.rtcVbat mv10 = (s.set RTC_VBAT_MV10 (satN 10 mv10)).setB RTC_STAT_VBATLOW (decide (mv10 < 220)) :=
  if_neg (by simp [hb, hr])

theorem State.rtcLockEnd_ends (hl : s.rtc.lock = true) (hr : s.rtc.inReset = false) (hb : s.on RTC_STAT_ONBAT = false)
    (hp : s.cus.phase ≠ .off) :
    s.rtcLockEnd = State.wakeWaiting { s with rtc := { s.rtc with lock := false } } :=
  if_neg (by simp [hl, hr, hb, hp])

theorem State.wakeWaiting_none (h : s.itg.wakePend = none) : s.wakeWaiting = s := by simp only [State.wakeWaiting, h]

theorem State.wakeWaiting_some {n : Nat} {k : Option Nat} (h : s.itg.wakePend = some (n, k)) :
    s.wakeWaiting = s.custWake n k := by simp only [State.wakeWaiting, h]

end RtcSupplies

/-- Settles O39: the seconds and the period where they are due, each event in the state of the domain where it acts. -/
theorem alwaysOnEvents : Obligations.AlwaysOnEvents := by
  refine ⟨fun edges s => ⟨fun v hv hroll => ?commits, fun hp hd => ⟨fun hb => ?missed, fun hb ha => ?wakes, fun hb ha => ?overlaps⟩⟩,
    fun edges mv10 s => ⟨fun hb hr => ⟨?host, ?toVbat, ?stops⟩, fun hb hr => ?fromVbat, ?reset, fun hr vbat => ?leaves,
      fun hb hr => ?measured, ?returns, fun hl hr hb hp => ⟨fun hw => ?unlocks, fun n k hw => ?writes⟩⟩⟩
  case commits => exact outcome_next_congr (State.rtcSecApply_commits hv hroll)
  case missed => exact outcome_next_congr ((State.rtcPeriodic_due hp hd).trans (if_pos hb))
  case wakes =>
    exact outcome_next_congr ((State.rtcPeriodic_due hp hd).trans
      ((if_neg (ne_true_of_eq_false hb)).trans (if_neg (ne_true_of_eq_false ha))))
  case overlaps =>
    exact outcome_next_congr ((State.rtcPeriodic_due hp hd).trans
      ((if_neg (ne_true_of_eq_false hb)).trans (if_pos ha)))
  case host => exact outcome_next_congr (State.rtcHost_wakes hr hb)
  case toVbat => exact outcome_next_congr (State.rtcToVbat_switches hr hb)
  case stops => exact outcome_next_congr (State.rtcXofail_stops hr hb)
  case fromVbat => exact outcome_next_congr (State.rtcFromVbat_returns hr hb)
  case reset => rfl
  case leaves => exact outcome_next_congr (State.rtcLeaveReset_held hr vbat)
  case measured => exact outcome_next_congr (State.rtcVbat_measured hb hr mv10)
  case returns => rfl
  case unlocks => exact outcome_next_congr ((State.rtcLockEnd_ends hl hr hb hp).trans (State.wakeWaiting_none hw))
  case writes => exact outcome_next_congr ((State.rtcLockEnd_ends hl hr hb hp).trans (State.wakeWaiting_some hw))

/-- Settles O40: each read is of the first register of its group (`State.busGet_latches`). -/
theorem alwaysOnReads : Obligations.AlwaysOnReads := by
  intro m edges s
  refine ⟨fun h => ?tick, fun h => ?sec, fun k => ?stamp⟩
  case tick =>
    exact outcome_next_congr (State.busGet_latches (k := 1) 0 h rfl rfl (by decide) (by decide) rfl rfl
      (by decide))
  case sec =>
    exact outcome_next_congr (State.busGet_latches (k := 2) 0 h rfl rfl (by decide) (by decide) rfl rfl
      (by decide))
  case stamp =>
    fin_cases k <;> intro a h <;>
      exact outcome_next_congr (State.busGet_latches (k := 1) 0 h rfl rfl (by decide) (by decide) rfl rfl (by decide))

end Sys2Proof.Machine

/-! SUPPORT. Supplies (ch. 14): what resets, warnings, BRACE and its ends and the temperature come to, case by case, and the
statements about them (O41, O42, O43). -/

namespace Sys2Proof.Machine

/-! ### Resets and releases (R306, R312, R313, R320, R413) -/

section Resets
variable {s : State}

/-- What the release of a cold start does once nothing holds it (R314, R320). -/
def State.released (t : State) : State :=
  let t := t.coldReset.set SUP_RAIL_PRES 0x3F
  let t := { t with cus := { t.cus with phase := .released }, sup := { t.sup with stableAt := some 0 } }
  let t := if t.sup.pfw then (t.set SUP_STAT_PFW 1).set SUP_STAT_PFWSEEN 1 else t
  if t.sup.pfw || t.sup.io33 then
    let t := t.set SUP_STAT_WARN 1
    { t with sup := { t.sup with cPfw := t.sup.pfw, cIo33 := t.sup.io33, stableAt := none } }
  else t

/-- A cold start is released when the rails are up, `RST_N` is high and neither `VDD_CORE` nor `VDD_IO33` is low. -/
theorem State.coldRelease_eq (s : State) : s.coldRelease =
    if s.sup.powered = true ∧ s.sup.rstLow = false ∧ s.sup.core = false ∧ s.sup.ioShort = false then s.released else s := by
  by_cases h : s.sup.powered = true ∧ s.sup.rstLow = false ∧ s.sup.core = false ∧ s.sup.ioShort = false
  · rw [if_pos h]
    obtain ⟨hp, hr, hc, hi⟩ := h
    exact if_neg (by simp [hp, hr, hc, hi])
  · rw [if_neg h]
    refine if_pos ?_
    simp only [Bool.or_eq_true, Bool.not_eq_true', ← Bool.not_eq_true]
    simp only [← Bool.not_eq_true] at h
    tauto

theorem State.powerUp_rises (hp : s.sup.powered = false) (hr : s.sup.rstLow = false) : s.powerUp =
    ({ s with sup := { s.sup with powered := true, io33 := false, core := false, ioShort := false } } : State).released :=
  (if_neg (ne_true_of_eq_false hp)).trans ((State.coldRelease_eq _).trans (if_pos ⟨rfl, hr, rfl, rfl⟩))

theorem State.powerUp_up (hp : s.sup.powered = true) : s.powerUp = s := if_pos hp

theorem State.rstAssert_high (hr : s.sup.rstLow = false) : s.rstAssert =
    (({ s with sup := { s.sup with rstLow := true } } : State).rtcReason RTC_WREASON_RESET).coldReset :=
  if_neg (ne_true_of_eq_false hr)

theorem State.rstRelease_low (hr : s.sup.rstLow = true) :
    s.rstRelease = ({ s with sup := { s.sup with rstLow := false } } : State).coldRelease := if_neg (by simp [hr])

theorem State.supplyLost_powered (hp : s.sup.powered = true) : s.supplyLost =
    (({ s with sup := { s.sup with powered := false } } : State).rtcReason RTC_WREASON_SUPPLY).coldReset :=
  if_neg (by simp [hp])

theorem State.supplyReset_core_powered (hp : s.sup.powered = true) :
    s.supplyReset true = s.supplyLost.set SUP_RAIL_PRES 0x3E := if_neg (by simp [hp])

theorem State.supplyReset_io33_powered (hp : s.sup.powered = true) :
    s.supplyReset false = ({ s with rtc := { s.rtc with lock := true } } : State).supplyLost := if_neg (by simp [hp])

theorem State.supplyReset_core_down (hp : s.sup.powered = false) : s.supplyReset true = s := if_pos (by simp [hp])

theorem State.supplyReset_io33_down (hp : s.sup.powered = false) :
    s.supplyReset false = { s with rtc := { s.rtc with lock := true } } := if_pos (by simp [hp])

theorem State.railAbsent_powered (hp : s.sup.powered = true) (rail : Nat) :
    s.railAbsent rail = s.supplyLost.set SUP_RAIL_PRES (0x3F - 2 ^ rail) := if_neg (by simp [hp])

theorem State.railAbsent_down (hp : s.sup.powered = false) (rail : Nat) : s.railAbsent rail = s := if_pos (by simp [hp])

end Resets

/-! ### The warning condition (R313–R315) -/

section Warnings
variable {s : State}

theorem State.heldReset_of_reset (h : s.sup.powered = false ∨ s.sup.rstLow = true ∨ s.cus.phase = .off) :
    s.heldReset = true := by
  rcases h with h | h | h <;> simp [State.heldReset, h]

theorem State.heldReset_running (hp : s.sup.powered = true) (hr : s.sup.rstLow = false) (hc : s.cus.phase ≠ .off) :
    s.heldReset = false := by
  simp [State.heldReset, hp, hr, hc]

section InReset
variable (hh : s.heldReset = true)
include hh

theorem State.pfwLow_in_reset : s.pfwLow = { s with sup := { s.sup with pfw := true } } := if_pos hh

theorem State.supplyWarning_core_in_reset (level : Nat) :
    s.supplyWarning true level = { s with sup := { s.sup with core := true } } := if_pos hh

theorem State.supplyWarning_io33_in_reset (level : Nat) : s.supplyWarning false level =
    ({ s with sup := { s.sup with io33 := true, ioShort := decide (level < 295) } } : State).coldRelease := if_pos hh

theorem State.warningEnd_in_reset : s.warningEnd =
    ({ s with sup := { s.sup with pfw := false, io33 := false, core := false, ioShort := false } } : State).coldRelease :=
  if_pos hh

end InReset

section OutsideReset
variable (hh : s.heldReset = false)
include hh

theorem State.pfwLow_running : s.pfwLow =
    ((({ s with sup := { s.sup with pfw := true, cPfw := true } } : State).set SUP_STAT_PFW 1).set
      SUP_STAT_PFWSEEN 1).warned := if_neg (ne_true_of_eq_false hh)

theorem State.supplyWarning_core_running (level : Nat) : s.supplyWarning true level =
    let t := ({ s with sup := { s.sup with core := true, cCore := true } } : State)
    let t := if t.on SUP_STAT_BRACE then t.lowest SUP_MIN_CORE level else t.set SUP_MIN_CORE (min level 1023)
    (t.clrF SUP_RAIL_PRES 1).warned := if_neg (ne_true_of_eq_false hh)

theorem State.supplyWarning_io33_running (level : Nat) : s.supplyWarning false level =
    let t := ({ s with sup := { s.sup with io33 := true, cIo33 := true, ioShort := decide (level < 295) } } : State)
    let t := if t.on SUP_STAT_BRACE then t.lowest SUP_MIN_IO33 level else t.set SUP_MIN_IO33 (min level 1023)
    t.warned := if_neg (ne_true_of_eq_false hh)

theorem State.warningEnd_none (hw : s.on SUP_STAT_WARN = false) : s.warningEnd = s :=
  (if_neg (ne_true_of_eq_false hh)).trans (if_pos (by simp [hw]))

theorem State.warningEnd_ends (hw : s.on SUP_STAT_WARN = true) : s.warningEnd =
    let t := ({ s with sup := { s.sup with pfw := false, io33 := false, core := false, ioShort := false,
                                           stableAt := some s.tim.up, warnEnd := s.tim.up } } : State)
    (((t.set SUP_STAT_WARN 0).set SUP_STAT_PFW 0).orF SUP_RAIL_PRES 1).set SUP_LASTW_SEC 0 :=
  (if_neg (ne_true_of_eq_false hh)).trans (if_neg (by simp [hw]))

end OutsideReset
end Warnings

/-- Settles O41: resets and releases by what holds the part, and warnings in reset by what they keep. -/
theorem supplyResets : Obligations.SupplyResets := by
  intro s
  refine ⟨fun hp hr => ?rises, fun hp => ?up, fun hr => ?low, fun hr => ⟨fun hp hc hi => ?released, fun h => ?held⟩,
    fun hp => ⟨?coreLost, ?io33Lost, fun rail => ?absent⟩, fun hp => ⟨?coreDown, ?io33Down, fun rail => ?absentDown⟩,
    fun core level h => ⟨?pfw, ?warning, ?ends⟩⟩
  case rises => exact outcome_next_congr (State.powerUp_rises hp hr)
  case up => exact outcome_next_congr (State.powerUp_up hp)
  case low => exact outcome_next_congr (State.rstAssert_high hr)
  case released =>
    exact outcome_next_congr ((State.rstRelease_low hr).trans ((State.coldRelease_eq _).trans (if_pos ⟨hp, rfl, hc, hi⟩)))
  case held =>
    refine outcome_next_congr ((State.rstRelease_low hr).trans ((State.coldRelease_eq _).trans (if_neg ?_)))
    rintro ⟨hp, -, hc, hi⟩
    simp only at hp hc hi
    simp [hp, hc, hi] at h
  case coreLost =>
    exact outcome_next_congr ((State.supplyReset_core_powered hp).trans
      (congrArg (State.set · SUP_RAIL_PRES 0x3E) (State.supplyLost_powered hp)))
  case io33Lost =>
    exact outcome_next_congr ((State.supplyReset_io33_powered hp).trans (State.supplyLost_powered (s := { s with rtc := _ }) hp))
  case absent =>
    exact outcome_next_congr ((State.railAbsent_powered hp rail).trans
      (congrArg (State.set · SUP_RAIL_PRES (0x3F - 2 ^ rail.val)) (State.supplyLost_powered hp)))
  case coreDown => exact outcome_next_congr (State.supplyReset_core_down hp)
  case io33Down => exact outcome_next_congr (State.supplyReset_io33_down hp)
  case absentDown => exact outcome_next_congr (State.railAbsent_down hp rail)
  case pfw => exact outcome_next_congr (State.pfwLow_in_reset (State.heldReset_of_reset h))
  case warning =>
    cases core
    · exact outcome_next_congr
        ((State.supplyWarning_io33_in_reset (State.heldReset_of_reset h) level).trans (State.coldRelease_eq _))
    · exact outcome_next_congr (State.supplyWarning_core_in_reset (State.heldReset_of_reset h) level)
  case ends =>
    exact outcome_next_congr ((State.warningEnd_in_reset (State.heldReset_of_reset h)).trans (State.coldRelease_eq _))

theorem State.hotEnd_due {s : State} (he : s.sup.hotEp = true) (hr : s.reached s.sup.hotAt 60000000000 = true) : s.hotEnd =
    ({ s with sup := { s.sup with hotEp := false } } : State).note 0x0103 0x05 2 (uns 12 (satI 12 s.sup.hotMax)) :=
  if_pos (by rw [he, hr]; rfl)

/-- Settles O42: each warning outside reset, its end by whether one stands, and the temperature as it is measured. -/
theorem supplyWarnings : Obligations.SupplyWarnings := by
  intro level q s
  refine ⟨fun hp hr hc => ⟨?pfw, ?core, ?io33, fun hw => ?none⟩, fun hp hr hc hw => ?ends, ?temperature, fun he hr => ?cools⟩
  case pfw => exact outcome_next_congr (State.pfwLow_running (State.heldReset_running hp hr hc))
  case core => exact outcome_next_congr (State.supplyWarning_core_running (State.heldReset_running hp hr hc) level)
  case io33 => exact outcome_next_congr (State.supplyWarning_io33_running (State.heldReset_running hp hr hc) level)
  case none => exact outcome_next_congr (State.warningEnd_none (State.heldReset_running hp hr hc) hw)
  case ends => exact outcome_next_congr (State.warningEnd_ends (State.heldReset_running hp hr hc) hw)
  case temperature => rfl
  case cools => exact outcome_next_congr (State.hotEnd_due he hr)

/-! ### BRACE (R314, R316, R318, R319) -/

theorem State.stableFor_clear {s : State} {a : Nat} (hw : s.on SUP_STAT_WARN = false) (ha : s.sup.stableAt = some a) (ns : Nat) :
    s.stableFor ns = s.reached a ns := by
  simp [State.stableFor, hw, ha]

/-- Settles O43: BRACE begins in a warning without one, and its two ends are one (`State.braceOver`). -/
theorem braceSteps : Obligations.BraceSteps := by
  intro s
  refine ⟨fun hw hb => ?brace, fun hw hb => ?begins, fun hb hw a ha => ⟨fun hl hr => ?short, fun hl hr => ?long⟩, fun long => rfl⟩
  case brace => exact outcome_next_congr (if_pos (by rw [hw, hb]; rfl))
  case begins => exact if_neg (by simp [hw, hb])
  case short =>
    exact outcome_next_congr (if_pos (by rw [hb, State.stableFor_clear hw ha, hr, hl]; rfl))
  case long =>
    exact outcome_next_congr (if_pos (by rw [hb, State.stableFor_clear hw ha, hr, hl]; rfl))

end Sys2Proof.Machine

/-! SUPPORT. The umber record (ch. 15): what a poll of the request ring writes when a slot of it is damaged, against the
statement about it (O44). -/

namespace Sys2Proof.Machine

/-- The types of the entries that wait in the custody core's queue. -/
def State.queueTypes (s : State) : List Nat := s.umb.queue.map (·.typ)

/-- The request that counts next stands in slot 1 of the ring, with type 0x0F00 and level 1; the first word of slot 0 holds a
double-bit error (R21). -/
def requestBesideError : State :=
  ((State.reset.poke 0x80000610 4 0x00010F00).poke 0x8000061C 4 0x01000000).setEcc .nav 0x80000600 true

/-- The poll reads the whole ring before it takes a request, so the entry of the error goes before that of the request. -/
theorem navPoll_requestBesideError : (requestBesideError.navPoll 16).queueTypes = [0x0501, 0x0F00] := by decide +kernel

/-- Refutes O44: its clause of the request ring takes the request before the ring is read, but the poll reads the ring first.
With a double-bit error in slot 0 and the request in slot 1 (`requestBesideError`), the statement puts the entry of the request
in front of that of the error, and the model the other way round. -/
theorem not_umberCommits : ¬ Obligations.UmberCommits := by
  intro h
  obtain ⟨-, -, -, -, -, -, -, -, -, -, hpoll, -⟩ := h .nav 0 0 requestBesideError
  have hqueue := congrArg State.queueTypes (Host.Outcome.next.inj (hpoll 1 (by decide +kernel)))
  exact absurd (navPoll_requestBesideError.symm.trans hqueue) (by decide +kernel)

end Sys2Proof.Machine

/-! SUPPORT. The configuration walk (ch. 16): what its records, its waits and its time-out come to, case by case, and the
statement about them (O45). -/

namespace Sys2Proof.Machine

/-! ### The record under way (R348, R349) -/

section Records
variable {s : State} {op : WalkOp} {act : List Nat → State → State}

theorem State.walkStep_not_walking (h : s.cus.phase ≠ .walk) : s.walkStep op act = s := if_pos (.inl h)

variable (hp : s.cus.phase = .walk) (hw : s.cus.walk.waiting = false)
include hp hw

theorem State.walkStep_walking : s.walkStep op act =
    match s.walkRecord with
    | .error c => s.walkFail c
    | .ok (o, ws) => if o = op then act ws s else s := if_neg (by simp [hp, hw])

theorem State.walkStep_refused {code : Nat} (h : s.walkRecord = .error code) : s.walkStep op act = s.walkFail code := by
  rw [State.walkStep_walking hp hw, h]

theorem State.walkStep_applies {ws : List Nat} (h : s.walkRecord = .ok (op, ws)) : s.walkStep op act = act ws s := by
  rw [State.walkStep_walking hp hw, h]
  exact if_pos rfl

theorem State.walkStep_other {ws : List Nat} {o : WalkOp} (h : s.walkRecord = .ok (o, ws)) (ho : o ≠ op) :
    s.walkStep op act = s := by
  rw [State.walkStep_walking hp hw, h]
  exact if_neg ho

end Records

/-- The commands of the six records, each a step of the walk. -/
theorem exec_walkRecords (s : State) :
    ∀ p ∈ [(WalkOp.wr32, Instr.walkWr32), (.fill, .walkFill), (.load, .walkLoad), (.wait, .walkWait), (.check, .walkCheck),
      (.stop, .walkEnd)],
    ∃ act, exec p.2 s = .next (s.walkStep p.1 act) := by
  simp only [List.forall_mem_cons]
  exact ⟨⟨walkActWr32, rfl⟩, ⟨walkActFill, rfl⟩, ⟨walkActLoad, rfl⟩, ⟨walkActWait, rfl⟩, ⟨walkActCheck, rfl⟩, ⟨walkActEnd, rfl⟩,
    List.forall_mem_nil _⟩

/-- The same, by the commands alone. -/
theorem exec_walkRecord (s : State) :
    ∀ c ∈ [Instr.walkWr32, .walkFill, .walkLoad, .walkWait, .walkCheck, .walkEnd],
    ∃ op act, exec c s = .next (s.walkStep op act) := by
  intro c hc
  obtain ⟨p, hp, rfl⟩ := List.mem_map.mp
    (show c ∈ [(WalkOp.wr32, Instr.walkWr32), (.fill, .walkFill), (.load, .walkLoad), (.wait, .walkWait),
      (.check, .walkCheck), (.stop, .walkEnd)].map (·.2) from hc)
  exact ⟨p.1, exec_walkRecords s p hp⟩

/-! ### What the records do (R349, R350, R358) -/

/-- The words of a record that are to be written: all, or those in the processing domains in a soft start (R358). -/
def State.walkTodo (s : State) (l : List (Nat × Nat)) : List (Nat × Nat) :=
  if s.cus.walk.soft then l.filter fun e => procTarget e.1 else l

theorem State.walkWrites_eq (s : State) (n a len : Nat) (l : List (Nat × Nat)) : s.walkWrites n a len l =
    if !rangeAllowed a len then s.walkFail 0x05
    else if (s.walkTodo l).isEmpty then s.walkNext n false
    else if (s.walkPut (s.walkTodo l)).2 then (s.walkPut (s.walkTodo l)).1.walkNext n true
    else (s.walkPut (s.walkTodo l)).1.walkFail 0x06 := by
  refine if_congr Iff.rfl rfl (if_congr Iff.rfl rfl ?_)
  change (match s.walkPut (s.walkTodo l) with
    | (t, true) => t.walkNext n true
    | (t, false) => t.walkFail 0x06) = _
  rcases s.walkPut (s.walkTodo l) with ⟨t, _ | _⟩ <;> rfl

section Wait
variable {s : State} {ws : List Nat}

theorem walkActWait_bad (h : ws.getD 0 0 % 2 ^ 24 = 0 ∨ ws.getD 1 0 % 4 ≠ 0) : walkActWait ws s = s.walkFail 0x04 := if_pos h

variable (ht : ws.getD 0 0 % 2 ^ 24 ≠ 0) (ha : ws.getD 1 0 % 4 = 0)
include ht ha

theorem walkActWait_forbidden (hm : ws.getD 2 0 ≠ 0) (hf : recordForbidden (ws.getD 1 0) = true) :
    walkActWait ws s = s.walkFail 0x05 :=
  (if_neg fun h => h.elim ht (absurd ha)).trans (if_pos ⟨hm, hf⟩)

variable (hok : ws.getD 2 0 = 0 ∨ recordForbidden (ws.getD 1 0) = false)
include hok

theorem walkActWait_permitted : walkActWait ws s =
    if s.cus.walk.soft then s.walkNext 4 false
    else if ws.getD 2 0 = 0 then
      { s with cus := { s.cus with walk := { s.cus.walk with waiting := true, polls := false } } }
    else
      match s.busRead .loader (ws.getD 1 0) 4 with
      | (s, none) => s.walkFail 0x06
      | (s, some v) =>
        if v &&& ws.getD 2 0 = ws.getD 3 0 then s.walkNext 4 true
        else { s with cus := { s.cus with walk := { s.cus.walk with waiting := true, polls := true } } } :=
  (if_neg fun h => h.elim ht (absurd ha)).trans 
    (if_neg fun ⟨hm, hf⟩ => hok.elim hm fun h => Bool.false_ne_true (h.symm.trans hf))

end Wait

theorem State.walkWaitEnd_waiting {s : State} (hp : s.cus.phase = .walk) (hw : s.cus.walk.waiting = true) :
    s.walkWaitEnd = if s.cus.walk.polls then s.walkFail 0x07 else s.walkNext 4 true := if_neg (by simp [hp, hw])

/-- An outcome chosen by a condition is the outcome of the state chosen by it. -/
theorem next_ite (c : Prop) [Decidable c] (t u : State) :
    (Host.Outcome.next (if c then t else u) : Host.Outcome State Fault Refusal) = if c then .next t else .next u :=
  apply_ite Host.Outcome.next c t u

/-- Settles O45: a record of the walk by what stands at its position (`State.walkStep_applies`), its writes by
`State.walkWrites_eq`. -/
theorem walkRecords : Obligations.WalkRecords := by
  intro s ws code w ofs fail a go writes
  have hwrites : ∀ n a len l, (Host.Outcome.next (s.walkWrites n a len l) : Host.Outcome State Fault Refusal) =
      writes n a len l := by
    intro n a len l
    simp only [s.walkWrites_eq, next_ite]
    rfl
  refine ⟨fun hp c hc => ?idle, fun hp => ?timeout, fun hp hw => ?expiry, fun hp hw => ⟨fun h c hc => ?refused,
    fun op h p hp' ho => ?other, fun h => ?wr32, fun h => ?fill, fun h => ?load, fun h => ⟨fun hb => ?bad,
      fun ht ha hm hf => ?forbidden, fun ht ha hok => ⟨fun hs => ?skipped, fun hs hm => ?timed, fun t v hs hm hr => ?polled⟩⟩,
    fun h t => ⟨fun bs hr => ?checked, fun c hr => ?unread⟩, fun h => ?stop⟩⟩
  case idle =>
    rcases List.mem_append.mp (show c ∈ [Instr.walkWr32, .walkFill, .walkLoad, .walkWait, .walkCheck, .walkEnd] ++
      [.walkWaitExpiry, .walkTimeout] from hc) with hc | hc
    · obtain ⟨op, act, he⟩ := exec_walkRecord s c hc
      exact he.trans (outcome_next_congr (State.walkStep_not_walking hp))
    · rcases List.mem_pair.mp hc with rfl | rfl
      · exact outcome_next_congr (if_pos (.inl hp))
      · exact outcome_next_congr (if_neg hp)
  case timeout => exact outcome_next_congr (if_pos hp)
  case expiry =>
    exact (outcome_next_congr (State.walkWaitEnd_waiting hp hw)).trans (next_ite ..)
  case refused =>
    obtain ⟨op, act, he⟩ := exec_walkRecord s c hc
    exact he.trans (outcome_next_congr (State.walkStep_refused hp hw h))
  case other =>
    obtain ⟨act, he⟩ := exec_walkRecords s p hp'
    exact he.trans (outcome_next_congr (State.walkStep_other hp hw h (Ne.symm ho)))
  case wr32 =>
    refine (outcome_next_congr (State.walkStep_applies hp hw h)).trans ((next_ite ..).trans ?_)
    exact if_congr Iff.rfl rfl (hwrites ..)
  case fill =>
    refine (outcome_next_congr (State.walkStep_applies hp hw h)).trans ((next_ite ..).trans ?_)
    exact if_congr Iff.rfl rfl (hwrites ..)
  case load =>
    refine (outcome_next_congr (State.walkStep_applies hp hw h)).trans ((next_ite ..).trans (if_congr Iff.rfl rfl ?_))
    refine (next_ite ..).trans (if_congr Iff.rfl rfl ((next_ite ..).trans (if_congr Iff.rfl rfl (hwrites ..))))
  case bad => exact outcome_next_congr ((State.walkStep_applies hp hw h).trans (walkActWait_bad hb))
  case forbidden => exact outcome_next_congr ((State.walkStep_applies hp hw h).trans (walkActWait_forbidden ht ha hm hf))
  case skipped =>
    exact outcome_next_congr ((State.walkStep_applies hp hw h).trans ((walkActWait_permitted ht ha hok).trans (if_pos hs)))
  case timed =>
    exact outcome_next_congr ((State.walkStep_applies hp hw h).trans ((walkActWait_permitted ht ha hok).trans
      ((if_neg (ne_true_of_eq_false hs)).trans (if_pos hm))))
  case polled =>
    have hact : walkActWait ws s = if v &&& ws.getD 2 0 = ws.getD 3 0 then t.walkNext 4 true
        else { t with cus := { t.cus with walk := { t.cus.walk with waiting := true, polls := true } } } := by
      rw [walkActWait_permitted ht ha hok, if_neg (ne_true_of_eq_false hs), if_neg hm, hr]
    exact (outcome_next_congr ((State.walkStep_applies hp hw h).trans hact)).trans (next_ite ..)
  case checked =>
    have hact : walkActCheck ws s =
        if sha256 bs = (ws.drop 3).flatMap (leBytes 4) then t.walkNext 11 true else t.walkFail 0x08 := by
      rw [walkActCheck, hr]
    exact (outcome_next_congr ((State.walkStep_applies hp hw h).trans hact)).trans (next_ite ..)
  case unread =>
    have hact : walkActCheck ws s = t.walkFail c := by rw [walkActCheck, hr]
    exact outcome_next_congr ((State.walkStep_applies hp hw h).trans hact)
  case stop =>
    have hact : s.walkStep .stop walkActEnd = s.walkDone := State.walkStep_applies hp hw h
    rw [State.walkDone] at hact
    exact outcome_next_congr hact

end Sys2Proof.Machine

/-! SUPPORT. Starts (ch. 16): what a cold start, a soft start, the mirror's copy and the navigation watchdog come to, case by
case, and the statement about them (O46). -/

namespace Sys2Proof.Machine

/-! ### What the journal leaves of the custody core (R383–R386, R396) -/

/-- A fold of operations that leave the custody core leaves it. -/
theorem foldl_cus {α : Type} (f : State → α → State) (hf : ∀ s x, (f s x).cus = s.cus) (l : List α) (s : State) :
    (l.foldl f s).cus = s.cus :=
  List.foldlRecOn l f (motive := fun t => t.cus = s.cus) rfl fun t ht x _ => (hf t x).trans ht

@[simp] theorem State.attnUpdate_cus (s : State) : s.attnUpdate.cus = s.cus := by
  unfold State.attnUpdate
  dsimp only
  split <;> rfl


@[simp] theorem State.flashPut_cus (s : State) (a : Nat) (bs : List Byte) : (s.flashPut a bs).cus = s.cus := rfl

@[simp] theorem State.flashClear_cus (s : State) (area idx : Nat) : (s.flashClear area idx).cus = s.cus := rfl

@[simp] theorem State.updShow_cus (s : State) : s.updShow.cus = s.cus := by
  unfold State.updShow
  dsimp only
  split <;> rfl

@[simp] theorem State.jrnlRaw_cus (s : State) (et upd : Nat) (body : List Byte) : (s.jrnlRaw et upd body).cus = s.cus := by
  unfold State.jrnlRaw
  dsimp only
  split
  · rfl
  · exact State.updShow_cus _

@[simp] theorem State.jrnlCopy_cus (upd : Nat) (es : List (Nat × List Byte)) (s : State) : (s.jrnlCopy upd es).cus = s.cus := by
  induction es generalizing s with
  | nil => rfl
  | cons e es ih => exact ih _

@[simp] theorem State.jrnlCkpt_cus (s : State) (sector gen : Nat) : (s.jrnlCkpt sector gen).cus = s.cus := by
  simp [State.jrnlCkpt]

@[simp] theorem State.jrnlMove_cus (s : State) : s.jrnlMove.cus = s.cus := by simp [State.jrnlMove]

@[simp] theorem State.jrnlMoveFull_cus (s : State) : s.jrnlMoveFull.cus = s.cus := by
  unfold State.jrnlMoveFull
  dsimp only
  split
  · exact s.jrnlMove_cus
  · rfl

@[simp] theorem State.jrnlPut_cus (s : State) (et upd : Nat) (body : List Byte) : (s.jrnlPut et upd body).cus = s.cus :=
  (State.jrnlMoveFull_cus _).trans (s.jrnlRaw_cus et upd body)

@[simp] theorem State.jrnlErase_cus (s : State) (area idx : Nat) : (s.jrnlErase area idx).cus = s.cus := by
  unfold State.jrnlErase
  dsimp only
  split
  · exact s.jrnlPut_cus _ _ _
  · exact (State.jrnlPut_cus _ _ _ _).trans (s.jrnlPut_cus _ _ _)

@[simp] theorem State.eraseAgain_cus (s : State) (again : List (Nat × Nat)) : (s.eraseAgain again).cus = s.cus :=
  foldl_cus (fun t (i : Nat × Nat) => t.jrnlErase i.1 i.2) (fun t i => t.jrnlErase_cus i.1 i.2) again s

/-- A failure flagged or not, the custody core stands. -/
theorem ite_set_cus (c : Prop) [Decidable c] (s : State) (f : Field) (v : Nat) : (if c then s else s.set f v).cus = s.cus := by
  split <;> rfl

theorem ite_flashClear_cus (c : Prop) [Decidable c] (s : State) (area idx : Nat) :
    (if c then s.flashClear area idx else s).cus = s.cus := by
  split <;> rfl

theorem State.jrnlRecover_cus (s : State) : s.jrnlRecover.cus = s.cus := by
  unfold State.jrnlRecover
  generalize s.jrnlBroken.map (fun b => ((0 : Nat), b)) = broken
  generalize s.jrnlUsed = used
  cases used with
  | none =>
    refine (ite_set_cus _ _ _ _).trans ((State.eraseAgain_cus _ _).trans ((State.jrnlCkpt_cus _ _ _).trans ?_))
    exact ite_flashClear_cus _ _ _ _
  | some kg =>
    exact (ite_set_cus _ _ _ _).trans ((State.eraseAgain_cus _ _).trans
      ((State.jrnlMoveFull_cus _).trans (State.updShow_cus _)))

/-! ### The copy to the active slot (R396) -/

theorem State.copyMiss_cus (s : State) (n : Nat) : (s.copyMiss n).cus = s.cus := State.flashPut_cus _ _ _

theorem State.copySector_cus (s : State) (fail : Option Nat) (n : Nat) : (s.copySector fail n).cus = s.cus := by
  have again (t : State) (c : Prop) [Decidable c] : (if c then (t.copyMiss n).jrnlErase 1 n else t).cus = t.cus := by
    split
    · exact (State.jrnlErase_cus _ _ _).trans (t.copyMiss_cus n)
    · rfl
  unfold State.copySector
  dsimp only
  split
  · exact (State.copyMiss_cus _ n).trans ((again _ _).trans (s.jrnlErase_cus 1 n))
  · exact (State.jrnlPut_cus _ _ _ _).trans ((State.flashPut_cus _ _ _).trans ((again _ _).trans (s.jrnlErase_cus 1 n)))

@[simp] theorem State.noteUpdate_cus (s : State) (stage result : Nat) : (s.noteUpdate stage result).cus = s.cus :=
  State.note_cus _ _ _ _ _ _

/-- A run of sectors copied leaves the custody core. -/
theorem copyRun_cus (fail : Option Nat) (run : List Nat) (s : State) :
    (run.foldl (fun s n => s.copySector fail n) s).cus = s.cus :=
  foldl_cus _ (fun t n => t.copySector_cus fail n) run s

theorem partMap_cus (l : List (List Byte)) (s : State) :
    (l.foldl (fun s b => s.jrnlPut 0x0B s.updId b) s).cus = s.cus :=
  foldl_cus _ (fun t b => t.jrnlPut_cus 0x0B t.updId b) l s

theorem State.copyGo_cus (s : State) : s.copyGo.cus = s.cus := by
  unfold State.copyGo
  split
  · dsimp only
    split_ifs
    · exact (State.noteUpdate_cus _ _ _).trans (copyRun_cus _ _ _)
    · exact (State.jrnlPut_cus _ _ _ _).trans ((State.noteUpdate_cus _ _ _).trans ((partMap_cus _ _).trans (copyRun_cus _ _ _)))
  · rfl

theorem State.activation_cus (s : State) : s.activation.cus = s.cus := by
  unfold State.activation
  split
  · dsimp only
    split_ifs
    · exact (State.jrnlPut_cus _ _ _ _).trans (s.noteUpdate_cus _ _)
    · exact (State.copyGo_cus _).trans (s.jrnlPut_cus _ _ _)
  · rfl

theorem State.pulsesRest_eq (s : State) : s.pulsesRest = s.each 2 fun n t => if (t.tp n).pin = false then t
    else (t.setTp n { t.tp n with pin := false }).emit (.tp n false) := rfl

/-- A part that stops for good: its time pulse outputs return to their reset level (R28, R345). -/
theorem State.startDead_eq (s : State) : s.startDead =
    let t := (s.each 2 fun n t => if (t.tp n).pin = false then t
        else (t.setTp n { t.tp n with pin := false }).emit (.tp n false)).walkReset
    ({ t with cus := { t.cus with phase := .dead }, itg := { t.itg with below := true }, tps := [] } : State).attnUpdate := by
  simp only [State.startDead, State.pulsesRest_eq]

/-! ### Cold starts (R345, R347, R354, R428) -/

section ColdStart
variable (s : State) (x : ColdIn)

/-- The state in which a cold start's ROM checks itself. -/
def State.coldPowered : State :=
  let t := s.rtcAdvance x.edges
  { t with cus := { t.cus with mib := x.mib, blankOk := x.blankOk, copyFail := x.copyFail, copyAgain := x.copyAgain,
                               testEn := x.testEn },
           svc := { t.svc with rxOn := true } }

/-- The state that a cold start has classified the reference in. -/
def State.coldClassified (t : State) : State :=
  let t := t.identity.beforeLock
  (if t.cus.rec_.reloc then t.set ITG_LATCH_RELOC 1 else t).backoff.aonNotes.rfiClassify x.rfi

/-- What a cold start does once it has read the custody record and the identity. -/
def State.coldChecked (t : State) : State :=
  if !t.idOk || x.testEn then t.startDead
  else
    let u := t.coldClassified x
    if u.cus.phase != .pllA then u
    else if x.pllA then u.refOk.pllStartAll.startContinue
    else u.refFail .pllA

theorem State.coldStart_eq : s.coldStart x =
    if s.cus.phase ≠ .released then s
    else if !x.romOk then (s.coldPowered x).startDead
    else ((s.coldPowered x).cusRead.mramRead 0x90708000 20).coldChecked x := by
  delta State.coldStart State.coldChecked State.coldClassified State.coldPowered
  dsimp only

variable {s x}

theorem State.coldStart_not_released (h : s.cus.phase ≠ .released) : s.coldStart x = s := if_pos h

variable (h : s.cus.phase = .released)
include h

theorem State.coldStart_romBad (hr : x.romOk = false) : s.coldStart x = (s.coldPowered x).startDead :=
  (State.coldStart_eq s x).trans ((if_neg (not_not_intro h)).trans (if_pos (by simp [hr])))

theorem State.coldStart_romGood (hr : x.romOk = true) :
    s.coldStart x = ((s.coldPowered x).cusRead.mramRead 0x90708000 20).coldChecked x := by
  rw [State.coldStart_eq, if_neg (not_not_intro h), if_neg (by simp [hr])]

omit h

theorem State.coldChecked_goes {t : State} (hi : t.idOk = true) (ht : x.testEn = false) : t.coldChecked x =
    let u := t.coldClassified x
    if u.cus.phase != .pllA then u
    else if x.pllA then u.refOk.pllStartAll.startContinue
    else u.refFail .pllA := if_neg (by simp [hi, ht])

end ColdStart

/-- The state in which a start that goes on reads the SFDP tables: device time is loaded. -/
def State.startTimed (s : State) : State := (if s.cus.aonDue then s.aonNotes else s).mordantRead.timeLoad

theorem State.startContinue_goes {s : State} (h : s.on SUP_STAT_BRACE = false) : s.startContinue =
    if s.startTimed.sfdp.flashKnown then s.startTimed.sfdp.jrnlRecover.activationCold.attnUpdate.walkActive false
    else s.startTimed.sfdp.flashFault false := if_neg (ne_true_of_eq_false h)

theorem State.flashKnown_iff (s : State) :
    s.flashKnown = true ↔ s.cus.mib = 32 ∨ s.cus.mib = 64 ∨ s.cus.mib = 128 := by
  simp [State.flashKnown, or_assoc]

/-! ### Soft starts (R357, R358) -/

theorem State.softStart_held {s : State} {y : SoftIn}
    (h : s.sup.softDue = 0 ∨ (s.cus.phase ≠ .run ∧ s.cus.phase ≠ .minimum) ∨ s.on SUP_STAT_BRACE = true) :
    s.softStart y = s := by
  refine if_pos ?_
  rcases h with h | ⟨h, h'⟩ | h <;> simp [*]

/-- The state in which a soft start's ROM checks itself. -/
def State.softNoted (s : State) (y : SoftIn) : State :=
  let t := s.rtcAdvance y.edges
  { t with cus := { t.cus with
    mib := y.mib, blankOk := y.blankOk, copyFail := y.copyFail, copyAgain := y.copyAgain,
    nwdog := if bit t.sup.softDue 2 then t.tim.up :: t.cus.nwdog else t.cus.nwdog } }

/-- What a soft start does of an image that its ROM refuses (R345). -/
def State.softRefused (t : State) : State :=
  ((t.sessClose 3).jrnlRun.itgHoldover.umbFlush 300).procReset.custClear

section SoftStart
variable {s : State} {y : SoftIn} (hd : s.sup.softDue ≠ 0) (hp : s.cus.phase = .run) (hb : s.on SUP_STAT_BRACE = false)
include hd hp hb

theorem State.softStart_goes : s.softStart y =
    if y.romOk then (s.softNoted y).softBegin (s.softNoted y).sup.softDue else (s.softNoted y).softRefused.startDead := by
  refine (if_neg (by simp [hd, hp, hb])).trans ?_
  delta State.softNoted State.softRefused
  dsimp only
  split <;> split <;> rfl

theorem State.softStart_romBad (hr : y.romOk = false) : s.softStart y = (s.softNoted y).softRefused.startDead :=
  (State.softStart_goes hd hp hb).trans (if_neg (by simp [hr]))

theorem State.softStart_romGood (hr : y.romOk = true) :
    s.softStart y = (s.softNoted y).softBegin (s.softNoted y).sup.softDue :=
  (State.softStart_goes hd hp hb).trans (if_pos hr)

end SoftStart

/-- The journal's part of a soft start reads the density once (R346): nothing that it does changes it. -/
theorem State.flashKnown_congr {a b : State} (h : a.cus = b.cus) : a.flashKnown = b.flashKnown :=
  congrArg (fun c : CusSt => c.mib == 32 || c.mib == 64 || c.mib == 128) h

theorem State.flashKnown_recovered (t : State) (c : Prop) [Decidable c] :
    (if c then t.jrnlRecover else t).flashKnown = t.flashKnown := by
  split
  · exact State.flashKnown_congr t.jrnlRecover_cus
  · rfl

theorem State.flashKnown_activated (t : State) (c : Prop) [Decidable c] :
    (if c then t.activation else t).attnUpdate.flashKnown = t.flashKnown := by
  refine State.flashKnown_congr ((State.attnUpdate_cus _).trans ?_)
  split
  · exact t.activation_cus
  · rfl

/-- What a soft start comes to once its journal is read, in the terms of the statement. -/
def State.softWalk (t : State) (low keep : Bool) (late cause : Nat) : State :=
  let known := t.flashKnown
  let t := if known then t.jrnlRecover else t
  let t := (if known && bit cause 0 then t.activation else t).attnUpdate
  if low then t.minimumStay
  else if bit cause 2 && decide (4 ≤ late) then t.minimumFall true
  else if !known then t.flashFault true
  else if keep then t.walkMirror true else t.walkActive true

/-- The end of a soft start reads the density once for its journal and its walk. -/
theorem State.softWalk_eq (t : State) (low keep : Bool) (late cause : Nat) : t.softWalk low keep late cause =
    let s := if t.flashKnown then t.jrnlRecover else t
    let s := if s.flashKnown && bit cause 0 then s.activation else s
    let s := s.attnUpdate
    if low then s.minimumStay
    else if bit cause 2 && decide (4 ≤ late) then s.minimumFall true
    else if !s.flashKnown then s.flashFault true
    else if keep then s.walkMirror true
    else s.walkActive true := by
  simp only [State.softWalk, State.flashKnown_activated, State.flashKnown_recovered]

/-- The processing domains reset in a soft start, with the array held (R357). -/
def State.softHeld (s : State) : State :=
  let t := s.softRefused
  { t with fecs := [0, 1, 2, 3].foldl (fun u b => tblSet u b { tblGet u {} b with hold := true }) t.fecs }

/-- The starts for the navigation watchdog in the last hour. -/
def State.softLate (t : State) : Nat := (t.cus.nwdog.filter fun a => decide (t.tim.up < a + 3600 * 10 ^ 9)).length

/-- Whether a soft start walks the mirror. -/
def State.softKeep (t : State) (cause : Nat) : Bool := t.cus.walk.keepMirror || (bit cause 2 && t.softLate == 3)

/-- The custody core restarted in a soft start, up to the SFDP tables. -/
def State.softRestarted (t : State) (cause : Nat) : State :=
  let c := t.cus
  let u := ({ t with
    cus := { rec_ := c.rec_, copyB := c.copyB, nwdog := c.nwdog, mib := c.mib, blankOk := c.blankOk,
             copyFail := c.copyFail, copyAgain := c.copyAgain, nwDone := c.nwDone, reasonDone := c.reasonDone,
             lockFails := c.lockFails, walk := { c.walk with keepMirror := t.softKeep cause } },
    sup := { t.sup with softDue := 0 } } : State).svcRestart.cusRead
  ((((u.set SYS_START_TYPE 1).set SYS_START_CAUSE cause).incSat SYS_START_SOFTCNT).backoff.note 0x0504 0x01 1
    (cause * 2 ^ 72)).aonFlags

theorem State.softBegin_eq (s : State) (cause : Nat) : s.softBegin cause =
    (s.softHeld.softRestarted cause).sfdp.softWalk (s.cus.phase == .minimum) (s.softHeld.softKeep cause) s.softHeld.softLate
      cause := by
  rw [State.softWalk_eq]
  delta State.softBegin State.softRestarted State.softKeep State.softLate State.softHeld State.softRefused
  dsimp only

/-- Settles O46: a cold start, a soft start, the mirror's copy and the watchdog, each by its cases. -/
theorem starts : Obligations.Starts := by
  intro x y m v s dead unread s1 s2 s3
  have hdead (t : State) : dead t = .next t.startDead := congrArg Host.Outcome.next t.startDead_eq.symm
  clear_value dead
  refine ⟨fun h => ?notReleased, fun h => ⟨fun hr => ?romBad, fun hr hd => ?idBad, fun hr hi ht => ⟨fun hp => ?noClass,
    fun hp hl => ?noLock, fun hp hl => ?locked⟩⟩, fun h => ?continues, fun h => ?held, fun hd hp hb => ⟨fun hr => ?softDead,
    fun hr => ?softGoes⟩, fun t => rfl, fun cause => ?begins, fun soft => rfl, fun h => ?noMirror, fun hw hb => ?mirror,
    fun he hp hn hl => ?expires, fun h => ?expiresNot, ?kick⟩
  case notReleased => exact outcome_next_congr (State.coldStart_not_released h)
  case romBad => exact (outcome_next_congr (State.coldStart_romBad h hr)).trans (hdead s2).symm
  case idBad =>
    refine (outcome_next_congr ((State.coldStart_romGood h hr).trans (if_pos ?_))).trans (hdead s3).symm
    rcases hd with hd | hd
    · exact Bool.or_eq_true_iff.2 (.inl (by rw [Bool.not_eq_true']; exact hd))
    · exact Bool.or_eq_true_iff.2 (.inr hd)
  case noClass => exact outcome_next_congr ((State.coldStart_romGood h hr).trans ((State.coldChecked_goes hi ht).trans
    (if_pos (bne_iff_ne.2 hp))))
  case noLock => exact outcome_next_congr ((State.coldStart_romGood h hr).trans ((State.coldChecked_goes hi ht).trans
    ((if_neg fun hne => bne_iff_ne.1 hne hp).trans (if_neg (by simp [hl])))))
  case locked => exact outcome_next_congr ((State.coldStart_romGood h hr).trans ((State.coldChecked_goes hi ht).trans
    ((if_neg fun hne => bne_iff_ne.1 hne hp).trans (if_pos hl))))
  case continues =>
    rw [State.startContinue_goes h]
    exact ite_congr (propext (State.flashKnown_iff _)) (fun _ => rfl) fun _ => rfl
  case held => exact outcome_next_congr (State.softStart_held h)
  case softDead =>
    exact (outcome_next_congr (State.softStart_romBad hd hp hb hr)).trans (hdead (s.softNoted y).softRefused).symm
  case softGoes => exact outcome_next_congr (State.softStart_romGood hd hp hb hr)
  case begins =>
    rw [State.softBegin_eq]
    delta State.softWalk State.sfdp State.flashKnown State.flashFault State.softRestarted State.softKeep State.softLate
      State.softHeld State.softRefused
    dsimp only
  case noMirror =>
    refine outcome_next_congr (if_pos ?_)
    rcases h with h | h <;> simp [h]
  case mirror => exact outcome_next_congr (if_neg (by simp [hw, hb]))
  case expires =>
    refine outcome_next_congr (if_pos ?_)
    rcases hp with hp | ⟨hp, hsoft⟩ <;> simp [*]
  case expiresNot =>
    refine outcome_next_congr (if_neg ?_)
    rcases h with h | h | h
    · simp [h]
    · simp [h]
    · simp [Nat.not_le.2 h]
  case kick =>
    refine Writes.of_hook rfl (memClass_blocks (by omega)) (by omega) (by omega) rfl fun t => ?_
    rw [regHook_navWdog]
    simp only [hookSys, true_and]

end Sys2Proof.Machine

/-! SUPPORT. The custody record, its time-outs and the protected memories (ch. 1, ch. 16), case by case, and the statement about
them (O47). -/

namespace Sys2Proof.Machine

/-! ### The custody record (R345) -/

theorem State.cusRegs_cus (s : State) : s.cusRegs.cus = s.cus := by
  simp only [State.cusRegs, State.setB, State.set2, State.setI2, State.each, State.set_cus]
  rfl

theorem State.cusRegs_mem (s : State) : s.cusRegs.mem = s.mem := by
  simp only [State.cusRegs, State.setB, State.set2, State.setI2, State.each, State.set_mem]
  rfl

section Record
variable {s : State} {r : CustodyRec}

theorem State.cusStore_same (h : { r with gen := s.cus.rec_.gen } = s.cus.rec_) : s.cusStore r = s.cusRegs := if_pos h

theorem State.cusStore_changed (h : { r with gen := s.cus.rec_.gen } ≠ s.cus.rec_) : s.cusStore r =
    let b := !s.cus.copyB
    let r' := { r with gen := s.cus.rec_.gen + 1 }
    let t := s.each 32 fun i t => t.clrEcc .mram (custodyAddr b + 8 * i)
    ({ t.pokes (custodyAddr b) (r'.body ++ leBytes 4 (crc32 r'.body)) with
      cus := { t.cus with rec_ := r', copyB := b } } : State).cusRegs := if_neg h

end Record

/-! ### Sessions and the back-off (R360, R365) -/

theorem State.idleOut_held {s : State}
    (h : s.svcBusy = true ∨ s.cus.reopened = false ∨ s.reached s.cus.cmdAt (1800 * 10 ^ 9) = false) : s.idleOut = s := by
  refine if_pos ?_
  rcases h with h | h | h <;> rw [h] <;> simp

theorem State.idleOut_ends {s : State} (hb : s.svcBusy = false) (hr : s.cus.reopened = true)
    (ht : s.reached s.cus.cmdAt (1800 * 10 ^ 9) = true) : s.idleOut =
    (let t := s.note 0x0707 0x0A 1 (1 * 2 ^ 78 + s.cus.rec_.ctr % 2 ^ 32)
     ((({ t with cus := { t.cus with reopened := false, firstSession := false } } : State).set CUS_IDLE_S 0).cusRegs).attnUpdate) := by
  refine (if_neg (by rw [hb, hr, ht]; simp)).trans ?_
  rw [State.sessEnd, if_pos hr]

/-! ### Protected memories (R21) -/

section Memory
variable {s : State} {m : Master} {a n w : Nat} {k : MemClass}

/-- A double-bit error noted, in the terms of R339 and R340. -/
theorem State.noteEcc_eq (s : State) (k : MemClass) (a : Nat) : s.noteEcc k a =
    (if k = .mram then s.umbDamage a else s).note 0x0501
      (match k with
        | .cluster i => 0x10 + i | .dsp i _ => 0x20 + i | .nav => 2 | .eth => 8 | .sched => 9 | _ => 1) 3
      ((match k with
        | .snap => 0 | .cluster _ => 1 | .dsp _ _ => 2 | .nav => 3 | .cust => 4 | .eth => 5 | .mram => 6
        | .sched => Config.schedMemCode.toNat) * 2 ^ 72 + a % 2 ^ 32) := by
  cases k <;> rfl

theorem State.busGet_denied (h : s.busAllowed m a false = false) : s.busGet m a n = s.busError m a false := by
  simp only [State.busGet, State.busRead, h, Bool.not_false, if_true]

theorem State.busDo_denied (hm : memClass a = some k) (h : s.busAllowed m a true = false ∨ s.memWritable k a = false) :
    s.busDo m a n w = s.busError m a true := by
  refine State.busDo_refused ?_
  rcases h with h | h
  · exact State.busWrite_of_not_allowed h n w
  · simp [State.busWrite, hm, h]

section Read
variable (hok : s.busAllowed m a false = true) (hm : memClass a = some k) (ht : k.takes a n = true)
include hok hm ht

theorem State.busGet_mem : s.busGet m a n =
    match (s.memSettle k).memRead k a n with
    | (t, some _) => t
    | (t, none) => t.busError m a false := by
  simp only [State.busGet, State.busRead, hok, hm, ht, Bool.not_true, Bool.false_eq_true, if_false, if_true] <;> rfl

theorem State.busGet_mem_clean (he : (s.memSettle k).eccOf k a = none) : s.busGet m a n = s.memSettle k := by
  simp only [State.busGet_mem hok hm ht, State.memRead, he]

theorem State.busGet_mem_single (he : (s.memSettle k).eccOf k a = some false) :
    s.busGet m a n = (s.memSettle k).incSat SYS_ECC_CNT_COUNT := by
  simp only [State.busGet_mem hok hm ht, State.memRead, he]

theorem State.busGet_mem_double (he : (s.memSettle k).eccOf k a = some true) :
    s.busGet m a n = ((s.memSettle k).noteEcc k a).busError m a false := by
  simp only [State.busGet_mem hok hm ht, State.memRead, he]

end Read

section Write
variable (hok : s.busAllowed m a true = true) (hw : s.memWritable k a = true) (hm : memClass a = some k)
  (ht : k.takes a n = true)
include hok hw hm ht

theorem State.busDo_mem : s.busDo m a n w =
    match (s.memSettle k).memWrite k a n (w % 2 ^ (8 * n)) with
    | (t, true) => t.dspSteps
    | (t, false) => t.busError m a true := by
  simp only [State.busDo, State.busWrite, hok, hm, ht, hw, Bool.not_true, Bool.false_eq_true, if_false, if_true,
    Bool.and_self] <;> rfl

theorem State.busDo_mem_whole (hn : k.unit ≤ n) :
    s.busDo m a n w = (((s.memSettle k).clrEcc k a).poke a n (w % 2 ^ (8 * n))).dspSteps := by
  simp only [State.busDo_mem hok hw hm ht, State.memWrite, if_pos hn]

variable (hn : n < k.unit)
include hn

theorem State.busDo_mem_clean (he : (s.memSettle k).eccOf k a = none) :
    s.busDo m a n w = ((s.memSettle k).poke a n (w % 2 ^ (8 * n))).dspSteps := by
  simp only [State.busDo_mem hok hw hm ht, State.memWrite, if_neg (Nat.not_le.2 hn), he]

theorem State.busDo_mem_single (he : (s.memSettle k).eccOf k a = some false) : s.busDo m a n w =
    ((((s.memSettle k).incSat SYS_ECC_CNT_COUNT).clrEcc k a).poke a n (w % 2 ^ (8 * n))).dspSteps := by
  simp only [State.busDo_mem hok hw hm ht, State.memWrite, if_neg (Nat.not_le.2 hn), he]

theorem State.busDo_mem_double (he : (s.memSettle k).eccOf k a = some true) :
    s.busDo m a n w = ((s.memSettle k).noteEcc k a).busError m a true := by
  simp only [State.busDo_mem hok hw hm ht, State.memWrite, if_neg (Nat.not_le.2 hn), he]

end Write
end Memory

/-- Settles O47: the record's store, each time-out, and an access by what its unit holds. -/
theorem custodyTimes : Obligations.CustodyTimes := by
  intro m s
  refine ⟨fun r h => ?same, fun r h => ?changed, ?rest⟩
  case same =>
    rw [State.cusStore_same h]
    exact ⟨rfl, s.cusRegs_mem, s.cusRegs_cus⟩
  case changed => exact State.cusStore_changed h
  intro halfHour
  refine ⟨fun h => ?idles, fun hb hr ht => ?idleEnds, rfl, rfl, fun k a size w up hm ht => ?access⟩
  case idles => exact outcome_next_congr (State.idleOut_held h)
  case idleEnds => exact outcome_next_congr (State.idleOut_ends hb hr ht)
  intro v u n c src double put
  have hdouble : double = u.noteEcc k a := (State.noteEcc_eq u k a).symm
  refine ⟨fun hok => ⟨fun he => ?clean, fun he => ?single, fun he => ?double⟩, fun hok hw => ⟨fun hn => ?whole,
    fun hn he => ?part, fun hn he => ?partSingle, fun hn he => ?partDouble⟩, fun h => ?writeDenied, fun h => ?readDenied⟩
  case clean => exact outcome_next_congr (State.busGet_mem_clean hok hm ht he)
  case single => exact outcome_next_congr (State.busGet_mem_single hok hm ht he)
  case double => rw [hdouble]; exact outcome_next_congr (State.busGet_mem_double hok hm ht he)
  case whole => exact outcome_next_congr (State.busDo_mem_whole hok hw hm ht hn)
  case part => exact outcome_next_congr (State.busDo_mem_clean hok hw hm ht hn he)
  case partSingle => exact outcome_next_congr (State.busDo_mem_single hok hw hm ht hn he)
  case partDouble => rw [hdouble]; exact outcome_next_congr (State.busDo_mem_double hok hw hm ht hn he)
  case writeDenied => exact outcome_next_congr (State.busDo_denied hm h)
  case readDenied => exact outcome_next_congr (State.busGet_denied h)

end Sys2Proof.Machine

/-! SUPPORT. The service link (ch. 17): what a frame received, an acknowledgement owed and the timers come to, case by case, the
balance of the window, and the statement about them (O48). -/

namespace Sys2Proof.Machine

/-! ### Frames received (R370–R373) -/

section Receive
variable {s : State} {bs : List Byte} {f : SvcFrame}

theorem State.svcReceive_stopped (h : s.svcAlive = false) (only : Bool) : s.svcReceive bs only = s :=
  if_pos (by simp [h])

variable (ha : s.svcAlive = true) (hb : bs ≠ [])
include ha hb

theorem State.svcReceive_undecoded (hd : svcDecode bs = none) (only : Bool) :
    s.svcReceive bs only = s.incSat SVC_CNT_ERR_COUNT := by
  refine (if_neg (by simp [ha, hb])).trans ?_
  simp only [hd]

theorem State.svcReceive_decoded (hd : svcDecode bs = some f) {only : Bool} (ho : only = false ∨ f.typ = 0) :
    s.svcReceive bs only = (s.svcFrameIn f).attnUpdate := by
  refine (if_neg (by simp [ha, hb])).trans ?_
  simp only [hd]
  exact if_neg (by rcases ho with h | h <;> simp [h])

end Receive

section Frames
variable {s : State} {f : SvcFrame}

theorem State.svcFrameIn_steady (hp : s.svc.probing = false) : s.svcFrameIn f =
    if f.typ = 1 then s.svcHelloIn f else if s.get SVC_STAT_LINK = 0 then s
    else if f.typ = 0 then s.svcAckOnly f else s.svcDataIn f := by
  simp only [State.svcFrameIn, hp, Bool.false_eq_true, if_false]

/-- How far a frame lies behind the one expected (R371). -/
def State.svcBehind (s : State) (f : SvcFrame) : Nat := (s.get SVC_SEQ_RXEXP + 65536 - f.seq) % 65536

theorem State.svcDataIn_expected (h : s.svcBehind f = 0) : s.svcDataIn f =
    let t := ({ s with svc := { s.svc with cmds := s.svc.cmds ++ [(f.typ, f.seq, f.payload)] } } : State).set
      SVC_SEQ_RXEXP (s.get SVC_SEQ_RXEXP + 1)
    let t := ({ t with svc := { t.svc with ackDue := true } } : State).svcAckIn f.ack
    if f.poll then t.svcAck else t := by
  have hnear : ¬8 < (s.get SVC_SEQ_RXEXP + 65536 - f.seq) % 65536 := by simp only [State.svcBehind] at h; omega
  have hnow : (s.get SVC_SEQ_RXEXP + 65536 - f.seq) % 65536 = 0 := h
  exact (if_neg hnear).trans (by rw [if_pos hnow])

theorem State.svcDataIn_duplicate (h0 : 0 < s.svcBehind f) (h8 : s.svcBehind f ≤ 8) : s.svcDataIn f =
    let t := ({ s with svc := { s.svc with ackDue := true } } : State).svcAckIn f.ack
    if f.poll then t.svcAck else t := by
  have hbehind : (s.get SVC_SEQ_RXEXP + 65536 - f.seq) % 65536 ≠ 0 := Nat.ne_of_gt h0
  exact (if_neg (Nat.not_lt.2 h8)).trans (by rw [if_neg hbehind])

theorem State.svcDataIn_unseen (h : 8 < s.svcBehind f) : s.svcDataIn f = s := if_pos h

end Frames

/-! ### Acknowledgements, the timer, the rate (R371, R372, R374) -/

theorem State.svcAckDelay_alive {s : State} (ha : s.svcAlive = true) :
    s.svcAckDelay = if s.svc.ackDue then s.svcSend 0 (s.get SVC_SEQ_TXSEQ) [] else s := by
  simp only [State.svcAckDelay, ha, Bool.true_and, State.svcAck]

theorem State.svcResend_eq (l : List (Nat × Nat × List Byte)) (s : State) : s.svcResend l =
    l.foldl (fun t x => (t.incSat SVC_CNT_RETX_COUNT).svcSend x.1 x.2.1 x.2.2) s := by
  induction l generalizing s with
  | nil => rfl
  | cons x l ih => exact ih _

section Expiry
variable {s : State}

theorem State.svcExpiry_idle (h : s.svcAlive = false ∨ s.svc.unacked = []) : s.svcExpiry = s :=
  if_pos (by rcases h with h | h <;> simp [h])

variable (ha : s.svcAlive = true) (hu : s.svc.unacked ≠ [])
include ha hu

theorem State.svcExpiry_resends (he : s.svc.expiries < 25) : s.svcExpiry =
    s.svc.unacked.foldl (fun t x => (t.incSat SVC_CNT_RETX_COUNT).svcSend x.1 x.2.1 x.2.2)
      { s with svc := { s.svc with expiries := s.svc.expiries + 1 } } :=
  (if_neg (by simp [ha, hu])).trans ((if_neg (by omega)).trans (State.svcResend_eq _ _))

theorem State.svcExpiry_down (he : 25 ≤ s.svc.expiries) : s.svcExpiry = s.svcDown.attnUpdate :=
  (if_neg (by simp [ha, hu])).trans (if_pos (by omega))

end Expiry

theorem State.svcRateOut_stopped {s : State} (h : s.svcAlive = false) : s.svcRateOut = s := if_neg (by simp [h])

theorem State.svcRateOut_alive {s : State} (h : s.svcAlive = true) :
    s.svcRateOut = if s.svc.probing then s.svcDown.attnUpdate else s := by
  simp only [State.svcRateOut, h, Bool.true_and]

/-! ### The window's balance (R371, R439) -/

/-- `INFLIGHT` counts the frames not acknowledged and makes 8 with `WFREE`. -/
def State.windowBalanced (s : State) : Prop :=
  s.get SVC_STAT_INFLIGHT = s.svc.unacked.length ∧ s.get SVC_STAT_INFLIGHT + s.get SVC_STAT_WFREE = 8

/-- The window's registers set for `n` frames not acknowledged, with what else a response sets. -/
theorem window_set_get {s : State} (hs : regsRise s = true) {n : Nat} (hn : n ≤ 8) (q : Nat) :
    let t := ((s.set SVC_STAT_INFLIGHT n).set SVC_STAT_WFREE (8 - n)).set SVC_SEQ_TXSEQ q
    t.get SVC_STAT_INFLIGHT = n ∧ t.get SVC_STAT_WFREE = 8 - n := by
  intro t
  have hin : t.get SVC_STAT_INFLIGHT = n := by
    rw [State.set_get_ne _ _ (by decide), State.set_get_ne _ _ (by decide), State.set_get _ _ _ hs]
    exact Nat.mod_eq_of_lt (Nat.lt_of_le_of_lt hn (by decide))
  have hfree : t.get SVC_STAT_WFREE = 8 - n := by
    rw [State.set_get_ne _ _ (by decide), State.set_get _ _ _ (State.set_regsRise _ _ hs)]
    exact Nat.mod_eq_of_lt (Nat.lt_of_le_of_lt (Nat.sub_le 8 n) (by decide))
  exact ⟨hin, hfree⟩

theorem State.svcSend_windowBalanced {s : State} (typ seq : Nat) (p : List Byte) (h : s.windowBalanced) :
    (s.svcSend typ seq p).windowBalanced := h

/-- One response sent while the window is open. -/
theorem State.svcPump_step {s : State} {typ : Nat} {p : List Byte} {rest : List (Nat × List Byte)}
    (hw : s.svc.waiting = (typ, p) :: rest) (h8 : s.svc.unacked.length < 8) (n : Nat) : s.svcPump (n + 1) =
    let un := s.svc.unacked ++ [(typ, s.get SVC_SEQ_TXSEQ, p)]
    let t := ({ s with svc := { s.svc with waiting := rest, unacked := un } } : State)
    let t := ((t.set SVC_STAT_INFLIGHT un.length).set SVC_STAT_WFREE (8 - un.length)).set SVC_SEQ_TXSEQ
      (s.get SVC_SEQ_TXSEQ + 1)
    (t.svcSend typ (s.get SVC_SEQ_TXSEQ) p).svcPump n := by
  simp only [State.svcPump, hw]
  exact if_neg (Nat.not_le.2 h8)

theorem State.svcPump_full {s : State} (h : s.svc.waiting = [] ∨ 8 ≤ s.svc.unacked.length) (n : Nat) : s.svcPump n = s := by
  cases n with
  | zero => rfl
  | succ n =>
    simp only [State.svcPump]
    split
    · rfl
    · next hw => exact if_pos (h.resolve_left (by simp [hw]))

theorem State.svcPump_windowBalanced {s : State} (hs : regsRise s = true) (h : s.windowBalanced) (k : Nat) :
    (s.svcPump k).windowBalanced := by
  induction k generalizing s with
  | zero => exact h
  | succ k ih =>
    by_cases hfull : s.svc.waiting = [] ∨ 8 ≤ s.svc.unacked.length
    · rwa [State.svcPump_full hfull]
    · rw [not_or, Nat.not_le] at hfull
      obtain ⟨hw, h8⟩ := hfull
      obtain ⟨⟨typ, p⟩, rest, hw⟩ := List.exists_cons_of_ne_nil hw
      rw [State.svcPump_step hw h8]
      refine ih (State.set_regsRise _ _ (State.set_regsRise _ _ (State.set_regsRise _ _ hs))) ?_
      refine State.svcSend_windowBalanced _ _ _ ?_
      have hlen : (s.svc.unacked ++ [(typ, s.get SVC_SEQ_TXSEQ, p)]).length ≤ 8 := by simpa using h8
      obtain ⟨hin, hfree⟩ := window_set_get (s := { s with svc := { s.svc with
        waiting := rest, unacked := s.svc.unacked ++ [(typ, s.get SVC_SEQ_TXSEQ, p)] } }) hs hlen (s.get SVC_SEQ_TXSEQ + 1)
      exact ⟨hin, by rw [hin, hfree, Nat.add_sub_cancel' hlen]⟩

theorem State.svcClear_windowBalanced {s : State} (hs : regsRise s = true) : s.svcClear.windowBalanced := by
  have hsets (t : State) (hrise : regsRise t = true) (hun : t.svc.unacked = []) :
      ((((t.set SVC_STAT_INFLIGHT 0).set SVC_STAT_WFREE 8).set SVC_SEQ_TXSEQ 0).set SVC_SEQ_RXEXP 0).windowBalanced := by
    obtain ⟨hin, hfree⟩ := window_set_get hrise (Nat.zero_le 8) 0
    have hin' := (State.set_get_ne _ 0 (show SVC_SEQ_RXEXP.key ≠ SVC_STAT_INFLIGHT.key by decide)).trans hin
    have hfree' := (State.set_get_ne _ 0 (show SVC_SEQ_RXEXP.key ≠ SVC_STAT_WFREE.key by decide)).trans hfree
    exact ⟨hin'.trans (by simp [hun]), by rw [hin', hfree']⟩
  exact hsets _ hs rfl

/-- Settles O48: a frame by its kind and its place, the timers by what they meet, and the window's balance by responses sent. -/
theorem serviceLink : Obligations.ServiceLink := by
  intro bs f s down e back owing ackNow
  refine ⟨fun hn => ?stopped, fun ha => ⟨fun hb hd => ?undecoded, fun hb hd hp => ⟨fun ht => ?hello, fun ht hl => ?linkDown,
    fun ht h0 hl => ⟨fun h => ?expected, fun hlo hhi => ?duplicate, fun h => ?unseen⟩, fun ht hl => ?ackOnly⟩, ?ackOwed,
    fun hu => ?nothing, fun hu he => ?resends, fun hu he => ?expires, ?rate⟩, fun hs => ⟨fun h k => ?pumped, ?cleared,
    fun h ha => ?acked⟩⟩
  case stopped =>
    simp only [List.forall_mem_cons]
    exact ⟨outcome_next_congr (State.svcReceive_stopped hn _), outcome_next_congr (State.svcReceive_stopped hn _),
      outcome_next_congr (if_neg (by simp [hn])), outcome_next_congr (State.svcExpiry_idle (.inl hn)),
      outcome_next_congr (State.svcRateOut_stopped hn), List.forall_mem_nil _⟩
  case undecoded => exact outcome_next_congr (State.svcReceive_undecoded ha hb hd _)
  case hello =>
    refine outcome_next_congr ((State.svcReceive_decoded ha hb hd (.inl rfl)).trans (congrArg State.attnUpdate ?_))
    exact (State.svcFrameIn_steady hp).trans (if_pos ht)
  case linkDown =>
    refine outcome_next_congr ((State.svcReceive_decoded ha hb hd (.inl rfl)).trans (congrArg State.attnUpdate ?_))
    exact (State.svcFrameIn_steady hp).trans ((if_neg ht).trans (if_pos hl))
  case expected =>
    refine outcome_next_congr ((State.svcReceive_decoded ha hb hd (.inl rfl)).trans (congrArg State.attnUpdate ?_))
    rw [State.svcFrameIn_steady hp, if_neg ht, if_neg hl, if_neg h0, State.svcDataIn_expected h]
  case duplicate =>
    refine outcome_next_congr ((State.svcReceive_decoded ha hb hd (.inl rfl)).trans (congrArg State.attnUpdate ?_))
    rw [State.svcFrameIn_steady hp, if_neg ht, if_neg hl, if_neg h0, State.svcDataIn_duplicate hlo hhi]
  case unseen =>
    refine outcome_next_congr ((State.svcReceive_decoded ha hb hd (.inl rfl)).trans (congrArg State.attnUpdate ?_))
    rw [State.svcFrameIn_steady hp, if_neg ht, if_neg hl, if_neg h0, State.svcDataIn_unseen h]
  case ackOnly =>
    refine outcome_next_congr ((State.svcReceive_decoded ha hb hd (.inr ht)).trans (congrArg State.attnUpdate ?_))
    rw [State.svcFrameIn_steady hp, if_neg (by omega), if_neg hl, if_pos ht]
    rfl
  case ackOwed => exact outcome_next_congr (State.svcAckDelay_alive ha)
  case nothing => exact outcome_next_congr (State.svcExpiry_idle (.inr hu))
  case resends => exact outcome_next_congr (State.svcExpiry_resends ha hu he)
  case expires => exact outcome_next_congr (State.svcExpiry_down ha hu he)
  case rate => exact outcome_next_congr (State.svcRateOut_alive ha)
  case pumped => exact State.svcPump_windowBalanced hs h k
  case cleared => exact State.svcClear_windowBalanced hs
  case acked =>
    refine ⟨_, outcome_next_congr (State.svcAckDelay_alive ha), ?_⟩
    split
    · exact State.svcSend_windowBalanced _ _ _ h
    · exact h

end Sys2Proof.Machine

/-! SUPPORT. What all service commands share (ch. 17): how one is taken, what its checks answer, and the statement about the checks
(O49). -/

namespace Sys2Proof.Machine

/-! ### A command taken (R373, R376) -/

section Take
variable {s : State} {known : Nat → Bool} {act : List Byte → Nat → State → State × SvcDone}

/-- With no command waiting, or while the port does not run, no command is taken. -/
theorem State.svcTake_none (h : s.svc.cmds = [] ∨ s.svcAlive = false) : s.svcTake known act = s := by
  unfold State.svcTake
  split
  · rfl
  · next hc => exact if_pos (by simp [h.resolve_left (by simp [hc])])

/-- While another command is in execution, none but `HELLO` is taken. -/
theorem State.svcTake_busy (hb : s.svcBusy = true) (h : ∀ x ∈ s.svc.cmds, x.1 ≠ 1) : s.svcTake known act = s := by
  unfold State.svcTake
  split
  · rfl
  · next code seq p rest hc =>
    have hcode : code ≠ 1 := h _ (hc ▸ List.mem_cons_self)
    exact if_pos (by simp [hb, hcode])

variable {code seq : Nat} {p : List Byte} {rest : List (Nat × Nat × List Byte)} (hr : SvcReady s code seq p rest)
  (hk : known code = true)
include hr hk

/-- The command in front, with a code that is named, is executed. -/
theorem State.svcTake_ready : s.svcTake known act =
    match act p seq (svcBegun s rest) with
    | (t, .answer st fields) => (t.svcRespond code seq st fields).attnUpdate
    | (t, .later) => t.attnUpdate := by
  obtain ⟨hc, ha, hb⟩ := hr
  have hgo : ¬(!s.svcAlive || !known code || (s.svcBusy && code != 1)) = true := by
    rcases hb with hb | rfl <;> simp [*]
  simp only [State.svcTake, hc, if_neg hgo] <;> rfl

variable {c : Instr} (hx : exec c s = .next (s.svcTake known act)) {t : State}
include hx

/-- A command that is answered at once. -/
theorem exec_svc_answers {st : Nat} {fields : List Byte} (h : act p seq (svcBegun s rest) = (t, .answer st fields)) :
    exec c s = svcAnswer t code seq st fields := by
  rw [hx, State.svcTake_ready hr hk, h]
  rfl

/-- A command that runs on. -/
theorem exec_svc_later (h : act p seq (svcBegun s rest) = (t, .later)) : exec c s = .next t.attnUpdate := by
  rw [hx, State.svcTake_ready hr hk, h]

end Take

/-! ### The checks in common (R362, R376–R378) -/

section Gate
variable {s : State} {bad owner brace : Bool} {act : State → State × SvcDone}

theorem State.svcGate_badarg (h : bad = true) : s.svcGate bad owner brace act = s.says 0x03 := if_pos h

theorem State.svcGate_class (hb : bad = false) (ho : owner = true) (h : s.sealedNow = true) :
    s.svcGate bad owner brace act = s.says 0x02 := (if_neg (by simp [hb])).trans (if_pos (by simp [ho, h]))

theorem State.svcGate_brace (hb : bad = false) (ho : owner = true → s.sealedNow = false) (hr : brace = true)
    (h : s.on SUP_STAT_BRACE = true) : s.svcGate bad owner brace act = s.says 0x05 :=
  (if_neg (by simp [hb])).trans ((if_neg (by simpa using ho)).trans (if_pos (by simp [hr, h])))

theorem State.svcGate_passes (hb : bad = false) (ho : owner = true → s.sealedNow = false)
    (hr : brace = true → s.on SUP_STAT_BRACE = false) : s.svcGate bad owner brace act = act s :=
  (if_neg (by simp [hb])).trans ((if_neg (by simpa using ho)).trans (if_neg (by simpa using hr)))

section Passes
variable (hb : bad = false)
include hb

theorem State.svcGate_open (ho : s.sealedNow = false) : s.svcGate bad true false act = act s :=
  State.svcGate_passes hb (fun _ => ho) fun h => absurd h Bool.false_ne_true

theorem State.svcGate_calm (hr : s.on SUP_STAT_BRACE = false) : s.svcGate bad false true act = act s :=
  State.svcGate_passes hb (fun h => absurd h Bool.false_ne_true) fun _ => hr

theorem State.svcGate_openCalm (ho : s.sealedNow = false) (hr : s.on SUP_STAT_BRACE = false) :
    s.svcGate bad true true act = act s := State.svcGate_passes hb (fun _ => ho) fun _ => hr

end Passes
end Gate

/-- What the checks of a command answer, when its action is gated so: `good` says that its payload is. -/
theorem svc_checks {s : State} {c : Instr} {code seq : Nat} {p : List Byte} {rest : List (Nat × Nat × List Byte)}
    {act : List Byte → Nat → State → State × SvcDone} {bad good owner brace : Bool} {body : State → State × SvcDone}
    (hx : exec c s = .next (s.svcTake (fun k => k == code) act))
    (hact : ∀ t, act p seq t = t.svcGate bad owner brace body) (hbad : bad = !good) (hr : SvcReady s code seq p rest) :
    (good = false → exec c s = svcAnswer (svcBegun s rest) code seq 0x03 []) ∧
    (good = true → owner = true → s.sealedNow = true → exec c s = svcAnswer (svcBegun s rest) code seq 0x02 []) ∧
    (good = true → (owner = true → s.sealedNow = false) → brace = true → s.on SUP_STAT_BRACE = true →
      exec c s = svcAnswer (svcBegun s rest) code seq 0x05 []) := by
  have hk : (fun k => k == code) code = true := beq_self_eq_true code
  refine ⟨fun h => ?_, fun h ho hs => ?_, fun h ho hb hs => ?_⟩
  · exact exec_svc_answers (known := fun k => k == code) hr hk hx ((hact _).trans (State.svcGate_badarg (by simp [hbad, h])))
  · exact exec_svc_answers (known := fun k => k == code) hr hk hx ((hact _).trans (State.svcGate_class (by simp [hbad, h]) ho hs))
  · exact exec_svc_answers (known := fun k => k == code) hr hk hx ((hact _).trans (State.svcGate_brace (by simp [hbad, h]) ho hb hs))

/-- A length that is refused unless it is the one named. -/
theorem length_bad (n k : Nat) : (n != k) = !decide (n = k) := rfl

/-- Settles O49: every command's action stands behind one gate, and the gate answers. -/
theorem serviceChecks : Obligations.ServiceChecks := by
  intro ok seq p rest s
  refine ⟨?table, fun hr hn => ?hello, fun code hr hc => ?unknown, ?idle⟩
  case table =>
    repeat rw [List.forall_mem_cons]
    refine ⟨svc_checks rfl (fun _ => rfl) (length_bad _ _), svc_checks rfl (fun _ => rfl) (length_bad _ _),
      svc_checks rfl (fun _ => rfl) (length_bad _ _), svc_checks rfl (fun _ => rfl) ?writeReg,
      svc_checks rfl (fun _ => rfl) ?readUmber, svc_checks rfl (fun _ => rfl) ?put,
      svc_checks rfl (fun _ => rfl) (length_bad _ _), svc_checks rfl (fun _ => rfl) (length_bad _ _),
      svc_checks rfl (fun _ => rfl) (length_bad _ _), svc_checks rfl (fun _ => rfl) (length_bad _ _),
      svc_checks rfl (fun _ => rfl) ?sealing, svc_checks rfl (fun _ => rfl) (length_bad _ _),
      svc_checks rfl (fun _ => rfl) (length_bad _ _), svc_checks rfl (fun _ => rfl) ?cluster,
      svc_checks rfl (fun _ => rfl) ?group, svc_checks rfl (fun _ => rfl) (length_bad _ _), List.forall_mem_nil _⟩
    all_goals
      rw [Bool.eq_iff_iff]
      simp <;> omega
  case hello => exact exec_svc_answers hr rfl rfl (if_pos (.inl hn))
  case unknown => exact exec_svc_answers hr (by simpa using hc) rfl rfl
  case idle =>
    have hidle {c : Instr} {known act} (hx : exec c s = .next (s.svcTake known act)) :
        (s.svc.cmds = [] ∨ s.svcAlive = false → exec c s = .next s) ∧
          (s.svcBusy = true → (∀ x ∈ s.svc.cmds, x.1 ≠ 1) → exec c s = .next s) :=
      ⟨fun h => hx.trans (congrArg _ (State.svcTake_none h)), fun hb h => hx.trans (congrArg _ (State.svcTake_busy hb h))⟩
    simp only [List.map_cons, List.map_nil, List.cons_append, List.nil_append, List.forall_mem_cons]
    exact ⟨hidle rfl, hidle rfl, hidle rfl, hidle rfl, hidle rfl, hidle rfl, hidle rfl, hidle rfl, hidle rfl, hidle rfl,
      hidle rfl, hidle rfl, hidle rfl, hidle rfl, hidle rfl, hidle rfl, hidle rfl, hidle rfl, hidle rfl, List.forall_mem_nil _⟩

end Sys2Proof.Machine

/-! SUPPORT. `READ_REG` and `WRITE_REG` (R379): what they do over the words they reach, and the statement about them (O51). -/

namespace Sys2Proof.Machine

/-! ### Words read one after another -/

/-- Words that all read well give their octets in order. -/
theorem svcWords_reads (v : Nat → Nat) (n : Nat) : ∀ (st : Nat → State) (a : Nat),
    (∀ i < n, (st i).busRead .svc (a + 4 * i) 4 = (st (i + 1), some (v i))) →
    (st 0).svcWords n a = (st n, some ((List.range n).flatMap fun i => leBytes 4 (v i))) := by
  induction n generalizing v with
  | zero => intro st a _; rfl
  | succ n ih =>
    intro st a h
    have hnext (i : Nat) : a + 4 + 4 * i = a + 4 * (i + 1) := by omega
    have hrest := ih (fun i => v (i + 1)) (fun i => st (i + 1)) (a + 4) fun i hi => by
      rw [hnext]; exact h (i + 1) (Nat.succ_lt_succ hi)
    have hfirst : (st 0).busRead .svc a 4 = (st 1, some (v 0)) := h 0 (Nat.zero_lt_succ n)
    simp only [State.svcWords, hfirst, hrest, List.range_succ_eq_map, List.flatMap_cons, List.flatMap_map]

/-- The first word that raises a bus error ends the reading. -/
theorem svcWords_error (v : Nat → Nat) (k : Nat) : ∀ (n : Nat) (st : Nat → State) (a : Nat), k < n →
    (∀ i < k, (st i).busRead .svc (a + 4 * i) 4 = (st (i + 1), some (v i))) →
    (st k).busRead .svc (a + 4 * k) 4 = (st (k + 1), none) → (st 0).svcWords n a = (st (k + 1), none) := by
  induction k generalizing v with
  | zero =>
    intro n st a hn _ he
    obtain ⟨n, rfl⟩ := Nat.exists_eq_add_one.2 hn
    simp only [State.svcWords, show (st 0).busRead .svc a 4 = (st 1, none) from he]
  | succ k ih =>
    intro n st a hn h he
    obtain ⟨n, rfl⟩ := Nat.exists_eq_add_one.2 (Nat.zero_lt_of_lt hn)
    have hnext (i : Nat) : a + 4 + 4 * i = a + 4 * (i + 1) := by omega
    have hrest := ih (fun i => v (i + 1)) n (fun i => st (i + 1)) (a + 4) (Nat.lt_of_succ_lt_succ hn)
      (fun i hi => by rw [hnext]; exact h (i + 1) (Nat.succ_lt_succ hi)) (by rw [hnext]; exact he)
    simp only [State.svcWords, show (st 0).busRead .svc a 4 = (st 1, some (v 0)) from h 0 (Nat.zero_lt_succ k), hrest]

/-! ### A word written -/

/-- A word written over a whole protected unit is taken. -/
theorem State.memWrite_whole {s : State} {k : MemClass} {a n v : Nat} (h : k.unit ≤ n) :
    s.memWrite k a n v = ((s.clrEcc k a).poke a n v, true) := if_pos h

/-- The memories of longer units take no writes. -/
theorem State.unit_of_memWritable {s : State} {k : MemClass} {a : Nat} (h : s.memWritable k a = true) : k.unit ≤ 4 := by
  cases k with
  | mram => cases h
  | snap => exact Nat.zero_le 4
  | eth => exact Nat.le_of_ble_eq_true rfl
  | _ => exact Nat.le_refl 4

/-- The write of a word is taken, or it changes nothing. -/
theorem State.busWrite_word (s : State) (m : Master) (a w : Nat) (eyes : List (Option (Fin 64))) :
    s.busWrite m a 4 w eyes = (s, false) ∨ (s.busWrite m a 4 w eyes).2 = true := by
  unfold State.busWrite
  split
  · exact .inl rfl
  split
  next k hk =>
    split
    next hw =>
      simp only [Bool.and_eq_true] at hw
      exact .inr (by rw [State.memWrite_whole (State.unit_of_memWritable hw.2)])
    · exact .inl rfl
  next hk =>
    split
    · exact .inl rfl
    split
    · unfold State.broadcast
      dsimp only
      split
      · exact .inl rfl
      · exact .inr rfl
    split
    · exact .inl rfl
    · exact .inr rfl

/-! ### The commands past their checks -/

section Access
variable {s : State} {p : List Byte} {seq : Nat}

theorem svcActReadReg_bad (h : p.length ≠ 5 ∨ payN p 0 4 % 4 ≠ 0 ∨ payN p 4 1 = 0) : svcActReadReg p seq s = s.says 0x03 := by
  unfold svcActReadReg
  exact State.svcGate_badarg (by simpa [or_assoc] using h)

theorem svcActWriteReg_bad (h : p.length ≠ 8 ∨ payN p 0 4 % 4 ≠ 0) : svcActWriteReg p seq s = s.says 0x03 := by
  unfold svcActWriteReg
  exact State.svcGate_badarg (by simpa using h)

theorem svcActReadReg_passes (hl : p.length = 5) (ha : payN p 0 4 % 4 = 0) (hn : payN p 4 1 ≠ 0)
    (hq : s.sealedNow = false ∨ ∀ i < payN p 4 1, classQ (payN p 0 4 + 4 * i) = true) : svcActReadReg p seq s =
    match s.svcWords (payN p 4 1) (payN p 0 4) with
    | (s, none) => s.says 0x01
    | (s, some bs) => (s, .answer 0 bs) := by
  unfold svcActReadReg
  refine State.svcGate_passes (by simp [hl, ha, hn]) (fun hown => ?_) fun h => absurd h Bool.false_ne_true
  refine hq.resolve_right fun h => ?_
  rw [Bool.not_eq_true'] at hown
  exact ne_true_of_eq_false hown (List.all_eq_true.2 fun i hi => h i (List.mem_range.1 hi))

theorem svcActWriteReg_passes (hl : p.length = 8) (ha : payN p 0 4 % 4 = 0) (ho : s.sealedNow = false) :
    svcActWriteReg p seq s =
    match s.busWrite .svc (payN p 0 4) 4 (payN p 4 4) with
    | (s, true) => s.dspSteps.says 0
    | (s, false) => s.says 0x01 := by
  unfold svcActWriteReg
  exact State.svcGate_open (by simp [hl, ha]) ho

end Access

/-- Settles O51: the checks, the words read one after another, and the word written. -/
theorem serviceRegisters : Obligations.ServiceRegisters := by
  intro seq p rest s t a n
  have hsealed : t.sealedNow = s.sealedNow := rfl
  refine ⟨fun hr h => ?readBad, fun hr h => ?writeBad, fun hr hl ha hn hq st v h0 => ⟨fun h => ?reads, fun k hk h he => ?error⟩,
    fun hr hl ha ho => ⟨fun hw => ?written, fun hw => ?refused⟩⟩
  case readBad => exact exec_svc_answers hr rfl rfl (svcActReadReg_bad h)
  case writeBad => exact exec_svc_answers hr rfl rfl (svcActWriteReg_bad h)
  case reads =>
    refine exec_svc_answers hr rfl rfl ((svcActReadReg_passes (s := t) hl ha hn hq).trans ?_)
    rw [← h0, svcWords_reads v n st a h]
  case error =>
    refine exec_svc_answers hr rfl rfl ((svcActReadReg_passes (s := t) hl ha hn hq).trans ?_)
    rw [← h0, svcWords_error v k n st a hk h he]
    rfl
  case written =>
    refine exec_svc_answers hr rfl rfl ((svcActWriteReg_passes (s := t) hl ha ho).trans ?_)
    rw [show t.busWrite .svc a 4 (payN p 4 4) = ((t.busWrite .svc a 4 (payN p 4 4)).1, true) from Prod.ext rfl hw]
    rfl
  case refused =>
    refine exec_svc_answers hr rfl rfl ((svcActWriteReg_passes (s := t) hl ha ho).trans ?_)
    rw [(State.busWrite_word t .svc a (payN p 4 4) []).resolve_right (ne_true_of_eq_false hw)]
    rfl

end Sys2Proof.Machine

/-! SUPPORT. Sessions and custody over the service port (R360–R365, R373, R374, R377, R380, R381): what each command does past its
checks, and the statement about them (O50). -/

namespace Sys2Proof.Machine

section Custody
variable {s : State} {p : List Byte} {seq : Nat}

/-! ### `HELLO` and `CLOSE` -/

/-- The fields of `HELLO-ACK` (R373). -/
def State.helloFields (s : State) (p : List Byte) : List Byte :=
  leBytes 1 1 ++ leBytes 1 0xB1 ++ leBytes 1 (s.get CUS_STAT_STATE) ++ leBytes 1 8 ++
    leBytes 4 (svcRate (s.aligned 0) (payN p 4 4)) ++ leBytes 4 s.pcap ++ beBytes 16 s.part.ident ++ leBytes 2 1024

/-- The session opened (R373). -/
def State.sessOpened (s : State) : State := (s.set SVC_STAT_SESSION 1).orF SVC_IRQ_IRQ 2

section Hello
variable (hn : p.length = 12) (hv : payN p 0 1 = 1) (hz : payN p 8 4 = 0)
include hn hv hz

theorem svcActHello_good : svcActHello p seq s =
    let b := svcRate (s.aligned 0) (payN p 4 4)
    (if b = s.sessOpened.get SVC_BAUD_BAUD then s.sessOpened
      else ({ s.sessOpened with svc := { s.sessOpened.svc with newBaud := some b } } : State).svcLink 2,
     .answer 0 (s.helloFields p)) := by
  unfold svcActHello
  rw [if_neg (by simp [hn, hv, hz])]
  rfl

theorem svcActHello_rate (hb : svcRate (s.aligned 0) (payN p 4 4) = s.sessOpened.get SVC_BAUD_BAUD) :
    svcActHello p seq s = (s.sessOpened, .answer 0 (s.helloFields p)) := by
  rw [svcActHello_good hn hv hz]
  exact congrArg (·, _) (if_pos hb)

theorem svcActHello_newRate (hb : svcRate (s.aligned 0) (payN p 4 4) ≠ s.sessOpened.get SVC_BAUD_BAUD) :
    svcActHello p seq s =
      (({ s.sessOpened with svc := { s.sessOpened.svc with newBaud := some (svcRate (s.aligned 0) (payN p 4 4)) } } : State).svcLink 2,
       .answer 0 (s.helloFields p)) := by
  rw [svcActHello_good hn hv hz]
  exact congrArg (·, _) (if_neg hb)

end Hello

theorem svcActClose_good (hn : p.length = 0) : svcActClose p seq s =
    ({ s.runJournalled with svc := { s.runJournalled.svc with closeAt := some s.runJournalled.svcNextSeq } }, .answer 0 []) := by
  unfold svcActClose
  exact State.svcGate_passes (by simp [hn]) (fun h => absurd h Bool.false_ne_true) fun h => absurd h Bool.false_ne_true

/-! ### Challenge and response (R364, R365) -/

section Challenge
variable (hn : p.length = 0) (hc : s.on SUP_STAT_BRACE = false)
include hn hc

theorem svcActChallenge_calm : svcActChallenge p seq s =
    if !s.cus.rec_.sealed_ then s.says 0x07
    else if s.on CUS_STAT_BACKOFF then (s, .answer 0x08 (leBytes 2 (s.get CUS_BOFF_S)))
    else
      let s := s.cusStore { s.cus.rec_ with ctr := s.cus.rec_.ctr + 1 }
      let r := s.draw (2 ^ 128)
      let s := r.1
      let s := ({ s with cus := { s.cus with chal := some r.2, chalAt := s.tim.up } }).cusRegs
      (s, .answer 0 (beBytes 16 r.2 ++ leBytes 8 s.cus.rec_.ctr)) := by
  unfold svcActChallenge
  exact State.svcGate_calm (by simp [hn]) hc

theorem svcActChallenge_unsealed (hs : s.cus.rec_.sealed_ = false) : svcActChallenge p seq s = s.says 0x07 :=
  (svcActChallenge_calm hn hc).trans (if_pos (by simp [hs]))

variable (hs : s.cus.rec_.sealed_ = true)
include hs

theorem svcActChallenge_waits (hb : s.on CUS_STAT_BACKOFF = true) :
    svcActChallenge p seq s = (s, .answer 0x08 (leBytes 2 (s.get CUS_BOFF_S))) :=
  (svcActChallenge_calm hn hc).trans ((if_neg (by simp [hs])).trans (if_pos hb))

theorem svcActChallenge_issues (hb : s.on CUS_STAT_BACKOFF = false) : svcActChallenge p seq s =
    let u := s.cusStore { s.cus.rec_ with ctr := s.cus.rec_.ctr + 1 }
    let v := (u.draw (2 ^ 128)).1
    let nonce := (u.draw (2 ^ 128)).2
    let w := ({ v with cus := { v.cus with chal := some nonce, chalAt := v.tim.up } } : State).cusRegs
    (w, .answer 0 (beBytes 16 nonce ++ leBytes 8 w.cus.rec_.ctr)) :=
  (svcActChallenge_calm hn hc).trans ((if_neg (by simp [hs])).trans (if_neg (ne_true_of_eq_false hb)))

end Challenge

section Response
variable (hn : p.length = 32) (hc : s.on SUP_STAT_BRACE = false)
include hn hc

theorem svcActAuth_none (h : s.cus.chal = none) : svcActAuth p seq s = s.says 0x09 := by
  unfold svcActAuth
  rw [State.svcGate_calm (by simp [hn]) hc, h]

variable {nonce : Nat} (h : s.cus.chal = some nonce)
include h

theorem svcActAuth_some : svcActAuth p seq s =
    if !s.cus.rec_.sealed_ || decide (s.cus.chalAt + 60 * 10 ^ 9 < s.tim.up) then s.says 0x09 else s.authTry nonce p := by
  unfold svcActAuth
  rw [State.svcGate_calm (by simp [hn]) hc, h]

theorem svcActAuth_void (ht : s.cus.chalAt + 60 * 10 ^ 9 < s.tim.up) : svcActAuth p seq s = s.says 0x09 :=
  (svcActAuth_some hn hc h).trans (if_pos (by simp only [ht, decide_true, Bool.or_true]))

variable (hs : s.cus.rec_.sealed_ = true) (ht : s.tim.up ≤ s.cus.chalAt + 60 * 10 ^ 9)
include hs ht

theorem svcActAuth_tries : svcActAuth p seq s = s.authTry nonce p :=
  (svcActAuth_some hn hc h).trans (if_neg (by simp only [hs, decide_eq_false (Nat.not_lt.2 ht)]; decide))

end Response

/-- The right response reopens the part (R364). -/
theorem State.authTry_right {nonce : Nat} (hp : p = s.authWanted nonce) : s.authTry nonce p =
    let u := ({ s with cus := { s.cus with chal := none } } : State)
    let v := u.cusStore { s.cus.rec_ with fail := 0 }
    (((({ v with cus := { v.cus with reopened := true } } : State).cusRegs).backoff.noteAuth true), .answer 0 []) :=
  if_pos (beq_iff_eq.2 hp)

/-- Another response is a failure (R365). -/
theorem State.authTry_wrong {nonce : Nat} (hp : p ≠ s.authWanted nonce) : s.authTry nonce p =
    let u := ({ s with cus := { s.cus with chal := none } } : State)
    ((u.cusStore { s.cus.rec_ with fail := min 255 (s.cus.rec_.fail + 1) }).backoff.noteAuth false, .answer 0x0A []) :=
  if_neg fun h => hp (beq_iff_eq.1 h)

/-! ### Seal and unseal (R361) -/

section Seal
variable (hn : p.length = 36) (h3 : payN p 32 1 ≤ 3) (hz : payN p 33 3 = 0) (ho : s.sealedNow = false)
  (hc : s.on SUP_STAT_BRACE = false)
include hn h3 hz ho hc

theorem svcActSeal_open : svcActSeal p seq s =
    if beNat (p.take 32) = 0 then s.says 0x0B
    else if !s.cus.walk.clean then s.says 0x0C
    else if bit (payN p 32 1) 0 && !s.sealable then s.says 0x0D
    else
      let s := s.sealGo (beNat (p.take 32)) (bit (payN p 32 1) 0) (bit (payN p 32 1) 1)
      (s, .answer 0 (beBytes 32 s.cus.rec_.sdig)) := by
  unfold svcActSeal
  exact State.svcGate_openCalm (by simp [hn, h3, hz]) ho hc

theorem svcActSeal_noKey (hk : beNat (p.take 32) = 0) : svcActSeal p seq s = s.says 0x0B :=
  (svcActSeal_open hn h3 hz ho hc).trans (if_pos hk)

variable (hk : beNat (p.take 32) ≠ 0)
include hk

theorem svcActSeal_notClean (hw : s.cus.walk.clean = false) : svcActSeal p seq s = s.says 0x0C :=
  (svcActSeal_open hn h3 hz ho hc).trans ((if_neg hk).trans (if_pos (by simp [hw])))

variable (hw : s.cus.walk.clean = true)
include hw

theorem svcActSeal_position (hp : bit (payN p 32 1) 0 = true) (hs : s.sealable = false) :
    svcActSeal p seq s = s.says 0x0D :=
  (svcActSeal_open hn h3 hz ho hc).trans ((if_neg hk).trans ((if_neg (by simp [hw])).trans (if_pos (by simp [hp, hs]))))

theorem svcActSeal_seals (hp : bit (payN p 32 1) 0 = true → s.sealable = true) {r : CustodyRec} {first was : Bool}
    {digest : Nat} (hr : s.cus.rec_ = r) (hf : s.cus.firstSession = first) (hd : s.cus.walk.digest = digest)
    (hre : s.cus.reopened = was) : svcActSeal p seq s =
    let pos := bit (payN p 32 1) 0
    let u := ({ s with cus := { s.cus with firstSession := first || !r.first, reopened := false } } : State)
    let v := u.cusStore { r with
      sealed_ := true, posv := pos, ulock := bit (payN p 32 1) 1, pendv := false, first := true, fail := 0,
      key := beNat (p.take 32), sdig := digest, spos := if pos then s.posInUse.getD (0, 0, 0) else (0, 0, 0) }
    let v := v.backoff.note 0x0704 0x01 1 (b2n pos * 2 ^ 79 + digest8 digest)
    let v := if was then ({ v with cus := { v.cus with reopened := true } } : State).sessEnd 0 else v
    (v.winPermit, .answer 0 (beBytes 32 v.winPermit.cus.rec_.sdig)) := by
  subst hr hf hd hre
  refine (svcActSeal_open hn h3 hz ho hc).trans ((if_neg hk).trans ((if_neg (by simp [hw])).trans
    ((if_neg (by simpa using hp)).trans ?_)))
  delta State.sealGo
  dsimp only

end Seal

section OpenCalm
variable (ho : s.sealedNow = false) (hc : s.on SUP_STAT_BRACE = false)
include ho hc

theorem svcActUnseal_open (hn : p.length = 0) : svcActUnseal p seq s =
    if !s.cus.rec_.sealed_ then s.says 0
    else
      let d := digest8 s.cus.rec_.sdig
      let s := { s with cus := { s.cus with reopened := false, chal := none } }
      let s := s.cusStore { s.cus.rec_ with sealed_ := false, posv := false, ulock := false, pendv := false, key := 0,
                                            sdig := 0, pdig := 0, spos := (0, 0, 0) }
      (((s.set CUS_IDLE_S 0).note 0x0705 0x01 1 d).winPermit).says 0 := by
  unfold svcActUnseal
  exact State.svcGate_openCalm (by simp [hn]) ho hc

theorem svcActUnseal_unsealed (hn : p.length = 0) (hs : s.cus.rec_.sealed_ = false) : svcActUnseal p seq s = s.says 0 :=
  (svcActUnseal_open ho hc hn).trans (if_pos (by simp [hs]))

theorem svcActUnseal_unseals (hn : p.length = 0) (hs : s.cus.rec_.sealed_ = true) : svcActUnseal p seq s =
    let u := ({ s with cus := { s.cus with reopened := false, chal := none } } : State)
    let v := u.cusStore { s.cus.rec_ with sealed_ := false, posv := false, ulock := false, pendv := false, key := 0, sdig := 0,
                                          pdig := 0, spos := (0, 0, 0) }
    (((v.set CUS_IDLE_S 0).note 0x0705 0x01 1 (digest8 s.cus.rec_.sdig)).winPermit, .answer 0 []) :=
  (svcActUnseal_open ho hc hn).trans (if_neg (by simp [hs]))

theorem svcActClearFsw_open (hn : p.length = 0) : svcActClearFsw p seq s =
    (s.custFswClr.note 0x070A 0x0A 1 (s.get2 RTC_FSW_L_TICK RTC_FSW_H_TICK * 2 ^ 32),
     .answer 0 (leBytes 4 (s.get RTC_FSW_L_TICK) ++
      leBytes 4 (s.get RTC_FSW_H_VALID * 2 ^ 31 + s.get RTC_FSW_H_TICK))) := by
  unfold svcActClearFsw
  exact State.svcGate_openCalm (by simp [hn]) ho hc

/-- The slots of a range read and judged (R380). -/
theorem svcActReadUmber_open (hn : p.length = 9) (h1 : 1 ≤ payN p 8 1) (h31 : payN p 8 1 ≤ 31) : svcActReadUmber p seq s =
    let first := payN p 0 8
    let k := payN p 8 1
    let u := (s.slotsIn first k).foldl (fun v i => v.slotTouch i) s
    let ks := (u.slotsIn first k).filter fun i => u.slotValid i
    (u, .answer 0 (leBytes 8 first ++ leBytes 1 k ++ leBytes 3 0 ++
      leBytes 4 ((List.range k).foldl (fun m i => if ks.any fun j => u.slotSeq j == some (first + i) then m else m + 2 ^ i) 0) ++
      ks.flatMap fun i => u.bytesAt (slotAddr i) 32)) := by
  unfold svcActReadUmber
  refine State.svcGate_openCalm ?_ ho hc
  simp [hn, h31]
  omega

end OpenCalm
end Custody

/-- Settles O50: each command by its checks and what it does past them. -/
theorem serviceCustody : Obligations.ServiceCustody := by
  intro seq p rest s t r open_ calm n
  refine ⟨fun hr hn hv hz => ⟨fun hb => ?hello, fun hb => ?helloRate⟩, fun hr hn => ?close,
    fun hr hn hc => ⟨fun hs => ?unsealed, fun hs hb => ?waits, fun hs hb => ?issues⟩,
    fun hr hn hc => ⟨fun h => ?noChallenge, fun nonce h => ⟨fun ht => ?void, fun hs ht hp => ?right, fun hs ht hp => ?wrong⟩⟩,
    fun hr hn h3 hz ho hc => ⟨fun hk => ?noKey, fun hk hw => ?notClean, fun hk hw hp hs => ?position, fun hk hw hp => ?seals⟩,
    fun hr hn ho hc => ⟨fun hs => ?wasOpen, fun hs => ?unseals⟩, fun hr hn ho hc => ?clearFsw,
    fun hr hn h1 h31 ho hc => ?readUmber⟩
  case hello => exact exec_svc_answers hr rfl rfl (svcActHello_rate (s := t) hn hv hz hb)
  case helloRate => exact exec_svc_answers hr rfl rfl (svcActHello_newRate (s := t) hn hv hz hb)
  case close => exact exec_svc_answers hr rfl rfl (svcActClose_good (s := t) hn)
  case unsealed => exact exec_svc_answers hr rfl rfl (svcActChallenge_unsealed (s := t) hn hc hs)
  case waits => exact exec_svc_answers hr rfl rfl (svcActChallenge_waits (s := t) hn hc hs hb)
  case issues => exact exec_svc_answers hr rfl rfl (svcActChallenge_issues (s := t) hn hc hs hb)
  case noChallenge => exact exec_svc_answers hr rfl rfl (svcActAuth_none (s := t) hn hc h)
  case void => exact exec_svc_answers hr rfl rfl (svcActAuth_void (s := t) hn hc h ht)
  case right =>
    exact exec_svc_answers hr rfl rfl ((svcActAuth_tries (s := t) hn hc h hs ht).trans (State.authTry_right (s := t) hp))
  case wrong =>
    exact exec_svc_answers hr rfl rfl ((svcActAuth_tries (s := t) hn hc h hs ht).trans (State.authTry_wrong (s := t) hp))
  case noKey => exact exec_svc_answers hr rfl rfl (svcActSeal_noKey (s := t) hn h3 hz ho hc hk)
  case notClean => exact exec_svc_answers hr rfl rfl (svcActSeal_notClean (s := t) hn h3 hz ho hc hk hw)
  case position => exact exec_svc_answers hr rfl rfl (svcActSeal_position (s := t) hn h3 hz ho hc hk hw hp hs)
  case seals =>
    have hact := svcActSeal_seals (s := t) (seq := seq) hn h3 hz ho hc hk hw hp
      (r := s.cus.rec_) (first := s.cus.firstSession) (was := s.cus.reopened) (digest := s.cus.walk.digest) rfl rfl rfl rfl
    have hdone := exec_svc_answers (c := .sealPart) hr rfl rfl hact
    dsimp only at hdone ⊢
    with_reducible exact hdone
  case wasOpen => exact exec_svc_answers hr rfl rfl (svcActUnseal_unsealed (s := t) ho hc hn hs)
  case unseals => exact exec_svc_answers hr rfl rfl (svcActUnseal_unseals (s := t) ho hc hn hs)
  case clearFsw => exact exec_svc_answers hr rfl rfl (svcActClearFsw_open (s := t) ho hc hn)
  case readUmber => exact exec_svc_answers hr rfl rfl (svcActReadUmber_open (s := t) ho hc hn h1 h31)

end Sys2Proof.Machine

/-! SUPPORT. Field updates over the service port (R376, R390–R396): what each command does past its checks, the end of a long
command, and the statement about them (O52). -/

namespace Sys2Proof.Machine

section Updates
variable {s : State} {p : List Byte} {seq : Nat} {ok : Bool}

/-- A refusal of a command of updates, with its entry (R396). -/
theorem exec_svc_fails {c : Instr} {known : Nat → Bool} {act : List Byte → Nat → State → State × SvcDone} {code stage st upd : Nat}
    {rest : List (Nat × Nat × List Byte)} (hr : SvcReady s code seq p rest) (hk : known code = true)
    (hx : exec c s = .next (s.svcTake known act))
    (h : act p seq (svcBegun s rest) = (svcBegun s rest).updFails stage upd st) : exec c s =
      svcAnswer ((svcBegun s rest).note 0x0708 0x01 1 (stage * 2 ^ 72 + st % 256 * 2 ^ 64 + upd)) code seq st [] :=
  exec_svc_answers hr hk hx h

/-! ### `PUT_OBJECT` (R390) -/

/-- What a `PUT_OBJECT` past its checks on a usable flash comes to, by the transfer that is open. -/
def State.putGo (s : State) (ok : Bool) (p : List Byte) (seq : Nat) : State × SvcDone :=
  let upd := payN p 0 8
  let total := payN p 8 4
  let ofs := payN p 12 4
  let data := p.drop 16
  let j := s.svc.jrnl
  let mine := match j.open_ with | some (u, _) => u == upd | none => false
  if s.putRange total ofs data.length || (mine && j.open_ != some (upd, total)) then s.updFails 1 upd 0x0F
  else if mine && j.actreq then s.updFails 1 upd 0x06
  else if !mine && j.ended.contains upd then s.updFails 1 upd 0x0E
  else if !mine && j.open_.isSome then s.updFails 1 upd 0x06
  else
    let s := if mine then s else s.putOpen upd total
    ({ s with svc := { s.svc with long := some (0x20, seq, BitVec.ofNat 8 (b2n ok) :: p) } }, .later)

section Put
variable (h17 : 17 ≤ p.length) (h784 : p.length ≤ 784) (ho : s.sealedNow = false) (hc : s.on SUP_STAT_BRACE = false)
include h17 h784 ho hc

theorem svcActPut_open : svcActPut ok p seq s =
    if !s.flashUsable then s.updFails 1 (payN p 0 8) 0x1A else s.putGo ok p seq := by
  unfold svcActPut
  exact (State.svcGate_openCalm (by simp [h17, h784]) ho hc).trans rfl

theorem svcActPut_unusable (hf : s.flashUsable = false) : svcActPut ok p seq s = s.updFails 1 (payN p 0 8) 0x1A :=
  (svcActPut_open h17 h784 ho hc).trans (if_pos (by simp [hf]))

theorem svcActPut_usable (hf : s.flashUsable = true) : svcActPut ok p seq s = s.putGo ok p seq :=
  (svcActPut_open h17 h784 ho hc).trans (if_neg (by simp [hf]))

end Put

/-- The rules on offset, length and total that a `PUT_OBJECT` breaks (R390). -/
def State.putBreaks (s : State) (p : List Byte) : Prop :=
  payN p 12 4 % 256 ≠ 0 ∨ ((p.drop 16).length % 256 ≠ 0 ∧ payN p 12 4 + (p.drop 16).length ≠ payN p 8 4) ∨ payN p 8 4 < 640 ∨
    s.slotSize < payN p 8 4 + 2097152 ∨ payN p 8 4 < payN p 12 4 + (p.drop 16).length

theorem State.putRange_iff : s.putRange (payN p 8 4) (payN p 12 4) (p.drop 16).length = true ↔ s.putBreaks p := by
  simp only [State.putRange, State.putBreaks, Bool.or_eq_true, Bool.and_eq_true, bne_iff_ne, decide_eq_true_eq, or_assoc]

section PutGo

theorem State.putGo_range (h : s.putBreaks p) : s.putGo ok p seq = s.updFails 1 (payN p 0 8) 0x0F :=
  if_pos (by rw [State.putRange_iff.2 h]; rfl)

theorem State.putGo_otherTotal {n : Nat} (hj : s.svc.jrnl.open_ = some (payN p 0 8, n)) (hn : n ≠ payN p 8 4) :
    s.putGo ok p seq = s.updFails 1 (payN p 0 8) 0x0F :=
  if_pos (by simp [hj, hn])

variable (hb : ¬s.putBreaks p)
include hb

theorem putRange_false : s.putRange (payN p 8 4) (payN p 12 4) (p.drop 16).length = false :=
  Bool.eq_false_iff.2 fun h => hb (State.putRange_iff.1 h)

theorem State.putGo_activating (hj : s.svc.jrnl.open_ = some (payN p 0 8, payN p 8 4)) (ha : s.svc.jrnl.actreq = true) :
    s.putGo ok p seq = s.updFails 1 (payN p 0 8) 0x06 := by
  simp only [State.putGo, putRange_false hb, hj]
  simp [ha]

theorem State.putGo_ended (hj : s.svc.jrnl.open_ = none) (he : payN p 0 8 ∈ s.svc.jrnl.ended) :
    s.putGo ok p seq = s.updFails 1 (payN p 0 8) 0x0E := by
  simp only [State.putGo, putRange_false hb, hj]
  simp [he]

theorem State.putGo_beside {u n : Nat} (hj : s.svc.jrnl.open_ = some (u, n)) (hu : u ≠ payN p 0 8) :
    s.putGo ok p seq = s.updFails 1 (payN p 0 8) (if payN p 0 8 ∈ s.svc.jrnl.ended then 0x0E else 0x06) := by
  simp only [State.putGo, putRange_false hb, hj]
  by_cases he : payN p 0 8 ∈ s.svc.jrnl.ended <;> simp [hu, he]

theorem State.putGo_opens (hj : s.svc.jrnl.open_ = none) (he : payN p 0 8 ∉ s.svc.jrnl.ended) : s.putGo ok p seq =
    let v := (s.jrnlPut 0x03 (payN p 0 8) (leBytes 4 (payN p 8 4))).each (ceilDiv (payN p 8 4) 65536) fun i u => u.jrnlErase 3 i
    ({ v with svc := { v.svc with long := some (0x20, seq, BitVec.ofNat 8 (b2n ok) :: p) } }, .later) := by
  simp only [State.putGo, putRange_false hb, hj]
  simp only [Bool.false_and, Bool.or_false, Bool.false_eq_true, if_false, Bool.not_false, Bool.true_and,
    List.contains_eq_mem, he, decide_false, Option.isSome_none]
  rfl

theorem State.putGo_goesOn (hj : s.svc.jrnl.open_ = some (payN p 0 8, payN p 8 4)) (ha : s.svc.jrnl.actreq = false) :
    s.putGo ok p seq =
      ({ s with svc := { s.svc with long := some (0x20, seq, BitVec.ofNat 8 (b2n ok) :: p) } }, .later) := by
  simp only [State.putGo, putRange_false hb, hj]
  simp [ha]

end PutGo

/-! ### `QUERY_OBJECT`, `ABANDON_OBJECT`, `COMMIT_STAGING` (R392–R394) -/

section Query
variable (hn : p.length = 12) (ho : s.sealedNow = false)
include hn ho

/-- What a `QUERY_OBJECT` is answered of the transfer `u` (R393). -/
def State.queryFields (s : State) (u page : Nat) : List Byte :=
  let has := fun k => decide (k < s.updPages) && runsHas s.svc.jrnl.runs k
  leBytes 8 u ++ leBytes 1 (s.get SVC_UPD_USTATE) ++ leBytes 3 0 ++ leBytes 4 s.updPages ++
    leBytes 4 (runsCount s.svc.jrnl.runs) ++ leBytes 4 page ++
    (List.range 992).map fun k => BitVec.ofNat 8
      ((List.range 8).foldl (fun m i => m + b2n (has (page + 8 * k + i)) * 2 ^ i) 0)

theorem svcActQuery_open : svcActQuery p seq s =
    match s.svc.jrnl.open_ with
    | none => s.says 0x0E
    | some (u, _) =>
      if payN p 0 8 ≠ 0 ∧ payN p 0 8 ≠ u then s.says 0x0E else (s, .answer 0 (s.queryFields u (payN p 8 4))) := by
  unfold svcActQuery
  exact State.svcGate_open (by simp [hn]) ho

theorem svcActQuery_none (hj : s.svc.jrnl.open_ = none) : svcActQuery p seq s = s.says 0x0E := by
  rw [svcActQuery_open hn ho, hj]

variable {u n : Nat} (hj : s.svc.jrnl.open_ = some (u, n))
include hj

theorem svcActQuery_some : svcActQuery p seq s =
    if payN p 0 8 ≠ 0 ∧ payN p 0 8 ≠ u then s.says 0x0E else (s, .answer 0 (s.queryFields u (payN p 8 4))) := by
  rw [svcActQuery_open hn ho, hj]

theorem svcActQuery_other (h0 : payN p 0 8 ≠ 0) (hu : payN p 0 8 ≠ u) : svcActQuery p seq s = s.says 0x0E :=
  (svcActQuery_some hn ho hj).trans (if_pos ⟨h0, hu⟩)

theorem svcActQuery_answers (hu : payN p 0 8 = 0 ∨ payN p 0 8 = u) :
    svcActQuery p seq s = (s, .answer 0 (s.queryFields u (payN p 8 4))) :=
  (svcActQuery_some hn ho hj).trans (if_neg fun h => hu.elim h.1 h.2)

end Query

section Eight
variable (hn : p.length = 8) (ho : s.sealedNow = false) (hc : s.on SUP_STAT_BRACE = false)
include hn ho hc

theorem svcActAbandon_open : svcActAbandon p seq s =
    if !s.flashUsable then s.updFails 6 (payN p 0 8) 0x1A
    else if s.svc.jrnl.open_.isNone || s.updId != payN p 0 8 then s.updFails 6 (payN p 0 8) 0x0E
    else if s.svc.jrnl.actreq then s.updFails 6 (payN p 0 8) 0x06
    else (s.jrnlPut 0x06 (payN p 0 8) []).says 0 := by
  unfold svcActAbandon
  exact State.svcGate_openCalm (by simp [hn]) ho hc

theorem svcActAbandon_unusable (hf : s.flashUsable = false) : svcActAbandon p seq s = s.updFails 6 (payN p 0 8) 0x1A :=
  (svcActAbandon_open hn ho hc).trans (if_pos (by simp [hf]))

theorem svcActAbandon_none (hf : s.flashUsable = true) (h : s.svc.jrnl.open_ = none ∨ s.updId ≠ payN p 0 8) :
    svcActAbandon p seq s = s.updFails 6 (payN p 0 8) 0x0E :=
  (svcActAbandon_open hn ho hc).trans ((if_neg (by simp [hf])).trans (if_pos (by simpa using h)))

section Mine
variable (hf : s.flashUsable = true) (hj : s.svc.jrnl.open_ ≠ none) (hu : s.updId = payN p 0 8)
include hf hj hu

theorem svcActAbandon_mine : svcActAbandon p seq s =
    if s.svc.jrnl.actreq then s.updFails 6 (payN p 0 8) 0x06 else (s.jrnlPut 0x06 (payN p 0 8) []).says 0 :=
  (svcActAbandon_open hn ho hc).trans ((if_neg (by simp [hf])).trans (if_neg (by simp [hj, hu])))

theorem svcActAbandon_activating (ha : s.svc.jrnl.actreq = true) :
    svcActAbandon p seq s = s.updFails 6 (payN p 0 8) 0x06 := (svcActAbandon_mine hn ho hc hf hj hu).trans (if_pos ha)

theorem svcActAbandon_journals (ha : s.svc.jrnl.actreq = false) :
    svcActAbandon p seq s = (s.jrnlPut 0x06 (payN p 0 8) []).says 0 :=
  (svcActAbandon_mine hn ho hc hf hj hu).trans (if_neg (ne_true_of_eq_false ha))

end Mine

theorem svcActCommit_unusable (hf : s.flashUsable = false) : svcActCommit ok p seq s = s.updFails 2 (payN p 0 8) 0x1A := by
  unfold svcActCommit
  rw [State.svcGate_openCalm (by simp [hn]) ho hc]
  exact if_pos (by simp [hf])

section Commit
variable (hf : s.flashUsable = true)
include hf

theorem svcActCommit_none (hj : s.svc.jrnl.open_ = none) : svcActCommit ok p seq s = s.updFails 2 (payN p 0 8) 0x0E := by
  unfold svcActCommit
  rw [State.svcGate_openCalm (by simp [hn]) ho hc]
  refine (if_neg (by simp [hf])).trans ?_
  simp only [hj]

variable {u n : Nat} (hj : s.svc.jrnl.open_ = some (u, n))
include hj

theorem svcActCommit_some : svcActCommit ok p seq s =
    if u ≠ payN p 0 8 then s.updFails 2 (payN p 0 8) 0x0E
    else if s.svc.jrnl.actreq then s.updFails 2 (payN p 0 8) 0x06
    else
      let r := s.commitBuild (payN p 0 8) n ok
      let long := some (0x23, seq, [BitVec.ofNat 8 r.2, BitVec.ofNat 8 (b2n s.cus.reopened)])
      let v := ({ r.1 with svc := { r.1.svc with long := long } } : State)
      ((v.set SVC_UPD_USTATE 2).orF SVC_IRQ_IRQ 4, .later) := by
  unfold svcActCommit
  rw [State.svcGate_openCalm (by simp [hn]) ho hc]
  refine (if_neg (by simp [hf])).trans ?_
  simp only [hj]

theorem svcActCommit_other (hu : u ≠ payN p 0 8) : svcActCommit ok p seq s = s.updFails 2 (payN p 0 8) 0x0E :=
  (svcActCommit_some hn ho hc hf hj).trans (if_pos hu)

variable (hu : u = payN p 0 8)
include hu

theorem svcActCommit_activating (ha : s.svc.jrnl.actreq = true) : svcActCommit ok p seq s = s.updFails 2 (payN p 0 8) 0x06 :=
  (svcActCommit_some hn ho hc hf hj).trans ((if_neg (not_not_intro hu)).trans (if_pos ha))

theorem svcActCommit_builds (ha : s.svc.jrnl.actreq = false) : svcActCommit ok p seq s =
    let r := s.commitBuild (payN p 0 8) n ok
    let v := ({ r.1 with svc := { r.1.svc with
      long := some (0x23, seq, [BitVec.ofNat 8 r.2, BitVec.ofNat 8 (b2n s.cus.reopened)]) } } : State)
    ((v.set SVC_UPD_USTATE 2).orF SVC_IRQ_IRQ 4, .later) :=
  (svcActCommit_some hn ho hc hf hj).trans ((if_neg (not_not_intro hu)).trans (if_neg (ne_true_of_eq_false ha)))

end Commit

/-! ### `ACTIVATE` (R395) -/

theorem svcActActivate_unusable (hf : s.flashUsable = false) : svcActActivate p seq s = s.updFails 3 (payN p 0 8) 0x1A := by
  unfold svcActActivate
  rw [State.svcGate_openCalm (by simp [hn]) ho hc]
  exact if_pos (by simp [hf])

section Activate
variable (hf : s.flashUsable = true)
include hf

theorem svcActActivate_notStaged (h : s.svc.jrnl.staged = none ∨ s.updId ≠ payN p 0 8) :
    svcActActivate p seq s = s.updFails 3 (payN p 0 8) 0x15 := by
  unfold svcActActivate
  rw [State.svcGate_openCalm (by simp [hn]) ho hc]
  refine (if_neg (by simp [hf])).trans ?_
  split
  · rfl
  · next hs => exact if_pos (h.resolve_left (by simp [hs]))

variable {x : Nat × Nat} (hs : s.svc.jrnl.staged = some x) (hu : s.updId = payN p 0 8)
include hs hu

theorem svcActActivate_staged : svcActActivate p seq s =
    if s.on SVC_REPAIR_RSTATE || s.svc.jrnl.actreq then s.updFails 3 (payN p 0 8) 0x06
    else if s.activateBars.1 || s.activateBars.2.1 || s.activateBars.2.2 then
      (s.note 0x0709 0x01 2 (b2n s.activateBars.1 * 2 ^ 79 + b2n s.activateBars.2.1 * 2 ^ 78 +
        b2n s.activateBars.2.2 * 2 ^ 77 + payN p 0 8)).updFails 3 (payN p 0 8)
          (if s.activateBars.1 then 0x16 else if s.activateBars.2.1 then 0x17 else 0x18)
    else
      let m := !s.cus.rec_.sealed_ || (s.cus.rec_.pendv && s.cus.rec_.pdig == beNat (s.contBytes 24 32))
      let v := s.jrnlPut 0x08 (payN p 0 8) []
      ({ v with svc := { v.svc with startAt := v.svc.startAt ++ [(v.svcNextSeq, 0)] } }, .answer 0 (leBytes 1 (b2n m))) := by
  unfold svcActActivate
  rw [State.svcGate_openCalm (by simp [hn]) ho hc]
  refine (if_neg (by simp [hf])).trans ?_
  simp only [hs]
  exact if_neg (not_not_intro hu)

theorem svcActActivate_busy (h : s.on SVC_REPAIR_RSTATE = true ∨ s.svc.jrnl.actreq = true) :
    svcActActivate p seq s = s.updFails 3 (payN p 0 8) 0x06 :=
  (svcActActivate_staged hn ho hc hf hs hu).trans (if_pos (Bool.or_eq_true_iff.2 h))

variable (hr : s.on SVC_REPAIR_RSTATE = false) (ha : s.svc.jrnl.actreq = false)
include hr ha

theorem svcActActivate_barred {moving supply lock : Bool} (hb : s.activateBars = (moving, supply, lock))
    (h : moving = true ∨ supply = true ∨ lock = true) : svcActActivate p seq s =
    (s.note 0x0709 0x01 2 (b2n moving * 2 ^ 79 + b2n supply * 2 ^ 78 + b2n lock * 2 ^ 77 + payN p 0 8)).updFails 3
      (payN p 0 8) (if moving then 0x16 else if supply then 0x17 else 0x18) := by
  refine (svcActActivate_staged hn ho hc hf hs hu).trans ((if_neg (by simp [hr, ha])).trans ?_)
  rw [hb]
  exact if_pos (by simpa [or_assoc] using h)

theorem svcActActivate_requests (hb : s.activateBars = (false, false, false)) : svcActActivate p seq s =
    let m := !s.cus.rec_.sealed_ || (s.cus.rec_.pendv && s.cus.rec_.pdig == beNat (s.contBytes 24 32))
    let v := s.jrnlPut 0x08 (payN p 0 8) []
    ({ v with svc := { v.svc with startAt := v.svc.startAt ++ [(v.svcNextSeq, 0)] } }, .answer 0 (leBytes 1 (b2n m))) := by
  refine (svcActActivate_staged hn ho hc hf hs hu).trans ((if_neg (by simp [hr, ha])).trans ?_)
  rw [hb]
  exact if_neg Bool.false_ne_true

end Activate
end Eight

/-! ### The end of a long command (R376, R391, R394) -/

/-- The state in which a long command has ended. -/
def State.longOver (s : State) : State := { s with svc := { s.svc with long := none } }

theorem State.longEnd_none (h : s.svc.long = none) : s.longEnd = s := by simp only [State.longEnd, h]

section Commit
variable {q : Nat} {bs : List Byte} (h : s.svc.long = some (0x23, q, bs))
include h

theorem State.longEnd_commit_held (hb : s.on SUP_STAT_BRACE = true) : s.longEnd = s := by
  unfold State.longEnd
  rw [h]
  exact if_pos ⟨rfl, hb⟩

theorem State.longEnd_commit (hb : s.on SUP_STAT_BRACE = false) : s.longEnd = (s.longOver.commitRest q bs).attnUpdate := by
  unfold State.longEnd
  rw [h]
  exact (if_neg fun hx => ne_true_of_eq_false hb hx.2).trans (congrArg State.attnUpdate (if_pos rfl))

end Commit

/-- The image is staged, with its digest pending where the session asks for it (R356, R394). -/
theorem State.commitRest_built {bs : List Byte} {q : Nat} (h : leNat (bs.take 1) = 0) : s.commitRest q bs =
    let len := s.contBytes 16 4
    let dig := s.contBytes 24 32
    let v := s.updShow.jrnlPut 0x07 s.updId (len ++ dig.take 8)
    let w := if bs.drop 1 == [1] && v.cus.rec_.sealed_ then v.cusStore { v.cus.rec_ with pdig := beNat dig, pendv := true } else v
    (w.noteUpdate 2 0).svcRespondLate 0x23 q 0 (len ++ dig) := by
  unfold State.commitRest
  simp only [h, if_true]

theorem State.commitRest_failed {bs : List Byte} {q : Nat} (h : leNat (bs.take 1) ≠ 0) : s.commitRest q bs =
    (s.updShow.noteUpdate 2 (leNat (bs.take 1))).svcRespondLate 0x23 q (leNat (bs.take 1)) [] := by
  unfold State.commitRest
  simp only [h, if_false]

section PutEnd
variable {q : Nat} {b : Byte} {pd : List Byte}

theorem State.longEnd_put (h : s.svc.long = some (0x20, q, b :: pd)) : s.longEnd = (s.longOver.putRest q (b :: pd)).attnUpdate := by
  unfold State.longEnd
  rw [h]
  exact (if_neg fun hx => absurd hx.1 (by decide)).trans (congrArg State.attnUpdate (if_neg (by decide)))

theorem State.putRest_brace (hb : s.on SUP_STAT_BRACE = true) : s.putRest q (b :: pd) =
    (({ s with free := s.free + 1 } : State).pagesCut (Config.freeValue s.free % (ceilDiv (pd.drop 16).length 256 + 1))
      (payN pd 12 4 / 256) (pd.drop 16)).svcRespondLate 0x20 q 0x05 [] := if_pos hb

variable (hb : s.on SUP_STAT_BRACE = false)
include hb

/-- The pages of a `PUT_OBJECT` have come to a status (R391, R396). -/
theorem State.putRest_pages {v : State} {st : Nat} (h : s.putPages (b == 1) (payN pd 12 4) (pd.drop 16) = (v, st)) :
    s.putRest q (b :: pd) =
      (if st = 0 then v else v.note 0x0708 0x01 1 (2 ^ 72 + st % 256 * 2 ^ 64 + payN pd 0 8)).svcRespondLate 0x20 q st [] := by
  have hok : ((b :: pd).take 1 == [1]) = (b == 1) := by simp
  refine (if_neg (ne_true_of_eq_false hb)).trans ?_
  rw [hok, show (b :: pd).drop 1 = pd from rfl, h]

end PutEnd

section Pages
variable {ofs : Nat} {data : List Byte}

theorem State.putPages_refused (h : s.pagesDiffer (s.svc.jrnl.runsBefore (ofs / 256)) (ceilDiv data.length 256) (ofs / 256) data = true ∨
    512 < s.svc.jrnl.runsWith (ofs / 256) (ceilDiv data.length 256)) : s.putPages ok ofs data = (s, 0x0F) := by
  unfold State.putPages
  dsimp only
  split_ifs with hd hr
  · rfl
  · rfl
  · exact absurd h (not_or.2 ⟨hd, hr⟩)

variable (hd : s.pagesDiffer (s.svc.jrnl.runsBefore (ofs / 256)) (ceilDiv data.length 256) (ofs / 256) data = false)
  (hr : s.svc.jrnl.runsWith (ofs / 256) (ceilDiv data.length 256) ≤ 512) {v : State}
include hd hr

theorem State.putPages_programs {done : Bool}
    (h : (s.runFirst (ofs / 256)).pagesPut ok (ceilDiv data.length 256) (ofs / 256) data = (v, done)) :
    s.putPages ok ofs data = (v, if done then 0 else 0x1A) := by
  unfold State.putPages
  dsimp only
  rw [if_neg (ne_true_of_eq_false hd), if_neg (Nat.not_lt.2 hr), h]
  cases done <;> rfl

end Pages
end Updates

/-- Settles O52: each command by what it meets in the order of its refusals, and the two ends of long commands. -/
theorem serviceUpdates : Obligations.ServiceUpdates := by
  intro ok seq p rest s t open_ calm j upd fails total ofs data range
  have hrange : range ↔ t.putBreaks p := Iff.rfl
  refine ⟨fun hr h17 h784 ho hc => ⟨fun hf => ?putUnusable, fun hf => ⟨fun h => ?putRange, fun n hj hn => ?putTotal,
      fun hb hj ha => ?putActivating, fun hb hj he => ?putEnded, fun u n hb hj hu => ?putBeside, fun hb hj he => ?putOpens,
      fun hb hj ha => ?putGoesOn⟩⟩, rfl,
    fun hr hn ho => ⟨fun hj => ?queryNone, fun u n hj h0 hu => ?queryOther, fun u n hj hu => ?query⟩,
    fun hr hn ho hc => ⟨fun hf => ?abandonUnusable, fun hf h => ?abandonNone, fun hf hj hu ha => ?abandonActivating,
      fun hf hj hu ha => ?abandon⟩,
    fun hr hn ho hc hf => ⟨fun hj => ?commitNone, fun u n hj hu => ?commitOther, fun n hj ha => ?commitActivating,
      fun n hj ha => ?commit⟩,
    fun h => ?endNone, fun q bs h hb => ?endHeld, fun q bs h hb => ⟨fun h0 => ?endBuilt, fun h0 => ?endFailed⟩,
    fun q b pd h => ⟨fun hb => ?putCut, fun hb => ⟨fun hd => ?putRefused, fun hd hw v => ⟨fun hp => ?putDone,
      fun hp => ?putFailed⟩⟩⟩,
    fun hr hn ho hc hf => ?commitUnusable, fun hr hn ho hc hf => ?activateUnusable,
    fun hr hn ho hc hf => ⟨fun h => ?activateNone, fun x hs hu h => ?activateBusy, fun x hs hu h ha => ⟨fun hb => ?barred,
      fun hm hs' hl => ?activate⟩⟩, fun h => ?noWait, fun q k more h => ?wait⟩
  case putUnusable => exact exec_svc_fails hr rfl rfl (svcActPut_unusable (s := t) h17 h784 ho hc hf)
  case putRange =>
    exact exec_svc_fails hr rfl rfl ((svcActPut_usable (s := t) h17 h784 ho hc hf).trans (State.putGo_range h))
  case putTotal =>
    exact exec_svc_fails hr rfl rfl ((svcActPut_usable (s := t) h17 h784 ho hc hf).trans (State.putGo_otherTotal hj hn))
  case putActivating =>
    exact exec_svc_fails hr rfl rfl ((svcActPut_usable (s := t) h17 h784 ho hc hf).trans (State.putGo_activating hb hj ha))
  case putEnded =>
    exact exec_svc_fails hr rfl rfl ((svcActPut_usable (s := t) h17 h784 ho hc hf).trans (State.putGo_ended hb hj he))
  case putBeside =>
    exact exec_svc_fails hr rfl rfl ((svcActPut_usable (s := t) h17 h784 ho hc hf).trans (State.putGo_beside hb hj hu))
  case putOpens =>
    exact exec_svc_later hr rfl rfl ((svcActPut_usable (s := t) h17 h784 ho hc hf).trans (State.putGo_opens hb hj he))
  case putGoesOn =>
    exact exec_svc_later hr rfl rfl ((svcActPut_usable (s := t) h17 h784 ho hc hf).trans (State.putGo_goesOn hb hj ha))
  case queryNone => exact exec_svc_answers hr rfl rfl (svcActQuery_none (s := t) hn ho hj)
  case queryOther => exact exec_svc_answers hr rfl rfl (svcActQuery_other (s := t) hn ho hj h0 hu)
  case query => exact exec_svc_answers hr rfl rfl (svcActQuery_answers (s := t) hn ho hj hu)
  case abandonUnusable => exact exec_svc_fails hr rfl rfl (svcActAbandon_unusable (s := t) hn ho hc hf)
  case abandonNone => exact exec_svc_fails hr rfl rfl (svcActAbandon_none (s := t) hn ho hc hf h)
  case abandonActivating => exact exec_svc_fails hr rfl rfl (svcActAbandon_activating (s := t) hn ho hc hf hj hu ha)
  case abandon => exact exec_svc_answers hr rfl rfl (svcActAbandon_journals (s := t) hn ho hc hf hj hu ha)
  case commitNone => exact exec_svc_fails hr rfl rfl (svcActCommit_none (s := t) hn ho hc hf hj)
  case commitOther => exact exec_svc_fails hr rfl rfl (svcActCommit_other (s := t) hn ho hc hf hj hu)
  case commitActivating => exact exec_svc_fails hr rfl rfl (svcActCommit_activating (s := t) hn ho hc hf hj rfl ha)
  case commit => exact exec_svc_later hr rfl rfl (svcActCommit_builds (s := t) hn ho hc hf hj rfl ha)
  case endNone => exact outcome_next_congr (State.longEnd_none h)
  case endHeld => exact outcome_next_congr (State.longEnd_commit_held h hb)
  case endBuilt =>
    exact outcome_next_congr ((State.longEnd_commit h hb).trans (congrArg State.attnUpdate (State.commitRest_built h0)))
  case endFailed =>
    exact outcome_next_congr ((State.longEnd_commit h hb).trans (congrArg State.attnUpdate (State.commitRest_failed h0)))
  case putCut =>
    exact outcome_next_congr ((State.longEnd_put h).trans (congrArg State.attnUpdate (State.putRest_brace hb)))
  case putRefused =>
    exact outcome_next_congr ((State.longEnd_put h).trans (congrArg State.attnUpdate
      (State.putRest_pages (s := s.longOver) hb (State.putPages_refused hd))))
  case putDone =>
    exact outcome_next_congr ((State.longEnd_put h).trans (congrArg State.attnUpdate
      (State.putRest_pages (s := s.longOver) hb (State.putPages_programs hd hw hp))))
  case putFailed =>
    exact outcome_next_congr ((State.longEnd_put h).trans (congrArg State.attnUpdate
      (State.putRest_pages (s := s.longOver) hb (State.putPages_programs hd hw hp))))
  case commitUnusable => exact exec_svc_fails hr rfl rfl (svcActCommit_unusable (s := t) hn ho hc hf)
  case activateUnusable => exact exec_svc_fails hr rfl rfl (svcActActivate_unusable (s := t) hn ho hc hf)
  case activateNone => exact exec_svc_fails hr rfl rfl (svcActActivate_notStaged (s := t) hn ho hc hf h)
  case activateBusy => exact exec_svc_fails hr rfl rfl (svcActActivate_busy (s := t) hn ho hc hf hs hu h)
  case barred => exact exec_svc_answers hr rfl rfl (svcActActivate_barred (s := t) hn ho hc hf hs hu h ha rfl hb)
  case activate =>
    refine exec_svc_answers hr rfl rfl (svcActActivate_requests (s := t) hn ho hc hf hs hu h ha ?_)
    exact Prod.ext hm (Prod.ext hs' hl)
  case noWait => exact outcome_next_congr (by simp only [State.startWaitEnd, h])
  case wait => exact outcome_next_congr (by simp only [State.startWaitEnd, h])

end Sys2Proof.Machine

/-! SUPPORT. Repairs over the service port (R377, R378, R397, R398): how they begin, the vacating and the reload, and the statement
about them (O53). -/

namespace Sys2Proof.Machine

/-! ### A repair begins (R397) -/

section Begins
variable {s : State} {group : Bool} {p : List Byte} {seq : Nat} (hn : p.length = 2)
  (hx : payN p 0 1 < if group then 4 else 16) (h1 : payN p 1 1 ≤ 1) (ho : s.sealedNow = false)
  (hc : s.on SUP_STAT_BRACE = false)
include hn hx h1 ho hc

theorem svcActRepair_open : svcActRepair group p seq s =
    match s.repairBar with
    | some st => s.says st
    | none => (s.repairBegin group (payN p 0 1) seq (bit (payN p 1 1) 0), .later) := by
  unfold svcActRepair
  exact State.svcGate_openCalm (by simp only [hn, decide_eq_false (Nat.not_le.2 hx), decide_eq_false (Nat.not_lt.2 h1)]; rfl) ho hc

theorem svcActRepair_minimum (hm : s.cus.phase = .minimum) : svcActRepair group p seq s = s.says 0x1B := by
  rw [svcActRepair_open hn hx h1 ho hc, show s.repairBar = some 0x1B from if_pos hm]

variable (hm : s.cus.phase ≠ .minimum)
include hm

theorem svcActRepair_busy (hb : s.on SVC_REPAIR_RSTATE = true ∨ s.svc.jrnl.actreq = true) :
    svcActRepair group p seq s = s.says 0x06 := by
  have hbar : s.repairBar = some 0x06 := (if_neg hm).trans (if_pos (Bool.or_eq_true_iff.2 hb))
  rw [svcActRepair_open hn hx h1 ho hc, hbar]

theorem svcActRepair_begins (hr : s.on SVC_REPAIR_RSTATE = false) (ha : s.svc.jrnl.actreq = false) :
    svcActRepair group p seq s = (s.repairBegin group (payN p 0 1) seq (bit (payN p 1 1) 0), .later) := by
  have hbar : s.repairBar = none := (if_neg hm).trans (if_neg (by simp [hr, ha]))
  rw [svcActRepair_open hn hx h1 ho hc, hbar]

end Begins

theorem svcActRepairProc_open {s : State} {p : List Byte} {seq : Nat} (hn : p.length = 0) (ho : s.sealedNow = false)
    (hc : s.on SUP_STAT_BRACE = false) : svcActRepairProc p seq s =
      ({ s with svc := { s.svc with startAt := s.svc.startAt ++ [(s.svcNextSeq, 1)] } }, .answer 0 []) := by
  unfold svcActRepairProc
  exact State.svcGate_openCalm (by simp [hn]) ho hc

/-! ### The reload (R397, R398) -/

section Reload
variable (s : State) (x : Nat)

theorem State.repairCluster_eq : s.repairCluster x =
    let one := ((s.set SVC_REPAIR_RSTATE 2).cluReset x).repairImage fun a =>
      decide (0x50000000 + x * 0x100000 ≤ a) && decide (a < 0x50000000 + x * 0x100000 + 0x100000)
    if one.2 then one.1.set SVC_REPAIR_RSTATE 3
    else ((one.1.set (CLU_CTL_CKEN x) 0).cluClock x true).repairEnd 0x1B 0 0 := by
  unfold State.repairCluster
  dsimp only
  split <;> simp only [*, if_true, Bool.false_eq_true, if_false]

theorem State.repairGroup_eq : s.repairGroup x =
    let grp := fun a => decide (0x60000000 + x * 0x100000 ≤ a) && decide (a < 0x60000000 + x * 0x100000 + 0x100000)
    let ctl := fun a => a % 0x40000 == 0x00 || a % 0x40000 == 0x40
    let all := (((s.dspFlush.set SVC_REPAIR_RSTATE 2).set (LDSP_GCTL_RST x) 1).dspGroup x).repairImage fun a => grp a && !ctl a
    let last := ((all.1.set (LDSP_GCTL_RST x) 0).dspGroup x).repairImage fun a => grp a && ctl a
    if all.2 = false then all.1.repairEnd 0x1B 0 0 else last.1.repairEnd (if last.2 then 0 else 0x1B) 0 0 := by
  unfold State.repairGroup
  dsimp only
  split <;> simp only [*, if_true, Bool.true_eq_false, if_false]

end Reload

/-! ### The vacating (R397) -/

section Vacating
variable (s : State)

/-- Whether the clusters of a repair still hold channels. -/
def State.repairHeld : Bool := s.repairClusters.any fun c => decide (0 < s.engCount c 1 + s.engCount c 3)

/-- The clusters of a repair that lose the channels they still hold. -/
def State.repairFreed : State :=
  if s.repairHeld then s.repairClusters.foldl (fun u c => u.eachEng c fun e v => v.chanForced e) s else s

variable {s}

theorem State.repairGo_none (h : s.get SVC_REPAIR_RSTATE ≠ 1) : s.repairGo = s := if_pos h

variable (h : s.get SVC_REPAIR_RSTATE = 1)
include h

theorem State.repairGo_noFree (hh : s.repairHeld = true) (hf : s.svc.repair.force = false) :
    s.repairGo = s.repairEnd 0x19 0 0 := by
  unfold State.repairHeld at hh
  exact (if_neg (not_not_intro h)).trans (if_pos (by rw [hh, hf]; rfl))

theorem State.repairGo_reloads (hh : s.repairHeld = false ∨ s.svc.repair.force = true) : s.repairGo =
    if s.repairFreed.on SVC_REPAIR_GROUP then s.repairFreed.repairGroup (s.repairFreed.get SVC_REPAIR_TARGET)
    else s.repairFreed.repairCluster (s.repairFreed.get SVC_REPAIR_TARGET) := by
  have hgo : ¬(s.repairHeld && !s.svc.repair.force) = true := by rcases hh with hh | hh <;> simp [hh]
  have hfreed : (if s.repairHeld then s.repairClusters else []).foldl
      (fun u c => u.eachEng c fun e v => v.chanForced e) s = s.repairFreed := by
    unfold State.repairFreed
    split <;> rfl
  refine (if_neg (not_not_intro h)).trans ((if_neg hgo).trans ?_)
  rw [← hfreed]
  rfl

end Vacating

theorem State.repairLate_early {s : State} (h : s.reached s.svc.repair.at_ (10 * 10 ^ 9) = false) : s.repairLate = s :=
  if_neg (ne_true_of_eq_false h)

theorem State.repairLate_due {s : State} (h : s.reached s.svc.repair.at_ (10 * 10 ^ 9) = true) :
    s.repairLate = s.repairGo.attnUpdate := if_pos h

/-- Settles O53: how the three commands begin, and the vacating's ends by the state of the repair and of its clusters. -/
theorem serviceRepairs : Obligations.ServiceRepairs := by
  intro seq p rest s t pass idle x opt begun
  refine ⟨fun hr hn hx h1 hp => ⟨fun hm => ?cluMinimum, fun hm hb => ?cluBusy, fun hi => ?cluBegins⟩,
    fun hr hn hx h1 hp => ⟨fun hm => ?grpMinimum, fun hm hb => ?grpBusy, fun hi => ?grpBegins⟩, fun hr hn hp => ?proc, ?rest⟩
  case cluMinimum => exact exec_svc_answers hr rfl rfl (svcActRepair_minimum (s := t) (group := false) hn hx h1 hp.1 hp.2 hm)
  case cluBusy => exact exec_svc_answers hr rfl rfl (svcActRepair_busy (s := t) (group := false) hn hx h1 hp.1 hp.2 hm hb)
  case cluBegins =>
    obtain ⟨hm, hst, ha⟩ := hi
    exact exec_svc_later hr rfl rfl (svcActRepair_begins (s := t) (group := false) hn hx h1 hp.1 hp.2 hm hst ha)
  case grpMinimum => exact exec_svc_answers hr rfl rfl (svcActRepair_minimum (s := t) (group := true) hn hx h1 hp.1 hp.2 hm)
  case grpBusy => exact exec_svc_answers hr rfl rfl (svcActRepair_busy (s := t) (group := true) hn hx h1 hp.1 hp.2 hm hb)
  case grpBegins =>
    obtain ⟨hm, hst, ha⟩ := hi
    exact exec_svc_later hr rfl rfl (svcActRepair_begins (s := t) (group := true) hn hx h1 hp.1 hp.2 hm hst ha)
  case proc => exact exec_svc_answers hr rfl rfl (svcActRepairProc_open (s := t) hn hp.1 hp.2)
  case rest =>
  intro held late freed x clu grp ctl one all last go
  have hgo (hs : s.get SVC_REPAIR_RSTATE = 1) (hh : held = false ∨ s.svc.repair.force = true) : s.repairGo = go := by
    rw [State.repairGo_reloads hs hh]
    change (if freed.on SVC_REPAIR_GROUP then freed.repairGroup x else freed.repairCluster x) = go
    rw [State.repairGroup_eq, State.repairCluster_eq]
  refine ⟨fun hs => ⟨?otherAnswer, ?otherTimeout⟩, fun hl => ?early, fun hs => ⟨fun hl hh hf => ?noFree, fun hl hh => ?reloads,
    fun hc => ?noAnswer, fun hc => ?answered⟩⟩
  case otherAnswer => exact outcome_next_congr (if_neg fun h => hs h.1)
  case otherTimeout =>
    refine outcome_next_congr ?_
    unfold State.repairLate
    rw [State.repairGo_none hs]
  case early => exact outcome_next_congr (State.repairLate_early hl)
  case noFree =>
    exact outcome_next_congr ((State.repairLate_due hl).trans (congrArg State.attnUpdate (State.repairGo_noFree hs hh hf)))
  case reloads => exact outcome_next_congr ((State.repairLate_due hl).trans (congrArg State.attnUpdate (hgo hs hh)))
  case noAnswer => exact outcome_next_congr (if_neg fun h => hc h.2)
  case answered => exact outcome_next_congr (if_pos ⟨hs, hc⟩)

end Sys2Proof.Machine

/-! SUPPORT. Register accesses, latched reads and the test access port (ch. 18, R428): what they come to, and the statement about
them (O54). -/

namespace Sys2Proof.Machine

/-! ### Writes (R402, R405, R406) -/

section Writes
variable {s : State} {m : Master} {a w : Nat}

/-- The seal holds for a master's write. -/
theorem State.lockHolds_iff : s.lockHolds m = true ↔
    s.sealedNow = true ∧ ¬(m = .loader ∧ (s.cus.phase = .walk ∨ s.get SVC_REPAIR_RSTATE = 2)) := by
  simp [State.lockHolds, imp_iff_not_or]

/-- A write that is accepted where the seal locks every writable field does nothing. -/
theorem State.busDo_locked (hm : memClass a = none) (h4 : a % 4 = 0)
    (hb : ¬(0x50000000 ≤ a ∧ a < 0x51000000 ∧ a / 0x10000 % 16 = 2)) (hok : s.busAllowed m a true = true)
    (he : s.writeError m a w = false) (hl : s.lockHolds m = true)
    (hf : ∀ f ∈ regsAt a, f.2.lockable = true ∨ f.2 = .ro) : s.busDo m a 4 w = s.dspSteps := by
  have hall : (s.lockHolds m && (regsAt a).all fun f => f.2.lockable || f.2 == .ro) = true := by
    simpa [hl, List.all_eq_true] using hf
  simp only [State.busDo, State.busWrite, hok, hm, h4, he, if_neg hb, State.regWrite, if_pos hall] <;> rfl

/-- What a register write refused by the bus or by R402 comes to. -/
theorem State.busDo_register_refused {n : Nat} (hm : memClass a = none)
    (h : s.busAllowed m a true = false ∨ n ≠ 4 ∨ a % 4 ≠ 0 ∨
      (¬(0x50000000 ≤ a ∧ a < 0x51000000 ∧ a / 0x10000 % 16 = 2) ∧ s.writeError m a w = true)) :
    s.busDo m a n w = s.busError m a true := by
  refine State.busDo_refused ?_
  by_cases hok : s.busAllowed m a true = true
  · simp only [State.busWrite, hok, hm, Bool.not_true, Bool.false_eq_true, if_false]
    by_cases hn : n ≠ 4 ∨ a % 4 ≠ 0
    · exact if_pos hn
    · obtain ⟨hb, he⟩ : ¬(0x50000000 ≤ a ∧ a < 0x51000000 ∧ a / 0x10000 % 16 = 2) ∧ s.writeError m a w = true := by
        simpa [hok, or_assoc, hn, not_or.1 hn] using h
      rw [if_neg hn, if_neg hb, if_pos he]
  · exact State.busWrite_of_not_allowed (Bool.eq_false_iff.2 hok) n w

/-- The rules by which R402 refuses a write whole. -/
theorem State.writeError_of (h : w ||| fieldMask (regsAt a) ≠ fieldMask (regsAt a) ∨ (∀ f ∈ regsAt a, f.2 = .ro) ∨
      (s.lockHolds m = true ∧ ∃ f ∈ regsAt a, f.2.lockable = true ∧ s.fieldHeld f.1 ≠ bits w f.1.hi f.1.lo) ∨
      (a = 0x4002001C ∧ bit w 30 = true ∧ m ≠ .cust)) : s.writeError m a w = true := by
  simp only [State.writeError, Bool.or_eq_true, Bool.and_eq_true, bne_iff_ne, List.all_eq_true, List.any_eq_true, beq_iff_eq,
    and_assoc, or_assoc]
  exact h

end Writes

/-- The registers of the always-on domain whose write waits for the next tick. -/
theorem rtcLateReg_iff (a : Nat) : rtcLateReg a = true ↔ a = 0x40020018 ∨ a = 0x4002001C ∨ a = 0x40020024 := by
  simp [rtcLateReg, or_assoc]

/-! ### The navigation core's own protection (R407) -/

/-- No entry that is off covers an address. -/
theorem pmpFind_off {a : Nat} {l : List PmpEntry} (h : ∀ e ∈ l, e.mode = .off) (base : Nat) : pmpFind a base l = none := by
  induction l generalizing base with
  | nil => rfl
  | cons e l ih =>
    have he : e.covers base a = false := by simp only [PmpEntry.covers, h e List.mem_cons_self]
    simp only [pmpFind, he, Bool.false_eq_true, if_false]
    exact ih (fun x hx => h x (List.mem_cons_of_mem e hx)) _

/-- Outside machine mode no access is permitted where no entry is on. -/
theorem NavBoot.permits_off {b : NavBoot} (hm : b.machine = false) (h : ∀ e ∈ b.pmp, e.mode = .off) (k : NavAccess) (a : Nat) :
    b.permits k a = false := by
  simp only [NavBoot.permits, pmpFind_off h, hm]

theorem NavBoot.fault_of_not_permits {b : NavBoot} {k : NavAccess} {a : Nat} (h : b.permits k a = false) :
    b.fault k a ≠ none := by
  cases k <;> simp [NavBoot.fault, h]

theorem NavBoot.fault_outside {b : NavBoot} {a : Nat} (h : memClass a ≠ some .nav) :
    b.fault .fetch a = some 1 ∧ b.fault .atomic a = some 7 := by
  simp [NavBoot.fault, h]

theorem State.busAllowed_nav_fault {s : State} {a : Nat} {write : Bool}
    (h : s.nav.boot.fault (if write then .store else .load) a ≠ none) : s.busAllowed .nav a write = false := by
  have hagent : (s.nav.boot.fault (if write then .store else .load) a).isNone = false := by
    simpa [Option.isNone_eq_false_iff, Option.isSome_iff_ne_none] using h
  simp only [State.busAllowed, hagent, Bool.false_and]

/-! ### Reads that latch a group (R403) -/

/-- At `b` a group of registers begins, `count` after it, and none ends there. -/
def latchesFrom (b count : Nat) : Bool :=
  memClass b == none && b % 4 == 0 && !(regsAt b).isEmpty &&
    !(decide (0x40200400 ≤ b) && decide (b < 0x40201C00) && b % 0x40 == 0x20) && latchCount b == count && latchBack b == 0 &&
    b != 0x40040210

/-- A read at a group's begin latches the group. -/
theorem State.busGet_group {s : State} {m : Master} {a b count : Nat} (hb : latchesFrom b count = true) (hab : a = b) (sub : Nat)
    (hok : s.busAllowed m b false = true) : s.busGet m a 4 sub =
      (List.range count).foldl (fun t i => t.hold m (b + 4 * (i + 1)) ((s.busView b sub).regValue (b + 4 * (i + 1)))) s := by
  subst hab
  simp only [latchesFrom, Bool.and_eq_true, beq_iff_eq, Bool.not_eq_true', bne_iff_ne, List.isEmpty_eq_false_iff] at hb
  obtain ⟨⟨⟨⟨⟨⟨hmem, h4⟩, hreg⟩, hcap⟩, hcount⟩, hback⟩, hnew⟩ := hb
  refine State.busGet_latches sub hok hmem h4 hreg ?_ hcount hback hnew
  simpa [Bool.and_eq_false_iff] using hcap

theorem latchesFrom_slkFmt (n : Fin 8) : latchesFrom (0x40050018 + 0x100 * n.val) 2 = true := by revert n; decide

theorem latchesFrom_snpHtime (h : Fin 8) : latchesFrom (0x40070118 + 0x40 * h.val) 2 = true := by revert h; decide

theorem latchesFrom_tpNext (k : Fin 2) : latchesFrom (0x40040110 + 0x40 * k.val) 2 = true := by revert k; decide

/-- Where an engine's registers lie. -/
theorem engAddr_page (e : Fin 1024) {o : Nat} (h : o < 0x400) : engAddr e o / 0x10000 = 0x5001 + 16 * (e.val / 64) := by
  unfold engAddr; omega

theorem engAddr_ofs (e : Fin 1024) {o : Nat} (h : o < 0x400) : engAddr e o % 0x10000 = 0x400 * (e.val % 64) + o := by
  unfold engAddr; omega

/-- Among the registers of an engine one begins a latched group. -/
theorem latchCount_eng (e : Fin 1024) {o : Nat} (h : o < 0x400) : latchCount (engAddr e o) = if o = 0x44 then 5 else 0 := by
  have hpage : 0x5001 ≤ 0x5001 + 16 * (e.val / 64) ∧ 0x5001 + 16 * (e.val / 64) < 0x5100 ∧
      (0x5001 + 16 * (e.val / 64)) % 16 = 1 := by omega
  have hin : 0x5000 ≤ 0x5001 + 16 * (e.val / 64) ∧ 0x5001 + 16 * (e.val / 64) < 0x5100 ∧
      (0x5001 + 16 * (e.val / 64)) % 16 = 1 := by omega
  have hofs : (0x400 * (e.val % 64) + o) % 0x400 = o := by omega
  simp only [latchCount, engAddr_page e h, engAddr_ofs e h, if_pos hin, hofs]
  iterate 8 rw [if_neg (by omega)]

theorem regsAt_engPhase (e : Fin 1024) : regsAt (engAddr e 0x44) ≠ [] := by
  have h44 : (0x44 : Nat) < 0x400 := by decide
  have hlow : ¬0x5001 + 16 * (e.val / 64) < 0x5000 := by omega
  have hhigh : 0x5001 + 16 * (e.val / 64) < 0x5100 := by omega
  have hslot : (0x5001 + 16 * (e.val / 64)) % 16 = 1 := by omega
  have hofs : (0x400 * (e.val % 64) + 0x44) % 0x400 = 0x44 := by omega
  simp [regsAt, engAddr_page e h44, engAddr_ofs e h44, hlow, hhigh, hslot, hofs, engRegs]

/-- An engine's live phases begin a group of six. -/
theorem latchesFrom_engPhase (e : Fin 1024) : latchesFrom (engAddr e 0x44) 5 = true := by
  have hback : latchBack (engAddr e 0x44) = 0 := latchBack_none fun i hi => by
    rw [show engAddr e 0x44 - 4 * (i + 1) = engAddr e (0x40 - 4 * i) by unfold engAddr; omega,
      latchCount_eng e (by omega), if_neg (by omega)]
    exact Nat.zero_ne_add_one i
  have hcap : ¬engAddr e 0x44 < 0x40201C00 := by unfold engAddr; omega
  have hnew : engAddr e 0x44 ≠ 0x40040210 := by unfold engAddr; omega
  simp [latchesFrom, memClass_engAddr, engAddr_word, regsAt_engPhase, latchCount_eng, hback, hcap, hnew]

/-! ### The captured stamps (R292) -/

theorem regsAt_telCap (l : Fin 96) : regsAt (0x40200420 + 0x40 * l.val) ≠ [] := by revert l; decide

/-- A read of `TEL_CAP_SH` takes the oldest stamp, holds its words for the master and releases the first (R292, R403). -/
theorem State.busGet_telCap {s : State} {m : Master} {a : Nat} (l : Fin 96) (ha : a = 0x40200420 + 0x40 * l.val)
    (hok : s.busAllowed m a false = true) : s.busGet m a 4 = (s.telCapRead m l.val).release m a := by
  have hmem : memClass a = none := memClass_blocks (by omega)
  have hreg : regsAt a ≠ [] := ha ▸ regsAt_telCap l
  have hbad : ¬((4 : Nat) ≠ 4 ∨ a % 4 ≠ 0 ∨ regsAt a = []) := by simp [hreg]; omega
  have hcap : 0x40200400 ≤ a ∧ a < 0x40201C00 ∧ a % 0x40 = 0x20 := by omega
  have hline : (a - 0x40200400) / 0x40 = l.val := by omega
  simp only [State.busGet, State.busRead, hok, hmem, if_neg hbad, State.regRead, if_pos hcap, hline, Bool.not_true,
    Bool.false_eq_true, if_false]

theorem State.telCapRead_eq (s : State) (m : Master) (l : Nat) : s.telCapRead m l =
    let b := 0x40200420 + 0x40 * l
    let y := s.line l
    let st := match y.fifo with | [] => 0 | (t, _) :: _ => t
    let fall := match y.fifo with | [] => false | (_, f) :: _ => f
    let t := (s.setLine l { y with fifo := y.fifo.tail }).set (TEL_FILL_FILL l) y.fifo.tail.length
    let t := if y.fifo.tail = [] then t.setTelBit TEL_CAPNE_MAP l false else t
    ((t.hold m b (st % 2 ^ 16 * 2 ^ 16 + bits st 95 80)).hold m (b + 4) (bits st 79 48)).hold m (b + 8)
      (b2n fall * 2 ^ 31 + b2n (y.fifo != []) * 2 ^ 30 + bits st 47 16) := by
  have hb : 0x40200400 + l * 0x40 + 0x20 = 0x40200420 + 0x40 * l := by omega
  unfold State.telCapRead
  rw [hb]
  dsimp only
  rcases hf : (s.line l).fifo with _ | ⟨⟨t, f⟩, more⟩ <;> simp <;> rfl

/-- Settles O54: a write by the rule that meets it, a read by the group that it begins, and the port by what it holds. -/
theorem registerAccess : Obligations.RegisterAccess := by
  intro m a size w x s image locked late
  have hlocked : s.lockHolds m = true ↔ locked := State.lockHolds_iff
  refine ⟨fun hm => ⟨fun h4 hb hl => ?accepted, fun hl hw => ?waits, fun h4 hb hok he hl hf => ?allLocked, fun h => ?refused⟩,
    fun h => ?error, fun b h => NavBoot.fault_outside h, fun b k hb h => NavBoot.fault_of_not_permits (NavBoot.permits_off hb h k a),
    fun h => State.busAllowed_nav_fault (write := true) h, fun h => State.busAllowed_nav_fault (write := false) h,
    fun write => rfl, fun d write => rfl, fun n h k e l sub => ?reads, rfl, ?acts⟩
  case accepted =>
    exact Writes.of_hook rfl hm h4 hb (Bool.eq_false_iff.2 fun h => hl ((rtcLateReg_iff a).1 h)) fun t => rfl
  case waits =>
    have hrtc : 0x40020000 ≤ a ∧ a < 0x40030000 ∧ a % 4 = 0 := by rcases hl with rfl | rfl | rfl <;> omega
    exact outcome_next_congr (State.busDo_rtcLater hw ⟨hrtc.1, hrtc.2.1⟩ hrtc.2.2 ((rtcLateReg_iff a).2 hl))
  case allLocked => exact outcome_next_congr (State.busDo_locked hm h4 hb hok he (hlocked.2 hl) hf)
  case refused =>
    refine outcome_next_congr (State.busDo_register_refused hm (h.imp_right fun h => h.imp_left fun hs => ?_))
    cases size
    · decide
    · decide
    · exact absurd rfl hs
  case error => rw [← hlocked] at h; exact State.writeError_of h
  case acts =>
    refine if_congr ?_ rfl rfl
    simp [tapDrives, or_assoc, imp_iff_not_or]
  case reads =>
    intro latches
    refine ⟨fun hok => ?_, fun hok => ?_, fun hok => ?_, fun hok => ?_, fun hok => ?_, fun hok => ?_, fun hok => ?_,
      fun hok => ?_, fun hok => ?_, fun hok => ?_, fun hok => ?_, fun hok => ?_, fun hok => ?_, fun hok => ?_, ?capture⟩
    · exact outcome_next_congr (State.busGet_group (latchesFrom_slkFmt n) (by simp only [SLK_FMT_SH_FRAC]; omega) 0 hok)
    · exact outcome_next_congr (State.busGet_group (latchesFrom_snpHtime h) (by simp only [SNP_HTIME_SH_FRAC]; omega) 0 hok)
    · exact outcome_next_congr (State.busGet_group (by decide) rfl sub hok)
    · exact outcome_next_congr (State.busGet_group (by decide) rfl 0 hok)
    · exact outcome_next_congr (State.busGet_group (latchesFrom_tpNext k) (by simp only [TIM_TP_NXT_SH_FRAC]; omega) 0 hok)
    · exact outcome_next_congr (State.busGet_group (by decide) rfl 0 hok)
    · exact outcome_next_congr (State.busGet_group (latchesFrom_engPhase e) (by simp only [ENG_CPH_C_CHIP, engAddr]; omega) 0 hok)
    · exact outcome_next_congr (State.busGet_group (by decide) rfl 0 hok)
    · exact outcome_next_congr (State.busGet_group (by decide) rfl 0 hok)
    · exact outcome_next_congr (State.busGet_group (by decide) rfl 0 hok)
    · exact outcome_next_congr (State.busGet_group (by decide) rfl 0 hok)
    · exact outcome_next_congr (State.busGet_group (by decide) rfl 0 hok)
    · exact outcome_next_congr (State.busGet_group (by decide) rfl 0 hok)
    · exact outcome_next_congr (State.busGet_group (by decide) rfl 0 hok)
    case capture =>
      intro b y st fall t t' hok
      have hb : (TEL_CAP_SH_FRAC l.val).addr = b := by simp only [TEL_CAP_SH_FRAC, b]; omega
      have hread : s.busGet m (TEL_CAP_SH_FRAC l.val).addr 4 = (s.telCapRead m l.val).release m b :=
        hb ▸ State.busGet_telCap l hb (hb ▸ hok)
      exact outcome_next_congr (hread.trans (congrArg (State.release · m b) (State.telCapRead_eq s m l.val)))

end Sys2Proof.Machine

/-! SUPPORT. The block as a whole: a step and the queue (O56), the state after reset and what each reset of R24 and R25 puts back
(O57). -/

namespace Sys2Proof.Machine

/-- Settles O56: a step is its front command, which goes on (`exec_goes`) and keeps what `Keeps` says (`exec_keeps`). -/
theorem stepRunsFront : Obligations.StepRunsFront := by
  intro c rest s
  refine ⟨step_of_pending_cons, step_of_pending_nil, ?_⟩
  obtain ⟨t, ht⟩ := exec_goes c s
  have hkeeps := exec_keeps c ht
  obtain ⟨l, hl⟩ := hkeeps.sent
  exact ⟨t, ht, hkeeps.queue, hkeeps.part, l, hl.symm⟩

/-! ### Tables that a reset filters -/

section Filter
variable {α : Type} {p : Nat × α → Bool} {i : Nat}

/-- An entry whose key the filter lets through is found as before. -/
theorem tblFind_filter_kept (h : ∀ v, p (i, v) = true) (t : Tbl α) : tblFind (t.filter p) i = tblFind t i := by
  induction t with
  | nil => rfl
  | cons e t ih =>
    obtain ⟨k, v⟩ := e
    by_cases hk : k = i
    · subst hk
      simp [tblFind, h]
    · by_cases hp : p (k, v) = true <;> simp [tblFind, hp, hk, ih]

/-- An entry whose key the filter takes out is not found. -/
theorem tblFind_filter_dropped (h : ∀ v, p (i, v) = false) (t : Tbl α) : tblFind (t.filter p) i = none := by
  induction t with
  | nil => rfl
  | cons e t ih =>
    obtain ⟨k, v⟩ := e
    by_cases hk : k = i
    · subst hk
      simp [h, ih]
    · by_cases hp : p (k, v) = true <;> simp [tblFind, hp, hk, ih]

theorem tblGet_filter_kept (h : ∀ v, p (i, v) = true) (t : Tbl α) (d : α) : tblGet (t.filter p) d i = tblGet t d i := by
  rw [tblGet, tblFind_filter_kept h, tblGet]

theorem tblGet_filter_dropped (h : ∀ v, p (i, v) = false) (t : Tbl α) (d : α) : tblGet (t.filter p) d i = d := by
  rw [tblGet, tblFind_filter_dropped h, Option.getD_none]

end Filter

/-! ### Register fields under a reset -/

section Fields
variable {f : Field} (hlo : f.lo < 32)
include hlo

/-- A field's key lies in a range of addresses as its address does. -/
theorem Field.key_range (lo hi : Nat) :
    (decide (lo * 32 ≤ f.key) && decide (f.key < hi * 32)) = (decide (lo ≤ f.addr) && decide (f.addr < hi)) := by
  have hlow : lo * 32 ≤ f.key ↔ lo ≤ f.addr := by unfold Field.key; omega
  have hhigh : f.key < hi * 32 ↔ f.addr < hi := by unfold Field.key; omega
  rw [decide_eq_decide.2 hlow, decide_eq_decide.2 hhigh]

theorem State.clearRegs_get_out {lo hi : Nat} (h : ¬(lo ≤ f.addr ∧ f.addr < hi)) (s : State) :
    (s.clearRegs lo hi).get f = s.get f :=
  tblGet_filter_kept (fun _ => by rw [Field.key_range hlo]; simpa only [Bool.not_eq_true', Bool.and_eq_true, decide_eq_true_eq, ← Bool.not_eq_true]
    using h) _ _

theorem State.clearRegs_get_in {lo hi : Nat} (h : lo ≤ f.addr ∧ f.addr < hi) (s : State) : (s.clearRegs lo hi).get f = f.rst :=
  tblGet_filter_dropped (fun _ => by rw [Field.key_range hlo]; simpa using h) _ _

end Fields

/-- The self-tests of the clusters begin (R80): every other field stands. -/
def State.testsBegin (s : State) : State := s.each 16 fun c s => s.set (CLU_CTL_BUSY c) 1

theorem State.testsBegin_get {f : Field} (h : ¬∃ c < 16, f.key = (CLU_CTL_BUSY c).key) (s : State) :
    s.testsBegin.get f = s.get f := by
  refine List.foldlRecOn _ _ (motive := fun t : State => t.get f = s.get f) rfl fun t ht c hc => ?_
  exact (State.set_get_ne t 1 fun hk => h ⟨c, List.mem_range.1 hc, hk.symm⟩).trans ht

/-- What holds of a state and of every state with a field set, holds with the self-tests begun. -/
theorem State.testsBegin_rest {β : Type} (g : State → β) (hg : ∀ s f v, g (State.set s f v) = g s) (s : State) :
    g s.testsBegin = g s :=
  List.foldlRecOn _ _ (motive := fun t : State => g t = g s) rfl fun _ ht _ _ => (hg _ _ _).trans ht

/-! ### The reset of the processing domains (R24, R97) -/

/-- The registers of the `PROC` domain. -/
def inProc (f : Field) : Prop := (0x40070000 ≤ f.addr ∧ f.addr < 0x40080000) ∨ (0x50000000 ≤ f.addr ∧ f.addr < 0x70000000)

theorem busy_inProc {f : Field} (hlo : f.lo < 32) (h : ∃ c < 16, f.key = (CLU_CTL_BUSY c).key) : inProc f := by
  obtain ⟨c, hc, hk⟩ := h
  simp only [Field.key, CLU_CTL_BUSY] at hk
  simp only [inProc]
  omega

/-- The state in which the self-tests of a `PROC` reset begin. -/
def State.procCleared (s : State) : State :=
  let s := if s.nav.running then { s with net := { s.net with ident := some s.identNow } } else s
  let s := (s.clearRegs 0x40070000 0x40080000).clearRegs 0x50000000 0x70000000
  let s := (s.clearLatches 0x40070000 0x40080000).clearLatches 0x50000000 0x70000000
  ({ s with
    engs := [], clus := [], handles := [], replay := {}, maps := [], chans := [], lates := [], dsps := []
    nav := {}, mordant := {} } : State).wipeSnap

theorem State.procReset_eq (s : State) : s.procReset = s.procCleared.testsBegin := rfl

/-- The memories of a part that loses what its snapshot memory holds, in the MRAM. -/
theorem memDefault_mram (p : PartSt) (n n' c c' : Nat) {a : Nat} (h : 0x90000000 ≤ a ∧ a < 0x90800000) :
    memDefault p n c a = memDefault p n' c' a := (if_pos h).trans (if_pos h).symm

section Proc
variable (s : State) {f : Field}

theorem State.procCleared_reg : s.procCleared.reg = ((s.clearRegs 0x40070000 0x40080000).clearRegs 0x50000000 0x70000000).reg := by
  unfold State.procCleared
  dsimp only
  split <;> rfl

theorem State.procCleared_get (f : Field) :
    s.procCleared.get f = ((s.clearRegs 0x40070000 0x40080000).clearRegs 0x50000000 0x70000000).get f :=
  congrArg (tblGet · f.rst f.key) s.procCleared_reg

theorem State.procReset_get_out (hlo : f.lo < 32) (h : ¬inProc f) : s.procReset.get f = s.get f := by
  obtain ⟨hsnp, hproc⟩ := not_or.1 h
  rw [State.procReset_eq, State.testsBegin_get (fun ht => h (busy_inProc hlo ht)), State.procCleared_get,
    State.clearRegs_get_out hlo hproc, State.clearRegs_get_out hlo hsnp]

theorem State.procReset_get_in (hlo : f.lo < 32) (h : inProc f) (ht : ¬∃ c < 16, f.key = (CLU_CTL_BUSY c).key) :
    s.procReset.get f = f.rst := by
  rw [State.procReset_eq, State.testsBegin_get ht, State.procCleared_get]
  by_cases hproc : 0x50000000 ≤ f.addr ∧ f.addr < 0x70000000
  · exact State.clearRegs_get_in hlo hproc _
  · rw [State.clearRegs_get_out hlo hproc, State.clearRegs_get_in hlo (h.resolve_right hproc)]

theorem State.procCleared_fields : s.procCleared.rtc = s.rtc ∧ s.procCleared.tim = s.tim ∧ s.procCleared.tps = s.tps ∧
    s.procCleared.plls = s.plls ∧ s.procCleared.lines = s.lines ∧ s.procCleared.itg = s.itg ∧ s.procCleared.umb = s.umb := by
  unfold State.procCleared
  dsimp only
  split <;> exact ⟨rfl, rfl, rfl, rfl, rfl, rfl, rfl⟩

/-- What neither the navigation core's identity kept for the network nor the cleared tables concern, stands. -/
theorem State.procReset_rest {β : Type} (g : State → β) (hg : ∀ s f v, g (State.set s f v) = g s)
    (h : g s.procCleared = g s) : g s.procReset = g s := (State.testsBegin_rest g hg _).trans h

theorem State.procReset_byteAt {a : Nat} (h : 0x90000000 ≤ a ∧ a < 0x90800000) : s.procReset.byteAt a = s.byteAt a := by
  refine s.procReset_rest (·.byteAt a) (fun _ _ _ => rfl) ?_
  have hmem : s.procCleared.mem = s.mem.filter fun e => !(decide (0x70000000 ≤ e.1) && decide (e.1 < 0x72000000)) := by
    unfold State.procCleared
    dsimp only
    split <;> rfl
  have hpart : s.procCleared.part = s.part := by
    unfold State.procCleared
    dsimp only
    split <;> rfl
  have hout : ¬a < 0x72000000 := by omega
  rw [State.byteAt, cellGet, hmem, hpart, tblGet_filter_kept (fun _ => by simp [hout]), memDefault_mram _ _ s.wipes _ s.colds h]
  rfl

end Proc

/-! ### The reset of a cold start (R24, R25) -/

/-- The state in which the self-tests of a cold start's reset begin. -/
def State.coldCleared (s : State) : State :=
  let s := s.outputsRest.wipeCold
  let z : State := State.reset
  let keep := fun (e : Nat × Nat) => decide (0x40020000 * 32 ≤ e.1) && decide (e.1 < 0x40030000 * 32)
  let inRtc := fun (e : Nat × Nat) => decide (0x40020000 ≤ e.1 % 2 ^ 32) && decide (e.1 % 2 ^ 32 < 0x40030000)
  let inMram := fun (e : Nat × Bool) => decide (0x90000000 ≤ e.1)
  let sup : SupSt := { powered := s.sup.powered, rstLow := s.sup.rstLow, pfw := s.sup.pfw, io33 := s.sup.io33,
                       core := s.sup.core, ioShort := s.sup.ioShort }
  { z with
    reg := s.reg.filter keep, mem := s.mem, flash := s.flash, wipes := s.wipes, colds := s.colds
    ecc := s.ecc.filter inMram, latch := s.latch.filter inRtc, rtc := s.rtc, sup := sup
    tap := s.tap, part := s.part, out := s.out, free := s.free, pending := s.pending }

theorem State.coldReset_eq (s : State) : s.coldReset = s.coldCleared.testsBegin := rfl

/-- What an output's level at rest leaves: all but the time pulses and what is sent. -/
theorem State.outputsRest_rest {β : Type} (g : State → β) (htp : ∀ s n x, g (State.setTp s n x) = g s)
    (hout : ∀ s o, g (State.emit s o) = g s) (s : State) : g s.outputsRest = g s := by
  have hpulses : g s.pulsesRest = g s :=
    List.foldlRecOn _ _ (motive := fun t : State => g t = g s) rfl fun t ht n _ => by
      change g (t.tpDrive n false) = g s
      unfold State.tpDrive
      split
      · exact ht
      · exact (hout _ _).trans ((htp _ _ _).trans ht)
  unfold State.outputsRest
  dsimp only
  split
  · exact (hout _ _).trans hpulses
  · exact hpulses

section Cold
variable (s : State) {f : Field} (hlo : f.lo < 32)

theorem State.coldCleared_reg : s.coldCleared.reg =
    s.reg.filter fun e => decide (0x40020000 * 32 ≤ e.1) && decide (e.1 < 0x40030000 * 32) :=
  congrArg (List.filter _) (State.outputsRest_rest (·.reg) (fun _ _ _ => rfl) (fun _ _ => rfl) s)

include hlo

theorem State.coldReset_get_aon (h : 0x40020000 ≤ f.addr ∧ f.addr < 0x40030000) : s.coldReset.get f = s.get f := by
  have ht : ¬∃ c < 16, f.key = (CLU_CTL_BUSY c).key := fun ht => by
    have := busy_inProc hlo ht
    simp only [inProc] at this
    omega
  rw [State.coldReset_eq, State.testsBegin_get ht, State.get, State.coldCleared_reg]
  exact tblGet_filter_kept (fun _ => by rw [Field.key_range hlo]; simpa using h) _ _

theorem State.coldReset_get_other (h : ¬(0x40020000 ≤ f.addr ∧ f.addr < 0x40030000))
    (ht : ¬∃ c < 16, f.key = (CLU_CTL_BUSY c).key) : s.coldReset.get f = f.rst := by
  rw [State.coldReset_eq, State.testsBegin_get ht, State.get, State.coldCleared_reg]
  exact tblGet_filter_dropped (fun _ => by rw [Field.key_range hlo]; simpa using h) _ _

omit hlo

theorem State.coldReset_rtc : s.coldReset.rtc = s.rtc :=
  (State.testsBegin_rest (·.rtc) (fun _ _ _ => rfl) _).trans
    (State.outputsRest_rest (·.rtc) (fun _ _ _ => rfl) (fun _ _ => rfl) s)

theorem State.coldReset_byteAt {a : Nat} (h : 0x90000000 ≤ a ∧ a < 0x90800000) : s.coldReset.byteAt a = s.byteAt a := by
  refine (State.testsBegin_rest (·.byteAt a) (fun _ _ _ => rfl) _).trans ?_
  have hrest : s.outputsRest.byteAt a = s.byteAt a :=
    State.outputsRest_rest (·.byteAt a) (fun _ _ _ => rfl) (fun _ _ => rfl) s
  refine Eq.trans ?_ hrest
  have hkept : ∀ v : Byte, (decide (0x90000000 ≤ a) && decide (a < 0x90800000)) = true := fun _ => by simp [h]
  exact (tblGet_filter_kept hkept _ _).trans (congrArg (tblGet _ · a) (memDefault_mram _ _ _ _ _ h))

end Cold

/-! ### The reset of the always-on domain (R308) -/

theorem State.rtcReset_get_aon (s : State) {f : Field} (hlo : f.lo < 32) (h : 0x40020000 ≤ f.addr ∧ f.addr < 0x40030000) :
    s.rtcReset.get f = f.rst := State.clearRegs_get_in hlo h s

theorem State.rtcReset_get_other (s : State) {f : Field} (hlo : f.lo < 32)
    (h : ¬(0x40020000 ≤ f.addr ∧ f.addr < 0x40030000)) : s.rtcReset.get f = s.get f := State.clearRegs_get_out hlo h s

/-! ### The state after reset (R405) -/

/-- An octet of the MRAM that nothing has written reads all ones on a new part, but for the identity block. -/
theorem reset_byteAt_blank {a : Nat} (h0 : 0x90000000 ≤ a) (h1 : a < 0x90800000) (h : a < 0x90708000 ∨ 0x90708014 ≤ a) :
    State.reset.byteAt a = 0xFF := by
  have hid : ¬(0x708000 ≤ a - 0x90000000 ∧ a - 0x90000000 < 0x708014) := by omega
  refine (if_pos ⟨h0, h1⟩).trans ?_
  unfold PartSt.mram
  rw [if_neg hid]
  split <;> rfl

/-- Every slot of the record is blank on a new part. -/
theorem reset_slot_blank {k : Nat} (h : k < 131072) : State.reset.bytesAt (slotAddr k) 32 = List.replicate 32 0xFF := by
  refine List.eq_replicate_iff.2 ⟨by simp [State.bytesAt], fun b hb => ?_⟩
  simp only [State.bytesAt, List.mem_map, List.mem_range] at hb
  obtain ⟨i, hi, rfl⟩ := hb
  unfold slotAddr
  exact reset_byteAt_blank (by omega) (by omega) (.inl (by omega))

/-- Settles O57: the state after reset by evaluation, each reset by the range of registers that it clears. -/
theorem resetState : Obligations.ResetState := by
  refine ⟨⟨by decide +kernel, by decide +kernel⟩, rfl, rfl, rfl, rfl, rfl, rfl, fun f => rfl, fun a => reset_byteAt_blank,
    by decide +kernel, by decide +kernel, fun k => reset_slot_blank, fun s f a hlo => ?_⟩
  obtain ⟨hrtc, htim, htps, hplls, hlines, hitg, humb⟩ := s.procCleared_fields
  exact ⟨s.procReset_get_out hlo, s.procReset_get_in hlo, s.coldReset_get_aon hlo, s.coldReset_get_other hlo,
    s.rtcReset_get_other hlo, s.rtcReset_get_aon hlo, s.procReset_rest (·.rtc) (fun _ _ _ => rfl) hrtc,
    s.procReset_rest (·.tim) (fun _ _ _ => rfl) htim, s.procReset_rest (·.tps) (fun _ _ _ => rfl) htps,
    s.procReset_rest (·.plls) (fun _ _ _ => rfl) hplls, s.procReset_rest (·.lines) (fun _ _ _ => rfl) hlines,
    s.procReset_rest (·.itg) (fun _ _ _ => rfl) hitg, s.procReset_rest (·.umb) (fun _ _ _ => rfl) humb,
    s.coldReset_rtc, fun h0 h1 => ⟨s.procReset_byteAt ⟨h0, h1⟩, s.coldReset_byteAt ⟨h0, h1⟩⟩⟩

end Sys2Proof.Machine
